-- ==== Sys2Proof/Word.lean ====
section
/-! DEFINITION. Sys2Proof/Word.lean: the byte and the register word. -/

namespace Sys2Proof

/-- One byte of memory, of a register or of a message. -/
abbrev Byte := BitVec 8

/-- A 64-bit Aperture register (R11) or scalar register (R192). -/
abbrev Word := BitVec 64

/-- One 32-bit lane of a vector register (R192). -/
abbrev Lane := BitVec 32

/-- A run of bytes, first byte first (R10: multi-byte fields are little-endian). -/
abbrev Bytes := List Byte

end Sys2Proof
end

