-- ==== Sys2Proof/Syntax.lean ====
section
/-! DEFINITION. Sys2Proof/Syntax.lean: the commands of the part, one constructor per row of the opcode table. -/

namespace Sys2Proof

/-- A request as the driver writes it into a mailbox's request buffer (R72), but for OPCODE, which the command
gives, together with `defer`, the choice that firmware makes at this issue where R78 leaves one: to answer PENDING
and finish later, or to finish within the mailbox. -/
structure Request where
  /-- mailbox number; 256 + n is the private mailbox of the agent on agent core n (R98) -/
  mailbox  : Nat
  /-- FLAGS, bytes [3:2] (R73) -/
  flags    : Nat
  /-- TAG, bytes [5:4] -/
  tag      : Nat
  /-- CONTEXT, byte [6] -/
  context  : Nat
  /-- reserved byte [7] -/
  rsv7     : Nat
  /-- LENGTH, bytes [11:8] -/
  length   : Nat
  /-- reserved bytes [15:12] -/
  rsv12    : Nat
  /-- SEQUENCE, bytes [23:16] -/
  sequence : Nat
  /-- reserved bytes [31:24] -/
  rsv24    : Nat
  /-- payload bytes, at most 2,016 -/
  payload  : Bytes
  /-- firmware's choice at this issue (R78) -/
  defer    : Bool
deriving DecidableEq, Repr

/-- The fields of one vector instruction word (R193), but for OP, which the command gives. -/
structure VecFields where
  d   : Nat
  s1  : Nat
  s2  : Nat
  s3  : Nat
  m   : Nat
  men : Bool
  /-- IMM as its 32-bit pattern -/
  imm : Nat
deriving DecidableEq, Repr

/-- The Aperture block that an access falls into. The Facet Table fixes no layout (R2), so a block is named and the
offset of an access counts from the block's start. -/
inductive Block where
  /-- IDENT and FACET_BASE, and the published table itself (R44, R51, R52) -/
  | facet
  /-- a mailbox (R68) -/
  | mailbox (m : Nat)
  /-- the 64-byte register group of a ring (R352) -/
  | ring (j : Nat)
  /-- the CFG_ block (R96) -/
  | cfg
  /-- the register block of a unit, by Facet TYPE and INSTANCE (R62) -/
  | unit (ty inst : Nat)
deriving DecidableEq, Repr

/-- What an agent core can name (R98): its image and data window by offset, a register of a ring through the agent window, its private
mailbox, its timer, and anything else. -/
inductive AgentPlace where
  | image (off : Nat)
  | data (off : Nat)
  | ring (j off : Nat)
  | mailbox (off : Nat)
  | timer
  | other
deriving DecidableEq, Repr

/-- What an agent core does next (R98): an illegal instruction, a fetch or load of `n` bytes, or a store. -/
inductive AgentAct where
  | illegal
  | fetch (at_ : AgentPlace) (n : Nat)
  | load (at_ : AgentPlace) (n : Nat)
  | store (at_ : AgentPlace) (bytes : List Byte)
deriving DecidableEq, Repr

/-- A contribution to the commit word of another member (R309). -/
structure Contribution where
  dev      : Nat
  shardsOk : Bool
  scaleOk  : Bool
  localNf  : Bool
  reducedNf : Bool
  attempt  : Nat
  cls      : Nat
  tensor   : Nat
  norm     : Nat
deriving DecidableEq, Repr

/-- A commit word (R309). -/
structure CommitWord where
  /-- cause byte, as in the step block (R310) -/
  cause    : Nat
  isLocal  : Bool
  /-- 0xFFFF when there is no report -/
  vetoDev  : Nat
  vetoTensor : Nat
  /-- fp32 pattern -/
  norm     : Nat
  participants : Nat
deriving DecidableEq, Repr

/-- The retained range of one exchange (R463). -/
structure DeltaEnt where
  bucket : Nat
  count  : Nat
  addr   : Nat
  bytes  : Bytes
deriving DecidableEq, Repr

/-- What was sent to the buddy for one attempt (R463), with the attempt's word once it is known. -/
structure Delta where
  attempt : Nat
  word    : Option CommitWord
  ents    : List DeltaEnt
  /-- bytes of the EARLY regions of TEMPLATE, in list order -/
  early   : List Bytes
deriving DecidableEq, Repr

/-- A descriptor that firmware issues for a forward program (R164): the ring of context 0 and the unit instance it goes to, the
address of the ring's slots where firmware creates the ring with it, and the 64 bytes as firmware has substituted them. -/
structure FwIssue where
  ring : Nat
  inst : Nat
  base : Nat
  desc : Bytes
deriving DecidableEq, Repr

/-- The commands and events of the part: one constructor per row of the opcode table, with the operands the
row needs. A mailbox command carries the request that the driver has placed in a mailbox; a ring task carries the
ring whose head descriptor the unit takes up; an event carries what the part observes when it happens. -/
inductive Instr where
  /-- SYS_NOP (R82): Mailbox command that does nothing and completes OK. -/
  | sysNop (q : Request)
  /-- SYS_ECHO (R82): Mailbox command that returns its payload bytes unchanged. -/
  | sysEcho (q : Request)
  /-- SYS_INFO (R82): Returns firmware build id, active slot, SCI revision and uptime. -/
  | sysInfo (q : Request)
  /-- SYS_TIME (R82): Returns the current tick and the pod synchronisation flag. -/
  | sysTime (q : Request)
  /-- SYS_EVENT_RING (R82): Binds or unbinds the event ring of the issuing context. -/
  | sysEventRing (q : Request)
  /-- SYS_RESET (R565): Completes at acceptance and starts a WARM or COLD reset about 1 ms later. -/
  | sysReset (q : Request)
  /-- CFG_BEGIN (R90): Opens the context's single configuration transaction and returns its id. -/
  | cfgBegin (q : Request)
  /-- CFG_SET (R92): Checks and stages up to 125 setting items, expanding INSTANCE 0xFFFF, all or none. -/
  | cfgSet (q : Request)
  /-- CFG_COMMIT (R93): Queues the transaction, sends staged items to each affected instance and waits for them to accept and hold. -/
  | cfgCommit (q : Request)
  /-- CFG_ROLLBACK (R95): Discards an open transaction in staging state. -/
  | cfgRollback (q : Request)
  /-- CFG_QUERY (R595): Returns the value in effect of one setting of one instance. -/
  | cfgQuery (q : Request)
  /-- CFG_COMMIT_ALL_HOLD (R93): When every affected instance holds, the items are applied, the commit tick recorded and holds released. -/
  | cfgCommitAllHold
  /-- CFG_COMMIT_REJECT (R93): An instance rejects staged items, so every hold is released and the commit ends E_REJECTED. -/
  | cfgCommitReject (ty : Nat) (inst : Nat)
  /-- CFG_QUIESCE_TIMEOUT (R93): After 100 ms without every instance holding, holds are released and the commit ends E_NOT_QUIESCENT. -/
  | cfgQuiesceTimeout
  /-- CFG_TXN_TIMEOUT (R95): A transaction not committed 10 s after CFG_BEGIN is rolled back automatically. -/
  | cfgTxnTimeout (ctx : Nat)
  /-- CTX_CREATE (R82): Administrative command that takes a context from FREE to ACTIVE with its quotas, nonce and HBM key. -/
  | ctxCreate (q : Request)
  /-- CTX_DESTROY (R567): Resets a context under the reset sequence and returns it to FREE. -/
  | ctxDestroy (q : Request)
  /-- CTX_SET_QUOTA (R81): Replaces a context's quota block. -/
  | ctxSetQuota (q : Request)
  /-- CTX_QUERY (R82): Returns a context's quotas, current use and state. -/
  | ctxQuery (q : Request)
  /-- CTX_ASSIGN_MAILBOX (R67): Assigns a tenant mailbox to a context and sets its EXPECT to 1. -/
  | ctxAssignMailbox (q : Request)
  /-- CTX_RELEASE_MAILBOX (R83): Unassigns a tenant mailbox unless it is BUSY. -/
  | ctxReleaseMailbox (q : Request)
  /-- CTX_RESET (R567): Takes a context through RESETTING, releasing its resources except mailboxes and quotas, back to ACTIVE. -/
  | ctxReset (q : Request)
  /-- CTX_AGENT_LOAD (R97): Loads and measures an agent image on the lowest free agent core and reserves its data window. -/
  | ctxAgentLoad (q : Request)
  /-- CTX_AGENT_START (R99): Starts an agent from its entry point. -/
  | ctxAgentStart (q : Request)
  /-- CTX_AGENT_STOP (R99): Stops an agent before its next instruction. -/
  | ctxAgentStop (q : Request)
  /-- CTX_AGENT_UNLOAD (R99): Removes a loaded agent from its core. -/
  | ctxAgentUnload (q : Request)
  /-- AGENT_FAULT (R98): An agent access outside its rights or an illegal instruction stops the agent and writes a unit notification. -/
  | agentFault (agent : Nat) (act : AgentAct)
  /-- MEM_ALLOC (R353): Allocates whole pages in one stack, records the owner and zeroes them under the owner's key. -/
  | memAlloc (q : Request)
  /-- MEM_FREE (R82): Returns an allocation of the issuing context to the free pool. -/
  | memFree (q : Request)
  /-- MEM_MAP_HOST (R82): Creates a host window and returns its handle. -/
  | memMapHost (q : Request)
  /-- MEM_UNMAP_HOST (R346): Removes a host window unless a ring or task uses it. -/
  | memUnmapHost (q : Request)
  /-- MEM_COPY (R82): Copies bytes between device and host memory on a firmware DMA ring. -/
  | memCopy (q : Request)
  /-- MEM_QUERY (R82): Returns the context's memory held and host window count. -/
  | memQuery (q : Request)
  /-- RING_CREATE (R85): Creates a ring of a given kind, checking unit ownership and ring limits. -/
  | ringCreate (q : Request)
  /-- RING_DESTROY (R86): Destroys a ring unless a unit holds part of it or it is named elsewhere. -/
  | ringDestroy (q : Request)
  /-- RING_DRAIN (R86): Stops new task fetches on a descriptor ring and lets the task in progress finish or be cut. -/
  | ringDrain (q : Request)
  /-- RING_QUERY (R82): Returns a ring's creation payload, indices and stop state. -/
  | ringQuery (q : Request)
  /-- RING_DRAIN_COMPLETE (R333): The unit becomes idle on a draining ring, which goes to DRAINED and the drain command completes. -/
  | ringDrainComplete (ring : Nat)
  /-- IMG_OPEN (R169): Reserves a contiguous teacher-region extent and a Store key for a new image. -/
  | imgOpen (q : Request)
  /-- IMG_WRITE (R171): Programs image chunks in ascending order from device memory, a host window or a network binding. -/
  | imgWrite (q : Request)
  /-- IMG_CHUNK_PROGRAMMED (R171): A chunk's TLC program ends, counting it as programmed and freeing room for the next chunk. -/
  | imgChunkProgrammed (img : Nat) (w : Nat)
  /-- IMG_CLOSE (R173): Accepts an image for read-back verification and moves it to CLOSING. -/
  | imgClose (q : Request)
  /-- IMG_VERIFY_COMPLETE (R173): Read-back checks end and the image becomes READY or FAILED. -/
  | imgVerifyComplete (img : Nat)
  /-- IMG_ACTIVATE (R167): Activates or deactivates an image, taking ownership if it has none. -/
  | imgActivate (q : Request)
  /-- IMG_DELETE (R172): Destroys the image's Store key and moves it to DELETING. -/
  | imgDelete (q : Request)
  /-- IMG_DELETE_COMPLETE (R167): The image's blocks have been released and the handle ceases to exist. -/
  | imgDeleteComplete (img : Nat)
  /-- IMG_QUERY (R169): Returns an image's state, owner, flags, progress and digest. -/
  | imgQuery (q : Request)
  /-- JOB_CREATE (R302): Checks a job header and bindings and creates a job in CREATED. -/
  | jobCreate (q : Request)
  /-- JOB_START (R303): Binds the job's Prism rings, loads step state and starts the teacher program. -/
  | jobStart (q : Request)
  /-- JOB_STOP (R304): Stops the teacher at its next END and Update Unit rings outside a window, then resets Prism rings. -/
  | jobStop (q : Request)
  /-- JOB_STOP_WINDOW_TIMEOUT (R304): An update window still open 10 s after JOB_STOP aborts the job as INCONSISTENT. -/
  | jobStopWindowTimeout (job : Nat)
  /-- JOB_QUERY (R300): Returns a job's state, context and step block. -/
  | jobQuery (q : Request)
  /-- JOB_LEDGER_READ (R322): Returns Timing Ledger entries of a job. -/
  | jobLedgerRead (q : Request)
  /-- SRV_QUEUE_CREATE (R391): Creates a serving queue and, if needed, the model from its model block. -/
  | srvQueueCreate (q : Request)
  /-- SRV_QUEUE_WEIGHT (R392): Sets a queue's weight, closing it at weight 0. -/
  | srvQueueWeight (q : Request)
  /-- SRV_SUBMIT (R416): Enters a request as QUEUED in the request table. -/
  | srvSubmit (q : Request)
  /-- SRV_CANCEL (R412): Marks a request CANCELLED for release at the next boundary. -/
  | srvCancel (q : Request)
  /-- SRV_PAUSE (R413): At the next boundary writes a request's Summary State and releases its pages. -/
  | srvPause (q : Request)
  /-- SUMMARY_WRITE_LANDED (R413): The Summary State write lands, pages are released and the entry reads PAUSED. -/
  | summaryWriteLanded (entry : Nat) (ok : Bool)
  /-- SRV_RESUME (R414): Checks a Summary State and returns the paused request to QUEUED. -/
  | srvResume (q : Request)
  /-- SUMMARY_RESTORE_COMPLETE (R414): Restored pages are written and the request enters DECODE with a RESUMED entry. -/
  | summaryRestoreComplete (entry : Nat) (ok : Bool)
  /-- SRV_PREFIX_CREATE (R404): Registers a prefix handle over the first N positions of a request. -/
  | srvPrefixCreate (q : Request)
  /-- SRV_PREFIX_RELEASE (R404): Removes a prefix handle and its page references. -/
  | srvPrefixRelease (q : Request)
  /-- SRV_SAMPLER_SET (R406): Writes one of the context's 256 sampler parameter sets. -/
  | srvSamplerSet (q : Request)
  /-- MIR_CKPT (R457): Starts a checkpoint of a region list at L1, L2 or L3 between attempts. -/
  | mirCkpt (q : Request)
  /-- CKPT_CAPTURE_DONE (R457): The last EARLY byte is read, the checkpoint goes to COPYING and an event is written. -/
  | ckptCaptureDone (ckpt : Nat)
  /-- CKPT_MANIFEST_WRITTEN (R457): The manifest write ends and the checkpoint becomes COMPLETE. -/
  | ckptManifestWritten (ckpt : Nat) (ok : Bool)
  /-- MIR_RESTORE (R460): Writes a COMPLETE checkpoint into a region list and loads its step block. -/
  | mirRestore (q : Request)
  /-- MIR_SNAPSHOT (R471): Takes a group-wide L2 or L3 checkpoint on a consistent cut. -/
  | mirSnapshot (q : Request)
  /-- MIR_SPARE_PROTECT (R453): Protects a student job with a buddy, log, template and retention, starting an L1 checkpoint. -/
  | mirSpareProtect (q : Request)
  /-- MIR_SPARE_DESIGNATE (R454): Designates this device as a spare for a group with a standby job. -/
  | mirSpareDesignate (q : Request)
  /-- MIR_SPARE_RESERVE (R475): Reserves student-side pages as a buddy reservation for a protected device. -/
  | mirSpareReserve (q : Request)
  /-- MIR_SPARE_RELEASE (R475): Ends a protection, designation or reservation. -/
  | mirSpareRelease (q : Request)
  /-- MIR_TAKEOVER_BEGIN (R468): Gives the spare the lost rank, restores its L1 checkpoint and queues retained deltas. -/
  | mirTakeoverBegin (q : Request)
  /-- TAKEOVER_RESTORE_COMPLETE (R468): Restore and delta placement end and the replay event is written. -/
  | takeoverRestoreComplete (job : Nat) (data : List (List Byte)) (block : List Byte) (deltas : List Delta)
  /-- MIR_TAKEOVER_END (R470): Compares replayed state with survivors and returns the group to READY. -/
  | mirTakeoverEnd (q : Request)
  /-- MIR_LOG_QUERY (R474): Returns replay-log entries from the SLC log. -/
  | mirLogQuery (q : Request)
  /-- POD_JOIN (R446): Sets the pod number and waits until expected members are reachable. -/
  | podJoin (q : Request)
  /-- POD_JOIN_TIMEOUT (R446): POD_JOIN completes after 1 s with the members reached. -/
  | podJoinTimeout
  /-- POD_GROUP_CREATE (R440): Creates a group in FORMING from an ordered member list and key. -/
  | podGroupCreate (q : Request)
  /-- GROUP_FORMED (R440): Identical creation is seen from every member and the group becomes READY, or FAILED on mismatch. -/
  | groupFormed (group : Nat) (identical : Bool)
  /-- POD_BARRIER (R446): Runs a barrier over a group and reports the release tick. -/
  | podBarrier (q : Request)
  /-- POD_RESET (R446): Resets a group's collectives, all pod collectives, or warm-resets listed devices. -/
  | podReset (q : Request)
  /-- BEAM_ROUTE_QUERY (R446): Returns the port mask and hop count to a destination. -/
  | beamRouteQuery (q : Request)
  /-- BEAM_PORT_QUERY (R446): Returns a beam port's state, peer and optics. -/
  | beamPortQuery (q : Request)
  /-- LOUPE_SENSORS (R552): Returns sensor readings of a die or the package. -/
  | loupeSensors (q : Request)
  /-- LOUPE_LEDGER (R545): Returns the margin ledger. -/
  | loupeLedger (q : Request)
  /-- LOUPE_LOG_READ (R552): Returns event log entries in a SEQ range. -/
  | loupeLogRead (q : Request)
  /-- LOUPE_POWER_CAP (R552): Lowers the sustained and burst power caps until cold reset. -/
  | loupePowerCap (q : Request)
  /-- LOUPE_FW_STAGE (R549): Writes a firmware bundle into the non-running slot for verification. -/
  | loupeFwStage (q : Request)
  /-- FW_STAGE_VERIFIED (R549): Bundle verification ends and the slot becomes STAGED or INVALID. -/
  | fwStageVerified
  /-- LOUPE_FW_ACTIVATE (R550): Puts the STAGED slot on trial and warm-resets into it. -/
  | loupeFwActivate (q : Request)
  /-- LOUPE_FW_COMMIT (R550): Ends the trial and advances the anti-rollback counter one fuse step at a time. -/
  | loupeFwCommit (q : Request)
  /-- FUSE_STEP_COMPLETE (R550): One anti-rollback fuse step finishes and the next starts or COMMIT completes. -/
  | fuseStepComplete
  /-- LOUPE_FW_REVERT (R550): Warm-resets into the FALLBACK slot. -/
  | loupeFwRevert (q : Request)
  /-- FW_TRIAL_TIMEOUT (R550): New SCI firmware not ready within 30 s makes the ROM boot the FALLBACK slot. -/
  | fwTrialTimeout
  /-- SEC_CERTS (R511): Returns bytes of a certificate chain slot. -/
  | secCerts (q : Request)
  /-- SEC_MEASUREMENTS (R512): Returns an AK-signed SPDM measurements response for a context. -/
  | secMeasurements (q : Request)
  /-- SEC_CTX_KEY_ROLL (R514): Unwraps and installs a context secret and optionally re-keys the context's HBM. -/
  | secCtxKeyRoll (q : Request)
  /-- KEY_ROLL_REENCRYPT_COMPLETE (R516): Every page of the context is re-encrypted and the old HBM key destroyed. -/
  | keyRollReencryptComplete (ctx : Nat)
  /-- SEC_DEBUG_QUERY (R511): Returns the debug state, port openness, running SVN and counter. -/
  | secDebugQuery (q : Request)
  /-- SEC_DEBUG_STAGE_UNLOCK (R525): Stages a signed unlock token for the next cold reset. -/
  | secDebugStageUnlock (q : Request)
  /-- SEC_DEBUG_CANCEL (R525): Cancels a staged unlock token. -/
  | secDebugCancel (q : Request)
  /-- COMMAND_EVENT_RECORD (R78): A PENDING command finishes and its final event record is written to the event ring. -/
  | commandEventRecord (ctx : Nat) (handle : Nat)
  /-- MAILBOX_OVERRUN (R70): A GO write while the mailbox is BUSY is ignored and sets OVERRUN. -/
  | mailboxOverrun (mb : Nat)
  /-- RING_TAIL_WRITE (R331): Software advances TAIL, validated against HEAD; on a descriptor ring it is the doorbell. -/
  | ringTailWrite (ring : Nat) (value : Nat)
  /-- RING_HEAD_WRITE (R331): Software advances HEAD of a producer ring, freeing slots for held records. -/
  | ringHeadWrite (ring : Nat) (value : Nat)
  /-- RING_CTRL_RESTART (R333): Writing RESTART moves a DRAINED ring to RUNNING, fetching from HEAD. -/
  | ringCtrlRestart (ring : Nat)
  /-- RING_CTRL_ARM (R335): Setting ARM requests one MSI-X message on the next TAIL advance. -/
  | ringCtrlArm (ring : Nat)
  /-- SNAP_TAKE (R40): A TAKE write starts a counter capture or queues one behind the capture in progress. -/
  | snapTake (ty : Nat) (inst : Nat)
  /-- SNAP_CAPTURE_COMPLETE (R39): Latched counters reach the shadows, SEQ increments and a queued capture starts. -/
  | snapCaptureComplete (ty : Nat) (inst : Nat)
  /-- RC_FIELD_READ (R591): A read covering a whole RC field returns it and clears it in one operation. -/
  | rcFieldRead (blk : Block) (off : Nat) (size : Nat)
  /-- REGISTER_WRITE (R12): A write to a register without a row of its own acts per its access codes. -/
  | registerWrite (blk : Block) (off : Nat) (size : Nat) (value : Nat)
  /-- APERTURE_UNSUPPORTED_ACCESS (R11): An access of unsupported size or alignment, or into a disabled instance, writes nothing and reads all ones. -/
  | apertureUnsupportedAccess (write : Bool) (blk : Block) (off : Nat) (size : Nat)
  /-- DESCRIPTOR_FETCH (R332): A consumer unit fetches up to eight descriptors ahead of HEAD into its queue. -/
  | descriptorFetch (ring : Nat) (n : Nat)
  /-- DESCRIPTOR_NOP (R87): A NOP descriptor consumes its slot and writes a completion record if CR is set. -/
  | descriptorNop (ring : Nat)
  /-- FENCE (R338): FENCE descriptor waits on earlier tasks, optional host flush, handle take and post. -/
  | fence (ring : Nat)
  /-- FENCE_RESUME (R338): A waiting FENCE finds its earlier tasks complete, a handle or a free slot and proceeds. -/
  | fenceResume (ring : Nat)
  /-- TASK_COMPLETE (R336): A task's writes become visible, its completion record is written and the ring continues. -/
  | taskComplete (ring : Nat)
  /-- TE_LUT_PASS (R148): Teacher array pass multiplying activations by weight codes through per-row LUTs. -/
  | teLutPass (ring : Nat)
  /-- TE_DIRECT_PASS (R138): Teacher array pass multiplying two activation operands. -/
  | teDirectPass (ring : Nat)
  /-- TE_PANE_PASS (R139): Teacher array pass running four independent 64 x 64 quadrant problems. -/
  | tePanePass (ring : Nat)
  /-- TE_THIN_PASS (R141): Teacher thin-path pass over 1-8 rows and up to 256 columns. -/
  | teThinPass (ring : Nat)
  /-- TE_VECTOR (R144): Runs a vector program on a teacher core. -/
  | teVector (ring : Nat)
  /-- ARRAY_PASS_DRAIN_COMPLETE (R133): A pass's last row is drained to SRAM and RELEASE advances FREE_SEQ. -/
  | arrayPassDrainComplete (ring : Nat)
  /-- CORE_CLEAR_COMPLETE (R143): A core finishes clearing banks and SRAM after its last context ring is destroyed. -/
  | coreClearComplete (ty : Nat) (inst : Nat)
  /-- SE_MATMUL (R203): Student array pass computing C = A x B in bf16 or fp8 with optional group scales. -/
  | seMatmul (ring : Nat)
  /-- SE_PANE_PASS (R204): Student array pass running four quadrant problems. -/
  | sePanePass (ring : Nat)
  /-- SE_VECTOR (R205): Runs a vector program on a student core. -/
  | seVector (ring : Nat)
  /-- SE_KD_LOSS (R199): Runs the firmware KD loss program over ROWS logits rows, consuming one record per row. -/
  | seKdLoss (ring : Nat)
  /-- NOP (R194): Vector instruction with no effect. -/
  | vuNop (core : Nat) (f : VecFields)
  /-- HALT (R194): Vector instruction ending the task with status OK. -/
  | vuHalt (core : Nat) (f : VecFields)
  /-- SETVL (R194): Sets the active vector length. -/
  | vuSetvl (core : Nat) (f : VecFields)
  /-- SLI (R194): Loads an immediate into a scalar register. -/
  | vuSli (core : Nat) (f : VecFields)
  /-- SADD (R194): Scalar add with immediate. -/
  | vuSadd (core : Nat) (f : VecFields)
  /-- SMUL (R194): Scalar multiply, low 64 bits. -/
  | vuSmul (core : Nat) (f : VecFields)
  /-- SSHR (R194): Scalar logical shift right. -/
  | vuSshr (core : Nat) (f : VecFields)
  /-- BLT (R194): Branch if signed less than. -/
  | vuBlt (core : Nat) (f : VecFields)
  /-- BNE (R194): Branch if not equal. -/
  | vuBne (core : Nat) (f : VecFields)
  /-- JMP (R194): Unconditional relative jump. -/
  | vuJmp (core : Nat) (f : VecFields)
  /-- SLANE (R194): Moves one vector lane into a scalar register. -/
  | vuSlane (core : Nat) (f : VecFields)
  /-- VLD (R194): Strided vector load with exact widening. -/
  | vuVld (core : Nat) (f : VecFields)
  /-- VST (R194): Strided vector store with narrowing. -/
  | vuVst (core : Nat) (f : VecFields)
  /-- VGATHER (R194): Indexed vector load. -/
  | vuVgather (core : Nat) (f : VecFields)
  /-- VSCATTER (R194): Indexed vector store, highest lane winning on repeats. -/
  | vuVscatter (core : Nat) (f : VecFields)
  /-- SLD (R194): Aligned 8-byte scalar load. -/
  | vuSld (core : Nat) (f : VecFields)
  /-- SST (R194): Aligned 8-byte scalar store. -/
  | vuSst (core : Nat) (f : VecFields)
  /-- VADD (R194): Vector fp32 add. -/
  | vuVadd (core : Nat) (f : VecFields)
  /-- VSUB (R194): Vector fp32 subtract. -/
  | vuVsub (core : Nat) (f : VecFields)
  /-- VMUL (R194): Vector fp32 multiply. -/
  | vuVmul (core : Nat) (f : VecFields)
  /-- VFMA (R194): Vector fused multiply-add rounded once. -/
  | vuVfma (core : Nat) (f : VecFields)
  /-- VMAX (R194): Vector maximum under R122. -/
  | vuVmax (core : Nat) (f : VecFields)
  /-- VMIN (R194): Vector minimum under R122. -/
  | vuVmin (core : Nat) (f : VecFields)
  /-- VABS (R194): Vector absolute value. -/
  | vuVabs (core : Nat) (f : VecFields)
  /-- VNEG (R194): Vector negation. -/
  | vuVneg (core : Nat) (f : VecFields)
  /-- VADDS (R194): Adds a scalar fp32 to each lane. -/
  | vuVadds (core : Nat) (f : VecFields)
  /-- VMULS (R194): Multiplies each lane by a scalar fp32. -/
  | vuVmuls (core : Nat) (f : VecFields)
  /-- VBCAST (R194): Broadcasts a scalar to every lane. -/
  | vuVbcast (core : Nat) (f : VecFields)
  /-- VIDX (R194): Writes lane index plus a scalar into each lane. -/
  | vuVidx (core : Nat) (f : VecFields)
  /-- VIADD (R194): Vector uint32 add. -/
  | vuViadd (core : Nat) (f : VecFields)
  /-- VAND (R194): Vector bitwise AND. -/
  | vuVand (core : Nat) (f : VecFields)
  /-- VCVT (R194): Vector conversion among fp32, int32 and uint32. -/
  | vuVcvt (core : Nat) (f : VecFields)
  /-- VCMP (R194): Vector compare into a mask register. -/
  | vuVcmp (core : Nat) (f : VecFields)
  /-- VSEL (R194): Selects lanes from two vectors by a mask. -/
  | vuVsel (core : Nat) (f : VecFields)
  /-- MAND (R194): Mask AND. -/
  | vuMand (core : Nat) (f : VecFields)
  /-- MNOT (R194): Mask NOT. -/
  | vuMnot (core : Nat) (f : VecFields)
  /-- VRCP (R194): SFU reciprocal. -/
  | vuVrcp (core : Nat) (f : VecFields)
  /-- VSQRT (R194): SFU square root. -/
  | vuVsqrt (core : Nat) (f : VecFields)
  /-- VRSQRT (R194): SFU reciprocal square root. -/
  | vuVrsqrt (core : Nat) (f : VecFields)
  /-- VEXP2 (R194): SFU base-2 exponential. -/
  | vuVexp2 (core : Nat) (f : VecFields)
  /-- VLOG2 (R194): SFU base-2 logarithm. -/
  | vuVlog2 (core : Nat) (f : VecFields)
  /-- VTANH (R194): SFU hyperbolic tangent. -/
  | vuVtanh (core : Nat) (f : VecFields)
  /-- VSIGM (R194): SFU sigmoid. -/
  | vuVsigm (core : Nat) (f : VecFields)
  /-- VREDSUM (R195): Tree sum of active lanes into a scalar. -/
  | vuVredsum (core : Nat) (f : VecFields)
  /-- VREDMAX (R195): Tree maximum of active lanes into a scalar. -/
  | vuVredmax (core : Nat) (f : VecFields)
  /-- VARGMAX (R194): Lowest lane index holding the maximum. -/
  | vuVargmax (core : Nat) (f : VecFields)
  /-- TWAIT (R197): Stalls until a target port holds a record and returns its address. -/
  | vuTwait (core : Nat) (f : VecFields)
  /-- TWAIT_WAKE (R197): A record becomes visible at the port and a stalled TWAIT returns. -/
  | twaitWake (core : Nat)
  /-- TPOP (R197): Releases the head record of a target port, queuing a credit. -/
  | vuTpop (core : Nat) (f : VecFields)
  /-- TCOUNT (R194): Returns the records present at a target port. -/
  | vuTcount (core : Nat) (f : VecFields)
  /-- SCL_QUANT (R223): Measures a tensor, quantises it to fp8 with chosen scales, decides redo or fault and updates the slot. -/
  | sclQuant (ring : Nat)
  /-- SCL_AMAX (R228): Measures a tensor's amax, optionally per row, and optionally pushes the slot history. -/
  | sclAmax (ring : Nat)
  /-- LENS_TOPK (R240): Radix top-k selection of rows, optionally in probability mode or to a Prism channel. -/
  | lensTopk (ring : Nat) (n : Nat)
  /-- LENS_COMPACT (R244): Selects valid elements beyond a threshold in index order. -/
  | lensCompact (ring : Nat) (n : Nat)
  /-- LENS_SORT (R245): Stable radix sort of a row into rank order. -/
  | lensSort (ring : Nat) (n : Nat)
  /-- LENS_TASK_RESUME (R250): A suspended class 2 Lens task resumes once no lower-class task waits. -/
  | lensTaskResume (ring : Nat) (n : Nat)
  /-- SAMPLER_REQUEST (R410): A Serving Block sends a class 0 top-k request to a Lens for a logits row. -/
  | samplerRequest (model : Nat) (row : Nat) (lens : Nat)
  /-- PRISM_ROWS (R291): Puts a tag list in force and, with RESERVE, reserves one credit per tagged row. -/
  | prismRows (ring : Nat)
  /-- PRISM_TAP (R292): Sends hidden-state tap records from a teacher core against credits. -/
  | prismTap (ring : Nat)
  /-- PRISM_BLOCK_OPEN (R274): Requests a block of a PLACED ring for a sequence and completes at the grant. -/
  | prismBlockOpen (ring : Nat)
  /-- PRISM_BLOCK_END (R274): Ends a block, writing VOID records into its unwritten slots. -/
  | prismBlockEnd (ring : Nat)
  /-- BLOCK_GRANT (R278): Enough free slots exist and the S-die grants a waiting block open in order. -/
  | blockGrant (chan : Nat) (ring : Nat)
  /-- PRISM_ROW_ACCEPT (R268): The channel accepts a Lens row against a reserved credit, forms the record and sends it. -/
  | prismRowAccept (lens : Nat)
  /-- PRISM_RECORD_LAND (R273): A record arrives at the receive side, is written to its ring slot and made visible. -/
  | prismRecordLand (chan : Nat)
  /-- PRISM_CREDIT_FLUSH (R276): The coalescing window expires and pending credits leave as one CRD message. -/
  | prismCreditFlush (ring : Nat)
  /-- PRISM_CREDIT_RETURN (R276): A CRD message arrives and adds its count to the ring's free credits. -/
  | prismCreditReturn (ring : Nat) (n : Nat)
  /-- TOKEN_CHUNK_SEND (R287): The S-die Serving Block sends a token chunk against a TOK credit. -/
  | tokenChunkSend (entry : Nat) (n : Nat)
  /-- TOKEN_CHUNK_LAND (R287): A token chunk lands in the teacher-side token ring. -/
  | tokenChunkLand (ring : Nat)
  /-- PRISM_RING_RESET (R295): Resets a job ring: unbinds, discards held rows, withdraws tag lists and aborts tasks. -/
  | prismRingReset (ring : Nat) (cause : Nat)
  /-- PRISM_RING_RESET_COMPLETE (R295): The receive side confirms nothing in flight and credits and slots are restored. -/
  | prismRingResetComplete (ring : Nat)
  /-- UPD_EXCHANGE (R308): Scans a local gradient bucket, sends it into a Beam reduction and scans the reduced result. -/
  | updExchange (ring : Nat) (others : Option (List (List Byte)))
  /-- UPD_COMMIT (R309): Sends the device contribution into the fused norm-and-veto reduction. -/
  | updCommit (ring : Nat)
  /-- COMMIT_WORD_ARRIVAL (R307): The commit word arrives, step state changes, the step block is written and the window opens. -/
  | commitWordArrival (job : Nat) (others : List Contribution)
  /-- UPD_APPLY (R314): Applies the optimizer to master-weight halves and state, or completes SKIPPED. -/
  | updApply (ring : Nat)
  /-- UPD_GATHER (R315): All-gathers new high halves of a bucket across the group. -/
  | updGather (ring : Nat) (others : Option (List (List Byte)))
  /-- UPD_MARK (R321): Records a phase tick in the Timing Ledger. -/
  | updMark (ring : Nat)
  /-- DELTA_ACK (R462): The buddy acknowledges the log slot and delta so the contribution may be sent. -/
  | deltaAck (job : Nat)
  /-- SU_COPY (R342): Copies N2 x N1 strided runs between address spaces. -/
  | suCopy (ring : Nat)
  /-- SU_FILL (R343): Writes a repeated 8-byte pattern over a range. -/
  | suFill (ring : Nat)
  /-- SU_GATHER (R344): Gathers or scatters blocks through an address list. -/
  | suGather (ring : Nat)
  /-- SU_TRANSPOSE (R345): Writes the transpose of a matrix. -/
  | suTranspose (ring : Nat)
  /-- SU_STAGE_FILL (R175): Checks a fill of image tiles into a teacher core's staging half. -/
  | suStageFill (ring : Nat)
  /-- STAGE_FILL_WRITE_START (R176): FREE_SEQ and clearing conditions hold and the fill starts writing the half. -/
  | stageFillWriteStart (ring : Nat)
  /-- STAGE_FILL_COMPLETE (R176): A FINAL fill completes and FILL_SEQ of the half advances. -/
  | stageFillComplete (ring : Nat)
  /-- STREAM_SEGMENT_ACK (R329): A segment's last write is acknowledged, freeing its tag for a waiting segment. -/
  | streamSegmentAck (ring : Nat) (seg : Nat) (outcome : Nat) (data : List Byte)
  /-- BEAM_COLL (R444): Runs a collective of a group on a collective engine in fixed tree order. -/
  | beamColl (ring : Nat) (others : Option (List (List Byte)))
  /-- GROUP_BROKEN (R443): A member becomes unreachable, collectives abort and the group goes BROKEN. -/
  | groupBroken (group : Nat) (member : Nat)
  /-- RESOLUTION_COMPLETE (R466): Survivors adopt the held or an ABSENT commit word, or abort on a minority. -/
  | resolutionComplete (group : Nat) (held : Option CommitWord) (survivors : Nat)
  /-- MIRROR_HEARTBEAT (R465): Heartbeat exchanged with the buddy every MIR_SET_HEARTBEAT_MS. -/
  | mirrorHeartbeat (dev : Nat)
  /-- HEARTBEAT_LOSS (R465): Three silent periods make the buddy declare the member lost. -/
  | heartbeatLoss (dev : Nat)
  /-- NP_BIND (R494): Creates an RC queue-pair binding from a binding block. -/
  | npBind (ring : Nat)
  /-- NP_UNBIND (R494): Moves a binding's queue pair to error once placements land. -/
  | npUnbind (ring : Nat)
  /-- NP_WRITE (R497): RDMA-writes device memory to a remote region. -/
  | npWrite (ring : Nat)
  /-- NP_READ (R497): RDMA-reads a remote region into device memory. -/
  | npRead (ring : Nat)
  /-- FILL (R164): Forward-program step issuing a stage fill. -/
  | fwdFill (sweep : Nat) (x : FwIssue)
  /-- PASS (R164): Forward-program step issuing an array, thin or vector descriptor. -/
  | fwdPass (sweep : Nat) (x : FwIssue)
  /-- ROUTE (R180): Forward-program step computing expert lists and token order. -/
  | fwdRoute (sweep : Nat) (layer : Nat) (scores : Nat) (rows : Nat) (lists : Nat) (order : Nat)
  /-- EXCHANGE (R164): Forward-program step exchanging activation slices between teacher cores. -/
  | fwdExchange (sweep : Nat) (xs : List FwIssue)
  /-- SOFT_TARGET (R285): Forward-program step issuing PRISM_ROWS then LENS_TOPK over logits rows. -/
  | fwdSoftTarget (sweep : Nat) (rows : List (Nat × List Byte × FwIssue)) (lens : List FwIssue)
  /-- TAP (R164): Forward-program step sending one hidden-state tap. -/
  | fwdTap (sweep : Nat) (xs : List FwIssue)
  /-- REPEAT (R164): Forward-program step repeating following steps per 512 tokens or 8 thin rows. -/
  | fwdRepeat (sweep : Nat) (thin : Bool)
  /-- END (R164): Forward-program step ending the sweep. -/
  | fwdEnd (sweep : Nat) (token : Option Nat)
  /-- SERVING_BOUNDARY (R395): Boundary processing retires, cancels, pauses and resumes entries, chooses the batch and hands over the plan. -/
  | servingBoundary (model : Nat)
  /-- EXECUTOR_DONE (R397): The executor returns the step's row-table handle. -/
  | executorDone (model : Nat) (handle : List Byte)
  /-- ROW_SAMPLE (R408): A Lens result returns and the row's token is sampled with penalties and seed. -/
  | rowSample (model : Nat) (row : Nat)
  /-- STEP_RECORD_WRITE (R399): The output ring has room and the Step Record is written, ending the step. -/
  | stepRecordWrite (model : Nat)
  /-- PORT_LIGHT_DETECT (R426): Input and received light present move a DARK port to TRAINING. -/
  | portLightDetect (port : Nat)
  /-- TRAINING_COMPLETE (R426): Equalisation and handshake pass and the port becomes ACTIVE, or ISOLATED or DOWN. -/
  | trainingComplete (port : Nat) (peer : Nat) (pport : Nat) (waves : Nat) (twin : Bool)
  /-- TRAINING_TIMEOUT (R432): No handshake within 100 ms makes the port ABSENT. -/
  | trainingTimeout (port : Nat)
  /-- LASER_INPUT_LOW (R425): Input light below threshold for 10 µs clears LIGHT_IN. -/
  | laserInputLow (port : Nat)
  /-- LOSS_OF_LIGHT (R432): Received power below threshold for 10 µs sends an active port DARK. -/
  | lossOfLight (port : Nat)
  /-- BEAM_FLIT_RECEIVE (R430): A flit is checked for CRC and sequence and accepted or dropped, taking its ACK and credit. -/
  | beamFlitReceive (port : Nat) (flit : List Byte)
  /-- REPLAY_REQ (R431): A REPLAY_REQ arrives and unacknowledged flits are resent, escalating at RETRY 4. -/
  | replayReq (port : Nat)
  /-- RETRANSMIT_TIMER_EXPIRY (R431): 8 µs without ACK advance triggers a replay. -/
  | retransmitTimerExpiry (port : Nat)
  /-- NULL_FLIT_TIMER (R429): A transmitter with nothing numbered sends a NULL flit at least once per microsecond. -/
  | nullFlitTimer (port : Nat)
  /-- RETRAIN_COMPLETE (R431): Lane re-equalisation ends and the port becomes ACTIVE or DOWN. -/
  | retrainComplete (port : Nat) (ok : Bool)
  /-- DOWN_RETRY_TIMER (R426): Firmware retries training of a DOWN port every second. -/
  | downRetryTimer (port : Nat)
  /-- ROUTE_TABLE_INSTALL (R436): A recomputed routing table is installed and held traffic is resent. -/
  | routeTableInstall (port : Nat) (table : List (Nat × Nat × Nat))
  /-- TIMEBASE_SYNC (R439): A SYNC flit exchange with the parent every 100 µs disciplines the timebase. -/
  | timebaseSync (t : Nat)
  /-- STORE_PAGE_READ_COMPLETE (R367): A page read decodes through the error steps and delivers data or poison. -/
  | storePageReadComplete (ctl : Nat) (die : Nat) (block : Nat) (row : Nat) (susp : Bool) (ds : List (Nat × Nat × Bool × List Nat))
  /-- STORE_PROGRAM_COMPLETE (R361): A TLC or SLC program ends, or fails and is retried on a spare. -/
  | storeProgramComplete (ctl : Nat) (die : Nat) (block : Nat) (ok : Bool) (susp : Nat)
  /-- STORE_ERASE_COMPLETE (R386): A block erase ends and the block becomes ERASED or RETIRED. -/
  | storeEraseComplete (ctl : Nat) (die : Nat) (block : Nat) (ok : Bool) (susp : Nat)
  /-- RELOCATION_START (R374): The next queued block is copied to a spare within RELOC plane time. -/
  | relocationStart (ctl : Nat)
  /-- RELOCATION_SWITCH (R374): The stripe-table switch is written and the source becomes STALE. -/
  | relocationSwitch (ctl : Nat)
  /-- STORE_SCRUB_TIMER (R377): Powered scrub reads every programmed page once per scrub period. -/
  | storeScrubTimer (ctl : Nat) (die : Nat) (block : Nat) (row : Nat) (ds : List (Nat × Nat × Bool × List Nat))
  /-- STORE_DIE_TIMEOUT (R371): A die silent for 10 ms is marked failed and its stack DEGRADED. -/
  | storeDieTimeout (ctl : Nat) (die : Nat)
  /-- METERED_SLC_WRITE (R380): A metered SLC write is rate-limited by the budget and acknowledged into the pending buffer. -/
  | meteredSlcWrite (addr : Nat) (data : List Byte)
  /-- STORE_SCRUB_STAGE_COMPLETE (R378): A power-up scrub stage ends, making the SLC region or an image usable. -/
  | storeScrubStageComplete (ctl : Nat) (ok : Bool)
  /-- HBM_REFRESH_TIMER (R356): The controller refreshes the stack each refresh interval. -/
  | hbmRefreshTimer (stack : Nat)
  /-- HBM_SCRUB_LINE (R356): Patrol scrub corrects or poisons a line. -/
  | hbmScrubLine (addr : Nat) (errors : Nat)
  /-- GOVERNOR_STEP (R534): Every millisecond the reservoir is updated and one die stepped by 25 MHz. -/
  | governorStep (mw : Nat)
  /-- CURRENT_LIMIT_SAMPLE (R531): Every 0.5 µs input current is compared with ILIMIT and the stretch adjusted. -/
  | currentLimitSample (amps : Nat) (vin : Nat)
  /-- WINDOW_LIMIT_EVAL (R532): Every 100 µs the 20 ms mean power is compared with the burst cap. -/
  | windowLimitEval (mw : Nat)
  /-- THERMAL_SAMPLE (R536): Temperature readings are checked against throttle, critical and stack thresholds. -/
  | thermalSample (cls : Nat) (inst : Nat) (sensor : Nat) (temp : Int)
  /-- THERMAL_TRIP (R537): A junction at 115 °C asserts THERMTRIP_N, stops dies, flushes and powers off logic. -/
  | thermalTrip
  /-- TRIP_RELEASE (R538): 2 s after power-off with substrate below 80 °C, THERMTRIP_N is released and a COLD reset starts. -/
  | tripRelease (substrate : List Int)
  /-- SENSOR_AGENT_TIMEOUT (R529): A sensor agent silent for 10 ms sets SENSOR and holds its die at 800 MHz. -/
  | sensorAgentTimeout (die : Nat)
  /-- VIN_DIP_BEGIN (R540): VIN below 10.8 V stretches compute dies and holds Store programs. -/
  | vinDipBegin
  /-- VIN_DIP_END (R540): VIN above 11.2 V for 100 µs ends the dip and releases stretch and programs. -/
  | vinDipEnd (us : Nat) (mv : Nat)
  /-- DIP_LONG (R540): Each second a dip lasts, a DIP_LONG entry is logged. -/
  | dipLong
  /-- POWER_LOSS_FLUSH (R383): VIN below VIN_RESET dumps pending SLC writes and metadata and resets. -/
  | powerLossFlush
  /-- FORCE_THROTTLE_ASSERT (R539): FORCE_THROTTLE_N low stretches dies to 50 % and lowers the target. -/
  | forceThrottleAssert
  /-- FORCE_THROTTLE_RELEASE (R539): FORCE_THROTTLE_N high releases its stretch and target limit. -/
  | forceThrottleRelease
  /-- VAUX_APPLIED (R584): VAUX in range releases the AON reset, samples straps and starts Loupe. -/
  | vauxApplied (pod : Nat) (mgmt : Nat)
  /-- VAUX_LOST (R584): VAUX lost runs the power-loss flush or shuts down the AON domain. -/
  | vauxLost
  /-- REPLAN (R544): A due or idle-window re-plan measures margins and commits settings per unit type. -/
  | replan (idle : Bool) (meas : List (Nat × Nat × Nat × Nat × Nat)) (drift : List (Nat × Nat)) (wants : List (Nat × Nat × Nat × Nat))
  /-- REPLAN_RETRY (R544): A rejected re-plan commit is retried every 10 minutes. -/
  | replanRetry
  /-- REPLAN_LATE (R544): A re-plan uncommitted 24 h after falling due sets REPLAN_LATE. -/
  | replanLate
  /-- LOG_COPY (R546): AON log entries are copied into the firmware SLC log. -/
  | logCopy
  /-- ERROR_RECORD_INTERVAL (R575): A 1 ms merge interval ends and the merged error record is delivered. -/
  | errorRecordInterval (ctx : Nat)
  /-- ENGINE_RESET (R569): A unit state error resets one instance, stopping its rings and aborting its tasks. -/
  | engineReset (ty : Nat) (inst : Nat)
  /-- RESET_WRITES_SETTLED (R567): Sent reads and writes of reset contexts have landed or dropped and clearing proceeds. -/
  | resetWritesSettled
  /-- PCIE_FLR (R489): Function-level reset destroys every tenant context. -/
  | pcieFlr
  /-- PCIE_HOT_RESET (R564): PCIe hot reset starts a WARM reset. -/
  | pcieHotReset
  /-- PERST_N_ASSERT (R581): PERST_N assertion starts a WARM reset. -/
  | perstNAssert
  /-- WARM_RESET (R571): Stops firmware, republishes STAGE 1, flushes pending SLC and restarts SCI firmware. -/
  | warmReset
  /-- COLD_RESET (R571): VIN in range or command powers and boots logic dies, replays dumps and publishes tables. -/
  | coldReset (pod : Nat) (mgmt : Nat) (bank : Nat) (temps : List (Nat × Int))
  /-- FIRMWARE_START_PUBLISH (R65): SCI firmware ready publishes the STAGE 2 Facet Table and sets IDENT SCI fields. -/
  | firmwareStartPublish
  /-- SPINE_LINK_DOWN (R26): A link failing retraining is marked down and traffic re-routed. -/
  | spineLinkDown (link : Nat)
  /-- FATAL_ERROR (R578): A fatal error stops every unit and restricts access to the FATAL state. -/
  | fatalError (code : Nat)
  /-- CXL_MEM_READ (R483): Host CXL.mem read of device memory under coherence and security forms. -/
  | cxlMemRead (addr : Nat) (own : Option (List Byte))
  /-- CXL_MEM_WRITE (R485): Host CXL.mem write to device memory, serialised by the snoop filter. -/
  | cxlMemWrite (addr : Nat) (data : List Byte) (enable : Nat)
  /-- BISNP_RESPONSE (R484): The host answers a back-invalidate snoop and the waiting engine access proceeds. -/
  | bisnpResponse (line : Nat)
  /-- HOST_SNOOP (R487): A host snoop invalidates a device-cache line. -/
  | hostSnoop (line : Nat)
  /-- HOST_READ_COMPLETION (R487): A host read completion returns data or an error to the waiting segment. -/
  | hostReadCompletion (ring : Nat) (seg : Nat) (status : Nat)
  /-- HOST_COMPLETION_TIMEOUT (R488): A host read completion timeout ends its task with REASON HOST. -/
  | hostCompletionTimeout (ring : Nat) (seg : Nat)
  /-- HOST_LINK_DOWN (R488): Surprise link down ends host-space tasks. -/
  | hostLinkDown
  /-- IDE_INTEGRITY_FAILURE (R488): An IDE check fails and the streams go insecure. -/
  | ideIntegrityFailure
  /-- IDE_KM_KEY_PROGRAM (R518): The host programs IDE keys through IDE_KM in an SPDM session. -/
  | ideKmKeyProgram (link : Bool) (cxl : Bool)
  /-- MSIX_UNMASK (R482): Unmasking a vector with its PBA bit set sends the pending message. -/
  | msixUnmask (vector : Nat)
  /-- SPDM_GET_CERTIFICATE (R510): SPDM request returning certificate chain bytes. -/
  | spdmGetCertificate (transport : Nat) (slot : Nat) (off : Nat) (len : Nat)
  /-- SPDM_CHALLENGE (R510): SPDM challenge answered with an AK signature. -/
  | spdmChallenge (transport : Nat) (slot : Nat) (nonce : List Byte) (summary : Bool)
  /-- SPDM_GET_MEASUREMENTS (R510): SPDM request returning signed measurements. -/
  | spdmGetMeasurements (transport : Nat) (index : Nat) (nonce : List Byte) (signed : Bool)
  /-- SPDM_KEY_EXCHANGE (R510): SPDM key exchange establishing a secured session. -/
  | spdmKeyExchange (transport : Nat) (slot : Nat) (msg : List Byte)
  /-- MCTP_CONTROL_MESSAGE (R551): An MCTP control message is answered by Loupe. -/
  | mctpControlMessage (transport : Nat) (kind : Nat) (op : Nat) (q : Request)
  /-- ROCE_RDMA_WRITE (R495): A received RDMA WRITE is placed into a bound region or image staging. -/
  | roceRdmaWrite (port : Nat) (qpn : Nat) (psn : Nat) (first : Bool) (va : Nat) (key : Nat) (len : Nat) (data : List Byte) (ecn : Bool)
  /-- ROCE_WRITE_IMMEDIATE (R495): A received WRITE with Immediate is placed and a completion record written. -/
  | roceWriteImmediate (port : Nat) (qpn : Nat) (psn : Nat) (first : Bool) (va : Nat) (key : Nat) (len : Nat) (data : List Byte) (imm : Nat) (ecn : Bool)
  /-- ROCE_RDMA_READ (R495): A received RDMA READ is answered from the bound region. -/
  | roceRdmaRead (port : Nat) (qpn : Nat) (psn : Nat) (va : Nat) (key : Nat) (len : Nat) (ecn : Bool)
  /-- ROCE_SEND (R492): A received SEND of at most 256 bytes is delivered. -/
  | roceSend (port : Nat) (qpn : Nat) (psn : Nat) (data : List Byte) (ecn : Bool)
  /-- ROCE_ACK (R492): An ACK or NAK for a requester queue pair advances or retransmits it. -/
  | roceAck (port : Nat) (qpn : Nat) (psn : Nat) (kind : Nat)
  /-- ROCE_CNP (R492): A received CNP reduces the sending rate. -/
  | roceCnp (port : Nat) (qpn : Nat)
  /-- ROCE_UNSUPPORTED (R492): An unsupported packet is dropped and counted. -/
  | roceUnsupported (port : Nat)
  /-- QP_RETRY_TIMEOUT (R492): A queue pair ACK timeout retransmits, failing after 7 retries. -/
  | qpRetryTimeout (bind : Nat)
  /-- PFC_PAUSE_FRAME (R491): A priority flow-control pause frame pauses transmission on its priority. -/
  | pfcPauseFrame (port : Nat) (prio : Nat) (quanta : Nat)
  /-- NP_LINK_DOWN (R498): A Network Port link stays down beyond the retry budget and fails its queue pairs. -/
  | npLinkDown (port : Nat)
  /-- PERST_N_DEASSERT (R581): Deassertion of PERST_N lets the Host Port link train after a cold boot and ends the WARM reset hold. -/
  | perstNDeassert
  /-- HOST_LINK_UP (R488): The Host Port link returns to L0 after a surprise down, and mailboxes complete commands again. -/
  | hostLinkUp (width : Nat) (rate : Nat) (cxl : Bool)
  /-- HDM_DECODER_COMMIT (R483): The host commits the HDM decoder range, setting HP_STATUS.HDM_COMMITTED and mapping CXL.mem to device addresses. -/
  | hdmDecoderCommit (base : Nat)
  /-- HBM_STACK_FAIL (R576): An HBM stack fails in service, goes FAILED, and every line of it reads poison. -/
  | hbmStackFail (stack : Nat)
  /-- ROCE_READ_RESPONSE (R497): An RDMA READ response packet for an NP_READ arrives and its data is placed in device memory. -/
  | roceReadResponse (port : Nat) (qpn : Nat) (psn : Nat) (data : List Byte)
  /-- NP_LINK_UP (R503): A Network Port link trains, achieves FEC lock and reaches UP. -/
  | npLinkUp (port : Nat)
  /-- FCS_DROP (R504): A received frame fails its FCS or ICRC and is dropped and counted. -/
  | fcsDrop (port : Nat)
deriving DecidableEq, Repr

end Sys2Proof
end

