-- ==== Sys2Proof/Decode.lean ====
section
/-! DEFINITION. Sys2Proof/Decode.lean: the words that the manual encodes: vector instruction words (R193). The rows of the
opcode table give no bits, so a table word spells no command. -/

namespace Sys2Proof

/-- No row of the table gives bits: a word spells no command. [DESIGN CHOICE, log 2] -/
def decodeTableWord (_nbits _w : Nat) : Option Instr := none

/-- The fields of a vector instruction are within their widths (R193). -/
def VecFields.wf (f : VecFields) : Bool :=
  decide (f.d < 32) && decide (f.s1 < 32) && decide (f.s2 < 32) && decide (f.s3 < 32) && decide (f.m < 8)
    && decide (f.imm < 2 ^ 32)

/-- The 64-bit word of a vector instruction (R193). -/
def vecEncode (op : Nat) (f : VecFields) : Nat :=
  op + 2 ^ 8 * f.d + 2 ^ 13 * f.s1 + 2 ^ 18 * f.s2 + 2 ^ 23 * f.s3 + 2 ^ 28 * f.m + (if f.men then 2 ^ 31 else 0)
    + 2 ^ 32 * f.imm

/-- OP and the fields of a 64-bit word (R193). -/
def vecDecode (w : Nat) : Nat × VecFields :=
  (w % 2 ^ 8,
   { d := w / 2 ^ 8 % 32, s1 := w / 2 ^ 13 % 32, s2 := w / 2 ^ 18 % 32, s3 := w / 2 ^ 23 % 32, m := w / 2 ^ 28 % 8
     men := decide (w / 2 ^ 31 % 2 = 1), imm := w / 2 ^ 32 % 2 ^ 32 })

end Sys2Proof
end

