-- ==== Sys2Proof/Config.lean ====
section
/-! DEFINITION. Sys2Proof/Config.lean: what an instance of the part fixes, and the values that the manual leaves open. -/

namespace Sys2Proof.Config
open Sys2Proof

/-! ### Exact quantities of the ID860-A (R7, R17) -/

/-- Ticks in one microsecond, one millisecond, one second (R17: one tick is 1 ns). -/
def us : Nat := 1000
def ms : Nat := 1000000
def sec : Nat := 1000000000

/-- Mailboxes of the Aperture (R7); mailboxes 256 to 259 stand for the private mailboxes of agents (R98). [DESIGN CHOICE, log 74] -/
def mailboxes : Nat := 256
/-- Rings of the part (R7). -/
def rings : Nat := 4096
/-- Bytes in one HBM stack, one page, and all of device memory (R7, R353). -/
def stackBytes : Nat := 48 * 2 ^ 30
def pageBytes : Nat := 2 ^ 21
def hbmBytes : Nat := 384 * 2 ^ 30
def pagesPerStack : Nat := 24576
/-- Distance between the SRAM of two cores in `Mems.sram`. -/
def sramStride : Nat := 2 ^ 25
/-- Bytes of core SRAM (R7): 24 MiB on a teacher core, 16 MiB on a student core. -/
def teacherSram : Nat := 24 * 2 ^ 20
def studentSram : Nat := 16 * 2 ^ 20
/-- Request and response payload limits of a mailbox (R68). -/
def reqMax : Nat := 2016
def respMax : Nat := 1888
/-- Event records held for a context (R79) and records held by a producing unit for one ring (R334). -/
def heldEvents : Nat := 256
def heldRecords : Nat := 16
/-- Descriptors fetched ahead of HEAD (R332); transfer tags of a Stream Unit (R328). -/
def fetchAhead : Nat := 8
def tags : Nat := 256

/-! ### Facet TYPE numbers (R62) -/

def tLink : Nat := 0x04
def tTeacher : Nat := 0x20
def tStudent : Nat := 0x21
def tLens : Nat := 0x22
def tPrism : Nat := 0x23
def tScaler : Nat := 0x24
def tUpdate : Nat := 0x25
def tServing : Nat := 0x26
def tStream : Nat := 0x30
def tHbm : Nat := 0x31
def tStore : Nat := 0x40
def tPort : Nat := 0x50
def tEngine : Nat := 0x51
def tHost : Nat := 0x52
def tNet : Nat := 0x53
def tMirror : Nat := 0x60
def tLoupe : Nat := 0x61

/-- Instances of each unit type that has a register block (R62). -/
def instances (ty : Nat) : Nat :=
  if ty = tTeacher then 32 else if ty = tStudent then 16 else if ty = tLens then 10
  else if ty = tPrism then 8 else if ty = tScaler then 48 else if ty = tUpdate then 2
  else if ty = tServing then 6 else if ty = tStream then 64 else if ty = tHbm then 8
  else if ty = tStore then 8 else if ty = tPort then 40 else if ty = tEngine then 2
  else if ty = tHost then 1 else if ty = tNet then 2 else if ty = tMirror then 2
  else if ty = tLoupe then 1 else 0

/-- DIE that carries a unit: T0–T3 are 0–3, S0–S1 are 4–5, H0–H1 are 6–7 (R63); 0xFF what belongs to no die. R27 gives how many of a type
lie on each die, and R19 the ports; which INSTANCE lies on which die is the model's choice: in ascending order, die after die.
[DESIGN CHOICE, log 75] -/
def dieOf (ty inst : Nat) : Nat :=
  if ty = tTeacher then inst / 8 else if ty = tStudent then 4 + inst / 8
  else if ty = tLens then (if inst < 8 then inst / 2 else inst - 4)
  else if ty = tPrism then inst / 2
  else if ty = tScaler then (if inst < 32 then inst / 8 else 4 + (inst - 32) / 8)
  else if ty = tUpdate then 4 + inst
  else if ty = tServing then inst
  else if ty = tStream then
    (if inst < 32 then inst / 8 else if inst < 48 then 4 + (inst - 32) / 8 else if inst < 56 then 6 else 7)
  else if ty = tHbm then (if inst < 4 then inst else 4 + (inst - 4) / 2)
  else if ty = tStore then 6 + inst / 4
  else if ty = tPort then (if inst < 20 then 6 else 7)
  else if ty = tEngine then 6 + inst
  else if ty = tHost then 6 else if ty = tNet then 6 + inst
  else if ty = tMirror then 6 + inst else if ty = tLoupe then 6 else 255

/-! ### Values that an instance fixes and the manual does not -/

/-- Firmware build id and SCI minor revision of a firmware, by the digest of its SCI part (R82, R44). [DESIGN CHOICE, log 42] -/
opaque buildId : Bytes → Nat
opaque sciMinorOf : Bytes → Nat
/-- LOUPE_SET_GUARD and LOUPE_SET_FMAX of a die as fused (R554): the guardband in mV, and the 25 MHz bin of FMAX. [DESIGN CHOICE, log 42] -/
opaque fusedGuard : Nat → Nat
opaque fusedBin : Nat → Nat
/-- Voltage in mV that a die's rail needs at a CORE frequency in MHz before its guardband is added (R542). [DESIGN CHOICE, log 42] -/
opaque railMv : Nat → Nat → Nat
/-- SEVERITY of a log KIND, and the KIND of an optical engine's over-temperature entry: the manual gives neither (R536, R546).
[DESIGN CHOICE, log 40] -/
opaque severity : Nat → Nat
opaque engineKind : Nat
/-- Reading of a sensor that the state does not hold: DIE, class, sensor number, tick (R529); and the rails of a die. [DESIGN CHOICE, log 42] -/
opaque sensor : Nat → Nat → Nat → Nat → Nat
opaque rails : Nat → Nat
/-- What a firmware bundle holds, where both its signatures verify: SVN, and the digests of its Loupe and SCI parts (R548, R549).
[DESIGN CHOICE, log 37] -/
opaque bundle : Bytes → Option (Nat × Bytes × Bytes)

/-- Where this instance places the Facet Table, and the BASE of a block by TYPE and INSTANCE: the manual fixes none (R2).
[DESIGN CHOICE, log 13] -/
opaque facetPlace : Nat
/-- FACET_BASE.OFFSET: the table's Aperture offset in units of 4 KiB, behind the page of IDENT and FACET_BASE (R51). -/
def facetOffset : Nat := 1 + facetPlace % (2 ^ 28 - 1)
opaque blockBase : Nat → Nat → Nat
/-- Steppings of the package and of each die as fused (R44), by a number of which `stepping` makes the byte. [DESIGN CHOICE, log 42] -/
opaque pkgFuse : Nat
opaque dieFuse : Nat → Nat
/-- A stepping byte: letter in [7:4], digit 0–9 in [3:0] (R45). -/
def stepping (n : Nat) : Nat := n / 10 % 16 * 16 + n % 10
def pkgStep : Nat := stepping pkgFuse
def dieStep (d : Nat) : Nat := stepping (dieFuse d)
/-- Weight of class `k` (0 RSP, 1 REQ, 2 COLL, 3 PRISM) that a firmware chooses, known by the digest of its SCI part: 1 to 255 (R592).
[DESIGN CHOICE, log 42] -/
opaque spineChoice : Bytes → Nat → Nat
def spineWeight (fw : Bytes) (k : Nat) : Nat := 1 + spineChoice fw k % 255
/-- MAC address of a Network Port (R503), queue pairs that firmware holds there. [DESIGN CHOICE, log 42] -/
opaque macOf : Nat → Nat
opaque fwQueuePairs : Nat → Nat

/-! ### Cryptographic functions that the manual names by their standards; nothing constrains them here. -/

opaque sha384 : Bytes → Bytes
/-- AES-256-GCM: key, nonce, additional data, ciphertext, tag; `none` where the tag fails. [DESIGN CHOICE, log 37] -/
opaque gcmOpen : Bytes → Bytes → Bytes → Bytes → Bytes → Option Bytes
/-- AES-256-GCM: key, nonce, additional data, plaintext; the ciphertext followed by its tag. [DESIGN CHOICE, log 37] -/
opaque gcmSeal : Bytes → Bytes → Bytes → Bytes → Bytes
/-- What a protected message carries (R519): its group, its counter, ciphertext and tag. The manual gives the pooled header bytes no
layout; and STREAM of the n-th protected message of a class. [DESIGN CHOICE, log 37] -/
opaque gcmParts : Bytes → Nat × Nat × Bytes × Bytes
opaque streamOf : Nat → Nat → Nat
/-- Tag of a checkpoint's region whose blocks start at a nonce (R520): key, nonce, region. [DESIGN CHOICE, log 37] -/
opaque regionTag : Bytes → Nat → Bytes → Bytes
/-- x-coordinate of ECDH of a public key with the part's XK (R507). [DESIGN CHOICE, log 37] -/
opaque ecdhXk : Bytes → Bytes
/-- HKDF-SHA-384: key material, salt, info, length. [DESIGN CHOICE, log 37] -/
opaque hkdf : Bytes → Bytes → Bytes → Nat → Bytes
/-- ECDSA P-384 verification: public key, digest, signature. [DESIGN CHOICE, log 37] -/
opaque ecdsaOk : Bytes → Bytes → Bytes → Bool
/-- ECDSA P-384 signature by the part's AK over a digest, with the n-th nonce. [DESIGN CHOICE, log 37] -/
opaque akSign : Nat → Bytes → Bytes
/-- AES-256-XTS of one 64-byte line: key, tweak, line. [DESIGN CHOICE, log 37] -/
opaque xtsEnc : Bytes → Nat → Bytes → Bytes
opaque xtsDec : Bytes → Nat → Bytes → Bytes
/-- The n-th draw from the part's DRBG, of a given length. [DESIGN CHOICE, log 37] -/
opaque drbg : Nat → Nat → Bytes
/-- DEVICE_ID of the part (R508) and Diboelm's firmware and debug signing key. [DESIGN CHOICE, log 37] -/
opaque deviceId : Bytes
opaque vendorKey : Bytes
/-- An unlock token is signed by Diboelm and names this part and this anti-rollback counter (R525): the manual gives no layout
of the token. [DESIGN CHOICE, log 37] -/
opaque unlockToken : Bytes → Nat → Bool
/-- SHA-384 of the boot ROM (R509), and the value type that the SPDM measurement of an index carries. [DESIGN CHOICE, log 37] -/
opaque bootRom : Bytes
opaque spdmType : Nat → Nat
/-- Body of a KEY_EXCHANGE_RSP behind its session identifier, for the n-th signature and the requester's message (R510). [PRESUMED, log 27] -/
opaque keyExchange : Nat → Bytes → Bytes
/-- Certificate chain of a slot (R508). [PRESUMED, log 27] -/
opaque certChain : Nat → Bytes

/-! ### The Weight Store's regions (R363, R364): the BASE values are those of the ID860-A's example table. -/

def teacherBase : Nat := 0
def slcBase : Nat := 0x0A0000000000
def teacherBytes : Nat := 10 * 2 ^ 40
def slcBytes : Nat := 512 * 2 ^ 30
/-- Bytes of a Store page (R361). -/
def pageStore : Nat := 16384
/-- Bytes of the SLC region that firmware holds (R363). -/
def slcFirmware : Nat := 8 * 2 ^ 30
def chunkBytes : Nat := 2 ^ 20
def codewordBytes : Nat := 4096

/-! ### Free values: what the manual leaves undefined or unstated; nothing constrains them. -/

/-- What the Store key of a sealed image adds, bit by bit, to the byte of its body at a Store logical address, by key number (R172): the
manual names no cipher. [DESIGN CHOICE, log 68] -/
opaque storeMask : Nat → Nat → Byte
/-- A fresh number for the n-th open choice. [DESIGN CHOICE, log 8] -/
opaque freeNat : Nat → Nat
/-- The fixed functions of the SFU that the manual bounds but does not pin down (R122), by function number
(2 rsqrt, 3 exp2, 4 log2, 5 tanh, 6 sigmoid) and fp32 pattern of the operand. [DESIGN CHOICE, log 47] -/
opaque sfu : Nat → Nat → Nat
/-- Whether a live quantisation without a slot exceeds its flush limit, by flushed and nonzero elements: it has no limit (R222, R227), and its
record depends on nothing else (R231). [DESIGN CHOICE, log 51] -/
opaque noSlotFlush : Nat → Nat → Bool
/-- The logit that SE_KD_LOSS reads for a record index at or beyond VOCAB, by index and VOCAB: the manual gives none. [DESIGN CHOICE, log 49] -/
opaque kdOutside : Nat → Nat → Nat
/-- Whether the partial sums of an UPD_EXCHANGE are fp32 rather than fp16: the manual says only that R442 gives the order. [DESIGN CHOICE, log 57] -/
opaque exchangeFp32 : Bool
/-- Facts about peer devices, by system index and tick: a peer is reachable and holds a reservation for this device (R453); the
state that a takeover has replayed agrees with the buddy's word and a survivor's step block (R470). [DESIGN CHOICE, log 59] -/
opaque peerReserves : Nat → Nat → Bool
opaque replayAgrees : Nat → Bool
/-- The step-3 and step-4 recoveries of a Store controller exceed what the last re-plan expected, by controller, their count and tick (R576).
[DESIGN CHOICE, log 42] -/
opaque storeCeExcess : Nat → Nat → Nat → Bool
/-- What a level gives back still has the digests of its manifest, by level and tick (R459). [DESIGN CHOICE, log 59] -/
opaque copyIntact : Nat → Nat → Bool
/-- Pod device index of the teacher's device, by job and channel: a binding block on the student's device does not name it (R271, R288).
[DESIGN CHOICE, log 89] -/
opaque teacherDev : Nat → Nat → Nat
/-- Bytes beyond one that a share of 1 lets a source of a Prism channel send in a round: R289 gives no quantum. [DESIGN CHOICE, log 90] -/
opaque prismQuantum : Nat
/-- Flit buffers that a peer's receiver has for each class and HOP (R433): the manual gives no number. [DESIGN CHOICE, log 42] -/
opaque flitCredits : Nat
/-- Flits that a class of a port may send in a turn, less one: firmware sets the weights (R433). [DESIGN CHOICE, log 42] -/
opaque classWeight : Nat → Nat
/-- BEAM_PORT_OPTICS as a port measures it, by port and tick. [DESIGN CHOICE, log 42] -/
opaque optics : Nat → Nat → Nat
/-- A fresh byte for the n-th open choice. [DESIGN CHOICE, log 8] -/
opaque freeByte : Nat → Byte

end Sys2Proof.Config
end

