-- ==== Sys2Proof/Machine/Mem.lean ====
section
/-! DEFINITION. Sys2Proof/Machine/Mem.lean: sparse maps and byte memories in canonical form, little-endian fields. -/

namespace Sys2Proof.Machine
open Sys2Proof

/-- Read a sparse map: an unlisted key reads as `d`. -/
def SMap.get {α : Type} (d : α) : List (Nat × α) → Nat → α
  | [], _ => d
  | (k, v) :: m, x => if x = k then v else SMap.get d m x

/-- Write a sparse map, keeping keys rising and no entry equal to `d`. -/
def SMap.set {α : Type} [DecidableEq α] (d : α) : List (Nat × α) → Nat → α → List (Nat × α)
  | [], x, v => if v = d then [] else [(x, v)]
  | (k, w) :: m, x, v =>
    if x < k then (if v = d then (k, w) :: m else (x, v) :: (k, w) :: m)
    else if x = k then (if v = d then m else (k, v) :: m)
    else (k, w) :: SMap.set d m x v

/-- The canonical form: every key is above `lo`, keys rise strictly, no entry equals `d`. -/
def SMap.wfFrom {α : Type} [DecidableEq α] (d : α) : Nat → List (Nat × α) → Bool
  | _, [] => true
  | lo, (k, v) :: m => decide (lo ≤ k) && decide (v ≠ d) && SMap.wfFrom d (k + 1) m

/-- The canonical form of a sparse map. -/
def SMap.wf {α : Type} [DecidableEq α] (d : α) (m : List (Nat × α)) : Bool := SMap.wfFrom d 0 m

/-- Read-modify-write of one entry. -/
def SMap.upd {α : Type} [DecidableEq α] (d : α) (m : List (Nat × α)) (k : Nat) (f : α → α) : List (Nat × α) :=
  SMap.set d m k (f (SMap.get d m k))

/-- Change every listed entry, dropping those that become `d`. -/
def SMap.mapVals {α : Type} [DecidableEq α] (d : α) (f : α → α) (m : List (Nat × α)) : List (Nat × α) :=
  (m.map fun x => (x.1, f x.2)).filter fun x => decide (x.2 ≠ d)

/-- A byte memory: pairs of address and byte; an unlisted byte reads as zero. [DESIGN CHOICE, log 9] -/
abbrev Mem := List (Nat × Byte)

/-- The canonical form of a byte memory. [DESIGN CHOICE, log 9] -/
def Memory.wf (m : Mem) : Bool := SMap.wf (0 : Byte) m

/-- One byte of a memory. [DESIGN CHOICE, log 9] -/
def Mem.get (m : Mem) (a : Nat) : Byte := SMap.get (0 : Byte) m a

/-- Store one byte. [DESIGN CHOICE, log 9] -/
def Mem.set (m : Mem) (a : Nat) (b : Byte) : Mem := SMap.set (0 : Byte) m a b

/-- Read `n` bytes from address `a`. -/
def Mem.read (m : Mem) (a : Nat) : Nat → Bytes
  | 0 => []
  | n + 1 => Mem.get m a :: Mem.read m (a + 1) n

/-- Store a run of bytes from address `a`. -/
def Mem.write (m : Mem) (a : Nat) : Bytes → Mem
  | [] => m
  | b :: bs => Mem.write (Mem.set m a b) (a + 1) bs

/-- Make `n` bytes from `a` read as zero. -/
def Mem.clear (m : Mem) (a n : Nat) : Mem := m.filter (fun c => ¬ (a ≤ c.1 ∧ c.1 < a + n))

/-- The number that a little-endian run of bytes spells (R10). -/
def leNat : Bytes → Nat
  | [] => 0
  | b :: bs => b.toNat + 256 * leNat bs

/-- `n` little-endian bytes of a number (R10). -/
def leBytes : Nat → Nat → Bytes
  | 0, _ => []
  | n + 1, v => BitVec.ofNat 8 (v % 256) :: leBytes n (v / 256)

/-- The little-endian field of `n` bytes at offset `o`; bytes beyond the end read as zero. -/
def field (bs : Bytes) (o n : Nat) : Nat := leNat ((bs.drop o).take n)

/-- Bits [lo + n − 1 : lo] of a number. -/
def bits (v lo n : Nat) : Nat := (v / 2 ^ lo) % 2 ^ n

/-- Bit `i` of a number. -/
def bitOf (v i : Nat) : Bool := (v / 2 ^ i) % 2 == 1

/-- A Boolean as a bit. -/
def b2n (b : Bool) : Nat := if b then 1 else 0

/-- The signed reading of an `n`-bit pattern. -/
def sext (n v : Nat) : Int := if v < 2 ^ (n - 1) then (v : Int) else (v : Int) - 2 ^ n

/-- `n` zero bytes. -/
def zeros (n : Nat) : Bytes := List.replicate n 0

/-- A run cut or zero-padded to `n` bytes. -/
def fitTo : Nat → Bytes → Bytes
  | 0, _ => []
  | n + 1, bs => bs.headD 0 :: fitTo n bs.tail

/-- Replace the bytes from offset `o` on by `w`, within the length of `bs`. -/
def splice (bs : Bytes) (o : Nat) (w : Bytes) : Bytes :=
  (bs.take o ++ w ++ bs.drop (o + w.length)).take bs.length

/-- Offset of the first nonzero byte among the listed (offset, length) ranges. -/
def firstNonzero (bs : Bytes) : List (Nat × Nat) → Option Nat
  | [] => none
  | (o, n) :: rs =>
    match (List.range n).find? (fun i => field bs (o + i) 1 ≠ 0) with
    | some i => some (o + i)
    | none => firstNonzero bs rs

/-- Saturating increment of a counter of `w` bits (R15). -/
def satAdd (w a b : Nat) : Nat := min (a + b) (2 ^ w - 1)

/-- Write-1-to-clear (R12): each 1 of `v` clears that bit of `old`. -/
def rw1c (old v : Nat) : Nat := Nat.xor old (Nat.land old v)

/-- Insert a number into an ascending set. -/
def NSet.ins (x : Nat) : List Nat → List Nat
  | [] => [x]
  | y :: ys => if x < y then x :: y :: ys else if x = y then y :: ys else y :: NSet.ins x ys

/-- Remove a number from a set. -/
def NSet.del (x : Nat) (l : List Nat) : List Nat := l.filter (· ≠ x)

/-- The largest element of a list of numbers, 0 for the empty list. -/
def maxOf : List Nat → Nat := List.foldl max 0

/-- Ceiling division. -/
def cdiv (a b : Nat) : Nat := (a + b - 1) / b

/-- The `i`-th element of a list of numbers, or `d`. -/
def nth {α : Type} (l : List α) (i : Nat) (d : α) : α := l.getD i d

end Sys2Proof.Machine
end

