-- ==== Sys2Proof/Machine/State.lean ====
section
/-! DEFINITION. Sys2Proof/Machine/State.lean: everything the manual gives the part as state, the part after reset, and the
reasons a command can stop. -/

namespace Sys2Proof.Machine
open Sys2Proof

/-- A mailbox's registers and buffers (R67–R71). -/
structure Mailbox where
  /-- MB_STATUS.STATE: 0 IDLE, 1 BUSY, 2 DONE -/
  st       : Nat
  /-- MB_STATUS.TAG -/
  tag      : Nat
  /-- MB_STATUS.CODE -/
  code     : Nat
  /-- MB_EVENT.DONE -/
  done     : Bool
  /-- MB_EVENT.OVERRUN -/
  overrun  : Bool
  /-- MB_EVENT.ABORTED -/
  aborted  : Bool
  /-- MB_IRQ.EN -/
  irqEn    : Bool
  /-- MB_IRQ.VECTOR -/
  vector   : Nat
  /-- MB_OWNER.ASSIGNED (on mailboxes 2 and above) -/
  assigned : Bool
  /-- MB_OWNER.CONTEXT -/
  ctx      : Nat
  /-- MB_SEQ.EXPECT -/
  expect   : Nat
  /-- request buffer; bytes beyond the list are zero -/
  req      : Bytes
  /-- response buffer; bytes beyond the list are zero -/
  resp     : Bytes
  /-- a request that is accepted and waits under FLAGS.ORDERED (R73): OPCODE, its copy, and the commands it waits for, each by the
  mailbox and SEQUENCE of its request -/
  waiting  : Option (Nat × Request × List (Nat × Nat))
  /-- completion of a held command that waits for the host link to return (R488): status, DETAIL, payload -/
  late     : Option (Nat × Nat × Bytes)
deriving DecidableEq, Repr

/-- A quota block (R80). -/
structure Quota where
  hbmT : Nat
  hbmS : Nat
  slc : Nat
  rings : Nat
  mailboxes : Nat
  srvQueues : Nat
  srvEntries : Nat
  prefixes : Nat
  agents : Nat
  prismShare : Nat
  hbmShare : Nat
  storeShare : Nat
  prioMax : Nat
deriving DecidableEq, Repr

/-- A host window of a context (MEM_MAP_HOST). -/
structure Window where
  handle : Nat
  base   : Nat
  len    : Nat
deriving DecidableEq, Repr

/-- A context (R67, R80, R82, R513). -/
structure Context where
  /-- 0 FREE, 1 ACTIVE, 2 RESETTING -/
  st        : Nat
  quota     : Quota
  /-- the bound event ring, if any (SYS_EVENT_RING) -/
  eventRing : Option Nat
  /-- event records held while the ring is full, oldest first, at most 256 (R79) -/
  held      : List Bytes
  /-- records dropped since the last delivered one (R79) -/
  lost      : Nat
  /-- next OP_HANDLE (R78) -/
  nextOp    : Nat
  /-- count part of the last transaction id (R90) -/
  txnCount  : Nat
  windows   : List Window
  /-- HBM key in its key slot, by identifier; 0 none (R354, R513) -/
  hbmKey    : Nat
  /-- the key being replaced by a key roll in progress; 0 none (R516) -/
  oldKey    : Nat
  /-- context secret, if installed (R514) -/
  secret    : Option Bytes
  /-- CONFIDENTIAL: the host sees the context's memory only as R517 says -/
  confidential : Bool
  /-- REQUIRE_IDE (R518) -/
  requireIde : Bool
  /-- the context's nonce, drawn at creation (R511) -/
  nonce     : Nat
  /-- KEY_EPOCH (R514) -/
  epoch     : Nat
deriving DecidableEq, Repr

/-- A command that answered PENDING and has not delivered its final record (R78). -/
structure PendingOp where
  ctx     : Nat
  handle  : Nat
  opcode  : Nat
  tag     : Nat
  seq     : Nat
  mailbox : Nat
  /-- the request payload, from which the deferred work is done -/
  payload : Bytes
deriving DecidableEq, Repr

/-- A staged configuration item (R91). -/
structure CfgItem where
  ty      : Nat
  inst    : Nat
  setting : Nat
  value   : Nat
deriving DecidableEq, Repr

/-- An open configuration transaction (R90, R95). -/
structure Txn where
  ctx   : Nat
  id    : Nat
  /-- 1 staging, 2 COMMITTING -/
  st    : Nat
  items : List CfgItem
  /-- tick of the CFG_BEGIN -/
  start : Nat
  /-- OP_HANDLE of its CFG_COMMIT, when that answered PENDING -/
  op    : Option Nat
  /-- mailbox of its CFG_COMMIT -/
  mailbox : Nat
  /-- tick at which its commit became the one in progress -/
  since : Nat
  /-- CFG_TXN_n.LEFT as it stood when its commit was accepted -/
  left : Nat
  /-- the affected instances that rejected the items when firmware sent them (R93 step 2); the others have accepted -/
  rejected : List (Nat × Nat)
deriving DecidableEq, Repr

/-- The configuration-transaction machinery (R93, R96). -/
structure Cfg where
  txns    : List Txn
  /-- context numbers of the accepted commits, the one in progress first (R93) -/
  queue   : List Nat
  /-- ids of expired transactions (R95) -/
  expired : List Nat
  lastId : Nat
  lastStatus : Nat
  lastCtx : Nat
  commits : Nat
deriving DecidableEq, Repr

/-- One segment of a Stream Unit task (R328): source and destination address, length, and the address range of the
other party's list entry that is checked before it issues (R344). -/
structure Seg where
  src : Nat
  dst : Nat
  len : Nat
  chk : Option (Nat × Nat)
deriving DecidableEq, Repr

/-- The descriptor a unit has in progress on a ring, from the moment it is consumed. [DEDUCED, log 45] -/
structure Cur where
  index   : Nat
  desc    : Bytes
  /-- 0 at work, 1 finished: TASK_COMPLETE writes its record -/
  phase   : Nat
  status  : Nat
  lb      : Nat
  /-- UNIT_DETAIL, 24 bytes -/
  detail  : Bytes
  /-- a record is written whatever CR holds -/
  force   : Bool
  /-- segments issued and not acknowledged; acknowledged ones not yet reported -/
  out     : List Seg
  /-- segments not yet issued -/
  todo    : List Seg
  /-- bytes and segments acknowledged so far -/
  ackBytes : Nat
  ackSegs  : Nat
  /-- tick at which the work began -/
  start   : Nat
  /-- tick of the last acknowledgement -/
  last    : Nat
  /-- CHK of a confidential context when the task began (R516, R517) -/
  chk     : Option Bytes
  /-- REASON of the fault that ends the task, 0 while there is none; its status; its source address -/
  fault   : Nat
  fstat   : Nat
  faddr   : Nat
  /-- rows done, or the unit's own progress -/
  rows    : Nat
deriving DecidableEq, Repr

/-- A record that a producing unit holds for a full ring (R334). -/
structure HeldRec where
  producer : Nat
  bytes    : Bytes
  /-- vector of the message that follows the record's write, 0xFFFF for none (R335) -/
  vector   : Nat
deriving DecidableEq, Repr

/-- A ring and its register group (R84, R85, R330–R335, R352). -/
structure Ring where
  /-- 0 FREE, 1 RUNNING, 2 STOPPED, 3 DRAINING, 4 DRAINED -/
  st        : Nat
  kind      : Nat
  slotLog2  : Nat
  slots     : Nat
  base      : Nat
  space     : Nat
  unitType  : Nat
  unitInst  : Nat
  completion : Nat
  vector    : Nat
  ctx       : Nat
  head      : Nat
  tail      : Nat
  badWrite  : Bool
  stopCode  : Nat
  stopIndex : Nat
  arm       : Bool
  done      : Nat
  held      : List HeldRec
  /-- descriptors fetched ahead, with their ring index; the first is the one at HEAD (R332) -/
  fetched   : List (Nat × Option Bytes)
  cur       : Option Cur
  /-- a task has begun and its next linked descriptor is still to come -/
  inTask    : Bool
  /-- classes of the descriptors that its task has begun, as a mask (R145) -/
  classes   : Nat
  /-- the task has failed: what is left of it completes with REASON FOLLOWS -/
  taskFail  : Bool
  /-- OP_HANDLE of the RING_DRAIN in progress -/
  drainOp   : Option Nat
  /-- slot that the ring takes among the rings its unit consumes from -/
  slot      : Nat
  /-- a FENCE at HEAD: 0 not begun, 1 waits for a handle, 2 holds its handle and waits for a free slot (R338) -/
  fence     : Nat
  /-- the tick since which it waits -/
  fenceAt   : Nat
  /-- who has posted to a buffer-handle ring: 1 a unit, 2 software, 3 both (R340) -/
  posted    : Nat
deriving DecidableEq, Repr

/-- The snapshot register and shadows of a block (R38–R41). -/
structure Snap where
  busy    : Bool
  pend    : Bool
  seq     : Nat
  latched : List (Nat × Nat)
  shadow  : List (Nat × Nat)
deriving DecidableEq, Repr

/-- What every unit of the Facet Table has in common: settings in effect, error register and its first-error
register, counters, snapshot, engine-reset history. -/
structure UnitRegs where
  /-- settings in effect that a commit has set; an unlisted setting is at its reset value -/
  sets      : List (Nat × Option Nat)
  /-- the block's error register, RW1C -/
  err       : Nat
  /-- RING, INDEX and REASON of the first error since the error register was last all zero -/
  errRing   : Nat
  errIndex  : Nat
  errReason : Nat
  /-- the block's counters; unlisted ones are zero -/
  cnt       : List (Nat × Nat)
  snap      : Snap
  /-- the instance holds for a configuration commit (R93) -/
  hold      : Bool
  /-- ticks of the ENGINE resets of the last 24 hours (R570) -/
  resets    : List Nat
  /-- taken out of service (R570) -/
  oos       : Bool
  /-- for round robin among rings: the slot last served plus one, by class of task (R145) or by 16 plus the context (R329) -/
  rr        : List (Nat × Nat)
  /-- ticks of the corrected errors of the last hour (R358) -/
  recent    : List Nat
  /-- SCL_LAST of a Scaler (R234), LENS_LAST of a Lens (R262) -/
  last      : Nat
deriving DecidableEq, Repr

/-- An open merge interval of error records: one per context, code and unit instance (R575). -/
structure ErrSlot where
  ctx   : Nat
  code  : Nat
  unit  : Nat
  count : Nat
  bytes : Bytes
deriving DecidableEq, Repr

/-- A Loupe log entry (R546). -/
structure LogEntry where
  seq  : Nat
  tick : Nat
  /-- AON_US -/
  aonUs : Nat
  kind : Nat
  sev  : Nat
  die  : Nat
  data : Bytes
deriving DecidableEq, Repr

/-- A reset in progress (R564, R567). -/
structure ResetRun where
  /-- 1 CONTEXT, 2 FUNCTION, 3 WARM -/
  kind : Nat
  ctxs : List Nat
  /-- CTX_DESTROY rather than CTX_RESET -/
  destroy : Bool
  /-- context and handle of the commands awaiting it -/
  ops  : List (Nat × Nat)
  /-- steps 1 and 2 of R567 are done; a CONTEXT reset waits for an accepted commit first (R95) -/
  begun : Bool
deriving DecidableEq, Repr

/-- Supplies, boot state, identity and messages of the part. -/
structure Sys where
  vaux      : Bool
  vin       : Bool
  /-- PERST_N deasserted -/
  perst     : Bool
  /-- FACET_BASE.VALID, STAGE and the table's GENERATION (R51, R65) -/
  valid     : Bool
  stage     : Nat
  gen       : Nat
  /-- IDENT.SCI_MAJOR and SCI_MINOR (R44) -/
  sciMajor  : Nat
  sciMinor  : Nat
  /-- CODE of the error that made the part FATAL; 0 while it is not (R578) -/
  fatal     : Nat
  /-- tick at which SCI firmware started -/
  fwStart   : Nat
  resets    : List ResetRun
  /-- kind of an accepted SYS_RESET that is still to begin (R565) -/
  sysReset  : Option Nat
  /-- the boot sequence runs and SCI firmware is still to publish (R571) -/
  booting   : Bool
  /-- that boot follows a WARM reset -/
  warm      : Bool
  /-- spine and Prism links that are down, by LINK instance (R26) -/
  linksDown : List Nat
  /-- the error counters of the links: corrected retries by LINK instance (R26) -/
  linkRetries : List (Nat × Nat)
  msixOn    : Bool
  /-- unmasked MSI-X vectors -/
  unmasked  : List Nat
  /-- vectors whose PBA bit is set (R482) -/
  pba       : List Nat
  /-- MSI-X messages sent, oldest first -/
  msgs      : List Nat
  /-- RC fields by address, and the value the last RC read returned (R591) -/
  rc        : List (Nat × Nat)
  rdata     : Nat
  /-- pod and pod device index of this device (R440), as POD_JOIN gave them -/
  pod       : Nat
  podDev    : Nat
  /-- POD_JOIN has completed and pod synchronisation holds (R439) -/
  joined    : Bool
  podSync   : Bool
  /-- unit instances that are fused off, by TYPE × 65,536 + INSTANCE (R60): no command changes it -/
  fused     : List Nat
  /-- unit instances that were out of service at the last publication of the table, by TYPE × 65,536 + INSTANCE (R60, R570) -/
  pubOos    : List Nat
  /-- active firmware slot: 0 A, 1 B (R548) -/
  slot      : Nat
  /-- running and fused security version numbers, debug state: 0 LOCKED, 1 UNLOCK_PENDING, 2 UNLOCKED (R509, R525) -/
  svn       : Nat
  rollback  : Nat
  debug     : Nat
  /-- HP_STATUS.IDE_LINK and IDE_CXL (R501) -/
  ideLink   : Bool
  ideCxl    : Bool
  /-- messages sent on network bindings: binding, bytes; oldest first -/
  netOut    : List (Nat × Bytes)
  /-- messages for devices of other pods, which leave over the Network Ports (R438): system index, class, bytes; oldest first -/
  outbound  : List (Nat × Nat × Bytes)
  /-- POD_ID and MGMT_ADDR straps as sampled (R582) -/
  strapPod  : Nat
  strapMgmt : Nat
deriving DecidableEq, Repr

/-- A run of pages that MEM_ALLOC gave out (R353). -/
structure Alloc where
  ctx  : Nat
  base : Nat
  len  : Nat
deriving DecidableEq, Repr

/-- The memories: each a canonical list of the bytes that are not zero, and the poison marks. -/
structure Mems where
  /-- device memory, by device address (R58) -/
  hbm    : List Host.Cell
  /-- core SRAM: core × 2^25 + byte offset; cores 0–31 teacher, 32–47 student (R126, R182) -/
  sram   : List Host.Cell
  /-- host memory, by host physical address -/
  host   : List Host.Cell
  /-- the Weight Store's logical contents (R58, R364) -/
  store  : List Host.Cell
  /-- poisoned 64-byte lines of device memory -/
  hbmPoison  : List Nat
  /-- marked 8-byte words of core SRAM -/
  sramPoison : List Nat
  /-- of these, the words that an uncorrectable error marked; the others hold poison (R126) -/
  sramUe : List Nat
  /-- poisoned 4 KiB codewords of the Store -/
  storePoison : List Nat
  /-- poisoned 64-byte lines of host memory -/
  hostPoison : List Nat
  /-- owner of each 2 MiB page plus one; 0 free (R353) -/
  pages  : List (Nat × Nat)
  allocs : List Alloc
  /-- stacks in the FAILED state (R576) -/
  failed : List Nat
deriving DecidableEq, Repr

/-- The event log and the limits on its notifications (R546, R547), and the error-record intervals (R575). -/
structure LogState where
  /-- SEQ of the next entry, counted since manufacture -/
  next  : Nat
  /-- entries in AON SRAM, oldest first, at most 4,096 -/
  aon   : List LogEntry
  /-- entries copied into the firmware SLC log, oldest first -/
  slc   : List LogEntry
  /-- (context, KIND, tick) of the last notification delivered -/
  notif : List (Nat × Nat × Nat)
  slots : List ErrSlot
deriving DecidableEq, Repr

/-- A staging half of a teacher core (R152, R153, R176). -/
structure Stage where
  fillSeq : Nat
  freeSeq : Nat
  /-- TE_STAGEn.POISON -/
  poison  : Bool
  /-- TE_STAGEn.SEALED -/
  sealing : Bool
  /-- a fill since the last FINAL placed a poisoned word -/
  bad     : Bool
  /-- the FINAL of the last task has completed: the next fill begins a new task -/
  fresh   : Bool
deriving DecidableEq, Repr

/-- A held accumulator bank and the pass that holds it (R134, R147). -/
structure Chain where
  ring : Nat
  desc : Bytes
  /-- accumulators by array, row and column, as fp32 patterns -/
  acc  : List (List (List Nat))
deriving DecidableEq, Repr

/-- A finished pass whose drain is in flight (R133): the rows still to be written, the non-finite values among them,
and what its record and the core's counters report. -/
structure Drain where
  ring   : Nat
  writes : List (Nat × Bytes)
  nonfin : Nat
  cycles : Nat
  gated  : Nat
  counts : List (Nat × Nat)
deriving DecidableEq, Repr

/-- The vector unit while a task runs (R192). -/
structure VecState where
  ring   : Nat
  /-- byte address of the program in the core's SRAM, and its length in instructions -/
  prog   : Nat
  len    : Nat
  pc     : Nat
  vl     : Nat
  /-- x0–x31; unlisted ones are zero -/
  x      : List (Nat × Nat)
  /-- lane l of vr is entry 256 r + l; unlisted ones are zero -/
  v      : List (Nat × Nat)
  /-- m0–m7 as 256-bit patterns -/
  m      : List Nat
  /-- instructions issued (R198) -/
  issued : Nat
  /-- port and destination of a stalled TWAIT -/
  wait   : Option (Nat × Nat)
  /-- bytes stored -/
  lb     : Nat
deriving DecidableEq, Repr

/-- SE_KD_LOSS in progress: the row it works on next, and what its record reports (R199, R208). -/
structure KdState where
  ring    : Nat
  row     : Nat
  nonfin  : Nat
  floored : Nat
  lb      : Nat
deriving DecidableEq, Repr

/-- A compute core: teacher cores 0–31, student cores 32–47. -/
structure Core where
  /-- the clearing of R143 is in progress, and the mailbox of the RING_DESTROY that waits for it -/
  clearing : Bool
  waiter   : Option Nat
  stage0   : Stage
  stage1   : Stage
  chain    : Option Chain
  drain    : Option Drain
  vec      : Option VecState
  kd       : Option KdState
  /-- bit p: the head record of target port p was returned by TWAIT and not released -/
  taken    : Nat
deriving DecidableEq, Repr

/-- An open block of a PLACED ring (R274). -/
structure Blk where
  seq   : Nat
  first : Nat
  len   : Nat
  /-- ring index of its first slot -/
  start : Nat
deriving DecidableEq, Repr

/-- A ring of a Prism channel: target, tap or token (R271–R278). Its indices count slots modulo 2 × SLOTS. -/
structure PRing where
  bound   : Bool
  kind    : Nat
  order   : Nat
  tap     : Nat
  tapFmt  : Nat
  port    : Nat
  core    : Nat
  /-- pod device index of the student's device; 0xFFFF when local -/
  remote  : Nat
  slots   : Nat
  base    : Nat
  limit   : Nat
  vocab   : Nat
  mapAddr : Nat
  seqs    : Nat
  maxLen  : Nat
  job     : Nat
  ctx     : Nat
  /-- 0 IDLE, 1 ACTIVE, 2 RESETTING -/
  st      : Nat
  /-- free and reserved credits of the transmit side (R275); free slots for PLACED and token rings (R278) -/
  free    : Nat
  reserved : Nat
  /-- credits pending in the receive side, and the tick at which the first came (R276) -/
  pend    : Nat
  since   : Nat
  /-- credits of the CRD message in flight (R277) -/
  crd     : Nat
  head    : Nat
  /-- index of the next slot to fill (STREAM, token) or to give to a block (PLACED) -/
  tail    : Nat
  /-- slots written, by index -/
  written : List Nat
  blocks  : List Blk
  /-- bytes of a record from a peer device of which more is to come (R288) -/
  part    : Bytes
  /-- seal KMAX, taps and TMIN of the ring's job (R297) -/
  kmax    : Nat
  taps    : Bool
  sealed  : Bool
  tmin    : Nat
deriving DecidableEq, Repr

/-- A tag list in force (R291). -/
structure TagList where
  lens : Nat
  addr : Nat
  rows : Nat
  next : Nat
  temp : Nat
  reserve : Bool
deriving DecidableEq, Repr

/-- A record, tap record or token chunk between the two sides of a channel. -/
structure Flight where
  ring  : Nat
  seq   : Nat
  pos   : Nat
  bytes : Bytes
deriving DecidableEq, Repr

/-- A block open that waits for its grant (R274): asked by a Serving Block when `by` is 0, by the descriptor in progress on ring `by − 1`
up to ring 4,095, and by pod device `by − 4097` above that (R288). -/
structure BlkOpen where
  ring  : Nat
  seq   : Nat
  first : Nat
  len   : Nat
  by_   : Nat
deriving DecidableEq, Repr

/-- Deficit round robin over sources with a number each: the source served last, and the bytes that sources with data may still
send (R289, R365). -/
structure Drr where
  at_  : Nat
  owed : List (Nat × Nat)
deriving DecidableEq, Repr

/-- Before the first turn. -/
def Drr.init : Drr := { at_ := 0, owed := [] }

/-- A Prism channel. -/
structure Chan where
  lists  : List TagList
  flight : List Flight
  opens  : List BlkOpen
  /-- 0 by the Prism link, 1 through a hub (R26) -/
  route  : Nat
  /-- turns of the record stream (source 0) and of the tap stream of ring `n` (source `n` + 1) on the link (R289) -/
  turns  : Drr
deriving DecidableEq, Repr

/-- A PRISM_ROWS that a SOFT_TARGET step has issued: its ring and ring index, its channel, and its tag list (R275). -/
structure SoftList where
  ring : Nat
  index : Nat
  chan : Nat
  addr : Nat
  rows : Nat
deriving DecidableEq, Repr

/-- A sweep of a forward program that firmware is running (R164). -/
structure Sweep where
  id    : Nat
  image : Nat
  /-- the job or serving model it runs for -/
  job   : Option Nat
  model : Option Nat
  /-- batch rows T -/
  rows  : Nat
  /-- next step of the program -/
  step  : Nat
  /-- step after the open REPEAT, and repeats of it that remain -/
  repAt : Nat
  reps  : Nat
  /-- the PRISM_ROWS of a SOFT_TARGET step whose LENS_TOPK tasks are still to be issued -/
  soft  : List SoftList
  /-- the token ring whose head chunk this sweep scores (R287) -/
  scored : Option Nat
deriving DecidableEq, Repr

/-- A sweep at the first step of its program. -/
def Sweep.start (id image : Nat) (job model : Option Nat) (rows : Nat) : Sweep :=
  { id, image, job, model, rows, step := 0, repAt := 0, reps := 0, soft := [], scored := none }

/-- A job (R299). -/
structure Job where
  ctx    : Nat
  /-- 0 CREATED, 1 RUNNING, 2 STOPPING, 3 STOPPED, 4 ABORTED -/
  st     : Nat
  /-- the 256 bytes of R301 -/
  header : Bytes
  /-- binding blocks of R271 -/
  binds  : List Bytes
  started : Bool
  /-- OP_HANDLE of the JOB_STOP in progress, its DELETE flag and its tick -/
  stopOp : Option Nat
  stopDelete : Bool
  stopAt : Nat
  /-- the teacher forward program runs -/
  fwd    : Bool
deriving DecidableEq, Repr

/-- Step state of the student job (R307, R310, R324). -/
structure StepState where
  step      : Nat
  scaleExp  : Nat
  clean     : Nat
  consecVeto : Nat
  b1t       : Nat
  b2t       : Nat
  cause     : Nat
  flags     : Nat
  vetoDev   : Nat
  vetoTensor : Nat
  norm      : Nat
  clip      : Nat
  participants : Nat
  commitTick : Nat
  /-- scale exponent of the attempt whose window is open: the one its gradients carry -/
  useExp    : Nat
  /-- attempts whose ledger entry has been opened (R322) -/
  opened    : List Nat
  /-- ATTEMPT of the last commit word; before the first, the number before that of the first attempt (R310, R311) -/
  attempt   : Nat
deriving DecidableEq, Repr

/-- One Update Unit (R308–R316). -/
structure Upd where
  attempt : Nat
  /-- 64 lane partials of the norm and the count of owned elements -/
  lanes   : List Nat
  lane    : Nat
  shardsOk : Bool
  scaleOk : Bool
  localNf : Bool
  reducedNf : Bool
  /-- report: class (0 LOCAL, 1 REDUCED), tensor, element -/
  report  : Option (Nat × Nat × Nat)
  /-- its UPD_COMMIT has sent the contribution -/
  sent    : Bool
  window  : Bool
  applyCount : Nat
  applied : Nat
  /-- ring of the UPD_COMMIT it has taken up and not ended -/
  commit  : Option Nat
  /-- the bucket of the UPD_EXCHANGE in progress, as it was scanned and handed to Beam (R308) -/
  bucket  : Bytes
deriving DecidableEq, Repr


/-- An IMG_WRITE in progress (R171). -/
structure ImgWrite where
  ctx  : Nat
  op   : Nat
  /-- 0 device memory, 1 host window, 2 network binding -/
  kind : Nat
  src  : Nat
  /-- image offset of its next chunk, and of its end -/
  pos  : Nat
  stop : Nat
  /-- image offset at which it began -/
  from_ : Nat
deriving DecidableEq, Repr

/-- A teacher image (R167). -/
structure Image where
  /-- 0 OPEN, 1 CLOSING, 2 READY, 3 ACTIVE, 4 DAMAGED, 5 FAILED, 6 DELETING -/
  st     : Nat
  /-- owning context plus one; 0 none (R168) -/
  owner  : Nat
  /-- first chunk of its extent in the teacher region -/
  base   : Nat
  len    : Nat
  sealed : Bool
  /-- chunks programmed, ascending -/
  done   : List Nat
  /-- Store key number (R172); 0 none -/
  key    : Nat
  writes : List ImgWrite
  /-- context and handle of the pending IMG_CLOSE or IMG_DELETE -/
  op     : Option (Nat × Nat)
  /-- power-up scrub stage reached: 0 none, 1 sampled, 2 whole (R378) -/
  scrub  : Nat
deriving DecidableEq, Repr

/-- A Lens task in progress on a ring (R250–R252, R261): NaNs so far, suspensions, rounds per row, VALID and FLAGS of the
last completed row, the row block that waits for the Prism, and whether the task is suspended. -/
structure LensTask where
  nan        : Nat
  interposed : Nat
  rounds     : Nat
  valid      : Nat
  flags      : Nat
  held       : Option Bytes
  susp       : Bool
  /-- yield points of the row behind the task -/
  yields     : Nat
  /-- class of the task, 1 or 2, kept from one linked descriptor to the next (R250); 0 for no task -/
  cls        : Nat
deriving DecidableEq, Repr

/-- No Lens task. -/
def LensTask.init : LensTask :=
  { nan := 0, interposed := 0, rounds := 0, valid := 0, flags := 0, held := none, susp := false, yields := 0, cls := 0 }


/-- A Beam group (R440, R443). -/
structure Group where
  ctx     : Nat
  key     : Nat
  /-- system indices, by rank -/
  members : List Nat
  /-- 0 FORMING, 1 READY, 2 BROKEN, 3 FAILED, 4 REPLAYING (R468) -/
  st      : Nat
  /-- created with ENCRYPT (R519) -/
  enc     : Bool
  /-- GDK, fixed when the group was created (R515, R516) -/
  gdk     : Option Bytes
  /-- collectives run so far on engine 0 and on engine 1 (R441) -/
  seq0    : Nat
  seq1    : Nat
  lost    : Nat
deriving DecidableEq, Repr

/-- A beam port (R426, R429–R431, R433, R449). -/
structure Port where
  /-- 0 DISABLED, 1 DARK, 2 TRAINING, 3 ACTIVE, 4 RETRAIN, 5 DOWN, 6 ABSENT, 7 ISOLATED -/
  st       : Nat
  lightIn  : Bool
  lightRx  : Bool
  enc      : Bool
  waves    : Nat
  /-- RETRY, and a retrain since ACK last advanced -/
  retry    : Nat
  retrained : Bool
  peer     : Nat
  peerPort : Nat
  peerOk   : Bool
  /-- the peer reported this device's own pod device index under another identity (R434) -/
  twin     : Bool
  /-- equalisation generation applied at the last training (R448) -/
  eqGen    : Nat
  txNext   : Nat
  txAcked  : Nat
  rxExpect : Nat
  /-- unacknowledged flits, oldest first -/
  unacked  : List Bytes
  /-- tick at which the oldest unacknowledged flit was last sent, and of the last flit sent -/
  oldest   : Nat
  lastTx   : Nat
  /-- a REPLAY_REQ went out for the flit that is still expected -/
  asked    : Bool
  /-- ACK of the last flit sent (R429) -/
  ackSent  : Nat
  /-- flits that wait for a credit or for room: port they came in by plus one, and the flit -/
  wait     : List (Nat × Bytes)
  /-- turns of the classes on the link (R433) -/
  turns    : Drr
  /-- flit buffers free at the peer, and buffers to give back, by class × 16 + HOP -/
  credits  : List (Nat × Nat)
  owed     : List (Nat × Nat)
  /-- tick at which the state was entered -/
  since    : Nat
  /-- flits sent, oldest first -/
  wire     : List Bytes
deriving DecidableEq, Repr

/-- A port at reset: enabled by its setting's reset value, DISABLED until firmware enables it (R426). -/
def Port.init : Port :=
  { st := 0, lightIn := false, lightRx := false, enc := false, waves := 0, retry := 0, retrained := false, peer := 0, peerPort := 0
    peerOk := false, twin := false, eqGen := 0, txNext := 0, txAcked := 0, rxExpect := 0, unacked := [], oldest := 0, lastTx := 0
    asked := false, ackSent := 0, wait := [], turns := Drr.init, credits := [], owed := [], since := 0, wire := [] }

/-- Beam beyond its groups: ports, routes, timebase, joining. -/
structure Beam where
  ports  : List (Nat × Port)
  /-- routes: pod device index, port mask, hops (R435) -/
  routes : List (Nat × Nat × Nat)
  /-- flits held for a route change (R436): port they came in by plus one, and the flit -/
  held   : List (Nat × Bytes)
  /-- messages in transit: class, source, destination and STREAM, and the port they leave by plus one (R436) -/
  flows  : List (Nat × Nat)
  /-- messages that are arriving, by class, source and STREAM -/
  parts  : List (Nat × Bytes)
  /-- messages received whole: class, source, bytes -/
  inbox  : List (Nat × Nat × Bytes)
  /-- estimated offset from the timebase master as a 16-bit pattern, and depth in the tree (R439, R451) -/
  offset : Nat
  level  : Nat
  /-- the timebase may still be stepped once since POD_JOIN (R439) -/
  step   : Bool
  /-- POD_JOIN in progress: context, handle, expected bitmap, tick -/
  join   : Option (Nat × Nat × Nat × Nat)
deriving DecidableEq, Repr

/-- Beam at reset. [DESIGN CHOICE, log 10] -/
def Beam.init : Beam :=
  { ports := [], routes := [], held := [], flows := [], parts := [], inbox := [], offset := 0, level := 0, step := false, join := none }

/-- A binding of a Network Port (R493–R497); its number is port × 256 + index. -/
structure NetBind where
  ctx    : Nat
  /-- 0 RX_HBM, 1 RX_IMAGE, 2 REMOTE -/
  kind   : Nat
  /-- the 128 bytes of R494 -/
  block  : Bytes
  qpn    : Nat
  rkey   : Nat
  /-- 1 ready, 2 error -/
  st     : Nat
  sqPsn  : Nat
  rqPsn  : Nat
  /-- RX_IMAGE: bytes consumed, and received messages by image offset (R496) -/
  consumed : Nat
  staged : List (Nat × Bytes)
  /-- rate reduction in force after a CNP (R492) -/
  cnp    : Nat
  /-- retries of the oldest unacknowledged packet (R492) -/
  retries : Nat
  /-- tick from which the local ACK timeout runs (R494) -/
  at_ : Nat
  /-- packets sent and not acknowledged, oldest first: PSN, opcode (0 WRITE, 1 WRITE with Immediate, 2 READ, 3 SEND), virtual
  address, bytes, and the ring whose task it belongs to plus one -/
  unacked : List (Nat × Nat × Nat × Nat × Nat)
  /-- RDMA WRITE message arriving in several packets: next virtual address, bytes received and bytes still to come -/
  rx : Option (Nat × Nat × Nat)
deriving DecidableEq, Repr

/-- A Network Port beyond its bindings (R491, R503). -/
structure NetPort where
  /-- 0 DOWN, 1 TRAINING, 2 UP -/
  link   : Nat
  /-- tick at which the link last went down -/
  since  : Nat
  /-- priorities paused by the peer, and until when (R491) -/
  paused : List (Nat × Nat)
  /-- next local QPN and R_KEY to give out -/
  nextQp : Nat
  /-- firmware queue pairs that have failed, by destination pod (R499) -/
  lostPods : List Nat
  /-- packets sent, oldest first: binding, PSN, opcode (0 WRITE, 1 WRITE with Immediate, 2 READ, 3 SEND, 4 ACK, 5 NAK, 6 CNP, 7 READ
  response), virtual address or NAK code, bytes -/
  sent   : List (Nat × Nat × Nat × Nat × Bytes)
  /-- SENDs received, oldest first: binding, bytes -/
  recv   : List (Nat × Bytes)
deriving DecidableEq, Repr

/-- A Network Port at reset (R503). [DESIGN CHOICE, log 10; DEDUCED, log 61] -/
def NetPort.init : NetPort := { link := 0, since := 0, paused := [], nextQp := 16, lostPods := [], sent := [], recv := [] }

/-- The Host Port (R480–R488, R501). -/
structure HostPort where
  up    : Bool
  cxl   : Bool
  width : Nat
  rate  : Nat
  /-- an FLR is in progress -/
  flr   : Bool
  /-- base of the committed HDM range plus one; 0 while the decoder is not committed -/
  hdm   : Nat
  /-- host lines in the device cache, oldest first (R487) -/
  cache : List Nat
  /-- device lines that the snoop filter tracks, in order of insertion, with whether the host holds them modified (R484) -/
  snoop  : List (Nat × Bool)
  /-- BISnps that wait for the host's response, by line -/
  bisnp : List Nat
  /-- answers to CXL.mem reads, oldest first: address, poison, bytes -/
  rdata : List (Nat × Bool × Bytes)
  /-- BISnps sent, by line, oldest first -/
  sent  : List Nat
deriving DecidableEq, Repr

/-- The Host Port at reset. [DESIGN CHOICE, log 10] -/
def HostPort.init : HostPort :=
  { up := false, cxl := false, width := 0, rate := 0, flr := false, hdm := 0, cache := [], snoop := [], bisnp := [], rdata := []
    sent := [] }

/-- Security beyond the contexts' keys (R507–R525), and the SPDM and MCTP responders (R510, R551). -/
structure Sec where
  /-- an unlock token is staged (R525) -/
  token   : Bool
  /-- boots since manufacture: AK is that of one boot (R507) -/
  boot    : Nat
  /-- SHA-384 of the running Loupe and SCI firmware (R509) -/
  loupeFw : Bytes
  sciFw   : Bytes
  /-- signatures made: each takes a fresh nonce -/
  signs   : Nat
  /-- transports (0 DOE, 1 I3C, 2 SMBus) with a secured session -/
  session : List Nat
  /-- SPDM and MCTP answers sent, oldest first: transport, bytes -/
  out     : List (Nat × Bytes)
  /-- MCTP endpoint identifier of each transport -/
  eid     : List (Nat × Nat)
  /-- counters of the last message of each sender and class in an encrypted group: group × 2^24 + sender × 256 + class (R519) -/
  sent    : List (Nat × Nat)
  /-- counters seen, most recent first, at most 1,024 for each sender and class (R519) -/
  seen    : List (Nat × List Nat)
deriving DecidableEq, Repr

/-- Security at reset. [DESIGN CHOICE, log 10; PRESUMED, log 11] -/
def Sec.init : Sec :=
  { token := false, boot := 0, loupeFw := [], sciFw := [], signs := 0, session := [], out := [], eid := [], sent := []
    seen := [] }

/-- One entry of a region list (R455). -/
structure Region where
  addr  : Nat
  len   : Nat
  early : Bool
deriving DecidableEq, Repr

/-- A checkpoint generation (R456–R459); its number is 2 × level + generation. -/
structure Ckpt where
  /-- 0 none, 1 CAPTURING, 2 COPYING, 3 COMPLETE, 4 FAILED -/
  st    : Nat
  job   : Nat
  /-- context of the job -/
  ctx   : Nat
  step  : Nat
  attempt : Nat
  /-- step block as of the checkpoint -/
  block : Bytes
  regs  : List Region
  /-- bytes of each region as the checkpoint began, and once read -/
  was   : List Bytes
  data  : List (Option Bytes)
  /-- something wrote a region that was not yet read (R458) -/
  spoilt : Bool
  /-- L3 binding -/
  bind  : Nat
  /-- context and handle of the command that awaits it -/
  op    : Option (Nat × Nat)
  /-- it is part of a MIR_SNAPSHOT -/
  snap  : Bool
  /-- MEK under which it was written, where it is encrypted (R516, R520) -/
  mek   : Option Bytes
deriving DecidableEq, Repr

/-- No checkpoint. -/
def Ckpt.init : Ckpt :=
  { st := 0, job := 0, ctx := 0, step := 0, attempt := 0, block := [], regs := [], was := [], data := [], spoilt := false, bind := 0, op := none, snap := false, mek := none }

/-- The protection of a job (R453). -/
structure Prot where
  job      : Nat
  buddy    : Nat
  retain   : Nat
  logAddr  : Nat
  logDepth : Nat
  deltaMax : Nat
  regs     : List Region
  /-- false once the job is UNPROTECTED (R463, R467) -/
  ok       : Bool
  /-- the buddy was lost; the log goes on in SLC only -/
  noBuddy  : Bool
  /-- MEK, fixed when the protection was complete (R516) -/
  mek      : Option Bytes
deriving DecidableEq, Repr

/-- The designation of this device as a spare (R454). -/
structure Desig where
  group : Nat
  job   : Nat
  auto  : Bool
deriving DecidableEq, Repr

/-- A reservation held for a peer (R453). -/
structure Resv where
  dev  : Nat
  base : Nat
  len  : Nat
  /-- messages of its Mirror held here: header word and data, oldest first (R453, R463) -/
  got  : List (Nat × Bytes)
  /-- the word that a resolution adopted for it, once it is lost (R466) -/
  word : Option CommitWord
deriving DecidableEq, Repr

/-- A takeover in progress (R468). -/
structure Replay where
  job   : Nat
  group : Nat
  rank  : Nat
  /-- the restore has ended and the queue is served -/
  ready : Bool
  queue : List Delta
  first : Nat
  last  : Nat
  /-- context and handle of the MIR_TAKEOVER BEGIN that awaits the restore -/
  op    : Option (Nat × Nat)
deriving DecidableEq, Repr

/-- Mirror (R453–R478). -/
structure Mirror where
  prot    : Option Prot
  desig   : Option Desig
  resv    : List Resv
  /-- checkpoints by 2 × level + generation -/
  ckpts   : List (Nat × Ckpt)
  /-- number of the last COMPLETE checkpoint of each level -/
  last    : List (Nat × Nat)
  /-- the delta of the attempt in progress, and the deltas kept at the buddy, oldest first -/
  cur     : Delta
  kept    : List Delta
  /-- the log in the job's SLC allocation, 128 bytes an entry, oldest first -/
  log     : List Bytes
  /-- slot and delta of the attempt in progress have gone to the buddy; it has acknowledged them -/
  asked   : Bool
  acked   : Bool
  /-- the attempt's slot did not match: the contribution carries SHARD -/
  badSlot : Bool
  replay  : Option Replay
  /-- TEMPLATE of each job that has one -/
  tmpl    : List (Nat × List Region)
  /-- designations of this pod's spares: device, GROUP_KEY, AUTO and the group's members (R454) -/
  spares  : List (Nat × Nat × Bool × List Nat)
  /-- group of a resolution in progress (R466) -/
  resolving : Option Nat
  /-- an UPD_COMMIT has begun to wait for a checkpoint at this tick (R464) -/
  waitAt  : Option Nat
  /-- a MIR_SNAPSHOT that waits for its point: job, level, L3 binding, context and handle of the command -/
  snapWait : Option (Nat × Nat × Nat × Nat × Nat)
  /-- word adopted by a resolution that the attempt in progress has not taken yet -/
  adopted : Option CommitWord
  /-- MIR_RESOLVE -/
  rCause  : Nat
  rHeld   : Bool
  rSurv   : Nat
  rAttempt : Nat
  /-- MIR_ERR_INFO -/
  eJob    : Nat
  eDev    : Nat
  eAttempt : Nat
  /-- tick of the last heartbeat from each protected device, and from the buddy -/
  beats   : List (Nat × Nat)
deriving DecidableEq, Repr

/-- An empty delta. -/
def Delta.init : Delta := { attempt := 0, word := none, ents := [], early := [] }

/-- Mirror at reset. -/
def Mirror.init : Mirror :=
  { prot := none, desig := none, resv := [], ckpts := [], last := [], cur := Delta.init, kept := [], log := [], asked := false
    acked := false, badSlot := false, replay := none, tmpl := [], spares := [], resolving := none, waitAt := none, snapWait := none, adopted := none, rCause := 0, rHeld := false, rSurv := 0
    rAttempt := 0, eJob := 0, eDev := 0, eAttempt := 0, beats := [] }

/-- An agent core (R97–R99). -/
structure Agent where
  /-- 0 none, 1 loaded and stopped, 2 running -/
  st    : Nat
  ctx   : Nat
  image : Bytes
  /-- SHA-384 of the image -/
  measure : Bytes
  /-- data window -/
  base  : Nat
  len   : Nat
  arg   : Nat
deriving DecidableEq, Repr

/-- A free agent core. -/
def Agent.init : Agent := { st := 0, ctx := 0, image := [], measure := [], base := 0, len := 0, arg := 0 }

/-- A physical block of a Store stack (R372, R386); its number on its die is its stripe at manufacture (R363). -/
structure SBlock where
  /-- 0 ERASED, 1 OPEN, 2 SEALED, 3 RELOCATING, 4 STALE, 5 ERASING, 6 DUMP, 7 RETIRED -/
  st    : Nat
  /-- pages programmed -/
  pages : Nat
  pe    : Nat
  reads : Nat
  suspect : Bool
  /-- ticks of the reads that reached step 4 in the last 24 hours -/
  hits  : List Nat
  /-- a TLC spare that serves in SLC mode (R379) -/
  slc   : Bool
deriving DecidableEq, Repr

/-- A block as manufactured. -/
def SBlock.init : SBlock := { st := 0, pages := 0, pe := 0, reads := 0, suspect := false, hits := [], slc := false }

/-- A Store controller and its stack (R361–R386). -/
structure Ctl where
  /-- 0 INIT, 1 REPLAY, 2 SCRUB, 3 READY, 4 DEGRADED, 5 FAILED -/
  st      : Nat
  armed   : Bool
  holdup  : Bool
  /-- pending limit in MiB (R382) -/
  limit   : Nat
  /-- programs and erases are held by a dip (R385) or by the temperature of the stack (R536) -/
  hold    : Bool
  hot     : Bool
  failed  : List Nat
  /-- blocks by die × 8,192 + block number -/
  blocks  : List (Nat × SBlock)
  /-- stripe table: physical block (die × 8,192 + number, plus one) of member `die` of a stripe, by stripe × 16 + die, where it is not
  the block of the stripe's number on that die -/
  moved   : List (Nat × Nat)
  /-- relocation in progress: member die, source and destination (die × 8,192 + number), stripe -/
  reloc   : Option (Nat × Nat × Nat × Nat)
  /-- pending buffer: logical address and bytes of each acknowledged SLC write not yet programmed -/
  pend    : List (Nat × Nat)
  /-- what the last power-loss dump holds -/
  dump    : Option (List (Nat × Nat))
  /-- burst reservoir and life credit, in units of 1/86,400,000,000,000 byte, and when they were evaluated (R380) -/
  burst   : Int
  life    : Int
  evalAt  : Nat
  /-- nanoseconds spent throttled -/
  throttled : Nat
  thrRate : Bool
  thrLife : Bool
  /-- the SLC region, and which images' extents, have been scrubbed since the cold reset (R378) -/
  slcDone : Bool
  scrubbed : List Nat
  /-- plane time by class (R365) in the window of 1 ms that `win` numbers: 1 SLC_WRITE, 2 RELOC, 3 READ, 4 LOAD -/
  win     : Nat
  used    : List (Nat × Nat)
  /-- deficit round robin of each plane over contexts, by die × 32 + plane -/
  turns   : List (Nat × Drr)
deriving DecidableEq, Repr

/-- A controller at reset (R388). [DESIGN CHOICE, log 10] -/
def Ctl.init : Ctl :=
  { st := 0, armed := false, holdup := false, limit := 0, hold := false, hot := false, failed := [], blocks := [], moved := []
    reloc := none, pend := [], dump := none, burst := 150000000000 * 86400000000000
    life := 827000000000 * 86400000000000, evalAt := 0, throttled := 0, thrRate := false, thrLife := false, slcDone := false
    scrubbed := [], win := 0, used := [], turns := [] }

/-- An entry of a plan (R396). -/
structure PlanEnt where
  ix     : Nat
  prefill : Bool
  row    : Bool
  cow    : Bool
  first  : Nat
  count  : Nat
  tokens : List Nat
deriving DecidableEq, Repr

/-- An entry of a Step Record still to be written (R398): index, queue, token, probability, status, flags, tag. -/
structure RecEnt where
  ix     : Nat
  queue  : Nat
  token  : Nat
  prob   : Nat
  status : Nat
  flags  : Nat
  tag    : Nat
  deadline : Nat
deriving DecidableEq, Repr

/-- A model of a Serving Block (R391, R395). -/
structure SrvModel where
  ctx   : Nat
  /-- the 64 bytes of R391, VOCAB already taken from a teacher's image -/
  block : Bytes
  step  : Nat
  /-- 0 at a boundary, 1 execution, 2 sampling, 3 the record waits to be written -/
  phase : Nat
  faulted : Bool
  plan  : List PlanEnt
  /-- row table once the executor has returned it: space, core, address -/
  rows  : List (Nat × Nat × Nat)
  /-- rows sampled: row number, token or none, probability -/
  drawn : List (Nat × Option Nat × Nat)
  /-- the step has failed (R418) -/
  fail  : Bool
  start : Nat
  /-- boundary entries not yet in a record -/
  bents : List RecEnt
  /-- the context's parameter sets as of the last boundary (R406) -/
  sets : List (Nat × Bytes)
  /-- tick since which a record waits for room, plus one (R399) -/
  stall : Nat
  /-- references of the pages of the KV pool -/
  refs  : List (Nat × Nat)
  /-- request slots in use -/
  slots : List Nat
deriving DecidableEq, Repr

/-- No model. -/
def SrvModel.init : SrvModel :=
  { ctx := 0, block := [], step := 0, phase := 0, faulted := false, plan := [], rows := [], drawn := [], fail := false, start := 0
    bents := [], sets := [], stall := 0, refs := [], slots := [] }

/-- A serving queue (R392, R401). -/
structure SrvQueue where
  model   : Nat
  weight  : Nat
  closed  : Bool
  deficit : Int
deriving DecidableEq, Repr

/-- No queue: a default that no queue equals. -/
def SrvQueue.init : SrvQueue := { model := 0, weight := 0, closed := false, deficit := 0 }

/-- A request table entry (R393). -/
structure SrvEntry where
  /-- 0 FREE, 1 QUEUED, 2 PREFILL, 3 DECODE, 4 PAUSED, 5 RETIRING, 6 CANCELLED -/
  st       : Nat
  ctx      : Nat
  queue    : Nat
  model    : Nat
  length   : Nat
  computed : Nat
  maxLen   : Nat
  /-- request slot plus one; 0 before admission -/
  slot     : Nat
  prio     : Nat
  deadline : Nat
  prefx    : Nat
  sampler  : Nat
  seed     : Nat
  tag      : Nat
  seqId    : Nat
  pring    : Nat
  prompt   : Nat
  /-- prefix length: the prompt follows from this position -/
  from_    : Nat
  tokAddr  : Nat
  /-- page list, and reserved pages not yet in it -/
  pages    : List Nat
  spare    : List Nat
  /-- the token that the next decode step computes -/
  last     : Nat
  lossy    : Bool
  full     : Bool
  /-- Prism block: 0 not asked for, 1 asked for, 2 ended by the scoring of its final chunk (R287) -/
  blk      : Nat
  /-- on-policy: tokens not yet sent in chunks, and the position of the first (R287) -/
  toks     : List Nat
  sentTo   : Nat
  /-- pause pending: context, handle, space, destination -/
  pause    : Option (Nat × Nat × Nat × Nat)
  /-- the Summary State is being written -/
  writing  : Bool
  /-- resume pending: context, handle, space, source -/
  resume   : Option (Nat × Nat × Nat × Nat)
  /-- restore: 0 none, 1 in progress, 2 landed -/
  restore  : Nat
deriving DecidableEq, Repr

/-- A FREE entry. -/
def SrvEntry.init : SrvEntry :=
  { st := 0, ctx := 0, queue := 0, model := 0, length := 0, computed := 0, maxLen := 0, slot := 0, prio := 0, deadline := 0, prefx := 0
    sampler := 0, seed := 0, tag := 0, seqId := 0, pring := 0, prompt := 0, from_ := 0, tokAddr := 0, pages := [], spare := []
    last := 0, lossy := false, full := false, blk := 0, toks := [], sentTo := 0, pause := none, writing := false, resume := none, restore := 0 }

/-- A prefix (R404). -/
structure SrvPrefix where
  ctx    : Nat
  handle : Nat
  model  : Nat
  n      : Nat
  pages  : List Nat
deriving DecidableEq, Repr

/-- A sampler request that a Lens has answered: model, row, INSTANCE of the Serving Block that asked, and the Lens's block. -/
structure Draw where
  model : Nat
  row   : Nat
  inst  : Nat
  block : Bytes
deriving DecidableEq, Repr

/-- The tables of serving (R390–R407). -/
structure Serving where
  models   : List (Nat × SrvModel)
  queues   : List (Nat × SrvQueue)
  entries  : List (Nat × SrvEntry)
  prefixes : List SrvPrefix
  /-- parameter sets by context × 256 + number, 64 bytes; unlisted ones are zero -/
  samplers : List (Nat × Bytes)
  draws    : List Draw
  /-- sampler requests that wait for a Lens that holds a row: model, row, Lens (R250, R252) -/
  asks     : List (Nat × Nat × Nat)
deriving DecidableEq, Repr

/-- No serving. -/
def Serving.init : Serving := { models := [], queues := [], entries := [], prefixes := [], samplers := [], draws := [], asks := [] }

/-- A firmware slot (R548): condition 0 INVALID, 1 STAGED, 2 FALLBACK, 3 ACTIVE, its SVN, and the digests of its two parts. -/
structure FwSlot where
  cond  : Nat
  svn   : Nat
  loupe : Bytes
  sci   : Bytes
deriving DecidableEq, Repr

/-- Loupe (R528–R556). -/
structure Loupe where
  /-- supply dip in progress: tick at which it began, and DIP_LONG entries so far (R540) -/
  dip      : Option (Nat × Nat)
  /-- duty that the current limiter asks for, percent; since when the current has been below 95 % of the limit; the last sample's
  tick; nanoseconds stretched (R531) -/
  ilDuty   : Nat
  ilBelow  : Option Nat
  ilAt     : Nat
  ilNs     : Nat
  /-- the window limiter stretches; its last evaluation; nanoseconds stretched (R532) -/
  window   : Bool
  winAt    : Nat
  winNs    : Nat
  /-- FORCE_THROTTLE_N is low (R539) -/
  forced   : Bool
  /-- hottest junction of each die in 1/8 °C, and its sensor -/
  temps    : List (Nat × Int × Nat)
  /-- dies throttled, dies above the critical temperature, dies whose sensor agent does not answer (R529, R536) -/
  hot      : List Nat
  critical : List Nat
  silent   : List Nat
  /-- stacks and optical engines: temperature in 1/8 °C -/
  hbmTemp  : List (Nat × Int)
  storeTemp : List (Nat × Int)
  oeTemp   : List (Nat × Int)
  /-- HBM stacks whose refresh interval is halved (R356), and those whose die is throttled for them; Store stacks that hold programs -/
  refresh  : List Nat
  hbmHot   : List Nat
  storeHot : List Nat
  /-- issue rate of the DMA Stream Units and collective engine of a throttled hub die, in sixteenths below full -/
  hubCap   : List (Nat × Nat)
  /-- CORE frequency of each compute die in MHz -/
  freq     : List (Nat × Nat)
  /-- array-busy cycles of each die at the last governor step -/
  busy     : List (Nat × Nat)
  /-- power reservoir, in μJ; caps in effect and those that take effect at the next governor step, in W; governor target, in mW (R533) -/
  reservoir : Nat
  capS     : Nat
  capB     : Nat
  capNext  : Option (Nat × Nat)
  target   : Nat
  /-- LOUPE_POWER: mean input power of the last millisecond in mW, VIN in mV, input current in 0.1 A, VAUX power in mW -/
  meanMw   : Nat
  vinMv    : Nat
  amps     : Nat
  /-- input energy since the cold reset, in μJ -/
  energy   : Nat
  /-- thermal trip in progress: tick at which the regulators went off; a trip has been released and the COLD reset is due -/
  trip     : Option Nat
  tripped  : Bool
  /-- the logic dies are off after a power-loss flush -/
  lost     : Bool
  /-- THERMTRIP_N is asserted -/
  thermtrip : Bool
  /-- firmware slots A and B (R548) -/
  slots    : FwSlot × FwSlot
  /-- the running slot is on trial, since when -/
  trial    : Option Nat
  /-- a LOUPE_FW_STAGE in progress: context, handle, bundle -/
  staging  : Option (Nat × Nat × Bytes)
  /-- a COMMIT that burns fuses: context and handle -/
  burning  : Option (Nat × Nat)
  /-- the WARM reset that is due goes to the other slot: 0 no, 1 ACTIVATE, 2 REVERT -/
  swap     : Nat
  /-- re-plans: tick of the last completed one, when the next falls due, completed since manufacture, transactions that are
  still to be committed, tick at which a failed one is retried, and whether REPLAN_LATE has been reported -/
  planAt   : Nat
  planDue  : Nat
  plans    : Nat
  planTodo : List (List (Nat × Nat × Nat × Nat))
  planRetry : Nat
  planLate : Bool
  /-- tick of the last idle-window re-plan -/
  planIdle : Nat
  /-- tick of the last governor step at which a job was RUNNING or a serving model stepping (R544) -/
  busyAt   : Nat
  /-- settings that re-plans have committed: TYPE, INSTANCE, SETTING, value -/
  planned  : List (Nat × Nat × Nat × Nat)
  /-- margin ledger: KIND, INSTANCE, and the entry's 32 bytes (R545) -/
  ledger   : List (Nat × Nat × Bytes)
  /-- tick at which VAUX was last applied, from which AON_US counts -/
  aonStart : Nat
  /-- energy of the hold-up bank as measured at the last cold reset, mJ -/
  bank     : Nat
  /-- tick of the last governor step -/
  lastStep : Nat
deriving DecidableEq, Repr

/-- Loupe at reset (R555). [DESIGN CHOICE, log 10; PRESUMED, log 11] -/
def Loupe.init : Loupe :=
  { dip := none, ilDuty := 100, ilBelow := none, ilAt := 0, ilNs := 0, window := false, winAt := 0, winNs := 0, forced := false, temps := [], hot := []
    critical := [], silent := [], hbmTemp := [], storeTemp := [], oeTemp := [], refresh := [], hbmHot := [], storeHot := [], hubCap := []
    freq := [], busy := [], reservoir := 600000000, capS := 700, capB := 950, capNext := none, target := 950000, meanMw := 0, vinMv := 0
    amps := 0, energy := 0, trip := none, tripped := false, lost := false, thermtrip := false
    slots := ({ cond := 3, svn := 0, loupe := [], sci := [] }, { cond := 0, svn := 0, loupe := [], sci := [] }), trial := none
    staging := none, burning := none, swap := 0, planAt := 0, planDue := 0, plans := 0, planTodo := [], planRetry := 0
    planLate := false, planIdle := 0, busyAt := 0, planned := [], ledger := [], aonStart := 0, bank := 0, lastStep := 0 }

/-- The whole part. -/
structure State where
  /-- commands that wait, first in, first out: the model's own -/
  pending : List Instr
  /-- the timebase counter, in ticks (R17, R32) -/
  now     : Nat
  /-- count of free values used: the model's own -/
  free    : Nat
  /-- count of keys drawn: the model's own; a key is known by its number -/
  keys    : Nat
  sys     : Sys
  mbs     : List (Nat × Mailbox)
  ctxs    : List (Nat × Context)
  ops     : List PendingOp
  cfg     : Cfg
  rings   : List (Nat × Ring)
  cores   : List (Nat × Core)
  units   : List (Nat × UnitRegs)
  mem     : Mems
  log     : LogState
  /-- Prism rings by channel × 16 + ring number, and the channels -/
  prings  : List (Nat × PRing)
  chans   : List (Nat × Chan)
  jobs    : List (Nat × Job)
  step    : StepState
  upds    : List (Nat × Upd)
  sweeps  : List Sweep
  /-- Lens tasks in progress, by ring -/
  lens    : List (Nat × LensTask)
  images  : List (Nat × Image)
  groups  : List (Nat × Group)
  beam    : Beam
  mirror  : Mirror
  binds   : List (Nat × NetBind)
  nports  : List (Nat × NetPort)
  host    : HostPort
  sec     : Sec
  agents  : List (Nat × Agent)
  ctls    : List (Nat × Ctl)
  srv     : Serving
  loupe   : Loupe
deriving DecidableEq, Repr

/-- Why the part stops. No command of this part stops it: the type is empty of use but for a state that the model
could not represent. [DEDUCED, log 70] -/
inductive Fault where
  /-- never raised: the manual describes no command after which the part as a whole cannot go on. Safe. -/
  | halted
deriving DecidableEq, Repr

/-- Why a command has no meaning here. [DEDUCED, log 70] -/
inductive Refusal where
  /-- an arm of `exec` whose meaning is not written. Safe. -/
  | notModelled (mnemonic : String)
deriving DecidableEq, Repr

/-- A mailbox after reset (R69). -/
def Mailbox.init : Mailbox :=
  { st := 0, tag := 0, code := 0, done := false, overrun := false, aborted := false, irqEn := false, vector := 0
    assigned := false, ctx := 0, expect := 1, req := [], resp := [], waiting := none, late := none }

/-- An empty quota block. -/
def Quota.zero : Quota :=
  { hbmT := 0, hbmS := 0, slc := 0, rings := 0, mailboxes := 0, srvQueues := 0, srvEntries := 0, prefixes := 0
    agents := 0, prismShare := 0, hbmShare := 0, storeShare := 0, prioMax := 0 }

/-- A FREE context. -/
def Context.init : Context :=
  { st := 0, quota := Quota.zero, eventRing := none, held := [], lost := 0, nextOp := 1, txnCount := 0, windows := []
    hbmKey := 0, oldKey := 0, secret := none, confidential := false, requireIde := false, nonce := 0, epoch := 0 }

/-- A FREE ring register group (R352). -/
def Ring.init : Ring :=
  { st := 0, kind := 0, slotLog2 := 0, slots := 0, base := 0, space := 0, unitType := 0, unitInst := 0
    completion := 0, vector := 0, ctx := 0, head := 0, tail := 0, badWrite := false, stopCode := 0, stopIndex := 0
    arm := false, done := 0, held := [], fetched := [], cur := none, inTask := false, classes := 0, taskFail := false
    drainOp := none, slot := 0, fence := 0, fenceAt := 0, posted := 0 }

/-- A unit's registers after reset. [DESIGN CHOICE, log 10] -/
def UnitRegs.init : UnitRegs :=
  { sets := [], err := 0, errRing := 0, errIndex := 0, errReason := 0, cnt := []
    snap := { busy := false, pend := false, seq := 0, latched := [], shadow := [] }
    hold := false, resets := [], oos := false, rr := [], recent := [], last := 0 }

/-- A staging half after reset. -/
def Stage.init : Stage := { fillSeq := 0, freeSeq := 0, poison := false, sealing := false, bad := false, fresh := true }

/-- A core after reset. -/
def Core.init : Core :=
  { clearing := false, waiter := none, stage0 := Stage.init, stage1 := Stage.init, chain := none, drain := none
    vec := none, kd := none, taken := 0 }

/-- Supplies off and nothing published. [DESIGN CHOICE, log 10; PRESUMED, log 11] -/
def Sys.init : Sys :=
  { vaux := false, vin := false, perst := false, valid := false, stage := 0, gen := 0, sciMajor := 0, sciMinor := 0
    fatal := 0, fwStart := 0, resets := [], sysReset := none, booting := false, warm := false, linksDown := [], linkRetries := [], msixOn := false
    unmasked := [], pba := [], msgs := [], rc := [], rdata := 0, pod := 0, podDev := 0, joined := false, podSync := false, fused := [], pubOos := [], slot := 0, svn := 0, rollback := 0, debug := 0, ideLink := false, ideCxl := false, netOut := [], outbound := [], strapPod := 0, strapMgmt := 0 }

/-- Empty memories. [DESIGN CHOICE, log 9] -/
def Mems.init : Mems :=
  { hbm := [], sram := [], host := [], store := [], hbmPoison := [], sramPoison := [], sramUe := [], storePoison := []
    hostPoison := [], pages := [], allocs := [], failed := [] }

/-- A Prism ring that is not bound. -/
def PRing.init : PRing :=
  { bound := false, kind := 0, order := 0, tap := 0, tapFmt := 0, port := 0, core := 0, remote := 0, slots := 0, base := 0
    limit := 0, vocab := 0, mapAddr := 0, seqs := 0, maxLen := 0, job := 0, ctx := 0, st := 0, free := 0
    reserved := 0, pend := 0, since := 0, crd := 0, head := 0, tail := 0, written := [], blocks := [], part := [], kmax := 0
    taps := false, sealed := false, tmin := 0 }

/-- A channel at reset. -/
def Chan.init : Chan := { lists := [], flight := [], opens := [], route := 0, turns := Drr.init }

/-- No job. -/
def Job.init : Job :=
  { ctx := 0, st := 0, header := [], binds := [], started := false, stopOp := none, stopDelete := false, stopAt := 0
    fwd := false }

/-- Step state at reset (R324). -/
def StepState.init : StepState :=
  { step := 0, scaleExp := 0, clean := 0, consecVeto := 0, b1t := 0, b2t := 0, cause := 0, flags := 0, vetoDev := 65535
    vetoTensor := 0, norm := 0, clip := 0x3F800000, participants := 0, commitTick := 0, useExp := 0, opened := [], attempt := 0 }

/-- An Update Unit at reset. -/
def Upd.init : Upd :=
  { attempt := 0, lanes := [], lane := 0, shardsOk := true, scaleOk := true, localNf := false, reducedNf := false
    report := none, sent := false, window := false, applyCount := 0, applied := 0, commit := none, bucket := [] }

/-- No image. -/
def Image.init : Image :=
  { st := 0, owner := 0, base := 0, len := 0, sealed := false, done := [], key := 0, writes := [], op := none
    scrub := 0 }

/-- No group. -/
def Group.init : Group := { ctx := 0, key := 0, members := [], st := 0, enc := false, gdk := none, seq0 := 0, seq1 := 0, lost := 0 }

/-- The part before any supply is applied: every register at the value of its Reset column. -/
def State.reset : State :=
  { pending := [], now := 0, free := 0, keys := 0, sys := Sys.init, mbs := [], ctxs := [], ops := []
    cfg := { txns := [], queue := [], expired := [], lastId := 0, lastStatus := 0, lastCtx := 0, commits := 0 }
    rings := [], cores := [], units := [], mem := Mems.init
    log := { next := 0, aon := [], slc := [], notif := [], slots := [] }
    prings := [], chans := [], jobs := [], step := StepState.init, upds := [], sweeps := [], lens := [], images := [], groups := [], beam := Beam.init, mirror := Mirror.init, binds := []
    nports := [], host := HostPort.init, sec := Sec.init, agents := [], ctls := [], srv := Serving.init, loupe := Loupe.init }

end Sys2Proof.Machine
end

