-- ==== Sys2Proof/Machine/Ops.lean ====
section
/-! DEFINITION. Sys2Proof/Machine/Ops.lean: the named operations over registers, memories, rings, event rings, error
records, the log and interrupt messages, which every meaning uses. -/

namespace Sys2Proof.Machine
open Sys2Proof

/-! ### Accessors -/

/-- Mailbox `m`. -/
def State.mb (s : State) (m : Nat) : Mailbox := SMap.get Mailbox.init s.mbs m
def State.setMb (s : State) (m : Nat) (x : Mailbox) : State := { s with mbs := SMap.set Mailbox.init s.mbs m x }
/-- Context `c`. -/
def State.ctx (s : State) (c : Nat) : Context := SMap.get Context.init s.ctxs c
def State.setCtx (s : State) (c : Nat) (x : Context) : State := { s with ctxs := SMap.set Context.init s.ctxs c x }
/-- Ring `j`. -/
def State.ring (s : State) (j : Nat) : Ring := SMap.get Ring.init s.rings j
def State.setRing (s : State) (j : Nat) (x : Ring) : State := { s with rings := SMap.set Ring.init s.rings j x }
/-- Compute core `c`: 0–31 teacher, 32–47 student. -/
def State.core (s : State) (c : Nat) : Core := SMap.get Core.init s.cores c
def State.setCore (s : State) (c : Nat) (x : Core) : State := { s with cores := SMap.set Core.init s.cores c x }
def State.updCore (s : State) (c : Nat) (f : Core → Core) : State := s.setCore c (f (s.core c))
/-- Key of a unit instance in `units`. -/
def ukey (ty inst : Nat) : Nat := ty * 65536 + inst
/-- Common registers of a unit instance. -/
def State.unit (s : State) (ty inst : Nat) : UnitRegs := SMap.get UnitRegs.init s.units (ukey ty inst)
def State.setUnit (s : State) (ty inst : Nat) (x : UnitRegs) : State :=
  { s with units := SMap.set UnitRegs.init s.units (ukey ty inst) x }

/-- Apply a change to one context, ring or unit. -/
def State.updCtx (s : State) (c : Nat) (f : Context → Context) : State := s.setCtx c (f (s.ctx c))
def State.updRing (s : State) (j : Nat) (f : Ring → Ring) : State := s.setRing j (f (s.ring j))
def State.updUnit (s : State) (ty inst : Nat) (f : UnitRegs → UnitRegs) : State := s.setUnit ty inst (f (s.unit ty inst))

/-- SCI firmware runs: IDENT.SCI_MAJOR is not 0 (R46). [DEDUCED, log 6] -/
def State.running (s : State) : Bool := s.sys.sciMajor != 0
/-- The part is in the FATAL state (R578). [DEDUCED, log 6] -/
def State.isFatal (s : State) : Bool := s.sys.fatal != 0

/-- The next free value of the model, and the state that has used it up. [DESIGN CHOICE, log 8, 46] -/
def State.fresh (s : State) : Nat × State := (Config.freeNat s.free, { s with free := s.free + 1 })

/-- `n` bytes that the manual leaves undefined. -/
def freshBytes (n : Nat) (s : State) : Bytes × State :=
  ((List.range n).map fun i => Config.freeByte (s.free + i), { s with free := s.free + n })

/-- An instance is fused off (R60). -/
def State.fusedOff (s : State) (ty inst : Nat) : Bool := s.sys.fused.contains (ukey ty inst)

/-- An instance exists, is not fused off and is in service (R60, R570). -/
def State.enabled (s : State) (ty inst : Nat) : Bool :=
  decide (inst < Config.instances ty) && !s.fusedOff ty inst && !(s.unit ty inst).oos

/-! ### Counters and error registers -/

/-- Add to counter `n` of a unit; counters are 64 bits wide and saturate (R15, R158). -/
def bump (ty inst n k : Nat) (s : State) : State :=
  s.updUnit ty inst fun u => { u with cnt := SMap.upd 0 u.cnt n (fun v => satAdd 64 v k) }

/-- Counters of clock cycles, of map-cache misses and of refresh-management commands: each piece of work that they measure adds a number
that nothing in the manual fixes. [DESIGN CHOICE, log 46] -/
def spent (ty inst : Nat) : List Nat → State → State
  | [], s => s
  | n :: ns, s => spent ty inst ns (bump ty inst n s.fresh.1 s.fresh.2)

/-- The wait of a FENCE of ring `j` for a handle or a slot ends: its FABRIC cycles, two a tick, are counted; of the units only the Stream
Unit has a counter for them (R338, R351). [DESIGN CHOICE, log 46] -/
def handleWait (j : Nat) (s : State) : State :=
  let r := s.ring j
  if r.fence != 0 && r.unitType == Config.tStream then bump r.unitType r.unitInst 8 (2 * (s.now - r.fenceAt)) s else s

/-- Set error bit `bit` of a unit, recording ring, index and reason when the register was all zero. [DEDUCED, log 24] -/
def setErr (ty inst bit ring index reason : Nat) (s : State) : State :=
  s.updUnit ty inst fun u =>
    let u := if u.err = 0 then { u with errRing := ring, errIndex := index, errReason := reason } else u
    { u with err := Nat.lor u.err (2 ^ bit) }

/-! ### Deficit round robin (R289, R365) -/

/-- Rounds until a source of a weight may send a head of `size` bytes, with what it is owed. -/
def drrRounds (quantum weight size owed : Nat) : Nat := max 1 (cdiv (size - owed) (max 1 (quantum * weight)))

/-- Whose head goes next, among the sources that have data: (source, weight, bytes of its head). The source served last goes on while what it is owed
covers its head; then the sources are visited in turn, each visit adding its weight in quanta. Sources without data are owed nothing. -/
def Drr.pick (quantum : Nat) (srcs : List (Nat × Nat × Nat)) (d : Drr) : Option (Nat × Drr) :=
  let owed (x : Nat × Nat × Nat) : Nat := SMap.get 0 d.owed x.1
  let put (l : List (Nat × Nat)) : List (Nat × Nat) := l.foldl (fun m x => SMap.set 0 m x.1 x.2) []
  match srcs.find? fun x => x.1 == d.at_ && decide (x.2.2 ≤ owed x) with
  | some x => some (x.1, { at_ := x.1, owed := put (srcs.map fun y => (y.1, owed y - if y.1 = x.1 then x.2.2 else 0)) })
  | none =>
    let rounds (x : Nat × Nat × Nat) : Nat := drrRounds quantum x.2.1 x.2.2 (owed x)
    let far (x : Nat × Nat × Nat) : Nat := (x.1 + 4095 - d.at_) % 4096
    let before (x y : Nat × Nat × Nat) : Bool := decide (rounds x < rounds y ∨ rounds x = rounds y ∧ far x ≤ far y)
    match srcs.find? fun x => srcs.all fun y => before x y with
    | none => none
    | some x =>
      let visits (y : Nat × Nat × Nat) : Nat := rounds x - 1 + b2n (decide (far y ≤ far x))
      some (x.1, { at_ := x.1, owed := put (srcs.map fun y =>
        (y.1, owed y + visits y * (quantum * y.2.1) - if y.1 = x.1 then x.2.2 else 0)) })

/-- The value in effect of a setting that a commit has set, else `d`. -/
def State.setting (s : State) (ty inst n d : Nat) : Nat := (SMap.get none (s.unit ty inst).sets n).getD d

/-- An error of the Host Port (R488), with cause, context and line of the first. -/
def hpErr (bit ctx addr : Nat) (s : State) : State :=
  s.updUnit Config.tHost 0 fun u =>
    let u := if u.err = 0 then { u with errReason := bit, errRing := ctx, errIndex := addr / 64 % 2 ^ 48 } else u
    { u with err := Nat.lor u.err (2 ^ bit) }

/-! ### Memories -/

/-- The stack, and so HBM controller instance, that holds a device address (R353). -/
def stackOf (a : Nat) : Nat := a / Config.stackBytes

/-- The 64-byte lines that a run of bytes touches, first to last. -/
def linesOf (a n : Nat) : Nat × Nat := (a / 64, (a + n - 1) / 64)

/-- Some line of the run is poisoned, or lies in a failed stack (R355, R576). -/
def State.hbmBad (s : State) (a n : Nat) : Bool :=
  n != 0 && (s.mem.hbmPoison.any (fun l => decide (a / 64 ≤ l ∧ l ≤ (a + n - 1) / 64))
    || s.mem.failed.any (fun k => decide (k * Config.stackBytes < a + n ∧ a < (k + 1) * Config.stackBytes)))

/-- The run covers line `l` whole. -/
def coversLine (a n l : Nat) : Bool := decide (a ≤ 64 * l ∧ 64 * l + 64 ≤ a + n)

/-- Lines of a run that the host holds are back-invalidated (R484): a BISnp goes out for each, and the filter drops it. [DEDUCED, log 62] -/
def snoopOut (a n : Nat) (s : State) : State :=
  let hit := (s.host.snoop.filter (fun l => decide (a < 64 * l.1 + 64 ∧ 64 * l.1 < a + n))).map (·.1)
  if hit.isEmpty then s
  else bump Config.tHost 0 6 hit.length { s with host := { s.host with
    snoop := s.host.snoop.filter (fun l => !hit.contains l.1), bisnp := s.host.bisnp ++ hit, sent := s.host.sent ++ hit } }

/-- Write device memory (R355): a whole line clears its poison; part of a poisoned line leaves it and is counted. -/
def hbmPut (a : Nat) (bs : Bytes) (s : State) : State :=
  let n := bs.length
  let part := (s.mem.hbmPoison.filter (fun l => decide (a < 64 * l + 64 ∧ 64 * l < a + n) && !coversLine a n l)).length
  let s := { s with mem := { s.mem with
    hbm := Mem.write s.mem.hbm a bs
    hbmPoison := s.mem.hbmPoison.filter (fun l => !coversLine a n l) } }
  let s := bump Config.tHbm (stackOf a) 1 n s
  if part = 0 then s else bump Config.tHbm (stackOf a) 5 part s

/-- An engine writes device memory: lines that the host holds are back-invalidated. -/
def hbmWrite (a : Nat) (bs : Bytes) (s : State) : State := hbmPut a bs (snoopOut a bs.length s)

/-- Read device memory. [DESIGN CHOICE, log 9] -/
def State.hbmRead (s : State) (a n : Nat) : Bytes := Mem.read s.mem.hbm a n

/-- A request has read device memory (R360). -/
def hbmTaken (a n : Nat) (s : State) : State := if n = 0 then s else bump Config.tHbm (stackOf a) 0 n s

/-- Write host memory; a whole line clears a poison mark. -/
def hostWrite (a : Nat) (bs : Bytes) (s : State) : State :=
  { s with mem := { s.mem with
    host := Mem.write s.mem.host a bs
    hostPoison := s.mem.hostPoison.filter (fun l => !coversLine a bs.length l) } }

/-- Write or read an address space of rings and payloads: 0 device memory, 1 host memory. -/
def spaceWrite (space a : Nat) (bs : Bytes) (s : State) : State :=
  if space = 0 then hbmWrite a bs s else hostWrite a bs s
def State.spaceRead (s : State) (space a n : Nat) : Bytes :=
  if space = 0 then s.hbmRead a n else Mem.read s.mem.host a n
def State.spaceBad (s : State) (space a n : Nat) : Bool :=
  if space = 0 then s.hbmBad a n
  else n != 0 && s.mem.hostPoison.any (fun l => decide (a / 64 ≤ l ∧ l ≤ (a + n - 1) / 64))

/-- Address of byte `off` of a core's SRAM in `Mems.sram`; cores 0–31 teacher, 32–47 student. -/
def sramAt (core off : Nat) : Nat := core * Config.sramStride + off

/-- Some 8-byte word of the run carries a mark (R126). -/
def State.sramBad (s : State) (core off n : Nat) : Bool :=
  n != 0 && s.mem.sramPoison.any (fun w => decide (sramAt core off / 8 ≤ w ∧ w ≤ (sramAt core off + n - 1) / 8))

/-- Write core SRAM; a write of all 8 bytes of a marked word clears its mark (R126, R577). -/
def sramWrite (core off : Nat) (bs : Bytes) (s : State) : State :=
  let a := sramAt core off
  { s with mem := { s.mem with
    sram := Mem.write s.mem.sram a bs
    sramPoison := s.mem.sramPoison.filter (fun w => !decide (a ≤ 8 * w ∧ 8 * w + 8 ≤ a + bs.length))
    sramUe := s.mem.sramUe.filter (fun w => !decide (a ≤ 8 * w ∧ 8 * w + 8 ≤ a + bs.length)) } }
/-- Several runs of one instruction are written in order; a marked word whose 8 bytes they cover between them loses its mark. -/
def sramStore (core : Nat) (cells : List (Nat × Bytes)) (s : State) : State :=
  let s := cells.foldl (fun a c => sramWrite core c.1 c.2 a) s
  let hit (b : Nat) : Bool := cells.any fun c => decide (sramAt core c.1 ≤ b ∧ b < sramAt core c.1 + c.2.length)
  { s with mem := { s.mem with
    sramPoison := s.mem.sramPoison.filter fun w => !(List.range 8).all fun i => hit (8 * w + i)
    sramUe := s.mem.sramUe.filter fun w => !(List.range 8).all fun i => hit (8 * w + i) } }
def State.sramRead (s : State) (core off n : Nat) : Bytes := Mem.read s.mem.sram (sramAt core off) n
/-- Writes to core SRAM that may or may not land (R154, R177): which do is free. [DESIGN CHOICE, log 8] -/
def mayLand (core : Nat) : List (Nat × Bytes) → State → State
  | [], s => s
  | w :: ws, s => mayLand core ws (if s.fresh.1 % 2 = 0 then s.fresh.2 else sramWrite core w.1 w.2 s.fresh.2)
/-- Mark the words of a run of core SRAM. -/
def sramMark (core off n : Nat) (s : State) : State :=
  { s with mem := { s.mem with
    sramPoison := (List.range ((off + n - 1) / 8 + 1 - off / 8)).foldl
      (fun l i => NSet.ins (sramAt core 0 / 8 + off / 8 + i) l) s.mem.sramPoison } }
/-- An uncorrectable error marks one word of core SRAM (R126). -/
def sramUpset (core off : Nat) (s : State) : State :=
  let s := sramMark core off 1 s
  { s with mem := { s.mem with sramUe := NSet.ins (sramAt core off / 8) s.mem.sramUe } }
/-- The first marked word of a run that holds one was marked by an uncorrectable error rather than by poison. -/
def State.sramUeAt (s : State) (core off n : Nat) : Bool :=
  match s.mem.sramPoison.find? fun w => decide (sramAt core off / 8 ≤ w ∧ w ≤ (sramAt core off + n - 1) / 8) with
  | some w => s.mem.sramUe.contains w
  | none => false
/-- Clear a core's SRAM and its marks (R143). -/
def sramClear (core : Nat) (s : State) : State :=
  { s with mem := { s.mem with
    sram := Mem.clear s.mem.sram (sramAt core 0) Config.sramStride
    sramPoison := s.mem.sramPoison.filter (fun w => !decide (sramAt core 0 ≤ 8 * w ∧ 8 * w < sramAt (core + 1) 0))
    sramUe := s.mem.sramUe.filter (fun w => !decide (sramAt core 0 ≤ 8 * w ∧ 8 * w < sramAt (core + 1) 0)) } }

/-- Owner of a device address: `none` for a free page. -/
def State.owner (s : State) (a : Nat) : Option Nat :=
  match SMap.get 0 s.mem.pages (a / Config.pageBytes) with
  | 0 => none
  | c + 1 => some c

/-- Every page of a run belongs to a context (R327). -/
def State.owns (s : State) (c a n : Nat) : Bool :=
  decide (0 < n) && decide (a + n ≤ Config.hbmBytes) &&
  (List.range ((a + n - 1) / Config.pageBytes + 1 - a / Config.pageBytes)).all
    (fun i => SMap.get 0 s.mem.pages (a / Config.pageBytes + i) == c + 1)

/-- A run lies wholly inside one host window of a context. -/
def State.inWindow (s : State) (c a n : Nat) : Bool :=
  decide (0 < n) && (s.ctx c).windows.any (fun w => decide (w.base ≤ a ∧ a + n ≤ w.base + w.len))

/-- The address check of a run in device memory (space 0) or host memory (space 1). -/
def State.reach (s : State) (c space a n : Nat) : Bool :=
  if space = 0 then s.owns c a n else s.inWindow c a n

/-! ### MSI-X messages (R482) -/

/-- Send the message of a vector: masked vectors keep it in the PBA. 0xFFFF stands for no vector. -/
def sendMsix (v : Nat) (s : State) : State :=
  if v ≥ 2048 || !s.sys.msixOn then s
  else if s.sys.unmasked.contains v then bump Config.tHost 0 9 1 { s with sys := { s.sys with msgs := s.sys.msgs ++ [v] } }
  else { s with sys := { s.sys with pba := NSet.ins v s.sys.pba } }

/-! ### Rings (R330–R335) -/

/-- Filled slots of a ring. -/
def Ring.filled (r : Ring) : Nat := (r.tail + 2 * r.slots - r.head) % (2 * r.slots)
def Ring.full (r : Ring) : Bool := r.filled == r.slots
/-- Address of the slot that index `x` names. -/
def Ring.slotAddr (r : Ring) (x : Nat) : Nat := r.base + (x % r.slots) * 2 ^ r.slotLog2
/-- The next index. -/
def Ring.nextIx (r : Ring) (x : Nat) : Nat := (x + 1) % (2 * r.slots)
/-- RING_HELD (R352). -/
def Ring.heldCount (r : Ring) : Nat := min r.held.length 31

/-- Write a record at TAIL of a producer ring and advance TAIL; an armed ring sends its message (R334, R335). A handle ring to which software
posts too holds undefined bytes (R340). [DEDUCED, log 44; DESIGN CHOICE, log 8] -/
def ringPut (j : Nat) (rec : Bytes) (s : State) : State :=
  let r := s.ring j
  let (rec, s) := if r.kind = 1 && bitOf r.posted 1 then freshBytes rec.length s else (rec, s)
  let s := spaceWrite r.space (r.slotAddr r.tail) rec s
  let s := s.setRing j { r with tail := r.nextIx r.tail, arm := r.arm && r.vector == 0xFFFF
                                done := if r.kind = 1 then r.done else (r.done + 1) % 2 ^ 32
                                posted := if r.kind = 1 then Nat.lor r.posted 1 else r.posted }
  if r.arm then sendMsix r.vector s else s

/-- Records that producer `p` holds for ring `j`. -/
def State.heldBy (s : State) (j p : Nat) : Nat := ((s.ring j).held.filter (fun h => h.producer == p)).length

/-- Produce a record into a kind 3 or 4 ring: it is held when the ring is full (R334). The message of vector `v` follows once it is written
(R335). -/
def produce (j producer : Nat) (rec : Bytes) (v : Nat) (s : State) : State :=
  let r := s.ring j
  if r.full || !r.held.isEmpty then s.setRing j { r with held := r.held ++ [⟨producer, rec, v⟩] }
  else sendMsix v (ringPut j rec s)

/-- Write held records of a ring while it has room. -/
def drainHeld (j : Nat) : Nat → State → State
  | 0, s => s
  | n + 1, s =>
    let r := s.ring j
    match r.held with
    | h :: t => if r.full then s else drainHeld j n (sendMsix h.vector (ringPut j h.bytes (s.setRing j { r with held := t })))
    | [] => s

/-! ### Event rings (R79) -/

/-- The 64 bytes of an event record. -/
def eventRecord (opcode status tag source lost handle tick : Nat) (result : Bytes) (seq : Nat) : Bytes :=
  leBytes 2 opcode ++ leBytes 2 status ++ leBytes 2 tag ++ leBytes 1 source ++ leBytes 1 lost ++ leBytes 8 handle
    ++ leBytes 8 tick ++ fitTo 32 result ++ leBytes 8 seq

/-- A record with its LOST byte filled in. -/
def withLost (rec : Bytes) (n : Nat) : Bytes := splice rec 7 (leBytes 1 (min n 255))

/-- Deliver a record to a context: into its event ring, else held, else dropped and counted. -/
def deliverEvent (c : Nat) (rec : Bytes) (s : State) : State :=
  let x := s.ctx c
  match x.eventRing with
  | some j =>
    if !(s.ring j).full && x.held.isEmpty then ringPut j (withLost rec x.lost) (s.setCtx c { x with lost := 0 })
    else if x.held.length < Config.heldEvents then s.setCtx c { x with held := x.held ++ [rec] }
    else s.setCtx c { x with lost := x.lost + 1 }
  | none =>
    if x.held.length < Config.heldEvents then s.setCtx c { x with held := x.held ++ [rec] }
    else s.setCtx c { x with lost := x.lost + 1 }

/-- Write held event records of a context while its ring has room. -/
def drainEvents (c : Nat) : Nat → State → State
  | 0, s => s
  | n + 1, s =>
    let x := s.ctx c
    match x.eventRing, x.held with
    | some j, h :: t =>
      if (s.ring j).full then s
      else drainEvents c n (ringPut j (withLost h x.lost) (s.setCtx c { x with held := t, lost := 0 }))
    | _, _ => s

/-! ### Log, notifications and error records (R546, R547, R575) -/

/-- A unit notification (SOURCE 2) to a context; at most one per KIND per 100 ms, others counted as lost (R547). -/
def notify (c kind seq : Nat) (s : State) : State :=
  match s.log.notif.find? (fun n => n.1 == c && n.2.1 == kind && decide (s.now < n.2.2 + 100 * Config.ms)) with
  | some _ => s.updCtx c fun x => { x with lost := x.lost + 1 }
  | none =>
    let s := { s with log := { s.log with
      notif := (c, kind, s.now) :: s.log.notif.filter (fun n => !(n.1 == c && n.2.1 == kind)) } }
    deliverEvent c (eventRecord 0xFFFF 0 0 2 0 0 s.now (leBytes 2 kind ++ leBytes 4 seq) 0) s

/-- The logic dies are powered and the part has booted as far as its STAGE 1 table. -/
def State.diesOn (s : State) : Bool := s.sys.vaux && s.sys.vin && s.sys.valid

/-- Enter an event in the Loupe log (R546); SEVERITY 1 and above, every dip and every change of a port is notified to context 0 (R426, R547). The manual
gives no SEVERITY to a KIND. [DESIGN CHOICE, log 40] -/
def logPush (kind die : Nat) (data : Bytes) (s : State) : State :=
  let sev := Config.severity kind % 4
  let e : LogEntry := { seq := s.log.next, tick := if s.diesOn then s.now else 0, aonUs := (s.now - s.loupe.aonStart) / Config.us, kind, sev
                        die, data := fitTo 32 data }
  let aon := s.log.aon ++ [e]
  let s := { s with log := { s.log with
    next := s.log.next + 1
    aon := aon.drop (aon.length - 4096) } }
  if sev ≥ 1 || kind = 1 || kind = 0x70 then notify 0 kind e.seq s else s

/-- What an error record reports (R575). [DESIGN CHOICE, log 25] -/
structure Err where
  code   : Nat
  status : Nat
  flags  : Nat
  ty     : Nat
  inst   : Nat
  ctx    : Nat
  ring   : Nat
  index  : Nat
  addr   : Nat
  space  : Nat
deriving DecidableEq, Repr

/-- CLASS of an error code (R576). [DESIGN CHOICE, log 25] -/
def errClass (code : Nat) : Nat :=
  match code with
  | 0x1 => 2 | 0x2 => 1 | 0x3 => 2 | 0x4 => 1 | 0x5 => 4 | 0x6 => 4 | 0x7 => 4 | 0x8 => 4 | 0x9 => 4
  | 0xA => 3 | 0xB => 3 | 0xC => 3 | 0xD => 2 | 0xE => 3 | 0x14 => 0 | _ => 5

/-- RESULT of an error record that stands for `count` occurrences. -/
def Err.result (e : Err) (count logSeq : Nat) : Bytes :=
  leBytes 1 (errClass e.code) ++ leBytes 1 e.flags ++ leBytes 2 e.code ++ leBytes 2 e.ty ++ leBytes 2 e.inst
    ++ leBytes 1 (if e.ty = 0 then 255 else Config.dieOf e.ty e.inst) ++ leBytes 1 e.ctx ++ leBytes 2 e.ring
    ++ leBytes 4 e.index ++ leBytes 8 e.addr ++ leBytes 1 e.space ++ [0] ++ leBytes 2 count ++ leBytes 4 logSeq

/-- Deliver an error record to one context, or merge it into the interval that is open there (R575). [DESIGN CHOICE, log 25] -/
def errTo (c : Nat) (e : Err) (logSeq : Nat) (s : State) : State :=
  let key := ukey e.ty e.inst
  if s.log.slots.any (fun x => x.ctx == c && x.code == e.code && x.unit == key) then
    { s with log := { s.log with slots := s.log.slots.map fun x =>
        if x.ctx == c && x.code == e.code && x.unit == key then
          { x with count := min (x.count + 1) 65535
                   bytes := eventRecord 0xFFFF e.status 0 1 0 0 s.now (e.result (min (x.count + 1) 65535) logSeq) 0 }
        else x } }
  else
    let s := { s with log := { s.log with slots := s.log.slots ++
      [{ ctx := c, code := e.code, unit := key, count := 0, bytes := [] }] } }
    deliverEvent c (eventRecord 0xFFFF e.status 0 1 0 0 s.now (e.result 1 logSeq) 0) s

/-- A poisoned line of device memory has been read: HBM_ERR.POISON_RD and its counter (R355, R359, R360). -/
def poisonRead (addr : Nat) (s : State) : State :=
  bump Config.tHbm (stackOf addr) 4 1 (s.updUnit Config.tHbm (stackOf addr) fun u => { u with err := Nat.lor u.err 2 })

/-- Report an error: log entry, record to context 0 and to the context concerned (R575). Who meets poison in device memory has read it.
[DESIGN CHOICE, log 25] -/
def raise (e : Err) (s : State) : State :=
  let s := if e.code = 3 && e.space = 1 then poisonRead e.addr s else s
  let seq := s.log.next
  let s := logPush 0x60 (if e.ty = 0 then 255 else Config.dieOf e.ty e.inst) (e.result 1 seq) s
  let s := errTo 0 e seq s
  if e.ctx = 0 || e.ctx ≥ 64 then s else errTo e.ctx e seq s

/-- An error of class UNIT: its record goes to context 0 and to every context affected (R574). -/
def raiseUnit (e : Err) (cs : List Nat) (s : State) : State :=
  let seq := s.log.next
  ((cs.filter fun c => c != 0).eraseDups).foldl (fun s c => errTo c e seq s) (raise e s)

/-- The final event record of a command (R79): DETAIL follows the results that the command's rule names. -/
def opResult (status detail : Nat) (result : Bytes) : Bytes :=
  if status = 0 then result
  else result ++ zeros ((4 - result.length % 4) % 4) ++ leBytes 4 detail

/-- A PENDING command finishes: its final record is delivered and the command is forgotten (R78). The records of
CTX_DESTROY and CTX_RESET go to context 0. The mailbox, free since the PENDING answer, shows nothing of it. [DEDUCED, log 17; DESIGN CHOICE, log 78] -/
def finishOp (c handle status detail : Nat) (result : Bytes) (s : State) : State :=
  match s.ops.find? (fun o => o.ctx == c && o.handle == handle) with
  | none => s
  | some o =>
    let s := { s with ops := s.ops.filter (fun o => !(o.ctx == c && o.handle == handle)) }
    let dst := if o.opcode = 0x0201 || o.opcode = 0x0206 then 0 else c
    deliverEvent dst (eventRecord o.opcode status o.tag 0 0 handle s.now (opResult status detail result) o.seq) s

/-- Advance the timebase to at least `t`: a timer's event happens when it is due. [DESIGN CHOICE, log 7, 71] -/
def atLeast (t : Nat) (s : State) : State := { s with now := max s.now t }

end Sys2Proof.Machine
end

