-- ==== Sys2Proof/Machine/Wire.lean ====
section
/-! DEFINITION. Sys2Proof/Machine/Wire.lean: flits, their way through a port, routes, and messages (R428, R429, R433, R435). -/

namespace Sys2Proof.Machine
open Sys2Proof

def State.port (s : State) (p : Nat) : Port := SMap.get Port.init s.beam.ports p
def State.setPort (s : State) (p : Nat) (x : Port) : State := { s with beam := { s.beam with ports := SMap.set Port.init s.beam.ports p x } }
def State.updPort (s : State) (p : Nat) (f : Port → Port) : State := s.setPort p (f (s.port p))

/-! ### CRC-32C (R428) -/

/-- One bit of the reflected Castagnoli polynomial. -/
def crcBit (c : Nat) : Nat := if c % 2 = 1 then Nat.xor (c / 2) 0x82F63B78 else c / 2
/-- The CRC register after one byte. -/
def crcByte (c : Nat) (b : Byte) : Nat := (List.range 8).foldl (fun a _ => crcBit a) (Nat.xor c b.toNat)
/-- CRC-32C of a run of bytes. -/
def crc32c (bs : Bytes) : Nat := Nat.xor (bs.foldl crcByte 0xFFFFFFFF) 0xFFFFFFFF

/-! ### Flits (R428) -/

def flitKind (f : Bytes) : Nat := field f 0 1
def flitClass (f : Bytes) : Nat := bits (field f 1 1) 0 4
def flitHop (f : Bytes) : Nat := bits (field f 1 1) 4 4
def flitDest (f : Bytes) : Nat := field f 8 2
def flitSrc (f : Bytes) : Nat := field f 10 2
def flitStream (f : Bytes) : Nat := field f 14 2
/-- SOP and EOP: the flit begins and ends a message. -/
def flitSop (f : Bytes) : Bool := bitOf (field f 12 1) 0
def flitEop (f : Bytes) : Bool := bitOf (field f 12 1) 1
/-- Buffer that the flit takes at the next device: class × 16 + HOP (R433). -/
def flitBuf (f : Bytes) : Nat := flitClass f * 16 + flitHop f
/-- The message that the flit belongs to: class, source, destination and STREAM in one number (R428, R435). -/
def flitFlow (f : Bytes) : Nat := ((flitClass f * 1024 + flitSrc f % 1024) * 1024 + flitDest f % 1024) * 65536 + flitStream f
/-- First STREAM of a Mirror striped transfer; other COLL messages stay below. [DESIGN CHOICE, log 89] -/
def mirrorStream : Nat := 32768
/-- A flit of a Mirror striped transfer (R435). -/
def flitStriped (f : Bytes) : Bool := flitClass f == 4 && decide (mirrorStream ≤ flitStream f)
/-- The flit's CRC is right. -/
def flitOk (f : Bytes) : Bool := f.length == 256 && field f 252 4 == crc32c (f.take 252)
/-- The first 252 bytes get their CRC. -/
def flitSeal (f : Bytes) : Bytes := f.take 252 ++ leBytes 4 (crc32c (f.take 252))
/-- Sequence, acknowledgement and credit fields are filled in. -/
def flitFill (f : Bytes) (seq ack cls n : Nat) : Bytes :=
  flitSeal (splice f 2 (leBytes 2 seq ++ leBytes 2 ack ++ leBytes 1 cls ++ leBytes 1 n))

/-- Buffers to give back with the next flit: class and HOP as CREDIT_CLASS has them, and their number. -/
def Port.giveBack (x : Port) : Nat × Nat :=
  match x.owed with | (k, n) :: _ => ((k / 16) + 16 * (k % 16), min n 255) | [] => (0, 0)
/-- The credits of the next flit have left. -/
def Port.gave (x : Port) : Port :=
  match x.owed with
  | (k, n) :: l => { x with owed := if n ≤ 255 then l else (k, n - 255) :: l }
  | [] => x

/-- Put a flit on the wire. [DEDUCED, log 60] -/
def portEmit (p : Nat) (f : Bytes) (s : State) : State :=
  bump Config.tPort p 0 1 (s.updPort p fun x => { x with wire := x.wire ++ [f], lastTx := s.now })

/-- A NULL flit with the current ACK (R429). -/
def sendNull (p : Nat) (s : State) : State :=
  let x := s.port p
  let (k, n) := x.giveBack
  portEmit p (flitFill (zeros 252) 0 x.rxExpect k n) (s.setPort p { x.gave with ackSent := x.rxExpect })

/-- Send a numbered flit: it is kept until it is acknowledged. -/
def sendNumbered (p : Nat) (f : Bytes) (s : State) : State :=
  let x := s.port p
  let (k, n) := x.giveBack
  let g := flitFill f x.txNext x.rxExpect k n
  let s := s.setPort p { x.gave with
    ackSent := x.rxExpect
    txNext := (x.txNext + 1) % 65536, unacked := x.unacked ++ [g], oldest := if x.unacked.isEmpty then s.now else x.oldest }
  bump Config.tPort p 2 (if flitKind f = 1 then field f 13 1 + 1 else 0) (portEmit p g s)

/-- Flits of the replay buffer (R429). -/
def replayFlits : Nat := 8192

/-- The waiting flits that stand first for their class and HOP, in the order in which they came. -/
def Port.heads (x : Port) : List (Nat × Bytes) :=
  x.wait.foldl (fun l w => if l.any fun v => flitBuf v.2 == flitBuf w.2 then l else l ++ [w]) []
/-- A credit for the flit's buffer is there. -/
def Port.hasCredit (x : Port) (f : Bytes) : Bool := SMap.get 0 x.credits (flitBuf f) != 0

/-- The flit that goes next, and the turns after it (R433): MGMT and SYNC first, then the other classes by weighted round robin; a class
without credit holds up no other. [DEDUCED, log 60] -/
def Port.next (x : Port) : Option ((Nat × Bytes) × Drr) :=
  let go := x.heads.filter fun w => x.hasCredit w.2
  match go.find? fun w => decide (flitClass w.2 ≤ 1) with
  | some w => some (w, x.turns)
  | none =>
    match Drr.pick 1 ((go.map fun w => flitClass w.2).eraseDups.map fun c => (c, Config.classWeight c + 1, 1)) x.turns with
    | some (c, d) => (go.find? fun w => flitClass w.2 == c).map fun w => (w, d)
    | none => none

/-- The port may send a numbered flit of its own: ACTIVE, not held for a commit, with room to keep it (R94, R429). -/
def State.mayNumber (s : State) (p : Nat) : Bool :=
  (s.port p).st == 3 && !(s.unit Config.tPort p).hold && decide ((s.port p).unacked.length < replayFlits)

/-- Send waiting flits while the port may and a flit has its credit (R429, R433). -/
def portPump (p : Nat) : Nat → State → State
  | 0, s => s
  | n + 1, s =>
    let x := s.port p
    if !s.mayNumber p then s
    else match x.next with
      | none => s
      | some ((inp, f), turns) =>
        let s := s.setPort p { x with wait := x.wait.erase (inp, f), turns, credits := SMap.upd 0 x.credits (flitBuf f) (· - 1) }
        let s := sendNumbered p f s
        -- the buffer that a forwarded flit held at its own receiver is free
        let s := if inp = 0 then s else s.updPort (inp - 1) fun y => { y with
          owed := SMap.upd 0 y.owed (flitBuf f - 1) (· + 1) }
        portPump p n s

/-- What may go goes; a ready flit that still waits for credit is counted by the flit times of its wait (R450). [DESIGN CHOICE, log 46] -/
def portGo (p : Nat) (s : State) : State :=
  let s := portPump p ((s.port p).wait.length + 1) s
  if s.mayNumber p && !(s.port p).wait.isEmpty then spent Config.tPort p [11] s else s

/-! ### Routing of a flit (R435, R437) -/

/-- Ports of a mask, ascending. -/
def maskPorts (m : Nat) : List Nat := (List.range 40).filter fun i => bitOf m i
/-- A commit that disables the port has begun: it is out of the routes before it holds (R448). -/
def State.leaving (s : State) (p : Nat) : Bool :=
  s.cfg.txns.any fun t => t.st == 2 && s.cfg.queue.head? == some t.ctx
    && t.items.any fun i => i.ty == Config.tPort && i.inst == p && i.setting == 1 && i.value == 0
/-- The ports of a mask that may appear in routes: those that are ACTIVE (R426). -/
def State.liveMask (s : State) (m : Nat) : Nat :=
  (maskPorts m).foldl (fun a i => if (s.port i).st = 3 && !s.leaving i then a + 2 ^ i else a) 0
/-- Port mask and hops to a pod device index; a destination more than four hops away is unreachable (R435, R437). -/
def State.routeTo (s : State) (dev : Nat) : Option (Nat × Nat) :=
  (s.beam.routes.find? fun r => r.1 == dev && decide (r.2.2 ≤ 4)).map fun r => (s.liveMask r.2.1, r.2.2)
/-- This device is timebase master: no reachable device has a lower index (R439). -/
def State.podMaster (s : State) : Bool := s.sys.joined && (List.range s.sys.podDev).all fun d => (s.routeTo d).isNone
/-- The device is synchronised: it has joined its pod, and is the master or within 64 ticks of it (R439). -/
def State.synced (s : State) : Bool := s.sys.joined && (s.podMaster || s.sys.podSync)
/-- Depth in the synchronisation tree: hops to the master (R439). -/
def State.syncDepth (s : State) : Nat := (((List.range s.sys.podDev).findSome? fun d => s.routeTo d).map (·.2)).getD 0

/-- The port on which a flit leaves for its destination (R435): of REQ and RSP under hash spreading, and of Mirror's striped transfers, by
number within the mask; else the lowest. -/
def State.pickPort (s : State) (f : Bytes) : Option Nat :=
  match (if flitDest f / 64 = s.sys.pod then s.routeTo (flitDest f % 64) else none) with
  | none => none
  | some (m, _) =>
    let ps := maskPorts m
    let c := flitClass f
    if flitStriped f then ps[flitStream f % min ps.length (s.setting Config.tMirror 0 1 4)]?
    else if s.setting Config.tEngine 0 1 0 = 1 && (c = 2 || c = 3) then
      ps[(flitSrc f * 31 + flitDest f * 17 + flitStream f) % ps.length]?
    else ps.head?

/-- A flit inside a message follows the port of its first flit while that port carries flits: a route change takes effect between messages
(R436). -/
def State.portFor (s : State) (f : Bytes) : Option Nat :=
  let k := SMap.get 0 s.beam.flows (flitFlow f)
  if !flitSop f && k ≠ 0 && ((s.port (k - 1)).st = 3 || (s.port (k - 1)).st = 4) then some (k - 1) else s.pickPort f

/-- Queue a flit toward its destination; without a route, or behind a held flit of its class and destination, it is held for the next table
(R436). [DEDUCED, log 60] -/
def sendToward (inp : Nat) (f : Bytes) (s : State) : State :=
  let held : State := { s with beam := { s.beam with held := s.beam.held ++ [(inp, f)] } }
  if s.beam.held.any fun h => flitClass h.2 == flitClass f && flitDest h.2 == flitDest f then held
  else match s.portFor f with
    | some p =>
      let s := { s with beam := { s.beam with flows := SMap.set 0 s.beam.flows (flitFlow f) (if flitEop f then 0 else p + 1) } }
      portGo p (s.updPort p fun x => { x with wait := x.wait ++ [(inp, f)] })
    | none => held

/-! ### Messages (R428) -/

/-- What a MGMT message asks of a member, in its header word: a member leaves, the device resets, a group resets, a spare is designated, a
takeover begins, a spare has taken a rank (R446, R454, R468, R567). The manual gives these messages no bytes. [DESIGN CHOICE, log 89] -/
def mgLeave : Nat := 1
def mgReset : Nat := 2
def mgGroup : Nat := 3
def mgSpare : Nat := 4
def mgTake : Nat := 5
def mgRank : Nat := 6

/-- This device's system index: pod × 64 + pod device index (R309). -/
def State.sysIndex (s : State) : Nat := s.sys.pod * 64 + s.sys.podDev

/-- A message's bytes: its header, eight bytes for each flit pooled at its start, and its data. The manual gives the header no layout; here it
begins with one word, `a`. [DESIGN CHOICE, log 89] -/
def msgBytes (a : Nat) (bs : Bytes) : Bytes := leBytes 8 a ++ zeros (8 * (cdiv bs.length 224 - 1)) ++ bs
/-- Header word and data of a message. -/
def msgWord (m : Bytes) : Nat := field m 0 8
def msgData (m : Bytes) : Bytes := m.drop (8 * cdiv m.length 232)

/-- The flits of a message to a system index, but for the fields that the port fills in. -/
def msgFlits (dst src cls stream : Nat) (enc : Bool) (m : Bytes) : List Bytes :=
  let n := cdiv m.length 232
  (List.range n).map fun i =>
    let part := (m.drop (232 * i)).take 232
    fitTo 252 (leBytes 1 1 ++ leBytes 1 cls ++ zeros 6 ++ leBytes 2 dst ++ leBytes 2 src
      ++ leBytes 1 (b2n (i == 0) + 2 * b2n (i + 1 == n) + 4 * b2n enc) ++ leBytes 1 (part.length - 1) ++ leBytes 2 stream ++ part)

/-- A message leaves for a system index: over the beam ports inside the pod; one for another pod is left to the Network Ports (R438). -/
def sendMsg (dst cls stream : Nat) (enc : Bool) (m : Bytes) (s : State) : State :=
  if dst / 64 = s.sys.pod then (msgFlits dst s.sysIndex cls stream enc m).foldl (fun s f => sendToward 0 f s) s
  else { s with sys := { s.sys with outbound := s.sys.outbound ++ [(dst, cls, m)] } }

/-- Data bytes of the longest message: with its header it stays within 64 KiB. -/
def msgMax : Nat := 63232

end Sys2Proof.Machine
end

