-- ==== Sys2Proof/Machine/Access.lean ====
section
/-! DEFINITION. Sys2Proof/Machine/Access.lean: who owns a core, what a context may reach, and how rings come to be
(R85, R143, R183, R201, R212, R326, R327, R593). -/

namespace Sys2Proof.Machine
open Sys2Proof

/-- The core that a unit serves: itself, or the core beside a Scaler or core Stream Unit (R212, R326). Cores 0–31 are
teacher cores, 32–47 student cores. -/
def unitCore (ty inst : Nat) : Option Nat :=
  if ty = Config.tTeacher then some inst
  else if ty = Config.tStudent then some (32 + inst)
  else if (ty = Config.tScaler || ty = Config.tStream) && inst < 48 then some inst
  else none

/-- Facet TYPE and INSTANCE of a core. -/
def coreUnit (core : Nat) : Nat × Nat :=
  if core < 32 then (Config.tTeacher, core) else (Config.tStudent, core - 32)

/-- Rings of kind 0 that a unit consumes from. -/
def State.unitRings (s : State) (ty inst : Nat) : List (Nat × Ring) :=
  s.rings.filter fun r => r.2.kind == 0 && r.2.unitType == ty && r.2.unitInst == inst && r.2.st != 0

/-- Rings of every kind that name a unit. -/
def State.namedBy (s : State) (ty inst : Nat) : List (Nat × Ring) :=
  s.rings.filter fun r => r.2.st != 0 && r.2.unitType == ty && r.2.unitInst == inst

/-- Rings of every kind that name a core, its Scaler or its Stream Unit (R593). -/
def State.coreRings (s : State) (core : Nat) : List (Nat × Ring) :=
  s.rings.filter fun r => r.2.st != 0 && unitCore r.2.unitType r.2.unitInst == some core

/-- TE_CONTEXT or SE_CONTEXT: the context that owns a core, if any (R143, R201). -/
def State.coreOwner (s : State) (core : Nat) : Option Nat :=
  match s.coreRings core with
  | (_, r) :: _ => some r.ctx
  | [] => none

/-- The student's side of a Prism ring, and the teacher's, are on this device (R271, R288). -/
def PRing.sHere (p : PRing) (s : State) : Bool := p.remote == 0xFFFF || p.remote == s.sys.podDev
def PRing.tHere (p : PRing) (s : State) : Bool := p.remote == 0xFFFF || p.remote != s.sys.podDev

/-- Bytes that a slot of a Prism ring takes (R267, R272). -/
def PRing.slotBytes (p : PRing) : Nat :=
  if p.kind = 0 then 64 * cdiv (32 + 8 * p.limit) 64
  else if p.kind = 1 then 64 * cdiv (32 + p.limit * (if p.tapFmt = 0 then 4 else 2)) 64
  else 1088

/-- A run of a student core's SRAM overlaps a reserved target-ring range (R183). -/
def State.tgtOverlap (s : State) (core off n : Nat) : Bool :=
  s.prings.any fun p => p.2.bound && p.2.kind < 2 && p.2.sHere s && 32 + p.2.core == core
    && decide (off < p.2.base + p.2.slots * p.2.slotBytes ∧ p.2.base < off + n)

/-- Bytes of a core's SRAM (R7). -/
def sramBytes (core : Nat) : Nat := if core < 32 then Config.teacherSram else Config.studentSram
/-- First byte of activation SRAM and bytes of a staging half of a teacher core (R126). -/
def actBase : Nat := 0xC00000
def halfBytes : Nat := 0x600000

/-- A run lies in the SRAM that a core's engines, Stream Units and drains may write (R126, R183). -/
def State.sramWritable (s : State) (core off n : Nat) : Bool :=
  if core < 32 then decide (actBase ≤ off ∧ off + n ≤ Config.teacherSram)
  else decide (off + n ≤ Config.studentSram) && !s.tgtOverlap core off n
/-- A run lies in the SRAM that a core's operands may be read from. -/
def sramReadable (core off n : Nat) : Bool :=
  if core < 32 then decide (actBase ≤ off ∧ off + n ≤ Config.teacherSram) else decide (off + n ≤ Config.studentSram)
/-- A run lies in one staging half. -/
def inHalf (h off n : Nat) : Bool := decide (h * halfBytes ≤ off ∧ off + n ≤ (h + 1) * halfBytes)

/-- The contents of a staging half become undefined (R177): every byte is a free value. A free number comes with it. [DESIGN CHOICE, log 8] -/
def halfUndefined (core h : Nat) (s : State) : Nat × State :=
  (Config.freeNat (s.free + halfBytes), { sramWrite core (h * halfBytes) ((List.range halfBytes).map fun i => Config.freeByte (s.free + i)) s with
    free := s.free + halfBytes + 1 })

/-- Group `g`. -/
def State.group (s : State) (g : Nat) : Group := SMap.get Group.init s.groups g
def State.setGroup (s : State) (g : Nat) (x : Group) : State := { s with groups := SMap.set Group.init s.groups g x }
def State.updGroup (s : State) (g : Nat) (f : Group → Group) : State := s.setGroup g (f (s.group g))
/-- A peer of the pod is in a group of the context (R327). -/
def State.peerOk (s : State) (c peer : Nat) : Bool :=
  s.groups.any fun g => g.2.ctx == c && g.2.members.any (fun m => m == s.sys.pod * 64 + peer) && decide (peer < 64)

/-- The lowest-numbered encrypted group of a context that contains both this device and pod device `dev` (R519). -/
def State.encGroup (s : State) (c dev : Nat) : Option Nat :=
  (s.groups.find? fun g => g.2.enc && g.2.ctx == c && g.2.members.contains s.sysIndex
    && g.2.members.contains (s.sys.pod * 64 + dev)).map (·.1)

/-- GDK of a group that context `c` creates with GROUP_KEY `key`: HKDF of the context's CS with a salt of zeros (R515). -/
def State.newGdk (s : State) (c key : Nat) : Option Bytes :=
  (s.ctx c).secret.map fun cs => Config.hkdf cs (zeros 32) ([0x62, 0x65, 0x61, 0x6D] ++ leBytes 8 key) 32
/-- GDK of a group, fixed when it was created (R516). -/
def State.gdk (s : State) (g : Nat) : Option Bytes := (s.group g).gdk

/-- Nonce and additional data of a message of an encrypted group (R519). [DEDUCED, log 39] -/
def gcmNonce (src dst cls n : Nat) : Bytes := leBytes 2 src ++ leBytes 2 dst ++ leBytes 1 cls ++ leBytes 7 n
def gcmData (src dst cls stream len : Nat) : Bytes := leBytes 2 src ++ leBytes 2 dst ++ leBytes 1 cls ++ leBytes 2 stream ++ leBytes 4 len

/-- One message with header word `a` leaves for pod device `dev`; where its group `og` is encrypted it is sealed under GDK and counted
(R519). [DEDUCED, log 39] -/
def sendOne (og : Option Nat) (dev cls : Nat) (st : Option Nat) (a : Nat) (bs : Bytes) (s : State) : State :=
  let dst := s.sys.pod * 64 + dev
  let m := msgBytes a bs
  match og.bind fun g => if (s.group g).enc then (s.gdk g).map fun k => (g, k) else none with
  | none => sendMsg dst cls (st.getD (Config.streamOf cls 0 % mirrorStream)) false m s
  | some (g, k) =>
    let n := SMap.get 0 s.sec.sent (g * 16 + cls)
    let stream := st.getD (Config.streamOf cls n % mirrorStream)
    sendMsg dst cls stream true (Config.gcmSeal k (gcmNonce s.sysIndex dst cls n) (gcmData s.sysIndex dst cls stream m.length) m)
      { s with sec := { s.sec with sent := SMap.set 0 s.sec.sent (g * 16 + cls) ((n + 1) % 2 ^ 56) } }

/-- Data for address `a` leave for pod device `dev`, in messages of at most 64 KiB (R428). -/
def sendGroup (og : Option Nat) (dev cls a : Nat) (bs : Bytes) (s : State) : State :=
  (List.range (max 1 (cdiv bs.length msgMax))).foldl (fun s i =>
    sendOne og dev cls none (a + msgMax * i) ((bs.drop (msgMax * i)).take msgMax) s) s

/-- A Mirror striped transfer to pod device `dev` (R435): MIR_SET_L1_PORTS streams of the COLL class with consecutive STREAM values, each with
its own share of the data and its own offsets; `a` names what is sent, and the offset stands above its low byte. [DESIGN CHOICE, log 89] -/
def sendStriped (og : Option Nat) (dev a : Nat) (bs : Bytes) (s : State) : State :=
  let n := s.setting Config.tMirror 0 1 4
  let share := cdiv bs.length n
  (List.range n).foldl (fun s i =>
    let part := (bs.drop (share * i)).take share
    (List.range (cdiv part.length msgMax)).foldl (fun s k =>
      sendOne og dev 4 (some (mirrorStream + i)) (a + 256 * (share * i + msgMax * k)) ((part.drop (msgMax * k)).take msgMax) s) s) s

/-- A counter may be taken: it was not seen and is not below the window of 1,024 (R519). [DEDUCED, log 39] -/
def counterFresh (w : List Nat) (n : Nat) : Bool :=
  !w.contains n && decide (w.foldl max 0 < n + 1024)

/-- A protected message of sender `src` and class `cls` is opened: its bytes, or none where it is rejected (R519). [DEDUCED, log 39] -/
def openPeer (src cls stream : Nat) (msg : Bytes) (s : State) : Option Bytes × State :=
  let (g, n, body, tag) := Config.gcmParts msg
  let key := g * 2 ^ 24 + src * 256 + cls
  let w := SMap.get [] s.sec.seen key
  if !(s.group g).enc || !(s.group g).members.contains src || !counterFresh w n then (none, s)
  else match s.gdk g with
    | none => (none, s)
    | some k =>
      match Config.gcmOpen k (gcmNonce src s.sysIndex cls n) (gcmData src s.sysIndex cls stream body.length) body tag with
      | none => (none, s)
      | some b => (some b, { s with sec := { s.sec with seen := SMap.set [] s.sec.seen key ((n :: w).take 1024) } })

/-- Prism ring `n` of channel `ch`, the channel, job `j`, Update Unit `u`, image `h`. -/
def State.pring (s : State) (ch n : Nat) : PRing := SMap.get PRing.init s.prings (ch * 16 + n)
def State.setPring (s : State) (ch n : Nat) (x : PRing) : State :=
  { s with prings := SMap.set PRing.init s.prings (ch * 16 + n) x }
def State.updPring (s : State) (ch n : Nat) (f : PRing → PRing) : State := s.setPring ch n (f (s.pring ch n))
def State.chan (s : State) (ch : Nat) : Chan := SMap.get Chan.init s.chans ch
def State.setChan (s : State) (ch : Nat) (x : Chan) : State := { s with chans := SMap.set Chan.init s.chans ch x }
def State.updChan (s : State) (ch : Nat) (f : Chan → Chan) : State := s.setChan ch (f (s.chan ch))
def State.job (s : State) (j : Nat) : Option Job := (s.jobs.find? (fun x => x.1 == j)).map (·.2)
def State.setJob (s : State) (j : Nat) (x : Job) : State := { s with jobs := SMap.set Job.init s.jobs j x }
def State.upd (s : State) (u : Nat) : Upd := SMap.get Upd.init s.upds u
def State.setUpd (s : State) (u : Nat) (x : Upd) : State := { s with upds := SMap.set Upd.init s.upds u x }
def State.image (s : State) (h : Nat) : Option Image := (s.images.find? (fun x => x.1 == h)).map (·.2)
def State.setImage (s : State) (h : Nat) (x : Image) : State := { s with images := SMap.set Image.init s.images h x }

/-- ROLE bits of a job (R301). -/
def Job.teacher (j : Job) : Bool := bitOf (field j.header 1 1) 0
def Job.student (j : Job) : Bool := bitOf (field j.header 1 1) 1

/-- The job with the student role, if any (R299). [DEDUCED, log 44] -/
def State.studentJob (s : State) : Option (Nat × Job) :=
  s.jobs.find? fun j => j.2.student

/-- CHK of a context that is CONFIDENTIAL (R515, R517). -/
def State.chkOf (s : State) (c : Nat) : Option Bytes :=
  let x := s.ctx c
  if x.confidential then
    x.secret.map fun cs => Config.hkdf cs (Config.drbg x.nonce 32) [0x68, 0x6F, 0x73, 0x74] 64
  else none

/-- `n` lines of 64 bytes from line number `l`, each changed by `f` of its line number. -/
def mapLines (f : Nat → Bytes → Bytes) (l : Nat) (bs : Bytes) : Nat → Bytes
  | 0 => []
  | n + 1 => f l (bs.take 64) ++ mapLines f (l + 1) (bs.drop 64) n

/-- Bytes read from host memory: for a confidential context each line is decrypted under CHK, tweaked by its host
address (R517). -/
def State.hostGet (s : State) (chk : Option Bytes) (a n : Nat) : Bytes :=
  match chk with
  | none => Mem.read s.mem.host a n
  | some k =>
    let l0 := a / 64
    let cnt := (a + n + 63) / 64 - l0
    ((mapLines (fun l b => Config.xtsDec k l b) l0 (Mem.read s.mem.host (64 * l0) (64 * cnt)) cnt).drop (a % 64)).take n

/-- Bytes written to host memory; a confidential context's partial lines are read, decrypted, merged and encrypted. -/
def hostPut (chk : Option Bytes) (a : Nat) (bs : Bytes) (s : State) : State :=
  match chk with
  | none => hostWrite a bs s
  | some k =>
    let l0 := a / 64
    let cnt := (a + bs.length + 63) / 64 - l0
    let old := s.hostGet (some k) (64 * l0) (64 * cnt)
    hostWrite (64 * l0) (mapLines (fun l b => Config.xtsEnc k l b) l0 (splice old (a % 64) bs) cnt) s

/-- REQUIRE_IDE of a context while the link is not secure (R518). -/
def State.ideDenied (s : State) (c : Nat) : Bool := (s.ctx c).requireIde && !(s.sys.ideLink && s.sys.ideCxl)

/-- Rings that a serving model uses: its output ring and, on the student side, its plan and done rings (R391). -/
def State.servedRings (s : State) : List Nat :=
  s.srv.models.flatMap fun m =>
    if field m.2.block 0 1 = 0 then [field m.2.block 8 2]
    else [field m.2.block 4 2, field m.2.block 6 2, field m.2.block 8 2]

/-- Two runs share a byte. -/
def runsMeet (a : Int) (n : Nat) (b : Int) (m : Nat) : Bool := decide (a < b + m ∧ b < a + n)

/-- Some two of these runs share a byte. -/
def selfMeet : List (Int × Nat) → Bool
  | [] => false
  | x :: xs => xs.any (fun y => runsMeet x.1 x.2 y.1 y.2) || selfMeet xs

/-- Images that a serving model names. -/
def State.servedImages (s : State) : List Nat :=
  (s.srv.models.filter fun m => field m.2.block 0 1 == 0).map fun m => field m.2.block 2 2

/-! ### Network bindings, as IMG_WRITE uses them (R494, R496) -/

def State.bind (s : State) (b : Nat) : Option NetBind := (s.binds.find? (fun x => x.1 == b)).map (·.2)
/-- No binding of this kind is free: a default entry that no binding equals. -/
def NetBind.init : NetBind :=
  { ctx := 0, kind := 0, block := [], qpn := 0, rkey := 0, st := 0, sqPsn := 0, rqPsn := 0, consumed := 0, staged := [], cnp := 0, retries := 0, at_ := 0
    unacked := [], rx := none }
def State.setBind (s : State) (b : Nat) (x : NetBind) : State := { s with binds := SMap.set NetBind.init s.binds b x }
/-- Whether IMG_WRITE of image `h` by context `c` may name binding `b`: 0 yes, 1 no such receive binding, 2 another
context's. -/
def State.rxBind (s : State) (c b h : Nat) : Nat :=
  match s.bind b with
  | some x => if x.kind ≠ 1 || field x.block 42 2 ≠ h then 1 else if c = 0 || x.ctx = c then 0 else 2
  | none => 1
/-- The binding's queue pair has not failed. -/
def State.bindReady (s : State) (b : Nat) : Bool := match s.bind b with | some x => x.st == 1 | none => false
/-- A received byte at an image offset. -/
def stagedByte (l : List (Nat × Bytes)) (o : Nat) : Option Byte :=
  match l with
  | [] => none
  | (a, bs) :: t => if a ≤ o ∧ o < a + bs.length then some ((bs.drop (o - a)).headD 0) else stagedByte t o
/-- The `n` bytes from image offset `o`, when all have been received. -/
def State.stagedRun (s : State) (b o n : Nat) : Option Bytes :=
  match s.bind b with
  | some x => (List.range n).mapM fun i => stagedByte x.staged (o + i)
  | none => none
/-- CONSUMED advances; the notice of R496 goes out at each multiple of 64 MiB and at the end of the image. -/
def consumedTo (b v len img : Nat) (s : State) : State :=
  match s.bind b with
  | some x =>
    let s' := s.setBind b { x with consumed := v, staged := x.staged.filter fun m => decide (v < m.1 + m.2.length) }
    if v / (64 * 2 ^ 20) ≠ x.consumed / (64 * 2 ^ 20) || v = len then
      { s' with sys := { s'.sys with netOut := s'.sys.netOut ++ [(b, leBytes 8 v ++ leBytes 2 img ++ zeros 6)] } }
    else s'
  | none => s

/-! ### Ring numbers and slots -/

/-- The lowest FREE ring number. -/
def State.freeRing (s : State) : Option Nat := (List.range Config.rings).find? fun j => (s.ring j).st == 0

/-- How many rings of kind 0 a unit consumes from (R143, R201, R212, R248, R290, R319, R326, R444, R493). -/
def ringLimit (ty : Nat) : Nat :=
  if ty = Config.tScaler then 2 else if ty = Config.tEngine then 8 else if ty = Config.tNet then 16 else 4

/-- The lowest slot of a unit that none of its rings has. -/
def State.freeSlot (s : State) (ty inst : Nat) : Nat :=
  ((List.range 16).find? fun i => (s.unitRings ty inst).all fun r => r.2.slot != i).getD 0

/-- A ring comes into being, with every field of its group reset (R333, R352). -/
def createRing (j kind slotLog2 slots base space ty inst compl vector c : Nat) (s : State) : State :=
  s.setRing j { Ring.init with
    st := 1, kind, slotLog2, slots, base, space, unitType := ty, unitInst := inst, completion := compl, vector, ctx := c
    slot := if kind = 0 then s.freeSlot ty inst else 0 }

/-- A context is addressed by an event-ring field, COMPLETION or a serving queue of some ring: it cannot go (R86). -/
def State.ringNamed (s : State) (j : Nat) : Bool :=
  s.rings.any (fun r => r.2.st != 0 && r.2.completion == j && (r.2.kind == 0 || r.2.kind == 1))
  || s.ctxs.any (fun c => c.2.eventRing == some j)
  || s.binds.any (fun b => field b.2.block 40 2 == j)

end Sys2Proof.Machine
end

