-- ==== Sys2Proof/Machine/SciCore.lean ====
section
/-! DEFINITION. Sys2Proof/Machine/SciCore.lean: the life of an SCI request: acceptance, the ordered checks of R77,
completion in the mailbox or as PENDING, indirect payloads and event records. -/

namespace Sys2Proof.Machine
open Sys2Proof

/-! ### Status codes (R76) -/
def eOk : Nat := 0
def ePending : Nat := 1
def eUnknownOpcode : Nat := 0x100
def eBadLength : Nat := 0x101
def eReserved : Nat := 0x102
def eBadFlags : Nat := 0x103
def eSequence : Nat := 0x104
def eContext : Nat := 0x105
def ePermission : Nat := 0x106
def eBadHandle : Nat := 0x107
def eBadArgument : Nat := 0x108
def eQuota : Nat := 0x109
def eNoResource : Nat := 0x10A
def eBusy : Nat := 0x10B
def eState : Nat := 0x10C
def eAddress : Nat := 0x10D
def eTxnExpired : Nat := 0x10E
def eRejected : Nat := 0x10F
def eNotQuiescent : Nat := 0x110
def eSeal : Nat := 0x111
def eIntegrity : Nat := 0x112
def eAborted : Nat := 0x113
def eInternal : Nat := 0x1FF

/-- Who issues a command, and what its records echo. -/
structure Iss where
  mb     : Nat
  ctx    : Nat
  tag    : Nat
  seq    : Nat
  opcode : Nat
  defer  : Bool
  /-- the OP_HANDLE that a PENDING answer to this command carries -/
  handle : Nat
deriving DecidableEq, Repr

/-- What a command's own rule answers, after steps 1–6 of R77 and the access check have passed. [DESIGN CHOICE, log 16; DEDUCED, log 17] -/
inductive Res where
  /-- completes OK with this response payload -/
  | ok (resp : Bytes) (s : State)
  /-- completes with this status and DETAIL, without effect (R76) -/
  | fail (status detail : Nat)
  /-- completes with this status and DETAIL and leaves effects its rule names -/
  | failWith (status detail : Nat) (s : State)
  /-- answers PENDING: the command is outstanding in this state -/
  | pend (s : State)
  /-- goes on with its mailbox BUSY; an event completes it there -/
  | hold (s : State)

/-- A command of the list of R82: its opcode, its access, and what R72, R77 and R594 need to know of its payload. -/
structure CmdSpec where
  opcode : Nat
  /-- 0: both, 1: administrative mailboxes only, 2: tenant mailboxes only -/
  access : Nat
  /-- marked P: may answer PENDING, so an event ring must be bound (R78) -/
  p      : Bool
  /-- expected payload length computed from the payload; `none`: any length up to 1,888 -/
  len    : Bytes → Option Nat
  /-- reserved byte ranges of the payload -/
  rsv    : Bytes → List (Nat × Nat)
  /-- bytes of the payload that hold reserved bits: offset and the mask of those bits -/
  rbits  : Bytes → List (Nat × Nat) := fun _ => []
  /-- largest response payload (R594) -/
  resp   : State → Bytes → Nat
  run    : Iss → Bytes → State → Res
  /-- what firmware does at once when the command's answer PENDING stands -/
  after  : State → State := fun s => s

/-- The 32 bytes of a request header (R72). -/
def reqHeader (op : Nat) (q : Request) : Bytes :=
  leBytes 2 op ++ leBytes 2 q.flags ++ leBytes 2 q.tag ++ leBytes 1 q.context ++ leBytes 1 q.rsv7
    ++ leBytes 4 q.length ++ leBytes 4 q.rsv12 ++ leBytes 8 q.sequence ++ leBytes 8 q.rsv24

/-- The request that stands in a request buffer. [DESIGN CHOICE, log 18] -/
def parseReq (m : Nat) (buf : Bytes) : Nat × Request :=
  (field buf 0 2,
   { mailbox := m, flags := field buf 2 2, tag := field buf 4 2, context := field buf 6 1, rsv7 := field buf 7 1
     length := field buf 8 4, rsv12 := field buf 12 4, sequence := field buf 16 8, rsv24 := field buf 24 8
     payload := fitTo (min (field buf 8 4) Config.reqMax) (buf.drop 32), defer := false })

/-- The 32 bytes of a response header (R75). -/
def respHeader (op : Nat) (q : Request) (status len detail handle : Nat) : Bytes :=
  leBytes 2 op ++ leBytes 2 status ++ leBytes 2 q.tag ++ leBytes 1 q.context ++ [0] ++ leBytes 4 len
    ++ leBytes 4 detail ++ leBytes 8 q.sequence ++ leBytes 8 handle

/-- Whether a mailbox is administrative: 0 and 1 (R67). Numbers from 260 on stand for Loupe's MCTP transports, which act as context 0
(R551) and which no request in a mailbox reaches. [DESIGN CHOICE, log 74] -/
def isAdmin (m : Nat) : Bool := decide (m < 2) || decide (Config.mailboxes + 4 ≤ m)

/-- The owner of a mailbox, if it is assigned (R67). An agent's private mailbox has its context from CTX_AGENT_LOAD. [DESIGN CHOICE, log 74] -/
def State.mbOwner (s : State) (m : Nat) : Option Nat :=
  if isAdmin m then some 0 else if (s.mb m).assigned then some (s.mb m).ctx else none

/-- A private mailbox whose agent no longer runs: the responses of the commands that the agent issued are discarded (R99). -/
def State.discards (s : State) (m : Nat) : Bool :=
  decide (Config.mailboxes ≤ m ∧ m < Config.mailboxes + 4) && (SMap.get Agent.init s.agents (m - Config.mailboxes)).st != 2

/-- A command completes in its mailbox (R70): response, then DONE, then the message. The response of a command of a stopped agent is
discarded, and its private mailbox is IDLE (R99). [DESIGN CHOICE, log 16; DEDUCED, log 30] -/
def mbComplete (m op : Nat) (q : Request) (status detail handle : Nat) (len : Nat) (payload : Bytes) (s : State) : State :=
  let b := s.mb m
  if s.discards m then s.setMb m { b with st := 0 }
  else
  let s := s.setMb m { b with
    st := 2, code := status, done := true, aborted := b.aborted || status == eAborted
    resp := respHeader op q status len detail handle ++ payload }
  if b.irqEn && !b.done then sendMsix b.vector s else s

/-- The record of FLAGS.EVENT for a command that completed in the mailbox (R73, R79). -/
def flagRecord (op : Nat) (q : Request) (c status detail : Nat) (payload : Bytes) (s : State) : State :=
  if bitOf q.flags 2 && (s.ctx c).eventRing.isSome then
    deliverEvent c (eventRecord op status q.tag 0 0 0 s.now
      (if status = 0 then payload.take 32 else leBytes 4 detail) q.sequence) s
  else s

/-- The indirect block of R73. -/
structure Indirect where
  addr  : Nat
  len   : Nat
  space : Nat
  rspace : Nat
  raddr : Nat
  cap   : Nat
deriving DecidableEq, Repr

def parseIndirect (p : Bytes) : Indirect :=
  { addr := field p 0 8, len := field p 8 4, space := field p 12 4 % 2, rspace := (field p 12 4 / 2) % 2
    raddr := field p 16 8, cap := field p 24 4 }

/-- What steps 1 to 6 of R77, after acceptance, give: a failing check, or the payload to run on. -/
inductive Pre where
  | fail (status detail : Nat)
  /-- a poisoned or unreadable line of an indirect payload (R77 step 5) -/
  | poison (addr space : Nat)
  | go (payload : Bytes) (ind : Option Indirect)
deriving DecidableEq, Repr

/-- Offset of the first reserved byte, or byte with a reserved bit, that is not zero. -/
def CmdSpec.reservedAt (k : CmdSpec) (p : Bytes) : Option Nat :=
  match firstNonzero p (k.rsv p), (k.rbits p).find? (fun x => Nat.land (field p x.1 1) x.2 != 0) with
  | some a, some b => some (min a b.1)
  | some a, none => some a
  | none, some b => some b.1
  | none, none => none

/-- Steps 3 to 6 of R77. Within step 5 the length limit of an indirect block is checked before its address. No rule says when INDIRECT is
misused otherwise than by its LENGTH, which R72 answers with E_BAD_LENGTH. [DEDUCED, log 20, 21; DESIGN CHOICE, log 77] -/
def precheck (spec : Option CmdSpec) (op c : Nat) (q : Request) (s : State) : Pre :=
  match spec with
  | none => .fail eUnknownOpcode op
  | some k =>
    if q.flags ≥ 8 then .fail eBadFlags q.flags
    else
      let tail (p : Bytes) (n : Nat) (ind : Option Indirect) : Pre :=
        let space := match ind with
          | some i => if i.raddr = 0 then Config.respMax else i.cap
          | none => Config.respMax
        let want := (k.len p).getD n
        if n ≠ want || (ind.isNone && n > Config.reqMax) then .fail eBadLength want
        else if (k.len p).isNone && n > Config.respMax then .fail eBadLength Config.respMax
        else if k.resp s p > space then .fail eBadLength (k.resp s p)
        else if q.rsv7 ≠ 0 then .fail eReserved 7
        else if q.rsv12 ≠ 0 then .fail eReserved 12
        else if q.rsv24 ≠ 0 then .fail eReserved 24
        else if ind.isSome && field q.payload 12 4 ≥ 4 then .fail eReserved 12
        else if ind.isSome && field q.payload 28 4 ≠ 0 then .fail eReserved 28
        else match k.reservedAt p with
          | some o => .fail eReserved o
          | none => .go p ind
      if bitOf q.flags 0 then
        if q.length ≠ 32 then .fail eBadLength 32
        else
          let i := parseIndirect (fitTo 32 q.payload)
          if i.len > 2 ^ 24 then .fail eBadLength (2 ^ 24)
          else if i.len ≠ 0 && !s.reach c i.space i.addr i.len then .fail eAddress 0
          else if s.spaceBad i.space i.addr i.len then .poison i.addr i.space
          else tail (s.spaceRead i.space i.addr i.len) i.len (some i)
      else tail (fitTo q.length q.payload) q.length none

/-- The access column of R82. [DEDUCED, log 20] -/
def accessOk (k : CmdSpec) (m : Nat) : Bool :=
  k.access == 0 || (k.access == 1 && isAdmin m) || (k.access == 2 && !isAdmin m)

/-- Commands that the part still takes in the FATAL state (R578). -/
def fatalOk (m op : Nat) : Bool := isAdmin m && (op == 0 || op == 1 || op == 2 || op == 5 || op / 256 == 0x0A)

/-- The commands whose final record goes to context 0 and that need no event ring of their own (R78). [DEDUCED, log 20] -/
def noRing (op : Nat) : Bool := op == 0x0201 || op == 0x0206

/-- Complete a command whose answer stands, in the mailbox or at its indirect response address. [DESIGN CHOICE, log 16; DEDUCED, log 17] -/
def answer (m op c : Nat) (q : Request) (ind : Option Indirect) (status detail : Nat) (payload : Bytes) (s : State) : State :=
  match ind with
  | some i =>
    if i.raddr ≠ 0 && status == 0 then
      flagRecord op q c status detail payload
        (mbComplete m op q status detail 0 payload.length [] (spaceWrite i.rspace i.raddr payload s))
    else flagRecord op q c status detail payload (mbComplete m op q status detail 0 payload.length payload s)
  | none => flagRecord op q c status detail payload (mbComplete m op q status detail 0 payload.length payload s)

/-- Commands that a context had accepted earlier and that are outstanding (R73, ORDERED), by mailbox and SEQUENCE. -/
def State.earlier (s : State) (c m : Nat) : List (Nat × Nat) :=
  ((s.ops.filter fun o => o.ctx == c).map fun o => (o.mailbox, o.seq))
  ++ ((s.mbs.filter fun b => b.1 != m && b.2.st == 1 && s.mbOwner b.1 == some c).map fun b => (b.1, b.2.expect - 1))

/-- A command, by mailbox and SEQUENCE, has not completed. [DEDUCED, log 6] -/
def State.running? (s : State) (x : Nat × Nat) : Bool :=
  s.ops.any (fun o => o.mailbox == x.1 && o.seq == x.2) || ((s.mb x.1).st == 1 && (s.mb x.1).expect == x.2 + 1)

/-- A command's own rule fails in step 7 or 8 of R77: permission or handles. -/
def Res.early : Res → Bool
  | .fail st _ => st == ePermission || st == eBadHandle || st == eTxnExpired
  | _ => false

/-- Steps 7 to 12 of R77 and the command itself, in a mailbox that is BUSY with it. [DEDUCED, log 20] -/
def runBody (k : CmdSpec) (q : Request) (m c : Nat) (p : Bytes) (ind : Option Indirect) (s : State) : State :=
  let op := k.opcode
  let bad (st d : Nat) (s : State) : State := answer m op c q ind st d [] s
  if !accessOk k m then bad ePermission 0 s
  else
    let badResp := match ind with
      | some i => i.raddr != 0 && !s.reach c i.rspace i.raddr (max 1 (k.resp s p))
      | none => false
    let iss : Iss := { mb := m, ctx := c, tag := q.tag, seq := q.sequence, opcode := op, defer := q.defer
                       handle := (s.ctx c).nextOp }
    if badResp && !(k.run iss p s).early then bad eAddress 16 s
    else
      let needRing := (k.p || bitOf q.flags 2) && !noRing op && (s.ctx c).eventRing.isNone
      match k.run iss p s with
      | .fail st d => bad st d s
      | .failWith st d s' => if needRing then bad eState 0 s else bad st d s'
      | .ok resp s' => if needRing then bad eState 0 s else answer m op c q ind 0 0 resp s'
      | .hold s' => if needRing then bad eState 0 s else s'
      | .pend s' =>
        if needRing then bad eState 0 s
        else
          let s' := s'.updCtx c fun x => { x with nextOp := x.nextOp + 1 }
          let s' := { s' with ops := s'.ops ++ [{ ctx := c, handle := iss.handle, opcode := op, tag := q.tag
                                                  seq := q.sequence, mailbox := m, payload := p }] }
          k.after (mbComplete m op q ePending 0 iss.handle 0 [] s')

/-- Steps 3 to 12 of R77 for a request of context `c`; under ORDERED it waits for the earlier commands of its context (R73). [DEDUCED, log 21] -/
def runChecked (spec : Option CmdSpec) (op c : Nat) (q : Request) (s : State) : State :=
  let m := q.mailbox
  match precheck spec op c q s with
  | .fail st d => flagRecord op q c st d [] (mbComplete m op q st d 0 0 [] s)
  | .poison a sp =>
    raise { code := if sp = 0 then 3 else 0xD, status := eAborted, flags := 1, ty := 0, inst := 0, ctx := c
            ring := 0xFFFF, index := 0, addr := a, space := if sp = 0 then 1 else 3 }
      (flagRecord op q c eAborted 0 [] (mbComplete m op q eAborted 0 0 0 [] s))
  | .go p ind =>
    match spec with
    | none => s
    | some k =>
      if bitOf q.flags 1 && !(s.earlier c m).isEmpty then
        s.setMb m { s.mb m with waiting := some (op, q, s.earlier c m) }
      else runBody k q m c p ind s

/-- An accepted request runs (R77 from step 2 on). [DEDUCED, log 21] -/
def runAccepted (spec : Option CmdSpec) (op : Nat) (q : Request) (s : State) : State :=
  let m := q.mailbox
  match s.mbOwner m with
  | none => mbComplete m op q eContext 0 0 0 [] s
  | some c =>
    if q.context ≠ c then mbComplete m op q eContext c 0 0 [] s
    else if (s.ctx c).st = 2 then mbComplete m op q eState 2 0 0 [] s
    else if s.isFatal && !fatalOk m op then mbComplete m op q eState 0xFFFFFFFF 0 0 [] s
    else runChecked spec op c q s

/-- A request that waited under ORDERED starts. Its context was ACTIVE when it was accepted: what has become of it since is no check of
its start. [DEDUCED, log 21] -/
def runWaited (spec : Option CmdSpec) (op : Nat) (q : Request) (s : State) : State :=
  let q := { q with flags := q.flags - 2 * b2n (bitOf q.flags 1) }
  match s.mbOwner q.mailbox with
  | none => mbComplete q.mailbox op q eContext 0 0 0 [] s
  | some c =>
    if q.context ≠ c then mbComplete q.mailbox op q eContext c 0 0 [] s
    else if s.isFatal && !fatalOk q.mailbox op then mbComplete q.mailbox op q eState 0xFFFFFFFF 0 0 [] s
    else runChecked spec op c q s

/-- The Host Port carries writes to a mailbox; the private mailboxes of agents need no link (R98, R488). [DESIGN CHOICE, log 22] -/
def State.reachMb (s : State) (m : Nat) : Bool := s.running && decide (m < Config.mailboxes + 4) && (if m < Config.mailboxes then s.host.up && !s.host.flr
    else (SMap.get Agent.init s.agents (m - Config.mailboxes)).st == 2)

/-- What leaves on an MCTP transport: 1 I3C, 2 SMBus. [PRESUMED, log 26] -/
def mctpSend (t : Nat) (bs : Bytes) (s : State) : State := { s with sec := { s.sec with out := s.sec.out ++ [(t, bs)] } }

/-- The response of a request that has ended is sent, where it came over MCTP (R551). -/
def mctpReply (m : Nat) (s : State) : State :=
  if m > Config.mailboxes + 4 && (s.mb m).st = 2 then mctpSend (m - Config.mailboxes - 4) (s.mb m).resp s else s

/-- Software writes GO with this request in the request buffer (R70, R71). [DESIGN CHOICE, log 16] -/
def goWrite (spec : Option CmdSpec) (op : Nat) (q : Request) (s : State) : State :=
  let m := q.mailbox
  let b := s.mb m
  if !s.reachMb m then s
  else if b.st = 1 then s.setMb m { b with overrun := true }
  else if q.sequence ≠ b.expect then mbComplete m op q eSequence (b.expect % 2 ^ 32) 0 0 [] (s.setMb m { b with st := 1, resp := [] })
  else runAccepted spec op q (s.setMb m { b with st := 1, tag := q.tag, expect := (b.expect + 1) % 2 ^ 64, resp := [] })

/-- The driver writes a request into the request buffer of its mailbox and writes GO. While the mailbox is BUSY the
buffer is locked and the GO write only sets OVERRUN (R70). [DESIGN CHOICE, log 16, 22] -/
def submit (k : CmdSpec) (q : Request) (s : State) : Host.Outcome State Fault Refusal :=
  let b := s.mb q.mailbox
  let s := if b.st = 1 || !s.reachMb q.mailbox then s
    else s.setMb q.mailbox { b with req := reqHeader k.opcode q ++ q.payload }
  .next (goWrite (some k) k.opcode q s)

/-- A command that went on with its mailbox BUSY completes there; the request buffer still holds its request, with the indirect block that
says where its response goes (R70, R73). A mailbox of the host completes nothing while the link is down (R488). [DESIGN CHOICE, log 22] -/
def completeHeld (m status detail : Nat) (payload : Bytes) (s : State) : State :=
  let (op, q) := parseReq m (s.mb m).req
  let ind := if bitOf q.flags 0 then some (parseIndirect (fitTo 32 q.payload)) else none
  if (s.mb m).st = 1 && m < Config.mailboxes && !s.host.up then s.setMb m { s.mb m with late := some (status, detail, payload) }
  else if (s.mb m).st = 1 then answer m op ((s.mbOwner m).getD 0) { q with mailbox := m } ind status detail payload s else s

/-- The completions that waited for the host link are given (R488). -/
def completeLate (s : State) : State :=
  (s.mbs.map (·.1)).foldl (fun s m =>
    match (s.mb m).late with
    | some (st, d, p) => completeHeld m st d p (s.setMb m { s.mb m with late := none })
    | none => s) s

/-- A fixed payload length. -/
def fixed (n : Nat) : Bytes → Option Nat := fun _ => some n
/-- No reserved bytes. -/
def noRsv : Bytes → List (Nat × Nat) := fun _ => []
/-- Reserved byte ranges that do not depend on the payload. -/
def rsvAt (l : List (Nat × Nat)) : Bytes → List (Nat × Nat) := fun _ => l
/-- A fixed bound on the response. -/
def respOf (n : Nat) : State → Bytes → Nat := fun _ _ => n

end Sys2Proof.Machine
end

