-- ==== Sys2Proof/Machine/MemCmd.lean ====
section
/-! DEFINITION. Sys2Proof/Machine/MemCmd.lean: the memory commands of group 0x03 and the events of the HBM controllers
(R82, R346, R353–R360). -/

namespace Sys2Proof.Machine
open Sys2Proof

/-! ### Pages (R353) -/

/-- Side of a stack: 0 teacher (stacks 0–3), 1 student (4–7). -/
def sideOf (stack : Nat) : Nat := if stack < 4 then 0 else 1

/-- Bytes of device memory that a context holds on a side. -/
def State.heldBytes (s : State) (c side : Nat) : Nat :=
  ((s.mem.allocs.filter fun a => a.ctx == c && sideOf (stackOf a.base) == side).map (·.len)).sum

/-- Page number `p` is free. -/
def State.pageFree (s : State) (p : Nat) : Bool := SMap.get 0 s.mem.pages p == 0

/-- The first run of `n` free pages of a stack, aligned to `al` pages. -/
def State.freeRun (s : State) (stack n al : Nat) : Option Nat :=
  if s.mem.failed.contains stack || !s.enabled Config.tHbm stack then none
  else
    let first := stack * Config.pagesPerStack
    ((List.range Config.pagesPerStack).map (first + ·)).find? fun p =>
      p % al == 0 && decide (p + n ≤ first + Config.pagesPerStack) && (List.range n).all fun i => s.pageFree (p + i)

/-- Give pages `p … p + n − 1` to a context, zeroed under its key. -/
def takePages (c p n : Nat) (s : State) : State :=
  let a := p * Config.pageBytes
  let len := n * Config.pageBytes
  bump Config.tHbm (stackOf a) 10 n { s with mem := { s.mem with
    hbm := Mem.clear s.mem.hbm a len
    hbmPoison := s.mem.hbmPoison.filter fun l => !decide (a ≤ 64 * l ∧ 64 * l < a + len)
    pages := (List.range n).foldl (fun m i => SMap.set 0 m (p + i) (c + 1)) s.mem.pages
    allocs := s.mem.allocs ++ [{ ctx := c, base := a, len }] } }

/-- Return an allocation to the pool. -/
def freePages (a : Alloc) (s : State) : State :=
  { s with mem := { s.mem with
    pages := (List.range (a.len / Config.pageBytes)).foldl (fun m i => SMap.set 0 m (a.base / Config.pageBytes + i) 0) s.mem.pages
    allocs := s.mem.allocs.filter fun x => x.base != a.base } }

/-- MEM_ALLOC (R82, R353). -/
def specMemAlloc : CmdSpec where
  opcode := 0x0300
  access := 2
  p := false
  len := fixed 12
  rsv := noRsv
  resp := respOf 8
  run := fun i p s =>
    let bytes := field p 0 8
    let side := field p 8 1
    let inst := field p 9 2
    let al := field p 11 1
    let n := cdiv bytes Config.pageBytes
    let quota := if side = 0 then (s.ctx i.ctx).quota.hbmT else (s.ctx i.ctx).quota.hbmS
    if bytes = 0 then .fail eBadArgument 0
    else if side > 1 then .fail eBadArgument 8
    else if inst ≠ 0xFFFF && (inst ≥ 8 || sideOf inst ≠ side || !s.enabled Config.tHbm inst) then .fail eBadArgument 9
    else if al < 21 || al > 30 then .fail eBadArgument 11
    else if i.ctx ≠ 0 && s.heldBytes i.ctx side + n * Config.pageBytes > quota * 2 ^ 20 then
      .fail eQuota (if side = 0 then 0 else 4)
    else
      let tries := if inst ≠ 0xFFFF then [inst] else if side = 0 then [0, 1, 2, 3] else [4, 5, 6, 7]
      match tries.findSome? fun k => s.freeRun k n (2 ^ (al - 21)) with
      | none => .fail eNoResource 0
      | some pg => .ok (leBytes 8 (pg * Config.pageBytes)) (takePages i.ctx pg n s)

def execMemAlloc (q : Request) (s : State) : Host.Outcome State Fault Refusal := submit specMemAlloc q s

/-- MEM_MAP_HOST (R82, R518). -/
def specMemMapHost : CmdSpec where
  opcode := 0x0302
  access := 2
  p := false
  len := fixed 16
  rsv := noRsv
  resp := respOf 2
  run := fun i p s =>
    let a := field p 0 8
    let n := field p 8 8
    let x := s.ctx i.ctx
    if a % 4096 ≠ 0 then .fail eAddress 0
    else if n = 0 || n % 4096 ≠ 0 || a + n > 2 ^ 64 then .fail eBadArgument 8
    else if x.windows.length ≥ 65535 then .fail eNoResource 0
    else if s.ideDenied i.ctx then .fail 0x2B04 0
    else
      let h := ((List.range 65536).find? fun h => x.windows.all fun w => w.handle != h).getD 0
      .ok (leBytes 2 h) (s.setCtx i.ctx { x with windows := x.windows ++ [{ handle := h, base := a, len := n }] })

def execMemMapHost (q : Request) (s : State) : Host.Outcome State Fault Refusal := submit specMemMapHost q s

/-- The work of MEM_COPY in runs of 64-byte lines: bytes copied before a poisoned source line, and whether one was met. -/
def memCopy (c ss ds src dst : Nat) : Nat → Nat → State → Nat × Bool × State
  | 0, _, s => (0, true, s)
  | f + 1, n, s =>
    if n = 0 then (0, true, s)
    else
      let k := min n (64 - src % 64)
      if s.spaceBad ss src k then (0, false, s)
      else
        let bs := if ss = 0 then s.hbmRead src k else s.hostGet (s.chkOf c) src k
        let s := if ss = 0 then hbmTaken src k s else s
        let s := if ds = 0 then hbmWrite dst bs s else hostPut (s.chkOf c) dst bs s
        let (m, ok, s) := memCopy c ss ds (src + k) (dst + k) f (n - k) s
        (m + k, ok, s)

/-- MEM_COPY from its payload: bytes written and whether all were. -/
def memCopyDo (c : Nat) (p : Bytes) (s : State) : Nat × Bool × State :=
  memCopy c (field p 24 1 % 2) (field p 24 1 / 2 % 2) (field p 0 8) (field p 8 8) (field p 16 8 / 64 + 2) (field p 16 8) s

/-- Report a poisoned or failed source line of MEM_COPY (R576). -/
def memCopyErr (c : Nat) (p : Bytes) (done : Nat) (s : State) : State :=
  raise { code := if field p 24 1 % 2 = 0 then 3 else 0xD, status := 0x113, flags := 1, ty := 0, inst := 0, ctx := c
          ring := 0xFFFF, index := 0, addr := field p 0 8 + done, space := if field p 24 1 % 2 = 0 then 1 else 3 } s

/-- MEM_COPY (R82, R83): its point of effect is its completion. -/
def specMemCopy : CmdSpec where
  opcode := 0x0304
  access := 2
  p := true
  len := fixed 25
  rsv := noRsv
  rbits := rsvAt [(24, 0xFC)]
  resp := respOf 0
  run := fun i p s =>
    let sp := field p 24 1
    let n := field p 16 8
    if n = 0 then .fail eBadArgument 16
    else if !s.reach i.ctx (sp % 2) (field p 0 8) n then .fail eAddress 0
    else if !s.reach i.ctx (sp / 2) (field p 8 8) n then .fail eAddress 8
    else if sp % 2 = sp / 2 && runsMeet (field p 0 8) n (field p 8 8) n then .fail eBadArgument 8
    else if i.defer then .pend s
    else
      let (m, ok, s') := memCopyDo i.ctx p s
      if ok then .ok [] s' else .failWith eAborted (min m (2 ^ 32 - 1)) (memCopyErr i.ctx p m s')

def execMemCopy (q : Request) (s : State) : Host.Outcome State Fault Refusal := submit specMemCopy q s

/-- The deferred MEM_COPY of a context ends: RESULT [7:0] is the number of bytes written. [DEDUCED, log 28] -/
def memCopyFinish (o : PendingOp) (s : State) : State :=
  let (m, ok, s) := memCopyDo o.ctx o.payload s
  if ok then finishOp o.ctx o.handle 0 0 (leBytes 8 m) s
  else memCopyErr o.ctx o.payload m (finishOp o.ctx o.handle eAborted (min m (2 ^ 32 - 1)) (leBytes 8 m) s)

/-- MEM_QUERY (R82). -/
def specMemQuery : CmdSpec where
  opcode := 0x0305
  access := 2
  p := false
  len := fixed 0
  rsv := noRsv
  resp := respOf 18
  run := fun i _ s =>
    .ok (leBytes 8 (s.heldBytes i.ctx 0) ++ leBytes 8 (s.heldBytes i.ctx 1) ++ leBytes 2 (s.ctx i.ctx).windows.length) s

def execMemQuery (q : Request) (s : State) : Host.Outcome State Fault Refusal := submit specMemQuery q s

/-! ### HBM controllers (R355, R356, R576) -/

/-- HBM_REFRESH_TIMER: the stack is refreshed. Since the last one the controller has issued refresh-management commands from its own counts of row
activations, and requests have waited behind the shares of other contexts (R356, R357): how many and how long is free.
[DESIGN CHOICE, log 46] -/
def execHbmRefreshTimer (stack : Nat) (s : State) : Host.Outcome State Fault Refusal :=
  if s.enabled Config.tHbm stack then .next (spent Config.tHbm stack [7, 9] (bump Config.tHbm stack 6 1 s)) else .next s

/-- A corrected error is counted; more than HBM_SET_CE_NOTIFY in an hour sets CE_RATE and notifies Loupe (R355, R358). -/
def hbmCorrected (stack : Nat) (s : State) : State :=
  let s := bump Config.tHbm stack 2 1 s
  let u := s.unit Config.tHbm stack
  let recent := s.now :: u.recent.filter fun t => decide (s.now < t + 3600 * Config.sec)
  let excess := recent.length > s.setting Config.tHbm stack 3 64
  let s := s.setUnit Config.tHbm stack { u with recent, err := if excess then Nat.lor u.err 4 else u.err }
  if excess && !bitOf u.err 2 then
    raise { code := 0x14, status := 0x112, flags := 0, ty := Config.tHbm, inst := stack, ctx := 255, ring := 0xFFFF
            index := 0, addr := 0, space := 0 } s
  else s

/-- A line becomes poisoned (R355): HBM_ERR.UE, HBM_ERR_INFO (its context, line and SCRUB), and the error record. -/
def hbmUncorrectable (addr : Nat) (scrub : Bool) (s : State) : State :=
  let stack := stackOf addr
  let c := (s.owner addr).getD 255
  let s := { s with mem := { s.mem with hbmPoison := NSet.ins (addr / 64) s.mem.hbmPoison } }
  let s := (bump Config.tHbm stack 3 1 s).updUnit Config.tHbm stack fun u =>
    let u := if bitOf u.err 0 then u else { u with errRing := c, errIndex := addr / 64 * 64, errReason := b2n scrub }
    { u with err := Nat.lor u.err 1 }
  raise { code := 2, status := 0x112, flags := 3, ty := Config.tHbm, inst := stack, ctx := c, ring := 0xFFFF, index := 0
          addr := addr / 64 * 64, space := 1 } s

/-- HBM_SCRUB_LINE: patrol scrub reads one line, in which 0, 1 or more symbols are in error (R355, R356). -/
def execHbmScrubLine (addr errors : Nat) (s : State) : Host.Outcome State Fault Refusal :=
  if addr ≥ Config.hbmBytes || s.isFatal then .next s
  else
    let s := bump Config.tHbm (stackOf addr) 8 1 s
    if errors = 0 || s.mem.hbmPoison.contains (addr / 64) then .next s
    else if errors = 1 then .next (hbmCorrected (stackOf addr) s)
    else .next (hbmUncorrectable addr true s)

/-- HBM_STACK_FAIL (R576): every line of the stack reads poison from now on; the contexts with pages there are told. -/
def execHbmStackFail (stack : Nat) (s : State) : Host.Outcome State Fault Refusal :=
  if stack ≥ 8 || s.mem.failed.contains stack then .next s
  else
    let s := { s with mem := { s.mem with failed := NSet.ins stack s.mem.failed } }
    let owners := (s.mem.allocs.filter fun a => stackOf a.base == stack || stackOf (a.base + a.len - 1) == stack).map (·.ctx)
    .next (raiseUnit { code := 7, status := 0x1FF, flags := 0, ty := Config.tHbm, inst := stack, ctx := 255, ring := 0xFFFF
                       index := 0, addr := 0, space := 0 } owners s)

end Sys2Proof.Machine
end

