-- ==== Sys2Proof/Machine/Operands.lean ====
section
/-! DEFINITION. Sys2Proof/Machine/Operands.lean: the descriptor envelope (R87), which opcodes each unit accepts, which
bits of each body are defined, and the FMT values that stop a ring (R89, R103). -/

namespace Sys2Proof.Machine
open Sys2Proof

/-! ### Envelope fields (R87) -/
def dOp (d : Bytes) : Nat := field d 0 1
def dCr (d : Bytes) : Bool := bitOf (field d 1 1) 0
def dIrq (d : Bytes) : Bool := bitOf (field d 1 1) 1
def dLink (d : Bytes) : Bool := bitOf (field d 1 1) 2
def dTag (d : Bytes) : Nat := field d 2 2
def dUser (d : Bytes) : Nat := field d 56 8

/-- A defined part of a descriptor body: offset, length in bytes, mask of the defined bits of each byte. -/
abbrev Part := Nat × Nat × Nat

/-- Defined bits of byte `i` under a list of parts. -/
def maskAt : List Part → Nat → Nat
  | [], _ => 0
  | (o, n, m) :: ps, i => if o ≤ i ∧ i < o + n then Nat.lor m (maskAt ps i) else maskAt ps i

/-- A body sets a bit that its layout does not define. -/
def bodyReserved (ps : List Part) (d : Bytes) : Bool :=
  (List.range 48).any fun i => Nat.land (field d (8 + i) 1) (255 - maskAt ps (8 + i)) != 0

/-- FENCE (R338). -/
def shFence : List Part := [(8, 1, 1), (9, 1, 7), (10, 6, 255), (16, 16, 255)]
/-- TE_LUT_PASS (R148). -/
def shLut : List Part := [(8, 1, 0x0F), (9, 1, 0x7F), (10, 1, 0xF7), (11, 1, 0x0F), (12, 30, 255), (42, 1, 7), (44, 2, 255)]
/-- TE_DIRECT_PASS (R149). -/
def shDirect : List Part := [(8, 1, 0x0F), (9, 1, 0xFF), (10, 1, 0xF7), (12, 7, 255), (25, 19, 255)]
/-- TE_PANE_PASS (R150). -/
def shPane : List Part := [(8, 1, 0x0F), (9, 1, 1), (10, 1, 0x0F), (12, 3, 255), (15, 1, 7), (16, 2, 255)]
/-- TE_THIN_PASS (R151). -/
def shThin : List Part := [(8, 1, 255), (9, 1, 0x7F), (10, 1, 0xF7), (11, 1, 0x0F), (12, 32, 255), (44, 1, 7), (46, 2, 255)]
/-- TE_VECTOR and SE_VECTOR (R144, R205). -/
def shVector : List Part := [(8, 5, 255), (16, 40, 255)]
/-- SU_COPY (R342). -/
def shCopy : List Part := [(8, 1, 0x0F), (10, 44, 255)]
/-- SU_FILL (R343). -/
def shFill : List Part := [(8, 1, 0x0F), (10, 28, 255)]
/-- SU_GATHER (R344). -/
def shGather : List Part := [(8, 1, 0x0F), (9, 1, 1), (10, 32, 255)]
/-- SU_TRANSPOSE (R345). -/
def shTranspose : List Part := [(8, 1, 0x0F), (9, 37, 255)]

/-- SU_STAGE_FILL (R174). -/
def shStageFill : List Part := [(8, 6, 255), (14, 1, 7), (15, 1, 1), (16, 5, 255), (22, 12, 255), (40, 8, 255)]
/-- SE_MATMUL (R203). -/
def shMatmul : List Part := [(8, 1, 3), (9, 1, 255), (10, 1, 0xF7), (11, 1, 0xF3), (12, 4, 255), (16, 1, 0x3F), (18, 34, 255)]
/-- SE_PANE_PASS (R204). -/
def shSePane : List Part := [(8, 1, 3), (10, 1, 0x0F), (12, 3, 255)]
/-- SE_KD_LOSS (R200). -/
def shKd : List Part := [(8, 1, 7), (9, 1, 255), (10, 1, 3), (12, 2, 255), (16, 36, 255)]

/-- SCL_QUANT and SCL_AMAX (R226, R228). -/
def shSclQuant : List Part := [(8, 1, 0x7F), (9, 25, 255)]
def shSclAmax : List Part := [(8, 1, 7), (9, 8, 255), (20, 8, 255), (30, 2, 255)]

/-- LENS_TOPK, LENS_COMPACT and LENS_SORT (R254, R256, R257). -/
def shTopk : List Part := [(8, 1, 7), (9, 43, 255)]
def shCompact : List Part := [(8, 1, 15), (9, 47, 255)]
def shSort : List Part := [(8, 1, 2), (9, 10, 255), (20, 36, 255)]

/-- PRISM_ROWS, PRISM_TAP and PRISM_BLOCK (R291–R293). -/
def shRows : List Part := [(8, 1, 1), (9, 1, 1), (10, 14, 255)]
def shTap : List Part := [(8, 1, 255), (10, 4, 255), (16, 6, 255), (24, 8, 255)]
def shBlock : List Part := [(8, 2, 255), (16, 16, 255)]

/-- The Update Unit's bodies (R319). -/
def shExchange : List Part := [(8, 1, 1), (9, 1, 255), (12, 36, 255)]
def shCommit : List Part := [(12, 6, 255)]
def shApply : List Part := [(8, 1, 1), (12, 44, 255)]
def shUpdGather : List Part := [(12, 20, 255)]
def shMark : List Part := [(8, 1, 255), (9, 1, 1), (12, 4, 255)]
/-- BEAM_COLL (R444). -/
def shColl : List Part := [(8, 1, 7), (9, 1, 3), (10, 1, 255), (12, 24, 255)]

/-- The Network Port's bodies (R494, R497). -/
def shBind : List Part := [(8, 8, 255)]
def shUnbind : List Part := [(8, 2, 255)]
def shNpWrite : List Part := [(8, 2, 255), (10, 1, 1), (12, 28, 255)]
def shNpRead : List Part := [(8, 2, 255), (12, 24, 255)]

/-- Operand formats that the arrays do not pair (R138, R185): only bf16 with bf16, and E4M3 or E5M2 with either. -/
def directPair (a b : Nat) : Bool :=
  !((a == 1 && b == 1) || ((a == 3 || a == 4) && (b == 3 || b == 4)))

/-- Whether a Stream Unit instance is a DMA Stream Unit (R326): 48 to 63. -/
def isDma (inst : Nat) : Bool := decide (48 ≤ inst)
/-- The defined bits of the body of an opcode on a unit, or `none` where the unit does not accept the opcode. -/
def shape (ty inst op : Nat) : Option (List Part) :=
  if op = 0 then some []
  else if op = 1 then some shFence
  else if ty = Config.tTeacher then
    (match op with
      | 0x10 => some shLut | 0x11 => some shDirect | 0x12 => some shPane | 0x13 => some shThin
      | 0x20 => some shVector | _ => none)
  else if ty = Config.tStudent then
    (match op with
      | 0x10 => some shMatmul | 0x12 => some shSePane | 0x20 => some shVector | 0x21 => some shKd | _ => none)
  else if ty = Config.tStream then
    (match op with
      | 0x10 => some shCopy | 0x11 => some shFill | 0x12 => some shGather | 0x13 => some shTranspose
      | 0x40 => if isDma inst then some shStageFill else none
      | _ => none)
  else if ty = Config.tPrism then
    (match op with | 0x10 => some shRows | 0x11 => some shTap | 0x12 => some shBlock | _ => none)
  else if ty = Config.tLens then
    (match op with | 0x10 => some shTopk | 0x11 => some shCompact | 0x12 => some shSort | _ => none)
  else if ty = Config.tScaler then
    (match op with | 0x10 => some shSclQuant | 0x11 => some shSclAmax | _ => none)
  else if ty = Config.tUpdate then
    (match op with
      | 0x10 => some shExchange | 0x11 => some shCommit | 0x12 => some shApply | 0x13 => some shUpdGather | 0x14 => some shMark
      | _ => none)
  else if ty = Config.tEngine then (if op = 0x10 then some shColl else none)
  else if ty = Config.tNet then
    (match op with | 0x10 => some shBind | 0x11 => some shUnbind | 0x12 => some shNpWrite | 0x13 => some shNpRead | _ => none)
  else none

/-- FMT fields that name a format the opcode does not accept (R103). -/
def badFmt (ty op : Nat) (d : Bytes) : Bool :=
  let code := bits (field d 9 1) 0 4
  let out := bits (field d 10 1) 4 4
  let act := bits (field d 11 1) 0 4
  if ty = Config.tTeacher then
    (match op with
      | 0x10 => code < 8 || code > 10 || out > 1 || act > 1
      | 0x11 => directPair (bits (field d 9 1) 0 4) (bits (field d 9 1) 4 4) || out > 1
      | 0x13 => code < 8 || code > 10 || out > 1 || act > 1
      | _ => false)
  else if ty = Config.tStudent then
    (match op with
      | 0x10 => directPair (bits (field d 9 1) 0 4) (bits (field d 9 1) 4 4) || out > 2 || bits (field d 11 1) 4 4 > 2
      | 0x21 => bits (field d 9 1) 0 4 > 1 || bits (field d 9 1) 4 4 > 2
      | _ => false)
  else if ty = Config.tLens then
    decide (2 ≤ op) && !(bits (field d 9 1) 0 4 < 3 || bits (field d 9 1) 0 4 == 5 || bits (field d 9 1) 0 4 == 6)
  else if ty = Config.tScaler then
    decide (2 ≤ op) && (decide (2 < bits (field d 9 1) 0 4) || decide (bits (field d 9 1) 4 4 < 3) || decide (4 < bits (field d 9 1) 4 4))
  else if ty = Config.tEngine then
    let elem := bits (field d 10 1) 0 4
    let partial_ := bits (field d 10 1) 4 4
    op == 0x10 && (!(elem ≤ 2 || elem == 5 || elem == 6) || !(partial_ == elem || partial_ == 0))
  else false

/-- Why a descriptor stops its ring, if it does (R89, R103): the code of its completion record. The manual gives several faults no order,
and a NOP no BODY: all of it is reserved here. [DESIGN CHOICE, log 79] -/
def refusal (ty inst : Nat) (d : Bytes) : Option Nat :=
  match shape ty inst (dOp d) with
  | none => some 0x100
  | some ps =>
    if field d 4 1 ≠ 1 then some 0x108
    else if field d 1 1 ≥ 8 || field d 5 3 ≠ 0 || bodyReserved ps d then some 0x102
    else if badFmt ty (dOp d) d then some 0x108
    else none

/-! ### REASON codes and error bits of the units -/

/-- REASON CONTEXT_RESET, FOLLOWS and ARGUMENT of a unit type (R156, R208, R233, R261, R294, R320, R348, R444, R498). -/
def reasonReset (ty : Nat) : Nat :=
  if ty = Config.tLens || ty = Config.tPrism || ty = Config.tUpdate then 3
  else if ty = Config.tNet then 5 else if ty = Config.tEngine then 4 else 6
def reasonFollows (ty : Nat) : Nat :=
  if ty = Config.tLens || ty = Config.tPrism || ty = Config.tUpdate then 4
  else if ty = Config.tNet then 6 else if ty = Config.tEngine then 5 else 7
def reasonArgument (ty : Nat) : Nat :=
  if ty = Config.tLens || ty = Config.tPrism || ty = Config.tUpdate then 5
  else if ty = Config.tNet then 7 else if ty = Config.tEngine then 5 else 8

/-- Bit of the error register that a stopped ring sets. -/
def stopBit (ty : Nat) : Nat :=
  if ty = Config.tTeacher || ty = Config.tStudent || ty = Config.tNet then 5
  else if ty = Config.tLens || ty = Config.tUpdate || ty = Config.tEngine then 2 else 4
/-- Bit of the error register that a failed check sets, where the unit has one. -/
def argBit (ty : Nat) : Option Nat :=
  if ty = Config.tStream then some 5
  else if ty = Config.tLens || ty = Config.tUpdate || ty = Config.tEngine then some 3
  else if ty = Config.tPrism || ty = Config.tNet then some 6 else none

end Sys2Proof.Machine
end

