-- ==== Sys2Proof/Machine/Descriptor.lean ====
section
/-! DEFINITION. Sys2Proof/Machine/Descriptor.lean: how a unit takes descriptors from a ring: fetching, checking,
consuming, tasks, completion records, stops, NOP and FENCE (R86–R89, R146, R332–R340). -/

namespace Sys2Proof.Machine
open Sys2Proof

/-! ### Staging releases (R152) -/

/-- Byte of a teacher pass that holds its STAGE field, if the opcode has one (R148, R150, R151). -/
def stageByte (d : Bytes) : Option Nat :=
  match dOp d with
  | 0x10 => some (field d 42 1) | 0x12 => some (field d 15 1) | 0x13 => some (field d 44 1) | _ => none

/-- MODE of a pane pass (R150): direct. -/
def paneDirect (d : Bytes) : Bool := bitOf (field d 9 1) 0
/-- The half that a completing descriptor releases (R152). -/
def releaseHalf (ty : Nat) (d : Bytes) : Option Nat :=
  if ty = Config.tTeacher then
    match stageByte d with
    | some b => if bitOf b 2 then some (b % 2) else none
    | none => none
  else none

/-- Change one staging half of a core. -/
def Core.setStage (c : Core) (h : Nat) (f : Stage → Stage) : Core :=
  if h = 0 then { c with stage0 := f c.stage0 } else { c with stage1 := f c.stage1 }
def Core.stage (c : Core) (h : Nat) : Stage := if h = 0 then c.stage0 else c.stage1

/-- STAGE and STAGE_SEQ of an opcode (R148, R150, R151): HALF, WAIT, sequence. A pane pass in direct mode has no LUT quadrant for its STAGE
to apply to: here it does not wait, and its RELEASE counts as any other (R152). [DESIGN CHOICE, log 83] -/
def stageOf (d : Bytes) : Option (Nat × Bool × Nat) :=
  match dOp d with
  | 0x10 => some (field d 42 1 % 2, bitOf (field d 42 1) 1, field d 44 2)
  | 0x12 => if paneDirect d then none else some (field d 15 1 % 2, bitOf (field d 15 1) 1, field d 16 2)
  | 0x13 => some (field d 44 1 % 2, bitOf (field d 44 1) 1, field d 46 2)
  | _ => none

/-- The descriptor does not wait for a fill of its staging half (R152). -/
def State.stageReady (s : State) (core : Nat) (d : Bytes) : Bool :=
  match stageOf d with
  | some (h, w, q) => !w || decide ((((s.core core).stage h).fillSeq + 65536 - q) % 65536 < 0x8000)
  | none => true

/-- A completing descriptor advances FREE_SEQ of the half it releases. -/
def release (ty inst : Nat) (d : Bytes) (s : State) : State :=
  match releaseHalf ty d with
  | some h => s.updCore inst fun c => c.setStage h fun g => { g with freeSeq := (g.freeSeq + 1) % 65536 }
  | none => s

/-! ### Completion records (R88, R335) -/

/-- The 64 bytes of a completion record. [DEDUCED, log 45; DESIGN CHOICE, log 46] -/
def complRecord (ring tag index status op lb tick : Nat) (detail : Bytes) (user : Nat) : Bytes :=
  leBytes 2 ring ++ leBytes 2 tag ++ leBytes 4 index ++ leBytes 2 status ++ leBytes 1 op ++ zeros 5 ++ leBytes 8 lb
    ++ leBytes 8 tick ++ fitTo 24 detail ++ leBytes 8 user

/-- Write a record into the completion ring of ring `j`, if it has one; the message of vector `v` follows it (R335). [DEDUCED, log 45] -/
def putRecord (j : Nat) (rec : Bytes) (v : Nat) (s : State) : State :=
  let r := s.ring j
  if r.completion = 0xFFFF then sendMsix v s else produce r.completion (ukey r.unitType r.unitInst) rec v s

/-- A unit has room to hold one more record for the completion ring of a ring (R334). -/
def State.recRoom (s : State) (r : Ring) : Bool :=
  r.completion == 0xFFFF || decide (s.heldBy r.completion (ukey r.unitType r.unitInst) < Config.heldRecords)

/-- MODE or OP byte of a completion record (R156, R208, R294, R320, R444, R498); 0 where a unit has none. -/
def modeByte (ty : Nat) (d : Bytes) : Nat :=
  let op := dOp d
  if ty = Config.tTeacher then
    (match op with | 0x10 => 0 | 0x11 => 1 | 0x12 => 2 | 0x13 => 3 | 0x20 => 4 | _ => 255)
  else if ty = Config.tStudent then
    (match op with
      | 0x10 => if field d 9 1 % 16 = 1 then 0 else 1
      | 0x12 => 2 | 0x20 => 4 | 0x21 => 5 | _ => 255)
  else if ty = Config.tLens then (match op with | 0x10 => 0 | 0x11 => 1 | 0x12 => 2 | _ => 255)
  else if ty = Config.tPrism then
    (match op with | 0x11 => 1 | 0x12 => if field d 8 1 = 0 then 2 else 3 | _ => 0)
  else if ty = Config.tUpdate || ty = Config.tNet then (if 0x10 ≤ op ∧ op < 0x20 then op - 0x10 else 0)
  else if ty = Config.tEngine && op = 0x10 then field d 8 1 % 8 else 0

/-- A REASON as the unit's own table numbers it: a fill has its own codes for CONTEXT_RESET and ARGUMENT, and none for FOLLOWS (R178, R348).
[DEDUCED, log 87] -/
def unitReason (ty : Nat) (d : Bytes) (reason : Nat) : Nat :=
  if ty = Config.tStream && dOp d = 0x40 then (if reason = 6 then 2 else if reason = 8 then 4 else reason) else reason
/-- UNIT_DETAIL with only a REASON and the MODE of the descriptor; that of a collective names no lost rank (R444). -/
def reasonDetail (ty : Nat) (d : Bytes) (reason : Nat) : Bytes :=
  leBytes 1 (unitReason ty d reason) ++ leBytes 1 (modeByte ty d) ++ (if ty = Config.tEngine then leBytes 2 0xFFFF else zeros 2) ++ zeros 20

/-- SCL_LAST of a task that completes with this UNIT_DETAIL (R233, R234). -/
def sclLast (detail : Bytes) : Nat :=
  field detail 4 4 + 2 ^ 32 * field detail 2 1 + 2 ^ 40 * field detail 3 1 + 2 ^ 48 * field detail 1 1 + 2 ^ 56 * field detail 0 1

/-- What a unit keeps of the last task to complete: SCL_LAST (R234), and REASON and ROUNDS of LENS_LAST (R262). -/
def noteLast (ty inst : Nat) (d detail : Bytes) (s : State) : State :=
  if dOp d < 0x10 then s
  else if ty = Config.tScaler then s.updUnit ty inst fun u => { u with last := sclLast detail }
  else if ty = Config.tLens then
    s.updUnit ty inst fun u => { u with last := u.last % 2 ^ 40 + 2 ^ 40 * field detail 0 1 + 2 ^ 48 * field detail 16 2 }
  else s

/-- A completed UPD_APPLY or UPD_GATHER of the attempt counts against the open window of its Update Unit (R313). -/
def noteApplied (ty inst : Nat) (d : Bytes) (s : State) : State :=
  let x := s.upd inst
  if ty = Config.tUpdate && (dOp d == 0x12 || dOp d == 0x13) && x.window && field d 12 4 == x.attempt % 2 ^ 32 then
    s.setUpd inst { x with applied := x.applied + 1 }
  else s

/-- A descriptor completes: its record if CR is set or it is forced, the count, the message of IRQ. -/
def recordDesc (j ix : Nat) (d : Bytes) (status lb : Nat) (detail : Bytes) (force : Bool) (s : State) : State :=
  let r := s.ring j
  let s := noteApplied r.unitType r.unitInst d (noteLast r.unitType r.unitInst d detail s)
  let v := if dIrq d then r.vector else 0xFFFF
  let s := if dCr d || force then putRecord j (complRecord j (dTag d) ix status (dOp d) lb s.now detail (dUser d)) v s else sendMsix v s
  s.updRing j fun r => { r with done := (r.done + 1) % 2 ^ 32 }

/-- Counters of cycles that the work of a descriptor moves (R158, R210, R235, R263, R298, R325, R351, R452). -/
def clockedBy (ty : Nat) (d : Bytes) : List Nat :=
  let op := dOp d
  if ty = Config.tTeacher then
    (if op < 0x10 then [] else if op = 0x20 then [11]
     else [0, 7] ++ (match stageByte d with | some b => if bitOf b 1 then [6] else [] | none => []))
  else if ty = Config.tStudent then (if op < 0x10 then [] else if 0x20 ≤ op then [7, 8] else [0, 4])
  else if ty = Config.tStream then (if op = 0 then [] else if op = 1 then [7] else [3])
  else if op < 0x10 then []
  else if ty = Config.tScaler then [0, 10] else if ty = Config.tLens then [0, 8] else if ty = Config.tPrism then [5]
  else if ty = Config.tUpdate then [0, 12] else if ty = Config.tEngine then [6] else []

/-- HEAD moves past the descriptor at it (R332). -/
def consume (j : Nat) (s : State) : State :=
  s.updRing j fun r => { r with head := r.nextIx r.head, fetched := r.fetched.drop 1 }

/-- State that a task of this ring holds in its unit is discarded (R86, R147, R154). -/
def dropHeld (j : Nat) (s : State) : State :=
  let r := s.ring j
  if r.unitType = Config.tTeacher || r.unitType = Config.tStudent then
    let c := if r.unitType = Config.tTeacher then r.unitInst else 32 + r.unitInst
    s.updCore c fun x => { x with
      chain := (match x.chain with | some h => if h.ring = j then none else some h | none => none) }
  else if r.unitType = Config.tLens then { s with lens := SMap.set LensTask.init s.lens j LensTask.init }
  else s

/-- The ring's task goes on with a linked descriptor, or has ended; `fail` where what is left of it follows a failure. -/
def Ring.goOn (r : Ring) (more fail : Bool) : Ring :=
  { r with inTask := more, taskFail := more && fail, classes := if more then r.classes else 0 }

/-- A ring stops (R333): state, code and index, and the unit's error bit. A DRAINING ring leaves that state only to DRAINED: its task has
ended. -/
def stopRing (j ix code : Nat) (s : State) : State :=
  let r := s.ring j
  let s := dropHeld j s
  let s := s.updRing j fun r => { r with st := if r.st = 3 then 3 else 2, stopCode := code, stopIndex := ix }.goOn false false
  setErr r.unitType r.unitInst (stopBit r.unitType) j ix 0 s

/-- A descriptor is refused (R89, R103): it is consumed, its record is written whatever CR holds, and the ring stops. -/
def refuse (j ix : Nat) (d : Bytes) (code : Nat) (s : State) : State :=
  let r := s.ring j
  stopRing j ix code (recordDesc j ix d code 0 (reasonDetail r.unitType d (reasonArgument r.unitType)) true (consume j s))

/-- A FENCE with LINK, or after a descriptor with LINK, is an argument error: its record is written whatever CR holds, and it ends the task
(R338). -/
def fenceArg (j ix : Nat) (d : Bytes) (status : Nat) (s : State) : State :=
  let r := s.ring j
  let s := recordDesc j ix d status 0 (reasonDetail r.unitType d (reasonArgument r.unitType)) true (dropHeld j (consume j s))
  let s := match argBit r.unitType with
    | some b => setErr r.unitType r.unitInst b j ix (reasonArgument r.unitType) s
    | none => s
  s.updRing j fun r => r.goOn false false

/-- What a unit does at the head of a ring without starting a task: complete the rest of a failed task with REASON
FOLLOWS (R146), and stop on a descriptor or a slot that R89 or R103 refuses. Where this needs a record and the unit holds all that it may,
it waits (R334). -/
def settle (j : Nat) : Nat → State → State
  | 0, s => s
  | n + 1, s =>
    let r := s.ring j
    if r.cur.isSome || (s.ctx r.ctx).st = 2 || !(r.st = 1 || (r.st = 3 && r.inTask)) then s
    else match r.fetched with
      | (ix, none) :: _ =>
        if !s.recRoom r then s
        else
        let s := consume j s
        let s := putRecord j (complRecord j 0 ix 0x113 0 0 s.now (zeros 24) 0) 0xFFFF s
        let s := stopRing j ix 0x113 s
        raise { code := if r.space = 0 then 3 else 0xD, status := 0x113, flags := 1, ty := r.unitType
                inst := r.unitInst, ctx := r.ctx, ring := j, index := ix, addr := r.slotAddr ix
                space := if r.space = 0 then 1 else 3 } s
      | (ix, some d) :: _ =>
        match refusal r.unitType r.unitInst d with
        | some c => if s.recRoom r then refuse j ix d c s else s
        | none =>
          if r.taskFail && (dCr d || dOp d = 1) && !s.recRoom r then s
          else if r.taskFail && dOp d = 1 then settle j n (fenceArg j ix d 0x108 s)
          else if r.taskFail then
            let s := release r.unitType r.unitInst d (consume j s)
            let s := recordDesc j ix d 0x113 0 (reasonDetail r.unitType d (reasonFollows r.unitType)) false s
            settle j n (s.updRing j fun r => r.goOn (dLink d) true)
          else s
      | [] => s

/-- Copies that a unit can hold. -/
def settleAll (j : Nat) (s : State) : State := settle j (Config.fetchAhead + 1) s

/-- A descriptor fails a check before it has had an effect (R146): its own record, then the rest of its task follows. -/
def failCheck (j ix : Nat) (d : Bytes) (status : Nat) (detail : Bytes) (force : Bool) (s : State) : State :=
  let r := s.ring j
  let s := dropHeld j (release r.unitType r.unitInst d (consume j s))
  let s := match argBit r.unitType with
    | some b => setErr r.unitType r.unitInst b j ix (field detail 0 1) s
    | none => s
  let s := recordDesc j ix d status 0 detail force s
  settleAll j (s.updRing j fun r => r.goOn (dLink d) true)

/-- The usual failed check: REASON ARGUMENT. -/
def failArg (j ix : Nat) (d : Bytes) (status : Nat) (s : State) : State :=
  let r := s.ring j
  failCheck j ix d status (reasonDetail r.unitType d (reasonArgument r.unitType)) false s

/-- Class of an opcode on a unit: cores run one array-class and one vector-class task at a time (R145). -/
def descClass (ty op : Nat) : Nat :=
  if op < 2 then 0
  else if (ty = Config.tTeacher || ty = Config.tStudent) && 0x20 ≤ op then 2 else 1

/-- A unit may start a task of a ring: it neither holds nor is out of service (R93, R570), it does not hold all the records of the
completion ring that it may (R334), and the ring's context is not being reset (R567). -/
def State.startable (s : State) (r : Ring) : Bool :=
  !(s.unit r.unitType r.unitInst).hold && !(s.unit r.unitType r.unitInst).oos && (s.ctx r.ctx).st != 2 && s.recRoom r

/-- A descriptor that goes on with a task may have its record: with CR, or as a FENCE or an update command that fails (R319, R338). -/
def mayRecord (ty : Nat) (d : Bytes) : Bool := dCr d || dOp d == 1 || ty == Config.tUpdate

/-- The descriptor at the head of a ring, when the unit may take it up as one of opcode `op`. -/
def State.headOf (s : State) (j op : Nat) : Option (Nat × Bytes) :=
  let r := s.ring j
  if r.kind ≠ 0 || r.unitType = 0 || r.cur.isSome || s.isFatal || (s.ctx r.ctx).st = 2 || !(r.st = 1 || (r.st = 3 && r.inTask)) || r.taskFail then none
  else if r.unitType == Config.tScaler && dOp (((r.fetched.head?).bind (·.2)).getD []) ≥ 2 && (s.unit r.unitType r.unitInst).hold then none
  else if !r.inTask && !s.startable r then none
  else match r.fetched with
    | (ix, some d) :: _ =>
      if dOp d = op && (refusal r.unitType r.unitInst d).isNone && (!mayRecord r.unitType d || s.recRoom r) then some (ix, d) else none
    | _ => none

/-- A descriptor that has passed its checks is consumed and is now the ring's descriptor in progress. -/
def begin (j ix : Nat) (d : Bytes) (s : State) : State :=
  (consume j s).updRing j fun r => { r with
    inTask := r.inTask || dLink d
    classes := Nat.lor r.classes (2 ^ descClass r.unitType (dOp d))
    cur := some { index := ix, desc := d, phase := 0, status := 0, lb := 0, detail := zeros 24, force := false
                  out := [], todo := [], ackBytes := 0, ackSegs := 0, start := s.now, last := s.now, chk := s.chkOf (s.ring j).ctx, fault := 0
                  fstat := 0, faddr := 0, rows := 0 } }

/-- The work of the descriptor in progress has ended: TASK_COMPLETE will write its record. [DEDUCED, log 45] -/
def finish (j status lb : Nat) (detail : Bytes) (s : State) : State :=
  let r := s.ring j
  match r.cur with
  | some c =>
    s.setRing j { r with cur := some { c with phase := 1, status, lb, detail, out := [], todo := [] } }
  | none => s

/-- The record of the descriptor in progress is written and the ring goes on (R336). -/
def completeCur (j : Nat) (s : State) : State :=
  let r := s.ring j
  match r.cur with
  | some c =>
    let s := release r.unitType r.unitInst c.desc (if c.status = 0 then s else dropHeld j s)
    let s := recordDesc j c.index c.desc c.status c.lb c.detail c.force s
    let s := spent r.unitType r.unitInst (clockedBy r.unitType c.desc) s
    settleAll j (s.updRing j fun r => { r with cur := none }.goOn (dLink c.desc) (c.status != 0))
  | none => s

/-! ### Arbitration among the rings of a unit (R145) -/

/-- A ring has a task at work that has begun a descriptor of this class. -/
def Ring.busyIn (r : Ring) (cls : Nat) : Bool := (r.cur.isSome || r.inTask) && bitOf r.classes cls

/-- A ring that the unit may serve has at its head the first descriptor of this class of a task; `ready` is the unit's own condition on
the descriptor. -/
def State.offers (s : State) (r : Ring) (cls : Nat) (ready : Bytes → Bool) : Bool :=
  r.cur.isNone && !r.taskFail && !r.busyIn cls && (r.inTask || (r.st == 1 && s.startable r)) &&
  (match r.fetched with
    | (_, some d) :: _ => descClass r.unitType (dOp d) == cls && (refusal r.unitType r.unitInst d).isNone && ready d
    | _ => false)

/-- How far a slot comes after the one last served, round the slots of a unit; `rr` is that slot plus one, and 0 while none was served, so
that after reset slot 0 comes first: the manual names no first slot. [DESIGN CHOICE, log 10] -/
def slotDist (rr slot : Nat) : Nat := (slot + 64 - rr) % 64

/-- The unit may start or go on with the descriptor at the head of ring `j`: its task has the class already, or no other ring has a task of
the class at work and among the rings that offer one the unit's arbitration takes this one (R145). -/
def State.mayRun (s : State) (j cls : Nat) (lowest : Bool) (ready : Bytes → Bool) : Bool :=
  let r := s.ring j
  let others := (s.unitRings r.unitType r.unitInst).filter (fun x => x.1 != j)
  let rr := SMap.get 0 (s.unit r.unitType r.unitInst).rr cls
  r.busyIn cls ||
  (others.all (fun x => !x.2.busyIn cls) &&
   others.all (fun x => !s.offers x.2 cls ready ||
     (if lowest then decide (r.slot < x.2.slot) else decide (slotDist rr r.slot < slotDist rr x.2.slot))))

/-- A unit that runs a task on each of its rings may take up the descriptor at the head of ring `j` next (R329, R444). -/
def State.mayTake (s : State) (j : Nat) (lowest : Bool) : Bool :=
  let r := s.ring j
  let rr := SMap.get 0 (s.unit r.unitType r.unitInst).rr 1
  r.busyIn 1 || ((s.unitRings r.unitType r.unitInst).filter (fun x => x.1 != j)).all fun x =>
    !s.offers x.2 1 (fun _ => true) || (if lowest then decide (r.slot < x.2.slot) else decide (slotDist rr r.slot < slotDist rr x.2.slot))

/-- Class of what a ring has in progress, or else at its head. -/
def Ring.classNow (r : Ring) : Nat :=
  match r.cur, r.fetched with
  | some c, _ => descClass r.unitType (dOp c.desc)
  | none, (_, some d) :: _ => descClass r.unitType (dOp d)
  | none, _ => 1

/-- Remember the slot served last. -/
def served (j : Nat) (s : State) : State :=
  let r := s.ring j
  s.updUnit r.unitType r.unitInst fun u => { u with rr := SMap.set 0 u.rr r.classNow (r.slot + 1) }

/-! ### Fetching (R332) -/

/-- Copy descriptors of a ring into its unit's queue, up to eight ahead of HEAD and not past TAIL. -/
def fetchMore (j : Nat) : Nat → State → State
  | 0, s => s
  | n + 1, s =>
    let r := s.ring j
    let ix := (r.head + r.fetched.length) % (2 * r.slots)
    if r.fetched.length ≥ Config.fetchAhead || r.fetched.length ≥ r.filled then s
    else
      let a := r.slotAddr ix
      let d := if s.spaceBad r.space a 64 then none else some (s.spaceRead r.space a 64)
      let s := if r.space = 0 then hbmTaken a 64 s else s
      fetchMore j n (s.setRing j { r with fetched := r.fetched ++ [(ix, d)] })

/-! ### FENCE (R338–R340) -/

/-- REASON POISON of a unit whose table has one, else 0. -/
def reasonPoison (ty : Nat) : Nat :=
  if ty = Config.tStream || ty = Config.tNet then 1 else if ty = Config.tStudent then 3
  else if ty = Config.tScaler then 5 else if ty = Config.tLens || ty = Config.tUpdate then 2
  else if ty = Config.tEngine then 6 else 0
/-- REASON HANDLE of a unit whose table has one, else 0. -/
def reasonHandle (ty : Nat) : Nat := if ty = Config.tStream then 5 else 0

/-- A ring number names a buffer-handle ring of a context. -/
def State.handleRing (s : State) (c h : Nat) : Bool := (s.ring h).st != 0 && (s.ring h).kind == 1 && (s.ring h).ctx == c

/-- The check of a FENCE: argument error, bad handle, or none. [DEDUCED, log 73] -/
def fenceCheck (j : Nat) (d : Bytes) (s : State) : Option Nat :=
  let r := s.ring j
  let hb := field d 9 1
  let tr := field d 10 2
  if dLink d || r.inTask then some 0x108
  else if bitOf hb 0 && (!s.handleRing r.ctx tr
      || !((s.ring tr).unitType == 0 || ((s.ring tr).unitType == r.unitType && (s.ring tr).unitInst == r.unitInst))) then
    some 0x107
  else if bitOf hb 1 && !s.handleRing r.ctx (field d 12 2) then some 0x107
  else none

/-- A FENCE waits in step 3 or 4; the tick at which it began to wait is kept. -/
def fenceWait (j k : Nat) (s : State) : State :=
  s.updRing j fun r => { r with fence := k, fenceAt := if r.fence = 0 then s.now else r.fenceAt }

/-- The FENCE at HEAD completes: it is consumed only now, and a failed one writes its record whatever CR holds. -/
def fenceEnd (j ix : Nat) (d : Bytes) (status reason : Nat) (s : State) : State :=
  let r := s.ring j
  let s := consume j ((handleWait j s).updRing j fun r => { r with fence := 0 })
  let s := spent r.unitType r.unitInst (clockedBy r.unitType d) s
  settleAll j (recordDesc j ix d status 0 (reasonDetail r.unitType d reason) (status != 0) s)

/-- Step 4 and 5 of a FENCE: post the handle when there is room, else wait. -/
def fencePost (j ix : Nat) (d : Bytes) (s : State) : State :=
  let p := field d 12 2
  if bitOf (field d 9 1) 1 then
    if (s.ring p).full then fenceWait j 2 s
    else fenceEnd j ix d 0 0 (ringPut p ((d.drop 16).take 16) s)
  else fenceEnd j ix d 0 0 s

/-- Step 3 of a FENCE: take a handle when one is there, else wait. [DEDUCED, log 44, 73] -/
def fenceTake (j ix : Nat) (d : Bytes) (s : State) : State :=
  let r := s.ring j
  let hb := field d 9 1
  if bitOf hb 0 then
    let t := field d 10 2
    let h := s.ring t
    if h.filled = 0 then fenceWait j 1 s
    else
      let a := h.slotAddr h.head
      let bad := s.spaceBad h.space a 16
      let seq := field (s.spaceRead h.space a 16) 12 2
      let s := s.setRing t { h with head := h.nextIx h.head, done := (h.done + 1) % 2 ^ 32 }
      if bad then
        raise { code := if h.space = 0 then 3 else 0xD, status := 0x113, flags := 1, ty := r.unitType
                inst := r.unitInst, ctx := r.ctx, ring := t, index := h.head, addr := a
                space := if h.space = 0 then 1 else 3 }
          (fenceEnd j ix d 0x113 (reasonPoison r.unitType) s)
      else if bitOf hb 2 && seq ≠ field d 14 2 then fenceEnd j ix d 0x10C (reasonHandle r.unitType) s
      else fencePost j ix d s
  else fencePost j ix d s

/-- FENCE (R338): the checks, then its steps as far as they go. Every earlier task of the ring is complete, and host
writes of the model are performed when they leave, so steps 1 and 2 hold here. [DEDUCED, log 44, 73] -/
def execFence (j : Nat) (s : State) : Host.Outcome State Fault Refusal :=
  match s.headOf j 1 with
  | none => .next s
  | some (ix, d) =>
    if (s.ring j).fence ≠ 0 then .next s
    else match fenceCheck j d s with
      | some st => .next (settleAll j (fenceArg j ix d st s))
      | none => .next (fenceTake j ix d s)

/-- FENCE_RESUME (R338): a FENCE that waits finds its handle or its free slot. -/
def execFenceResume (j : Nat) (s : State) : Host.Outcome State Fault Refusal :=
  match s.headOf j 1 with
  | none => .next s
  | some (ix, d) =>
    match (s.ring j).fence with
    | 0 => .next s
    | 1 => .next (fenceTake j ix d s)
    | _ => .next (fencePost j ix d s)

end Sys2Proof.Machine
end

