-- ==== Sys2Proof/Machine/Fp.lean ====
section
/-! DEFINITION. Sys2Proof/Machine/Fp.lean: number formats, rounding, fp32 arithmetic, conversions, codes and scales
("Number formats and rounding"). Values are held as bit patterns. -/

namespace Sys2Proof.Machine
open Sys2Proof

/-- The exact value of a pattern: `fin neg m e` is ±m · 2^e. -/
inductive FV where
  | nan
  | inf (neg : Bool)
  | fin (neg : Bool) (m : Nat) (e : Int)
deriving DecidableEq, Repr

/-- A floating-point format (R100): exponent and mantissa bits, bias, and whether it is E4M3. -/
structure Fmt where
  ebits : Nat
  mbits : Nat
  bias  : Nat
  e4m3  : Bool
deriving DecidableEq, Repr

def fmt32 : Fmt := { ebits := 8, mbits := 23, bias := 127, e4m3 := false }
def fmtBf16 : Fmt := { ebits := 8, mbits := 7, bias := 127, e4m3 := false }
def fmtFp16 : Fmt := { ebits := 5, mbits := 10, bias := 15, e4m3 := false }
def fmtE4m3 : Fmt := { ebits := 4, mbits := 3, bias := 7, e4m3 := true }
def fmtE5m2 : Fmt := { ebits := 5, mbits := 2, bias := 15, e4m3 := false }

/-- Floating formats by FMT code (R102). -/
def fmtOf : Nat → Option Fmt
  | 0 => some fmt32 | 1 => some fmtBf16 | 2 => some fmtFp16 | 3 => some fmtE4m3 | 4 => some fmtE5m2 | _ => none

/-- Bytes of an element of FMT code 0 to 6. -/
def fmtBytes : Nat → Nat
  | 0 => 4 | 1 => 2 | 2 => 2 | 3 => 1 | 4 => 1 | 5 => 4 | 6 => 4 | _ => 1

/-- The pattern of +∞ (for E4M3, one past the largest finite pattern). -/
def Fmt.infBits (f : Fmt) : Nat := if f.e4m3 then 0x7F else (2 ^ f.ebits - 1) * 2 ^ f.mbits
/-- The sign bit. -/
def Fmt.signBit (f : Fmt) : Nat := 2 ^ (f.ebits + f.mbits)
/-- The canonical NaN (R101). -/
def Fmt.nanBits (f : Fmt) : Nat := if f.e4m3 then 0x7F else f.infBits + 2 ^ (f.mbits - 1)

/-- The value that a pattern stands for (R100). -/
def Fmt.value (f : Fmt) (b : Nat) : FV :=
  let neg := bitOf b (f.ebits + f.mbits)
  let mag := b % f.signBit
  let e := mag / 2 ^ f.mbits
  let m := mag % 2 ^ f.mbits
  if f.e4m3 then
    if mag = 0x7F then .nan
    else if e = 0 then .fin neg m (1 - (f.bias : Int) - f.mbits)
    else .fin neg (m + 2 ^ f.mbits) ((e : Int) - f.bias - f.mbits)
  else if e = 2 ^ f.ebits - 1 then (if m = 0 then .inf neg else .nan)
  else if e = 0 then .fin neg m (1 - (f.bias : Int) - f.mbits)
  else .fin neg (m + 2 ^ f.mbits) ((e : Int) - f.bias - f.mbits)

/-- `m` shifted right by `k`, rounded to nearest; a tie goes away from zero (R105) or to even (R104). -/
def shiftRound (away : Bool) (m k : Nat) : Nat :=
  let q := m / 2 ^ k
  let r := m % 2 ^ k
  if k = 0 then m
  else if 2 * r > 2 ^ k || (2 * r = 2 ^ k && (away || q % 2 = 1)) then q + 1 else q

/-- Magnitude pattern of m · 2^e rounded to the format, before overflow handling; `m` is not 0. -/
def Fmt.roundMag (f : Fmt) (away : Bool) (m : Nat) (e : Int) : Nat :=
  let qmin : Int := 1 - (f.bias : Int) - f.mbits
  let q : Int := max ((Nat.log2 m : Int) + e - f.mbits) qmin
  let n := if q ≤ e then m * 2 ^ (e - q).toNat else shiftRound away m (q - e).toNat
  (q - qmin).toNat * 2 ^ f.mbits + n

/-- The pattern of a value under a rounding (R104, R105) and the overflow rules of R101 and R106; `sat` selects the
saturation of conversions to fp8. -/
def Fmt.encode (f : Fmt) (away sat : Bool) : FV → Nat
  | .nan => f.nanBits
  | .inf neg => if f.e4m3 then f.nanBits else f.infBits + (if neg then f.signBit else 0)
  | .fin neg m e =>
    let s := if neg then f.signBit else 0
    if m = 0 then s
    else
      let b := f.roundMag away m e
      s + (if b ≥ f.infBits then (if sat then f.infBits - 1 else f.infBits) else b)

/-- An exact value as fp32 under R104. -/
def toF32 (v : FV) : Nat := fmt32.encode false false v
/-- The exact value of an fp32 pattern. -/
def ofF32 (b : Nat) : FV := fmt32.value b

/-- A signed integer times 2^e as a value; a zero carries `zneg` as its sign. -/
def FV.ofInt (i : Int) (e : Int) (zneg : Bool) : FV :=
  if i = 0 then .fin zneg 0 0 else .fin (decide (i < 0)) i.natAbs e

def signedM (neg : Bool) (m : Nat) : Int := if neg then -(m : Int) else m

/-- Exact sum (IEEE: a zero sum of unlike operands is +0). -/
def FV.add : FV → FV → FV
  | .nan, _ => .nan
  | _, .nan => .nan
  | .inf a, .inf b => if a == b then .inf a else .nan
  | .inf a, _ => .inf a
  | _, .inf b => .inf b
  | .fin a m e, .fin b n g =>
    let l := min e g
    let x := signedM a (m * 2 ^ (e - l).toNat) + signedM b (n * 2 ^ (g - l).toNat)
    FV.ofInt x l (a && b)

/-- Exact product. -/
def FV.mul : FV → FV → FV
  | .nan, _ => .nan
  | _, .nan => .nan
  | .inf a, .inf b => .inf (a != b)
  | .inf a, .fin b n _ => if n = 0 then .nan else .inf (a != b)
  | .fin a m _, .inf b => if m = 0 then .nan else .inf (a != b)
  | .fin a m e, .fin b n g => .fin (a != b) (m * n) (e + g)

def FV.neg : FV → FV
  | .nan => .nan
  | .inf a => .inf (!a)
  | .fin a m e => .fin (!a) m e

def fAdd (a b : Nat) : Nat := toF32 (FV.add (ofF32 a) (ofF32 b))
def fSub (a b : Nat) : Nat := toF32 (FV.add (ofF32 a) (FV.neg (ofF32 b)))
def fMul (a b : Nat) : Nat := toF32 (FV.mul (ofF32 a) (ofF32 b))
/-- a × b + c, rounded once. -/
def fFma (a b c : Nat) : Nat := toF32 (FV.add (FV.mul (ofF32 a) (ofF32 b)) (ofF32 c))

/-- A quotient n / d · 2^e with a sticky bit, exact enough for one rounding to any format here. -/
def quotV (neg : Bool) (n d : Nat) (e : Int) : FV :=
  let sh := 200 + Nat.log2 d
  let q := n * 2 ^ sh / d
  let r := n * 2 ^ sh % d
  .fin neg (2 * q + (if r = 0 then 0 else 1)) (e - sh - 1)

/-- Exact quotient up to the one rounding that follows it. -/
def FV.div : FV → FV → FV
  | .nan, _ => .nan
  | _, .nan => .nan
  | .inf _, .inf _ => .nan
  | .inf a, .fin b _ _ => .inf (a != b)
  | .fin a _ _, .inf b => .fin (a != b) 0 0
  | .fin a m e, .fin b n g =>
    if n = 0 then (if m = 0 then .nan else .inf (a != b))
    else if m = 0 then .fin (a != b) 0 0 else quotV (a != b) m n (e - g)

def fDiv (a b : Nat) : Nat := toF32 (FV.div (ofF32 a) (ofF32 b))

/-- Integer square root by bits, from bit `i` down. -/
def isqrt (n : Nat) : Nat → Nat → Nat
  | 0, r => r
  | i + 1, r => if (r + 2 ^ i) * (r + 2 ^ i) ≤ n then isqrt n i (r + 2 ^ i) else isqrt n i r

/-- Square root up to the one rounding that follows it. -/
def FV.sqrt : FV → FV
  | .nan => .nan
  | .inf a => if a then .nan else .inf false
  | .fin a m e =>
    if m = 0 then .fin a 0 0
    else if a then .nan
    else
      let odd := e % 2 = 1
      let n := m * 2 ^ (if odd then 81 else 80)
      let r := isqrt n 64 0
      .fin false (2 * r + (if r * r = n then 0 else 1)) ((if odd then e - 1 else e) / 2 - 41)

def fSqrt (a : Nat) : Nat := toF32 (FV.sqrt (ofF32 a))
def fRcp (a : Nat) : Nat := toF32 (FV.div (.fin false 1 0) (ofF32 a))

/-- Signed comparison key: NaN has none; −0 equals +0. -/
def fKey (b : Nat) : Option Int :=
  match ofF32 b with
  | .nan => none
  | _ => some (signedM (decide (b ≥ 2 ^ 31)) (b % 2 ^ 31))

def fLt (a b : Nat) : Bool := match fKey a, fKey b with | some x, some y => decide (x < y) | _, _ => false
def fLe (a b : Nat) : Bool := match fKey a, fKey b with | some x, some y => decide (x ≤ y) | _, _ => false
def fEq (a b : Nat) : Bool := match fKey a, fKey b with | some x, some y => x == y | _, _ => false
def fIsNan (b : Nat) : Bool := (fKey b).isNone
/-- ±∞ or NaN. -/
def fNonFinite (b : Nat) : Bool := decide (0x7F800000 ≤ b % 2 ^ 31)
def nan32 : Nat := 0x7FC00000

/-- max and min of R122: a NaN gives the canonical NaN; max(−0, +0) = +0, min(−0, +0) = −0. -/
def fMax (a b : Nat) : Nat :=
  if fIsNan a || fIsNan b then nan32 else if fLt a b then b else if fLt b a then a else Nat.land a b
def fMin (a b : Nat) : Nat :=
  if fIsNan a || fIsNan b then nan32 else if fLt a b then a else if fLt b a then b else Nat.lor a b

/-- Absolute value and negation change only the sign bit (R122). -/
def fAbs (a : Nat) : Nat := a % 2 ^ 31
def fNeg (a : Nat) : Nat := Nat.xor a (2 ^ 31)

/-- Widen an element of a floating format to fp32: exact (R105). A NaN of a narrower format becomes the canonical NaN; an fp32 element is
not converted and keeps its bits (R107). -/
def widen (fmt b : Nat) : Nat :=
  match fmtOf fmt with
  | some f => if fmt = 0 then b else toF32 (f.value b)
  | none => b

/-- Narrow an fp32 pattern to a floating format (R105, R106). -/
def narrow (fmt b : Nat) : Nat :=
  match fmtOf fmt with
  | some f => if fmt = 0 then b else f.encode true (fmt == 3 || fmt == 4) (ofF32 b)
  | none => b

/-- Narrow an exact value to a floating format with one rounding (R105, R106). -/
def narrowV (fmt : Nat) (v : FV) : Nat :=
  match fmtOf fmt with
  | some f => f.encode true (fmt == 3 || fmt == 4) v
  | none => 0

/-- Nearest integer to ±m · 2^e, ties away from zero. -/
def roundInt (neg : Bool) (m : Nat) (e : Int) : Int :=
  signedM neg (if 0 ≤ e then m * 2 ^ e.toNat else shiftRound true m (-e).toNat)

def clampInt (lo hi x : Int) : Int := max lo (min hi x)

/-- fp32 to int32 as a 32-bit pattern (R105, R106). -/
def f32ToI32 (b : Nat) : Nat :=
  let i : Int := match ofF32 b with
    | .nan => 0
    | .inf n => if n then -(2 ^ 31) else 2 ^ 31 - 1
    | .fin n m e => clampInt (-(2 ^ 31)) (2 ^ 31 - 1) (roundInt n m e)
  (i % 2 ^ 32).toNat

/-- fp32 to uint32: a negative result gives 0 (R122). R106 has no row for uint32: as for int32, a NaN gives 0 and what lies above the range
saturates. [DESIGN CHOICE, log 80] -/
def f32ToU32 (b : Nat) : Nat :=
  match ofF32 b with
  | .nan => 0
  | .inf n => if n then 0 else 2 ^ 32 - 1
  | .fin n m e => (clampInt 0 (2 ^ 32 - 1) (roundInt n m e)).toNat

/-- int32 and uint32 to fp32 (R105: ties away). -/
def i32ToF32 (b : Nat) : Nat := fmt32.encode true false (FV.ofInt (sext 32 b) 0 false)
def u32ToF32 (b : Nat) : Nat := fmt32.encode true false (FV.ofInt b 0 false)

/-- Conversion of VCVT among fp32 (0), int32 (5) and uint32 (6). -/
def convert (src dst b : Nat) : Nat :=
  if src = dst then (if src = 0 && fIsNan b then nan32 else b)
  else if src = 0 then (if dst = 5 then f32ToI32 b else f32ToU32 b)
  else if dst = 0 then (if src = 5 then i32ToF32 b else u32ToF32 b)
  else if src = 5 then (if b ≥ 2 ^ 31 then 0 else b)
  else min b (2 ^ 31 - 1)

/-! ### Fixed functions of the SFU (R122). The manual bounds the error of five of them; the bound is checked against values computed
with 160 bits of fraction. -/

/-- ln 2 and 1 / ln 2 with 160 bits of fraction. -/
def ln2Fix : Nat := 0xb17217f7d1cf79abc9e3b39803f2f6af40f34326
def invLn2Fix : Nat := 0x171547652b82fe1777d0ffda0d23a7d11d6aef551

/-- Terms of the series of e^t, from the k-th on. -/
def expSeries (t : Nat) : Nat → Nat → Nat → Nat → Nat
  | 0, _, _, acc => acc
  | n + 1, k, term, acc => let u := term * t / 2 ^ 160 / k; expSeries t n (k + 1) u (acc + u)
/-- 2^(x / 2^160) as a mantissa and an exponent. -/
def exp2Fix (x : Int) : Nat × Int :=
  (expSeries ((x % 2 ^ 160).toNat * ln2Fix / 2 ^ 160) 45 1 (2 ^ 160) (2 ^ 160), x / 2 ^ 160 - 160)
/-- e^−(x / 2^160). -/
def expNegFix (x : Nat) : Nat × Int := exp2Fix (-((x * invLn2Fix / 2 ^ 160 : Nat) : Int))
/-- Binary digits of log2 of a number in [1, 2). -/
def log2Digits : Nat → Nat → Nat → Nat
  | 0, _, acc => acc
  | k + 1, m, acc =>
    let q := m * m / 2 ^ 160
    if q ≥ 2 ^ 161 then log2Digits k (q / 2) (2 * acc + 1) else log2Digits k q (2 * acc)
/-- log2 of m · 2^e with 130 bits of fraction. -/
def log2Fix (m : Nat) (e : Int) : Int :=
  ((Nat.log2 m : Int) + e) * 2 ^ 130 + (log2Digits 130 (m * 2 ^ 160 / 2 ^ Nat.log2 m) 0 : Nat)
/-- m · 2^e with 160 bits of fraction. -/
def fixOf (m : Nat) (e : Int) : Nat := if 0 ≤ e + 160 then m * 2 ^ (e + 160).toNat else m / 2 ^ (-(e + 160)).toNat

/-- Magnitude of the result of a bounded function at a positive or negative operand ±m · 2^e, to 100 bits and more. [DESIGN CHOICE, log 47] -/
def sfuExact (fn : Nat) (neg : Bool) (m : Nat) (e : Int) : Nat × Int :=
  if fn = 2 then
    let n := if e % 2 = 1 then 2 * m else m
    (isqrt (2 ^ 320 / n) 161 0, -((if e % 2 = 1 then e - 1 else e) / 2) - 160)
  else if fn = 3 then exp2Fix (if neg then -(fixOf m e : Int) else fixOf m e)
  else if fn = 4 then ((log2Fix m e).natAbs, -130)
  else if fn = 5 then
    if (Nat.log2 m : Int) + e < -40 then (m, e)
    else
      let u := expNegFix (2 * fixOf m e)
      let w := fixOf u.1 u.2
      ((2 ^ 160 - w) * 2 ^ 160 / (2 ^ 160 + w), -160)
  else
    let u := expNegFix (fixOf m e)
    let w := fixOf u.1 u.2
    if neg then (u.1 * 2 ^ 160 / (2 ^ 160 + w), u.2) else (2 ^ 320 / (2 ^ 160 + w), -160)

/-- An fp32 magnitude is within `k` units in its last place of m · 2^e; the 2^−64 by which the computed value may be off is allowed.
[DESIGN CHOICE, log 47] -/
def withinUlp (k y m : Nat) (e : Int) : Bool :=
  let ye : Int := if y < 2 ^ 23 then -149 else ((y / 2 ^ 23 : Nat) : Int) - 150
  let ym := if y < 2 ^ 23 then y else y % 2 ^ 23 + 2 ^ 23
  let l := min ye (e - 64)
  let a := ym * 2 ^ (ye - l).toNat
  let b := m * 2 ^ (e - l).toNat
  decide (y ≤ 0x7F800000) && decide (a - b + (b - a) ≤ k * 2 ^ (ye - l).toNat + m * 2 ^ (e - 64 - l).toNat)

/-- The result that the part gives: free within the bound. [DESIGN CHOICE, log 47] -/
def sfuPick (fn k x : Nat) (v : Nat × Int) : Nat :=
  if withinUlp k (Config.sfu fn x) v.1 v.2 then Config.sfu fn x else toF32 (.fin false v.1 v.2)

/-- The functions of the SFU: 0 rcp, 1 sqrt, 2 rsqrt, 3 exp2, 4 log2, 5 tanh, 6 sigmoid. Where the manual only bounds the error, the
result is free within the bound; exp2 above 2^−150 is positive and tanh of a negative number negative, as the table says.
[DESIGN CHOICE, log 47] -/
def sfuFn (fn x : Nat) : Nat :=
  let neg := decide (x ≥ 2 ^ 31)
  let mag := x % 2 ^ 31
  let at_ (k : Nat) : Nat := match ofF32 x with
    | .fin _ m e => sfuPick fn k x (sfuExact fn neg m e)
    | _ => 0
  if fn = 0 then fRcp x
  else if fn = 1 then fSqrt x
  else if fIsNan x then nan32
  else if fn = 2 then
    if mag = 0 then (if neg then 0xFF800000 else 0x7F800000)
    else if neg then nan32
    else if mag = 0x7F800000 then 0 else at_ 1
  else if fn = 3 then
    if mag = 0 then 0x3F800000
    else if mag = 0x7F800000 then (if neg then 0 else 0x7F800000)
    else if fLe x 0xC3160000 then 0 else if fLe 0x43010000 x then 0x7F800000 else max 1 (at_ 1)
  else if fn = 4 then
    if mag = 0 then 0xFF800000
    else if neg then nan32
    else if mag = 0x7F800000 then 0x7F800000
    else if mag = 0x3F800000 then 0
    else at_ 1 + (if mag < 0x3F800000 then 2 ^ 31 else 0)
  else if fn = 5 then
    if mag = 0 then x
    else (if neg then 2 ^ 31 else 0) + (if mag = 0x7F800000 then 0x3F800000 else if mag ≥ 0x42000000 then sfuPick 5 2 x (1, 0)
      else if neg then max 1 (at_ 2) else at_ 2)
  else
    if mag = 0 then 0x3F000000
    else if mag = 0x7F800000 then (if neg then 0 else 0x3F800000)
    else if neg then (if x ≥ 0xC2CFF1B5 then 0 else min 0x3EFFFFFF (at_ 2))
    else if mag ≥ 0x42800000 then sfuPick 6 2 x (1, 0) else at_ 2

/-! ### Codes and scales -/

/-- The number in bits [b·i + b − 1 : b·i] of a packed block (R110). -/
def codeAt (block : Bytes) (b i : Nat) : Nat :=
  let o := b * i / 8
  bits (field block o 2) (b * i % 8) b

/-- Value of code c of an integer codebook as fp32 (R111). -/
def intCode (b c : Nat) : Nat := toF32 (FV.ofInt (sext b c) 0 false)

/-- Bits of a code format: 0x8, 0x9, 0xA (R102). -/
def codeBits (fmt : Nat) : Nat := fmt - 6

/-- An SE8 scale as fp32 (R116): 2^(e − 127); e = 0xFF is a NaN. -/
def se8 (e : Nat) : Nat := if e = 255 then nan32 else toF32 (.fin false 1 ((e : Int) - 127))

/-- Quantise x with scale s into a format, one rounding (R117). -/
def quantise (fmt x s : Nat) : Nat := narrowV fmt (FV.div (ofF32 x) (ofF32 s))

/-- Quantise into a 4-bit Summary State code (R118), as a 4-bit pattern. -/
def quantCode4 (x s : Nat) : Nat :=
  let i : Int := match FV.div (ofF32 x) (ofF32 s) with
    | .nan => 0
    | .inf n => if n then -8 else 7
    | .fin n m e => clampInt (-8) 7 (roundInt n m e)
  (i % 16).toNat

/-- The high and low halves of a master weight (R119), and their join (R121). -/
def highHalf (w : Nat) : Nat := w / 65536
def lowHalf (w : Nat) : Nat := w % 65536
def joinHalves (h l : Nat) : Nat := h * 65536 + l

/-! ### Sums in a fixed order (R195, R243) -/

/-- Cut a list into runs of `g`. -/
def groupsOf (g : Nat) : Nat → List Nat → List (List Nat)
  | 0, _ => []
  | n + 1, l => l.take g :: groupsOf g n (l.drop g)

/-- One level of the tree. -/
def pairUp (g : Nat → Nat → Nat) : List Nat → List Nat
  | a :: b :: l => g a b :: pairUp g l
  | l => l
/-- The balanced tree over 2^n values. -/
def treeFold (g : Nat → Nat → Nat) : Nat → List Nat → Nat
  | 0, l => nth l 0 0
  | n + 1, l => treeFold g n (pairUp g l)

/-- The sum of R243: element i into lane partial i mod 64, ascending from +0, then six levels of pairs. -/
def vsum (xs : List Nat) : Nat :=
  let rows := groupsOf 64 (cdiv xs.length 64) xs
  treeFold fAdd 6 ((List.range 64).map fun l => rows.foldl (fun a r => match r[l]? with | some x => fAdd a x | none => a) 0)

/-- LN2 and L2E (R242). -/
def ln2 : Nat := 0x3F317218
def l2e : Nat := 0x3FB8AA3B
/-- ln x as log2(x) · LN2, and exp x as exp2(x · L2E). -/
def fLn (x : Nat) : Nat := fMul (sfuFn 4 x) ln2
def fExp (x : Nat) : Nat := sfuFn 3 (fMul x l2e)
def one32 : Nat := 0x3F800000
/-- A positive power of two. -/
def isPow2 (b : Nat) : Bool :=
  match ofF32 b with | .fin n m _ => !n && m != 0 && 2 ^ Nat.log2 m == m | _ => false
/-- A positive normal fp32 number. -/
def isPosNormal (b : Nat) : Bool := decide (0x00800000 ≤ b ∧ b < 0x7F800000)

end Sys2Proof.Machine
end

