-- ==== Sys2Proof/Machine/Array.lean ====
section
/-! DEFINITION. Sys2Proof/Machine/Array.lean: what passes of teacher and student arrays share: elements in SRAM, the
accumulation orders, preloads, drains, the chain rule and the course of a pass (R113–R115, R131–R138, R147, R187, R188). -/

namespace Sys2Proof.Machine
open Sys2Proof

/-! ### Elements -/

/-- `n` elements of `e` bytes. -/
def elems (e : Nat) : Nat → Bytes → List Nat
  | 0, _ => []
  | n + 1, bs => leNat (bs.take e) :: elems e n (bs.drop e)

/-- `n` elements of a format from core SRAM, widened to fp32. -/
def State.sramElems (s : State) (core off fmt n : Nat) : List Nat :=
  (elems (fmtBytes fmt) n (s.sramRead core off (n * fmtBytes fmt))).map (widen fmt)

/-- `n` elements of a format spaced `stride` bytes apart. -/
def State.sramStrided (s : State) (core off stride fmt n : Nat) : List Nat :=
  (List.range n).map fun i => widen fmt (leNat (s.sramRead core (off + i * stride) (fmtBytes fmt)))

/-- Arrays, or quadrants, of a mask. -/
def maskList (n m : Nat) : List Nat := (List.range n).filter fun a => bitOf m a

/-! ### Fields (R148, R149, R151); SRAM addresses and strides are in units of 64 bytes -/

def tGroup (d : Bytes) : Nat := 32 * 2 ^ bits (field d 9 1) 4 2
def tWidth (d : Bytes) : Nat := bits (field d 9 1) 0 4 - 6
def tLearned (d : Bytes) : Bool := bitOf (field d 9 1) 6
def tStart (d : Bytes) : Nat := bits (field d 10 1) 0 2
def tHold (d : Bytes) : Bool := bitOf (field d 10 1) 2
def tOutFmt (d : Bytes) : Nat := bits (field d 10 1) 4 4
def tActFmt (d : Bytes) : Nat := bits (field d 11 1) 0 4
def tGroups (d : Bytes) : Nat := field d 14 2
def tK (d : Bytes) : Nat := tGroups d * tGroup d

/-- Bytes of the code tile and of the scale tile of one 128-column tile. -/
def codeBytes (d : Bytes) : Nat := tGroups d * 16 * tWidth d * tGroup d
def scaleBytes (d : Bytes) : Nat := tGroups d * 256

def dirK (d : Bytes) : Nat := field d 14 2 + 1

/-- Field ranges of a LUT problem (R148). -/
def lutFields (d : Bytes) (maxRows : Nat) (arrays : List Nat) : Bool :=
  !arrays.isEmpty && bits (field d 9 1) 4 2 != 3 && tStart d != 3 && decide (1 ≤ field d 12 1 ∧ field d 12 1 ≤ maxRows)
    && decide (1 ≤ field d 13 1 ∧ field d 13 1 ≤ maxRows) && decide (1 ≤ tGroups d ∧ tGroups d ≤ 2048 ∧ tK d ≤ 65536)

/-- Field ranges of a direct problem (R149). -/
def dirFields (d : Bytes) (maxRows : Nat) (arrays : List Nat) : Bool :=
  !arrays.isEmpty && tStart d != 3 && decide (1 ≤ field d 12 1 ∧ field d 12 1 ≤ maxRows)
    && decide (1 ≤ field d 13 1 ∧ field d 13 1 ≤ maxRows)

/-- Field ranges of a thin pass (R151). -/
def thinFields (d : Bytes) : Bool :=
  decide (1 ≤ field d 8 1 ∧ field d 8 1 ≤ 8) && bits (field d 9 1) 4 2 != 3 && tStart d != 3
    && decide (1 ≤ field d 12 2 ∧ field d 12 2 ≤ 256) && decide (1 ≤ tGroups d ∧ tGroups d ≤ 2048 ∧ tK d ≤ 65536)

/-! ### Accumulation -/

/-- S0 of LUT mode (R113, R114): the partial sum of one group; a zero activation leaves it. -/
def lutGroup (g : Nat) : List Nat → List Nat → Nat
  | a :: as, v :: vs => lutGroup (if a % 2 ^ 31 = 0 then g else fAdd g (fMul a v)) as vs
  | _, _ => g

/-- One output element of a LUT or thin pass (R113): activations, code values and scale of each group. -/
def lutAcc (acc : Nat) (gs : List (List Nat × List Nat × Nat)) : Nat :=
  gs.foldl (fun a g => fAdd a (fMul (lutGroup 0 g.1 g.2.1) g.2.2)) acc

/-- Direct and student accumulation without group scales (R115, R187). -/
def macAcc : Nat → List Nat → List Nat → Nat
  | acc, a :: as, b :: bs => macAcc (fAdd acc (fMul a b)) as bs
  | acc, _, _ => acc

/-- Multiply by 2^(eA + eB − 254), rounded once; a scale of 0xFF is a NaN (R116, R187). -/
def scaleBy (x eA eB : Nat) : Nat :=
  if eA = 255 ∨ eB = 255 then nan32
  else toF32 (FV.mul (ofF32 x) (.fin false 1 ((eA : Int) + eB - 254)))

/-- Student accumulation with group scales (R187): operands and the two scales of each group. -/
def scaledAcc (acc : Nat) (gs : List (List Nat × List Nat × Nat × Nat)) : Nat :=
  gs.foldl (fun a g => fAdd a (scaleBy (macAcc 0 g.1 g.2.1) g.2.2.1 g.2.2.2)) acc

/-! ### A pass, its outputs and its preload -/

/-- Geometry and formats of the accumulators of a pass, or of one quadrant of a pane pass. -/
structure Pass where
  arrays   : List Nat
  rows     : Nat
  cols     : Nat
  /-- 0 ZERO, 1 CONTINUE, 2 LOAD -/
  start    : Nat
  hold     : Bool
  outAt    : Nat
  outStride : Nat
  outArray : Nat
  outFmt   : Nat
  loadAt   : Nat
  loadFmt  : Nat
  outMul   : Option Nat
deriving DecidableEq, Repr

/-- Address of output row `i` of array `a`, and of its preload row. -/
def Pass.out (p : Pass) (a i : Nat) : Nat := p.outAt + a * p.outArray + i * p.outStride
def Pass.load (p : Pass) (a i : Nat) : Nat := p.loadAt + a * p.outArray + i * p.outStride

/-- Ranges that the drain writes, and that a LOAD start reads. -/
def Pass.writesAt (p : Pass) : List (Nat × Nat) :=
  p.arrays.flatMap fun a => (List.range p.rows).map fun i => (p.out a i, p.cols * fmtBytes p.outFmt)
def Pass.loadsAt (p : Pass) : List (Nat × Nat) :=
  if p.start = 2 then p.arrays.flatMap fun a => (List.range p.rows).map fun i => (p.load a i, p.cols * fmtBytes p.loadFmt)
  else []

/-- Starting value of the accumulator of array index `x` of the pass, row `i`, column `j` (R134). -/
def Pass.initial (p : Pass) (s : State) (core : Nat) (held : List (List (List Nat))) (x i j : Nat) : Nat :=
  if p.start = 0 then 0
  else if p.start = 1 then nth (nth (nth held x []) i []) j 0
  else widen p.loadFmt (leNat (s.sramRead core (p.load (nth p.arrays x 0) i + j * fmtBytes p.loadFmt) (fmtBytes p.loadFmt)))

/-- All accumulators of a pass, from the value of each element. -/
def Pass.table (p : Pass) (f : Nat → Nat → Nat → Nat) : List (List (List Nat)) :=
  (List.range p.arrays.length).map fun x => (List.range p.rows).map fun i => (List.range p.cols).map fun j => f x i j

/-- The value that a drain writes for an accumulator (R133, R188). -/
def Pass.drained (p : Pass) (v : Nat) : Nat := narrow p.outFmt (match p.outMul with | some m => fMul v m | none => v)

/-- Rows that a drain writes. -/
def Pass.drainRows (p : Pass) (acc : List (List (List Nat))) : List (Nat × Bytes) :=
  (List.range p.arrays.length).flatMap fun x => (List.range p.rows).map fun i =>
    (p.out (nth p.arrays x 0) i, (nth (nth acc x []) i []).flatMap fun v => leBytes (fmtBytes p.outFmt) (p.drained v))

/-- Non-finite accumulators among those a drain reads (R154, R206): what OUT_MUL and OUT_FMT make of a finite one does not count. -/
def Pass.nonfinite (acc : List (List (List Nat))) : Nat := (acc.flatten.flatten.filter fNonFinite).length

/-! ### The course of a pass -/

/-- A pass whose descriptor has been read: its problems (one, or one per quadrant) with their accumulators, the ranges it
reads, whether it takes part in chains, and what it counts. -/
structure Plan where
  parts  : List (Pass × List (List (List Nat)))
  /-- ranges read in a staging half, and elsewhere in SRAM -/
  staged : List (Nat × Nat)
  reads  : List (Nat × Nat)
  mode   : Nat
  cycles : Option Nat
  gated  : Nat
  counts : List (Nat × Nat)

/-- Chain fields that a CONTINUE pass must repeat (R147): offset and length. -/
abbrev ChainFields := List (Nat × Nat)

/-- Two descriptors agree in these fields. -/
def sameFields (fs : ChainFields) (a b : Bytes) : Bool := fs.all fun f => (a.drop f.1).take f.2 == (b.drop f.1).take f.2

/-- The chain rule (R147): a CONTINUE follows a HOLD of the same opcode, fields and ring; a HOLD has LINK; nothing else
follows a HOLD. -/
def chainBreaks (ch : Option Chain) (j : Nat) (d : Bytes) (start : Nat) (hold : Bool) (fs : ChainFields) : Bool :=
  (hold && !dLink d) ||
  (match ch with
    | some c => c.ring == j && !(start == 1 && dOp c.desc == dOp d && sameFields fs c.desc d) || (c.ring != j && start == 1)
    | none => start == 1)

/-- A descriptor that is no pass follows a HOLD in its task. -/
def State.chainHeld (s : State) (core j : Nat) : Bool :=
  match (s.core core).chain with | some c => c.ring == j | none => false

/-- UNIT_DETAIL of a core. -/
def coreDetail (reason mode rows nonfin cycles last : Nat) : Bytes :=
  leBytes 1 reason ++ leBytes 1 mode ++ leBytes 2 rows ++ leBytes 4 (min nonfin (2 ^ 32 - 1)) ++ leBytes 8 cycles ++ leBytes 8 last

/-- A task of a core ends before its effect: REASON, status, error bit, error record (R154, R206). -/
def coreAbort (j ix : Nat) (d : Bytes) (status reason bit : Nat) (code : Option Nat) (addr : Nat) (s : State) : State :=
  let r := s.ring j
  let s := setErr r.unitType r.unitInst bit j ix reason (begin j ix d s)
  let s := finish j status 0 (coreDetail reason (modeByte r.unitType d) 0 0 0 0) s
  match code with
  | some c =>
    raise { code := c, status := 0x113, flags := 1, ty := r.unitType, inst := r.unitInst, ctx := r.ctx, ring := j
            index := ix, addr := addr, space := 4 } s
  | none => s

/-- DESCRIPTOR_NOP (R87): the slot is consumed; a record follows CR; LINK has its ordinary meaning. A NOP that ends its task while a HOLD
pass waits for its CONTINUE breaks the chain (R147). -/
def execDescriptorNop (j : Nat) (s : State) : Host.Outcome State Fault Refusal :=
  match s.headOf j 0 with
  | none => .next s
  | some (ix, d) =>
    let r := s.ring j
    let held := match unitCore r.unitType r.unitInst with | some k => s.chainHeld k j | none => false
    if held && !dLink d then .next (coreAbort j ix d 0x113 4 3 none 0 s)
    else
      let s := recordDesc j ix d 0 0 (reasonDetail r.unitType d 0) false (consume j s)
      .next (settleAll j (s.updRing j fun r => r.goOn (dLink d) false))

/-- The first range that carries a mark. -/
def State.firstMarked (s : State) (core : Nat) (rs : List (Nat × Nat)) : Option (Nat × Nat) :=
  rs.find? fun r => s.sramBad core r.1 r.2

/-- A pass meets a marked word (R154, R206): an uncorrectable error, or poison on a staging word of a teacher core or a word of a student
core. -/
def markedAbort (j ix core : Nat) (d : Bytes) (m : Nat × Nat) (s : State) : State :=
  if s.sramUeAt core m.1 m.2 then coreAbort j ix d 0x113 2 0 (some 1) m.1 s
  else coreAbort j ix d 0x113 3 1 (some 3) m.1 s

/-- A pass runs: HOLD keeps the bank in the core, DRAIN leaves the rows to be written. [DEDUCED, log 50] -/
def runPass (j ix core : Nat) (d : Bytes) (pl : Plan) (hold : Bool) (s : State) : State :=
  let (cyc, s) := match pl.cycles with | some c => (c, s) | none => s.fresh
  let s := served j (begin j ix d s)
  if hold then
    let acc := match pl.parts with | (_, a) :: _ => a | [] => []
    let s := s.updCore core fun x => { x with chain := some { ring := j, desc := d, acc } }
    let r := s.ring j
    let s := pl.counts.foldl (fun a c => bump r.unitType r.unitInst c.1 c.2 a) s
    finish j 0 0 (coreDetail 0 pl.mode 0 0 cyc pl.gated) s
  else
    s.updCore core fun x => { x with
      chain := none
      drain := some { ring := j, writes := pl.parts.flatMap fun p => p.1.drainRows p.2
                      nonfin := (pl.parts.map fun p => Pass.nonfinite p.2).sum, cycles := cyc, gated := pl.gated
                      counts := pl.counts } }

/-- ARRAY_PASS_DRAIN_COMPLETE (R133): the rows of the pass in flight on this ring are written. [DESIGN CHOICE, log 5; DEDUCED, log 50] -/
def execArrayPassDrainComplete (ring : Nat) (s : State) : Host.Outcome State Fault Refusal :=
  let r := s.ring ring
  match unitCore r.unitType r.unitInst, r.cur with
  | some k, some c =>
    (match (s.core k).drain with
      | some dr =>
        if dr.ring ≠ ring || c.phase ≠ 0 || s.isFatal then .next s
        else
          let te := r.unitType = Config.tTeacher
          let s := dr.writes.foldl (fun a w => sramWrite k w.1 w.2 a) (s.updCore k fun x => { x with drain := none })
          let s := dr.counts.foldl (fun a c => bump r.unitType r.unitInst c.1 c.2 a) s
          let s := bump r.unitType r.unitInst (if te then 8 else 5) dr.nonfin s
          let s := if dr.nonfin = 0 then s else setErr r.unitType r.unitInst 2 ring c.index 1 s
          let stop := dr.nonfin ≠ 0 && s.setting r.unitType r.unitInst (if te then 3 else 2) 0 = 1
          let lb := (dr.writes.map fun w => w.2.length).sum
          .next (finish ring (if stop then 0x113 else 0) lb
            (coreDetail (if stop then 1 else 0) (modeByte r.unitType c.desc) 0 dr.nonfin dr.cycles dr.gated) s)
      | none => .next s)
  | _, _ => .next s

/-- All ranges lie where a core's drains may write. -/
def State.allWritable (s : State) (core : Nat) (rs : List (Nat × Nat)) : Bool := rs.all fun r => s.sramWritable core r.1 r.2
/-- All ranges lie where operands may be read. -/
def allReadable (core : Nat) (rs : List (Nat × Nat)) : Bool := rs.all fun r => sramReadable core r.1 r.2

end Sys2Proof.Machine
end

