-- ==== Sys2Proof/Machine/StoreGeom.lean ====
section
/-! DEFINITION. Sys2Proof/Machine/StoreGeom.lean: the organisation of the Weight Store: blocks, stripes, logical pages, and
which codewords are lost (R361–R364, R371). -/

namespace Sys2Proof.Machine
open Sys2Proof

/-- Controller and stack `c`. -/
def State.ctl (s : State) (c : Nat) : Ctl := SMap.get Ctl.init s.ctls c
def State.setCtl (s : State) (c : Nat) (x : Ctl) : State := { s with ctls := SMap.set Ctl.init s.ctls c x }
def State.updCtl (s : State) (c : Nat) (f : Ctl → Ctl) : State := s.setCtl c (f (s.ctl c))

/-- Key of a physical block: die × 8,192 + number; a die has 32 × 170 = 5,440 blocks, number b in plane b mod 32 (R361). -/
def bkey (die b : Nat) : Nat := die * 8192 + b
def Ctl.block (c : Ctl) (k : Nat) : SBlock := SMap.get SBlock.init c.blocks k
def Ctl.setBlock (c : Ctl) (k : Nat) (x : SBlock) : Ctl := { c with blocks := SMap.set SBlock.init c.blocks k x }
def Ctl.updBlock (c : Ctl) (k : Nat) (f : SBlock → SBlock) : Ctl := c.setBlock k (f (c.block k))

/-- Stripes of a stack, in plane-group order (R363): stripe k × 32 + g, k below 114 teacher region, below 132 SLC region, below 164
TLC spare, below 170 SLC spare. -/
def stripes : Nat := 5440
def firstSlc : Nat := 114 * 32
def firstTlcSpare : Nat := 132 * 32
def firstSlcSpare : Nat := 164 * 32
/-- The dump stripe as manufactured (R363). -/
def dumpStripe : Nat := 164 * 32

/-- Block `b` of a die was made for SLC mode. -/
def slcMade (b : Nat) : Bool := decide (firstSlc ≤ b ∧ b < firstTlcSpare ∨ firstSlcSpare ≤ b)
/-- The mode in which a block is used (R379). -/
def Ctl.slcMode (c : Ctl) (k : Nat) : Bool := slcMade (k % 8192) || (c.block k).slc
/-- Pages of a block (R361). -/
def Ctl.pagesPer (c : Ctl) (k : Nat) : Nat := if c.slcMode k then 512 else 1536

/-- The physical block that is member `die` of a stripe (R362). -/
def Ctl.member (c : Ctl) (stripe die : Nat) : Nat :=
  match SMap.get 0 c.moved (stripe * 16 + die) with
  | 0 => bkey die stripe
  | v + 1 => v
/-- Stripe and member die of a physical block, if it is in the stripe table of a region. -/
def Ctl.stripeOf (c : Ctl) (k : Nat) : Option (Nat × Nat) :=
  match c.moved.find? (fun m => m.2 == k + 1) with
  | some m => some (m.1 / 16, m.1 % 16)
  | none =>
    if k % 8192 < firstTlcSpare && SMap.get 0 c.moved ((k % 8192) * 16 + k / 8192) == 0 then some (k % 8192, k / 8192) else none

/-- A logical page of a region on its stack: controller, stripe, member die, row (R364). -/
structure PagePos where
  ctl    : Nat
  stripe : Nat
  die    : Nat
  row    : Nat
deriving DecidableEq, Repr

/-- Bytes of a page. -/
def storePage : Nat := Config.pageStore

/-- Where region-relative page `l` lies; `p` pages to a block, the region's stripes starting at `s0`. -/
def pagePos (l p s0 : Nat) : PagePos :=
  let i := l / 8
  let g := i % 32
  let o := i / 32
  let d := o % 15
  let stripe := s0 + (o / (15 * p)) * 32 + g
  { ctl := l % 8, stripe, die := if d < stripe % 16 then d else d + 1, row := o / 15 % p }

/-- Where a Store logical address lies, if a region holds it (R364). -/
def storePos (a : Nat) : Option PagePos :=
  if Config.teacherBase ≤ a ∧ a < Config.teacherBase + Config.teacherBytes then
    some (pagePos ((a - Config.teacherBase) / storePage) 1536 0)
  else if Config.slcBase ≤ a ∧ a < Config.slcBase + Config.slcBytes then
    some (pagePos ((a - Config.slcBase) / storePage) 512 firstSlc)
  else none

/-- The logical address of a row of a stripe's data member: the inverse of `storePos`; `none` for the parity member. -/
def storeAddr (ctl stripe die row : Nat) : Option Nat :=
  if die = stripe % 16 then none
  else
    let d := if die < stripe % 16 then die else die - 1
    if stripe < firstSlc then
      some (Config.teacherBase + storePage * (8 * (32 * ((stripe / 32 * 1536 + row) * 15 + d) + stripe % 32) + ctl))
    else
      some (Config.slcBase + storePage * (8 * (32 * (((stripe - firstSlc) / 32 * 512 + row) * 15 + d) + stripe % 32) + ctl))

/-- Members of a stripe that lie on failed dies. -/
def Ctl.lostMembers (c : Ctl) (stripe : Nat) : Nat :=
  if c.failed.isEmpty then 0 else ((List.range 16).filter fun d => c.failed.contains (c.member stripe d / 8192)).length

/-- Every codeword of a row with two lost members is poisoned (R371). -/
def State.pageLost (s : State) (a : Nat) : Bool :=
  s.ctls.any (fun c => decide (2 ≤ c.2.failed.length)) &&
  (match storePos a with
    | some p => decide (2 ≤ (s.ctl p.ctl).lostMembers p.stripe)
    | none => false)

/-- Some codeword of a run of Store addresses is poisoned (R368, R371). -/
def State.storeBad (s : State) (a n : Nat) : Bool :=
  n != 0 && (s.mem.storePoison.any (fun w => decide (a / Config.codewordBytes ≤ w ∧ w ≤ (a + n - 1) / Config.codewordBytes))
    || (s.ctls.any (fun c => decide (2 ≤ c.2.failed.length)) &&
        (List.range ((a + n - 1) / storePage + 1 - a / storePage)).any fun i => s.pageLost ((a / storePage + i) * storePage)))

/-- Poisoned pages of a run. -/
def State.storeBadPages (s : State) (a n : Nat) : Nat :=
  let marks := (s.mem.storePoison.filter fun w => decide (a ≤ w * Config.codewordBytes ∧ w * Config.codewordBytes < a + n)).map (· / 4)
  let lost := if s.ctls.any (fun c => decide (2 ≤ c.2.failed.length)) then
      (List.range (cdiv n storePage)).filterMap fun i => if s.pageLost (a + i * storePage) then some (a / storePage + i) else none
    else []
  (marks ++ lost).eraseDups.length

/-! ### Spares (R363, R379) -/

/-- An erased block of the mode that belongs to no stripe. -/
def Ctl.isSpare (c : Ctl) (slc : Bool) (k : Nat) : Bool :=
  (c.block k).st == 0 && c.slcMode k == slc && (c.stripeOf k).isNone && decide (k % 8192 < stripes)
    && !c.failed.contains (k / 8192)

/-- Block numbers that can be spares on a die: those made as spares, and those that relocations have freed. -/
def Ctl.spareRange (c : Ctl) (die : Nat) (slc : Bool) : List Nat :=
  let made : List Nat := (List.range (stripes - firstTlcSpare)).map (firstTlcSpare + ·)
  let freed : List Nat := (c.moved.filter fun (m : Nat × Nat) => m.1 % 16 == die).map fun (m : Nat × Nat) => m.1 / 16
  ((made ++ freed).map (bkey die)).filter (c.isSpare slc)

/-- The least-worn spare of a die (R374, R379). -/
def Ctl.leastWorn (c : Ctl) (l : List Nat) : Option Nat :=
  l.foldl (fun best k => match best with
    | none => some k
    | some b => if (c.block k).pe < (c.block b).pe then some k else some b) none

/-- A block was made as a spare of this mode (R363). -/
def spareMade (slc : Bool) (k : Nat) : Bool :=
  if slc then decide (firstSlcSpare ≤ k % 8192) else decide (firstTlcSpare ≤ k % 8192 ∧ k % 8192 < firstSlcSpare)

/-- Erased spares of a die: those as made, less those in use, and those that relocations or a change of mode have added. -/
def Ctl.spareCount (c : Ctl) (die : Nat) (slc : Bool) : Nat :=
  let here := (c.blocks.map (·.1)).filter fun k => k / 8192 == die
  (if slc then 192 else 1024) + (here.filter fun k => c.isSpare slc k && !spareMade slc k).length
    - (here.filter fun k => !c.isSpare slc k && spareMade slc k).length

/-- Stripes that the erased spares make up: as many as the die with the fewest has. -/
def Ctl.spares (c : Ctl) (slc : Bool) : Nat :=
  ((List.range 16).filter (fun d => !c.failed.contains d)).foldl (fun n d => min n (c.spareCount d slc)) 65535

end Sys2Proof.Machine
end

