-- ==== Sys2Proof/Machine/ImageFmt.lean ====
section
/-! DEFINITION. Sys2Proof/Machine/ImageFmt.lean: the teacher-image format and the checks that IMG_CLOSE makes of it
(R160–R166, R173, R521–R523). -/

namespace Sys2Proof.Machine
open Sys2Proof

/-- Store logical address of image byte `off` (R364). -/
def Image.addr (g : Image) (off : Nat) : Nat := Config.teacherBase + g.base * Config.chunkBytes + off
/-- Bytes of an image as the Store holds them. -/
def State.imgRaw (s : State) (g : Image) (off n : Nat) : Bytes := Mem.read s.mem.store (g.addr off) n
/-- Bytes from Store address `a` on under a Store key: encrypting and decrypting are the same here. -/
def storeCrypt (key a : Nat) : Bytes → Bytes
  | [] => []
  | b :: bs => (b ^^^ Config.storeMask key a) :: storeCrypt key (a + 1) bs
/-- A run of an image as its fill path sees it, or as it is to be stored: the body of a sealed image, behind BODY_OFFSET of its clear
header, stands encrypted under its Store key (R172). -/
def State.imgCrypt (s : State) (g : Image) (off : Nat) (bs : Bytes) : Bytes :=
  if g.sealed then
    let k := leNat (s.imgRaw g 48 8) - off
    bs.take k ++ storeCrypt g.key (g.addr (off + k)) (bs.drop k)
  else bs
/-- Plaintext bytes of an image, as its fill path sees them. -/
def State.imgRead (s : State) (g : Image) (off n : Nat) : Bytes := s.imgCrypt g off (s.imgRaw g off n)
/-- A little-endian field of an image. -/
def State.imgField (s : State) (g : Image) (off n : Nat) : Nat := leNat (s.imgRead g off n)
/-- Some codeword of a run of an image is poisoned (R368). -/
def State.imgBad (s : State) (g : Image) (off n : Nat) : Bool := s.storeBad (g.addr off) n

/-- Chunks of an image. -/
def Image.chunks (g : Image) : Nat := cdiv g.len Config.chunkBytes

/-! ### Header fields (R161) -/
def State.imgFlags (s : State) (g : Image) : Nat := s.imgField g 6 2
def State.imgLayers (s : State) (g : Image) : Nat := s.imgField g 32 4
def State.imgTensors (s : State) (g : Image) : Nat := s.imgField g 36 4
def State.imgCodebooks (s : State) (g : Image) : Nat := s.imgField g 40 4
def State.imgSteps (s : State) (g : Image) : Nat := s.imgField g 44 4
def State.imgBody (s : State) (g : Image) : Nat := s.imgField g 48 8
def State.imgLayerAt (s : State) (g : Image) : Nat := s.imgField g 56 8
def State.imgTensorAt (s : State) (g : Image) : Nat := s.imgField g 64 8
def State.imgCbAt (s : State) (g : Image) : Nat := s.imgField g 72 8
def State.imgProgAt (s : State) (g : Image) : Nat := s.imgField g 80 8
def State.imgDataAt (s : State) (g : Image) : Nat := s.imgField g 88 8
def State.imgTagAt (s : State) (g : Image) : Nat := s.imgField g 96 8
def State.imgSealAt (s : State) (g : Image) : Nat := s.imgField g 104 4
def State.imgVocab (s : State) (g : Image) : Nat := s.imgField g 108 4
def State.imgHidden (s : State) (g : Image) : Nat := s.imgField g 112 4
def State.imgDigest (s : State) (g : Image) : Bytes := s.imgRead g 128 48
def State.imgId (s : State) (g : Image) : Bytes := s.imgRead g 16 16

/-- A tensor table entry (R163). -/
structure Tensor where
  index : Nat
  layer : Nat
  expert : Nat
  fmt   : Nat
  group : Nat
  learned : Nat
  k     : Nat
  n     : Nat
  cbWidth : Nat
  cbFirst : Nat
  data  : Nat
  tile  : Nat
deriving DecidableEq, Repr

/-- Entry `i` of the tensor table. -/
def State.tensor (s : State) (g : Image) (i : Nat) : Tensor :=
  let b := s.imgRead g (s.imgTensorAt g + 64 * i) 64
  { index := field b 0 4, layer := field b 4 2, expert := field b 6 2, fmt := field b 8 1, group := field b 9 1
    learned := field b 10 1, k := field b 12 4, n := field b 16 4, cbWidth := field b 20 4, cbFirst := field b 24 4
    data := field b 28 8, tile := field b 36 8 }

/-- Code width b and group length G of a tensor. -/
def Tensor.width (t : Tensor) : Nat := t.fmt - 6
def Tensor.g (t : Tensor) : Nat := 32 * 2 ^ t.group
/-- Code bytes of one group of a tile (R129). -/
def Tensor.groupBytes (t : Tensor) : Nat := 16 * t.width * t.g
/-- Groups of a tile. -/
def Tensor.groups (t : Tensor) : Nat := t.k / t.g
/-- Codebook of tile `i` of a learned tensor. -/
def Tensor.codebook (t : Tensor) (i : Nat) : Nat := t.cbFirst + i / t.cbWidth

/-- Entry `l` of the layer table (R162), and how many tensors each expert of the layer has (R163). -/
def State.layer (s : State) (g : Image) (l : Nat) : Bytes := s.imgRead g (s.imgLayerAt g + 32 * l) 32
def State.perExpert (s : State) (g : Image) (l : Nat) : Nat :=
  let b := s.layer g l
  ((List.range (field b 4 2)).filter fun i => (s.tensor g (field b 0 4 + i)).expert == 0).length

/-- A 64-byte forward program step: kind and template (R164); descriptor byte 63 is firmware's. -/
def State.progStep (s : State) (g : Image) (i : Nat) : Bytes := s.imgRead g (s.imgProgAt g + 64 * i) 64
/-- The descriptor of a FILL or PASS template. -/
def stepDesc (step : Bytes) : Bytes := step.drop 1 ++ [0]

/-! ### Structure checks: the offset of the first item that breaks R160 to R164 -/

/-- The first index below `n` that fails a test. -/
def firstBad (n : Nat) (ok : Nat → Bool) : Option Nat := (List.range n).find? fun i => !ok i

/-- Zero bytes of an image. -/
def State.imgZero (s : State) (g : Image) (o n : Nat) : Bool := (s.imgRead g o n).all (· == 0)

/-- The header, against R160, R161 and what IMG_OPEN was given. -/
def headerBad (g : Image) (s : State) : Option Nat :=
  let mib := Config.chunkBytes
  let body := s.imgBody g
  let inBody (o n : Nat) : Bool := decide (body ≤ o ∧ o + n ≤ g.len)
  if s.imgField g 0 4 ≠ 0x474D4954 then some 0
  else if s.imgField g 4 2 ≠ 0x0100 then some 4
  else if s.imgFlags g ≥ 4 || bitOf (s.imgFlags g) 0 != g.sealed then some 6
  else if s.imgField g 8 8 ≠ g.len then some 8
  else if body % mib ≠ 0 || body = 0 || body > g.len then some 48
  else if !inBody (s.imgLayerAt g) (32 * s.imgLayers g) then some 56
  else if !inBody (s.imgTensorAt g) (64 * s.imgTensors g) then some 64
  else if !inBody (s.imgCbAt g) (32 * s.imgCodebooks g) then some 72
  else if !inBody (s.imgProgAt g) (64 * s.imgSteps g) then some 80
  else if s.imgDataAt g % mib ≠ 0 || s.imgDataAt g < body then some 88
  else if (if g.sealed then s.imgTagAt g % mib ≠ 0 || s.imgTagAt g = 0
        || s.imgTagAt g + 16 * (g.chunks - body / mib) > body else s.imgTagAt g ≠ 0) then some 96
  else if (if g.sealed then s.imgSealAt g < 256 || s.imgSealAt g + 1024 > mib || s.imgSealAt g + 1024 > body
      else s.imgSealAt g ≠ 0) then some 104
  else if s.imgVocab g > 1048576 then some 108
  else if !s.imgZero g 116 12 then some 116
  else if !s.imgZero g 176 80 then some 176
  else none

/-- The layer table (R162). -/
def layerOk (g : Image) (s : State) (i : Nat) : Bool :=
  let b := s.layer g i
  let kind := field b 6 1
  let ex := field b 8 2
  decide (kind ≤ 5) && decide (field b 0 4 + field b 4 2 ≤ s.imgTensors g) && field b 7 1 == 0
    && (if kind = 4 then decide (1 ≤ ex ∧ ex ≤ 256 ∧ field b 10 2 ≤ ex) else ex == 0 && field b 10 2 == 0)
    && (b.drop 12).all (· == 0)

/-- EXPERT of tensor `i` (R163): 0xFFFF, or an expert of its layer, whose tensors stand `perExpert` apart. -/
def expertOk (g : Image) (s : State) (i : Nat) : Bool :=
  let t := s.tensor g i
  let ex := field (s.layer g t.layer) 8 2
  let per := s.perExpert g t.layer
  let is (k e : Nat) : Bool := (s.tensor g k).layer == t.layer && (s.tensor g k).expert == e
  t.expert == 0xFFFF ||
    (decide (t.expert < ex ∧ t.expert * per ≤ i) && is (i - t.expert * per) 0
      && (t.expert != 0 || (List.range ex).all fun e => is (i + e * per) e))

/-- The tensor table (R163). -/
def tensorOk (g : Image) (s : State) (i : Nat) : Bool :=
  let t := s.tensor g i
  let b := s.imgRead g (s.imgTensorAt g + 64 * i) 64
  let l := s.layer g t.layer
  t.index == i && decide (t.layer < s.imgLayers g ∧ field l 0 4 ≤ i ∧ i < field l 0 4 + field l 4 2) && expertOk g s i
    && decide (8 ≤ t.fmt ∧ t.fmt ≤ 10) && decide (t.group ≤ 2)
    && decide (t.learned ≤ 1) && field b 11 1 == 0 && decide (t.k ≠ 0 ∧ t.k % t.g = 0 ∧ t.k ≤ 16777216)
    && decide (t.n ≠ 0 ∧ t.n % 128 = 0)
    && (t.learned == 0 || (t.cbWidth != 0 && decide (t.codebook (t.n / 128 - 1) < s.imgCodebooks g)))
    && decide (s.imgDataAt g ≤ t.data) && t.tile == t.groups * (t.groupBytes + 256)
    && decide (t.data + (t.n / 128) * t.tile ≤ g.len) && (b.drop 44).all (· == 0)

/-! ### Body fields of SU_STAGE_FILL (R174) -/
def sfImage (d : Bytes) : Nat := field d 8 2
def sfTensor (d : Bytes) : Nat := field d 10 4
def sfGather (d : Bytes) : Bool := bitOf (field d 14 1) 0
def sfFinal (d : Bytes) : Bool := bitOf (field d 14 1) 1
def sfCodebook (d : Bytes) : Bool := bitOf (field d 14 1) 2
def sfHalf (d : Bytes) : Nat := field d 15 1 % 2
def sfCore (d : Bytes) : Nat := field d 16 2
def sfTileFirst (d : Bytes) : Nat := field d 18 2
def sfTileCount (d : Bytes) : Nat := field d 20 1
def sfGroupFirst (d : Bytes) : Nat := field d 22 2
def sfGroupCount (d : Bytes) : Nat := field d 24 2
def sfDest (d : Bytes) : Nat := 64 * field d 26 3
def sfCbDest (d : Bytes) : Nat := 64 * field d 29 3
def sfExpectFree (d : Bytes) : Nat := field d 32 2
def sfList (d : Bytes) : Nat := field d 40 8

/-- Tiles, groups and slices of a fill lie within tensor `i`, and its tiles in the one codebook slice of the fill (R174, R175). -/
def sfTensorOk (g : Image) (d : Bytes) (s : State) (i : Nat) : Bool :=
  let t := s.tensor g i
  let z := s.tensor g (sfTensor d)
  decide (i < s.imgTensors g) && decide (1 ≤ sfTileCount d) && decide (sfTileFirst d + sfTileCount d ≤ t.n / 128)
    && decide (1 ≤ sfGroupCount d ∧ sfGroupCount d ≤ 2048) && decide (sfGroupFirst d + sfGroupCount d ≤ t.groups)
    && t.learned == z.learned
    && (t.learned == 0 || (t.codebook (sfTileFirst d) == z.codebook (sfTileFirst d)
      && t.codebook (sfTileFirst d + sfTileCount d - 1) == z.codebook (sfTileFirst d)))

/-- The template of a FILL passes the checks of its descriptor on what firmware does not substitute (R164, R175). -/
def fillTemplateOk (g : Image) (d : Bytes) (s : State) : Bool :=
  dOp d == 0x40 && field d 8 2 == 0 && (refusal Config.tStream 48 d).isNone && sfTensorOk g d s (sfTensor d)
    && (!sfGather d || (s.tensor g (sfTensor d)).expert == 0) && (!sfCodebook d || (s.tensor g (sfTensor d)).learned != 0)

/-- The template of a PASS passes the checks of its descriptor (R148–R151): ROWS, which follows T, is not in it yet. [DEDUCED, log 66] -/
def passTemplateOk (d : Bytes) : Bool :=
  (refusal Config.tTeacher 0 d).isNone &&
  (match dOp d with
    | 0x10 => lutFields (splice d 12 [1]) 128 (maskList 4 (field d 8 1))
    | 0x11 => dirFields (splice d 12 [1]) 128 (maskList 4 (field d 8 1))
    | 0x12 => field d 8 1 != 0 && field d 10 1 != 0
    | 0x13 => thinFields (splice d 8 [1])
    | 0x20 => field d 11 2 != 0
    | _ => false)

/-- One program step (R164): a listed kind whose template passes its descriptor's checks. -/
def stepOk (g : Image) (s : State) (i : Nat) : Bool :=
  let st := s.progStep g i
  match field st 0 1 with
  | 1 => fillTemplateOk g (stepDesc st) s
  | 2 => passTemplateOk (stepDesc st)
  | k => decide (3 ≤ k ∧ k ≤ 8)

/-- Tables and weight data of the body. -/
def bodySpans (g : Image) (s : State) : List (Int × Nat) :=
  [((s.imgLayerAt g : Int), 32 * s.imgLayers g), ((s.imgTensorAt g : Int), 64 * s.imgTensors g),
   ((s.imgCbAt g : Int), 32 * s.imgCodebooks g), ((s.imgProgAt g : Int), 64 * s.imgSteps g)]
  ++ (List.range (s.imgTensors g)).map fun i =>
    (((s.tensor g i).data : Int), ((s.tensor g i).n / 128) * (s.tensor g i).tile)

/-- Check 2 of R173: the image offset of the first break of R160 to R164. -/
def structureBad (g : Image) (s : State) : Option Nat :=
  match headerBad g s with
  | some o => some o
  | none =>
    match firstBad (s.imgLayers g) (layerOk g s) with
    | some i => some (s.imgLayerAt g + 32 * i)
    | none =>
      match firstBad (s.imgTensors g) (tensorOk g s) with
      | some i => some (s.imgTensorAt g + 64 * i)
      | none =>
        if selfMeet (bodySpans g s) then some 88
        else match firstBad (s.imgSteps g) (stepOk g s) with
        | some i => some (s.imgProgAt g + 64 * i)
        | none => none

/-- A bf16 pattern is finite; an SB16 scale is positive and normal (R112). -/
def bf16Finite (b : Nat) : Bool := b / 128 % 256 != 255
def sb16Ok (b : Nat) : Bool := decide (128 ≤ b ∧ b < 0x7F80)

/-- Codebook entries and scales of a tensor satisfy R112. -/
def valuesOk (g : Image) (s : State) (i : Nat) : Bool :=
  let t := s.tensor g i
  (List.range (t.n / 128)).all fun tl =>
    (t.learned == 0 || (List.range (2 ^ t.width)).all fun c =>
      bf16Finite (s.imgField g (s.imgCbAt g + 32 * t.codebook tl + 2 * c) 2)) &&
    (List.range (128 * t.groups)).all fun q =>
      sb16Ok (s.imgField g (t.data + tl * t.tile + t.groups * t.groupBytes + 2 * q) 2)

/-- The plaintext of a chunk with DIGEST, seal block and tag table taken as zero (R166). -/
def digestChunk (g : Image) (s : State) (i : Nat) : Bytes :=
  let o := i * Config.chunkBytes
  let bs := s.imgRead g o (min Config.chunkBytes (g.len - o))
  let bs := if i = 0 then splice bs 128 (zeros 48) else bs
  let bs := if i = 0 && g.sealed then splice bs (s.imgSealAt g) (zeros 1024) else bs
  if g.sealed then
    let t := s.imgTagAt g
    let n := 16 * (g.chunks - s.imgBody g / Config.chunkBytes)
    let lo := max t o
    let hi := min (t + n) (o + bs.length)
    if lo < hi then splice bs (lo - o) (zeros (hi - lo)) else bs
  else bs

/-- The end-to-end digest (R166). -/
def imageDigest (g : Image) (s : State) : Bytes :=
  Config.sha384 ((List.range g.chunks).flatMap fun i => Config.sha384 (digestChunk g s i))

/-! ### Seal block (R521, R522) -/

/-- The 1,024 bytes of the seal block, and fields of its policy. -/
def State.sealBlock (s : State) (g : Image) : Bytes := s.imgRead g (s.imgSealAt g) 1024
def State.sealPolicy (s : State) (g : Image) : Nat := field (s.sealBlock g) 6 2
/-- KMAX and TMIN of an image: 256 and +0 for an open one (R297). -/
def State.sealKmax (s : State) (g : Image) : Nat := if g.sealed then field (s.sealBlock g) 8 2 else 256
def State.sealTmin (s : State) (g : Image) : Nat := if g.sealed then field (s.sealBlock g) 12 4 else 0
/-- A policy flag is granted; an open image grants all. -/
def State.sealAllows (s : State) (g : Image) (bit : Nat) : Bool := !g.sealed || bitOf (s.sealPolicy g) bit

/-- "ID860 image key" (R521). -/
def imageKeyInfo : Bytes := [0x49, 0x44, 0x38, 0x36, 0x30, 0x20, 0x69, 0x6D, 0x61, 0x67, 0x65, 0x20, 0x6B, 0x65, 0x79]

/-- The image key that the seal block wraps, if it unwraps on this part (R521). -/
def State.imageKey (s : State) (g : Image) : Option Bytes :=
  let b := s.sealBlock g
  let kek := Config.hkdf (Config.ecdhXk ((b.drop 72).take 97)) (s.imgId g) imageKeyInfo 32
  Config.gcmOpen kek ((b.drop 176).take 12) (s.imgRead g 0 256 ++ b.take 176) ((b.drop 188).take 32) ((b.drop 220).take 16)

/-- fp32 pattern is positive and normal. -/
def f32PosNormal (b : Nat) : Bool := decide (0x00800000 ≤ b ∧ b < 0x7F800000)

/-- The checks of R522 on SVN and debug state: they are repeated by IMG_ACTIVATE. -/
def sealLive (g : Image) (s : State) : Option (Nat × Nat) :=
  if !g.sealed then none
  else if field (s.sealBlock g) 16 4 > s.sys.svn then some (0x2B01, field (s.sealBlock g) 16 4)
  else if s.sys.debug ≠ 0 then some (0x2B02, s.sys.debug) else none

/-- Step 5 of IMG_CLOSE (R522). -/
def sealBad (g : Image) (s : State) : Option (Nat × Nat) :=
  if !g.sealed then none
  else
    let b := s.sealBlock g
    let fmtBad : Option Nat :=
      if field b 0 4 ≠ 0x4C414553 then some 0 else if field b 4 2 ≠ 0x0100 then some 4
      else if field b 6 2 ≥ 64 then some 6
      else if field b 8 2 < 1 || field b 8 2 > 256 then some 8
      else if field b 10 2 ≠ 0 then some 10
      else if !f32PosNormal (field b 12 4) then some 12
      else if field b 16 4 > 63 then some 16
      else firstNonzero b [(20, 4), (169, 7), (333, 7), (436, 588)]
    match fmtBad with
    | some o => some (0x2501, (s.imgSealAt g + o) / 64)
    | none =>
      if (b.drop 24).take 48 ≠ Config.deviceId then some (0x111, 7)
      else if !Config.ecdsaOk ((b.drop 236).take 97) (Config.sha384 (s.imgRead g 0 256 ++ b.take 340)) ((b.drop 340).take 96)
      then some (0x112, 0)
      else if (s.imageKey g).isNone then some (0x112, 0)
      else sealLive g s

/-- The checks of IMG_CLOSE in order (R173): status and DETAIL of the first that fails. -/
def closeCheck (g : Image) (s : State) : Option (Nat × Nat) :=
  match firstBad g.chunks (fun i => g.done.contains i) with
  | some i => some (0x2502, i)
  | none =>
    if s.imgBad g 0 g.len then some (0x112, 0)
    else match structureBad g s with
      | some o => some (0x2501, o / 64)
      | none =>
        match firstBad (s.imgTensors g) (valuesOk g s) with
        | some i => some (0x2503, i)
        | none =>
          if s.imgDigest g ≠ imageDigest g s then some (0x112, 0)
          else sealBad g s

end Sys2Proof.Machine
end

