-- ==== Sys2Proof/Machine/Image.lean ====
section
/-! DEFINITION. Sys2Proof/Machine/Image.lean: the image commands of group 0x05 and their events (R167–R173). -/

namespace Sys2Proof.Machine
open Sys2Proof

/-- Images a tenant may act on: its own and those without an owner; context 0 any (R168). -/
def imgRight (c : Nat) (g : Image) : Bool := c == 0 || g.owner == c + 1 || g.owner == 0

/-- Handle and permission checks of a command that names an image at payload byte 0. [DEDUCED, log 44] -/
def imgHandle (c h : Nat) (s : State) : Option (Nat × Nat) ⊕ Image :=
  match s.image h with
  | none => .inl (some (eBadHandle, 0))
  | some g => if imgRight c g then .inr g else .inl (some (ePermission, 0))

/-- A job, a serving queue or a fill in progress names the image (R170). -/
def State.imageUsed (s : State) (h : Nat) : Bool :=
  s.jobs.any (fun j => field j.2.header 4 2 == h) || s.servedImages.contains h
  || s.rings.any fun r => r.2.unitType == Config.tStream && (match r.2.cur with
      | some c => dOp c.desc == 0x40 && field c.desc 8 2 == h
      | none => false)

/-- The lowest handle not in use. -/
def State.freeImage (s : State) : Nat := ((List.range 17).find? fun h => (s.image h).isNone).getD 0

/-- Two extents of chunks share a chunk. -/
def extentsMeet (a n b m : Nat) : Bool := decide (a < b + m ∧ b < a + n)

/-- The lowest free contiguous extent of `n` chunks: at the start of the region or behind an image (R169). -/
def State.freeExtent (s : State) (n : Nat) : Option Nat :=
  let starts := 0 :: s.images.map fun i => i.2.base + i.2.chunks
  (starts.filter fun b => decide ((b + n) * Config.chunkBytes ≤ Config.teacherBytes)
      && s.images.all fun i => !extentsMeet b n i.2.base i.2.chunks).foldl
    (fun best b => match best with | none => some b | some x => some (min x b)) none

/-- IMG_OPEN (R169, R172, R381, R522). -/
def specImgOpen : CmdSpec where
  opcode := 0x0500
  access := 0
  p := false
  len := fixed 9
  rsv := noRsv
  rbits := rsvAt [(8, 0xFE)]
  resp := respOf 16
  run := fun i p s =>
    let len := field p 0 8
    let fl := field p 8 1
    if len < 256 then .fail eBadArgument 0
    else if fl = 1 && s.sys.debug ≠ 0 then .fail 0x2B02 s.sys.debug
    else if s.images.length ≥ 16 then .fail eNoResource 0
    else if (List.range 8).any (fun c => decide ((s.ctl c).spares false < 64)) then .fail eNoResource 0
    else match s.freeExtent (cdiv len Config.chunkBytes) with
      | none => .fail eNoResource 0
      | some b =>
        let h := s.freeImage
        let g : Image := { Image.init with
          owner := i.ctx + 1, base := b, len, sealed := fl == 1, key := if fl = 1 then s.keys + 1 else 0, scrub := 1 }
        let s := { s with keys := s.keys + 1 }
        .ok (leBytes 2 h ++ zeros 6 ++ leBytes 8 (g.addr 0)) (s.setImage h g)

def execImgOpen (q : Request) (s : State) : Host.Outcome State Fault Refusal := submit specImgOpen q s

/-- IMG_WRITE (R169, R171): its chunks are programmed one by one. -/
def specImgWrite : CmdSpec where
  opcode := 0x0501
  access := 0
  p := true
  len := fixed 32
  rsv := rsvAt [(3, 5)]
  resp := respOf 0
  run := fun i p s =>
    let h := field p 0 2
    let kind := field p 2 1
    let off := field p 8 8
    let src := field p 16 8
    let len := field p 24 8
    match imgHandle i.ctx h s with
    | .inl e => .fail (e.getD (eBadHandle, 0)).1 0
    | .inr g =>
      if kind > 2 then .fail eBadArgument 2
      else if kind = 2 && s.rxBind i.ctx src h = 1 then .fail eBadHandle 16
      else if kind = 2 && s.rxBind i.ctx src h = 2 then .fail ePermission 16
      else if off % Config.chunkBytes ≠ 0 || off ≥ g.len then .fail eBadArgument 8
      else if len = 0 || off + len > g.len || (len % Config.chunkBytes ≠ 0 && off + len ≠ g.len)
          || (kind < 2 && len > 64 * 2 ^ 30) then .fail eBadArgument 24
      else if kind < 2 && !s.reach i.ctx kind src len then .fail eAddress 16
      else if g.st ≠ 0 then .fail eState g.st
      else .pend (s.setImage h { g with
        writes := g.writes ++ [{ ctx := i.ctx, op := i.handle, kind, src, pos := off, stop := off + len, from_ := off }] })

def execImgWrite (q : Request) (s : State) : Host.Outcome State Fault Refusal := submit specImgWrite q s

/-- The bytes of the next chunk of a write, from its source: `none` while a binding has not delivered them all. -/
def chunkSource (w : ImgWrite) (n : Nat) (s : State) : Option Bytes :=
  if w.kind = 0 then some (s.hbmRead (w.src + (w.pos - w.from_)) n)
  else if w.kind = 1 then some (s.hostGet (s.chkOf w.ctx) (w.src + (w.pos - w.from_)) n)
  else s.stagedRun w.src w.pos n

/-- The source of a write has failed: poison, a host error, or its binding's queue pair (R171). -/
def sourceBad (w : ImgWrite) (n : Nat) (s : State) : Bool :=
  if w.kind < 2 then s.spaceBad w.kind (w.src + (w.pos - w.from_)) n else !s.bindReady w.src

/-- Bytes of an image that are programmed. -/
def Image.doneBytes (g : Image) : Nat :=
  (g.done.map fun i => min Config.chunkBytes (g.len - i * Config.chunkBytes)).sum

/-- An IMG_WRITE ends: its record, and it is gone from the image. -/
def writeEnd (h : Nat) (w : ImgWrite) (status detail : Nat) (s : State) : State :=
  let s := match s.image h with
    | some g => s.setImage h { g with writes := g.writes.filter fun x => !(x.ctx == w.ctx && x.op == w.op) }
    | none => s
  finishOp w.ctx w.op status detail (leBytes 8 (w.pos - w.from_)) s

/-- A body chunk of a sealed image, decrypted and checked (R165, R172): its plaintext, or the failing status. -/
def openChunk (g : Image) (i : Nat) (bs : Bytes) (s : State) : Bytes ⊕ (Nat × Nat) :=
  let first := s.imgBody g / Config.chunkBytes
  if !g.sealed then .inl bs
  else if !g.done.contains 0 then (if i = 0 then .inl bs else .inr (eState, 0))
  else if i < first then .inl bs
  else
    let tagAt := s.imgTagAt g + 16 * (i - first)
    if !g.done.contains (tagAt / Config.chunkBytes) then .inr (eState, 0)
    else match s.imageKey g with
      | none => .inr (eIntegrity, i)
      | some k =>
        match Config.gcmOpen k ((s.imgId g).take 8 ++ leBytes 4 (i - first)) (s.imgRead g 0 256) bs (s.imgRead g tagAt 16) with
        | some pt => .inl pt
        | none => .inr (eIntegrity, i)

/-- The error record of a write whose source failed (R171): POISON_CONSUMED, or HOST_COMPLETION for a host source and for a binding's queue
pair, which the rule gives no code of its own. [DESIGN CHOICE, log 86] -/
def imgFault (x : ImgWrite) (s : State) : State :=
  raise { code := if x.kind = 0 then 3 else 0xD, status := 0x113, flags := 1, ty := 0, inst := 0, ctx := x.ctx
          ring := 0xFFFF, index := 0, addr := if x.kind = 2 then 0 else x.src + (x.pos - x.from_)
          space := if x.kind = 0 then 1 else if x.kind = 1 then 3 else 0 } s

/-- A read of host memory for the `w`-th write in progress of an image ends without data: unsupported request, completer abort, timeout or
loss of the link (R171, R488). -/
def imgHostFault (img w : Nat) (s : State) : State :=
  match s.image img with
  | none => s
  | some g =>
    match g.writes[w]? with
    | some x => if x.kind = 1 then imgFault x (writeEnd img x eAborted (x.pos - x.from_) s) else s
    | none => s

/-- IMG_CHUNK_PROGRAMMED (R171): the program of the next chunk of the image's `w`-th write in progress ends. -/
def execImgChunkProgrammed (img w : Nat) (s : State) : Host.Outcome State Fault Refusal :=
  match s.image img with
  | none => .next s
  | some g =>
    match g.writes[w]? with
    | none => .next s
    | some x =>
      let i := x.pos / Config.chunkBytes
      let n := min Config.chunkBytes (x.stop - x.pos)
      if s.isFatal then .next s
      else if g.done.contains i || (g.writes.take w).any (fun y => y.pos / Config.chunkBytes == i) then
        .next (writeEnd img x 0x2500 i s)
      else if sourceBad x n s then
        let s := writeEnd img x eAborted (x.pos - x.from_) s
        .next (imgFault x s)
      else match chunkSource x n s with
        | none => .next s
        | some bs =>
          match openChunk g i bs s with
          | .inr (st, d) => .next (writeEnd img x st d s)
          | .inl pt =>
            let s := { s with mem := { s.mem with store := Mem.write s.mem.store (g.addr x.pos) (s.imgCrypt g x.pos (pt.take n)) } }
            let s := if x.kind = 0 then hbmTaken (x.src + (x.pos - x.from_)) n s else s
            let x' := { x with pos := x.pos + n }
            let s := s.setImage img { g with done := NSet.ins i g.done, writes := g.writes.set w x' }
            let s := if x.kind = 2 then consumedTo x.src (x.pos + n) g.len img s else s
            if x'.pos = x'.stop then .next (writeEnd img x' 0 0 s) else .next s

/-- IMG_CLOSE (R173). -/
def specImgClose : CmdSpec where
  opcode := 0x0502
  access := 0
  p := true
  len := fixed 2
  rsv := noRsv
  resp := respOf 8
  run := fun i p s =>
    let h := field p 0 2
    match imgHandle i.ctx h s with
    | .inl e => .fail (e.getD (eBadHandle, 0)).1 0
    | .inr g =>
      if !g.writes.isEmpty then .fail eBusy 0
      else if g.st ≠ 0 then .fail eState g.st
      else .pend (s.setImage h { g with st := 1, op := some (i.ctx, i.handle) })

def execImgClose (q : Request) (s : State) : Host.Outcome State Fault Refusal := submit specImgClose q s

/-- IMG_VERIFY_COMPLETE (R173): the image becomes READY or FAILED. [DEDUCED, log 68] -/
def execImgVerifyComplete (img : Nat) (s : State) : Host.Outcome State Fault Refusal :=
  match s.image img with
  | none => .next s
  | some g =>
    if g.st ≠ 1 || s.isFatal || !s.running then .next s
    else
      let owner := g.op.getD (0, 0)
      match closeCheck g s with
      | none =>
        .next (finishOp owner.1 owner.2 0 0 (leBytes 8 g.len) (s.setImage img { g with st := 2, op := none }))
      | some (st, d) =>
        let s1 := finishOp owner.1 owner.2 st d [] (s.setImage img { g with st := 5, op := none })
        if s.imgBad g 0 g.len && st = 0x112 then
          .next (raise { code := 4, status := 0x112, flags := 3, ty := 0, inst := 0, ctx := g.owner - 1, ring := 0xFFFF
                         index := 0, addr := g.addr 0, space := 2 } s1)
        else .next s1

/-- IMG_ACTIVATE (R167, R168, R378, R522, R566): a READY image becomes ACTIVE; a tenant takes over an ACTIVE image that has no owner. -/
def specImgActivate : CmdSpec where
  opcode := 0x0503
  access := 0
  p := false
  len := fixed 3
  rsv := noRsv
  resp := respOf 0
  run := fun i p s =>
    let h := field p 0 2
    let on := field p 2 1
    match imgHandle i.ctx h s with
    | .inl e => .fail (e.getD (eBadHandle, 0)).1 0
    | .inr g =>
      if on > 1 then .fail eBadArgument 2
      else if on = 1 then
        (if g.st ≠ 2 && !(g.st = 3 && g.owner = 0 && i.ctx ≠ 0) then .fail eState g.st
        else if g.scrub = 0 then .fail eBusy 0
        else match sealLive g s with
          | some (st, d) => .fail st d
          | none => .ok [] (s.setImage h { g with st := 3, owner := i.ctx + 1 }))
      else if g.st ≠ 3 then .fail eState g.st
      else if s.imageUsed h then .fail 0x2504 0
      else .ok [] (s.setImage h { g with st := 2 })

def execImgActivate (q : Request) (s : State) : Host.Outcome State Fault Refusal := submit specImgActivate q s

/-- IMG_DELETE (R167, R172): the Store key dies at acceptance. -/
def specImgDelete : CmdSpec where
  opcode := 0x0504
  access := 0
  p := true
  len := fixed 2
  rsv := noRsv
  resp := respOf 0
  run := fun i p s =>
    let h := field p 0 2
    match imgHandle i.ctx h s with
    | .inl e => .fail (e.getD (eBadHandle, 0)).1 0
    | .inr g =>
      if !g.writes.isEmpty then .fail eBusy 0
      else if s.imageUsed h then .fail 0x2504 0
      else if g.st = 1 || g.st = 3 || g.st = 6 then .fail eState g.st
      else .pend (s.setImage h { g with st := 6, key := 0, op := some (i.ctx, i.handle) })

def execImgDelete (q : Request) (s : State) : Host.Outcome State Fault Refusal := submit specImgDelete q s

/-- IMG_DELETE_COMPLETE (R167, R368): its blocks are erased, which clears their poison, and the image is gone. -/
def execImgDeleteComplete (img : Nat) (s : State) : Host.Outcome State Fault Refusal :=
  match s.image img with
  | none => .next s
  | some g =>
    if g.st ≠ 6 || s.isFatal then .next s
    else
      let n := g.chunks * Config.chunkBytes
      let owner := g.op.getD (0, 0)
      let s := { s with
        images := s.images.filter (fun x => x.1 != img)
        mem := { s.mem with
          store := Mem.clear s.mem.store (g.addr 0) n
          storePoison := s.mem.storePoison.filter fun w =>
            !decide (g.addr 0 ≤ w * Config.codewordBytes ∧ w * Config.codewordBytes < g.addr 0 + n) } }
      .next (finishOp owner.1 owner.2 0 0 [] s)

/-- Poisoned pages of an image's extent. -/
def State.imgPoisoned (s : State) (g : Image) : Nat := s.storeBadPages (g.addr 0) (g.chunks * Config.chunkBytes)

/-- IMG_QUERY (R169). -/
def specImgQuery : CmdSpec where
  opcode := 0x0505
  access := 0
  p := false
  len := fixed 2
  rsv := noRsv
  resp := respOf 96
  run := fun i p s =>
    let h := field p 0 2
    match imgHandle i.ctx h s with
    | .inl e => .fail (e.getD (eBadHandle, 0)).1 0
    | .inr g =>
      .ok (leBytes 1 g.st ++ leBytes 1 (if g.owner = 0 then 255 else g.owner - 1)
        ++ leBytes 1 (if g.done.contains 0 then s.imgFlags g else b2n g.sealed) ++ zeros 5 ++ leBytes 8 g.len
        ++ leBytes 8 g.doneBytes ++ leBytes 8 (s.imgPoisoned g) ++ s.imgDigest g ++ s.imgId g) s

def execImgQuery (q : Request) (s : State) : Host.Outcome State Fault Refusal := submit specImgQuery q s

end Sys2Proof.Machine
end

