-- ==== Sys2Proof/Machine/LensRow.lean ====
section
/-! DEFINITION. Sys2Proof/Machine/LensRow.lean: what a Lens computes of one row: keys, rank order, selection, probabilities,
compaction, sort and the result block (R236–R246). -/

namespace Sys2Proof.Machine
open Sys2Proof

/-- Bits of a key (R236). -/
def keyBits (fmt : Nat) : Nat := if fmt = 1 || fmt = 2 then 16 else 32
/-- Histogram passes (R236). -/
def lensPasses (fmt : Nat) : Nat := keyBits fmt / 8

/-- The key of an element: none for a NaN (R236). -/
def lensKey (fmt b : Nat) : Option Nat :=
  match fmtOf fmt with
  | some f =>
    if f.value b = .nan then none
    else
      let b := if b % f.signBit = 0 then 0 else b
      some (if b < f.signBit then b + f.signBit else 2 * f.signBit - 1 - b)
  | none => some (if fmt = 5 then (b + 2 ^ 31) % 2 ^ 32 else b)

/-- VALUE of an element (R246): the bits, 16-bit formats widened exactly. -/
def lensValue (fmt b : Nat) : Nat := if fmt = 1 || fmt = 2 then widen fmt b else b
/-- What a sum in value mode adds (R243). -/
def lensAddend (fmt b : Nat) : Nat := if fmt = 5 then i32ToF32 b else if fmt = 6 then u32ToF32 b else widen fmt b

/-- A valid element: index, key, bits. -/
structure LEl where
  ix  : Nat
  key : Nat
  b   : Nat
deriving DecidableEq, Repr

/-- The valid elements of a row, by index (R237). -/
def lensValid (fmt : Nat) (xs : List Nat) : List LEl :=
  xs.zipIdx.filterMap fun x => (lensKey fmt x.1).map fun k => { ix := x.2, key := k, b := x.1 }

/-- `a` ranks before `b` (R238). -/
def ranksBefore (up : Bool) (a b : LEl) : Bool :=
  (if up then decide (a.key < b.key) else decide (a.key > b.key)) || (a.key == b.key && decide (a.ix < b.ix))

/-- Insertion into a ranked list, and the ranked list of a row. -/
def insertRank (up : Bool) (a : LEl) : List LEl → List LEl
  | [] => [a]
  | b :: l => if ranksBefore up a b then a :: b :: l else b :: insertRank up a l
def rankOrder (up : Bool) (l : List LEl) : List LEl := l.foldr (insertRank up) []

/-- What the Lens reports of a row. -/
structure LRow where
  valid    : Nat
  nan      : Nat
  selected : Nat
  flags    : Nat
  extreme  : Nat
  logNorm  : Nat
  sumSel   : Nat
  sumLeft  : Nat
  /-- entries, padding included: index and VALUE -/
  ents     : List (Nat × Nat)
deriving DecidableEq, Repr

/-- fp32 −∞: the padding VALUE. -/
def negInf : Nat := 0xFF800000
/-- A padding entry (R241). -/
def padEntry : Nat × Nat := (0xFFFFFFFF, negInf)

/-- What probability mode computes (R242). -/
structure LProb where
  p       : Nat → Nat
  sel     : Nat
  left    : Nat
  logNorm : Nat
  inf     : Bool

/-- A list over all indices of a row: `g` of the element where it is listed, else +0. -/
def spread (n : Nat) (l : List (Nat × Nat)) : List Nat :=
  (List.range n).map fun i => match l.find? (fun x => x.1 == i) with | some x => x.2 | none => 0

/-- R242 over a partition of the valid elements; `top` is the first of the rank order with DIR 0. -/
def lensProb (fmt temp n : Nat) (top : LEl) (sel left : List LEl) : LProb :=
  let it := fRcp temp
  let m := fMul (widen fmt top.b) it
  let inf := m % 2 ^ 31 == 0x7F800000
  let e (x : LEl) : Nat :=
    let z := fMul (widen fmt x.b) it
    if inf then (if fEq z m then one32 else 0) else fExp (fSub z m)
  let s := vsum (spread n (sel.map fun x => (x.ix, e x)))
  let t := vsum (spread n (left.map fun x => (x.ix, e x)))
  let zs := fAdd s t
  let r := fRcp zs
  { p := fun i => match (sel ++ left).find? (fun x => x.ix == i) with | some x => fMul (e x) r | none => 0
    sel := fMul s r, left := fMul t r, inf, logNorm := if inf then m else fAdd m (fLn zs) }

/-- A row whose valid elements have been split into those selected and those left out; `shown` are the entries that are
written, before padding. -/
def lensSplit (fmt n nan : Nat) (prob : Option Nat) (first : Option LEl) (top : Option LEl) (sel left shown : List LEl)
    (flags pad count : Nat) : LRow :=
  match first, top with
  | some f, some t =>
    match prob with
    | some temp =>
      let q := lensProb fmt temp n t sel left
      { valid := shown.length, nan, selected := count, flags := flags + 4 * b2n q.inf, extreme := q.p f.ix
        logNorm := q.logNorm, sumSel := q.sel, sumLeft := q.left
        ents := shown.map (fun x => (x.ix, q.p x.ix)) ++ List.replicate pad padEntry }
    | none =>
      { valid := shown.length, nan, selected := count, flags, extreme := lensValue fmt f.b, logNorm := 0
        sumSel := vsum (spread n (sel.map fun x => (x.ix, lensAddend fmt x.b)))
        sumLeft := vsum (spread n (left.map fun x => (x.ix, lensAddend fmt x.b)))
        ents := shown.map (fun x => (x.ix, lensValue fmt x.b)) ++ List.replicate pad padEntry }
  | _, _ =>
    { valid := 0, nan, selected := 0, flags := flags + 8, extreme := negInf, logNorm := if prob.isSome then negInf else 0
      sumSel := 0, sumLeft := 0, ents := List.replicate pad padEntry }

/-- Top-k of a row (R239–R243). `prob` is the temperature in probability mode. -/
def lensTopk (fmt : Nat) (up : Bool) (prob : Option Nat) (k : Nat) (xs : List Nat) : LRow :=
  let vs := lensValid fmt xs
  let o := rankOrder up vs
  let sel := o.take k
  let left := o.drop k
  let eq := match sel.getLast?, left with | some a, b :: _ => a.key == b.key | _, _ => false
  lensSplit fmt xs.length (xs.length - vs.length) prob o.head? (rankOrder false vs).head? sel left sel
    (b2n (decide (vs.length < k)) + 2 * b2n eq) (k - sel.length) sel.length

/-- Threshold compaction of a row (R244). -/
def lensCompact (fmt : Nat) (below incl : Bool) (prob : Option Nat) (thresh cap : Nat) (xs : List Nat) : LRow :=
  let vs := lensValid fmt xs
  let t := (lensKey fmt thresh).getD 0
  let hit (x : LEl) : Bool := (if below then decide (x.key < t) else decide (x.key > t)) || (incl && x.key == t)
  let sel := vs.filter hit
  let top := (rankOrder false vs).head?
  lensSplit fmt xs.length (xs.length - vs.length) prob top top sel (vs.filter fun x => !hit x) (sel.take cap)
    (16 * b2n (decide (sel.length > cap))) 0 sel.length

/-- Stable sort of a row (R245). [DEDUCED, log 52] -/
def lensSort (fmt : Nat) (up : Bool) (xs : List Nat) : LRow :=
  let vs := lensValid fmt xs
  { valid := vs.length, nan := xs.length - vs.length, selected := 0, flags := 0, extreme := 0, logNorm := 0, sumSel := 0, sumLeft := 0
    ents := (rankOrder up vs).map (fun x => (x.ix, lensValue fmt x.b)) ++ List.replicate (xs.length - vs.length) padEntry }

/-- The result block (R246). -/
def LRow.block (r : LRow) : Bytes :=
  leBytes 4 r.valid ++ leBytes 4 r.nan ++ leBytes 4 r.selected ++ leBytes 1 r.flags ++ zeros 3 ++ leBytes 4 r.extreme
    ++ leBytes 4 r.logNorm ++ leBytes 4 r.sumSel ++ leBytes 4 r.sumLeft ++ r.ents.flatMap fun e => leBytes 4 e.1 ++ leBytes 4 e.2

end Sys2Proof.Machine
end

