-- ==== Sys2Proof/Machine/Lens.lean ====
section
/-! DEFINITION. Sys2Proof/Machine/Lens.lean: Lens tasks: descriptors, sources and destinations, classes and suspension
(R247–R261). -/

namespace Sys2Proof.Machine
open Sys2Proof

/-- The Lens task of a ring. -/
def State.lensTask (s : State) (j : Nat) : LensTask := SMap.get LensTask.init s.lens j
def State.setLensTask (s : State) (j : Nat) (x : LensTask) : State := { s with lens := SMap.set LensTask.init s.lens j x }

/-! ### Fields (R254, R256, R257) -/

def lFmt (d : Bytes) : Nat := bits (field d 9 1) 0 4
def lSrcSpace (d : Bytes) : Nat := bits (field d 9 1) 4 2
def lDstSpace (d : Bytes) : Nat := bits (field d 9 1) 6 2
def lProb (d : Bytes) : Bool := dOp d != 0x12 && bitOf (field d 8 1) 0
def lDir (d : Bytes) : Bool := dOp d != 0x11 && bitOf (field d 8 1) 1
def lSeg (d : Bytes) : Bool := dOp d != 0x12 && bitOf (field d 8 1) 2
def lRows (d : Bytes) : Nat := field d 10 2
def lN (d : Bytes) : Nat := field d 20 4
def lK (d : Bytes) : Nat := field d 16 4
def lTemp (d : Bytes) : Nat := field d 24 4
def lSrc (d : Bytes) : Nat := field d 28 8
def lDst (d : Bytes) : Nat := field d 36 8
def lSrcStride (d : Bytes) : Nat := field d 44 4
def lDstStride (d : Bytes) : Nat := if dOp d = 0x12 then field d 24 4 else field d 48 4
/-- A row goes to a Prism channel. -/
def lPrism (d : Bytes) : Bool := dOp d == 0x10 && lDstSpace d == 2
/-- Bytes of a result block, at most. -/
def lBlock (d : Bytes) : Nat := 32 + 8 * (if dOp d = 0x12 then lN d else lK d)

/-- A core on the Lens's own die, named by its INSTANCE. -/
def lensCore (lens inst : Nat) : Option Nat :=
  if lens < 8 then (if inst < 32 && Config.dieOf Config.tTeacher inst == Config.dieOf Config.tLens lens then some inst else none)
  else if inst < 16 && Config.dieOf Config.tStudent inst == Config.dieOf Config.tLens lens then some (32 + inst) else none

/-- A range that a task touches: space, core number, address, bytes. -/
structure LRange where
  space : Nat
  core  : Nat
  addr  : Nat
  len   : Nat
deriving DecidableEq, Repr

/-- A core named by a range is on the die. -/
def LRange.onDie (lens : Nat) (r : LRange) : Bool := r.space == 0 || (lensCore lens r.core).isSome
/-- The context may use the core of a range (R248). -/
def State.lensPerm (s : State) (lens c : Nat) (r : LRange) : Bool :=
  r.space == 0 || c == 0 || (match lensCore lens r.core with | some k => s.coreOwner k == some c | none => false)
/-- The range lies where R248 allows, aligned to 64 bytes. -/
def State.lensRange (s : State) (lens c : Nat) (write : Bool) (r : LRange) : Bool :=
  r.addr % 64 == 0 &&
  (if r.space = 0 then s.owns c r.addr r.len
   else match lensCore lens r.core with
     | some k => if write then s.sramWritable k r.addr r.len else sramReadable k r.addr r.len
     | none => false)
/-- Two ranges share a byte. -/
def LRange.meets (a b : LRange) : Bool :=
  a.space == b.space && (a.space == 0 || a.core == b.core) && decide (a.addr < b.addr + b.len ∧ b.addr < a.addr + a.len)
/-- Some 64-byte line or word of the range carries a mark. -/
def State.lensBad (s : State) (lens : Nat) (r : LRange) : Bool :=
  if r.space = 0 then s.hbmBad r.addr r.len
  else match lensCore lens r.core with | some k => s.sramBad k r.addr r.len | none => false
/-- Bytes of a range. -/
def State.lensRead (s : State) (lens : Nat) (r : LRange) : Bytes :=
  if r.space = 0 then s.hbmRead r.addr r.len
  else match lensCore lens r.core with | some k => s.sramRead k r.addr r.len | none => zeros r.len
/-- Write to a destination. -/
def lensWrite (lens space core addr : Nat) (bs : Bytes) (s : State) : State :=
  if space = 0 then hbmWrite addr bs s
  else match lensCore lens core with | some k => sramWrite k addr bs s | none => s

/-- A segment of row 0: space, core, address, elements. -/
structure LSeg where
  space : Nat
  core  : Nat
  addr  : Nat
  len   : Nat
deriving DecidableEq, Repr

/-- The segment table's entries (R255). -/
def segTable (n : Nat) (bs : Bytes) : List LSeg :=
  (List.range n).map fun i => { space := field bs (16 * i) 1, core := field bs (16 * i + 2) 2, addr := field bs (16 * i + 8) 8
                                len := field bs (16 * i + 4) 4 }
/-- The segments that make up a row. -/
def State.lensSegs (s : State) (d : Bytes) : List LSeg :=
  if lSeg d then segTable (field d 12 2) (s.hbmRead (lSrc d) (16 * field d 12 2))
  else [{ space := lSrcSpace d, core := field d 12 2, addr := lSrc d, len := lN d }]
/-- The range that a segment covers in one row, and the ranges that segments cover in all rows. -/
def LSeg.rowAt (d : Bytes) (i : Nat) (g : LSeg) : LRange :=
  { space := g.space, core := g.core, addr := g.addr + i * lSrcStride d, len := g.len * fmtBytes (lFmt d) }
def lReads (d : Bytes) (gs : List LSeg) : List LRange := (List.range (lRows d)).flatMap fun i => gs.map (LSeg.rowAt d i)
/-- Destination blocks and scratch range. -/
def lBlocks (d : Bytes) : List LRange :=
  (List.range (lRows d)).map fun i => { space := lDstSpace d, core := field d 14 2, addr := lDst d + i * lDstStride d, len := lBlock d }
def lScratch (d : Bytes) : LRange :=
  { space := field d 18 1, core := field d 16 2, addr := field d 48 8, len := 8 * lN d }
def lWrites (d : Bytes) : List LRange :=
  (if lPrism d then [] else lBlocks d) ++ (if dOp d = 0x12 then [lScratch d] else [])

/-- Argument checks but for the segment table (R252, R254, R256, R257). [DEDUCED, log 53] -/
def lensFields (lens c swMax : Nat) (d : Bytes) : Bool :=
  let sort := dOp d == 0x12
  decide (1 ≤ lRows d ∧ lRows d ≤ 4096) && decide (lSrcSpace d ≤ 1)
    && decide (lDstSpace d ≤ (if dOp d = 0x10 then 2 else 1))
    && decide (1 ≤ lN d ∧ lN d ≤ (if sort then 65536 else 16777216))
    && (!sort || decide (field d 18 1 ≤ 1))
    && (!lProb d || (decide (lFmt d < 3) && !(dOp d == 0x10 && lDir d) && isPosNormal (lTemp d)))
    && (!(dOp d == 0x10 && !lPrism d) || decide (1 ≤ lK d ∧ lK d ≤ 16777216))
    && (dOp d != 0x11 || (decide (lK d ≤ 16777216) && decide (field d 52 4 < 2 ^ keyBits (lFmt d))
        && (lensKey (lFmt d) (field d 52 4)).isSome))
    && (c == 0 || sort || lPrism d || decide (lK d ≤ swMax))
    && (lPrism d || decide (lBlock d ≤ lDstStride d))
    && (!lSeg d || decide (1 ≤ field d 12 2 ∧ field d 12 2 ≤ 64))
    && (!lPrism d || (lProb d && !lDir d && decide (lens < 8) && decide (field d 14 2 < 8)
        && Config.dieOf Config.tPrism (field d 14 2) == Config.dieOf Config.tLens lens))
    && (lWrites d ++ (if lSeg d then [] else [({ space := lSrcSpace d, core := field d 12 2, addr := 0, len := 0 } : LRange)])).all (LRange.onDie lens)

/-- The table keeps R255. -/
def State.segsOk (s : State) (lens c : Nat) (d : Bytes) : Bool :=
  let t := s.lensSegs d
  (List.range t.length).all (fun i => field (s.hbmRead (lSrc d) (16 * t.length)) (16 * i + 1) 1 == 0)
    && t.all (fun g => decide (g.space ≤ 1) && decide (1 ≤ g.len))
    && (lReads d t).all (fun r => r.onDie lens && s.lensPerm lens c r && s.lensRange lens c false r)
    && (t.map fun g => g.len).sum == lN d

/-- The checks of R146 and R253; `none`: they pass. [DEDUCED, log 52, 53] -/
def lensCheck (lens c : Nat) (d : Bytes) (s : State) : Option Nat :=
  if !lensFields lens c (s.setting Config.tLens lens 3 16777216) d then some 0x108
  else if lSeg d && !(s.owns c (lSrc d) (16 * field d 12 2) && lSrc d % 64 == 0) then some 0x10D
  else if lSeg d && !s.hbmBad (lSrc d) (16 * field d 12 2) && !s.segsOk lens c d then some 0x108
  else if lPrism d && c != 0 then some 0x106
  else
    let reads := if lSeg d then [] else lReads d (s.lensSegs d)
    if !(reads ++ lWrites d).all (s.lensPerm lens c) then some 0x106
    else if lSrcStride d % 64 != 0 || (!lPrism d && lDstStride d % 64 != 0) || !reads.all (s.lensRange lens c false)
        || !(lWrites d).all (s.lensRange lens c true) then some 0x10D
    else if dOp d = 0x12 && ((lBlocks d).any (fun b => b.meets (lScratch d)) || reads.any (fun r => r.meets (lScratch d) || (lBlocks d).any r.meets)) then
      some 0x10D
    else none

/-- Rounds per row (R240). -/
def lensRounds (k : Nat) (d : Bytes) : Nat := if dOp d = 0x10 then cdiv k 256 else 0
/-- Passes over a row (R258). -/
def lensReads (k : Nat) (d : Bytes) : Nat :=
  let p := lensPasses (lFmt d)
  if dOp d = 0x10 then lensRounds k d * (p + 1) + (if lProb d && decide (1 < lensRounds k d) then p + 1 else 0)
  else if dOp d = 0x11 then 1 + b2n (lProb d) else 1 + p

/-- k of a top-k task: LENS_SET_PRISM_K on the Prism path (R252). -/
def State.lensK (s : State) (lens : Nat) (d : Bytes) : Nat :=
  if lPrism d then s.setting Config.tLens lens 1 64 else lK d

/-- The selection of one row. -/
def lensRow (k : Nat) (d : Bytes) (xs : List Nat) : LRow :=
  let prob := if lProb d then some (lTemp d) else none
  if dOp d = 0x10 then lensTopk (lFmt d) (lDir d) prob k xs
  else if dOp d = 0x11 then lensCompact (lFmt d) (bitOf (field d 8 1) 1) (bitOf (field d 8 1) 3) prob (field d 52 4) (lK d) xs
  else lensSort (lFmt d) (lDir d) xs

/-- UNIT_DETAIL (R261); the cycle count is the caller's. -/
def lensDetail (reason mode rows : Nat) (t : LensTask) (cyc : Nat) : Bytes :=
  leBytes 1 reason ++ leBytes 1 mode ++ leBytes 2 rows ++ leBytes 4 (min t.nan (2 ^ 32 - 1)) ++ leBytes 8 cyc
    ++ leBytes 2 (t.rounds % 65536) ++ leBytes 2 (min t.interposed 65535) ++ leBytes 4 t.valid

/-- A Lens task ends. -/
def lensEnd (j status reason : Nat) (s : State) : State :=
  let r := s.ring j
  match r.cur with
  | some c =>
    let t := s.lensTask j
    let (cyc, s) := s.fresh
    let s := s.setLensTask j (if dLink c.desc && status == 0 then { LensTask.init with cls := t.cls } else LensTask.init)
    finish j status c.lb (lensDetail reason (modeByte r.unitType c.desc) c.rows t cyc) s
  | none => s

/-- REASON of a marked word in a range (R259): SRAM_UE or POISON. -/
def State.lensReason (s : State) (lens : Nat) (g : LRange) : Nat :=
  if g.space ≠ 0 && (match lensCore lens g.core with | some k => s.sramUeAt k g.addr g.len | none => false) then 1 else 2
/-- The event of a marked word in LENS_ERR, and its error record (R259, R576). -/
def lensNote (lens ctx ring index : Nat) (g : LRange) (s : State) : State :=
  let k := s.lensReason lens g
  raise { code := if k = 1 then 1 else 3, status := 0x113, flags := 1, ty := Config.tLens, inst := lens, ctx, ring, index
          addr := g.addr, space := if g.space = 0 then 1 else 4 } (setErr Config.tLens lens (k - 1) (if ring = 0xFFFF then 0 else ring) index k s)
/-- A marked word ends the task. -/
def lensMarked (j : Nat) (g : LRange) (s : State) : State :=
  let r := s.ring j
  lensEnd j 0x113 (s.lensReason r.unitInst g) (lensNote r.unitInst r.ctx j (match r.cur with | some c => c.index | none => 0) g s)

/-- A row with these VALID and FLAGS is the last one completed (R262). -/
def lensLast (lens valid flags : Nat) (s : State) : State :=
  s.updUnit Config.tLens lens fun u => { u with last := u.last / 2 ^ 40 * 2 ^ 40 + 2 ^ 32 * flags + valid % 2 ^ 25 }
/-- Counters of a Lens, by number. -/
def lensCounts (lens : Nat) (cs : List (Nat × Nat)) (s : State) : State :=
  cs.foldl (fun a x => if x.2 = 0 then a else bump Config.tLens lens x.1 x.2 a) s

/-- The row is complete: counts and the task's record (R261, R263). [DEDUCED, log 52] -/
def lensRowDone (j : Nat) (w : LRow) (bytes : Nat) (s : State) : State :=
  let r := s.ring j
  match r.cur with
  | some c =>
    let t := s.lensTask j
    let d := c.desc
    let k := s.lensK r.unitInst d
    let s := s.setLensTask j { t with nan := t.nan + w.nan, rounds := lensRounds k d, valid := w.valid, flags := w.flags, held := none, yields := 0 }
    let s := s.setRing j { r with cur := some { c with rows := c.rows + 1, lb := c.lb + bytes } }
    lensCounts r.unitInst [(1, lensReads k d * lN d), (2, w.nan), (3, 1), (4, lensRounds k d), (6, b2n (lPrism d)),
      (10, if dOp d = 0x12 then lN d else 0), (11, b2n (bitOf w.flags 0))] (lensLast r.unitInst w.valid w.flags s)
  | none => s

/-- One row of the task in progress: written to memory, or held for the Prism. A sort reads SCRATCH back after writing its entries, whole ECC
words of a core's SRAM but no whole lines of device memory, where a mark therefore stays. [DEDUCED, log 52] -/
def lensStep (j : Nat) (s : State) : State :=
  let r := s.ring j
  let lens := r.unitInst
  match r.cur with
  | some c =>
    let d := c.desc
    let segs := (s.lensSegs d).map (LSeg.rowAt d c.rows)
    match segs.find? (s.lensBad lens) with
    | some g => lensMarked j g s
    | none =>
      let s := segs.foldl (fun s g => if g.space = 0 then hbmTaken g.addr g.len s else s) s
      let xs := segs.flatMap fun g => elems (fmtBytes (lFmt d)) (g.len / fmtBytes (lFmt d)) (s.lensRead lens g)
      let w := lensRow (s.lensK lens d) d xs
      if dOp d = 0x12 && (lScratch d).space == 0 && w.valid != 0 && s.hbmBad (lScratch d).addr (8 * w.valid) then lensMarked j (lScratch d) s
      else if lPrism d then s.setLensTask j { s.lensTask j with held := some w.block }
      else
        let s := lensWrite lens (lDstSpace d) (field d 14 2) (lDst d + c.rows * lDstStride d) w.block s
        let s := if dOp d = 0x12 then
            let (bs, s) := freshBytes (8 * lN d) s
            lensWrite lens (field d 18 1) (field d 16 2) (field d 48 8) bs s
          else s
        lensRowDone j w w.block.length s
  | none => s

/-- Class of a Lens task (R250). -/
def lensClass (d : Bytes) : Nat := if lPrism d then 1 else 2

/-- Yield points within a row of a task (R250): with LENS_SET_INTERPOSE, the end of each round of a class 2 task but the last, and of the
passes that come before round 0. A row's results are formed at its end. [DEDUCED, log 3] -/
def State.lensYields (s : State) (lens : Nat) (d : Bytes) : Nat :=
  let r := lensRounds (s.lensK lens d) d
  if s.setting Config.tLens lens 4 1 = 1 && lensClass d = 2 then r - 1 + b2n (lProb d && decide (1 < r)) else 0

/-- The task goes on over `n` yield points; a row that waits for the Prism stops it. [DEDUCED, log 3] -/
def lensRun (j : Nat) : Nat → State → State
  | 0, s => s
  | n + 1, s =>
    match (s.ring j).cur with
    | some c =>
      if c.phase ≠ 0 || (s.lensTask j).held.isSome then s
      else if (s.lensTask j).yields < s.lensYields (s.ring j).unitInst c.desc then
        lensRun j n (s.setLensTask j { s.lensTask j with yields := (s.lensTask j).yields + 1 })
      else
        let s := lensStep j s
        match (s.ring j).cur with
        | some c' => if c'.phase = 0 && c'.rows = lRows c'.desc then lensEnd j 0 0 s else lensRun j n s
        | none => s
    | none => s

/-- Ring `j` of a Lens has a task of a class at work: a descriptor in progress, or a linked one to come. -/
def State.lensBusy (s : State) (j : Nat) (r : Ring) (cls : Nat) : Bool :=
  (r.inTask || (match r.cur with | some c => c.phase == 0 | none => false)) && (s.lensTask j).cls == cls
/-- A ring of the Lens offers a task of a class. -/
def State.lensOffers (s : State) (r : Ring) (cls : Nat) : Bool :=
  r.st == 1 && r.cur.isNone && !r.inTask && s.startable r && (match r.fetched with
    | (_, some d) :: _ => decide (2 ≤ dOp d) && (refusal r.unitType r.unitInst d).isNone && lensClass d == cls
    | _ => false)

/-- The Lens may start or go on with the task at the head of ring `j` (R250): no other ring has a task of its class or a lower one at work,
none of a lower class waits, and for a new task arbitration within its class takes it. -/
def State.lensMay (s : State) (j cls : Nat) : Bool :=
  let r := s.ring j
  let lowest := s.setting Config.tLens r.unitInst 2 0 == 1
  let rr := SMap.get 0 (s.unit r.unitType r.unitInst).rr cls
  let others := (s.unitRings r.unitType r.unitInst).filter (fun x => x.1 != j)
  others.all (fun x => !s.lensBusy x.1 x.2 1 && (cls == 1 || (!s.lensBusy x.1 x.2 2 && !s.lensOffers x.2 1))) &&
  (r.inTask || others.all (fun x => !s.lensOffers x.2 cls ||
    (if lowest then decide (r.slot < x.2.slot) else decide (slotDist rr r.slot < slotDist rr x.2.slot))))

/-- A task of class `cls` starts at a yield point of those of higher classes in progress (R250): each counts the suspension, and one of
class 2 waits for LENS_TASK_RESUME. -/
def lensSuspend (lens cls : Nat) (s : State) : State :=
  (s.unitRings Config.tLens lens).foldl (fun a x =>
    let t := a.lensTask x.1
    if cls < t.cls && s.lensBusy x.1 x.2 t.cls && !t.susp then
      bump Config.tLens lens 9 1 (a.setLensTask x.1 { t with susp := t.cls == 2, interposed := t.interposed + 1 })
    else a) s

/-- Remember the slot that a class served last (R250). -/
def lensServed (j cls : Nat) (s : State) : State :=
  let r := s.ring j
  s.updUnit r.unitType r.unitInst fun u => { u with rr := SMap.set 0 u.rr cls (r.slot + 1) }

/-- The Lens task of a descriptor that is taken up. -/
def LensTask.start (t : LensTask) (k : Nat) (d : Bytes) : LensTask :=
  { LensTask.init with rounds := lensRounds k d, cls := lensClass d, interposed := t.interposed }

/-- A Lens task at the head of ring `j` is taken up and runs to its `n`-th yield point. -/
def lensTake (j op n : Nat) (s : State) : State :=
  match s.headOf j op with
  | none => s
  | some (ix, d) =>
    let r := s.ring j
    if r.unitType ≠ Config.tLens || !s.lensMay j (lensClass d) then s
    else match lensCheck r.unitInst r.ctx d s with
      | some st => failArg j ix d st s
      | none =>
        let s := lensServed j (lensClass d) (begin j ix d (lensSuspend r.unitInst (lensClass d) s))
        let s := s.setLensTask j ((s.lensTask j).start (s.lensK r.unitInst d) d)
        if lSeg d && s.hbmBad (lSrc d) (16 * field d 12 2) then
          lensMarked j { space := 0, core := 0, addr := lSrc d, len := 16 * field d 12 2 } s
        else lensRun j (max n 1) s

/-- LENS_TOPK (R239–R243, R252, R254): runs to its end, or to its `n`-th yield point. -/
def execLensTopk (ring n : Nat) (s : State) : Host.Outcome State Fault Refusal := .next (lensTake ring 0x10 n s)
/-- LENS_COMPACT (R244, R256). -/
def execLensCompact (ring n : Nat) (s : State) : Host.Outcome State Fault Refusal := .next (lensTake ring 0x11 n s)
/-- LENS_SORT (R245, R257). [DEDUCED, log 52] -/
def execLensSort (ring n : Nat) (s : State) : Host.Outcome State Fault Refusal := .next (lensTake ring 0x12 n s)

/-- LENS_TASK_RESUME (R250): a class 2 task goes on at the point where it stopped, while no task of a lower class waits
or is at work. [DESIGN CHOICE, log 5] -/
def execLensTaskResume (ring n : Nat) (s : State) : Host.Outcome State Fault Refusal :=
  let r := s.ring ring
  let others := (s.unitRings r.unitType r.unitInst).filter (fun x => x.1 != ring)
  if r.unitType ≠ Config.tLens || s.isFatal || !s.lensBusy ring r 2 || others.any (fun x => s.lensBusy x.1 x.2 1 || s.lensOffers x.2 1) then .next s
  else .next (lensRun ring (max n 1) (s.setLensTask ring { s.lensTask ring with susp := false }))

end Sys2Proof.Machine
end

