-- ==== Sys2Proof/Machine/Target.lean ====
section
/-! DEFINITION. Sys2Proof/Machine/Target.lean: target ports of student cores and the release of a head record (R197,
R273–R276). -/

namespace Sys2Proof.Machine
open Sys2Proof

/-- Settings of a Prism channel (R296). -/
def State.prismK (s : State) (ch : Nat) : Nat := s.setting Config.tPrism ch 1 64
def State.prismCoalesce (s : State) (ch : Nat) : Nat := s.setting Config.tPrism ch 2 16

/-- The channel × 16 + ring number of the ring bound to a target port of a student core. -/
def State.portRing (s : State) (inst port : Nat) : Option Nat :=
  (s.prings.find? fun p => p.2.bound && p.2.kind < 2 && p.2.sHere s && p.2.core == inst && p.2.port == port
    && p.2.st != 2).map (·.1)

/-- Written slots from index `i` on, without a gap. -/
def contiguous (slots : Nat) (written : List Nat) : Nat → Nat → Nat
  | 0, _ => 0
  | n + 1, i => if written.contains i then 1 + contiguous slots written n ((i + 1) % (2 * slots)) else 0

/-- Records present at a port: visible and not released (R274). -/
def PRing.avail (p : PRing) : Nat := contiguous p.slots p.written p.slots p.head
/-- SRAM address of the slot that an index names. -/
def PRing.slotAt (p : PRing) (i : Nat) : Nat := p.base + (i % p.slots) * p.slotBytes
def PRing.next (p : PRing) (i : Nat) : Nat := (i + 1) % (2 * p.slots)

/-! ### Messages between the two devices of a remote ring (R288) -/

/-- A message about ring `n` of a channel goes to the device of the ring's other side: 0 a record or tap record, 1 a token chunk,
2 `v` credits, 3 a request for a block, 4 its grant from slot index `v`, 5 the end of a block, 6 its VOID records are written.
[DESIGN CHOICE, log 89] -/
def prismSend (ch n kind v : Nat) (bs : Bytes) (s : State) : State :=
  let p := s.pring ch n
  let dev := if p.tHere s then p.remote else Config.teacherDev p.job ch % 64
  sendGroup (if p.sealed then s.encGroup p.ctx dev else none) dev 5 (kind + 256 * ch + 65536 * n + 16777216 * v) bs s

/-- Send the pending credits of a ring as one CRD message; it merges with one that has not arrived (R276, R277). -/
def crdSend (key : Nat) (s : State) : State :=
  let p := s.pring (key / 16) (key % 16)
  if p.pend = 0 then s
  else
    let s := bump Config.tPrism (key / 16) 10 1 (bump Config.tPrism (key / 16) 9 p.pend s)
    if p.tHere s then s.setPring (key / 16) (key % 16) { p with pend := 0, crd := p.crd + p.pend }
    else prismSend (key / 16) (key % 16) 2 p.pend [] (s.setPring (key / 16) (key % 16) { p with pend := 0 })

/-- The head record of a ring is released: its slot is free and a credit goes back (R197, R276, R278). -/
def releaseHead (key : Nat) (s : State) : State :=
  let ch := key / 16
  let p := s.pring ch (key % 16)
  let p' := { p with head := p.next p.head, written := p.written.filter (· != p.head) }
  if p.order = 1 then
    let s := s.setPring ch (key % 16) { p' with free := p.free + 1 }
    if p.tHere s then s else prismSend ch (key % 16) 2 1 [] s
  else
    let s := s.setPring ch (key % 16) { p' with pend := p.pend + 1, since := if p.pend = 0 then s.now else p.since }
    if s.prismCoalesce ch = 0 then crdSend key s else s

/-- Note that a port's head record has been returned by TWAIT, or released. -/
def setTaken (inst port : Nat) (on : Bool) (s : State) : State :=
  s.updCore (32 + inst) fun c => { c with
    taken := if on then Nat.lor c.taken (2 ^ port) else rw1c c.taken (2 ^ port) }

/-- TPOP (R197): release the head record of a port. -/
def popPort (inst port key : Nat) (s : State) : State :=
  bump Config.tStudent inst 11 1 (setTaken inst port false (releaseHead key s))

end Sys2Proof.Machine
end

