-- ==== Sys2Proof/Machine/Prism.lean ====
section
/-! DEFINITION. Sys2Proof/Machine/Prism.lean: Prism channels: records, tag lists, credits, blocks, taps, landings and ring
resets (R264–R298). -/

namespace Sys2Proof.Machine
open Sys2Proof

/-! ### Tags and rings -/

/-- A tag (R291). -/
structure Tag where
  seq  : Nat
  pos  : Nat
  ring : Nat
  flags : Nat
  rsv  : Nat
deriving DecidableEq, Repr

/-- Tag `i` of a list in device memory. -/
def State.tagAt (s : State) (addr i : Nat) : Tag :=
  let b := s.hbmRead (addr + 16 * i) 16
  { seq := field b 0 8, pos := field b 8 4, ring := field b 12 1, flags := field b 13 1, rsv := field b 14 2 }
/-- The tags of a list. -/
def State.tagsOf (s : State) (addr n : Nat) : List Tag := (List.range n).map (s.tagAt addr)

/-- The Lens that a tag list takes rows from. -/
def TagList.lensOf (ch : Nat) (l : TagList) : Nat := 2 * (ch / 2) + l.lens
/-- The list of a channel from which the next row of a Lens takes its tag. -/
def State.nextList (s : State) (ch lens : Nat) : Option TagList :=
  (s.chan ch).lists.find? fun l => l.lensOf ch == lens && decide (l.next < l.rows)
/-- A ring is bound and active. -/
def State.pringLive (s : State) (ch n : Nat) : Bool := (s.pring ch n).bound && (s.pring ch n).st == 1 && decide (n < 16)

/-- A tag list may be read by context 0, or belongs to the context of a ring of the channel. -/
def State.tagReach (s : State) (ch a n : Nat) : Bool :=
  s.owns 0 a n || s.prings.any fun p => p.1 / 16 == ch && p.2.bound && s.owns p.2.ctx a n

/-- UNIT_DETAIL (R294). -/
def prismDetail (reason op rows wait start : Nat) : Bytes :=
  leBytes 1 reason ++ leBytes 1 op ++ leBytes 2 rows ++ leBytes 4 (min wait (2 ^ 32 - 1)) ++ leBytes 4 start ++ zeros 12

/-- The descriptor in progress on ring `j` of a channel ends. -/
def prismEnd (j status reason rows start lb : Nat) (s : State) : State :=
  match (s.ring j).cur with
  | some c => finish j status lb (prismDetail reason (modeByte Config.tPrism c.desc) rows (s.now - c.start) start) s
  | none => s

/-- A PRISM_ROWS that would exceed four lists in force is not ready (R291). -/
def State.prismReady (s : State) (ch : Nat) (d : Bytes) : Bool := dOp d != 0x10 || decide ((s.chan ch).lists.length < 4)

/-- Take up a descriptor of opcode `op` of a channel: index, descriptor, channel. -/
def State.prismHead (s : State) (j op : Nat) : Option (Nat × Bytes × Nat) :=
  match s.headOf j op with
  | none => none
  | some (ix, d) =>
    let r := s.ring j
    if r.unitType ≠ Config.tPrism || !s.prismReady r.unitInst d
        || !s.mayRun j 1 (s.setting Config.tPrism r.unitInst 3 0 == 1) (s.prismReady r.unitInst) then none
    else some (ix, d, r.unitInst)

/-! ### The record (R266–R270) -/

/-- What the map makes of the valid entries: mapped entries in rank order, tail, entries folded. -/
def foldMap (s : State) (map_ : Nat) : List (Nat × Nat) → Nat → List (Nat × Nat) × Nat × Nat
  | [], tail => ([], tail, 0)
  | (i, v) :: l, tail =>
    let m := leNat (s.hbmRead (map_ + 4 * i) 4)
    if bitOf m 31 then let (o, t, n) := foldMap s map_ l tail; ((m % 2 ^ 24, v) :: o, t, n)
    else let (o, t, n) := foldMap s map_ l (fAdd tail v); (o, t, n + 1)

/-- The VALID entries of a row block. -/
def rowEnts (row : Bytes) : List (Nat × Nat) :=
  (List.range (field row 0 4)).map fun j => (field row (32 + 8 * j) 4, field row (36 + 8 * j) 4)

/-- A record from a Lens row (R268), and the entries folded into TAIL. -/
def formRecord (s : State) (ch : Nat) (p : PRing) (tag : Tag) (temp : Nat) (row : Bytes) : Bytes × Nat :=
  let k := (row.length - 32) / 8
  let ents := rowEnts row
  let (out, tail, folded) := if p.mapAddr = 0 then (ents.map fun e => (e.1 % 2 ^ 24, e.2), field row 28 4, 0)
    else foldMap s p.mapAddr ents (field row 28 4)
  let flags := field row 12 1 % 16
  let flags := if p.mapAddr ≠ 0 && out.length < k then Nat.lor flags 1 else flags
  let flags := Nat.lor flags (16 * b2n (folded != 0) + 64 * b2n (bitOf tag.flags 0) + 128 * b2n (p.remote != 0xFFFF))
  (leBytes 8 tag.seq ++ leBytes 4 tag.pos ++ leBytes 2 k ++ leBytes 2 out.length ++ leBytes 1 flags ++ leBytes 1 (ch / 2) ++ zeros 2
    ++ leBytes 4 temp ++ leBytes 4 (field row 20 4) ++ leBytes 4 tail
    ++ ((out ++ List.replicate (k - out.length) (0xFFFFFF, negInf)).flatMap fun (e : Nat × Nat) => leBytes 3 e.1 ++ [0] ++ leBytes 4 e.2), folded)

/-- A map line that the row needs is poisoned. -/
def State.mapPoison (s : State) (p : PRing) (row : Bytes) : Option Nat :=
  if p.mapAddr = 0 then none
  else ((rowEnts row).find? fun e => s.hbmBad (p.mapAddr + 4 * e.1) 4).map fun e => p.mapAddr + 4 * e.1

/-! ### PRISM_ROWS (R275, R291) -/

/-- Reserve a credit for each tagged row from the task's progress on; with all of them the list is in force. -/
def rowsGo (j : Nat) : Nat → State → State
  | 0, s => s
  | n + 1, s =>
    let r := s.ring j
    match r.cur with
    | none => s
    | some c =>
      let d := c.desc
      let ch := r.unitInst
      if c.rows = field d 10 2 then
        let l : TagList := { lens := field d 8 1, addr := field d 16 8, rows := field d 10 2, next := 0, temp := field d 12 4
                             reserve := bitOf (field d 9 1) 0 }
        prismEnd j 0 0 0 0 0 (s.updChan ch fun x => { x with lists := x.lists ++ [l] })
      else if !bitOf (field d 9 1) 0 then rowsGo j n (s.setRing j { r with cur := some { c with rows := field d 10 2 } })
      else
        let p := s.pring ch (s.tagAt (field d 16 8) c.rows).ring
        if p.free = 0 then s
        else rowsGo j n ((s.setPring ch (s.tagAt (field d 16 8) c.rows).ring { p with free := p.free - 1, reserved := p.reserved + 1 }).setRing j
          { r with cur := some { c with rows := c.rows + 1 } })

/-- The checks of PRISM_ROWS: the status, and the channel ring concerned where a tag fails. -/
def rowsCheck (ch : Nat) (d : Bytes) (s : State) : Option (Nat × Nat) :=
  let n := field d 10 2
  let a := field d 16 8
  if !(decide (1 ≤ n ∧ n ≤ 4096) && isPosNormal (field d 12 4) && a % 64 == 0) then some (0x108, 0)
  else if !s.tagReach ch a (16 * n) then some (0x10D, 0)
  else if s.hbmBad a (16 * n) then none
  else
    let tags := s.tagsOf a n
    let fails (status : Nat) (p : Tag → Bool) : Option (Nat × Nat) := (tags.find? p).map fun t => (status, t.ring % 16)
    fails 0x108 (fun t => decide (t.flags > 1) || t.rsv != 0)
      |>.or (fails 0x107 fun t => !s.pringLive ch t.ring)
      |>.or (fails 0x108 fun t => (s.pring ch t.ring).kind != 0 || (bitOf (field d 9 1) 0 && (s.pring ch t.ring).order == 1))
      |>.or (fails 0x111 fun t => fLt (field d 12 4) (s.pring ch t.ring).tmin || decide ((s.pring ch t.ring).kmax < s.prismK ch))

/-- A descriptor of a channel fails its check; PRISM_ERR_INFO names channel ring `n` (R297). -/
def prismFail (j ix : Nat) (d : Bytes) (status n : Nat) (s : State) : State :=
  let ch := (s.ring j).unitInst
  if status = 0x111 then failCheck j ix d status (reasonDetail Config.tPrism d 1) false (setErr Config.tPrism ch 0 (j + 4096 * n) ix 1 s)
  else failArg j ix d status (setErr Config.tPrism ch 6 (j + 4096 * n) ix 5 s)

/-- A poisoned line ends a channel task before it has an effect (R577). [DEDUCED, log 54] -/
def prismMarked (j ix : Nat) (d : Bytes) (space addr : Nat) (s : State) : State :=
  let r := s.ring j
  raise { code := if space = 1 then 3 else 1, status := 0x113, flags := 1, ty := r.unitType, inst := r.unitInst, ctx := r.ctx
          ring := j, index := ix, addr, space } (prismEnd j 0x113 0 0 0 0 (begin j ix d s))

/-- PRISM_ROWS (R291): a tag list, with credits reserved for its rows. -/
def execPrismRows (ring : Nat) (s : State) : Host.Outcome State Fault Refusal :=
  match s.prismHead ring 0x10 with
  | none => .next s
  | some (ix, d, ch) =>
    match rowsCheck ch d s with
    | some (st, n) => .next (prismFail ring ix d st n s)
    | none =>
      if s.hbmBad (field d 16 8) (16 * field d 10 2) then .next (prismMarked ring ix d 1 (field d 16 8) s)
      else .next (rowsGo ring (field d 10 2 + 2) (hbmTaken (field d 16 8) (16 * field d 10 2) (served ring (begin ring ix d s))))

/-! ### PRISM_TAP (R280, R292) -/

/-- Bytes of a tap's vector. -/
def PRing.tapBytes (p : PRing) : Nat := p.limit * (if p.tapFmt = 0 then 4 else 2)
/-- SRAM run of row `i` of a tap task. -/
def tapRow (d : Bytes) (p : PRing) (i : Nat) : Nat × Nat := (64 * field d 16 3 + i * (64 * field d 19 3), p.tapBytes)
/-- A tap record's header (R280). -/
def tapHeader (p : PRing) (seq pos len flags : Nat) : Bytes :=
  leBytes 8 seq ++ leBytes 4 pos ++ leBytes 1 p.tap ++ leBytes 1 p.tapFmt ++ zeros 2 ++ leBytes 4 len ++ leBytes 1 flags ++ zeros 11

/-- Put a record into flight. -/
def fly (ch ring seq pos : Nat) (bs : Bytes) (s : State) : State :=
  bump Config.tPrism ch 2 bs.length (s.updChan ch fun x => { x with flight := x.flight ++ [{ ring, seq, pos, bytes := bs }] })

/-- Send tap records while there are credits. -/
def tapGo (j : Nat) : Nat → State → State
  | 0, s => s
  | n + 1, s =>
    let r := s.ring j
    match r.cur with
    | none => s
    | some c =>
      let d := c.desc
      let ch := r.unitInst
      let p := s.pring ch (field d 8 1)
      if c.rows = field d 12 2 then prismEnd j 0 0 c.rows 0 c.lb s
      else if p.order = 0 && p.free = 0 then s
      else
        let t := s.tagAt (field d 24 8) c.rows
        let flags := 64 * b2n (bitOf t.flags 0) + 128 * b2n (p.remote != 0xFFFF)
        let bs := tapHeader p t.seq t.pos p.limit flags ++ s.sramRead (field d 10 2) (tapRow d p c.rows).1 p.tapBytes
        let s := if p.order = 0 then s.setPring ch (field d 8 1) { p with free := p.free - 1 } else s
        let s := bump Config.tPrism ch 6 1 (fly ch (field d 8 1) t.seq t.pos bs s)
        tapGo j n (s.setRing j { r with cur := some { c with rows := c.rows + 1, lb := c.lb + bs.length } })

/-- The checks of PRISM_TAP. -/
def tapCheck (ch : Nat) (d : Bytes) (s : State) : Option Nat :=
  let n := field d 12 2
  let p := s.pring ch (field d 8 1)
  if !(decide (1 ≤ n ∧ n ≤ 4096) && decide (field d 10 2 < 32) && field d 10 2 / 8 == ch / 2 && field d 24 8 % 64 == 0) then some 0x108
  else if !s.pringLive ch (field d 8 1) then some 0x107
  else if p.kind ≠ 1 then some 0x108
  else if !(List.range n).all (fun i => sramReadable (field d 10 2) (tapRow d p i).1 p.tapBytes) || !s.tagReach ch (field d 24 8) (16 * n) then
    some 0x10D
  else none

/-- PRISM_TAP (R292): tap records from a teacher core, each against a credit. -/
def execPrismTap (ring : Nat) (s : State) : Host.Outcome State Fault Refusal :=
  match s.prismHead ring 0x11 with
  | none => .next s
  | some (ix, d, ch) =>
    match tapCheck ch d s with
    | some st => .next (prismFail ring ix d st (field d 8 1 % 16) s)
    | none =>
      let p := s.pring ch (field d 8 1)
      if s.hbmBad (field d 24 8) (16 * field d 12 2) then .next (prismMarked ring ix d 1 (field d 24 8) s)
      else match s.firstMarked (field d 10 2) ((List.range (field d 12 2)).map (tapRow d p)) with
        | some m => .next (prismMarked ring ix d 4 m.1 s)
        | none => .next (tapGo ring (field d 12 2 + 1) (served ring (begin ring ix d s)))

/-- Credits have come: the tasks of a channel that waited for them go on. -/
def prismGo (ch : Nat) (s : State) : State :=
  (s.unitRings Config.tPrism ch).foldl (fun a r =>
    match r.2.cur with
    | some c => if c.phase ≠ 0 then a
        else if dOp c.desc = 0x10 then rowsGo r.1 (field c.desc 10 2 + 2) a
        else if dOp c.desc = 0x11 then tapGo r.1 (field c.desc 12 2 + 1) a else a
    | none => a) s

/-! ### Blocks (R274, R278, R293) -/

/-- The open block of a sequence. -/
def PRing.blockOf (p : PRing) (seq : Nat) : Option Blk := p.blocks.find? fun b => b.seq == seq
/-- Slot index of position `pos` of a block. -/
def PRing.posIx (p : PRing) (b : Blk) (pos : Nat) : Nat := (b.start + pos - b.first) % (2 * p.slots)
/-- Slots from head to tail. -/
def PRing.filled (p : PRing) : Nat := (p.tail + 2 * p.slots - p.head) % (2 * p.slots)
/-- The index lies between head and tail: its slot is not released. -/
def PRing.inUse (p : PRing) (i : Nat) : Bool :=
  decide ((i + 2 * p.slots - p.head) % (2 * p.slots) < (p.tail + 2 * p.slots - p.head) % (2 * p.slots))

/-- An open joins the opens of its channel; where the receive side is on a peer device the request travels there (R278, R288). -/
def openAsk (ch : Nat) (o : BlkOpen) (s : State) : State :=
  let s := s.updChan ch fun x => { x with opens := x.opens ++ [o] }
  if (s.pring ch o.ring).sHere s then s
  else prismSend ch o.ring 3 0 (leBytes 8 o.seq ++ leBytes 4 o.first ++ leBytes 4 o.len) s

/-- The grant of an open whose block starts at slot index `start`, where it was asked for. -/
def openDone (ch : Nat) (o : BlkOpen) (start : Nat) (s : State) : State :=
  if o.by_ = 0 then s
  else if o.by_ ≤ Config.rings then prismEnd (o.by_ - 1) 0 0 0 start 0 s
  else prismSend ch o.ring 4 start (leBytes 8 o.seq ++ leBytes 4 (s.pring ch o.ring).free) s

/-- PRISM_BLOCK_OPEN (R274, R293): the open waits for its grant. -/
def execPrismBlockOpen (ring : Nat) (s : State) : Host.Outcome State Fault Refusal :=
  match s.prismHead ring 0x12 with
  | none => .next s
  | some (ix, d, ch) =>
    let n := field d 9 1
    let p := s.pring ch n
    let fail (st : Nat) : State := prismFail ring ix d st (n % 16) s
    if field d 8 1 = 1 then .next s
    else if field d 8 1 ≠ 0 then .next (fail 0x108)
    else if !s.pringLive ch n then .next (fail 0x107)
    else if p.order ≠ 1 || p.kind = 2 || field d 28 4 = 0 || p.maxLen < field d 28 4 then .next (fail 0x108)
    else if (p.blockOf (field d 16 8)).isSome || (s.chan ch).opens.any (fun o => o.ring == n && o.seq == field d 16 8) then
      .next (fail 0x10B)
    else .next (openAsk ch { ring := n, seq := field d 16 8, first := field d 24 4, len := field d 28 4, by_ := ring + 1 }
      (served ring (begin ring ix d s)))

/-- BLOCK_GRANT (R274, R278): the oldest open of a ring is granted when its slots are free. The receive side grants. -/
def execBlockGrant (chan ring : Nat) (s : State) : Host.Outcome State Fault Refusal :=
  let p := s.pring chan ring
  match (s.chan chan).opens.find? fun o => o.ring == ring with
  | none => .next s
  | some o =>
    if s.isFatal || p.free < o.len || p.blocks.length ≥ 256 || !p.sHere s then .next s
    else
      let s := s.setPring chan ring { p with
        free := p.free - o.len, tail := (p.tail + o.len) % (2 * p.slots)
        blocks := p.blocks ++ [{ seq := o.seq, first := o.first, len := o.len, start := p.tail }] }
      let s := s.updChan chan fun x => { x with opens := x.opens.erase o }
      .next (openDone chan o p.tail s)

/-- A VOID record (R274, R280): header only. -/
def voidRecord (p : PRing) (seq pos : Nat) : Bytes :=
  if p.kind = 0 then leBytes 8 seq ++ leBytes 4 pos ++ zeros 4 ++ leBytes 1 32 ++ zeros 15 else tapHeader p seq pos 0 32

/-- A record reaches the SRAM slot of an index. -/
def placeRecord (ch n i : Nat) (bs : Bytes) (s : State) : State :=
  let p := s.pring ch n
  (sramWrite (32 + p.core) (p.slotAt i) bs s).updPring ch n fun p => { p with written := NSet.ins i p.written }

/-- End a block: VOID records into its unwritten slots (R274). The end of a block on a peer device travels there. -/
def endBlock (ch n seq : Nat) (s : State) : State :=
  let p := s.pring ch n
  let gone (s : State) : State := s.updPring ch n fun p => { p with blocks := p.blocks.filter (·.seq != seq) }
  if !p.sHere s then prismSend ch n 5 0 (leBytes 8 seq) (gone s)
  else match p.blockOf seq with
  | none => s
  | some b =>
    let todo := (List.range b.len).filter fun k =>
      p.inUse (p.posIx b (b.first + k)) && !p.written.contains (p.posIx b (b.first + k))
    let s := todo.foldl (fun a k => placeRecord ch n (p.posIx b (b.first + k)) (voidRecord p seq (b.first + k)) a) s
    gone (if todo.isEmpty then s else bump Config.tPrism ch 11 todo.length s)

/-- PRISM_BLOCK_END (R274, R293). -/
def execPrismBlockEnd (ring : Nat) (s : State) : Host.Outcome State Fault Refusal :=
  match s.prismHead ring 0x12 with
  | none => .next s
  | some (ix, d, ch) =>
    let n := field d 9 1
    if field d 8 1 ≠ 1 then .next s
    else if !s.pringLive ch n || ((s.pring ch n).blockOf (field d 16 8)).isNone then .next (prismFail ring ix d 0x107 (n % 16) s)
    else
      let here := (s.pring ch n).sHere s
      let s := endBlock ch n (field d 16 8) (served ring (begin ring ix d s))
      .next (if here then prismEnd ring 0 0 0 0 0 s else s)

/-! ### Ring resets (R295) -/

/-- Give back the credits reserved for the rows of a list from `i` on. [DEDUCED, log 54] -/
def unreserve (ch addr i n : Nat) (s : State) : State :=
  (List.range (n - i)).foldl (fun a k =>
    let g := (a.tagAt addr (i + k)).ring
    a.updPring ch g fun p => if p.reserved = 0 then p else { p with reserved := p.reserved - 1, free := p.free + 1 }) s

/-- A list, or a task in progress, names a ring. -/
def State.listNames (s : State) (addr rows n : Nat) : Bool := (s.tagsOf addr rows).any fun t => t.ring == n
def State.taskNames (s : State) (d : Bytes) (n : Nat) : Bool :=
  match dOp d with
  | 0x10 => s.listNames (field d 16 8) (field d 10 2) n
  | 0x11 => field d 8 1 == n
  | 0x12 => field d 9 1 == n
  | _ => false

/-- The ring of the Lens with a row held for a channel. -/
def State.heldRow (s : State) (lens : Nat) : Option (Nat × Bytes × Bytes) :=
  (s.unitRings Config.tLens lens).findSome? fun r =>
    match r.2.cur, (s.lensTask r.1).held with
    | some c, some b => if c.phase = 0 then some (r.1, c.desc, b) else none
    | _, _ => none

/-- Steps 1 to 5 of a ring reset, with the REASON that ended tasks report. -/
def pringReset (ch n reason : Nat) (s : State) : State :=
  let p := s.pring ch n
  if !p.bound || p.st = 2 then s
  else
    let gone := (s.chan ch).lists.filter fun l => s.listNames l.addr l.rows n
    let s := [2 * (ch / 2), 2 * (ch / 2) + 1].foldl (fun a lens =>
      match a.heldRow lens with
      | some (j, d, _) =>
        if field d 14 2 == ch && (match a.nextList ch lens with | some l => gone.contains l | none => false) then
          lensEnd j 0x113 6 (setErr Config.tLens lens 4 j ((a.ring j).cur.elim 0 (·.index)) 6 a)
        else a
      | none => a) s
    let s := gone.foldl (fun a l => bump Config.tPrism ch 7 (l.rows - l.next)
      (if l.reserve then unreserve ch l.addr l.next l.rows a else a)) s
    let s := (s.unitRings Config.tPrism ch).foldl (fun a r =>
      match r.2.cur with
      | some c =>
        if c.phase = 0 && a.taskNames c.desc n then
          let a := if dOp c.desc = 0x10 && bitOf (field c.desc 9 1) 0 then unreserve ch (field c.desc 16 8) 0 c.rows a else a
          prismEnd r.1 0x113 reason (if dOp c.desc = 0x11 then c.rows else 0) 0 c.lb a
        else a
      | none => a) s
    let dropped := ((s.chan ch).flight.filter fun f => f.ring == n).length
    let s := if dropped = 0 then s else bump Config.tPrism ch 7 dropped s
    let s := s.updChan ch fun x => { x with
      lists := x.lists.filter fun l => !gone.contains l
      flight := x.flight.filter fun f => f.ring != n
      opens := x.opens.filter fun o => o.ring != n }
    let s := if p.kind < 2 && p.sHere s then setTaken p.core p.port false s else s
    setErr Config.tPrism ch 3 (4096 * n) 0 reason (s.updPring ch n fun p => { p with st := 2 })

/-- The notice to the context of a job whose rings were reset; the manual gives its KIND no number. [DEDUCED, log 54] -/
def pringNotice (c : Nat) (s : State) : State :=
  let (k, s) := s.fresh
  notify c (k % 65536) (s.log.next % 2 ^ 32) s

/-- PRISM_RING_RESET (R295): a ring resets on an uncorrectable receive buffer (cause 0) or on the loss of the path to its
peer (cause 1). [DEDUCED, log 54] -/
def execPrismRingReset (ring cause : Nat) (s : State) : Host.Outcome State Fault Refusal :=
  let ch := ring / 16
  let n := ring % 16
  let p := s.pring ch n
  if !p.bound || p.st = 2 || s.isFatal then .next s
  else if cause = 0 then
    .next (raise { code := 0xB, status := 0x113, flags := 0, ty := Config.tPrism, inst := ch, ctx := p.ctx, ring := 0xFFFF
                   index := 0, addr := 0, space := 0 }
      (pringNotice p.ctx (pringReset ch n 2 (setErr Config.tPrism ch 2 (4096 * n) 0 2 s))))
  else if p.remote = 0xFFFF then .next s
  else .next (pringNotice p.ctx (pringReset ch n 6 (setErr Config.tPrism ch 5 (4096 * n) 0 6 s)))

/-! ### Rows, records and credits -/

/-- The source of a channel's link that a record waits in: the record stream, or the tap stream of its ring (R289). -/
def State.flightSource (s : State) (ch : Nat) (f : Flight) : Nat := if (s.pring ch f.ring).kind = 1 then f.ring + 1 else 0
/-- The records that wait first in each source of a channel: the record, its source, and the PRISM_SHARE of its ring's context. -/
def State.flightHeads (s : State) (ch : Nat) : List (Flight × Nat × Nat) :=
  let fs := (s.chan ch).flight.filter fun f => (s.pring ch f.ring).kind != 2
  (List.range 17).filterMap fun k => (fs.find? fun f => s.flightSource ch f == k).map fun f =>
    (f, k, (s.ctx (s.pring ch f.ring).ctx).quota.prismShare)

/-- A record comes to the receive side of its ring (R273, R274). -/
def arriveRecord (ch : Nat) (f : Flight) (s : State) : State :=
  let p := s.pring ch f.ring
  let stray (s : State) : State := setErr Config.tPrism ch 1 (4096 * f.ring) 0 0 (bump Config.tPrism ch 12 1 s)
  let land (i : Nat) (s : State) : State := bump Config.tPrism ch 8 1 (placeRecord ch f.ring i f.bytes s)
  if !s.pringLive ch f.ring then bump Config.tPrism ch 7 1 s
  else if p.order = 0 then (land p.tail s).updPring ch f.ring fun p => { p with tail := p.next p.tail }
  else match p.blockOf f.seq with
    | none => stray s
    | some b =>
      let i := p.posIx b f.pos
      if f.pos < b.first || b.first + b.len ≤ f.pos || p.written.contains i || !p.inUse i then stray s else land i s

/-- A record leaves for the device that holds its ring, in messages that count what is still to come. -/
def sendRecord (ch : Nat) (f : Flight) (s : State) : State :=
  let n := cdiv f.bytes.length msgMax
  (List.range n).foldl (fun s i => prismSend ch f.ring 0 (n - 1 - i) ((f.bytes.drop (msgMax * i)).take msgMax) s) s

/-- PRISM_RECORD_LAND (R273, R274, R288, R289): of the record and tap streams with data, deficit round robin picks one, and its oldest
record lands, or leaves for the peer device that holds its ring. -/
def execPrismRecordLand (chan : Nat) (s : State) : Host.Outcome State Fault Refusal :=
  let hs := s.flightHeads chan
  match (s.chan chan).turns.pick (1 + Config.prismQuantum) (hs.map fun h => (h.2.1, h.2.2, h.1.bytes.length)) with
  | none => .next s
  | some (k, turns) =>
    match hs.find? fun h => h.2.1 == k with
    | none => .next s
    | some (f, _, _) =>
      if s.isFatal then .next s
      else
        let s := s.updChan chan fun x => { x with flight := x.flight.erase f, turns }
        if (s.pring chan f.ring).sHere s || !s.pringLive chan f.ring then .next (arriveRecord chan f s)
        else .next (sendRecord chan f s)

/-- PRISM_CREDIT_FLUSH (R276): the coalescing window of a ring closes; FABRIC runs at two cycles per tick. -/
def execPrismCreditFlush (ring : Nat) (s : State) : Host.Outcome State Fault Refusal :=
  let p := s.pring (ring / 16) (ring % 16)
  if p.pend = 0 || s.isFatal then .next s
  else .next (crdSend ring (atLeast (p.since + cdiv (s.prismCoalesce (ring / 16)) 2) s))

/-- Credits come back to the side of a ring that counts them; a peer device returns no more than are out. -/
def creditBack (key n : Nat) (s : State) : State :=
  let ch := key / 16
  let p := s.pring ch (key % 16)
  let inAir := ((s.chan ch).flight.filter fun f => f.ring == key % 16).length
  let k := if p.remote = 0xFFFF then p.crd else min n (p.slots - p.free - p.reserved - inAir)
  if k = 0 then s
  else prismGo ch (s.setPring ch (key % 16) { p with free := p.free + k, crd := if p.remote = 0xFFFF then 0 else p.crd })

/-- PRISM_CREDIT_RETURN (R276, R277): the CRD message of a ring arrives; `n` is the count that a peer device returns for a
remote ring. -/
def execPrismCreditReturn (ring n : Nat) (s : State) : Host.Outcome State Fault Refusal :=
  let p := s.pring (ring / 16) (ring % 16)
  if !p.bound || p.st = 2 || s.isFatal then .next s else .next (creditBack ring n s)

/-! ### What a peer device sends about a remote ring (R288) -/

/-- A token chunk is written at its ring's tail in T-side memory (R287). -/
def landChunk (ch n : Nat) (bs : Bytes) (s : State) : State :=
  let p := s.pring ch n
  (hbmWrite (p.base + p.tail % p.slots * 1088) (fitTo 1088 bs) s).setPring ch n
    { p with written := NSet.ins p.tail p.written, tail := (p.tail + 1) % (2 * p.slots) }

/-- The descriptor in progress that ends a block on a peer device. -/
def State.endTask (s : State) (ch n seq : Nat) : Option Nat :=
  ((s.unitRings Config.tPrism ch).find? fun r => match r.2.cur with
    | some c => c.phase == 0 && dOp c.desc == 0x12 && field c.desc 8 1 == 1 && field c.desc 9 1 == n && field c.desc 16 8 == seq
    | none => false).map (·.1)

/-- A PRISM-class message of a peer: the header word of `prismSend`, and its bytes. A message of a side that the ring does not have
here, or about a ring that is not active, is dropped. [DESIGN CHOICE, log 89] -/
def prismPeer (src w : Nat) (b : Bytes) (s : State) : State :=
  let ch := bits w 8 8
  let n := bits w 16 8
  let v := w / 2 ^ 24
  let p := s.pring ch n
  let seq := field b 0 8
  if !s.pringLive ch n || p.remote = 0xFFFF then s
  else match w % 256, p.tHere s with
    | 0, false =>
      let bs := p.part ++ b
      if p.kind = 2 then s
      else if v ≠ 0 then s.setPring ch n { p with part := bs }
      else arriveRecord ch { ring := n, seq := field bs 0 8, pos := field bs 8 4, bytes := bs } (s.setPring ch n { p with part := [] })
    | 1, true => if p.kind ≠ 2 || p.filled ≥ p.slots then s else landChunk ch n b s
    | 2, _ => creditBack (16 * ch + n) v s
    | 3, false => if p.order ≠ 1 then s else s.updChan ch fun x => { x with opens := x.opens ++
        [{ ring := n, seq, first := field b 8 4, len := field b 12 4, by_ := Config.rings + 1 + src % 64 }] }
    | 4, true =>
      (match (s.chan ch).opens.find? fun o => o.ring == n && o.seq == seq with
      -- the open was withdrawn meanwhile: the block ends at once
      | none => endBlock ch n seq s
      | some o => openDone ch o v ((s.updChan ch fun x => { x with opens := x.opens.erase o }).setPring ch n
          { p with free := field b 8 4, blocks := p.blocks ++ [{ seq, first := o.first, len := o.len, start := v }] }))
    | 5, false => prismSend ch n 6 0 (leBytes 8 seq) (endBlock ch n seq s)
    | 6, true => match s.endTask ch n seq with | some j => prismEnd j 0 0 0 0 0 s | none => s
    | _, _ => s

end Sys2Proof.Machine
end

