-- ==== Sys2Proof/Machine/Job.lean ====
section
/-! DEFINITION. Sys2Proof/Machine/Job.lean: jobs, their header, the binding of Prism rings, step blocks and the Timing
Ledger (R271, R272, R299–R305, R310, R311, R322). -/

namespace Sys2Proof.Machine
open Sys2Proof

/-! ### The job header (R301) -/

def Job.mode (j : Job) : Nat := field j.header 0 1
def Job.resume (j : Job) : Bool := bitOf (field j.header 1 1) 2
def Job.opt (j : Job) : Nat := field j.header 3 1 % 4
def Job.replicated (j : Job) : Bool := bitOf (field j.header 3 1) 2
def Job.image (j : Job) : Nat := field j.header 4 2
def Job.group (j : Job) : Nat := field j.header 6 2
def Job.batch (j : Job) : Nat := field j.header 8 4
def Job.temp (j : Job) : Nat := field j.header 12 4
def Job.rowTags (j : Job) : Nat := field j.header 16 8
def Job.stepAddr (j : Job) : Nat := field j.header 24 8
def Job.ledgerAddr (j : Job) : Nat := field j.header 32 8
def Job.ledgerDepth (j : Job) : Nat := field j.header 40 2
def Job.scaleExp0 (j : Job) : Nat := field j.header 50 1
def Job.vetoLimit (j : Job) : Nat := field j.header 51 1
def Job.growth (j : Job) : Nat := field j.header 52 2
def Job.beta1 (j : Job) : Nat := field j.header 56 4
def Job.beta2 (j : Job) : Nat := field j.header 60 4
def Job.eps (j : Job) : Nat := field j.header 64 4
def Job.decay (j : Job) : Nat := field j.header 68 4
def Job.gradMul (j : Job) : Nat := field j.header 72 4
def Job.maxNorm (j : Job) : Nat := field j.header 76 4
def Job.stepFirst (j : Job) : Nat := field j.header 80 8

/-- Prism rings of a job, by channel × 16 + ring number. -/
def State.jobRings (s : State) (h : Nat) : List Nat := (s.prings.filter fun p => p.2.bound && p.2.job == h).map (·.1)
/-- An update window is open on some Update Unit (R313). -/
def State.windowOpen (s : State) : Bool := (s.upd 0).window || (s.upd 1).window
def State.updUpd (s : State) (u : Nat) (f : Upd → Upd) : State := s.setUpd u (f (s.upd u))

/-! ### The step block (R310, R311) -/

/-- The step block as the Update Units' step state gives it. -/
def stepBlock (x : StepState) : Bytes :=
  leBytes 8 x.step ++ leBytes 8 x.attempt ++ leBytes 1 x.cause ++ leBytes 1 x.flags ++ leBytes 1 x.scaleExp ++ leBytes 1 x.consecVeto
    ++ leBytes 2 x.clean ++ leBytes 2 x.vetoDev ++ leBytes 4 x.vetoTensor ++ leBytes 4 x.norm ++ leBytes 4 x.clip ++ leBytes 4 x.b1t
    ++ leBytes 4 x.b2t ++ leBytes 4 x.participants ++ leBytes 8 x.commitTick ++ zeros 8

/-- fp32 pattern in (0, 1]. -/
def unitInterval (b : Nat) : Bool := decide (0 < b ∧ b ≤ one32)
/-- Offset at which a step block fails R311. -/
def stepBlockBad (b : Bytes) : Option Nat :=
  if field b 16 1 ≥ 64 then some 16
  else if field b 18 1 > 24 then some 18
  else if !unitInterval (field b 36 4) then some 36
  else if !unitInterval (field b 40 4) then some 40
  else firstNonzero b [(56, 8)]

/-- The Update Units take their step state from a step block (R303, R311). -/
def loadStep (b : Bytes) (s : State) : State :=
  let x : StepState := { StepState.init with
    step := field b 0 8, cause := field b 16 1, flags := field b 17 1, scaleExp := field b 18 1, consecVeto := field b 19 1
    clean := field b 20 2, vetoDev := field b 22 2, vetoTensor := field b 24 4, norm := field b 28 4, clip := field b 32 4
    b1t := field b 36 4, b2t := field b 40 4, participants := field b 44 4, commitTick := field b 48 8, attempt := field b 8 8 }
  let u : Upd := { Upd.init with attempt := (field b 8 8 + 1) % 2 ^ 64 }
  ({ s with step := x }.setUpd 0 u).setUpd 1 u

/-! ### The Timing Ledger (R322) -/

/-- Address of the ledger entry of an attempt. -/
def Job.ledgerEntry (j : Job) (attempt : Nat) : Nat := j.ledgerAddr + 576 * (attempt % j.ledgerDepth)
/-- The first write for an attempt clears its entry and names the attempt. -/
def ledgerOpen (j : Job) (attempt : Nat) (s : State) : State :=
  if j.ledgerAddr = 0 || s.step.opened.contains attempt then s
  else hbmWrite (j.ledgerEntry attempt) (leBytes 8 s.step.step ++ leBytes 8 attempt ++ leBytes 2 s.sysIndex ++ zeros 558)
    { s with step := { s.step with opened := NSet.ins attempt s.step.opened } }
/-- Write a field of the entry of an attempt. -/
def ledgerPut (j : Job) (attempt off : Nat) (bs : Bytes) (s : State) : State :=
  if j.ledgerAddr = 0 then s else hbmWrite (j.ledgerEntry attempt + off) bs (ledgerOpen j attempt s)

/-! ### Update tasks that a job's end cuts short (R304, R320) -/

/-- UNIT_DETAIL of an Update Unit but for UPD_COMMIT (R320). -/
def updDetail (reason op nf elements cycles : Nat) : Bytes :=
  leBytes 1 reason ++ leBytes 1 op ++ zeros 2 ++ leBytes 4 (min nf (2 ^ 32 - 1)) ++ leBytes 8 elements ++ leBytes 8 cycles

/-- The tasks of both Update Units that are at work end with E_ABORTED and a REASON. -/
def updCut (reason : Nat) (s : State) : State :=
  ((s.unitRings Config.tUpdate 0) ++ (s.unitRings Config.tUpdate 1)).foldl (fun a r =>
    match r.2.cur with
    | some c =>
      if c.phase = 0 then
        (finish r.1 0x113 0 (updDetail reason (dOp c.desc % 16) 0 0 0) a).updUpd r.2.unitInst fun u =>
          { u with commit := none, bucket := [], shardsOk := u.shardsOk && dOp c.desc != 0x10 }
      else a
    | none => a) s

/-! ### Ends of jobs -/

/-- Every Prism ring of a job is reset, and its context is told (R295). -/
def resetJobRings (h reason : Nat) (s : State) : State :=
  match s.job h with
  | none => s
  | some j =>
    if (s.jobRings h).any (fun k => (s.pring (k / 16) (k % 16)).st != 2) then
      pringNotice j.ctx ((s.jobRings h).foldl (fun a k => pringReset (k / 16) (k % 16) reason a) s)
    else s

def State.ckpt (s : State) (n : Nat) : Ckpt := SMap.get Ckpt.init s.mirror.ckpts n
def State.setCkpt (s : State) (n : Nat) (x : Ckpt) : State := { s with mirror := { s.mirror with ckpts := SMap.set Ckpt.init s.mirror.ckpts n x } }

/-- Set an error bit of the Mirror engine, recording job, device and attempt when the register was all zero (R478). -/
def mirErr (bit job dev attempt : Nat) (s : State) : State :=
  let s := if (s.unit Config.tMirror 0).err = 0 then
      { s with mirror := { s.mirror with eJob := job, eDev := dev, eAttempt := attempt % 2 ^ 32 } } else s
  s.updUnit Config.tMirror 0 fun u => { u with err := Nat.lor u.err (2 ^ bit) }

/-- A checkpoint becomes FAILED (R457): its command ends, and the engine shows it. -/
def ckptFail (n status : Nat) (s : State) : State :=
  let k := s.ckpt n
  if k.st = 1 || k.st = 2 then
    let s := mirErr 2 k.job s.sysIndex k.attempt (s.setCkpt n { k with st := 4, op := none })
    match k.op with
    | some o => finishOp o.1 o.2 status 0 [] s
    | none => s
  else s

/-- The checkpoints of a job that are in progress fail. -/
def ckptsFail (h : Nat) (s : State) : State :=
  ((s.mirror.ckpts.filter fun k => k.2.job == h).map (·.1)).foldl (fun a n => ckptFail n 0x113 a) s

/-- A job goes to ABORTED: its program and tasks stop, its rings are reset, and nothing more is applied. [DEDUCED, log 65] -/
def jobAbort (h : Nat) (s : State) : State :=
  match s.job h with
  | none => s
  | some j =>
    let s := s.setJob h { j with st := 4, fwd := false }
    let s := { s with sweeps := s.sweeps.filter fun w => w.job != some h }
    let s := if j.student then
        updCut 7 ((s.updUpd 0 fun u => { u with window := false }).updUpd 1 fun u => { u with window := false })
      else s
    ckptsFail h (resetJobRings h 2 s)

/-- The job's stop, or its removal, is complete (R304). -/
def jobStopEnd (h : Nat) (s : State) : State :=
  match s.job h with
  | none => s
  | some j =>
    if (j.st = 2 || (j.st = 4 && j.stopOp.isSome)) && (s.jobRings h).isEmpty then
      let step := if j.student then s.step.step else 0
      let status := if j.st = 2 || j.stopDelete then 0 else 0x113
      let s := if j.stopDelete then { s with jobs := s.jobs.filter fun x => x.1 != h }
        else s.setJob h { j with st := if j.st = 2 then 3 else 4, stopOp := none }
      match j.stopOp with
      | some o => finishOp j.ctx o status 0 (leBytes 8 step) s
      | none => s
    else s

/-- A STOPPING job whose program has ended and that has no window open: its Update Unit rings stop and its Prism rings are
reset (R304). -/
def jobStopGo (h : Nat) (s : State) : State :=
  match s.job h with
  | none => s
  | some j =>
    if j.st = 2 && !j.fwd && !(j.student && s.windowOpen) then
      jobStopEnd h (resetJobRings h 2 (if j.student then updCut 7 s else s))
    else s

/-- The error record of UPD_INCONSISTENT (R576). -/
def inconsistent (u c ring ix : Nat) (s : State) : State :=
  raise { code := 0xA, status := 0x113, flags := 0, ty := Config.tUpdate, inst := u, ctx := c, ring, index := ix, addr := 0
          space := 0 } s

/-- PRISM_RING_RESET_COMPLETE (R295): nothing of the ring remains in flight, and it is free. -/
def execPrismRingResetComplete (ring : Nat) (s : State) : Host.Outcome State Fault Refusal :=
  let p := s.pring (ring / 16) (ring % 16)
  if !p.bound || p.st ≠ 2 || s.isFatal then .next s
  else .next (jobStopEnd p.job (s.setPring (ring / 16) (ring % 16) PRing.init))

/-! ### JOB_CREATE (R301, R302) -/

/-- fp32 pattern in [0, 1); −0 is equal to 0. -/
def belowOne (b : Nat) : Bool := decide (b < one32) || b == 2 ^ 31
/-- Offset of the first header field out of its range (R301). [DEDUCED, log 55] -/
def headerRange (p : Bytes) (layers : Nat) : Option Nat :=
  if field p 0 1 > 3 then some 0
  else if field p 2 1 > 32 then some 2
  else if field p 3 1 % 4 = 3 then some 3
  else if !isPosNormal (field p 12 4) then some 12
  else if field p 40 2 = 0 then some 40
  else match (List.range 4).find? (fun i => field p (42 + 2 * i) 2 ≠ 0xFFFF && field p (42 + 2 * i) 2 ≥ layers) with
    | some i => some (42 + 2 * i)
    | none =>
      if field p 50 1 > 24 then some 50
      else if field p 52 2 = 0 then some 52
      else if !belowOne (field p 56 4) then some 56
      else if !belowOne (field p 60 4) then some 60
      else if fNonFinite (field p 64 4) then some 64
      else if fNonFinite (field p 68 4) || (field p 68 4 ≥ 2 ^ 31 && field p 68 4 % 2 ^ 31 ≠ 0) then some 68
      else if !isPosNormal (field p 72 4) then some 72
      else if fNonFinite (field p 76 4) then some 76
      else none

/-- Student-side addresses of a context. -/
def State.ownsStudent (s : State) (c a n : Nat) : Bool := s.owns c a n && decide (4 ≤ stackOf a)

/-- Rights and addresses of JOB_CREATE. -/
def jobRights (c : Nat) (p : Bytes) (s : State) : Option (Nat × Nat) :=
  let role := field p 1 1
  let g := field p 6 2
  let imgBad : Bool := match s.image (field p 4 2) with
    | some x => decide (field p 0 1 ≠ 3) && !imgRight c x
    | none => false
  if imgBad then some (ePermission, 4)
  else if g ≠ 0xFFFF && (s.group g).members.isEmpty then some (eBadHandle, 6)
  else if g ≠ 0xFFFF && (s.group g).ctx ≠ c then some (ePermission, 6)
  else if bitOf role 0 && !s.owns c (field p 16 8) (max 1 (16 * field p 8 4)) then some (eAddress, 16)
  else if bitOf role 1 && (field p 24 8 % 64 ≠ 0 || !s.ownsStudent c (field p 24 8) 64) then some (eAddress, 24)
  else if bitOf role 1 && field p 32 8 ≠ 0
      && (field p 32 8 % 64 ≠ 0 || !s.ownsStudent c (field p 32 8) (576 * field p 40 2)) then some (eAddress, 32)
  else none

/-- Seal checks of JOB_CREATE (R523): the policy item that forbids it. -/
def jobSeal (p : Bytes) (s : State) : Option Nat :=
  if field p 0 1 = 3 then none
  else match s.image (field p 4 2) with
  | none => none
  | some g =>
    if !s.sealAllows g (field p 0 1) then some 1
    else if (List.range 4).any (fun i => field p (42 + 2 * i) 2 ≠ 0xFFFF) && !s.sealAllows g 4 then some 2
    else if fLt (field p 12 4) (s.sealTmin g) then some 3
    else if (List.range (field p 2 1)).any (fun i => decide (s.sealKmax g < s.prismK (field p (256 + 64 * i + 6) 2))) then some 4
    else none

/-- The mode check of JOB_CREATE. [DEDUCED, log 55] -/
def jobModeBad (p : Bytes) (s : State) : Bool :=
  if field p 0 1 = 3 then bitOf (field p 1 1) 0 || field p 4 2 ≠ 0xFFFF || field p 2 1 ≠ 0
  else decide (field p 0 1 < 3) && (match s.image (field p 4 2) with | some g => g.st != 3 | none => true)

/-- Layers of the image that a job names. -/
def State.jobLayers (s : State) (p : Bytes) : Nat :=
  match s.image (field p 4 2) with
  | some g => if field p 0 1 = 3 then 65536 else s.imgLayers g
  | none => 65536

/-- JOB_CREATE (R302). [DEDUCED, log 55] -/
def specJobCreate : CmdSpec where
  opcode := 0x0600
  access := 2
  p := false
  len := fun p => some (256 + 64 * field p 2 1)
  rsv := fun p => [(54, 2), (88, 168)] ++ (List.range (field p 2 1)).map fun i => (256 + 64 * i + 48, 16)
  rbits := rsvAt [(1, 0xF8), (3, 0xF8)]
  resp := respOf 2
  run := fun i p s =>
    if jobModeBad p s then .fail 0x2600 0
    else if bitOf (field p 1 1) 1 && s.studentJob.isSome then .fail 0x2601 ((s.studentJob.map (·.1)).getD 0)
    else match headerRange p (s.jobLayers p) with
      | some o => .fail eBadArgument o
      | none =>
        match jobRights i.ctx p s with
        | some (st, d) => .fail st d
        | none =>
          match jobSeal p s with
          | some n => .fail eSeal n
          | none =>
            let a := field p 24 8
            let resume := bitOf (field p 1 1) 1 && bitOf (field p 1 1) 2
            if resume && s.hbmBad a 64 then
              .failWith eAborted 0 (raise { code := 3, status := eAborted, flags := 1, ty := 0, inst := 0, ctx := i.ctx, ring := 0xFFFF
                                            index := 0, addr := a, space := 1 } s)
            else match (if resume then stepBlockBad (s.hbmRead a 64) else none) with
              | some o => .fail 0x2604 o
              | none =>
                match (List.range 4).find? fun h => (s.job h).isNone with
                | none => .fail eNoResource 0
                | some h =>
                  .ok (leBytes 2 h) (s.setJob h { Job.init with
                    ctx := i.ctx, header := p.take 256
                    binds := (List.range (field p 2 1)).map fun k => (p.drop (256 + 64 * k)).take 64 })

def execJobCreate (q : Request) (s : State) : Host.Outcome State Fault Refusal := submit specJobCreate q s

/-! ### Binding (R271, R272) -/

/-- The ring that a binding block describes (R271). -/
def bindRing (h : Nat) (j : Job) (b : Bytes) (s : State) : PRing :=
  let kind := field b 0 1
  let g := s.image j.image
  { PRing.init with
    bound := true, kind, order := field b 1 1, tap := field b 2 1, tapFmt := field b 9 1, port := field b 3 1, core := field b 4 2
    -- a student's device named by the job that teaches on it is this one
    remote := if field b 10 2 = s.sys.podDev && j.teacher then 0xFFFF else field b 10 2, slots := field b 12 4, base := field b 16 8, limit := field b 24 4
    vocab := field b 28 4, mapAddr := field b 32 8, seqs := field b 40 4, maxLen := field b 44 4, job := h, ctx := j.ctx, st := 1
    free := field b 12 4, kmax := (g.map s.sealKmax).getD 256, taps := (g.map fun x => s.sealAllows x 4).getD true
    sealed := (g.map (·.sealed)).getD false, tmin := (g.map s.sealTmin).getD 0 }

/-- Offset of the first field of a binding block out of its range. -/
def bindRange (b : Bytes) : Option Nat :=
  let kind := field b 0 1
  if kind > 2 then some 0
  else if field b 1 1 > 1 || (kind = 2 && field b 1 1 ≠ 0) then some 1
  else if (if kind = 1 then field b 2 1 > 3 else field b 2 1 ≠ 0) then some 2
  else if kind < 2 && field b 3 1 > 3 then some 3
  else if kind < 2 && field b 4 2 ≥ 16 then some 4
  else if field b 6 2 ≥ 8 then some 6
  else if field b 8 1 > 15 then some 8
  else if (if kind = 1 then field b 9 1 > 1 else field b 9 1 ≠ 0) then some 9
  else if field b 10 2 ≠ 0xFFFF && field b 10 2 ≥ 64 then some 10
  else if field b 12 4 < 3 || field b 12 4 > 4096 then some 12
  else if kind = 0 && (field b 24 4 < 1 || field b 24 4 > 256) then some 24
  else if kind = 1 && (field b 24 4 < 1 || field b 24 4 > 1048576) then some 24
  else if kind = 0 && (field b 28 4 < 1 || field b 28 4 > 1048576) then some 28
  else none

/-- A map of R269 passes: reserved bits clear, indices below the student vocabulary, none named twice. -/
def mapOk (ents : List Nat) (vocab : Nat) : Bool :=
  let on := (ents.filter fun e => bitOf e 31).map (· % 2 ^ 24)
  ents.all (fun e => bits e 24 7 == 0) && on.all (fun i => decide (i < vocab)) && on.eraseDups.length == on.length

/-- Bind one ring; `at_` is its block's offset in the JOB_CREATE payload. [DEDUCED, log 55] -/
def bindOne (h : Nat) (j : Job) (b : Bytes) (at_ : Nat) (s : State) : (Nat × Nat) ⊕ State :=
  let p := bindRing h j b s
  let ch := field b 6 2
  let n := field b 8 1
  let k := 32 + p.core
  let local_ := p.kind < 2 && p.sHere s
  let taps := (s.prings.filter fun q => q.1 / 16 == ch && q.2.bound && q.2.kind == 1 && q.2.job == h).length
  let vocab := (s.image j.image).map s.imgVocab
  match bindRange b with
  | some o => .inl (eBadArgument, at_ + o)
  | none =>
    if local_ && s.coreOwner k ≠ some j.ctx then .inl (ePermission, at_ + 4)
    else if local_ && (p.base % 64 ≠ 0 || p.base + p.slots * p.slotBytes > Config.studentSram
        || s.tgtOverlap k p.base (p.slots * p.slotBytes)) then .inl (eAddress, at_ + 16)
    else if p.kind = 1 && taps ≥ 4 then .inl (eBadArgument, at_)
    else if p.kind = 2 && p.tHere s && (p.base % 64 ≠ 0 || stackOf p.base ≥ 4 || !s.owns j.ctx p.base (p.slots * p.slotBytes)) then
      .inl (eAddress, at_ + 16)
    else if (s.pring ch n).bound || (local_ && (s.portRing p.core p.port).isSome) then .inl (eBusy, 0)
    else if p.kind = 0 && p.tHere s && p.limit < s.prismK ch then .inl (eBadArgument, at_ + 24)
    else if p.order = 1 && p.slots < p.seqs * p.maxLen then .inl (eBadArgument, at_ + 12)
    else if p.kind = 0 && p.tHere s && p.mapAddr ≠ 0 && !(s.ownsStudent j.ctx p.mapAddr (4 * vocab.getD 0)
        && mapOk ((List.range (vocab.getD 0)).map fun i => leNat (s.hbmRead (p.mapAddr + 4 * i) 4)) p.vocab) then
      .inl (eBadArgument, at_ + 32)
    else if p.kind = 0 && p.tHere s && p.mapAddr = 0 && p.vocab < vocab.getD 0 then .inl (eBadArgument, at_ + 28)
    else if p.kind = 1 && !p.taps then .inl (eSeal, 2)
    else if p.tHere s && p.kmax < s.prismK ch then .inl (eSeal, 4)
    else if p.sealed && p.remote ≠ 0xFFFF && p.tHere s && !(((s.image j.image).map fun g => s.sealAllows g 5).getD true && (s.encGroup j.ctx p.remote).isSome) then
      .inl (eSeal, 6)
    else .inr (s.setPring ch n p)

/-- Bind the rings of a job, all or none. -/
def bindAll (h : Nat) (j : Job) : List Bytes → Nat → State → (Nat × Nat) ⊕ State
  | [], _, s => .inr s
  | b :: bs, at_, s =>
    match bindOne h j b at_ s with
    | .inl e => .inl e
    | .inr s => bindAll h j bs (at_ + 64) s

/-! ### JOB_START, JOB_STOP, JOB_QUERY, JOB_LEDGER_READ -/

/-- Handle and permission checks of a command that names a job at payload byte `o`. [DEDUCED, log 44] -/
def jobHandle (c h o : Nat) (s : State) : (Nat × Nat) ⊕ Job :=
  match s.job h with
  | none => .inl (eBadHandle, o)
  | some j => if j.ctx = c then .inr j else .inl (ePermission, o)

/-- Step state of a student job that starts without RESUME (R303). -/
def freshStep (j : Job) (s : State) : State :=
  ({ s with step := { StepState.init with step := j.stepFirst, scaleExp := j.scaleExp0, b1t := one32, b2t := one32, attempt := 2 ^ 64 - 1 } }.setUpd 0
    Upd.init).setUpd 1 Upd.init

/-- JOB_START (R303). [DEDUCED, log 55] -/
def specJobStart : CmdSpec where
  opcode := 0x0601
  access := 2
  p := false
  len := fixed 2
  rsv := noRsv
  resp := respOf 0
  run := fun i p s =>
    let h := field p 0 2
    match jobHandle i.ctx h 0 s with
    | .inl e => .fail e.1 e.2
    | .inr j =>
      if j.st ≠ 0 && j.st ≠ 3 then .fail eState j.st
      else match bindAll h j j.binds 256 s with
        | .inl e => .fail e.1 e.2
        | .inr s' =>
          let first := j.student && !j.started
          let blk := s.hbmRead j.stepAddr 64
          if first && j.resume && s.hbmBad j.stepAddr 64 then
            .failWith eAborted 0 (raise { code := 3, status := eAborted, flags := 1, ty := 0, inst := 0, ctx := i.ctx, ring := 0xFFFF
                                          index := 0, addr := j.stepAddr, space := 1 } s)
          else match (if first && j.resume then stepBlockBad blk else none) with
            | some o => .fail 0x2604 o
            | none =>
              let s' := if !first then s' else if j.resume then loadStep blk s' else freshStep j s'
              let s' := s'.setJob h { j with st := 1, started := true, fwd := j.teacher }
              .ok [] (if j.teacher then { s' with sweeps := s'.sweeps ++
                [Sweep.start h j.image (some h) none j.batch] } else s')

def execJobStart (q : Request) (s : State) : Host.Outcome State Fault Refusal := submit specJobStart q s

/-- JOB_STOP (R304). [DEDUCED, log 55] -/
def specJobStop : CmdSpec where
  opcode := 0x0602
  access := 2
  p := true
  len := fixed 3
  rsv := noRsv
  rbits := rsvAt [(2, 0xFE)]
  resp := respOf 8
  run := fun i p s =>
    let h := field p 0 2
    let del := bitOf (field p 2 1) 0
    match jobHandle i.ctx h 0 s with
      | .inl e => .fail e.1 e.2
      | .inr j =>
        if j.st = 1 then
          .pend (s.setJob h { j with st := 2, stopOp := some i.handle, stopDelete := del, stopAt := s.now })
        else if j.st = 2 || !del || j.stopOp.isSome then .fail eState j.st
        else if (s.jobRings h).isEmpty then
          .ok (leBytes 8 (if j.student then s.step.step else 0)) { s with jobs := s.jobs.filter fun x => x.1 != h }
        else .pend (s.setJob h { j with stopOp := some i.handle, stopDelete := true })
  -- after its acceptance a stop goes as far as it can
  after := fun s => s.jobs.foldl (fun a j => if j.2.st = 2 then jobStopGo j.1 a else a) s

def execJobStop (q : Request) (s : State) : Host.Outcome State Fault Refusal := submit specJobStop q s

/-- JOB_STOP_WINDOW_TIMEOUT (R304): the update window is still open 10 s after JOB_STOP. -/
def execJobStopWindowTimeout (job : Nat) (s : State) : Host.Outcome State Fault Refusal :=
  match s.job job with
  | none => .next s
  | some j =>
    if j.st ≠ 2 || !(j.student && s.windowOpen) || s.isFatal then .next s
    else
      let s := atLeast (j.stopAt + 10 * Config.sec) s
      let att := (s.upd (if (s.upd 0).window then 0 else 1)).attempt % 2 ^ 32
      let step := s.step.step
      let s := inconsistent 1 j.ctx 0xFFFF 0 (inconsistent 0 j.ctx 0xFFFF 0 (setErr Config.tUpdate 1 5 0 0 7 (setErr Config.tUpdate 0 5 0 0 7 s)))
      let s := jobAbort job (s.setJob job { j with stopOp := none })
      match j.stopOp with
      | some o => .next (finishOp j.ctx o 0x2603 att (leBytes 8 step) s)
      | none => .next s

/-- JOB_QUERY (R300). [DEDUCED, log 55] -/
def specJobQuery : CmdSpec where
  opcode := 0x0603
  access := 2
  p := false
  len := fixed 2
  rsv := noRsv
  resp := respOf 72
  run := fun i p s =>
    match jobHandle i.ctx (field p 0 2) 0 s with
    | .inl e => .fail e.1 e.2
    | .inr j =>
      .ok (leBytes 1 j.st ++ leBytes 1 j.ctx ++ zeros 6 ++
        (if j.student && j.started then stepBlock s.step else zeros 64)) s

def execJobQuery (q : Request) (s : State) : Host.Outcome State Fault Refusal := submit specJobQuery q s

/-- JOB_LEDGER_READ (R300, R322). -/
def specJobLedgerRead : CmdSpec where
  opcode := 0x0604
  access := 2
  p := false
  len := fixed 20
  rsv := rsvAt [(2, 6)]
  resp := fun _ p => 576 * field p 16 4
  run := fun i p s =>
    match jobHandle i.ctx (field p 0 2) 0 s with
    | .inl e => .fail e.1 e.2
    | .inr j =>
      if field p 16 4 < 1 || field p 16 4 > 65535 then .fail eBadArgument 16
      else if j.ledgerAddr = 0 then .fail eState j.st
      else
        let at_ := (List.range (field p 16 4)).map fun k => j.ledgerEntry (field p 8 8 + k)
        match at_.find? fun a => s.hbmBad a 576 with
        | some a =>
          .failWith eAborted 0 (raise { code := 3, status := eAborted, flags := 1, ty := 0, inst := 0, ctx := i.ctx, ring := 0xFFFF
                                        index := 0, addr := a, space := 1 } s)
        | none => .ok (at_.flatMap fun a => s.hbmRead a 576) s

def execJobLedgerRead (q : Request) (s : State) : Host.Outcome State Fault Refusal := submit specJobLedgerRead q s

end Sys2Proof.Machine
end

