-- ==== Sys2Proof/Machine/Ckpt.lean ====
section
/-! DEFINITION. Sys2Proof/Machine/Ckpt.lean: checkpoints as they are taken: points, regions, capture, manifest (R455–R459,
R463, R464). -/

namespace Sys2Proof.Machine
open Sys2Proof

/-- A point between attempts, where a checkpoint may start (R457). -/
def State.ckptPoint (s : State) : Bool := !s.windowOpen && !(s.upd 0).sent && !(s.upd 1).sent
/-- Some checkpoint is being taken. -/
def State.ckptBusy (s : State) : Bool := s.mirror.ckpts.any fun k => k.2.st == 1 || k.2.st == 2
/-- Number of the last COMPLETE checkpoint of a level. -/
def State.lastCkpt (s : State) (level : Nat) : Option Nat := (s.mirror.last.find? fun x => x.1 == level).map (·.2)
/-- The generation that a new checkpoint of a level writes (R456). -/
def State.nextGen (s : State) (level : Nat) : Nat :=
  match s.lastCkpt level with | some n => 2 * level + (1 - n % 2) | none => 2 * level

/-- Bytes of a region list. -/
def regBytes (l : List Region) : Nat := (l.map (·.len)).sum

/-- A checkpoint starts: it is of the step state as it stands (R457). [DEDUCED, log 58] -/
def ckptStart (h level : Nat) (regs : List Region) (bind : Nat) (op : Option (Nat × Nat)) (snap : Bool) (s : State) : State :=
  match s.job h with
  | none => s
  | some j =>
    s.setCkpt (s.nextGen level) { st := 1, job := h, ctx := j.ctx, step := s.step.step, attempt := (s.upd 0).attempt
                                  block := stepBlock s.step, regs, was := regs.map fun r => s.hbmRead r.addr r.len
                                  data := regs.map fun _ => none, spoilt := false, bind, op, snap, mek := none }

/-- Regions of a checkpoint are read, each with the bytes it held when the checkpoint began and what was read of it before. Software may not
write an EARLY region before it is read, and nothing but an Update Unit, which waits for the read, any other: a region written meanwhile is
undefined (R458). The number of them that are not EARLY comes with the result. [DESIGN CHOICE, log 58] -/
def readRegions (test : Region → Bool) : List (Region × Bytes × Option Bytes) → State → List (Option Bytes) × Nat × State
  | [], s => ([], 0, s)
  | (r, was, old) :: l, s =>
    if !test r || old.isSome then
      let (ds, n, s) := readRegions test l s
      (old :: ds, n, s)
    else
      let now_ := s.hbmRead r.addr r.len
      let (b, s) := if now_ = was then (now_, s) else freshBytes r.len s
      let (ds, n, s) := readRegions test l (hbmTaken r.addr r.len s)
      (some b :: ds, n + b2n (!r.early && now_ != was), s)

/-- Mirror reads those regions of a checkpoint that satisfy a test and are still unread; poison fails it. [DEDUCED, log 58] -/
def ckptRead (n : Nat) (test : Region → Bool) (s : State) : State :=
  let k := s.ckpt n
  let want := (k.regs.zip k.data).filter fun x => test x.1 && x.2.isNone
  match want.find? fun x => s.hbmBad x.1.addr x.1.len with
  | some x =>
    raise { code := 3, status := 0x113, flags := 1, ty := Config.tMirror, inst := 0, ctx := k.ctx, ring := 0xFFFF, index := 0
            addr := x.1.addr, space := 1 } (ckptFail n 0x113 s)
  | none =>
    let (data, spoilt, s) := readRegions test (k.regs.zip (k.was.zip k.data)) s
    s.setCkpt n { k with data, spoilt := k.spoilt || spoilt != 0 }

/-- A checkpoint that something else wrote into is undefined as a whole (R458). [DESIGN CHOICE, log 58] -/
def ckptSpoil (n : Nat) (s : State) : State :=
  let k := s.ckpt n
  if !k.spoilt then s
  else
    let (bs, s) := freshBytes (regBytes k.regs) s
    let parts := k.regs.foldl (fun (a : List (Option Bytes) × Bytes) r => (a.1 ++ [some (a.2.take r.len)], a.2.drop r.len)) ([], bs)
    s.setCkpt n { k with data := parts.1 }

/-- Regions of a checkpoint that a write would reach before they are read (R458): whether the EARLY phase still runs, and the
checkpoint. -/
def State.ckptHolds (s : State) (runs : List (Nat × Nat)) : Bool :=
  s.mirror.ckpts.any fun k => k.2.st == 1 && k.2.regs.any fun r => runs.any fun w => runsMeet r.addr r.len w.1 w.2

/-- Before an Update Unit writes, Mirror has read every region that the writes touch; the wait counts (R458). -/
def ckptBefore (runs : List (Nat × Nat)) (s : State) : State :=
  let s := if s.mirror.ckpts.any fun k => k.2.st == 2 && (k.2.regs.zip k.2.data).any fun r =>
      r.2.isNone && runs.any fun w => runsMeet r.1.addr r.1.len w.1 w.2 then spent Config.tMirror 0 [6] s else s
  ((s.mirror.ckpts.filter fun k => k.2.st == 2).map (·.1)).foldl (fun a n =>
    ckptRead n (fun r => runs.any fun w => runsMeet r.addr r.len w.1 w.2) a) s

/-- The manifest of a checkpoint (R459). -/
def manifest (s : State) (n : Nat) : Bytes :=
  let k := s.ckpt n
  let g := (s.job k.job).map fun j => s.group j.group
  let rank := (g.bind fun x => x.members.findIdx? fun m => m == s.sysIndex).getD 0
  leBytes 4 0x54534E4D ++ leBytes 1 (n / 2) ++ leBytes 1 (n % 2) ++ leBytes 2 k.regs.length ++ leBytes 2 s.sysIndex
    ++ leBytes 2 rank ++ leBytes 8 ((g.map (·.key)).getD 0) ++ k.block ++ zeros 172
    ++ ((k.regs.zip k.data).flatMap fun x => leBytes 8 x.1.addr ++ leBytes 8 x.1.len ++ Config.sha384 (x.2.getD []))

/-- The protection of a job, while it has a buddy. -/
def State.protOf (s : State) (h : Nat) : Option Prot :=
  match s.mirror.prot with | some p => if p.job = h && p.ok then some p else none | none => none

/-- The automatic L1 checkpoint that is due starts at a point that allows it (R464). -/
def autoL1 (h : Nat) (s : State) : State :=
  match s.protOf h with
  | some p =>
    if !p.noBuddy && s.mirror.kept.length ≥ p.retain - 2 && s.ckptPoint && !s.ckptBusy then
      bump Config.tMirror 0 11 1 (ckptStart h 1 p.regs 0 none false s)
    else s
  | none => s

/-- TEMPLATE of a job. -/
def State.template (s : State) (h : Nat) : List Region := ((s.mirror.tmpl.find? fun x => x.1 == h).map (·.2)).getD []

/-- A MIR_SNAPSHOT that waits begins at a point that allows it (R471). -/
def snapGo (s : State) : State :=
  match s.mirror.snapWait with
  | some (h, level, bind, c, op) =>
    if s.ckptPoint && !s.ckptBusy then
      ckptStart h level (s.template h) bind (some (c, op)) true { s with mirror := { s.mirror with snapWait := none } }
    else s
  | none => s

end Sys2Proof.Machine
end

