-- ==== Sys2Proof/Machine/Update.lean ====
section
/-! DEFINITION. Sys2Proof/Machine/Update.lean: Update Units: exchanges, the commit word, the update window, the optimizer, gathers
and marks (R306–R325, R440–R443, R462–R464, R469). -/

namespace Sys2Proof.Machine
open Sys2Proof

/-! ### Groups and reductions (R308, R440, R442) -/

/-- Members of the group of a job, by rank; a job without a group is alone. -/
def State.jobMembers (s : State) (j : Job) : List Nat := if j.group = 0xFFFF then [s.sysIndex] else (s.group j.group).members
/-- This device's rank among some members. -/
def State.rankIn (s : State) (ms : List Nat) : Nat := (ms.findIdx? fun m => m == s.sysIndex).getD 0
/-- State of the group of a job: READY for a job alone. -/
def State.jobGroupSt (s : State) (j : Job) : Nat := if j.group = 0xFFFF then 1 else (s.group j.group).st

/-- The fixed tree of R442: values by rank combine within each pod, then across pods. -/
def podTree (g : Nat → Nat → Nat) (ms vals : List Nat) : Nat :=
  treeFold g 16 ((List.range 16).filterMap fun p =>
    let vs := ((ms.zip vals).filter fun x => x.1 / 64 == p).map (·.2)
    if vs.isEmpty then none else some (treeFold g 11 vs))

/-- One combination: widened, combined, narrowed to the partial format. -/
def redStep (fmt func : Nat) (a b : Nat) : Nat :=
  if fmt = 5 || fmt = 6 then
    let lt := if fmt = 5 then decide (sext 32 a < sext 32 b) else decide (a < b)
    if func = 1 then (if lt then b else a) else (if lt then a else b)
  else
    let x := widen fmt a
    let y := widen fmt b
    narrow fmt (if func = 0 then fAdd x y else if func = 1 then fMax x y else fMin x y)

/-- The reduction of one element over the members (R442). -/
def reduceElem (elemFmt partialFmt func : Nat) (ms vals : List Nat) : Nat :=
  if elemFmt = 5 || elemFmt = 6 then podTree (redStep elemFmt func) ms vals
  else narrow elemFmt (widen partialFmt (podTree (redStep partialFmt func) ms (vals.map fun v => narrow partialFmt (widen elemFmt v))))

/-- Elements that a rank owns of `count` among `p` members: first and one past the last (R308). [DEDUCED, log 56] -/
def ownRange (r count p : Nat) : Nat × Nat :=
  let c := 64 * cdiv count (64 * p)
  (min (r * c) count, min ((r + 1) * c) count)

/-- A list with this member's item put in at its rank. -/
def atRank {α : Type} (r : Nat) (own : α) (others : List α) : List α := others.take r ++ [own] ++ others.drop r

/-! ### Taking up Update Unit descriptors (R313, R319) -/

/-- The student job that a unit works for: running, or stopping with its window still open. -/
def State.updJob (s : State) : Option (Nat × Job) :=
  match s.studentJob with
  | some (h, j) => if j.st = 1 || (j.st = 2 && s.windowOpen) then some (h, j) else none
  | none => none

/-- ATTEMPT of a descriptor. -/
def dAttempt (d : Bytes) : Nat := field d 12 4
/-- A descriptor is ready (R313, R319): a commit waits for the attempt before it to end, an apply or gather for its window. [DEDUCED, log 56] -/
def State.updReady (s : State) (u : Nat) (d : Bytes) : Bool :=
  let x := s.upd u
  let now_ := dAttempt d == x.attempt % 2 ^ 32
  s.updJob.isSome &&
  (match dOp d with
    | 0x10 => !(x.window && dAttempt d == (x.attempt + 1) % 2 ^ 32)
    | 0x11 => !(now_ && (x.window || x.sent || x.commit.isSome))
    | 0x12 => !now_ || x.window
    | 0x13 => !now_ || x.window
    | _ => true)

/-- Take up a descriptor of opcode `op`: its index, bytes, unit, job handle and job. -/
def State.updHead (s : State) (j op : Nat) : Option (Nat × Bytes × Nat × Nat × Job) :=
  match s.headOf j op, s.updJob with
  | some (ix, d), some (h, job) =>
    let r := s.ring j
    let u := r.unitInst
    if r.unitType ≠ Config.tUpdate || job.ctx ≠ r.ctx || !s.updReady u d
        || !s.mayRun j 1 (s.setting Config.tUpdate u 1 0 == 1) (s.updReady u) then none
    else some (ix, d, u, h, job)
  | _, _ => none

/-- An argument, address or attempt check fails (R146, R319). [DEDUCED, log 56] -/
def updAttemptBad (u : Nat) (d : Bytes) (s : State) : Bool := dAttempt d != (s.upd u).attempt % 2 ^ 32

/-- The descriptor in progress ends, with the CYCLES it took left free; the bytes of a commit hold its word, and without one are 0 (R320). -/
def updEnd (j status reason op nf elements lb : Nat) (s : State) : State :=
  if op = 1 then finish j status lb (updDetail reason 1 0 0 0) s
  else
    let (c, s) := s.fresh
    finish j status lb (updDetail reason op nf elements (c % 2 ^ 64)) s

/-- A run of device memory that cannot be read holds a line with an uncorrectable error, and not only lines of a failed stack (R316, R355).
[DEDUCED, log 56] -/
def State.hbmUeAt (s : State) (a n : Nat) : Bool := n != 0 && s.mem.hbmPoison.any fun l => decide (a / 64 ≤ l ∧ l ≤ (a + n - 1) / 64)
/-- UPD_ERR and the error record for a run that cannot be read; REASON is 1 for an uncorrectable error and 2 for poison (R316, R320, R324, R577). -/
def updReason (run : Nat × Nat) (s : State) : Nat := if s.hbmUeAt run.1 run.2 then 1 else 2
def updUnreadable (j u : Nat) (run : Nat × Nat) (s : State) : State :=
  let r := s.ring j
  let ix := (r.cur.map (·.index)).getD 0
  raise { code := 3, status := 0x113, flags := 1, ty := Config.tUpdate, inst := u, ctx := r.ctx, ring := j, index := ix
          addr := run.1, space := 1 } (setErr Config.tUpdate u (updReason run s - 1) j ix (updReason run s) s)

/-- A local bucket that cannot be read ends its exchange: the attempt's shards are not whole (R309, R316). -/
def updMarked (j u op : Nat) (run : Nat × Nat) (s : State) : State :=
  updEnd j 0x113 (updReason run s) op 0 0 0 (updUnreadable j u run s)

/-- An exchange ends before its reduced data was scanned: SHARDS_OK is clear (R309). -/
def exchangeLost (j u status reason : Nat) (s : State) : State :=
  updEnd j status reason 0 0 0 0 (s.updUpd u fun x => { x with shardsOk := false, bucket := [] })

/-- A fault inside an open window of an OK word (R316): the descriptor ends, the unit is INCONSISTENT and the job aborts. -/
def updInconsistent (j u h reason op : Nat) (s : State) : State :=
  let ix := match (s.ring j).cur with | some c => c.index | none => 0
  inconsistent u (s.ring j).ctx j ix (jobAbort h (setErr Config.tUpdate u 5 j ix reason (updEnd j 0x113 reason op 0 0 0 s)))

/-- A replayed descriptor does not match its delta (R469). -/
def replayBad (j ix : Nat) (d : Bytes) (h : Nat) (s : State) : State :=
  jobAbort h (mirErr 5 h s.sysIndex (s.upd (s.ring j).unitInst).attempt
    (failCheck j ix d 0x2804 (reasonDetail Config.tUpdate d 5) true s))

/-- The replay that the student job is in (R468). -/
def State.replayOf (s : State) (h : Nat) : Option Replay :=
  match s.mirror.replay with | some r => if r.job = h && r.ready then some r else none | none => none

/-! ### The update window (R313) -/

/-- An update window closes on a unit (R313): the attempt is over there. -/
def closeWindow (u h : Nat) (job : Job) (s : State) : State :=
  let att := (s.upd u).attempt
  let s := ledgerPut job att 48 (leBytes 8 s.now) (s.setUpd u { Upd.init with attempt := (att + 1) % 2 ^ 64 })
  if s.windowOpen then s
  else
    let s := { s with step := { s.step with opened := s.step.opened.filter fun a => decide (att < a) } }
    let s := if s.step.opened.contains (att + 1) then hbmWrite (job.ledgerEntry (att + 1)) (leBytes 8 s.step.step) s else s
    let s := { s with mirror := { s.mirror with
      replay := s.mirror.replay.map fun r => if r.job = h && r.ready then { r with queue := r.queue.drop 1 } else r } }
    jobStopGo h (autoL1 h (snapGo s))

/-- APPLY_COUNT descriptors of the attempt have completed on a unit: its window closes (R313). -/
def windowGo (s : State) : State :=
  match s.updJob with
  | none => s
  | some (h, job) => [0, 1].foldl (fun a u =>
      if (a.upd u).window && decide ((a.upd u).applyCount ≤ (a.upd u).applied) then closeWindow u h job a else a) s
/-- What a change of a unit's rings leaves to do for an update window. -/
def windowAfter (ty : Nat) (s : State) : State := if ty = Config.tUpdate then windowGo s else s

/-! ### UPD_EXCHANGE (R308) -/

/-- fp16 patterns that are infinite or NaN. -/
def h16NonFinite (b : Nat) : Bool := decide (0x7C00 ≤ b % 2 ^ 15)
/-- The first non-finite element, if any. -/
def firstNf (xs : List Nat) : Option Nat := xs.findIdx? h16NonFinite

/-- Keep the earliest report: LOCAL before REDUCED, then the lowest tensor, then the lowest element. -/
def reportMin (a : Option (Nat × Nat × Nat)) (b : Nat × Nat × Nat) : Option (Nat × Nat × Nat) :=
  match a with
  | none => some b
  | some x =>
    if b.1 < x.1 || (b.1 = x.1 && (b.2.1 < x.2.1 || (b.2.1 = x.2.1 && b.2.2 < x.2.2))) then some b else some x

/-- 2^−e as an fp32 pattern. -/
def twoNeg (e : Nat) : Nat := toF32 (.fin false 1 (-(e : Int)))

/-- The exponent that an exchange names (R306). -/
def noteScale (u : Nat) (d : Bytes) (s : State) : State :=
  s.updUpd u fun x => { x with scaleOk := x.scaleOk && field d 9 1 == s.step.scaleExp }

/-- The scan of the local bucket, which is then handed to Beam (R308). -/
def scanLocal (u : Nat) (d : Bytes) (xs : List Nat) (s : State) : State :=
  let nf := (xs.filter h16NonFinite).length
  let s := bump Config.tUpdate u 1 xs.length s
  let s := if nf = 0 then s else bump Config.tUpdate u 2 nf s
  s.updUpd u fun x => { x with
    localNf := x.localNf || nf != 0
    bucket := xs.flatMap (leBytes 2)
    report := match firstNf xs with | some i => reportMin x.report (0, field d 16 4, field d 44 4 + i) | none => x.report }

/-- The scan of the owned reduced elements; `first` is the index of the first in the bucket. -/
def scanReduced (u : Nat) (d : Bytes) (job : Job) (first : Nat) (xs : List Nat) (s : State) : State :=
  let nf := (xs.filter h16NonFinite).length
  let s := if xs.isEmpty then s else bump Config.tUpdate u 1 xs.length s
  let s := if nf = 0 then s else bump Config.tUpdate u 3 nf s
  let sc := twoNeg s.step.scaleExp
  s.updUpd u fun x =>
    let (lanes, n) := xs.foldl (fun (a : List Nat × Nat) b =>
      let g := fMul (fMul (widen 2 b) sc) job.gradMul
      (a.1.set (a.2 % 64) (fAdd (nth a.1 (a.2 % 64) 0) (fMul g g)), a.2 + 1))
      (if x.lanes.isEmpty then List.replicate 64 0 else x.lanes, x.lane)
    { x with
      lanes, lane := n, reducedNf := x.reducedNf || nf != 0
      report := match firstNf xs with | some i => reportMin x.report (1, field d 16 4, field d 44 4 + first + i) | none => x.report }

/-- PARTIAL_FMT of an exchange: fp32 or fp16; the manual does not say which. [DESIGN CHOICE, log 57] -/
def exchangePartial : Nat := if Config.exchangeFp32 then 0 else 2

/-- Bytes of a delta. -/
def deltaSize (x : Delta) : Nat := (x.ents.map fun e => e.bytes.length).sum + (x.early.map List.length).sum

/-- The attempt's delta would exceed DELTA_MAX: it is not sent, and the job becomes UNPROTECTED (R463). -/
def deltaOver (h : Nat) (p : Prot) (s : State) : State :=
  mirErr 1 h p.buddy (s.upd 0).attempt { s with mirror := { s.mirror with prot := some { p with ok := false }, cur := Delta.init } }

/-- What a COLL message to the buddy holds, in the low byte of its header word: an L1 checkpoint, an owned range, EARLY bytes, a log slot, a
commit word. [DESIGN CHOICE, log 89] -/
def toBuddy (kind h : Nat) (p : Prot) (bs : Bytes) (s : State) : State :=
  let g := (s.job h).map (·.group)
  if kind ≤ 2 then sendStriped g (p.buddy % 64) kind bs s else sendGroup g (p.buddy % 64) 4 kind bs s

/-- A protected job's owned reduced range goes to the buddy as it is written, with RED_ADDR and the bucket (R463). -/
def deltaAdd (h : Nat) (e : DeltaEnt) (s : State) : State :=
  match s.protOf h with
  | none => s
  | some p =>
    if p.noBuddy then s
    else
      let x := { s.mirror.cur with ents := s.mirror.cur.ents ++ [e] }
      if deltaSize x > p.deltaMax then deltaOver h p s
      else
        let s := bump Config.tMirror 0 4 e.bytes.length { s with mirror := { s.mirror with cur := x } }
        toBuddy 1 h p (leBytes 8 e.addr ++ leBytes 4 e.bucket ++ e.bytes) s

/-- The reduced data returns (R308): it is scanned and written, and a protected job's owned range goes to its buddy. [DEDUCED, log 56] -/
def exchangeEnd (j u h : Nat) (job : Job) (others : List Bytes) (s : State) : State :=
  match (s.ring j).cur with
  | none => s
  | some c =>
    let d := c.desc
    let n := field d 24 4
    let red := field d 36 8
    let ms := s.jobMembers job
    let r := s.rankIn ms
    let (lo, hi) := ownRange r n ms.length
    let local_ := (s.upd u).bucket
    let all := (atRank r local_ others).map (elems 2 n)
    let out (i : Nat) : Nat := reduceElem 2 exchangePartial 0 ms (all.map fun l => nth l i 0)
    let own := (List.range (hi - lo)).map fun k => out (lo + k)
    let bs := if job.replicated then (List.range n).flatMap fun i => leBytes 2 (out i) else own.flatMap (leBytes 2)
    let s := if bs.isEmpty then s else hbmWrite red bs s
    let s := scanReduced u d job lo own s
    let s := deltaAdd h { bucket := field d 20 4, count := n, addr := red, bytes := own.flatMap (leBytes 2) } s
    let s := s.updUpd u fun x => { x with bucket := [] }
    updEnd j 0 0 0 ((own.filter h16NonFinite).length + ((elems 2 n local_).filter h16NonFinite).length) n bs.length s

/-- The checks of UPD_EXCHANGE. -/
def exchangeCheck (u c : Nat) (d : Bytes) (job : Job) (s : State) : Option Nat :=
  let n := field d 24 4
  let p := (s.jobMembers job).length
  let (lo, hi) := ownRange (s.rankIn (s.jobMembers job)) n p
  let redLen := if job.replicated then 2 * n else 2 * (hi - lo)
  if n < 1 || n > 2 ^ 28 || bitOf (field d 8 1) 0 != job.replicated then some 0x108
  else if field d 28 8 % 64 ≠ 0 || field d 36 8 % 64 ≠ 0 || !s.owns c (field d 28 8) (2 * n)
      || (redLen ≠ 0 && !s.owns c (field d 36 8) redLen) then some 0x10D
  else if updAttemptBad u d s then some 0x10C
  else none

/-- Status of a collective that the state of its group ends: E_ABORTED where it is BROKEN, E_BEAM_GROUP where it is FAILED (R440, R443). -/
def groupStatus (st : Nat) : Nat := if st = 3 then 0x2901 else 0x113

/-- An exchange that is at work takes what the other members sent, or waits for it. A member whose bucket has another count is a mismatch
(R317, R441): E_BEAM_GROUP, with REASON LINK. [DESIGN CHOICE, log 57] -/
def exchangeGo (j u h : Nat) (job : Job) (others : Option (List Bytes)) (s : State) : State :=
  let p := (s.jobMembers job).length
  let n := ((s.ring j).cur.map fun c => field c.desc 24 4).getD 0
  if s.jobGroupSt job = 2 || s.jobGroupSt job = 3 then exchangeLost j u (groupStatus (s.jobGroupSt job)) 8 s
  else if p = 1 then exchangeEnd j u h job [] s
  else if s.jobGroupSt job ≠ 1 then s
  else match others with
    | some l => if l.length = p - 1 && l.all (fun b => b.length == 2 * n) then exchangeEnd j u h job l s else exchangeLost j u 0x2901 8 s
    | none => s

/-- A replayed exchange (R469). -/
def exchangeReplay (j ix h : Nat) (d : Bytes) (w : Replay) (s : State) : State :=
  match w.queue with
  | q :: _ =>
    (match (if q.attempt % 2 ^ 32 = dAttempt d then
        q.ents.find? fun e => e.bucket == field d 20 4 && e.count == field d 24 4 && e.addr == field d 36 8 else none) with
      | some e => updEnd j 0 0 0 0 0 e.bytes.length (hbmWrite e.addr e.bytes (served j (begin j ix d s)))
      | none => replayBad j ix d h s)
  | [] => replayBad j ix d h s

/-- UPD_EXCHANGE (R308): `others` are the buckets of the other members, by rank, once all have come. -/
def execUpdExchange (ring : Nat) (others : Option (List (List Byte))) (s : State) : Host.Outcome State Fault Refusal :=
  match (s.ring ring).cur, s.updJob with
  | some c, some (h, job) =>
    if c.phase = 0 && (s.ring ring).unitType = Config.tUpdate && dOp c.desc = 0x10 && !s.isFatal then
      .next (exchangeGo ring (s.ring ring).unitInst h job others s)
    else .next s
  | _, _ =>
    match s.updHead ring 0x10 with
    | none => .next s
    | some (ix, d, u, h, job) =>
      match exchangeCheck u (s.ring ring).ctx d job s with
      | some st => .next (windowGo (failArg ring ix d st s))
      | none =>
        match s.replayOf h with
        | some w => .next (exchangeReplay ring ix h d w s)
        | none =>
          let n := field d 24 4
          let s1 := hbmTaken (field d 28 8) (2 * n) (noteScale u d (served ring (begin ring ix d s)))
          if s.hbmBad (field d 28 8) (2 * n) then
            .next (updMarked ring u 0 (field d 28 8, 2 * n) (s1.updUpd u fun x => { x with shardsOk := false }))
          else .next (exchangeGo ring u h job others (scanLocal u d (elems 2 n (s.hbmRead (field d 28 8) (2 * n))) s1))

/-! ### UPD_COMMIT: the contribution (R309, R462–R464) -/

/-- The norm partial of an Update Unit (R308). -/
def Upd.norm (x : Upd) : Nat := treeFold fAdd 6 (if x.lanes.isEmpty then List.replicate 64 0 else x.lanes)

/-- The report of both units: the earliest. -/
def State.devReport (s : State) : Option (Nat × Nat × Nat) :=
  match (s.upd 1).report with | some b => reportMin (s.upd 0).report b | none => (s.upd 0).report

/-- This device's contribution (R309). -/
def State.contribution (s : State) : Contribution :=
  let a := s.upd 0
  let b := s.upd 1
  { dev := s.sysIndex, shardsOk := a.shardsOk && b.shardsOk && !s.mirror.badSlot, scaleOk := a.scaleOk && b.scaleOk
    localNf := a.localNf || b.localNf, reducedNf := a.reducedNf || b.reducedNf, attempt := a.attempt
    cls := (s.devReport.map (·.1)).getD 2, tensor := (s.devReport.map (·.2.1)).getD 0, norm := fAdd a.norm b.norm }

/-- The contribution leaves. [DEDUCED, log 56] -/
def commitSend (job : Job) (s : State) : State :=
  let att := (s.upd 0).attempt
  let s := (s.updUpd 0 fun x => { x with sent := true }).updUpd 1 fun x => { x with sent := true }
  ledgerPut job att 32 (leBytes 8 s.now) s

/-- The log slot of an attempt (R461). -/
def Prot.slotAt (p : Prot) (attempt : Nat) : Nat := p.logAddr + 128 * (attempt % p.logDepth)

/-- Mirror reads the log slot of the attempt and fills in its part; the slot goes into the SLC log (R461, R462). -/
def logSlot (p : Prot) (job : Job) (s : State) : State :=
  let att := (s.upd 0).attempt
  let a := p.slotAt att
  let old := s.hbmRead a 96
  let bad := s.hbmBad a 96 || field old 8 8 != att
  let slot := old ++ leBytes 1 s.step.scaleExp ++ leBytes 1 0xFF ++ leBytes 2 (s.rankIn (s.jobMembers job)) ++ zeros 28
  let s := hbmWrite (a + 96) (slot.drop 96) s
  let log := s.mirror.log ++ [slot]
  bump Config.tMirror 0 5 1 { s with mirror := { s.mirror with badSlot := bad, log := log.drop (log.length - p.logDepth) } }

/-- Slot and EARLY bytes of the attempt go to the buddy after its owned ranges; a delta beyond DELTA_MAX is not sent and ends the protection
(R462, R463). -/
def deltaSend (h : Nat) (p : Prot) (s : State) : State :=
  let x : Delta := { s.mirror.cur with
    attempt := (s.upd 0).attempt, early := (p.regs.filter (·.early)).map fun r => s.hbmRead r.addr r.len }
  if deltaSize x > p.deltaMax then deltaOver h p s
  else
    let s := bump Config.tMirror 0 3 1 (bump Config.tMirror 0 4 (x.early.map List.length).sum s)
    let s := toBuddy 2 h p (x.early.flatMap id) (toBuddy 3 h p (s.mirror.log.getLastD []) s)
    { s with mirror := { s.mirror with kept := s.mirror.kept ++ [x], cur := Delta.init, asked := true, acked := false } }

/-- The wait of an UPD_COMMIT for a checkpoint to make room is over: its ticks count (R464). -/
def retainDone (s : State) : State :=
  match s.mirror.waitAt with
  | some t => bump Config.tMirror 0 7 (s.now - t) { s with mirror := { s.mirror with waitAt := none } }
  | none => s

/-- With both UPD_COMMITs taken up the contribution goes as far as its protection lets it (R309, R462, R464). [DEDUCED, log 56] -/
def commitGo (h : Nat) (job : Job) (s : State) : State :=
  if (s.upd 0).commit.isNone || (s.upd 1).commit.isNone || (s.upd 0).sent then s
  else match s.protOf h with
    | none => commitSend job s
    | some p =>
      if p.noBuddy then commitSend job (logSlot p job s)
      else if s.mirror.asked then (if s.mirror.acked then commitSend job s else s)
      else if s.mirror.kept.length ≥ p.retain then
        autoL1 h { s with mirror := { s.mirror with waitAt := some (s.mirror.waitAt.getD s.now) } }
      else
        let s := deltaSend h p (logSlot p job (retainDone s))
        if s.mirror.asked then s else commitSend job s

/-! ### The commit word (R307, R309, R310, R312) -/

/-- The clip factor (R312). -/
def clipOf (job : Job) (norm : Nat) : Nat :=
  if job.maxNorm = 0 || fLe norm job.maxNorm then one32 else fMul job.maxNorm (fRcp norm)

/-- The word that a set of contributions reduces to (R309). -/
def formWord (ms : List Nat) (cs : List Contribution) : CommitWord :=
  let byRank := ms.filterMap fun m => cs.find? fun c => c.dev == m
  let nf := byRank.any fun c => c.localNf || c.reducedNf
  let total := podTree fAdd (byRank.map (·.dev)) (byRank.map (·.norm))
  let best := byRank.foldl (fun (a : Option Contribution) c =>
    if c.cls ≥ 2 then a else match a with
      | none => some c
      | some x => if c.cls < x.cls || (c.cls = x.cls && c.dev < x.dev) then some c else some x) none
  let att := byRank.map (·.attempt)
  { cause := b2n nf + 2 * b2n (byRank.any fun c => !c.scaleOk) + 4 * b2n (byRank.any fun c => !c.shardsOk)
      + 8 * b2n (byRank.length < ms.length) + 16 * b2n (att.any fun a => att.any fun b => a != b)
      + 32 * b2n (!nf && fNonFinite total)
    isLocal := (best.map fun c => c.cls == 0).getD false, vetoDev := (best.map (·.dev)).getD 0xFFFF
    vetoTensor := (best.map (·.tensor)).getD 0, norm := fSqrt total, participants := byRank.length }

/-- The step state after a word (R307, R310). -/
def stepAfter (job : Job) (w : CommitWord) (attempt tick : Nat) (x : StepState) : StepState :=
  let y := { x with
    attempt := attempt
    cause := w.cause, vetoDev := w.vetoDev, vetoTensor := w.vetoTensor, norm := w.norm, clip := clipOf job w.norm
    participants := w.participants, commitTick := tick, useExp := x.scaleExp, flags := b2n w.isLocal }
  if w.cause = 0 then
    let full := decide (job.growth ≤ x.clean + 1)
    let grow := full && decide (x.scaleExp < 24)
    { y with
      step := (x.step + 1) % 2 ^ 64, scaleExp := x.scaleExp + b2n grow, clean := if full then 0 else x.clean + 1, consecVeto := 0
      b1t := fMul x.b1t job.beta1, b2t := fMul x.b2t job.beta2, flags := b2n w.isLocal + 4 * b2n grow }
  else if bitOf w.cause 0 then
    { y with
      scaleExp := x.scaleExp - 1, clean := 0, consecVeto := min 255 (x.consecVeto + 1)
      flags := b2n w.isLocal + 2 * b2n (x.scaleExp == 0) + 8 * b2n (x.scaleExp != 0) }
  else y

/-- UNIT_DETAIL of UPD_COMMIT (R320). -/
def commitDetail (x : StepState) : Bytes :=
  [0] ++ leBytes 1 1 ++ leBytes 1 x.cause ++ [0] ++ leBytes 4 x.vetoTensor ++ leBytes 2 x.vetoDev ++ zeros 6 ++ leBytes 4 x.norm
    ++ leBytes 4 x.clip

/-- The word goes to the buddy, which stores it with the attempt's delta, and into its log slot (R461, R463). -/
def logWord (h : Nat) (w : CommitWord) (att : Nat) (s : State) : State :=
  match s.mirror.prot with
  | none => s
  | some p =>
    if p.job ≠ h || !p.ok then s
    else
      let kept := s.mirror.kept.map fun x => if x.attempt = att then { x with word := some w } else x
      let fill (b : Bytes) : Bytes := if field b 8 8 = att then splice (splice b 97 (leBytes 1 w.cause)) 104 (leBytes 8 s.now) else b
      let log := s.mirror.log.dropLast ++ (s.mirror.log.getLast?.map fill).toList
      let s := hbmWrite (p.slotAt att + 97) (leBytes 1 w.cause) s
      let s := hbmWrite (p.slotAt att + 104) (leBytes 8 s.now) s
      let s := if p.noBuddy then s else toBuddy 4 h p (leBytes 8 att ++ stepBlock s.step) s
      { s with mirror := { s.mirror with kept, log, asked := false, acked := false, badSlot := false } }

/-- A commit word is taken (R307, R310, R313): step state, step block, ledger, counters, the ends of the UPD_COMMITs, and the
window; too many vetoes abort the job. [DEDUCED, log 56] -/
def takeWord (h : Nat) (job : Job) (w : CommitWord) (s : State) : State :=
  let att := (s.upd 0).attempt
  let x := stepAfter job w att s.now s.step
  let s := { s with step := x, mirror := { s.mirror with adopted := none } }
  let s := hbmWrite job.stepAddr (stepBlock x) s
  let s := ledgerPut job att 40 (leBytes 8 s.now) (ledgerPut job att 18 (leBytes 1 w.cause) s)
  let s := logWord h w att s
  let n := if w.cause = 0 then 7 else if bitOf w.cause 0 then 8 else 9
  let s := [0, 1].foldl (fun a u =>
    let a := bump Config.tUpdate u n 1 a
    let a := match (a.upd u).commit with
      | some j => finish j 0 64 (commitDetail x) a
      | none => a
    a.updUpd u fun y => { y with window := true, sent := false, commit := none, applied := 0 }) s
  if job.vetoLimit ≠ 0 && x.consecVeto ≥ job.vetoLimit && bitOf w.cause 0 then
    jobAbort h (deliverEvent job.ctx (eventRecord 0xFFFF 0x2602 0 2 0 0 s.now (leBytes 4 x.vetoDev) 0) s)
  else windowGo s

/-- UPD_COMMIT (R309): the unit's part of the contribution is ready; a replayed one takes its retained word (R469). -/
def execUpdCommit (ring : Nat) (s : State) : Host.Outcome State Fault Refusal :=
  match s.updHead ring 0x11 with
  | none => .next s
  | some (ix, d, u, h, job) =>
    if updAttemptBad u d s then .next (windowGo (failArg ring ix d 0x10C s))
    else
      let go (s : State) : State := (served ring (begin ring ix d s)).updUpd u fun x => { x with
        commit := some ring, applyCount := field d 16 2 }
      match s.replayOf h with
      | some w =>
        (match w.queue with
          | q :: _ =>
            if q.attempt % 2 ^ 32 ≠ dAttempt d then .next (replayBad ring ix d h s)
            else
              let s := go s
              (match q.word with
                | some v => if (s.upd 0).commit.isSome && (s.upd 1).commit.isSome then .next (takeWord h job v s) else .next s
                | none => .next s)
          | [] => .next (replayBad ring ix d h s))
      | none =>
        let s := go s
        match s.mirror.adopted with
        | some v => if (s.upd 0).commit.isSome && (s.upd 1).commit.isSome then .next (takeWord h job v s) else .next s
        | none =>
          if (s.jobGroupSt job = 2 && (s.protOf h).isNone) || s.jobGroupSt job = 3 then
            .next ((updEnd ring (groupStatus (s.jobGroupSt job)) 8 1 0 0 0 s).updUpd u fun x => { x with commit := none })
          else .next (commitGo h job s)

/-- DELTA_ACK (R462): the buddy has acknowledged slot and delta. -/
def execDeltaAck (job : Nat) (s : State) : Host.Outcome State Fault Refusal :=
  match s.job job with
  | none => .next s
  | some j =>
    if !s.mirror.asked || s.mirror.acked || (s.protOf job).isNone || s.isFatal then .next s
    else .next (commitGo job j { s with mirror := { s.mirror with acked := true } })

/-- COMMIT_WORD_ARRIVAL (R307, R309): the word formed of this device's contribution and those of the other members that sent
one. -/
def execCommitWordArrival (job : Nat) (others : List Contribution) (s : State) : Host.Outcome State Fault Refusal :=
  match s.updJob with
  | none => .next s
  | some (h, j) =>
    if h ≠ job || !(s.upd 0).sent || !(s.upd 1).sent || s.jobGroupSt j ≠ 1 || s.isFatal then .next s
    else
      let cs := s.contribution :: others.filter fun c => c.dev != s.sysIndex
      .next (takeWord h j (formWord (s.jobMembers j) cs) s)

/-! ### UPD_APPLY (R313–R316) -/

/-- Constants of an apply. -/
structure ApplyConst where
  opt    : Nat
  unscale : Nat
  gradMul : Nat
  clip   : Nat
  beta1  : Nat
  beta2  : Nat
  omb1   : Nat
  omb2   : Nat
  decay  : Nat
  rc1    : Nat
  rc2    : Nat
  eps    : Nat
  lr     : Nat

/-- The constants that R314 forms for an attempt. -/
def applyConst (job : Job) (x : StepState) (noDecay : Bool) (lr : Nat) : ApplyConst :=
  { opt := job.opt, unscale := twoNeg x.useExp, gradMul := job.gradMul, clip := x.clip, beta1 := job.beta1, beta2 := job.beta2
    omb1 := fSub one32 job.beta1, omb2 := fSub one32 job.beta2
    decay := if noDecay then one32 else fSub one32 (fMul lr job.decay)
    rc1 := fRcp (fSub one32 x.b1t), rc2 := fRcp (fSub one32 x.b2t), eps := job.eps, lr }

/-- One element (R314): `none` where its w is not finite, `some none` where a result is not, else w, m and v. -/
def applyElem (k : ApplyConst) (w grad m v : Nat) : Option (Option (Nat × Nat × Nat)) :=
  if fNonFinite w then none
  else
    let g := fMul (fMul (fMul (widen 2 grad) k.unscale) k.gradMul) k.clip
    let nlr := fNeg k.lr
    let (w1, m1, v1) : Nat × Nat × Nat :=
      if k.opt = 0 then
        let m1 := fFma k.beta1 m (fMul k.omb1 g)
        let v1 := fFma k.beta2 v (fMul k.omb2 (fMul g g))
        let u := fMul (fMul m1 k.rc1) (fRcp (fAdd (fSqrt (fMul v1 k.rc2)) k.eps))
        (fFma nlr u (fMul w k.decay), m1, v1)
      else if k.opt = 1 then
        let m1 := fFma k.beta1 m g
        (fFma nlr m1 (fMul w k.decay), m1, v)
      else
        let c := fFma k.beta1 m (fMul k.omb1 g)
        let u := if fLt 0 c then one32 else if fLt c 0 then fNeg one32 else 0
        (fFma nlr u (fMul w k.decay), fFma k.beta2 m (fMul k.omb2 g), v)
    if fNonFinite w1 || fNonFinite m1 || (k.opt = 0 && fNonFinite v1) then some none else some (some (w1, m1, v1))

/-- Update the elements of a descriptor from index `i` on: the state, and how many were left for their w and for a result. -/
def applyGo (k : ApplyConst) (n hi lo st gr : Nat) : Nat → Nat → State → State × Nat × Nat
  | 0, _, s => (s, 0, 0)
  | f + 1, i, s =>
    let w := joinHalves (leNat (s.hbmRead (hi + 2 * i) 2)) (leNat (s.hbmRead (lo + 2 * i) 2))
    let m := leNat (s.hbmRead (st + 4 * i) 4)
    let v := if k.opt = 0 then leNat (s.hbmRead (st + 4 * n + 4 * i) 4) else 0
    match applyElem k w (leNat (s.hbmRead (gr + 2 * i) 2)) m v with
    | none => let (s, a, b) := applyGo k n hi lo st gr f (i + 1) s; (s, a + 1, b)
    | some none => let (s, a, b) := applyGo k n hi lo st gr f (i + 1) s; (s, a, b + 1)
    | some (some (w1, m1, v1)) =>
      let s := hbmWrite (hi + 2 * i) (leBytes 2 (highHalf w1)) s
      let s := hbmWrite (lo + 2 * i) (leBytes 2 (lowHalf w1)) s
      let s := hbmWrite (st + 4 * i) (leBytes 4 m1) s
      let s := if k.opt = 0 then hbmWrite (st + 4 * n + 4 * i) (leBytes 4 v1) s else s
      applyGo k n hi lo st gr f (i + 1) s

/-- Runs that an apply reads and writes, and the gradient. -/
def applyRuns (job : Job) (d : Bytes) : List (Nat × Nat) :=
  let n := field d 16 4
  [(field d 20 8, 2 * n), (field d 28 8, 2 * n), (field d 36 8, (if job.opt = 0 then 8 else 4) * n)]

/-- The checks of UPD_APPLY. -/
def applyCheck (u c : Nat) (d : Bytes) (job : Job) (s : State) : Option Nat :=
  let n := field d 16 4
  let lr := field d 44 4
  if fNonFinite lr || (lr ≥ 2 ^ 31 && lr % 2 ^ 31 ≠ 0) then some 0x108
  else if !(((field d 48 8, 2 * n) :: applyRuns job d).all fun r => r.1 % 64 == 0 && (n == 0 || s.owns c r.1 r.2)) then some 0x10D
  else if updAttemptBad u d s then some 0x10C
  else none

/-- A descriptor of a window whose word was not OK: no write (R313). -/
def updSkip (j u op : Nat) (s : State) : State := bump Config.tUpdate u 10 1 (updEnd j 0 6 op 0 0 0 s)

/-- UPD_APPLY (R314). -/
def execUpdApply (ring : Nat) (s : State) : Host.Outcome State Fault Refusal :=
  match s.updHead ring 0x12 with
  | none => .next s
  | some (ix, d, u, h, job) =>
    match applyCheck u (s.ring ring).ctx d job s with
    | some st => .next (windowGo (failArg ring ix d st s))
    | none =>
      let runs := applyRuns job d
      if s.step.cause ≠ 0 then .next (updSkip ring u 2 (served ring (begin ring ix d s)))
      else if s.ckptHolds runs then .next (spent Config.tMirror 0 [6] s)
      else
        let s := served ring (begin ring ix d (ckptBefore runs s))
        match ((field d 48 8, 2 * field d 16 4) :: runs).find? fun r => s.hbmBad r.1 r.2 with
        | some r => .next (updInconsistent ring u h (updReason r s) 2 (updUnreadable ring u r s))
        | none =>
          let n := field d 16 4
          let k := applyConst job s.step (bitOf (field d 8 1) 0) (field d 44 4)
          let s := ((field d 48 8, 2 * n) :: runs).foldl (fun s r => hbmTaken r.1 r.2 s) s
          let (s, a, b) := applyGo k n (field d 20 8) (field d 28 8) (field d 36 8) (field d 48 8) n 0 s
          let s := [(4, n - a - b), (5, a), (6, b)].foldl (fun t c => if c.2 = 0 then t else bump Config.tUpdate u c.1 c.2 t) s
          let s := if a + b = 0 then s else setErr Config.tUpdate u 4 ring ix 0 s
          .next (updEnd ring 0 0 2 (a + b) n ((n - a - b) * (if job.opt = 0 then 12 else 8)) s)

/-! ### UPD_GATHER (R315) -/

/-- The ranges of the other members come in: high halves of what each owns (R315). -/
def gatherWrite (hi n : Nat) (ms : List Nat) (own : Nat) (others : List Bytes) (s : State) : State × Nat :=
  let parts := (List.range ms.length).zip (atRank own [] others)
  parts.foldl (fun (a : State × Nat) p =>
    let (lo, up) := ownRange p.1 n ms.length
    if p.1 = own || lo = up then a
    else (hbmWrite (hi + 2 * lo) (fitTo (2 * (up - lo)) p.2) a.1, a.2 + 2 * (up - lo))) (s, 0)

/-- A gather at work takes the other members' ranges, or waits; a lost group leaves the weights inconsistent (R316), and a member whose range
has another length is a mismatch (R441): E_BEAM_GROUP, with REASON LINK. [DESIGN CHOICE, log 57] -/
def gatherGo (j u h : Nat) (job : Job) (others : Option (List Bytes)) (s : State) : State :=
  match (s.ring j).cur with
  | none => s
  | some c =>
    let ms := s.jobMembers job
    let n := field c.desc 20 4
    let own := s.rankIn ms
    let size (r : Nat) : Nat := let w := ownRange r n ms.length; 2 * (w.2 - w.1)
    let fin (l : List Bytes) : State :=
      let (s, lb) := gatherWrite (field c.desc 24 8) n ms own l s
      updEnd j 0 0 3 0 n lb s
    if s.jobGroupSt job = 2 || s.jobGroupSt job = 3 then updInconsistent j u h 8 3 s
    else if ms.length = 1 then fin []
    else if s.jobGroupSt job ≠ 1 then s
    else match others with
      | some l => if l.map List.length = ((List.range ms.length).filter (· != own)).map size then fin l else updEnd j 0x2901 8 3 0 0 0 s
      | none => s

/-- The checks of UPD_GATHER. -/
def updGatherCheck (u c : Nat) (d : Bytes) (job : Job) (s : State) : Option Nat :=
  let n := field d 20 4
  if job.replicated then some 0x108
  else if field d 24 8 % 64 ≠ 0 || (n ≠ 0 && !s.owns c (field d 24 8) (2 * n)) then some 0x10D
  else if updAttemptBad u d s then some 0x10C
  else none

/-- UPD_GATHER (R315): `others` are the high halves that the other members own, by rank, once all have come. -/
def execUpdGather (ring : Nat) (others : Option (List (List Byte))) (s : State) : Host.Outcome State Fault Refusal :=
  match (s.ring ring).cur, s.updJob with
  | some c, some (h, job) =>
    if c.phase = 0 && (s.ring ring).unitType = Config.tUpdate && dOp c.desc = 0x13 && !s.isFatal then
      .next (gatherGo ring (s.ring ring).unitInst h job others s)
    else .next s
  | _, _ =>
    match s.updHead ring 0x13 with
    | none => .next s
    | some (ix, d, u, h, job) =>
      match updGatherCheck u (s.ring ring).ctx d job s with
      | some st => .next (windowGo (failArg ring ix d st s))
      | none =>
        let run := (field d 24 8, 2 * field d 20 4)
        let ms := s.jobMembers job
        let own := ownRange (s.rankIn ms) (field d 20 4) ms.length
        let mine := (run.1 + 2 * own.1, 2 * (own.2 - own.1))
        if s.step.cause ≠ 0 || (s.replayOf h).isSome then .next (updSkip ring u 3 (served ring (begin ring ix d s)))
        else if s.ckptHolds [run] then .next (spent Config.tMirror 0 [6] s)
        else
          let s := served ring (begin ring ix d (ckptBefore [run] s))
          if s.hbmBad mine.1 mine.2 then .next (updInconsistent ring u h (updReason mine s) 3 (updUnreadable ring u mine s))
          else .next (gatherGo ring u h job others (hbmTaken mine.1 mine.2 s))

/-! ### UPD_MARK (R321, R322) -/

/-- File a mark in the ledger entry of an attempt. -/
def markPut (job : Job) (att phase : Nat) (exit : Bool) (s : State) : State :=
  let s := ledgerOpen job att s
  let a := job.ledgerEntry att
  let seen := field (s.hbmRead (a + 20) 4) 0 4
  let multi := field (s.hbmRead (a + 24) 4) 0 4
  let opn := field (s.hbmRead (a + 28) 4) 0 4
  let b := 2 ^ phase
  -- an earlier ENTER of the phase has left its tick
  let was := bitOf seen phase && field (s.hbmRead (a + 64 + 16 * phase) 8) 0 8 != 0
  let (multi, opn) :=
    if exit then (if was then multi else Nat.lor multi b, rw1c opn b)
    else (if was then Nat.lor multi b else multi, Nat.lor opn b)
  let s := hbmWrite (a + 20) (leBytes 4 (Nat.lor seen b) ++ leBytes 4 multi ++ leBytes 4 opn) s
  if exit then hbmWrite (a + 64 + 16 * phase + 8) (leBytes 8 s.now) s
  else if was then s else hbmWrite (a + 64 + 16 * phase) (leBytes 8 s.now) s

/-- UPD_MARK (R321). -/
def execUpdMark (ring : Nat) (s : State) : Host.Outcome State Fault Refusal :=
  match s.updHead ring 0x14 with
  | none => .next s
  | some (ix, d, u, _, job) =>
    if field d 8 1 > 31 then .next (windowGo (failArg ring ix d 0x108 s))
    else
      let s := served ring (begin ring ix d s)
      let x := (s.upd u).attempt
      let att := if dAttempt d = x % 2 ^ 32 then some x else if dAttempt d = (x + 1) % 2 ^ 32 then some (x + 1) else none
      match att with
      | some a =>
        if job.ledgerAddr = 0 then .next (updEnd ring 0 0 4 0 0 0 (bump Config.tUpdate u 11 1 s))
        else .next (updEnd ring 0 0 4 0 0 8 (markPut job a (field d 8 1) (bitOf (field d 9 1) 0) s))
      | none => .next (updEnd ring 0 0 4 0 0 0 (bump Config.tUpdate u 11 1 s))

end Sys2Proof.Machine
end

