-- ==== Sys2Proof/Machine/Mirror.lean ====
section
/-! DEFINITION. Sys2Proof/Machine/Mirror.lean: the commands of group 0x08 and the ends of checkpoints, restores and takeovers
(R453–R479). -/

namespace Sys2Proof.Machine
open Sys2Proof

/-! ### Region lists (R455) -/

/-- The entries of a region list. -/
def parseRegs (bs : Bytes) (n : Nat) : List Region :=
  (List.range n).map fun i => { addr := field bs (32 * i) 8, len := field bs (32 * i + 8) 8, early := bitOf (field bs (32 * i + 16) 1) 0 }
/-- Index of the first entry that breaks R455 or R327. -/
def regsBad (c : Nat) (l : List Region) (s : State) : Option Nat :=
  (List.range l.length).find? fun i =>
    match l[i]? with
    | some r => r.addr % 64 != 0 || r.len % 64 != 0 || r.len == 0 || !s.ownsStudent c r.addr r.len
        || (l.take i).any fun q => runsMeet q.addr q.len r.addr r.len
    | none => false
/-- Reserved bytes of `n` entries from offset `o`. -/
def regsRsv (o n : Nat) : List (Nat × Nat) := (List.range n).map fun i => (o + 32 * i + 17, 15)
/-- Reserved bits of the entries' FLAGS. -/
def regsBits (o n : Nat) : List (Nat × Nat) := (List.range n).map fun i => (o + 32 * i + 16, 0xFE)

/-- Handle and permission checks of a Mirror command that names a student job. -/
def mirJob (c h o : Nat) (s : State) : (Nat × Nat) ⊕ Job :=
  match s.job h with
  | none => .inl (eBadHandle, o)
  | some j => if c ≠ 0 && j.ctx ≠ c then .inl (ePermission, o) else .inr j

/-- The L3 binding of a command, at offset `o`. -/
def l3Bad (c level b o : Nat) (s : State) : Option (Nat × Nat) :=
  if level ≠ 3 then none
  else match s.bind b with
    | none => some (eBadHandle, o)
    | some x => if x.kind ≠ 2 then some (eBadHandle, o) else if c ≠ 0 && x.ctx ≠ c then some (ePermission, o) else none

/-- SLC bytes that a context's L2 checkpoints and logs hold (R80, R456). -/
def State.slcUsed (s : State) (c : Nat) : Nat :=
  ((s.mirror.ckpts.filter fun k => k.1 / 2 == 2 && k.2.ctx == c && k.2.st != 0).map fun k => regBytes k.2.regs).sum
    + (match s.mirror.prot with
      | some p => (match s.job p.job with | some j => if j.ctx = c then 128 * p.logDepth else 0 | none => 0)
      | none => 0)

/-- Bytes of the SLC region that are Mirror's: 512 GiB but for the 8 GiB that firmware holds (R363). -/
def slcRegion : Nat := 504 * 2 ^ 30

/-- SLC bytes that checkpoints and the log hold. -/
def State.slcAll (s : State) : Nat :=
  ((s.mirror.ckpts.filter fun k => k.1 / 2 == 2 && k.2.st != 0).map fun k => regBytes k.2.regs).sum
    + (match s.mirror.prot with | some p => 128 * p.logDepth | none => 0)

/-- An allocation of `more` SLC bytes for a job's context, in place of `old` bytes that it frees, goes beyond the context's quota or finds no
space in the region (R80, R381). -/
def State.slcBad (s : State) (c old more : Nat) : Option (Nat × Nat) :=
  if c ≠ 0 && s.slcUsed c - old + more > (s.ctx c).quota.slc * 2 ^ 20 then some (eQuota, 8)
  else if s.slcAll - old + more > slcRegion then some (eNoResource, 0)
  else none

/-- SLC bytes of the checkpoint that the next one of level 2 overwrites (R456), and of the log of the job protected now. -/
def State.slcOld (s : State) : Nat := let k := s.ckpt (s.nextGen 2); if k.st ≠ 0 then regBytes k.regs else 0
def State.slcLog (s : State) : Nat := match s.mirror.prot with | some p => 128 * p.logDepth | none => 0

/-- TEMPLATE of a job is replaced. -/
def setTemplate (h : Nat) (l : List Region) (s : State) : State :=
  { s with mirror := { s.mirror with
    tmpl := (h, l) :: s.mirror.tmpl.filter fun x => x.1 != h
    prot := s.mirror.prot.map fun p => if p.job = h then { p with regs := l } else p } }

/-! ### MIR_CKPT (R457, R474) -/

/-- MIR_CKPT. -/
def specMirCkpt : CmdSpec where
  opcode := 0x0800
  access := 0
  p := true
  len := fun p => some (16 + 32 * field p 4 2)
  rsv := fun p => (8, 8) :: regsRsv 16 (field p 4 2)
  rbits := fun p => (3, 0xFE) :: regsBits 16 (field p 4 2)
  resp := respOf 16
  run := fun i p s =>
    let h := field p 0 2
    let level := field p 2 1
    let n := field p 4 2
    let regs := parseRegs (p.drop 16) n
    match mirJob i.ctx h 0 s with
    | .inl e => .fail e.1 e.2
    | .inr j =>
      match l3Bad i.ctx level (field p 6 2) 6 s with
      | some e => .fail e.1 e.2
      | none =>
        if level < 1 || level > 3 then .fail eBadArgument 2
        else if n < 1 || n > 1024 then .fail eBadArgument 4
        else match regsBad j.ctx regs s with
          | some k => .fail 0x2801 k
          | none =>
            match (if level = 2 then s.slcBad j.ctx s.slcOld (regBytes regs) else none) with
            | some e => .fail e.1 e.2
            | none =>
            if level = 1 && (match s.protOf h with | some x => x.noBuddy | none => true) then .fail 0x2805 0
            else if !j.student || !j.started || j.st = 4 || !s.ckptPoint then .fail eState j.st
            else if s.ckptBusy then .fail eBusy 0
            else
              let s := if field p 3 1 = 1 then setTemplate h regs s else s
              .pend (ckptStart h level regs (field p 6 2) (some (i.ctx, i.handle)) false s)

def execMirCkpt (q : Request) (s : State) : Host.Outcome State Fault Refusal := submit specMirCkpt q s

/-- CKPT_CAPTURE_DONE (R457): the last EARLY byte is read; an event record tells the STEP. -/
def execCkptCaptureDone (ckpt : Nat) (s : State) : Host.Outcome State Fault Refusal :=
  if (s.ckpt ckpt).st ≠ 1 || s.isFatal then .next s
  else
    let s := ckptRead ckpt (·.early) s
    let k := s.ckpt ckpt
    if k.st ≠ 1 then .next s
    else
      let h := (k.op.map (·.2)).getD 0
      .next (deliverEvent k.ctx (eventRecord 0x0800 1 0 0 0 h s.now (leBytes 8 k.step) 0) (s.setCkpt ckpt { k with st := 2 }))

/-- Blocks of 64 KiB of a region, each encrypted under its own nonce from `n` on (R520). -/
def ckptBlocks (key : Bytes) (n : Nat) (bs : Bytes) : Bytes :=
  (List.range (cdiv bs.length 65536)).flatMap fun i =>
    let b := (bs.drop (65536 * i)).take 65536
    (Config.gcmSeal key (leBytes 12 (n + i)) [] b).take b.length

/-- The regions of an encrypted checkpoint, in manifest order, each followed by its tag. -/
def ckptRegions (key : Bytes) : Nat → List Bytes → Bytes
  | _, [] => []
  | n, r :: rs => ckptBlocks key n r ++ fitTo 16 (Config.regionTag key n r) ++ ckptRegions key (n + cdiv r.length 65536) rs

/-- An encrypted checkpoint: security header, manifest, regions (R520). [DEDUCED, log 39] -/
def ckptSecure (mek salt m : Bytes) (rs : List Bytes) : Bytes :=
  let key := Config.hkdf mek salt [0x63, 0x6B, 0x70, 0x74] 32
  let c := Config.gcmSeal key (zeros 12) [] m
  leBytes 4 0x43524553 ++ [1] ++ zeros 3 ++ fitTo 32 salt ++ fitTo 16 (c.drop m.length) ++ zeros 8 ++ c.take m.length
    ++ ckptRegions key 1 rs

/-- MEK of a group as CS stands (R515). -/
def State.newMek (s : State) (g : Nat) : Option Bytes :=
  (s.ctx (s.group g).ctx).secret.map fun cs =>
    Config.hkdf cs (zeros 32) ([0x6D, 0x69, 0x72, 0x72, 0x6F, 0x72] ++ leBytes 8 (s.group g).key) 32

/-- MEK of job `h` in group `g`: that of its protection, which a later roll does not change (R516). -/
def State.mek (s : State) (h g : Nat) : Option Bytes :=
  match s.mirror.prot with
  | some p => if p.job = h && p.mek.isSome then p.mek else s.newMek g
  | none => s.newMek g

/-- MEK of an existing job, if CS is installed. -/
def State.jobMek (s : State) (h : Nat) : Option Bytes := (s.job h).bind fun j => s.mek h j.group

/-- The bytes of a checkpoint leave for their level's destination: the buddy, or the binding of the remote store, encrypted where CS
is installed (R520); L2 goes to the Store, whose SLC contents the checkpoint itself stands for. -/
def ckptShip (n : Nat) (s : State) : State :=
  let k := s.ckpt n
  let rs := k.data.map (·.getD [])
  if n / 2 = 1 then
    match s.mirror.prot with
    | some p => toBuddy 0 k.job p (manifest s n ++ rs.flatMap id) s
    | none => s
  else if n / 2 = 3 then
    match s.jobMek k.job with
    | some mek =>
      let out := ckptSecure mek (Config.drbg (s.keys + 1) 32) (manifest s n) rs
      { s with keys := s.keys + 1, sys := { s.sys with netOut := s.sys.netOut ++ [(k.bind, out)] } }
    | none => { s with sys := { s.sys with netOut := s.sys.netOut ++ [(k.bind, manifest s n ++ rs.flatMap id)] } }
  else s

/-- CKPT_MANIFEST_WRITTEN (R457): the other regions and the manifest have been written (`ok`), or the destination has failed. For
a snapshot `ok` stands for every member's checkpoint (R471). -/
def execCkptManifestWritten (ckpt : Nat) (ok : Bool) (s : State) : Host.Outcome State Fault Refusal :=
  if (s.ckpt ckpt).st ≠ 2 || s.isFatal then .next s
  else
    let s := ckptSpoil ckpt (ckptRead ckpt (fun _ => true) s)
    let k := s.ckpt ckpt
    if k.st ≠ 2 then .next s
    else if !ok then .next (ckptFail ckpt 0x113 s)
    else
      let bytes := regBytes k.regs
      let s := bump Config.tMirror 0 0 1 (bump Config.tMirror 0 1 bytes (ckptShip ckpt s))
      let s := s.setCkpt ckpt { k with st := 3, op := none, mek := if ckpt / 2 = 1 then none else s.jobMek k.job }
      let level := ckpt / 2
      let s := { s with mirror := { s.mirror with
        last := (level, ckpt) :: s.mirror.last.filter fun x => x.1 != level
        kept := if level = 1 then s.mirror.kept.filter fun d => decide (k.attempt < d.attempt) else s.mirror.kept } }
      let members := match s.job k.job with | some j => (s.jobMembers j).length | none => 0
      -- the checkpoint that completes MIR_SPARE PROTECT fixes MEK (R516)
      let s := if (k.op.bind fun o => s.ops.find? fun x => x.ctx == o.1 && x.handle == o.2).any fun x => x.opcode == 0x0803 then
          { s with mirror := { s.mirror with
            prot := s.mirror.prot.map fun p => { p with mek := (s.job p.job).bind fun j => s.newMek j.group } } }
        else s
      let s := match k.op with
        | some o =>
          let r := if k.snap then leBytes 8 k.step ++ leBytes 2 members
            else if (s.ops.find? fun x => x.ctx == o.1 && x.handle == o.2).any fun x => x.opcode == 0x0803 then []
            else leBytes 8 k.step ++ leBytes 8 bytes
          finishOp o.1 o.2 0 0 r s
        | none => s
      match s.job k.job with
      | some j => .next (commitGo k.job j (snapGo s))
      | none => .next s

/-! ### MIR_RESTORE (R460) -/

/-- The COMPLETE checkpoint that a restore names. -/
def State.restorable (s : State) (c level : Nat) (latest : Bool) (step : Nat) : Option Ckpt :=
  if latest then
    match s.lastCkpt level with
    | some n => if (s.ckpt n).st = 3 && (s.ckpt n).ctx = c then some (s.ckpt n) else none
    | none => none
  else ((s.mirror.ckpts.find? fun k => k.1 / 2 == level && k.2.st == 3 && k.2.ctx == c && k.2.step == step)).map (·.2)

/-- Write the regions of a checkpoint into a list. [DEDUCED, log 58] -/
def restoreRegs (regs : List Region) (data : List Bytes) (s : State) : State :=
  (regs.zip data).foldl (fun a x => hbmWrite x.1.addr (fitTo x.1.len x.2) a) s

/-- A restore that fails leaves its destination undefined (R459). [DESIGN CHOICE, log 58] -/
def restoreUndefined (regs : List Region) (s : State) : State :=
  regs.foldl (fun s r => hbmWrite r.addr (freshBytes r.len s).1 (freshBytes r.len s).2) s

/-- MIR_RESTORE: a region whose digest does not match its manifest, or a checkpoint written under an earlier CS, ends it (R459, R460, R516).
[DEDUCED, log 58] -/
def specMirRestore : CmdSpec where
  opcode := 0x0801
  access := 0
  p := true
  len := fun p => some (16 + 32 * field p 4 2)
  rsv := fun p => regsRsv 16 (field p 4 2)
  rbits := fun p => (3, 0xFE) :: regsBits 16 (field p 4 2)
  resp := respOf 8
  run := fun i p s =>
    let h := field p 0 2
    let level := field p 2 1
    let n := field p 4 2
    let regs := parseRegs (p.drop 16) n
    match mirJob i.ctx h 0 s with
    | .inl e => .fail e.1 e.2
    | .inr j =>
      match l3Bad i.ctx level (field p 6 2) 6 s with
      | some e => .fail e.1 e.2
      | none =>
        if level < 1 || level > 3 then .fail eBadArgument 2
        else if n < 1 || n > 1024 then .fail eBadArgument 4
        else match regsBad j.ctx regs s with
          | some k => .fail 0x2801 k
          | none =>
            match s.restorable j.ctx level (field p 3 1 == 1) (field p 8 8) with
            | none => .fail 0x2800 level
            | some k =>
              match (if k.regs.length ≠ n then some (min n k.regs.length) else (List.range n).find? fun x =>
                  (k.regs[x]?.map (·.len)) != (regs[x]?.map (·.len))) with
              | some x => .fail 0x2801 x
              | none =>
                if !j.student || (j.st ≠ 0 && j.st ≠ 3) then .fail eState j.st
                else if i.defer then .pend s
                else if !Config.copyIntact level s.now || (k.mek.isSome && k.mek != s.mek h j.group) then
                  .failWith eIntegrity 0 (mirErr 3 h s.sysIndex k.attempt (restoreUndefined regs s))
                else
                  let s := loadStep k.block (restoreRegs regs (k.data.map (·.getD [])) s)
                  .ok (leBytes 8 k.step) (bump Config.tMirror 0 2 1 (s.setJob h { j with started := true }))

def execMirRestore (q : Request) (s : State) : Host.Outcome State Fault Refusal := submit specMirRestore q s

/-! ### MIR_SNAPSHOT (R471) -/

/-- MIR_SNAPSHOT. -/
def specMirSnapshot : CmdSpec where
  opcode := 0x0802
  access := 0
  p := true
  len := fixed 6
  rsv := rsvAt [(3, 1)]
  resp := respOf 10
  run := fun i p s =>
    let h := field p 0 2
    let level := field p 2 1
    match mirJob i.ctx h 0 s with
    | .inl e => .fail e.1 e.2
    | .inr j =>
      match l3Bad i.ctx level (field p 4 2) 4 s with
      | some e => .fail e.1 e.2
      | none =>
        let bytes := regBytes (s.template h)
        if level < 2 || level > 3 then .fail eBadArgument 2
        else match (if level = 2 then s.slcBad j.ctx s.slcOld bytes else none) with
        | some e => .fail e.1 e.2
        | none =>
        if (s.template h).isEmpty then .fail 0x2805 0
        else if !j.student || !j.started || j.st = 4 then .fail eState j.st
        else if s.mirror.snapWait.isSome then .fail eBusy 0
        else .pend (snapGo { s with mirror := { s.mirror with snapWait := some (h, level, field p 4 2, i.ctx, i.handle) } })

def execMirSnapshot (q : Request) (s : State) : Host.Outcome State Fault Refusal := submit specMirSnapshot q s

/-! ### MIR_SPARE (R453, R454, R475) -/

/-- OP PROTECT: the list follows the fixed part to the end of the payload. [DEDUCED, log 58] -/
def spareProtect (i : Iss) (p : Bytes) (s : State) : Res :=
  let h := field p 2 2
  let n := (p.length - 28) / 32
  let regs := parseRegs (p.drop 28) n
  match mirJob i.ctx h 2 s with
  | .inl e => .fail e.1 e.2
  | .inr j =>
    if field p 6 1 < 1 || field p 6 1 > 64 then .fail eBadArgument 6
    else if field p 16 4 < 16 || field p 16 4 > 65536 then .fail eBadArgument 16
    else if n < 1 || n > 1024 then .fail eBadArgument 28
    else if !s.ownsStudent j.ctx (field p 8 8) (128 * field p 16 4) then .fail eAddress 8
    else match regsBad j.ctx regs s with
      | some k => .fail 0x2801 k
      | none =>
        let b := field p 4 2
        match s.slcBad j.ctx s.slcLog (128 * field p 16 4) with
        | some e => .fail e.1 e.2
        | none =>
        if b = s.sysIndex || b / 64 ≠ s.sys.pod || !Config.peerReserves b s.now then .fail 0x2802 b
        else if !j.student || !j.started || j.st = 4 || !s.ckptPoint then .fail eState j.st
        else if s.ckptBusy then .fail eBusy 0
        else
          let s := { s with mirror := { s.mirror with
            prot := some { job := h, buddy := b, retain := field p 6 1, logAddr := field p 8 8, logDepth := field p 16 4
                           deltaMax := field p 20 8, regs, ok := true, noBuddy := false, mek := none }
            kept := [], cur := Delta.init, asked := false, acked := false, badSlot := false, resolving := none, waitAt := none } }
          .pend (ckptStart h 1 regs 0 (some (i.ctx, i.handle)) false (setTemplate h regs s))

/-- The pod hears that this device is, or is no more, a spare of a group: its key, AUTO and its members, so that a buddy can start a takeover
on it (R454). [DESIGN CHOICE, log 89] -/
def spareTell (g : Nat) (on : Bool) (auto : Nat) (s : State) : State :=
  let x := s.group g
  ((List.range 64).filter fun d => d != s.sys.podDev && (s.routeTo d).isSome).foldl (fun s d =>
    sendMsg (s.sys.pod * 64 + d) 0 0 false (msgBytes mgSpare (leBytes 8 x.key ++ leBytes 1 (b2n on) ++ leBytes 1 auto
      ++ x.members.flatMap (leBytes 2))) s) s

/-- OP DESIGNATE. -/
def spareDesignate (i : Iss) (p : Bytes) (s : State) : Res :=
  let g := field p 2 2
  let h := field p 4 2
  if (s.group g).members.isEmpty then .fail eBadHandle 2
  else if i.ctx ≠ 0 && (s.group g).ctx ≠ i.ctx then .fail ePermission 2
  else match mirJob i.ctx h 4 s with
    | .inl e => .fail e.1 e.2
    | .inr j =>
      if j.ctx ≠ (s.group g).ctx || !j.student || j.resume then .fail eBadArgument 4
      else if j.st ≠ 0 then .fail eState j.st
      else .ok [] (spareTell g true (field p 6 1) { s with mirror := { s.mirror with desig := some { group := g, job := h, auto := field p 6 1 == 1 } } })

/-- OP RESERVE: pages of the student side held by firmware. -/
def spareReserve (i : Iss) (p : Bytes) (s : State) : Res :=
  let dev := field p 2 2
  let n := cdiv (field p 8 8) Config.pageBytes
  if !isAdmin i.mb then .fail ePermission 0
  else if dev = s.sysIndex || dev / 64 ≠ s.sys.pod then .fail eBadArgument 2
  else if field p 8 8 = 0 then .fail eBadArgument 8
  else match [4, 5, 6, 7].findSome? fun k => s.freeRun k n 1 with
    | none => .fail eNoResource 0
    | some pg =>
      if s.mirror.resv.any fun r => r.dev == dev then .fail eBusy 0
      else
        let s := takePages 0 pg n s
        .ok (leBytes 8 (pg * Config.pageBytes)) { s with mirror := { s.mirror with
          resv := s.mirror.resv ++ [{ dev, base := pg * Config.pageBytes, len := n * Config.pageBytes, got := [], word := none }] } }

/-- OP RELEASE. -/
def spareRelease (i : Iss) (p : Bytes) (s : State) : Res :=
  let x := field p 2 2
  match field p 1 1 with
  | 0 =>
    (match s.mirror.prot, mirJob i.ctx x 2 s with
      | _, .inl e => .fail e.1 e.2
      | some q, .inr _ =>
        if q.job ≠ x then .fail eBadHandle 2
        else
          let m := { s.mirror with
            prot := none, kept := [], cur := Delta.init, asked := false, acked := false, badSlot := false, resolving := none, waitAt := none }
          -- a commit that waited for the buddy goes on without it
          .ok [] (match s.job x with | some j => commitGo x j { s with mirror := m } | none => { s with mirror := m })
      | none, .inr _ => .fail eBadHandle 2)
  | 1 =>
    (match s.mirror.desig with
      | some q =>
        if q.group ≠ x then .fail eBadHandle 2
        else if i.ctx ≠ 0 && (s.group x).ctx ≠ i.ctx then .fail ePermission 2
        else .ok [] (spareTell x false 0 { s with mirror := { s.mirror with desig := none } })
      | none => .fail eBadHandle 2)
  | 2 =>
    (match s.mirror.resv.find? fun r => r.dev == x with
      | some r =>
        if !isAdmin i.mb then .fail ePermission 1
        else if s.mirror.beats.any fun b => b.1 == x then .fail eBusy 0
        else
          let s := match s.mem.allocs.find? fun a => a.base == r.base with | some a => freePages a s | none => s
          .ok [] { s with mirror := { s.mirror with resv := s.mirror.resv.filter fun y => y.dev != x } }
      | none => .fail eBadHandle 2)
  | _ => .fail eReserved 1

/-- MIR_SPARE: the four operations of R475 share one opcode. -/
def specMirSpare : CmdSpec where
  opcode := 0x0803
  access := 0
  p := true
  len := fun p => some (match field p 0 1 with
    | 0 => 28 + 32 * ((p.length - 28) / 32) | 1 => 7 | 2 => 16 | 3 => 4 | _ => p.length)
  rsv := fun p => match field p 0 1 with
    | 0 => [(1, 1), (7, 1)] ++ regsRsv 28 ((p.length - 28) / 32) | 1 => [(1, 1)] | 2 => [(1, 1), (4, 4)] | _ => []
  rbits := fun p => match field p 0 1 with
    | 0 => regsBits 28 ((p.length - 28) / 32) | 1 => [(6, 0xFE)] | _ => []
  resp := fun _ p => if field p 0 1 = 2 then 8 else 0
  run := fun i p s =>
    match field p 0 1 with
    | 0 => spareProtect i p s | 1 => spareDesignate i p s | 2 => spareReserve i p s | 3 => spareRelease i p s
    | _ => .fail eBadArgument 0

/-- A request whose OP byte is that of the row, unless its payload is indirect and holds its own. [DESIGN CHOICE, log 19] -/
def withOp (op : Nat) (q : Request) : Request := if bitOf q.flags 0 then q else { q with payload := splice q.payload 0 (leBytes 1 op) }

/-- MIR_SPARE with OP PROTECT, DESIGNATE, RESERVE and RELEASE. [DESIGN CHOICE, log 19] -/
def execMirSpareProtect (q : Request) (s : State) : Host.Outcome State Fault Refusal := submit specMirSpare (withOp 0 q) s
def execMirSpareDesignate (q : Request) (s : State) : Host.Outcome State Fault Refusal := submit specMirSpare (withOp 1 q) s
def execMirSpareReserve (q : Request) (s : State) : Host.Outcome State Fault Refusal := submit specMirSpare (withOp 2 q) s
def execMirSpareRelease (q : Request) (s : State) : Host.Outcome State Fault Refusal := submit specMirSpare (withOp 3 q) s

/-! ### MIR_TAKEOVER (R468, R470) -/

/-- A MGMT message to the other members of a group. -/
def tellMembers (g w : Nat) (bs : Bytes) (s : State) : State :=
  ((s.group g).members.filter (· != s.sysIndex)).foldl (fun s m => sendMsg m 0 0 false (msgBytes w bs) s) s

/-- A takeover begins: the spare takes the rank, and tells the other members, whose collectives wait; its standby job goes into replay. -/
def takeoverGo (g rank h : Nat) (j : Job) (op : Option (Nat × Nat)) (s : State) : State :=
  let s := s.updGroup g fun x => { x with members := x.members.set rank s.sysIndex, st := 4 }
  let s := tellMembers g mgRank (leBytes 8 (s.group g).key ++ leBytes 2 rank) s
  let s := s.setJob h { j with st := 1, started := true, header := splice j.header 6 (leBytes 2 g) }
  { s with mirror := { s.mirror with replay := some { job := h, group := g, rank, ready := false, queue := [], first := 0, last := 0, op } } }

/-- A takeover that the buddy of the lost member asks for starts without a command, on a spare designated with AUTO (R454). [DEDUCED, log 58] -/
def takeoverAuto (key rank : Nat) (s : State) : State :=
  match s.mirror.desig with
  | none => s
  | some d =>
    match s.job d.job with
    | none => s
    | some j =>
      let g := s.group d.group
      if !d.auto || g.key ≠ key || rank ≥ g.members.length || j.st ≠ 0 || s.mirror.replay.isSome then s
      else takeoverGo d.group rank d.job j none s

/-- OP BEGIN: the spare takes the lost rank and its standby job goes into replay; the restore follows. -/
def takeoverBegin (i : Iss) (p : Bytes) (s : State) : Res :=
  let g := field p 2 2
  let rank := field p 4 2
  let h := field p 6 2
  if (s.group g).members.isEmpty then .fail eBadHandle 2
  else if i.ctx ≠ 0 && (s.group g).ctx ≠ i.ctx then .fail ePermission 2
  else match mirJob i.ctx h 6 s with
    | .inl e => .fail e.1 e.2
    | .inr j =>
      if rank ≥ (s.group g).members.length then .fail eBadArgument 4
      else if s.mirror.desig.all (fun d => d.group != g || d.job != h) then .fail eState (s.group g).st
      else if (s.group g).st ≠ 2 then .fail eState (s.group g).st
      else if j.st ≠ 0 || s.mirror.replay.isSome then .fail eState j.st
      else
        .pend (takeoverGo g rank h j (some (i.ctx, i.handle)) s)

/-- TAKEOVER_RESTORE_COMPLETE (R468): the lost member's L1 checkpoint (its region bytes and step block) and its retained deltas
have come from the buddy. -/
def execTakeoverRestoreComplete (job : Nat) (data : List (List Byte)) (block : List Byte) (deltas : List Delta) (s : State) :
    Host.Outcome State Fault Refusal :=
  match s.mirror.replay, s.job job with
  | some r, some j =>
    if r.job ≠ job || r.ready || s.isFatal then .next s
    else
      let regs := s.template job
      -- a takeover that no command began tells its context by a unit notification
      let done (st d : Nat) (res : Bytes) (s : State) : State := match r.op with
        | some o => finishOp o.1 o.2 st d res s
        | none => deliverEvent j.ctx (eventRecord 0xFFFF st 0 2 0 0 s.now res 0) s
      if data.isEmpty || data.length ≠ regs.length || (stepBlockBad (fitTo 64 block)).isSome then
        let st := if data.isEmpty then 0x2800 else 0x2801
        let s := (s.setJob job { j with st := 4 }).updGroup r.group fun x => { x with st := 2 }
        .next (done st (if data.isEmpty then 1 else min data.length regs.length) [] { s with mirror := { s.mirror with replay := none } })
      else
        let s := bump Config.tMirror 0 2 1 (loadStep (fitTo 64 block) (restoreRegs regs data s))
        let s := match deltas.getLast? with
          | some d => restoreRegs (regs.filter (·.early)) d.early s
          | none => s
        let first := match deltas with | d :: _ => d.attempt | [] => (s.upd 0).attempt
        let last := match deltas.getLast? with | some d => d.attempt | none => first - 1
        let s := { s with mirror := { s.mirror with replay := some { r with ready := true, queue := deltas, first, last, op := none } } }
        .next (done 0 0 (leBytes 8 first ++ leBytes 8 last) s)
  | _, _ => .next s

/-- OP END: the replayed state is compared, and on agreement the group is READY again. -/
def takeoverEnd (i : Iss) (p : Bytes) (s : State) : Res :=
  let g := field p 2 2
  let h := field p 6 2
  if (s.group g).members.isEmpty then .fail eBadHandle 2
  else if i.ctx ≠ 0 && (s.group g).ctx ≠ i.ctx then .fail ePermission 2
  else match mirJob i.ctx h 6 s with
    | .inl e => .fail e.1 e.2
    | .inr j =>
      match s.mirror.replay with
      | none => .fail eState j.st
      | some r =>
        if r.group ≠ g || r.job ≠ h || r.rank ≠ field p 4 2 then .fail eBadArgument 4
        else if !r.ready || !r.queue.isEmpty || s.windowOpen then .fail eState j.st
        else if i.defer then .pend s
        else if !Config.replayAgrees s.now then
          let att := (s.upd 0).attempt
          .failWith 0x2804 (att % 2 ^ 32) (mirErr 5 h s.sysIndex att s)
        else
          let s := bump Config.tMirror 0 9 1 ((tellMembers g mgGroup (leBytes 8 (s.group g).key) s).updGroup g fun x => { x with st := 1 })
          .ok (leBytes 8 r.first ++ leBytes 8 r.last) { s with mirror := { s.mirror with replay := none, desig := none } }

/-- MIR_TAKEOVER. -/
def specMirTakeover : CmdSpec where
  opcode := 0x0804
  access := 0
  p := true
  len := fixed 8
  rsv := rsvAt [(1, 1)]
  resp := respOf 16
  run := fun i p s =>
    match field p 0 1 with | 0 => takeoverBegin i p s | 1 => takeoverEnd i p s | _ => .fail eBadArgument 0

def execMirTakeoverBegin (q : Request) (s : State) : Host.Outcome State Fault Refusal := submit specMirTakeover (withOp 0 q) s
def execMirTakeoverEnd (q : Request) (s : State) : Host.Outcome State Fault Refusal := submit specMirTakeover (withOp 1 q) s

/-! ### MIR_LOG_QUERY (R462, R474) -/

/-- MIR_LOG_QUERY. [DEDUCED, log 58] -/
def specMirLogQuery : CmdSpec where
  opcode := 0x0805
  access := 0
  p := false
  len := fixed 18
  rsv := rsvAt [(2, 6)]
  resp := fun _ p => 128 * field p 16 2
  run := fun i p s =>
    match mirJob i.ctx (field p 0 2) 0 s with
    | .inl e => .fail e.1 e.2
    | .inr _ =>
      if field p 16 2 < 1 || field p 16 2 > 1024 then .fail eBadArgument 16
      else if s.mirror.prot.all (fun x => x.job != field p 0 2) then .fail 0x2805 0
      else .ok ((List.range (field p 16 2)).flatMap fun k =>
        (s.mirror.log.find? fun e => field e 8 8 == field p 8 8 + k).getD (zeros 128)) s

def execMirLogQuery (q : Request) (s : State) : Host.Outcome State Fault Refusal := submit specMirLogQuery q s

end Sys2Proof.Machine
end

