-- ==== Sys2Proof/Machine/RingCmd.lean ====
section
/-! DEFINITION. Sys2Proof/Machine/RingCmd.lean: the ring commands of group 0x04, writes of ring registers, draining and
the clearing of a core (R84–R86, R143, R330–R335, R593). -/

namespace Sys2Proof.Machine
open Sys2Proof

/-- Facet TYPEs that consume descriptors. -/
def consumerType (ty : Nat) : Bool :=
  [Config.tTeacher, Config.tStudent, Config.tLens, Config.tPrism, Config.tScaler, Config.tUpdate, Config.tStream,
   Config.tEngine, Config.tNet].contains ty

/-- Handles, arguments and addresses of RING_CREATE (R77 steps 7 to 9, R84, R85, R334). -/
def ringArgs (c : Nat) (p : Bytes) (s : State) : Option (Nat × Nat) :=
  let kind := field p 0 1
  let lg := field p 1 1
  let slots := field p 4 4
  let base := field p 8 8
  let space := field p 16 1
  let ty := field p 18 2
  let inst := field p 20 2
  let co := field p 22 2
  let vec := field p 24 2
  if ty = Config.tPrism && kind = 0 && c ≠ 0 then some (ePermission, 18)
  else if kind < 2 && co ≠ 0xFFFF && (s.ring co).st = 0 then some (eBadHandle, 22)
  else if kind > 4 then some (eBadArgument, 0)
  else if (if kind = 1 then lg ≠ 4 else if kind = 3 then lg < 6 || lg > 12 else lg ≠ 6) then some (eBadArgument, 1)
  else if slots < 3 || slots > 65536 then some (eBadArgument, 4)
  else if base % 2 ^ lg ≠ 0 then some (eAddress, 8)
  else if space > 1 then some (eBadArgument, 16)
  else if !s.reach c space base (slots * 2 ^ lg) then some (eAddress, 8)
  else if (if kind = 2 then ty ≠ 0
      else if kind = 0 then !(ty == 0 || consumerType ty)
      else if kind = 4 then !(ty == 0 || consumerType ty)
      else !(ty == 0 || consumerType ty || ty == Config.tServing)) then some (eBadArgument, 18)
  else if ty ≠ 0 && (inst ≥ Config.instances ty || s.fusedOff ty inst) then some (eBadArgument, 20)
  else if kind ≥ 2 && co ≠ 0xFFFF then some (eBadArgument, 22)
  else if co ≠ 0xFFFF && ((s.ring co).kind ≠ 4 || (s.ring co).ctx ≠ c
      || !((s.ring co).unitType == 0 || ((s.ring co).unitType == ty && (s.ring co).unitInst == inst))) then
    some (eBadArgument, 22)
  else if vec ≠ 0xFFFF && vec ≥ 2048 then some (eBadArgument, 24)
  else none

/-- Rings that a context holds. -/
def State.ringsOf (s : State) (c : Nat) : Nat := (s.rings.filter fun r => r.2.st != 0 && r.2.ctx == c).length

/-- Quota, resources and state of RING_CREATE (R77 steps 10 to 12). [DEDUCED, log 44] -/
def ringRoom (c : Nat) (p : Bytes) (s : State) : Option (Nat × Nat) :=
  let ty := field p 18 2
  let inst := field p 20 2
  if c ≠ 0 && s.ringsOf c ≥ (s.ctx c).quota.rings then some (eQuota, 12)
  else if s.freeRing.isNone then some (eNoResource, 0)
  else if ty ≠ 0 && (s.unit ty inst).oos then some (eNoResource, 0)
  else if field p 0 1 = 0 && ty ≠ 0 && (s.unitRings ty inst).length ≥ ringLimit ty then some (eNoResource, 0)
  else match unitCore ty inst with
    | some k =>
      if (s.core k).clearing then some (eBusy, 0)
      else (match s.coreOwner k with
        | some o => if o = c then none else some (eBusy, 0)
        | none => none)
    | none =>
      if ty = Config.tUpdate then
        (match s.studentJob with
          | some (_, j) =>
            if j.ctx = c && j.st ≠ 2 && j.st ≠ 4 then
              (if (s.namedBy ty inst).any (fun r => r.2.ctx != c) then some (eBusy, 0) else none)
            else some (eState, if j.ctx = c then j.st else 0)
          | none => some (eState, 0))
      else none

/-- RING_CREATE (R85). -/
def specRingCreate : CmdSpec where
  opcode := 0x0400
  access := 2
  p := false
  len := fixed 32
  rsv := rsvAt [(2, 2), (17, 1), (26, 6)]
  resp := respOf 2
  run := fun i p s =>
    match ringArgs i.ctx p s with
    | some (st, d) => .fail st d
    | none =>
      match ringRoom i.ctx p s with
      | some (st, d) => .fail st d
      | none =>
        let j := s.freeRing.getD 0
        .ok (leBytes 2 j) (createRing j (field p 0 1) (field p 1 1) (field p 4 4) (field p 8 8) (field p 16 1)
          (field p 18 2) (field p 20 2) (field p 22 2) (field p 24 2) i.ctx s)

def execRingCreate (q : Request) (s : State) : Host.Outcome State Fault Refusal := submit specRingCreate q s

/-- Permission and handle checks of a command that names a ring. [DEDUCED, log 29, 44] -/
def ringHandle (c j : Nat) (s : State) : Option (Nat × Nat) :=
  if j ≥ Config.rings || (s.ring j).st = 0 then some (eBadHandle, 0)
  else if (s.ring j).ctx ≠ c then some (ePermission, 0) else none

/-- A serving queue, model or prefix writes to or reads from this ring. -/
def State.ringServed (s : State) (j : Nat) : Bool := s.servedRings.contains j

/-- The unit holds a descriptor, slot or handle of a ring, or the ring is still named (R86). -/
def State.ringBusy (s : State) (j : Nat) : Bool :=
  let r := s.ring j
  r.cur.isSome || r.inTask || !r.fetched.isEmpty || r.fence != 0 || !r.held.isEmpty || r.drainOp.isSome
    || s.ringNamed j || s.ringServed j

/-- The last ring that names a core is gone: the core begins to clear (R143, R593). -/
def beginClear (core : Nat) (waiter : Option Nat) (s : State) : State :=
  s.updCore core fun x => { x with clearing := true, waiter, chain := none, drain := none, vec := none, kd := none }

/-- RING_DESTROY (R86, R143). -/
def specRingDestroy : CmdSpec where
  opcode := 0x0401
  access := 2
  p := false
  len := fixed 2
  rsv := noRsv
  resp := respOf 0
  run := fun i p s =>
    let j := field p 0 2
    match ringHandle i.ctx j s with
    | some (st, d) => .fail st d
    | none =>
      if s.ringBusy j then .fail eBusy 0
      else
        let r := s.ring j
        let s' := s.setRing j Ring.init
        match unitCore r.unitType r.unitInst with
        | some k => if (s'.coreRings k).isEmpty then .hold (beginClear k (some i.mb) s') else .ok [] s'
        | none => .ok [] s'

def execRingDestroy (q : Request) (s : State) : Host.Outcome State Fault Refusal := submit specRingDestroy q s

/-- CORE_CLEAR_COMPLETE (R143): both banks and all of the SRAM are zero; the core accepts rings again. -/
def execCoreClearComplete (ty inst : Nat) (s : State) : Host.Outcome State Fault Refusal :=
  match unitCore ty inst with
  | none => .next s
  | some k =>
    let x := s.core k
    if ty = Config.tScaler || ty = Config.tStream || !x.clearing then .next s
    else
      let s := (sramClear k s).setCore k { x with
        clearing := false, waiter := none, chain := none, drain := none, vec := none, kd := none, taken := 0 }
      match x.waiter with
      | some m => .next (completeHeld m 0 0 [] s)
      | none => .next s

/-- The unit is idle on a draining ring: no descriptor at work, and no linked descriptor of its task in the ring; a task that is cut needs
room for its record (R334). -/
def State.drainIdle (s : State) (j : Nat) : Bool :=
  let r := s.ring j
  r.cur.isNone && (!r.inTask || (r.filled == 0 && s.recRoom r))

/-- The unit has become idle on a draining ring: a task that lacks its next descriptor is cut, and the ring is DRAINED
(R86, R333). -/
def drained (j : Nat) (s : State) : State :=
  let r := s.ring j
  let s := if r.inTask then
      putRecord j (complRecord j 0 r.head 0x113 0 0 s.now (zeros 24) 0) 0xFFFF (dropHeld j s)
    else s
  s.updRing j fun r => { r with st := 4, fetched := [], fence := 0, drainOp := none }.goOn false false

/-- RING_DRAIN (R86, R332, R333). -/
def specRingDrain : CmdSpec where
  opcode := 0x0402
  access := 2
  p := true
  len := fixed 2
  rsv := noRsv
  resp := respOf 0
  run := fun i p s =>
    let j := field p 0 2
    match ringHandle i.ctx j s with
    | some (st, d) => .fail st d
    | none =>
      let r := s.ring j
      if r.kind ≠ 0 || r.st > 2 then .fail eState r.st
      else
        let s' := (handleWait j s).setRing j { r with
          st := 3, drainOp := some i.handle, fence := 0, fetched := if r.inTask then r.fetched else [] }
        if !i.defer && s'.drainIdle j then .ok [] (drained j s') else .pend s'

def execRingDrain (q : Request) (s : State) : Host.Outcome State Fault Refusal := submit specRingDrain q s

/-- RING_DRAIN_COMPLETE (R333): the unit has become idle on the ring. -/
def execRingDrainComplete (ring : Nat) (s : State) : Host.Outcome State Fault Refusal :=
  let r := s.ring ring
  if r.st = 3 && !s.isFatal && s.drainIdle ring then
    match r.drainOp with
    | some h => .next (finishOp r.ctx h 0 0 [] (drained ring s))
    | none => .next (drained ring s)
  else .next s

/-- RING_QUERY (R82). -/
def specRingQuery : CmdSpec where
  opcode := 0x0403
  access := 2
  p := false
  len := fixed 2
  rsv := noRsv
  resp := respOf 41
  run := fun i p s =>
    let j := field p 0 2
    match ringHandle i.ctx j s with
    | some (st, d) => .fail st d
    | none =>
      let r := s.ring j
      .ok (leBytes 1 r.kind ++ leBytes 1 r.slotLog2 ++ [0, 0] ++ leBytes 4 r.slots ++ leBytes 8 r.base
        ++ leBytes 1 r.space ++ [0] ++ leBytes 2 r.unitType ++ leBytes 2 r.unitInst ++ leBytes 2 r.completion
        ++ leBytes 2 r.vector ++ zeros 6 ++ leBytes 4 r.head ++ leBytes 4 r.tail ++ leBytes 1 (b2n (r.st == 2))) s

def execRingQuery (q : Request) (s : State) : Host.Outcome State Fault Refusal := submit specRingQuery q s

/-! ### Ring registers (R331, R333, R335, R352) -/

/-- TAIL is software's to write: it posts descriptors, handles, or is the producer of an output ring. -/
def Ring.tailRw (r : Ring) : Bool := r.kind == 0 || r.kind == 1 || (r.kind == 3 && r.unitType == 0)
/-- HEAD is software's to write: it takes records, or descriptors and handles where no unit does. -/
def Ring.headRw (r : Ring) : Bool := r.kind == 2 || r.kind == 3 || r.kind == 4 || ((r.kind == 0 || r.kind == 1) && r.unitType == 0)

/-- A write of TAIL is valid (R331). -/
def Ring.tailValid (r : Ring) (v : Nat) : Bool :=
  let m := 2 * r.slots
  decide (v < m) && decide ((v + m - r.head) % m ≤ r.slots) && decide ((v + m - r.tail) % m ≤ (v + m - r.head) % m)
/-- A write of HEAD is valid (R331). -/
def Ring.headValid (r : Ring) (v : Nat) : Bool :=
  let m := 2 * r.slots
  decide (v < m) && decide ((r.tail + m - v) % m ≤ (r.tail + m - r.head) % m)

/-- The `n` slots from index `x` on hold undefined bytes: units have posted to the handle ring too (R340). [DESIGN CHOICE, log 8] -/
def slotsUndefined (j x : Nat) : Nat → State → State
  | 0, s => s
  | n + 1, s =>
    let r := s.ring j
    let (bs, s) := freshBytes 16 s
    slotsUndefined j (r.nextIx x) n (spaceWrite r.space (r.slotAddr x) bs s)

/-- RING_TAIL_WRITE (R331): on a kind 0 ring, the doorbell. -/
def execRingTailWrite (ring value : Nat) (s : State) : Host.Outcome State Fault Refusal :=
  let r := s.ring ring
  let v := value % 2 ^ 32
  if r.st = 0 || s.isFatal || !r.tailRw then .next s
  else if r.tailValid v then
    if r.kind ≠ 1 then .next (s.setRing ring { r with tail := v })
    else
      let s := s.setRing ring { r with tail := v, posted := Nat.lor r.posted 2 }
      .next (if bitOf r.posted 0 then slotsUndefined ring r.tail ((v + 2 * r.slots - r.tail) % (2 * r.slots)) s else s)
  else .next (s.setRing ring { r with badWrite := true })

/-- RING_CTRL_RESTART (R333): a DRAINED ring runs again from HEAD, unless its unit is out of service (R570). -/
def execRingCtrlRestart (ring : Nat) (s : State) : Host.Outcome State Fault Refusal :=
  let r := s.ring ring
  if r.kind = 0 && r.st = 4 && !s.isFatal && !(s.unit r.unitType r.unitInst).oos then .next (s.setRing ring { r with st := 1 }) else .next s

/-- RING_CTRL_ARM (R335): the next advance of TAIL by a unit sends the ring's message. -/
def execRingCtrlArm (ring : Nat) (s : State) : Host.Outcome State Fault Refusal :=
  let r := s.ring ring
  if r.st = 0 || s.isFatal then .next s else .next (s.setRing ring { r with arm := true })

end Sys2Proof.Machine
end

