-- ==== Sys2Proof/Machine/Ctx.lean ====
section
/-! DEFINITION. Sys2Proof/Machine/Ctx.lean: contexts, quotas, mailbox assignment and tenant agents (R67, R71, R80–R83, R97–R99,
R513). CTX_DESTROY and CTX_RESET stand with the resets. -/

namespace Sys2Proof.Machine
open Sys2Proof

/-! ### Quota blocks (R80) -/

/-- The quota block at offset `o` of a payload. -/
def parseQuota (p : Bytes) (o : Nat) : Quota :=
  { hbmT := field p o 4, hbmS := field p (o + 4) 4, slc := field p (o + 8) 4, rings := field p (o + 12) 2
    mailboxes := field p (o + 14) 2, srvQueues := field p (o + 16) 2, srvEntries := field p (o + 18) 2
    prefixes := field p (o + 20) 4, agents := field p (o + 24) 1, prismShare := field p (o + 25) 1
    hbmShare := field p (o + 26) 1, storeShare := field p (o + 27) 1, prioMax := field p (o + 28) 1 }

/-- The 64 bytes of a quota block. -/
def Quota.bytes (q : Quota) : Bytes :=
  leBytes 4 q.hbmT ++ leBytes 4 q.hbmS ++ leBytes 4 q.slc ++ leBytes 2 q.rings ++ leBytes 2 q.mailboxes
    ++ leBytes 2 q.srvQueues ++ leBytes 2 q.srvEntries ++ leBytes 4 q.prefixes ++ leBytes 1 q.agents
    ++ leBytes 1 q.prismShare ++ leBytes 1 q.hbmShare ++ leBytes 1 q.storeShare ++ leBytes 1 q.prioMax ++ zeros 35

/-- Offset in the block of the first field out of the ranges of R80. -/
def Quota.bad (q : Quota) : Option Nat :=
  if q.hbmT > 196608 then some 0
  else if q.hbmS > 196608 then some 4
  else if q.slc > 524288 then some 8
  else if q.rings > 4096 then some 12
  else if q.mailboxes > 254 then some 14
  else if q.srvQueues > 1024 then some 16
  else if q.srvEntries > 16384 then some 18
  else if q.prefixes > 65536 then some 20
  else if q.agents > 4 then some 24
  else if q.prismShare = 0 then some 25
  else if q.hbmShare = 0 then some 26
  else if q.storeShare = 0 then some 27
  else if q.prioMax > 7 then some 28
  else none

/-- Mailboxes and agents that a context holds. -/
def State.mailboxesOf (s : State) (c : Nat) : Nat :=
  (s.mbs.filter fun m => m.2.assigned && m.2.ctx == c && decide (m.1 < Config.mailboxes)).length
def State.agent (s : State) (n : Nat) : Agent := SMap.get Agent.init s.agents n
def State.setAgent (s : State) (n : Nat) (x : Agent) : State := { s with agents := SMap.set Agent.init s.agents n x }
def State.agentsOf (s : State) (c : Nat) : Nat := (s.agents.filter fun a => a.2.st != 0 && a.2.ctx == c).length

/-- What a context uses now, in the layout of a quota block (R82). [DEDUCED, log 29] -/
def State.usage (s : State) (c : Nat) : Quota :=
  { hbmT := s.heldBytes c 0 / 2 ^ 20, hbmS := s.heldBytes c 1 / 2 ^ 20, slc := cdiv (s.slcUsed c) (2 ^ 20), rings := s.ringsOf c
    mailboxes := s.mailboxesOf c
    srvQueues := (s.srv.queues.filter fun q => (SMap.get SrvModel.init s.srv.models q.2.model).ctx == c).length
    srvEntries := (s.srv.entries.filter fun e => e.2.st != 0 && e.2.ctx == c).length
    prefixes := (s.srv.prefixes.filter fun x => x.ctx == c).length
    agents := s.agentsOf c, prismShare := 0, hbmShare := 0, storeShare := 0, prioMax := 0 }

/-! ### Contexts -/

/-- CTX_CREATE (R80, R82, R511, R513): a fresh HBM key and nonce, KEY_EPOCH 0. [DEDUCED, log 29] -/
def specCtxCreate : CmdSpec where
  opcode := 0x0200
  access := 1
  p := false
  len := fixed 128
  rsv := rsvAt [(1, 63), (93, 35)]
  resp := respOf 1
  run := fun _ p s =>
    let n := field p 0 1
    let q := parseQuota p 64
    if n ≠ 0xFF && (n = 0 || n > 63) then .fail eBadArgument 0
    else match q.bad with
      | some o => .fail eBadArgument (64 + o)
      | none =>
        match (if n = 0xFF then (List.range 64).find? fun c => c != 0 && (s.ctx c).st == 0 else some n) with
        | none => .fail eNoResource 0
        | some c =>
          if (s.ctx c).st ≠ 0 then .fail eState (s.ctx c).st
          else
            let x := { Context.init with st := 1, quota := q, hbmKey := s.keys + 1, nonce := s.keys + 2, txnCount := (s.ctx c).txnCount }
            .ok (leBytes 1 c) ({ s with keys := s.keys + 2 }.setCtx c x)

def execCtxCreate (q : Request) (s : State) : Host.Outcome State Fault Refusal := submit specCtxCreate q s

/-- A context number that names an existing tenant context. -/
def State.tenant (s : State) (c o : Nat) : Option (Nat × Nat) :=
  if c = 0 || c > 63 then some (eBadArgument, o) else if (s.ctx c).st = 0 then some (eState, 0) else none

/-- CTX_SET_QUOTA (R80, R81). -/
def specCtxSetQuota : CmdSpec where
  opcode := 0x0202
  access := 1
  p := false
  len := fixed 128
  rsv := rsvAt [(1, 63), (93, 35)]
  resp := respOf 0
  run := fun _ p s =>
    let c := field p 0 1
    let q := parseQuota p 64
    if c = 0 || c > 63 then .fail eBadArgument 0
    else match q.bad with
      | some o => .fail eBadArgument (64 + o)
      | none => if (s.ctx c).st = 0 then .fail eState 0 else .ok [] (s.updCtx c fun x => { x with quota := q })

def execCtxSetQuota (q : Request) (s : State) : Host.Outcome State Fault Refusal := submit specCtxSetQuota q s

/-- CTX_QUERY (R82). [DEDUCED, log 29] -/
def specCtxQuery : CmdSpec where
  opcode := 0x0203
  access := 0
  p := false
  len := fixed 1
  rsv := noRsv
  resp := respOf 129
  run := fun i p s =>
    let c := field p 0 1
    if i.ctx ≠ 0 && c ≠ i.ctx then .fail ePermission 0
    else if c > 63 then .fail eBadArgument 0
    else .ok ((if c = 0 then zeros 64 else (s.ctx c).quota.bytes) ++ (s.usage c).bytes ++ leBytes 1 (if c = 0 then 1 else (s.ctx c).st)) s

def execCtxQuery (q : Request) (s : State) : Host.Outcome State Fault Refusal := submit specCtxQuery q s

/-- CTX_ASSIGN_MAILBOX (R67, R71). [DEDUCED, log 29] -/
def specCtxAssignMailbox : CmdSpec where
  opcode := 0x0204
  access := 1
  p := false
  len := fixed 3
  rsv := noRsv
  resp := respOf 0
  run := fun _ p s =>
    let m := field p 0 2
    let c := field p 2 1
    if m < 2 || m ≥ Config.mailboxes then .fail eBadArgument 0
    else if c = 0 || c > 63 then .fail eBadArgument 2
    else if (s.ctx c).st = 1 && s.mailboxesOf c ≥ (s.ctx c).quota.mailboxes then .fail eQuota 14
    else if (s.mb m).assigned then .fail eBusy 0
    else if (s.ctx c).st ≠ 1 then .fail eState (s.ctx c).st
    else .ok [] (s.setMb m { s.mb m with assigned := true, ctx := c, expect := 1 })

def execCtxAssignMailbox (q : Request) (s : State) : Host.Outcome State Fault Refusal := submit specCtxAssignMailbox q s

/-- CTX_RELEASE_MAILBOX (R83). -/
def specCtxReleaseMailbox : CmdSpec where
  opcode := 0x0205
  access := 1
  p := false
  len := fixed 2
  rsv := noRsv
  resp := respOf 0
  run := fun _ p s =>
    let m := field p 0 2
    if m < 2 || m ≥ Config.mailboxes then .fail eBadArgument 0
    else if !(s.mb m).assigned then .fail eState 0
    else if (s.mb m).st = 1 then .fail eBusy 0
    else .ok [] (s.setMb m { s.mb m with assigned := false, ctx := 0 })

def execCtxReleaseMailbox (q : Request) (s : State) : Host.Outcome State Fault Refusal := submit specCtxReleaseMailbox q s

/-! ### Agents (R97–R99) -/

/-- Largest agent image. -/
def agentImageMax : Nat := 4 * 2 ^ 20

/-- The lowest free agent core. [DEDUCED, log 15, 30; DESIGN CHOICE, log 74] -/
def State.freeAgent (s : State) : Option Nat := (List.range 4).find? fun n => (s.agent n).st == 0

/-- CTX_AGENT_LOAD (R97): its point of effect is its completion (R83). [DEDUCED, log 30] -/
def specCtxAgentLoad : CmdSpec where
  opcode := 0x0207
  access := 2
  p := true
  len := fixed 16
  rsv := noRsv
  resp := respOf 32
  run := fun i p s =>
    let a := field p 0 8
    let n := field p 8 4
    let w := field p 12 4
    if !s.reach i.ctx 0 a n && n ≠ 0 then .fail eAddress 0
    else if n = 0 || n > agentImageMax then .fail eBadArgument 8
    else if w = 0 || w > 64 then .fail eBadArgument 12
    else if s.agentsOf i.ctx ≥ (s.ctx i.ctx).quota.agents then .fail eQuota 24
    else
      let pages := cdiv (w * 2 ^ 20) Config.pageBytes
      if s.heldBytes i.ctx 1 + pages * Config.pageBytes > (s.ctx i.ctx).quota.hbmS * 2 ^ 20 then .fail eQuota 4
      else match s.freeAgent, [4, 5, 6, 7].findSome? (fun k => s.freeRun k pages 1) with
        | some g, some pg =>
          if i.defer then .pend s
          else if s.hbmBad a n then
            .failWith eAborted 0 (raise { code := 3, status := eAborted, flags := 1, ty := 0, inst := 0, ctx := i.ctx, ring := 0xFFFF
                                          index := 0, addr := a, space := 1 } s)
          else
            let img := s.hbmRead a n
            let m := Config.sha384 img
            let s := takePages i.ctx pg pages (hbmTaken a n s)
            let s := s.setAgent g { st := 1, ctx := i.ctx, image := img, measure := fitTo 48 m, base := pg * Config.pageBytes
                                    len := w * 2 ^ 20, arg := 0 }
            .ok (leBytes 1 g ++ zeros 7 ++ fitTo 24 m)
              (s.setMb (Config.mailboxes + g) { Mailbox.init with assigned := true, ctx := i.ctx })
        | _, _ => .fail eNoResource 0

def execCtxAgentLoad (q : Request) (s : State) : Host.Outcome State Fault Refusal := submit specCtxAgentLoad q s

/-- Handle and permission checks of a command that names an agent. -/
def agentCheck (c n : Nat) (s : State) : Option (Nat × Nat) :=
  if n ≥ 4 || (s.agent n).st = 0 then some (eBadHandle, 0) else if (s.agent n).ctx ≠ c then some (ePermission, 0) else none

/-- CTX_AGENT_START (R99): from the entry point. [DEDUCED, log 30] -/
def specCtxAgentStart : CmdSpec where
  opcode := 0x0208
  access := 2
  p := false
  len := fixed 16
  rsv := rsvAt [(1, 7)]
  resp := respOf 0
  run := fun i p s =>
    let n := field p 0 1
    match agentCheck i.ctx n s with
    | some (st, d) => .fail st d
    | none =>
      if (s.agent n).st ≠ 1 then .fail eState (s.agent n).st
      else .ok [] (s.setAgent n { s.agent n with st := 2, arg := field p 8 8 })

def execCtxAgentStart (q : Request) (s : State) : Host.Outcome State Fault Refusal := submit specCtxAgentStart q s

/-- CTX_AGENT_STOP (R99). -/
def specCtxAgentStop : CmdSpec where
  opcode := 0x0209
  access := 2
  p := false
  len := fixed 1
  rsv := noRsv
  resp := respOf 0
  run := fun i p s =>
    let n := field p 0 1
    match agentCheck i.ctx n s with
    | some (st, d) => .fail st d
    | none =>
      if (s.agent n).st ≠ 2 then .fail eState (s.agent n).st else .ok [] (s.setAgent n { s.agent n with st := 1 })

def execCtxAgentStop (q : Request) (s : State) : Host.Outcome State Fault Refusal := submit specCtxAgentStop q s

/-- An agent leaves its core: its data window and its private mailbox go with it (R99). [DEDUCED, log 30] -/
def agentUnload (n : Nat) (s : State) : State :=
  let a := s.agent n
  let s := match s.mem.allocs.find? fun x => x.ctx == a.ctx && x.base == a.base && a.st != 0 with
    | some x => freePages x s
    | none => s
  (s.setAgent n Agent.init).setMb (Config.mailboxes + n) Mailbox.init

/-- CTX_AGENT_UNLOAD. -/
def specCtxAgentUnload : CmdSpec where
  opcode := 0x020A
  access := 2
  p := false
  len := fixed 1
  rsv := noRsv
  resp := respOf 0
  run := fun i p s =>
    let n := field p 0 1
    match agentCheck i.ctx n s with
    | some (st, d) => .fail st d
    | none => if (s.agent n).st = 2 then .fail eState 2 else .ok [] (agentUnload n s)

def execCtxAgentUnload (q : Request) (s : State) : Host.Outcome State Fault Refusal := submit specCtxAgentUnload q s

end Sys2Proof.Machine
end

