-- ==== Sys2Proof/Machine/Stream.lean ====
section
/-! DEFINITION. Sys2Proof/Machine/Stream.lean: Stream Units: operands, segments, tags, copies, fills, gathers, transposes
(R326–R329, R341–R351). -/

namespace Sys2Proof.Machine
open Sys2Proof

/-! ### Operands (R327, R342) -/

def suSrcSpace (d : Bytes) : Nat := bits (field d 8 1) 0 2
def suDstSpace (d : Bytes) : Nat := bits (field d 8 1) 2 2
def suPeer (d : Bytes) : Nat := field d 12 2

/-- The core that space 2 names: the unit's own, or that of the CORE field (R342). -/
def suCore (inst : Nat) (d : Bytes) : Nat :=
  if isDma inst then (if bitOf (field d 10 2) 15 then 32 + field d 10 2 % 32768 else field d 10 2) else inst

/-- CORE names an enabled core; it is ignored on a core Stream Unit. -/
def suCoreOk (inst : Nat) (d : Bytes) (s : State) : Bool :=
  !isDma inst ||
  (let n := field d 10 2
   if bitOf n 15 then s.enabled Config.tStudent (n % 32768) else s.enabled Config.tTeacher n)

/-- Space 2 reaches this core for a context (R327). -/
def suCoreReach (inst c : Nat) (d : Bytes) (s : State) : Bool :=
  !isDma inst || c == 0 || s.coreOwner (suCore inst d) == some c

/-- The address check of one run (R327, R346); addresses below zero or past the space fail. -/
def suReach (inst c : Nat) (d : Bytes) (wr : Bool) (space : Nat) (a : Int) (n : Nat) (s : State) : Bool :=
  if a < 0 then false
  else
    let a := a.toNat
    if space = 0 then s.owns c a n
    else if space = 1 then s.inWindow c a n
    else if space = 2 then
      suCoreReach inst c d s &&
      (if wr then s.sramWritable (suCore inst d) a n else sramReadable (suCore inst d) a n)
    else s.peerOk c (suPeer d) && decide (a + n ≤ Config.hbmBytes)

/-- A core Stream Unit task has exactly one operand in space 2 (R327). -/
def suOneSram (inst : Nat) (spaces : List Nat) : Bool := isDma inst || (spaces.filter (· == 2)).length == 1

/-- Signed field. -/
def sfield (d : Bytes) (o n : Nat) : Int := sext (8 * n) (field d o n)

/-- A run of a transfer: source, destination, length. -/
abbrev Run := Int × Int × Nat

/-- Runs of SU_COPY (R342). -/
def copyRuns (d : Bytes) : List Run :=
  let inner := field d 30 4
  (List.range (field d 36 2 + 1)).flatMap fun (p : Nat) =>
    (List.range (field d 34 2 + 1)).map fun (r : Nat) =>
      ((field d 14 8 : Int) + (p : Int) * sfield d 46 4 + (r : Int) * sfield d 38 4,
       (field d 22 8 : Int) + (p : Int) * sfield d 50 4 + (r : Int) * sfield d 42 4, inner)

/-- The same place can be meant by both operands. -/
def samePlace (d : Bytes) : Bool := suSrcSpace d == suDstSpace d

/-! ### Segments and tags (R328, R329) -/

/-- Cut a run at the first boundary of `b` bytes in its source or its destination. -/
def cutRun (b : Nat) (chk : Option (Nat × Nat)) : Nat → Nat → Nat → Nat → List Seg
  | 0, _, _, _ => []
  | f + 1, src, dst, len =>
    if len = 0 then []
    else
      let n := min len (min (b - src % b) (b - dst % b))
      { src, dst, len := n, chk } :: cutRun b none f (src + n) (dst + n) (len - n)

/-- Segments of a run. -/
def segsOf (b src dst len : Nat) (chk : Option (Nat × Nat)) : List Seg := cutRun b chk (2 * (len / b) + 4) src dst len

/-- Bytes of SU_SET_SEG_MAX in effect (R349). -/
def State.segMax (s : State) (inst : Nat) : Nat := 2 ^ s.setting Config.tStream inst 1 12

/-- Tags that the tasks of a ring, or of a unit, hold. -/
def Ring.tagsHeld (r : Ring) : Nat := match r.cur with | some c => if c.phase = 0 then c.out.length else 0 | none => 0
def State.tagsHeld (s : State) (inst : Nat) : Nat :=
  ((s.unitRings Config.tStream inst).map fun r => r.2.tagsHeld).sum
/-- Tags that a context holds on a unit. -/
def State.ctxTags (s : State) (inst c : Nat) : Nat :=
  (((s.unitRings Config.tStream inst).filter fun r => r.2.ctx == c).map fun r => r.2.tagsHeld).sum

/-- HBM_SHARE as a weight; context 0 counts with 255. -/
def State.hbmWeight (s : State) (c : Nat) : Nat := if c = 0 then 255 else max 1 (s.ctx c).quota.hbmShare

/-- A ring has a segment that waits for a tag. -/
def Ring.waits (r : Ring) : Bool :=
  match r.cur with
  | some c => c.phase = 0 && c.fault = 0 && !c.todo.isEmpty && dOp c.desc != 0x40
  | none => false

/-- Ring `x` gets the next tag before ring `y` (R329): the smaller ratio of tags held to HBM_SHARE, then the lower
context; within a context its running tasks have their turn, or the lowest slot comes first (SU_SET_RING_ARB, R349). -/
def State.tagBefore (s : State) (inst : Nat) (x y : Nat × Ring) : Bool :=
  let rr := SMap.get 0 (s.unit Config.tStream inst).rr (16 + x.2.ctx)
  if isDma inst && x.2.ctx ≠ y.2.ctx then
    let a := s.ctxTags inst x.2.ctx * s.hbmWeight y.2.ctx
    let b := s.ctxTags inst y.2.ctx * s.hbmWeight x.2.ctx
    decide (a < b ∨ (a = b ∧ x.2.ctx < y.2.ctx))
  else if s.setting Config.tStream inst 2 0 = 1 then decide (x.2.slot < y.2.slot)
  else decide (slotDist rr x.2.slot < slotDist rr y.2.slot)

/-- The ring whose segment issues next. -/
def State.tagNext (s : State) (inst : Nat) : Option (Nat × Ring) :=
  ((s.unitRings Config.tStream inst).filter fun r => r.2.waits && r.2.st != 0).foldl
    (fun best x => match best with
      | none => some x
      | some b => if s.tagBefore inst x b then some x else some b) none

/-- A fault ends a task: nothing more issues (R347). The first keeps REASON, status and the source address of its segment. -/
def suFault (j reason status addr : Nat) (s : State) : State :=
  s.updRing j fun r => { r with cur := r.cur.map fun c =>
    if c.fault = 0 then { c with fault := reason, fstat := status, faddr := addr, todo := [] } else { c with todo := [] } }

/-- A poisoned line or a host error ends a task, with its error record (R576): ADDRESS and SPACE of what was met. -/
def suLost (j reason src addr space : Nat) (s : State) : State :=
  let r := s.ring j
  match r.cur with
  | some c =>
    let s' := suFault j reason 0x113 src s
    if c.fault ≠ 0 then s'
    else raise { code := if reason = 1 then 3 else 0xD, status := 0x113, flags := 1, ty := Config.tStream, inst := r.unitInst, ctx := r.ctx
                 ring := j, index := c.index, addr, space } s'
  | none => s

/-- A task whose last segment is acknowledged has finished: UNIT_DETAIL of R348, BYTES_LB, error bits and records. -/
def suSettle (j : Nat) (s : State) : State :=
  let r := s.ring j
  match r.cur with
  | some c =>
    if c.phase ≠ 0 || !c.out.isEmpty || !c.todo.isEmpty then s
    else
      -- a check that fails before anything is written counts as one made at the head (R146)
      let status := if c.fault = 0 then 0 else if c.fault = 8 && c.ackBytes = 0 then c.fstat else 0x113
      let detail := leBytes 1 c.fault ++ zeros 3 ++ leBytes 4 (min c.ackSegs (2 ^ 32 - 1)) ++ leBytes 8 c.faddr
        ++ leBytes 8 (if c.ackSegs = 0 then 0 else c.last - c.start)
      let s := finish j status (if status = 0 || status = 0x113 then c.ackBytes else 0) detail s
      let s := if status = 0x113 then bump Config.tStream r.unitInst 6 1 s else s
      let bit := if c.fault = 1 then some 0 else if c.fault = 2 then some 1 else if c.fault = 3 then some 2
        else if c.fault = 4 then some 3 else if c.fault = 8 then some 5 else none
      match bit with
      | some b => setErr Config.tStream r.unitInst b j c.index c.fault s
      | none => s
  | none => s

/-- A segment whose source is a peer's memory asks for it as it issues. [DEDUCED, log 24, 89] -/
def suAsk (c : Nat) (d : Bytes) (g : Seg) (s : State) : State :=
  if dOp d ≠ 0x11 && suSrcSpace d = 3 then sendGroup (s.encGroup c (suPeer d)) (suPeer d) 3 (2 ^ 63 + g.src) (leBytes 4 g.len) s else s

/-- Issue segments of a unit while a tag is free and a segment waits (R328, R329). The first one starts the task's TICKS (R348). -/
def suIssue (inst : Nat) : Nat → State → State
  | 0, s => s
  | f + 1, s =>
    if s.tagsHeld inst ≥ Config.tags then s
    else match s.tagNext inst with
      | none => s
      | some (j, r) =>
        match r.cur with
        | some c =>
          (match c.todo with
          | g :: rest =>
            let listSpace := if dOp c.desc = 0x12 && bitOf (field c.desc 9 1) 0 then suDstSpace c.desc else suSrcSpace c.desc
            let wr := dOp c.desc = 0x12 && bitOf (field c.desc 9 1) 0
            let bad := match g.chk with
              | some (a, n) => !suReach inst r.ctx c.desc wr listSpace a n s
              | none => false
            if bad then suIssue inst f (suSettle j (suFault j 8 0x10D g.src s))
            else
              let s := s.updUnit Config.tStream inst fun u => { u with rr := SMap.set 0 u.rr (16 + r.ctx) (r.slot + 1) }
              let start := if c.rows = 0 then s.now else c.start
              suIssue inst f (suAsk r.ctx c.desc g (s.setRing j { r with cur := some { c with out := c.out ++ [g], todo := rest, start, rows := 1 } }))
          | [] => s)
        | none => s

/-- A Stream Unit task begins: its segments are queued and issue as tags allow. -/
def suBegin (j ix : Nat) (d : Bytes) (segs : List Seg) (s : State) : State :=
  let r := s.ring j
  let s := (begin j ix d s).updRing j fun r => { r with cur := r.cur.map fun c => { c with todo := segs } }
  suIssue r.unitInst (Config.tags + 8) s

/-- Take up the head descriptor of a Stream Unit ring: `check` gives the status of a failed check, `segs` the segments. -/
def suStart (j op : Nat) (check : Nat → Nat → Bytes → State → Option Nat) (segs : Nat → Bytes → State → List Seg)
    (s : State) : State :=
  match s.headOf j op with
  | none => s
  | some (ix, d) =>
    let r := s.ring j
    if r.unitType ≠ Config.tStream then s
    else match check r.unitInst r.ctx d s with
      | some st => failArg j ix d st s
      | none => suBegin j ix d (segs r.unitInst d s) s

/-! ### SU_COPY (R342) -/

/-- Checks of SU_COPY in the order of R146. -/
def copyCheck (inst c : Nat) (d : Bytes) (s : State) : Option Nat :=
  let runs := copyRuns d
  if field d 30 4 < 1 || field d 30 4 > 2 ^ 31 || !suCoreOk inst d s
      || !suOneSram inst [suSrcSpace d, suDstSpace d]
      || selfMeet (runs.map fun r => (r.2.1, r.2.2))
      || (samePlace d && runs.any fun x => runs.any fun y => runsMeet x.1 x.2.2 y.2.1 y.2.2) then some 0x108
  else if !runs.all (fun r => suReach inst c d false (suSrcSpace d) r.1 r.2.2 s
      && suReach inst c d true (suDstSpace d) r.2.1 r.2.2 s) then some 0x10D
  else none

def copySegs (inst : Nat) (d : Bytes) (s : State) : List Seg :=
  (copyRuns d).flatMap fun r => segsOf (s.segMax inst) r.1.toNat r.2.1.toNat r.2.2 none

/-- SU_COPY: a task of N2 × N1 runs starts. -/
def execSuCopy (ring : Nat) (s : State) : Host.Outcome State Fault Refusal := .next (suStart ring 0x10 copyCheck copySegs s)

/-! ### SU_FILL (R343) -/

def fillCheck (inst c : Nat) (d : Bytes) (s : State) : Option Nat :=
  let n := field d 22 8
  if n < 1 || n > 2 ^ 40 || !suCoreOk inst d s || !suOneSram inst [suDstSpace d] then some 0x108
  else if !suReach inst c d true (suDstSpace d) (field d 14 8) n s then some 0x10D
  else none

/-- Segments of a fill: a boundary in the destination ends each; SRC keeps the offset in the pattern. -/
def fillSegs (inst : Nat) (d : Bytes) (s : State) : List Seg :=
  (segsOf (s.segMax inst) (field d 14 8) (field d 14 8) (field d 22 8) none).map
    fun g => { g with src := g.dst - field d 14 8 }

/-- SU_FILL: the 8-byte pattern is written over a run. -/
def execSuFill (ring : Nat) (s : State) : Host.Outcome State Fault Refusal := .next (suStart ring 0x11 fillCheck fillSegs s)

/-! ### SU_GATHER (R344) -/

/-- DIR: scatter. -/
def isScatter (d : Bytes) : Bool := bitOf (field d 9 1) 0
/-- Address of list entry `i`. -/
def listEntry (d : Bytes) (s : State) (i : Nat) : Nat := field (s.hbmRead (field d 14 8 + 8 * i) 8) 0 8

/-- Checks of SU_GATHER; the first entry of the list is checked with them. -/
def gatherCheck (inst c : Nat) (d : Bytes) (s : State) : Option Nat :=
  let block := field d 30 4
  let count := field d 34 4
  let stride := field d 38 4
  let side := if isScatter d then suSrcSpace d else suDstSpace d
  let lside := if isScatter d then suDstSpace d else suSrcSpace d
  if block < 1 || block > 2 ^ 24 || count < 1 || count > 65536 || field d 14 8 % 8 ≠ 0 || !suCoreOk inst d s
      || !suOneSram inst [suSrcSpace d, suDstSpace d] then some 0x108
  else if !s.owns c (field d 14 8) (8 * count) then some 0x10D
  else if !(List.range count).all (fun i => suReach inst c d (!isScatter d) side (field d 22 8 + i * stride) block s) then
    some 0x10D
  else if !s.hbmBad (field d 14 8) (8 * count)
      && !suReach inst c d (isScatter d) lside (listEntry d s 0) block s then some 0x10D
  else none

def gatherSegs (inst : Nat) (d : Bytes) (s : State) : List Seg :=
  let block := field d 30 4
  (List.range (field d 34 4)).flatMap fun i =>
    let e := listEntry d s i
    let b := field d 22 8 + i * field d 38 4
    if isScatter d then segsOf (s.segMax inst) b e block (some (e, block))
    else segsOf (s.segMax inst) e b block (some (e, block))

/-- SU_GATHER: blocks move by a list of addresses; a list on a poisoned line ends the task (R347). -/
def execSuGather (ring : Nat) (s : State) : Host.Outcome State Fault Refusal :=
  match s.headOf ring 0x12 with
  | none => .next s
  | some (ix, d) =>
    let r := s.ring ring
    if r.unitType ≠ Config.tStream then .next s
    else match gatherCheck r.unitInst r.ctx d s with
      | some st => .next (failArg ring ix d st s)
      | none =>
        if s.hbmBad (field d 14 8) (8 * field d 34 4) then
          let s := bump Config.tStream r.unitInst 9 1 (begin ring ix d s)
          .next (suSettle ring (suLost ring 1 0 (field d 14 8) 1 s))
        else .next (suBegin ring ix d (gatherSegs r.unitInst d s) (hbmTaken (field d 14 8) (8 * field d 34 4) s))

/-! ### SU_TRANSPOSE (R345) -/

def transposeCheck (inst c : Nat) (d : Bytes) (s : State) : Option Nat :=
  let es := field d 9 1
  let rows := field d 30 4
  let cols := field d 34 4
  let src := field d 14 8
  let dst := field d 22 8
  let ss := field d 38 4
  let ds := field d 42 4
  if suSrcSpace d = 1 || suDstSpace d = 1 || !(es == 1 || es == 2 || es == 4) || rows < 1 || rows > 65536 || cols < 1
      || cols > 65536 || !suCoreOk inst d s || !suOneSram inst [suSrcSpace d, suDstSpace d]
      || (samePlace d && (List.range rows).any fun r => (List.range cols).any fun k =>
            runsMeet (src + r * ss) (cols * es) (dst + k * ds) (rows * es)) then some 0x108
  else if !((List.range rows).all (fun r => suReach inst c d false (suSrcSpace d) (src + r * ss) (cols * es) s)
      && (List.range cols).all (fun k => suReach inst c d true (suDstSpace d) (dst + k * ds) (rows * es) s)) then some 0x10D
  else none

/-- Rows or columns of a 64 × 64-byte tile. -/
def tileSide (d : Bytes) : Nat := 64 / field d 9 1

/-- Segments of a transpose (R328, R345): tile after tile of 64 × 64 bytes, the source bytes of each row of a tile, which are contiguous; their
destinations are not. SRC is where the segment reads and DST the place of element 0 of its row. [DEDUCED, log 91] -/
def transposeSegs (inst : Nat) (d : Bytes) (s : State) : List Seg :=
  let t := tileSide d
  let es := field d 9 1
  (List.range (cdiv (field d 30 4) t)).flatMap fun a => (List.range (cdiv (field d 34 4) t)).flatMap fun b =>
    (List.range (min t (field d 30 4 - a * t))).flatMap fun i =>
      let row := a * t + i
      let src := field d 14 8 + row * field d 38 4 + b * t * es
      (segsOf (s.segMax inst) src src (min t (field d 34 4 - b * t) * es) none).map fun g => { g with dst := field d 22 8 + row * es }

/-- The places of the bytes of a segment of a transpose: byte k of element c of row r goes to byte k of element r of column c. -/
def transposeDst (d : Bytes) (g : Seg) (i : Nat) : Nat :=
  let es := field d 9 1
  let off := g.src + i - (field d 14 8 + (g.dst - field d 22 8) / es * field d 38 4)
  g.dst + off / es * field d 42 4 + off % es

/-- The bytes that a segment writes: (address, length). -/
def segDst (d : Bytes) (g : Seg) : List (Nat × Nat) :=
  if dOp d = 0x13 then (List.range g.len).map fun i => (transposeDst d g i, 1) else [(g.dst, g.len)]
/-- The bytes that a segment reads. -/
def segSrc (d : Bytes) (g : Seg) : List (Nat × Nat) := if dOp d = 0x11 then [] else [(g.src, g.len)]

/-- SU_TRANSPOSE: the transpose of a matrix is written. -/
def execSuTranspose (ring : Nat) (s : State) : Host.Outcome State Fault Refusal :=
  .next (suStart ring 0x13 transposeCheck transposeSegs s)

/-! ### Acknowledgement of a segment (R328, R336, R347) -/

/-- Read `n` source bytes of a segment; bytes from a peer come with the acknowledgement. -/
def suRead (inst : Nat) (d : Bytes) (chk : Option Bytes) (space a n : Nat) (data : Bytes) (s : State) : Bytes :=
  if space = 0 then s.hbmRead a n else if space = 1 then s.hostGet chk a n
  else if space = 2 then s.sramRead (suCore inst d) a n else fitTo n data
/-- A source line is poisoned or uncorrectable. -/
def suBad (inst : Nat) (d : Bytes) (space a n : Nat) (s : State) : Bool :=
  if space = 0 then s.hbmBad a n else if space = 1 then s.spaceBad 1 a n
  else if space = 2 then s.sramBad (suCore inst d) a n else false
/-- Write bytes to a destination; those for a peer leave the device. [DEDUCED, log 24] -/
def suWrite (inst c : Nat) (d : Bytes) (chk : Option Bytes) (space a : Nat) (bs : Bytes) (s : State) : State :=
  if space = 0 then hbmWrite a bs s else if space = 1 then hostPut chk a bs s
  else if space = 2 then
    let s := sramWrite (suCore inst d) a bs s
    if isDma inst || suCore inst d < 32 then s else bump Config.tStudent (suCore inst d - 32) 12 bs.length s
  else sendGroup (s.encGroup c (suPeer d)) (suPeer d) 3 a bs s

/-- What a segment writes, and where. -/
def segMoves (inst : Nat) (d : Bytes) (chk : Option Bytes) (g : Seg) (data : Bytes) (s : State) : List (Nat × Bytes) :=
  if dOp d = 0x11 then [(g.dst, (List.range g.len).map fun i => (d.drop (30 + (g.src + i) % 8)).headD 0)]
  else
    let bs := suRead inst d chk (suSrcSpace d) g.src g.len data s
    if dOp d = 0x13 then bs.zipIdx.map fun b => (transposeDst d g b.2, [b.1]) else [(g.dst, bs)]

/-- STREAM_SEGMENT_ACK: segment `seg` of those that hold tags ends. `outcome` 0 acknowledged, 1 poison in a peer source, 2 host error, 3 refused
by the peer, 4 path to the peer lost; `data` is what a peer source returned. [DESIGN CHOICE, log 5; DEDUCED, log 63] -/
def execStreamSegmentAck (ring seg outcome : Nat) (data : Bytes) (s : State) : Host.Outcome State Fault Refusal :=
  let r := s.ring ring
  match r.cur with
  | none => .next s
  | some c =>
    match c.out[seg]? with
    | none => .next s
    | some g =>
      if c.phase ≠ 0 || r.unitType ≠ Config.tStream || dOp c.desc = 0x40 || s.isFatal then .next s
      else
        let inst := r.unitInst
        let d := c.desc
        let ss := if dOp d = 0x11 then 9 else suSrcSpace d
        let ds := suDstSpace d
        let writes := segMoves inst d c.chk g data s
        let at_ := if dOp d = 0x11 then 0 else g.src
        let hostAt := if ss = 1 then g.src else g.dst
        let s1 := s.setRing ring { r with cur := some { c with out := c.out.eraseIdx seg, last := s.now } }
        let ended (s : State) : State := suIssue inst (Config.tags + 8) (suSettle ring s)
        if (segSrc d g).any (fun x => suBad inst d ss x.1 x.2 s) then
          if ss = 1 then .next (ended (suLost ring 2 at_ at_ 3 (hpErr 3 r.ctx g.src s1)))
          else .next (ended (suLost ring 1 at_ at_ (if ss = 0 then 1 else 4) (bump Config.tStream inst 9 1 s1)))
        else if outcome = 1 && ss = 3 then .next (ended (suLost ring 1 at_ at_ 0 (bump Config.tStream inst 9 1 s1)))
        else if (outcome = 2 || s.ideDenied r.ctx || !s.host.up) && (ss = 1 || ds = 1) then
          .next (ended (suLost ring 2 at_ hostAt 3 (if outcome = 2 then hpErr 2 r.ctx hostAt s1 else s1)))
        else if (outcome = 3 || outcome = 4) && (ss = 3 || ds = 3) then
          .next (ended (suFault ring outcome 0x113 at_ s1))
        else
          let s2 := writes.foldl (fun s w => suWrite inst r.ctx d c.chk ds w.1 w.2 s) s1
          let s2 := s2.updRing ring fun r => { r with cur := r.cur.map fun c =>
            { c with ackBytes := c.ackBytes + g.len, ackSegs := c.ackSegs + 1 } }
          let s2 := bump Config.tStream inst 1 g.len (bump Config.tStream inst 2 1 s2)
          let s2 := if ss = 9 then s2 else bump Config.tStream inst 0 g.len s2
          let s2 := if ss = 0 then hbmTaken g.src g.len s2 else s2
          let s2 := if ss = 1 || ds = 1 then bump Config.tStream inst 4 g.len s2 else s2
          let s2 := if ss = 1 then bump Config.tHost 0 1 g.len s2 else s2
          let s2 := if ds = 1 then bump Config.tHost 0 0 g.len s2 else s2
          let s2 := if ss = 3 || ds = 3 then bump Config.tStream inst 5 g.len s2 else s2
          .next (ended s2)

end Sys2Proof.Machine
end

