-- ==== Sys2Proof/Machine/Fill.lean ====
section
/-! DEFINITION. Sys2Proof/Machine/Fill.lean: fills of the staging halves from teacher images (R174–R178). -/

namespace Sys2Proof.Machine
open Sys2Proof

/-- Expert numbers of a gather list. -/
def sfExperts (d : Bytes) (s : State) : List Nat :=
  (List.range (min 256 (field (s.hbmRead (sfList d) 2) 0 2))).map fun i => field (s.hbmRead (sfList d + 2 + 2 * i) 2) 0 2
/-- Bytes of the gather list. -/
def sfListBytes (d : Bytes) (s : State) : Nat := 2 + 2 * min 256 (field (s.hbmRead (sfList d) 2) 0 2)

/-- Strictly ascending. -/
def ascending : List Nat → Bool
  | [] => true
  | [_] => true
  | x :: y :: l => decide (x < y) && ascending (y :: l)

/-- Tensors that a fill places, in order (R174): TENSOR, or that of each listed expert. -/
def sfTensors (g : Image) (d : Bytes) (s : State) : List Nat :=
  if sfGather d then
    (sfExperts d s).map fun e => sfTensor d + e * s.perExpert g (s.tensor g (sfTensor d)).layer
  else [sfTensor d]

/-- Bytes of one placed tile. -/
def sfTileBytes (t : Tensor) (d : Bytes) : Nat := sfGroupCount d * (t.groupBytes + 256)

/-- Runs that a fill places: address within the half, image offset, length (R174). -/
def sfRuns (g : Image) (d : Bytes) (s : State) : List (Nat × Nat × Nat) :=
  let step (acc : Nat × List (Nat × Nat × Nat)) (i : Nat) : Nat × List (Nat × Nat × Nat) :=
    let t := s.tensor g i
    let one (k : Nat) : List (Nat × Nat × Nat) :=
      let at_ := acc.1 + k * sfTileBytes t d
      let base := t.data + (sfTileFirst d + k) * t.tile
      [(at_, base + sfGroupFirst d * t.groupBytes, sfGroupCount d * t.groupBytes),
       (at_ + sfGroupCount d * t.groupBytes, base + t.groups * t.groupBytes + sfGroupFirst d * 256, sfGroupCount d * 256)]
    (acc.1 + sfTileCount d * sfTileBytes t d, acc.2 ++ (List.range (sfTileCount d)).flatMap one)
  let (_, l) := (sfTensors g d s).foldl step (sfDest d, [])
  if sfCodebook d then
    l ++ [(sfCbDest d, s.imgCbAt g + 32 * (s.tensor g (sfTensor d)).codebook (sfTileFirst d), 32)]
  else l

/-- Checks of R175 in order: status and REASON (R178). -/
def sfCheck (c : Nat) (d : Bytes) (s : State) : Option (Nat × Nat) :=
  if !s.enabled Config.tTeacher (sfCore d) then some (0x108, 4)
  else match s.image (sfImage d) with
    | none => some (0x10C, 3)
    | some g =>
      if !(g.st == 3 || g.st == 4) then some (0x10C, 3)
      else if g.sealed && c ≠ 0 then some (0x111, 4)
      else if !g.sealed && c ≠ 0 && g.owner ≠ c + 1 then some (0x106, 4)
      else if c ≠ 0 && s.coreOwner (sfCore d) ≠ some c then some (0x106, 4)
      else if sfGather d && !s.owns c (sfList d) (sfListBytes d s) then some (0x10D, 4)
      else if sfGather d && s.hbmBad (sfList d) (sfListBytes d s) then some (0x113, 1)
      else if sfGather d && (field (s.hbmRead (sfList d) 2) 0 2 > 256 || !ascending (sfExperts d s)
          || (s.tensor g (sfTensor d)).expert ≠ 0
          || !(sfExperts d s).all fun e => decide (e < field (s.imgRead g (s.imgLayerAt g + 32 * (s.tensor g (sfTensor d)).layer) 32) 8 2))
      then some (0x108, 4)
      else if !(sfTensor d :: sfTensors g d s).all (sfTensorOk g d s) || (sfCodebook d && (s.tensor g (sfTensor d)).learned = 0) then some (0x108, 4)
      else if !(sfRuns g d s).all fun r => decide (r.1 + r.2.2 ≤ halfBytes) then some (0x10D, 4)
      else none

/-- UNIT_DETAIL of a fill (R178). -/
def sfDetail (reason poisoned wait store : Nat) : Bytes :=
  leBytes 1 reason ++ zeros 3 ++ leBytes 4 poisoned ++ leBytes 8 wait ++ leBytes 8 store

/-- SU_STAGE_FILL: the fill is checked at the head of its task and then waits to start (R175, R176). -/
def execSuStageFill (ring : Nat) (s : State) : Host.Outcome State Fault Refusal :=
  match s.headOf ring 0x40 with
  | none => .next s
  | some (ix, d) =>
    let r := s.ring ring
    if r.unitType ≠ Config.tStream || !isDma r.unitInst then .next s
    else match sfCheck r.ctx d s with
      | some (0x113, reason) =>
        let s := finish ring 0x113 0 (sfDetail reason 0 0 0) (begin ring ix d s)
        .next (raise { code := 3, status := 0x113, flags := 1, ty := Config.tStream, inst := r.unitInst, ctx := r.ctx
                       ring := ring, index := ix, addr := sfList d, space := 1 } s)
      | some (st, reason) => .next (failCheck ring ix d st (sfDetail reason 0 0 0) false s)
      | none => .next (begin ring ix d s)

/-- The page reads that a fill asks of the Store: the pages of its runs, in order (R361, R365). -/
def sfPages (g : Image) (d : Bytes) (s : State) : List Seg :=
  (sfRuns g d s).flatMap fun r =>
    let a := g.addr r.2.1
    (List.range (if r.2.2 = 0 then 0 else (a + r.2.2 - 1) / Config.pageStore + 1 - a / Config.pageStore)).map fun i =>
      { src := (a / Config.pageStore + i) * Config.pageStore, dst := 0, len := Config.pageStore, chk := none }

/-- The fill in progress on a ring, when it is at work. -/
def State.fillOf (s : State) (ring : Nat) : Option Cur :=
  let r := s.ring ring
  match r.cur with
  | some c => if r.unitType = Config.tStream && dOp c.desc = 0x40 && c.phase = 0 && !s.isFatal then some c else none
  | none => none

/-- STAGE_FILL_WRITE_START (R176): the target half has been released as often as EXPECT_FREE says. A sealed image seals
the half before a byte lands; an open one first clears a sealed half. The page reads are then requested of the Store. -/
def execStageFillWriteStart (ring : Nat) (s : State) : Host.Outcome State Fault Refusal :=
  match s.fillOf ring with
  | none => .next s
  | some c =>
    let d := c.desc
    let h := sfHalf d
    let k := sfCore d
    let x := s.core k
    let st := x.stage h
    if c.rows ≠ 0 || (st.freeSeq + 65536 - sfExpectFree d) % 65536 ≥ 0x8000 || x.clearing then .next s
    else
      let sealed := match s.image (sfImage d) with | some g => g.sealed | none => false
      let s1 := if !sealed && st.sealing then sramWrite k (h * halfBytes) (zeros halfBytes) s else s
      let st' := { st with
        sealing := sealed, poison := if st.fresh then false else st.poison, bad := if st.fresh then false else st.bad
        fresh := false }
      let s1 := s1.setCore k ((s1.core k).setStage h fun _ => st')
      let todo := match s.image (sfImage d) with | some g => sfPages g d s | none => []
      .next (s1.updRing ring fun r => { r with cur := some { c with rows := 1, last := s.now, todo } })

/-- Marks of the 64-byte words of a placed run whose source is poisoned. -/
def placedBad (g : Image) (s : State) (r : Nat × Nat × Nat) : List Nat :=
  (List.range (cdiv r.2.2 64)).filterMap fun i =>
    if s.imgBad g (r.2.1 + 64 * i) (min 64 (r.2.2 - 64 * i)) then some (r.1 + 64 * i) else none

/-- Another fill is writing the same half of a core: nothing orders the two (R177). -/
def State.fillClash (s : State) (ring k h : Nat) : Bool :=
  s.rings.any fun r => r.1 != ring && (match s.fillOf r.1 with
    | some c => c.rows != 0 && sfCore c.desc == k && sfHalf c.desc == h
    | none => false)

/-- STAGE_FILL_COMPLETE (R176): every page has been read and everything is placed; FINAL advances FILL_SEQ and settles POISON. Where two fills that nothing orders write
the half, its contents and FILL_SEQ are free values (R177). -/
def execStageFillComplete (ring : Nat) (s : State) : Host.Outcome State Fault Refusal :=
  match s.fillOf ring with
  | none => .next s
  | some c =>
    if c.rows = 0 || !c.todo.isEmpty then .next s
    else match s.image (sfImage c.desc) with
      | none => .next s
      | some g =>
        let d := c.desc
        let h := sfHalf d
        let k := sfCore d
        let inst := (s.ring ring).unitInst
        let runs := sfRuns g d s
        let bad := runs.flatMap (placedBad g s)
        let n := (runs.map fun r => r.2.2).sum
        let s1 := runs.foldl (fun a r => sramWrite k (h * halfBytes + r.1) (s.imgRead g r.2.1 r.2.2) a) s
        let s1 := bad.foldl (fun a o => sramMark k (h * halfBytes + o) 64 a) s1
        let s1 := s1.updCore k fun x => x.setStage h fun st =>
          let b := st.bad || !bad.isEmpty
          if sfFinal d then { st with fillSeq := (st.fillSeq + 1) % 65536, poison := b, bad := false, fresh := true }
          else { st with bad := b }
        let s1 := bump Config.tTeacher k 10 n (bump Config.tStream inst 0 n (bump Config.tStream inst 1 n s1))
        let s1 := if bad.isEmpty then s1
          else setErr Config.tStream inst 0 ring c.index 1 (bump Config.tStream inst 9 bad.length s1)
        let s1 := if s.fillClash ring k h then
            let u := halfUndefined k h s1
            u.2.updCore k fun x => x.setStage h fun st => { st with fillSeq := u.1 % 65536 }
          else s1
        .next (finish ring 0 n (sfDetail (if bad.isEmpty then 0 else 1) bad.length (c.last - c.start) (s.now - c.last)) s1)

/-- A fill ends by a reset (R177, R178): what the half holds is free once the fill has begun to write, FILL_SEQ and SEALED stay. -/
def fillAbort (ring : Nat) (c : Cur) (s : State) : State :=
  let s1 := if c.rows = 0 then s else (halfUndefined (sfCore c.desc) (sfHalf c.desc) s).2
  finish ring 0x113 0 (sfDetail 2 0 ((if c.rows = 0 then s.now else c.last) - c.start) (if c.rows = 0 then 0 else s.now - c.last)) s1

/-- While a fill writes a half, each of its words that a pass reads is the old one or the new one (R177): which have landed is free.
[DESIGN CHOICE, log 8] -/
def fillMix (core : Nat) (s : State) : State :=
  s.rings.foldl (fun a r =>
    match a.fillOf r.1 with
    | some c =>
      (match a.image (sfImage c.desc) with
        | some g =>
          if c.rows = 0 || sfCore c.desc ≠ core then a
          else mayLand core ((sfRuns g c.desc a).flatMap fun u => (List.range (cdiv u.2.2 64)).map fun i =>
            (sfHalf c.desc * halfBytes + u.1 + 64 * i, a.imgRead g (u.2.1 + 64 * i) (min 64 (u.2.2 - 64 * i)))) a
        | none => a)
    | none => a) s

end Sys2Proof.Machine
end

