-- ==== Sys2Proof/Machine/Settings.lean ====
section
/-! DEFINITION. Sys2Proof/Machine/Settings.lean: the settings of every unit type, their ranges, who may stage them, what a
unit rejects, and its quiescent boundary (R92–R94, R155, R207, R232, R260, R296, R323, R349, R358, R387, R421, R448, R477,
R500, R554). -/

namespace Sys2Proof.Machine
open Sys2Proof

/-- Smallest value, largest value and reset value of a setting, if the unit type has it. [DEDUCED, log 43] -/
def settingInfo (ty n : Nat) : Option (Nat × Nat × Nat) :=
  if ty = Config.tTeacher then
    (match n with | 1 => some (0, 1, 1) | 2 => some (0, 1, 0) | 3 => some (0, 1, 0) | _ => none)
  else if ty = Config.tStudent then
    (match n with | 1 => some (0, 1, 0) | 2 => some (0, 1, 0) | 3 => some (0, 2 ^ 64 - 1, 4096) | _ => none)
  else if ty = Config.tScaler then (match n with | 1 => some (0, 1, 1) | 2 => some (0, 1, 0) | _ => none)
  else if ty = Config.tLens then
    (match n with
      | 1 => some (1, 256, 64) | 2 => some (0, 1, 0) | 3 => some (1, 16777216, 16777216) | 4 => some (0, 1, 1) | _ => none)
  else if ty = Config.tPrism then
    (match n with | 1 => some (1, 256, 64) | 2 => some (0, 255, 16) | 3 => some (0, 1, 0) | _ => none)
  else if ty = Config.tUpdate then (if n = 1 then some (0, 1, 0) else none)
  else if ty = Config.tServing then (match n with | 1 => some (1, 65535, 64) | 2 => some (1, 16, 4) | _ => none)
  else if ty = Config.tStream then (match n with | 1 => some (6, 12, 12) | 2 => some (0, 1, 0) | _ => none)
  else if ty = Config.tHbm then
    (match n with | 1 => some (1950, 7800, 3900) | 2 => some (1, 168, 24) | 3 => some (1, 65535, 64) | _ => none)
  else if ty = Config.tStore then
    (match n with
      | 1 => some (10000, 1000000, 200000) | 2 => some (50, 100, 75) | 3 => some (1, 64, 5) | 4 => some (0, 84, 42)
      | 5 => some (1, 30, 7) | 6 => some (1, 15, 7) | 7 => some (100, 2500, 2500) | 8 => some (1, 8270, 827)
      | 9 => some (0, 65535, 0) | _ => none)
  else if ty = Config.tPort then (match n with | 1 => some (0, 1, 1) | 2 => some (0, 65535, 0) | _ => none)
  else if ty = Config.tEngine then (match n with | 1 => some (0, 1, 0) | 2 => some (0, 1, 0) | _ => none)
  else if ty = Config.tMirror then (match n with | 1 => some (1, 8, 4) | 2 => some (1, 1000, 100) | _ => none)
  else if ty = Config.tHost then (if n = 1 then some (0, 1, 1) else none)
  else if ty = Config.tNet then
    (match n with | 1 => some (1500, 9216, 9216) | 2 => some (0, 255, 8) | 3 => some (0, 1, 1) | _ => none)
  else if ty = Config.tLoupe then
    (match n with
      | 1 => some (0, 600, 600) | 2 => some (40, 80, 80) | 3 => some (200, 700, 350) | 4 => some (1, 168, 24)
      | 5 => some (10, 3600, 60)
      | _ =>
        if 0x10 ≤ n ∧ n < 0x18 then some (0, 100, Config.fusedGuard (n - 0x10) % 101)
        else if 0x20 ≤ n ∧ n < 0x26 then some (800, 1900, 800 + 25 * (Config.fusedBin (n - 0x20) % 45))
        else none)
  else none

/-- A value is one that the setting admits. -/
def settingOk (ty n v : Nat) : Bool :=
  match settingInfo ty n with
  | some (lo, hi, _) => decide (lo ≤ v ∧ v ≤ hi) && (ty != Config.tLoupe || decide (n < 0x20) || v % 25 == 0)
  | none => false

/-- The value in effect of a setting. -/
def State.valueOf (s : State) (ty inst n : Nat) : Nat :=
  match settingInfo ty n with
  | some (_, _, d) => s.setting ty inst n d
  | none => 0

/-- The context that owns a unit for its settings, if one does. -/
def State.unitOwner (s : State) (ty inst : Nat) : Option Nat :=
  match unitCore ty inst with
  | some k => s.coreOwner k
  | none =>
    if ty = Config.tUpdate then (match s.namedBy ty inst with | (_, r) :: _ => some r.ctx | [] => none) else none

/-- Every bound ring of these channels belongs to the context, and there is one. -/
def State.prismOwner (s : State) (c : Nat) (ch : Nat → Bool) : Bool :=
  let l := s.prings.filter fun p => p.2.bound && ch (p.1 / 16)
  !l.isEmpty && l.all fun p => p.2.ctx == c

/-- A context may stage a setting of an instance. -/
def State.maySet (s : State) (c ty inst n : Nat) : Bool :=
  c == 0
  || (ty == Config.tLens && n == 1 && s.prismOwner c fun k => Config.dieOf Config.tPrism k == Config.dieOf Config.tLens inst)
  || (ty == Config.tPrism && n == 1 && s.prismOwner c fun k => k == inst)
  || ([Config.tTeacher, Config.tStudent, Config.tScaler, Config.tUpdate].contains ty && s.unitOwner ty inst == some c)
  || (ty == Config.tStream && decide (inst < 48) && s.unitOwner ty inst == some c)

/-! ### What an affected instance does with staged items (R93) -/

/-- The value of a setting with every staged change applied. -/
def State.staged (s : State) (items : List CfgItem) (ty inst n : Nat) : Nat :=
  match items.find? fun i => i.ty == ty && i.inst == inst && i.setting == n with
  | some i => i.value
  | none => s.valueOf ty inst n

/-- A Prism channel rejects the transaction (R296). [DEDUCED, log 31] -/
def State.prismRejects (s : State) (items : List CfgItem) (ch : Nat) : Bool :=
  let k := s.staged items Config.tPrism ch 1
  let t := Config.dieOf Config.tPrism ch
  s.staged items Config.tLens (2 * t) 1 != k || s.staged items Config.tLens (2 * t + 1) 1 != k
  || s.prings.any fun p => p.2.bound && p.1 / 16 == ch && p.2.kind == 0 && (decide (p.2.limit < k) || (p.2.sealed && decide (p.2.kmax < k)))

/-- An instance rejects the items: the context may no longer configure it, it has left service, or its present state forbids
them. -/
def State.rejects (s : State) (c : Nat) (items : List CfgItem) (ty inst : Nat) : Bool :=
  !s.enabled ty inst
  || items.any (fun i => i.ty == ty && i.inst == inst && !s.maySet c ty inst i.setting)
  || (ty == Config.tPrism && s.prismRejects items inst)

/-- Instances that a transaction affects, ascending by TYPE and INSTANCE. -/
def affected (items : List CfgItem) : List (Nat × Nat) :=
  (items.foldl (fun l i => NSet.ins (ukey i.ty i.inst) l) []).map fun k => (k / 65536, k % 65536)

/-- The lead Serving Block of a side: the enabled one with the lowest INSTANCE (R390). -/
def State.leadBlock (s : State) (side : Nat) : Nat :=
  ((if side = 0 then [0, 1, 2, 3] else [4, 5]).find? fun i => s.enabled Config.tServing i).getD (if side = 0 then 0 else 4)

/-- A unit is at its quiescent boundary (R94 and the chapters of the units); a record and a frame are formed within a row, so a channel
is between two of them when none is in flight, and a Network Port always (R500). [DEDUCED, log 31] -/
def State.quiet (s : State) (ty inst : Nat) : Bool :=
  let idle := (s.unitRings ty inst).all fun r => r.2.cur.isNone && (ty == Config.tScaler || !r.2.inTask)
  if ty = Config.tPrism then (s.chan inst).flight.isEmpty
  else if ty = Config.tNet then true
  else if ty = Config.tUpdate then
    idle && !(s.upd inst).window && (s.upd inst).lane == 0 && (s.upd inst).lanes.isEmpty && (s.upd inst).commit.isNone
  else if ty = Config.tServing then s.srv.models.all fun m => m.2.phase == 0 || s.leadBlock (field m.2.block 0 1) != inst
  else if ty = Config.tPort then (SMap.get Port.init s.beam.ports inst).unacked.isEmpty
  else if ty = Config.tMirror then s.mirror.resolving.isNone
  else if ty = Config.tHost then
    s.rings.all fun r => match r.2.cur with
      | some t => r.2.unitType != Config.tStream || t.out.isEmpty || (bits (field t.desc 8 1) 0 2 != 1 && bits (field t.desc 8 1) 2 2 != 1)
      | none => true
  else idle

end Sys2Proof.Machine
end

