-- ==== Sys2Proof/Machine/HostPort.lean ====
section
/-! DEFINITION. Sys2Proof/Machine/HostPort.lean: the Host Port: CXL.mem and its security forms, the snoop filter, the device cache,
completions, link and IDE events, MSI-X unmasking (R480–R488, R517, R518). -/

namespace Sys2Proof.Machine
open Sys2Proof

/-- A counter of the Host Port (R502). -/
def hpCnt (n k : Nat) (s : State) : State := if k = 0 then s else bump Config.tHost 0 n k s

/-- Lines that the snoop filter can track (R484). -/
def snoopLines : Nat := 4194304
/-- Lines of the device cache (R487): 8 MiB. -/
def cacheLines : Nat := 131072

/-- HDM_DECODER_COMMIT (R483): the host commits the range's base; byte x of the range is device address x. -/
def execHdmDecoderCommit (base : Nat) (s : State) : Host.Outcome State Fault Refusal :=
  if !s.host.up || !s.host.cxl then .next s else .next { s with host := { s.host with hdm := base + 1 } }

/-- CXL.mem requests of the host are served (R480, R483). -/
def State.hdmOpen (s : State) : Bool := s.host.up && s.host.cxl && s.host.hdm != 0 && !s.isFatal

/-- The form in which the host sees a page (R483, R517, R518): `none` where it sees all ones and its writes are discarded; else the key of
its XTS form, if it has one. -/
def State.hostView (s : State) (a : Nat) : Option (Option Bytes) :=
  match s.owner a with
  | none => none
  | some c => if c = 0 || s.ideDenied c then none else some (s.chkOf c)

/-- Record a line that the host holds; a full filter back-invalidates the line inserted first (R484). [DEDUCED, log 62] -/
def snoopTrack (l : Nat) (m : Bool) (s : State) : State :=
  let rest := s.host.snoop.filter fun x => x.1 != l
  if rest.length < snoopLines then { s with host := { s.host with snoop := rest ++ [(l, m)] } }
  else match rest with
    | o :: t => hpCnt 6 1 { s with host := { s.host with snoop := t ++ [(l, m)], bisnp := s.host.bisnp ++ [o.1], sent := s.host.sent ++ [o.1] } }
    | [] => s

/-- The host's write to a line lands: whole, or, byte by byte, where its enable is set (R485, R517). A partial line of a CONFIDENTIAL
context is discarded. -/
def hostLine (l : Nat) (data : Bytes) (enable : Nat) (s : State) : State :=
  let whole := (List.range 64).all fun i => bitOf enable i
  match s.hostView (64 * l) with
  | none => s
  | some chk =>
    match chk with
    | some k => if whole then hbmPut (64 * l) (Config.xtsDec k l (fitTo 64 data)) s else s
    | none =>
      if whole then hbmPut (64 * l) (fitTo 64 data) s
      else ((List.range 64).filter fun i => bitOf enable i).foldl (fun s i => hbmPut (64 * l + i) [(data.drop i).headD 0] s) s

/-- CXL_MEM_READ (R483–R485): the host reads a 64-byte line. `own`: it takes the line to modify it, and these are the bytes that its
cache then holds, which are the line's latest value. [DEDUCED, log 62, 63] -/
def execCxlMemRead (addr : Nat) (own : Option (List Byte)) (s : State) : Host.Outcome State Fault Refusal :=
  let l := addr / 64
  if !s.hdmOpen || s.host.bisnp.contains l then .next s
  else
    let s := hpCnt 4 1 (hpCnt 0 64 s)
    let ones := List.replicate 64 (0xFF : Byte)
    let reply (bad : Bool) (bs : Bytes) (s : State) : State := { s with host := { s.host with rdata := s.host.rdata ++ [(64 * l, bad, bs)] } }
    if 64 * l + 64 > Config.hbmBytes then .next (hpCnt 7 1 (reply false ones s))
    else match s.hostView (64 * l) with
      | none => .next (reply false ones s)
      | some chk =>
        let s := bump Config.tHbm (stackOf addr) 0 64 s
        if s.hbmBad (64 * l) 64 then .next (reply true ones (poisonRead addr s))
        else
          let bs := s.hbmRead (64 * l) 64
          let bs := match chk with | some k => Config.xtsEnc k l bs | none => bs
          let s := snoopTrack l own.isSome (reply false bs s)
          match own with
          | some d => .next (hostLine l d (2 ^ 64 - 1) s)
          | none => .next s

/-- CXL_MEM_WRITE (R483, R485, R517): the host writes a line, of which it then holds nothing. -/
def execCxlMemWrite (addr : Nat) (data : Bytes) (enable : Nat) (s : State) : Host.Outcome State Fault Refusal :=
  let l := addr / 64
  if !s.hdmOpen || s.host.bisnp.contains l then .next s
  else
    let s := hpCnt 5 1 (hpCnt 1 64 s)
    if 64 * l + 64 > Config.hbmBytes then .next (hpCnt 7 1 s)
    else .next (hostLine l data enable { s with host := { s.host with snoop := s.host.snoop.filter fun x => x.1 != l } })

/-- BISNP_RESPONSE (R484): the host answers a BISnp and holds the line no more. For a line that it holds modified the BISnp is that of an
engine read, which fetches its data. [DEDUCED, log 62] -/
def execBisnpResponse (l : Nat) (s : State) : Host.Outcome State Fault Refusal :=
  if s.host.bisnp.contains l then .next { s with host := { s.host with bisnp := s.host.bisnp.filter (· ≠ l) } }
  else if s.host.snoop.contains (l, true) then
    .next (hpCnt 6 1 { s with host := { s.host with snoop := s.host.snoop.filter (fun x => x.1 != l), sent := s.host.sent ++ [l] } })
  else .next s

/-- HOST_SNOOP (R487): a snoop of a cached host line invalidates it. -/
def execHostSnoop (l : Nat) (s : State) : Host.Outcome State Fault Refusal :=
  .next { s with host := { s.host with cache := s.host.cache.filter (· ≠ l) } }

/-- A segment in flight that has an operand in host space: the ring's task and the segment. -/
def State.hostSeg (s : State) (ring seg : Nat) : Option (Cur × Seg) :=
  let r := s.ring ring
  match r.cur with
  | none => none
  | some c =>
    match c.out[seg]? with
    | none => none
    | some g =>
      if c.phase = 0 && r.unitType = Config.tStream && dOp c.desc ≠ 0x40 && !s.isFatal
          && ((dOp c.desc ≠ 0x11 && suSrcSpace c.desc = 1) || suDstSpace c.desc = 1) then some (c, g) else none

/-- Source address of a segment, 0 for a fill, and its host address. -/
def hostAddrs (d : Bytes) (g : Seg) : Nat × Nat :=
  (if dOp d = 0x11 then 0 else g.src, if dOp d ≠ 0x11 && suSrcSpace d = 1 then g.src else g.dst)

/-- A host access of a segment fails: the task ends with REASON HOST, and the port reports the event (R488). -/
def hostFail (ring seg bit : Nat) (s : State) : State :=
  match s.hostSeg ring seg with
  | none => s
  | some (c, g) =>
    let r := s.ring ring
    let s := s.setRing ring { r with cur := some { c with out := c.out.eraseIdx seg, last := s.now } }
    let (at_, host) := hostAddrs c.desc g
    suIssue r.unitInst (Config.tags + 8) (suSettle ring (suLost ring 2 at_ host 3 (hpErr bit r.ctx host s)))

/-- A host read of an IMG_WRITE fails (R171, R488): image `img`, the `w`-th of its writes in progress. -/
def hostImgFail (img w bit : Nat) (s : State) : State :=
  match (s.image img).bind fun g => g.writes[w]? with
  | none => s
  | some x => if x.kind = 1 && !s.isFatal then imgHostFault img w (hpErr bit x.ctx (x.src + (x.pos - x.from_)) s) else s

/-- HOST_READ_COMPLETION (R487, R488): a completion of a host read that a segment waits for. `status` 0 brings its data, through the
device cache when that is on; 1 is an Unsupported Request or Completer Abort, 2 is poison. A read of an IMG_WRITE is named by `ring` 4,096
plus the image's handle, and `seg` as IMG_CHUNK_PROGRAMMED names the write. [DESIGN CHOICE, log 86] -/
def execHostReadCompletion (ring seg status : Nat) (s : State) : Host.Outcome State Fault Refusal :=
  if ring ≥ Config.rings then .next (if status = 1 then hostImgFail (ring - Config.rings) seg 2 s
    else if status = 2 then hostImgFail (ring - Config.rings) seg 3 s else s)
  else match s.hostSeg ring seg with
  | none => .next s
  | some (_, g) =>
    if status = 1 then .next (hostFail ring seg 2 s)
    else if status = 2 then .next (hostFail ring seg 3 s)
    else
      let ls := (List.range ((g.src + g.len - 1) / 64 + 1 - g.src / 64)).map (g.src / 64 + ·)
      let hits := ls.filter fun l => s.host.cache.contains l
      let s := hpCnt 2 hits.length (hpCnt 3 (ls.length - hits.length) s)
      if s.valueOf Config.tHost 0 1 = 0 || !s.host.cxl then .next s
      else
        let cache := s.host.cache ++ ls.filter fun l => !s.host.cache.contains l
        .next { s with host := { s.host with cache := cache.drop (cache.length - cacheLines) } }

/-- HOST_COMPLETION_TIMEOUT (R488), of a segment or, as in HOST_READ_COMPLETION, of an IMG_WRITE. -/
def execHostCompletionTimeout (ring seg : Nat) (s : State) : Host.Outcome State Fault Refusal :=
  .next (if ring ≥ Config.rings then hostImgFail (ring - Config.rings) seg 1 s else hostFail ring seg 1 s)

/-- Every IMG_WRITE from the host ends when the link is lost (R171). -/
def hostWritesEnd (s : State) : State :=
  s.images.foldl (fun s x => (x.2.writes.filter fun w => w.kind == 1).foldl (fun s w =>
    imgFault w (writeEnd x.1 w eAborted (w.pos - w.from_) s)) s) s

/-- Every host-space task ends with REASON HOST. -/
def hostTasksEnd (s : State) : State :=
  (s.rings.map (·.1)).foldl (fun s j =>
    let r := s.ring j
    match r.cur with
    | none => s
    | some c =>
      match (c.out ++ c.todo).head? with
      | none => s
      | some g =>
        if c.phase ≠ 0 || r.unitType ≠ Config.tStream || dOp c.desc = 0x40 || s.isFatal
            || !((dOp c.desc ≠ 0x11 && suSrcSpace c.desc = 1) || suDstSpace c.desc = 1) then s
        else
          let (at_, host) := hostAddrs c.desc g
          let s := s.setRing j { r with cur := some { c with out := [], last := s.now } }
          suIssue r.unitInst (Config.tags + 8) (suSettle j (suLost j 2 at_ host 3 s))) s

/-- HOST_LINK_DOWN (R488): surprise down. [DEDUCED, log 62] -/
def execHostLinkDown (s : State) : Host.Outcome State Fault Refusal :=
  if !s.host.up then .next s
  else .next (hostWritesEnd (hostTasksEnd (hpErr 5 0 0 { s with host := { s.host with up := false, cxl := false, width := 0, rate := 0 } })))

/-- HOST_LINK_UP (R480, R488): the link is in L0; CXL is negotiated only at 32 or 64 GT/s on 16 or 8 lanes. [DESIGN CHOICE, log 2] -/
def execHostLinkUp (width rate : Nat) (cxl : Bool) (s : State) : Host.Outcome State Fault Refusal :=
  if s.host.up || !s.sys.vin || !s.sys.perst then .next s
  else
    let c := cxl && decide (rate = 32 ∨ rate = 64) && decide (width = 16 ∨ width = 8)
    .next (completeLate { s with host := { s.host with up := true, width := width % 32, rate := rate % 256, cxl := c } })

/-- MSIX_UNMASK (R482): with MSI-X enabled a vector is unmasked; a message kept in its PBA bit is sent. [DEDUCED, log 62] -/
def execMsixUnmask (v : Nat) (s : State) : Host.Outcome State Fault Refusal :=
  if v ≥ 2048 || !s.host.up then .next s
  else
    let s1 := { s with sys := { s.sys with msixOn := true, unmasked := NSet.ins v s.sys.unmasked, pba := NSet.del v s.sys.pba } }
    .next (if s.sys.pba.contains v then sendMsix v s1 else s1)

/-- IDE_INTEGRITY_FAILURE (R488, R518): the streams go insecure; the link stays up. -/
def execIdeIntegrityFailure (s : State) : Host.Outcome State Fault Refusal :=
  if !s.host.up || !(s.sys.ideLink || s.sys.ideCxl) then .next s
  else .next (hpErr 4 0 0 { s with sys := { s.sys with ideLink := false, ideCxl := false } })

/-- IDE_KM_KEY_PROGRAM (R518): the host programs the keys of the link stream, of CXL IDE, or of both, in an SPDM session on DOE. -/
def execIdeKmKeyProgram (link cxl : Bool) (s : State) : Host.Outcome State Fault Refusal :=
  if !s.host.up || !s.sec.session.contains 0 then .next s
  else .next { s with sys := { s.sys with ideLink := s.sys.ideLink || link, ideCxl := s.sys.ideCxl || (cxl && s.host.cxl) } }

end Sys2Proof.Machine
end

