-- ==== Sys2Proof/Machine/Teacher.lean ====
section
/-! DEFINITION. Sys2Proof/Machine/Teacher.lean: the passes of the Teacher Engine (R113–R115, R127–R141, R148–R156). -/

namespace Sys2Proof.Machine
open Sys2Proof

/-! ### Geometry -/

/-- Geometry of TE_LUT_PASS and TE_DIRECT_PASS. -/
def arrayPass (d : Bytes) (arrays : List Nat) : Pass :=
  { arrays, rows := field d 12 1, cols := field d 13 1, start := tStart d, hold := tHold d, outAt := 64 * field d 28 3
    outStride := 64 * field d 36 2, outArray := 64 * field d 40 2, outFmt := tOutFmt d, loadAt := 64 * field d 31 3
    loadFmt := tOutFmt d, outMul := none }
/-- Geometry of TE_THIN_PASS. -/
def thinPass (d : Bytes) : Pass :=
  { arrays := [0], rows := field d 8 1, cols := field d 12 2, start := tStart d, hold := tHold d, outAt := 64 * field d 34 3
    outStride := 64 * field d 42 2, outArray := 0, outFmt := tOutFmt d, loadAt := 64 * field d 37 3
    loadFmt := tOutFmt d, outMul := none }

/-! ### LUT mode -/

/-- The fp32 value of each code (R111, R128). -/
def codeValue (d : Bytes) (core cbAt : Nat) (s : State) (c : Nat) : Nat :=
  if tLearned d then widen 1 (leNat (s.sramRead core (cbAt + 2 * c) 2)) else intCode (tWidth d) c

/-- Code values of column `j` in group `n` of a tile (R129). -/
def columnCodes (d : Bytes) (core codeAt_ cbAt : Nat) (s : State) (n j : Nat) : List Nat :=
  let b := tWidth d
  let g := tGroup d
  let block := s.sramRead core (codeAt_ + n * 16 * b * g + j * (b * g / 8)) (b * g / 8)
  (List.range g).map fun i => codeValue d core cbAt s (codeAt block b i)

/-- Activations of a row, as bf16 widened to fp32 (R113). -/
def actRow (d : Bytes) (core at_ : Nat) (s : State) : List Nat :=
  (s.sramElems core at_ (tActFmt d) (tK d)).map fun a => if tActFmt d = 0 then widen 1 (narrow 1 a) else a

/-- One output element: row of activations, tile, column and starting value. -/
def lutElement (d : Bytes) (core codeAt_ scaleAt cbAt : Nat) (s : State) (acts : List Nat) (j acc : Nat) : Nat :=
  let as := groupsOf (tGroup d) (tGroups d) acts
  lutAcc acc ((List.range (tGroups d)).map fun n =>
    (nth as n [], columnCodes d core codeAt_ cbAt s n j, widen 1 (leNat (s.sramRead core (scaleAt + 256 * n + 2 * j) 2))))

/-- Zero activations of the rows of a pass. -/
def zeroActs (rows : List (List Nat)) : Nat := (rows.map fun r => (r.filter fun a => a % 2 ^ 31 == 0).length).sum

/-- Absolute addresses of the tile, the scales and the codebook of a LUT pass. -/
def lutAt (d : Bytes) : Nat × Nat × Nat := (64 * field d 16 3, 64 * field d 19 3, 64 * field d 22 3)
/-- Address of activation row `i` of array `a`. -/
def lutActAt (d : Bytes) (a i : Nat) : Nat := 64 * field d 25 3 + a * (64 * field d 38 2) + i * (64 * field d 34 2)

/-- The accumulators of a LUT problem (R113). -/
def lutAccs (d : Bytes) (core : Nat) (p : Pass) (held : List (List (List Nat))) (s : State) : List (List (List Nat)) :=
  let (ca, sa, cb) := lutAt d
  p.table fun x i j => lutElement d core ca sa cb s (actRow d core (lutActAt d (nth p.arrays x 0) i) s) j (p.initial s core held x i j)

/-- Rows of activations of a LUT problem, and their ranges. -/
def lutActRows (d : Bytes) (core : Nat) (p : Pass) (s : State) : List (List Nat) :=
  p.arrays.flatMap fun a => (List.range p.rows).map fun i => actRow d core (lutActAt d a i) s
def lutReads (d : Bytes) (p : Pass) : List (Nat × Nat) :=
  p.arrays.flatMap fun a => (List.range p.rows).map fun i => (lutActAt d a i, tK d * fmtBytes (tActFmt d))
def lutStaged (d : Bytes) : List (Nat × Nat) :=
  let (ca, sa, cb) := lutAt d
  [(ca, codeBytes d), (sa, scaleBytes d)] ++ (if tLearned d then [(cb, 32)] else [])

/-! ### Direct mode (R138) -/

def dirA (d : Bytes) : Nat := bits (field d 9 1) 0 4
def dirB (d : Bytes) : Nat := bits (field d 9 1) 4 4
def dirAAt (d : Bytes) (a i : Nat) : Nat := 64 * field d 25 3 + a * (64 * field d 38 2) + i * (64 * field d 34 2)
def dirBAt (d : Bytes) (k : Nat) : Nat := 64 * field d 16 3 + k * (64 * field d 42 2)

/-- The accumulators of a direct problem. -/
def dirAccs (d : Bytes) (core : Nat) (p : Pass) (held : List (List (List Nat))) (s : State) : List (List (List Nat)) :=
  p.table fun x i j =>
    macAcc (p.initial s core held x i j) (s.sramElems core (dirAAt d (nth p.arrays x 0) i) (dirA d) (dirK d))
      (s.sramStrided core (dirBAt d 0 + j * fmtBytes (dirB d)) (64 * field d 42 2) (dirB d) (dirK d))
def dirReads (d : Bytes) (p : Pass) : List (Nat × Nat) :=
  (p.arrays.flatMap fun a => (List.range p.rows).map fun i => (dirAAt d a i, dirK d * fmtBytes (dirA d)))
  ++ (List.range (dirK d)).map fun k => (dirBAt d k, p.cols * fmtBytes (dirB d))

/-! ### Thin path (R141) -/

def thinActAt (d : Bytes) (i : Nat) : Nat := 64 * field d 31 3 + i * (64 * field d 40 2)
/-- Tile and scale addresses of column `j`, and the column within its tile. -/
def thinTile (d : Bytes) (j : Nat) : Nat × Nat × Nat :=
  if j < 128 then (64 * field d 16 3, 64 * field d 22 3, j) else (64 * field d 19 3, 64 * field d 25 3, j - 128)
def thinAccs (d : Bytes) (core : Nat) (p : Pass) (held : List (List (List Nat))) (s : State) : List (List (List Nat)) :=
  p.table fun x i j =>
    let (ca, sa, c) := thinTile d j
    lutElement d core ca sa (64 * field d 28 3) s (actRow d core (thinActAt d i) s) c (p.initial s core held x i j)
def thinStaged (d : Bytes) : List (Nat × Nat) :=
  [(64 * field d 16 3, codeBytes d), (64 * field d 22 3, scaleBytes d)]
  ++ (if field d 12 2 > 128 then [(64 * field d 19 3, codeBytes d), (64 * field d 25 3, scaleBytes d)] else [])
  ++ (if tLearned d then [(64 * field d 28 3, 32)] else [])
def thinReads (d : Bytes) (p : Pass) : List (Nat × Nat) :=
  (List.range p.rows).map fun i => (thinActAt d i, tK d * fmtBytes (tActFmt d))

/-! ### Plans -/

/-- Gated cell-cycles of a problem whose gated elements each hold `span` adders, when TE_SET_ZERO_GATE is on. -/
def State.gatedOf (s : State) (inst span : Nat) (rows : List (List Nat)) : Nat :=
  if s.setting Config.tTeacher inst 1 1 = 1 then zeroActs rows * span else 0
/-- Lookup-accumulates that are not gated. With TE_SET_ZERO_GATE 0 nothing is gated, and R158 excludes gated ones alone: those of zero
activations count then. [DEDUCED, log 84] -/
def State.laccOf (s : State) (inst cols : Nat) (rows : List (List Nat)) : Nat :=
  ((rows.map List.length).sum - (if s.setting Config.tTeacher inst 1 1 = 1 then zeroActs rows else 0)) * cols

/-- What each opcode of the engine computes. -/
def lutPlan (core : Nat) (d : Bytes) (held : List (List (List Nat))) (s : State) : Plan :=
  let p := arrayPass d (maskList 4 (field d 8 1))
  let rows := lutActRows d core p s
  let gated := s.gatedOf core 128 rows
  { parts := [(p, lutAccs d core p held s)], staged := lutStaged d, reads := lutReads d p ++ p.loadsAt, mode := 0
    cycles := if p.hold then none else some (tK d + p.rows + 130), gated
    counts := [(1, s.laccOf core p.cols rows), (2, gated), (5, 1)] }

def directPlan (core : Nat) (d : Bytes) (held : List (List (List Nat))) (s : State) : Plan :=
  let p := arrayPass d (maskList 4 (field d 8 1))
  { parts := [(p, dirAccs d core p held s)], staged := [], reads := dirReads d p ++ p.loadsAt, mode := 1
    cycles := if p.hold then none else some (2 * (dirK d - 1) + p.rows + 131), gated := 0
    counts := [(3, p.arrays.length * p.rows * p.cols * dirK d), (5, 1)] }

def thinPlan (core : Nat) (d : Bytes) (held : List (List (List Nat))) (s : State) : Plan :=
  let p := thinPass d
  let rows := (List.range p.rows).map fun i => actRow d core (thinActAt d i) s
  let gated := s.gatedOf core p.cols rows
  { parts := [(p, thinAccs d core p held s)], staged := thinStaged d, reads := thinReads d p ++ p.loadsAt, mode := 3
    cycles := if p.hold then none else some (tK d + p.rows + 3), gated
    counts := [(4, s.laccOf core p.cols rows), (2, gated), (5, 1)] }

/-- Quadrants of a pane pass, with the table entry of each (R150). -/
def paneQuads (core : Nat) (d : Bytes) (s : State) : List (Nat × Bytes) :=
  (maskList 4 (field d 10 1)).map fun q => (q, s.sramRead core (64 * (field d 12 3 + q)) 64)

def panePlan (core : Nat) (d : Bytes) (s : State) : Plan :=
  let arrays := maskList 4 (field d 8 1)
  let quads := (paneQuads core d s).map fun q => (q.2, arrayPass q.2 arrays)
  let rowsOf (q : Bytes × Pass) : List (List Nat) := if paneDirect d then [] else lutActRows q.1 core q.2 s
  let gated := (quads.map fun q => s.gatedOf core 64 (rowsOf q)).sum
  { parts := quads.map fun q => (q.2, if paneDirect d then dirAccs q.1 core q.2 [] s else lutAccs q.1 core q.2 [] s)
    staged := if paneDirect d then [] else quads.flatMap fun q => lutStaged q.1
    reads := (paneQuads core d s).map (fun q => (64 * (field d 12 3 + q.1), 64))
      ++ quads.flatMap fun q => (if paneDirect d then dirReads q.1 q.2 else lutReads q.1 q.2) ++ q.2.loadsAt
    mode := 2, cycles := none, gated
    counts := [(1, (quads.map fun q => s.laccOf core q.2.cols (rowsOf q)).sum), (2, gated),
      (3, if paneDirect d then (quads.map fun q => q.2.arrays.length * q.2.rows * q.2.cols * dirK q.1).sum else 0), (5, 1)] }

/-- A pane pass whose table can be read names, in the entry of a quadrant that it uses, a format that its mode does not accept (R103, R138,
R185). -/
def State.paneFmtBad (s : State) (ty core : Nat) (d : Bytes) : Bool :=
  dOp d == 0x12 && allReadable core ((paneQuads core d s).map fun q => (64 * (field d 12 3 + q.1), 64))
    && (paneQuads core d s).any fun q => badFmt ty (if ty == Config.tTeacher && paneDirect d then 0x11 else 0x10) q.2

/-- A table entry keeps the rules of R150. -/
def paneEntryOk (direct : Bool) (arrays : List Nat) (e : Bytes) : Bool :=
  (e.take 9).all (· == 0) && field e 56 8 == 0 && (direct || field e 42 4 == 0)
    && !bodyReserved (if direct then shDirect else shLut) e
    && (if direct then dirFields e 64 arrays else lutFields e 64 arrays)
    && tStart e != 1 && !tHold e

/-! ### Taking up a pass -/

/-- Checks of a teacher pass in the order of R146: status and REASON. A later descriptor of a task reports ARGUMENT; the manual names no
REASON for the first, which reports SEAL for the seal rule and ARGUMENT otherwise. [DEDUCED, log 50; DESIGN CHOICE, log 82] -/
def teCheck (core c : Nat) (later : Bool) (d : Bytes) (s : State) (pl : Plan) : Option (Nat × Nat) :=
  let arrays := maskList 4 (field d 8 1)
  let fields := match dOp d with
    | 0x10 => lutFields d 128 arrays
    | 0x11 => dirFields d 128 arrays
    | 0x12 => !arrays.isEmpty && field d 10 1 != 0
    | _ => thinFields d
  if !fields then some (0x108, 8)
  else
    let table := if dOp d = 0x12 then (paneQuads core d s).map fun q => (64 * (field d 12 3 + q.1), 64) else []
    if !allReadable core table then some (0x10D, 8)
    else if dOp d = 0x12 && !(paneQuads core d s).all (fun q => paneEntryOk (paneDirect d) arrays q.2) then some (0x108, 8)
    else
      let half := match stageOf d with | some (h, _, _) => h | none => 0
      if !allReadable core pl.reads || !pl.staged.all (fun r => inHalf half r.1 r.2)
          || !pl.parts.all (fun p => s.allWritable core p.1.writesAt) then some (0x10D, 8)
      else if c ≠ 0 && !pl.staged.isEmpty && ((s.core core).stage half).sealing then some (0x111, if later then 8 else 5)
      else none

/-- Fields that a chain repeats (R147). -/
def teChain (op : Nat) : ChainFields :=
  if op = 0x13 then [(8, 1), (12, 2), (34, 3), (42, 2)] else [(8, 1), (12, 2), (28, 3), (36, 2), (40, 2)]

/-- The bank that a CONTINUE pass goes on with. -/
def State.heldAcc (s : State) (core : Nat) : List (List (List Nat)) :=
  match (s.core core).chain with | some c => c.acc | none => []

/-- A pass of opcode `op` at the head of ring `j` is taken up. [DEDUCED, log 50] -/
def tePass (j op : Nat) (plan : Nat → Bytes → List (List (List Nat)) → State → Plan) (s : State) : State :=
  match s.headOf j op with
  | none => s
  | some (ix, d) =>
    let r := s.ring j
    let k := r.unitInst
    if r.unitType ≠ Config.tTeacher || !s.mayRun j 1 (s.setting Config.tTeacher k 2 0 == 1) (s.stageReady k)
        || !s.stageReady k d || (s.core k).drain.isSome || (s.core k).clearing then s
    else if s.paneFmtBad Config.tTeacher k d then refuse j ix d 0x108 s
    else
      let s := fillMix k s
      let pl := plan k d (s.heldAcc k) s
      match teCheck k r.ctx r.inTask d s pl with
      | some (st, reason) =>
        let s := if st = 0x111 then setErr Config.tTeacher k 4 j ix reason s else s
        failCheck j ix d st (reasonDetail Config.tTeacher d reason) false s
      | none =>
        let start := if op = 0x12 then 0 else tStart d
        let hold := op != 0x12 && tHold d
        if chainBreaks (s.core k).chain j d start hold (teChain op) then coreAbort j ix d 0x113 4 3 none 0 s
        else match s.firstMarked k (pl.staged ++ pl.reads) with
          | some m => markedAbort j ix k d m s
          | none => runPass j ix k d pl hold s

/-- TE_LUT_PASS (R148): lookup-accumulate in the arrays. -/
def execTeLutPass (ring : Nat) (s : State) : Host.Outcome State Fault Refusal := .next (tePass ring 0x10 lutPlan s)
/-- TE_DIRECT_PASS (R138, R149): multiply-accumulate in the arrays. -/
def execTeDirectPass (ring : Nat) (s : State) : Host.Outcome State Fault Refusal := .next (tePass ring 0x11 directPlan s)
/-- TE_PANE_PASS (R139, R140, R150): up to four problems in each array. -/
def execTePanePass (ring : Nat) (s : State) : Host.Outcome State Fault Refusal :=
  .next (tePass ring 0x12 (fun k d _ s => panePlan k d s) s)
/-- TE_THIN_PASS (R141, R142, R151): one to eight rows against up to 256 columns. -/
def execTeThinPass (ring : Nat) (s : State) : Host.Outcome State Fault Refusal := .next (tePass ring 0x13 thinPlan s)

end Sys2Proof.Machine
end

