-- ==== Sys2Proof/Machine/VecCore.lean ====
section
/-! DEFINITION. Sys2Proof/Machine/VecCore.lean: the vector unit: program state, issue, faults, ends, lanes and element
accesses (R192–R198, R205, R206). -/

namespace Sys2Proof.Machine
open Sys2Proof

/-! ### Registers -/

def VecState.xr (v : VecState) (i : Nat) : Nat := if i = 0 then 0 else SMap.get 0 v.x i
def VecState.setX (v : VecState) (i n : Nat) : VecState :=
  if i = 0 then v else { v with x := SMap.set 0 v.x i (n % 2 ^ 64) }
def VecState.lane (v : VecState) (r l : Nat) : Nat := SMap.get 0 v.v (256 * r + l)
def VecState.setLane (v : VecState) (r l n : Nat) : VecState := { v with v := SMap.set 0 v.v (256 * r + l) (n % 2 ^ 32) }
def VecState.mask (v : VecState) (i : Nat) : Nat := nth v.m i 0
def VecState.setMask (v : VecState) (i n : Nat) : VecState := { v with m := v.m.set i n }

/-- A lane takes part: below VL and, with MEN, set in m[M] (R192). -/
def VecState.active (v : VecState) (f : VecFields) (l : Nat) : Bool :=
  decide (l < v.vl) && (!f.men || bitOf (v.mask f.m) l)
/-- Active lanes, ascending. -/
def VecState.lanes (v : VecState) (f : VecFields) : List Nat := (List.range 256).filter (v.active f)

/-- Write `g l` to every active lane of vD. -/
def VecState.mapLanes (v : VecState) (f : VecFields) (g : Nat → Nat) : VecState :=
  (v.lanes f).foldl (fun w l => w.setLane f.d l (g l)) v

/-- IMM as a number, and as a 64-bit pattern. -/
def immInt (f : VecFields) : Int := sext 32 f.imm
def imm64 (f : VecFields) : Nat := (immInt f % 2 ^ 64).toNat

/-- The byte address xS1 + IMM. -/
def VecState.addr (v : VecState) (f : VecFields) : Nat := (v.xr f.s1 + imm64 f) % 2 ^ 64

/-! ### Legality of a word (R194) -/

/-- FMT in S3 that loads and stores accept. -/
def fmtOk (f : VecFields) : Bool := decide (f.s3 % 16 ≤ 6)
/-- OPs of the table. -/
def opListed (op : Nat) : Bool :=
  decide (op ≤ 0x0A) || decide (0x10 ≤ op ∧ op ≤ 0x15) || decide (0x20 ≤ op ∧ op ≤ 0x2E) || decide (0x30 ≤ op ∧ op ≤ 0x33)
    || decide (0x40 ≤ op ∧ op ≤ 0x46) || decide (0x50 ≤ op ∧ op ≤ 0x52) || decide (0x60 ≤ op ∧ op ≤ 0x62)
/-- Formats that VCVT converts among. -/
def cvtFmt (n : Nat) : Bool := n == 0 || n == 5 || n == 6

/-- A word is illegal whatever the registers hold; teacher cores have no target ports (R197). [DEDUCED, log 48] -/
def wordIllegal (teacher : Bool) (op : Nat) (f : VecFields) : Bool :=
  !opListed op || (teacher && decide (0x60 ≤ op))
    || (decide (0x10 ≤ op ∧ op ≤ 0x13) && !fmtOk f)
    || (op == 0x2E && !(cvtFmt (f.imm % 16) && cvtFmt (f.imm / 16 % 16)))
    || (decide (op = 0x32) && (decide (f.d ≥ 8) || decide (f.s1 ≥ 8) || decide (f.s2 ≥ 8)))
    || (decide (op = 0x33) && (decide (f.d ≥ 8) || decide (f.s1 ≥ 8)))

/-! ### Ends of a task -/

/-- The ring's unit of a core. -/
def vecUnit (core : Nat) : Nat × Nat := coreUnit core

/-- The vector task of a core ends with a status and a REASON. -/
def vecEnd (core status reason : Nat) (bit code : Option Nat) (addr : Nat) (s : State) : State :=
  match (s.core core).vec with
  | none => s
  | some v =>
    let (ty, inst) := vecUnit core
    let r := s.ring v.ring
    let ix := match r.cur with | some c => c.index | none => 0
    let (cyc, s) := s.fresh
    let s := s.updCore core fun c => { c with vec := none }
    let s := match bit with | some b => setErr ty inst b v.ring ix reason s | none => s
    let mode := 4
    let s := finish v.ring status v.lb (coreDetail reason mode 0 0 cyc (if core < 32 then 0 else v.pc)) s
    match code with
    | some c =>
      raise { code := c, status := 0x113, flags := 1, ty, inst, ctx := r.ctx, ring := v.ring, index := ix, addr, space := 4 } s
    | none => s

/-- An illegal instruction (R206); a teacher core's REASON table has no such code, and the record says ARGUMENT. -/
def vecIllegal (core : Nat) (s : State) : State :=
  if core < 32 then vecEnd core 0x108 8 none none 0 s else vecEnd core 0x108 9 (some 6) none 0 s
/-- An access outside the program's rights (R144, R206). -/
def vecAddress (core : Nat) (s : State) : State := vecEnd core 0x10D 8 none none 0 s
/-- A marked word of a run of `n` bytes was to be read (R154, R206): an uncorrectable error, or poison. -/
def vecMarked (core addr n : Nat) (s : State) : State :=
  if s.sramUeAt core addr n then vecEnd core 0x113 2 (some 0) (some 1) addr s
  else vecEnd core 0x113 3 (some 1) (some 3) addr s
/-- A sealed half was to be read from a ring of another context (R153). -/
def vecSealed (core : Nat) (s : State) : State := vecEnd core 0x111 5 (some 4) none 0 s
/-- A target port fault (R197). -/
def vecTarget (core : Nat) (s : State) : State := vecEnd core 0x10C 5 (some 4) none 0 s

/-- The word at PC. [DEDUCED, log 48] -/
def vecWord (core : Nat) (v : VecState) (s : State) : Nat := leNat (s.sramRead core (v.prog + 8 * v.pc) 8)

/-- What the program meets at PC: its end, an illegal or an unreadable word. [DEDUCED, log 48] -/
def vecSettle (core : Nat) (s : State) : State :=
  match (s.core core).vec with
  | none => s
  | some v =>
    if v.pc = v.len then vecEnd core 0 0 none none 0 s
    else if s.sramBad core (v.prog + 8 * v.pc) 8 then vecMarked core (v.prog + 8 * v.pc) 8 s
    else if wordIllegal (core < 32) (vecDecode (vecWord core v s)).1 (vecDecode (vecWord core v s)).2 then vecIllegal core s
    else s

/-- An instruction has completed, and `v` still holds its PC: a student core's task that has reached its issue limit ends there (R198), any
other goes on at the PC that is `jump` away. -/
def vecNext (core : Nat) (v : VecState) (jump : Int) (s : State) : State :=
  let limit := if core < 32 then 0 else s.setting Config.tStudent (core - 32) 3 4096
  if limit ≠ 0 && v.issued ≥ limit * 2 ^ 20 then vecEnd core 0x113 10 (some 7) none 0 (s.updCore core fun c => { c with vec := some v })
  else vecSettle core (s.updCore core fun c => { c with vec := some { v with pc := (v.pc + jump).toNat } })

/-- What an instruction does. -/
inductive VRes where
  /-- it completes, and PC moves by `jump` -/
  | ok (v : VecState) (jump : Int) (s : State)
  /-- it ends the task -/
  | stop (s : State)
  /-- it stalls in TWAIT -/
  | stall (v : VecState)

/-- Issue of one instruction (R196): the task is running and the word at PC is this one. -/
def vecIssue (core op : Nat) (f : VecFields) (body : VecState → State → VRes) (s : State) : State :=
  match (s.core core).vec with
  | none => s
  | some v =>
    if v.wait.isSome || s.isFatal || vecDecode (vecWord core v s) ≠ (op, f) then s
    else if s.sramBad core (v.prog + 8 * v.pc) 8 then vecMarked core (v.prog + 8 * v.pc) 8 s
    else if wordIllegal (core < 32) op f then vecIllegal core s
    else
      let v := { v with issued := v.issued + 1 }
      let s := s.updCore core fun c => { c with vec := some v }
      match body v s with
      | .ok v' jump s' => vecNext core v' jump s'
      | .stop s' => s'
      | .stall v' => s.updCore core fun c => { c with vec := some v' }

/-- A branch (R194): a target outside the program is illegal. -/
def vecBranch (core op : Nat) (f : VecFields) (taken : VecState → Bool) (s : State) : State :=
  vecIssue core op f (fun v s =>
    if taken v then
      (if 0 ≤ (v.pc : Int) + immInt f ∧ (v.pc : Int) + immInt f < v.len then .ok v (immInt f) s else .stop (vecIllegal core s))
    else .ok v 1 s) s

/-- An instruction on the scalar or vector registers alone. -/
def vecPure (core op : Nat) (f : VecFields) (g : VecState → VecState) (s : State) : State :=
  vecIssue core op f (fun v s => .ok (g v) 1 s) s

/-- A lane-wise instruction. -/
def vecLanes (core op : Nat) (f : VecFields) (g : VecState → Nat → Nat) (s : State) : State :=
  vecPure core op f (fun v => v.mapLanes f (g v)) s

/-- An SFU instruction; a student core counts its lane evaluations (R210). -/
def vecSfu (core op : Nat) (f : VecFields) (n : Nat) (s : State) : State :=
  vecIssue core op f (fun v s =>
    .ok (v.mapLanes f fun l => sfuFn n (v.lane f.s1 l)) 1
      (if core < 32 then s else bump Config.tStudent (core - 32) 9 (v.lanes f).length s)) s

/-! ### Element accesses -/

/-- A run may be read by a program: activation SRAM and staging halves on a teacher core, all SRAM on a student core. -/
def vecReadable (core a n : Nat) : Bool := decide (a + n ≤ sramBytes core)
/-- A run may be written by a program. -/
def State.vecWritable (s : State) (core a n : Nat) : Bool := s.sramWritable core a n
/-- The half of a teacher core's staging SRAM that a run touches is sealed against the ring's context. -/
def State.vecSealedAt (s : State) (core a n ctx : Nat) : Bool :=
  decide (core < 32) && ctx != 0 && decide (a < actBase)
    && ((decide (a < halfBytes) && (s.core core).stage0.sealing) || (decide (a + n > halfBytes) && (s.core core).stage1.sealing))

/-- Context of a vector task. -/
def State.vecCtx (s : State) (v : VecState) : Nat := (s.ring v.ring).ctx

/-- Load elements of `e` bytes at these addresses, or end the task. -/
def vecLoad (core e : Nat) (addrs : List Nat) (v : VecState) (s : State) (k : List Nat → VRes) : VRes :=
  if addrs.any fun a => a % e != 0 then .stop (vecIllegal core s)
  else if !addrs.all (fun a => vecReadable core a e) then .stop (vecAddress core s)
  else if addrs.any (fun a => s.vecSealedAt core a e (s.vecCtx v)) then .stop (vecSealed core s)
  else match addrs.find? fun a => s.sramBad core a e with
    | some a => .stop (vecMarked core a e s)
    | none => k (addrs.map fun a => leNat (s.sramRead core a e))

/-- Store elements of `e` bytes at these addresses, or end the task. -/
def vecStore (core e : Nat) (cells : List (Nat × Nat)) (v : VecState) (s : State) : VRes :=
  if cells.any fun c => c.1 % e != 0 then .stop (vecIllegal core s)
  else if !cells.all (fun c => s.vecWritable core c.1 e) then .stop (vecAddress core s)
  else .ok { v with lb := v.lb + e * cells.length } 1 (sramStore core (cells.map fun c => (c.1, leBytes e c.2)) s)

/-- Widen a loaded element: floating formats exactly, integers as they are. -/
def vecWiden (fmt b : Nat) : Nat := widen fmt b
/-- Narrow a lane for a store. -/
def vecNarrow (fmt b : Nat) : Nat := narrow fmt b

/-- Addresses of the active lanes of VLD and VST: a stride of 0 means contiguous. -/
def VecState.strided (v : VecState) (f : VecFields) (e l : Nat) : Nat :=
  (v.addr f + l * (if v.xr f.s2 = 0 then e else v.xr f.s2)) % 2 ^ 64
/-- Addresses of gather and scatter. -/
def VecState.indexed (v : VecState) (f : VecFields) (e l : Nat) : Nat := (v.addr f + v.lane f.s2 l * e) % 2 ^ 64

/-- Loads into the active lanes of vD. -/
def vecLoadLanes (core : Nat) (f : VecFields) (at_ : VecState → Nat → Nat → Nat) (v : VecState) (s : State) : VRes :=
  let e := fmtBytes (f.s3 % 16)
  let ls := v.lanes f
  vecLoad core e (ls.map (at_ v e)) v s fun xs =>
    .ok ((ls.zip xs).foldl (fun w lx => w.setLane f.d lx.1 (vecWiden (f.s3 % 16) lx.2)) v) 1 s

/-- Stores from the active lanes of vD; a later lane overwrites an earlier one. -/
def vecStoreLanes (core : Nat) (f : VecFields) (at_ : VecState → Nat → Nat → Nat) (v : VecState) (s : State) : VRes :=
  let e := fmtBytes (f.s3 % 16)
  vecStore core e ((v.lanes f).map fun l => (at_ v e l, vecNarrow (f.s3 % 16) (v.lane f.d l))) v s

/-! ### Reductions (R195) -/

/-- The eight-level tree over the lanes of a register; an inactive lane enters as `idle`. -/
def VecState.tree (v : VecState) (f : VecFields) (g : Nat → Nat → Nat) (idle : Nat) : Nat :=
  treeFold g 8 ((List.range 256).map fun l => if v.active f l then v.lane f.s1 l else idle)

/-! ### Taking up a vector task (R144, R192, R205) -/

/-- The vector unit at the start of a task. -/
def vecStart (ring ix inst : Nat) (d : Bytes) (prog : Nat) : VecState :=
  let v : VecState := { ring, prog, len := field d 11 2, pc := 0, vl := 256, x := [], v := []
                        m := List.replicate 8 (2 ^ 256 - 1), issued := 0, wait := none, lb := 0 }
  let v := (List.range 5).foldl (fun v i => v.setX (i + 1) (field d (16 + 8 * i) 8)) v
  (v.setX 6 ix).setX 7 inst

/-- A vector task at the head of a ring of a core is taken up; its program runs instruction by instruction. -/
def vecTask (ty j : Nat) (lowest : Bool) (s : State) : State :=
  match s.headOf j 0x20 with
  | none => s
  | some (ix, d) =>
    let r := s.ring j
    let k := if ty = Config.tTeacher then r.unitInst else 32 + r.unitInst
    if r.unitType ≠ ty || !s.mayRun j 2 lowest (fun _ => true) || (s.core k).vec.isSome || (s.core k).kd.isSome
        || (s.core k).clearing then s
    else
      let prog := 64 * field d 8 3
      let n := 8 * field d 11 2
      if field d 11 2 = 0 then failArg j ix d 0x108 s
      else if !sramReadable k prog n then failArg j ix d 0x10D s
      else if s.chainHeld k j then coreAbort j ix d 0x113 4 3 none 0 s
      else
        let s := served j (begin j ix d s)
        vecSettle k (s.updCore k fun c => { c with vec := some (vecStart j ix r.unitInst d prog) })

end Sys2Proof.Machine
end

