-- ==== Sys2Proof/Machine/VecScalar.lean ====
section
/-! DEFINITION. Sys2Proof/Machine/VecScalar.lean: the scalar, branch, mask, reduction and target-port instructions of a vector
program, and the vector tasks (R144, R192–R198, R205). -/

namespace Sys2Proof.Machine
open Sys2Proof

/-- NOP. -/
def execVuNop (core : Nat) (f : VecFields) (s : State) : Host.Outcome State Fault Refusal := .next (vecPure core 0x00 f id s)
/-- HALT: the task ends with status OK. -/
def execVuHalt (core : Nat) (f : VecFields) (s : State) : Host.Outcome State Fault Refusal :=
  .next (vecIssue core 0x01 f (fun _ s => .stop (vecEnd core 0 0 none none 0 s)) s)
/-- SETVL: VL from xS1 or from IMM; a value outside 1 to 256 is illegal. -/
def execVuSetvl (core : Nat) (f : VecFields) (s : State) : Host.Outcome State Fault Refusal :=
  .next (vecIssue core 0x02 f (fun v s =>
    let n := if f.imm = 0 then v.xr f.s1 else imm64 f
    if 1 ≤ n ∧ n ≤ 256 then .ok { v with vl := n } 1 s else .stop (vecIllegal core s)) s)
/-- SLI: the immediate, sign-extended. -/
def execVuSli (core : Nat) (f : VecFields) (s : State) : Host.Outcome State Fault Refusal :=
  .next (vecPure core 0x03 f (fun v => v.setX f.d (imm64 f)) s)
/-- SADD. -/
def execVuSadd (core : Nat) (f : VecFields) (s : State) : Host.Outcome State Fault Refusal :=
  .next (vecPure core 0x04 f (fun v => v.setX f.d (v.xr f.s1 + v.xr f.s2 + imm64 f)) s)
/-- SMUL: the low 64 bits. -/
def execVuSmul (core : Nat) (f : VecFields) (s : State) : Host.Outcome State Fault Refusal :=
  .next (vecPure core 0x05 f (fun v => v.setX f.d (v.xr f.s1 * v.xr f.s2)) s)
/-- SSHR: logical, by IMM[5:0]. -/
def execVuSshr (core : Nat) (f : VecFields) (s : State) : Host.Outcome State Fault Refusal :=
  .next (vecPure core 0x06 f (fun v => v.setX f.d (v.xr f.s1 / 2 ^ (f.imm % 64))) s)
/-- BLT: signed. [DEDUCED, log 48] -/
def execVuBlt (core : Nat) (f : VecFields) (s : State) : Host.Outcome State Fault Refusal :=
  .next (vecBranch core 0x07 f (fun v => decide (sext 64 (v.xr f.s1) < sext 64 (v.xr f.s2))) s)
/-- BNE. -/
def execVuBne (core : Nat) (f : VecFields) (s : State) : Host.Outcome State Fault Refusal :=
  .next (vecBranch core 0x08 f (fun v => v.xr f.s1 != v.xr f.s2) s)
/-- JMP. [DEDUCED, log 48] -/
def execVuJmp (core : Nat) (f : VecFields) (s : State) : Host.Outcome State Fault Refusal :=
  .next (vecBranch core 0x09 f (fun _ => true) s)
/-- SLANE: lane IMM[7:0] of vS1. -/
def execVuSlane (core : Nat) (f : VecFields) (s : State) : Host.Outcome State Fault Refusal :=
  .next (vecPure core 0x0A f (fun v => v.setX f.d (v.lane f.s1 (f.imm % 256))) s)
/-- SLD: an aligned 8-byte load. -/
def execVuSld (core : Nat) (f : VecFields) (s : State) : Host.Outcome State Fault Refusal :=
  .next (vecIssue core 0x14 f (fun v s => vecLoad core 8 [v.addr f] v s fun xs => .ok (v.setX f.d (nth xs 0 0)) 1 s) s)
/-- SST: an aligned 8-byte store. -/
def execVuSst (core : Nat) (f : VecFields) (s : State) : Host.Outcome State Fault Refusal :=
  .next (vecIssue core 0x15 f (fun v s => vecStore core 8 [(v.addr f, v.xr f.s2)] v s) s)
/-- MAND: whole masks. -/
def execVuMand (core : Nat) (f : VecFields) (s : State) : Host.Outcome State Fault Refusal :=
  .next (vecPure core 0x32 f (fun v => v.setMask f.d (Nat.land (v.mask f.s1) (v.mask f.s2))) s)
/-- MNOT: the whole mask. -/
def execVuMnot (core : Nat) (f : VecFields) (s : State) : Host.Outcome State Fault Refusal :=
  .next (vecPure core 0x33 f (fun v => v.setMask f.d (2 ^ 256 - 1 - v.mask f.s1)) s)
/-- VREDSUM (R195). -/
def execVuVredsum (core : Nat) (f : VecFields) (s : State) : Host.Outcome State Fault Refusal :=
  .next (vecPure core 0x50 f (fun v => v.setX f.d (v.tree f fAdd 0)) s)
/-- VREDMAX (R195). -/
def execVuVredmax (core : Nat) (f : VecFields) (s : State) : Host.Outcome State Fault Refusal :=
  .next (vecPure core 0x51 f (fun v => v.setX f.d (v.tree f fMax 0xFF800000)) s)
/-- Lowest active lane that holds the maximum; NaN lanes are skipped. -/
def VecState.argmax (v : VecState) (f : VecFields) : Nat :=
  let ls := (v.lanes f).filter fun l => !fIsNan (v.lane f.s1 l)
  let best := ls.foldl (fun b l => fMax b (v.lane f.s1 l)) 0xFF800000
  (ls.find? fun l => fEq (v.lane f.s1 l) best).getD 0xFFFFFFFF
/-- VARGMAX. -/
def execVuVargmax (core : Nat) (f : VecFields) (s : State) : Host.Outcome State Fault Refusal :=
  .next (vecPure core 0x52 f (fun v => v.setX f.d (v.argmax f)) s)

/-! ### Target ports (R197) -/

/-- What TWAIT returns from a port that holds a record: the head's address. -/
def twaitTake (core port key d : Nat) (v : VecState) (s : State) : VecState × State :=
  let p := s.pring (key / 16) (key % 16)
  ({ v with wait := none }.setX d (p.slotAt p.head), setTaken (core - 32) port true s)
/-- TWAIT: stalls while the port holds no record. -/
def execVuTwait (core : Nat) (f : VecFields) (s : State) : Host.Outcome State Fault Refusal :=
  .next (vecIssue core 0x60 f (fun v s =>
    let port := f.imm % 4
    match s.portRing (core - 32) port with
    | none => .stop (vecTarget core s)
    | some key =>
      if (s.pring (key / 16) (key % 16)).avail = 0 then .stall { v with wait := some (port, f.d) }
      else
        let (v', s') := twaitTake core port key f.d v s
        .ok v' 1 s') s)
/-- TPOP: the head slot is released; none present, or no ring, faults. -/
def execVuTpop (core : Nat) (f : VecFields) (s : State) : Host.Outcome State Fault Refusal :=
  .next (vecIssue core 0x61 f (fun v s =>
    match s.portRing (core - 32) (f.imm % 4) with
    | none => .stop (vecTarget core s)
    | some key =>
      if (s.pring (key / 16) (key % 16)).avail = 0 then .stop (vecTarget core s)
      else .ok v 1 (popPort (core - 32) (f.imm % 4) key s)) s)
/-- TCOUNT: records present; a port with no ring has none. -/
def execVuTcount (core : Nat) (f : VecFields) (s : State) : Host.Outcome State Fault Refusal :=
  .next (vecIssue core 0x62 f (fun v s =>
    let n := match s.portRing (core - 32) (f.imm % 4) with
      | none => 0
      | some key => (s.pring (key / 16) (key % 16)).avail
    .ok (v.setX f.d n) 1 s) s)

/-! ### Tasks -/

/-- TE_VECTOR (R144): a vector program on a teacher core. -/
def execTeVector (ring : Nat) (s : State) : Host.Outcome State Fault Refusal :=
  .next (vecTask Config.tTeacher ring (s.setting Config.tTeacher (s.ring ring).unitInst 2 0 == 1) s)
/-- SE_VECTOR (R205): a vector program on a student core. -/
def execSeVector (ring : Nat) (s : State) : Host.Outcome State Fault Refusal :=
  .next (vecTask Config.tStudent ring (s.setting Config.tStudent (s.ring ring).unitInst 1 0 == 1) s)

end Sys2Proof.Machine
end

