-- ==== Sys2Proof/Machine/Student.lean ====
section
/-! DEFINITION. Sys2Proof/Machine/Student.lean: the passes of the Student Engine (R184–R191, R203, R204). -/

namespace Sys2Proof.Machine
open Sys2Proof

/-! ### Fields of SE_MATMUL (R203) -/

def sA (d : Bytes) : Nat := bits (field d 9 1) 0 4
def sB (d : Bytes) : Nat := bits (field d 9 1) 4 4
def sK (d : Bytes) : Nat := field d 14 2 + 1
def sFp8 (d : Bytes) : Bool := sA d != 1
/-- A_SCALE, B_SCALE, the group length, OUT_MUL_EN. -/
def sAScale (d : Bytes) : Nat := bits (field d 16 1) 0 2
def sBScale (d : Bytes) : Bool := bitOf (field d 16 1) 2
def sGroup (d : Bytes) : Nat := 32 * 2 ^ bits (field d 16 1) 3 2
def sMulEn (d : Bytes) : Bool := bitOf (field d 16 1) 5
/-- Scales are applied per group of G. -/
def sGrouped (d : Bytes) : Bool := sAScale d == 1 || sBScale d
def sScaled (d : Bytes) : Bool := sGrouped d || sAScale d == 2

/-- Geometry of the accumulators. -/
def sePass (d : Bytes) (arrays : List Nat) : Pass :=
  { arrays, rows := field d 12 1, cols := field d 13 1, start := tStart d, hold := tHold d, outAt := 64 * field d 24 3
    outStride := 64 * field d 40 2, outArray := 64 * field d 44 2, outFmt := tOutFmt d, loadAt := 64 * field d 27 3
    loadFmt := bits (field d 11 1) 4 4, outMul := if sMulEn d then some (field d 48 4) else none }

/-- The runs of A that rows of array `a` take, and of B (R184). -/
def sARuns (d : Bytes) (a rows : Nat) : List (Nat × Nat) :=
  let e := fmtBytes (sA d)
  let base := 64 * field d 18 3 + a * (64 * field d 42 2)
  let st := 64 * field d 36 2
  if bitOf (field d 11 1) 0 then (List.range (sK d)).map fun k => (base + k * st, rows * e)
  else (List.range rows).map fun r => (base + r * st, sK d * e)
def sBRuns (d : Bytes) (cols : Nat) : List (Nat × Nat) :=
  let e := fmtBytes (sB d)
  let base := 64 * field d 21 3
  let st := 64 * field d 38 2
  if bitOf (field d 11 1) 1 then (List.range cols).map fun j => (base + j * st, sK d * e)
  else (List.range (sK d)).map fun k => (base + k * st, cols * e)
/-- Row `r` of array `a` of A, and column `j` of B, along the reduction. -/
def sARow (d : Bytes) (core a r : Nat) (s : State) : List Nat :=
  let e := fmtBytes (sA d)
  let base := 64 * field d 18 3 + a * (64 * field d 42 2)
  let st := 64 * field d 36 2
  if bitOf (field d 11 1) 0 then s.sramStrided core (base + r * e) st (sA d) (sK d)
  else s.sramElems core (base + r * st) (sA d) (sK d)
def sBCol (d : Bytes) (core j : Nat) (s : State) : List Nat :=
  let e := fmtBytes (sB d)
  let base := 64 * field d 21 3
  let st := 64 * field d 38 2
  if bitOf (field d 11 1) 1 then s.sramElems core (base + j * st) (sB d) (sK d)
  else s.sramStrided core (base + j * e) st (sB d) (sK d)

/-! ### Scales (R186) -/

/-- Groups of the reduction. -/
def sGroups (d : Bytes) : Nat := if sGrouped d then sK d / sGroup d else 1
/-- Address of the A scale of row `r` (128 a + row) and group `n`, and of the B scale of column `j`. -/
def sAScaleAt (d : Bytes) (r n : Nat) : Nat :=
  64 * field d 30 3 + (if sAScale d = 1 then r * field d 46 2 + n else r)
def sBScaleAt (d : Bytes) (j n : Nat) : Nat := 64 * field d 33 3 + 128 * n + j
/-- The scale bytes that a pass reads. -/
def sScaleRuns (d : Bytes) (p : Pass) : List (Nat × Nat) :=
  (if sAScale d = 0 then []
    else p.arrays.flatMap fun a => (List.range p.rows).map fun r =>
      (sAScaleAt d (128 * a + r) 0, if sAScale d = 1 then sGroups d else 1))
  ++ (if sBScale d then (List.range (sGroups d)).map fun n => (sBScaleAt d 0 n, p.cols) else [])

/-- One output element (R187). -/
def sElement (d : Bytes) (core : Nat) (s : State) (r : Nat) (as bs : List Nat) (j acc : Nat) : Nat :=
  if sScaled d then
    let g := if sGrouped d then sGroup d else sK d
    let ga := groupsOf g (sGroups d) as
    let gb := groupsOf g (sGroups d) bs
    scaledAcc acc ((List.range (sGroups d)).map fun n =>
      (nth ga n [], nth gb n [],
       (if sAScale d = 0 then 127 else leNat (s.sramRead core (sAScaleAt d r n) 1)),
       (if sBScale d then leNat (s.sramRead core (sBScaleAt d j n) 1) else 127)))
  else macAcc acc as bs

/-- The accumulators of a problem. -/
def seAccs (d : Bytes) (core : Nat) (p : Pass) (held : List (List (List Nat))) (s : State) : List (List (List Nat)) :=
  p.table fun x i j =>
    let a := nth p.arrays x 0
    sElement d core s (128 * a + i) (sARow d core a i s) (sBCol d core j s) j (p.initial s core held x i j)
/-- Everything that a problem reads. -/
def seReads (d : Bytes) (p : Pass) : List (Nat × Nat) :=
  (p.arrays.flatMap fun a => sARuns d a p.rows) ++ sBRuns d p.cols ++ sScaleRuns d p ++ p.loadsAt

/-- Field ranges (R203). -/
def seFields (d : Bytes) (maxRows : Nat) (arrays : List Nat) : Bool :=
  !arrays.isEmpty && tStart d != 3 && decide (1 ≤ field d 12 1 ∧ field d 12 1 ≤ maxRows)
    && decide (1 ≤ field d 13 1 ∧ field d 13 1 ≤ maxRows)
    && (if sFp8 d then sAScale d != 3 && bits (field d 16 1) 3 2 != 3 && (!sGrouped d || sK d % sGroup d == 0)
        else field d 16 1 % 32 == 0)
    && (!sMulEn d || isPosNormal (field d 48 4))

/-- Entry cycles (R185). -/
def sEntry (d : Bytes) : Nat := if sFp8 d then cdiv (sK d) 2 else sK d
def sMacs (d : Bytes) (p : Pass) : Nat := p.arrays.length * p.rows * p.cols * sK d

/-- What SE_MATMUL computes. -/
def sePlan (core : Nat) (d : Bytes) (held : List (List (List Nat))) (s : State) : Plan :=
  let p := sePass d (maskList 2 (field d 8 1))
  { parts := [(p, seAccs d core p held s)], staged := [], reads := seReads d p, mode := if sFp8 d then 1 else 0
    cycles := if p.hold then none else some (sEntry d + p.rows + 130), gated := 0
    counts := [(if sFp8 d then 2 else 1, sMacs d p), (3, 1)] }

/-! ### Packing mode (R191, R204) -/

/-- What SE_PANE_PASS computes. -/
def sePanePlan (core : Nat) (d : Bytes) (s : State) : Plan :=
  let arrays := maskList 2 (field d 8 1)
  let quads := (paneQuads core d s).map fun q => (q.2, sePass q.2 arrays)
  { parts := quads.map fun q => (q.2, seAccs q.1 core q.2 [] s)
    staged := []
    reads := (paneQuads core d s).map (fun q => (64 * (field d 12 3 + q.1), 64)) ++ quads.flatMap fun q => seReads q.1 q.2
    mode := 2, cycles := none, gated := 0
    counts := [(1, ((quads.filter fun q => !sFp8 q.1).map fun q => sMacs q.1 q.2).sum),
      (2, ((quads.filter fun q => sFp8 q.1).map fun q => sMacs q.1 q.2).sum), (3, 1)] }

/-- A table entry keeps the rules of R150 and R203. -/
def sePaneEntryOk (arrays : List Nat) (e : Bytes) : Bool :=
  (e.take 9).all (· == 0) && field e 56 8 == 0 && !bodyReserved shMatmul e
    && seFields e 64 arrays && tStart e != 1 && !tHold e

/-! ### Taking up a pass -/

/-- Checks of a student pass in the order of R146. [DEDUCED, log 50] -/
def seCheck (core : Nat) (d : Bytes) (s : State) (pl : Plan) : Option Nat :=
  let arrays := maskList 2 (field d 8 1)
  let pane := dOp d == 0x12
  let fields := if pane then !arrays.isEmpty && field d 10 1 != 0 else seFields d 128 arrays
  let table := if pane then (paneQuads core d s).map fun q => (64 * (field d 12 3 + q.1), 64) else []
  if !fields then some 0x108
  else if !allReadable core table then some 0x10D
  else if pane && !(paneQuads core d s).all (fun q => sePaneEntryOk arrays q.2) then some 0x108
  else if !allReadable core pl.reads || !pl.parts.all (fun p => s.allWritable core p.1.writesAt) then some 0x10D
  else none

/-- Fields that a chain repeats (R147, R188). -/
def seChain : ChainFields := [(8, 1), (9, 1), (11, 1), (12, 2), (16, 1), (24, 3), (40, 2), (44, 2)]

/-- A pass of opcode `op` at the head of ring `j` is taken up. -/
def sePassTake (j op : Nat) (plan : Nat → Bytes → List (List (List Nat)) → State → Plan) (s : State) : State :=
  match s.headOf j op with
  | none => s
  | some (ix, d) =>
    let r := s.ring j
    let k := 32 + r.unitInst
    if r.unitType ≠ Config.tStudent || !s.mayRun j 1 (s.setting Config.tStudent r.unitInst 1 0 == 1) (fun _ => true)
        || (s.core k).drain.isSome || (s.core k).clearing then s
    else if s.paneFmtBad Config.tStudent k d then refuse j ix d 0x108 s
    else
      let pl := plan k d (s.heldAcc k) s
      match seCheck k d s pl with
      | some st => failArg j ix d st s
      | none =>
        if chainBreaks (s.core k).chain j d (if op = 0x12 then 0 else tStart d) (op != 0x12 && tHold d) seChain then
          coreAbort j ix d 0x113 4 3 none 0 s
        else match s.firstMarked k pl.reads with
          | some m => markedAbort j ix k d m s
          | none => runPass j ix k d pl (op != 0x12 && tHold d) s

/-- SE_MATMUL (R203): C = A × B in bf16 or fp8. -/
def execSeMatmul (ring : Nat) (s : State) : Host.Outcome State Fault Refusal := .next (sePassTake ring 0x10 sePlan s)
/-- SE_PANE_PASS (R191, R204): four quadrant problems. -/
def execSePanePass (ring : Nat) (s : State) : Host.Outcome State Fault Refusal :=
  .next (sePassTake ring 0x12 (fun k d _ s => sePanePlan k d s) s)

end Sys2Proof.Machine
end

