-- ==== Sys2Proof/Machine/KdLoss.lean ====
section
/-! DEFINITION. Sys2Proof/Machine/KdLoss.lean: SE_KD_LOSS, and the wake of programs that wait at a target port (R197, R199,
R200, R281–R284). -/

namespace Sys2Proof.Machine
open Sys2Proof

/-- What SE_KD_LOSS uses of a soft-target record (R266, R267): flags, temperature, tail, and the VALID entries as
(index, probability) in rank order. -/
structure KdRec where
  flags : Nat
  temp  : Nat
  tail  : Nat
  ents  : List (Nat × Nat)
deriving DecidableEq, Repr

/-- A record read from its slot. -/
def kdParse (bs : Bytes) : KdRec :=
  { flags := field bs 16 1, temp := field bs 20 4, tail := field bs 28 4
    ents := (List.range (min (field bs 14 2) 256)).map fun j => (field bs (32 + 8 * j) 3, field bs (36 + 8 * j) 4) }

/-- 2^−126, the floor of R281 and R282. -/
def kdFloor : Nat := 0x00800000
/-- max(x, 2^−126), and whether it changed x. -/
def floorAt (x : Nat) : Nat × Bool := (fMax x kdFloor, fMax x kdFloor != x)

/-- Softmax parts of a logits row at 1/temperature `it`: maximum, exponentials, their sum's logarithm and reciprocal. -/
structure SoftRow where
  m   : Nat
  e   : List Nat
  lnz : Nat
  r   : Nat
deriving DecidableEq, Repr

/-- The first lines of the pseudocode of R284. -/
def softRow (z : List Nat) (it : Nat) : SoftRow :=
  let y := z.map fun x => fMul x it
  let m := y.foldl fMax 0xFF800000
  let e := y.map fun x => fExp (fSub x m)
  let zs := vsum e
  { m, e, lnz := fLn zs, r := fRcp zs }

/-- Logit, and exponential, of a record index; an index outside the vocabulary has a free logit. -/
def logitAt (z : List Nat) (i : Nat) : Nat := if i < z.length then nth z i 0 else Config.kdOutside i z.length % 2 ^ 32
def expAt (z : List Nat) (w : SoftRow) (it i : Nat) : Nat :=
  if i < z.length then nth w.e i 0 else fExp (fSub (fMul (logitAt z i) it) w.m)

/-- Loss, gradient by vocabulary index, and whether a floor changed a value, of one term. -/
structure KdTerm where
  loss  : Nat
  grad  : List Nat
  floor : Bool
deriving DecidableEq, Repr

/-- Position of a vocabulary index among the entries. -/
def entOf (ents : List (Nat × Nat)) (i : Nat) : Option Nat := ents.findIdx? fun x => x.1 == i

/-- What both divergences start from: softmax, bucket probabilities in rank order, and the tail bucket. -/
structure KdBase where
  w  : SoftRow
  it : Nat
  qs : List Nat
  qU : Nat
deriving DecidableEq, Repr

def kdBase (z : List Nat) (rec : KdRec) : KdBase :=
  let it := fRcp rec.temp
  let w := softRow z it
  let out := (List.range z.length).map fun i => if (entOf rec.ents i).isSome then 0 else nth w.e i 0
  { w, it, qs := rec.ents.map fun x => fMul (expAt z w it x.1) w.r, qU := fMul (vsum out) w.r }

/-- Forward KL (R281, R284). -/
def kdForward (z : List Nat) (rec : KdRec) (b : KdBase) : KdTerm :=
  let qf := floorAt b.qU
  let p := fAdd (rec.ents.foldl (fun a x => fAdd a x.2) 0) rec.tail
  let l := rec.ents.foldl (fun a x =>
    if x.2 % 2 ^ 31 = 0 then a
    else fAdd a (fMul x.2 (fSub (fLn x.2) (fSub (fSub (fMul (logitAt z x.1) b.it) b.w.m) b.w.lnz)))) 0
  let l := if rec.tail % 2 ^ 31 = 0 then l else fAdd l (fMul rec.tail (fSub (fLn rec.tail) (fLn qf.1)))
  let corr := fSub p (fDiv rec.tail qf.1)
  { loss := fMul (fMul rec.temp rec.temp) l, floor := qf.2
    grad := (List.range z.length).map fun i =>
      let q := fMul (nth b.w.e i 0) b.w.r
      match entOf rec.ents i with
      | some j => fMul rec.temp (fSub (fMul p q) (nth rec.ents j (0, 0)).2)
      | none => fMul (fMul rec.temp q) corr }

/-- Reverse KL (R282, R284): each f_b formed once, R summed in rank order, then U. -/
def kdReverse (z : List Nat) (rec : KdRec) (b : KdBase) : KdTerm :=
  let fb (q p : Nat) : Nat := fSub (fLn (floorAt q).1) (fLn (floorAt p).1)
  let hit (q p : Nat) : Bool := (floorAt q).2 || (floorAt p).2
  let fs := (b.qs.zip rec.ents).map fun x => fb x.1 x.2.2
  let fU := fb b.qU rec.tail
  let r := fAdd ((b.qs.zip fs).foldl (fun a x => fAdd a (fMul x.1 x.2)) 0) (fMul b.qU fU)
  { loss := fMul (fMul rec.temp rec.temp) r
    floor := hit b.qU rec.tail || (b.qs.zip rec.ents).any fun x => hit x.1 x.2.2
    grad := (List.range z.length).map fun i =>
      let q := fMul (nth b.w.e i 0) b.w.r
      let f := match entOf rec.ents i with | some j => nth fs j 0 | none => fU
      fMul (fMul rec.temp q) (fSub f r) }

/-- The hard-label term at temperature 1 (R282). -/
def kdHard (z : List Nat) (label : Nat) : KdTerm :=
  let w := softRow z one32
  { loss := fSub (fAdd w.m w.lnz) (nth z label 0), floor := false
    grad := (List.range z.length).map fun i =>
      let q := fMul (nth w.e i 0) w.r
      if i = label then fSub q one32 else q }

/-- Combine a term with what stands: acc + weight · term, fused (R284). -/
def kdMerge (w : Nat) (t acc : KdTerm) : KdTerm :=
  { loss := fFma w t.loss acc.loss, floor := acc.floor || t.floor
    grad := (t.grad.zip acc.grad).map fun x => fFma w x.1 x.2 }

/-- Loss and gradient of one row (R281–R284): KIND, ALPHA, the hard weight and label if any. -/
def kdRow (z : List Nat) (rec : KdRec) (kind alpha : Nat) (hard : Option (Nat × Nat)) : KdTerm :=
  let zero : KdTerm := { loss := 0, grad := z.map fun _ => 0, floor := false }
  if bitOf rec.flags 5 then zero
  else
    let soft :=
      if bitOf rec.flags 3 then zero
      else
        let b := kdBase z rec
        match kind with
        | 0 => kdForward z rec b
        | 1 => kdReverse z rec b
        | _ =>
          let f := kdForward z rec b
          kdMerge (fSub one32 alpha) (kdReverse z rec b)
            { loss := fMul alpha f.loss, grad := f.grad.map (fMul alpha), floor := f.floor }
    match hard with
    | some (beta, label) => kdMerge beta (kdHard z label) soft
    | none => soft

/-! ### The descriptor -/

def kdPort (d : Bytes) : Nat := field d 10 1 % 4
def kdRows (d : Bytes) : Nat := field d 12 2
def kdVocab (d : Bytes) : Nat := field d 16 4
def kdHardOn (d : Bytes) : Bool := bitOf (field d 8 1) 2
def kdKind (d : Bytes) : Nat := field d 8 1 % 4
def kdLogitAt (d : Bytes) (i : Nat) : Nat := 64 * field d 20 3 + i * (64 * field d 32 2)
def kdGradAt (d : Bytes) (i : Nat) : Nat := 64 * field d 23 3 + i * (64 * field d 34 2)
def kdLabelAt (d : Bytes) (i : Nat) : Nat := 64 * field d 26 3 + 4 * i
def kdLossAt (d : Bytes) (i : Nat) : Nat := 64 * field d 29 3 + 4 * i
def kdLogitFmt (d : Bytes) : Nat := bits (field d 9 1) 0 4
def kdGradFmt (d : Bytes) : Nat := bits (field d 9 1) 4 4

/-- Field ranges (R200). -/
def kdFields (d : Bytes) : Bool :=
  kdKind d != 3 && decide (1 ≤ kdRows d ∧ kdRows d ≤ 4096) && decide (1 ≤ kdVocab d ∧ kdVocab d ≤ 1048576)
    && isPow2 (field d 44 4) && !fNonFinite (field d 48 4) && (kdKind d != 2 || !fNonFinite (field d 36 4))
    && (!kdHardOn d || !fNonFinite (field d 40 4))

/-- Runs read and written. -/
def kdLogits (d : Bytes) : List (Nat × Nat) :=
  (List.range (kdRows d)).map fun i => (kdLogitAt d i, kdVocab d * fmtBytes (kdLogitFmt d))
def kdLabels (d : Bytes) : List (Nat × Nat) := if kdHardOn d then [(kdLabelAt d 0, 4 * kdRows d)] else []
def kdWrites (d : Bytes) : List (Nat × Nat) :=
  (kdLossAt d 0, 4 * kdRows d) :: (List.range (kdRows d)).map fun i => (kdGradAt d i, kdVocab d * fmtBytes (kdGradFmt d))

/-- The checks of R146 and R200. -/
def kdCheck (core : Nat) (d : Bytes) (s : State) : Option Nat :=
  if !kdFields d then some 0x108
  else if !allReadable core (kdLabels d) then some 0x10D
  else if kdHardOn d && (s.firstMarked core (kdLabels d)).isNone && !(elems 4 (kdRows d) (s.sramRead core (kdLabelAt d 0) (4 * kdRows d))).all (· < kdVocab d) then
    some 0x108
  else if !allReadable core (kdLogits d) || !s.allWritable core (kdWrites d) then some 0x10D
  else none

/-- The task ends with a status and REASON. -/
def kdEnd (core status reason : Nat) (bit code : Option Nat) (addr : Nat) (s : State) : State :=
  match (s.core core).kd with
  | none => s
  | some v =>
    let (ty, inst) := coreUnit core
    let r := s.ring v.ring
    let ix := match r.cur with | some c => c.index | none => 0
    let (cyc, s) := s.fresh
    let s := s.updCore core fun c => { c with kd := none }
    let s := match bit with | some b => setErr ty inst b v.ring ix reason s | none => s
    let s := finish v.ring status v.lb (coreDetail reason 5 v.row v.nonfin cyc (min v.floored (2 ^ 64 - 1))) s
    match code with
    | some c =>
      raise { code := c, status := 0x113, flags := 1, ty, inst, ctx := r.ctx, ring := v.ring, index := ix, addr, space := 4 } s
    | none => s

/-- One row against the head record of the port (R199). How often the firmware's program evaluates the SFU for a row is stated nowhere.
[DESIGN CHOICE, log 46] -/
def kdStep (core key : Nat) (d : Bytes) (v : KdState) (s : State) : State :=
  let p := s.pring (key / 16) (key % 16)
  let at_ := p.slotAt p.head
  let logits := (kdLogitAt d v.row, kdVocab d * fmtBytes (kdLogitFmt d))
  match s.firstMarked core ((at_, p.slotBytes) :: logits :: (if kdHardOn d then [(kdLabelAt d v.row, 4)] else [])) with
  | some m => if s.sramUeAt core m.1 m.2 then kdEnd core 0x113 2 (some 0) (some 1) m.1 s else kdEnd core 0x113 3 (some 1) (some 3) m.1 s
  | none =>
    let rd := kdParse (s.sramRead core at_ p.slotBytes)
    let z := s.sramElems core logits.1 (kdLogitFmt d) (kdVocab d)
    let hard := if kdHardOn d then some (field d 40 4, leNat (s.sramRead core (kdLabelAt d v.row) 4)) else none
    let t := kdRow z rd (kdKind d) (field d 36 4) hard
    let g := t.grad.map fun x => narrow (kdGradFmt d) (fMul (fMul x (field d 44 4)) (field d 48 4))
    let s := sramWrite core (kdGradAt d v.row) (g.flatMap (leBytes (fmtBytes (kdGradFmt d)))) s
    let s := sramWrite core (kdLossAt d v.row) (leBytes 4 t.loss) s
    let s := popPort (core - 32) (kdPort d) key (spent Config.tStudent (core - 32) [9] s)
    let s := if t.floor then bump Config.tStudent (core - 32) 13 1 s else s
    let nf := (g.filter fun x => fNonFinite (widen (kdGradFmt d) x)).length + b2n (fNonFinite t.loss)
    s.updCore core fun c => { c with kd := some { v with
      row := v.row + 1, nonfin := v.nonfin + nf, floored := v.floored + b2n t.floor
      lb := v.lb + kdVocab d * fmtBytes (kdGradFmt d) + 4 } }

/-- Rows, as long as records are present. -/
def kdRun (core : Nat) : Nat → State → State
  | 0, s => s
  | n + 1, s =>
    match (s.core core).kd with
    | none => s
    | some v =>
      match (s.ring v.ring).cur with
      | none => s
      | some c =>
        let d := c.desc
        if v.row = kdRows d then kdEnd core 0 0 none none 0 s
        else match s.portRing (core - 32) (kdPort d) with
          | none => kdEnd core 0x10C 5 (some 4) none 0 s
          | some key => if (s.pring (key / 16) (key % 16)).avail = 0 then s else kdRun core n (kdStep core key d v s)

/-- SE_KD_LOSS (R199): the KD loss of ROWS rows, one record each. -/
def execSeKdLoss (ring : Nat) (s : State) : Host.Outcome State Fault Refusal :=
  match s.headOf ring 0x21 with
  | none => .next s
  | some (ix, d) =>
    let r := s.ring ring
    let k := 32 + r.unitInst
    if r.unitType ≠ Config.tStudent || !s.mayRun ring 2 (s.setting Config.tStudent r.unitInst 1 0 == 1) (fun _ => true)
        || (s.core k).vec.isSome || (s.core k).kd.isSome || (s.core k).clearing then .next s
    else match kdCheck k d s with
      | some st => .next (failArg ring ix d st s)
      | none =>
        if s.chainHeld k ring then .next (coreAbort ring ix d 0x113 4 3 none 0 s)
        else match s.firstMarked k (kdLabels d) with
          | some m => .next (markedAbort ring ix k d m s)
          | none =>
            let s := served ring (begin ring ix d s)
            .next (kdRun k (kdRows d + 1) (s.updCore k fun c => { c with
              kd := some { ring, row := 0, nonfin := 0, floored := 0, lb := 0 } }))

/-- TWAIT_WAKE (R197): a record is at the port, and the stalled TWAIT, or the KD loss that waits there, goes on. A port
that has lost its ring ends the task. -/
def execTwaitWake (core : Nat) (s : State) : Host.Outcome State Fault Refusal :=
  if s.isFatal then .next s
  else match (s.core core).vec, (s.core core).kd with
  | some v, _ =>
    (match v.wait with
      | none => .next s
      | some (port, d) =>
        match s.portRing (core - 32) port with
        | none => .next (vecTarget core s)
        | some key =>
          if (s.pring (key / 16) (key % 16)).avail = 0 then .next s
          else
            let (v', s) := twaitTake core port key d v s
            .next (vecNext core v' 1 (spent Config.tStudent (core - 32) [10] s)))
  | none, some v =>
    (match (s.ring v.ring).cur with
      | some c => .next (kdRun core (kdRows c.desc + 1) (spent Config.tStudent (core - 32) [10] s))
      | none => .next s)
  | none, none => .next s

end Sys2Proof.Machine
end

