-- ==== Sys2Proof/Machine/Port.lean ====
section
/-! DEFINITION. Sys2Proof/Machine/Port.lean: beam ports: light, training, acknowledgement, replay (R424–R433). -/

namespace Sys2Proof.Machine
open Sys2Proof

/-- The part's Beam logic has power and firmware, and is not FATAL. -/
def State.beamOn (s : State) (port : Nat) : Bool := s.running && !s.isFatal && s.enabled Config.tPort port

/-- A port changes state: logged, and told to context 0 (R426). -/
def portTo (p st : Nat) (s : State) : State :=
  if (s.port p).st = st then s
  else logPush 0x70 (Config.dieOf Config.tPort p) (leBytes 1 p ++ leBytes 1 st) (s.updPort p fun x => { x with st, since := s.now })

/-- Set an error bit of a port. -/
def portErr (p bit : Nat) (s : State) : State := s.updUnit Config.tPort p fun u => { u with err := Nat.lor u.err (2 ^ bit) }

/-! ### Replay (R431) -/

/-- Resend every unacknowledged flit, with the current ACK. -/
def resendAll (p : Nat) (s : State) : State :=
  let x := s.port p
  let s := x.unacked.foldl (fun a f => portEmit p (flitSeal (splice f 4 (leBytes 2 x.rxExpect ++ [0, 0]))) a) s
  s.updPort p fun y => { y with oldest := s.now, ackSent := if x.unacked.isEmpty then y.ackSent else x.rxExpect }

/-- An ACTIVE port that leaves service holds its unacknowledged and waiting flits for another route (R432, R436). -/
def portHold (p : Nat) (s : State) : State :=
  let x := s.port p
  let s := s.setPort p { x with unacked := [], wait := [] }
  { s with beam := { s.beam with held := s.beam.held ++ ((x.unacked.filter fun f => flitKind f == 1).map fun f => (0, f)) ++ x.wait } }

/-- A port goes DOWN. -/
def portDown (p : Nat) (s : State) : State := bump Config.tPort p 10 1 (portErr p 2 (portTo p 5 (portHold p s)))

/-- One replay and its escalation. -/
def portReplay (p : Nat) (s : State) : State :=
  let x := s.port p
  let s := bump Config.tPort p 7 1 s
  if x.retry + 1 < 4 then resendAll p (s.setPort p { x with retry := x.retry + 1 })
  else if x.retrained then portDown p (s.setPort p { x with retry := 4 })
  else bump Config.tPort p 9 1 (portErr p 1 (portTo p 4 (s.setPort p { x with retry := 4 })))

/-! ### Light and training -/

/-- PORT_LIGHT_DETECT (R426): input and received light are present. -/
def execPortLightDetect (port : Nat) (s : State) : Host.Outcome State Fault Refusal :=
  let x := s.port port
  if !s.beamOn port then .next s
  else
    let s := s.setPort port { x with lightIn := true, lightRx := true }
    if x.st = 1 || x.st = 6 then .next (portTo port 2 s) else .next s

/-- A port comes into ACTIVE from training: numbering starts at 0 and credits are initialised (R429). -/
def portUp (p : Nat) (s : State) : State :=
  portTo p 3 (s.updPort p fun x => { x with
    txNext := 0, txAcked := 0, rxExpect := 0, unacked := [], retry := 0, retrained := false, asked := false, enc := false
    ackSent := 0, eqGen := s.setting Config.tPort p 2 0, owed := []
    credits := (List.range 6).flatMap fun c => (List.range 4).map fun h => (c * 16 + h, Config.flitCredits) })

/-- TRAINING_COMPLETE (R426, R427, R434): the handshake gives the peer's system index, port and wavelengths, and whether a peer
with this device's own index is another part. [DESIGN CHOICE, log 5] -/
def execTrainingComplete (port peer pport waves : Nat) (twin : Bool) (s : State) : Host.Outcome State Fault Refusal :=
  if (s.port port).st ≠ 2 || !s.beamOn port then .next s
  else
    let s := s.updPort port fun x => { x with
      waves := waves % 256, peer := peer % 1024, peerPort := pport % 64, peerOk := true, twin := twin && peer % 64 == s.sys.podDev
        && peer / 64 == s.sys.pod }
    if waves ≠ 255 then .next (portDown port s)
    else if peer / 64 ≠ s.sys.pod || peer % 64 = s.sys.podDev then .next (portErr port 6 (portTo port 7 s))
    else .next (portUp port s)

/-- TRAINING_TIMEOUT (R432): no handshake within 100 ms. [DESIGN CHOICE, log 7] -/
def execTrainingTimeout (port : Nat) (s : State) : Host.Outcome State Fault Refusal :=
  if (s.port port).st ≠ 2 || !s.beamOn port then .next s
  else .next (portErr port 4 (portTo port 6 (atLeast ((s.port port).since + 100 * Config.ms) s)))

/-- LOSS_OF_LIGHT (R432): received power stays below its threshold for 10 µs. -/
def execLossOfLight (port : Nat) (s : State) : Host.Outcome State Fault Refusal :=
  let x := s.port port
  if !s.beamOn port then .next s
  else
    let s := s.setPort port { x with lightRx := false }
    if x.st = 3 || x.st = 4 then .next (portErr port 3 (portTo port 1 (portHold port s)))
    else if x.st = 7 || x.st = 2 then .next (portTo port 1 s)
    else if x.st = 6 then .next (portTo port 2 s)
    else .next s

/-- LASER_INPUT_LOW (R425): a port without input light is handled as one that has lost its light. -/
def execLaserInputLow (port : Nat) (s : State) : Host.Outcome State Fault Refusal :=
  let x := s.port port
  if !s.beamOn port then .next s
  else
    let s := portErr port 5 (s.setPort port { x with lightIn := false })
    if x.st = 3 || x.st = 4 then .next (portErr port 3 (portTo port 1 (portHold port s)))
    else if x.st = 2 || x.st = 6 || x.st = 7 then .next (portTo port 1 s)
    else .next s

/-- RETRAIN_COMPLETE (R431): the lanes are equalised again, or not. -/
def execRetrainComplete (port : Nat) (ok : Bool) (s : State) : Host.Outcome State Fault Refusal :=
  if (s.port port).st ≠ 4 || !s.beamOn port then .next s
  else if ok then
    .next (portGo port (resendAll port (portTo port 3 (s.updPort port fun x => { x with
      retry := 0, retrained := true, eqGen := s.setting Config.tPort port 2 0 }))))
  else .next (portDown port s)

/-- DOWN_RETRY_TIMER (R426): firmware trains a DOWN port again every second. -/
def execDownRetryTimer (port : Nat) (s : State) : Host.Outcome State Fault Refusal :=
  if (s.port port).st ≠ 5 || !s.beamOn port then .next s
  else .next (portTo port 2 (atLeast ((s.port port).since + Config.sec) s))

/-! ### Traffic -/

/-- A flit's ACK (R430): `none` for a violation, else the port with what it acknowledges freed. -/
def takeAck (x : Port) (ack now : Nat) : Option Port :=
  let d := (ack + 65536 - x.txAcked) % 65536
  if d > (x.txNext + 65536 - x.txAcked) % 65536 then none
  else if d = 0 then some x
  else some { x with txAcked := ack, unacked := x.unacked.drop d, retry := 0, retrained := false, oldest := now }

/-- A flit's CREDIT. -/
def takeCredit (x : Port) (f : Bytes) : Port :=
  let k := bits (field f 6 1) 0 4 * 16 + bits (field f 6 1) 4 4
  if field f 7 1 = 0 then x else { x with credits := SMap.upd 0 x.credits k (· + field f 7 1) }

/-- REPLAY_REQ (R431). -/
def execReplayReq (port : Nat) (s : State) : Host.Outcome State Fault Refusal :=
  if (s.port port).st ≠ 3 || !s.beamOn port then .next s else .next (portReplay port s)

/-- RETRANSMIT_TIMER_EXPIRY (R431): 8 µs without an advance of ACK. [DESIGN CHOICE, log 7] -/
def execRetransmitTimerExpiry (port : Nat) (s : State) : Host.Outcome State Fault Refusal :=
  let x := s.port port
  if x.st ≠ 3 || x.unacked.isEmpty || !s.beamOn port then .next s
  else .next (portReplay port (bump Config.tPort port 8 1 (atLeast (x.oldest + 8 * Config.us) s)))

/-- NULL_FLIT_TIMER (R429): at least one flit every microsecond. -/
def execNullFlitTimer (port : Nat) (s : State) : Host.Outcome State Fault Refusal :=
  if (s.port port).st ≠ 3 || !s.beamOn port then .next s
  else .next (sendNull port (atLeast ((s.port port).lastTx + Config.us) s))

end Sys2Proof.Machine
end

