-- ==== Sys2Proof/Machine/Cfg.lean ====
section
/-! DEFINITION. Sys2Proof/Machine/Cfg.lean: configuration transactions (R90–R96, R595) and the queue in which Loupe's re-plans
stand with them (R544). -/

namespace Sys2Proof.Machine
open Sys2Proof

/-! ### Transactions -/

/-- The open transaction of a context. -/
def State.txn (s : State) (c : Nat) : Option Txn := s.cfg.txns.find? fun t => t.ctx == c
def setTxn (t : Txn) (s : State) : State :=
  { s with cfg := { s.cfg with txns := s.cfg.txns.filter (fun x => x.ctx != t.ctx) ++ [t] } }
def dropTxn (c : Nat) (s : State) : State :=
  { s with cfg := { s.cfg with txns := s.cfg.txns.filter fun x => x.ctx != c } }
/-- The transaction whose commit is in progress (R93). -/
def State.cfgFront (s : State) : Option Txn := match s.cfg.queue with | c :: _ => s.txn c | [] => none

/-- The next transaction id of a context (R90). -/
def nextTxnId (c count : Nat) : Nat := c * 2 ^ 26 + (count % (2 ^ 26 - 1) + 1)

/-- Hold or release the affected instances. -/
def setHolds (items : List CfgItem) (v : Bool) (s : State) : State :=
  (affected items).foldl (fun s u => s.updUnit u.1 u.2 fun x => { x with hold := v }) s

/-- The lowest of the affected instances that rejected the items when they came; and the lowest that does not hold yet. -/
def Txn.firstReject (t : Txn) : Option (Nat × Nat) := t.rejected.head?
def State.firstBusy (s : State) (t : Txn) : Option (Nat × Nat) := (affected t.items).find? fun u => !s.quiet u.1 u.2

/-- The commit at the front of the queue begins: its items go to the affected instances, each of which rejects them or accepts them as it
stands then, and holds at its next quiescent boundary (R93 step 2). [DEDUCED, log 31] -/
def cfgStart (s : State) : State :=
  match s.cfgFront with
  | some t => setHolds t.items true (setTxn { t with
      since := s.now, rejected := (affected t.items).filter fun u => s.rejects t.ctx t.items u.1 u.2 } s)
  | none => s

/-- A transaction of Loupe's re-plan enters the queue when context 0 has none open (R544). [DEDUCED, log 31] -/
def planKick (s : State) : State :=
  match s.loupe.planTodo with
  | items :: _ =>
    if s.loupe.planRetry ≠ 0 || (s.txn 0).isSome || !s.running then s
    else
      let id := nextTxnId 0 (s.ctx 0).txnCount
      let t : Txn := { ctx := 0, id, st := 2, items := items.map fun i => ⟨i.1, i.2.1, i.2.2.1, i.2.2.2⟩, start := s.now, op := none
                       mailbox := 0xFFFF, since := s.now, left := 1000, rejected := [] }
      let s := setTxn t (s.updCtx 0 fun x => { x with txnCount := x.txnCount + 1 })
      let first := s.cfg.queue.isEmpty
      let s := { s with cfg := { s.cfg with queue := s.cfg.queue ++ [0] } }
      if first then cfgStart s else s
  | [] => s

/-- One item takes effect; a port's enable setting also moves the port (R426, R448). -/
def applyItem (i : CfgItem) (s : State) : State :=
  let s := s.updUnit i.ty i.inst fun u => { u with sets := SMap.set none u.sets i.setting (some i.value) }
  if i.ty = Config.tPort && i.setting = 1 then
    let st := (s.port i.inst).st
    if i.value = 0 then (if st = 0 then s else portTo i.inst 0 (if st = 3 || st = 4 then portHold i.inst s else s))
    else if st = 0 then portTo i.inst 1 s else s
  else s

/-- A re-plan's transaction has ended (R544). -/
def planEnd (status : Nat) (s : State) : State :=
  if status = 0 then
    let rest := s.loupe.planTodo.drop 1
    let s := bump Config.tLoupe 0 10 1 { s with loupe := { s.loupe with
      planTodo := rest
      planned := (s.loupe.planTodo.headD []).foldl (fun l i => l.filter (fun x => !(x.1 == i.1 && x.2.1 == i.2.1 && x.2.2.1 == i.2.2.1)) ++ [i])
        s.loupe.planned } }
    if rest.isEmpty then
      logPush 0x30 255 [] { s with loupe := { s.loupe with
        plans := satAdd 32 s.loupe.plans 1, planAt := s.now, planLate := false
        planDue := s.now + s.valueOf Config.tLoupe 0 4 * 3600 * Config.sec } }
    else s
  else { s with loupe := { s.loupe with planRetry := s.now + 600 * Config.sec } }

/-- The commit in progress ends with a status: on OK every item is applied and the tick recorded; holds are released. The
number of settings applied comes with the state. [DEDUCED, log 31] -/
def cfgClose (status : Nat) (s : State) : Nat × State :=
  match s.cfgFront with
  | none => (0, s)
  | some t =>
    let s := if status = 0 then t.items.foldl (fun s i => applyItem i s) s else s
    let s := dropTxn t.ctx (setHolds t.items false s)
    let s := (affected t.items).foldl (fun s u => if u.1 = Config.tPort then portGo u.2 s else s) s
    (if status = 0 then t.items.length else 0,
     { s with cfg := { s.cfg with
        queue := s.cfg.queue.drop 1, lastId := t.id, lastStatus := status, lastCtx := t.ctx
        commits := if status = 0 then (s.cfg.commits + 1) % 2 ^ 32 else s.cfg.commits } })

/-- What CFG_COMMIT answers on OK. -/
def cfgAnswer (now n : Nat) : Bytes := leBytes 8 now ++ leBytes 4 n
/-- DETAIL that names an instance (R76). -/
def unitDetail (u : Nat × Nat) : Nat := u.1 * 65536 + u.2

/-- The commit in progress ends and its command completes, as its event record or in its mailbox. -/
def cfgEnd (status detail : Nat) (s : State) : State :=
  match s.cfgFront with
  | none => s
  | some t =>
    let (n, s) := cfgClose status s
    let r := if status = 0 then cfgAnswer s.now n else []
    let s := match t.op with
      | some h => finishOp t.ctx h status detail r s
      | none => if t.mailbox = 0xFFFF then planEnd status s else completeHeld t.mailbox status detail r s
    planKick (cfgStart s)

/-! ### Commands (R82 group 0x01) -/

/-- CFG_BEGIN (R90). -/
def specCfgBegin : CmdSpec where
  opcode := 0x0100
  access := 0
  p := false
  len := fixed 0
  rsv := noRsv
  resp := respOf 4
  run := fun i _ s =>
    match s.txn i.ctx with
    | some t => .fail eState t.id
    | none =>
      let id := nextTxnId i.ctx (s.ctx i.ctx).txnCount
      .ok (leBytes 4 id) (setTxn { ctx := i.ctx, id, st := 1, items := [], start := s.now, op := none, mailbox := i.mb, since := 0
                                   left := 0, rejected := [] }
        (s.updCtx i.ctx fun x => { x with txnCount := x.txnCount + 1 }))

def execCfgBegin (q : Request) (s : State) : Host.Outcome State Fault Refusal := submit specCfgBegin q s

/-- The permission check of a transaction id (R95). -/
def txnPerm (c id : Nat) : Option (Nat × Nat) := if id / 2 ^ 26 ≠ c then some (ePermission, 0) else none
/-- The handle check of a transaction id (R95): the transaction, or the failing status. -/
def txnFind (c id : Nat) (s : State) : Except (Nat × Nat) Txn :=
  match s.txn c with
  | some t => if t.id = id then .ok t else .error (if s.cfg.expired.contains id then (eTxnExpired, id) else (eBadHandle, 0))
  | none => .error (if s.cfg.expired.contains id then (eTxnExpired, id) else (eBadHandle, 0))

/-- The k-th item of a CFG_SET payload. -/
def itemAt (p : Bytes) (o : Nat) : CfgItem := { ty := field p o 2, inst := field p (o + 2) 2, setting := field p (o + 4) 2, value := field p (o + 8) 8 }

/-- Instances that an item names: itself, or with 0xFFFF every one that the context may configure now (R92). -/
def itemInsts (c : Nat) (i : CfgItem) (s : State) : List Nat :=
  if i.inst = 0xFFFF then
    (List.range (Config.instances i.ty)).filter fun k => s.enabled i.ty k && s.maySet c i.ty k i.setting
  else [i.inst]

/-- An item that the context has no right to. -/
def itemPerm (c : Nat) (i : CfgItem) (s : State) : Bool :=
  (settingInfo i.ty i.setting).isSome &&
  (if i.inst = 0xFFFF then (itemInsts c i s).isEmpty else s.enabled i.ty i.inst && !s.maySet c i.ty i.inst i.setting)

/-- Offset within an item of the first field out of range. -/
def itemArg (i : CfgItem) (value : Bool) (s : State) : Option Nat :=
  if Config.instances i.ty = 0 then some 0
  else if i.inst ≠ 0xFFFF && (if value then !s.enabled i.ty i.inst else decide (Config.instances i.ty ≤ i.inst)) then some 2
  else if (settingInfo i.ty i.setting).isNone then some 4
  else if value && !settingOk i.ty i.setting i.value then some 8
  else none

/-- Stage one item for each instance; a later item replaces an earlier one for the same setting (R92). [DEDUCED, log 31] -/
def stageItem (items : List CfgItem) (i : CfgItem) : List CfgItem :=
  items.filter (fun x => !(x.ty == i.ty && x.inst == i.inst && x.setting == i.setting)) ++ [i]

/-- CFG_SET (R91, R92, R95). -/
def specCfgSet : CmdSpec where
  opcode := 0x0101
  access := 0
  p := false
  len := fun p => some (8 + 16 * field p 4 4)
  rsv := fun p => (List.range (field p 4 4)).map fun k => (8 + 16 * k + 6, 2)
  resp := respOf 4
  run := fun i p s =>
    let n := field p 4 4
    let items := (List.range n).map fun k => itemAt p (8 + 16 * k)
    match txnPerm i.ctx (field p 0 4) with
    | some (st, d) => .fail st d
    | none =>
      match items.findIdx? fun x => itemPerm i.ctx x s with
      | some k => .fail ePermission (8 + 16 * k)
      | none =>
        match txnFind i.ctx (field p 0 4) s with
        | .error e => .fail e.1 e.2
        | .ok t =>
          if n = 0 || n > 125 then .fail eBadArgument 4
          else match items.findIdx? fun x => (itemArg x true s).isSome with
            | some k => .fail eBadArgument (8 + 16 * k + ((itemArg (itemAt p (8 + 16 * k)) true s).getD 0))
            | none =>
              let all := items.flatMap fun x => (itemInsts i.ctx x s).map fun k => { x with inst := k }
              let staged := all.foldl stageItem t.items
              if staged.length > 1024 then .fail eQuota 0xFFFFFFFF
              else if t.st ≠ 1 then .fail eState 2
              else .ok (leBytes 4 staged.length) (setTxn { t with items := staged } s)

def execCfgSet (q : Request) (s : State) : Host.Outcome State Fault Refusal := submit specCfgSet q s

/-- CFG_COMMIT (R93, R95). It completes in the mailbox when it is decided at once; otherwise it is PENDING, or its mailbox stays
BUSY until CFG_COMMIT_ALL_HOLD, CFG_COMMIT_REJECT or CFG_QUIESCE_TIMEOUT decides it. -/
def specCfgCommit : CmdSpec where
  opcode := 0x0102
  access := 0
  p := true
  len := fixed 4
  rsv := noRsv
  resp := respOf 12
  run := fun i p s =>
    match txnPerm i.ctx (field p 0 4) with
    | some (st, d) => .fail st d
    | none =>
      match txnFind i.ctx (field p 0 4) s with
      | .error e => .fail e.1 e.2
      | .ok t =>
        if t.st ≠ 1 then .fail eState 2
        else
          let first := s.cfg.queue.isEmpty
          let t := { t with st := 2, op := (if i.defer then some i.handle else none), mailbox := i.mb
                            left := (t.start + 10 * Config.sec - s.now) / (10 * Config.ms) }
          let s := setTxn t { s with cfg := { s.cfg with queue := s.cfg.queue ++ [i.ctx] } }
          let s := if first then cfgStart s else s
          if i.defer then .pend s
          else if !first then .hold s
          else match ((s.cfgFront).bind Txn.firstReject), s.firstBusy t with
            | some u, _ => .failWith eRejected (unitDetail u) (planKick (cfgStart (cfgClose eRejected s).2))
            | none, some _ => .hold s
            | none, none =>
              let (n, s) := cfgClose 0 s
              .ok (cfgAnswer s.now n) (planKick (cfgStart s))

def execCfgCommit (q : Request) (s : State) : Host.Outcome State Fault Refusal := submit specCfgCommit q s

/-- CFG_ROLLBACK (R95). -/
def specCfgRollback : CmdSpec where
  opcode := 0x0103
  access := 0
  p := false
  len := fixed 4
  rsv := noRsv
  resp := respOf 0
  run := fun i p s =>
    match txnPerm i.ctx (field p 0 4) with
    | some (st, d) => .fail st d
    | none =>
      match txnFind i.ctx (field p 0 4) s with
      | .error e => .fail e.1 e.2
      | .ok t => if t.st ≠ 1 then .fail eState 2 else .ok [] (planKick (dropTxn i.ctx s))

def execCfgRollback (q : Request) (s : State) : Host.Outcome State Fault Refusal := submit specCfgRollback q s

/-- CFG_QUERY (R595). -/
def specCfgQuery : CmdSpec where
  opcode := 0x0104
  access := 0
  p := false
  len := fixed 16
  rsv := rsvAt [(6, 10)]
  resp := respOf 8
  run := fun _ p s =>
    let i := itemAt p 0
    if i.inst = 0xFFFF then .fail eBadArgument 2
    else match itemArg i false s with
      | some o => .fail eBadArgument o
      | none => .ok (leBytes 8 (s.valueOf i.ty i.inst i.setting)) s

def execCfgQuery (q : Request) (s : State) : Host.Outcome State Fault Refusal := submit specCfgQuery q s

/-! ### Events of a commit -/

/-- CFG_COMMIT_ALL_HOLD (R93 step 5). -/
def execCfgCommitAllHold (s : State) : Host.Outcome State Fault Refusal :=
  match s.cfgFront with
  | some t =>
    if s.isFatal || t.firstReject.isSome || (s.firstBusy t).isSome then .next s else .next (cfgEnd 0 0 s)
  | none => .next s

/-- CFG_COMMIT_REJECT (R93 step 3): this instance is the first to reject. -/
def execCfgCommitReject (ty inst : Nat) (s : State) : Host.Outcome State Fault Refusal :=
  match s.cfgFront with
  | some t =>
    if s.isFatal || !t.rejected.contains (ty, inst) then .next s
    else .next (cfgEnd eRejected (unitDetail (ty, inst)) s)
  | none => .next s

/-- CFG_QUIESCE_TIMEOUT (R93 step 4): 100 ms have passed and some instance has not held. [DESIGN CHOICE, log 7] -/
def execCfgQuiesceTimeout (s : State) : Host.Outcome State Fault Refusal :=
  match s.cfgFront with
  | some t =>
    if s.isFatal || t.firstReject.isSome then .next s
    else match s.firstBusy t with
      | some u => .next (cfgEnd eNotQuiescent (unitDetail u) (atLeast (t.since + 100 * Config.ms) s))
      | none => .next s
  | none => .next s

/-- CFG_TXN_TIMEOUT (R95): 10 s after CFG_BEGIN a transaction that is not committed is rolled back. -/
def execCfgTxnTimeout (ctx : Nat) (s : State) : Host.Outcome State Fault Refusal :=
  match s.txn ctx with
  | some t =>
    if t.st ≠ 1 || s.isFatal then .next s
    else
      let s := dropTxn ctx (atLeast (t.start + 10 * Config.sec) s)
      .next (planKick { s with cfg := { s.cfg with expired := s.cfg.expired ++ [t.id] } })
  | none => .next s

end Sys2Proof.Machine
end

