-- ==== Sys2Proof/Machine/Store.lean ====
section
/-! DEFINITION. Sys2Proof/Machine/Store.lean: the Weight Store's controllers: page reads and their error steps, programs,
erases, relocation, scrub, die failure and metered SLC writes (R361–R389). -/

namespace Sys2Proof.Machine
open Sys2Proof

/-! ### Settings (R387) -/
def State.storeSet (s : State) (c n : Nat) : Nat := s.valueOf Config.tStore c n

/-- A counter of a controller (R389). -/
def storeCnt (c n k : Nat) (s : State) : State := if k = 0 then s else bump Config.tStore c n k s
/-- An error bit of a controller other than POISON. -/
def storeErr (c bit : Nat) (s : State) : State :=
  s.updUnit Config.tStore c fun u => { u with err := Nat.lor u.err (2 ^ bit) }

/-- The controller's dies and metadata are in service: it has begun its boot stages and its stack has not failed. -/
def Ctl.live (c : Ctl) : Bool := decide (1 ≤ c.st ∧ c.st ≤ 4)

/-! ### Read disturb and the relocation queue (R372, R373) -/

/-- Page reads at which a block is queued, and at which it is OVERDUE. -/
def State.relocAt (s : State) (c k : Nat) : Nat := s.storeSet c 1 * s.storeSet c 2 * (s.ctl c).pagesPer k / 100
def State.overdueAt (s : State) (c k : Nat) : Nat := s.storeSet c 1 * (s.ctl c).pagesPer k

/-- A block of a stripe that holds data. -/
def Ctl.holdsData (c : Ctl) (k : Nat) : Bool :=
  let b := c.block k
  (b.st == 2 || (b.st == 7 && b.pages != 0) || (c.failed.contains (k / 8192) && b.pages != 0)) && (c.stripeOf k).isSome

/-- Rank of a block in the relocation queue: SUSPECT, retired or on a failed die, by count; `none` where it is not queued. -/
def State.relocRank (s : State) (c k : Nat) : Option Nat :=
  let x := s.ctl c
  let b := x.block k
  if !x.holdsData k then none
  else if b.suspect then some 0
  else if b.st = 7 || x.failed.contains (k / 8192) then some 1
  else if b.reads ≥ s.relocAt c k then some 2 else none

/-- The relocation queue, unordered. -/
def State.relocQueue (s : State) (c : Nat) : List Nat :=
  ((s.ctl c).blocks.map (·.1)).filter fun k => (s.relocRank c k).isSome

/-- The block that is served next: lowest rank, then highest count, then lowest number. -/
def State.relocHead (s : State) (c : Nat) : Option Nat :=
  let x := s.ctl c
  let key (k : Nat) : Nat := ((s.relocRank c k).getD 3) * 2 ^ 64 + (2 ^ 64 - 1 - min (x.block k).reads (2 ^ 64 - 1))
  (s.relocQueue c).foldl (fun best k => match best with
    | none => some k
    | some b => if key k < key b then some k else some b) none

/-- Blocks that are OVERDUE (R373). -/
def State.overdue (s : State) (c : Nat) : Nat :=
  ((s.relocQueue c).filter fun k => decide (s.overdueAt c k ≤ ((s.ctl c).block k).reads)).length

/-- A block's page is read: it counts, and the block may become OVERDUE. -/
def countRead (c k n : Nat) (s : State) : State :=
  let before := (s.ctl c).block k
  let s := s.updCtl c fun x => x.updBlock k fun b => { b with reads := b.reads + n }
  let s := storeCnt c 0 n s
  if before.reads < s.overdueAt c k && s.overdueAt c k ≤ before.reads + n && (s.ctl c).holdsData k then storeErr c 5 s else s

/-! ### The classes of plane time (R365)

Times are the typical ones of R361. A plane is named by die and number. -/

/-- Die and plane of a physical block (R361). -/
def planeOf (k : Nat) : Nat × Nat := (k / 8192, k % 8192 % 32)

/-- STORE_SHARE of a context as a weight; context 0 counts with 255. -/
def State.storeWeight (s : State) (c : Nat) : Nat := if c = 0 then 255 else max 1 (s.ctx c).quota.storeShare

/-- A page lies on a plane of a controller. -/
def State.onPlane (s : State) (c : Nat) (pl : Nat × Nat) (a : Nat) : Bool :=
  match storePos a with
  | some p => p.ctl == c && planeOf ((s.ctl c).member p.stripe p.die) == pl
  | none => false

/-- SLC_WRITE has work for a plane: a pending write to the next page of a block that is being programmed there. -/
def State.slcWork (s : State) (c : Nat) (pl : Nat × Nat) : Bool :=
  let x := s.ctl c
  !x.hold && !x.hot && x.pend.any fun w => s.onPlane c pl w.1 && (match storePos w.1 with
    | some p => let b := x.block (x.member p.stripe p.die); decide (b.st ≤ 1) && b.pages == p.row
    | none => false)

/-- RELOC has work for a plane that waits to start: a block to erase there. The copying of a relocation in progress goes on within the share and
keeps nothing else from the plane. [DEDUCED, log 92] -/
def State.relocWork (s : State) (c : Nat) (pl : Nat × Nat) : Bool :=
  let x := s.ctl c
  !x.hold && !x.hot && x.blocks.any fun b => planeOf b.1 == pl && (b.2.st == 4 || b.2.st == 5)

/-- The first page that each context's fills await from a plane, in order of arrival: context, ring, page. -/
def State.fillAsks (s : State) (c : Nat) (pl : Nat × Nat) : List (Nat × Nat × Nat) :=
  let asks := s.rings.filterMap fun r => match s.fillOf r.1 with
    | some f => (f.todo.find? fun g => s.onPlane c pl g.src).map fun g => (f.last, r.2.ctx, r.1, g.src)
    | none => none
  asks.filterMap fun a => if asks.all fun b => a.2.1 != b.2.1 || decide (a.1 < b.1 ∨ a.1 = b.1 ∧ a.2.2.1 ≤ b.2.2.1) then some a.2 else none

/-- Contexts that read the stack at large: firmware's image verification and power-up scrub, and a job's Mirror restore. -/
def State.openReaders (s : State) (c : Nat) : List Nat :=
  (if s.images.any (fun g => g.2.st == 1) || (s.ctl c).st == 2 then [0] else [])
    ++ (match s.mirror.replay with
      | some r => if r.ready then [] else ((s.jobs.find? fun j => j.1 == r.job).map (·.2.ctx)).toList
      | none => [])

/-- Contexts with a page read waiting for a plane. -/
def State.readers (s : State) (c : Nat) (pl : Nat × Nat) : List Nat := ((s.fillAsks c pl).map (·.1) ++ s.openReaders c).eraseDups

/-- Plane time that a class has used in the present window, and its share of a window in ticks (R365, R373). -/
def Ctl.usedNow (x : Ctl) (now cls : Nat) : Nat := if now / Config.ms = x.win then SMap.get 0 x.used cls else 0
def State.shareOf (s : State) (c cls : Nat) : Nat :=
  512 * Config.ms * (if cls = 1 then s.storeSet c 4 else if 0 < s.overdue c then 64 else s.storeSet c 3) / 256
def State.shareLeft (s : State) (c cls : Nat) : Bool := decide ((s.ctl c).usedNow s.now cls < s.shareOf c cls)

/-- An operation of a class uses plane time. -/
def charge (c cls t : Nat) (s : State) : State :=
  s.updCtl c fun x => { x with
    win := s.now / Config.ms, used := SMap.upd 0 (if s.now / Config.ms = x.win then x.used else []) cls (fun v => satAdd 64 v t) }

/-- The schedule lets an operation of a class take a plane (R365): the first class with work for it that has not used up its share is served; time
that READ leaves idle goes to RELOC, then SLC_WRITE, then LOAD. -/
def State.classMay (s : State) (c cls : Nat) (pl : Nat × Nat) : Bool :=
  let slc := s.slcWork c pl && s.shareLeft c 1
  let rel := s.relocWork c pl
  let idle := (s.readers c pl).isEmpty
  match cls with
  | 1 => s.shareLeft c 1 || (idle && !rel)
  | 2 => !slc && (s.shareLeft c 2 || idle)
  | 3 => !slc && !(rel && s.shareLeft c 2)
  | _ => idle && !rel && !s.slcWork c pl

/-- The page read that a plane serves next (R365): the context that deficit round robin over pages picks, with the turns after it; none where nobody
waits for the plane. -/
def State.readPick (s : State) (c : Nat) (pl : Nat × Nat) : Option (Nat × Drr) :=
  Drr.pick 1 ((s.readers c pl).map fun x => (x, s.storeWeight x, 1)) (SMap.get Drr.init (s.ctl c).turns (pl.1 * 32 + pl.2))

/-- The requests by which a page of a plane may be read now: `none`, it may not; else the ring whose fill receives it, if one does. A read that
nobody is known to wait for takes an idle plane. [DEDUCED, log 92] -/
def State.readFor (s : State) (c : Nat) (pl : Nat × Nat) (a : Option Nat) : Option (Option Nat) :=
  if !s.classMay c 3 pl then none
  else match s.readPick c pl with
    | none => some none
    | some (x, _) =>
      match (s.fillAsks c pl).find? fun f => f.1 == x && some f.2.2 == a with
      | some f => some (some f.2.1)
      | none => if (s.openReaders c).contains x then some none else none

/-- A page read is served: the turns go on, and the fill that asked for the page has it. -/
def readServed (c : Nat) (pl : Nat × Nat) (ring : Option Nat) (a : Nat) (s : State) : State :=
  let t := s.readPick c pl
  let s := match t with
    | some (_, d) => s.updCtl c fun x => { x with turns := SMap.set Drr.init x.turns (pl.1 * 32 + pl.2) d }
    | none => s
  let s := match ring with
    | some j => s.updRing j fun r => { r with cur := r.cur.map fun f => { f with todo := f.todo.eraseP fun g => g.src == a } }
    | none => s
  charge c 3 (16 * Config.us) s

/-! ### Page reads (R367, R368, R370, R371) -/

/-- The image whose extent holds a Store address. -/
def State.imageAt (s : State) (a : Nat) : Option (Nat × Image) :=
  s.images.find? fun i => decide (i.2.addr 0 ≤ a ∧ a < i.2.addr 0 + i.2.chunks * Config.chunkBytes)

/-- An image with a poisoned page: one that is READY or ACTIVE is DAMAGED (R167). -/
def damage (h : Nat) (s : State) : State :=
  match s.image h with
  | some g => if g.st = 2 || g.st = 3 then s.setImage h { g with st := 4 } else s
  | none => s

/-- A codeword reaches step 5 (R368): the mark, STORE_ERR, STORE_ERR_INFO, the error record, the image. -/
def poisonCodeword (c a : Nat) (s : State) : State :=
  if s.storeBad a 1 then s
  else
    let img := s.imageAt a
    let s := { s with mem := { s.mem with storePoison := NSet.ins (a / Config.codewordBytes) s.mem.storePoison } }
    let s := storeCnt c 8 1 s
    let s := s.updUnit Config.tStore c fun u =>
      let u := if bitOf u.err 0 then u else
        { u with errIndex := a, errReason := if a < Config.slcBase then 0 else 1
                 errRing := (match img with | some i => i.1 + 1 | none => 0x10000) }
      { u with err := Nat.lor u.err 1 }
    let owner := match img with | some i => (if i.2.owner = 0 then 0 else i.2.owner - 1) | none => 0
    let s := raise { code := 4, status := eIntegrity, flags := 3, ty := Config.tStore, inst := c, ctx := owner, ring := 0xFFFF, index := 0
                     addr := a, space := 2 } s
    match img with
    | some i => damage i.1 s
    | none => s

/-- How the decoding of one codeword went: the last step that ran, its read retries, whether step 1 corrected bits, and the other
dies of the row whose codeword failed too. -/
abbrev Decode := Nat × Nat × Bool × List Nat

/-- Codeword `i` of a page: counters, SUSPECT, retirement and poison. `scrub`: it is queued as SUSPECT by the rule of R377 too. [DEDUCED, log 64] -/
def readCodeword (p : PagePos) (k i : Nat) (scrub : Bool) (d : Decode) (s : State) : State :=
  let c := p.ctl
  let x := s.ctl c
  let dead := x.failed.contains (k / 8192)
  let lost := d.2.2.2.filter fun m => m < 16 && m != p.die
  let lost := lost ++ (List.range 16).filter fun m => m != p.die && !lost.contains m && x.failed.contains (x.member p.stripe m / 8192)
  let step := if dead then (if lost.isEmpty then 4 else 5) else if d.1 ≥ 5 then (if lost.isEmpty then 4 else 5) else max 1 d.1
  let addr := (storeAddr c p.stripe p.die p.row).map (· + i * Config.codewordBytes)
  match addr with
  | some a =>
    if s.storeBad a 1 then storeCnt c 9 1 s
    else go c x dead lost step addr s
  | none => go c x dead lost step addr s
where
  go (c : Nat) (x : Ctl) (dead : Bool) (lost : List Nat) (step : Nat) (addr : Option Nat) (s : State) : State :=
    let max_ := s.storeSet c 6
    let retries := if dead || step = 1 then 0 else if step = 2 then max 1 (min d.2.1 max_) else max_
    let s := if step = 1 && d.2.2.1 then storeCnt c 4 1 s else s
    let s := storeCnt c 5 retries s
    let s := if step ≥ 3 && !dead then storeCnt c 6 1 s else s
    let s := if step ≥ 4 then
        ((List.range 16).filter (fun m => m != p.die)).foldl (fun s m =>
          let km := x.member p.stripe m
          if x.failed.contains (km / 8192) then s else countRead c km 1 s) s
      else s
    let s := if step = 4 then storeErr c 1 (storeCnt c 7 1 s) else s
    let s := if (step = 3 || step = 4) && Config.storeCeExcess c (SMap.get 0 (s.unit Config.tStore c).cnt 6) s.now then
        raise { code := 0x14, status := eIntegrity, flags := 0, ty := Config.tStore, inst := c, ctx := 255, ring := 0xFFFF, index := 0
                addr := 0, space := 0 } s
      else s
    let weak := step = 3 || step = 4 || (scrub && 2 * retries > max_)
    let s := if weak && !dead then s.updCtl c fun x => x.updBlock k fun b => { b with suspect := b.suspect || b.st == 2 } else s
    let s := if step ≥ 4 && !dead then s.updCtl c fun x => x.updBlock k fun b => { b with hits := s.now :: b.hits } else s
    if step = 5 then
      let s := match addr with | some a => storeCnt c 9 1 (poisonCodeword c a s) | none => s
      lost.foldl (fun s m => match storeAddr c p.stripe m p.row with
        | some a => poisonCodeword c (a + i * Config.codewordBytes) s
        | none => s) s
    else s

/-- A read of which a codeword reached step 4 counts once; the second within 24 hours retires the block (R370). -/
def secondHit (c k : Nat) (old : List Nat) (s : State) : State :=
  s.updCtl c fun x => x.updBlock k fun b =>
    if b.hits.length = old.length then b
    else
      let hits := s.now :: old.filter fun t => decide (s.now < t + 86400 * Config.sec)
      { b with hits, st := if hits.length ≥ 2 then 7 else b.st }

/-- A page of a physical block is sensed and its four codewords pass through R367; a page all of whose codewords are poisoned
already answers without sensing (R368). -/
def readPage (c k row : Nat) (scrub : Bool) (ds : List Decode) (s : State) : State :=
  match (s.ctl c).stripeOf k with
  | none => s
  | some (stripe, die) =>
    let p : PagePos := { ctl := c, stripe, die, row }
    let known := match storeAddr c stripe die row with
      | some a => (List.range 4).all fun i => s.storeBad (a + i * Config.codewordBytes) 1
      | none => false
    let s := if known || (s.ctl c).failed.contains (k / 8192) then s else countRead c k 1 s
    let old := ((s.ctl c).block k).hits
    secondHit c k old ((List.range 4).foldl (fun s i => readCodeword p k i scrub (ds.getD i (1, 0, false, [])) s) s)

/-- The logical address of a row of a block. -/
def State.blockAddr (s : State) (c k row : Nat) : Option Nat := ((s.ctl c).stripeOf k).bind fun m => storeAddr c m.1 m.2 row

/-- STORE_PAGE_READ_COMPLETE (R365–R368): the page at row `row` of a block has been read for the requester whose turn it is, its four codewords
as `ds` says; `susp` when the read suspended a program or an erase of its plane. -/
def execStorePageReadComplete (c die block row : Nat) (susp : Bool) (ds : List Decode) (s : State) : Host.Outcome State Fault Refusal :=
  let k := bkey die block
  if s.isFatal || c ≥ 8 || die ≥ 16 || block ≥ stripes || (s.ctl c).st = 0 || row ≥ (s.ctl c).pagesPer k
      || ((s.ctl c).stripeOf k).isNone then .next s
  else match s.readFor c (planeOf k) (s.blockAddr c k row) with
    | none => .next s
    | some ring =>
      let s := readServed c (planeOf k) ring ((s.blockAddr c k row).getD 0) s
      let s := storeCnt c 1 storePage (readPage c k row false ds s)
      .next (if susp then storeCnt c 12 1 s else s)

/-- STORE_SCRUB_TIMER (R377): powered scrub reads the next page of a block. -/
def execStoreScrubTimer (c die block row : Nat) (ds : List Decode) (s : State) : Host.Outcome State Fault Refusal :=
  let k := bkey die block
  if s.isFatal || c ≥ 8 || die ≥ 16 || block ≥ stripes || !(s.ctl c).live || row ≥ ((s.ctl c).block k).pages
      || ((s.ctl c).stripeOf k).isNone || !s.classMay c 2 (planeOf k) then .next s
  else .next (storeCnt c 13 1 (readPage c k row true ds (charge c 2 (16 * Config.us) s)))

/-! ### Programs and erases (R361, R370, R374, R379, R386) -/

/-- When the last SLC spare of a die is gone, a TLC spare stripe is drawn, erased and used in SLC mode from then on (R379). -/
def drawSlc (c : Nat) (s : State) : State :=
  let x := s.ctl c
  if x.spares true ≠ 0 then s
  else
    match ((List.range 1024).map (firstTlcSpare + ·)).find? fun b => (List.range 16).all fun d =>
        x.failed.contains d || x.isSpare false (bkey d b) with
    | some b => s.setCtl c ((List.range 16).foldl (fun x d =>
        if x.failed.contains d then x else x.updBlock (bkey d b) fun y => { y with slc := true, pe := y.pe + 1 }) x)
    | none => s

/-- STORE_ERR.SPARE_LOW is set when the reserve of 64 stripes is crossed (R381). -/
def spareLow (c before : Nat) (s : State) : State :=
  if before ≥ 64 && (s.ctl c).spares false < 64 then storeErr c 8 s else s

/-- The least-worn spare for a block's data: on its own die, or, when that die has failed, on the surviving die with the least-worn
spare (R370, R371, R374). [DEDUCED, log 64] -/
def State.pickSpare (s : State) (c k : Nat) : Option Nat :=
  let x := s.ctl c
  let slc := x.slcMode k
  if x.failed.contains (k / 8192) then
    x.leastWorn ((List.range 16).filterMap fun d => if x.failed.contains d then none else x.leastWorn (x.spareRange d slc))
  else x.leastWorn (x.spareRange (k / 8192) slc)

/-- Bytes of a program: a TLC wordline of three pages, or one SLC page (R361). -/
def Ctl.progPages (c : Ctl) (k : Nat) : Nat := if c.slcMode k then 1 else 3

/-- Class of a program (R365): of a relocation's destination, of an SLC page, or of an image load. -/
def Ctl.progClass (x : Ctl) (k : Nat) : Nat :=
  if x.reloc.any fun r => r.2.2.1 == k then 2 else if x.slcMode k then 1 else 4
/-- Plane time of a program (R361). -/
def progTime (slc : Bool) : Nat := if slc then 550 * Config.us else 2500 * Config.us

/-- Parts of a run of addresses that lie outside a page. -/
def outside (a : Nat) (x : Nat × Nat) : List (Nat × Nat) :=
  (if x.1 < a then [(x.1, min x.2 (a - x.1))] else [])
    ++ (if a + storePage < x.1 + x.2 then [(max x.1 (a + storePage), x.1 + x.2 - max x.1 (a + storePage))] else [])

/-- STORE_PROGRAM_COMPLETE (R361, R366, R370, R386): a program of a block ends after `susp` suspends. A failed one retires the block; a
member of a stripe, or the destination of a relocation, is replaced by the least-worn spare, on which the program is retried. [DEDUCED, log 64] -/
def execStoreProgramComplete (c die block : Nat) (ok : Bool) (susp : Nat) (s : State) : Host.Outcome State Fault Refusal :=
  let k := bkey die block
  let x := s.ctl c
  let b := x.block k
  if s.isFatal || c ≥ 8 || die ≥ 16 || block ≥ stripes || !x.live || b.st > 1 || b.pages ≥ x.pagesPer k
      || !s.classMay c (x.progClass k) (planeOf k) then .next s
  else
    let s := charge c (x.progClass k) (progTime (x.slcMode k)) (storeCnt c 12 (min susp 4) s)
    if ok then
      let n := x.progPages k
      let pages := b.pages + n
      let s := storeCnt c (if x.slcMode k then 3 else 2) (n * storePage) s
      let s := s.updCtl c fun y => y.setBlock k { b with st := if pages ≥ x.pagesPer k then 2 else 1, pages }
      let gone := if x.slcMode k then
          (match x.stripeOf k with | some (st, d) => storeAddr c st d b.pages | none => none)
        else none
      match gone with
      | some a => .next (s.updCtl c fun y => { y with pend := y.pend.flatMap (outside a) })
      | none => .next s
    else
      let low := x.spares false
      let s := storeErr c 2 (s.updCtl c fun y => y.setBlock k { b with st := 7 })
      let s := match s.pickSpare c k with
        | none => s
        | some sp =>
          let s := match x.stripeOf k with
            | some (st, d) => s.updCtl c fun y => { (y.updBlock sp fun z => { z with st := 1, pages := b.pages }) with
                moved := SMap.set 0 y.moved (st * 16 + d) (sp + 1) }
            | none => s
          match x.reloc with
          | some (d, src, dst, st) =>
            if dst = k then s.updCtl c fun y => { (y.updBlock sp fun z => { z with st := 1 }) with reloc := some (d, src, sp, st) } else s
          | none => s
      .next (spareLow c low (drawSlc c s))

/-- Every image that meets a block of the teacher region is being deleted: 90 GiB of the region for each k of R364. -/
def State.blockDeleted (s : State) (stripe : Nat) : Bool :=
  let lo := Config.teacherBase + stripe / 32 * (90 * 2 ^ 30)
  let here := s.images.filter fun i => decide (i.2.addr 0 < lo + 90 * 2 ^ 30 ∧ lo < i.2.addr 0 + i.2.chunks * Config.chunkBytes)
  decide (stripe < firstSlc) && !here.isEmpty && here.all fun i => i.2.st == 6

/-- The codewords of a freed SLC block lose their poison. -/
def slcFreed (c k : Nat) (s : State) : State :=
  match (s.ctl c).stripeOf k with
  | some (st, d) =>
    if st < firstSlc then s
    else { s with mem := { s.mem with storePoison := s.mem.storePoison.filter (fun w =>
      !(List.range 512).any (fun row => storeAddr c st d row == some (w / 4 * storePage))) } }
  | none => s

/-- STORE_ERASE_COMPLETE (R372, R386): an erase ends; it clears the read counter and counts one cycle. A block of the SLC region may be erased once
it is free, which the manual leaves to Mirror; its poison goes with it. [DESIGN CHOICE, log 5; DEDUCED, log 64] -/
def execStoreEraseComplete (c die block : Nat) (ok : Bool) (susp : Nat) (s : State) : Host.Outcome State Fault Refusal :=
  let k := bkey die block
  let x := s.ctl c
  let b := x.block k
  let del := match x.stripeOf k with
    | some (st, _) => (b.st == 1 || b.st == 2) && (s.blockDeleted st || decide (firstSlc ≤ st))
    | none => false
  if s.isFatal || c ≥ 8 || die ≥ 16 || block ≥ stripes || !x.live || !(b.st == 4 || b.st == 5 || del) || !s.classMay c 2 (planeOf k) then .next s
  else
    let s := charge c 2 (5 * Config.ms) (storeCnt c 12 (min susp 4) s)
    let s := if b.st = 2 then slcFreed c k s else s
    if ok then
      .next (storeCnt c 11 1 (s.updCtl c fun y => y.setBlock k { SBlock.init with pe := b.pe + 1, slc := b.slc }))
    else
      let low := x.spares false
      .next (spareLow c low (drawSlc c (storeErr c 3 (s.updCtl c fun y => y.setBlock k { b with st := 7, pages := 0 }))))

/-! ### Relocation (R374) -/

/-- RELOCATION_START (R373, R374): the head of the queue is copied to the least-worn spare. -/
def execRelocationStart (c : Nat) (s : State) : Host.Outcome State Fault Refusal :=
  let x := s.ctl c
  if s.isFatal || c ≥ 8 || !x.live || x.st < 2 || x.hold || x.hot || x.reloc.isSome then .next s
  else match s.relocHead c with
    | none => .next s
    | some k =>
      match s.pickSpare c k, x.stripeOf k with
      | some sp, some (st, d) =>
        let y := x.updBlock k fun b => { b with st := if b.st = 2 && !x.failed.contains (k / 8192) then 3 else b.st }
        let y := y.updBlock sp fun b => { b with st := 1 }
        .next (spareLow c (x.spares false) (drawSlc c (s.setCtl c { y with reloc := some (d, k, sp, st) })))
      | _, _ => .next s

/-- RELOCATION_SWITCH (R374): the source has been read whole and copied, and the stripe table names the destination. Where the
image of the block is being deleted the relocation is cancelled and both blocks are to be erased. -/
def execRelocationSwitch (c : Nat) (s : State) : Host.Outcome State Fault Refusal :=
  let x := s.ctl c
  if s.isFatal || c ≥ 8 || !x.live || x.hold then .next s
  else match x.reloc with
    | none => .next s
    | some (d, src, dst, st) =>
      let b := x.block src
      let old (n : Nat) : Ctl → Ctl := fun y => y.updBlock src fun z => { z with st := if z.st = 3 then n else z.st, suspect := false }
      if !s.classMay c 2 (planeOf dst) then .next s
      else if s.blockDeleted st then
        .next (s.setCtl c { (old 5 (x.updBlock dst fun z => { z with st := 5 })) with reloc := none })
      else
        let s := charge c 2 (b.pages * 16 * Config.us + cdiv b.pages (x.progPages dst) * progTime (x.slcMode dst)) s
        let s := if x.failed.contains (src / 8192) then s else countRead c src b.pages s
        let s := s.updCtl c fun y =>
          let y := y.updBlock dst fun z => { z with st := 2, pages := b.pages }
          { (old 4 y) with reloc := none, moved := SMap.set 0 y.moved (st * 16 + d) (if dst = bkey d st then 0 else dst + 1) }
        let s := s.updCtl c fun y => y.updBlock src fun z => { z with pages := if z.st = 7 then 0 else z.pages }
        .next (storeCnt c 10 1 (storeCnt c (if x.slcMode dst then 3 else 2) (b.pages * storePage) s))

/-! ### Die failure (R371, R576) -/

/-- STORE_DIE_TIMEOUT (R371): a die has not answered its channel for 10 ms. [DEDUCED, log 64] -/
def execStoreDieTimeout (c die : Nat) (s : State) : Host.Outcome State Fault Refusal :=
  let x := s.ctl c
  if s.isFatal || c ≥ 8 || die ≥ 16 || !x.live || x.failed.contains die then .next s
  else
    let failed := NSet.ins die x.failed
    let second := failed.length ≥ 2
    let s := storeErr c 4 (s.setCtl c { x with failed, st := if second then 5 else if x.st = 3 then 4 else x.st
                                               reloc := none })
    let e (code : Nat) : Err := { code, status := eInternal, flags := 0, ty := Config.tStore, inst := c, ctx := 255, ring := 0xFFFF
                                  index := 0, addr := 0, space := 0 }
    -- every image is striped over every stack, so the owners of images are affected
    let owners := (s.images.filter fun i => i.2.owner != 0).map fun i => i.2.owner - 1
    let s := raiseUnit (e 5) owners s
    if second then
      let lost := (List.range firstTlcSpare).filter fun st => 2 ≤ (s.ctl c).lostMembers st
      let cws := (lost.map fun st => 64 * (if st < firstSlc then 1536 else 512)).sum
      let s := storeCnt c 8 cws s
      let s := match lost with
        | st :: _ => s.updUnit Config.tStore c fun u =>
            let a := (storeAddr c st (if st % 16 = 0 then 1 else 0) 0).getD 0
            let u := if bitOf u.err 0 then u else
              { u with errIndex := a, errReason := if st < firstSlc then 0 else 1
                       errRing := (match s.imageAt a with | some i => i.1 + 1 | none => 0x10000) }
            { u with err := Nat.lor u.err 1 }
        | [] => s
      .next (raiseUnit (e 6) owners (s.images.foldl (fun s i => damage i.1 s) s))
    else .next s

/-! ### Metered SLC writes (R380–R382) -/

/-- One byte in the units of the reservoir and the credit; they are filled by 150 × 10⁹ bytes in an hour, and by LIFE_RATE GB in a day. -/
def creditUnit : Nat := 86400000000000
/-- Units gained in one tick. -/
def burstTick : Nat := 3600000000000
def State.lifeTick (s : State) (c : Nat) : Nat := s.storeSet c 8 * 1000000000

/-- Reservoir and credit after `dt` more ticks. -/
def State.accrue (s : State) (c dt : Nat) : Int × Int :=
  let x := s.ctl c
  (min (x.burst + (burstTick * dt : Nat)) ((150000000000 * creditUnit : Nat) : Int),
   min (x.life + (s.lifeTick c * dt : Nat)) ((s.lifeTick c * creditUnit : Nat) : Int))

/-- The rate that R380 allows, in bytes per 86,400 seconds: the accrual rate, the burst rate or the sustained rate. -/
def State.rateMax (s : State) (c : Nat) (b l : Int) : Nat :=
  if l ≤ 0 then s.storeSet c 8 * 1000000000
  else if b > 0 then 7500000000 * 86400 else s.storeSet c 7 * 1000000 * 86400

/-- Bytes in the pending buffer of a controller, and its limit. -/
def Ctl.pendBytes (c : Ctl) : Nat := (c.pend.map (·.2)).sum

/-- A write drains the budget (R380); the time that the rate holds it is counted (R381). [DEDUCED, log 64] -/
def meter (c n : Nat) (exempt : Bool) (s : State) : State :=
  let x := s.ctl c
  let (b0, l0) := s.accrue c (s.now - x.evalAt)
  let r := s.rateMax c b0 l0
  let done := if exempt then s.now else max s.now (x.evalAt + cdiv (n * creditUnit) (max 1 r))
  let dt := done - x.evalAt
  let (b1, l1) := s.accrue c dt
  let excess := (n * creditUnit - s.storeSet c 7 * 1000000 * 86400 * dt : Nat)
  let held := if exempt then 0 else done - s.now
  let slow := held != 0
  let s := s.setCtl c { x with
    burst := if exempt then b1 else b1 - excess, life := l1 - (n * creditUnit : Nat), evalAt := done, throttled := x.throttled + held
    thrRate := decide (0 < l0 ∧ b0 ≤ 0) && slow, thrLife := decide (l0 ≤ 0) && slow }
  storeCnt c 14 ((x.throttled + held) / Config.sec - x.throttled / Config.sec) (atLeast done s)

/-- METERED_SLC_WRITE (R380–R382): Mirror's write to SLC within one page is slowed by the budget, copied into the pending buffer and
acknowledged. A full buffer, or a dump that is not armed, makes it wait; with no pending limit it is acknowledged once programmed.
[DEDUCED, log 64] -/
def execMeteredSlcWrite (addr : Nat) (data : Bytes) (s : State) : Host.Outcome State Fault Refusal :=
  let n := data.length
  match storePos addr with
  | none => .next s
  | some p =>
    let c := p.ctl
    let x := s.ctl c
    let room := decide (x.pendBytes + n ≤ x.limit * 2 ^ 20) && x.armed
    if s.isFatal || n = 0 || addr < Config.slcBase || addr % storePage + n > storePage || !s.sys.vin
        || !(x.st = 3 || x.st = 4) || !(room || x.limit = 0) then .next s
    else
      let s := meter c n false s
      let s := { s with mem := { s.mem with store := Mem.write s.mem.store addr data } }
      .next (if x.limit = 0 then s else s.updCtl c fun y => { y with pend := y.pend ++ [(addr, n)] })

/-! ### Stages after a cold reset (R378, R384) -/

/-- Handles of the images whose extents are still to be scrubbed on a controller, ascending. -/
def State.toScrub (s : State) (c : Nat) : List Nat :=
  ((s.images.filter fun i => i.2.scrub == 0).map (·.1)).filter fun h => !(s.ctl c).scrubbed.contains h

/-- The dump is replayed, or, where its descriptor does not decode, its pages are poisoned (R384); the dump stripe is armed again. [DEDUCED, log 64] -/
def replayDump (c : Nat) (ok : Bool) (s : State) : State :=
  let x := s.ctl c
  let s := s.setCtl c { x with dump := none, armed := true, st := 2 }
  match x.dump with
  | none => s.updCtl c fun y => (List.range 16).foldl (fun y d => y.updBlock (bkey d dumpStripe) fun b => { b with st := 6 }) y
  | some l =>
    let s := s.updCtl c fun y => (List.range 16).foldl (fun y d => y.updBlock (bkey d dumpStripe) fun b => { b with st := 6, pages := 0, pe := b.pe + 1 }) y
    let s := storeCnt c 11 16 s
    if ok then
      let n := (l.map (·.2)).sum
      storeErr c 7 (storeCnt c 3 n (meter c n true s))
    else
      l.foldl (fun s r => (List.range ((r.1 + r.2 - 1) / Config.codewordBytes + 1 - r.1 / Config.codewordBytes)).foldl
        (fun s i => poisonCodeword c ((r.1 / Config.codewordBytes + i) * Config.codewordBytes) s) s) s

/-- STORE_SCRUB_STAGE_COMPLETE (R378, R384): a controller ends a stage: the replay of a dump (which decoded or not), the scrub of the
SLC region, or that of the next image's extent. With nothing left its stack is READY, or DEGRADED with a failed die. -/
def execStoreScrubStageComplete (c : Nat) (ok : Bool) (s : State) : Host.Outcome State Fault Refusal :=
  let x := s.ctl c
  if s.isFatal || c ≥ 8 || !(x.st = 1 || x.st = 2) then .next s
  else if x.st = 1 then .next (replayDump c ok s)
  else
    let s :=
      if !x.slcDone then s.setCtl c { x with slcDone := true }
      else match s.toScrub c with
        | [] => s
        | h :: _ =>
          let s := s.setCtl c { x with scrubbed := NSet.ins h x.scrubbed }
          if (List.range 8).all fun d => (s.ctl d).scrubbed.contains h then
            (match s.image h with | some g => s.setImage h { g with scrub := 2 } | none => s)
          else s
    if (s.toScrub c).isEmpty then
      .next (s.updCtl c fun y => { y with st := if y.failed.isEmpty then 3 else 4 })
    else .next s

end Sys2Proof.Machine
end

