-- ==== Sys2Proof/Machine/Power.lean ====
section
/-! DEFINITION. Sys2Proof/Machine/Power.lean: limits on power, temperature, supply dips, loss of supplies (R383, R528–R541, R584). -/

namespace Sys2Proof.Machine
open Sys2Proof

/-- Change Loupe. -/
def updLoupe (f : Loupe → Loupe) (s : State) : State := { s with loupe := f s.loupe }
/-- Error bit `bit` of LOUPE_ERR, whose information register names a log KIND and the SEQ of the latest entry (R555). -/
def loupeErr (bit kind : Nat) (s : State) : State := setErr Config.tLoupe 0 bit kind (s.log.next - 1) 0 s
/-- A setting of Loupe. -/
def State.loupeSet (s : State) (n : Nat) : Nat := s.valueOf Config.tLoupe 0 n

/-- A notification to every context with a RUNNING job or a serving model (R547). -/
def notifyTenants (kind seq : Nat) (s : State) : State :=
  ((List.range 64).filter fun c => c != 0 && (s.jobs.any (fun j => j.2.ctx == c && j.2.st == 1) || s.srv.models.any fun m => m.2.ctx == c)).foldl
    (fun s c => notify c kind seq s) s

/-! ### Clock stretching (R535, R539) -/

/-- Duty in effect on a die, percent: the lowest that any source asks for. -/
def Loupe.duty (l : Loupe) (die : Nat) : Nat :=
  min l.ilDuty (min (if l.window then 75 else 100) (if l.dip.isSome || l.forced || l.critical.contains die then 50 else 100))
/-- PWR_ALERT_N is asserted (R539, R581). [DESIGN CHOICE, log 72] -/
def State.pwrAlert (s : State) : Bool :=
  s.sys.vaux && s.sys.vin && (s.loupe.dip.isSome || s.loupe.forced || decide (s.loupe.ilDuty < 100))

/-- FORCE_THROTTLE_ASSERT (R539): the level of the pin, which Loupe sees while VAUX is present. [DESIGN CHOICE, log 72] -/
def execForceThrottleAssert (s : State) : Host.Outcome State Fault Refusal := .next (updLoupe (fun l => { l with forced := true }) s)
/-- FORCE_THROTTLE_RELEASE (R539). -/
def execForceThrottleRelease (s : State) : Host.Outcome State Fault Refusal := .next (updLoupe (fun l => { l with forced := false }) s)

/-- CURRENT_LIMIT_SAMPLE (R531): a sample of the input current, in 0.1 A, and of VIN, in mV. -/
def execCurrentLimitSample (amps vin : Nat) (s : State) : Host.Outcome State Fault Refusal :=
  if !s.diesOn then .next s
  else
    let s := atLeast (s.loupe.ilAt + 500) s
    let l := s.loupe
    let lim := s.loupeSet 2 * 10
    let ns := if l.ilDuty < 100 then l.ilNs + (s.now - l.ilAt) else l.ilNs
    let s := bump Config.tLoupe 0 3 (ns / 1000 - l.ilNs / 1000) s
    let l := { l with ilAt := s.now, ilNs := ns, amps, vinMv := vin }
    if amps > lim then
      let s := { s with loupe := { l with ilDuty := max 25 (l.ilDuty - 25), ilBelow := none } }
      .next (if l.ilDuty = 100 then loupeErr 1 0x10 (logPush 0x10 255 [] s) else s)
    else if amps * 100 < 95 * lim then
      match l.ilBelow with
      | none => .next { s with loupe := { l with ilBelow := some s.now } }
      | some t =>
        if s.now < t + 10 * Config.us then .next { s with loupe := l }
        else .next { s with loupe := { l with ilDuty := min 100 (l.ilDuty + 25), ilBelow := some s.now } }
    else .next { s with loupe := { l with ilBelow := none } }

/-- WINDOW_LIMIT_EVAL (R532): the mean input power of the last 20 ms, in mW. -/
def execWindowLimitEval (mw : Nat) (s : State) : Host.Outcome State Fault Refusal :=
  if !s.diesOn then .next s
  else
    let s := atLeast (s.loupe.winAt + 100 * Config.us) s
    let l := s.loupe
    let ns := if l.window then l.winNs + (s.now - l.winAt) else l.winNs
    let s := bump Config.tLoupe 0 4 (ns / 1000 - l.winNs / 1000) s
    let on := if l.window then decide (mw > l.capB * 1000 - 20000) else decide (mw ≥ l.capB * 1000)
    let s := { s with loupe := { l with winAt := s.now, winNs := ns, window := on } }
    .next (if on && !l.window then logPush 0x11 255 [] s else s)

/-! ### The governor (R533, R534) -/

/-- Compute dies: T0–T3 and S0–S1 (R27). -/
def computeDies : List Nat := [0, 1, 2, 3, 4, 5]
/-- CORE frequency of a die in MHz, and its FMAX. -/
def Loupe.freqOf (l : Loupe) (die : Nat) : Nat := SMap.get 0 l.freq die
def State.fmax (s : State) (die : Nat) : Nat := s.loupeSet (0x20 + die)
/-- Array-busy cycles of a die's cores so far. [DESIGN CHOICE, log 46] -/
def State.dieBusy (s : State) (die : Nat) : Nat :=
  if die < 4 then ((List.range 8).map fun i => SMap.get 0 (s.unit Config.tTeacher (8 * die + i)).cnt 0).sum
  else ((List.range 8).map fun i => SMap.get 0 (s.unit Config.tStudent (8 * (die - 4) + i)).cnt 0).sum

/-- The busiest of some dies: array-busy cycles since the last step over CORE cycles; ties go to the lower DIE. -/
def State.busiest (s : State) (ok : Nat → Bool) : Option Nat :=
  let l := s.loupe
  let num (d : Nat) : Nat := s.dieBusy d - SMap.get 0 l.busy d
  let den (d : Nat) : Nat := max 1 (l.freqOf d * l.duty d)
  (computeDies.filter ok).foldl (fun b d => match b with
    | none => some d
    | some e => if num d * den e > num e * den d then some d else some e) none

/-- The hottest of the throttled dies; ties go to the lower DIE. -/
def Loupe.hotDie (l : Loupe) : Option Nat :=
  let temp (d : Nat) : Int := (SMap.get (0, 0) l.temps d).1
  l.hot.foldl (fun b d => match b with | none => some d | some e => if temp d > temp e then some d else some e) none

/-- A frequency step of one die, counted. [DEDUCED, log 41] -/
def stepDie (die f : Nat) (s : State) : State :=
  bump Config.tLoupe 0 9 1 (updLoupe (fun l => { l with freq := SMap.set 0 l.freq die f }) s)

/-- A die whose FMAX has fallen below its frequency goes down at once, in steps of 25 MHz (R544). -/
def clampDie (die : Nat) (s : State) : State :=
  let f := s.loupe.freqOf die
  let m := s.fmax die
  if f ≤ m then s else bump Config.tLoupe 0 9 ((f - m) / 25) (updLoupe (fun l => { l with freq := SMap.set 0 l.freq die m }) s)

/-- Empty or fill the reservoir for one millisecond at a mean power in mW (R533). -/
def reservoirStep (mw : Nat) (s : State) : State :=
  let l := s.loupe
  let cap := s.loupeSet 1 * 1000000
  let r := min cap (l.reservoir + l.capS * 1000 - min mw (l.reservoir + l.capS * 1000))
  let s := { s with loupe := { l with reservoir := r } }
  if r = 0 && l.reservoir != 0 then logPush 0x12 255 [] s else s

/-- The governor target in mW; before the first sample of VIN the current limit sets none. [DESIGN CHOICE, log 41] -/
def State.govTarget (s : State) : Nat :=
  let l := s.loupe
  let t := if l.reservoir = 0 then l.capS * 1000
    else if l.vinMv = 0 then l.capB * 1000
    else min (l.capB * 1000) (s.loupeSet 2 * l.vinMv - 10000)
  if l.forced then min t (s.loupeSet 3 * 1000) else t

/-- One step of the governor: R534. A throttled hub die is capped by a sixteenth, and regains one when it is throttled no more. -/
def govern (mw : Nat) (s : State) : State :=
  let l := s.loupe
  let fast (d : Nat) : Bool := decide (l.freqOf d > 800)
  match l.hotDie with
  | some d =>
    if d < 6 then (if fast d then stepDie d (l.freqOf d - 25) s else s)
    else updLoupe (fun l => { l with hubCap := SMap.upd 0 l.hubCap d fun v => min 15 (v + 1) }) s
  | none =>
    let s := updLoupe (fun l => { l with hubCap := l.hubCap.filterMap fun h => if h.2 ≤ 1 then none else some (h.1, h.2 - 1) }) s
    if mw > l.target then
      match s.busiest fast with
      | some d => stepDie d (l.freqOf d - 25) s
      | none => s
    else if mw + 10000 < l.target && l.dip.isNone && !l.forced then
      match s.busiest fun d => decide (l.freqOf d + 25 ≤ s.fmax d) && decide ((SMap.get (0, 0) l.temps d).1 ≤ 792) && !l.silent.contains d with
      | some d => stepDie d (l.freqOf d + 25) s
      | none => s
    else s

/-- A job is RUNNING or a serving model stepping: there is no idle window (R544). -/
def State.tenantsRun (s : State) : Bool := s.jobs.any (fun j => j.2.st == 1) || s.srv.models.any fun m => m.2.phase != 0

/-- GOVERNOR_STEP (R533, R534): every millisecond, with the mean input power of that millisecond in mW. -/
def execGovernorStep (mw : Nat) (s : State) : Host.Outcome State Fault Refusal :=
  if !s.diesOn then .next s
  else
    let s := atLeast (s.loupe.lastStep + Config.ms) s
    let l := s.loupe
    let caps := l.capNext.getD (l.capS, l.capB)
    let s := bump Config.tLoupe 0 0 ((l.energy + mw) / 1000 - l.energy / 1000) s
    let s := if l.hot.isEmpty then s else bump Config.tLoupe 0 5 1 s
    let s := if l.forced then bump Config.tLoupe 0 6 1 s else s
    let s := { s with loupe := { l with lastStep := s.now, busyAt := if s.tenantsRun then s.now else l.busyAt, energy := l.energy + mw, meanMw := mw, capS := caps.1, capB := caps.2, capNext := none } }
    let s := reservoirStep mw (computeDies.foldl (fun s d => clampDie d s) s)
    let s := updLoupe (fun l => { l with target := s.govTarget }) s
    let s := govern mw s
    .next (updLoupe (fun l => { l with busy := computeDies.map fun d => (d, s.dieBusy d) }) s)

/-! ### Temperature (R529, R536) -/

/-- A die is throttled from now on, which empties the reservoir. -/
def throttleOn (die : Nat) (s : State) : State :=
  if s.loupe.hot.contains die then s
  else
    let s := loupeErr 2 0x20 (logPush 0x20 die [] s)
    let was := s.loupe.reservoir
    let s := updLoupe (fun l => { l with hot := NSet.ins die l.hot, reservoir := 0 }) s
    if was = 0 then s else logPush 0x12 255 [] s

/-- A die's throttle ends once neither its junction, nor its agent, nor a stack on it asks for it. [DEDUCED, log 41] -/
def throttleOff (die : Nat) (s : State) : State :=
  let l := s.loupe
  if !l.hot.contains die || decide ((SMap.get (0, 0) l.temps die).1 ≥ 792) || l.silent.contains die
      || l.hbmHot.any (fun k => Config.dieOf Config.tHbm k == die) then s
  else
    let seq := s.log.next
    notifyTenants 0x21 seq (logPush 0x21 die [] (updLoupe (fun l => { l with hot := NSet.del die l.hot }) s))

/-- A reading of a die's hottest junction. [DEDUCED, log 41] -/
def junction (die sensor : Nat) (t : Int) (s : State) : State :=
  let l := s.loupe
  let s := updLoupe (fun l => { l with temps := SMap.set (0, 0) l.temps die (t, sensor), silent := NSet.del die l.silent }) s
  let s :=
    if t ≥ 840 && !l.critical.contains die then
      loupeErr 3 0x22 (bump Config.tLoupe 0 7 1 (logPush 0x22 die [] (updLoupe (fun l => { l with critical := NSet.ins die l.critical }) s)))
    else if t < 824 then updLoupe (fun l => { l with critical := NSet.del die l.critical }) s
    else s
  if t ≥ 800 then throttleOn die s else throttleOff die s

/-- The Store stacks of a hub die hold programs while one of them is hot (R536). -/
def storeHeat (stack : Nat) (t : Int) (s : State) : State :=
  let s := updLoupe (fun l => { l with
    storeTemp := SMap.set 0 l.storeTemp stack t
    storeHot := if t ≥ 680 then NSet.ins stack l.storeHot else if t < 640 then NSet.del stack l.storeHot else l.storeHot }) s
  let hub := stack / 4
  let hot := s.loupe.storeHot.any fun k => k / 4 == hub
  (List.range 4).foldl (fun s i => s.updCtl (4 * hub + i) fun c => { c with hot }) s

/-- THERMAL_SAMPLE (R529, R536): a reading in 1/8 °C: class 0 the hottest junction of die `inst`, 1 an HBM stack, 2 a Store stack, 3 an
optical engine. [DEDUCED, log 41] -/
def execThermalSample (cls inst sensor : Nat) (temp : Int) (s : State) : Host.Outcome State Fault Refusal :=
  if !s.diesOn then .next s
  else if cls = 0 then (if inst < 8 then .next (junction inst sensor temp s) else .next s)
  else if cls = 1 then
    if inst ≥ 8 then .next s
    else
      let die := Config.dieOf Config.tHbm inst
      let s := updLoupe (fun l => { l with
        hbmTemp := SMap.set 0 l.hbmTemp inst temp
        refresh := if temp > 680 then NSet.ins inst l.refresh else NSet.del inst l.refresh
        hbmHot := if temp ≥ 760 then NSet.ins inst l.hbmHot else NSet.del inst l.hbmHot }) s
      .next (if temp ≥ 760 then throttleOn die s else throttleOff die s)
  else if cls = 2 then (if inst < 8 then .next (storeHeat inst temp s) else .next s)
  else if cls = 3 && inst < 5 then
    let s1 := updLoupe (fun l => { l with oeTemp := SMap.set 0 l.oeTemp inst temp }) s
    .next (if temp ≥ 640 then logPush Config.engineKind (if inst < 3 then 6 else 7) (leBytes 1 inst) s1 else s1)
  else .next s

/-- SENSOR_AGENT_TIMEOUT (R529): the die counts as at 100 °C and is held at 800 MHz. -/
def execSensorAgentTimeout (die : Nat) (s : State) : Host.Outcome State Fault Refusal :=
  if !s.diesOn || die ≥ 8 || s.loupe.silent.contains die then .next s
  else
    let s := setErr Config.tLoupe 0 4 0 0 0 s
    let s := updLoupe (fun l => { l with
      silent := NSet.ins die l.silent, temps := SMap.set (0, 0) l.temps die (800, 0)
      freq := if die < 6 then SMap.set 0 l.freq die 800 else l.freq }) s
    .next (throttleOn die s)

/-! ### Supply dips (R385, R540, R541) -/

/-- Programs and erases of every stack are held, or go on. -/
def programHold (v : Bool) (s : State) : State := (List.range 8).foldl (fun s c => s.updCtl c fun x => { x with hold := v }) s

/-- VIN_DIP_BEGIN: VIN below VIN_WARN. -/
def execVinDipBegin (s : State) : Host.Outcome State Fault Refusal :=
  if !s.diesOn || s.loupe.dip.isSome then .next s
  else
    .next (programHold true (bump Config.tLoupe 0 1 1 (updLoupe (fun l => { l with dip := some (s.now, 0) }) s)))

/-- DIP_LONG: the dip has lasted a further whole second. -/
def execDipLong (s : State) : Host.Outcome State Fault Refusal :=
  match s.loupe.dip with
  | none => .next s
  | some (t, n) => .next (logPush 2 255 [] (updLoupe (fun l => { l with dip := some (t, n + 1) }) (atLeast (t + (n + 1) * Config.sec) s)))

/-- VIN_DIP_END: VIN has stayed above 11.2 V for 100 μs; the dip lasted `us` microseconds and VIN fell to `mv` mV. [DESIGN CHOICE, log 40] -/
def execVinDipEnd (us mv : Nat) (s : State) : Host.Outcome State Fault Refusal :=
  match s.loupe.dip with
  | none => .next s
  | some (t, _) =>
    let s := atLeast (t + max 100 us * Config.us) s
    let s := programHold false (bump Config.tLoupe 0 2 ((s.now - t) / Config.us) (updLoupe (fun l => { l with dip := none }) s))
    let seq := s.log.next
    .next (notifyTenants 1 seq (loupeErr 0 1 (logPush 1 255 (leBytes 4 mv ++ leBytes 8 ((s.now - t) / Config.us)) s)))

/-! ### Loss of the logic dies (R383, R537, R566, R584) -/

/-- The flush: each controller with an armed dump copies its pending buffer into the dump stripe. -/
def flushStore (s : State) : State :=
  (List.range 8).foldl (fun s c =>
    let x := s.ctl c
    if x.armed then
      bump Config.tStore c 15 1 (s.setCtl c ((List.range 16).foldl (fun x d => x.updBlock (bkey d dumpStripe) fun b => { b with st := 2 })
        { x with dump := some x.pend, pend := [], armed := false }))
    else s.setCtl c { x with pend := [] }) s

/-- An image at a cold reset: OPEN and CLOSING become FAILED, ACTIVE becomes READY, and no image has an owner (R167, R168, R173). -/
def coldImage (g : Image) : Image :=
  { g with st := if g.st = 0 || g.st = 1 then 5 else if g.st = 3 then 2 else g.st, owner := 0, writes := [], op := none, scrub := 0 }

/-- Blocks found at a cold reset: OPEN and ERASING ones are erased again, and the source of a relocation that had not switched holds its data
still (R383, R384). -/
def coldCtl (c : Ctl) : Ctl :=
  { c with st := 0, armed := false, holdup := false, limit := 0, hold := false, hot := false, reloc := none, slcDone := false, scrubbed := [], win := 0, used := []
           turns := []
           blocks := c.blocks.map fun b => if b.2.st = 1 || b.2.st = 5 then (b.1, { b.2 with st := 0, pages := 0, pe := b.2.pe + 1 })
             else if b.2.st = 3 then (b.1, { b.2 with st := 2 }) else b }

/-- Counters that outlast a cold reset: STORE_CNT_DUMPS, LOUPE_CNT_CRITICAL and LOUPE_CNT_TRIPS (R389, R556). -/
def coldUnits (us : List (Nat × UnitRegs)) : List (Nat × UnitRegs) :=
  us.filterMap fun u =>
    let keep : List (Nat × Nat) :=
      if u.1 / 65536 = Config.tStore then u.2.cnt.filter fun c => c.1 == 15
      else if u.1 / 65536 = Config.tLoupe then u.2.cnt.filter fun c => c.1 == 7 || c.1 == 8
      else []
    if keep.isEmpty then none else some (u.1, { UnitRegs.init with cnt := keep })

/-- Loupe when the logic dies go off: what it reads there and what it was doing there ends. -/
def Loupe.off (l : Loupe) : Loupe :=
  { l with dip := none, ilDuty := 100, ilBelow := none, window := false, temps := [], hot := [], critical := [], silent := [], hbmTemp := [], storeTemp := []
           oeTemp := [], refresh := [], hbmHot := [], storeHot := [], hubCap := [], freq := [], busy := [], meanMw := 0, amps := 0, staging := none
           burning := none, planTodo := [], planRetry := 0 }

/-- What remains with the logic dies off: the AON domain, persistent storage, and the memory of the host (R566). -/
def powerOff (s : State) : State :=
  { State.reset with
    pending := s.pending, now := s.now, free := s.free, keys := s.keys
    sys := { Sys.init with
      vaux := s.sys.vaux, vin := s.sys.vin, perst := s.sys.perst, slot := s.sys.slot, svn := s.sys.svn, rollback := s.sys.rollback
      debug := s.sys.debug, msgs := s.sys.msgs, netOut := s.sys.netOut, outbound := s.sys.outbound, strapPod := s.sys.strapPod
      strapMgmt := s.sys.strapMgmt, sysReset := s.sys.sysReset, fused := s.sys.fused }
    mbs := s.mbs.filter fun m => decide (m.1 ≥ Config.mailboxes + 4)
    mem := { Mems.init with store := s.mem.store, storePoison := s.mem.storePoison, host := s.mem.host, hostPoison := s.mem.hostPoison }
    units := coldUnits s.units
    log := { s.log with notif := [], slots := [] }
    images := (s.images.filter fun i => i.2.st != 6).map fun i => (i.1, coldImage i.2)
    mirror := { Mirror.init with
      ckpts := s.mirror.ckpts.filter (fun k => decide (k.1 ≥ 4) && k.2.st == 3), last := s.mirror.last.filter fun k => decide (k.1 ≥ 2) }
    ctls := s.ctls.map fun c => (c.1, coldCtl c.2)
    sec := { s.sec with session := s.sec.session.filter (· ≠ 0), sent := [], seen := [] }
    loupe := s.loupe.off }

/-- POWER_LOSS_FLUSH (R383): VIN below VIN_RESET. The flush, then the logic dies are off until VIN is in range again. -/
def execPowerLossFlush (s : State) : Host.Outcome State Fault Refusal :=
  if !s.sys.vaux || !s.sys.vin then .next s
  else
    let s := if s.loupe.trip.isNone then flushStore s else s
    let on := s.diesOn
    let s := { s with sys := { s.sys with vin := false, sysReset := none }, loupe := { s.loupe with lost := s.loupe.lost || on } }
    .next (powerOff s)

/-- THERMAL_TRIP (R537): a junction at 115 °C. -/
def execThermalTrip (s : State) : Host.Outcome State Fault Refusal :=
  if !s.diesOn || !s.loupe.temps.any (fun t => decide (t.2.1 ≥ 920)) then .next s
  else
    let die := ((s.loupe.temps.find? fun t => decide (t.2.1 ≥ 920)).map (·.1)).getD 255
    let seq := s.log.next
    let s := notifyTenants 0x23 seq (logPush 0x23 die [] (bump Config.tLoupe 0 8 1 s))
    let s := flushStore s
    .next (powerOff { s with loupe := { s.loupe with thermtrip := true, trip := some s.now } })

/-- TRIP_RELEASE (R538): at least 2 s after the regulators went off, with every substrate sensor below 80 °C. The COLD reset that
follows is taken when VIN is in range. -/
def execTripRelease (substrate : List Int) (s : State) : Host.Outcome State Fault Refusal :=
  match s.loupe.trip with
  | none => .next s
  | some t =>
    if !s.sys.vaux || substrate.length ≠ 4 || substrate.any (fun x => decide (x ≥ 640)) then .next s
    else .next (updLoupe (fun l => { l with trip := none, thermtrip := false, tripped := true }) (atLeast (t + 2 * Config.sec) s))

/-- Log entries that are not in the SLC log yet. -/
def LogState.uncopied (l : LogState) : List LogEntry :=
  let last := match l.slc.getLast? with | some e => e.seq + 1 | none => 0
  l.aon.filter fun e => decide (last ≤ e.seq)

/-- Copy the AON ring into the SLC log, which wraps (R546). -/
def logCopy (s : State) : State :=
  let new := s.log.uncopied
  let l := s.log.slc ++ new
  bump Config.tLoupe 0 11 new.length { s with log := { s.log with slc := l.drop (l.length - 16777216) } }

/-- LOG_COPY (R546). -/
def execLogCopy (s : State) : Host.Outcome State Fault Refusal := if !s.diesOn || !s.sys.valid then .next s else .next (logCopy s)

/-- VAUX_LOST (R584): with VIN in range the flush runs, the log ring is copied and the logic dies go off; in either case the AON
domain shuts down. -/
def execVauxLost (s : State) : Host.Outcome State Fault Refusal :=
  if !s.sys.vaux then .next s
  else
    let s := if s.diesOn then logCopy (flushStore s) else s
    let s := powerOff { s with loupe := { s.loupe with lost := s.loupe.lost || s.diesOn } }
    let l := s.loupe
    .next { s with
      mbs := []
      sys := { s.sys with vaux := false, sysReset := none }
      log := { s.log with aon := [] }
      sec := { s.sec with session := [], eid := [] }
      loupe := { Loupe.init with
        slots := l.slots, trial := l.trial, planAt := l.planAt, planDue := l.planDue, plans := l.plans, planIdle := l.planIdle, planned := l.planned
        ledger := l.ledger, bank := l.bank, lost := l.lost, forced := l.forced, trip := l.trip, tripped := l.tripped } }

/-- VAUX_APPLIED (R528, R582, R584): the AON reset is released, the straps are sampled, and Loupe runs. [DESIGN CHOICE, log 2, 72] -/
def execVauxApplied (pod mgmt : Nat) (s : State) : Host.Outcome State Fault Refusal :=
  if s.sys.vaux then .next s
  else .next { s with
    sys := { s.sys with vaux := true, strapPod := pod % 64, strapMgmt := mgmt % 4 }
    loupe := { s.loupe with aonStart := s.now, thermtrip := s.loupe.trip.isSome } }

end Sys2Proof.Machine
end

