-- ==== Sys2Proof/Machine/Security.lean ====
section
/-! DEFINITION. Sys2Proof/Machine/Security.lean: the commands of group 0x0B, key rolls, and the SPDM responder (R507–R518, R525). -/

namespace Sys2Proof.Machine
open Sys2Proof

/-! ### Certificates (R508, R511) -/

/-- SEC_CERTS: the bytes of a chain at an offset. -/
def specSecCerts : CmdSpec where
  opcode := 0x0B00
  access := 0
  p := false
  len := fixed 10
  rsv := rsvAt [(1, 3)]
  resp := fun _ p => field p 8 2
  run := fun _ p s =>
    if field p 0 1 > 1 then .fail eBadArgument 0
    else if field p 8 2 = 0 then .fail eBadArgument 8
    else .ok (((Config.certChain (field p 0 1)).drop (field p 4 4)).take (field p 8 2)) s

def execSecCerts (q : Request) (s : State) : Host.Outcome State Fault Refusal := submit specSecCerts q s

/-! ### Measurements (R509, R512) -/

/-- "id" of R515: what SECRET_ID is derived with. -/
def secretId (nonce : Nat) (cs : Bytes) : Bytes := fitTo 16 (Config.hkdf cs (Config.drbg nonce 32) [0x69, 0x64] 16)

/-- The value of a measurement index, if the part has it (R509). [DEDUCED, log 36] -/
def State.measurement (s : State) (ix : Nat) : Option Bytes :=
  if ix = 1 then some (fitTo 48 Config.bootRom)
  else if ix = 2 then some (fitTo 48 s.sec.loupeFw)
  else if ix = 3 then some (fitTo 48 s.sec.sciFw ++ leBytes 1 s.sys.slot ++ leBytes 1 s.sys.svn)
  else if ix = 4 then some (leBytes 1 s.sys.rollback ++ leBytes 1 s.sys.svn ++ leBytes 1 s.sys.debug)
  else if 0x10 ≤ ix ∧ ix ≤ 0x13 then
    let a := SMap.get Agent.init s.agents (ix - 0x10)
    some (if a.st = 0 then zeros 49 else fitTo 48 a.measure ++ leBytes 1 a.ctx)
  else if 0x20 ≤ ix ∧ ix ≤ 0x2F then
    some (match s.image (ix - 0x20) with
      | none => zeros 114
      | some g => fitTo 48 (s.imgDigest g) ++ fitTo 16 (s.imgId g) ++ leBytes 1 g.st ++ leBytes 1 (if g.owner = 0 then 255 else g.owner - 1)
          ++ (if g.sealed then fitTo 48 (Config.sha384 ((s.sealBlock g).take 436)) else zeros 48))
  else if 0x41 ≤ ix ∧ ix ≤ 0x7F then
    let x := s.ctx (ix - 0x40)
    some (if x.st = 0 then zeros 57
      else fitTo 32 (Config.drbg x.nonce 32) ++ leBytes 8 x.epoch
        ++ leBytes 1 (b2n x.secret.isSome + 2 * b2n x.confidential + 4 * b2n x.requireIde)
        ++ (match x.secret with | some cs => secretId x.nonce cs | none => zeros 16))
  else none

/-- All measurement indices. -/
def allIndices : List Nat :=
  [1, 2, 3, 4] ++ (List.range 4).map (· + 0x10) ++ (List.range 16).map (· + 0x20) ++ (List.range 63).map (· + 0x41)

/-- One measurement block of an SPDM MEASUREMENTS response, as a raw bit stream. [DEDUCED, log 36] -/
def State.measureBlock (s : State) (ix : Nat) : Bytes :=
  match s.measurement ix with
  | none => []
  | some v => leBytes 1 ix ++ [1] ++ leBytes 2 (v.length + 3) ++ leBytes 1 (128 + Config.spdmType ix % 128) ++ leBytes 2 v.length ++ v

/-- An SPDM 1.3 MEASUREMENTS response over some indices, signed with AK when asked for, and the state that has drawn its nonce. [DEDUCED, log 36] -/
def measurements (ixs : List Nat) (nonce reqCtx : Bytes) (sign : Bool) (slot : Nat) (s : State) : Bytes × State :=
  let rec_ := ixs.flatMap s.measureBlock
  let body := [0x13, 0x60, 0] ++ leBytes 1 slot ++ leBytes 1 ixs.length ++ leBytes 3 rec_.length ++ rec_
    ++ fitTo 32 (Config.drbg (s.keys + 1) 32) ++ zeros 2 ++ fitTo 8 reqCtx
  let s := { s with keys := s.keys + 1 }
  if sign then
    (body ++ fitTo 96 (Config.akSign s.sec.signs (Config.sha384 (nonce ++ body))), { s with sec := { s.sec with signs := s.sec.signs + 1 } })
  else (body, s)

/-- The job or a serving model of a context names the image. -/
def State.imageOf (s : State) (c h : Nat) : Bool :=
  s.jobs.any (fun j => j.2.ctx == c && field j.2.header 4 2 == h)
  || s.srv.models.any fun m => m.2.ctx == c && field m.2.block 0 1 == 0 && field m.2.block 2 2 == h

/-- The indices that SEC_MEASUREMENTS reports for a context (R511, R512). -/
def State.ctxIndices (s : State) (c : Nat) : List Nat :=
  [1, 2, 3, 4]
  ++ ((List.range 4).filter fun n => (SMap.get Agent.init s.agents n).st != 0 && (SMap.get Agent.init s.agents n).ctx == c).map (· + 0x10)
  ++ ((List.range 16).filter fun h => match s.image h with
        | none => false
        | some g => c == 0 || g.owner == c + 1 || (g.owner == 0 && s.imageOf c h)).map (· + 0x20)
  ++ (if c = 0 then [] else [0x40 + c])

/-- SEC_MEASUREMENTS. [DEDUCED, log 36] -/
def specSecMeasurements : CmdSpec where
  opcode := 0x0B01
  access := 0
  p := false
  len := fixed 40
  rsv := rsvAt [(1, 7)]
  resp := fun s p => (measurements (s.ctxIndices (field p 0 1)) [] [] true 0 s).1.length
  run := fun i p s =>
    let c := field p 0 1
    if i.ctx ≠ 0 && c ≠ i.ctx then .fail ePermission 0
    else if c > 63 then .fail eBadArgument 0
    else
      let (r, s) := measurements (s.ctxIndices c) ((p.drop 8).take 32) [] true 0 s
      .ok r s

def execSecMeasurements (q : Request) (s : State) : Host.Outcome State Fault Refusal := submit specSecMeasurements q s

/-! ### Context secrets and key rolls (R514, R516) -/

/-- "ID860 context secret" (R514). -/
def ctxSecretInfo : Bytes :=
  [0x49, 0x44, 0x38, 0x36, 0x30, 0x20, 0x63, 0x6F, 0x6E, 0x74, 0x65, 0x78, 0x74, 0x20, 0x73, 0x65, 0x63, 0x72, 0x65, 0x74]

/-- The context secret that a roll wraps, if its tag holds. [DEDUCED, log 38] -/
def State.unwrapSecret (s : State) (c : Nat) (p : Bytes) : Option Bytes :=
  let nonce := Config.drbg (s.ctx c).nonce 32
  let kek := Config.hkdf (Config.ecdhXk ((p.drop 16).take 97)) nonce ctxSecretInfo 32
  Config.gcmOpen kek ((p.drop 128).take 12) (nonce ++ (p.drop 1).take 1 ++ (p.drop 8).take 8 ++ p.take 1) ((p.drop 140).take 32)
    ((p.drop 172).take 16)

/-- A roll of the context is PENDING. -/
def State.rolling (s : State) (c : Nat) : Bool := s.ops.any fun o => o.opcode == 0x0B02 && field o.payload 1 1 == c

/-- SEC_CTX_KEY_ROLL: SECRET and the two flags take effect at acceptance; a replaced HBM key counts from the last page on. [DEDUCED, log 38] -/
def specSecCtxKeyRoll : CmdSpec where
  opcode := 0x0B02
  access := 0
  p := true
  len := fixed 256
  rsv := rsvAt [(2, 6), (113, 15), (188, 68)]
  rbits := rsvAt [(0, 0xF0)]
  resp := respOf 8
  run := fun i p s =>
    let fl := field p 0 1
    let c := field p 1 1
    let x := s.ctx c
    if i.ctx ≠ 0 && c ≠ i.ctx then .fail ePermission 1
    else if c = 0 || c > 63 then .fail eBadArgument 1
    else if s.rolling c then .fail eBusy 0
    else if x.st ≠ 1 then .fail eState x.st
    else if field p 8 8 ≠ x.epoch then .fail 0x2B03 (x.epoch % 2 ^ 32)
    else if bitOf fl 3 && !bitOf fl 0 && x.secret.isNone then .fail 0x2B00 c
    else
      let cs := if bitOf fl 0 then s.unwrapSecret c p else x.secret
      if bitOf fl 0 && cs.isNone then .fail eIntegrity 0
      else
        let y := { x with secret := cs.map (fitTo 32), requireIde := x.requireIde || bitOf fl 2, confidential := x.confidential || bitOf fl 3 }
        if bitOf fl 1 then
          .pend ({ s with keys := s.keys + 1 }.setCtx c { y with oldKey := y.hbmKey, hbmKey := s.keys + 1 })
        else if i.defer then .pend (s.setCtx c y)
        else .ok (leBytes 8 (x.epoch + 1)) (s.setCtx c { y with epoch := x.epoch + 1 })

def execSecCtxKeyRoll (q : Request) (s : State) : Host.Outcome State Fault Refusal := submit specSecCtxKeyRoll q s

/-- KEY_ROLL_REENCRYPT_COMPLETE (R516): every page stands under the new key, and the old key is destroyed. [DEDUCED, log 38] -/
def execKeyRollReencryptComplete (ctx : Nat) (s : State) : Host.Outcome State Fault Refusal :=
  match s.ops.find? fun o => o.opcode == 0x0B02 && field o.payload 1 1 == ctx with
  | none => .next s
  | some o =>
    if s.isFatal then .next s
    else
      let e := (s.ctx ctx).epoch + 1
      .next (finishOp o.ctx o.handle eOk 0 (leBytes 8 e) (s.updCtx ctx fun x => { x with epoch := e, oldKey := 0 }))

/-! ### Debug state (R525) -/

/-- SEC_DEBUG_STATE. OP 1 and OP 2 need an administrative mailbox. -/
def specSecDebugState : CmdSpec where
  opcode := 0x0B03
  access := 0
  p := false
  len := fun p => some (if field p 0 1 = 1 then 513 else 1)
  rsv := noRsv
  resp := respOf 13
  run := fun i p s =>
    let op := field p 0 1
    let answer (s : State) : Res :=
      let o := b2n (s.sys.debug == 2)
      .ok (leBytes 1 s.sys.debug ++ leBytes 1 o ++ leBytes 1 o ++ zeros 5 ++ leBytes 4 s.sys.svn ++ leBytes 1 s.sys.rollback) s
    if op ≠ 0 && !isAdmin i.mb then .fail ePermission 0
    else if op > 2 then .fail eBadArgument 0
    else if op = 1 then
      if !Config.unlockToken (p.drop 1) s.sys.rollback then .fail eIntegrity 0
      else answer { s with sec := { s.sec with token := true }, sys := { s.sys with debug := max s.sys.debug 1 } }
    else if op = 2 then
      answer { s with sec := { s.sec with token := false }, sys := { s.sys with debug := if s.sys.debug = 1 then 0 else s.sys.debug } }
    else answer s

def execSecDebugQuery (q : Request) (s : State) : Host.Outcome State Fault Refusal := submit specSecDebugState (withOp 0 q) s
def execSecDebugStageUnlock (q : Request) (s : State) : Host.Outcome State Fault Refusal := submit specSecDebugState (withOp 1 q) s
def execSecDebugCancel (q : Request) (s : State) : Host.Outcome State Fault Refusal := submit specSecDebugState (withOp 2 q) s

/-! ### The SPDM responder (R510). Transports: 0 DOE, 1 MCTP over I3C, 2 MCTP over SMBus. -/

/-- Loupe answers on a transport: DOE needs the host link, and the device keys exist from the first cold reset on (R507). -/
def State.spdmUp (s : State) (t : Nat) : Bool := s.sys.vaux && decide (0 < s.sec.boot) && decide (t ≤ 2) && (t != 0 || s.host.up)

/-- Loupe sends an answer on a transport. [PRESUMED, log 27] -/
def spdmSend (t : Nat) (bs : Bytes) (s : State) : State := { s with sec := { s.sec with out := s.sec.out ++ [(t, bs)] } }

/-- An SPDM ERROR response with an error code. [PRESUMED, log 27] -/
def spdmError (code : Nat) : Bytes := [0x13, 0x7F] ++ leBytes 1 code ++ [0]

/-- SPDM_GET_CERTIFICATE: a portion of the chain of slot 0 or 1. [PRESUMED, log 27] -/
def execSpdmGetCertificate (transport slot off len : Nat) (s : State) : Host.Outcome State Fault Refusal :=
  if !s.spdmUp transport then .next s
  else if slot > 1 || off ≥ (Config.certChain slot).length then .next (spdmSend transport (spdmError 1) s)
  else
    let rest := (Config.certChain slot).drop off
    let part := rest.take (len % 65536)
    .next (spdmSend transport ([0x13, 0x02] ++ leBytes 1 slot ++ [0] ++ leBytes 2 part.length ++ leBytes 2 (rest.length - part.length) ++ part) s)

/-- SPDM_CHALLENGE: a signature of AK over a fresh nonce, the chain's hash and the requester's nonce. [PRESUMED, log 27] -/
def execSpdmChallenge (transport slot : Nat) (nonce : List Byte) (summary : Bool) (s : State) : Host.Outcome State Fault Refusal :=
  if !s.spdmUp transport then .next s
  else if slot > 1 then .next (spdmSend transport (spdmError 1) s)
  else
    let body := [0x13, 0x03] ++ leBytes 1 slot ++ [3] ++ fitTo 48 (Config.sha384 (Config.certChain slot)) ++ fitTo 32 (Config.drbg (s.keys + 1) 32)
      ++ (if summary then fitTo 48 (Config.sha384 (allIndices.flatMap s.measureBlock)) else []) ++ zeros 10
    .next (spdmSend transport (body ++ fitTo 96 (Config.akSign s.sec.signs (Config.sha384 (nonce ++ body))))
      { s with keys := s.keys + 1, sec := { s.sec with signs := s.sec.signs + 1 } })

/-- SPDM_GET_MEASUREMENTS: one index, or all of them (0xFF), signed when asked for. [PRESUMED, log 27] -/
def execSpdmGetMeasurements (transport index : Nat) (nonce : List Byte) (signed : Bool) (s : State) : Host.Outcome State Fault Refusal :=
  if !s.spdmUp transport then .next s
  else
    let ixs := if index = 255 then allIndices else allIndices.filter (· == index)
    if ixs.isEmpty then .next (spdmSend transport (spdmError 1) s)
    else
      let (r, s) := measurements ixs nonce [] signed 0 s
      .next (spdmSend transport r s)

/-- SPDM_KEY_EXCHANGE: a secured session on the transport; on DOE it carries IDE_KM (R518). [PRESUMED, log 27] -/
def execSpdmKeyExchange (transport slot : Nat) (msg : List Byte) (s : State) : Host.Outcome State Fault Refusal :=
  if !s.spdmUp transport then .next s
  else if slot > 1 then .next (spdmSend transport (spdmError 1) s)
  else
    .next (spdmSend transport ([0x13, 0x64, 0, 0] ++ Config.keyExchange s.sec.signs msg)
      { s with sec := { s.sec with signs := s.sec.signs + 1, session := NSet.ins transport s.sec.session } })

end Sys2Proof.Machine
end

