-- ==== Sys2Proof/Machine/Loupe.lean ====
section
/-! DEFINITION. Sys2Proof/Machine/Loupe.lean: the commands of group 0x0A, firmware update, and re-plans (R542–R553). -/

namespace Sys2Proof.Machine
open Sys2Proof

/-! ### Sensors (R529, R552) -/

/-- One reading: sensor number, class, value. -/
def reading (n cls v : Nat) : Bytes := leBytes 2 n ++ leBytes 1 cls ++ [0] ++ leBytes 4 v
/-- A temperature as the signed field of a reading. -/
def tempField (t : Int) : Nat := (t % 2 ^ 32).toNat

/-- Readings of a die and what hangs on it. -/
def State.dieSensors (s : State) (die : Nat) : Bytes :=
  let l := s.loupe
  let free (c n : Nat) : Nat := Config.sensor die c n s.now
  let hottest := SMap.get (0, 16) l.temps die
  let hung (ty n : Nat) : List Nat := (List.range n).filter fun k => Config.dieOf ty k == die
  ((List.range 16).flatMap fun n => reading n 0 (if hottest.2 = n then tempField hottest.1 else free 0 n))
  ++ ((hung Config.tHbm 8).flatMap fun k => reading k 1 (tempField (SMap.get 0 l.hbmTemp k)))
  ++ ((hung Config.tStore 8).flatMap fun k => reading (2 * k) 2 (tempField (SMap.get 0 l.storeTemp k)) ++ reading (2 * k + 1) 2 (free 2 (2 * k + 1)))
  ++ ((if die = 6 then [0, 1, 2] else if die = 7 then [2, 3, 4] else []).flatMap fun e =>
        reading (2 * e) 3 (tempField (SMap.get 0 l.oeTemp e)) ++ reading (2 * e + 1) 3 (free 3 (2 * e + 1)))
  ++ ((List.range (2 * Config.rails die)).flatMap fun n => reading n 4 (free 4 n))
  ++ ((List.range 64).flatMap fun n => reading n 7 (free 7 n))
  ++ ((hung Config.tPort 40).flatMap fun p => reading p 8 (free 8 p))

/-- Readings of the package: VIN and input current, VAUX, the hold-up bank, the substrate. -/
def State.packageSensors (s : State) : Bytes :=
  let l := s.loupe
  reading 0 5 l.vinMv ++ reading 1 5 (l.amps * 100) ++ reading 0 6 (Config.sensor 255 6 0 s.now) ++ reading 1 6 (Config.sensor 255 6 1 s.now) ++ reading 0 9 l.bank
    ++ (List.range 4).flatMap fun n => reading n 10 (Config.sensor 255 10 n s.now)

/-- What LOUPE_SENSORS reports; with the logic dies off only the AON domain and the bank are read. -/
def State.sensors (s : State) (die : Nat) : Bytes := if die = 255 then s.packageSensors else if s.diesOn then s.dieSensors die else []

/-- LOUPE_SENSORS. -/
def specLoupeSensors : CmdSpec where
  opcode := 0x0A00
  access := 0
  p := false
  len := fixed 1
  rsv := noRsv
  resp := fun s p => (s.sensors (field p 0 1)).length
  run := fun _ p s => if field p 0 1 > 7 && field p 0 1 ≠ 255 then .fail eBadArgument 0 else .ok (s.sensors (field p 0 1)) s

def execLoupeSensors (q : Request) (s : State) : Host.Outcome State Fault Refusal := submit specLoupeSensors q s

/-! ### The ledger and the log (R545, R546) -/

/-- The setting that an entry of a KIND reports. -/
def State.ledgerSetting (s : State) (kind inst : Nat) : Nat :=
  match kind with
  | 0 => s.loupeSet (0x10 + inst) | 1 => s.valueOf Config.tHbm inst 1 | 2 => s.valueOf Config.tStore inst 9
  | 3 => s.valueOf Config.tPort inst 2 | _ => 0

/-- The ledger: header and entries. -/
def State.ledgerBytes (s : State) : Bytes :=
  let l := s.loupe
  leBytes 4 l.ledger.length ++ leBytes 8 l.planAt ++ leBytes 8 l.planDue ++ leBytes 4 l.plans ++ zeros 8
    ++ l.ledger.flatMap fun e => splice e.2.2 12 (leBytes 4 (s.ledgerSetting e.1 e.2.1))

/-- LOUPE_LEDGER. -/
def specLoupeLedger : CmdSpec where
  opcode := 0x0A01
  access := 1
  p := false
  len := fixed 0
  rsv := noRsv
  resp := fun s _ => s.ledgerBytes.length
  run := fun _ _ s => .ok s.ledgerBytes s

def execLoupeLedger (q : Request) (s : State) : Host.Outcome State Fault Refusal := submit specLoupeLedger q s

/-- The 64 bytes of a log entry (R546). -/
def LogEntry.bytes (e : LogEntry) : Bytes :=
  leBytes 8 e.seq ++ leBytes 8 e.tick ++ leBytes 8 e.aonUs ++ leBytes 2 e.kind ++ leBytes 1 e.sev ++ leBytes 1 e.die ++ zeros 4 ++ fitTo 32 e.data

/-- Entries of a SEQ range: those of the SLC log and those that stand in AON SRAM only; with the logic dies off, the AON ring (R551).
[DEDUCED, log 68] -/
def State.logRange (s : State) (first n : Nat) : List LogEntry :=
  (if s.diesOn then s.log.slc ++ s.log.uncopied else s.log.aon).filter fun e => decide (first ≤ e.seq ∧ e.seq < first + n)

/-- LOUPE_LOG_READ. -/
def specLoupeLogRead : CmdSpec where
  opcode := 0x0A02
  access := 1
  p := false
  len := fixed 12
  rsv := noRsv
  resp := fun _ p => 64 * field p 8 4
  run := fun _ p s =>
    let n := field p 8 4
    if n = 0 || n > 16384 then .fail eBadArgument 8 else .ok ((s.logRange (field p 0 8) n).flatMap LogEntry.bytes) s

def execLoupeLogRead (q : Request) (s : State) : Host.Outcome State Fault Refusal := submit specLoupeLogRead q s

/-- LOUPE_POWER_CAP: the caps hold from the next governor step on. [DEDUCED, log 41] -/
def specLoupePowerCap : CmdSpec where
  opcode := 0x0A03
  access := 1
  p := false
  len := fixed 4
  rsv := noRsv
  resp := respOf 4
  run := fun _ p s =>
    let a := field p 0 2
    let b := field p 2 2
    if a < 300 || a > 700 then .fail 0x2A02 700
    else if b < a || b > 950 then .fail 0x2A02 950
    else .ok (leBytes 2 s.loupe.capS ++ leBytes 2 s.loupe.capB) (updLoupe (fun l => { l with capNext := some (a, b) }) s)

def execLoupePowerCap (q : Request) (s : State) : Host.Outcome State Fault Refusal := submit specLoupePowerCap q s

/-! ### Firmware (R548–R550) -/

/-- Slot `k`: 0 A, 1 B. -/
def Loupe.slotOf (l : Loupe) (k : Nat) : FwSlot := if k = 0 then l.slots.1 else l.slots.2
def Loupe.setSlot (l : Loupe) (k : Nat) (x : FwSlot) : Loupe := { l with slots := if k = 0 then (x, l.slots.2) else (l.slots.1, x) }

/-- LOUPE_FW (R555). -/
def State.fwReg (s : State) : Nat :=
  let l := s.loupe
  s.sys.slot % 2 + 2 * b2n l.trial.isSome + 4 * ((l.slotOf (1 - s.sys.slot)).cond % 3) + 2 ^ 8 * (l.slots.1.svn % 64)
    + 2 ^ 16 * (l.slots.2.svn % 64) + 2 ^ 24 * (s.sys.rollback % 64)

/-- LOUPE_FW_STAGE: the bundle goes into the slot that is not running; FW_STAGE_VERIFIED ends the command. -/
def specLoupeFwStage : CmdSpec where
  opcode := 0x0A04
  access := 1
  p := true
  len := fixed 16
  rsv := rsvAt [(9, 3)]
  resp := respOf 0
  run := fun i p s =>
    let a := field p 0 8
    let sp := field p 8 1
    let n := field p 12 4
    if sp > 1 then .fail eBadArgument 8
    else if n = 0 || n > 32 * 2 ^ 20 then .fail eBadArgument 12
    else if s.loupe.staging.isSome then .fail eBusy 0
    else if s.loupe.trial.isSome then .fail 0x2A01 (s.fwReg % 2 ^ 32)
    else if !s.reach i.ctx sp a n then .fail eAddress 0
    else if s.spaceBad sp a n then
      .failWith eAborted 0 (raise { code := if sp = 0 then 3 else 0xD, status := eAborted, flags := 1, ty := 0, inst := 0, ctx := i.ctx
                                    ring := 0xFFFF, index := 0, addr := a, space := if sp = 0 then 1 else 3 } s)
    else
      let k := 1 - s.sys.slot
      .pend (updLoupe (fun l => { l.setSlot k { l.slotOf k with cond := 0 } with staging := some (i.ctx, i.handle, s.spaceRead sp a n) }) s)

def execLoupeFwStage (q : Request) (s : State) : Host.Outcome State Fault Refusal := submit specLoupeFwStage q s

/-- FW_STAGE_VERIFIED (R509, R549). -/
def execFwStageVerified (s : State) : Host.Outcome State Fault Refusal :=
  match s.loupe.staging with
  | none => .next s
  | some (c, h, b) =>
    let k := 1 - s.sys.slot
    let s := updLoupe (fun l => { l with staging := none }) s
    match Config.bundle b with
    | none => .next (finishOp c h eIntegrity 0 [] s)
    | some (v, lo, sc) =>
      if v % 64 < s.sys.rollback then .next (finishOp c h 0x2A00 s.sys.rollback [] s)
      else
        let s := updLoupe (fun l => l.setSlot k { cond := 1, svn := v % 64, loupe := fitTo 48 lo, sci := fitTo 48 sc }) s
        .next (finishOp c h eOk 0 (leBytes 8 b.length ++ leBytes 1 k ++ leBytes 1 (v % 64)) (logPush 0x40 255 [] s))

/-- A job with the student role is RUNNING or protected (R550). -/
def State.studentHolds (s : State) : Bool :=
  match s.studentJob with
  | some (h, j) => j.st == 1 || s.mirror.prot.any fun p => p.job == h
  | none => false

/-- LOUPE_FW_ACTIVATE with OP ACTIVATE, COMMIT and REVERT. -/
def specLoupeFwActivate : CmdSpec where
  opcode := 0x0A05
  access := 1
  p := true
  len := fixed 2
  rsv := noRsv
  rbits := rsvAt [(1, 0xFE)]
  resp := respOf 1
  run := fun i p s =>
    let op := field p 0 1
    let l := s.loupe
    let noSlot : Res := .fail 0x2A01 (s.fwReg % 2 ^ 32)
    if op = 0 then
      if l.dip.isSome then .fail eBusy 0
      else if s.studentHolds && field p 1 1 = 0 then .fail eBusy 0
      else if (l.slotOf (1 - s.sys.slot)).cond ≠ 1 then noSlot
      else .ok [] { s with sys := { s.sys with sysReset := some ((s.sys.sysReset).getD 0) }, loupe := { l with swap := 1 } }
    else if op = 1 then
      if l.dip.isSome || l.burning.isSome then .fail eBusy 0
      else if l.trial.isNone && s.sys.rollback ≥ s.sys.svn then noSlot
      else .pend (updLoupe (fun l => { l with trial := none, burning := some (i.ctx, i.handle) }) s)
    else if op = 2 then
      if (l.slotOf (1 - s.sys.slot)).cond ≠ 2 then noSlot
      else .ok [] { s with sys := { s.sys with sysReset := some ((s.sys.sysReset).getD 0) }, loupe := { l with swap := 2 } }
    else .fail eBadArgument 0

def execLoupeFwActivate (q : Request) (s : State) : Host.Outcome State Fault Refusal := submit specLoupeFwActivate (withOp 0 q) s
def execLoupeFwCommit (q : Request) (s : State) : Host.Outcome State Fault Refusal := submit specLoupeFwActivate (withOp 1 q) s
def execLoupeFwRevert (q : Request) (s : State) : Host.Outcome State Fault Refusal := submit specLoupeFwActivate (withOp 2 q) s

/-- FUSE_STEP_COMPLETE (R541, R550): one step of the anti-rollback counter is burned, and the next starts unless a dip is in progress;
when the counter equals the running SVN, COMMIT completes and a FALLBACK slot below it becomes INVALID. -/
def execFuseStepComplete (s : State) : Host.Outcome State Fault Refusal :=
  match s.loupe.burning with
  | none => .next s
  | some (c, h) =>
    let s := if s.sys.rollback < s.sys.svn then logPush 0x43 255 [] { s with sys := { s.sys with rollback := s.sys.rollback + 1 } } else s
    if s.sys.rollback ≥ s.sys.svn then
      let k := 1 - s.sys.slot
      let s := updLoupe (fun l =>
        let x := l.slotOf k
        let l := { l with burning := none }
        if x.cond = 2 && x.svn < s.sys.rollback then l.setSlot k { x with cond := 0 } else l) s
      .next (finishOp c h eOk 0 (leBytes 1 s.sys.rollback) s)
    else if s.loupe.dip.isSome then .next (finishOp c h eAborted 0 [] (updLoupe (fun l => { l with burning := none }) s))
    else .next s

/-! ### Re-plans (R542–R544) -/

/-- What a re-plan measures of one item: the ledger entry's KIND, INSTANCE, A, B and LIFE_DAYS. -/
abbrev Measure := Nat × Nat × Nat × Nat × Nat

/-- FMAX after the guardband, both as the drift of a die gives them: FMAX falls while the rail would stand above 0.90 V. -/
def planFmax (die guard : Nat) : Nat → Nat → Nat
  | 0, f => f
  | n + 1, f => if Config.railMv die f + guard > 900 && f > 800 then planFmax die guard n (f - 25) else f

/-- Settings that the drift of a die, in ps, asks for (R542). -/
def State.planDie (s : State) (die drift : Nat) : List (Nat × Nat × Nat × Nat) :=
  let guard := min 100 (Config.fusedGuard die % 101 + drift / 2)
  (Config.tLoupe, 0, 0x10 + die, guard)
    :: (if die < 6 then [(Config.tLoupe, 0, 0x20 + die, planFmax die guard 45 (s.fmax die))] else [])

/-- Settings that a re-plan may change by its other measurements (R543). -/
def planSetting (ty n : Nat) : Bool :=
  (ty == Config.tHbm && (n == 1 || n == 2)) || (ty == Config.tStore && [1, 5, 8, 9].contains n) || (ty == Config.tPort && n == 2)

/-- A change takes margin away (R544). [DESIGN CHOICE, log 42] -/
def State.losesMargin (s : State) (i : Nat × Nat × Nat × Nat) : Bool :=
  let old := s.valueOf i.1 i.2.1 i.2.2.1
  if i.1 = Config.tLoupe then (if i.2.2.1 < 0x20 then decide (i.2.2.2 < old) else decide (i.2.2.2 > old))
  else if i.1 = Config.tPort || (i.1 = Config.tStore && i.2.2.1 = 9) then false
  else decide (i.2.2.2 > old)

/-- A re-plan with these changes: one transaction for each unit type (R544). [DEDUCED, log 41] -/
def planStart (items : List (Nat × Nat × Nat × Nat)) (s : State) : State :=
  let todo := ([Config.tHbm, Config.tStore, Config.tPort, Config.tLoupe].map fun ty => items.filter fun i => i.1 == ty).filter fun l => !l.isEmpty
  if todo.isEmpty then
    logPush 0x30 255 [] (updLoupe (fun l => { l with
      plans := satAdd 32 l.plans 1, planAt := s.now, planLate := false, planDue := s.now + s.loupeSet 4 * 3600 * Config.sec }) s)
  else planKick (updLoupe (fun l => { l with planTodo := todo }) s)

/-- REPLAN (R542–R544): a re-plan that is due, or one in an idle window, which has lasted LOUPE_SET_IDLE_S seconds. `meas` is what is measured; `drift` the drift of each die in ps;
`wants` what the other measurements ask for. [DEDUCED, log 41] -/
def execReplan (idle : Bool) (meas : List (Nat × Nat × Nat × Nat × Nat)) (drift : List (Nat × Nat)) (wants : List (Nat × Nat × Nat × Nat))
    (s : State) : Host.Outcome State Fault Refusal :=
  if !s.running || s.isFatal || !s.loupe.planTodo.isEmpty || (idle && s.tenantsRun) then .next s
  else
    let s := if idle then
        atLeast (max (s.loupe.busyAt + s.loupeSet 5 * Config.sec) (if s.loupe.planIdle = 0 then 0 else s.loupe.planIdle + 3600 * Config.sec)) s
      else atLeast s.loupe.planDue s
    let s := updLoupe (fun l => { l with
      planIdle := if idle then s.now else l.planIdle
      ledger := meas.map fun m => (m.1, m.2.1, leBytes 1 m.1 ++ [0] ++ leBytes 2 m.2.1 ++ leBytes 4 m.2.2.1 ++ leBytes 4 m.2.2.2.1 ++ zeros 4
        ++ leBytes 4 m.2.2.2.2 ++ leBytes 8 s.now ++ zeros 4) }) s
    let items := (drift.filter fun d => decide (d.1 < 8)).flatMap (fun d => s.planDie d.1 d.2)
      ++ wants.filter fun i => planSetting i.1 i.2.2.1 && s.enabled i.1 i.2.1 && settingOk i.1 i.2.2.1 i.2.2.2
    .next (planStart (items.filter fun i => s.valueOf i.1 i.2.1 i.2.2.1 != i.2.2.2 && (idle || !s.losesMargin i)) s)

/-- REPLAN_RETRY (R544): a transaction that failed is queued again after 10 minutes. -/
def execReplanRetry (s : State) : Host.Outcome State Fault Refusal :=
  if s.loupe.planRetry = 0 || !s.running || s.isFatal then .next s
  else .next (planKick (updLoupe (fun l => { l with planRetry := 0 }) (atLeast s.loupe.planRetry s)))

/-- REPLAN_LATE (R544): not fully committed 24 hours after falling due. -/
def execReplanLate (s : State) : Host.Outcome State Fault Refusal :=
  if s.loupe.planLate || !s.running || s.isFatal then .next s
  else
    let s := atLeast (s.loupe.planDue + 24 * 3600 * Config.sec) s
    .next (loupeErr 5 0x31 (logPush 0x31 255 [] (updLoupe (fun l => { l with planLate := true }) s)))

end Sys2Proof.Machine
end

