-- ==== Sys2Proof/Machine/Beam.lean ====
section
/-! DEFINITION. Sys2Proof/Machine/Beam.lean: collectives, groups, joining a pod, routes, the timebase, and the resolution of a
broken group (R434–R447, R465–R467). -/

namespace Sys2Proof.Machine
open Sys2Proof

/-! ### BEAM_COLL (R441, R442, R444) -/

def collKind (d : Bytes) : Nat := field d 8 1 % 8
def collFunc (d : Bytes) : Nat := field d 9 1 % 4
def collElem (d : Bytes) : Nat := bits (field d 10 1) 0 4
def collPartial (d : Bytes) : Nat := bits (field d 10 1) 4 4
def collCount (d : Bytes) : Nat := field d 16 4

/-- Bytes that a rank reads from SRC and writes to DST. -/
def collSrcLen (d : Bytes) (r p : Nat) : Nat :=
  let e := fmtBytes (collElem d)
  let own := ownRange r (collCount d) p
  match collKind d with
  | 3 => e * (own.2 - own.1) | 4 => if r = field d 14 2 then e * collCount d else 0 | 5 => 0 | _ => e * collCount d
def collDstLen (d : Bytes) (r p : Nat) : Nat :=
  let e := fmtBytes (collElem d)
  let own := ownRange r (collCount d) p
  match collKind d with
  | 1 => e * (own.2 - own.1) | 2 => if r = field d 14 2 then e * collCount d else 0 | 5 => 0 | _ => e * collCount d

/-- UNIT_DETAIL (R444). -/
def collDetail (reason kind lost j ticks : Nat) : Bytes :=
  leBytes 1 reason ++ leBytes 1 kind ++ leBytes 2 lost ++ leBytes 4 (j % 2 ^ 32) ++ leBytes 16 ticks

/-- A collective ends. -/
def collEnd (j status reason lost lb : Nat) (s : State) : State :=
  match (s.ring j).cur with
  | some c =>
    let e := (s.ring j).unitInst
    let s := bump Config.tEngine e (if status = 0 then 0 else 1) 1 s
    let s := if reason = 0 then s else setErr Config.tEngine e (match reason with | 1 => 0 | 2 => 1 | _ => 4) j c.index reason s
    finish j status lb (collDetail reason (collKind c.desc) lost c.rows (s.now - c.start)) s
  | none => s

/-- The field check of BEAM_COLL; its formats stop the ring before it (R103). -/
def collFields (d : Bytes) : Bool :=
  let k := collKind d
  let e := collElem d
  decide (k ≤ 5) && decide (collFunc d ≤ 2) && (k == 5 || decide (1 ≤ collCount d ∧ collCount d ≤ 2 ^ 28)) && (k != 5 || collCount d == 0)
    && (decide (e ≤ 2) || collFunc d != 0 || k == 3 || k == 4)

/-- The checks of BEAM_COLL, in the order of R146: fields, the group's handle and context, address ranges, the group's state. A device that is
not a member has no rank, which is an error of the GROUP field, as a ROOT beyond the members is of its own. [DEDUCED, log 60] -/
def collCheck (c : Nat) (d : Bytes) (s : State) : Option Nat :=
  let g := s.group (field d 12 2)
  let r := s.rankIn g.members
  let p := g.members.length
  let k := collKind d
  if !collFields d then some 0x108
  else if g.members.isEmpty then some 0x107
  else if ((k = 2 || k = 4) && field d 14 2 ≥ p) || !g.members.contains s.sysIndex then some 0x108
  else if g.ctx ≠ c then some 0x106
  else if (collSrcLen d r p ≠ 0 && !s.owns c (field d 20 8) (collSrcLen d r p))
      || (collDstLen d r p ≠ 0 && !s.owns c (field d 28 8) (collDstLen d r p)) then some 0x10D
  else if g.st = 3 then some 0x2901
  else none

/-- The bytes that a collective writes at this rank, from what every rank contributes. -/
def collResult (d : Bytes) (ms : List Nat) (r : Nat) (all : List Bytes) : Bytes :=
  let e := fmtBytes (collElem d)
  let n := collCount d
  let vals := all.map (elems e n)
  let red (i : Nat) : Nat := reduceElem (collElem d) (collPartial d) (collFunc d) ms (vals.map fun v => nth v i 0)
  let own := ownRange r n ms.length
  match collKind d with
  | 0 => (List.range n).flatMap fun i => leBytes e (red i)
  | 1 => (List.range (own.2 - own.1)).flatMap fun i => leBytes e (red (own.1 + i))
  | 2 => if r = field d 14 2 then (List.range n).flatMap fun i => leBytes e (red i) else []
  | 3 => ((List.range ms.length).zip all).flatMap fun x =>
      let w := ownRange x.1 n ms.length
      fitTo (e * (w.2 - w.1)) x.2
  | 4 => fitTo (e * n) (all.getD (field d 14 2) [])
  | _ => []

/-- A collective at work takes what the other members gave, in rank order; a list or a member's bytes of another length stand for a mismatch
(R441). [DEDUCED, log 60] -/
def collGo (j : Nat) (others : Option (List Bytes)) (s : State) : State :=
  match (s.ring j).cur with
  | none => s
  | some c =>
    let d := c.desc
    let g := s.group (field d 12 2)
    let p := g.members.length
    let r := s.rankIn g.members
    if g.st = 2 then collEnd j 0x113 1 g.lost 0 s
    else if g.st = 3 then collEnd j 0x2901 2 0xFFFF 0 s
    else if g.st ≠ 1 then s
    else match others with
      | none => s
      | some l =>
        if l.map List.length ≠ ((List.range p).filter (· != r)).map (fun i => collSrcLen d i p) then collEnd j 0x2901 2 0xFFFF 0 s
        else
          let src := s.hbmRead (field d 20 8) (collSrcLen d r p)
          let bs := collResult d g.members r (atRank r src l)
          let s := hbmTaken (field d 20 8) src.length s
          let s := if bs.isEmpty then s else hbmWrite (field d 28 8) bs s
          let s := if collKind d < 3 then bump Config.tEngine (s.ring j).unitInst 2 src.length s else s
          let s := if g.members.any fun m => m / 64 != s.sys.pod then spent Config.tEngine (s.ring j).unitInst [3] s else s
          collEnd j 0 0 0xFFFF bs.length s

/-- BEAM_COLL (R444): `others` are the source bytes of the other members, by rank, once all have come. [DEDUCED, log 60] -/
def execBeamColl (ring : Nat) (others : Option (List (List Byte))) (s : State) : Host.Outcome State Fault Refusal :=
  let r := s.ring ring
  match r.cur with
  | some c => if c.phase = 0 && r.unitType = Config.tEngine && !s.isFatal then .next (collGo ring others s) else .next s
  | none =>
    match s.headOf ring 0x10 with
    | none => .next s
    | some (ix, d) =>
      if r.unitType ≠ Config.tEngine || !s.mayTake ring (s.setting Config.tEngine r.unitInst 2 0 == 1) then .next s
      else match collCheck r.ctx d s with
        | some st =>
          if st = 0x2901 then
            .next (bump Config.tEngine r.unitInst 1 1 (failCheck ring ix d st (collDetail 2 (collKind d) 0xFFFF 0 0) false
              (setErr Config.tEngine r.unitInst 1 ring ix 2 s)))
          else .next (failArg ring ix d st s)
        | none =>
          let gh := field d 12 2
          let g := s.group gh
          let n := if r.unitInst = 0 then g.seq0 else g.seq1
          let s := s.setGroup gh (if r.unitInst = 0 then { g with seq0 := n + 1 } else { g with seq1 := n + 1 })
          let s := (served ring (begin ring ix d s)).updRing ring fun x => { x with cur := x.cur.map fun c => { c with rows := n } }
          let len := collSrcLen d (s.rankIn g.members) g.members.length
          if s.hbmBad (field d 20 8) len then
            .next (raise { code := 3, status := 0x113, flags := 1, ty := Config.tEngine, inst := r.unitInst, ctx := r.ctx, ring
                           index := ix, addr := field d 20 8, space := 1 } (collEnd ring 0x113 6 0xFFFF 0 s))
          else .next (collGo ring others s)

/-! ### Groups that break (R443, R465) -/

/-- The collectives of a group that are in progress end with a status and a REASON. -/
def groupAbort (g status reason lost : Nat) (s : State) : State :=
  ((s.unitRings Config.tEngine 0) ++ (s.unitRings Config.tEngine 1)).foldl (fun a r =>
    match r.2.cur with
    | some c => if c.phase = 0 && field c.desc 12 2 = g then collEnd r.1 status reason lost 0 a else a
    | none => a) s

/-- Update Unit tasks of the group's job end: exchanges with REASON LINK, gathers as R316 says, and commits unless a resolution
is to settle them. -/
def groupUpd (g status : Nat) (s : State) : State :=
  match s.updJob with
  | none => s
  | some (h, j) =>
    if j.group ≠ g then s
    else ((s.unitRings Config.tUpdate 0) ++ (s.unitRings Config.tUpdate 1)).foldl (fun a r =>
      match r.2.cur with
      | some c =>
        if c.phase ≠ 0 then a
        else if dOp c.desc = 0x10 then exchangeLost r.1 r.2.unitInst status 8 a
        else if dOp c.desc = 0x13 then updInconsistent r.1 r.2.unitInst h 8 3 a
        else if dOp c.desc = 0x11 && (a.protOf h).isNone then
          (updEnd r.1 status 8 1 0 0 0 a).updUpd r.2.unitInst fun u => { u with commit := none, sent := false }
        else a
      | none => a) s

/-- The buddy is lost: the member goes on with its log in SLC only (R467). -/
def buddyLost (dev : Nat) (s : State) : State :=
  match s.mirror.prot with
  | some p =>
    if p.buddy = dev && !p.noBuddy then
      let s := mirErr 0 p.job dev (s.upd 0).attempt { s with mirror := { s.mirror with prot := some { p with noBuddy := true } } }
      match s.job p.job with
      | some j => if s.mirror.asked && !s.mirror.acked then commitGo p.job j { s with mirror := { s.mirror with acked := true } } else commitGo p.job j s
      | none => s
    else s
  | none => s

/-- A group breaks at rank `r`; with a protected job in it, a resolution begins (R443, R466). -/
def groupBreakAt (g r : Nat) (s : State) : State :=
  let s := s.updGroup g fun x => { x with st := 2, lost := r }
  let mine : Bool := match s.mirror.prot with | some p => p.ok && ((s.job p.job).any fun j => j.group == g) | none => false
  let s := if mine then { s with mirror := { s.mirror with resolving := some g } } else s
  groupUpd g 0x113 (groupAbort g 0x113 1 r s)

/-- A member of a READY group is unreachable (R443). -/
def groupBreak (g dev : Nat) (s : State) : State :=
  let x := s.group g
  match x.members.findIdx? fun m => m == dev with
  | none => s
  | some r => if x.st ≠ 1 then s else groupBreakAt g r s

/-- With AUTO, the buddy of a lost member starts a takeover on the designated spare of lowest system index (R454). -/
def autoTakeover (dev : Nat) (s : State) : State :=
  if s.mirror.resv.all fun r => r.dev != dev then s
  else
    let l := s.mirror.spares.filter fun x => x.2.2.1 && x.2.2.2.contains dev
    match l.find? fun x => l.all fun y => decide (x.1 ≤ y.1) with
    | some (spare, key, _, ms) =>
      sendMsg spare 0 0 false (msgBytes mgTake (leBytes 8 key ++ leBytes 2 ((ms.findIdx? fun m => m == dev).getD 0))) s
    | none => s

/-- GROUP_BROKEN (R443): the member of a rank has become unreachable. -/
def execGroupBroken (group member : Nat) (s : State) : Host.Outcome State Fault Refusal :=
  match (s.group group).members[member]? with
  | none => .next s
  | some dev => if s.isFatal || dev = s.sysIndex then .next s else .next (buddyLost dev (groupBreak group dev s))

/-- A device is lost to this one: every group that contains it breaks; its buddy goes on to the takeover once a resolution, if there is one,
has settled the attempt (R454, R466). [DEDUCED, log 58] -/
def deviceLost (dev : Nat) (s : State) : State :=
  let s := buddyLost dev ((s.groups.filter fun g => g.2.members.contains dev).foldl (fun a g => groupBreak g.1 dev a) s)
  if s.mirror.resolving.isSome then s else autoTakeover dev s

/-- MIRROR_HEARTBEAT (R465): a heartbeat with a peer has been exchanged. -/
def execMirrorHeartbeat (dev : Nat) (s : State) : Host.Outcome State Fault Refusal :=
  let knows := s.mirror.resv.any (fun r => r.dev == dev) || (match s.mirror.prot with | some p => p.buddy == dev | none => false)
  if !knows || s.isFatal then .next s
  else .next { s with mirror := { s.mirror with beats := (dev, s.now) :: s.mirror.beats.filter fun b => b.1 != dev } }

/-- HEARTBEAT_LOSS (R465): nothing from a device for three periods. Its buddy declares it lost; a member that its own buddy has left goes on
without one (R467). -/
def execHeartbeatLoss (dev : Nat) (s : State) : Host.Outcome State Fault Refusal :=
  match s.mirror.beats.find? fun b => b.1 == dev with
  | none => .next s
  | some b =>
    if s.isFatal then .next s
    else
      let s := atLeast (b.2 + 3 * s.setting Config.tMirror 0 2 100 * Config.ms) s
      let s := { s with mirror := { s.mirror with beats := s.mirror.beats.filter fun x => x.1 != dev } }
      if s.mirror.resv.any fun r => r.dev == dev then
        .next (deviceLost dev (bump Config.tMirror 0 10 1 (mirErr 6 0xFFFF dev (s.upd 0).attempt s)))
      else .next (buddyLost dev s)

/-- RESOLUTION_COMPLETE (R466, R467): the survivors have settled the attempt; `held` is the word when one of them held it. The buddy of the
lost member stores the word with what it holds for it. -/
def execResolutionComplete (group : Nat) (held : Option CommitWord) (survivors : Nat) (s : State) : Host.Outcome State Fault Refusal :=
  match s.studentJob with
  | none => .next s
  | some (h, j) =>
    let g := s.group group
    if j.group ≠ group || g.st ≠ 2 || (s.protOf h).isNone || s.isFatal || !(j.st = 1 || j.st = 2) then .next s
    else
      let att := (s.upd 0).attempt
      let w : CommitWord := held.getD { cause := 8, isLocal := false, vetoDev := 0xFFFF, vetoTensor := 0, norm := 0, participants := survivors }
      let s := { s with mirror := { s.mirror with
        resolving := none
        rCause := w.cause, rHeld := held.isSome, rSurv := min survivors 1023, rAttempt := att % 2 ^ 32
        resv := s.mirror.resv.map fun r => if g.members[g.lost]? = some r.dev then { r with word := some w } else r } }
      if 2 * survivors ≤ g.members.length then
        let s := mirErr 4 h s.sysIndex att (setErr Config.tUpdate 1 5 0 0 8 (setErr Config.tUpdate 0 5 0 0 8 s))
        let s := inconsistent 1 j.ctx 0xFFFF 0 (inconsistent 0 j.ctx 0xFFFF 0 s)
        .next (jobAbort h (deliverEvent j.ctx (eventRecord 0xFFFF 0x2803 0 2 0 0 s.now (leBytes 4 survivors) 0) s))
      else
        let s := autoTakeover ((g.members[g.lost]?).getD 1024) (bump Config.tMirror 0 8 1 s)
        -- a member that has sent nothing for its attempt cannot be without a word that a survivor holds
        if s.windowOpen || (held.isSome && !(s.upd 0).sent) then .next s
        else if (s.upd 0).commit.isSome && (s.upd 1).commit.isSome then .next (takeWord h j w s)
        else .next { s with mirror := { s.mirror with adopted := some w } }

/-! ### Joining and groups (R434, R440, R446) -/

/-- Bitmap of the pod device indices that this device reaches, itself included. -/
def State.reachMap (s : State) : Nat :=
  (List.range 64).foldl (fun m i => if i = s.sys.podDev || (s.routeTo i).isSome then m + 2 ^ i else m) 0
/-- Every expected device is reached. -/
def allReached (expected reach : Nat) : Bool := Nat.land expected reach == expected
/-- Some port found another part with this device's own index (R434). -/
def State.twinSeen (s : State) : Bool := s.beam.ports.any fun p => p.2.twin

/-- POD_JOIN. -/
def specPodJoin : CmdSpec where
  opcode := 0x0900
  access := 1
  p := true
  len := fixed 16
  rsv := rsvAt [(1, 7)]
  resp := respOf 9
  run := fun i p s =>
    if field p 0 1 > 15 then .fail eBadArgument 0
    else if s.twinSeen || (s.sys.joined && s.sys.pod ≠ field p 0 1) then .fail 0x2900 s.sys.podDev
    else if s.beam.join.isSome then .fail eBusy 0
    else
      let s := { s with sys := { s.sys with pod := field p 0 1 }, beam := { s.beam with step := true } }
      if allReached (field p 8 8) s.reachMap && !i.defer then .ok (leBytes 8 s.reachMap ++ [1]) { s with sys := { s.sys with joined := true } }
      else .pend { s with beam := { s.beam with join := some (i.ctx, i.handle, field p 8 8, s.now) } }

def execPodJoin (q : Request) (s : State) : Host.Outcome State Fault Refusal := submit specPodJoin q s

/-- A POD_JOIN in progress completes. -/
def joinEnd (s : State) : State :=
  match s.beam.join with
  | none => s
  | some (c, h, want, _) =>
    let s := { s with beam := { s.beam with join := none }, sys := { s.sys with joined := true } }
    finishOp c h 0 0 (leBytes 8 s.reachMap ++ leBytes 1 (b2n (allReached want s.reachMap))) s

/-- POD_JOIN_TIMEOUT (R446): 1 s after the command, or with every expected member reached. -/
def execPodJoinTimeout (s : State) : Host.Outcome State Fault Refusal :=
  match s.beam.join with
  | none => .next s
  | some (_, _, want, at_) =>
    if s.isFatal then .next s
    else .next (joinEnd (if allReached want s.reachMap then s else atLeast (at_ + Config.sec) s))

/-- POD_GROUP_CREATE (R440, R519). -/
def specPodGroupCreate : CmdSpec where
  opcode := 0x0901
  access := 0
  p := false
  len := fun p => some (16 + 2 * field p 0 2)
  rsv := rsvAt [(3, 5)]
  rbits := rsvAt [(2, 0xFE)]
  resp := respOf 2
  run := fun i p s =>
    let n := field p 0 2
    let ms := (List.range n).map fun k => field p (16 + 2 * k) 2
    if n < 2 || n > 1024 then .fail eBadArgument 0
    else match (List.range n).find? fun k => nth ms k 0 ≥ 1024 || (k ≠ 0 && nth ms k 0 ≤ nth ms (k - 1) 0) with
      | some k => .fail eBadArgument (16 + 2 * k)
      | none =>
        match ms.find? fun m => m != s.sysIndex && m / 64 == s.sys.pod && (s.routeTo (m % 64)).isNone with
          | some m => .fail 0x2902 m
          | none =>
            if field p 2 1 = 1 && (s.ctx i.ctx).secret.isNone then .fail 0x2B00 i.ctx
            else match (List.range 64).find? fun g => (s.group g).members.isEmpty with
              | none => .fail eNoResource 0
              | some g => .ok (leBytes 2 g) (s.setGroup g { Group.init with
                  ctx := i.ctx, key := field p 8 8, members := ms, enc := field p 2 1 == 1, gdk := s.newGdk i.ctx (field p 8 8) })

def execPodGroupCreate (q : Request) (s : State) : Host.Outcome State Fault Refusal := submit specPodGroupCreate q s

/-- GROUP_FORMED (R440): every member's creation has been seen, identical or not; the collectives that wait on a group that FAILED end. -/
def execGroupFormed (group : Nat) (identical : Bool) (s : State) : Host.Outcome State Fault Refusal :=
  let g := s.group group
  if g.members.isEmpty || g.st ≠ 0 || s.isFatal then .next s
  else if identical then .next (s.setGroup group { g with st := 1 })
  else .next (groupUpd group 0x2901 (groupAbort group 0x2901 2 0xFFFF
    (setErr Config.tEngine 1 1 0 0 2 (setErr Config.tEngine 0 1 0 0 2 (s.setGroup group { g with st := 3 })))))

/-- Handle and permission checks of a command that names a group. [DEDUCED, log 44] -/
def groupHandle (c g o : Nat) (s : State) : Option (Nat × Nat) :=
  if (s.group g).members.isEmpty then some (eBadHandle, o)
  else if c ≠ 0 && (s.group g).ctx ≠ c then some (ePermission, o) else none

/-- POD_BARRIER (R446): it completes once every member has issued it; that it has not yet is the `defer` of the issue. A device that is not a
member has no part in it. [DEDUCED, log 60] -/
def specPodBarrier : CmdSpec where
  opcode := 0x0902
  access := 0
  p := true
  len := fixed 2
  rsv := noRsv
  resp := respOf 8
  run := fun i p s =>
    let g := s.group (field p 0 2)
    match groupHandle i.ctx (field p 0 2) 0 s with
    | some e => .fail e.1 e.2
    | none =>
      if !g.members.contains s.sysIndex then .fail eBadArgument 0
      else if g.st = 3 then .fail 0x2901 0
      else if g.st = 2 then .fail 0x2903 g.lost
      else if i.defer || g.st ≠ 1 then .pend s
      else .ok (leBytes 8 s.now) s

def execPodBarrier (q : Request) (s : State) : Host.Outcome State Fault Refusal := submit specPodBarrier q s

/-- A group is reset here: its collectives end, and a BROKEN or REPLAYING group is READY again (R446, R470). -/
def groupReset (g : Nat) (s : State) : State :=
  let s := groupUpd g 0x113 (groupAbort g 0x113 1 0xFFFF s)
  let s := if s.mirror.resolving = some g then { s with mirror := { s.mirror with resolving := none } } else s
  s.updGroup g fun x => if x.st = 2 || x.st = 4 then { x with st := 1, lost := 0 } else x

/-- A group is reset on every member (R446). -/
def groupResetAll (g : Nat) (s : State) : State := groupReset g (tellMembers g mgGroup (leBytes 8 (s.group g).key) s)

/-- POD_RESET. -/
def specPodReset : CmdSpec where
  opcode := 0x0903
  access := 1
  p := true
  len := fixed 16
  rsv := rsvAt [(1, 1), (4, 4)]
  resp := respOf 0
  run := fun i p s =>
    match field p 0 1 with
    | 0 =>
      (match groupHandle i.ctx (field p 2 2) 2 s with
        | some e => .fail e.1 e.2
        | none => if i.defer then .pend s else .ok [] (groupResetAll (field p 2 2) s))
    | 1 => if i.defer then .pend s else .ok [] (s.groups.foldl (fun a g => groupResetAll g.1 a) s)
    | 2 =>
      let map_ := field p 8 8
      (match (List.range 64).find? fun k => bitOf map_ k && k != s.sys.podDev && (s.routeTo k).isNone with
        | some k => .fail 0x2902 (s.sys.pod * 64 + k)
        | none =>
          let s := ((List.range 64).filter fun k => bitOf map_ k && k != s.sys.podDev).foldl (fun s k =>
            sendMsg (s.sys.pod * 64 + k) 0 0 false (msgBytes mgReset []) s) s
          .ok [] (if bitOf map_ s.sys.podDev then { s with sys := { s.sys with sysReset := some ((s.sys.sysReset).getD 0) } } else s))
    | _ => .fail eBadArgument 0

def execPodReset (q : Request) (s : State) : Host.Outcome State Fault Refusal := submit specPodReset q s

/-- BEAM_ROUTE_QUERY. -/
def specBeamRouteQuery : CmdSpec where
  opcode := 0x0904
  access := 1
  p := false
  len := fixed 2
  rsv := noRsv
  resp := respOf 10
  run := fun _ p s =>
    let d := field p 0 2
    if d ≥ 1024 then .fail eBadArgument 0
    else if d = s.sysIndex then .ok (zeros 10) s
    else if d / 64 ≠ s.sys.pod then .ok (zeros 8 ++ [0] ++ [1]) s
    else match s.routeTo (d % 64) with
      | some (m, h) => .ok (leBytes 8 (m % 2 ^ 40) ++ leBytes 1 h ++ [0]) s
      | none => .ok (zeros 8 ++ [255] ++ [0]) s

def execBeamRouteQuery (q : Request) (s : State) : Host.Outcome State Fault Refusal := submit specBeamRouteQuery q s

/-- BEAM_PORT_QUERY. -/
def specBeamPortQuery : CmdSpec where
  opcode := 0x0905
  access := 1
  p := false
  len := fixed 1
  rsv := noRsv
  resp := respOf 16
  run := fun _ p s =>
    let n := field p 0 1
    let x := s.port n
    if n ≥ 40 then .fail eBadArgument 0
    else .ok (leBytes 1 x.st ++ [0] ++ leBytes 2 x.peer ++ leBytes 1 x.peerPort ++ zeros 3
      ++ leBytes 8 (Config.optics n s.now % 2 ^ 48)) s

def execBeamPortQuery (q : Request) (s : State) : Host.Outcome State Fault Refusal := submit specBeamPortQuery q s

/-! ### Routes and timebase (R436, R439) -/

/-- Everything that needs a destination with no route left ends (R436). -/
def unreachable (dev : Nat) (s : State) : State :=
  -- Stream Unit segments to it
  let s := (s.rings.filter fun r => r.2.unitType == Config.tStream).foldl (fun a r =>
    match (a.ring r.1).cur with
    | some c =>
      if c.phase = 0 && dOp c.desc ≠ 0x40 && (suSrcSpace c.desc == 3 || suDstSpace c.desc == 3) && suPeer c.desc == dev then
        suSettle r.1 ((suFault r.1 4 0x113 (((c.out ++ c.todo).head?.map (·.src)).getD 0) a).updRing r.1 fun x => { x with cur := x.cur.map fun c => { c with out := [] } })
      else a
    | none => a) s
  -- remote Prism rings on it
  let s := ((s.prings.filter fun p => p.2.bound && p.2.remote != 0xFFFF && p.2.st != 2
      && (if p.2.tHere s then p.2.remote else Config.teacherDev p.2.job (p.1 / 16) % 64) == dev)).foldl (fun a p =>
    pringNotice p.2.ctx (pringReset (p.1 / 16) (p.1 % 16) 6 (setErr Config.tPrism (p.1 / 16) 5 (4096 * (p.1 % 16)) 0 6 a))) s
  deviceLost (s.sys.pod * 64 + dev) s

/-- Contexts that a route change concerns: context 0, and those with a group containing a device whose route changed. -/
def State.routeCtxs (s : State) (devs : List Nat) : List Nat :=
  0 :: ((s.groups.filter fun g => g.2.members.any fun m => m / 64 == s.sys.pod && devs.contains (m % 64)).map (·.2.ctx)).eraseDups.filter (· ≠ 0)

/-- ROUTE_TABLE_INSTALL (R435–R437): firmware installs a table of shortest paths over ACTIVE ports; `port` is the one whose change
of state led to it. -/
def execRouteTableInstall (port : Nat) (table : List (Nat × Nat × Nat)) (s : State) : Host.Outcome State Fault Refusal :=
  if !s.running || s.isFatal then .next s
  else
    let tab := ((table.filter fun r => decide (r.1 < 64) && r.1 != s.sys.podDev && decide (r.2.2 ≤ 4)).map fun r =>
      (r.1, s.liveMask r.2.1, r.2.2)).filter fun r => r.2.1 != 0
    let before := s.beam.routes
    let changed := (List.range 64).filter fun d => (before.find? fun r => r.1 == d) != (tab.find? fun r => r.1 == d)
    let s1 := bump Config.tEngine 0 4 1 (bump Config.tEngine 1 4 1 { s with beam := { s.beam with routes := tab, held := [] } })
    let lost := (List.range 64).filter fun d => (s.routeTo d).isSome && (s1.routeTo d).isNone
    let s2 := s.beam.held.foldl (fun a f => if (a.routeTo (flitDest f.2 % 64)).isSome then sendToward f.1 f.2 a else a) s1
    let s3 := lost.foldl (fun a d => unreachable d a) s2
    let s3 := if s.synced && !s3.synced then bump Config.tEngine 0 5 1 (bump Config.tEngine 1 5 1 s3) else s3
    let dest := match changed with | [d] => s.sys.pod * 64 + d | _ => 0xFFFF
    let s4 := if changed.isEmpty then s3 else (s3.routeCtxs changed).foldl (fun a c =>
      deliverEvent c (eventRecord 0xFFFF 0 0 2 0 0 a.now (leBytes 1 port ++ leBytes 1 (a.port port).st ++ leBytes 2 dest) 0) a) s3
    match s4.beam.join with
    | some (_, _, want, _) => if allReached want s4.reachMap then .next (joinEnd s4) else .next s4
    | none => .next s4

/-- TIMEBASE_SYNC (R439): an exchange with the parent estimates the master's counter at `t`; the rate changes by at most 200 ppm of
the 100 µs between exchanges, and the counter never steps backward. The first exchange after POD_JOIN, before the device is synchronised, may
step it once: here it steps it forward. [DESIGN CHOICE, log 60] -/
def execTimebaseSync (t : Nat) (s : State) : Host.Outcome State Fault Refusal :=
  if !s.sys.joined || s.podMaster || s.isFatal then .next s
  else
    let s := if s.beam.step && !s.sys.podSync then { s with now := max s.now t } else s
    let off : Int := (t : Int) - s.now
    let sync := decide (-64 < off ∧ off < 64)
    let s1 := { s with now := s.now + min (t - s.now) 20, sys := { s.sys with podSync := sync }
                       beam := { s.beam with
                         offset := ((max (-32768) (min 32767 off) + 65536) % 65536).toNat, level := s.syncDepth, step := false } }
    if s.sys.podSync && !sync then .next (bump Config.tEngine 0 5 1 (bump Config.tEngine 1 5 1 s1)) else .next s1

end Sys2Proof.Machine
end

