-- ==== Sys2Proof/Machine/Net.lean ====
section
/-! DEFINITION. Sys2Proof/Machine/Net.lean: Network Ports: bindings, remote writes and reads, received RoCEv2 packets, links
(R491–R499). -/

namespace Sys2Proof.Machine
open Sys2Proof

def State.nport (s : State) (p : Nat) : NetPort := SMap.get NetPort.init s.nports p
def State.setNport (s : State) (p : Nat) (x : NetPort) : State := { s with nports := SMap.set NetPort.init s.nports p x }
def State.updNport (s : State) (p : Nat) (f : NetPort → NetPort) : State := s.setNport p (f (s.nport p))

/-- A counter of a port (R504). -/
def npCnt (p n k : Nat) (s : State) : State := if k = 0 then s else bump Config.tNet p n k s

/-- An error bit of a port, with ring, index, reason and binding of the first error (R503). -/
def npErr (p bit ring index reason bind : Nat) (s : State) : State :=
  s.updUnit Config.tNet p fun u =>
    let u := if u.err = 0 then { u with errRing := ring, errIndex := index, errReason := reason, last := bind % 256 } else u
    { u with err := Nat.lor u.err (2 ^ bit) }

/-! ### Binding block (R494) -/
def nbImmCr (b : Bytes) : Bool := bitOf (field b 1 1) 0
/-- Path MTU in bytes. -/
def nbMtu (b : Bytes) : Nat := 512 * 2 ^ field b 7 1
/-- Payload of a packet on a port: the path MTU, or the largest one whose frame NP_SET_MTU admits with 128 bytes for its headers (R491).
[PRESUMED, log 61] -/
def State.npMtu (s : State) (p : Nat) (b : Bytes) : Nat :=
  let m := s.valueOf Config.tNet p 1
  min (nbMtu b) (if m ≥ 4096 + 128 then 4096 else if m ≥ 2048 + 128 then 2048 else 1024)
def nbPcp (b : Bytes) : Nat := bits (field b 30 2) 12 3
def nbTagged (b : Bytes) : Bool := bitOf (field b 30 2) 15
def nbCompl (b : Bytes) : Nat := field b 40 2
def nbBase (b : Bytes) : Nat := field b 42 8
def nbBytes (b : Bytes) : Nat := field b 50 8
def nbWindow (b : Bytes) : Nat := field b 58 2 * 2 ^ 20
def nbRemote (b : Bytes) : Nat := field b 60 8
def nbRemoteBytes (b : Bytes) : Nat := field b 72 8

/-- A packet leaves a port, when its link is up. -/
def npSend (b psn op va : Nat) (bs : Bytes) (s : State) : State :=
  let p := b / 256
  if (s.nport p).link ≠ 2 then s
  else npCnt p 0 1 (npCnt p 2 bs.length (s.updNport p fun x => { x with sent := x.sent ++ [(b, psn, op, va, bs)] }))

/-! ### Ends of tasks and queue pairs (R497, R498) -/

/-- UNIT_DETAIL with REASON and OP (R498). -/
def npDetail (reason op : Nat) : Bytes := leBytes 1 reason ++ leBytes 1 op ++ zeros 22

/-- The task of a ring ends: BYTES_LB counts what the remote acknowledged. -/
def npEnd (j status reason : Nat) (s : State) : State :=
  match (s.ring j).cur with
  | some c => if c.phase = 0 then finish j status c.ackBytes (npDetail reason (dOp c.desc - 0x10)) s else s
  | none => s

/-- A queue pair enters the error state: its tasks end with a REASON (R495–R498). [DEDUCED, log 61] -/
def qpFail (b reason : Nat) (s : State) : State :=
  match s.bind b with
  | none => s
  | some x =>
    if x.st = 2 then s
    else
      let p := b / 256
      let rings := (x.unacked.map fun u => u.2.2.2.2).eraseDups
      let s := s.setBind b { x with st := 2, unacked := [], rx := none }
      let s := rings.foldl (fun s r => if r = 0 then s else npEnd (r - 1) eAborted reason s) s
      npErr p 2 0 0 reason b (npCnt p 12 1 s)

/-! ### NP_BIND and NP_UNBIND (R493, R494) -/

/-- The checks of a binding block. -/
def bindCheck (c : Nat) (b : Bytes) (s : State) : Option Nat :=
  let kind := field b 0 1
  let img := field b 42 2
  if kind > 2 || field b 1 1 ≥ 2 || field b 2 2 ≠ 0 || field b 7 1 < 1 || field b 7 1 > 3 || field b 38 1 ≥ 64 || field b 39 1 < 8
      || field b 39 1 > 20 || (b.drop 80).any (· != 0) then some eBadArgument
  else if nbCompl b ≠ 0xFFFF && ((s.ring (nbCompl b)).kind ≠ 4 || (s.ring (nbCompl b)).ctx ≠ c || (s.ring (nbCompl b)).st = 0) then
    some eBadArgument
  else if kind = 0 && nbBytes b % 64 ≠ 0 then some eBadArgument
  else if kind = 1 && (field b 58 2 < 64 || field b 58 2 > 1024) then some eBadArgument
  else if kind = 1 && (match s.image img with | some g => !imgRight c g | none => false) then some ePermission
  else if kind = 0 && !s.owns c (nbBase b) (nbBytes b) then some eAddress
  else if kind = 1 && (match s.image img with | some g => g.st != 0 | none => true) then some eState
  else none

/-- A context may use a binding: its creator, or context 0 (R493). -/
def bindRight (c : Nat) (x : NetBind) : Bool := c == 0 || x.ctx == c

/-- The lowest free binding of a port. -/
def State.freeBind (s : State) (p : Nat) : Option Nat := ((List.range 256).map (p * 256 + ·)).find? fun b => (s.bind b).isNone

/-- The head of a Network Port's ring, as a descriptor of an opcode. -/
def State.npHead (s : State) (j op : Nat) : Option (Nat × Bytes × Nat) :=
  let r := s.ring j
  if r.unitType ≠ Config.tNet || !s.mayTake j false then none
  else (s.headOf j op).map fun h => (h.1, h.2, r.unitInst)

/-- NP_BIND (R494). -/
def execNpBind (j : Nat) (s : State) : Host.Outcome State Fault Refusal :=
  match s.npHead j 0x10 with
  | none => .next s
  | some (ix, d, p) =>
    let c := (s.ring j).ctx
    let a := field d 8 8
    if a % 64 ≠ 0 then .next (failArg j ix d eBadArgument s)
    else if !s.owns c a 128 then .next (failArg j ix d eAddress s)
    else if s.hbmBad a 128 then
      .next (raise { code := 3, status := eAborted, flags := 1, ty := Config.tNet, inst := p, ctx := c, ring := j, index := ix, addr := a
                     space := 1 } (npErr p 4 j ix 1 0 (npEnd j eAborted 1 (begin j ix d (served j s)))))
    else
      let b := s.hbmRead a 128
      match bindCheck c b s with
      | some st => .next (failArg j ix d st s)
      | none =>
        match s.freeBind p with
        | none => .next (failArg j ix d eNoResource s)
        | some n =>
          let x := s.nport p
          let qpn := x.nextQp % 2 ^ 24
          let key := x.nextQp % 2 ^ 32
          let s := s.setNport p { x with nextQp := x.nextQp + 1 }
          let s := s.setBind n { NetBind.init with
            ctx := c, kind := field b 0 1, block := b, qpn, rkey := key, st := 1, sqPsn := field b 32 3, rqPsn := field b 35 3 }
          let s := begin j ix d (served j s)
          .next (finish j 0 0 ([0, 0] ++ leBytes 2 n ++ leBytes 3 qpn ++ [0] ++ leBytes 4 key ++ zeros 12) s)

/-- A binding goes: its queue pair fails first, and the notices and messages it holds are lost with it. -/
def unbind (b : Nat) (s : State) : State :=
  { qpFail b 2 s with binds := ((qpFail b 2 s).binds.filter fun x => x.1 != b) }

/-- The binding that a descriptor names at bytes [9:8], for a ring's context. -/
def bindNamed (c : Nat) (d : Bytes) (s : State) : Nat ⊕ NetBind :=
  match s.bind (field d 8 2) with
  | none => .inl eBadHandle
  | some x => if bindRight c x then .inr x else .inl ePermission

/-- NP_UNBIND (R494): placements of the model land with their packet, so none is in flight. [DEDUCED, log 73] -/
def execNpUnbind (j : Nat) (s : State) : Host.Outcome State Fault Refusal :=
  match s.npHead j 0x11 with
  | none => .next s
  | some (ix, d, _) =>
    match bindNamed (s.ring j).ctx d s with
    | .inl st => .next (failArg j ix d st s)
    | .inr _ => .next (finish j 0 0 (npDetail 0 1) (unbind (field d 8 2) (begin j ix d (served j s))))

/-! ### NP_WRITE and NP_READ (R497, R517) -/

def npLocal (d : Bytes) : Nat := field d 12 8
def npOffset (d : Bytes) : Nat := field d 20 8
def npBytes (d : Bytes) : Nat := field d 28 8
def npImm (d : Bytes) : Bool := dOp d == 0x12 && bitOf (field d 10 1) 0

/-- The checks of a remote transfer. -/
def npCheck (c : Nat) (d : Bytes) (s : State) : Option Nat :=
  match bindNamed c d s with
  | .inl st => some st
  | .inr x =>
    if x.kind ≠ 2 || npBytes d = 0 || npBytes d > 2 ^ 32 || npOffset d + npBytes d > nbRemoteBytes x.block
        || ((s.ctx c).confidential && (npOffset d % 64 ≠ 0 || npBytes d % 64 ≠ 0)) then some eBadArgument
    else if !s.owns c (npLocal d) (npBytes d) then some eAddress
    else none

/-- The priority of a binding is paused by the peer (R491). -/
def State.npPaused (s : State) (p : Nat) (x : NetBind) : Bool :=
  nbTagged x.block && (s.nport p).paused.any fun q => q.1 == nbPcp x.block && decide (s.now < q.2)

/-- Bytes of a task in the form in which they cross the network (R517). [DEDUCED, log 61] -/
def npOut (chk : Option Bytes) (off : Nat) (bs : Bytes) : Bytes :=
  match chk with
  | none => bs
  | some k => mapLines (fun l b => Config.xtsEnc k l b) (off / 64) bs (bs.length / 64)
def npIn (chk : Option Bytes) (off : Nat) (bs : Bytes) : Bytes :=
  match chk with
  | none => bs
  | some k => mapLines (fun l b => Config.xtsDec k l b) (off / 64) bs (bs.length / 64)

/-- 24-bit packet sequence numbers. -/
def psnAdd (p n : Nat) : Nat := (p + n) % 2 ^ 24
/-- `a` is `b` or comes before it. -/
def psnLe (a b : Nat) : Bool := decide ((b + 2 ^ 24 - a) % 2 ^ 24 < 2 ^ 23)

/-- The packets of a message: PSN, offset in the message, bytes. [DEDUCED, log 61] -/
def packets (mtu : Nat) (psn : Nat) (bs : Bytes) : List (Nat × Nat × Bytes) :=
  (List.range (max 1 (cdiv bs.length mtu))).map fun i => (psnAdd psn i, i * mtu, (bs.drop (i * mtu)).take mtu)

/-- NP_WRITE (R497): the packets of the message leave; a poisoned source line ends the task before anything of it is sent. [DEDUCED, log 61] -/
def execNpWrite (j : Nat) (s : State) : Host.Outcome State Fault Refusal :=
  match s.npHead j 0x12 with
  | none => .next s
  | some (ix, d, p) =>
    let c := (s.ring j).ctx
    let b := field d 8 2
    match npCheck c d s, s.bind b with
    | some st, _ => .next (failArg j ix d st s)
    | none, none => .next s
    | none, some x =>
      if s.npPaused p x then .next s
      else if s.hbmBad (npLocal d) (npBytes d) then
        .next (raise { code := 3, status := eAborted, flags := 1, ty := Config.tNet, inst := p, ctx := c, ring := j, index := ix
                       addr := npLocal d, space := 1 } (npErr p 4 j ix 1 b (npEnd j eAborted 1 (begin j ix d (served j s)))))
      else if x.st = 2 then .next (npEnd j eAborted 2 (begin j ix d (served j s)))
      else
        let s := hbmTaken (npLocal d) (npBytes d) (begin j ix d (served j s))
        let bs := npOut (s.chkOf c) (npOffset d) (s.hbmRead (npLocal d) (npBytes d))
        let ps := packets (s.npMtu p x.block) x.sqPsn bs
        let s := s.setBind b { x with
          at_ := if x.unacked.isEmpty then s.now else x.at_
          sqPsn := psnAdd x.sqPsn ps.length
          unacked := x.unacked ++ ps.map fun q => (q.1, if npImm d && q.2.1 + q.2.2.length = bs.length then 1 else 0,
            nbRemote x.block + npOffset d + q.2.1, q.2.2.length, j + 1) }
        .next (ps.foldl (fun s q => npSend b q.1 (if npImm d && q.2.1 + q.2.2.length = bs.length then 1 else 0)
          (nbRemote x.block + npOffset d + q.2.1)
          (if npImm d && q.2.1 + q.2.2.length = bs.length then q.2.2 ++ (d.drop 36).take 4 else q.2.2) s) s)

/-- NP_READ (R497): the request leaves, and its responses are awaited. [DEDUCED, log 61] -/
def execNpRead (j : Nat) (s : State) : Host.Outcome State Fault Refusal :=
  match s.npHead j 0x13 with
  | none => .next s
  | some (ix, d, p) =>
    let c := (s.ring j).ctx
    let b := field d 8 2
    match npCheck c d s, s.bind b with
    | some st, _ => .next (failArg j ix d st s)
    | none, none => .next s
    | none, some x =>
      if s.npPaused p x then .next s
      else if x.st = 2 then .next (npEnd j eAborted 2 (begin j ix d (served j s)))
      else
        let va := nbRemote x.block + npOffset d
        let s := begin j ix d (served j s)
        let s := s.setBind b { x with
          at_ := if x.unacked.isEmpty then s.now else x.at_
          sqPsn := psnAdd x.sqPsn (cdiv (npBytes d) (s.npMtu p x.block)), unacked := x.unacked ++ [(x.sqPsn, 2, va, npBytes d, j + 1)] }
        .next (npSend b x.sqPsn 2 va (leBytes 8 (npBytes d)) s)

/-! ### What a requester receives (R492, R497) -/

/-- The binding of a queue pair number of a port. -/
def State.bindOf (s : State) (p qpn : Nat) : Option (Nat × NetBind) := s.binds.find? fun x => x.1 / 256 == p && x.2.qpn == qpn

/-- A frame has been received: counters, and the answer to an ECN mark. -/
def npRecv (p n : Nat) (ecn : Bool) (b : Option Nat) (s : State) : State :=
  let s := npCnt p 1 1 (npCnt p 3 n s)
  if ecn then
    let s := npCnt p 8 1 s
    match b with
    | some b => if s.valueOf Config.tNet p 3 = 1 then npCnt p 9 1 (npSend b 0 6 0 [] s) else s
    | none => s
  else s

/-- `n` bytes of a ring's task have been acknowledged; the task ends with its last byte. -/
def npAcked (j n : Nat) (s : State) : State :=
  match (s.ring j).cur with
  | some c =>
    if c.phase ≠ 0 then s
    else
      let s := s.updRing j fun r => { r with cur := some { c with ackBytes := c.ackBytes + n, last := s.now } }
      if c.ackBytes + n = npBytes c.desc then npEnd j 0 0 s else s
  | none => s

/-- Send again what was sent with this PSN. -/
def resend (b psn : Nat) (s : State) : State :=
  match ((s.nport (b / 256)).sent.filter fun m => m.1 == b && m.2.1 == psn && m.2.2.1 < 4).getLast? with
  | some m => npSend b psn m.2.2.1 m.2.2.2.1 m.2.2.2.2 s
  | none => s

/-- ROCE_ACK (R492, R497): `kind` 0 acknowledges up to a PSN, 1 is a NAK for a sequence error and resends from it on, anything else is a
NAK of the remote, which ends the task and fails the queue pair. [DEDUCED, log 61] -/
def execRoceAck (p qpn psn kind : Nat) (s : State) : Host.Outcome State Fault Refusal :=
  match s.bindOf p qpn with
  | none => .next s
  | some (b, x) =>
    if (s.nport p).link ≠ 2 || s.isFatal || x.st ≠ 1 then .next s
    else
      let s := npRecv p 0 false none s
      if kind = 0 then
        let done := x.unacked.filter fun u => u.2.1 != 2 && psnLe u.1 psn
        let s := s.setBind b { x with unacked := x.unacked.filter (fun u => !(u.2.1 != 2 && psnLe u.1 psn)), retries := 0, at_ := s.now }
        .next (done.foldl (fun s u => if u.2.2.2.2 = 0 then s else npAcked (u.2.2.2.2 - 1) u.2.2.2.1 s) s)
      else if kind = 1 then
        let again := x.unacked.filter fun u => psnLe psn u.1
        .next (again.foldl (fun s u => resend b u.1 s) (npCnt p 11 again.length s))
      else .next (qpFail b 3 s)

/-- ROCE_READ_RESPONSE (R497): the next packet of the answer to the oldest NP_READ is placed in device memory. -/
def execRoceReadResponse (p qpn psn : Nat) (data : Bytes) (s : State) : Host.Outcome State Fault Refusal :=
  match s.bindOf p qpn with
  | none => .next s
  | some (b, x) =>
    match x.unacked.find? fun u => u.2.1 == 2 with
    | none => .next s
    | some u =>
      match (s.ring (u.2.2.2.2 - 1)).cur with
      | none => .next s
      | some c =>
        let mtu := s.npMtu p x.block
        let got := c.ackBytes
        let n := min mtu (npBytes c.desc - got)
        if (s.nport p).link ≠ 2 || s.isFatal || x.st ≠ 1 || u.2.2.2.2 = 0 || c.phase ≠ 0 || psn ≠ psnAdd u.1 (got / mtu) || data.length ≠ n
        then .next s
        else
          let s := npRecv p n false none s
          let s := hbmWrite (npLocal c.desc + got) (npIn c.chk (npOffset c.desc + got) data) s
          let s := npCnt p 14 n s
          let s := s.setBind b { x with retries := 0, at_ := s.now, unacked := if got + n = npBytes c.desc then x.unacked.erase u else x.unacked }
          .next (npAcked (u.2.2.2.2 - 1) n s)

/-- Local ACK timeout of a binding in ticks: 4.096 µs × 2^TIMEOUT (R494). -/
def nbTimeout (b : Bytes) : Nat := 4096 * 2 ^ field b 39 1 * Config.us / 1000

/-- QP_RETRY_TIMEOUT (R492, R497): nothing has come for the local ACK timeout; after seven retries the queue pair fails. [DESIGN CHOICE, log 7] -/
def execQpRetryTimeout (b : Nat) (s : State) : Host.Outcome State Fault Refusal :=
  match s.bind b with
  | none => .next s
  | some x =>
    if x.st ≠ 1 || x.unacked.isEmpty || s.isFatal then .next s
    else if x.retries ≥ 7 then .next (qpFail b 2 (atLeast (x.at_ + nbTimeout x.block) s))
    else
      let s := atLeast (x.at_ + nbTimeout x.block) s
      let s := s.setBind b { x with retries := x.retries + 1, at_ := s.now }
      .next (x.unacked.foldl (fun s u => resend b u.1 s) (npCnt (b / 256) 11 x.unacked.length s))

/-- ROCE_CNP (R492): the sending rate goes down. -/
def execRoceCnp (p qpn : Nat) (s : State) : Host.Outcome State Fault Refusal :=
  match s.bindOf p qpn with
  | none => .next s
  | some (b, x) =>
    if (s.nport p).link ≠ 2 || s.isFatal then .next s
    else .next (npCnt p 10 1 (npRecv p 0 false none (s.setBind b { x with cnp := x.cnp + 1 })))

/-! ### What a responder receives (R495, R496) -/

/-- Sequence check of a received packet: 0 the expected one, 1 a repeated one, 2 one after a gap (R492). -/
def seqCheck (x : NetBind) (psn : Nat) : Nat :=
  if psn = x.rqPsn then 0 else if psnLe psn x.rqPsn then 1 else 2

/-- A received packet of a ready queue pair: counted and checked in sequence; `k` runs on the expected one. [DEDUCED, log 61] -/
def npArrive (p qpn psn n : Nat) (ecn : Bool) (k : Nat → NetBind → State → State) (s : State) : Host.Outcome State Fault Refusal :=
  match s.bindOf p qpn with
  | none => .next s
  | some (b, x) =>
    if (s.nport p).link ≠ 2 || s.isFatal || x.st ≠ 1 then .next s
    else
      let s := npRecv p n ecn (some b) s
      match seqCheck x psn with
      | 0 => .next (k b x s)
      | 1 => .next (npSend b psn 4 0 [] s)
      | _ => .next (npSend b x.rqPsn 5 0 [] s)

/-- An access that the binding refuses: a remote-access NAK, and the queue pair fails (R495). [DEDUCED, log 61] -/
def npRefuse (b psn bit : Nat) (s : State) : State :=
  let s := npSend b psn 5 2 [] s
  let s := if bit = 3 then npErr (b / 256) 3 0 0 4 b s else s
  qpFail b 3 s

/-- A WRITE of the binding may reach `n` bytes at `va` (R495, R496, R517). The region is still its context's: a page freed since the bind is
outside it. [DEDUCED, log 61] -/
def writeOk (x : NetBind) (va n : Nat) (s : State) : Bool :=
  if x.kind = 0 then decide (va + n ≤ nbBytes x.block) && (n == 0 || s.owns x.ctx (nbBase x.block + va) n) && (!(s.ctx x.ctx).confidential || (va % 64 == 0 && n % 64 == 0))
  else decide (x.consumed ≤ va ∧ va + n ≤ x.consumed + nbWindow x.block)

/-- Bytes that repeat received ones with other contents (R496). -/
def repeatsOther (x : NetBind) (va : Nat) (bs : Bytes) : Bool :=
  bs.zipIdx.any fun b => match stagedByte x.staged (va + b.2) with | some o => o != b.1 | none => false

/-- Place the bytes of a packet. [DEDUCED, log 73] -/
def npPlace (b : Nat) (x : NetBind) (va : Nat) (bs : Bytes) (s : State) : State :=
  let s := npCnt (b / 256) 14 bs.length s
  if x.kind = 0 then
    let a := nbBase x.block + va
    hbmWrite a (match s.chkOf x.ctx with
      | none => bs
      | some k => mapLines (fun l y => Config.xtsDec k l y) (a / 64) bs (bs.length / 64)) s
  else s.setBind b { x with staged := x.staged ++ [(va, bs)] }

/-- A packet of a WRITE message: the first carries address, key and length of the message. -/
def npWritePacket (psn : Nat) (first : Bool) (va key len : Nat) (bs : Bytes) (fin : Nat → Nat → State → State) (b : Nat) (x : NetBind)
    (s : State) : State :=
  let start := if first then some (va, 0, len) else x.rx
  match start with
  | none => npRefuse b psn 2 s
  | some (va, got, left) =>
    let image := x.kind == 1
    if first && (key ≠ x.rkey || x.kind = 2 || !writeOk x va len s) then npRefuse b psn (if image && key = x.rkey then 3 else 2) s
    else if bs.length > left || (image && !writeOk x va bs.length s) || (image && repeatsOther x va bs) then
      npRefuse b psn (if image then 3 else 2) s
    else
      let left := left - bs.length
      let x := { x with rqPsn := psnAdd psn 1, rx := if left = 0 then none else some (va + bs.length, got + bs.length, left) }
      let s := npPlace b x va bs (s.setBind b x)
      fin b (got + bs.length) (npSend b psn 4 0 [] s)

/-- ROCE_RDMA_WRITE (R495, R496): a packet of a WRITE without Immediate. -/
def execRoceRdmaWrite (p qpn psn : Nat) (first : Bool) (va key len : Nat) (data : Bytes) (ecn : Bool) (s : State) :
    Host.Outcome State Fault Refusal :=
  npArrive p qpn psn data.length ecn (npWritePacket psn first va key len data fun _ _ s => s) s

/-- ROCE_WRITE_IMMEDIATE (R495): the last packet of a WRITE with Immediate; with IMM_CR its completion record follows, every earlier
write of the queue pair having been placed. -/
def execRoceWriteImmediate (p qpn psn : Nat) (first : Bool) (va key len : Nat) (data : Bytes) (imm : Nat) (ecn : Bool) (s : State) :
    Host.Outcome State Fault Refusal :=
  npArrive p qpn psn data.length ecn (npWritePacket psn first va key len data fun b got s =>
    match s.bind b with
    | some x =>
      let j := nbCompl x.block
      if nbImmCr x.block && j ≠ 0xFFFF && (s.ring j).st ≠ 0 then
        produce j (ukey Config.tNet p) (complRecord 0xFFFF 0 0 0 0 0 s.now
          (leBytes 1 0 ++ leBytes 1 4 ++ zeros 2 ++ leBytes 4 imm ++ leBytes 8 got ++ zeros 8) 0) 0xFFFF s
      else s
    | none => s) s

/-- ROCE_RDMA_READ (R495): answered from the region of an RX_HBM binding, in the form in which its data leaves. -/
def execRoceRdmaRead (p qpn psn va key len : Nat) (ecn : Bool) (s : State) : Host.Outcome State Fault Refusal :=
  npArrive p qpn psn 0 ecn (fun b x s =>
    let a := nbBase x.block + va
    if x.kind ≠ 0 || key ≠ x.rkey || va + len > nbBytes x.block || (len ≠ 0 && !s.owns x.ctx a len)
        || ((s.ctx x.ctx).confidential && (va % 64 ≠ 0 || len % 64 ≠ 0)) then npRefuse b psn 2 s
    else if s.hbmBad a len then npRefuse b psn 2 (npErr p 4 0 0 1 b s)
    else
      let bs := s.hbmRead a len
      let bs := match s.chkOf x.ctx with
        | none => bs
        | some k => mapLines (fun l y => Config.xtsEnc k l y) (a / 64) bs (len / 64)
      let ps := packets (s.npMtu p x.block) psn bs
      let s := (hbmTaken a len s).setBind b { x with rqPsn := psnAdd psn ps.length }
      ps.foldl (fun s q => npSend b q.1 7 (va + q.2.1) q.2.2 s) s) s

/-- ROCE_SEND (R492): a SEND of at most 256 bytes is received; a longer one is not supported. -/
def execRoceSend (p qpn psn : Nat) (data : Bytes) (ecn : Bool) (s : State) : Host.Outcome State Fault Refusal :=
  npArrive p qpn psn data.length ecn (fun b x s =>
    if data.length > 256 then npCnt p 13 1 s
    else npSend b psn 4 0 [] ((s.setBind b { x with rqPsn := psnAdd psn 1 }).updNport p fun y => { y with recv := y.recv ++ [(b, data)] })) s

/-- ROCE_UNSUPPORTED (R492): dropped and counted. -/
def execRoceUnsupported (p : Nat) (s : State) : Host.Outcome State Fault Refusal :=
  if p ≥ 2 || (s.nport p).link ≠ 2 || s.isFatal then .next s else .next (npCnt p 13 1 (npRecv p 0 false none s))

/-- FCS_DROP (R504): a frame fails its FCS or ICRC. -/
def execFcsDrop (p : Nat) (s : State) : Host.Outcome State Fault Refusal :=
  if p ≥ 2 || (s.nport p).link ≠ 2 || s.isFatal then .next s else .next (npCnt p 6 1 s)

/-- PFC_PAUSE_FRAME (R491): a priority of NP_SET_PFC_MASK is paused for a number of quanta of 512 bit times at 800 Gb/s. -/
def execPfcPauseFrame (p prio quanta : Nat) (s : State) : Host.Outcome State Fault Refusal :=
  if p ≥ 2 || (s.nport p).link ≠ 2 || s.isFatal then .next s
  else
    let s := npCnt p 7 1 (npRecv p 0 false none s)
    if prio < 8 && bitOf (s.valueOf Config.tNet p 2) prio then
      .next (s.updNport p fun x => { x with
        paused := (x.paused.filter fun q => q.1 != prio) ++ (if quanta = 0 then [] else [(prio, s.now + cdiv (quanta % 65536 * 64) 100)]) })
    else .next s

/-! ### Links (R498, R499, R503) -/

/-- The firmware queue pairs of a port fail; a pod whose paths over both ports are gone is unreachable (R499). -/
def podsLost (p : Nat) (s : State) : State :=
  let pods := (List.range 1024).filter fun q => q != s.sys.pod && s.groups.any fun g => g.2.members.any fun m => m / 64 == q
  let s := s.updNport p fun x => { x with lostPods := pods.foldl (fun l q => NSet.ins q l) x.lostPods }
  let gone := pods.filter fun q => (s.nport (1 - p)).lostPods.contains q || (s.nport (1 - p)).link ≠ 2
  let devs := (s.groups.flatMap fun g => g.2.members).eraseDups.filter fun m => gone.contains (m / 64)
  devs.foldl (fun s m => deviceLost m s) s

/-- NP_LINK_DOWN (R498): the link has stayed down beyond the retry budget, and every queue pair on the port fails. -/
def execNpLinkDown (p : Nat) (s : State) : Host.Outcome State Fault Refusal :=
  if p ≥ 2 || (s.nport p).link = 0 || s.isFatal then .next s
  else
    let s := npErr p 0 0 0 2 0 (s.updNport p fun x => { x with link := 0, since := s.now, paused := [] })
    let s := (s.binds.filter fun b => b.1 / 256 == p).foldl (fun s b => qpFail b.1 2 s) s
    .next (podsLost p s)

/-- NP_LINK_UP (R503): the link has trained and has FEC lock. -/
def execNpLinkUp (p : Nat) (s : State) : Host.Outcome State Fault Refusal :=
  if p ≥ 2 || (s.nport p).link = 2 || s.isFatal || !s.sys.vin then .next s
  else .next (s.updNport p fun x => { x with link := 2 })

end Sys2Proof.Machine
end

