-- ==== Sys2Proof/Machine/MemFree.lean ====
section
/-! DEFINITION. Sys2Proof/Machine/MemFree.lean: MEM_FREE and MEM_UNMAP_HOST, and what the tasks in progress read and write (R82, R346). -/

namespace Sys2Proof.Machine
open Sys2Proof

/-- A run of device memory (space 0) or host memory (space 1): space, address, bytes. -/
abbrev SpaceRun := Nat × Nat × Nat

/-- The runs of a Stream Unit's segments that are still to be acknowledged, and a gather's list, which it has read. -/
def suRuns (d : Bytes) (gs : List Seg) : List SpaceRun :=
  gs.flatMap fun g => (segSrc d g).map (fun r => (suSrcSpace d, r.1, r.2)) ++ (segDst d g).map fun r => (suDstSpace d, r.1, r.2)

/-- The runs that the descriptor in progress on a ring of a unit reads or writes in device and host memory. -/
def State.curRuns (s : State) (r : Ring) (c : Cur) : List SpaceRun :=
  let d := c.desc
  let dev (l : List (Nat × Nat)) : List SpaceRun := l.map fun x => (0, x.1, x.2)
  if dOp d < 0x10 then []
  else if r.unitType = Config.tStream then (if dOp d = 0x40 then [] else suRuns d (c.out ++ c.todo))
  else if r.unitType = Config.tLens then
    ((lReads d (s.lensSegs d) ++ lWrites d).filter (·.space == 0)).map fun x => (0, x.addr, x.len)
  else if r.unitType = Config.tPrism then
    (if dOp d = 0x10 then dev [(field d 16 8, 16 * field d 10 2)] else if dOp d = 0x11 then dev [(field d 24 8, 16 * field d 12 2)] else [])
  else if r.unitType = Config.tUpdate then
    (match dOp d, s.updJob with
      | 0x10, _ => dev [(field d 28 8, 2 * field d 24 4), (field d 36 8, 2 * field d 24 4)]
      | 0x12, some (_, job) => dev ((field d 48 8, 2 * field d 16 4) :: applyRuns job d)
      | 0x13, _ => dev [(field d 24 8, 2 * field d 20 4)]
      | _, _ => [])
  else if r.unitType = Config.tEngine then
    let g := s.group (field d 12 2)
    dev [(field d 20 8, collSrcLen d (s.rankIn g.members) g.members.length), (field d 28 8, collDstLen d (s.rankIn g.members) g.members.length)]
  else if r.unitType = Config.tNet then (if 0x12 ≤ dOp d then dev [(npLocal d, npBytes d)] else [])
  else []

/-- The runs of a context that its rings take up, that its tasks in progress read and write, its copies and image loads among them, and
that its token rings and tag lists in force lie in. [DEDUCED, log 29] -/
def State.usedRuns (s : State) (c : Nat) : List SpaceRun :=
  let rings := s.rings.filter fun r => r.2.ctx == c && r.2.st != 0
  (rings.map fun r => (r.2.space, r.2.base, r.2.slots * 2 ^ r.2.slotLog2))
  ++ rings.flatMap (fun r => match r.2.cur with | some t => s.curRuns r.2 t | none => [])
  ++ (s.prings.filter fun p => p.2.bound && p.2.ctx == c && p.2.kind == 2 && p.2.tHere s).map (fun p => (0, p.2.base, p.2.slots * p.2.slotBytes))
  ++ (if c = 0 then s.chans.flatMap (fun x => x.2.lists.map fun l => (0, l.addr, 16 * l.rows)) else [])
  ++ ((s.ops.filter fun o => o.ctx == c && o.opcode == 0x0304).flatMap fun o =>
      [(field o.payload 24 1 % 2, field o.payload 0 8, field o.payload 16 8), (field o.payload 24 1 / 2 % 2, field o.payload 8 8, field o.payload 16 8)])
  ++ s.images.flatMap (fun g => (g.2.writes.filter fun w => w.ctx == c && decide (w.kind < 2)).map fun w => (w.kind, w.src, w.stop - w.from_))

/-- A ring lies in a run of a space, or a task in progress reads or writes there (R346). -/
def State.spaceUsed (s : State) (c space a n : Nat) : Bool :=
  (s.usedRuns c).any fun r => r.1 == space && r.2.2 != 0 && runsMeet r.2.1 r.2.2 a n

/-- MEM_FREE (R82, R346). [DEDUCED, log 29] -/
def specMemFree : CmdSpec where
  opcode := 0x0301
  access := 2
  p := false
  len := fixed 8
  rsv := noRsv
  resp := respOf 0
  run := fun i p s =>
    match s.mem.allocs.find? fun a => a.base == field p 0 8 && a.ctx == i.ctx && s.agents.all (fun g => g.2.base != a.base) with
    | none => .fail eAddress 0
    | some a => if s.spaceUsed i.ctx 0 a.base a.len then .fail eBusy 0 else .ok [] (freePages a s)

def execMemFree (q : Request) (s : State) : Host.Outcome State Fault Refusal := submit specMemFree q s

/-- MEM_UNMAP_HOST (R346). -/
def specMemUnmapHost : CmdSpec where
  opcode := 0x0303
  access := 2
  p := false
  len := fixed 2
  rsv := noRsv
  resp := respOf 0
  run := fun i p s =>
    match (s.ctx i.ctx).windows.find? fun w => w.handle == field p 0 2 with
    | none => .fail eBadHandle 0
    | some w =>
      if s.spaceUsed i.ctx 1 w.base w.len then .fail eBusy 0
      else .ok [] (s.updCtx i.ctx fun x => { x with windows := x.windows.filter fun v => v.handle != w.handle })

def execMemUnmapHost (q : Request) (s : State) : Host.Outcome State Fault Refusal := submit specMemUnmapHost q s

end Sys2Proof.Machine
end

