-- ==== Sys2Proof/Machine/Serving.lean ====
section
/-! DEFINITION. Sys2Proof/Machine/Serving.lean: models, queues, the request table, prefixes, sampler sets, Summary States and the
commands of group 0x07 (R390–R394, R403–R406, R412–R418). -/

namespace Sys2Proof.Machine
open Sys2Proof

/-! ### Tables -/

def State.srvModel (s : State) (m : Nat) : SrvModel := SMap.get SrvModel.init s.srv.models m
def State.setSrvModel (s : State) (m : Nat) (x : SrvModel) : State := { s with srv := { s.srv with models := SMap.set SrvModel.init s.srv.models m x } }
def State.updSrvModel (s : State) (m : Nat) (f : SrvModel → SrvModel) : State := s.setSrvModel m (f (s.srvModel m))
def State.srvQueue (s : State) (q : Nat) : SrvQueue := SMap.get SrvQueue.init s.srv.queues q
def State.setSrvQueue (s : State) (q : Nat) (x : SrvQueue) : State := { s with srv := { s.srv with queues := SMap.set SrvQueue.init s.srv.queues q x } }
def State.srvEntry (s : State) (i : Nat) : SrvEntry := SMap.get SrvEntry.init s.srv.entries i
def State.setSrvEntry (s : State) (i : Nat) (x : SrvEntry) : State := { s with srv := { s.srv with entries := SMap.set SrvEntry.init s.srv.entries i x } }
def State.updSrvEntry (s : State) (i : Nat) (f : SrvEntry → SrvEntry) : State := s.setSrvEntry i (f (s.srvEntry i))
/-- A model, a queue or an entry exists. -/
def State.hasModel (s : State) (m : Nat) : Bool := s.srv.models.any fun x => x.1 == m
def State.hasQueue (s : State) (q : Nat) : Bool := s.srv.queues.any fun x => x.1 == q
/-- Entries of a model, ascending, and its queues. -/
def State.entriesOf (s : State) (m : Nat) : List (Nat × SrvEntry) := s.srv.entries.filter fun e => e.2.model == m && e.2.st != 0
def State.queuesOf (s : State) (m : Nat) : List (Nat × SrvQueue) := s.srv.queues.filter fun q => q.2.model == m

/-- Sizes of the tables (R390, R393): 16 models on each side, and what the 10, 14 and 16 bits of a number hold. [DEDUCED, log 67] -/
def srvSideModels : Nat := 16
def srvQueueMax : Nat := 1024
def srvEntryMax : Nat := 16384
def srvPrefixMax : Nat := 65536

/-! ### Fields of the model block (R391) -/
def mSide (b : Bytes) : Nat := field b 0 1
def mPrism (b : Bytes) : Bool := bitOf (field b 1 1) 0
def mFmt (b : Bytes) : Nat := bits (field b 1 1) 4 4
def mImage (b : Bytes) : Nat := field b 2 2
def mPlanRing (b : Bytes) : Nat := field b 4 2
def mDoneRing (b : Bytes) : Nat := field b 6 2
def mOutRing (b : Bytes) : Nat := field b 8 2
def mLayers (b : Bytes) : Nat := field b 10 2
def mReqs (b : Bytes) : Nat := field b 12 2
def mChunk (b : Bytes) : Nat := field b 14 2
def mElems (b : Bytes) : Nat := field b 16 4
def mPages (b : Bytes) : Nat := field b 20 4
def mTokens (b : Bytes) : Nat := field b 24 4
def mVocab (b : Bytes) : Nat := field b 28 4
def mKv (b : Bytes) : Nat := field b 32 8
def mReq (b : Bytes) : Nat := field b 40 8
def mPlan (b : Bytes) : Nat := field b 48 8
def mSlots (b : Bytes) : Nat := field b 56 2
def mMaxlen (b : Bytes) : Nat := field b 58 2
def mKvMax (b : Bytes) : Nat := field b 60 4
/-- PAGE_BYTES, and the bytes of a request slot. -/
def mPageBytes (b : Bytes) : Nat := 128 * mLayers b * mElems b
def mSlotBytes (b : Bytes) : Nat := 8192 + 64 * mMaxlen b
def mPlanBytes (b : Bytes) : Nat := 64 + 32 * mReqs b + 4 * mTokens b
/-- Address of KV page `p`, of request slot `n`. -/
def mPageAt (b : Bytes) (p : Nat) : Nat := mKv b + p * mPageBytes b
def mSlotAt (b : Bytes) (n : Nat) : Nat := mReq b + n * mSlotBytes b

/-- The context whose rights a model's executor and sampler requests have (R392, R410). -/
def SrvModel.rights (m : SrvModel) : Nat := if mSide m.block = 0 then 0 else m.ctx
/-- The model's image is sealed. -/
def State.modelSealed (s : State) (m : SrvModel) : Bool :=
  mSide m.block == 0 && (match s.image (mImage m.block) with | some g => g.sealed | none => false)
/-- A counter of the lead block of a model's side. -/
def srvCnt (m : SrvModel) (n k : Nat) (s : State) : State :=
  if k = 0 then s else bump Config.tServing (s.leadBlock (mSide m.block)) n k s
/-- An error bit of the lead block, with the index, model and step of the first error (R422). -/
def srvErr (m : Nat) (bit index : Nat) (s : State) : State :=
  let x := s.srvModel m
  s.updUnit Config.tServing (s.leadBlock (mSide x.block)) fun u =>
    let u := if u.err = 0 then { u with errIndex := index, errRing := m, errReason := bit, last := x.step % 2 ^ 32 } else u
    { u with err := Nat.lor u.err (2 ^ bit) }

/-! ### Pages of the KV pool (R403, R404) -/

/-- References of a page; a reserved page counts one. -/
def SrvModel.ref (m : SrvModel) (p : Nat) : Nat := SMap.get 0 m.refs p
def SrvModel.addRef (m : SrvModel) (p : Nat) : SrvModel := { m with refs := SMap.set 0 m.refs p (m.ref p + 1) }
def SrvModel.dropRef (m : SrvModel) (p : Nat) : SrvModel := { m with refs := SMap.set 0 m.refs p (m.ref p - 1) }
/-- Free pages, and the lowest `n` of them. -/
def SrvModel.freePages (m : SrvModel) : Nat := mPages m.block - m.refs.length
def SrvModel.takePages (m : SrvModel) (n : Nat) : List Nat :=
  ((List.range (min (mPages m.block) (n + m.refs.length))).filter fun p => m.ref p == 0).take n

/-! ### Releasing (R394, R403) -/

/-- The entry's Prism block ends, or its open request is withdrawn (R286). -/
def srvPrismEnd (e : SrvEntry) (s : State) : State :=
  if e.blk = 1 then
    let ch := e.pring / 16
    let s := s.updChan ch fun x => { x with opens := x.opens.filter fun o => !(o.by_ == 0 && o.ring == e.pring % 16 && o.seq == e.seqId) }
    endBlock ch (e.pring % 16) e.seqId s
  else s

/-- A model goes with its last queue (R392), once the records that it owes are written (R399). [DEDUCED, log 67] -/
def srvSweepModel (m : Nat) (s : State) : State :=
  if (s.queuesOf m).isEmpty && (s.srvModel m).phase == 0 && (s.srvModel m).bents.isEmpty then
    { s with srv := { s.srv with
        models := s.srv.models.filter (fun x => x.1 != m)
        prefixes := s.srv.prefixes.filter (fun p => p.model != m)
        draws := s.srv.draws.filter (fun d => d.model != m)
        asks := s.srv.asks.filter (fun a => a.1 != m) } }
  else s

/-- A closed queue goes with its last request (R392). -/
def srvSweepQueue (q : Nat) (s : State) : State :=
  let x := s.srvQueue q
  if x.closed && s.srv.entries.all (fun e => e.2.st == 0 || e.2.queue != q) then srvSweepModel x.model (s.setSrvQueue q SrvQueue.init)
  else s

/-- Pages, slot and Prism block of an entry return, and it is FREE. -/
def srvRelease (i : Nat) (s : State) : State :=
  let e := s.srvEntry i
  let s := srvPrismEnd e s
  let s := s.updSrvModel e.model fun m =>
    let m := (e.pages ++ e.spare).foldl SrvModel.dropRef m
    { m with slots := if e.slot = 0 then m.slots else NSet.del (e.slot - 1) m.slots }
  let s := srvCnt (s.srvModel e.model) 4 1 (s.setSrvEntry i SrvEntry.init)
  srvSweepQueue e.queue s

/-- A pending pause and a pending resume complete with a status. -/
def srvDropOps (i status : Nat) (s : State) : State :=
  let e := s.srvEntry i
  let s := match e.pause with | some (c, h, _, _) => finishOp c h status 0 [] s | none => s
  let s := match e.resume with | some (c, h, _, _) => finishOp c h status 0 [] s | none => s
  s.updSrvEntry i fun e => { e with pause := none, resume := none, writing := false, restore := 0 }

/-- Context reset or destroy (R418): everything of the context goes at once, and its pending commands end with E_ABORTED. -/
def srvDrop (c : Nat) (s : State) : State :=
  let s := (s.srv.entries.filter fun e => e.2.st != 0 && e.2.ctx == c).foldl (fun s e => srvPrismEnd e.2 (srvDropOps e.1 eAborted s)) s
  let mine := (s.srv.models.filter fun m => m.2.ctx == c).map (·.1)
  { s with
    sweeps := s.sweeps.filter (fun w => match w.model with | some m => !mine.contains m | none => true)
    srv := { models := s.srv.models.filter (fun m => m.2.ctx != c)
             queues := s.srv.queues.filter (fun q => !mine.contains q.2.model)
             entries := s.srv.entries.filter (fun e => e.2.ctx != c)
             prefixes := s.srv.prefixes.filter (fun p => p.ctx != c)
             samplers := s.srv.samplers.filter (fun x => x.1 / 256 != c)
             draws := s.srv.draws.filter (fun d => !mine.contains d.model)
             asks := s.srv.asks.filter (fun a => !mine.contains a.1) } }

/-! ### SRV_QUEUE_CREATE (R391, R392, R399) -/

/-- Byte offset, in the payload, of the first field of a model block that R391 does not allow. [DEDUCED, log 67] -/
def modelBad (c lead : Nat) (b : Bytes) (s : State) : Option Nat :=
  let r (o lo hi v : Nat) (k : Option Nat) : Option Nat := if lo ≤ v ∧ v ≤ hi then k else some (64 + o)
  let tch := mSide b == 0
  let ringOf (j kind : Nat) : Bool := j < Config.rings && (s.ring j).st != 0 && (s.ring j).kind == kind && (s.ring j).ctx == c
  let out := s.ring (mOutRing b)
  let need := 2 * cdiv (64 + 16 * (mReqs b + 256)) (2 ^ out.slotLog2)
  r 0 0 1 (mSide b) <| r 1 0 1 (mFmt b) <|
  (if !tch && mImage b != 0xFFFF then some 66
   else if !tch && !ringOf (mPlanRing b) 1 then some 68
   else if !tch && !(ringOf (mDoneRing b) 1 && (s.ring (mDoneRing b)).unitType == Config.tServing
      && (s.ring (mDoneRing b)).unitInst == lead) then some 70
   else if !(ringOf (mOutRing b) 3) || out.slots < need then some 72
   else
    r 10 1 1024 (mLayers b) <| r 12 1 4096 (mReqs b) <| r 14 1 8192 (mChunk b) <|
    r 16 64 65536 (mElems b) <| (if mElems b % 64 != 0 then some 80 else
    r 20 1 16777216 (mPages b) <| r 24 1 65536 (mTokens b) <|
    (if !tch && (mVocab b = 0 || mVocab b > 1048576) then some 92 else
    r 56 1 16384 (mSlots b) <| r 58 1 1024 (mMaxlen b) none)))

/-- An address range of a model: 64-byte aligned, in the context's pages, on the model's side. -/
def modelRange (c side a n : Nat) (s : State) : Bool :=
  a % 64 == 0 && s.owns c a n && (decide (stackOf a < 4) == (side == 0)) && (decide (stackOf (a + n - 1) < 4) == (side == 0))

/-- The image of a teacher model: there, the context's own, ACTIVE, and served by its seal policy. -/
def modelImage (c : Nat) (b : Bytes) (s : State) : Option (Nat × Nat) :=
  if mSide b ≠ 0 then none
  else match s.image (mImage b) with
    | none => some (eBadHandle, 66)
    | some g =>
      if g.owner ≠ c + 1 then some (ePermission, 66)
      else if g.st ≠ 3 then some (eState, g.st)
      else if !s.sealAllows g 3 then some (eSeal, 5) else none

/-- The lowest number below `n` that a test accepts. -/
def lowest (n : Nat) (ok : Nat → Bool) : Option Nat := (List.range n).find? ok

/-- SRV_QUEUE_CREATE (R390–R392, R399, R416). [DEDUCED, log 67] -/
def specSrvQueueCreate : CmdSpec where
  opcode := 0x0700
  access := 2
  p := false
  len := fixed 128
  rsv := rsvAt [(3, 61)]
  rbits := fun p => if field p 0 2 = 0xFFFF then [(65, 0x0E)] else []
  resp := respOf 4
  run := fun i p s =>
    let m := field p 0 2
    let w := field p 2 1
    let b := (p.drop 64).take 64
    let queues := (s.srv.queues.filter fun q => (s.srvModel q.2.model).ctx == i.ctx).length
    let room (k : Nat → Res) : Res :=
      if i.ctx ≠ 0 && queues ≥ (s.ctx i.ctx).quota.srvQueues then .fail eQuota 16
      else match lowest srvQueueMax (fun q => !s.hasQueue q) with
        | some q => k q
        | none => .fail eNoResource 0
    let newQueue (m : Nat) : SrvQueue := { model := m, weight := w, closed := false, deficit := 0 }
    if m ≠ 0xFFFF then
      if !s.hasModel m || (s.queuesOf m).isEmpty then .fail eBadHandle 0
      else if (s.srvModel m).ctx ≠ i.ctx then .fail ePermission 0
      else if w = 0 then .fail eBadArgument 2
      else room fun q => .ok (leBytes 2 q ++ leBytes 2 m) (s.setSrvQueue q (newQueue m))
    else if w = 0 then .fail eBadArgument 2
    else
      let side := mSide b
      match modelImage i.ctx b s with
      | some (st, d) => .fail st d
      | none =>
        match modelBad i.ctx (s.leadBlock side) b s with
        | some o => .fail 0x2700 o
        | none =>
          let b := if side = 0 then
              (match s.image (mImage b) with | some g => splice b 28 (leBytes 4 (s.imgVocab g)) | none => b)
            else b
          if !modelRange i.ctx side (mKv b) (mPages b * mPageBytes b) s then .fail eAddress 96
          else if !modelRange i.ctx side (mReq b) (mSlots b * mSlotBytes b) s then .fail eAddress 104
          else if !modelRange i.ctx side (mPlan b) (mPlanBytes b) s then .fail eAddress 112
          else room fun q =>
            match lowest srvSideModels (fun n => !s.hasModel (side * 16 + n)) with
            | none => .fail eNoResource 0
            | some n =>
              let m := side * 16 + n
              .ok (leBytes 2 q ++ leBytes 2 m)
                ((s.setSrvModel m { SrvModel.init with ctx := i.ctx, block := b }).setSrvQueue q (newQueue m))

def execSrvQueueCreate (q : Request) (s : State) : Host.Outcome State Fault Refusal := submit specSrvQueueCreate q s

/-- Handle and permission checks of a queue. [DEDUCED, log 44] -/
def queueHandle (c q : Nat) (s : State) : Option (Nat × Nat) :=
  if !s.hasQueue q then some (eBadHandle, 0)
  else if (s.srvModel (s.srvQueue q).model).ctx ≠ c then some (ePermission, 0) else none

/-- SRV_QUEUE_WEIGHT (R392): weight 0 closes the queue, which keeps its last weight. -/
def specSrvQueueWeight : CmdSpec where
  opcode := 0x0701
  access := 2
  p := false
  len := fixed 3
  rsv := noRsv
  resp := respOf 0
  run := fun i p s =>
    let q := field p 0 2
    let w := field p 2 1
    match queueHandle i.ctx q s with
    | some (st, d) => .fail st d
    | none =>
      let x := s.srvQueue q
      .ok [] (if w = 0 then srvSweepQueue q (s.setSrvQueue q { x with closed := true }) else s.setSrvQueue q { x with weight := w })

def execSrvQueueWeight (q : Request) (s : State) : Host.Outcome State Fault Refusal := submit specSrvQueueWeight q s

/-! ### Requests (R393, R412–R416) -/

/-- The Prism ring of a request of a model with FLAGS.PRISM: bound, PLACED, of the context, and long enough. -/
def srvRingBad (c r maxLen : Nat) (s : State) : Option (Nat × Nat) :=
  let p := s.pring (r / 16) (r % 16)
  if r ≥ 128 || !s.pringLive (r / 16) (r % 16) || p.ctx ≠ c then some (eBadHandle, 56)
  else if p.kind ≠ 0 || p.order ≠ 1 then some (eBadArgument, 56)
  else if p.maxLen < maxLen then some (eBadArgument, 32) else none

/-- The prefix of a handle. -/
def State.prefixOf (s : State) (c h : Nat) : Option SrvPrefix := s.srv.prefixes.find? fun x => x.ctx == c && x.handle == h

/-- Entries of a context other than FREE. -/
def State.entriesHeld (s : State) (c : Nat) : Nat := (s.srv.entries.filter fun e => e.2.st != 0 && e.2.ctx == c).length

/-- SRV_SUBMIT (R393, R404, R416). [DEDUCED, log 67] -/
def specSrvSubmit : CmdSpec where
  opcode := 0x0702
  access := 2
  p := false
  len := fixed 57
  rsv := rsvAt [(6, 2)]
  resp := respOf 2
  run := fun i p s =>
    let q := field p 0 2
    let prio := field p 2 1
    let maxLen := field p 32 4
    let plen := field p 36 4
    let ph := field p 24 8
    match queueHandle i.ctx q s with
    | some (st, d) => .fail st d
    | none =>
      let x := s.srvQueue q
      let m := s.srvModel x.model
      let pf := if ph = 0 then none else s.prefixOf i.ctx ph
      let n := match pf with | some y => y.n | none => 0
      let need := cdiv maxLen 64 - n / 64
      if prio > (s.ctx i.ctx).quota.prioMax then .fail ePermission 2
      else if ph ≠ 0 && pf.isNone then .fail eBadHandle 24
      else if prio > 7 then .fail eBadArgument 2
      else if (match pf with | some y => y.model != x.model | none => false) then .fail eBadArgument 24
      else if maxLen < n + plen + 1 || maxLen > 1024 * mMaxlen m.block then .fail eBadArgument 32
      else if plen = 0 && pf.isNone then .fail eBadArgument 36
      else match (if mPrism m.block then srvRingBad i.ctx (field p 56 1) maxLen s else none) with
      | some (st, d) => .fail st d
      | none =>
        if plen ≠ 0 && !s.owns i.ctx (field p 40 8) (4 * plen) then .fail eAddress 40
        else if i.ctx ≠ 0 && s.entriesHeld i.ctx ≥ (s.ctx i.ctx).quota.srvEntries then .fail eQuota 18
        else match lowest srvEntryMax (fun k => (s.srvEntry k).st == 0) with
        | none => .fail eNoResource 0
        | some k =>
          if x.closed then .fail eState 0
          else if m.faulted then .fail 0x2703 x.model
          else if need > mPages m.block then .fail 0x2701 need
          else
            let pages := match pf with | some y => y.pages | none => []
            let e : SrvEntry := { SrvEntry.init with
              st := 1, ctx := i.ctx, queue := q, model := x.model, length := n + plen, computed := n, maxLen, prio
              deadline := if field p 8 8 = 0 then 2 ^ 64 - 1 else field p 8 8, prefx := ph, sampler := field p 3 1, seed := field p 16 8
              tag := field p 4 2, seqId := field p 48 8, pring := field p 56 1, prompt := plen, from_ := n, tokAddr := field p 40 8
              pages, sentTo := n }
            .ok (leBytes 2 k) ((s.updSrvModel x.model fun m => pages.foldl SrvModel.addRef m).setSrvEntry k e)

def execSrvSubmit (q : Request) (s : State) : Host.Outcome State Fault Refusal := submit specSrvSubmit q s

/-- Handle and permission checks of a table index. [DEDUCED, log 44] -/
def entryHandle (c k off : Nat) (s : State) : Option (Nat × Nat) :=
  if (s.srvEntry k).st = 0 then some (eBadHandle, off) else if (s.srvEntry k).ctx ≠ c then some (ePermission, off) else none

/-- SRV_CANCEL (R412, R415): a pending pause or resume ends with E_STATE. -/
def specSrvCancel : CmdSpec where
  opcode := 0x0703
  access := 2
  p := false
  len := fixed 2
  rsv := noRsv
  resp := respOf 0
  run := fun i p s =>
    let k := field p 0 2
    match entryHandle i.ctx k 0 s with
    | some (st, d) => .fail st d
    | none =>
      let e := s.srvEntry k
      if e.st = 5 || e.st = 6 then .fail eState e.st
      else .ok [] (srvCnt (s.srvModel e.model) 5 1 ((srvDropOps k eState s).updSrvEntry k fun e => { e with st := 6 }))

def execSrvCancel (q : Request) (s : State) : Host.Outcome State Fault Refusal := submit specSrvCancel q s

/-! ### Summary States (R413, R414) -/

/-- CRC-32 of R55. -/
def crc32Bit (c : Nat) : Nat := if c % 2 = 1 then Nat.xor (c / 2) 0xEDB88320 else c / 2
def crc32 (bs : Bytes) : Nat :=
  Nat.xor (bs.foldl (fun c b => (List.range 8).foldl (fun a _ => crc32Bit a) (Nat.xor c b.toNat)) 0xFFFFFFFF) 0xFFFFFFFF

/-- Pages before the one that holds position COMPUTED − 1. -/
def fullPages (e : SrvEntry) : Nat := (e.computed - 1) / 64
/-- Bytes of a page in summary form, and of the whole summary. -/
def sumPageBytes (b : Bytes) : Nat := mLayers b * 64 * (mElems b / 2 + mElems b / 32)
def sumBytes (b : Bytes) (e : SrvEntry) : Nat := 64 + fullPages e * sumPageBytes b + mPageBytes b

/-- The scale of a group of 64 bf16 elements. -/
def sumScale (xs : List Nat) : Nat :=
  let amax := (xs.map fun x => fAbs (widen 1 x)).foldl (fun a x => if fNonFinite x then a else max a x) 0
  if amax = 0 then 0x3F80 else max 0x0080 (narrow 1 (fMul amax (fRcp 0x40E00000)))
/-- Codes and scales of the E elements of one layer and position. -/
def sumRow (xs : List Nat) : Bytes :=
  let gs := groupsOf 64 (xs.length / 64) xs
  let codes := gs.flatMap fun g => g.map fun x => quantCode4 (widen 1 x) (widen 1 (sumScale g))
  (groupsOf 2 (codes.length / 2) codes).flatMap (fun c => leBytes 1 (nth c 0 0 + 16 * nth c 1 0)) ++ gs.flatMap fun g => leBytes 2 (sumScale g)
/-- The `n` 16-bit elements of a run. -/
def halves (bs : Bytes) (n : Nat) : List Nat := (List.range n).map fun i => field bs (2 * i) 2
/-- A page in summary form. -/
def sumPage (b page : Bytes) : Bytes :=
  (List.range (mLayers b * 64)).flatMap fun r => sumRow (halves (page.drop (2 * r * mElems b)) (mElems b))
/-- The elements that codes and scales of one layer and position stand for. -/
def unsumRow (n : Nat) (bs : Bytes) : Bytes :=
  (List.range n).flatMap fun i =>
    let c := bits (field bs (i / 2) 1) (4 * (i % 2)) 4
    leBytes 2 (narrow 1 (fMul (intCode 4 c) (widen 1 (field bs (n / 2 + 2 * (i / 64)) 2))))
def unsumPage (b bs : Bytes) : Bytes :=
  (List.range (mLayers b * 64)).flatMap fun r => unsumRow (mElems b) (bs.drop (r * (mElems b / 2 + mElems b / 32)))

/-- The bytes of an entry's Summary State. -/
def State.summary (s : State) (k : Nat) : Bytes :=
  let e := s.srvEntry k
  let b := (s.srvModel e.model).block
  let page (i : Nat) : Bytes := s.hbmRead (mPageAt b (nth e.pages i 0)) (mPageBytes b)
  let head (crc : Nat) : Bytes := leBytes 4 0x4D4D5553 ++ leBytes 4 crc ++ leBytes 1 e.ctx ++ leBytes 1 e.model ++ leBytes 2 k
    ++ leBytes 4 e.computed ++ leBytes 4 (mElems b) ++ leBytes 2 (mLayers b) ++ zeros 42
  let body := (List.range (fullPages e)).flatMap (fun i => sumPage b (page i)) ++ page (fullPages e)
  head (crc32 (head 0 ++ body)) ++ body

/-- Poison in the pages of an entry. -/
def State.pagesBad (s : State) (e : SrvEntry) : Bool :=
  let b := (s.srvModel e.model).block
  (List.range (fullPages e + 1)).any fun i => s.hbmBad (mPageAt b (nth e.pages i 0)) (mPageBytes b)

/-- SRV_PAUSE (R413, R415): it takes effect at the next boundary. -/
def specSrvPause : CmdSpec where
  opcode := 0x0704
  access := 2
  p := true
  len := fixed 24
  rsv := rsvAt [(3, 5)]
  resp := respOf 8
  run := fun i p s =>
    let k := field p 0 2
    let cap := field p 16 8
    match entryHandle i.ctx k 0 s with
    | some (st, d) => .fail st d
    | none =>
      let e := s.srvEntry k
      let m := s.srvModel e.model
      if field p 2 1 > 1 then .fail eBadArgument 2
      else if !s.reach i.ctx (field p 2 1) (field p 8 8) (max 1 cap) then .fail eAddress 8
      else if e.pause.isSome || e.resume.isSome then .fail eBusy 0
      else if e.st ≠ 3 then .fail eState e.st
      else if s.modelSealed m then .fail eSeal 5
      else if cap < sumBytes m.block e then .fail 0x2702 (sumBytes m.block e)
      else .pend (s.setSrvEntry k { e with pause := some (i.ctx, i.handle, field p 2 1 + 2 * cap, field p 8 8) })

def execSrvPause (q : Request) (s : State) : Host.Outcome State Fault Refusal := submit specSrvPause q s

/-- Write or read data of a context in an address space: host data leaves and comes in the form of R517. -/
def ctxWrite (c space a : Nat) (bs : Bytes) (s : State) : State := if space = 0 then hbmWrite a bs s else hostPut (s.chkOf c) a bs s
def State.ctxRead (s : State) (c space a n : Nat) : Bytes := if space = 0 then s.hbmRead a n else s.hostGet (s.chkOf c) a n

/-- SUMMARY_WRITE_LANDED (R413, R418): the write has landed, or, with poison in a page, a destination that is gone or an aborted
transfer (`ok` false), it has failed and the request is back in DECODE. -/
def execSummaryWriteLanded (k : Nat) (ok : Bool) (s : State) : Host.Outcome State Fault Refusal :=
  let e := s.srvEntry k
  match e.pause with
  | none => .next s
  | some (c, h, sp, a) =>
    if !e.writing || e.st ≠ 4 || s.isFatal then .next s
    else
      let m := s.srvModel e.model
      let n := sumBytes m.block e
      let space := sp % 2
      if !ok || s.pagesBad e || !s.reach c space a n || (space = 1 && s.ideDenied c) then
        .next (srvErr e.model 2 k (finishOp c h eAborted 0 [] (s.setSrvEntry k { e with st := 3, pause := none, writing := false })))
      else
        let s := ctxWrite c space a (s.summary k) s
        let s := s.updSrvModel e.model fun m =>
          let m := (e.pages ++ e.spare).foldl SrvModel.dropRef m
          { m with bents := m.bents ++ [{ ix := k, queue := e.queue, token := 0xFFFFFFFF, prob := 0, status := 5, flags := 8 * b2n e.full
                                          tag := e.tag, deadline := e.deadline }] }
        let s := s.setSrvEntry k { e with pages := [], spare := [], pause := none, writing := false }
        .next (srvCnt m 6 1 (finishOp c h 0 0 (leBytes 8 n) s))

/-- The summary agrees with the entry (R414). -/
def summaryOk (k : Nat) (e : SrvEntry) (bs : Bytes) : Bool :=
  field bs 0 4 == 0x4D4D5553 && field bs 4 4 == crc32 (splice bs 4 (zeros 4)) && field bs 8 1 == e.ctx && field bs 9 1 == e.model
    && field bs 10 2 == k && field bs 12 4 == e.computed

/-- SRV_RESUME (R414, R415). -/
def specSrvResume : CmdSpec where
  opcode := 0x0705
  access := 2
  p := true
  len := fixed 16
  rsv := rsvAt [(3, 5)]
  resp := respOf 0
  run := fun i p s =>
    let k := field p 0 2
    let space := field p 2 1
    match entryHandle i.ctx k 0 s with
    | some (st, d) => .fail st d
    | none =>
      let e := s.srvEntry k
      let m := s.srvModel e.model
      let n := sumBytes m.block e
      if space > 1 then .fail eBadArgument 2
      else if !s.reach i.ctx space (field p 8 8) n then .fail eAddress 8
      else if e.pause.isSome || e.resume.isSome then .fail eBusy 0
      else if e.st ≠ 4 then .fail eState e.st
      else if s.modelSealed m then .fail eSeal 5
      else if s.spaceBad space (field p 8 8) n || (space = 1 && s.ideDenied i.ctx) then .failWith eAborted 0 (srvErr e.model 2 k s)
      else if !summaryOk k e (s.ctxRead i.ctx space (field p 8 8) n) then .failWith eIntegrity 0 (srvErr e.model 2 k s)
      else .pend (s.setSrvEntry k { e with st := 1, resume := some (i.ctx, i.handle, space, field p 8 8), restore := 0 })

def execSrvResume (q : Request) (s : State) : Host.Outcome State Fault Refusal := submit specSrvResume q s

/-- SUMMARY_RESTORE_COMPLETE (R414, R418): the pages are written, and the next boundary enters the request in DECODE; a restore that
fails leaves it PAUSED and gives its pages back. -/
def execSummaryRestoreComplete (k : Nat) (ok : Bool) (s : State) : Host.Outcome State Fault Refusal :=
  let e := s.srvEntry k
  match e.resume with
  | none => .next s
  | some (c, h, space, a) =>
    if e.st ≠ 1 || e.restore ≠ 1 || s.isFatal then .next s
    else
      let b := (s.srvModel e.model).block
      let n := sumBytes b e
      if !ok || s.spaceBad space a n || !s.reach c space a n || (space = 1 && s.ideDenied c) then
        let s := s.updSrvModel e.model fun m => (e.pages ++ e.spare).foldl SrvModel.dropRef m
        let s := s.setSrvEntry k { e with st := 4, pages := [], spare := [], resume := none, restore := 0 }
        .next (srvErr e.model 2 k (finishOp c h eAborted 0 [] s))
      else
        let bs := s.ctxRead c space a n
        let s := (List.range (fullPages e)).foldl (fun s i =>
          hbmWrite (mPageAt b (nth e.pages i 0)) (unsumPage b (bs.drop (64 + i * sumPageBytes b))) s) s
        let s := hbmWrite (mPageAt b (nth e.pages (fullPages e) 0)) (bs.drop (64 + fullPages e * sumPageBytes b)) s
        .next (s.setSrvEntry k { e with restore := 2 })

/-! ### Prefixes and sampler sets (R404, R406) -/

/-- SRV_PREFIX_CREATE (R404, R415). [DEDUCED, log 67] -/
def specSrvPrefixCreate : CmdSpec where
  opcode := 0x0706
  access := 2
  p := false
  len := fixed 16
  rsv := rsvAt [(10, 2)]
  resp := respOf 0
  run := fun i p s =>
    let h := field p 0 8
    let k := field p 8 2
    let n := field p 12 4
    match entryHandle i.ctx k 8 s with
    | some (st, d) => .fail st d
    | none =>
      let e := s.srvEntry k
      if h = 0 || (s.prefixOf i.ctx h).isSome then .fail eBadArgument 0
      else if n = 0 || e.computed < n then .fail eBadArgument 12
      else if i.ctx ≠ 0 && (s.srv.prefixes.filter fun x => x.ctx == i.ctx).length ≥ (s.ctx i.ctx).quota.prefixes then .fail eQuota 20
      else if s.srv.prefixes.length ≥ srvPrefixMax then .fail eNoResource 0
      else if e.st = 5 || e.st = 6 || e.pages.length < cdiv n 64 then .fail eState e.st
      else
        let pages := e.pages.take (cdiv n 64)
        let s := s.updSrvModel e.model fun m => pages.foldl SrvModel.addRef m
        .ok [] { s with srv := { s.srv with prefixes := s.srv.prefixes ++ [{ ctx := i.ctx, handle := h, model := e.model, n, pages }] } }

def execSrvPrefixCreate (q : Request) (s : State) : Host.Outcome State Fault Refusal := submit specSrvPrefixCreate q s

/-- SRV_PREFIX_RELEASE (R404). -/
def specSrvPrefixRelease : CmdSpec where
  opcode := 0x0707
  access := 2
  p := false
  len := fixed 8
  rsv := noRsv
  resp := respOf 0
  run := fun i p s =>
    match s.prefixOf i.ctx (field p 0 8) with
    | none => .fail eBadHandle 0
    | some x =>
      let s := s.updSrvModel x.model fun m => x.pages.foldl SrvModel.dropRef m
      .ok [] { s with srv := { s.srv with prefixes := s.srv.prefixes.filter fun y => !(y.ctx == x.ctx && y.handle == x.handle) } }

def execSrvPrefixRelease (q : Request) (s : State) : Host.Outcome State Fault Refusal := submit specSrvPrefixRelease q s

/-- Byte offset, in the payload, of the first field of a parameter set that R406 does not allow. -/
def samplerBad (b : Bytes) : Option Nat :=
  let temp := field b 0 4
  let topP := field b 8 4
  let rep := field b 12 4
  if temp ≠ 0 && !isPosNormal temp then some 64
  else if field b 4 2 > 256 then some 68
  else if topP > 0x3F800000 then some 72
  else if rep ≠ 0 && !isPosNormal rep then some 76
  else if fNonFinite (field b 16 4) then some 80 else none

/-- SRV_SAMPLER_SET (R406). -/
def specSrvSamplerSet : CmdSpec where
  opcode := 0x0708
  access := 2
  p := false
  len := fixed 128
  rsv := rsvAt [(1, 63), (100, 28)]
  rbits := rsvAt [(70, 0xFE), (71, 0xFF)]
  resp := respOf 0
  run := fun i p s =>
    let b := (p.drop 64).take 64
    match samplerBad b with
    | some o => .fail eBadArgument o
    | none => .ok [] { s with srv := { s.srv with samplers := SMap.set (zeros 64) s.srv.samplers (i.ctx * 256 + field p 0 1) b } }

def execSrvSamplerSet (q : Request) (s : State) : Host.Outcome State Fault Refusal := submit specSrvSamplerSet q s

end Sys2Proof.Machine
end

