-- ==== Sys2Proof/Machine/ServeStep.lean ====
section
/-! DEFINITION. Sys2Proof/Machine/ServeStep.lean: the step of a served model: boundary processing, the executor's handle, sampling,
Step Records and token chunks (R395–R402, R405, R407–R411, R287). -/

namespace Sys2Proof.Machine
open Sys2Proof

/-! ### Count table (R407) -/

/-- Address of an entry's request slot. -/
def entrySlot (b : Bytes) (e : SrvEntry) : Nat := mSlotAt b (e.slot - 1)
/-- The pairs of a count table in order of first occurrence: a place with count 0 is free. -/
def State.counts (s : State) (a : Nat) : List (Nat × Nat) :=
  ((List.range 1024).map fun i => (field (s.hbmRead (a + 8 * i) 8) 0 4, field (s.hbmRead (a + 8 * i) 8) 4 4)).takeWhile fun x => x.2 != 0
/-- Enter a token; the flag says that it found no place. -/
def countTok (a tok : Nat) (s : State) : State × Bool :=
  let l := s.counts a
  match l.findIdx? fun x => x.1 == tok with
  | some i => (hbmWrite (a + 8 * i) (leBytes 4 tok ++ leBytes 4 (satAdd 32 ((l.getD i (0, 0)).2) 1)) s, false)
  | none => if l.length < 1024 then (hbmWrite (a + 8 * l.length) (leBytes 4 tok ++ leBytes 4 1) s, false) else (s, true)
/-- Enter a token for an entry; COUNT_FULL stays set once a token found no place. -/
def entryCount (k tok : Nat) (s : State) : State :=
  let e := s.srvEntry k
  let (s, full) := countTok (entrySlot (s.srvModel e.model).block e) tok s
  if full then s.updSrvEntry k fun e => { e with full := true } else s

/-! ### Steps 1 to 4 of boundary processing (R394, R395) -/

/-- A boundary entry of a Step Record. -/
def bent (k : Nat) (e : SrvEntry) (status flags : Nat) : RecEnt :=
  { ix := k, queue := e.queue, token := 0xFFFFFFFF, prob := 0, status, flags := flags + 8 * b2n e.full, tag := e.tag
    deadline := e.deadline }
def addBent (m : Nat) (r : RecEnt) (s : State) : State := s.updSrvModel m fun x => { x with bents := x.bents ++ [r] }

/-- An on-policy request whose last tokens are still to be sent stays until they are (R287). -/
def chunksDue (m : SrvModel) (e : SrvEntry) : Bool := mPrism m.block && mSide m.block == 1 && e.blk == 1 && !e.toks.isEmpty

/-- Retirement, cancellation, failure of a FAULTED model's requests, pause and resume of one entry. -/
def boundaryEntry (m k : Nat) (s : State) : State :=
  let e := s.srvEntry k
  let x := s.srvModel m
  if e.st = 5 then (if chunksDue x e then s else srvRelease k s)
  else if e.st = 6 then srvRelease k (addBent m (bent k e 4 2) s)
  else if x.faulted && (e.st = 1 || e.st = 4) then srvRelease k (addBent m (bent k e 6 2) (srvDropOps k eState s))
  else match e.pause with
    | some (c, h, sp, _) =>
      if e.st ≠ 3 then s
      else if sp / 2 < sumBytes x.block e then
        finishOp c h 0x2702 (sumBytes x.block e) [] (s.setSrvEntry k { e with pause := none })
      else s.setSrvEntry k { e with st := 4, writing := true }
    | none =>
      match e.resume with
      | some (c, h, _, _) =>
        if e.st = 1 && e.restore = 2 then
          let s := s.setSrvEntry k { e with st := 3, resume := none, restore := 0, lossy := true }
          srvCnt x 7 1 (finishOp c h 0 0 [] (addBent m (bent k e 8 0) s))
        else s
      | none => s

/-- The entries of a model in one of these states, ascending, through boundary processing. [DEDUCED, log 67] -/
def boundaryPass (m : Nat) (sts : List Nat) (s : State) : State :=
  ((s.entriesOf m).filter fun e => sts.contains e.2.st).foldl (fun s e => boundaryEntry m e.1 s) s

/-! ### Choosing a batch (R400–R402) -/

/-- The cost of a candidate. -/
def srvCost (b : Bytes) (e : SrvEntry) : Nat := if e.st = 3 then 1 else min (mChunk b) (e.length - e.computed)
/-- The ranking key, as one number. -/
def srvKey (k : Nat) (e : SrvEntry) : Nat := (((7 - e.prio) * 2 ^ 64 + e.deadline) * 1024 + e.queue) * 16384 + k
/-- Candidates in key order. -/
def insertCand (x : Nat × SrvEntry) : List (Nat × SrvEntry) → List (Nat × SrvEntry)
  | [] => [x]
  | y :: l => if srvKey x.1 x.2 ≤ srvKey y.1 y.2 then x :: y :: l else y :: insertCand x l
def State.ranked (s : State) (m : Nat) : List (Nat × SrvEntry) :=
  ((s.entriesOf m).filter fun e => 1 ≤ e.2.st && e.2.st ≤ 3).foldr insertCand []

/-- CAP of a queue (R401). -/
def State.srvCap (s : State) (q : SrvQueue) : Nat :=
  let b := (s.srvModel q.model).block
  let lead := s.leadBlock (mSide b)
  max (s.valueOf Config.tServing lead 2 * s.valueOf Config.tServing lead 1 * q.weight) (mChunk b)

/-- The deficits at a boundary (R401). -/
def fillDeficits (m : Nat) (s : State) : State :=
  (s.queuesOf m).foldl (fun s q =>
    let quantum := s.valueOf Config.tServing (s.leadBlock (mSide (s.srvModel m).block)) 1
    let any := (s.ranked m).any fun e => e.2.queue == q.1
    s.setSrvQueue q.1 { q.2 with deficit := if any then min (q.2.deficit + (quantum * q.2.weight : Nat)) (s.srvCap q.2 : Int) else 0 }) s

/-- Ask for the Prism blocks of the requests that are considered for the first time (R400, R274). -/
def askBlocks (m : Nat) (s : State) : State :=
  if mPrism (s.srvModel m).block then
    (s.ranked m).foldl (fun s x =>
      let e := x.2
      if e.st = 1 && e.blk = 0 && e.resume.isNone && e.slot = 0 then
        openAsk (e.pring / 16) { ring := e.pring % 16, seq := e.seqId, first := e.length, len := e.maxLen, by_ := 0 }
          (s.setSrvEntry x.1 { e with blk := 1 })
      else s) s
  else s

/-- The entry's next write falls in a page that others share (R405). -/
def needsCow (m : SrvModel) (e : SrvEntry) (count : Nat) : Bool :=
  count != 0 && decide (e.computed / 64 < e.pages.length) && decide (1 < m.ref (nth e.pages (e.computed / 64) 0))
/-- Pages that taking the candidate moves into its list. -/
def pagesWanted (m : SrvModel) (e : SrvEntry) (count : Nat) : Nat :=
  cdiv (e.computed + count) 64 - e.pages.length + b2n (needsCow m e count)

/-- The reservation of an entry that is not admitted yet (R403). -/
def reservation (e : SrvEntry) : Nat := cdiv e.maxLen 64 - e.from_ / 64

/-- The candidate fits (R402), and, when it is QUEUED, may be admitted (R400). -/
def candFits (m : SrvModel) (x : Nat × SrvEntry) (toks traffic : Nat) (s : State) : Bool :=
  let b := m.block
  let e := x.2
  let cost := srvCost b e
  decide (m.plan.length < mReqs b) && decide (toks + cost ≤ mTokens b)
    && (mKvMax b == 0 || decide (traffic + (e.computed + cost) * mPageBytes b / 64 ≤ mKvMax b * 2 ^ 20))
    && (if e.st = 1 then
          e.resume.isNone && decide (reservation e ≤ m.freePages) && decide (m.slots.length < mSlots b)
            && (!mPrism b || ((s.pring (e.pring / 16) (e.pring % 16)).blockOf e.seqId).isSome)
        else decide (pagesWanted m e cost ≤ e.spare.length + m.freePages))

/-- Admission (R400, R403, R407): pages are reserved, a slot is taken, the count table is zeroed. [DEDUCED, log 67] -/
def takeIn (k : Nat) (s : State) : State :=
  let e := s.srvEntry k
  let m := s.srvModel e.model
  let spare := m.takePages (reservation e)
  let slot := ((List.range (m.slots.length + 1)).find? fun n => !m.slots.contains n).getD 0
  let prompt := (List.range e.prompt).map fun i => field (s.hbmRead (e.tokAddr + 4 * i) 4) 0 4
  let s := s.setSrvModel e.model { spare.foldl SrvModel.addRef m with slots := NSet.ins slot m.slots }
  let e := { e with st := 2, slot := slot + 1, spare, toks := if mPrism m.block && mSide m.block = 1 then prompt else [] }
  let s := hbmWrite (entrySlot m.block e) (zeros 8192) (s.setSrvEntry k e)
  let set := SMap.get (zeros 64) m.sets e.sampler
  let s := if bitOf (field set 6 2) 0 then prompt.foldl (fun s t => entryCount k t s) s else s
  srvCnt m 3 1 s

/-- The next page of an entry: one of its reserved pages, else the lowest free one. -/
def nextPage (k : Nat) (s : State) : Nat × State :=
  let e := s.srvEntry k
  match e.spare with
  | p :: l => (p, s.setSrvEntry k { e with spare := l })
  | [] =>
    let p := ((s.srvModel e.model).takePages 1).headD 0
    (p, s.updSrvModel e.model fun m => m.addRef p)

/-- Give an entry the pages its next positions fall into; a shared page is copied first (R403, R405). The flag is COW. -/
def placePages (k count : Nat) (s : State) : State × Bool :=
  let e := s.srvEntry k
  let m := s.srvModel e.model
  let b := m.block
  let cow := needsCow m e count
  let s :=
    if cow then
      let i := e.computed / 64
      let old := nth e.pages i 0
      let (p, s) := nextPage k s
      let s := hbmWrite (mPageAt b p) (s.hbmRead (mPageAt b old) (mPageBytes b)) s
      let s := s.updSrvModel e.model fun m => m.dropRef old
      srvCnt m 8 1 (s.updSrvEntry k fun e => { e with pages := e.pages.set i p })
    else s
  let s := (List.range (cdiv (e.computed + count) 64 - e.pages.length)).foldl (fun s _ =>
    let (p, s) := nextPage k s
    s.updSrvEntry k fun e => { e with pages := e.pages ++ [p] }) s
  let e := s.srvEntry k
  (hbmWrite (entrySlot b e + 8192) (e.pages.flatMap fun p => leBytes 4 p) s, cow)

/-- Take a candidate into the plan. -/
def takeCand (m k : Nat) (s : State) : State :=
  let cost := srvCost (s.srvModel m).block (s.srvEntry k)
  let s := if (s.srvEntry k).st = 1 then takeIn k s else s
  let (s, cow) := placePages k cost s
  let e := s.srvEntry k
  let tokens := if e.st = 3 then [e.last]
    else (List.range cost).map fun i => field (s.hbmRead (e.tokAddr + 4 * (e.computed - e.from_ + i)) 4) 0 4
  let s := s.updSrvModel m fun x => { x with plan := x.plan ++
    [{ ix := k, prefill := e.st != 3, row := e.computed + cost == e.length, cow, first := e.computed, count := cost, tokens }] }
  let q := s.srvQueue e.queue
  s.setSrvQueue e.queue { q with deficit := max (q.deficit - (cost : Int)) (-(s.srvCap q : Int)) }

/-- One pass over the candidates (R401). -/
def batchPass (m : Nat) (first : Bool) : List (Nat × SrvEntry) → State → State
  | [], s => s
  | c :: l, s =>
    let x := s.srvModel m
    let e := s.srvEntry c.1
    let toks := (x.plan.map (·.count)).sum
    let traffic := (x.plan.map fun p => (p.first + p.count) * mPageBytes x.block / 64).sum
    let cost := srvCost x.block e
    if x.plan.any (fun p => p.ix == c.1) || !candFits x (c.1, e) toks traffic s
        || (first && decide ((s.srvQueue e.queue).deficit < (cost : Int))) then batchPass m first l s
    else batchPass m first l (takeCand m c.1 s)

/-- A resumed request whose pages can be met is admitted and its restore begins (R414). -/
def startRestores (m : Nat) (s : State) : State :=
  (s.ranked m).foldl (fun s c =>
    let e := s.srvEntry c.1
    let x := s.srvModel m
    let n := cdiv e.maxLen 64
    if e.st = 1 && e.resume.isSome && e.restore = 0 && n ≤ x.freePages then
      let ps := x.takePages n
      let s := s.setSrvModel m (ps.foldl SrvModel.addRef x)
      let used := cdiv e.computed 64
      let s := s.setSrvEntry c.1 { e with restore := 1, pages := ps.take used, spare := ps.drop used }
      hbmWrite (entrySlot x.block e + 8192) ((ps.take used).flatMap fun p => leBytes 4 p) s
    else s) s

/-! ### The plan (R396) -/

/-- Rows of a plan. -/
def planRows (p : List PlanEnt) : Nat := (p.filter (·.row)).length

/-- The entries of the plan buffer. -/
def planEntries (b : Bytes) (s : State) : List PlanEnt → Nat → Nat → Bytes
  | [], _, _ => []
  | p :: l, off, row =>
    leBytes 2 p.ix ++ leBytes 1 (b2n p.prefill) ++ leBytes 1 (b2n p.row + 2 * b2n p.cow) ++ leBytes 4 p.first ++ leBytes 4 p.count
      ++ leBytes 4 off ++ leBytes 8 (entrySlot b (s.srvEntry p.ix) + 8192) ++ leBytes 4 (if p.row then row else 0xFFFFFFFF) ++ zeros 4
      ++ planEntries b s l (off + 4 * p.count) (row + b2n p.row)

/-- Write the plan and hand it over: a handle on PLAN_RING for a student model, a sweep of the forward program for a teacher's. -/
def handOver (m : Nat) (s : State) : State :=
  let x := s.srvModel m
  let b := x.block
  let step := (x.step + 1) % 2 ^ 64
  let toks := (x.plan.map (·.count)).sum
  let head := leBytes 2 m ++ leBytes 2 x.plan.length ++ leBytes 4 (planRows x.plan) ++ leBytes 8 step ++ leBytes 4 toks ++ zeros 44
  let s := hbmWrite (mPlan b) (head ++ planEntries b s x.plan 0 0) s
  let s := hbmWrite (mPlan b + 64 + 32 * mReqs b) ((x.plan.flatMap (·.tokens)).flatMap fun t => leBytes 4 t) s
  let s := s.setSrvModel m { x with step, phase := 1, rows := [], drawn := [], fail := false, start := s.now }
  if mSide b = 1 then
    ringPut (mPlanRing b) (leBytes 8 (mPlan b) ++ leBytes 4 (64 + 32 * mReqs b + 4 * toks) ++ leBytes 2 (step % 65536) ++ [0, 0]) s
  else { s with sweeps := s.sweeps ++ [Sweep.start (16 + m) (mImage b) none (some m) toks] }

/-- SERVING_BOUNDARY (R395): retirement, cancellations, pauses, resumes, then the next batch and its plan. A plan that no entry
enters is not handed over; boundary entries then make a record of KIND BOUNDARY. -/
def execServingBoundary (m : Nat) (s : State) : Host.Outcome State Fault Refusal :=
  if !s.hasModel m || (s.srvModel m).phase ≠ 0 || s.isFatal then .next s
  else
    let s := boundaryPass m [5] s
    let s := boundaryPass m [6] s
    let s := boundaryPass m [1, 4] (boundaryPass m [3] s)
    if !s.hasModel m then .next s
    else
      let x := s.srvModel m
      let s := s.setSrvModel m { x with
        plan := [], sets := (s.srv.samplers.filter fun y => y.1 / 256 == x.ctx).map fun y => (y.1 % 256, y.2) }
      let full := mSide x.block == 1 && (s.ring (mPlanRing x.block)).full
      let s := if x.faulted || full || (s.unit Config.tServing (s.leadBlock (mSide x.block))).hold then s
        else
          let s := startRestores m (askBlocks m (fillDeficits m s))
          batchPass m false (s.ranked m) (batchPass m true (s.ranked m) s)
      if !(s.srvModel m).plan.isEmpty then .next (handOver m s)
      else if !(s.srvModel m).bents.isEmpty then .next (s.updSrvModel m fun x => { x with phase := 3, start := s.now })
      else .next s

/-! ### Execution and sampling (R397, R408–R411) -/

/-- The step fails (R418). -/
def stepFail (m : Nat) (bits_ : List Nat) (s : State) : State :=
  let x := s.srvModel m
  let ix := match x.plan with | p :: _ => p.ix | [] => 0
  let s := bits_.foldl (fun s b => srvErr m b ix s) s
  let s := s.setSrvModel m { x with fail := true, phase := 3 }
  raise { code := 0xC, status := eAborted, flags := 0, ty := Config.tServing, inst := s.leadBlock (mSide x.block), ctx := x.ctx, ring := 0xFFFF
          index := 0, addr := 0, space := 0 } { s with srv := { s.srv with
            draws := s.srv.draws.filter fun d => d.model != m
            asks := s.srv.asks.filter fun a => a.1 != m } }

/-- A teacher pass of the step met a poisoned staging half: the model becomes FAULTED (R369, R418). [DEDUCED, log 65] -/
def modelFault (m : Nat) (s : State) : State :=
  let x := s.srvModel m
  let s := if x.phase = 1 then stepFail m [0] s else s
  let s := srvErr m 1 (match x.plan with | p :: _ => p.ix | [] => 0) s
  let s := s.updSrvModel m fun x => { x with faulted := true }
  deliverEvent x.ctx (eventRecord 0xFFFF eIntegrity 0 2 0 0 s.now (zeros 32) 0)
    { s with sweeps := s.sweeps.filter fun w => w.model != some m }

/-- The row table behind a handle. -/
def State.rowTable (s : State) (a n : Nat) : List (Nat × Nat × Nat) :=
  (List.range n).map fun i =>
    let b := s.hbmRead (a + 16 * i) 16
    (field b 0 1, field b 2 2, field b 8 8)

/-- EXECUTOR_DONE (R397): the handle comes from DONE_RING for a student model, and is `handle` from firmware for a teacher model, whose
sweep has ended. -/
def execExecutorDone (m : Nat) (handle : Bytes) (s : State) : Host.Outcome State Fault Refusal :=
  let x := s.srvModel m
  if !s.hasModel m || x.phase ≠ 1 || s.isFatal then .next s
  else
    let go (h : Bytes) (s : State) : State :=
      let n := planRows x.plan
      if field h 15 1 ≠ 0 || field h 12 2 ≠ x.step % 65536 then stepFail m [0] s
      else if n = 0 then s.updSrvModel m fun x => { x with phase := 3 }
      else if !s.owns x.rights (field h 0 8) (16 * n) then stepFail m [0] s
      else if s.hbmBad (field h 0 8) (16 * n) then stepFail m [0, 4] s
      else s.updSrvModel m fun x => { x with rows := s.rowTable (field h 0 8) n, phase := 2 }
    if mSide x.block = 1 then
      let j := mDoneRing x.block
      let r := s.ring j
      if r.filled = 0 then .next s
      else
        let a := r.slotAddr r.head
        let bad := s.spaceBad r.space a 16
        let h := s.spaceRead r.space a 16
        let s := s.setRing j { r with head := r.nextIx r.head, done := (r.done + 1) % 2 ^ 32 }
        .next (if bad then stepFail m [0, 4] s else go h s)
    else if s.sweeps.any fun w => w.model == some m then .next s
    else .next (go (fitTo 16 handle) s)

/-- The plan entry of a row. -/
def rowEntry (p : List PlanEnt) (row : Nat) : Option PlanEnt := (p.filter (·.row))[row]?

/-- A row of logits with the penalties of a parameter set applied to the tokens of a count table (R408). -/
def penalized (b set : Bytes) (counts : List (Nat × Nat)) (row : Bytes) : Bytes :=
  let sz := if mFmt b = 0 then 4 else 2
  let rep := if field set 12 4 = 0 then one32 else field set 12 4
  let inv := fRcp rep
  counts.foldl (fun bs c =>
    if c.1 < mVocab b then
      let l := widen (mFmt b) (field bs (sz * c.1) sz)
      let l := if rep ≠ one32 then (if fLt 0 l then fMul l inv else fMul l rep) else l
      splice bs (sz * c.1) (leBytes sz (narrow (mFmt b) (fFma (fNeg (field set 16 4)) (u32ToF32 c.2) l)))
    else bs) row

/-- A class 0 top-k on a Lens (R250, R408, R410): the penalties are applied to the row in place, and the Lens selects. A row that the Lens
may not read, or that is marked, fails the step. -/
def samplerRun (m row lens : Nat) (s : State) : State :=
  let x := s.srvModel m
  let b := x.block
  match x.rows[row]?, rowEntry x.plan row with
  | some (space, core, addr), some p =>
    let e := s.srvEntry p.ix
    let inst := Config.dieOf Config.tLens lens
    let sz := if mFmt b = 0 then 4 else 2
    let r : LRange := { space, core, addr, len := sz * mVocab b }
    let slot := entrySlot b e
    if space > 1 || !r.onDie lens || !s.lensPerm lens x.rights r || !s.lensRange lens x.rights true r then stepFail m [0] s
    else if s.lensBad lens r then stepFail m [0, 4] (lensNote lens x.rights 0xFFFF 0 r s)
    else if s.hbmBad slot 8192 || s.hbmBad (slot + 8192) (4 * e.pages.length) then stepFail m [0, 4] s
    else
      let set := SMap.get (zeros 64) x.sets e.sampler
      let temp := field set 0 4
      let bs := penalized b set (s.counts slot) (s.lensRead lens r)
      let s := lensWrite lens space core addr bs (lensSuspend lens 0 s)
      let k := if temp = 0 then 1 else if field set 4 2 = 0 then 256 else field set 4 2
      let xs := (List.range (mVocab b)).map fun i => field bs (sz * i) sz
      let q := lensTopk (mFmt b) false (some (if temp = 0 then one32 else temp)) k xs
      let s := lensCounts lens [(1, (lensPasses (mFmt b) + 1) * mVocab b), (2, q.nan), (3, 1), (4, 1), (5, 1), (11, b2n (bitOf q.flags 0))]
        (spent Config.tServing inst [10] (spent Config.tLens lens [0, 8] (lensLast lens q.valid q.flags s)))
      let s := s.updUnit Config.tLens lens fun u => { u with last := u.last % 2 ^ 40 + 2 ^ 48 }
      bump Config.tServing inst 9 1 { s with srv := { s.srv with draws := s.srv.draws ++ [{ model := m, row, inst, block := q.block }] } }
  | _, _ => s

/-- The Lens serves the sampler requests that waited while it held a row. -/
def samplerServe (lens : Nat) (s : State) : State :=
  let mine := s.srv.asks.filter fun a => a.2.2 == lens
  mine.foldl (fun s a => if s.srv.asks.contains a then
      samplerRun a.1 a.2.1 lens { s with srv := { s.srv with asks := s.srv.asks.erase a } }
    else s) s

/-- The Prism has still to accept the row of a request whose model's rows go to it (R286, R408). -/
def State.prismWaits (s : State) (b : Bytes) (e : SrvEntry) : Bool :=
  mPrism b && mSide b == 0 && (s.chan (e.pring / 16)).lists.any fun l =>
    ((s.tagsOf l.addr l.rows).drop l.next).any fun t => t.seq == e.seqId && t.ring == e.pring % 16

/-- SAMPLER_REQUEST (R408, R410): a request for a row of the step goes to a Lens of the row's die, once the Prism has accepted the row where it
goes there too. A Lens that holds a row for the Prism starts it only once the row is gone (R252). [DEDUCED, log 52] -/
def execSamplerRequest (m row lens : Nat) (s : State) : Host.Outcome State Fault Refusal :=
  let x := s.srvModel m
  let b := x.block
  let inst := Config.dieOf Config.tLens lens
  if (x.rows[row]?).isNone || (rowEntry x.plan row).isNone || x.phase ≠ 2 || s.isFatal || !s.enabled Config.tLens lens
      || (s.unit Config.tLens lens).oos || !s.enabled Config.tServing inst || s.srv.draws.any (fun d => d.model == m && d.row == row)
      || s.srv.asks.any (fun a => a.1 == m && a.2.1 == row) || x.drawn.any (fun d => d.1 == row) || (decide (inst < 4) != (mSide b == 0))
      || (match rowEntry x.plan row with | some p => s.prismWaits b (s.srvEntry p.ix) | none => false) then .next s
  else
    let s := { s with srv := { s.srv with asks := s.srv.asks ++ [(m, row, lens)] } }
    .next (if (s.heldRow lens).isSome then s else samplerServe lens s)

/-- PRISM_ROW_ACCEPT (R268, R275): the channel accepts the row that a Lens holds, against a reserved credit where its ring
is a STREAM ring. Sampler requests that waited for the Lens come before its next row (R250, R252). -/
def execPrismRowAccept (lens : Nat) (s : State) : Host.Outcome State Fault Refusal :=
  match s.heldRow lens with
  | none => .next s
  | some (j, d, row) =>
    let ch := field d 14 2
    match s.nextList ch lens with
    | none => .next s
    | some l =>
      let tag := s.tagAt l.addr l.next
      let p := s.pring ch tag.ring
      if s.isFatal || (s.unit Config.tPrism ch).hold || !s.pringLive ch tag.ring || (p.order = 0 && p.reserved = 0) then .next s
      else match s.mapPoison p row with
        | some a =>
          .next (raise { code := 0xB, status := 0x113, flags := 1, ty := Config.tPrism, inst := ch, ctx := p.ctx, ring := 0xFFFF
                         index := 0, addr := a, space := 1 }
            (pringNotice p.ctx (pringReset ch tag.ring 2 (setErr Config.tPrism ch 2 (4096 * tag.ring) 0 2 s))))
        | none =>
          let (rc, folded) := formRecord s ch p tag l.temp row
          let s := if p.order = 0 then s.setPring ch tag.ring { p with reserved := p.reserved - 1 } else s
          let s := s.updChan ch fun x => { x with
            lists := (x.lists.map fun y => if y = l then { y with next := y.next + 1 } else y).filter fun y => decide (y.next < y.rows) }
          let s := if p.mapAddr = 0 then s else spent Config.tPrism ch [4] s
          let s := fly ch tag.ring tag.seq tag.pos rc s
          let s := [(0, 1), (1, 1), (3, folded)].foldl (fun a c => if c.2 = 0 then a else bump Config.tPrism ch c.1 c.2 a) s
          let w : LRow := { valid := field row 0 4, nan := field row 4 4, selected := 0, flags := field row 12 1, extreme := 0
                            logNorm := 0, sumSel := 0, sumLeft := 0, ents := [] }
          let s := spent Config.tLens lens [7] (lensRowDone j w 0 s)
          match (s.ring j).cur with
          | some c => if c.rows = lRows d then .next (samplerServe lens (lensEnd j 0 0 s)) else .next (lensRun j 1 (samplerServe lens s))
          | none => .next s

/-- The generator (R409). -/
def srvRandom (seed pos : Nat) : Nat :=
  let x := Nat.xor (seed % 2 ^ 64) ((pos * 0x9E3779B97F4A7C15) % 2 ^ 64)
  let x := (Nat.xor x (x / 2 ^ 30) * 0xBF58476D1CE4E5B9) % 2 ^ 64
  let x := (Nat.xor x (x / 2 ^ 27) * 0x94D049BB133111EB) % 2 ^ 64
  Nat.xor x (x / 2 ^ 31) / 2 ^ 32

/-- First prefix sum that reaches a bound: how many probabilities the nucleus holds. -/
def nucleus (topP : Nat) : List Nat → Nat → Nat → Nat
  | [], _, n => n
  | p :: l, c, n => let c := fAdd c p; if fLe topP c then n + 1 else nucleus topP l c (n + 1)
/-- Index of the first prefix sum above `t`, or the last index. -/
def pickAt (t : Nat) : List Nat → Nat → Nat → Nat
  | [], _, n => n - 1
  | p :: l, c, n => let c := fAdd c p; if fLt t c then n else pickAt t l c (n + 1)

/-- Token and probability drawn from the entries of a result block in rank order (R408). -/
def drawToken (set : Bytes) (seed pos : Nat) (ents : List (Nat × Nat)) : Nat × Nat :=
  if field set 0 4 = 0 then ents.headD padEntry
  else
    let topP := if field set 8 4 = 0 then one32 else field set 8 4
    let ps := ents.map (·.2)
    let n := nucleus topP ps 0 0
    let sum := (ps.take n).foldl fAdd 0
    let t := fMul (fMul (u32ToF32 (srvRandom seed pos / 256)) 0x33800000) sum
    ents.getD (pickAt t (ps.take n) 0 0) padEntry

/-- ROW_SAMPLE (R407, R408, R411): a Lens result returns, and the row's token is drawn and counted. -/
def execRowSample (m row : Nat) (s : State) : Host.Outcome State Fault Refusal :=
  let x := s.srvModel m
  match s.srv.draws.find? (fun d => d.model == m && d.row == row), rowEntry x.plan row with
  | some d, some p =>
    if x.phase ≠ 2 || s.isFatal then .next s
    else
      let e := s.srvEntry p.ix
      let s := { s with srv := { s.srv with draws := s.srv.draws.filter fun y => !(y.model == m && y.row == row) } }
      let ents := (List.range (field d.block 0 4)).map fun i => (field d.block (32 + 8 * i) 4, field d.block (36 + 8 * i) 4)
      let (tok, prob) := if ents.isEmpty then (none, 0)
        else
          let y := drawToken (SMap.get (zeros 64) x.sets e.sampler) e.seed e.length ents
          (some y.1, y.2)
      let s := match tok with
        | some t => if e.st = 6 then s else entryCount p.ix t s
        | none => s
      let missed := match tok with
        | some t => e.st != 6 && !((s.counts (entrySlot x.block e)).any fun c => c.1 == t)
        | none => false
      let s := if missed then bump Config.tServing d.inst 13 1 s else s
      let drawn := x.drawn ++ [(row, tok, prob)]
      .next (s.updSrvModel m fun y => { y with drawn, phase := if drawn.length = y.rows.length then 3 else 2 })
  | _, _ => .next s

/-! ### Step Records (R398, R399) -/

/-- What the step's end makes of one plan entry: its record entry, if it has one, and the entry's next state. [DEDUCED, log 67] -/
def endEntry (m : Nat) (p : PlanEnt) (row : Nat) (s : State) : State × Option RecEnt :=
  let x := s.srvModel m
  let e := s.srvEntry p.ix
  let r (token prob status flags : Nat) : RecEnt :=
    { ix := p.ix, queue := e.queue, token, prob, status
      flags := b2n (decide (e.deadline < s.now)) + flags + 8 * b2n e.full, tag := e.tag, deadline := e.deadline }
  let none_ := 0xFFFFFFFF
  if e.st = 6 then (s, none)
  else if x.fail then
    ((srvDropOps p.ix eState s).updSrvEntry p.ix fun e => { e with st := 5 }, some (r none_ 0 6 2))
  else
    let done := e.computed + p.count
    if !p.row then (s.setSrvEntry p.ix { e with computed := done }, some (r none_ 0 1 0))
    else match x.drawn.find? fun d => d.1 == row with
      | some (_, some t, prob) =>
        let set := SMap.get (zeros 64) x.sets e.sampler
        let stop := t ≠ none_ && [20, 24, 28, 32].any fun o => field set o 4 == t
        let len := e.length + 1
        let fin := stop || len ≥ e.maxLen
        let status := if stop then 2 else if len ≥ e.maxLen then 3 else 0
        let s := if fin then srvDropOps p.ix eState s else s
        let s := s.updSrvEntry p.ix fun e => { e with
          computed := done, length := len, last := t, lossy := false, st := if fin then 5 else 3
          toks := if mPrism x.block && mSide x.block = 1 then e.toks ++ [t] else [] }
        (s, some (r t (if s.modelSealed x then 0 else prob) status (2 * b2n fin + 4 * b2n e.lossy)))
      | _ =>
        (srvErr m 3 p.ix ((srvDropOps p.ix eState s).updSrvEntry p.ix fun e => { e with computed := done, st := 5 }), some (r none_ 0 7 2))

/-- All plan entries of a step, in plan order. -/
def endEntries (m : Nat) : List PlanEnt → Nat → State → State × List RecEnt
  | [], _, s => (s, [])
  | p :: l, row, s =>
    let (s, r) := endEntry m p row s
    let (s, rs) := endEntries m l (row + b2n p.row) s
    (s, r.toList ++ rs)

/-- The 16 bytes of a record entry. -/
def RecEnt.bytes (r : RecEnt) : Bytes :=
  leBytes 2 r.ix ++ leBytes 2 r.queue ++ leBytes 4 r.token ++ leBytes 4 r.prob ++ leBytes 1 r.status ++ leBytes 1 r.flags ++ leBytes 2 r.tag

/-- Boundary entries in ascending table index. -/
def insertBent (x : RecEnt) : List RecEnt → List RecEnt
  | [] => [x]
  | y :: l => if x.ix ≤ y.ix then x :: y :: l else y :: insertBent x l

/-- Write a record into consecutive slots of an output ring, then move TAIL past it. -/
def putSlots (j : Nat) (rec : Bytes) (n : Nat) (s : State) : State :=
  let r := s.ring j
  let sz := 2 ^ r.slotLog2
  let s := (List.range n).foldl (fun s i =>
    spaceWrite r.space (r.slotAddr ((r.tail + i) % (2 * r.slots))) (fitTo sz (rec.drop (i * sz))) s) s
  let s := s.setRing j { r with tail := (r.tail + n) % (2 * r.slots), done := (r.done + n) % 2 ^ 32, arm := false }
  if r.arm then sendMsix r.vector s else s

/-- STEP_RECORD_WRITE (R398, R399): with room in the output ring the record is written and the step ends. -/
def execStepRecordWrite (m : Nat) (s : State) : Host.Outcome State Fault Refusal :=
  let x := s.srvModel m
  let b := x.block
  if !s.hasModel m || s.isFatal || !(x.phase = 3 || (x.phase = 0 && !x.bents.isEmpty)) then .next s
  else
    let j := mOutRing b
    let r := s.ring j
    let step := x.phase = 3 && !x.plan.isEmpty
    let (s', es) := if step then endEntries m x.plan 0 s else (s, [])
    let bs := x.bents.foldr insertBent []
    let late (e : RecEnt) : RecEnt := { e with flags := e.flags - e.flags % 2 + b2n (decide (e.deadline < s.now)) }
    let ents := es ++ (bs.take 256).map late
    let size := 64 + 16 * ents.length
    let n := cdiv size (2 ^ r.slotLog2)
    if r.slots - r.filled < n then .next (s.updSrvModel m fun y => { y with stall := if y.stall = 0 then s.now + 1 else y.stall })
    else
      let toks := if step then (x.plan.map (·.count)).sum else 0
      let head := leBytes 2 m ++ leBytes 1 (b2n !step) ++ leBytes 1 n ++ leBytes 4 ents.length ++ leBytes 8 x.step ++ leBytes 8 x.start
        ++ leBytes 8 s.now ++ leBytes 4 toks ++ zeros 28
      let s := putSlots j (head ++ ents.flatMap RecEnt.bytes) n s'
      let s := s.updSrvModel m fun y => { y with phase := 0, plan := [], rows := [], drawn := [], fail := false, bents := bs.drop 256, stall := 0 }
      let dec := ((x.plan.filter fun p => !p.prefill).map (·.count)).sum
      let s := if step then srvCnt x 0 1 (srvCnt x 1 dec (srvCnt x 2 (toks - dec) s)) else s
      let s := srvCnt x 11 (ents.filter fun e => e.flags % 2 == 1).length s
      .next (srvSweepModel m (srvCnt x 12 (if x.stall = 0 then 0 else 2 * (s.now + 1 - x.stall)) s))

/-! ### Token chunks (R287) -/

/-- The token ring of a target ring's channel and job. -/
def State.tokenRing (s : State) (pr : Nat) : Option Nat :=
  let p := s.pring (pr / 16) (pr % 16)
  (List.range 16).find? fun n => let q := s.pring (pr / 16) n; q.bound && q.kind == 2 && q.job == p.job && q.st == 1

/-- TOKEN_CHUNK_SEND (R287): the next tokens of an on-policy request leave against a TOK credit. -/
def execTokenChunkSend (k n : Nat) (s : State) : Host.Outcome State Fault Refusal :=
  let e := s.srvEntry k
  let m := s.srvModel e.model
  let ch := e.pring / 16
  match s.tokenRing e.pring with
  | none => .next s
  | some t =>
    let p := s.pring ch t
    let n := min (min n 256) e.toks.length
    if s.isFatal || e.st = 0 || e.slot = 0 || e.blk ≠ 1 || n = 0 || p.free = 0 || !p.sHere s || !mPrism m.block || mSide m.block ≠ 1 then .next s
    else
      let last := n == e.toks.length && e.st == 5
      let bs := leBytes 8 e.seqId ++ leBytes 4 e.sentTo ++ leBytes 2 n ++ leBytes 1 (b2n (e.sentTo == e.from_) + 2 * b2n last)
        ++ leBytes 1 (e.pring % 16) ++ zeros 16 ++ (e.toks.take n).flatMap fun v => leBytes 4 v
      let s := s.setPring ch t { p with free := p.free - 1 }
      let s := if p.tHere s then
          s.updChan ch fun x => { x with flight := x.flight ++ [{ ring := t, seq := e.seqId, pos := e.sentTo, bytes := fitTo 1088 bs }] }
        else prismSend ch t 1 0 (fitTo 1088 bs) s
      .next (bump Config.tPrism ch 13 1 (s.setSrvEntry k { e with
        toks := e.toks.drop n, sentTo := e.sentTo + n, blk := if last then 2 else 1 }))

/-- TOKEN_CHUNK_LAND (R24, R287): the oldest chunk in flight on a channel, when it is one for this token ring, is written at the ring's tail in T-side memory. -/
def execTokenChunkLand (ring : Nat) (s : State) : Host.Outcome State Fault Refusal :=
  let ch := ring / 16
  let n := ring % 16
  let p := s.pring ch n
  match (s.chan ch).flight.find? fun f => (s.pring ch f.ring).kind == 2 with
  | none => .next s
  | some f =>
    if s.isFatal || f.ring ≠ n || p.kind ≠ 2 || !s.pringLive ch n then .next s
    else .next (landChunk ch n f.bytes (s.updChan ch fun x => { x with flight := x.flight.erase f }))

end Sys2Proof.Machine
end

