-- ==== Sys2Proof/Machine/System.lean ====
section
/-! DEFINITION. Sys2Proof/Machine/System.lean: the system commands of group 0x00 and the snapshot registers of the blocks
(R38–R41, R79, R82, R565). -/

namespace Sys2Proof.Machine
open Sys2Proof

/-- SYS_NOP (R82). -/
def specSysNop : CmdSpec where
  opcode := 0x0000
  access := 0
  p := false
  len := fixed 0
  rsv := noRsv
  resp := respOf 0
  run := fun _ _ s => .ok [] s

def execSysNop (q : Request) (s : State) : Host.Outcome State Fault Refusal := submit specSysNop q s

/-- SYS_ECHO (R72, R82): the payload comes back. -/
def specSysEcho : CmdSpec where
  opcode := 0x0001
  access := 0
  p := false
  len := fun _ => none
  rsv := noRsv
  resp := fun _ p => p.length
  run := fun _ p s => .ok p s

def execSysEcho (q : Request) (s : State) : Host.Outcome State Fault Refusal := submit specSysEcho q s

/-- SYS_INFO (R82). -/
def specSysInfo : CmdSpec where
  opcode := 0x0002
  access := 0
  p := false
  len := fixed 0
  rsv := noRsv
  resp := respOf 24
  run := fun _ _ s =>
    .ok (leBytes 8 (Config.buildId s.sec.sciFw) ++ leBytes 1 s.sys.slot ++ leBytes 1 s.sys.sciMajor ++ leBytes 1 s.sys.sciMinor
      ++ zeros 5 ++ leBytes 8 (s.now - s.sys.fwStart)) s

def execSysInfo (q : Request) (s : State) : Host.Outcome State Fault Refusal := submit specSysInfo q s

/-- SYS_TIME (R82, R439). -/
def specSysTime : CmdSpec where
  opcode := 0x0003
  access := 0
  p := false
  len := fixed 0
  rsv := noRsv
  resp := respOf 9
  run := fun _ _ s => .ok (leBytes 8 s.now ++ leBytes 1 (b2n s.synced)) s

def execSysTime (q : Request) (s : State) : Host.Outcome State Fault Refusal := submit specSysTime q s

/-- SYS_EVENT_RING (R78, R79, R82): bind a ring of kind EVENT of the context, or unbind. Records that are held go out. -/
def specSysEventRing : CmdSpec where
  opcode := 0x0004
  access := 0
  p := false
  len := fixed 2
  rsv := noRsv
  resp := respOf 0
  run := fun i p s =>
    let j := field p 0 2
    if j = 0xFFFF then .ok [] (s.updCtx i.ctx fun x => { x with eventRing := none })
    else if j ≥ Config.rings || (s.ring j).st = 0 then .fail eBadHandle 0
    else if (s.ring j).ctx ≠ i.ctx then .fail ePermission 0
    else if (s.ring j).kind ≠ 2 then .fail eBadArgument 0
    else .ok [] (drainEvents i.ctx Config.heldEvents (s.updCtx i.ctx fun x => { x with eventRing := some j }))

def execSysEventRing (q : Request) (s : State) : Host.Outcome State Fault Refusal := submit specSysEventRing q s

/-- SYS_RESET (R565): accepted at once; WARM_RESET or COLD_RESET begins it 1 ms later. [DEDUCED, log 34] -/
def specSysReset : CmdSpec where
  opcode := 0x0005
  access := 1
  p := true
  len := fixed 1
  rsv := noRsv
  resp := respOf 0
  run := fun _ p s =>
    if field p 0 1 > 1 then .fail eBadArgument 0
    else if s.loupe.trip.isSome then .fail eState 0
    else .ok [] { s with sys := { s.sys with sysReset := some (max ((s.sys.sysReset).getD 0) (field p 0 1)) } }

def execSysReset (q : Request) (s : State) : Host.Outcome State Fault Refusal := submit specSysReset q s

/-! ### Snapshots (R38–R41) -/

/-- Facet TYPEs whose blocks have snapshot registers. -/
def snapType (ty : Nat) : Bool := Config.instances ty != 0

/-- A capture starts: every counter of the block is latched. -/
def snapStart (u : UnitRegs) : UnitRegs := { u with snap := { u.snap with busy := true, latched := u.cnt } }

/-- Blocks that answer: all of them while SCI firmware runs, HOST_PORT and LOUPE whenever a table is published (R64). -/
def State.answers (s : State) (ty : Nat) : Bool :=
  s.running || (s.sys.valid && (ty == Config.tHost || ty == Config.tLoupe))

/-- SNAP_TAKE (R40): a capture starts at once, or is queued behind the one in progress. -/
def execSnapTake (ty inst : Nat) (s : State) : Host.Outcome State Fault Refusal :=
  if !s.answers ty || s.isFatal || !s.enabled ty inst then .next s
  else
    let u := s.unit ty inst
    if u.snap.busy then .next (s.setUnit ty inst { u with snap := { u.snap with pend := true } })
    else .next (s.setUnit ty inst (snapStart u))

/-- SNAP_CAPTURE_COMPLETE (R39, R40): the shadows take the latched values, SEQ counts, and a queued capture starts. -/
def execSnapCaptureComplete (ty inst : Nat) (s : State) : Host.Outcome State Fault Refusal :=
  let u := s.unit ty inst
  if !u.snap.busy || s.isFatal then .next s
  else
    let v := { u with snap := { u.snap with
      busy := false, pend := false, seq := (u.snap.seq + 1) % 256, latched := [], shadow := u.snap.latched } }
    .next (s.setUnit ty inst (if u.snap.pend then snapStart v else v))

end Sys2Proof.Machine
end

