-- ==== Sys2Proof/Machine/Reset.lean ====
section
/-! DEFINITION. Sys2Proof/Machine/Reset.lean: resets of a context, of the function and of the part, up to the stop of firmware, and
resets of one unit instance (R83, R95, R295, R316, R443, R489, R513, R514, R564–R570). -/

namespace Sys2Proof.Machine
open Sys2Proof

/-! ### Tasks that a reset ends (R567 step 2, R569) -/

/-- The segments that a reset catches in flight land or are dropped: what they would have written is undefined (R567, R573).
[DESIGN CHOICE, log 8] -/
def suCut (d : Bytes) (core : Nat) (segs : List Seg) (s : State) : State :=
  (segs.flatMap (segDst d)).foldl (fun s w =>
    let (bs, s) := freshBytes w.2 s
    match suDstSpace d with
    | 0 => hbmWrite w.1 bs s
    | 1 => hostWrite w.1 bs s
    | 2 => sramWrite core w.1 bs s
    | _ => s) s

/-- The descriptor in progress on a ring ends with E_ABORTED and the unit's REASON CONTEXT_RESET. [DEDUCED, log 32] -/
def taskAbort (j : Nat) (s : State) : State :=
  let r := s.ring j
  match r.cur with
  | none => s
  | some c =>
    let ty := r.unitType
    let k := reasonReset ty
    if c.phase ≠ 0 then s
    else if ty = Config.tStream && dOp c.desc = 0x40 then fillAbort j c s
    else if ty = Config.tStream then
      suSettle j (suCut c.desc (suCore r.unitInst c.desc) c.out
        ((suFault j k eAborted 0 s).updRing j fun r => { r with cur := r.cur.map fun c => { c with out := [] } }))
    else if ty = Config.tLens then lensEnd j eAborted k s
    else if ty = Config.tPrism then prismEnd j eAborted k (if dOp c.desc = 0x11 then c.rows else 0) 0 c.lb s
    else if ty = Config.tEngine then
      finish j eAborted c.lb (collDetail k (collKind c.desc) 0xFFFF c.rows (s.now - c.start)) (bump Config.tEngine r.unitInst 1 1 s)
    else if ty = Config.tNet then npEnd j eAborted k s
    else if ty = Config.tStudent && ((s.core (32 + r.unitInst)).kd.any fun v => v.ring == j) then kdEnd (32 + r.unitInst) eAborted k none none 0 s
    else match (unitCore ty r.unitInst).filter fun n => ty ≠ Config.tScaler && ((s.core n).vec.any fun v => v.ring == j) with
    | some n => vecEnd n eAborted k none none 0 s
    | none =>
    if ty = Config.tUpdate then
      (finish j eAborted c.lb (updDetail k (dOp c.desc % 16) 0 0 0) s).updUpd r.unitInst fun u => { u with commit := none }
    else finish j eAborted c.lb (reasonDetail ty c.desc k) s

/-- What a core holds for a ring is discarded (R154, R206): its vector program, loss task and drain. -/
def coreDrop (j : Nat) (s : State) : State :=
  let r := s.ring j
  match (if r.unitType = Config.tTeacher then some r.unitInst else if r.unitType = Config.tStudent then some (32 + r.unitInst) else none) with
  | none => s
  | some k => (mayLand k ((s.core k).drain.elim [] fun d => if d.ring = j then d.writes else []) s).updCore k fun x => { x with
      vec := x.vec.filter fun v => v.ring != j
      kd := x.kd.filter fun v => v.ring != j
      drain := x.drain.filter fun v => v.ring != j }

/-- Everything of a ring in its unit ends. With `write`, the record of the task follows; a task between two descriptors is cut, and a
FENCE that waits ends. -/
def ringEnd (j : Nat) (write : Bool) (s : State) : State :=
  let r := s.ring j
  let s := taskAbort j (handleWait j s)
  let s := if !write then (match r.cur with | some c => release r.unitType r.unitInst c.desc (dropHeld j s) | none => dropHeld j s)
    else match r.cur, r.fetched with
      | some _, _ => completeCur j (s.updRing j fun r => { r with fetched := [] })
      | none, (ix, some d) :: _ =>
        if r.fence ≠ 0 then recordDesc j ix d eAborted 0 (reasonDetail r.unitType d (reasonReset r.unitType)) true (consume j s)
        else if r.inTask then recordDesc j ix d eAborted 0 (reasonDetail r.unitType d (reasonReset r.unitType)) true (consume j (dropHeld j s))
        else s
      | none, _ => if r.inTask then putRecord j (complRecord j 0 r.head eAborted 0 0 s.now (leBytes 1 (reasonReset r.unitType) ++ zeros 23) 0) 0xFFFF (dropHeld j s) else s
  (coreDrop j s).updRing j fun r => { r with cur := none, fetched := [], fence := 0 }.goOn false false

/-- The tasks of a context that wait in a Lens end with it (R259): their records, in ring order. -/
def lensQueued (j : Nat) (s : State) : State :=
  let r := s.ring j
  if r.unitType ≠ Config.tLens then ringEnd j true s
  else
    let q := if r.cur.isNone && (r.inTask || r.fence != 0) then r.fetched.drop 1 else r.fetched
    q.foldl (fun s x => match x.2 with
      | some d => if dOp d < 0x10 then s else recordDesc j x.1 d eAborted 0 (reasonDetail r.unitType d (reasonReset r.unitType)) false s
      | none => s) (ringEnd j true s)

/-! ### Steps 1 and 2 of R567 -/

/-- A pending command of a context has not reached its point of effect, and ends with E_ABORTED (R83). CFG_COMMIT is decided by R93 and
R568; verification and deletion of an image run on (R173); resets end with their sequence. -/
def opAborts (o : PendingOp) : Bool := !([0x0102, 0x0201, 0x0206, 0x0502, 0x0504].contains o.opcode)

/-- A pending command ends with E_ABORTED; MEM_COPY reports its lower bound, and what it names as its destination is undefined (R573).
[DEDUCED, log 32] -/
def opAbort (o : PendingOp) (s : State) : State :=
  if o.opcode = 0x0304 then
    let (bs, s) := freshBytes (field o.payload 16 8) s
    finishOp o.ctx o.handle eAborted 0 (leBytes 8 0) (spaceWrite (field o.payload 24 1 / 2) (field o.payload 8 8) bs s)
  else finishOp o.ctx o.handle eAborted 0 [] s

/-- The commands of the contexts, and key rolls of their keys (R516), that have not taken effect. -/
def opsAbort (cs : List Nat) (s : State) : State :=
  let s := s.images.foldl (fun s g => g.2.writes.foldl (fun s w => if cs.contains w.ctx then writeEnd g.1 w eAborted (w.pos - w.from_) s else s) s) s
  (s.ops.filter fun o => opAborts o && (cs.contains o.ctx || (o.opcode == 0x0B02 && cs.contains (field o.payload 1 1)))).foldl
    (fun s o => opAbort o s) s

/-- Commands of groups 0x00–0x04 whose point of effect is their acceptance (R83); CTX_DESTROY and CTX_RESET are the other two. -/
def atAcceptance : List CmdSpec :=
  [specSysNop, specSysEcho, specSysInfo, specSysTime, specSysEventRing, specSysReset, specCfgBegin, specCfgSet, specCfgRollback, specCfgQuery]
  ++ [specCtxCreate, specCtxSetQuota, specCtxQuery, specCtxAssignMailbox, specCtxReleaseMailbox, specCtxAgentStart, specCtxAgentStop
    , specCtxAgentUnload]
  ++ [specMemAlloc, specMemFree, specMemMapHost, specMemUnmapHost, specMemQuery, specRingCreate, specRingDestroy, specRingQuery]

/-- A request that waits under ORDERED meets a reset of its context (R83): past its point of effect it completes normally, its earlier
commands having ended; a reset of a context that it asks for is part of this one; any other ends with E_ABORTED. [DEDUCED, log 32] -/
def waitedEnd (cs : List Nat) (s : State) : State :=
  (s.mbs.map (·.1)).foldl (fun s m =>
    match (s.mb m).waiting, s.mbOwner m with
    | some (op, q, _), some c =>
      if cs.contains c then
        let s := s.setMb m { s.mb m with waiting := none }
        mctpReply m (match atAcceptance.find? fun k => k.opcode == op with
          | some k => runWaited (some k) op q s
          | none => answer m op c q none (if op = 0x0201 || op = 0x0206 then 0 else eAborted) 0 [] s)
      else s
    | _, _ => s) s

/-- A job of a context that is reset: an open update window makes it inconsistent (R316), its Prism rings are reset (R295), and it is
aborted. [DEDUCED, log 33] -/
def jobReset (h : Nat) (notice : Bool) (s : State) : State :=
  match s.job h with
  | none => s
  | some j =>
    let s :=
      if j.student && s.windowOpen then
        (List.range 2).foldl (fun s u =>
          if (s.upd u).window then inconsistent u j.ctx 0xFFFF 0 (setErr Config.tUpdate u 5 0 0 3 s) else s) s
      else s
    let live := (s.jobRings h).any fun k => (s.pring (k / 16) (k % 16)).st != 2
    let s := (s.jobRings h).foldl (fun s k => pringReset (k / 16) (k % 16) 3 s) s
    jobAbort h (if live && notice then pringNotice j.ctx s else s)

/-- Steps 1 and 2 of R567 for some contexts; `write` for a CONTEXT reset, whose tasks leave completion records. [DEDUCED, log 32] -/
def resetStop (cs : List Nat) (write : Bool) (s : State) : State :=
  let s := waitedEnd cs (opsAbort cs s)
  let s := cs.foldl (fun s c => s.updCtx c fun x => { x with st := 2 }) s
  let s := cs.foldl (fun s c => match s.txn c with | some t => if t.st = 1 then dropTxn c s else s | none => s) s
  let js := (s.rings.filter fun r => r.2.kind == 0 && r.2.st != 0 && cs.contains r.2.ctx).map (·.1)
  let s := js.foldl (fun s j => if write then lensQueued j s else ringEnd j false s) s
  let hs := (s.jobs.filter fun j => cs.contains j.2.ctx).map (·.1)
  let s := hs.foldl (fun s h => jobReset h write s) s
  cs.foldl (fun s c => srvDrop c s) s

/-! ### Step 4 of R567 -/

/-- A core is cleared at once, and a RING_DESTROY that waits for it completes. -/
def coreClear (k : Nat) (s : State) : State :=
  let x := s.core k
  let s := (sramClear k s).setCore k { x with
    clearing := false, waiter := none, chain := none, drain := none, vec := none, kd := none, taken := 0 }
  match x.waiter with
  | some m => completeHeld m 0 0 [] s
  | none => s

/-- The cores of some contexts, those that clear for them among these. [DEDUCED, logs 32, 88] -/
def clearCores (cs : List Nat) (s : State) : State :=
  (List.range 48).foldl (fun s k =>
    let mine := match s.coreOwner k with | some c => cs.contains c | none => false
    let waits := match (s.core k).waiter with | some m => (match s.mbOwner m with | some c => cs.contains c | none => false) | none => false
    if mine || waits then coreClear k s else s) s

/-- Each group of the contexts sends LEAVE to its other members and is gone (R567); the manual gives the message no bytes. [DEDUCED, log 32] -/
def leaveGroups (cs : List Nat) (s : State) : State :=
  let mine := s.groups.filter fun g => cs.contains g.2.ctx
  let msgs := mine.flatMap fun g => (g.2.members.filter fun m => m != s.sysIndex).map fun m => (m, leBytes 8 g.2.key)
  msgs.foldl (fun s m => sendMsg m.1 0 0 false (msgBytes 1 m.2) s) { s with groups := s.groups.filter fun g => !cs.contains g.2.ctx }

/-- What Mirror holds for the jobs of the contexts. -/
def leaveMirror (hs gs : List Nat) (s : State) : State :=
  let m := s.mirror
  let m := { m with
    desig := m.desig.filter fun d => !gs.contains d.group
    replay := m.replay.filter fun r => !hs.contains r.job
    tmpl := m.tmpl.filter fun t => !hs.contains t.1
    snapWait := m.snapWait.filter fun w => !hs.contains w.1 }
  match m.prot with
  | some p =>
    if hs.contains p.job then
      { s with mirror := { m with
        prot := none, kept := [], cur := Delta.init, asked := false, acked := false, badSlot := false, adopted := none, resolving := none, waitAt := none } }
    else { s with mirror := m }
  | none => { s with mirror := m }

/-- A context after the release: CTX_RESET keeps its quota, mailboxes, secret and epoch and draws a new HBM key; otherwise the context
is FREE but for the count of its transactions, or, for context 0, as firmware makes it anew. [DEDUCED, log 32] -/
def ctxAfter (keep : Bool) (c : Nat) (s : State) : State :=
  let x := s.ctx c
  if keep then
    { s with keys := s.keys + 1 }.setCtx c { x with
      st := 1, eventRing := none, held := [], lost := 0, windows := [], hbmKey := s.keys + 1, oldKey := 0 }
  else if c = 0 then s.setCtx 0 { Context.init with txnCount := x.txnCount, hbmKey := x.hbmKey }
  else s.setCtx c { Context.init with txnCount := x.txnCount }

/-- Step 4 of R567: cores cleared, keys replaced, pages, rings, bindings, agents and groups released. [DEDUCED, log 32] -/
def release4 (keep : Bool) (cs : List Nat) (s : State) : State :=
  let s := clearCores cs s
  let hs := (s.jobs.filter fun j => cs.contains j.2.ctx).map (·.1)
  let gs := (s.groups.filter fun g => cs.contains g.2.ctx).map (·.1)
  let student := s.jobs.any fun j => cs.contains j.2.ctx && j.2.student
  let s := (s.binds.filter fun b => cs.contains b.2.ctx).foldl (fun s b => unbind b.1 s) s
  let s := leaveMirror hs gs (leaveGroups cs s)
  let s := (List.range 4).foldl (fun s n => if (s.agent n).st ≠ 0 && cs.contains (s.agent n).ctx then agentUnload n s else s) s
  let s := (s.mem.allocs.filter fun a => cs.contains a.ctx).foldl (fun s a => freePages a s) s
  let s := { s with
    rings := s.rings.filter fun r => !cs.contains r.2.ctx
    prings := s.prings.filter fun p => !hs.contains p.2.job
    lens := s.lens.filter fun l => !cs.contains (s.ring l.1).ctx
    jobs := s.jobs.filter fun j => !hs.contains j.1
    upds := if student then [] else s.upds
    step := if student then StepState.init else s.step
    host := { s.host with cache := [] }
    log := { s.log with slots := s.log.slots.filter fun x => x.ctx == 0 || !cs.contains x.ctx, notif := s.log.notif.filter fun n => !cs.contains n.1 } }
  let s := if keep then s else { s with
    mbs := s.mbs.filterMap fun m =>
      if m.1 < 2 || !m.2.assigned || !cs.contains m.2.ctx then some m else none
    ops := s.ops.filter fun o => !cs.contains o.ctx
    images := s.images.map fun g => (g.1, { g.2 with
      owner := if g.2.owner ≠ 0 && cs.contains (g.2.owner - 1) then 0 else g.2.owner
      op := g.2.op.filter fun o => !cs.contains o.1 }) }
  cs.foldl (fun s c => ctxAfter keep c s) s

/-! ### CTX_RESET and CTX_DESTROY (R82, R95, R567) -/

/-- The reset of one context begins, unless a larger one, or its own, is in progress; it waits for a commit that the context has had
accepted. [DEDUCED, log 32] -/
def ctxBegin (c : Nat) (destroy : Bool) (op : Nat × Nat) (s : State) : State :=
  let waits := match s.txn c with | some t => t.st == 2 | none => false
  let run : ResetRun := { kind := 1, ctxs := [c], destroy, ops := [op], begun := !waits }
  let s := { s with sys := { s.sys with resets := s.sys.resets ++ [run] } }
  if waits then s.updCtx c fun x => { x with st := 2 } else resetStop [c] true s

/-- CTX_DESTROY: pending from its acceptance until the sequence ends. -/
def specCtxDestroy : CmdSpec where
  opcode := 0x0201
  access := 1
  p := true
  len := fixed 1
  rsv := noRsv
  resp := respOf 0
  run := fun i p s =>
    let c := field p 0 1
    if c = 0 || c > 63 then .fail eBadArgument 0
    else if (s.ctx c).st ≠ 1 then .fail eState (s.ctx c).st
    else .pend (ctxBegin c true (i.ctx, i.handle) s)

def execCtxDestroy (q : Request) (s : State) : Host.Outcome State Fault Refusal := submit specCtxDestroy q s

/-- CTX_RESET: a tenant may name only itself. -/
def specCtxReset : CmdSpec where
  opcode := 0x0206
  access := 0
  p := true
  len := fixed 1
  rsv := noRsv
  resp := respOf 0
  run := fun i p s =>
    let c := field p 0 1
    if i.ctx ≠ 0 && c ≠ i.ctx then .fail ePermission 0
    else if c = 0 || c > 63 then .fail eBadArgument 0
    else if (s.ctx c).st ≠ 1 then .fail eState (s.ctx c).st
    else .pend (ctxBegin c false (i.ctx, i.handle) s)

def execCtxReset (q : Request) (s : State) : Host.Outcome State Fault Refusal := submit specCtxReset q s

/-! ### FUNCTION and WARM resets: their first steps (R564, R567, R568) -/

/-- The commit in progress is decided: applied if every affected instance holds, otherwise without change. [DEDUCED, log 31] -/
def cfgDecide (s : State) : State :=
  match s.cfgFront with
  | none => s
  | some t =>
    let (status, detail) := match t.firstReject, s.firstBusy t with
      | some u, _ => (eRejected, unitDetail u)
      | none, some u => (eNotQuiescent, unitDetail u)
      | none, none => (0, 0)
    let (n, s) := cfgClose status s
    let r := if status = 0 then cfgAnswer s.now n else []
    match t.op with
    | some h => finishOp t.ctx h status detail r s
    | none => if t.mailbox = 0xFFFF then planEnd status s else completeHeld t.mailbox status detail r s

/-- Commits that are queued behind it: those of the contexts end with E_ABORTED and leave no trace in CFG_LAST. -/
def cfgPurge (cs : List Nat) (s : State) : State :=
  let gone := s.cfg.txns.filter fun t => cs.contains t.ctx
  let s := gone.foldl (fun s t =>
    if t.st ≠ 2 then s
    else match t.op with
      | some h => finishOp t.ctx h eAborted 0 [] s
      | none => if t.mailbox = 0xFFFF then s else completeHeld t.mailbox eAborted 0 [] s) s
  { s with cfg := { s.cfg with txns := s.cfg.txns.filter (fun t => !cs.contains t.ctx), queue := s.cfg.queue.filter fun c => !cs.contains c } }

/-- Existing tenant contexts. -/
def State.tenants (s : State) : List Nat := (List.range 64).filter fun c => c != 0 && (s.ctx c).st != 0

/-- A larger reset begins: it takes over the smaller ones in progress, and its contexts stop. [DEDUCED, log 33] -/
def bigReset (kind : Nat) (cs : List Nat) (s : State) : State :=
  let ops := s.sys.resets.flatMap (·.ops)
  let s := { s with sys := { s.sys with resets := [{ kind, ctxs := cs, destroy := true, ops, begun := true }] } }
  resetStop cs false (cfgPurge cs (cfgDecide s))

/-- PCIE_FLR (R489): absorbed by a FUNCTION or WARM reset in progress and by a boot. The HDM decoder's range stands; the
configuration space of the function is reset. [DEDUCED, log 33] -/
def execPcieFlr (s : State) : Host.Outcome State Fault Refusal :=
  if !s.diesOn || s.sys.booting || s.sys.resets.any (fun r => decide (r.kind ≥ 2)) then .next s
  else
    let s := { s with host := { s.host with flr := true }, sys := { s.sys with msixOn := false, unmasked := [], pba := [] } }
    .next (bigReset 2 s.tenants s)

/-- A WARM reset begins, unless one or a boot is in progress. -/
def warmBegin (s : State) : State :=
  if !s.diesOn || s.sys.booting || s.sys.resets.any (fun r => r.kind == 3) then s
  else bigReset 3 (0 :: s.tenants) { s with sys := { s.sys with sysReset := none } }

/-- WARM_RESET (R550, R565): an accepted SYS_RESET WARM, POD_RESET DEVICES or firmware activation begins. A commit in progress delays a
firmware activation. -/
def execWarmReset (s : State) : Host.Outcome State Fault Refusal :=
  if s.sys.sysReset ≠ some 0 || (s.loupe.swap ≠ 0 && s.cfgFront.isSome) then .next s
  else .next (warmBegin (atLeast (s.now + Config.ms) s))

/-- Under PCIe the link goes down and the configuration space is reset. [DEDUCED, log 33] -/
def linkReset (s : State) : State :=
  { s with
    host := { s.host with up := false, cxl := false, width := 0, rate := 0, flr := false, hdm := 0, cache := [], snoop := [], bisnp := [] }
    sys := { s.sys with msixOn := false, unmasked := [], pba := [] } }

/-- PCIE_HOT_RESET (R564). -/
def execPcieHotReset (s : State) : Host.Outcome State Fault Refusal :=
  if !s.diesOn then .next s else .next (linkReset (warmBegin s))

/-- PERST_N_ASSERT (R581): without effect while VIN is out of range. [DESIGN CHOICE, log 72] -/
def execPerstNAssert (s : State) : Host.Outcome State Fault Refusal :=
  let s1 := { s with sys := { s.sys with perst := false } }
  if !s.sys.vin || !s.diesOn then .next s1 else .next (linkReset (warmBegin s1))

/-- PERST_N_DEASSERT (R571, R581): the link may train, and a WARM reset goes on. -/
def execPerstNDeassert (s : State) : Host.Outcome State Fault Refusal := .next { s with sys := { s.sys with perst := true } }

/-! ### RESET_WRITES_SETTLED: steps 3 to 5 (R567), and the stop of firmware (R571) -/

/-- The commands that awaited a reset complete. -/
def resetOps (ops : List (Nat × Nat)) (s : State) : State := ops.foldl (fun s o => finishOp o.1 o.2 0 0 [] s) s

/-- Acknowledged SLC writes that are pending are programmed (R571). [DEDUCED, log 34] -/
def programPending (s : State) : State :=
  (List.range 8).foldl (fun s c => storeCnt c 3 (s.ctl c).pendBytes (s.updCtl c fun x => { x with pend := [] })) s

/-- The firmware slot that a WARM reset for ACTIVATE (1) or REVERT (2) goes to (R550). [DEDUCED, log 34] -/
def swapSlot (s : State) : State :=
  let a := s.sys.slot
  let b := 1 - a
  let l := s.loupe
  if l.swap = 0 then s
  else
    let l := (l.setSlot a { l.slotOf a with cond := if l.swap = 1 then 2 else 1 }).setSlot b { l.slotOf b with cond := 3 }
    let l := { l with trial := if l.swap = 1 then some s.now else none, swap := 0 }
    let x := l.slotOf b
    logPush 0x41 255 [] { s with loupe := l, sys := { s.sys with slot := b, svn := x.svn }, sec := { s.sec with loupeFw := x.loupe, sciFw := x.sci } }

/-- Settings and snapshots of a unit at a WARM reset (R41, R566). [DEDUCED, log 33] -/
def UnitRegs.warm (u : UnitRegs) : UnitRegs := { u with sets := [], hold := false, snap := UnitRegs.init.snap }

/-- SCI firmware stops (R64, R65, R571): its fields read 0, the STAGE 1 table is published, the pending SLC writes are programmed and the
beam ports go to TRAINING. -/
def firmwareStop (s : State) : State :=
  let s := programPending s
  let resv := s.mirror.resv
  let s := resv.foldl (fun s r => match s.mem.allocs.find? fun a => a.base == r.base with | some a => freePages a s | none => s) s
  let oos := s.units.filterMap fun u => if u.2.oos then some u.1 else none
  let s := { s with
    units := SMap.mapVals UnitRegs.init UnitRegs.warm s.units
    mirror := { s.mirror with resv := [], desig := none, beats := [] }
    nports := s.nports.map fun p => (p.1, { p.2 with lostPods := [] })
    cfg := { s.cfg with txns := [], queue := [] }
    loupe := { s.loupe with planRetry := 0, staging := none, burning := none }
    sys := { s.sys with sciMajor := 0, sciMinor := 0, stage := 1, gen := (s.sys.gen + 1) % 2 ^ 32, fatal := 0, booting := true, warm := true, pubOos := oos } }
  let s := (List.range 40).foldl (fun s p => if (s.port p).st = 3 || (s.port p).st = 4 then portTo p 2 (portHold p s) else s) s
  swapSlot s

/-- RESET_WRITES_SETTLED: everything that the contexts of a reset had sent has landed or been dropped. A CONTEXT reset that still waits
for its commit cannot settle, and neither can a WARM reset during a dip. [DEDUCED, log 32] -/
def execResetWritesSettled (s : State) : Host.Outcome State Fault Refusal :=
  let ready (r : ResetRun) : Bool :=
    if r.kind = 1 then r.begun || r.ctxs.all fun c => (s.txn c).isNone else !(r.kind == 3 && s.loupe.dip.isSome)
  match s.sys.resets.find? ready with
  | none => .next s
  | some r =>
    let s := { s with sys := { s.sys with resets := s.sys.resets.erase r } }
    let s := if r.begun then s else resetStop r.ctxs true s
    let s := release4 (r.kind == 1 && !r.destroy) r.ctxs s
    if r.kind = 1 then .next (resetOps r.ops s)
    else if r.kind = 2 then
      let s := { s with host := { s.host with flr := false }, units := SMap.mapVals UnitRegs.init (fun u => { u with snap := UnitRegs.init.snap }) s.units }
      .next (planKick (cfgStart (resetOps r.ops s)))
    else .next (firmwareStop s)

/-! ### ENGINE_RESET (R316, R569, R570) -/

/-- Rings of an instance: every task ends and the ring is STOPPED. -/
def engineRing (j : Nat) (s : State) : State :=
  let ix := (s.ring j).head
  (ringEnd j true s).updRing j fun r => { r with st := if r.st = 3 || r.st = 4 then r.st else 2, stopCode := eAborted, stopIndex := ix }

/-- The reset of one instance, without its record. [DEDUCED, log 33] -/
def engineStop (ty inst : Nat) (s : State) : State :=
  let s := ((s.unitRings ty inst).map (·.1)).foldl (fun s j => engineRing j s) s
  let s := s.updUnit ty inst fun u => { u with snap := UnitRegs.init.snap }
  if ty = Config.tPrism then
    let ns := (List.range 16).filter fun n => (s.pring inst n).bound && (s.pring inst n).st != 2
    ns.foldl (fun s n => pringNotice (s.pring inst n).ctx (pringReset inst n 2 s)) s
  else if ty = Config.tUpdate && (s.upd inst).window then
    match s.studentJob with
    | some (h, j) => jobAbort h (inconsistent inst j.ctx 0xFFFF 0 (setErr ty inst 5 0 0 3 s))
    | none => s
  else s

/-- Units that a reset of an instance takes with it: a core its Scaler and its Stream Unit. -/
def engineUnits (ty inst : Nat) : List (Nat × Nat) :=
  if ty = Config.tTeacher then [(ty, inst), (Config.tScaler, inst), (Config.tStream, inst)]
  else if ty = Config.tStudent then [(ty, inst), (Config.tScaler, 32 + inst), (Config.tStream, 32 + inst)]
  else [(ty, inst)]

/-- ENGINE_RESET: the third within 24 hours takes the instance out of service. [DEDUCED, log 33] -/
def execEngineReset (ty inst : Nat) (s : State) : Host.Outcome State Fault Refusal :=
  if !s.running || s.isFatal || Config.instances ty = 0 || !s.enabled ty inst then .next s
  else
    let us := engineUnits ty inst
    let cs := ((us.flatMap fun u => s.namedBy u.1 u.2).map fun r => r.2.ctx).eraseDups
    let s := us.foldl (fun s u => engineStop u.1 u.2 s) s
    let day := (s.unit ty inst).resets.filter fun t => decide (s.now < t + 86400 * Config.sec)
    let out := decide (day.length ≥ 2)
    let s := s.updUnit ty inst fun u => { u with resets := day ++ [s.now] }
    let s := if out then us.foldl (fun s u => s.updUnit u.1 u.2 fun x => { x with oos := true }) s else s
    let e : Err := { code := 9, status := eInternal, flags := if out then 4 else 0, ty, inst, ctx := 255, ring := 0xFFFF, index := 0, addr := 0, space := 0 }
    .next (raiseUnit e cs s)

end Sys2Proof.Machine
end

