-- ==== Sys2Proof/Machine/Boot.lean ====
section
/-! DEFINITION. Sys2Proof/Machine/Boot.lean: the COLD boot, the start of SCI firmware, links between dies, and the FATAL state (R21, R26,
R64, R65, R378, R382, R507, R509, R525, R538, R550, R564–R566, R571, R578, R582, R584). -/

namespace Sys2Proof.Machine
open Sys2Proof

/-! ### COLD_RESET -/

/-- A firmware slot that the ROM runs: its signatures verify and its SVN is not below the anti-rollback counter (R509). -/
def State.bootable (s : State) (k : Nat) : Bool :=
  let x := s.loupe.slotOf k
  x.cond != 0 && decide (s.sys.rollback ≤ x.svn)

/-- Slot `k` becomes the running one. -/
def runSlot (k : Nat) (s : State) : State :=
  let x := s.loupe.slotOf k
  { s with
    loupe := s.loupe.setSlot k { x with cond := 3 }
    sys := { s.sys with slot := k, svn := x.svn }
    sec := { s.sec with loupeFw := x.loupe, sciFw := x.sci } }

/-- The ROM leaves the slot it tried, which keeps condition `cond`, for the other one; with no slot that passes nothing boots. -/
def otherSlot (cond : Nat) (s : State) : State :=
  let a := s.sys.slot
  let s := updLoupe (fun l => { l.setSlot a { l.slotOf a with cond } with trial := none }) s
  let s := loupeErr 6 0x42 (logPush 0x42 255 [] s)
  if s.bootable (1 - a) then runSlot (1 - a) s else { s with sys := { s.sys with booting := false } }

/-- The ROM's choice at a cold reset: the FALLBACK slot while the running one is on trial, the active slot, or the other (R509, R550).
[DEDUCED, log 34] -/
def bootSlot (s : State) : State :=
  let a := s.sys.slot
  if s.loupe.trial.isSome && s.bootable (1 - a) then
    let s := updLoupe (fun l => { l.setSlot a { l.slotOf a with cond := 1 } with trial := none }) s
    runSlot (1 - a) (logPush 0x42 255 [] s)
  else if s.bootable a then runSlot a s
  else otherSlot 0 s

/-- The debug state of a cold reset (R525): a staged token is consumed, and the Store key of every sealed image is destroyed. -/
def bootDebug (s : State) : State :=
  if s.sec.token then
    { s with
      sec := { s.sec with token := false }
      sys := { s.sys with debug := 2 }
      images := s.images.map fun i => (i.1, if i.2.sealed then { i.2 with st := 5, key := 0 } else i.2) }
  else { s with sys := { s.sys with debug := 0 } }

/-- A Store controller starts: limit of R382 from the energy of the bank in mJ, and the stages of R378. [DEDUCED, log 43] -/
def bootCtl (bank : Nat) (s : State) (c : Nat) : State :=
  let limit := if bank ≥ 3000 then 32 else if bank < 1000 then 0 else 32 * bank / 3000
  let s := s.updCtl c fun x => { x with st := if x.failed.length ≥ 2 then 5 else 1, holdup := decide (bank ≥ 3000), limit, evalAt := s.now }
  if bank < 3000 then storeErr c 6 s else s

/-- The regulators are on and nothing has booted: what Loupe and the ROM do until SCI firmware starts. [DEDUCED, log 34, 43] -/
def coldBoot (bank : Nat) (temps : List (Nat × Int)) (s : State) : State :=
  let trip := s.loupe.tripped
  let s := { s with
    keys := s.keys + 1
    sys := { s.sys with valid := true, stage := 1, gen := 1, booting := true, warm := false, podDev := s.sys.strapPod }
    sec := { s.sec with boot := s.sec.boot + 1 }
    loupe := { s.loupe with
      freq := computeDies.map fun d => (d, 800)
      temps := (List.range 8).map fun d => (d, (SMap.get 0 temps d, 0))
      reservoir := 600000000, capS := 700, capB := 950, capNext := none, target := 950000, energy := 0, bank, lastStep := s.now, ilAt := s.now, winAt := s.now
      thermtrip := false } }
  let s := s.updCtx 0 fun x => { x with hbmKey := s.keys }
  let s := bootDebug (bootSlot s)
  let s := if trip then setErr Config.tLoupe 0 7 0x23 (s.log.next - 1) 0 s else s
  (List.range 8).foldl (fun s c => bootCtl bank s c) s

/-- COLD_RESET: VIN comes into range; or, with the part powered, an accepted SYS_RESET COLD begins. The straps stand at `pod` and
`mgmt`, the bank holds `bank` mJ, and `temps` are the first readings of the junctions. [DESIGN CHOICE, log 2, 7; DEDUCED, log 34] -/
def execColdReset (pod mgmt bank : Nat) (temps : List (Nat × Int)) (s : State) : Host.Outcome State Fault Refusal :=
  if !s.sys.vaux || s.loupe.trip.isSome then .next { s with sys := { s.sys with vin := true } }
  else if s.sys.valid && s.sys.sysReset ≠ some 1 then .next s
  else
    let s := if s.diesOn then powerOff (programPending (atLeast (s.now + 11 * Config.ms) s)) else s
    let s := { s with sys := { s.sys with vin := true, sysReset := none, strapPod := pod % 64, strapMgmt := mgmt % 4 } }
    if s.loupe.tripped && temps.any (fun t => decide (t.1 < 8 ∧ t.2 ≥ 720)) then
      .next (logPush 0x23 255 [] (updLoupe (fun l => { l with trip := some s.now, thermtrip := true }) s))
    else .next (coldBoot bank temps s)

/-- FW_TRIAL_TIMEOUT (R550): the new SCI firmware has not reported ready. -/
def execFwTrialTimeout (s : State) : Host.Outcome State Fault Refusal :=
  match s.loupe.trial with
  | none => .next s
  | some t => if !s.sys.booting || !s.diesOn then .next s else .next (otherSlot 0 (atLeast (t + 30 * Config.sec) s))

/-! ### FIRMWARE_START_PUBLISH -/

/-- Settings that re-plans committed are in effect before STAGE 2 (R544, R566). [DEDUCED, log 43] -/
def reapply (s : State) : State :=
  s.loupe.planned.foldl (fun s i => s.updUnit i.1 i.2.1 fun u => { u with sets := SMap.set none u.sets i.2.2.1 (some i.2.2.2) }) s

/-- ACTIVE sealed images that the running SVN is too low for become READY (R522). -/
def sealCheck (s : State) : State :=
  { s with images := s.images.map fun i =>
      (i.1, if i.2.st = 3 && i.2.sealed && decide (field (s.sealBlock i.2) 16 4 > s.sys.svn) then { i.2 with st := 2 } else i.2) }

/-- The records of what took the logic dies down (R576). [DEDUCED, log 35] -/
def lostRecords (s : State) : State :=
  let e (code : Nat) : Err :=
    { code, status := eInternal, flags := 0, ty := 0, inst := 0, ctx := 255, ring := 0xFFFF, index := 0, addr := 0, space := 0 }
  let s1 := if s.loupe.lost then raise (e 0x12) s else s
  let s2 := if s.loupe.tripped then raise (e 0x13) s1 else s1
  updLoupe (fun l => { l with lost := false, tripped := false }) s2

/-- FIRMWARE_START_PUBLISH (R46, R64, R65): SCI firmware reports ready: the STAGE 2 table, then IDENT's SCI fields. After a WARM reset it
waits for PERST_N. [DESIGN CHOICE, log 2; DEDUCED, log 35] -/
def execFirmwareStartPublish (s : State) : Host.Outcome State Fault Refusal :=
  if !s.sys.booting || !s.diesOn || s.sys.stage ≠ 1 || !s.sys.resets.isEmpty || (s.sys.warm && !s.sys.perst) then .next s
  else
    let s := reapply s
    let oos := s.units.filterMap fun u => if u.2.oos then some u.1 else none
    let s := { s with sys := { s.sys with
      stage := 2, gen := (s.sys.gen + 1) % 2 ^ 32, sciMajor := 1, sciMinor := Config.sciMinorOf s.sec.sciFw % 256, fwStart := s.now, booting := false
      warm := false, pubOos := oos } }
    let s := (List.range 40).foldl (fun s p =>
      if (s.port p).st = 0 && s.valueOf Config.tPort p 1 = 1 && s.enabled Config.tPort p then portTo p 1 s else s) s
    .next (planKick (lostRecords (sealCheck s)))

/-! ### Links between dies (R21, R26) -/

/-- The two DIE instances of each LINK, in the order of R21: 14 spine links, then 8 Prism links. -/
def linkEnds : List (Nat × Nat) :=
  [(6, 0), (6, 1), (6, 2), (6, 3), (7, 0), (7, 1), (7, 2), (7, 3), (6, 4), (6, 5), (7, 4), (7, 5), (6, 7), (4, 5)]
  ++ [(0, 4), (0, 5), (1, 4), (1, 5), (2, 4), (2, 5), (3, 4), (3, 5)]

/-- Links of a die. -/
def linksOf (die : Nat) : List Nat :=
  (List.range 22).filter fun l => match linkEnds[l]? with | some e => e.1 == die || e.2 == die | none => false

/-- The link between two dies. -/
def linkBetween (a b : Nat) : Option Nat :=
  (List.range 22).find? fun l => match linkEnds[l]? with | some e => e == (a, b) || e == (b, a) | none => false

/-- The hub that a destination chooses (R22): H0 for T0, T1 and S0, H1 for T2, T3 and S1. -/
def hubFor (die : Nat) : Nat := if die = 0 || die = 1 || die = 4 then 6 else 7

/-- Dies through which traffic passes that takes no direct link, in the order in which they are tried (R22, R26). -/
def midsOf (a b : Nat) : List Nat :=
  if a ≥ 6 && b ≥ 6 then [4]
  else if a ≥ 6 || b ≥ 6 then [13 - max a b]
  else if min a b = 4 && max a b = 5 then [6]
  else [hubFor b, 13 - hubFor b]

/-- The links that a packet crosses from die `a` to die `b`: the direct one where it is up, and, between a T-die and an S-die, only
for PRISM traffic; else two links through the die that R22 and R26 name; empty where there is no way. -/
def State.route (s : State) (prism : Bool) (a b : Nat) : List Nat :=
  let up (l : Option Nat) : Option Nat := l.filter fun l => !s.sys.linksDown.contains l
  let direct := (up (linkBetween a b)).filter fun l => prism || decide (l < 14)
  if a = b then []
  else match direct with
    | some l => [l]
    | none => ((midsOf a b).findSome? fun m => match up (linkBetween a m), up (linkBetween m b) with
        | some x, some y => some [x, y]
        | _, _ => none).getD []

/-- PRISM_STATUS.ROUTE of a channel: 0 while its records take the Prism link, 1 on any other way. -/
def State.chanRoute (s : State) (ch : Nat) : Nat := b2n (s.route true (ch / 2) (4 + ch % 2) != [14 + ch])

/-- A die has lost every link. -/
def State.isolated (s : State) : Bool := (List.range 8).any fun d => (linksOf d).all fun l => s.sys.linksDown.contains l

/-- The part enters the FATAL state, once its record is delivered (R578). [DEDUCED, log 6] -/
def fatalError (code : Nat) (s : State) : State :=
  if s.isFatal then s
  else
    let s := raise { code, status := eInternal, flags := 0, ty := 0, inst := 0, ctx := 255, ring := 0xFFFF, index := 0, addr := 0, space := 0 } s
    { s with sys := { s.sys with fatal := code } }

/-- SPINE_LINK_DOWN (R26): a spine or Prism link has failed retraining; its traffic takes the other way, and a die with no link left
makes the part FATAL. -/
def execSpineLinkDown (link : Nat) (s : State) : Host.Outcome State Fault Refusal :=
  if !s.diesOn || link ≥ 22 || s.sys.linksDown.contains link then .next s
  else
    let s := { s with sys := { s.sys with linksDown := NSet.ins link s.sys.linksDown } }
    let s := if link ≥ 14 then s.updChan (link - 14) fun c => { c with route := s.chanRoute (link - 14) } else s
    -- the contexts with rings of units on either die are affected
    let ends := (linkEnds[link]?).getD (8, 8)
    let near := (s.rings.filter fun r => r.2.st != 0 && r.2.unitType != 0 &&
      (let d := Config.dieOf r.2.unitType r.2.unitInst; d == ends.1 || d == ends.2)).map fun r => r.2.ctx
    let s := raiseUnit { code := 8, status := eInternal, flags := 0, ty := Config.tLink, inst := link, ctx := 255, ring := 0xFFFF, index := 0, addr := 0
                         space := 0 } near s
    .next (if s.isolated then fatalError 0x10 s else s)

/-- FATAL_ERROR (R578): an error of class FATAL that is not recorded after the fact: FW_CORE_HALT, DIE_ISOLATED or FACET_FAULT. [DEDUCED, log 6] -/
def execFatalError (code : Nat) (s : State) : Host.Outcome State Fault Refusal :=
  if !s.diesOn || code < 0xF || code > 0x11 then .next s else .next (fatalError code s)

end Sys2Proof.Machine
end

