-- ==== Sys2Proof/Machine/Facet.lean ====
section
/-! DEFINITION. Sys2Proof/Machine/Facet.lean: IDENT, FACET_BASE and the Facet Table (R28, R44–R65). -/

namespace Sys2Proof.Machine
open Sys2Proof

/-- A register value from (lowest bit, width, value) of its fields; every other bit is zero (R13). -/
def regOf (l : List (Nat × Nat × Nat)) : Nat := (l.map fun f => f.2.2 % 2 ^ f.2.1 * 2 ^ f.1).sum

/-- The ENABLED flag of an instance in the published table (R60, R570). -/
def State.pubEnabled (s : State) (ty inst : Nat) : Bool := !s.fusedOff ty inst && !s.sys.pubOos.contains (ukey ty inst)

/-- IDENT (R44, R45). -/
def State.ident (s : State) : Nat :=
  let steps := ((List.range 8).filter fun d => s.pubEnabled 2 d).map fun d => Config.dieStep d
  regOf [(48, 16, 0xD1B0), (32, 16, 0x0860), (24, 8, Config.pkgStep), (16, 8, steps.foldl min 255), (8, 8, s.sys.sciMajor), (0, 8, s.sys.sciMinor)]

/-- FACET_BASE (R51): zero while nothing is published. -/
def State.facetBase (s : State) : Nat :=
  if s.sys.valid then regOf [(0, 1, 1), (1, 3, s.sys.stage), (12, 28, Config.facetOffset), (48, 16, s.sys.gen)] else 0

/-! ### Entries (R57–R59, R62, R63) -/

/-- An entry's own part: TYPE, INSTANCE, DIE, FLAGS without ENABLED, BASE, SIZE, PARAMS. -/
structure FacetEntry where
  ty     : Nat
  inst   : Nat
  die    : Nat
  flags  : Nat
  base   : Nat
  size   : Nat
  params : Nat
deriving DecidableEq, Repr

/-- Offsets of the snapshot register and of the snapshot data in a block (R59): those of the ID860-A. [PRESUMED, log 14] -/
def snapAt (ty : Nat) : Nat × Nat :=
  if ty = Config.tTeacher || ty = Config.tStudent || ty = Config.tPort then (0xF00, 0x1000) else (0x700, 0x800)
/-- SIZE of a block in the Aperture. [PRESUMED, log 14] -/
def blockSize (ty : Nat) : Nat :=
  if ty = 0x10 then 2 ^ 20 else if ty = 0x11 then 2 ^ 18
  else if ty = Config.tTeacher || ty = Config.tStudent then 0x2000 else if ty = Config.tPort then 0x10000 else 0x1000

/-- An entry with SPACE none; a block without and with snapshot registers. -/
def plainEntry (ty inst die params : Nat) : FacetEntry := { ty, inst, die, flags := 0, base := 0, size := 0, params }
def blockEntry (ty inst die params : Nat) : FacetEntry :=
  { ty, inst, die, flags := 2, base := Config.blockBase ty inst, size := blockSize ty, params := params % 2 ^ 32 }
def unitEntry (ty inst params : Nat) : FacetEntry :=
  let at_ := snapAt ty
  { ty, inst, die := Config.dieOf ty inst, flags := 2 + 16, base := Config.blockBase ty inst, size := blockSize ty
    params := params % 2 ^ 32 + at_.1 / 8 * 2 ^ 32 + at_.2 / 8 * 2 ^ 48 }

/-- PARAMS of a unit's entry (R62). [PRESUMED, log 14] -/
def unitParams (ty inst : Nat) : Nat :=
  if ty = Config.tTeacher then regOf [(0, 4, 4), (4, 12, 128), (16, 8, 24), (24, 8, 8)]
  else if ty = Config.tStudent then regOf [(0, 4, 2), (4, 12, 128), (16, 8, 16), (24, 8, 8)]
  else if ty = Config.tLens then regOf [(0, 16, 256), (16, 8, 16)]
  else if ty = Config.tPrism then regOf [(0, 8, inst / 2), (8, 8, 4 + inst % 2), (16, 8, 4)]
  else if ty = Config.tScaler then (if inst < 32 then regOf [(0, 16, Config.tTeacher), (16, 16, inst)] else regOf [(0, 16, Config.tStudent), (16, 16, inst - 32)])
  else if ty = Config.tServing then (if inst < 4 then 0 else 1)
  else if ty = Config.tStream then
    (if inst < 32 then regOf [(8, 8, 32), (16, 8, 12), (24, 8, inst)]
     else if inst < 48 then regOf [(1, 1, 1), (8, 8, 32), (16, 8, 12), (24, 8, inst - 32)] else regOf [(0, 1, 1), (8, 8, 32), (16, 8, 12)])
  else if ty = Config.tHbm then regOf [(0, 16, 48), (16, 16, 2000)]
  else if ty = Config.tStore then regOf [(0, 8, 16), (8, 8, 14), (16, 16, 512)]
  else if ty = Config.tPort then regOf [(0, 8, inst / 8), (8, 8, inst % 8), (16, 16, 250)]
  else if ty = Config.tHost then regOf [(0, 8, 16), (8, 8, 64), (16, 8, 2)]
  else if ty = Config.tNet then 800
  else if ty = Config.tLoupe then 8
  else 0

/-- The entries of one unit type, in ascending INSTANCE. -/
def unitEntries (ty : Nat) : List FacetEntry := (List.range (Config.instances ty)).map fun i => unitEntry ty i (unitParams ty i)

/-- PACKAGE and DIE. -/
def packageEntry (s : State) : FacetEntry := plainEntry 1 0 255 (regOf [(0, 8, 8), (8, 8, 8), (16, 8, 8), (24, 8, 40), (32, 6, s.sys.strapPod)])
def dieEntries : List FacetEntry := (List.range 8).map fun d =>
  plainEntry 2 d d (regOf [(0, 4, if d < 4 then 0 else if d < 6 then 1 else 2), (4, 4, if d < 4 then d else d % 2)
    , (8, 8, if d < 6 then 8 else 0), (16, 8, 2), (24, 8, Config.dieStep d)])

/-- SPINE, with the weights of the firmware that runs as of the publication (R592), and LINK. -/
def linkEntries (fw : Bytes) : List FacetEntry :=
  plainEntry 3 0 255 (regOf ((List.range 4).map (fun k => (8 * k, 8, Config.spineWeight fw k)) ++ [(32, 8, 14), (40, 8, 8)]))
  :: (linkEnds.zip (List.range 22)).map fun e =>
      plainEntry Config.tLink e.2 255 (regOf [(0, 8, e.1.1), (8, 8, e.1.2), (16, 1, if e.2 < 14 then 0 else 1), (32, 16, if e.2 < 14 then 2000 else 512)])

/-- CONTROL_CORE: two on each die; the second of each T-die may run agents, every other one belongs to firmware (R28).
R63 gives FW_OWNED to these; no entry of another type carries it. [DEDUCED, log 15; DESIGN CHOICE, log 76] -/
def controlEntries : List FacetEntry := (List.range 16).map fun i =>
  { plainEntry 0x12 i (i / 2) (regOf [(0, 8, i % 2), (8, 8, i)]) with flags := if i < 8 && i % 2 = 1 then 8 else 32 }

/-- HBM_REGION and STORE_REGION. -/
def hbmEntries : List FacetEntry := (List.range 8).map fun i =>
  { ty := 0x32, inst := i, die := Config.dieOf Config.tHbm i, flags := 4, base := i * Config.stackBytes, size := Config.stackBytes
    params := regOf [(0, 16, i), (16, 1, if i < 4 then 0 else 1)] }
def storeEntries : List FacetEntry :=
  [{ ty := 0x41, inst := 0, die := 255, flags := 6, base := Config.teacherBase, size := Config.teacherBytes, params := regOf [(0, 4, 0), (4, 4, 3), (16, 16, 300)] },
   { ty := 0x41, inst := 1, die := 255, flags := 6, base := Config.slcBase, size := Config.slcBytes, params := regOf [(0, 4, 1), (4, 4, 1), (16, 16, 3000)] }]

/-- The entries of the table: those of the boot stage, or every one (R60, R64). [PRESUMED, log 14] -/
def State.facetEntries (s : State) : List FacetEntry :=
  if s.sys.stage = 2 then
    packageEntry s :: dieEntries ++ linkEntries s.sec.sciFw
    ++ [blockEntry 0x10 0 255 (regOf [(0, 16, 256), (16, 16, 4096)]), blockEntry 0x11 0 255 (regOf [(0, 16, 4096), (16, 16, 64)])]
    ++ controlEntries ++ [plainEntry 0x13 0 255 (regOf [(0, 8, 64), (8, 8, 1)]), blockEntry 0x14 0 255 (regOf [(0, 8, 1), (16, 16, 1000)])]
    ++ ([Config.tTeacher, Config.tStudent, Config.tLens, Config.tPrism, Config.tScaler, Config.tUpdate, Config.tServing].flatMap unitEntries)
    ++ [plainEntry 0x27 0 255 (regOf [(0, 24, 16384), (24, 24, 65536), (48, 16, 1024)])]
    ++ unitEntries Config.tStream ++ unitEntries Config.tHbm ++ hbmEntries ++ unitEntries Config.tStore ++ storeEntries
    ++ ([Config.tPort, Config.tEngine, Config.tHost, Config.tNet, Config.tMirror, Config.tLoupe].flatMap unitEntries)
  else packageEntry s :: dieEntries ++ unitEntries Config.tHost ++ unitEntries Config.tLoupe

/-- The 32 bytes of an entry. -/
def State.entryBytes (s : State) (e : FacetEntry) : Bytes :=
  leBytes 2 e.ty ++ leBytes 2 e.inst ++ leBytes 1 0x10 ++ leBytes 1 e.die ++ leBytes 2 (e.flags + b2n (s.pubEnabled e.ty e.inst))
    ++ leBytes 8 e.base ++ leBytes 8 e.size ++ leBytes 8 e.params

/-- The header with a given CRC (R53, R54). -/
def State.facetHeader (s : State) (n crc : Nat) : Bytes :=
  leBytes 4 0x54434146 ++ leBytes 2 0x0100 ++ leBytes 2 32 ++ leBytes 4 (32 + 32 * n) ++ leBytes 4 n ++ leBytes 4 crc ++ leBytes 4 s.sys.gen
    ++ leBytes 1 s.sys.stage ++ zeros 7

/-- The published table (R52–R65). [DESIGN CHOICE, log 13] -/
def State.facetTable (s : State) : Bytes :=
  let es := s.facetEntries
  let body := es.flatMap s.entryBytes
  s.facetHeader es.length (crc32 (s.facetHeader es.length 0 ++ body)) ++ body

end Sys2Proof.Machine
end

