-- ==== Sys2Proof/Machine/Regs.lean ====
section
/-! DEFINITION. Sys2Proof/Machine/Regs.lean: what the registers of the unit blocks read (R38, R157, R158, R209, R234, R262, R297, R324, R350,
R359, R388, R422, R449, R451, R478, R501, R503, R555). -/

namespace Sys2Proof.Machine
open Sys2Proof

/-! ### What the blocks have in common -/

/-- The ring whose task a unit has in progress, with the ring index and the bytes of its descriptor in progress or, between two linked
ones, of the next. -/
def State.atWork (s : State) (ty inst : Nat) : Option (Nat × Ring × Nat × Bytes) :=
  let rs := s.unitRings ty inst
  match rs.findSome? fun r => r.2.cur.map fun c => (r.1, r.2, c.index, c.desc) with
  | some x => some x
  | none => (rs.find? fun r => r.2.inTask).map fun r => (r.1, r.2, r.2.head, ((r.2.fetched.head?).bind (·.2)).getD [])

/-- Every bound ring is stopped or draining. R209 gives this condition for HALTED of a student core; for the other blocks with a HALTED
state the manual gives none, and it is theirs here too. [DESIGN CHOICE, log 85] -/
def State.halted (s : State) (ty inst : Nat) : Bool :=
  !(s.unitRings ty inst).isEmpty && (s.unitRings ty inst).all fun r => decide (2 ≤ r.2.st)

/-- STATE of a unit: `run` while a task is in progress, else `halt` or IDLE. -/
def State.stateOf (s : State) (ty inst run halt : Nat) : Nat :=
  if (s.atWork ty inst).isSome then run else if s.halted ty inst then halt else 0

/-- RING_SLOT and INDEX of the descriptor in progress. -/
def State.workAt (s : State) (ty inst : Nat) : Nat × Nat :=
  match s.atWork ty inst with | some x => (x.2.1.slot, x.2.2.1) | none => (0, 0)

/-- The four RING and VALID fields of ring slots 4k to 4k + 3. -/
def State.ringsReg (s : State) (ty inst k : Nat) : Nat :=
  regOf ((List.range 4).flatMap fun i =>
    match (s.unitRings ty inst).find? fun r => r.2.slot == 4 * k + i with
    | some r => [(16 * i, 12, r.1), (16 * i + 12, 1, 1)]
    | none => [])

/-- Contexts of the first ring slots, `step` bits apart. -/
def State.ringCtxReg (s : State) (ty inst n step : Nat) : Nat :=
  regOf ((List.range n).map fun i =>
    (step * i, 6, match (s.unitRings ty inst).find? fun r => r.2.slot == i with | some r => r.2.ctx | none => 0))

/-- One bit for each ring slot with a task in progress. -/
def State.runningReg (s : State) (ty inst : Nat) : Nat :=
  ((s.unitRings ty inst).filter fun r => r.2.cur.isSome || r.2.inTask).foldl (fun v r => Nat.lor v (2 ^ r.2.slot)) 0

/-- RING, INDEX and REASON of the first error; the four bits above RING are free for the block. -/
def UnitRegs.infoReg (u : UnitRegs) : Nat := regOf [(0, 16, u.errRing), (16, 32, u.errIndex), (48, 8, u.errReason)]

/-- CONTEXT, BOUND and CLEARING of a core. -/
def State.coreCtxReg (s : State) (core : Nat) : Nat :=
  regOf [(0, 6, (s.coreOwner core).getD 0), (8, 1, b2n !(s.coreRings core).isEmpty), (9, 1, b2n (s.core core).clearing)]

/-- CORE clock of a die: frequency, stretching and duty. -/
def State.clockReg (s : State) (die : Nat) : Nat :=
  let f := s.loupe.freqOf die
  let d := s.loupe.duty die
  regOf [(0, 12, if f = 0 then 1600 else f), (12, 1, b2n (d < 100)), (16, 7, d)]

/-- A temperature in a 16-bit signed field. -/
def temp16 (t : Int) : Nat := (t % 65536).toNat

/-! ### The blocks -/

/-- The ring whose task of a class a core has in progress. -/
def State.classAt (s : State) (ty inst cls : Nat) : Option Ring := ((s.unitRings ty inst).find? fun r => r.2.busyIn cls).map (·.2)

/-- ARRAY_STATE, and the slot and index of the array-class task (R157, R209): DRAIN once its descriptor has left the arrays; between two
descriptors WAIT_STAGE where the next waits for its fill, else ENTRY. A pass enters its arrays in the row that runs it, so WAIT_DEP is not
seen. [DEDUCED, log 3] -/
def State.arrayState (s : State) (ty inst : Nat) (ready : Bytes → Bool) : Nat × Nat × Nat :=
  match s.classAt ty inst 1 with
  | some r =>
    (match r.cur, r.fetched with
      | some c, _ => (4, r.slot, c.index)
      | none, (_, some d) :: _ => (if ready d then 1 else 2, r.slot, 0)
      | none, _ => (1, r.slot, 0))
  | none => (if s.halted ty inst then 5 else 0, 0, 0)

/-- TE_STATUS (R157). -/
def State.teStatus (s : State) (i : Nat) : Nat :=
  let a := s.arrayState Config.tTeacher i (s.stageReady i)
  let thin := match s.classAt Config.tTeacher i 1 with | some r => (match r.cur with | some c => dOp c.desc == 0x13 | none => false) | none => false
  let v := s.classAt Config.tTeacher i 2
  regOf [(0, 3, a.1), (3, 1, b2n thin), (4, 1, b2n v.isSome), (8, 2, a.2.1), (10, 2, match v with | some r => r.slot | none => 0), (16, 32, a.2.2)]

/-- TE_STAGEn. -/
def stageReg (x : Stage) : Nat := regOf [(0, 16, x.fillSeq), (16, 16, x.freeSeq), (32, 1, b2n x.poison), (33, 1, b2n x.sealing)]

def State.teReg (s : State) (i off : Nat) : Nat :=
  let v (n : Nat) : Nat := s.valueOf Config.tTeacher i n
  match off with
  | 0x00 => s.teStatus i
  | 0x18 => s.ringsReg Config.tTeacher i 0
  | 0x20 => s.coreCtxReg i
  | 0x28 => s.clockReg (i / 8)
  | 0x30 => stageReg (s.core i).stage0
  | 0x38 => stageReg (s.core i).stage1
  | 0x40 => regOf [(0, 1, v 1), (1, 1, v 2), (2, 1, v 3)]
  | _ => 0

/-- SE_STATUS (R209). [DEDUCED, log 3, 24] -/
def State.seStatus (s : State) (i : Nat) : Nat :=
  let x := s.core (32 + i)
  let a := s.arrayState Config.tStudent i fun _ => true
  let v := s.classAt Config.tStudent i 2
  regOf [(0, 3, a.1), (4, 1, b2n v.isSome),
    (5, 1, match x.vec with | some w => b2n w.wait.isSome | none => b2n x.kd.isSome), (8, 2, a.2.1), (10, 2, match v with | some r => r.slot | none => 0),
    (16, 32, a.2.2), (48, 16, match x.vec with | some w => w.pc | none => 0)]

/-- Target ports: rings bound to port p of the core. -/
def State.tgtReg (s : State) (i : Nat) : Nat :=
  let x := s.core (32 + i)
  regOf ((List.range 4).flatMap fun p =>
    match s.prings.find? fun r => r.2.bound && r.2.sHere s && r.2.core == i && r.2.port == p && r.2.kind != 2 with
    | some r => [(16 * p, 1, 1), (16 * p + 1, 1, b2n (bitOf x.taken p)), (16 * p + 2, 14, min r.2.avail 0x3FFF)]
    | none => [])

def State.seReg (s : State) (i off : Nat) : Nat :=
  let v (n : Nat) : Nat := s.valueOf Config.tStudent i n
  match off with
  | 0x00 => s.seStatus i
  | 0x18 => s.ringsReg Config.tStudent i 0
  | 0x20 => s.coreCtxReg (32 + i)
  | 0x28 => s.clockReg (4 + i / 8)
  | 0x30 => s.tgtReg i
  | 0x40 => regOf [(0, 1, v 1), (1, 1, v 2), (16, 16, v 3)]
  | _ => 0

def State.sclReg (s : State) (i off : Nat) : Nat :=
  let v (n : Nat) : Nat := s.valueOf Config.tScaler i n
  let w := s.workAt Config.tScaler i
  match off with
  | 0x00 =>
    let redo := (s.unitRings Config.tScaler i).any fun r => r.2.cur.any fun c => bitOf (field c.detail 1 1) 3
    let st := s.stateOf Config.tScaler i 1 3
    regOf [(0, 2, if st = 1 && redo then 2 else st), (8, 1, w.1), (16, 32, w.2)]
  | 0x18 => s.ringsReg Config.tScaler i 0
  | 0x20 => (s.unit Config.tScaler i).last
  | 0x28 => regOf [(0, 1, v 1), (1, 1, v 2)]
  | _ => 0

/-- LENS_STATUS (R262). [DEDUCED, log 3] -/
def State.lensStatus (s : State) (i : Nat) : Nat :=
  let ts := (s.unitRings Config.tLens i).filter fun r => s.lensBusy r.1 r.2 1 || s.lensBusy r.1 r.2 2
  let at_ := (ts.find? fun r => !(s.lensTask r.1).susp).or ts.head?
  regOf [(0, 3, if ts.any (fun t => (s.lensTask t.1).held.isSome) then 4 else s.stateOf Config.tLens i 1 5),
    (3, 2, match at_ with | some r => (s.lensTask r.1).cls | none => 0), (5, 1, b2n (ts.any fun r => (s.lensTask r.1).susp)),
    (8, 2, match at_ with | some r => r.2.slot | none => 0), (16, 32, match at_ with | some r => r.2.cur.elim 0 (·.index) | none => 0)]

def State.lensReg (s : State) (i off : Nat) : Nat :=
  let v (n : Nat) : Nat := s.valueOf Config.tLens i n
  match off with
  | 0x00 => s.lensStatus i
  | 0x18 => s.ringsReg Config.tLens i 0
  | 0x20 => s.ringCtxReg Config.tLens i 4 8
  | 0x28 => regOf [(0, 9, v 1), (9, 1, v 2), (10, 1, v 4), (16, 25, v 3)]
  | 0x30 => (s.unit Config.tLens i).last
  | _ => 0

/-- PRISM_RING_n and PRISM_RSEAL_n (R297). -/
def pringReg (p : PRing) : Nat :=
  regOf [(0, 1, b2n p.bound), (1, 2, p.kind), (3, 1, p.order), (4, 1, b2n (p.bound && p.remote != 0xFFFF)), (5, 2, p.st), (8, 6, p.ctx)
    , (16, 13, p.free), (32, 13, p.reserved), (48, 13, p.slots)]
def rsealReg (p : PRing) : Nat := regOf [(0, 9, p.kmax), (9, 1, b2n p.taps), (10, 1, b2n p.sealed), (32, 32, p.tmin)]

def State.prismReg (s : State) (i off : Nat) : Nat :=
  let v (n : Nat) : Nat := s.valueOf Config.tPrism i n
  let c := s.chan i
  let w := s.workAt Config.tPrism i
  -- what a channel has not finished within its row waits for credit or for a grant
  let wait := (s.unitRings Config.tPrism i).any fun r => match r.2.cur with | some c => c.phase == 0 | none => false
  if 0x80 ≤ off ∧ off < 0x100 then pringReg (s.pring i ((off - 0x80) / 8))
  else if 0x180 ≤ off ∧ off < 0x200 then rsealReg (s.pring i ((off - 0x180) / 8))
  else match off with
  | 0x00 => regOf [(0, 2, if wait then 2 else s.stateOf Config.tPrism i 1 3), (2, 1, c.route)
      , (3, 1, b2n ((List.range 16).any fun n => (s.pring i n).bound && (s.pring i n).remote != 0xFFFF)), (4, 3, c.lists.length), (8, 2, w.1), (16, 32, w.2)]
  | 0x18 => s.ringsReg Config.tPrism i 0
  | 0x20 => regOf [(0, 9, v 1), (9, 1, v 3), (16, 8, v 2)]
  | _ => 0

/-- STATE of an Update Unit, by the command in progress (R324). -/
def State.updState (s : State) (i : Nat) : Nat :=
  match (s.upd i).commit, s.atWork Config.tUpdate i with
  | some _, _ => 2
  | none, some x => (match dOp x.2.2.2 with | 0x10 => 1 | 0x11 => 2 | 0x12 => 3 | 0x13 => 4 | _ => 1)
  | none, none => if s.halted Config.tUpdate i then 5 else 0

def State.updReg (s : State) (i off : Nat) : Nat :=
  let w := s.workAt Config.tUpdate i
  let x := s.step
  match off with
  | 0x00 => regOf [(0, 3, s.updState i), (3, 1, b2n (s.upd i).window), (4, 1, b2n s.studentJob.isSome), (8, 2, w.1), (16, 32, w.2)]
  | 0x18 => s.ringsReg Config.tUpdate i 0
  | 0x20 => (match s.studentJob with | some (h, j) => regOf [(0, 16, h), (16, 6, j.ctx), (24, 3, field j.header 3 1)] | none => 0)
  | 0x28 => x.step
  | 0x30 => (s.upd i).attempt
  | 0x38 => regOf [(0, 5, x.scaleExp), (8, 16, x.clean), (24, 8, x.consecVeto), (32, 1, x.flags / 2)]
  | 0x40 => regOf [(0, 8, x.cause), (8, 1, x.flags), (16, 16, x.vetoDev), (32, 32, x.vetoTensor)]
  | 0x48 => regOf [(0, 32, x.norm), (32, 32, x.clip)]
  | 0x50 => s.valueOf Config.tUpdate i 1
  | _ => 0

def State.suReg (s : State) (i off : Nat) : Nat :=
  let v (n : Nat) : Nat := s.valueOf Config.tStream i n
  match off with
  | 0x00 => regOf [(0, 2, s.stateOf Config.tStream i 1 2), (4, 4, s.runningReg Config.tStream i), (16, 9, s.tagsHeld i)]
  | 0x18 => s.ringsReg Config.tStream i 0
  | 0x20 => s.ringCtxReg Config.tStream i 4 8
  | 0x28 => regOf [(0, 4, v 1), (4, 1, v 2)]
  | _ => 0

/-- HBM_STATUS (R359). -/
def State.hbmStatus (s : State) (i : Nat) : Nat :=
  let poisoned := s.mem.hbmPoison.any fun l => stackOf (64 * l) == i
  let hot := s.loupe.refresh.contains i
  let used := (s.mem.pages.filter fun p => p.1 / Config.pagesPerStack == i).length
  let t := s.valueOf Config.tHbm i 1
  regOf [(0, 2, if s.mem.failed.contains i then 3 else if poisoned then 2 else 1), (2, 1, b2n hot), (16, 16, if hot then t / 2 else t)
    , (32, 32, Config.pagesPerStack - used)]

def State.hbmReg (s : State) (i off : Nat) : Nat :=
  let v (n : Nat) : Nat := s.valueOf Config.tHbm i n
  let u := s.unit Config.tHbm i
  match off with
  | 0x00 => s.hbmStatus i
  | 0x10 => regOf [(0, 39, u.errIndex), (40, 6, u.errRing), (46, 1, u.errReason)]
  | 0x18 => regOf [(0, 16, v 1), (16, 8, v 2), (24, 16, v 3)]
  | _ => 0

/-! ### STORE_ (R388) -/

/-- Average and highest P/E of a pool: the blocks of its mode that are not retired. [DEDUCED, log 43] -/
def Ctl.wear (c : Ctl) (slc : Bool) : Nat × Nat :=
  let pes := (c.blocks.filter fun b => c.slcMode b.1 == slc).map (·.2.pe)
  let n := 16 * (if slc then 576 + 192 else 3648 + 1024)
  (pes.sum / n, maxOf pes)

/-- STORE_STATUS. [DEDUCED, log 43] -/
def State.storeStatus (s : State) (i : Nat) : Nat :=
  let c := s.ctl i
  let worn := decide ((c.wear false).1 ≥ 3000) || decide ((c.wear true).1 ≥ 30000)
  regOf [(0, 3, c.st), (3, 1, b2n c.armed), (4, 1, b2n c.holdup), (5, 1, b2n c.hold), (6, 1, b2n worn), (8, 4, c.failed.length)
    , (16, 6, c.pendBytes / 2 ^ 20), (22, 6, c.limit), (32, 16, min (s.relocQueue i).length 65535), (48, 16, min (s.overdue i) 65535)]

/-- STORE_BUDGET: the credits as they stand now. -/
def State.budgetReg (s : State) (i : Nat) : Nat :=
  let c := s.ctl i
  let (b, l) := s.accrue i (s.now - c.evalAt)
  regOf [(0, 16, (b / ((1000000000 * creditUnit : Nat) : Int)).toNat), (16, 16, temp16 (l / ((1000000000 * creditUnit : Nat) : Int)))
    , (32, 1, b2n c.thrRate), (33, 1, b2n c.thrLife)]

def State.storeReg (s : State) (i off : Nat) : Nat :=
  let v (n : Nat) : Nat := s.valueOf Config.tStore i n
  let u := s.unit Config.tStore i
  let c := s.ctl i
  let early := decide (c.st < 2)
  match off with
  | 0x00 => s.storeStatus i
  | 0x10 => regOf [(0, 44, u.errIndex / 4096 * 4096), (44, 1, u.errReason), (48, 16, if u.errRing = 0 || u.errRing = 0x10000 then 0xFFFF else u.errRing - 1)]
  | 0x18 => regOf [(0, 20, v 1), (20, 7, v 2), (27, 7, v 3), (34, 7, v 4), (41, 5, v 5), (46, 4, v 6)]
  | 0x20 => regOf [(0, 12, v 7), (12, 14, v 8), (26, 16, v 9)]
  | 0x28 => if early then 0 else
      regOf [(0, 16, min (c.wear false).1 65535), (16, 16, (c.wear false).2), (32, 16, (c.wear true).1), (48, 16, (c.wear true).2)]
  | 0x30 => if early then 0 else
      regOf [(0, 16, c.spares false), (16, 16, c.spares true - 1), (32, 16, (c.blocks.filter fun b => b.2.st == 7).length)]
  | 0x38 => if early then 0 else s.budgetReg i
  | _ => 0

/-! ### SRV_ (R422) -/

def State.srvReg (s : State) (i off : Nat) : Nat :=
  let v (n : Nat) : Nat := s.valueOf Config.tServing i n
  let side := if i < 4 then 0 else 1
  let lead := s.leadBlock side == i
  let mine := s.srv.models.filter fun m => m.1 / 16 == side
  let u := s.unit Config.tServing i
  if 0x80 ≤ off ∧ off < 0x100 then
    let n := 16 * side + (off - 0x80) / 8
    match s.srv.models.find? fun m => m.1 == n with
    | none => 0
    | some (_, m) =>
      regOf [(0, 1, 1), (1, 1, b2n m.faulted), (2, 1, field m.block 1 1), (3, 1, b2n (m.phase != 0)), (8, 6, m.ctx)
        , (16, 15, (s.srv.entries.filter fun e => e.2.model == n && (e.2.st == 2 || e.2.st == 3)).length), (32, 32, m.step)]
  else match off with
  | 0x00 =>
      let st := if !lead then 0 else if mine.any (fun m => m.2.phase == 3) then 3 else if mine.any (fun m => m.2.phase == 2) then 2 else 0
      regOf [(0, 2, st), (2, 1, side), (3, 1, b2n lead), (8, 5, if lead then mine.length else 0)
        , (16, 15, (s.srv.entries.filter fun e => e.2.st != 0).length), (32, 17, s.srv.prefixes.length)]
  | 0x10 => regOf [(0, 14, u.errIndex), (16, 5, u.errRing), (24, 8, u.errReason), (32, 32, u.last)]
  | 0x18 => regOf [(0, 16, v 1), (16, 4, v 2)]
  | _ => 0

/-! ### BEAM_ (R449, R451) -/

def State.portReg (s : State) (i off : Nat) : Nat :=
  let v (n : Nat) : Nat := s.valueOf Config.tPort i n
  let p := s.port i
  match off with
  | 0x00 => regOf [(0, 3, p.st), (3, 1, b2n p.lightIn), (4, 1, b2n p.lightRx), (5, 1, b2n p.enc), (8, 8, p.waves), (16, 4, p.retry)]
  | 0x08 => regOf [(0, 10, p.peer), (10, 6, p.peerPort), (16, 1, b2n p.peerOk)]
  | 0x18 => regOf [(0, 16, p.txNext), (16, 16, p.txAcked), (32, 16, p.rxExpect)]
  | 0x20 => Config.optics i s.now % 2 ^ 48
  | 0x28 => regOf [(0, 1, v 1), (16, 16, v 2)]
  | _ => 0

def State.engineReg (s : State) (i off : Nat) : Nat :=
  let v (n : Nat) : Nat := s.valueOf Config.tEngine i n
  match off with
  | 0x00 => regOf [(0, 2, s.stateOf Config.tEngine i 1 2), (8, 8, s.runningReg Config.tEngine i), (16, 7, s.groups.length)]
  | 0x18 => s.ringsReg Config.tEngine i 0
  | 0x20 => s.ringsReg Config.tEngine i 1
  | 0x28 => s.ringCtxReg Config.tEngine i 8 8
  | 0x30 => regOf [(0, 6, s.sys.podDev), (8, 4, s.sys.pod), (12, 1, b2n s.sys.joined), (13, 1, b2n s.podMaster)]
  | 0x38 => if s.podMaster then regOf [(0, 1, 1)] else regOf [(0, 1, b2n s.synced), (8, 16, s.beam.offset), (24, 8, s.beam.level)]
  | 0x40 => regOf [(0, 1, v 1), (1, 1, v 2)]
  | _ => 0

/-! ### MIR_ (R478): job registers read zero on the engine of higher INSTANCE. -/

/-- MIR_STATUS. -/
def State.mirStatus (s : State) : Nat :=
  let m := s.mirror
  let st := match m.replay with
    | some r => if r.ready then 5 else 3
    | none =>
      if m.ckpts.any (fun k => k.2.st == 1) then 1 else if m.ckpts.any (fun k => k.2.st == 2) then 2
      else if m.resolving.isSome then 4 else 0
  let b := match m.prot with | some p => if p.noBuddy then none else some p.buddy | none => none
  regOf [(0, 3, st), (3, 1, match m.prot with | some p => b2n p.ok | none => 0), (4, 1, b2n m.desig.isSome), (5, 1, b2n !m.resv.isEmpty)
    , (8, 7, min m.kept.length 64), (16, 10, b.getD 0), (26, 1, b2n b.isSome)]

/-- STEP of the last COMPLETE checkpoint of a level. -/
def State.lastStep (s : State) (level : Nat) : Nat :=
  match s.lastCkpt level with
  | some n => (match s.mirror.ckpts.find? fun k => k.1 == n with | some k => k.2.step | none => 2 ^ 64 - 1)
  | none => 2 ^ 64 - 1

def State.mirReg (s : State) (i off : Nat) : Nat :=
  let v (n : Nat) : Nat := s.valueOf Config.tMirror i n
  let m := s.mirror
  if off = 0x38 then regOf [(0, 4, v 1), (16, 10, v 2)]
  else if i ≠ 0 then 0
  else match off with
  | 0x00 => s.mirStatus
  | 0x10 => regOf [(0, 16, m.eJob), (16, 10, m.eDev), (32, 32, m.eAttempt)]
  | 0x18 => s.lastStep 1
  | 0x20 => s.lastStep 2
  | 0x28 => s.lastStep 3
  | 0x30 => regOf [(0, 8, m.rCause), (8, 1, b2n m.rHeld), (16, 10, min m.rSurv 1023), (32, 32, m.rAttempt)]
  | _ => 0

/-! ### HP_ and NP_ (R501, R503) -/

def State.hpReg (s : State) (off : Nat) : Nat :=
  let h := s.host
  let u := s.unit Config.tHost 0
  match off with
  | 0x00 => regOf [(0, 1, b2n h.up), (1, 1, b2n h.cxl), (2, 1, b2n s.sys.ideLink), (3, 1, b2n s.sys.ideCxl), (8, 5, h.width), (16, 8, h.rate)
      , (24, 1, b2n h.flr), (25, 1, b2n (h.hdm != 0))]
  | 0x10 => regOf [(0, 8, u.errReason), (8, 6, u.errRing), (16, 48, u.errIndex)]
  | 0x18 => regOf [(0, 18, h.cache.length), (32, 23, h.snoop.length)]
  | 0x20 => s.valueOf Config.tHost 0 1
  | _ => 0

def State.npReg (s : State) (i off : Nat) : Nat :=
  let v (n : Nat) : Nat := s.valueOf Config.tNet i n
  let u := s.unit Config.tNet i
  let n := (s.binds.filter fun b => b.1 / 256 == i).length
  let link := (s.nport i).link
  match off with
  | 0x00 => regOf [(0, 2, link), (2, 1, b2n (link = 2)), (8, 16, s.runningReg Config.tNet i), (24, 9, n), (36, 11, n + Config.fwQueuePairs i)]
  | 0x10 => regOf [(0, 12, u.errRing), (16, 32, u.errIndex), (48, 8, u.errReason), (56, 8, u.last)]
  | 0x18 => Config.macOf i % 2 ^ 48
  | 0x20 => regOf [(0, 14, v 1), (16, 8, v 2), (24, 1, v 3)]
  | _ => 0

/-! ### LOUPE_ (R555) -/

/-- The hottest junction: die, temperature and sensor; ties go to the lower DIE. -/
def Loupe.hottest (l : Loupe) : Nat × Int × Nat :=
  l.temps.foldl (fun b t => if t.2.1 > b.2.1 then (t.1, t.2.1, t.2.2) else b) (0, SMap.get (0, 0) l.temps 0)
/-- The highest of some temperatures. -/
def hottestOf (l : List (Nat × Int)) : Int := match l with | [] => 0 | t :: ts => ts.foldl (fun b x => max b x.2) t.2

def State.loupeReg (s : State) (off : Nat) : Nat :=
  let l := s.loupe
  let u := s.unit Config.tLoupe 0
  let hot := l.hottest
  match off with
  | 0x00 => regOf [(0, 1, b2n l.dip.isSome), (1, 1, b2n (l.ilDuty < 100)), (2, 1, b2n l.window), (3, 1, b2n !l.hot.isEmpty), (4, 1, b2n !l.critical.isEmpty)
      , (5, 1, b2n l.forced), (6, 1, b2n (l.reservoir = 0)), (16, 8, hot.1)
      , (24, 7, (List.range 8).foldl (fun m d => min m (l.duty d)) 100)]
  | 0x10 => regOf [(0, 16, u.errRing), (16, 48, u.errIndex)]
  | 0x18 => regOf [(0, 16, l.meanMw / 1000), (16, 16, l.vinMv), (32, 16, l.amps), (48, 16, if s.sys.vaux then Config.sensor 255 6 1 s.now else 0)]
  | 0x20 => regOf [(0, 16, l.capS), (16, 16, l.capB), (32, 16, l.target / 1000), (48, 16, l.reservoir / 1000000)]
  | 0x28 => regOf [(0, 16, temp16 hot.2.1), (16, 8, hot.2.2), (32, 16, temp16 (hottestOf l.hbmTemp)), (48, 16, temp16 (hottestOf l.storeTemp))]
  | 0x30 => regOf ((List.range 4).map fun d => (16 * d, 12, l.freqOf d))
  | 0x38 => regOf ((List.range 2).map fun d => (16 * d, 12, l.freqOf (4 + d)))
  | 0x40 => s.fwReg
  | 0x48 => regOf [(0, 16, min ((s.now - l.planAt) / (3600 * Config.sec)) 65535), (16, 1, b2n !l.planTodo.isEmpty), (32, 32, l.plans)]
  | 0x50 => regOf [(0, 10, s.loupeSet 1), (16, 7, s.loupeSet 2), (24, 10, s.loupeSet 3), (34, 8, s.loupeSet 4), (42, 12, s.loupeSet 5)]
  | _ => 0

/-! ### A unit's block -/

/-- Offset of the error register, and number of counters. -/
def errAt (ty : Nat) : Nat := if ty = Config.tPort then 0x10 else 0x08
def counters (ty : Nat) : Nat :=
  if ty = Config.tTeacher || ty = Config.tScaler || ty = Config.tLens || ty = Config.tPort || ty = Config.tMirror || ty = Config.tLoupe then 12
  else if ty = Config.tStudent || ty = Config.tPrism || ty = Config.tServing then 14
  else if ty = Config.tUpdate then 13 else if ty = Config.tStream || ty = Config.tHost then 10 else if ty = Config.tHbm then 11
  else if ty = Config.tStore then 16 else if ty = Config.tEngine then 7 else if ty = Config.tNet then 15 else 0
/-- Bits of the error register. -/
def errBits (ty : Nat) : Nat :=
  if ty = Config.tTeacher || ty = Config.tUpdate || ty = Config.tStream || ty = Config.tHost then 6
  else if ty = Config.tStudent || ty = Config.tPort || ty = Config.tLoupe then 8
  else if ty = Config.tScaler || ty = Config.tLens || ty = Config.tServing || ty = Config.tEngine then 5
  else if ty = Config.tPrism || ty = Config.tNet || ty = Config.tMirror then 7
  else if ty = Config.tHbm then 4 else if ty = Config.tStore then 9 else 0
/-- DOMAIN_MASK of the snapshot register. -/
def domainMask (ty : Nat) : Nat :=
  if ty = Config.tScaler || ty = Config.tLens || ty = Config.tUpdate then 2
  else if ty = Config.tStream || ty = Config.tEngine || ty = Config.tMirror then 1 else 3

/-- The block's own registers. -/
def State.ownReg (s : State) (ty i off : Nat) : Nat :=
  if ty = Config.tTeacher then s.teReg i off else if ty = Config.tStudent then s.seReg i off else if ty = Config.tScaler then s.sclReg i off
  else if ty = Config.tLens then s.lensReg i off else if ty = Config.tPrism then s.prismReg i off else if ty = Config.tUpdate then s.updReg i off
  else if ty = Config.tStream then s.suReg i off else if ty = Config.tHbm then s.hbmReg i off else if ty = Config.tStore then s.storeReg i off
  else if ty = Config.tServing then s.srvReg i off else if ty = Config.tPort then s.portReg i off else if ty = Config.tEngine then s.engineReg i off
  else if ty = Config.tMirror then s.mirReg i off else if ty = Config.tHost then s.hpReg off else if ty = Config.tNet then s.npReg i off
  else if ty = Config.tLoupe then s.loupeReg off else 0

/-- Blocks whose register 0x010 has the layout of TE_ERR_INFO. -/
def plainInfo (ty : Nat) : Bool :=
  [Config.tTeacher, Config.tStudent, Config.tScaler, Config.tLens, Config.tPrism, Config.tUpdate, Config.tStream, Config.tEngine].contains ty

/-- A register of a unit's block, by offset. [PRESUMED, log 14; DEDUCED, log 24] -/
def State.unitReg (s : State) (ty i off : Nat) : Nat :=
  let u := s.unit ty i
  let at_ := snapAt ty
  if off = errAt ty then u.err
  else if plainInfo ty && off = 0x10 then u.infoReg
  else if off = at_.1 then regOf [(1, 1, b2n u.snap.busy), (2, 1, b2n u.snap.pend), (8, 8, u.snap.seq), (16, 16, domainMask ty)]
  else if at_.2 ≤ off && off < at_.2 + 8 * counters ty then SMap.get 0 u.snap.shadow ((off - at_.2) / 8)
  else if 0x100 ≤ off && off < 0x100 + 8 * counters ty then SMap.get 0 u.cnt ((off - 0x100) / 8)
  else s.ownReg ty i off

end Sys2Proof.Machine
end

