-- ==== Sys2Proof/Machine/Aperture.lean ====
section
/-! DEFINITION. Sys2Proof/Machine/Aperture.lean: accesses to the Aperture: what a register reads, which accesses are refused, and the fields
of access code RC (R11–R14, R60, R68, R69, R96, R352, R578, R591). -/

namespace Sys2Proof.Machine
open Sys2Proof

/-! ### Registers outside the unit blocks -/

/-- The registers of a mailbox (R69). -/
def State.mbReg (s : State) (m off : Nat) : Nat :=
  let b := s.mb m
  match off with
  | 0x08 => regOf [(0, 2, b.st), (16, 16, b.tag), (32, 16, b.code)]
  | 0x10 => regOf [(0, 1, b2n b.done), (1, 1, b2n b.overrun), (2, 1, b2n b.aborted)]
  | 0x18 => regOf [(0, 1, b2n b.irqEn), (16, 11, b.vector)]
  | 0x20 => regOf [(0, 6, if m < 2 then 0 else b.ctx), (8, 1, b2n (m < 2)), (9, 1, b2n (m < 2 || b.assigned))]
  | 0x28 => b.expect
  | _ => 0

/-- The register group of a ring (R352). -/
def State.ringReg (s : State) (j off : Nat) : Nat :=
  let r := s.ring j
  match off with
  | 0x00 => r.tail % 2 ^ 32
  | 0x08 => r.head % 2 ^ 32
  | 0x10 => regOf [(0, 3, r.st), (3, 1, b2n r.badWrite), (16, 16, r.stopCode), (32, 32, r.stopIndex)]
  | 0x18 => regOf [(1, 1, b2n r.arm)]
  | 0x20 => regOf [(0, 4, r.kind), (4, 4, r.slotLog2), (8, 6, r.ctx), (16, 17, r.slots)]
  | 0x28 => r.done % 2 ^ 32
  | 0x30 => r.heldCount
  | _ => 0

/-- CFG_TXN_n, CFG_LAST and CFG_COUNT (R96). -/
def State.cfgReg (s : State) (off : Nat) : Nat :=
  if off < 0x200 then
    match s.txn (off / 8) with
    | some t => regOf [(0, 32, t.id), (32, 16, t.items.length)
        , (48, 16, if t.st = 1 then (t.start + 10 * Config.sec - s.now) / (10 * Config.ms) else t.left)]
    | none => 0
  else if off = 0x200 then regOf [(0, 32, s.cfg.lastId), (32, 16, s.cfg.lastStatus), (48, 6, s.cfg.lastCtx)]
  else if off = 0x208 then s.cfg.commits % 2 ^ 32
  else 0

/-- Eight bytes of the published table: OFFSET to OFFSET + LENGTH − 1 (R52). [DESIGN CHOICE, log 13] -/
def State.tableReg (s : State) (off : Nat) : Nat :=
  if !s.sys.valid || off < 4096 * Config.facetOffset then 0 else field s.facetTable (off - 4096 * Config.facetOffset) 8

/-- The 64-bit register at an 8-byte aligned offset of a block. -/
def State.reg (s : State) (blk : Block) (off : Nat) : Nat :=
  match blk with
  | .facet => if off = 0 then s.ident else if off = 8 then s.facetBase else s.tableReg off
  | .mailbox m => s.mbReg m off
  | .ring j => s.ringReg j off
  | .cfg => s.cfgReg off
  | .unit ty inst => s.unitReg ty inst off

/-! ### Accesses (R11, R60, R68, R578) -/

/-- An access falls into a mailbox's request or response buffer. -/
def inBuffer (blk : Block) (off : Nat) : Bool := match blk with | .mailbox _ => decide (0x80 ≤ off ∧ off < 0x1000) | _ => false
/-- Size and alignment that a register or a buffer accepts. -/
def sizeOk (blk : Block) (off size : Nat) : Bool :=
  (if inBuffer blk off then [4, 8, 16, 32, 64].contains size else size == 4 || size == 8) && off % size == 0
/-- A block in the range of an instance that is disabled in the published table. -/
def State.disabled (s : State) (blk : Block) : Bool := match blk with | .unit ty inst => !s.pubEnabled ty inst | _ => false

/-- The bytes of a mailbox's buffers; the response buffer of a BUSY mailbox reads undefined values (R70). [DEDUCED, log 62] -/
def State.bufByte (s : State) (m off : Nat) : Nat :=
  if off < 0x880 then field (s.mb m).req (off - 0x80) 1
  else if (s.mb m).st = 1 then (Config.freeByte (s.free + (off - 0x880))).toNat
  else field (s.mb m).resp (off - 0x880) 1

/-- All ones of a size in bytes. -/
def onesOf (size : Nat) : Nat := 2 ^ (8 * size) - 1

/-- In the FATAL state only IDENT and FACET_BASE read. -/
def State.hidden (s : State) (blk : Block) (off : Nat) : Bool := s.isFatal && !(blk == .facet && decide (off < 0x10))

/-- The value that a read returns. [DESIGN CHOICE, log 13] -/
def State.regRead (s : State) (blk : Block) (off size : Nat) : Nat :=
  if !sizeOk blk off size || s.disabled blk || s.hidden blk off then onesOf size
  else match blk with
    | .mailbox m =>
      if inBuffer blk off then ((List.range size).map fun i => s.bufByte m (off + i) * 256 ^ i).sum
      else if size = 8 then s.reg blk off else bits (s.reg blk (off / 8 * 8)) (8 * (off % 8)) 32
    | _ => if size = 8 then s.reg blk off else bits (s.reg blk (off / 8 * 8)) (8 * (off % 8)) 32

/-- The key of a register among the fields of access code RC. [DEDUCED, log 23] -/
def rcKey (blk : Block) (off : Nat) : Nat :=
  match blk with
  | .facet => off
  | .mailbox m => 2 ^ 40 + m * 2 ^ 16 + off
  | .ring j => 2 * 2 ^ 40 + j * 2 ^ 16 + off
  | .cfg => 3 * 2 ^ 40 + off
  | .unit ty inst => 4 * 2 ^ 40 + ukey ty inst * 2 ^ 16 + off

/-- RC_FIELD_READ (R12, R14, R591): the read returns the register. Only a 64-bit read reaches every bit of a 64-bit RC field; it returns
the field and clears it. A read of half of it clears nothing. [DEDUCED, log 23] -/
def execRcFieldRead (blk : Block) (off size : Nat) (s : State) : Host.Outcome State Fault Refusal :=
  if !s.sys.valid then .next s
  else
    let v := s.regRead blk off size
    if !sizeOk blk off size || s.disabled blk || s.hidden blk off || inBuffer blk off then
      .next { s with free := if inBuffer blk off then s.free + 0x780 else s.free, sys := { s.sys with rdata := v } }
    else
      let k := rcKey blk (off / 8 * 8)
      let f := SMap.get 0 s.sys.rc k
      if size = 8 then .next { s with sys := { s.sys with rdata := Nat.lor v f, rc := SMap.set 0 s.sys.rc k 0 } }
      else .next { s with sys := { s.sys with rdata := Nat.lor v (bits f (8 * (off % 8)) 32) } }

/-- APERTURE_UNSUPPORTED_ACCESS (R11, R60): a write has no effect, and a read returns all ones. -/
def execApertureUnsupportedAccess (write : Bool) (blk : Block) (off size : Nat) (s : State) : Host.Outcome State Fault Refusal :=
  if write || !s.sys.valid || (sizeOk blk off size && !s.disabled blk) then .next s
  else .next { s with sys := { s.sys with rdata := onesOf size } }

end Sys2Proof.Machine
end

