-- ==== Sys2Proof/Machine/Forward.lean ====
section
/-! DEFINITION. Sys2Proof/Machine/Forward.lean: the steps of the teacher forward program, which firmware runs on rings of context 0
(R164, R179, R180, R265, R285, R287). -/

namespace Sys2Proof.Machine
open Sys2Proof

/-! ### Sweeps -/

/-- The sweep with this id. -/
def State.sweep (s : State) (id : Nat) : Option Sweep := s.sweeps.find? fun w => w.id == id
def updSweep (id : Nat) (f : Sweep → Sweep) (s : State) : State := { s with sweeps := s.sweeps.map fun w => if w.id == id then f w else w }
/-- The sweep goes on to its next step. -/
def nextStep (id : Nat) (s : State) : State := updSweep id (fun w => { w with step := w.step + 1 }) s

/-- The step of a kind at which a sweep stands: the sweep, its image and the 64 bytes of the step. -/
def State.stepOf (s : State) (id kind : Nat) : Option (Sweep × Image × Bytes) :=
  match s.sweep id with
  | none => none
  | some w =>
    match s.image w.image with
    | none => none
    | some g =>
      let b := s.progStep g w.step
      if w.step < s.imgSteps g && field b 0 1 == kind && !s.isFatal && s.running then some (w, g, b) else none

/-! ### Issue of a descriptor by firmware -/

/-- Firmware's ring of context 0 for a unit instance: one it has already, or one that it creates in a page of its own. [DEDUCED, log 66] -/
def fwRing (ty : Nat) (x : FwIssue) (s : State) : Option State :=
  let r := s.ring x.ring
  if x.ring ≥ Config.rings || !s.enabled ty x.inst then none
  else if r.st = 0 then
    let pg := x.base / Config.pageBytes
    let own := SMap.get 0 s.mem.pages pg
    let core := match unitCore ty x.inst with | some k => !(s.core k).clearing && (match s.coreOwner k with | some c => c == 0 | none => true) | none => true
    if x.base % 64 = 0 && (x.base + 4095) / Config.pageBytes = pg && x.base + 4096 ≤ Config.hbmBytes && own ≤ 1 && core
        && (s.unitRings ty x.inst).length < ringLimit ty then
      let s := { s with mem := { s.mem with pages := SMap.set 0 s.mem.pages pg 1 } }
      some (createRing x.ring 0 6 64 x.base 0 ty x.inst 0xFFFF 0xFFFF 0 s)
    else none
  else if r.st = 1 && r.kind = 0 && r.ctx = 0 && r.unitType = ty && r.unitInst = x.inst && r.slotLog2 = 6 then some s
  else none

/-- Firmware writes a descriptor at the tail of its ring and advances TAIL. -/
def fwPost (ty : Nat) (x : FwIssue) (s : State) : Option State :=
  match fwRing ty x s with
  | none => none
  | some s =>
    let r := s.ring x.ring
    if r.full then none
    else some ((spaceWrite r.space (r.slotAddr r.tail) (fitTo 64 x.desc) s).updRing x.ring fun r => { r with tail := r.nextIx r.tail })

/-- A list of descriptors, each to its own ring. -/
def fwPostAll (ty : Nat) : List FwIssue → State → Option State
  | [], s => some s
  | x :: xs, s => match fwPost ty x s with | none => none | some s => fwPostAll ty xs s

/-- The descriptor differs from its template only in these byte ranges (offset, length). [DEDUCED, log 66] -/
def substOk (tmpl desc : Bytes) (rs : List (Nat × Nat)) : Bool :=
  (List.range 64).all fun i => (rs.any fun r => decide (r.1 ≤ i ∧ i < r.1 + r.2)) || field tmpl i 1 == field desc i 1

/-- What firmware substitutes in a template of a PASS: TAG, USER, SRAM addresses and T; in TE_VECTOR the program's address and its
arguments. [DEDUCED, log 66] -/
def passSubst (op : Nat) : List (Nat × Nat) :=
  [(2, 2), (56, 8)] ++
  (match op with
  | 0x10 => [(12, 1), (16, 18)]
  | 0x11 => [(12, 1), (16, 3), (25, 9)]
  | 0x12 => [(12, 3)]
  | 0x13 => [(8, 1), (16, 24)]
  | 0x20 => [(8, 3), (16, 40)]
  | _ => [])

/-- FILL: an SU_STAGE_FILL of the sweep's image on a DMA Stream Unit. -/
def execFwdFill (sweep : Nat) (x : FwIssue) (s : State) : Host.Outcome State Fault Refusal :=
  match s.stepOf sweep 1 with
  | none => .next s
  | some (w, _, b) =>
    let t := stepDesc b
    if !substOk t (fitTo 64 x.desc) [(2, 2), (8, 2), (16, 2), (26, 6), (40, 8), (56, 8)] || field x.desc 8 2 ≠ w.image || !isDma x.inst then .next s
    else match fwPost Config.tStream x s with
      | none => .next s
      | some s => .next (nextStep sweep s)

/-- PASS: an array, pane, thin or vector task on a teacher core. [DEDUCED, log 65] -/
def execFwdPass (sweep : Nat) (x : FwIssue) (s : State) : Host.Outcome State Fault Refusal :=
  match s.stepOf sweep 2 with
  | none => .next s
  | some (_, _, b) =>
    let t := stepDesc b
    if !substOk t (fitTo 64 x.desc) (passSubst (dOp t)) then .next s
    else match fwPost Config.tTeacher x s with
      | none => .next s
      | some s => .next (nextStep sweep s)

/-- The experts that a token's router outputs choose: ACTIVE of them, in rank order under the Lens tie rule. -/
def chosen (active : Nat) (outs : List Nat) : List Nat := ((rankOrder false (lensValid 0 outs)).take active).map (·.ix)

/-- ROUTE: the expert list (R174) and the token order of a KIND 4 layer, from the router outputs in fp32, by row. The order lists
rows, 4 bytes each, sorted stably by expert; the per-expert token offsets follow it, 4 bytes for each expert and one for the end.
[DEDUCED, log 66] -/
def execFwdRoute (sweep layer scores rows lists order : Nat) (s : State) : Host.Outcome State Fault Refusal :=
  match s.stepOf sweep 3 with
  | none => .next s
  | some (_, g, _) =>
    let l := s.layer g layer
    let n := field l 8 2
    if layer ≥ s.imgLayers g || field l 6 1 ≠ 4 || rows = 0 || !s.owns 0 scores (4 * n * rows) || !s.owns 0 lists (2 + 2 * n)
        || !s.owns 0 order (4 * rows * field l 10 2 + 4 * (n + 1)) then .next s
    else
      let pick := (List.range rows).map fun r =>
        chosen (field l 10 2) ((List.range n).map fun e => field (s.hbmRead (scores + 4 * (n * r + e)) 4) 0 4)
      let used := (List.range n).filter fun e => pick.any fun p => p.contains e
      let of (e : Nat) := (List.range rows).filter fun r => (nth pick r []).contains e
      let ord := (List.range n).flatMap of
      let starts := (List.range (n + 1)).map fun e => (((List.range n).take e).map fun d => (of d).length).sum
      let s := hbmWrite lists (leBytes 2 used.length ++ used.flatMap fun e => leBytes 2 e) s
      .next (nextStep sweep (hbmWrite order ((ord ++ starts).flatMap fun r => leBytes 4 r) s))

/-- EXCHANGE: copies of activation slices between core SRAM and device memory on Stream Units. [DEDUCED, log 66] -/
def execFwdExchange (sweep : Nat) (xs : List FwIssue) (s : State) : Host.Outcome State Fault Refusal :=
  match s.stepOf sweep 4 with
  | none => .next s
  | some _ =>
    let ok (x : FwIssue) : Bool := dOp x.desc == 0x10 && (suSrcSpace x.desc == 0 || suSrcSpace x.desc == 2)
      && (suDstSpace x.desc == 0 || suDstSpace x.desc == 2)
    if !xs.all ok then .next s
    else match fwPostAll Config.tStream xs s with
      | none => .next s
      | some s => .next (nextStep sweep s)

/-- T-dies that are in service. -/
def State.tdies (s : State) : List Nat := (List.range 4).filter fun t => (List.range 8).any fun i => s.enabled Config.tTeacher (8 * t + i)

/-- The T-die that R265 gives batch row `r`. -/
def State.rowDie (s : State) (rows r : Nat) : Nat := nth s.tdies (r * s.tdies.length / max 1 rows) 4

/-- A tag (R291). -/
def tagBytes (seq pos ring : Nat) (last : Bool) : Bytes :=
  leBytes 8 seq ++ leBytes 4 pos ++ leBytes 1 ring ++ leBytes 1 (b2n last) ++ zeros 2

/-- The token ring of a job on a channel that holds a chunk, and the chunk at its head (R287). -/
def State.headChunk (s : State) (h ch : Nat) : Option (Nat × Bytes) :=
  ((List.range 16).find? fun n =>
    let p := s.pring ch n
    p.kind == 2 && p.job == h && s.pringLive ch n && p.tHere s && p.written.contains p.head).map fun n =>
      let p := s.pring ch n
      (16 * ch + n, s.hbmRead (p.base + p.head % p.slots * 1088) 32)

/-- The tags under which a chunk is scored: those of its tokens that fall in the block of its sequence. The manual names no tags; LAST is
that of the last token of a FINAL chunk. [DESIGN CHOICE, log 66] -/
def chunkTags (s : State) (ch : Nat) (b : Bytes) : List Bytes :=
  let n := field b 12 2
  let blk := (s.pring ch (field b 15 1)).blockOf (field b 0 8)
  ((List.range n).filter fun i => match blk with
    | some x => decide (x.first ≤ field b 8 4 + i ∧ field b 8 4 + i < x.first + x.len)
    | none => true).map fun i => tagBytes (field b 0 8) (field b 8 4 + i) (field b 15 1) (bitOf (field b 14 1) 1 && i + 1 == n)

/-- The tags of a serving model's rows on a channel: those of the step's requests whose rings are on it (R286). -/
def planTags (s : State) (m ch : Nat) : List Bytes :=
  let x := s.srvModel m
  if !mPrism x.block || mSide x.block ≠ 0 then []
  else (x.plan.filter fun p => p.row && (s.srvEntry p.ix).pring / 16 == ch).map fun p =>
    let e := s.srvEntry p.ix
    tagBytes e.seqId (p.first + p.count) (e.pring % 16) (p.first + p.count + 1 == e.maxLen)

/-- The batch rows of a sweep that a T-die handles: T is a multiple of the T-dies in service (R265). -/
def State.dieRows (s : State) (w : Sweep) (die : Nat) : List Nat :=
  (List.range w.rows).filter fun r => w.rows % max 1 s.tdies.length == 0 && s.rowDie w.rows r == die

/-- The tags, in row order, that the steps of a sweep may use on a channel: offline those of the job's row-tag table for the rows of its
T-die, on-policy those of the chunk, and for a serving model those of the step's requests (R285–R287). -/
def State.sweepTags (s : State) (w : Sweep) (ch : Nat) : List Bytes :=
  match w.model, w.job.bind s.job with
  | some m, _ => planTags s m ch
  | none, some j =>
    if j.mode = 0 then (s.dieRows w (ch / 2)).map fun r => s.hbmRead (j.rowTags + 16 * r) 16
    else if j.mode = 2 then
      (match s.headChunk (w.job.getD 0) ch with | some c => chunkTags s ch c.2 | none => [])
    else []
  | none, none => []

/-- TEMP of the records of a channel: that of the job whose ring the first tag names. -/
def State.softTemp (s : State) (ch : Nat) (tags : List Bytes) : Nat :=
  match tags with
  | b :: _ => ((s.job (s.pring ch (field b 12 1)).job).map (·.temp)).getD 0
  | [] => 0

/-- The PRISM_ROWS of a step, as (first batch row, channel, rows), are those the step must issue: offline one for each channel, whose runs
follow one another over the whole batch, each on its T-die (R265, R285); on-policy that of one chunk; for a serving model one for each
channel that its requests name. A step of a job that is not RUNNING may issue none. [DEDUCED, log 66] -/
def State.softCovers (s : State) (w : Sweep) (xs : List (Nat × Nat × Nat)) : Bool :=
  let runs := (List.range (xs.length + 1)).map fun i => ((xs.take i).map fun x => x.2.2).sum
  decide (xs.map (·.2.1)).Nodup &&
  (match w.model, w.job.bind s.job with
  | some m, _ => (List.range 8).all fun ch => (planTags s m ch).isEmpty || xs.any fun x => x.2.1 == ch
  | none, some j =>
    if j.mode = 0 then (decide (j.st ≠ 1) && xs.isEmpty) || (xs.map (·.1) ++ [w.rows] == runs)
    else if j.mode = 2 then decide (xs.length ≤ 1) else xs.isEmpty
  | none, none => xs.isEmpty)

/-- One PRISM_ROWS of a SOFT_TARGET step: firmware writes the tag list, and the descriptor names the Lens of the channel, the job's TEMP, and
RESERVE offline alone (R265, R285–R287). `tags` are the tags of the list, which offline firmware takes from the row-tag table. -/
def softRows (w : Sweep) (first : Nat) (tags : Bytes) (x : FwIssue) (s : State) : Option State :=
  let n := field x.desc 10 2
  let a := field x.desc 16 8
  let off := w.model.isNone && ((w.job.bind s.job).map (·.mode)) == some 0
  let cand := s.sweepTags w x.inst
  let use := if off then (cand.drop (first - (s.dieRows w (x.inst / 2)).headD 0)).take n else cand
  if dOp x.desc ≠ 0x10 || n = 0 || use.length ≠ n || field x.desc 12 4 ≠ s.softTemp x.inst use || !s.owns 0 a (16 * n)
      || field x.desc 8 1 ≠ x.inst % 2 || bitOf (field x.desc 9 1) 0 ≠ off || (!off && fitTo (16 * n) tags ≠ use.flatten)
      || (off && !(List.range n).all fun i => (s.dieRows w (x.inst / 2)).contains (first + i)) then none
  else
    let ix := (s.ring x.ring).tail
    (fwPost Config.tPrism x (hbmWrite a use.flatten s)).map
      (updSweep w.id fun v => { v with soft := v.soft ++ [{ ring := x.ring, index := ix, chan := x.inst, addr := a, rows := n }]
                                       scored := if off then v.scored else (s.headChunk (w.job.getD 0) x.inst).map (·.1) })

/-- The PRISM_ROWS of a step, in order. -/
def softAll (w : Sweep) : List (Nat × Bytes × FwIssue) → State → Option State
  | [], s => some s
  | x :: xs, s => match softRows w x.1 x.2.1 x.2.2 s with | none => none | some s => softAll w xs s

/-- A descriptor that firmware issued at a ring index has completed. -/
def State.fwDone (s : State) (ring ix : Nat) : Bool :=
  let r := s.ring ring
  r.cur.all (fun c => c.index != ix) && decide ((r.tail + 2 * r.slots - r.head) % (2 * r.slots) ≤ (ix + 2 * r.slots - r.head) % (2 * r.slots))

/-- Rows of a posted PRISM_ROWS that its Lens may hand over: all while its list is in force, none where it has failed. -/
def State.softRowsOf (s : State) (l : SoftList) : Nat :=
  if (s.chan l.chan).lists.any (fun t => t.addr == l.addr && t.rows == l.rows) then l.rows else 0

/-- SOFT_TARGET (R265, R275, R285–R287): the step issues its PRISM_ROWS; once they have completed it issues its LENS_TOPK tasks over the
logits rows, each Lens with its own channel as destination and as many rows as its list has, and is done. A step with no rows to send is
done at once. [DEDUCED, log 66] -/
def execFwdSoftTarget (sweep : Nat) (rows : List (Nat × List Byte × FwIssue)) (lens : List FwIssue) (s : State) :
    Host.Outcome State Fault Refusal :=
  match s.stepOf sweep 5 with
  | none => .next s
  | some (w, _, _) =>
    if w.soft.isEmpty then
      if !lens.isEmpty || !s.softCovers w (rows.map fun x => (x.1, x.2.2.inst, field x.2.2.desc 10 2)) then .next s
      else if rows.isEmpty then .next (nextStep sweep s)
      else .next ((softAll w rows s).getD s)
    else
      let topk (x : FwIssue) : Bool := dOp x.desc == 0x10 && bits (field x.desc 9 1) 6 2 == 2 && field x.desc 14 2 == x.inst
      let asked (i : Nat) : Nat := ((lens.filter fun x => x.inst == i).map fun x => lRows x.desc).sum
      let due (i : Nat) : Nat := ((w.soft.filter fun l => l.chan == i).map s.softRowsOf).sum
      if !rows.isEmpty || !lens.all topk || !(w.soft.all fun l => s.fwDone l.ring l.index)
          || !(List.range 8).all (fun i => asked i == due i) then .next s
      else match fwPostAll Config.tLens lens s with
        | none => .next s
        | some s => .next (nextStep sweep (updSweep sweep (fun v => { v with soft := [] }) s))

/-- The tag list of a PRISM_TAP holds a run of the tags that the sweep has on the channel (R285). -/
def State.tapTags (s : State) (w : Sweep) (x : FwIssue) : Bool :=
  let n := field x.desc 12 2
  let cand := s.sweepTags w x.inst
  (List.range (cand.length + 1)).any fun i => (cand.drop i).length ≥ n && s.hbmRead (field x.desc 24 8) (16 * n) == ((cand.drop i).take n).flatten

/-- TAP (R280, R285): PRISM_TAP of one hidden state on the channels, with the tags that SOFT_TARGET has. -/
def execFwdTap (sweep : Nat) (xs : List FwIssue) (s : State) : Host.Outcome State Fault Refusal :=
  match s.stepOf sweep 6 with
  | none => .next s
  | some (w, _, _) =>
    if !xs.all (fun x => dOp x.desc == 0x11 && s.tapTags w x) then .next s
    else match fwPostAll Config.tPrism xs s with
      | none => .next s
      | some s => .next (nextStep sweep s)

/-- The open repeat begins again, if it has repeats left. -/
def Sweep.again (w : Sweep) : Option Sweep := if w.reps = 0 then none else some { w with step := w.repAt, reps := w.reps - 1 }

/-- The steps of a REPEAT that stands at step `i`, up to the next REPEAT or END. -/
def State.repBody (s : State) (g : Image) (i : Nat) : List Bytes :=
  (((List.range (s.imgSteps g)).drop (i + 1)).map (s.progStep g)).takeWhile fun b => field b 0 1 != 7 && field b 0 1 != 8
/-- The steps are those of the thin path: one of them is a TE_THIN_PASS. [DEDUCED, log 66] -/
def thinBody (bs : List Bytes) : Bool := bs.any fun b => field b 0 1 == 2 && dOp (stepDesc b) == 0x13

/-- REPEAT: the steps that follow, up to the next REPEAT or END, run ⌈T / 512⌉ times, or once per 8 rows on the thin path. The program
selects the path, so a `thin` that is not the program's does nothing (R179). [DEDUCED, log 66] -/
def execFwdRepeat (sweep : Nat) (thin : Bool) (s : State) : Host.Outcome State Fault Refusal :=
  match s.stepOf sweep 7 with
  | none => .next s
  | some (w, g, _) =>
    match w.again with
    | some w' => .next (updSweep sweep (fun _ => w') s)
    | none =>
      if thin ≠ thinBody (s.repBody g w.step) then .next s else .next (updSweep sweep (fun w => { w with step := w.step + 1, repAt := w.step + 1, reps := cdiv w.rows (if thin then 8 else 512) - 1 }) s)

/-- A token chunk is consumed: its credit goes back, and after FINAL the block of its sequence ends (R287). -/
def chunkDone (ring : Nat) (s : State) : State :=
  let ch := ring / 16
  let n := ring % 16
  let p := s.pring ch n
  if p.kind ≠ 2 || !s.pringLive ch n || !p.written.contains p.head then s
  else
    let b := s.hbmRead (p.base + p.head % p.slots * 1088) 32
    let s := s.setPring ch n { p with free := p.free + 1, head := (p.head + 1) % (2 * p.slots), written := NSet.del p.head p.written }
    let s := if p.sHere s then s else prismSend ch n 2 1 [] s
    if bitOf (field b 14 1) 1 then endBlock ch (field b 15 1) (field b 0 8) s else s

/-- The sweep has scored the chunk at the head of a token ring: it has no row to send, or its rows were sent by this sweep and none
waits for its Lens or is on its way any more (R287). [DEDUCED, log 66] -/
def State.chunkScored (s : State) (w : Sweep) (ring : Nat) : Bool :=
  let ch := ring / 16
  match s.headChunk (w.job.getD 0) ch with
  | none => false
  | some (k, b) =>
    k == ring && ((chunkTags s ch b).isEmpty || (w.scored == some ring
      && !(s.chan ch).lists.any (fun l => ((s.tagsOf l.addr l.rows).drop l.next).any fun t => t.seq == field b 0 8)
      && !(s.chan ch).flight.any (fun f => f.seq == field b 0 8 && f.ring != ring % 16)))

/-- END (R164, R304): a RUNNING job's sweep begins again with the next batch; a STOPPING job's program ends here, as does the sweep of a
serving step. On-policy, the token chunk whose rows the sweep scored is consumed. [DEDUCED, log 66] -/
def execFwdEnd (sweep : Nat) (token : Option Nat) (s : State) : Host.Outcome State Fault Refusal :=
  match s.stepOf sweep 8 with
  | none => .next s
  | some (w, _, _) =>
    match w.again with
    | some w' => .next (updSweep sweep (fun _ => w') s)
    | none =>
      if !(token.all fun r => s.chunkScored w r) then .next s else
      let s := match token with | some r => chunkDone r s | none => s
      match w.job with
      | none => .next { s with sweeps := s.sweeps.filter fun v => v.id != sweep }
      | some h =>
        match s.job h with
        | none => .next { s with sweeps := s.sweeps.filter fun v => v.id != sweep }
        | some j =>
          if j.st = 1 then .next (updSweep sweep (fun w => Sweep.start w.id w.image w.job w.model w.rows) s)
          else .next (jobStopGo h ({ s with sweeps := s.sweeps.filter fun v => v.id != sweep }.setJob h { j with fwd := false }))

end Sys2Proof.Machine
end

