-- ==== Sys2Proof/Machine/Tasks.lean ====
section
/-! DEFINITION. Sys2Proof/Machine/Tasks.lean: fetching and completing descriptors, and writes of HEAD, with what these do to an
update window (R304, R313, R331, R332, R334, R336). -/

namespace Sys2Proof.Machine
open Sys2Proof

/-- The rings of a stopped job's Update Units do not fetch: once no window is open, and where their context has no student job (R304, R319). -/
def State.updStopped (s : State) (r : Ring) : Bool :=
  r.unitType == Config.tUpdate && (match s.studentJob with
    | some (_, j) => j.ctx != r.ctx || (j.st == 2 && !s.windowOpen) || decide (3 ≤ j.st)
    | none => true)

/-- DESCRIPTOR_FETCH (R332): a consumer unit fetches up to `n` descriptors of a running ring. -/
def execDescriptorFetch (j n : Nat) (s : State) : Host.Outcome State Fault Refusal :=
  let r := s.ring j
  if r.kind ≠ 0 || r.unitType = 0 || s.isFatal || (s.ctx r.ctx).st = 2 || !(r.st = 1 || (r.st = 3 && r.inTask)) || s.updStopped r then .next s
  else .next (windowAfter r.unitType (settleAll j (fetchMore j (min n Config.fetchAhead) s)))

/-- TASK_COMPLETE (R336): the descriptor in progress has finished its work; its record is written, once the unit has room for it (R334). [DESIGN CHOICE, log 46] -/
def execTaskComplete (j : Nat) (s : State) : Host.Outcome State Fault Refusal :=
  match (s.ring j).cur with
  | some c =>
    if c.phase = 1 && !s.isFatal && (!(dCr c.desc || c.force) || s.recRoom (s.ring j)) then
      .next (windowAfter (s.ring j).unitType (completeCur j s))
    else .next s
  | none => .next s

/-- Records that wait for room in a ring are written now (R79, R334). -/
def refill (j : Nat) (s : State) : State :=
  let r := s.ring j
  if r.kind = 2 then (if (s.ctx r.ctx).eventRing = some j then drainEvents r.ctx Config.heldEvents s else s)
  else drainHeld j (r.held.length + 1) s

/-- Rings that name a completion ring with room again: what their units held back for want of it goes on (R334). -/
def settleNamed (j : Nat) (s : State) : State :=
  (s.rings.filter fun r => r.2.completion == j && r.2.kind == 0 && r.2.unitType != 0).foldl
    (fun s r => windowAfter r.2.unitType (settleAll r.1 s)) s

/-- RING_HEAD_WRITE (R331): software frees slots; records held for the ring follow. -/
def execRingHeadWrite (ring value : Nat) (s : State) : Host.Outcome State Fault Refusal :=
  let r := s.ring ring
  let v := value % 2 ^ 32
  if r.st = 0 || s.isFatal || !r.headRw then .next s
  else if r.headValid v then
    .next (settleNamed ring (refill ring (s.setRing ring { r with
      head := v, done := if r.kind < 2 then (r.done + (v + 2 * r.slots - r.head) % (2 * r.slots)) % 2 ^ 32 else r.done })))
  else .next (s.setRing ring { r with badWrite := true })

end Sys2Proof.Machine
end

