-- ==== Sys2Proof/Machine/Mailbox.lean ====
section
/-! DEFINITION. Sys2Proof/Machine/Mailbox.lean: the list of SCI commands by opcode, writes of Aperture registers, final records of PENDING
commands, merged error records, MCTP, and what time brings (R12, R70, R73, R78, R82, R551, R575). -/

namespace Sys2Proof.Machine
open Sys2Proof

/-! ### The commands of R82 -/

/-- Every command of SCI revision 1, in the order of R82. -/
def commands : List CmdSpec :=
  [specSysNop, specSysEcho, specSysInfo, specSysTime, specSysEventRing, specSysReset]
  ++ [specCfgBegin, specCfgSet, specCfgCommit, specCfgRollback, specCfgQuery]
  ++ [specCtxCreate, specCtxDestroy, specCtxSetQuota, specCtxQuery, specCtxAssignMailbox, specCtxReleaseMailbox, specCtxReset, specCtxAgentLoad
    , specCtxAgentStart, specCtxAgentStop, specCtxAgentUnload]
  ++ [specMemAlloc, specMemFree, specMemMapHost, specMemUnmapHost, specMemCopy, specMemQuery]
  ++ [specRingCreate, specRingDestroy, specRingDrain, specRingQuery]
  ++ [specImgOpen, specImgWrite, specImgClose, specImgActivate, specImgDelete, specImgQuery]
  ++ [specJobCreate, specJobStart, specJobStop, specJobQuery, specJobLedgerRead]
  ++ [specSrvQueueCreate, specSrvQueueWeight, specSrvSubmit, specSrvCancel, specSrvPause, specSrvResume, specSrvPrefixCreate, specSrvPrefixRelease
    , specSrvSamplerSet]
  ++ [specMirCkpt, specMirRestore, specMirSnapshot, specMirSpare, specMirTakeover, specMirLogQuery]
  ++ [specPodJoin, specPodGroupCreate, specPodBarrier, specPodReset, specBeamRouteQuery, specBeamPortQuery]
  ++ [specLoupeSensors, specLoupeLedger, specLoupeLogRead, specLoupePowerCap, specLoupeFwStage, specLoupeFwActivate]
  ++ [specSecCerts, specSecMeasurements, specSecCtxKeyRoll, specSecDebugState]

/-- The command of an opcode. [DESIGN CHOICE, log 18] -/
def specOf (op : Nat) : Option CmdSpec := commands.find? fun k => k.opcode == op

/-! ### Writes (R11, R12) -/

/-- The state that a row of its own leaves. -/
def nextOf (o : Host.Outcome State Fault Refusal) (s : State) : State := match o with | .next t => t | _ => s

/-- A register write as 64 bits: the value in its place, and the mask of the bits that the access reaches. [DESIGN CHOICE, log 18] -/
def placed (off size value : Nat) : Nat × Nat :=
  if size = 8 then (value % 2 ^ 64, 2 ^ 64 - 1) else (value % 2 ^ 32 * 2 ^ (8 * (off % 8)), (2 ^ 32 - 1) * 2 ^ (8 * (off % 8)))

/-- GO runs the request that stands in the request buffer (R70). [DESIGN CHOICE, log 18] -/
def writeGo (m : Nat) (s : State) : State :=
  let (op, q) := parseReq m (s.mb m).req
  goWrite (specOf op) op q s

/-- A mailbox's registers and request buffer; the response buffer takes no write. -/
def writeMb (m off size value : Nat) (s : State) : State :=
  let b := s.mb m
  let (v, mask) := placed off size value
  if off ≥ 0x80 then
    if off ≥ 0x880 || b.st = 1 then s
    else s.setMb m { b with req := splice (fitTo 2048 b.req) (off - 0x80) (leBytes size value) }
  else match off / 8 * 8 with
    | 0x00 => if bitOf v 0 then writeGo m s else s
    | 0x10 => s.setMb m { b with done := b.done && !bitOf v 0, overrun := b.overrun && !bitOf v 1, aborted := b.aborted && !bitOf v 2 }
    | 0x18 => if bitOf mask 0 then s.setMb m { b with irqEn := bitOf v 0, vector := bits v 16 11 } else s
    | _ => s

/-- A ring's registers. -/
def writeRing (j off size value : Nat) (s : State) : State :=
  let (v, mask) := placed off size value
  if !bitOf mask 0 then s
  else match off / 8 * 8 with
    | 0x00 => nextOf (execRingTailWrite j v s) s
    | 0x08 => nextOf (execRingHeadWrite j v s) s
    | 0x10 => if bitOf v 3 then s.setRing j { s.ring j with badWrite := false } else s
    | 0x18 =>
      let s := if bitOf v 0 then nextOf (execRingCtrlRestart j s) s else s
      if bitOf v 1 then nextOf (execRingCtrlArm j s) s else s
    | _ => s

/-- Bits of an error register go; what is recorded of the first error goes with the bit, or with the last bit, that it belongs to. [DEDUCED, log 24] -/
def clearErr (ty inst v : Nat) (s : State) : State :=
  let u := s.unit ty inst
  let e := rw1c u.err v
  let gone := if ty = Config.tStore || ty = Config.tHbm then bitOf u.err 0 && !bitOf e 0 else decide (e = 0)
  let u := { u with err := e }
  let s := s.setUnit ty inst (if gone then { u with errRing := 0, errIndex := 0, errReason := 0, last := if ty = Config.tNet || ty = Config.tServing then 0 else u.last } else u)
  if ty = Config.tMirror && gone then { s with mirror := { s.mirror with eJob := 0, eDev := 0, eAttempt := 0 } } else s

/-- A unit's block: its error register and TAKE are all that a write acts on. -/
def writeUnit (ty inst off size value : Nat) (s : State) : State :=
  let (v, mask) := placed off size value
  let r := off / 8 * 8
  if r = errAt ty then clearErr ty inst v s
  else if r = (snapAt ty).1 && bitOf mask 0 && bitOf v 0 then nextOf (execSnapTake ty inst s) s
  else s

/-- REGISTER_WRITE (R12, R13): an access that R11 accepts acts on each field by its access code. In the FATAL state only the mailboxes
take writes (R578). -/
def execRegisterWrite (blk : Block) (off size value : Nat) (s : State) : Host.Outcome State Fault Refusal :=
  if !s.sys.valid || !sizeOk blk off size || s.disabled blk then .next s
  else match blk with
    | .mailbox m => if m < Config.mailboxes + 4 then .next (writeMb m off size value s) else .next s
    | .ring j => if s.isFatal then .next s else .next (writeRing j off size value s)
    | .unit ty inst => if s.isFatal then .next s else .next (writeUnit ty inst off size value s)
    | .facet => .next s
    | .cfg => .next s

/-- MAILBOX_OVERRUN (R70): GO is written while the mailbox is BUSY. -/
def execMailboxOverrun (mb : Nat) (s : State) : Host.Outcome State Fault Refusal :=
  if s.reachMb mb && (s.mb mb).st = 1 then .next (s.setMb mb { s.mb mb with overrun := true }) else .next s

/-! ### Agent cores (R98) -/

/-- An agent may reach `n` bytes of a place: its image and data window, the registers of the rings of its context, its private mailbox, and
its timer. -/
def State.agentReach (s : State) (g : Nat) (place : AgentPlace) (n : Nat) : Bool :=
  let a := s.agent g
  match place with
  | .image off => decide (0 < n ∧ off + n ≤ a.image.length)
  | .data off => decide (0 < n ∧ off + n ≤ a.len)
  | .ring j off => (s.ring j).st != 0 && (s.ring j).ctx == a.ctx && sizeOk (.ring j) off n
  | .mailbox off => sizeOk (.mailbox (Config.mailboxes + g)) off n
  | .timer => n == 8
  | .other => false

/-- What an agent core may do without being stopped; instructions come from its image and its data window. -/
def State.agentMay (s : State) (g : Nat) : AgentAct → Bool
  | .illegal => false
  | .fetch (.image off) n => s.agentReach g (.image off) n
  | .fetch (.data off) n => s.agentReach g (.data off) n
  | .fetch _ _ => false
  | .load p n => s.agentReach g p n
  | .store p bs => s.agentReach g p bs.length

/-- What a load of an agent core returns: the timer counts timebase ticks. -/
def State.agentLoad (s : State) (g : Nat) (place : AgentPlace) (n : Nat) : Nat :=
  match place with
  | .image off => field (s.agent g).image off n
  | .data off => leNat (s.hbmRead ((s.agent g).base + off) n)
  | .ring j off => s.regRead (.ring j) off n
  | .mailbox off => s.regRead (.mailbox (Config.mailboxes + g)) off n
  | .timer => s.now % 2 ^ 64
  | .other => 0

/-- A permitted act of an agent core has its effect; what a load returns is kept as the last value read. -/
def agentDo (g : Nat) (act : AgentAct) (s : State) : State :=
  match act with
  | .load p n => { s with sys := { s.sys with rdata := s.agentLoad g p n } }
  | .store (.image off) bs => s.setAgent g { s.agent g with image := splice (s.agent g).image off bs }
  | .store (.data off) bs => hbmWrite ((s.agent g).base + off) bs s
  | .store (.ring j off) bs => writeRing j off bs.length (leNat bs) s
  | .store (.mailbox off) bs => writeMb (Config.mailboxes + g) off bs.length (leNat bs) s
  | _ => s

/-- AGENT_FAULT (R98): an access outside what the agent may reach, or an illegal instruction, stops it, and a unit notification goes to its
context. An access within its rights has its effect. [DEDUCED, log 30] -/
def execAgentFault (agent : Nat) (act : AgentAct) (s : State) : Host.Outcome State Fault Refusal :=
  let a := s.agent agent
  if a.st ≠ 2 || agent ≥ 4 || s.isFatal then .next s
  else if s.agentMay agent act then .next (agentDo agent act s)
  else
    .next (deliverEvent a.ctx (eventRecord 0xFFFF (if act = .illegal then eBadArgument else ePermission) 0 2 0 0 s.now [] 0)
      (s.setAgent agent { a with st := 1 }))

/-! ### COMMAND_EVENT_RECORD (R78, R79) -/

/-- Commands that firmware may finish after their mailbox, and that no row of their own ends: opcode, and the payload's OP where one opcode
holds several commands. [DEDUCED, log 17, 28] -/
def lateCommand (op : Nat) (p : Bytes) : Bool :=
  [0x0207, 0x0801, 0x0902, 0x0903].contains op || (op == 0x0804 && field p 0 1 == 1)

/-- A PENDING command finishes: its rule is applied as the state stands now, and its final record is written. [DEDUCED, log 17, 28] -/
def execCommandEventRecord (ctx handle : Nat) (s : State) : Host.Outcome State Fault Refusal :=
  match s.ops.find? (fun o => o.ctx == ctx && o.handle == handle) with
  | none => .next s
  | some o =>
    if !s.running || s.isFatal || (s.ctx ctx).st = 2 then .next s
    else if o.opcode = 0x0304 then .next (memCopyFinish o s)
    else if !lateCommand o.opcode o.payload then .next s
    else match specOf o.opcode with
      | none => .next s
      | some k =>
        let i : Iss := { mb := o.mailbox, ctx, tag := o.tag, seq := o.seq, opcode := o.opcode, defer := false, handle }
        match k.run i o.payload s with
        | .ok r t => .next (finishOp ctx handle 0 0 r t)
        | .fail st d => .next (finishOp ctx handle st d [] s)
        | .failWith st d t => .next (finishOp ctx handle st d [] t)
        | .pend _ => .next s
        | .hold _ => .next s

/-! ### ERROR_RECORD_INTERVAL (R575) -/

/-- The merge intervals of a context end 1 ms after they opened: one with merged occurrences delivers its record, which opens the next.
[DESIGN CHOICE, log 25] -/
def execErrorRecordInterval (ctx : Nat) (s : State) : Host.Outcome State Fault Refusal :=
  let mine := s.log.slots.filter fun x => x.ctx == ctx
  if mine.isEmpty then .next s
  else
    let s := atLeast (s.now + Config.ms) s
    let slots := s.log.slots.filterMap fun x =>
      if x.ctx ≠ ctx then some x else if x.count = 0 then none else some { x with count := 0, bytes := [] }
    let s := { s with log := { s.log with slots } }
    .next ((mine.filter fun x => x.count != 0).foldl (fun s x => deliverEvent ctx x.bytes s) s)

/-! ### MCTP (R551) -/

/-- A control message of the MCTP base specification: Set and Get Endpoint ID, Get MCTP Version Support, Get Message Type Support; any other
is answered with ERROR_UNSUPPORTED_CMD. A field of the standard keeps its byte order: the version entry is sent most significant byte first
(R10). [PRESUMED, log 26] -/
def mctpControl (t op : Nat) (p : Bytes) (s : State) : State :=
  let answer (cc : Nat) (bs : Bytes) (s : State) : State := mctpSend t (leBytes 1 0 ++ leBytes 1 0 ++ leBytes 1 op ++ leBytes 1 cc ++ bs) s
  match op with
  | 1 =>
    let e := field p 1 1
    if e = 0 || e = 255 then answer 2 [] s
    else answer 0 (leBytes 1 0 ++ leBytes 1 e ++ leBytes 1 0) { s with sec := { s.sec with eid := SMap.set 0 s.sec.eid t e } }
  | 2 => answer 0 (leBytes 1 (SMap.get 0 s.sec.eid t) ++ leBytes 1 0 ++ leBytes 1 0) s
  | 4 => answer 0 (leBytes 1 1 ++ [0xF1, 0xF3, 0xF1, 0x00]) s
  | 5 => answer 0 (leBytes 1 3 ++ leBytes 1 0x00 ++ leBytes 1 0x05 ++ leBytes 1 0x7E) s
  | _ => answer 5 [] s

/-- Opcodes permitted over MCTP; with the logic dies off, those that Loupe answers alone. -/
def mctpOk (op : Nat) : Bool := op == 0x0002 || op == 0x0005 || op / 256 == 0x0A
def mctpAlone (op : Nat) : Bool := op == 0x0A00 || op == 0x0A02

/-- An SCI request over MCTP: context 0, no INDIRECT, a SEQUENCE of its own on each transport. [PRESUMED, log 26] -/
def mctpRequest (t op : Nat) (q : Request) (s : State) : State :=
  let m := Config.mailboxes + 4 + t
  let b := s.mb m
  let q := { q with mailbox := m }
  if b.st = 1 then s
  else
    let s :=
      if q.sequence ≠ b.expect then mbComplete m op q eSequence (b.expect % 2 ^ 32) 0 0 [] (s.setMb m { b with st := 1, resp := [] })
      else
        let s := s.setMb m { b with st := 1, tag := q.tag, expect := (b.expect + 1) % 2 ^ 64, resp := [], req := reqHeader op q ++ q.payload }
        if q.context ≠ 0 then mbComplete m op q eContext 0 0 0 [] s
        else if !s.diesOn && !mctpAlone op then mbComplete m op q eState 0 0 0 [] s
        else if !mctpOk op then mbComplete m op q ePermission 0 0 0 [] s
        else if bitOf q.flags 0 then mbComplete m op q eBadFlags q.flags 0 0 [] s
        else runAccepted (specOf op) op q s
    if (s.mb m).st = 2 then mctpSend t (s.mb m).resp s else s

/-- MCTP_CONTROL_MESSAGE (R551): an MCTP control message (`kind` 0, command `op`, its data as the payload), or an SCI request of Diboelm's
vendor-defined message type (`kind` 1), over I3C (1) or SMBus (2). [PRESUMED, log 26] -/
def execMctpControlMessage (transport kind op : Nat) (q : Request) (s : State) : Host.Outcome State Fault Refusal :=
  if !s.sys.vaux || transport = 0 || transport > 2 then .next s
  else if kind = 0 then .next (mctpControl transport op q.payload s)
  else if kind = 1 then .next (mctpRequest transport op q s)
  else .next s

/-! ### Time -/

/-- A request that waited under ORDERED starts once every command it waits for has completed (R73). [DESIGN CHOICE, log 1; DEDUCED, log 21] -/
def startWaiting (m : Nat) (s : State) : State :=
  match (s.mb m).waiting with
  | some (op, q, l) =>
    if l.any s.running? || (m < Config.mailboxes && !s.host.up) then s
    else
      let s := s.setMb m { s.mb m with waiting := none }
      mctpReply m (runWaited (specOf op) op q s)
  | none => s

/-- Errors that the part suffers by itself and that no row brings: a free value says whether this tick a core corrects an SRAM error (R126,
R158, R210), meets an uncorrectable one, which marks its word (R126), a spine or Prism link retries a corrected transfer (R26), the host link
replays a flit (R488, R502), or a Network Port receives a codeword that its FEC corrects or cannot correct (R503, R504).
[DESIGN CHOICE, log 81] -/
def upset (s : State) : State :=
  let (v, s) := s.fresh
  let n := v / 8
  match v % 8 with
  | 1 => if n % 48 < 32 then bump Config.tTeacher (n % 48) 9 1 s else bump Config.tStudent (n % 48 - 32) 6 1 s
  | 2 => sramUpset (n % 48) (n / 48 % sramBytes (n % 48)) s
  | 3 => { s with sys := { s.sys with linkRetries := SMap.upd 0 s.sys.linkRetries (n % 22) (fun k => satAdd 64 k 1) } }
  | 4 => if s.host.up then hpErr 0 0 0 (bump Config.tHost 0 8 1 s) else s
  | 5 => if (s.nport (n % 2)).link = 2 then npCnt (n % 2) 4 1 s else s
  | 6 => if (s.nport (n % 2)).link = 2 then npErr (n % 2) 1 0 0 0 0 (npCnt (n % 2) 5 1 s) else s
  | _ => s

/-- One tick passes: what an empty queue brings. Nothing happens to logic that is off. [DESIGN CHOICE, log 1, 7, 71] -/
def tick (s : State) : State :=
  let s := (s.mbs.map (·.1)).foldl (fun s m => startWaiting m s) { s with now := s.now + 1 }
  if s.diesOn && !s.isFatal then upset s else s

end Sys2Proof.Machine
end

