-- ==== Sys2Proof/Machine/Peer.lean ====
section
/-! DEFINITION. Sys2Proof/Machine/Peer.lean: what a flit from a peer device brings (R288, R327, R430). -/

namespace Sys2Proof.Machine
open Sys2Proof

/-- A group that contains a peer belongs to a context that owns all the pages of an address range (R327). -/
def State.peerPages (s : State) (src a n : Nat) : Bool :=
  s.groups.any fun g => g.2.members.contains src && g.2.members.contains s.sysIndex && s.owns g.2.ctx a n

/-- A request of a peer's Stream Unit: bytes for an address, or, with bit 63 of the header word, a count of bytes to be read there. The answer
is a RSP message with a status byte, 0 or 1 where the pages are not the group member's, and the bytes read (R327, R347).
[DESIGN CHOICE, log 89] -/
def peerRequest (src w : Nat) (b : Bytes) (s : State) : State :=
  let a := w % 2 ^ 63
  let read := decide (2 ^ 63 ≤ w)
  let n := if read then field b 0 4 else b.length
  let answer (st : Nat) (bs : Bytes) (s : State) : State := sendMsg src 2 0 false (msgBytes a (leBytes 1 st ++ bs)) s
  if !s.peerPages src a n then answer 1 [] s
  else if read then answer (if s.hbmBad a n then 2 else 0) (s.hbmRead a n) (hbmTaken a n s)
  else answer 0 [] (hbmWrite a b s)

/-- What a MGMT message of a peer asks is done: a member leaves its group (R567), this device resets (R446), a group is reset or a rank of it
taken over (R446, R468), a spare is made known, or a takeover begins on this one (R454). -/
def peerManage (src w : Nat) (b : Bytes) (s : State) : State :=
  let mine := (s.groups.filter fun g => g.2.key == field b 0 8).map (·.1)
  if w = mgLeave then mine.foldl (fun s g => groupBreak g src s) s
  else if w = mgReset then { s with sys := { s.sys with sysReset := some (s.sys.sysReset.getD 0) } }
  else if w = mgGroup then mine.foldl (fun s g => if (s.group g).members.contains src then groupReset g s else s) s
  else if w = mgSpare then
    let rest := s.mirror.spares.filter fun x => x.1 != src
    let l := if field b 8 1 = 1 then rest ++ [(src, field b 0 8, field b 9 1 == 1,
      (List.range ((b.length - 10) / 2)).map fun k => field b (10 + 2 * k) 2)] else rest
    { s with mirror := { s.mirror with spares := l } }
  else if w = mgTake then takeoverAuto (field b 0 8) (field b 8 2) s
  else if w = mgRank then
    mine.foldl (fun s g => if (s.group g).members.contains s.sysIndex then
      s.updGroup g fun x => { x with members := x.members.set (field b 8 2) src, st := 4 } else s) s
  else s

/-- A message has come whole: MGMT messages, page checks, Prism's and what Mirror holds for a peer have their effect, and the others wait for the
engine that expects them. -/
def deliver (cls src : Nat) (m : Bytes) (s : State) : State :=
  if cls = 0 then peerManage src (msgWord m) (msgData m) s
  else if cls = 5 then prismPeer src (msgWord m) (msgData m) s
  else if cls = 3 then peerRequest src (msgWord m) (msgData m) s
  else if cls = 4 && s.mirror.resv.any fun r => r.dev == src then
    { s with mirror := { s.mirror with
      resv := s.mirror.resv.map fun r => if r.dev = src then { r with got := r.got ++ [(msgWord m, msgData m)] } else r } }
  else { s with beam := { s.beam with inbox := s.beam.inbox ++ [(cls, src, m)] } }

/-- A protected message that fails is logged; it is handled as a segment that the peer refuses, and a collective of the group that meets one ends
(R519). -/
def rejected (p cls src : Nat) (msg : Bytes) (s : State) : State :=
  let s := logPush 0x50 (Config.dieOf Config.tPort p) (leBytes 2 src ++ leBytes 1 cls) s
  if cls = 3 then sendMsg src 2 0 false (msgBytes 0 [1]) s
  else if cls = 4 then groupAbort (Config.gcmParts msg).1 0x2901 2 0xFFFF s
  else s

/-- An accepted flit is delivered here or goes on toward its destination; of CONTROL flits, one with two payload bytes is a REPLAY_REQ.
[DEDUCED, log 60] -/
def flitAccept (p : Nat) (f : Bytes) (s : State) : State :=
  let len := field f 13 1 + 1
  if flitKind f = 2 then (if len = 2 then portReplay p s else s)
  else
    let s := bump Config.tPort p 3 len s
    let s := if bitOf (field f 12 1) 2 then s.updPort p fun x => { x with enc := true } else s
    let freed (s : State) : State := s.updPort p fun x => { x with owed := SMap.upd 0 x.owed (flitBuf f) (· + 1) }
    if flitDest f = s.sysIndex then
      let k := flitFlow f
      let msg := (if flitSop f then [] else SMap.get [] s.beam.parts k) ++ (f.drop 16).take len
      let s := { freed s with beam := { (freed s).beam with parts := SMap.set [] s.beam.parts k (if flitEop f then [] else msg) } }
      if !flitEop f then s
      else if !bitOf (field f 12 1) 2 then deliver (flitClass f) (flitSrc f) msg s
      else match openPeer (flitSrc f) (flitClass f) (flitStream f) msg s with
        | (some m, s) => deliver (flitClass f) (flitSrc f) m s
        | (none, s) => rejected p (flitClass f) (flitSrc f) msg s
    else if flitHop f ≥ 3 then freed s
    else sendToward (p + 1) (splice f 1 (leBytes 1 (flitClass f + 16 * (flitHop f + 1)))) s

/-- A port that has no numbered flit to send tells a changed ACK with a NULL flit (R429). -/
def tellAck (p : Nat) (s : State) : State :=
  if (s.port p).st = 3 && (s.port p).ackSent != (s.port p).rxExpect then sendNull p s else s

/-- BEAM_FLIT_RECEIVE (R430). A reserved KIND is taken as a NULL flit. [DEDUCED, log 60] -/
def execBeamFlitReceive (port : Nat) (flit : List Byte) (s : State) : Host.Outcome State Fault Refusal :=
  if (s.port port).st ≠ 3 || !s.beamOn port then .next s
  else if !flitOk flit then .next (portErr port 0 (bump Config.tPort port 4 1 s))
  else
    let s := bump Config.tPort port 1 1 s
    match takeAck (s.port port) (field flit 4 2) s.now with
    | none => .next (portDown port (portErr port 7 s))
    | some x =>
      let s := portGo port (s.setPort port (takeCredit x flit))
      let x := s.port port
      if flitKind flit ≠ 1 && flitKind flit ≠ 2 then .next s
      else
        let seq := field flit 2 2
        if seq = x.rxExpect then
          .next (tellAck port (flitAccept port flit (s.setPort port { x with rxExpect := (seq + 1) % 65536, asked := false })))
        else if (x.rxExpect + 65536 - seq) % 65536 ≤ 8192 then .next (bump Config.tPort port 5 1 s)
        else
          let s := bump Config.tPort port 6 1 s
          if x.asked || x.unacked.length ≥ replayFlits then .next s
          else .next (sendNumbered port (fitTo 252 ([2] ++ zeros 12 ++ leBytes 1 1 ++ zeros 2 ++ leBytes 2 x.rxExpect))
            (s.setPort port { x with asked := true }))

end Sys2Proof.Machine
end

