-- ==== Sys2Proof/Machine/Scaler.lean ====
section
/-! DEFINITION. Sys2Proof/Machine/Scaler.lean: SCL_QUANT and SCL_AMAX (R212–R233). -/

namespace Sys2Proof.Machine
open Sys2Proof

/-! ### Statistics and codes (R216–R219, R222) -/

/-- amax of a list of fp32 patterns: the largest finite magnitude. -/
def amaxOf (xs : List Nat) : Nat := xs.foldl (fun a x => if fNonFinite x then a else max a (x % 2 ^ 31)) 0

/-- x · 2^n, exact. -/
def scaleExp (x : Nat) (n : Int) : FV := FV.mul (ofF32 x) (.fin false 1 n)

/-- Exponent of 7 in FMAX: 448 = 7 · 2^6, 57,344 = 7 · 2^13. -/
def fmaxExp (fmt : Nat) : Int := if fmt = 3 then 6 else 13
/-- The smallest n with a ≤ FMAX · 2^n, for finite a > 0. -/
def needExp (fmt a : Nat) : Int :=
  match ofF32 a with
  | .fin _ m e =>
    let l : Int := (Nat.log2 m : Int) + e
    if 4 * m ≤ 7 * 2 ^ Nat.log2 m then l - 2 - fmaxExp fmt else l - 1 - fmaxExp fmt
  | _ => 0

/-- The code of a group in GROUP mode, and of a row in LIVE mode. -/
def groupCode (fmt : Nat) (sigma : Int) (gw a : Nat) : Nat :=
  if a = 0 then (127 + sigma).toNat else (127 + max (sigma - gw) (min sigma (needExp fmt a))).toNat
def liveCode (fmt a : Nat) : Nat := if a = 0 then 127 else min 254 (127 + needExp fmt a).toNat

/-- An element overflows under scale 2^n: |x| · 2^−n reaches 464 or 61,440. -/
def sclOvf (fmt x : Nat) (n : Int) : Bool :=
  !fNonFinite x && (match FV.add (FV.mul (scaleExp (x % 2 ^ 31) (-n)) (.fin false 1 0)) (.fin true (if fmt = 3 then 464 else 61440) 0) with
    | .fin neg _ _ => !neg | _ => false)
/-- An element is flushed: finite, nonzero, and its result is a zero. -/
def sclFlush (fmt x : Nat) (n : Int) : Bool :=
  !fNonFinite x && x % 2 ^ 31 != 0 && narrowV fmt (scaleExp x (-n)) % 128 == 0

/-! ### The slot (R219–R221, R224) -/

/-- A slot record. -/
structure Slot where
  sigma   : Int
  ovf     : Nat
  uf      : Nat
  nf      : Nat
  margin  : Int
  len     : Nat
  pos     : Nat
  gw      : Nat
  limit   : Nat
  uses    : Nat
  hist    : List Nat
deriving DecidableEq, Repr

/-- fp32 pattern of 2^σ, σ from −126 to 127. -/
def sf32 (sigma : Int) : Nat := (sigma + 127).toNat * 2 ^ 23
/-- A signed byte. -/
def byteOf (i : Int) : Nat := (i % 256).toNat

def slotParse (b : Bytes) : Slot :=
  { sigma := (field b 0 4 / 2 ^ 23 : Nat) - 127, ovf := bits (field b 4 1) 0 2, uf := bits (field b 4 1) 2 2
    nf := bits (field b 4 1) 4 1, margin := sext 8 (field b 5 1), len := field b 6 1, pos := field b 7 1
    gw := field b 8 1, limit := field b 10 2, uses := field b 12 4, hist := elems 4 16 (b.drop 16) }

/-- The check of R221. -/
def slotOk (b : Bytes) : Bool :=
  let s := field b 0 4
  let m := sext 8 (field b 5 1)
  s % 2 ^ 23 == 0 && decide (1 ≤ s / 2 ^ 23 ∧ s / 2 ^ 23 ≤ 254)
    && bits (field b 4 1) 0 2 != 3 && bits (field b 4 1) 2 2 != 3 && decide (field b 4 1 < 32)
    && decide (-8 ≤ m ∧ m ≤ 8) && decide (1 ≤ field b 6 1 ∧ field b 6 1 ≤ 16) && decide (field b 7 1 ≤ 15)
    && decide (field b 8 1 ≤ 31) && field b 9 1 == 0
    && (elems 4 16 (b.drop 16)).all (fun h => decide (h < 0x7F800000)) && ((b.drop 108).take 20).all (· == 0)

/-- A slot for a task that has none (R227). -/
def noSlot : Slot :=
  { sigma := 0, ovf := 0, uf := 0, nf := 0, margin := 0, len := 1, pos := 0, gw := 0, limit := 0, uses := 0, hist := [] }

/-- σ for the next use (R219). -/
def sigmaNext (fmt : Nat) (s : Slot) : Int :=
  let ref := maxOf ((List.range s.len).map fun i => nth s.hist ((s.pos + 15 - i) % 16) 0)
  if ref = 0 then s.sigma else clampInt (-126) 127 (needExp fmt ref + s.margin)

/-- The history advances by one amax (R224 step 1 and 2). -/
def slotPush (fmt amax : Nat) (s : Slot) : Slot :=
  let s := { s with hist := s.hist.set s.pos amax, pos := (s.pos + 1) % 16, uses := (s.uses + 1) % 2 ^ 32 }
  { s with sigma := sigmaNext fmt s }

/-- The slot bytes after a task: pushed or not, its totals raised, USED_SCALE where a σ was used. -/
def slotBytes (b : Bytes) (s : Slot) (amax : Option Nat) (ovf flushed nf redo fault : Nat) (used : Option Int) : Bytes :=
  let tot (o n : Nat) : Bytes := leBytes 4 (satAdd 32 (field b o 4) n)
  let b := match amax with
    | some a => splice (splice (splice (splice (splice b 0 (leBytes 4 (sf32 s.sigma))) 7 (leBytes 1 s.pos)) 12 (leBytes 4 s.uses))
        16 (s.hist.flatMap (leBytes 4))) 80 (leBytes 4 a)
    | none => b
  let b := splice b 84 (tot 84 ovf ++ tot 88 flushed ++ tot 92 nf ++ tot 96 redo ++ tot 100 fault)
  match used with | some u => splice b 104 (leBytes 4 (sf32 u)) | none => b

/-! ### Fields (R226) -/

def qMode (d : Bytes) : Nat := field d 8 1 % 4
def qAxis (d : Bytes) : Bool := bitOf (field d 8 1) 2
def qGroup (d : Bytes) : Nat := 32 * 2 ^ bits (field d 8 1) 3 2
def qNoSlot (d : Bytes) : Bool := if dOp d = 0x10 then bitOf (field d 8 1) 5 else bitOf (field d 8 1) 2
def qHold (d : Bytes) : Bool := bitOf (field d 8 1) 6
def qIn (d : Bytes) : Nat := bits (field d 9 1) 0 4
def qOut (d : Bytes) : Nat := bits (field d 9 1) 4 4
def qRows (d : Bytes) : Nat := field d 10 2 + 1
def qCols (d : Bytes) : Nat := field d 12 2 + 1
def qInAt (d : Bytes) (r : Nat) : Nat := 64 * field d 14 3 + r * (64 * field d 26 2)
def qOutAt (d : Bytes) (r : Nat) : Nat := 64 * field d 17 3 + r * (64 * field d 28 2)
def qSlotAt (d : Bytes) : Nat := 64 * field d 23 3
/-- Lanes, and groups of a lane. -/
def qLanes (d : Bytes) : Nat := if qMode d = 0 && qAxis d then qCols d else qRows d
def qGroups (d : Bytes) : Nat :=
  if qMode d = 0 then (if qAxis d then qRows d else qCols d) / qGroup d else 1
def qScaleAt (d : Bytes) (l n : Nat) : Nat := 64 * field d 20 3 + l * field d 30 2 + n * field d 32 2

/-- Ranges of input, output, scales and slot, each from its first to its last byte (R227). -/
def qInRun (d : Bytes) : Nat × Nat := (qInAt d 0, qInAt d (qRows d - 1) - qInAt d 0 + qCols d * fmtBytes (qIn d))
def qOutRuns (d : Bytes) : List (Nat × Nat) :=
  if dOp d = 0x10 then [(qOutAt d 0, qOutAt d (qRows d - 1) - qOutAt d 0 + qCols d)] else []
def qScaleRuns (d : Bytes) : List (Nat × Nat) :=
  if dOp d = 0x10 then
    (if qMode d = 1 then []
     else [(qScaleAt d 0 0, qScaleAt d (qLanes d - 1) (qGroups d - 1) - qScaleAt d 0 0 + 1)])
  else if bitOf (field d 8 1) 1 then [(64 * field d 20 3, (qRows d - 1) * field d 30 2 + 4)] else []
def qSlotRuns (d : Bytes) : List (Nat × Nat) := if qNoSlot d then [] else [(qSlotAt d, 128)]

/-- Field ranges (R226–R228). -/
def qFields (d : Bytes) : Bool :=
  if dOp d = 0x10 then
    qMode d != 3 && bits (field d 8 1) 3 2 != 3 && !(qMode d == 2 && qAxis d) && !(qNoSlot d && qMode d != 2)
      && !(qMode d == 1 && (field d 20 3 != 0 || field d 30 4 != 0))
      && !(qMode d == 0 && (if qAxis d then qRows d else qCols d) % qGroup d != 0)
  else !(qNoSlot d && bitOf (field d 8 1) 0)

/-- Two ranges of the task share a byte. -/
def rangesMeet (l : List (Nat × Nat)) : Bool := selfMeet (l.map fun r => ((r.1 : Int), r.2))

/-- The checks of R146 and R227, but for the slot. -/
def qCheck (core : Nat) (d : Bytes) (s : State) : Option Nat :=
  if !qFields d then some 0x108
  else if !allReadable core (qInRun d :: qSlotRuns d) || !s.allWritable core (qOutRuns d ++ qScaleRuns d ++ qSlotRuns d)
      || rangesMeet (qInRun d :: qOutRuns d ++ qScaleRuns d ++ qSlotRuns d) then some 0x10D
  else none

/-- The input, widened, row by row. -/
def qInput (core : Nat) (d : Bytes) (s : State) : List (List Nat) :=
  (List.range (qRows d)).map fun r => s.sramElems core (qInAt d r) (qIn d) (qCols d)
/-- The tensor lane by lane. -/
def qByLane (d : Bytes) (x : List (List Nat)) : List (List Nat) :=
  if qMode d = 0 && qAxis d then (List.range (qCols d)).map fun c => x.map fun r => nth r c 0 else x

/-- What one pass gives: the scale codes by lane and group, the output rows and the counts of R222. -/
structure QPass where
  codes   : List (List Nat)
  out     : List (List Nat)
  ovf     : Nat
  flushed : Nat
deriving DecidableEq, Repr

/-- One quantisation pass under σ. -/
def qPass (d : Bytes) (x : List (List Nat)) (gw : Nat) (sigma : Int) : QPass :=
  let fmt := qOut d
  let codes := (qByLane d x).map fun lane =>
    if qMode d = 2 then [liveCode fmt (amaxOf lane)]
    else if qMode d = 0 then (groupsOf (qGroup d) (qGroups d) lane).map fun g => groupCode fmt sigma gw (amaxOf g)
    else []
  let ex (r c : Nat) : Int :=
    match qMode d with
    | 0 => (nth (nth codes (if qAxis d then c else r) []) ((if qAxis d then r else c) / qGroup d) 0 : Nat) - 127
    | 1 => sigma
    | _ => (nth (nth codes r []) 0 0 : Nat) - 127
  let cells := (x.zipIdx.map fun xr => xr.1.zipIdx.map fun xc => (xc.1, ex xr.2 xc.2))
  { codes, out := cells.map fun r => r.map fun c => narrowV fmt (scaleExp c.1 (-c.2))
    ovf := (cells.map fun r => (r.filter fun c => sclOvf fmt c.1 c.2).length).sum
    flushed := (cells.map fun r => (r.filter fun c => sclFlush fmt c.1 c.2).length).sum }

/-- Write the outputs and scales of a pass. -/
def qWrite (core : Nat) (d : Bytes) (p : QPass) (s : State) : State :=
  let s := p.out.zipIdx.foldl (fun a r => sramWrite core (qOutAt d r.2) (r.1.flatMap (leBytes 1)) a) s
  p.codes.zipIdx.foldl (fun a l => l.1.zipIdx.foldl (fun a g => sramWrite core (qScaleAt d l.2 g.2) (leBytes 1 g.1) a) a) s
def QPass.bytes (p : QPass) : Nat := (p.out.map List.length).sum + (p.codes.map List.length).sum

/-- UNIT_DETAIL (R233). -/
def sclDetail (reason outcome used next amax ovf flushed nonzero nf : Nat) : Bytes :=
  let f (n : Nat) : Bytes := leBytes 4 (min n (2 ^ 32 - 1))
  leBytes 1 reason ++ leBytes 1 outcome ++ leBytes 1 used ++ leBytes 1 next ++ leBytes 4 amax ++ f ovf ++ f flushed ++ f nonzero ++ f nf

/-- A marked word ends the task before it has an effect (R230): an uncorrectable error or poison. `next` is the σ of its slot, once read.
[DEDUCED, log 51] -/
def sclMarked (j ix : Nat) (d : Bytes) (m : Nat × Nat) (next : Nat) (s : State) : State :=
  let r := s.ring j
  let ue := s.sramUeAt r.unitInst m.1 m.2
  let reason := if ue then 4 else 5
  let s := setErr r.unitType r.unitInst (if ue then 0 else 1) j ix reason (begin j ix d s)
  raise { code := if ue then 1 else 3, status := 0x113, flags := 1, ty := r.unitType, inst := r.unitInst, ctx := r.ctx, ring := j
          index := ix, addr := m.1, space := 4 } (finish j 0x113 0 (sclDetail reason 0 0 next 0 0 0 0 0) s)

/-- The first pass decides (R223): 0 ACCEPT, 1 REDO, else the REASON of a FAULT plus 1. [DEDUCED, log 51] -/
def qDecide (mode : Nat) (redoOn ovf uf nf : Bool) (sl : Slot) (live : Int) : Nat :=
  if ovf && sl.ovf == 2 then 2
  else if uf && sl.uf == 2 then 3
  else if nf && sl.nf == 1 then 4
  else if mode != 2 && redoOn &&
      ((ovf && sl.ovf == 1 && decide (live > sl.sigma)) || (uf && sl.uf == 1 && decide (live < sl.sigma))) then 1
  else 0

/-- SCL_QUANT on checked operands (R222–R224). [DEDUCED, log 51] -/
def quantRun (j ix core : Nat) (d : Bytes) (b : Bytes) (s : State) : State :=
  let r := s.ring j
  let ty := r.unitType
  let inst := r.unitInst
  let sl := if qNoSlot d then noSlot else slotParse b
  let x := qInput core d s
  let flat := x.flatten
  let amax := amaxOf flat
  let nf := (flat.filter fNonFinite).length
  let nonzero := (flat.filter fun v => !fNonFinite v && v % 2 ^ 31 != 0).length
  let p1 := qPass d x sl.gw sl.sigma
  let exceeds (f : Nat) : Bool := if qNoSlot d then f != 0 && Config.noSlotFlush f nonzero else decide (f * 65536 > sl.limit * nonzero)
  let live := if amax = 0 then sl.sigma else clampInt (-126) 127 (needExp (qOut d) amax + sl.margin)
  let ovf := p1.ovf != 0
  let uf := exceeds p1.flushed
  let act := qDecide (qMode d) (s.setting ty inst 1 1 == 1) ovf uf (nf != 0) sl live
  let p := if act = 1 then qPass d x sl.gw live else p1
  let used := if act = 1 then live else sl.sigma
  let s := qWrite core d p (served j (begin j ix d s))
  let sl' := if qHold d then sl else slotPush (qOut d) amax sl
  let s := if qNoSlot d then s
    else sramWrite core (qSlotAt d) (slotBytes b sl' (if qHold d then none else some amax) p.ovf p.flushed nf (b2n (act == 1))
      (b2n (decide (2 ≤ act))) (if qMode d = 2 then none else some used)) s
  let reads := (if qMode d = 2 || (qMode d = 0 && qAxis d) then 2 else 1) * (if act = 1 then 2 else 1)
  let both (f : QPass → Nat) : Nat := if act = 1 then f p1 + f p else f p1
  let s := [(1, 1), (2, reads * flat.length), (3, both QPass.ovf), (4, both QPass.flushed), (5, nonzero), (6, nf),
    (7, (flat.filter fIsNan).length), (8, b2n (act == 1)), (9, b2n (decide (2 ≤ act)))].foldl
      (fun a c => if c.2 = 0 then a else bump ty inst c.1 c.2 a) s
  let outcome := b2n ovf + 2 * b2n uf + 4 * b2n (nf != 0) + 8 * b2n (act == 1)
    + 16 * b2n (act == 1 && exceeds p.flushed) + 32 * b2n (act == 1 && p.ovf != 0)
  let reason := act - 1
  let s := if 2 ≤ act then setErr ty inst 2 j ix reason s else s
  finish j (if 2 ≤ act then 0x113 else 0) p.bytes
    (sclDetail reason outcome (if qMode d = 2 then 0 else byteOf used) (if qNoSlot d then 0 else byteOf sl'.sigma) amax
      p.ovf p.flushed nonzero nf) s

/-- SCL_AMAX on checked operands (R228). [DEDUCED, log 51] -/
def amaxRun (j ix core : Nat) (d : Bytes) (b : Bytes) (s : State) : State :=
  let r := s.ring j
  let sl := if qNoSlot d then noSlot else slotParse b
  let x := qInput core d s
  let flat := x.flatten
  let amax := amaxOf flat
  let nf := (flat.filter fNonFinite).length
  let nonzero := (flat.filter fun v => !fNonFinite v && v % 2 ^ 31 != 0).length
  let rows := bitOf (field d 8 1) 1
  let push := bitOf (field d 8 1) 0
  let s := served j (begin j ix d s)
  let s := if rows then x.zipIdx.foldl (fun a v => sramWrite core (64 * field d 20 3 + v.2 * field d 30 2) (leBytes 4 (amaxOf v.1)) a) s
    else s
  let sl' := if push then slotPush (qOut d) amax sl else sl
  let s := if push then sramWrite core (qSlotAt d) (slotBytes b sl' (some amax) 0 0 nf 0 0 none) s else s
  let s := [(2, flat.length), (5, nonzero), (6, nf), (7, (flat.filter fIsNan).length), (11, 1)].foldl
      (fun a c => if c.2 = 0 then a else bump r.unitType r.unitInst c.1 c.2 a) s
  finish j 0 (if rows then 4 * qRows d else 0)
    (sclDetail 0 (4 * b2n (nf != 0)) 0 (if qNoSlot d then 0 else byteOf sl'.sigma) amax 0 0 nonzero nf) s

/-- A Scaler task at the head of ring `j` is taken up. -/
def sclTask (j op : Nat) (run : Nat → Nat → Nat → Bytes → Bytes → State → State) (s : State) : State :=
  match s.headOf j op with
  | none => s
  | some (ix, d) =>
    let r := s.ring j
    let core := r.unitInst
    if r.unitType ≠ Config.tScaler || !s.mayRun j 1 (s.setting Config.tScaler core 2 0 == 1) (fun _ => true) then s
    else match qCheck core d s with
      | some st => failArg j ix d st s
      | none =>
        match s.firstMarked core (qSlotRuns d) with
        | some m => sclMarked j ix d m 0 s
        | none =>
          let b := s.sramRead core (qSlotAt d) 128
          if !qNoSlot d && !slotOk b then
            failCheck j ix d 0x108 (leBytes 1 9 ++ zeros 23) false (setErr Config.tScaler core 3 j ix 9 s)
          else match s.firstMarked core [qInRun d] with
            | some m => sclMarked j ix d m (if qNoSlot d then 0 else byteOf (slotParse b).sigma) s
            | none => run j ix core d b s

/-- SCL_QUANT (R215, R223, R226): a tensor to fp8 with its scales. -/
def execSclQuant (ring : Nat) (s : State) : Host.Outcome State Fault Refusal := .next (sclTask ring 0x10 quantRun s)
/-- SCL_AMAX (R228): a tensor's amax. -/
def execSclAmax (ring : Nat) (s : State) : Host.Outcome State Fault Refusal := .next (sclTask ring 0x11 amaxRun s)

end Sys2Proof.Machine
end

