-- ==== Sys2Proof/Machine/VecLane.lean ====
section
/-! DEFINITION. Sys2Proof/Machine/VecLane.lean: the lane-wise instructions of a vector program (R194). -/

namespace Sys2Proof.Machine
open Sys2Proof

/-- VLD: strided load, widened exactly. -/
def execVuVld (core : Nat) (f : VecFields) (s : State) : Host.Outcome State Fault Refusal :=
  .next (vecIssue core 0x10 f (vecLoadLanes core f (fun v e l => v.strided f e l)) s)
/-- VST: strided store, narrowed. -/
def execVuVst (core : Nat) (f : VecFields) (s : State) : Host.Outcome State Fault Refusal :=
  .next (vecIssue core 0x11 f (vecStoreLanes core f (fun v e l => v.strided f e l)) s)
/-- VGATHER: indexed load. -/
def execVuVgather (core : Nat) (f : VecFields) (s : State) : Host.Outcome State Fault Refusal :=
  .next (vecIssue core 0x12 f (vecLoadLanes core f (fun v e l => v.indexed f e l)) s)
/-- VSCATTER: indexed store, lanes ascending, so the highest lane of a repeated index is stored. -/
def execVuVscatter (core : Nat) (f : VecFields) (s : State) : Host.Outcome State Fault Refusal :=
  .next (vecIssue core 0x13 f (vecStoreLanes core f (fun v e l => v.indexed f e l)) s)
/-- VADD: fp32 add. -/
def execVuVadd (core : Nat) (f : VecFields) (s : State) : Host.Outcome State Fault Refusal :=
  .next (vecLanes core 0x20 f (fun v l => fAdd (v.lane f.s1 l) (v.lane f.s2 l)) s)
/-- VSUB: fp32 subtract. -/
def execVuVsub (core : Nat) (f : VecFields) (s : State) : Host.Outcome State Fault Refusal :=
  .next (vecLanes core 0x21 f (fun v l => fSub (v.lane f.s1 l) (v.lane f.s2 l)) s)
/-- VMUL: fp32 multiply. -/
def execVuVmul (core : Nat) (f : VecFields) (s : State) : Host.Outcome State Fault Refusal :=
  .next (vecLanes core 0x22 f (fun v l => fMul (v.lane f.s1 l) (v.lane f.s2 l)) s)
/-- VFMA: fp32 multiply-add, rounded once. -/
def execVuVfma (core : Nat) (f : VecFields) (s : State) : Host.Outcome State Fault Refusal :=
  .next (vecLanes core 0x23 f (fun v l => fFma (v.lane f.s1 l) (v.lane f.s2 l) (v.lane f.s3 l)) s)
/-- VMAX: maximum under R122. -/
def execVuVmax (core : Nat) (f : VecFields) (s : State) : Host.Outcome State Fault Refusal :=
  .next (vecLanes core 0x24 f (fun v l => fMax (v.lane f.s1 l) (v.lane f.s2 l)) s)
/-- VMIN: minimum under R122. -/
def execVuVmin (core : Nat) (f : VecFields) (s : State) : Host.Outcome State Fault Refusal :=
  .next (vecLanes core 0x25 f (fun v l => fMin (v.lane f.s1 l) (v.lane f.s2 l)) s)
/-- VABS: absolute value. -/
def execVuVabs (core : Nat) (f : VecFields) (s : State) : Host.Outcome State Fault Refusal :=
  .next (vecLanes core 0x26 f (fun v l => fAbs (v.lane f.s1 l)) s)
/-- VNEG: negation. -/
def execVuVneg (core : Nat) (f : VecFields) (s : State) : Host.Outcome State Fault Refusal :=
  .next (vecLanes core 0x27 f (fun v l => fNeg (v.lane f.s1 l)) s)
/-- VADDS: add the scalar xS2[31:0]. -/
def execVuVadds (core : Nat) (f : VecFields) (s : State) : Host.Outcome State Fault Refusal :=
  .next (vecLanes core 0x28 f (fun v l => fAdd (v.lane f.s1 l) (v.xr f.s2 % 2 ^ 32)) s)
/-- VMULS: multiply by the scalar xS2[31:0]. -/
def execVuVmuls (core : Nat) (f : VecFields) (s : State) : Host.Outcome State Fault Refusal :=
  .next (vecLanes core 0x29 f (fun v l => fMul (v.lane f.s1 l) (v.xr f.s2 % 2 ^ 32)) s)
/-- VBCAST: broadcast xS1[31:0]. -/
def execVuVbcast (core : Nat) (f : VecFields) (s : State) : Host.Outcome State Fault Refusal :=
  .next (vecLanes core 0x2A f (fun v _ => v.xr f.s1 % 2 ^ 32) s)
/-- VIDX: lane index plus xS1. -/
def execVuVidx (core : Nat) (f : VecFields) (s : State) : Host.Outcome State Fault Refusal :=
  .next (vecLanes core 0x2B f (fun v l => (l + v.xr f.s1) % 2 ^ 32) s)
/-- VIADD: uint32 add. -/
def execVuViadd (core : Nat) (f : VecFields) (s : State) : Host.Outcome State Fault Refusal :=
  .next (vecLanes core 0x2C f (fun v l => (v.lane f.s1 l + v.lane f.s2 l) % 2 ^ 32) s)
/-- VAND: bitwise AND. -/
def execVuVand (core : Nat) (f : VecFields) (s : State) : Host.Outcome State Fault Refusal :=
  .next (vecLanes core 0x2D f (fun v l => Nat.land (v.lane f.s1 l) (v.lane f.s2 l)) s)
/-- VCVT: conversion among fp32, int32 and uint32. -/
def execVuVcvt (core : Nat) (f : VecFields) (s : State) : Host.Outcome State Fault Refusal :=
  .next (vecLanes core 0x2E f (fun v l => convert (f.imm % 16) (f.imm / 16 % 16) (v.lane f.s1 l)) s)
/-- VSEL: select by m[S3[2:0]]. -/
def execVuVsel (core : Nat) (f : VecFields) (s : State) : Host.Outcome State Fault Refusal :=
  .next (vecLanes core 0x31 f (fun v l => if bitOf (v.mask (f.s3 % 8)) l then v.lane f.s1 l else v.lane f.s2 l) s)
/-- VRCP: SFU reciprocal. -/
def execVuVrcp (core : Nat) (f : VecFields) (s : State) : Host.Outcome State Fault Refusal :=
  .next (vecSfu core 0x40 f 0 s)
/-- VSQRT: SFU square root. -/
def execVuVsqrt (core : Nat) (f : VecFields) (s : State) : Host.Outcome State Fault Refusal :=
  .next (vecSfu core 0x41 f 1 s)
/-- VRSQRT: SFU reciprocal square root. -/
def execVuVrsqrt (core : Nat) (f : VecFields) (s : State) : Host.Outcome State Fault Refusal :=
  .next (vecSfu core 0x42 f 2 s)
/-- VEXP2: SFU base-2 exponential. -/
def execVuVexp2 (core : Nat) (f : VecFields) (s : State) : Host.Outcome State Fault Refusal :=
  .next (vecSfu core 0x43 f 3 s)
/-- VLOG2: SFU base-2 logarithm. -/
def execVuVlog2 (core : Nat) (f : VecFields) (s : State) : Host.Outcome State Fault Refusal :=
  .next (vecSfu core 0x44 f 4 s)
/-- VTANH: SFU hyperbolic tangent. -/
def execVuVtanh (core : Nat) (f : VecFields) (s : State) : Host.Outcome State Fault Refusal :=
  .next (vecSfu core 0x45 f 5 s)
/-- VSIGM: SFU sigmoid. -/
def execVuVsigm (core : Nat) (f : VecFields) (s : State) : Host.Outcome State Fault Refusal :=
  .next (vecSfu core 0x46 f 6 s)
/-- Comparison by IMM[1:0]: 0 eq, 1 lt, 2 le, 3 ne (R122). -/
def cmpBy (k a b : Nat) : Bool :=
  match k % 4 with
  | 0 => fEq a b
  | 1 => fLt a b
  | 2 => fLe a b
  | _ => !fEq a b
/-- VCMP: a mask; inactive lanes set 0. -/
def VecState.cmpMask (v : VecState) (f : VecFields) : Nat :=
  ((v.lanes f).filter fun l => cmpBy f.imm (v.lane f.s1 l) (v.lane f.s2 l)).foldl (fun a l => a + 2 ^ l) 0
def execVuVcmp (core : Nat) (f : VecFields) (s : State) : Host.Outcome State Fault Refusal :=
  .next (vecPure core 0x30 f (fun v => v.setMask (f.d % 8) (v.cmpMask f)) s)

end Sys2Proof.Machine
end

