-- ==== Sys2Proof/Machine/Dispatch.lean ====
section
/-! DEFINITION. Sys2Proof/Machine/Dispatch.lean: one arm per command, each a direct call of its meaning. -/

namespace Sys2Proof.Machine
open Host

/-- The effect of one command on everything but the queue of waiting commands. -/
def exec (i : Instr) (s : State) : Host.Outcome State Fault Refusal :=
  match i with
  | .sysNop q => Sys2Proof.Machine.execSysNop q s
  | .sysEcho q => Sys2Proof.Machine.execSysEcho q s
  | .sysInfo q => Sys2Proof.Machine.execSysInfo q s
  | .sysTime q => Sys2Proof.Machine.execSysTime q s
  | .sysEventRing q => Sys2Proof.Machine.execSysEventRing q s
  | .sysReset q => Sys2Proof.Machine.execSysReset q s
  | .cfgBegin q => Sys2Proof.Machine.execCfgBegin q s
  | .cfgSet q => Sys2Proof.Machine.execCfgSet q s
  | .cfgCommit q => Sys2Proof.Machine.execCfgCommit q s
  | .cfgRollback q => Sys2Proof.Machine.execCfgRollback q s
  | .cfgQuery q => Sys2Proof.Machine.execCfgQuery q s
  | .cfgCommitAllHold => Sys2Proof.Machine.execCfgCommitAllHold s
  | .cfgCommitReject ty inst => Sys2Proof.Machine.execCfgCommitReject ty inst s
  | .cfgQuiesceTimeout => Sys2Proof.Machine.execCfgQuiesceTimeout s
  | .cfgTxnTimeout ctx => Sys2Proof.Machine.execCfgTxnTimeout ctx s
  | .ctxCreate q => Sys2Proof.Machine.execCtxCreate q s
  | .ctxDestroy q => Sys2Proof.Machine.execCtxDestroy q s
  | .ctxSetQuota q => Sys2Proof.Machine.execCtxSetQuota q s
  | .ctxQuery q => Sys2Proof.Machine.execCtxQuery q s
  | .ctxAssignMailbox q => Sys2Proof.Machine.execCtxAssignMailbox q s
  | .ctxReleaseMailbox q => Sys2Proof.Machine.execCtxReleaseMailbox q s
  | .ctxReset q => Sys2Proof.Machine.execCtxReset q s
  | .ctxAgentLoad q => Sys2Proof.Machine.execCtxAgentLoad q s
  | .ctxAgentStart q => Sys2Proof.Machine.execCtxAgentStart q s
  | .ctxAgentStop q => Sys2Proof.Machine.execCtxAgentStop q s
  | .ctxAgentUnload q => Sys2Proof.Machine.execCtxAgentUnload q s
  | .agentFault agent act => Sys2Proof.Machine.execAgentFault agent act s
  | .memAlloc q => Sys2Proof.Machine.execMemAlloc q s
  | .memFree q => Sys2Proof.Machine.execMemFree q s
  | .memMapHost q => Sys2Proof.Machine.execMemMapHost q s
  | .memUnmapHost q => Sys2Proof.Machine.execMemUnmapHost q s
  | .memCopy q => Sys2Proof.Machine.execMemCopy q s
  | .memQuery q => Sys2Proof.Machine.execMemQuery q s
  | .ringCreate q => Sys2Proof.Machine.execRingCreate q s
  | .ringDestroy q => Sys2Proof.Machine.execRingDestroy q s
  | .ringDrain q => Sys2Proof.Machine.execRingDrain q s
  | .ringQuery q => Sys2Proof.Machine.execRingQuery q s
  | .ringDrainComplete ring => Sys2Proof.Machine.execRingDrainComplete ring s
  | .imgOpen q => Sys2Proof.Machine.execImgOpen q s
  | .imgWrite q => Sys2Proof.Machine.execImgWrite q s
  | .imgChunkProgrammed img w => Sys2Proof.Machine.execImgChunkProgrammed img w s
  | .imgClose q => Sys2Proof.Machine.execImgClose q s
  | .imgVerifyComplete img => Sys2Proof.Machine.execImgVerifyComplete img s
  | .imgActivate q => Sys2Proof.Machine.execImgActivate q s
  | .imgDelete q => Sys2Proof.Machine.execImgDelete q s
  | .imgDeleteComplete img => Sys2Proof.Machine.execImgDeleteComplete img s
  | .imgQuery q => Sys2Proof.Machine.execImgQuery q s
  | .jobCreate q => Sys2Proof.Machine.execJobCreate q s
  | .jobStart q => Sys2Proof.Machine.execJobStart q s
  | .jobStop q => Sys2Proof.Machine.execJobStop q s
  | .jobStopWindowTimeout job => Sys2Proof.Machine.execJobStopWindowTimeout job s
  | .jobQuery q => Sys2Proof.Machine.execJobQuery q s
  | .jobLedgerRead q => Sys2Proof.Machine.execJobLedgerRead q s
  | .srvQueueCreate q => Sys2Proof.Machine.execSrvQueueCreate q s
  | .srvQueueWeight q => Sys2Proof.Machine.execSrvQueueWeight q s
  | .srvSubmit q => Sys2Proof.Machine.execSrvSubmit q s
  | .srvCancel q => Sys2Proof.Machine.execSrvCancel q s
  | .srvPause q => Sys2Proof.Machine.execSrvPause q s
  | .summaryWriteLanded entry ok => Sys2Proof.Machine.execSummaryWriteLanded entry ok s
  | .srvResume q => Sys2Proof.Machine.execSrvResume q s
  | .summaryRestoreComplete entry ok => Sys2Proof.Machine.execSummaryRestoreComplete entry ok s
  | .srvPrefixCreate q => Sys2Proof.Machine.execSrvPrefixCreate q s
  | .srvPrefixRelease q => Sys2Proof.Machine.execSrvPrefixRelease q s
  | .srvSamplerSet q => Sys2Proof.Machine.execSrvSamplerSet q s
  | .mirCkpt q => Sys2Proof.Machine.execMirCkpt q s
  | .ckptCaptureDone ckpt => Sys2Proof.Machine.execCkptCaptureDone ckpt s
  | .ckptManifestWritten ckpt ok => Sys2Proof.Machine.execCkptManifestWritten ckpt ok s
  | .mirRestore q => Sys2Proof.Machine.execMirRestore q s
  | .mirSnapshot q => Sys2Proof.Machine.execMirSnapshot q s
  | .mirSpareProtect q => Sys2Proof.Machine.execMirSpareProtect q s
  | .mirSpareDesignate q => Sys2Proof.Machine.execMirSpareDesignate q s
  | .mirSpareReserve q => Sys2Proof.Machine.execMirSpareReserve q s
  | .mirSpareRelease q => Sys2Proof.Machine.execMirSpareRelease q s
  | .mirTakeoverBegin q => Sys2Proof.Machine.execMirTakeoverBegin q s
  | .takeoverRestoreComplete job data block deltas => Sys2Proof.Machine.execTakeoverRestoreComplete job data block deltas s
  | .mirTakeoverEnd q => Sys2Proof.Machine.execMirTakeoverEnd q s
  | .mirLogQuery q => Sys2Proof.Machine.execMirLogQuery q s
  | .podJoin q => Sys2Proof.Machine.execPodJoin q s
  | .podJoinTimeout => Sys2Proof.Machine.execPodJoinTimeout s
  | .podGroupCreate q => Sys2Proof.Machine.execPodGroupCreate q s
  | .groupFormed group identical => Sys2Proof.Machine.execGroupFormed group identical s
  | .podBarrier q => Sys2Proof.Machine.execPodBarrier q s
  | .podReset q => Sys2Proof.Machine.execPodReset q s
  | .beamRouteQuery q => Sys2Proof.Machine.execBeamRouteQuery q s
  | .beamPortQuery q => Sys2Proof.Machine.execBeamPortQuery q s
  | .loupeSensors q => Sys2Proof.Machine.execLoupeSensors q s
  | .loupeLedger q => Sys2Proof.Machine.execLoupeLedger q s
  | .loupeLogRead q => Sys2Proof.Machine.execLoupeLogRead q s
  | .loupePowerCap q => Sys2Proof.Machine.execLoupePowerCap q s
  | .loupeFwStage q => Sys2Proof.Machine.execLoupeFwStage q s
  | .fwStageVerified => Sys2Proof.Machine.execFwStageVerified s
  | .loupeFwActivate q => Sys2Proof.Machine.execLoupeFwActivate q s
  | .loupeFwCommit q => Sys2Proof.Machine.execLoupeFwCommit q s
  | .fuseStepComplete => Sys2Proof.Machine.execFuseStepComplete s
  | .loupeFwRevert q => Sys2Proof.Machine.execLoupeFwRevert q s
  | .fwTrialTimeout => Sys2Proof.Machine.execFwTrialTimeout s
  | .secCerts q => Sys2Proof.Machine.execSecCerts q s
  | .secMeasurements q => Sys2Proof.Machine.execSecMeasurements q s
  | .secCtxKeyRoll q => Sys2Proof.Machine.execSecCtxKeyRoll q s
  | .keyRollReencryptComplete ctx => Sys2Proof.Machine.execKeyRollReencryptComplete ctx s
  | .secDebugQuery q => Sys2Proof.Machine.execSecDebugQuery q s
  | .secDebugStageUnlock q => Sys2Proof.Machine.execSecDebugStageUnlock q s
  | .secDebugCancel q => Sys2Proof.Machine.execSecDebugCancel q s
  | .commandEventRecord ctx handle => Sys2Proof.Machine.execCommandEventRecord ctx handle s
  | .mailboxOverrun mb => Sys2Proof.Machine.execMailboxOverrun mb s
  | .ringTailWrite ring value => Sys2Proof.Machine.execRingTailWrite ring value s
  | .ringHeadWrite ring value => Sys2Proof.Machine.execRingHeadWrite ring value s
  | .ringCtrlRestart ring => Sys2Proof.Machine.execRingCtrlRestart ring s
  | .ringCtrlArm ring => Sys2Proof.Machine.execRingCtrlArm ring s
  | .snapTake ty inst => Sys2Proof.Machine.execSnapTake ty inst s
  | .snapCaptureComplete ty inst => Sys2Proof.Machine.execSnapCaptureComplete ty inst s
  | .rcFieldRead blk off size => Sys2Proof.Machine.execRcFieldRead blk off size s
  | .registerWrite blk off size value => Sys2Proof.Machine.execRegisterWrite blk off size value s
  | .apertureUnsupportedAccess write blk off size => Sys2Proof.Machine.execApertureUnsupportedAccess write blk off size s
  | .descriptorFetch ring n => Sys2Proof.Machine.execDescriptorFetch ring n s
  | .descriptorNop ring => Sys2Proof.Machine.execDescriptorNop ring s
  | .fence ring => Sys2Proof.Machine.execFence ring s
  | .fenceResume ring => Sys2Proof.Machine.execFenceResume ring s
  | .taskComplete ring => Sys2Proof.Machine.execTaskComplete ring s
  | .teLutPass ring => Sys2Proof.Machine.execTeLutPass ring s
  | .teDirectPass ring => Sys2Proof.Machine.execTeDirectPass ring s
  | .tePanePass ring => Sys2Proof.Machine.execTePanePass ring s
  | .teThinPass ring => Sys2Proof.Machine.execTeThinPass ring s
  | .teVector ring => Sys2Proof.Machine.execTeVector ring s
  | .arrayPassDrainComplete ring => Sys2Proof.Machine.execArrayPassDrainComplete ring s
  | .coreClearComplete ty inst => Sys2Proof.Machine.execCoreClearComplete ty inst s
  | .seMatmul ring => Sys2Proof.Machine.execSeMatmul ring s
  | .sePanePass ring => Sys2Proof.Machine.execSePanePass ring s
  | .seVector ring => Sys2Proof.Machine.execSeVector ring s
  | .seKdLoss ring => Sys2Proof.Machine.execSeKdLoss ring s
  | .vuNop core f => Sys2Proof.Machine.execVuNop core f s
  | .vuHalt core f => Sys2Proof.Machine.execVuHalt core f s
  | .vuSetvl core f => Sys2Proof.Machine.execVuSetvl core f s
  | .vuSli core f => Sys2Proof.Machine.execVuSli core f s
  | .vuSadd core f => Sys2Proof.Machine.execVuSadd core f s
  | .vuSmul core f => Sys2Proof.Machine.execVuSmul core f s
  | .vuSshr core f => Sys2Proof.Machine.execVuSshr core f s
  | .vuBlt core f => Sys2Proof.Machine.execVuBlt core f s
  | .vuBne core f => Sys2Proof.Machine.execVuBne core f s
  | .vuJmp core f => Sys2Proof.Machine.execVuJmp core f s
  | .vuSlane core f => Sys2Proof.Machine.execVuSlane core f s
  | .vuVld core f => Sys2Proof.Machine.execVuVld core f s
  | .vuVst core f => Sys2Proof.Machine.execVuVst core f s
  | .vuVgather core f => Sys2Proof.Machine.execVuVgather core f s
  | .vuVscatter core f => Sys2Proof.Machine.execVuVscatter core f s
  | .vuSld core f => Sys2Proof.Machine.execVuSld core f s
  | .vuSst core f => Sys2Proof.Machine.execVuSst core f s
  | .vuVadd core f => Sys2Proof.Machine.execVuVadd core f s
  | .vuVsub core f => Sys2Proof.Machine.execVuVsub core f s
  | .vuVmul core f => Sys2Proof.Machine.execVuVmul core f s
  | .vuVfma core f => Sys2Proof.Machine.execVuVfma core f s
  | .vuVmax core f => Sys2Proof.Machine.execVuVmax core f s
  | .vuVmin core f => Sys2Proof.Machine.execVuVmin core f s
  | .vuVabs core f => Sys2Proof.Machine.execVuVabs core f s
  | .vuVneg core f => Sys2Proof.Machine.execVuVneg core f s
  | .vuVadds core f => Sys2Proof.Machine.execVuVadds core f s
  | .vuVmuls core f => Sys2Proof.Machine.execVuVmuls core f s
  | .vuVbcast core f => Sys2Proof.Machine.execVuVbcast core f s
  | .vuVidx core f => Sys2Proof.Machine.execVuVidx core f s
  | .vuViadd core f => Sys2Proof.Machine.execVuViadd core f s
  | .vuVand core f => Sys2Proof.Machine.execVuVand core f s
  | .vuVcvt core f => Sys2Proof.Machine.execVuVcvt core f s
  | .vuVcmp core f => Sys2Proof.Machine.execVuVcmp core f s
  | .vuVsel core f => Sys2Proof.Machine.execVuVsel core f s
  | .vuMand core f => Sys2Proof.Machine.execVuMand core f s
  | .vuMnot core f => Sys2Proof.Machine.execVuMnot core f s
  | .vuVrcp core f => Sys2Proof.Machine.execVuVrcp core f s
  | .vuVsqrt core f => Sys2Proof.Machine.execVuVsqrt core f s
  | .vuVrsqrt core f => Sys2Proof.Machine.execVuVrsqrt core f s
  | .vuVexp2 core f => Sys2Proof.Machine.execVuVexp2 core f s
  | .vuVlog2 core f => Sys2Proof.Machine.execVuVlog2 core f s
  | .vuVtanh core f => Sys2Proof.Machine.execVuVtanh core f s
  | .vuVsigm core f => Sys2Proof.Machine.execVuVsigm core f s
  | .vuVredsum core f => Sys2Proof.Machine.execVuVredsum core f s
  | .vuVredmax core f => Sys2Proof.Machine.execVuVredmax core f s
  | .vuVargmax core f => Sys2Proof.Machine.execVuVargmax core f s
  | .vuTwait core f => Sys2Proof.Machine.execVuTwait core f s
  | .twaitWake core => Sys2Proof.Machine.execTwaitWake core s
  | .vuTpop core f => Sys2Proof.Machine.execVuTpop core f s
  | .vuTcount core f => Sys2Proof.Machine.execVuTcount core f s
  | .sclQuant ring => Sys2Proof.Machine.execSclQuant ring s
  | .sclAmax ring => Sys2Proof.Machine.execSclAmax ring s
  | .lensTopk ring n => Sys2Proof.Machine.execLensTopk ring n s
  | .lensCompact ring n => Sys2Proof.Machine.execLensCompact ring n s
  | .lensSort ring n => Sys2Proof.Machine.execLensSort ring n s
  | .lensTaskResume ring n => Sys2Proof.Machine.execLensTaskResume ring n s
  | .samplerRequest model row lens => Sys2Proof.Machine.execSamplerRequest model row lens s
  | .prismRows ring => Sys2Proof.Machine.execPrismRows ring s
  | .prismTap ring => Sys2Proof.Machine.execPrismTap ring s
  | .prismBlockOpen ring => Sys2Proof.Machine.execPrismBlockOpen ring s
  | .prismBlockEnd ring => Sys2Proof.Machine.execPrismBlockEnd ring s
  | .blockGrant chan ring => Sys2Proof.Machine.execBlockGrant chan ring s
  | .prismRowAccept lens => Sys2Proof.Machine.execPrismRowAccept lens s
  | .prismRecordLand chan => Sys2Proof.Machine.execPrismRecordLand chan s
  | .prismCreditFlush ring => Sys2Proof.Machine.execPrismCreditFlush ring s
  | .prismCreditReturn ring n => Sys2Proof.Machine.execPrismCreditReturn ring n s
  | .tokenChunkSend entry n => Sys2Proof.Machine.execTokenChunkSend entry n s
  | .tokenChunkLand ring => Sys2Proof.Machine.execTokenChunkLand ring s
  | .prismRingReset ring cause => Sys2Proof.Machine.execPrismRingReset ring cause s
  | .prismRingResetComplete ring => Sys2Proof.Machine.execPrismRingResetComplete ring s
  | .updExchange ring others => Sys2Proof.Machine.execUpdExchange ring others s
  | .updCommit ring => Sys2Proof.Machine.execUpdCommit ring s
  | .commitWordArrival job others => Sys2Proof.Machine.execCommitWordArrival job others s
  | .updApply ring => Sys2Proof.Machine.execUpdApply ring s
  | .updGather ring others => Sys2Proof.Machine.execUpdGather ring others s
  | .updMark ring => Sys2Proof.Machine.execUpdMark ring s
  | .deltaAck job => Sys2Proof.Machine.execDeltaAck job s
  | .suCopy ring => Sys2Proof.Machine.execSuCopy ring s
  | .suFill ring => Sys2Proof.Machine.execSuFill ring s
  | .suGather ring => Sys2Proof.Machine.execSuGather ring s
  | .suTranspose ring => Sys2Proof.Machine.execSuTranspose ring s
  | .suStageFill ring => Sys2Proof.Machine.execSuStageFill ring s
  | .stageFillWriteStart ring => Sys2Proof.Machine.execStageFillWriteStart ring s
  | .stageFillComplete ring => Sys2Proof.Machine.execStageFillComplete ring s
  | .streamSegmentAck ring seg outcome data => Sys2Proof.Machine.execStreamSegmentAck ring seg outcome data s
  | .beamColl ring others => Sys2Proof.Machine.execBeamColl ring others s
  | .groupBroken group member => Sys2Proof.Machine.execGroupBroken group member s
  | .resolutionComplete group held survivors => Sys2Proof.Machine.execResolutionComplete group held survivors s
  | .mirrorHeartbeat dev => Sys2Proof.Machine.execMirrorHeartbeat dev s
  | .heartbeatLoss dev => Sys2Proof.Machine.execHeartbeatLoss dev s
  | .npBind ring => Sys2Proof.Machine.execNpBind ring s
  | .npUnbind ring => Sys2Proof.Machine.execNpUnbind ring s
  | .npWrite ring => Sys2Proof.Machine.execNpWrite ring s
  | .npRead ring => Sys2Proof.Machine.execNpRead ring s
  | .fwdFill sweep x => Sys2Proof.Machine.execFwdFill sweep x s
  | .fwdPass sweep x => Sys2Proof.Machine.execFwdPass sweep x s
  | .fwdRoute sweep layer scores rows lists order => Sys2Proof.Machine.execFwdRoute sweep layer scores rows lists order s
  | .fwdExchange sweep xs => Sys2Proof.Machine.execFwdExchange sweep xs s
  | .fwdSoftTarget sweep rows lens => Sys2Proof.Machine.execFwdSoftTarget sweep rows lens s
  | .fwdTap sweep xs => Sys2Proof.Machine.execFwdTap sweep xs s
  | .fwdRepeat sweep thin => Sys2Proof.Machine.execFwdRepeat sweep thin s
  | .fwdEnd sweep token => Sys2Proof.Machine.execFwdEnd sweep token s
  | .servingBoundary model => Sys2Proof.Machine.execServingBoundary model s
  | .executorDone model handle => Sys2Proof.Machine.execExecutorDone model handle s
  | .rowSample model row => Sys2Proof.Machine.execRowSample model row s
  | .stepRecordWrite model => Sys2Proof.Machine.execStepRecordWrite model s
  | .portLightDetect port => Sys2Proof.Machine.execPortLightDetect port s
  | .trainingComplete port peer pport waves twin => Sys2Proof.Machine.execTrainingComplete port peer pport waves twin s
  | .trainingTimeout port => Sys2Proof.Machine.execTrainingTimeout port s
  | .laserInputLow port => Sys2Proof.Machine.execLaserInputLow port s
  | .lossOfLight port => Sys2Proof.Machine.execLossOfLight port s
  | .beamFlitReceive port flit => Sys2Proof.Machine.execBeamFlitReceive port flit s
  | .replayReq port => Sys2Proof.Machine.execReplayReq port s
  | .retransmitTimerExpiry port => Sys2Proof.Machine.execRetransmitTimerExpiry port s
  | .nullFlitTimer port => Sys2Proof.Machine.execNullFlitTimer port s
  | .retrainComplete port ok => Sys2Proof.Machine.execRetrainComplete port ok s
  | .downRetryTimer port => Sys2Proof.Machine.execDownRetryTimer port s
  | .routeTableInstall port table => Sys2Proof.Machine.execRouteTableInstall port table s
  | .timebaseSync t => Sys2Proof.Machine.execTimebaseSync t s
  | .storePageReadComplete ctl die block row susp ds => Sys2Proof.Machine.execStorePageReadComplete ctl die block row susp ds s
  | .storeProgramComplete ctl die block ok susp => Sys2Proof.Machine.execStoreProgramComplete ctl die block ok susp s
  | .storeEraseComplete ctl die block ok susp => Sys2Proof.Machine.execStoreEraseComplete ctl die block ok susp s
  | .relocationStart ctl => Sys2Proof.Machine.execRelocationStart ctl s
  | .relocationSwitch ctl => Sys2Proof.Machine.execRelocationSwitch ctl s
  | .storeScrubTimer ctl die block row ds => Sys2Proof.Machine.execStoreScrubTimer ctl die block row ds s
  | .storeDieTimeout ctl die => Sys2Proof.Machine.execStoreDieTimeout ctl die s
  | .meteredSlcWrite addr data => Sys2Proof.Machine.execMeteredSlcWrite addr data s
  | .storeScrubStageComplete ctl ok => Sys2Proof.Machine.execStoreScrubStageComplete ctl ok s
  | .hbmRefreshTimer stack => Sys2Proof.Machine.execHbmRefreshTimer stack s
  | .hbmScrubLine addr errors => Sys2Proof.Machine.execHbmScrubLine addr errors s
  | .governorStep mw => Sys2Proof.Machine.execGovernorStep mw s
  | .currentLimitSample amps vin => Sys2Proof.Machine.execCurrentLimitSample amps vin s
  | .windowLimitEval mw => Sys2Proof.Machine.execWindowLimitEval mw s
  | .thermalSample cls inst sensor temp => Sys2Proof.Machine.execThermalSample cls inst sensor temp s
  | .thermalTrip => Sys2Proof.Machine.execThermalTrip s
  | .tripRelease substrate => Sys2Proof.Machine.execTripRelease substrate s
  | .sensorAgentTimeout die => Sys2Proof.Machine.execSensorAgentTimeout die s
  | .vinDipBegin => Sys2Proof.Machine.execVinDipBegin s
  | .vinDipEnd us mv => Sys2Proof.Machine.execVinDipEnd us mv s
  | .dipLong => Sys2Proof.Machine.execDipLong s
  | .powerLossFlush => Sys2Proof.Machine.execPowerLossFlush s
  | .forceThrottleAssert => Sys2Proof.Machine.execForceThrottleAssert s
  | .forceThrottleRelease => Sys2Proof.Machine.execForceThrottleRelease s
  | .vauxApplied pod mgmt => Sys2Proof.Machine.execVauxApplied pod mgmt s
  | .vauxLost => Sys2Proof.Machine.execVauxLost s
  | .replan idle meas drift wants => Sys2Proof.Machine.execReplan idle meas drift wants s
  | .replanRetry => Sys2Proof.Machine.execReplanRetry s
  | .replanLate => Sys2Proof.Machine.execReplanLate s
  | .logCopy => Sys2Proof.Machine.execLogCopy s
  | .errorRecordInterval ctx => Sys2Proof.Machine.execErrorRecordInterval ctx s
  | .engineReset ty inst => Sys2Proof.Machine.execEngineReset ty inst s
  | .resetWritesSettled => Sys2Proof.Machine.execResetWritesSettled s
  | .pcieFlr => Sys2Proof.Machine.execPcieFlr s
  | .pcieHotReset => Sys2Proof.Machine.execPcieHotReset s
  | .perstNAssert => Sys2Proof.Machine.execPerstNAssert s
  | .warmReset => Sys2Proof.Machine.execWarmReset s
  | .coldReset pod mgmt bank temps => Sys2Proof.Machine.execColdReset pod mgmt bank temps s
  | .firmwareStartPublish => Sys2Proof.Machine.execFirmwareStartPublish s
  | .spineLinkDown link => Sys2Proof.Machine.execSpineLinkDown link s
  | .fatalError code => Sys2Proof.Machine.execFatalError code s
  | .cxlMemRead addr own => Sys2Proof.Machine.execCxlMemRead addr own s
  | .cxlMemWrite addr data enable => Sys2Proof.Machine.execCxlMemWrite addr data enable s
  | .bisnpResponse line => Sys2Proof.Machine.execBisnpResponse line s
  | .hostSnoop line => Sys2Proof.Machine.execHostSnoop line s
  | .hostReadCompletion ring seg status => Sys2Proof.Machine.execHostReadCompletion ring seg status s
  | .hostCompletionTimeout ring seg => Sys2Proof.Machine.execHostCompletionTimeout ring seg s
  | .hostLinkDown => Sys2Proof.Machine.execHostLinkDown s
  | .ideIntegrityFailure => Sys2Proof.Machine.execIdeIntegrityFailure s
  | .ideKmKeyProgram link cxl => Sys2Proof.Machine.execIdeKmKeyProgram link cxl s
  | .msixUnmask vector => Sys2Proof.Machine.execMsixUnmask vector s
  | .spdmGetCertificate transport slot off len => Sys2Proof.Machine.execSpdmGetCertificate transport slot off len s
  | .spdmChallenge transport slot nonce summary => Sys2Proof.Machine.execSpdmChallenge transport slot nonce summary s
  | .spdmGetMeasurements transport index nonce signed => Sys2Proof.Machine.execSpdmGetMeasurements transport index nonce signed s
  | .spdmKeyExchange transport slot msg => Sys2Proof.Machine.execSpdmKeyExchange transport slot msg s
  | .mctpControlMessage transport kind op q => Sys2Proof.Machine.execMctpControlMessage transport kind op q s
  | .roceRdmaWrite port qpn psn first va key len data ecn => Sys2Proof.Machine.execRoceRdmaWrite port qpn psn first va key len data ecn s
  | .roceWriteImmediate port qpn psn first va key len data imm ecn => Sys2Proof.Machine.execRoceWriteImmediate port qpn psn first va key len data imm ecn s
  | .roceRdmaRead port qpn psn va key len ecn => Sys2Proof.Machine.execRoceRdmaRead port qpn psn va key len ecn s
  | .roceSend port qpn psn data ecn => Sys2Proof.Machine.execRoceSend port qpn psn data ecn s
  | .roceAck port qpn psn kind => Sys2Proof.Machine.execRoceAck port qpn psn kind s
  | .roceCnp port qpn => Sys2Proof.Machine.execRoceCnp port qpn s
  | .roceUnsupported port => Sys2Proof.Machine.execRoceUnsupported port s
  | .qpRetryTimeout bind => Sys2Proof.Machine.execQpRetryTimeout bind s
  | .pfcPauseFrame port prio quanta => Sys2Proof.Machine.execPfcPauseFrame port prio quanta s
  | .npLinkDown port => Sys2Proof.Machine.execNpLinkDown port s
  | .perstNDeassert => Sys2Proof.Machine.execPerstNDeassert s
  | .hostLinkUp width rate cxl => Sys2Proof.Machine.execHostLinkUp width rate cxl s
  | .hdmDecoderCommit base => Sys2Proof.Machine.execHdmDecoderCommit base s
  | .hbmStackFail stack => Sys2Proof.Machine.execHbmStackFail stack s
  | .roceReadResponse port qpn psn data => Sys2Proof.Machine.execRoceReadResponse port qpn psn data s
  | .npLinkUp port => Sys2Proof.Machine.execNpLinkUp port s
  | .fcsDrop port => Sys2Proof.Machine.execFcsDrop port s

end Sys2Proof.Machine
end

