-- ==== Sys2Proof/Machine/Step.lean ====
section
/-! DEFINITION. Sys2Proof/Machine/Step.lean: one step: the command at the front of the queue, or one tick. -/

namespace Sys2Proof.Machine
open Sys2Proof

/-- Take the command at the front of the queue and give it its effect, with the queue's rest. On an empty queue one tick passes, in
which ORDERED commands whose predecessors have completed start (R73). [DESIGN CHOICE, log 1; DEDUCED, log 3] -/
def step (s : State) : Host.Outcome State Fault Refusal :=
  match s.pending with
  | [] => .next (tick s)
  | c :: rest => exec c { s with pending := rest }

/-- The state with the command that a table word spells at the front of its queue. The table gives no bits, so no word spells one.
[DESIGN CHOICE, log 2] -/
def State.withFetchWord (s : State) (nbits w : Nat) : State :=
  match decodeTableWord nbits w with
  | some c => { s with pending := c :: s.pending }
  | none => s

end Sys2Proof.Machine
end

