-- ==== Sys2Proof/Safety.lean ====
section
/-! DEFINITION. Sys2Proof/Safety.lean: the terms in which statements speak: canonical memories, commands that are admitted, and what an
outcome says. -/

namespace Sys2Proof.Machine
open Sys2Proof

/-- Every byte memory is in its canonical form. -/
def Mems.wf (m : Mems) : Bool := Memory.wf m.hbm && Memory.wf m.sram && Memory.wf m.host && Memory.wf m.store

/-- The registers of a vector program are in their canonical form: maps without entries of 0, and eight masks (R192). -/
def VecState.wf (v : VecState) : Bool := SMap.wf 0 v.x && SMap.wf 0 v.v && v.m.length == 8

/-- The canonical forms that read-after-write rests on: of the memories, and of the maps of mailboxes, contexts, rings, cores and
units, and of the registers of the vector programs that run. -/
def State.wf (s : State) : Bool :=
  s.mem.wf && SMap.wf Mailbox.init s.mbs && SMap.wf Context.init s.ctxs && SMap.wf Ring.init s.rings && SMap.wf Core.init s.cores
    && SMap.wf UnitRegs.init s.units && s.cores.all fun c => c.2.vec.all VecState.wf

/-- The state in which a request's own rule runs: the request is in the buffer, its mailbox BUSY, SEQUENCE counted (R70, R71). -/
def State.taken (s : State) (op : Nat) (q : Request) : State :=
  s.setMb q.mailbox { s.mb q.mailbox with
    req := reqHeader op q ++ q.payload, st := 1, tag := q.tag, expect := ((s.mb q.mailbox).expect + 1) % 2 ^ 64, resp := [] }

/-- Who issues a request, for its own rule. -/
def issOf (op c : Nat) (q : Request) (s : State) : Iss :=
  { mb := q.mailbox, ctx := c, tag := q.tag, seq := q.sequence, opcode := op, defer := q.defer, handle := (s.ctx c).nextOp }

/-- A request of context `c` passes every check of R77 before its command's own: acceptance, CONTEXT, header and payload, access, response
address, event ring; it does not wait for earlier commands. `p` is its payload, `ind` its indirect block. -/
def admitted (k : CmdSpec) (q : Request) (c : Nat) (p : Bytes) (ind : Option Indirect) (s : State) : Bool :=
  let t := s.taken k.opcode q
  s.reachMb q.mailbox && (s.mb q.mailbox).st != 1 && q.sequence == (s.mb q.mailbox).expect
    && s.mbOwner q.mailbox == some c && q.context == c && (s.ctx c).st != 2 && (!s.isFatal || fatalOk q.mailbox k.opcode)
    && precheck (some k) k.opcode c q t == .go p ind
    && !(bitOf q.flags 1 && !(t.earlier c q.mailbox).isEmpty)
    && accessOk k q.mailbox
    && !(match ind with | some i => i.raddr != 0 && !t.reach c i.rspace i.raddr (max 1 (k.resp t p)) | none => false)
    && !((k.p || bitOf q.flags 2) && !noRing k.opcode && (s.ctx c).eventRing.isNone)

/-- What the issuer of an admitted request sees, for each answer of the command's own rule (R70, R78). -/
def concluded (k : CmdSpec) (q : Request) (c : Nat) (p : Bytes) (ind : Option Indirect) (t : State) : Res → State
  | .ok r u => answer q.mailbox k.opcode c q ind 0 0 r u
  | .fail st d => answer q.mailbox k.opcode c q ind st d [] t
  | .failWith st d u => answer q.mailbox k.opcode c q ind st d [] u
  | .hold u => u
  | .pend u =>
    let v := u.updCtx c fun x => { x with nextOp := x.nextOp + 1 }
    k.after <| mbComplete q.mailbox k.opcode q ePending 0 (t.ctx c).nextOp 0 []
      { v with ops := v.ops ++ [{ ctx := c, handle := (t.ctx c).nextOp, opcode := k.opcode, tag := q.tag, seq := q.sequence
                                  mailbox := q.mailbox, payload := p }] }

/-- The final state of an admitted request whose rule completes OK with a response in a state. -/
def okWith (k : CmdSpec) (q : Request) (c : Nat) (ind : Option Indirect) (resp : Bytes) (u : State) : State :=
  answer q.mailbox k.opcode c q ind 0 0 resp u

/-- The state of an admitted request that answers PENDING, its rule having left `u`. -/
def pendWith (k : CmdSpec) (q : Request) (c : Nat) (p : Bytes) (t u : State) : State := concluded k q c p none t (.pend u)

/-- What a command may change, as a set of fields of State: its scope. -/
inductive Scope where
  /-- The registers of units alone. -/
  | register
  /-- A ring. -/
  | ringReg
  /-- The host port, supplies and pins. -/
  | hostPort
  /-- What records, interrupts, error registers and cache-coherent accesses write. -/
  | signal
  /-- Besides, what the end of a descriptor touches in its unit. -/
  | descriptor
  /-- Besides, an update window that closes, and what waited for it. -/
  | head
  /-- A mailbox and the operations that PENDING leaves open, with their records. -/
  | mailbox
  /-- Rings and what waits for them. -/
  | ring
  /-- Transactions, ports, and the plan of clocks and limits. -/
  | config
  /-- A core that is cleared. -/
  | memory
  /-- Agents and allocations. -/
  | agent
  /-- Array and vector instructions, the Scaler. -/
  | task
  /-- Instructions that use a target ring, which may lie on another device. -/
  | student
  /-- The Lens. -/
  | lens
  /-- A Lens that draws for a serving model. -/
  | sampler
  /-- The Stream Unit, and transfers to and from the host. -/
  | copy
  /-- The Prism. -/
  | prism
  /-- The Update Units. -/
  | update
  /-- One unit that is reset. -/
  | engine
  /-- The network ports and what a job that ends takes along. -/
  | net
  /-- The forward block. -/
  | forward
  /-- The flash store. -/
  | store
  /-- Images. -/
  | image
  /-- Jobs. -/
  | job
  /-- Checkpoints, spares, takeovers. -/
  | mirror
  /-- Groups and collectives. -/
  | pod
  /-- What another device brings. -/
  | peer
  /-- The Loupe: power, clocks, its firmware. -/
  | loupe
  /-- Queues and models of the serving engine. -/
  | serving
  /-- Keys, measurements, unlock. -/
  | security
  /-- Anything but the queue: resets, supplies, forwarded requests. -/
  | whole
  deriving DecidableEq, Repr

/-- The scope of each command. -/
def scopeOf : Instr → Scope
  | .snapTake .. | .snapCaptureComplete .. | .hbmRefreshTimer .. | .fcsDrop .. => .register
  | .ringCtrlRestart .. | .ringCtrlArm .. => .ringReg
  | .apertureUnsupportedAccess .. | .tripRelease .. | .forceThrottleAssert | .forceThrottleRelease | .vauxApplied .. | .bisnpResponse ..
   | .hostSnoop .. | .ideIntegrityFailure | .ideKmKeyProgram .. | .msixUnmask .. | .perstNDeassert | .hdmDecoderCommit .. => .hostPort
  | .ringTailWrite .. | .hbmScrubLine .. | .logCopy | .fatalError .. | .cxlMemRead .. | .cxlMemWrite .. | .hbmStackFail .. => .signal
  | .descriptorNop .. | .fence .. | .fenceResume .. | .suStageFill .. => .descriptor
  | .ringHeadWrite .. | .descriptorFetch .. | .taskComplete .. => .head
  | .sysNop .. | .sysEcho .. | .sysInfo .. | .sysTime .. | .sysEventRing .. | .sysReset .. | .cfgQuery .. | .ctxSetQuota ..
   | .ctxQuery .. | .ctxAssignMailbox .. | .ctxReleaseMailbox .. | .memMapHost .. | .memUnmapHost .. | .memCopy .. | .memQuery ..
   | .ringCreate .. | .ringQuery .. | .imgQuery .. | .jobQuery .. | .jobLedgerRead .. | .mirLogQuery .. | .podBarrier ..
   | .beamRouteQuery .. | .beamPortQuery .. | .loupeSensors .. | .loupeLedger .. | .loupeLogRead .. | .secCerts ..
   | .keyRollReencryptComplete .. | .mailboxOverrun .. | .hostLinkUp .. => .mailbox
  | .ringDestroy .. | .ringDrain .. | .ringDrainComplete .. => .ring
  | .cfgBegin .. | .cfgSet .. | .cfgCommit .. | .cfgRollback .. | .cfgCommitAllHold | .cfgCommitReject .. | .cfgQuiesceTimeout
   | .cfgTxnTimeout .. | .podJoin .. | .podJoinTimeout | .loupePowerCap .. | .loupeFwStage .. | .fwStageVerified | .loupeFwActivate ..
   | .loupeFwCommit .. | .fuseStepComplete | .loupeFwRevert .. | .portLightDetect .. | .trainingComplete .. | .trainingTimeout ..
   | .laserInputLow .. | .lossOfLight .. | .replayReq .. | .retransmitTimerExpiry .. | .nullFlitTimer .. | .retrainComplete ..
   | .downRetryTimer .. | .timebaseSync .. | .governorStep .. | .currentLimitSample .. | .windowLimitEval .. | .sensorAgentTimeout ..
   | .dipLong | .replan .. | .replanRetry | .replanLate => .config
  | .coreClearComplete .. => .memory
  | .ctxAgentLoad .. | .ctxAgentStart .. | .ctxAgentStop .. | .ctxAgentUnload .. | .memAlloc .. | .memFree .. => .agent
  | .rcFieldRead .. | .teLutPass .. | .teDirectPass .. | .tePanePass .. | .teThinPass .. | .teVector .. | .arrayPassDrainComplete ..
   | .seMatmul .. | .sePanePass .. | .seVector .. | .vuNop .. | .vuHalt .. | .vuSetvl .. | .vuSli .. | .vuSadd .. | .vuSmul ..
   | .vuSshr .. | .vuBlt .. | .vuBne .. | .vuJmp .. | .vuSlane .. | .vuVld .. | .vuVst .. | .vuVgather .. | .vuVscatter .. | .vuSld ..
   | .vuSst .. | .vuVadd .. | .vuVsub .. | .vuVmul .. | .vuVfma .. | .vuVmax .. | .vuVmin .. | .vuVabs .. | .vuVneg .. | .vuVadds ..
   | .vuVmuls .. | .vuVbcast .. | .vuVidx .. | .vuViadd .. | .vuVand .. | .vuVcvt .. | .vuVcmp .. | .vuVsel .. | .vuMand .. | .vuMnot ..
   | .vuVrcp .. | .vuVsqrt .. | .vuVrsqrt .. | .vuVexp2 .. | .vuVlog2 .. | .vuVtanh .. | .vuVsigm .. | .vuVredsum .. | .vuVredmax ..
   | .vuVargmax .. | .vuTwait .. | .vuTcount .. | .sclQuant .. | .sclAmax .. | .stageFillWriteStart .. | .stageFillComplete .. => .task
  | .seKdLoss .. | .twaitWake .. | .vuTpop .. => .student
  | .lensTopk .. | .lensCompact .. | .lensSort .. | .lensTaskResume .. => .lens
  | .samplerRequest .. => .sampler
  | .suCopy .. | .suFill .. | .suGather .. | .suTranspose .. | .streamSegmentAck .. | .hostReadCompletion .. | .hostCompletionTimeout ..
   | .hostLinkDown => .copy
  | .prismRows .. | .prismTap .. | .prismBlockOpen .. | .prismBlockEnd .. | .prismRowAccept .. | .prismRecordLand ..
   | .prismCreditFlush .. | .prismRingReset .. | .prismRingResetComplete .. => .prism
  | .ckptCaptureDone .. | .updExchange .. | .updCommit .. | .commitWordArrival .. | .updApply .. | .updGather .. | .updMark ..
   | .deltaAck .. | .resolutionComplete .. => .update
  | .engineReset .. => .engine
  | .groupBroken .. | .npBind .. | .npUnbind .. | .npWrite .. | .npRead .. | .roceRdmaWrite .. | .roceWriteImmediate ..
   | .roceRdmaRead .. | .roceSend .. | .roceAck .. | .roceCnp .. | .roceUnsupported .. | .qpRetryTimeout .. | .pfcPauseFrame ..
   | .npLinkDown .. | .roceReadResponse .. | .npLinkUp .. => .net
  | .fwdFill .. | .fwdPass .. | .fwdRoute .. | .fwdExchange .. | .fwdSoftTarget .. | .fwdTap .. | .fwdRepeat .. | .fwdEnd .. => .forward
  | .storePageReadComplete .. | .storeProgramComplete .. | .storeEraseComplete .. | .relocationStart .. | .relocationSwitch ..
   | .storeScrubTimer .. | .storeDieTimeout .. | .meteredSlcWrite .. | .storeScrubStageComplete .. | .errorRecordInterval .. => .store
  | .imgOpen .. | .imgWrite .. | .imgChunkProgrammed .. | .imgClose .. | .imgVerifyComplete .. | .imgActivate .. | .imgDelete ..
   | .imgDeleteComplete .. => .image
  | .jobStart .. | .jobStop .. | .jobStopWindowTimeout .. => .job
  | .jobCreate .. | .mirCkpt .. | .ckptManifestWritten .. | .mirRestore .. | .mirSnapshot .. | .mirSpareProtect ..
   | .mirSpareDesignate .. | .mirSpareReserve .. | .mirSpareRelease .. | .mirTakeoverBegin .. | .takeoverRestoreComplete ..
   | .mirTakeoverEnd .. | .mirrorHeartbeat .. => .mirror
  | .podGroupCreate .. | .beamColl .. => .pod
  | .groupFormed .. | .beamFlitReceive .. => .peer
  | .fwTrialTimeout | .thermalSample .. | .vinDipBegin | .vinDipEnd .. => .loupe
  | .srvQueueCreate .. | .srvQueueWeight .. | .srvSubmit .. | .srvCancel .. | .srvPause .. | .summaryWriteLanded .. | .srvResume ..
   | .summaryRestoreComplete .. | .srvPrefixCreate .. | .srvPrefixRelease .. | .srvSamplerSet .. | .blockGrant ..
   | .prismCreditReturn .. | .tokenChunkSend .. | .tokenChunkLand .. | .executorDone .. | .rowSample .. | .stepRecordWrite ..
   | .spineLinkDown .. => .serving
  | .ctxCreate .. | .secMeasurements .. | .secCtxKeyRoll .. | .secDebugQuery .. | .secDebugStageUnlock .. | .secDebugCancel ..
   | .spdmGetCertificate .. | .spdmChallenge .. | .spdmGetMeasurements .. | .spdmKeyExchange .. => .security
  | .ctxDestroy .. | .ctxReset .. | .agentFault .. | .podReset .. | .commandEventRecord .. | .registerWrite .. | .heartbeatLoss ..
   | .servingBoundary .. | .routeTableInstall .. | .thermalTrip | .powerLossFlush | .vauxLost | .resetWritesSettled | .pcieFlr
   | .pcieHotReset | .perstNAssert | .warmReset | .coldReset .. | .firmwareStartPublish | .mctpControlMessage .. => .whole

/-- State `s` with the fields of a scope taken from `t`. -/
def Scope.frame : Scope → State → State → State
  | .register, s, t => { s with
      free := t.free, units := t.units }
  | .ringReg, s, t => { s with
      rings := t.rings }
  | .hostPort, s, t => { s with
      host := t.host, loupe := t.loupe, now := t.now, sys := t.sys, units := t.units }
  | .signal, s, t => { s with
      ctxs := t.ctxs, free := t.free, host := t.host, log := t.log, rings := t.rings, sys := t.sys, units := t.units
      mem := { s.mem with
        failed := t.mem.failed, hbm := t.mem.hbm, hbmPoison := t.mem.hbmPoison, host := t.mem.host, hostPoison := t.mem.hostPoison } }
  | .descriptor, s, t => { s with
      cores := t.cores, ctxs := t.ctxs, free := t.free, host := t.host, lens := t.lens, log := t.log, rings := t.rings, sys := t.sys
      units := t.units, upds := t.upds
      mem := { s.mem with
        hbm := t.mem.hbm, hbmPoison := t.mem.hbmPoison, host := t.mem.host, hostPoison := t.mem.hostPoison } }
  | .head, s, t => { s with
      chans := t.chans, cores := t.cores, ctxs := t.ctxs, free := t.free, host := t.host, jobs := t.jobs, lens := t.lens, log := t.log
      mirror := t.mirror, ops := t.ops, prings := t.prings, rings := t.rings, step := t.step, sys := t.sys, units := t.units
      upds := t.upds
      mem := { s.mem with
        hbm := t.mem.hbm, hbmPoison := t.mem.hbmPoison, host := t.mem.host, hostPoison := t.mem.hostPoison } }
  | .mailbox, s, t => { s with
      ctxs := t.ctxs, free := t.free, host := t.host, log := t.log, mbs := t.mbs, ops := t.ops, rings := t.rings, sys := t.sys
      units := t.units
      mem := { s.mem with
        hbm := t.mem.hbm, hbmPoison := t.mem.hbmPoison, host := t.mem.host, hostPoison := t.mem.hostPoison } }
  | .ring, s, t => { s with
      cores := t.cores, ctxs := t.ctxs, free := t.free, host := t.host, lens := t.lens, log := t.log, mbs := t.mbs, ops := t.ops
      rings := t.rings, sys := t.sys, units := t.units
      mem := { s.mem with
        hbm := t.mem.hbm, hbmPoison := t.mem.hbmPoison, host := t.mem.host, hostPoison := t.mem.hostPoison } }
  | .config, s, t => { s with
      beam := t.beam, cfg := t.cfg, ctxs := t.ctxs, free := t.free, host := t.host, log := t.log, loupe := t.loupe, mbs := t.mbs
      now := t.now, ops := t.ops, rings := t.rings, sys := t.sys, units := t.units
      mem := { s.mem with
        hbm := t.mem.hbm, hbmPoison := t.mem.hbmPoison, host := t.mem.host, hostPoison := t.mem.hostPoison } }
  | .memory, s, t => { s with
      cores := t.cores, ctxs := t.ctxs, free := t.free, host := t.host, mbs := t.mbs, rings := t.rings, sys := t.sys, units := t.units
      mem := { s.mem with
        hbm := t.mem.hbm, hbmPoison := t.mem.hbmPoison, host := t.mem.host, hostPoison := t.mem.hostPoison, sram := t.mem.sram
        sramPoison := t.mem.sramPoison, sramUe := t.mem.sramUe } }
  | .agent, s, t => { s with
      agents := t.agents, ctxs := t.ctxs, free := t.free, host := t.host, log := t.log, mbs := t.mbs, ops := t.ops, rings := t.rings
      sys := t.sys, units := t.units
      mem := { s.mem with
        allocs := t.mem.allocs, hbm := t.mem.hbm, hbmPoison := t.mem.hbmPoison, host := t.mem.host, hostPoison := t.mem.hostPoison
        pages := t.mem.pages } }
  | .task, s, t => { s with
      cores := t.cores, ctxs := t.ctxs, free := t.free, host := t.host, lens := t.lens, log := t.log, rings := t.rings, sys := t.sys
      units := t.units, upds := t.upds
      mem := { s.mem with
        hbm := t.mem.hbm, hbmPoison := t.mem.hbmPoison, host := t.mem.host, hostPoison := t.mem.hostPoison, sram := t.mem.sram
        sramPoison := t.mem.sramPoison, sramUe := t.mem.sramUe } }
  | .student, s, t => { s with
      beam := t.beam, cores := t.cores, ctxs := t.ctxs, free := t.free, host := t.host, lens := t.lens, log := t.log
      prings := t.prings, rings := t.rings, sec := t.sec, sys := t.sys, units := t.units, upds := t.upds
      mem := { s.mem with
        hbm := t.mem.hbm, hbmPoison := t.mem.hbmPoison, host := t.mem.host, hostPoison := t.mem.hostPoison, sram := t.mem.sram
        sramPoison := t.mem.sramPoison, sramUe := t.mem.sramUe } }
  | .lens, s, t => { s with
      cores := t.cores, ctxs := t.ctxs, free := t.free, host := t.host, lens := t.lens, log := t.log, rings := t.rings, sys := t.sys
      units := t.units, upds := t.upds
      mem := { s.mem with
        hbm := t.mem.hbm, hbmPoison := t.mem.hbmPoison, host := t.mem.host, hostPoison := t.mem.hostPoison, sram := t.mem.sram
        sramPoison := t.mem.sramPoison, sramUe := t.mem.sramUe } }
  | .sampler, s, t => { s with
      ctxs := t.ctxs, free := t.free, host := t.host, lens := t.lens, log := t.log, rings := t.rings, srv := t.srv, sys := t.sys
      units := t.units
      mem := { s.mem with
        hbm := t.mem.hbm, hbmPoison := t.mem.hbmPoison, host := t.mem.host, hostPoison := t.mem.hostPoison, sram := t.mem.sram
        sramPoison := t.mem.sramPoison, sramUe := t.mem.sramUe } }
  | .copy, s, t => { s with
      beam := t.beam, cores := t.cores, ctxs := t.ctxs, free := t.free, host := t.host, images := t.images, lens := t.lens
      log := t.log, ops := t.ops, rings := t.rings, sec := t.sec, sys := t.sys, units := t.units, upds := t.upds
      mem := { s.mem with
        hbm := t.mem.hbm, hbmPoison := t.mem.hbmPoison, host := t.mem.host, hostPoison := t.mem.hostPoison, sram := t.mem.sram
        sramPoison := t.mem.sramPoison, sramUe := t.mem.sramUe } }
  | .prism, s, t => { s with
      beam := t.beam, chans := t.chans, cores := t.cores, ctxs := t.ctxs, free := t.free, host := t.host, jobs := t.jobs
      lens := t.lens, log := t.log, now := t.now, ops := t.ops, prings := t.prings, rings := t.rings, sec := t.sec, srv := t.srv
      sys := t.sys, units := t.units, upds := t.upds
      mem := { s.mem with
        hbm := t.mem.hbm, hbmPoison := t.mem.hbmPoison, host := t.mem.host, hostPoison := t.mem.hostPoison, sram := t.mem.sram
        sramPoison := t.mem.sramPoison, sramUe := t.mem.sramUe } }
  | .update, s, t => { s with
      beam := t.beam, chans := t.chans, cores := t.cores, ctxs := t.ctxs, free := t.free, host := t.host, jobs := t.jobs
      lens := t.lens, log := t.log, mirror := t.mirror, ops := t.ops, prings := t.prings, rings := t.rings, sec := t.sec
      step := t.step, sweeps := t.sweeps, sys := t.sys, units := t.units, upds := t.upds
      mem := { s.mem with
        hbm := t.mem.hbm, hbmPoison := t.mem.hbmPoison, host := t.mem.host, hostPoison := t.mem.hostPoison } }
  | .engine, s, t => { s with
      chans := t.chans, cores := t.cores, ctxs := t.ctxs, free := t.free, host := t.host, jobs := t.jobs, lens := t.lens, log := t.log
      mirror := t.mirror, ops := t.ops, prings := t.prings, rings := t.rings, sweeps := t.sweeps, sys := t.sys, units := t.units
      upds := t.upds
      mem := { s.mem with
        hbm := t.mem.hbm, hbmPoison := t.mem.hbmPoison, host := t.mem.host, hostPoison := t.mem.hostPoison, sram := t.mem.sram
        sramPoison := t.mem.sramPoison, sramUe := t.mem.sramUe } }
  | .net, s, t => { s with
      beam := t.beam, binds := t.binds, chans := t.chans, cores := t.cores, ctxs := t.ctxs, free := t.free, groups := t.groups
      host := t.host, jobs := t.jobs, lens := t.lens, log := t.log, mirror := t.mirror, now := t.now, nports := t.nports, ops := t.ops
      prings := t.prings, rings := t.rings, sec := t.sec, step := t.step, sweeps := t.sweeps, sys := t.sys, units := t.units
      upds := t.upds
      mem := { s.mem with
        hbm := t.mem.hbm, hbmPoison := t.mem.hbmPoison, host := t.mem.host, hostPoison := t.mem.hostPoison } }
  | .forward, s, t => { s with
      beam := t.beam, chans := t.chans, cores := t.cores, ctxs := t.ctxs, free := t.free, host := t.host, jobs := t.jobs
      lens := t.lens, log := t.log, ops := t.ops, prings := t.prings, rings := t.rings, sec := t.sec, sweeps := t.sweeps, sys := t.sys
      units := t.units, upds := t.upds
      mem := { s.mem with
        hbm := t.mem.hbm, hbmPoison := t.mem.hbmPoison, host := t.mem.host, hostPoison := t.mem.hostPoison, pages := t.mem.pages
        sram := t.mem.sram, sramPoison := t.mem.sramPoison, sramUe := t.mem.sramUe } }
  | .store, s, t => { s with
      ctls := t.ctls, ctxs := t.ctxs, free := t.free, host := t.host, images := t.images, log := t.log, now := t.now, rings := t.rings
      sys := t.sys, units := t.units
      mem := { s.mem with
        hbm := t.mem.hbm, hbmPoison := t.mem.hbmPoison, host := t.mem.host, hostPoison := t.mem.hostPoison, store := t.mem.store
        storePoison := t.mem.storePoison } }
  | .image, s, t => { s with
      binds := t.binds, ctxs := t.ctxs, free := t.free, host := t.host, images := t.images, keys := t.keys, log := t.log, mbs := t.mbs
      ops := t.ops, rings := t.rings, sys := t.sys, units := t.units
      mem := { s.mem with
        hbm := t.mem.hbm, hbmPoison := t.mem.hbmPoison, host := t.mem.host, hostPoison := t.mem.hostPoison, store := t.mem.store
        storePoison := t.mem.storePoison } }
  | .job, s, t => { s with
      chans := t.chans, cores := t.cores, ctxs := t.ctxs, free := t.free, host := t.host, jobs := t.jobs, lens := t.lens, log := t.log
      mbs := t.mbs, mirror := t.mirror, now := t.now, ops := t.ops, prings := t.prings, rings := t.rings, step := t.step
      sweeps := t.sweeps, sys := t.sys, units := t.units, upds := t.upds
      mem := { s.mem with
        hbm := t.mem.hbm, hbmPoison := t.mem.hbmPoison, host := t.mem.host, hostPoison := t.mem.hostPoison } }
  | .mirror, s, t => { s with
      beam := t.beam, ctxs := t.ctxs, free := t.free, groups := t.groups, host := t.host, jobs := t.jobs, keys := t.keys, log := t.log
      mbs := t.mbs, mirror := t.mirror, ops := t.ops, rings := t.rings, sec := t.sec, step := t.step, sys := t.sys, units := t.units
      upds := t.upds
      mem := { s.mem with
        allocs := t.mem.allocs, hbm := t.mem.hbm, hbmPoison := t.mem.hbmPoison, host := t.mem.host, hostPoison := t.mem.hostPoison
        pages := t.mem.pages } }
  | .pod, s, t => { s with
      cores := t.cores, ctxs := t.ctxs, free := t.free, groups := t.groups, host := t.host, lens := t.lens, log := t.log, mbs := t.mbs
      ops := t.ops, rings := t.rings, sys := t.sys, units := t.units, upds := t.upds
      mem := { s.mem with
        hbm := t.mem.hbm, hbmPoison := t.mem.hbmPoison, host := t.mem.host, hostPoison := t.mem.hostPoison } }
  | .peer, s, t => { s with
      beam := t.beam, chans := t.chans, cores := t.cores, ctxs := t.ctxs, free := t.free, groups := t.groups, host := t.host
      jobs := t.jobs, lens := t.lens, log := t.log, mirror := t.mirror, ops := t.ops, prings := t.prings, rings := t.rings
      sec := t.sec, sweeps := t.sweeps, sys := t.sys, units := t.units, upds := t.upds
      mem := { s.mem with
        hbm := t.mem.hbm, hbmPoison := t.mem.hbmPoison, host := t.mem.host, hostPoison := t.mem.hostPoison, sram := t.mem.sram
        sramPoison := t.mem.sramPoison, sramUe := t.mem.sramUe } }
  | .loupe, s, t => { s with
      ctls := t.ctls, ctxs := t.ctxs, free := t.free, host := t.host, log := t.log, loupe := t.loupe, now := t.now, rings := t.rings
      sec := t.sec, sys := t.sys, units := t.units
      mem := { s.mem with
        hbm := t.mem.hbm, hbmPoison := t.mem.hbmPoison, host := t.mem.host, hostPoison := t.mem.hostPoison } }
  | .serving, s, t => { s with
      beam := t.beam, chans := t.chans, ctxs := t.ctxs, free := t.free, host := t.host, log := t.log, mbs := t.mbs, ops := t.ops
      prings := t.prings, rings := t.rings, sec := t.sec, srv := t.srv, sys := t.sys, units := t.units
      mem := { s.mem with
        hbm := t.mem.hbm, hbmPoison := t.mem.hbmPoison, host := t.mem.host, hostPoison := t.mem.hostPoison } }
  | .security, s, t => { s with
      ctxs := t.ctxs, free := t.free, host := t.host, keys := t.keys, log := t.log, mbs := t.mbs, ops := t.ops, rings := t.rings
      sec := t.sec, sys := t.sys, units := t.units
      mem := { s.mem with
        hbm := t.mem.hbm, hbmPoison := t.mem.hbmPoison, host := t.mem.host, hostPoison := t.mem.hostPoison } }
  | .whole, s, t => { t with pending := s.pending }

end Sys2Proof.Machine
end

