-- ==== Sys2Proof/Certificates/Slice0/Obligations.lean ====
section
/-! DEFINITION. Sys2Proof/Certificates/Slice0/Obligations.lean: what is stated of the model, for the provers. -/

open Sys2Proof Sys2Proof.Machine

/-! ### The block: queue, tick, reset, stops -/

/-- The command at the front of the queue runs, on the state whose queue is its rest. -/
def Obligations.StepRunsFrontCommand : Prop :=
  ∀ (c : Instr) (rest : List Instr) (s : State), step { s with pending := c :: rest } = exec c { s with pending := rest }

/-- On an empty queue one tick passes. A mailbox with a waiting ORDERED request whose predecessors have all completed starts it, a mailbox of
the host only while the link is up (the model's choice: logs 1, 22). Then, in logic that is on and not FATAL, what the part suffers by itself
happens (the model's choice: log 81). -/
def Obligations.EmptyQueueTicks : Prop :=
  (∀ s : State, s.pending = [] → (∀ m, (s.mb m).waiting = none) →
    step s = .next (if s.diesOn && !s.isFatal then upset { s with now := s.now + 1 } else { s with now := s.now + 1 }))
  ∧ (∀ (s : State) (m op : Nat) (q : Request) (l : List (Nat × Nat)) (b : Mailbox), s.pending = [] → s.mbs = [(m, b)] →
    b.waiting = some (op, q, l) → l.any s.running? = false → (m < Config.mailboxes → s.host.up = true) →
    step s = .next (let u := mctpReply m (runWaited (specOf op) op q ({ s with now := s.now + 1 }.setMb m { b with waiting := none }))
                    if u.diesOn && !u.isFatal then upset u else u))
  ∧ (∀ (s : State) (m : Nat) (b : Mailbox), s.pending = [] → s.mbs = [(m, b)] → m < Config.mailboxes → s.host.up = false →
    step s = .next (if s.diesOn && !s.isFatal then upset { s with now := s.now + 1 } else { s with now := s.now + 1 }))

/-- Reset (R51, R69, R96, R352): nothing published, no command waits, every mailbox IDLE and expecting SEQUENCE 1, 0 and 1 assigned to context 0
and the others to none, every ring FREE with the registers of its group zero, no transaction and no commit; memory reads zero where nothing
has written (the model's choice: log 9). -/
def Obligations.ResetState : Prop :=
  State.reset.pending = [] ∧ State.reset.sys.valid = false ∧ State.reset.wf = true
  ∧ (∀ a, Mem.get State.reset.mem.hbm a = 0 ∧ Mem.get State.reset.mem.sram a = 0 ∧ Mem.get State.reset.mem.store a = 0)
  ∧ (∀ m, State.reset.mbReg m 0x08 = 0 ∧ State.reset.mbReg m 0x10 = 0 ∧ State.reset.mbReg m 0x18 = 0 ∧ State.reset.mbReg m 0x28 = 1)
  ∧ (∀ m, 2 ≤ m → State.reset.mbReg m 0x20 = 0) ∧ (∀ m, m < 2 → State.reset.mbReg m 0x20 = 768)
  ∧ (∀ j off, State.reset.ringReg j off = 0)
  ∧ (∀ off, State.reset.cfgReg off = 0)

/-- No command of the table stops the part: each of the 322 answers a next state from every state, with every operand. -/
def Obligations.EveryCommandCompletes : Prop := ∀ (i : Instr) (s : State), ∃ t, exec i s = .next t

/-- Memories, and the maps of mailboxes, contexts, rings, cores and units, keep their canonical form through every step, so that equal contents
are equal data and what is written reads back. -/
def Obligations.StepKeepsCanonicalForm : Prop := ∀ s t : State, s.wf = true → step s = .next t → t.wf = true

/-- The fields of a vector instruction word come back from the word that they encode to, and every bit of a 64-bit word is in a field
(R193). -/
def Obligations.VectorWordsDecodeAndEncode : Prop :=
  (∀ (op : Nat) (f : VecFields), op < 256 → f.wf = true → vecEncode op f < 2 ^ 64 ∧ vecDecode (vecEncode op f) = (op, f))
  ∧ ∀ w : Nat, w < 2 ^ 64 → (vecDecode w).2.wf = true ∧ vecEncode (vecDecode w).1 (vecDecode w).2 = w

/-! ### Mailboxes and the registers of the Aperture -/

/-- A GO write (R70, R71, R77): one to a BUSY mailbox only sets OVERRUN; a request with another SEQUENCE than EXPECT completes with
E_SEQUENCE and EXPECT as DETAIL; one whose CONTEXT is not the mailbox's owner completes with E_CONTEXT. EXPECT counts only acceptance.
A command that is admitted and completes in its mailbox without an indirect response leaves STATE DONE, CODE its status, DONE set, and the
response of R75: its header, then its payload. -/
def Obligations.MailboxAcceptance : Prop :=
  (∀ (q : Request) (s : State), s.reachMb q.mailbox = true →
     ((s.mb q.mailbox).st = 1 → exec (.sysEcho q) s = .next (s.setMb q.mailbox { s.mb q.mailbox with overrun := true }))
     ∧ ((s.mb q.mailbox).st ≠ 1 → q.sequence ≠ (s.mb q.mailbox).expect → ∃ t, exec (.sysEcho q) s = .next t
         ∧ (t.mb q.mailbox).st = 2 ∧ (t.mb q.mailbox).code = 0x104 ∧ (t.mb q.mailbox).done = true
         ∧ (t.mb q.mailbox).expect = (s.mb q.mailbox).expect
         ∧ field (t.mb q.mailbox).resp 12 4 = (s.mb q.mailbox).expect % 2 ^ 32)
     ∧ (∀ c, (s.mb q.mailbox).st ≠ 1 → q.sequence = (s.mb q.mailbox).expect → s.mbOwner q.mailbox = some c → q.context ≠ c →
         ∃ t, exec (.sysEcho q) s = .next t ∧ (t.mb q.mailbox).st = 2 ∧ (t.mb q.mailbox).code = 0x105
           ∧ (t.mb q.mailbox).expect = ((s.mb q.mailbox).expect + 1) % 2 ^ 64))
  ∧ (∀ (q : Request) (c : Nat) (p : Bytes) (s : State), admitted specSysEcho q c p none s = true → bitOf q.flags 2 = false →
     ∃ t, exec (.sysEcho q) s = .next t ∧ (t.mb q.mailbox).st = 2 ∧ (t.mb q.mailbox).code = 0 ∧ (t.mb q.mailbox).done = true
       ∧ (t.mb q.mailbox).tag = q.tag ∧ (t.mb q.mailbox).expect = ((s.mb q.mailbox).expect + 1) % 2 ^ 64
       ∧ (t.mb q.mailbox).resp = leBytes 2 0x0001 ++ leBytes 2 0 ++ leBytes 2 q.tag ++ leBytes 1 q.context ++ [0] ++ leBytes 4 p.length
           ++ leBytes 4 0 ++ leBytes 8 q.sequence ++ leBytes 8 0 ++ p)

/-- Group 0x00 (R82): SYS_NOP, SYS_ECHO, SYS_INFO, SYS_TIME, SYS_EVENT_RING (unbinding and binding) and SYS_RESET. -/
def Obligations.SystemCommands : Prop :=
  ∀ (q : Request) (c : Nat) (p : Bytes) (ind : Option Indirect) (s : State),
    (admitted specSysNop q c p ind s = true → exec (.sysNop q) s = .next (okWith specSysNop q c ind [] (s.taken 0x0000 q)))
    ∧ (admitted specSysEcho q c p ind s = true → exec (.sysEcho q) s = .next (okWith specSysEcho q c ind p (s.taken 0x0001 q)))
    ∧ (admitted specSysInfo q c p ind s = true → exec (.sysInfo q) s = .next (okWith specSysInfo q c ind
        (leBytes 8 (Config.buildId s.sec.sciFw) ++ leBytes 1 s.sys.slot ++ leBytes 1 s.sys.sciMajor ++ leBytes 1 s.sys.sciMinor
          ++ zeros 5 ++ leBytes 8 (s.now - s.sys.fwStart)) (s.taken 0x0002 q)))
    ∧ (admitted specSysTime q c p ind s = true → exec (.sysTime q) s = .next (okWith specSysTime q c ind
        (leBytes 8 s.now ++ leBytes 1 (b2n s.synced)) (s.taken 0x0003 q)))
    ∧ (admitted specSysEventRing q c p ind s = true → field p 0 2 = 0xFFFF → exec (.sysEventRing q) s = .next (okWith specSysEventRing q c ind []
        ((s.taken 0x0004 q).updCtx c fun x => { x with eventRing := none })))
    ∧ (admitted specSysEventRing q c p ind s = true → field p 0 2 < Config.rings → (s.ring (field p 0 2)).st ≠ 0 →
        (s.ring (field p 0 2)).ctx = c → (s.ring (field p 0 2)).kind = 2 →
        exec (.sysEventRing q) s = .next (okWith specSysEventRing q c ind []
          (drainEvents c Config.heldEvents ((s.taken 0x0004 q).updCtx c fun x => { x with eventRing := some (field p 0 2) }))))
    ∧ (admitted specSysReset q c p ind s = true → field p 0 1 ≤ 1 → s.loupe.trip = none →
        exec (.sysReset q) s = .next (okWith specSysReset q c ind []
          { s.taken 0x0005 q with sys := { s.sys with sysReset := some (max (s.sys.sysReset.getD 0) (field p 0 1)) } }))

/-- Register accesses (R11, R12, R13, R60, R70, R578): a refused read returns all ones and a refused write has no effect; a read of a
register with access RC returns and clears it, a half read only returns; a write acts by access code. -/
def Obligations.RegisterAccesses : Prop :=
  (∀ (blk : Block) (off size : Nat) (s : State), s.sys.valid = true → (sizeOk blk off size = false ∨ s.disabled blk = true) →
    exec (.apertureUnsupportedAccess false blk off size) s = .next { s with sys := { s.sys with rdata := 2 ^ (8 * size) - 1 } }
    ∧ ∀ v, exec (.registerWrite blk off size v) s = .next s ∧ exec (.apertureUnsupportedAccess true blk off size) s = .next s)
  ∧ (∀ (blk : Block) (off : Nat) (s : State), s.sys.valid = true → sizeOk blk off 8 = true → s.disabled blk = false →
      s.hidden blk off = false → inBuffer blk off = false →
      exec (.rcFieldRead blk off 8) s = .next { s with sys := { s.sys with
        rdata := Nat.lor (s.regRead blk off 8) (SMap.get 0 s.sys.rc (rcKey blk (off / 8 * 8)))
        rc := SMap.set 0 s.sys.rc (rcKey blk (off / 8 * 8)) 0 } }
      ∧ exec (.rcFieldRead blk off 4) s = .next { s with sys := { s.sys with
        rdata := Nat.lor (s.regRead blk off 4) (bits (SMap.get 0 s.sys.rc (rcKey blk (off / 8 * 8))) (8 * (off % 8)) 32) } })
  ∧ (∀ (j v : Nat) (s : State), s.sys.valid = true → s.isFatal = false →
      exec (.registerWrite (.ring j) 0x00 8 v) s = exec (.ringTailWrite j v) s
      ∧ exec (.registerWrite (.ring j) 0x08 8 v) s = exec (.ringHeadWrite j v) s
      ∧ exec (.registerWrite (.ring j) 0x10 8 8) s = .next (s.setRing j { s.ring j with badWrite := false })
      ∧ exec (.registerWrite (.ring j) 0x18 8 1) s = exec (.ringCtrlRestart j) s
      ∧ exec (.registerWrite (.ring j) 0x18 8 2) s = exec (.ringCtrlArm j) s)
  ∧ (∀ (ty inst v : Nat) (s : State), s.sys.valid = true → s.isFatal = false → s.disabled (.unit ty inst) = false → v < 2 ^ 64 →
      ty ≠ Config.tMirror → rw1c (s.unit ty inst).err v ≠ 0 → ty ≠ Config.tStore → ty ≠ Config.tHbm → errAt ty % 8 = 0 →
      exec (.registerWrite (.unit ty inst) (errAt ty) 8 v) s =
        .next (s.updUnit ty inst fun u => { u with err := rw1c u.err v }))
  ∧ (∀ (m : Nat) (s : State), s.reachMb m = true → (s.mb m).st = 1 →
      exec (.mailboxOverrun m) s = .next (s.setMb m { s.mb m with overrun := true }))

/-- Snapshots (R38–R41): TAKE latches every counter of a block at once, a second TAKE is queued; at the end the shadows hold the latched
values, SEQ has counted and a queued capture starts. -/
def Obligations.SnapshotCapture : Prop :=
  ∀ (ty inst : Nat) (s : State),
    (s.answers ty = true → s.isFatal = false → s.enabled ty inst = true → (s.unit ty inst).snap.busy = false →
      exec (.snapTake ty inst) s = .next (s.updUnit ty inst fun u => { u with snap := { u.snap with busy := true, latched := u.cnt } }))
    ∧ (s.answers ty = true → s.isFatal = false → s.enabled ty inst = true → (s.unit ty inst).snap.busy = true →
      exec (.snapTake ty inst) s = .next (s.updUnit ty inst fun u => { u with snap := { u.snap with pend := true } }))
    ∧ (s.isFatal = false → (s.unit ty inst).snap.busy = true → (s.unit ty inst).snap.pend = false →
      exec (.snapCaptureComplete ty inst) s = .next (s.updUnit ty inst fun u => { u with
        snap := { u.snap with busy := false, pend := false, seq := (u.snap.seq + 1) % 256, latched := [], shadow := u.snap.latched } }))
    ∧ (s.isFatal = false → (s.unit ty inst).snap.busy = true → (s.unit ty inst).snap.pend = true →
      exec (.snapCaptureComplete ty inst) s = .next (s.updUnit ty inst fun u => { u with
        snap := { u.snap with busy := true, pend := false, seq := (u.snap.seq + 1) % 256, latched := u.cnt, shadow := u.snap.latched } }))

/-! ### Rings -/

/-- RING_CREATE, RING_DESTROY, RING_DRAIN, RING_QUERY (R82, R85, R86, R333): the lowest FREE ring takes the arguments; a ring that nothing
holds becomes FREE, and the last one of a core only once the core has cleared; an idle descriptor ring is DRAINED at once, any other is
DRAINING and the answer PENDING; a query tells the ring's parameters and indexes. Each fails as its checks say: a ring of no handle, of
another context, BUSY, or in no state to drain.
RING_DRAIN_COMPLETE and CORE_CLEAR_COMPLETE (R143, R333): an idle DRAINING ring becomes DRAINED and its command's final record is
delivered; a clearing core's SRAM reads zero, unmarked, and the command that waits completes. -/
def Obligations.RingCommands : Prop :=
  (∀ (q : Request) (c : Nat) (p : Bytes) (ind : Option Indirect) (s : State),
     (∀ j, admitted specRingCreate q c p ind s = true → ringArgs c p s = none → ringRoom c p s = none → s.freeRing = some j →
       exec (.ringCreate q) s = .next (okWith specRingCreate q c ind (leBytes 2 j)
         (createRing j (field p 0 1) (field p 1 1) (field p 4 4) (field p 8 8) (field p 16 1) (field p 18 2) (field p 20 2) (field p 22 2)
           (field p 24 2) c (s.taken 0x0400 q))))
     ∧ (∀ e, admitted specRingCreate q c p ind s = true → (ringArgs c p s).or (ringRoom c p s) = some e →
       exec (.ringCreate q) s = .next (concluded specRingCreate q c p ind (s.taken 0x0400 q) (.fail e.1 e.2)))
     ∧ (admitted specRingDestroy q c p ind s = true → ringHandle c (field p 0 2) s = none → s.ringBusy (field p 0 2) = false →
         unitCore (s.ring (field p 0 2)).unitType (s.ring (field p 0 2)).unitInst = none →
         exec (.ringDestroy q) s = .next (okWith specRingDestroy q c ind [] ((s.taken 0x0401 q).setRing (field p 0 2) Ring.init)))
     ∧ (∀ k, admitted specRingDestroy q c p ind s = true → ringHandle c (field p 0 2) s = none → s.ringBusy (field p 0 2) = false →
         unitCore (s.ring (field p 0 2)).unitType (s.ring (field p 0 2)).unitInst = some k →
         exec (.ringDestroy q) s = .next (if ((s.setRing (field p 0 2) Ring.init).coreRings k).isEmpty
           then beginClear k (some q.mailbox) ((s.taken 0x0401 q).setRing (field p 0 2) Ring.init)
           else okWith specRingDestroy q c ind [] ((s.taken 0x0401 q).setRing (field p 0 2) Ring.init)))
     ∧ (admitted specRingDestroy q c p ind s = true → ringHandle c (field p 0 2) s = none → s.ringBusy (field p 0 2) = true →
         exec (.ringDestroy q) s = .next (concluded specRingDestroy q c p ind (s.taken 0x0401 q) (.fail eBusy 0)))
     ∧ (admitted specRingDrain q c p ind s = true → ringHandle c (field p 0 2) s = none → (s.ring (field p 0 2)).kind = 0 →
         (s.ring (field p 0 2)).st ≤ 2 →
         exec (.ringDrain q) s = .next (
           let j := field p 0 2
           let u := (handleWait j (s.taken 0x0402 q)).setRing j { s.ring j with
             st := 3, drainOp := some (s.ctx c).nextOp, fence := 0, fetched := if (s.ring j).inTask then (s.ring j).fetched else [] }
           if q.defer = false ∧ (s.ring j).cur = none ∧ ((s.ring j).inTask = false ∨ (s.ring j).filled = 0 ∧ u.recRoom (s.ring j) = true)
           then okWith specRingDrain q c ind [] (drained j u) else pendWith specRingDrain q c p (s.taken 0x0402 q) u))
     ∧ (admitted specRingDrain q c p ind s = true → ringHandle c (field p 0 2) s = none →
         ((s.ring (field p 0 2)).kind ≠ 0 ∨ 2 < (s.ring (field p 0 2)).st) →
         exec (.ringDrain q) s = .next (concluded specRingDrain q c p ind (s.taken 0x0402 q) (.fail eState (s.ring (field p 0 2)).st)))
     ∧ (admitted specRingQuery q c p ind s = true → ringHandle c (field p 0 2) s = none →
         exec (.ringQuery q) s = .next (okWith specRingQuery q c ind
           (let r := s.ring (field p 0 2)
            leBytes 1 r.kind ++ leBytes 1 r.slotLog2 ++ [0, 0] ++ leBytes 4 r.slots ++ leBytes 8 r.base ++ leBytes 1 r.space ++ [0]
             ++ leBytes 2 r.unitType ++ leBytes 2 r.unitInst ++ leBytes 2 r.completion ++ leBytes 2 r.vector ++ zeros 6
             ++ leBytes 4 r.head ++ leBytes 4 r.tail ++ leBytes 1 (b2n (r.st == 2))) (s.taken 0x0403 q)))
     ∧ (∀ e, ringHandle c (field p 0 2) s = some e →
         (admitted specRingDestroy q c p ind s = true →
           exec (.ringDestroy q) s = .next (concluded specRingDestroy q c p ind (s.taken 0x0401 q) (.fail e.1 e.2)))
         ∧ (admitted specRingDrain q c p ind s = true →
           exec (.ringDrain q) s = .next (concluded specRingDrain q c p ind (s.taken 0x0402 q) (.fail e.1 e.2)))
         ∧ (admitted specRingQuery q c p ind s = true →
           exec (.ringQuery q) s = .next (concluded specRingQuery q c p ind (s.taken 0x0403 q) (.fail e.1 e.2)))))
  ∧ ((∀ (ring : Nat) (s : State), (s.ring ring).st = 3 → s.isFatal = false → s.drainIdle ring = true →
       exec (.ringDrainComplete ring) s = .next (match (s.ring ring).drainOp with
         | some h => finishOp (s.ring ring).ctx h 0 0 [] (drained ring s)
         | none => drained ring s)
       ∧ ((drained ring s).ring ring).st = 4 ∧ ((drained ring s).ring ring).inTask = false ∧ ((drained ring s).ring ring).drainOp = none
       ∧ ((drained ring s).ring ring).fetched = [])
   ∧ (∀ (ring : Nat) (s : State), (s.ring ring).st ≠ 3 ∨ s.drainIdle ring = false → exec (.ringDrainComplete ring) s = .next s)
   ∧ (∀ (ty inst k : Nat) (s : State), unitCore ty inst = some k → ty = Config.tTeacher ∨ ty = Config.tStudent →
     (s.core k).clearing = true → Memory.wf s.mem.sram = true → SMap.wf Core.init s.cores = true →
     ∃ u, exec (.coreClearComplete ty inst) s = .next (match (s.core k).waiter with | some m => completeHeld m 0 0 [] u | none => u)
       ∧ (u.core k).clearing = false ∧ (u.core k).waiter = none ∧ u.mbs = s.mbs ∧ u.rings = s.rings
       ∧ (∀ off, off < Config.sramStride → Mem.get u.mem.sram (sramAt k off) = 0)
       ∧ (∀ off n, 0 < n → off + n ≤ Config.sramStride → u.sramBad k off n = false)
       ∧ (∀ a, a < sramAt k 0 ∨ sramAt (k + 1) 0 ≤ a → Mem.get u.mem.sram a = Mem.get s.mem.sram a))
   ∧ (∀ (ty inst k : Nat) (s : State), unitCore ty inst = some k → (s.core k).clearing = false → exec (.coreClearComplete ty inst) s = .next s))

/-- Ring registers (R331, R333, R335): a valid index write takes effect, an invalid one sets BAD_WRITE; RESTART runs a DRAINED ring; ARM.
What a write of TAIL accepts, in the words of R331: (new − HEAD) mod 2S ≤ SLOTS and (new − old TAIL) mod 2S ≤ (new − HEAD) mod 2S; for
HEAD, (TAIL − new) mod 2S ≤ (TAIL − old HEAD) mod 2S. -/
def Obligations.RingRegisters : Prop :=
  (∀ (j v : Nat) (s : State), s.isFatal = false → (s.ring j).st ≠ 0 →
     ((s.ring j).tailRw = true → (s.ring j).tailValid (v % 2 ^ 32) = true → (s.ring j).kind ≠ 1 →
       exec (.ringTailWrite j v) s = .next (s.setRing j { s.ring j with tail := v % 2 ^ 32 }))
     ∧ ((s.ring j).tailValid (v % 2 ^ 32) = true → (s.ring j).kind = 1 →
       exec (.ringTailWrite j v) s = .next (
         let u := s.setRing j { s.ring j with tail := v % 2 ^ 32, posted := Nat.lor (s.ring j).posted 2 }
         if bitOf (s.ring j).posted 0
         then slotsUndefined j (s.ring j).tail ((v % 2 ^ 32 + 2 * (s.ring j).slots - (s.ring j).tail) % (2 * (s.ring j).slots)) u else u))
     ∧ ((s.ring j).tailRw = true → (s.ring j).tailValid (v % 2 ^ 32) = false →
       exec (.ringTailWrite j v) s = .next (s.setRing j { s.ring j with badWrite := true }))
     ∧ ((s.ring j).headRw = true → (s.ring j).headValid (v % 2 ^ 32) = true → (s.ring j).held = [] → (s.ring j).kind ≠ 2 →
       exec (.ringHeadWrite j v) s = .next (settleNamed j (s.setRing j { s.ring j with
         head := v % 2 ^ 32
         done := if (s.ring j).kind < 2 then ((s.ring j).done + (v % 2 ^ 32 + 2 * (s.ring j).slots - (s.ring j).head) % (2 * (s.ring j).slots)) % 2 ^ 32
                 else (s.ring j).done })))
     ∧ ((s.ring j).headValid (v % 2 ^ 32) = true → (s.ring j).kind = 2 → s.ctx (s.ring j).ctx = { s.ctx (s.ring j).ctx with held := [] } →
       exec (.ringHeadWrite j v) s = .next (settleNamed j (s.setRing j { s.ring j with head := v % 2 ^ 32 })))
     ∧ (∀ u : State, (u.rings.all fun r => r.2.completion != j) = true → settleNamed j u = u)
     ∧ ((s.ring j).headRw = true → (s.ring j).headValid (v % 2 ^ 32) = false →
       exec (.ringHeadWrite j v) s = .next (s.setRing j { s.ring j with badWrite := true }))
     ∧ ((s.ring j).kind = 0 → (s.ring j).st = 4 → (s.unit (s.ring j).unitType (s.ring j).unitInst).oos = false →
       exec (.ringCtrlRestart j) s = .next (s.setRing j { s.ring j with st := 1 }))
     ∧ ((s.ring j).kind ≠ 0 ∨ (s.ring j).st ≠ 4 → exec (.ringCtrlRestart j) s = .next s)
     ∧ exec (.ringCtrlArm j) s = .next (s.setRing j { s.ring j with arm := true }))
  ∧ (∀ (r : Ring) (v : Nat), 0 < r.slots → r.head < 2 * r.slots → r.tail < 2 * r.slots → v < 2 * r.slots →
     (r.tailValid v = true ↔ ((v : Int) - r.head) % (2 * r.slots) ≤ r.slots
       ∧ ((v : Int) - r.tail) % (2 * r.slots) ≤ ((v : Int) - r.head) % (2 * r.slots))
     ∧ (r.headValid v = true ↔ ((r.tail : Int) - v) % (2 * r.slots) ≤ ((r.tail : Int) - r.head) % (2 * r.slots)))

/-- DESCRIPTOR_FETCH, NOP, TASK_COMPLETE, FENCE and FENCE_RESUME (R87, R147, R332, R336, R338): a running ring fetches; NOP writes its record
and goes on, and one that ends a task while the core holds its bank is a broken chain; a descriptor whose work has ended writes its record;
a FENCE takes and posts handles, waits for a handle or a free slot, completes, or fails its checks. -/
def Obligations.DescriptorFlow : Prop :=
  ∀ (j : Nat) (s : State), s.isFatal = false →
    (∀ n, (s.ring j).kind = 0 → (s.ring j).st = 1 → (s.ring j).unitType ≠ 0 → (s.ctx (s.ring j).ctx).st ≠ 2 → s.updStopped (s.ring j) = false →
      exec (.descriptorFetch j n) s = .next (windowAfter (s.ring j).unitType (settleAll j (fetchMore j (min n Config.fetchAhead) s))))
    ∧ (∀ ix d, s.headOf j 0 = some (ix, d) → (∀ k, unitCore (s.ring j).unitType (s.ring j).unitInst = some k → s.chainHeld k j = true → dLink d = true) →
        exec (.descriptorNop j) s = .next (settleAll j
          ((recordDesc j ix d 0 0 (reasonDetail (s.ring j).unitType d 0) false (consume j s)).updRing j fun r => r.goOn (dLink d) false)))
    ∧ (∀ ix d k, s.headOf j 0 = some (ix, d) → unitCore (s.ring j).unitType (s.ring j).unitInst = some k → s.chainHeld k j = true →
        dLink d = false → exec (.descriptorNop j) s = .next (coreAbort j ix d 0x113 4 3 none 0 s))
    ∧ (∀ c, (s.ring j).cur = some c → c.phase = 1 → (s.recRoom (s.ring j) = true ∨ (dCr c.desc || c.force) = false) →
        exec (.taskComplete j) s = .next (windowAfter (s.ring j).unitType (completeCur j s)))
    ∧ (∀ ix d st, s.headOf j 1 = some (ix, d) → (s.ring j).fence = 0 → fenceCheck j d s = some st →
        exec (.fence j) s = .next (settleAll j (fenceArg j ix d st s)))
    ∧ (∀ ix d, s.headOf j 1 = some (ix, d) → (s.ring j).fence = 0 → fenceCheck j d s = none → bits (field d 9 1) 0 2 = 0 →
        exec (.fence j) s = .next (fenceEnd j ix d 0 0 s))
    ∧ (∀ ix d, s.headOf j 1 = some (ix, d) → (s.ring j).fence = 0 → fenceCheck j d s = none → bitOf (field d 9 1) 0 = false →
        bitOf (field d 9 1) 1 = true → exec (.fence j) s = .next (if (s.ring (field d 12 2)).full
          then s.updRing j fun r => { r with fence := 2, fenceAt := s.now }
          else fenceEnd j ix d 0 0 (ringPut (field d 12 2) ((d.drop 16).take 16) s)))
    ∧ (∀ ix d, s.headOf j 1 = some (ix, d) → (s.ring j).fence = 0 → fenceCheck j d s = none → bitOf (field d 9 1) 0 = true →
        (s.ring (field d 10 2)).filled = 0 → exec (.fence j) s = .next (s.updRing j fun r => { r with fence := 1, fenceAt := s.now }))
    ∧ (∀ ix d, s.headOf j 1 = some (ix, d) → (s.ring j).fence = 0 ∧ fenceCheck j d s = none ∨ (s.ring j).fence = 1 → bitOf (field d 9 1) 0 = true →
        (s.ring (field d 10 2)).filled ≠ 0 → s.spaceBad (s.ring (field d 10 2)).space ((s.ring (field d 10 2)).slotAddr (s.ring (field d 10 2)).head) 16 = false →
        exec (if (s.ring j).fence = 0 then .fence j else .fenceResume j) s = .next (
          let h := s.ring (field d 10 2)
          let u := s.setRing (field d 10 2) { h with head := h.nextIx h.head, done := (h.done + 1) % 2 ^ 32 }
          if bitOf (field d 9 1) 2 = true ∧ field (s.spaceRead h.space (h.slotAddr h.head) 16) 12 2 ≠ field d 14 2
          then fenceEnd j ix d 0x10C (reasonHandle (s.ring j).unitType) u else fencePost j ix d u))
    ∧ (∀ ix d, s.headOf j 1 = some (ix, d) → (s.ring j).fence = 2 → bitOf (field d 9 1) 1 = true → (s.ring (field d 12 2)).full = false →
        exec (.fenceResume j) s = .next (fenceEnd j ix d 0 0 (ringPut (field d 12 2) ((d.drop 16).take 16) s)))

/-- Fetching (R332) changes only the unit's queue of the ring: at most eight ahead of HEAD, none past TAIL, each the 64 bytes of its slot.
Reads of device memory are counted there (R360). -/
def Obligations.FetchStaysAhead : Prop :=
  ∀ (j n : Nat) (s : State), s.wf = true → (s.ring j).fetched.length ≤ 8 → (s.ring j).fetched.length ≤ (s.ring j).filled → (s.ring j).st ≠ 0 →
    ∃ l, (fetchMore j n s).ring j = { s.ring j with fetched := (s.ring j).fetched ++ l }
      ∧ (∀ i, i ≠ j → (fetchMore j n s).ring i = s.ring i)
      ∧ fetchMore j n s = { s with rings := (fetchMore j n s).rings, units := (fetchMore j n s).units }
      ∧ (∀ ty inst, (fetchMore j n s).unit ty inst = { s.unit ty inst with cnt := ((fetchMore j n s).unit ty inst).cnt })
      ∧ ((s.ring j).space ≠ 0 → (fetchMore j n s).units = s.units)
      ∧ (s.ring j).fetched.length + l.length ≤ 8 ∧ (s.ring j).fetched.length + l.length ≤ (s.ring j).filled
      ∧ ∀ i x, l[i]? = some x → x.1 = ((s.ring j).head + (s.ring j).fetched.length + i) % (2 * (s.ring j).slots)
        ∧ x.2 = (if s.spaceBad (s.ring j).space ((s.ring j).slotAddr x.1) 64 then none
                 else some (s.spaceRead (s.ring j).space ((s.ring j).slotAddr x.1) 64))

/-! ### Memory -/

/-- Group 0x03 (R82, R346, R353, R518): MEM_ALLOC gives the first run of free pages of the stack that is named, or of the lowest stack that has
one, zeroed; MEM_FREE returns an allocation; MEM_MAP_HOST and MEM_UNMAP_HOST open and close a window; what a task in progress reads or writes
is E_BUSY; MEM_COPY copies, or is PENDING; MEM_QUERY tells what is held.
MEM_COPY from device memory to device memory (R82): the destination then reads as the source did, and every other byte of device memory as
before; SRAM, host memory and Store are unchanged. -/
def Obligations.MemoryCommands : Prop :=
  (∀ (q : Request) (c : Nat) (p : Bytes) (ind : Option Indirect) (s : State),
     (let t := s.taken 0x0300 q
      let n := cdiv (field p 0 8) Config.pageBytes
      ∀ pg, admitted specMemAlloc q c p ind s = true → field p 0 8 ≠ 0 → field p 8 1 ≤ 1 →
       (field p 9 2 = 0xFFFF ∨ field p 9 2 < 8 ∧ sideOf (field p 9 2) = field p 8 1 ∧ s.enabled Config.tHbm (field p 9 2) = true) →
       21 ≤ field p 11 1 → field p 11 1 ≤ 30 →
       (c = 0 ∨ s.heldBytes c (field p 8 1) + n * Config.pageBytes
         ≤ (if field p 8 1 = 0 then (s.ctx c).quota.hbmT else (s.ctx c).quota.hbmS) * 2 ^ 20) →
       (if field p 9 2 ≠ 0xFFFF then [field p 9 2] else if field p 8 1 = 0 then [0, 1, 2, 3] else [4, 5, 6, 7]).findSome? (fun k => s.freeRun k n (2 ^ (field p 11 1 - 21))) = some pg →
       exec (.memAlloc q) s = .next (okWith specMemAlloc q c ind (leBytes 8 (pg * Config.pageBytes)) (takePages c pg n t)))
     ∧ (∀ a, admitted specMemFree q c p ind s = true →
         (s.mem.allocs.find? fun a => a.base == field p 0 8 && a.ctx == c && s.agents.all (fun g => g.2.base != a.base)) = some a →
         s.spaceUsed c 0 a.base a.len = false →
         exec (.memFree q) s = .next (okWith specMemFree q c ind [] (freePages a (s.taken 0x0301 q))))
     ∧ (∀ a, admitted specMemFree q c p ind s = true →
         (s.mem.allocs.find? fun a => a.base == field p 0 8 && a.ctx == c && s.agents.all (fun g => g.2.base != a.base)) = some a →
         s.spaceUsed c 0 a.base a.len = true →
         exec (.memFree q) s = .next (concluded specMemFree q c p ind (s.taken 0x0301 q) (.fail eBusy 0)))
     ∧ (∀ w, admitted specMemUnmapHost q c p ind s = true → ((s.ctx c).windows.find? fun w => w.handle == field p 0 2) = some w →
         s.spaceUsed c 1 w.base w.len = true →
         exec (.memUnmapHost q) s = .next (concluded specMemUnmapHost q c p ind (s.taken 0x0303 q) (.fail eBusy 0)))
     ∧ (admitted specMemCopy q c p ind s = true → q.defer = true → field p 16 8 ≠ 0 →
         s.reach c (field p 24 1 % 2) (field p 0 8) (field p 16 8) = true → s.reach c (field p 24 1 / 2) (field p 8 8) (field p 16 8) = true →
         (field p 24 1 % 2 = field p 24 1 / 2 → runsMeet (field p 0 8) (field p 16 8) (field p 8 8) (field p 16 8) = false) →
         exec (.memCopy q) s = .next (pendWith specMemCopy q c p (s.taken 0x0304 q) (s.taken 0x0304 q)))
     ∧ (∀ h, admitted specMemMapHost q c p ind s = true → field p 0 8 % 4096 = 0 → field p 8 8 ≠ 0 → field p 8 8 % 4096 = 0 →
         field p 0 8 + field p 8 8 ≤ 2 ^ 64 → (s.ctx c).windows.length < 65535 → s.ideDenied c = false →
         ((List.range 65536).find? fun h => (s.ctx c).windows.all fun w => w.handle != h) = some h →
         exec (.memMapHost q) s = .next (okWith specMemMapHost q c ind (leBytes 2 h) ((s.taken 0x0302 q).updCtx c fun x => { x with
           windows := x.windows ++ [{ handle := h, base := field p 0 8, len := field p 8 8 }] })))
     ∧ (∀ w, admitted specMemUnmapHost q c p ind s = true → ((s.ctx c).windows.find? fun w => w.handle == field p 0 2) = some w →
         s.spaceUsed c 1 w.base w.len = false →
         exec (.memUnmapHost q) s = .next (okWith specMemUnmapHost q c ind [] ((s.taken 0x0303 q).updCtx c fun x => { x with
           windows := x.windows.filter fun v => v.handle != w.handle })))
     ∧ (admitted specMemQuery q c p ind s = true → exec (.memQuery q) s = .next (okWith specMemQuery q c ind
         (leBytes 8 (s.heldBytes c 0) ++ leBytes 8 (s.heldBytes c 1) ++ leBytes 2 (s.ctx c).windows.length) (s.taken 0x0305 q))))
  ∧ (∀ (q : Request) (c : Nat) (p : Bytes) (s : State), admitted specMemCopy q c p none s = true → q.defer = false → bitOf q.flags 2 = false →
     field p 24 1 = 0 → field p 16 8 ≠ 0 → s.reach c 0 (field p 0 8) (field p 16 8) = true → s.reach c 0 (field p 8 8) (field p 16 8) = true →
     runsMeet (field p 0 8) (field p 16 8) (field p 8 8) (field p 16 8) = false → s.hbmBad (field p 0 8) (field p 16 8) = false →
     s.mem.wf = true →
     ∃ t, exec (.memCopy q) s = .next t ∧ (t.mb q.mailbox).st = 2 ∧ (t.mb q.mailbox).code = 0
       ∧ Mem.read t.mem.hbm (field p 8 8) (field p 16 8) = Mem.read s.mem.hbm (field p 0 8) (field p 16 8)
       ∧ (∀ a, a < field p 8 8 ∨ field p 8 8 + field p 16 8 ≤ a → Mem.get t.mem.hbm a = Mem.get s.mem.hbm a)
       ∧ t.mem.sram = s.mem.sram ∧ t.mem.host = s.mem.host ∧ t.mem.store = s.mem.store
       ∧ t.rings = s.rings ∧ t.ctxs = s.ctxs ∧ t.cores = s.cores ∧ t.jobs = s.jobs ∧ t.images = s.images)

/-- HBM controllers (R355, R356, R576): a refresh is counted, with refresh-management commands and waits whose number is free; the scrubber counts a line, a corrected error, or poisons the line, sets UE and
raises the error record; a failed stack reads poison from then on, and the owners of its pages are told.
Writing device memory (R355): the run reads back, every other byte is as before, a line written whole loses its poison, one written in
part keeps it. -/
def Obligations.DeviceMemory : Prop :=
  ((∀ (k : Nat) (s : State), s.enabled Config.tHbm k = true → exec (.hbmRefreshTimer k) s = .next (spent Config.tHbm k [7, 9] (bump Config.tHbm k 6 1 s)))
   ∧ (∀ (a : Nat) (s : State), a < Config.hbmBytes → s.isFatal = false →
       exec (.hbmScrubLine a 0) s = .next (bump Config.tHbm (stackOf a) 8 1 s)
       ∧ (s.mem.hbmPoison.contains (a / 64) = false →
           exec (.hbmScrubLine a 1) s = .next (hbmCorrected (stackOf a) (bump Config.tHbm (stackOf a) 8 1 s))
           ∧ ∀ n, exec (.hbmScrubLine a (n + 2)) s = .next (hbmUncorrectable a true (bump Config.tHbm (stackOf a) 8 1 s))))
   ∧ (∀ (k : Nat) (s : State), k < 8 → s.mem.failed.contains k = false →
       exec (.hbmStackFail k) s = .next (raiseUnit { code := 7, status := 0x1FF, flags := 0, ty := Config.tHbm, inst := k, ctx := 255
                                                     ring := 0xFFFF, index := 0, addr := 0, space := 0 }
         ((s.mem.allocs.filter fun a => stackOf a.base == k || stackOf (a.base + a.len - 1) == k).map (·.ctx))
         { s with mem := { s.mem with failed := NSet.ins k s.mem.failed } })
       ∧ ∀ a n, 0 < n → stackOf a = k → State.hbmBad { s with mem := { s.mem with failed := NSet.ins k s.mem.failed } } a n = true))
  ∧ (∀ (a : Nat) (bs : Bytes) (s : State), s.mem.wf = true →
     (hbmWrite a bs s).hbmRead a bs.length = bs
     ∧ (∀ x, x < a ∨ a + bs.length ≤ x → Mem.get (hbmWrite a bs s).mem.hbm x = Mem.get s.mem.hbm x)
     ∧ (∀ l, l ∈ (hbmWrite a bs s).mem.hbmPoison ↔ l ∈ s.mem.hbmPoison ∧ coversLine a bs.length l = false)
     ∧ (hbmWrite a bs s).mem.sram = s.mem.sram ∧ (hbmWrite a bs s).mem.wf = true)

/-! ### Contexts and agents -/

/-- Contexts (R67, R71, R80–R83, R511, R513): creation with fresh keys, quotas, queries, and the assignment and release of mailboxes. -/
def Obligations.ContextCommands : Prop :=
  ∀ (q : Request) (c : Nat) (p : Bytes) (ind : Option Indirect) (s : State),
    (admitted specCtxCreate q c p ind s = true → 1 ≤ field p 0 1 → field p 0 1 ≤ 63 → (parseQuota p 64).bad = none →
      (s.ctx (field p 0 1)).st = 0 → exec (.ctxCreate q) s = .next (okWith specCtxCreate q c ind (leBytes 1 (field p 0 1))
        ({ s.taken 0x0200 q with keys := s.keys + 2 }.setCtx (field p 0 1) { Context.init with
          st := 1, quota := parseQuota p 64, hbmKey := s.keys + 1, nonce := s.keys + 2, txnCount := (s.ctx (field p 0 1)).txnCount })))
    ∧ (∀ n, admitted specCtxCreate q c p ind s = true → field p 0 1 = 0xFF → (parseQuota p 64).bad = none →
      ((List.range 64).find? fun c => c != 0 && (s.ctx c).st == 0) = some n →
      exec (.ctxCreate q) s = .next (okWith specCtxCreate q c ind (leBytes 1 n)
        ({ s.taken 0x0200 q with keys := s.keys + 2 }.setCtx n { Context.init with
          st := 1, quota := parseQuota p 64, hbmKey := s.keys + 1, nonce := s.keys + 2, txnCount := (s.ctx n).txnCount })))
    ∧ (admitted specCtxSetQuota q c p ind s = true → 1 ≤ field p 0 1 → field p 0 1 ≤ 63 → (parseQuota p 64).bad = none →
      (s.ctx (field p 0 1)).st ≠ 0 → exec (.ctxSetQuota q) s = .next (okWith specCtxSetQuota q c ind []
        ((s.taken 0x0202 q).updCtx (field p 0 1) fun x => { x with quota := parseQuota p 64 })))
    ∧ (let t := s.taken 0x0203 q
      admitted specCtxQuery q c p ind s = true → field p 0 1 ≤ 63 → (c = 0 ∨ c = field p 0 1) →
      exec (.ctxQuery q) s = .next (okWith specCtxQuery q c ind
        ((if field p 0 1 = 0 then zeros 64 else (s.ctx (field p 0 1)).quota.bytes) ++ (t.usage (field p 0 1)).bytes
          ++ leBytes 1 (if field p 0 1 = 0 then 1 else (s.ctx (field p 0 1)).st)) t))
    ∧ (let t := s.taken 0x0204 q
      admitted specCtxAssignMailbox q c p ind s = true → 2 ≤ field p 0 2 → field p 0 2 < Config.mailboxes → 1 ≤ field p 2 1 →
      field p 2 1 ≤ 63 → (s.ctx (field p 2 1)).st = 1 → t.mailboxesOf (field p 2 1) < (s.ctx (field p 2 1)).quota.mailboxes →
      (t.mb (field p 0 2)).assigned = false → exec (.ctxAssignMailbox q) s = .next (okWith specCtxAssignMailbox q c ind []
        (t.setMb (field p 0 2) { t.mb (field p 0 2) with assigned := true, ctx := field p 2 1, expect := 1 })))
    ∧ (let t := s.taken 0x0205 q
      admitted specCtxReleaseMailbox q c p ind s = true → 2 ≤ field p 0 2 → field p 0 2 < Config.mailboxes →
      (t.mb (field p 0 2)).assigned = true → (t.mb (field p 0 2)).st ≠ 1 →
      exec (.ctxReleaseMailbox q) s = .next (okWith specCtxReleaseMailbox q c ind []
        (t.setMb (field p 0 2) { t.mb (field p 0 2) with assigned := false, ctx := 0 })))

/-- Agents (R97–R99): loading measures the image and gives it a zeroed window and a private mailbox; starting, stopping, unloading; a fault
stops the agent and tells its context. -/
def Obligations.AgentCommands : Prop :=
  ∀ (q : Request) (c : Nat) (p : Bytes) (ind : Option Indirect) (s : State),
    (let t := s.taken 0x0207 q
     let pages := cdiv (field p 12 4 * 2 ^ 20) Config.pageBytes
     ∀ g pg, admitted specCtxAgentLoad q c p ind s = true → s.reach c 0 (field p 0 8) (field p 8 4) = true → 0 < field p 8 4 →
      field p 8 4 ≤ agentImageMax → 0 < field p 12 4 → field p 12 4 ≤ 64 → s.agentsOf c < (s.ctx c).quota.agents →
      s.heldBytes c 1 + pages * Config.pageBytes ≤ (s.ctx c).quota.hbmS * 2 ^ 20 → s.freeAgent = some g →
      [4, 5, 6, 7].findSome? (fun k => s.freeRun k pages 1) = some pg →
      (q.defer = true → exec (.ctxAgentLoad q) s = .next (pendWith specCtxAgentLoad q c p t t))
      ∧ (q.defer = false → s.hbmBad (field p 0 8) (field p 8 4) = false →
      exec (.ctxAgentLoad q) s = .next (okWith specCtxAgentLoad q c ind
        (leBytes 1 g ++ zeros 7 ++ fitTo 24 (Config.sha384 (s.hbmRead (field p 0 8) (field p 8 4))))
        (((takePages c pg pages (hbmTaken (field p 0 8) (field p 8 4) t)).setAgent g {
            st := 1, ctx := c, image := s.hbmRead (field p 0 8) (field p 8 4)
            measure := fitTo 48 (Config.sha384 (s.hbmRead (field p 0 8) (field p 8 4)))
            base := pg * Config.pageBytes, len := field p 12 4 * 2 ^ 20, arg := 0 }).setMb (Config.mailboxes + g) { Mailbox.init with assigned := true, ctx := c }))))
    ∧ (admitted specCtxAgentStart q c p ind s = true → agentCheck c (field p 0 1) s = none → (s.agent (field p 0 1)).st = 1 →
        exec (.ctxAgentStart q) s = .next (okWith specCtxAgentStart q c ind []
          ((s.taken 0x0208 q).setAgent (field p 0 1) { s.agent (field p 0 1) with st := 2, arg := field p 8 8 })))
    ∧ (admitted specCtxAgentStop q c p ind s = true → agentCheck c (field p 0 1) s = none → (s.agent (field p 0 1)).st = 2 →
        exec (.ctxAgentStop q) s = .next (okWith specCtxAgentStop q c ind []
          ((s.taken 0x0209 q).setAgent (field p 0 1) { s.agent (field p 0 1) with st := 1 })))
    ∧ (admitted specCtxAgentUnload q c p ind s = true → agentCheck c (field p 0 1) s = none → (s.agent (field p 0 1)).st ≠ 2 →
        exec (.ctxAgentUnload q) s = .next (okWith specCtxAgentUnload q c ind [] (agentUnload (field p 0 1) (s.taken 0x020A q))))
    ∧ (∀ n act, n < 4 → s.isFatal = false → (s.agent n).st = 2 → s.agentMay n act = false →
        exec (.agentFault n act) s = .next (deliverEvent (s.agent n).ctx
          (eventRecord 0xFFFF (if act = .illegal then 0x108 else 0x106) 0 2 0 0 s.now [] 0) (s.setAgent n { s.agent n with st := 1 })))
    ∧ (∀ n act, n < 4 → s.isFatal = false → (s.agent n).st = 2 → s.agentMay n act = true → exec (.agentFault n act) s = .next (agentDo n act s))

/-! ### Configuration transactions -/

/-- Group 0x01 (R90–R96, R595): a transaction is opened, filled, rolled back, and settings are read. CFG_COMMIT ends at once where every affected
instance accepts and holds, or where one rejects; else it is PENDING, or its mailbox stays BUSY.
A commit that did not end at once (R93, R95): all hold, the first rejection, 100 ms without quiescence; a transaction not committed within
10 s is rolled back and its id answers E_TXN_EXPIRED. -/
def Obligations.ConfigCommands : Prop :=
  (∀ (q : Request) (c : Nat) (p : Bytes) (ind : Option Indirect) (s : State),
     (let id := nextTxnId c (s.ctx c).txnCount
      admitted specCfgBegin q c p ind s = true → s.txn c = none → exec (.cfgBegin q) s = .next (okWith specCfgBegin q c ind (leBytes 4 id)
       (setTxn { ctx := c, id, st := 1, items := [], start := s.now, op := none, mailbox := q.mailbox, since := 0, left := 0, rejected := [] }
         ((s.taken 0x0100 q).updCtx c fun x => { x with txnCount := x.txnCount + 1 }))))
     ∧ (let items := (List.range (field p 4 4)).map fun k => itemAt p (8 + 16 * k)
       let staged (tx : Txn) := (items.flatMap fun x => (itemInsts c x s).map fun k => { x with inst := k }).foldl stageItem tx.items
       ∀ tx, admitted specCfgSet q c p ind s = true → s.txn c = some tx → tx.id = field p 0 4 → tx.st = 1 → tx.id / 2 ^ 26 = c →
       1 ≤ field p 4 4 → field p 4 4 ≤ 125 → (∀ x ∈ items, itemPerm c x s = false) → (∀ x ∈ items, itemArg x true s = none) →
       (staged tx).length ≤ 1024 →
       exec (.cfgSet q) s = .next (okWith specCfgSet q c ind (leBytes 4 (staged tx).length) (setTxn { tx with items := staged tx } (s.taken 0x0101 q))))
     ∧ (∀ tx, admitted specCfgRollback q c p ind s = true → s.txn c = some tx → tx.id = field p 0 4 → tx.st = 1 → tx.id / 2 ^ 26 = c →
       exec (.cfgRollback q) s = .next (okWith specCfgRollback q c ind [] (planKick (dropTxn c (s.taken 0x0103 q)))))
     ∧ (admitted specCfgQuery q c p ind s = true → field p 2 2 ≠ 0xFFFF → itemArg (itemAt p 0) false s = none →
       exec (.cfgQuery q) s = .next (okWith specCfgQuery q c ind (leBytes 8 (s.valueOf (field p 0 2) (field p 2 2) (field p 4 2))) (s.taken 0x0104 q)))
     ∧ (∀ tx, admitted specCfgCommit q c p ind s = true → s.txn c = some tx → tx.id = field p 0 4 → tx.st = 1 → tx.id / 2 ^ 26 = c →
       s.cfg.queue = [] → q.defer = false →
       let tx' : Txn := { tx with st := 2, op := none, mailbox := q.mailbox, left := (tx.start + 10 * Config.sec - s.now) / (10 * Config.ms) }
       let t := cfgStart (setTxn tx' { s.taken 0x0102 q with cfg := { s.cfg with queue := [c] } })
       t.cfgFront.bind Txn.firstReject = none → t.firstBusy tx' = none →
       exec (.cfgCommit q) s = .next (okWith specCfgCommit q c ind (cfgAnswer (cfgClose 0 t).2.now (cfgClose 0 t).1)
         (planKick (cfgStart (cfgClose 0 t).2))))
     ∧ (∀ tx, admitted specCfgCommit q c p ind s = true → s.txn c = some tx → tx.id = field p 0 4 → tx.st = 1 → tx.id / 2 ^ 26 = c →
       let tx' : Txn := { tx with st := 2, op := if q.defer then some (s.ctx c).nextOp else none, mailbox := q.mailbox
                                  left := (tx.start + 10 * Config.sec - s.now) / (10 * Config.ms) }
       let u := setTxn tx' { s.taken 0x0102 q with cfg := { s.cfg with queue := s.cfg.queue ++ [c] } }
       let t := if s.cfg.queue.isEmpty then cfgStart u else u
       (q.defer = true → exec (.cfgCommit q) s = .next (pendWith specCfgCommit q c p (s.taken 0x0102 q) t))
       ∧ (q.defer = false → s.cfg.queue ≠ [] ∨ t.cfgFront.bind Txn.firstReject = none ∧ t.firstBusy tx' ≠ none → exec (.cfgCommit q) s = .next t)
       ∧ (∀ v, q.defer = false → s.cfg.queue = [] → t.cfgFront.bind Txn.firstReject = some v →
           exec (.cfgCommit q) s = .next (concluded specCfgCommit q c p ind (s.taken 0x0102 q)
             (.failWith eRejected (unitDetail v) (planKick (cfgStart (cfgClose eRejected t).2)))))))
  ∧ (∀ (s : State), s.isFatal = false →
     (∀ tx, s.cfgFront = some tx → tx.firstReject = none → s.firstBusy tx = none → exec .cfgCommitAllHold s = .next (cfgEnd 0 0 s))
     ∧ (∀ tx ty inst, s.cfgFront = some tx → tx.rejected.contains (ty, inst) = true →
         exec (.cfgCommitReject ty inst) s = .next (cfgEnd 0x10F (ty * 65536 + inst) s))
     ∧ (∀ tx u, s.cfgFront = some tx → tx.firstReject = none → s.firstBusy tx = some u →
         exec .cfgQuiesceTimeout s = .next (cfgEnd 0x110 (u.1 * 65536 + u.2) (atLeast (tx.since + 100 * Config.ms) s)))
     ∧ (∀ c tx, s.txn c = some tx → tx.st = 1 → exec (.cfgTxnTimeout c) s = .next (planKick
         { dropTxn c (atLeast (tx.start + 10 * Config.sec) s) with cfg := { (dropTxn c (atLeast (tx.start + 10 * Config.sec) s)).cfg with
             expired := s.cfg.expired ++ [tx.id] } })))

/-- What closing a commit with OK does (R93, R94, R96): every staged setting takes its value, holds are released, CFG_LAST and CFG_COUNT tell
it, and the queue moves on; with another status no setting changes. -/
def Obligations.CommitIsAllOrNothing : Prop :=
  ∀ (s : State) (tx : Txn), s.wf = true → s.cfgFront = some tx →
    (cfgClose 0 s).2.cfg.lastId = tx.id ∧ (cfgClose 0 s).2.cfg.lastStatus = 0 ∧ (cfgClose 0 s).2.cfg.lastCtx = tx.ctx
    ∧ (cfgClose 0 s).2.cfg.commits = (s.cfg.commits + 1) % 2 ^ 32 ∧ (cfgClose 0 s).2.txn tx.ctx = none
    ∧ (cfgClose 0 s).2.cfg.queue = s.cfg.queue.drop 1
    ∧ (∀ st, st ≠ 0 → ∀ ty inst, ((cfgClose st s).2.unit ty inst).sets = (s.unit ty inst).sets ∧ (cfgClose st s).2.cfg.commits = s.cfg.commits)
    ∧ (tx.items.Pairwise (fun x y => ¬ (ukey x.ty x.inst = ukey y.ty y.inst ∧ x.setting = y.setting)) →
        ∀ x ∈ tx.items, SMap.get none ((cfgClose 0 s).2.unit x.ty x.inst).sets x.setting = some x.value)
    ∧ (∀ st, ∀ x ∈ tx.items, ((cfgClose st s).2.unit x.ty x.inst).hold = false)
    ∧ (∀ ty inst n, (∀ x ∈ tx.items, ¬ (x.ty = ty ∧ x.inst = inst ∧ x.setting = n)) → inst < 65536 → (∀ x ∈ tx.items, x.inst < 65536) →
        SMap.get none ((cfgClose 0 s).2.unit ty inst).sets n = SMap.get none (s.unit ty inst).sets n)

/-! ### Teacher images and fills -/

/-- Group 0x05 (R167–R173): an image is opened at the lowest free handle and extent; writing, closing and deleting are PENDING; activation and
deactivation; the query.
Image events (R165, R167, R171–R173): the next chunk of an open image is programmed from its source, the body of a sealed one once its seal
checks and encrypted, so that the fill path reads the plaintext; the last ends its write, and so do a chunk written twice, a source that
fails and a seal that does not check; verification makes the image READY or FAILED as the checks of R173 say; a deleted image is gone and
its extent reads erased. -/
def Obligations.ImageCommands : Prop :=
  (∀ (q : Request) (c : Nat) (p : Bytes) (ind : Option Indirect) (s : State),
     (∀ b, admitted specImgOpen q c p ind s = true → field p 8 1 ≤ 1 → 256 ≤ field p 0 8 → (field p 8 1 = 1 → s.sys.debug = 0) →
       s.images.length < 16 → (List.range 8).any (fun k => decide ((s.ctl k).spares false < 64)) = false →
       s.freeExtent (cdiv (field p 0 8) Config.chunkBytes) = some b →
       let g : Image := { Image.init with
         owner := c + 1, base := b, len := field p 0 8, sealed := field p 8 1 == 1, key := if field p 8 1 = 1 then s.keys + 1 else 0, scrub := 1 }
       exec (.imgOpen q) s = .next (okWith specImgOpen q c ind (leBytes 2 s.freeImage ++ zeros 6 ++ leBytes 8 (g.addr 0))
         ({ s.taken 0x0500 q with keys := s.keys + 1 }.setImage s.freeImage g)))
     ∧ (∀ g, admitted specImgWrite q c p ind s = true → s.image (field p 0 2) = some g → imgRight c g = true → field p 2 1 ≤ 1 →
         field p 8 8 % Config.chunkBytes = 0 → 0 < field p 24 8 → field p 8 8 + field p 24 8 = g.len → field p 24 8 ≤ 64 * 2 ^ 30 →
         s.reach c (field p 2 1) (field p 16 8) (field p 24 8) = true → g.st = 0 →
         exec (.imgWrite q) s = .next (pendWith specImgWrite q c p (s.taken 0x0501 q) ((s.taken 0x0501 q).setImage (field p 0 2) { g with
           writes := g.writes ++ [{ ctx := c, op := (s.ctx c).nextOp, kind := field p 2 1, src := field p 16 8, pos := field p 8 8
                                    stop := g.len, from_ := field p 8 8 }] })))
     ∧ (∀ g, admitted specImgClose q c p ind s = true → s.image (field p 0 2) = some g → imgRight c g = true → g.writes = [] → g.st = 0 →
         exec (.imgClose q) s = .next (pendWith specImgClose q c p (s.taken 0x0502 q) ((s.taken 0x0502 q).setImage (field p 0 2) { g with
           st := 1, op := some (c, (s.ctx c).nextOp) })))
     ∧ (∀ g, admitted specImgActivate q c p ind s = true → s.image (field p 0 2) = some g → imgRight c g = true → field p 2 1 = 1 → g.st = 2 →
         g.scrub ≠ 0 → sealLive g s = none → exec (.imgActivate q) s = .next (okWith specImgActivate q c ind []
           ((s.taken 0x0503 q).setImage (field p 0 2) { g with st := 3, owner := c + 1 })))
     ∧ (∀ g, admitted specImgActivate q c p ind s = true → s.image (field p 0 2) = some g → imgRight c g = true → field p 2 1 = 0 → g.st = 3 →
         s.imageUsed (field p 0 2) = false → exec (.imgActivate q) s = .next (okWith specImgActivate q c ind []
           ((s.taken 0x0503 q).setImage (field p 0 2) { g with st := 2 })))
     ∧ (∀ g, admitted specImgDelete q c p ind s = true → s.image (field p 0 2) = some g → imgRight c g = true → g.writes = [] →
         s.imageUsed (field p 0 2) = false → (g.st = 0 ∨ g.st = 2 ∨ g.st = 4 ∨ g.st = 5) →
         exec (.imgDelete q) s = .next (pendWith specImgDelete q c p (s.taken 0x0504 q) ((s.taken 0x0504 q).setImage (field p 0 2) { g with
           st := 6, key := 0, op := some (c, (s.ctx c).nextOp) })))
     ∧ (∀ g, admitted specImgQuery q c p ind s = true → s.image (field p 0 2) = some g → imgRight c g = true →
         exec (.imgQuery q) s = .next (okWith specImgQuery q c ind
           (leBytes 1 g.st ++ leBytes 1 (if g.owner = 0 then 255 else g.owner - 1)
             ++ leBytes 1 (if g.done.contains 0 then s.imgFlags g else b2n g.sealed) ++ zeros 5 ++ leBytes 8 g.len
             ++ leBytes 8 g.doneBytes ++ leBytes 8 (s.imgPoisoned g) ++ s.imgDigest g ++ s.imgId g) (s.taken 0x0505 q))))
  ∧ ((∀ (h w : Nat) (g : Image) (x : ImgWrite) (s : State), s.isFatal = false → s.image h = some g → g.writes[w]? = some x →
     let i := x.pos / Config.chunkBytes
     let n := min Config.chunkBytes (x.stop - x.pos)
     let twice := g.done.contains i || (g.writes.take w).any fun y => y.pos / Config.chunkBytes == i
     (twice = true → exec (.imgChunkProgrammed h w) s = .next (writeEnd h x 0x2500 i s))
     ∧ (twice = false → sourceBad x n s = true →
         exec (.imgChunkProgrammed h w) s = .next (imgFault x (writeEnd h x 0x113 (x.pos - x.from_) s)))
     ∧ (∀ src e, twice = false → sourceBad x n s = false → chunkSource x n s = some src → openChunk g i src s = .inr e →
         exec (.imgChunkProgrammed h w) s = .next (writeEnd h x e.1 e.2 s))
     ∧ (∀ src bs, s.wf = true → twice = false → x.kind < 2 → sourceBad x n s = false → chunkSource x n s = some src →
         openChunk g i src s = .inl bs → bs.length = n → x.pos + n ≠ x.stop →
         ∃ t, exec (.imgChunkProgrammed h w) s = .next t
           ∧ Mem.read t.mem.store (g.addr x.pos) n = s.imgCrypt g x.pos bs
           ∧ (g.sealed = false ∨ Config.chunkBytes ≤ x.pos → t.imgRead g x.pos n = bs)
           ∧ (∀ a, a < g.addr x.pos ∨ g.addr x.pos + n ≤ a → Mem.get t.mem.store a = Mem.get s.mem.store a)
           ∧ t.mem.hbm = s.mem.hbm ∧ t.mem.sram = s.mem.sram
           ∧ t.image h = some { g with done := NSet.ins i g.done, writes := g.writes.set w { x with pos := x.pos + n } })
     ∧ (∀ src bs, twice = false → x.kind < 2 → sourceBad x n s = false → chunkSource x n s = some src → openChunk g i src s = .inl bs →
         x.pos + n = x.stop →
         exec (.imgChunkProgrammed h w) s = .next (
           let u : State := { s with mem := { s.mem with store := Mem.write s.mem.store (g.addr x.pos) (s.imgCrypt g x.pos (bs.take n)) } }
           let v := if x.kind = 0 then hbmTaken (x.src + (x.pos - x.from_)) n u else u
           writeEnd h { x with pos := x.stop } 0 0 (v.setImage h
             { g with done := NSet.ins i g.done, writes := g.writes.set w { x with pos := x.stop } }))))
   ∧ (∀ (h : Nat) (g : Image) (s : State), s.isFatal = false → s.running = true → s.image h = some g → g.st = 1 → s.imgBad g 0 g.len = false →
     exec (.imgVerifyComplete h) s = .next (match closeCheck g s with
       | none => finishOp (g.op.getD (0, 0)).1 (g.op.getD (0, 0)).2 0 0 (leBytes 8 g.len) (s.setImage h { g with st := 2, op := none })
       | some (st, d) => finishOp (g.op.getD (0, 0)).1 (g.op.getD (0, 0)).2 st d [] (s.setImage h { g with st := 5, op := none })))
   ∧ (∀ (h : Nat) (g : Image) (s : State), s.isFatal = false → s.image h = some g → g.st = 6 →
     exec (.imgDeleteComplete h) s = .next (finishOp (g.op.getD (0, 0)).1 (g.op.getD (0, 0)).2 0 0 [] { s with
       images := s.images.filter (fun x => x.1 != h)
       mem := { s.mem with
         store := Mem.clear s.mem.store (g.addr 0) (g.chunks * Config.chunkBytes)
         storePoison := s.mem.storePoison.filter fun w => !decide (g.addr 0 ≤ w * Config.codewordBytes
           ∧ w * Config.codewordBytes < g.addr 0 + g.chunks * Config.chunkBytes) } })))

/-- Fills (R174–R178): a fill whose checks pass becomes its ring's task, and one that fails a check completes with its code and REASON; writing
starts once the half has been released as often as EXPECT_FREE says, a sealed image seals the half; once its pages have been read, every run
of the tensors stands in the half, and FINAL counts FILL_SEQ. -/
def Obligations.StageFills : Prop :=
  (∀ (ring ix : Nat) (d : Bytes) (s : State), s.headOf ring 0x40 = some (ix, d) → (s.ring ring).unitType = Config.tStream →
    isDma (s.ring ring).unitInst = true →
    (sfCheck (s.ring ring).ctx d s = none → exec (.suStageFill ring) s = .next (begin ring ix d s))
    ∧ (∀ e, sfCheck (s.ring ring).ctx d s = some e → e.1 ≠ 0x113 →
        exec (.suStageFill ring) s = .next (failCheck ring ix d e.1 (sfDetail e.2 0 0 0) false s)))
  ∧ (∀ (ring : Nat) (c : Cur) (g : Image) (s : State), s.wf = true → s.fillOf ring = some c → c.rows = 0 →
    (s.core (sfCore c.desc)).clearing = false → s.image (sfImage c.desc) = some g →
    (((s.core (sfCore c.desc)).stage (sfHalf c.desc)).freeSeq + 65536 - sfExpectFree c.desc) % 65536 < 0x8000 →
    ∃ t, exec (.stageFillWriteStart ring) s = .next t ∧ ((t.core (sfCore c.desc)).stage (sfHalf c.desc)).sealing = g.sealed
      ∧ ((t.core (sfCore c.desc)).stage (1 - sfHalf c.desc)) = ((s.core (sfCore c.desc)).stage (1 - sfHalf c.desc))
      ∧ (t.ring ring).cur = some { c with rows := 1, last := s.now, todo := sfPages g c.desc s }
      ∧ (((s.core (sfCore c.desc)).stage (sfHalf c.desc)).sealing = true → g.sealed = false →
          ∀ o, o < halfBytes → Mem.get t.mem.sram (sramAt (sfCore c.desc) (sfHalf c.desc * halfBytes + o)) = 0)
      ∧ t.mem.hbm = s.mem.hbm ∧ t.mem.store = s.mem.store)
  ∧ (∀ (ring : Nat) (c : Cur) (g : Image) (s : State), s.wf = true → s.fillOf ring = some c → c.rows ≠ 0 → c.todo = [] →
    s.image (sfImage c.desc) = some g → s.fillClash ring (sfCore c.desc) (sfHalf c.desc) = false →
    ∃ t, exec (.stageFillComplete ring) s = .next t
      ∧ ((t.core (sfCore c.desc)).stage (sfHalf c.desc)).fillSeq = (if sfFinal c.desc
          then (((s.core (sfCore c.desc)).stage (sfHalf c.desc)).fillSeq + 1) % 65536
          else ((s.core (sfCore c.desc)).stage (sfHalf c.desc)).fillSeq)
      ∧ t.mem.sram = (sfRuns g c.desc s).foldl (fun m r =>
          Mem.write m (sramAt (sfCore c.desc) (sfHalf c.desc * halfBytes + r.1)) (s.imgRead g r.2.1 r.2.2)) s.mem.sram
      ∧ t.mem.hbm = s.mem.hbm ∧ t.mem.store = s.mem.store ∧ (t.ring ring).cur.map (·.phase) = some 1)

/-! ### Jobs -/

/-- Group 0x06 (R299–R304, R310, R322): a job is created from its header and binding blocks, started with its rings bound and its step
state set, stopped, deleted, refused a stop where none is due, and asked for its step block and its ledger.
The end of a job's rings and of its stop (R295, R304): a ring with nothing in flight is free again; a window still open 10 s after JOB_STOP
is inconsistent, the job ABORTED and its stop failed with the attempt. -/
def Obligations.JobCommands : Prop :=
  (∀ (q : Request) (c : Nat) (p : Bytes) (ind : Option Indirect) (s : State),
     (let resume := bitOf (field p 1 1) 1 && bitOf (field p 1 1) 2
      ∀ h, admitted specJobCreate q c p ind s = true → field p 1 1 < 8 → field p 3 1 < 8 → jobModeBad p s = false →
       (bitOf (field p 1 1) 1 = true → s.studentJob = none) → headerRange p (s.jobLayers p) = none → jobRights c p s = none →
       jobSeal p s = none → (resume = true → s.hbmBad (field p 24 8) 64 = false ∧ stepBlockBad (s.hbmRead (field p 24 8) 64) = none) →
       ((List.range 4).find? fun h => (s.job h).isNone) = some h →
       exec (.jobCreate q) s = .next (okWith specJobCreate q c ind (leBytes 2 h) ((s.taken 0x0600 q).setJob h { Job.init with
         ctx := c, header := p.take 256, binds := (List.range (field p 2 1)).map fun k => (p.drop (256 + 64 * k)).take 64 })))
     ∧ (let h := field p 0 2
        ∀ j u, admitted specJobStart q c p ind s = true → s.job h = some j → j.ctx = c → (j.st = 0 ∨ j.st = 3) →
         bindAll h j j.binds 256 (s.taken 0x0601 q) = .inr u →
         (j.student = true → j.started = false → j.resume = true →
           s.hbmBad j.stepAddr 64 = false ∧ stepBlockBad (s.hbmRead j.stepAddr 64) = none) →
         let v := if j.student && !j.started then (if j.resume then loadStep (s.hbmRead j.stepAddr 64) u else freshStep j u) else u
         let w := v.setJob h { j with st := 1, started := true, fwd := j.teacher }
         exec (.jobStart q) s = .next (okWith specJobStart q c ind [] (if j.teacher then { w with sweeps := w.sweeps ++
           [Sweep.start h j.image (some h) none j.batch] } else w)))
     ∧ (let h := field p 0 2
        let t := s.taken 0x0602 q
        (∀ j, admitted specJobStop q c p ind s = true → field p 2 1 ≤ 1 → s.job h = some j → j.ctx = c → j.st = 1 →
           exec (.jobStop q) s = .next (pendWith specJobStop q c p t (t.setJob h { j with
             st := 2, stopOp := some (s.ctx c).nextOp, stopDelete := bitOf (field p 2 1) 0, stopAt := s.now })))
        ∧ (∀ j, admitted specJobStop q c p ind s = true → field p 2 1 = 1 → s.job h = some j → j.ctx = c → j.st ≠ 1 → j.st ≠ 2 →
           j.stopOp = none →
           exec (.jobStop q) s = .next (if (s.jobRings h).isEmpty
             then okWith specJobStop q c ind (leBytes 8 (if j.student then s.step.step else 0)) { t with jobs := s.jobs.filter fun x => x.1 != h }
             else pendWith specJobStop q c p t (t.setJob h { j with stopOp := some (s.ctx c).nextOp, stopDelete := true })))
        ∧ ∀ j, admitted specJobStop q c p ind s = true → s.job h = some j → j.ctx = c → j.st ≠ 1 →
           (j.st = 2 ∨ bitOf (field p 2 1) 0 = false ∨ j.stopOp.isSome = true) →
           exec (.jobStop q) s = .next (concluded specJobStop q c p ind t (.fail 0x10C j.st)))
     ∧ (∀ j, admitted specJobQuery q c p ind s = true → s.job (field p 0 2) = some j → j.ctx = c →
         exec (.jobQuery q) s = .next (okWith specJobQuery q c ind (leBytes 1 j.st ++ leBytes 1 j.ctx ++ zeros 6 ++
           (if j.student && j.started then stepBlock s.step else zeros 64)) (s.taken 0x0603 q)))
     ∧ (let at_ (j : Job) := (List.range (field p 16 4)).map fun k => j.ledgerEntry (field p 8 8 + k)
        ∀ j, admitted specJobLedgerRead q c p ind s = true → s.job (field p 0 2) = some j → j.ctx = c → 1 ≤ field p 16 4 →
         field p 16 4 ≤ 65535 → j.ledgerAddr ≠ 0 → (∀ a ∈ at_ j, s.hbmBad a 576 = false) →
         exec (.jobLedgerRead q) s = .next (okWith specJobLedgerRead q c ind ((at_ j).flatMap fun a => s.hbmRead a 576)
           (s.taken 0x0604 q))))
  ∧ ((∀ (k : Nat) (s : State), s.isFatal = false → (s.pring (k / 16) (k % 16)).bound = true → (s.pring (k / 16) (k % 16)).st = 2 →
     exec (.prismRingResetComplete k) s = .next
       (jobStopEnd (s.pring (k / 16) (k % 16)).job (s.setPring (k / 16) (k % 16) PRing.init)))
   ∧ ∀ (h : Nat) (j : Job) (s : State), s.isFatal = false → s.job h = some j → j.st = 2 → j.student = true → s.windowOpen = true →
     let t := atLeast (j.stopAt + 10 * Config.sec) s
     let u := inconsistent 1 j.ctx 0xFFFF 0 (inconsistent 0 j.ctx 0xFFFF 0 (setErr Config.tUpdate 1 5 0 0 7 (setErr Config.tUpdate 0 5 0 0 7 t)))
     let v := jobAbort h (u.setJob h { j with stopOp := none })
     exec (.jobStopWindowTimeout h) s = .next (match j.stopOp with
       | some o => finishOp j.ctx o 0x2603 ((s.upd (if (s.upd 0).window then 0 else 1)).attempt % 2 ^ 32) (leBytes 8 s.step.step) v
       | none => v))

/-! ### Mirror -/

/-- Checkpoints, restores, snapshots and the log (R457, R459, R460, R462, R471, R474, R516), with the refusals of an SLC that is full and of a
checkpoint that is not intact. The end of a checkpoint's stages (R456–R458, R471, R474, R516), and what Mirror's peers send (R462, R465). -/
def Obligations.MirrorCheckpoints : Prop :=
  (∀ (q : Request) (c : Nat) (p : Bytes) (ind : Option Indirect) (s : State),
     (let h := field p 0 2
      let level := field p 2 1
      let n := field p 4 2
      let regs := parseRegs (p.drop 16) n
      let t := s.taken 0x0800 q
      ∀ j, admitted specMirCkpt q c p ind s = true → mirJob c h 0 s = .inr j →
       l3Bad c level (field p 6 2) 6 s = none → 1 ≤ level → level ≤ 3 → 1 ≤ n → n ≤ 1024 → regsBad j.ctx regs s = none →
       (level = 2 → ∀ e, s.slcBad j.ctx s.slcOld (regBytes regs) = some e →
         exec (.mirCkpt q) s = .next (concluded specMirCkpt q c p ind t (.fail e.1 e.2)))
       ∧ ((level = 2 → s.slcBad j.ctx s.slcOld (regBytes regs) = none) → (level = 1 → ∃ x, s.protOf h = some x ∧ x.noBuddy = false) → j.student = true → j.started = true → j.st ≠ 4 →
       s.ckptPoint = true → s.ckptBusy = false →
       exec (.mirCkpt q) s = .next (concluded specMirCkpt q c p ind t (.pend (ckptStart h level regs (field p 6 2)
         (some (c, (s.ctx c).nextOp)) false (if field p 3 1 = 1 then setTemplate h regs t else t))))))
     ∧ (let h := field p 0 2
        let level := field p 2 1
        let n := field p 4 2
        let regs := parseRegs (p.drop 16) n
        ∀ j k, admitted specMirRestore q c p ind s = true → mirJob c h 0 s = .inr j →
         l3Bad c level (field p 6 2) 6 s = none → 1 ≤ level → level ≤ 3 → 1 ≤ n → n ≤ 1024 → regsBad j.ctx regs s = none →
         s.restorable j.ctx level (field p 3 1 == 1) (field p 8 8) = some k → k.regs.map (·.len) = regs.map (·.len) →
         j.student = true → (j.st = 0 ∨ j.st = 3) →
         let t := s.taken 0x0801 q
         exec (.mirRestore q) s = .next (if q.defer then pendWith specMirRestore q c p t t
           else if Config.copyIntact level s.now = true ∧ (k.mek = none ∨ k.mek = s.mek h j.group) then
             okWith specMirRestore q c ind (leBytes 8 k.step) (bump Config.tMirror 0 2 1
               ((loadStep k.block (restoreRegs regs (k.data.map (·.getD [])) t)).setJob h { j with started := true }))
           else concluded specMirRestore q c p ind t (.failWith 0x112 0 (mirErr 3 h s.sysIndex k.attempt (restoreUndefined regs t)))))
     ∧ (let h := field p 0 2
        let level := field p 2 1
        let t := s.taken 0x0802 q
        ∀ j, admitted specMirSnapshot q c p ind s = true → mirJob c h 0 s = .inr j → l3Bad c level (field p 4 2) 4 s = none →
         (level = 2 ∨ level = 3) → (level = 2 → s.slcBad j.ctx s.slcOld (regBytes (s.template h)) = none) → (s.template h).isEmpty = false →
         j.student = true → j.started = true → j.st ≠ 4 → s.mirror.snapWait = none →
         exec (.mirSnapshot q) s = .next (concluded specMirSnapshot q c p ind t (.pend (snapGo { t with mirror := { s.mirror with
           snapWait := some (h, level, field p 4 2, c, (s.ctx c).nextOp) } }))))
     ∧ (∀ j x, admitted specMirLogQuery q c p ind s = true → mirJob c (field p 0 2) 0 s = .inr j → 1 ≤ field p 16 2 →
         field p 16 2 ≤ 1024 → s.mirror.prot = some x → x.job = field p 0 2 →
         exec (.mirLogQuery q) s = .next (okWith specMirLogQuery q c ind ((List.range (field p 16 2)).flatMap fun k =>
           (s.mirror.log.find? fun e => field e 8 8 == field p 8 8 + k).getD (zeros 128)) (s.taken 0x0805 q))))
  ∧ ((∀ (n : Nat) (s : State), s.isFatal = false →
     (let t := ckptRead n (·.early) s
      let k := t.ckpt n
      (s.ckpt n).st = 1 → k.st = 1 → exec (.ckptCaptureDone n) s = .next (deliverEvent k.ctx
       (eventRecord 0x0800 1 0 0 0 ((k.op.map (·.2)).getD 0) t.now (leBytes 8 k.step) 0) (t.setCkpt n { k with st := 2 })))
     ∧ (let t := ckptSpoil n (ckptRead n (fun _ => true) s)
        let k := t.ckpt n
        let w := bump Config.tMirror 0 0 1 (bump Config.tMirror 0 1 (regBytes k.regs) (ckptShip n t))
        let u := w.setCkpt n { k with st := 3, op := none, mek := if n / 2 = 1 then none else w.jobMek k.job }
        let v := { u with mirror := { u.mirror with
           last := (n / 2, n) :: u.mirror.last.filter fun x => x.1 != n / 2
           kept := if n / 2 = 1 then u.mirror.kept.filter fun d => decide (k.attempt < d.attempt) else u.mirror.kept } }
        (s.ckpt n).st = 2 → k.st = 2 →
         exec (.ckptManifestWritten n false) s = .next (ckptFail n 0x113 t)
         ∧ ∀ j, v.job k.job = some j →
           (k.op = none → exec (.ckptManifestWritten n true) s = .next (commitGo k.job j (snapGo v)))
           ∧ ∀ o y, k.op = some o → (v.ops.find? fun x => x.ctx == o.1 && x.handle == o.2) = some y →
             (y.opcode ≠ 0x0803 → exec (.ckptManifestWritten n true) s = .next (commitGo k.job j (snapGo (finishOp o.1 o.2 0 0
               (leBytes 8 k.step ++ if k.snap then leBytes 2 (v.jobMembers j).length else leBytes 8 (regBytes k.regs)) v))))
             ∧ ∀ z, y.opcode = 0x0803 → k.snap = false → v.mirror.prot = some z → z.job = k.job →
               let x := { v with mirror := { v.mirror with prot := some { z with mek := v.newMek j.group } } }
               (x.ops.find? fun x => x.ctx == o.1 && x.handle == o.2) = some y →
               exec (.ckptManifestWritten n true) s = .next (commitGo k.job j (snapGo (finishOp o.1 o.2 0 0 [] x)))))
   ∧ (∀ (h : Nat) (j : Job) (s : State), s.isFatal = false → s.job h = some j → s.mirror.asked = true → s.mirror.acked = false →
       (s.protOf h).isSome = true → exec (.deltaAck h) s = .next (commitGo h j { s with mirror := { s.mirror with acked := true } }))
   ∧ (∀ (dev : Nat) (s : State), s.isFatal = false → ((s.mirror.resv.any fun r => r.dev == dev) = true
         ∨ ∃ x, s.mirror.prot = some x ∧ x.buddy = dev) →
       exec (.mirrorHeartbeat dev) s = .next { s with mirror := { s.mirror with
         beats := (dev, s.now) :: s.mirror.beats.filter fun b => b.1 != dev } })
   ∧ (∀ (dev at_ : Nat) (s : State), s.isFatal = false → (s.mirror.beats.find? fun b => b.1 == dev) = some (dev, at_) →
       let t := atLeast (at_ + 3 * s.setting Config.tMirror 0 2 100 * Config.ms) s
       let u := { t with mirror := { s.mirror with beats := s.mirror.beats.filter fun x => x.1 != dev } }
       exec (.heartbeatLoss dev) s = .next (if (s.mirror.resv.any fun r => r.dev == dev) = true
         then deviceLost dev (bump Config.tMirror 0 10 1 (mirErr 6 0xFFFF dev (s.upd 0).attempt u)) else buddyLost dev u)))

/-- RESOLUTION_COMPLETE (R466, R467): with most of the group surviving, the attempt ends with the word that one of them held, or with a commit word
of cause ABSENT, at once where this member's commits stand and later where they do not; a member whose attempt is over, or that has sent nothing
for an attempt that a survivor holds a word of, takes no word. Without a majority, the job is ABORTED. The buddy of the lost member stores the
word, and starts the takeover (R454). -/
def Obligations.Resolution : Prop :=
  ∀ (g h n : Nat) (j : Job) (held : Option CommitWord) (s : State), s.isFatal = false → s.studentJob = some (h, j) → j.group = g →
    (s.group g).st = 2 → (s.protOf h).isSome = true → (j.st = 1 ∨ j.st = 2) →
    let att := (s.upd 0).attempt
    let w : CommitWord := held.getD { cause := 8, isLocal := false, vetoDev := 0xFFFF, vetoTensor := 0, norm := 0, participants := n }
    let lost := (s.group g).members[(s.group g).lost]?
    let t := { s with mirror := { s.mirror with
      resolving := none
      rCause := w.cause, rHeld := held.isSome, rSurv := min n 1023, rAttempt := att % 2 ^ 32
      resv := s.mirror.resv.map fun r => if lost = some r.dev then { r with word := some w } else r } }
    let u := autoTakeover (lost.getD 1024) (bump Config.tMirror 0 8 1 t)
    (2 * n ≤ (s.group g).members.length →
      let u := mirErr 4 h t.sysIndex att (setErr Config.tUpdate 1 5 0 0 8 (setErr Config.tUpdate 0 5 0 0 8 t))
      let v := inconsistent 1 j.ctx 0xFFFF 0 (inconsistent 0 j.ctx 0xFFFF 0 u)
      exec (.resolutionComplete g held n) s = .next (jobAbort h (deliverEvent j.ctx
        (eventRecord 0xFFFF 0x2803 0 2 0 0 v.now (leBytes 4 n) 0) v)))
    ∧ ((s.group g).members.length < 2 * n → u.windowOpen = true ∨ (held.isSome = true ∧ (u.upd 0).sent = false) →
      exec (.resolutionComplete g held n) s = .next u)
    ∧ ((s.group g).members.length < 2 * n → u.windowOpen = false → (held = none ∨ (u.upd 0).sent = true) →
      exec (.resolutionComplete g held n) s = .next (if (u.upd 0).commit.isSome ∧ (u.upd 1).commit.isSome then takeWord h j w u
        else { u with mirror := { u.mirror with adopted := some w } }))

/-- MIR_SPARE (R453, R454, R475): protection, designation, reservation and their release; a commit that waited for the buddy goes on when its
protection is released. -/
def Obligations.MirrorSpares : Prop :=
  ∀ (q : Request) (c : Nat) (p : Bytes) (ind : Option Indirect) (s : State),
    (let q0 := withOp 0 q
     let t := s.taken 0x0803 q0
     let h := field p 2 2
     let n := (p.length - 28) / 32
     let regs := parseRegs (p.drop 28) n
     let b := field p 4 2
     ∀ j, admitted specMirSpare q0 c p ind s = true → field p 0 1 = 0 → mirJob c h 2 s = .inr j →
      1 ≤ field p 6 1 → field p 6 1 ≤ 64 → 16 ≤ field p 16 4 → field p 16 4 ≤ 65536 → 1 ≤ n → n ≤ 1024 →
      s.ownsStudent j.ctx (field p 8 8) (128 * field p 16 4) = true → regsBad j.ctx regs s = none → s.slcBad j.ctx s.slcLog (128 * field p 16 4) = none →
      b ≠ s.sysIndex → b / 64 = s.sys.pod →
      j.student = true → j.started = true → j.st ≠ 4 → s.ckptPoint = true → s.ckptBusy = false →
      exec (.mirSpareProtect q) s = .next (concluded specMirSpare q0 c p ind t (if !Config.peerReserves b s.now then .fail 0x2802 b
        else .pend (ckptStart h 1 regs 0 (some (c, (s.ctx c).nextOp)) false
        (setTemplate h regs { t with mirror := { s.mirror with
          prot := some { job := h, buddy := b, retain := field p 6 1, logAddr := field p 8 8, logDepth := field p 16 4
                         deltaMax := field p 20 8, regs, ok := true, noBuddy := false, mek := none }
          kept := [], cur := Delta.init, asked := false, acked := false, badSlot := false, resolving := none, waitAt := none } })))))
    ∧ (let q1 := withOp 1 q
       ∀ j, admitted specMirSpare q1 c p ind s = true → field p 0 1 = 1 → field p 6 1 ≤ 1 → (s.group (field p 2 2)).members ≠ [] →
        (c = 0 ∨ (s.group (field p 2 2)).ctx = c) → mirJob c (field p 4 2) 4 s = .inr j → j.ctx = (s.group (field p 2 2)).ctx →
        j.student = true → j.resume = false → j.st = 0 →
        exec (.mirSpareDesignate q) s = .next (okWith specMirSpare q1 c ind [] (spareTell (field p 2 2) true (field p 6 1)
          { s.taken 0x0803 q1 with mirror := { s.mirror with desig := some { group := field p 2 2, job := field p 4 2, auto := field p 6 1 == 1 } } })))
    ∧ (let q2 := withOp 2 q
       let dev := field p 2 2
       let n := cdiv (field p 8 8) Config.pageBytes
       ∀ pg, admitted specMirSpare q2 c p ind s = true → field p 0 1 = 2 → isAdmin q.mailbox = true → dev ≠ s.sysIndex → dev / 64 = s.sys.pod →
        field p 8 8 ≠ 0 → ([4, 5, 6, 7].findSome? fun k => s.freeRun k n 1) = some pg → (s.mirror.resv.any fun r => r.dev == dev) = false →
        let u := takePages 0 pg n (s.taken 0x0803 q2)
        exec (.mirSpareReserve q) s = .next (okWith specMirSpare q2 c ind (leBytes 8 (pg * Config.pageBytes)) { u with mirror := { u.mirror with
          resv := u.mirror.resv ++ [{ dev, base := pg * Config.pageBytes, len := n * Config.pageBytes, got := [], word := none }] } }))
    ∧ (let q3 := withOp 3 q
       let t := s.taken 0x0803 q3
       let x := field p 2 2
       admitted specMirSpare q3 c p ind s = true → field p 0 1 = 3 →
       (∀ y j, field p 1 1 = 0 → s.mirror.prot = some y → y.job = x → mirJob c x 2 s = .inr j →
          exec (.mirSpareRelease q) s = .next (okWith specMirSpare q3 c ind [] (commitGo x j { t with mirror := { s.mirror with
            prot := none, kept := [], cur := Delta.init, asked := false, acked := false, badSlot := false, resolving := none, waitAt := none } })))
       ∧ (∀ d, field p 1 1 = 1 → s.mirror.desig = some d → d.group = x → (c = 0 ∨ (s.group x).ctx = c) →
          exec (.mirSpareRelease q) s = .next (okWith specMirSpare q3 c ind [] (spareTell x false 0 { t with mirror := { s.mirror with desig := none } })))
       ∧ ∀ r a, field p 1 1 = 2 → (s.mirror.resv.find? fun r => r.dev == x) = some r → isAdmin q.mailbox = true →
          (s.mirror.beats.any fun b => b.1 == x) = false → (s.mem.allocs.find? fun a => a.base == r.base) = some a →
          exec (.mirSpareRelease q) s = .next (okWith specMirSpare q3 c ind [] { freePages a t with mirror := { s.mirror with
            resv := s.mirror.resv.filter fun y => y.dev != x } }))

/-- MIR_TAKEOVER (R468, R470): a spare takes a lost rank and tells the other members, is restored from the buddy with the retained deltas, or
loses its standby job where that fails, and hands the group back READY once the replayed state agrees. A takeover that no command began (R454)
tells its context by a notification. -/
def Obligations.Takeover : Prop :=
  ∀ (q : Request) (c : Nat) (p : Bytes) (ind : Option Indirect) (s : State),
    (let q0 := withOp 0 q
     let t := s.taken 0x0804 q0
     let g := field p 2 2
     let h := field p 6 2
     ∀ j d, admitted specMirTakeover q0 c p ind s = true → field p 0 1 = 0 → (c = 0 ∨ (s.group g).ctx = c) → mirJob c h 6 s = .inr j →
      field p 4 2 < (s.group g).members.length → s.mirror.desig = some d → d.group = g → d.job = h → (s.group g).st = 2 → j.st = 0 →
      s.mirror.replay = none →
      let u := (tellMembers g mgRank (leBytes 8 (s.group g).key ++ leBytes 2 (field p 4 2))
        (t.updGroup g fun x => { x with members := x.members.set (field p 4 2) s.sysIndex, st := 4 })).setJob h { j with
          st := 1, started := true, header := splice j.header 6 (leBytes 2 g) }
      exec (.mirTakeoverBegin q) s = .next (concluded specMirTakeover q0 c p ind t (.pend { u with mirror := { u.mirror with
        replay := some { job := h, group := g, rank := field p 4 2, ready := false, queue := [], first := 0, last := 0
                         op := some (c, (s.ctx c).nextOp) } } })))
    ∧ (let q1 := withOp 1 q
       let t := s.taken 0x0804 q1
       let g := field p 2 2
       ∀ j r, admitted specMirTakeover q1 c p ind s = true → field p 0 1 = 1 → (s.group g).members ≠ [] → (c = 0 ∨ (s.group g).ctx = c) →
        mirJob c (field p 6 2) 6 s = .inr j → s.mirror.replay = some r → r.group = g → r.job = field p 6 2 → r.rank = field p 4 2 →
        r.ready = true → r.queue = [] → s.windowOpen = false →
        if q.defer then exec (.mirTakeoverEnd q) s = .next (pendWith specMirTakeover q1 c p t t)
        else if Config.replayAgrees s.now = true then
          let u := bump Config.tMirror 0 9 1 ((tellMembers g mgGroup (leBytes 8 (s.group g).key) t).updGroup g fun x => { x with st := 1 })
          exec (.mirTakeoverEnd q) s = .next (okWith specMirTakeover q1 c ind (leBytes 8 r.first ++ leBytes 8 r.last)
            { u with mirror := { u.mirror with replay := none, desig := none } })
        else exec (.mirTakeoverEnd q) s = .next (concluded specMirTakeover q1 c p ind t (.failWith 0x2804 ((s.upd 0).attempt % 2 ^ 32)
          (mirErr 5 (field p 6 2) s.sysIndex (s.upd 0).attempt t))))
    ∧ (∀ (h : Nat) (j : Job) (r : Replay) (data : List Bytes) (block : Bytes) (ds : List Delta), s.isFatal = false →
        s.mirror.replay = some r → s.job h = some j → r.job = h → r.ready = false →
        let told (st d : Nat) (res : Bytes) (x : State) : State := match r.op with
          | some o => finishOp o.1 o.2 st d res x
          | none => deliverEvent j.ctx (eventRecord 0xFFFF st 0 2 0 0 x.now res 0) x
        let lost := { (s.setJob h { j with st := 4 }).updGroup r.group (fun x => { x with st := 2 }) with mirror := { s.mirror with replay := none } }
        (data = [] → exec (.takeoverRestoreComplete h data block ds) s = .next (told 0x2800 1 [] lost))
        ∧ (data ≠ [] → data.length ≠ (s.template h).length ∨ (stepBlockBad (fitTo 64 block)).isSome = true →
          exec (.takeoverRestoreComplete h data block ds) s = .next (told 0x2801 (min data.length (s.template h).length) [] lost))
        ∧ (data ≠ [] → data.length = (s.template h).length → stepBlockBad (fitTo 64 block) = none →
          let u := bump Config.tMirror 0 2 1 (loadStep (fitTo 64 block) (restoreRegs (s.template h) data s))
          (ds = [] → exec (.takeoverRestoreComplete h data block ds) s = .next (told 0 0
            (leBytes 8 (u.upd 0).attempt ++ leBytes 8 ((u.upd 0).attempt - 1)) { u with mirror := { u.mirror with
              replay := some { r with ready := true, queue := [], first := (u.upd 0).attempt, last := (u.upd 0).attempt - 1, op := none } } }))
          ∧ ∀ d e, ds.head? = some d → ds.getLast? = some e →
            let v := restoreRegs ((s.template h).filter (·.early)) e.early u
            exec (.takeoverRestoreComplete h data block ds) s = .next (told 0 0 (leBytes 8 d.attempt ++ leBytes 8 e.attempt)
              { v with mirror := { v.mirror with
                replay := some { r with ready := true, queue := ds, first := d.attempt, last := e.attempt, op := none } } })))

/-! ### Pod, groups and Beam -/

/-- Group 0x09 (R434, R440, R446): joining a pod, creating a group, barriers on a group in each of its states, resets, and the queries of routes
and ports. How a pod and its groups come about and break (R435, R436, R439, R440, R443, R446): a table of which nothing is a route, one of a
single route, the timebase's ordinary exchange, its first one (that it steps the counter forward is the model's choice, log 60) and its loss. -/
def Obligations.PodCommands : Prop :=
  (∀ (q : Request) (c : Nat) (p : Bytes) (ind : Option Indirect) (s : State),
     (let t := s.taken 0x0900 q
      let u := { t with sys := { s.sys with pod := field p 0 1 }, beam := { s.beam with step := true } }
      admitted specPodJoin q c p ind s = true → field p 0 1 ≤ 15 → s.twinSeen = false → (s.sys.joined = false ∨ s.sys.pod = field p 0 1) →
       s.beam.join = none →
       (allReached (field p 8 8) u.reachMap = true → q.defer = false → exec (.podJoin q) s = .next (okWith specPodJoin q c ind
         (leBytes 8 u.reachMap ++ [1]) { u with sys := { u.sys with joined := true } }))
       ∧ (allReached (field p 8 8) u.reachMap = false ∨ q.defer = true → exec (.podJoin q) s = .next (pendWith specPodJoin q c p t
           { u with beam := { u.beam with join := some (c, (s.ctx c).nextOp, field p 8 8, s.now) } })))
     ∧ (let n := field p 0 2
        let ms := (List.range n).map fun k => field p (16 + 2 * k) 2
        ∀ g, admitted specPodGroupCreate q c p ind s = true → field p 2 1 ≤ 1 → 2 ≤ n → n ≤ 1024 → (∀ m ∈ ms, m < 1024) → ms.Pairwise (· < ·) →
         (∀ m ∈ ms, m ≠ s.sysIndex → m / 64 = s.sys.pod → (s.routeTo (m % 64)).isSome = true) →
         (field p 2 1 = 1 → (s.ctx c).secret.isSome = true) → ((List.range 64).find? fun g => (s.group g).members.isEmpty) = some g →
         exec (.podGroupCreate q) s = .next (okWith specPodGroupCreate q c ind (leBytes 2 g) ((s.taken 0x0901 q).setGroup g { Group.init with
           ctx := c, key := field p 8 8, members := ms, enc := field p 2 1 == 1, gdk := s.newGdk c (field p 8 8) })))
     ∧ (let t := s.taken 0x0902 q
        let g := s.group (field p 0 2)
        admitted specPodBarrier q c p ind s = true → groupHandle c (field p 0 2) 0 s = none →
        (g.members.contains s.sysIndex = false → exec (.podBarrier q) s = .next (concluded specPodBarrier q c p ind t (.fail 0x108 0)))
        ∧ (g.members.contains s.sysIndex = true → exec (.podBarrier q) s = .next (
            if g.st = 3 then concluded specPodBarrier q c p ind t (.fail 0x2901 0)
            else if g.st = 2 then concluded specPodBarrier q c p ind t (.fail 0x2903 g.lost)
            else if q.defer ∨ g.st ≠ 1 then pendWith specPodBarrier q c p t t
            else okWith specPodBarrier q c ind (leBytes 8 s.now) t)))
     ∧ (let t := s.taken 0x0903 q
        admitted specPodReset q c p ind s = true →
        (field p 0 1 = 0 → groupHandle c (field p 2 2) 2 s = none → exec (.podReset q) s = .next
           (if q.defer then pendWith specPodReset q c p t t else okWith specPodReset q c ind [] (groupResetAll (field p 2 2) t)))
        ∧ (field p 0 1 = 1 → exec (.podReset q) s = .next
           (if q.defer then pendWith specPodReset q c p t t
            else okWith specPodReset q c ind [] (s.groups.foldl (fun a g => groupResetAll g.1 a) t)))
        ∧ (let out := (List.range 64).filter fun k => bitOf (field p 8 8) k && k != s.sys.podDev
           let u := out.foldl (fun s k => sendMsg (s.sys.pod * 64 + k) 0 0 false (msgBytes mgReset []) s) t
           field p 0 1 = 2 → (∀ k ∈ out, (s.routeTo k).isSome = true) → exec (.podReset q) s = .next (okWith specPodReset q c ind []
             (if bitOf (field p 8 8) s.sys.podDev then { u with sys := { u.sys with sysReset := some (u.sys.sysReset.getD 0) } } else u))))
     ∧ (let d := field p 0 2
        admitted specBeamRouteQuery q c p ind s = true → d < 1024 → exec (.beamRouteQuery q) s = .next (okWith specBeamRouteQuery q c ind
         (if d = s.sysIndex then zeros 10 else if d / 64 ≠ s.sys.pod then zeros 9 ++ [1] else match s.routeTo (d % 64) with
           | some (m, h) => leBytes 8 (m % 2 ^ 40) ++ leBytes 1 h ++ [0]
           | none => zeros 8 ++ [255, 0]) (s.taken 0x0904 q)))
     ∧ (let x := s.port (field p 0 1)
        admitted specBeamPortQuery q c p ind s = true → field p 0 1 < 40 → exec (.beamPortQuery q) s = .next (okWith specBeamPortQuery q c ind
         (leBytes 1 x.st ++ [0] ++ leBytes 2 x.peer ++ leBytes 1 x.peerPort ++ zeros 3 ++ leBytes 8 (Config.optics (field p 0 1) s.now % 2 ^ 48))
         (s.taken 0x0905 q))))
  ∧ ((∀ (c h want at_ : Nat) (s : State), s.isFatal = false → s.beam.join = some (c, h, want, at_) →
     let t := if allReached want s.reachMap then s else atLeast (at_ + Config.sec) s
     exec .podJoinTimeout s = .next (finishOp c h 0 0 (leBytes 8 t.reachMap ++ leBytes 1 (b2n (allReached want t.reachMap)))
       { t with beam := { s.beam with join := none }, sys := { s.sys with joined := true } }))
   ∧ (∀ (g : Nat) (s : State), s.isFatal = false → (s.group g).members ≠ [] → (s.group g).st = 0 →
     exec (.groupFormed g true) s = .next (s.setGroup g { s.group g with st := 1 })
     ∧ exec (.groupFormed g false) s = .next (groupUpd g 0x2901 (groupAbort g 0x2901 2 0xFFFF
         (setErr Config.tEngine 1 1 0 0 2 (setErr Config.tEngine 0 1 0 0 2 (s.setGroup g { s.group g with st := 3 }))))))
   ∧ (∀ (g r dev : Nat) (s : State), s.isFatal = false → (s.group g).members[r]? = some dev → dev ≠ s.sysIndex → (s.group g).st = 1 →
     (s.group g).members.Nodup →
     exec (.groupBroken g r) s = .next (buddyLost dev (groupBreakAt g r s)))
   ∧ (∀ (port : Nat) (table : List (Nat × Nat × Nat)) (s : State), s.isFatal = false → s.running = true → s.beam.held = [] → s.beam.routes = [] →
     s.beam.join = none → s.synced = false → (∀ r ∈ table, r.1 = s.sys.podDev ∨ 64 ≤ r.1 ∨ 4 < r.2.2 ∨ s.liveMask r.2.1 = 0) →
     exec (.routeTableInstall port table) s = .next (bump Config.tEngine 0 4 1 (bump Config.tEngine 1 4 1 s)))
   ∧ (∀ (port d mask hops : Nat) (s : State), s.isFatal = false → s.running = true → s.beam.held = [] → s.beam.routes = [] → s.beam.join = none →
     s.synced = false → d < 64 → d ≠ s.sys.podDev → hops ≤ 4 → s.liveMask mask ≠ 0 → s.groups = [] →
     exec (.routeTableInstall port [(d, mask, hops)]) s = .next (
       let t := bump Config.tEngine 0 4 1 (bump Config.tEngine 1 4 1 { s with beam := { s.beam with routes := [(d, s.liveMask mask, hops)] } })
       deliverEvent 0 (eventRecord 0xFFFF 0 0 2 0 0 s.now (leBytes 1 port ++ leBytes 1 (s.port port).st ++ leBytes 2 (s.sys.pod * 64 + d)) 0) t))
   ∧ (∀ (t : Nat) (s : State), s.isFatal = false → s.sys.joined = true → s.podMaster = false →
     ((s.beam.step = false ∨ s.sys.podSync = true) → s.now ≤ t → t < s.now + 64 → exec (.timebaseSync t) s = .next { s with
        now := s.now + min (t - s.now) 20, sys := { s.sys with podSync := true }
        beam := { s.beam with offset := t - s.now, level := s.syncDepth, step := false } })
     ∧ (s.beam.step = true → s.sys.podSync = false → s.now ≤ t → exec (.timebaseSync t) s = .next { s with
        now := t, sys := { s.sys with podSync := true }, beam := { s.beam with offset := 0, level := s.syncDepth, step := false } })
     ∧ (s.sys.podSync = true → s.now + 64 ≤ t → exec (.timebaseSync t) s = .next
        (bump Config.tEngine 0 5 1 (bump Config.tEngine 1 5 1 { s with
          now := s.now + 20, sys := { s.sys with podSync := false }
          beam := { s.beam with offset := min 32767 (t - s.now), level := s.syncDepth, step := false } })))))

/-- BEAM_COLL (R441, R442, R444): with what every other member gave, the result of the collective stands at DST of every member that receives
one; the rest of device memory, core SRAM and host memory are as before; the descriptor has finished with its bytes, and the record is due.
Where the members' bytes do not match, the collective ends with E_BEAM_GROUP and device memory stays (R441). A collective refused before it starts has no effect beyond its record and its unit's error register (R146, R444): another group, a field out of
range, a group in state FAILED, memory not the context's. -/
def Obligations.CollectiveResult : Prop :=
  (∀ (j ix : Nat) (d : Bytes) (l : List Bytes) (s : State), s.mem.wf = true → s.headOf j 0x10 = some (ix, d) → (s.ring j).unitType = Config.tEngine →
     s.mayTake j (s.setting Config.tEngine (s.ring j).unitInst 2 0 == 1) = true →
     collCheck (s.ring j).ctx d s = none → (s.group (field d 12 2)).st = 1 → (s.ring j).st ≠ 0 →
     let ms := (s.group (field d 12 2)).members
     let r := s.rankIn ms
     let lens := ((List.range ms.length).filter (· != r)).map fun i => collSrcLen d i ms.length
     let res := collResult d ms r (atRank r (s.hbmRead (field d 20 8) (collSrcLen d r ms.length)) l)
     s.hbmBad (field d 20 8) (collSrcLen d r ms.length) = false →
     (l.map List.length ≠ lens → ∃ t c, exec (.beamColl j (some l)) s = .next t ∧ t.mem = s.mem ∧ (t.ring j).cur = some c ∧ c.phase = 1
       ∧ c.status = 0x2901 ∧ c.lb = 0 ∧ c.desc = d ∧ c.index = ix)
     ∧ (l.map List.length = lens → ∃ t, exec (.beamColl j (some l)) s = .next t ∧ t.hbmRead (field d 28 8) res.length = res
       ∧ (∀ a, a < field d 28 8 ∨ field d 28 8 + res.length ≤ a → Mem.get t.mem.hbm a = Mem.get s.mem.hbm a)
       ∧ t.mem.sram = s.mem.sram ∧ t.mem.host = s.mem.host ∧ t.mem.store = s.mem.store ∧ t.mem.pages = s.mem.pages
       ∧ (∃ c, (t.ring j).cur = some c ∧ c.phase = 1 ∧ c.status = 0 ∧ c.lb = res.length ∧ c.desc = d ∧ c.index = ix)
       ∧ t.jobs = s.jobs ∧ t.ctxs = s.ctxs ∧ t.mbs = s.mbs ∧ t.beam = s.beam ∧ t.upds = s.upds ∧ t.cores = s.cores
       ∧ (∀ k, k ≠ j → t.ring k = s.ring k)))
  ∧ (∀ (j ix st : Nat) (d : Bytes) (o : Option (List Bytes)) (s : State), s.headOf j 0x10 = some (ix, d) → (s.ring j).unitType = Config.tEngine →
     s.mayTake j (s.setting Config.tEngine (s.ring j).unitInst 2 0 == 1) = true → collCheck (s.ring j).ctx d s = some st →
     exec (.beamColl j o) s = .next (if st = 0x2901 then bump Config.tEngine (s.ring j).unitInst 1 1
         (failCheck j ix d st (collDetail 2 (collKind d) 0xFFFF 0 0) false (setErr Config.tEngine (s.ring j).unitInst 1 j ix 2 s))
       else failArg j ix d st s))

/-- Beam ports (R425, R426, R427, R431, R432): the state of a port after light, loss of light, training, retraining and its timers. -/
def Obligations.PortStates : Prop :=
  ∀ (n : Nat) (s : State), s.beamOn n = true →
    (let x := s.port n
     let t := s.setPort n { x with lightIn := true, lightRx := true }
     exec (.portLightDetect n) s = .next (if x.st = 1 ∨ x.st = 6 then portTo n 2 t else t))
    ∧ ((s.port n).st = 2 → ∀ peer pport, peer / 64 = s.sys.pod → peer % 64 ≠ s.sys.podDev → peer < 1024 → pport < 64 →
        exec (.trainingComplete n peer pport 255 false) s = .next (portUp n (s.updPort n fun x => { x with
          waves := 255, peer, peerPort := pport, peerOk := true, twin := false })))
    ∧ ((s.port n).st = 2 → ∀ peer pport waves twin, waves ≠ 255 → exec (.trainingComplete n peer pport waves twin) s = .next
        (portDown n (s.updPort n fun x => { x with
          waves := waves % 256, peer := peer % 1024, peerPort := pport % 64, peerOk := true
          twin := twin && peer % 64 == s.sys.podDev && peer / 64 == s.sys.pod })))
    ∧ ((s.port n).st = 2 → exec (.trainingTimeout n) s = .next
        (portErr n 4 (portTo n 6 (atLeast ((s.port n).since + 100 * Config.ms) s))))
    ∧ ((s.port n).st = 3 ∨ (s.port n).st = 4 → exec (.lossOfLight n) s = .next
        (portErr n 3 (portTo n 1 (portHold n (s.setPort n { s.port n with lightRx := false })))))
    ∧ ((s.port n).st = 2 ∨ (s.port n).st = 7 → exec (.lossOfLight n) s = .next (portTo n 1 (s.setPort n { s.port n with lightRx := false })))
    ∧ ((s.port n).st = 6 → exec (.lossOfLight n) s = .next (portTo n 2 (s.setPort n { s.port n with lightRx := false })))
    ∧ ((s.port n).st = 3 ∨ (s.port n).st = 4 → exec (.laserInputLow n) s = .next
        (portErr n 3 (portTo n 1 (portHold n (portErr n 5 (s.setPort n { s.port n with lightIn := false }))))))
    ∧ ((s.port n).st = 4 → exec (.retrainComplete n true) s = .next (portGo n (resendAll n (portTo n 3 (s.updPort n fun x => { x with
        retry := 0, retrained := true, eqGen := s.setting Config.tPort n 2 0 }))))
      ∧ exec (.retrainComplete n false) s = .next (portDown n s))
    ∧ ((s.port n).st = 5 → exec (.downRetryTimer n) s = .next (portTo n 2 (atLeast ((s.port n).since + Config.sec) s)))
    ∧ ((s.port n).st = 3 → exec (.nullFlitTimer n) s = .next (sendNull n (atLeast ((s.port n).lastTx + Config.us) s))
      ∧ exec (.replayReq n) s = .next (portReplay n s)
      ∧ ((s.port n).unacked ≠ [] → exec (.retransmitTimerExpiry n) s = .next
          (portReplay n (bump Config.tPort n 8 1 (atLeast ((s.port n).oldest + 8 * Config.us) s)))))

/-- BEAM_FLIT_RECEIVE (R430): a flit with a wrong CRC is dropped whole and counted; a numbered flit is accepted only when it is the one expected;
a duplicate is dropped and counted; any other is dropped and counted, and the first one asks for replay, unless the replay buffer is full and no
numbered flit may be sent (R429); a NULL gives its ACK and CREDIT only; an ACK out of range takes the port DOWN. Every flit sent, NULL or
numbered, carries the current ACK. -/
def Obligations.FlitReceive : Prop :=
  ∀ (n : Nat) (f : Bytes) (s : State), s.beamOn n = true → (s.port n).st = 3 →
    (flitOk f = false → exec (.beamFlitReceive n f) s = .next (portErr n 0 (bump Config.tPort n 4 1 s)))
    ∧ (flitOk f = true → takeAck (s.port n) (field f 4 2) s.now = none →
        exec (.beamFlitReceive n f) s = .next (portDown n (portErr n 7 (bump Config.tPort n 1 1 s))))
    ∧ ∀ x, flitOk f = true → takeAck (s.port n) (field f 4 2) s.now = some x →
        let t := portGo n ((bump Config.tPort n 1 1 s).setPort n (takeCredit x f))
        let y := t.port n
        (flitKind f = 0 → exec (.beamFlitReceive n f) s = .next t)
        ∧ ((flitKind f = 1 ∨ flitKind f = 2) → field f 2 2 = y.rxExpect → exec (.beamFlitReceive n f) s = .next
            (tellAck n (flitAccept n f (t.setPort n { y with rxExpect := (y.rxExpect + 1) % 65536, asked := false }))))
        ∧ ((flitKind f = 1 ∨ flitKind f = 2) → field f 2 2 ≠ y.rxExpect → (y.rxExpect + 65536 - field f 2 2) % 65536 ≤ 8192 →
            exec (.beamFlitReceive n f) s = .next (bump Config.tPort n 5 1 t))
        ∧ ((flitKind f = 1 ∨ flitKind f = 2) → 8192 < (y.rxExpect + 65536 - field f 2 2) % 65536 →
            exec (.beamFlitReceive n f) s = .next (
              let u := bump Config.tPort n 6 1 t
              if y.asked ∨ replayFlits ≤ y.unacked.length then u
              else sendNumbered n (fitTo 252 ([2] ++ zeros 12 ++ leBytes 1 1 ++ zeros 2 ++ leBytes 2 y.rxExpect)) (u.setPort n { y with asked := true })))
        ∧ (∃ g, ((sendNull n s).port n).wire = (s.port n).wire ++ [g] ∧ field g 4 2 = (s.port n).rxExpect % 65536)
        ∧ ∀ m : Bytes, m.length = 252 →
            ∃ g, ((sendNumbered n m s).port n).wire = (s.port n).wire ++ [g] ∧ field g 4 2 = (s.port n).rxExpect % 65536

/-- Numbered flits are kept until acknowledged (R429, R430): a port's sequence numbers, its unacknowledged flits and their count agree, and
sending one flit keeps that. -/
def Obligations.ReplayBufferAgrees : Prop :=
  ∀ (n : Nat) (f : Bytes) (s : State), (s.port n).unacked.length = ((s.port n).txNext + 65536 - (s.port n).txAcked) % 65536 →
    (s.port n).txNext < 65536 → (s.port n).txAcked < 65536 → (s.port n).unacked.length < 65535 →
    let t := sendNumbered n f s
    (t.port n).unacked.length = ((t.port n).txNext + 65536 - (t.port n).txAcked) % 65536
    ∧ (t.port n).txNext = ((s.port n).txNext + 1) % 65536 ∧ (t.port n).txAcked = (s.port n).txAcked
    ∧ (∃ g, (t.port n).unacked = (s.port n).unacked ++ [g] ∧ (252 ≤ f.length → flitOk g = true ∧ field g 2 2 = (s.port n).txNext))
    ∧ ∀ a x, a < 65536 → takeAck (s.port n) a s.now = some x → x.txAcked = (if a = (s.port n).txAcked then (s.port n).txAcked else a)
      ∧ x.unacked.length + (a + 65536 - (s.port n).txAcked) % 65536 = (s.port n).unacked.length

/-! ### Serving -/

/-- Group 0x07 (R390–R393, R399, R404, R406, R412–R416): queues and models, requests, cancellation, pause and resume, prefixes, sampler sets, and
the quotas of R80 that refuse one more queue, request or prefix. -/
def Obligations.ServingCommands : Prop :=
  ∀ (q : Request) (c : Nat) (p : Bytes) (ind : Option Indirect) (s : State),
    let room := c = 0 ∨ (s.srv.queues.filter fun x => (s.srvModel x.2.model).ctx == c).length < (s.ctx c).quota.srvQueues
    (let m := field p 0 2
     let queue (m : Nat) : SrvQueue := { model := m, weight := field p 2 1, closed := false, deficit := 0 }
     let b0 := (p.drop 64).take 64
     let side := mSide b0
     let b := if side = 0 then (match s.image (mImage b0) with | some g => splice b0 28 (leBytes 4 (s.imgVocab g)) | none => b0) else b0
     let t := s.taken 0x0700 q
     (admitted specSrvQueueCreate q c p ind s = true → field p 2 1 ≠ 0 → ¬ room → m ≠ 0xFFFF → s.hasModel m = true → s.queuesOf m ≠ [] →
       (s.srvModel m).ctx = c → exec (.srvQueueCreate q) s = .next (concluded specSrvQueueCreate q c p ind t (.fail 0x109 16)))
     ∧ ∀ k, admitted specSrvQueueCreate q c p ind s = true → field p 2 1 ≠ 0 → room → lowest srvQueueMax (fun q => !s.hasQueue q) = some k →
      (m ≠ 0xFFFF → s.hasModel m = true → s.queuesOf m ≠ [] → (s.srvModel m).ctx = c → exec (.srvQueueCreate q) s = .next
        (okWith specSrvQueueCreate q c ind (leBytes 2 k ++ leBytes 2 m) (t.setSrvQueue k (queue m))))
      ∧ ∀ n, m = 0xFFFF → modelImage c b0 s = none → modelBad c (s.leadBlock side) b0 s = none →
        modelRange c side (mKv b) (mPages b * mPageBytes b) s = true → modelRange c side (mReq b) (mSlots b * mSlotBytes b) s = true →
        modelRange c side (mPlan b) (mPlanBytes b) s = true → lowest srvSideModels (fun n => !s.hasModel (side * 16 + n)) = some n →
        exec (.srvQueueCreate q) s = .next (okWith specSrvQueueCreate q c ind (leBytes 2 k ++ leBytes 2 (side * 16 + n))
          ((t.setSrvModel (side * 16 + n) { SrvModel.init with ctx := c, block := b }).setSrvQueue k (queue (side * 16 + n)))))
    ∧ (let k := field p 0 2
       let w := field p 2 1
       let t := s.taken 0x0701 q
       admitted specSrvQueueWeight q c p ind s = true → queueHandle c k s = none → exec (.srvQueueWeight q) s = .next
        (okWith specSrvQueueWeight q c ind [] (if w = 0 then srvSweepQueue k (t.setSrvQueue k { s.srvQueue k with closed := true })
          else t.setSrvQueue k { s.srvQueue k with weight := w })))
    ∧ (let x := s.srvQueue (field p 0 2)
       let m := s.srvModel x.model
       let ph := field p 24 8
       let pf := if ph = 0 then none else s.prefixOf c ph
       let n := match pf with | some y => y.n | none => 0
       let plen := field p 36 4
       let maxLen := field p 32 4
       let pages := match pf with | some y => y.pages | none => []
       let e : SrvEntry := { SrvEntry.init with
          st := 1, ctx := c, queue := field p 0 2, model := x.model, length := n + plen, computed := n, maxLen, prio := field p 2 1
          deadline := if field p 8 8 = 0 then 2 ^ 64 - 1 else field p 8 8, prefx := ph, sampler := field p 3 1, seed := field p 16 8
          tag := field p 4 2, seqId := field p 48 8, pring := field p 56 1, prompt := plen, from_ := n, tokAddr := field p 40 8
          pages, sentTo := n }
       ∀ k, admitted specSrvSubmit q c p ind s = true → queueHandle c (field p 0 2) s = none → field p 2 1 ≤ (s.ctx c).quota.prioMax →
        field p 2 1 ≤ 7 → (ph ≠ 0 → ∃ y, pf = some y ∧ y.model = x.model) → n + plen + 1 ≤ maxLen → maxLen ≤ 1024 * mMaxlen m.block →
        (plen = 0 → ph ≠ 0) → (mPrism m.block = true → srvRingBad c (field p 56 1) maxLen s = none) →
        (plen ≠ 0 → s.owns c (field p 40 8) (4 * plen) = true) →
        (c ≠ 0 → (s.ctx c).quota.srvEntries ≤ s.entriesHeld c →
          exec (.srvSubmit q) s = .next (concluded specSrvSubmit q c p ind (s.taken 0x0702 q) (.fail 0x109 18)))
        ∧ ((c = 0 ∨ s.entriesHeld c < (s.ctx c).quota.srvEntries) → lowest srvEntryMax (fun k => (s.srvEntry k).st == 0) = some k → x.closed = false → m.faulted = false →
        cdiv maxLen 64 - n / 64 ≤ mPages m.block →
        exec (.srvSubmit q) s = .next (okWith specSrvSubmit q c ind (leBytes 2 k)
          (((s.taken 0x0702 q).updSrvModel x.model fun m => pages.foldl SrvModel.addRef m).setSrvEntry k e))))
    ∧ (let k := field p 0 2
       let e := s.srvEntry k
       let t := s.taken 0x0703 q
       admitted specSrvCancel q c p ind s = true → entryHandle c k 0 s = none → e.st ≠ 5 → e.st ≠ 6 →
       let u := (srvDropOps k eState t).updSrvEntry k fun e => { e with st := 6 }
       exec (.srvCancel q) s = .next (okWith specSrvCancel q c ind [] (srvCnt (s.srvModel e.model) 5 1 u)))
    ∧ (let k := field p 0 2
       let e := s.srvEntry k
       let m := s.srvModel e.model
       let cap := field p 16 8
       let t := s.taken 0x0704 q
       admitted specSrvPause q c p ind s = true → entryHandle c k 0 s = none → field p 2 1 ≤ 1 →
       s.reach c (field p 2 1) (field p 8 8) (max 1 cap) = true → e.pause = none → e.resume = none → e.st = 3 → s.modelSealed m = false →
       sumBytes m.block e ≤ cap → exec (.srvPause q) s = .next (concluded specSrvPause q c p ind t (.pend
        (t.setSrvEntry k { e with pause := some (c, (s.ctx c).nextOp, field p 2 1 + 2 * cap, field p 8 8) }))))
    ∧ (let k := field p 0 2
       let e := s.srvEntry k
       let m := s.srvModel e.model
       let n := sumBytes m.block e
       let sp := field p 2 1
       let t := s.taken 0x0705 q
       admitted specSrvResume q c p ind s = true → entryHandle c k 0 s = none → sp ≤ 1 → s.reach c sp (field p 8 8) n = true → e.pause = none →
       e.resume = none → e.st = 4 → s.modelSealed m = false → s.spaceBad sp (field p 8 8) n = false → (sp = 1 → s.ideDenied c = false) →
       exec (.srvResume q) s = .next (concluded specSrvResume q c p ind t (if summaryOk k e (s.ctxRead c sp (field p 8 8) n) then
          .pend (t.setSrvEntry k { e with st := 1, resume := some (c, (s.ctx c).nextOp, sp, field p 8 8), restore := 0 })
        else .failWith eIntegrity 0 (srvErr e.model 2 k t))))
    ∧ (let h := field p 0 8
       let k := field p 8 2
       let n := field p 12 4
       let e := s.srvEntry k
       let pages := e.pages.take (cdiv n 64)
       let t := (s.taken 0x0706 q).updSrvModel e.model fun m => pages.foldl SrvModel.addRef m
       admitted specSrvPrefixCreate q c p ind s = true → entryHandle c k 8 s = none → h ≠ 0 → s.prefixOf c h = none → n ≠ 0 → n ≤ e.computed →
       let held := (s.srv.prefixes.filter fun x => x.ctx == c).length
       (c ≠ 0 → (s.ctx c).quota.prefixes ≤ held →
         exec (.srvPrefixCreate q) s = .next (concluded specSrvPrefixCreate q c p ind (s.taken 0x0706 q) (.fail 0x109 20)))
       ∧ ((c = 0 ∨ held < (s.ctx c).quota.prefixes) → s.srv.prefixes.length < srvPrefixMax →
       e.st ≠ 5 → e.st ≠ 6 → cdiv n 64 ≤ e.pages.length → exec (.srvPrefixCreate q) s = .next (okWith specSrvPrefixCreate q c ind []
        { t with srv := { t.srv with prefixes := t.srv.prefixes ++ [{ ctx := c, handle := h, model := e.model, n, pages }] } })))
    ∧ (∀ x, admitted specSrvPrefixRelease q c p ind s = true → s.prefixOf c (field p 0 8) = some x →
        let t := (s.taken 0x0707 q).updSrvModel x.model fun m => x.pages.foldl SrvModel.dropRef m
        exec (.srvPrefixRelease q) s = .next (okWith specSrvPrefixRelease q c ind []
          { t with srv := { t.srv with prefixes := t.srv.prefixes.filter fun y => !(y.ctx == x.ctx && y.handle == x.handle) } }))
    ∧ (let b := (p.drop 64).take 64
       admitted specSrvSamplerSet q c p ind s = true → field b 6 2 < 2 → samplerBad b = none →
       exec (.srvSamplerSet q) s = .next (okWith specSrvSamplerSet q c ind [] { s.taken 0x0708 q with srv := { s.srv with
        samplers := SMap.set (zeros 64) s.srv.samplers (c * 256 + field p 0 1) b } }))

/-- The step of a served model (R395–R399, R408–R411): boundary and hand-over, the executor's handle, sampling, which waits while the Lens holds a
row for the Prism (R252), and the record of a step or of a boundary. -/
def Obligations.ServingStep : Prop :=
  ∀ (m : Nat) (s : State), s.isFatal = false → s.hasModel m = true →
    (let x := s.srvModel m
     let b := x.block
     (let t := boundaryPass m [1, 4] (boundaryPass m [3] (boundaryPass m [6] (boundaryPass m [5] s)))
      let y := t.srvModel m
      let u := t.setSrvModel m { y with
        plan := [], sets := (t.srv.samplers.filter fun z => z.1 / 256 == y.ctx).map fun z => (z.1 % 256, z.2) }
      let v := startRestores m (askBlocks m (fillDeficits m u))
      let w := if y.faulted = true ∨ (mSide y.block = 1 ∧ (u.ring (mPlanRing y.block)).full = true)
          ∨ (u.unit Config.tServing (u.leadBlock (mSide y.block))).hold = true then u
        else batchPass m false (v.ranked m) (batchPass m true (v.ranked m) v)
      x.phase = 0 → exec (.servingBoundary m) s = .next (if t.hasModel m = false then t
        else if (w.srvModel m).plan ≠ [] then handOver m w
        else if (w.srvModel m).bents ≠ [] then w.updSrvModel m fun x => { x with phase := 3, start := w.now } else w))
     ∧ (∀ h, x.phase = 1 → mSide b = 0 → (s.sweeps.any fun w => w.model == some m) = false → field (fitTo 16 h) 15 1 = 0 →
        field (fitTo 16 h) 12 2 = x.step % 65536 → planRows x.plan ≠ 0 → s.owns 0 (field (fitTo 16 h) 0 8) (16 * planRows x.plan) = true →
        s.hbmBad (field (fitTo 16 h) 0 8) (16 * planRows x.plan) = false →
        exec (.executorDone m h) s = .next (s.updSrvModel m fun x => { x with
          rows := s.rowTable (field (fitTo 16 h) 0 8) (planRows x.plan), phase := 2 }))
     ∧ (∀ h, let r := s.ring (mDoneRing b)
        let a := r.slotAddr r.head
        let d := s.spaceRead r.space a 16
        let t := s.setRing (mDoneRing b) { r with head := r.nextIx r.head, done := (r.done + 1) % 2 ^ 32 }
        x.phase = 1 → mSide b = 1 → r.filled ≠ 0 → s.spaceBad r.space a 16 = false → field d 15 1 = 0 → field d 12 2 = x.step % 65536 →
        planRows x.plan ≠ 0 → s.owns x.rights (field d 0 8) (16 * planRows x.plan) = true → s.hbmBad (field d 0 8) (16 * planRows x.plan) = false →
        exec (.executorDone m h) s = .next (t.updSrvModel m fun x => { x with
          rows := t.rowTable (field d 0 8) (planRows x.plan), phase := 2 }))
     ∧ (∀ row lens space core addr e, x.rows[row]? = some (space, core, addr) → rowEntry x.plan row = some e → x.phase = 2 →
        s.enabled Config.tLens lens = true → (s.unit Config.tLens lens).oos = false → let inst := Config.dieOf Config.tLens lens
        s.enabled Config.tServing inst = true → (s.srv.draws.any fun d => d.model == m && d.row == row) = false →
        (s.srv.asks.any fun a => a.1 == m && a.2.1 == row) = false → (x.drawn.any fun d => d.1 == row) = false → (inst < 4 ↔ mSide b = 0) →
        s.prismWaits b (s.srvEntry e.ix) = false →
        ((s.heldRow lens).isSome = true → exec (.samplerRequest m row lens) s = .next
          { s with srv := { s.srv with asks := s.srv.asks ++ [(m, row, lens)] } })
        ∧ (s.heldRow lens = none → (∀ a ∈ s.srv.asks, a.2.2 ≠ lens) →
          exec (.samplerRequest m row lens) s = .next (samplerRun m row lens s)
          ∧ let sz := if mFmt b = 0 then 4 else 2
            let r : LRange := { space, core, addr, len := sz * mVocab b }
            let slot := entrySlot b (s.srvEntry e.ix)
            let set := SMap.get (zeros 64) x.sets (s.srvEntry e.ix).sampler
            let temp := field set 0 4
            let bs := penalized b set (s.counts slot) (s.lensRead lens r)
            let k := if temp = 0 then 1 else if field set 4 2 = 0 then 256 else field set 4 2
            space ≤ 1 → r.onDie lens = true → s.lensPerm lens x.rights r = true → s.lensRange lens x.rights true r = true →
            s.lensBad lens r = false → s.hbmBad slot 8192 = false → s.hbmBad (slot + 8192) (4 * (s.srvEntry e.ix).pages.length) = false →
            (samplerRun m row lens s).mem = (lensWrite lens space core addr bs (lensSuspend lens 0 s)).mem
            ∧ (samplerRun m row lens s).srv.draws = s.srv.draws ++ [
              { model := m, row, inst, block := (lensTopk (mFmt b) false (some (if temp = 0 then one32 else temp)) k
                  ((List.range (mVocab b)).map fun i => field bs (sz * i) sz)).block }]))
     ∧ (∀ row d e, (s.srv.draws.find? fun d => d.model == m && d.row == row) = some d → rowEntry x.plan row = some e → x.phase = 2 →
        let y := s.srvEntry e.ix
        let ents := (List.range (field d.block 0 4)).map fun i => (field d.block (32 + 8 * i) 4, field d.block (36 + 8 * i) 4)
        let t := { s with srv := { s.srv with draws := s.srv.draws.filter fun z => !(z.model == m && z.row == row) } }
        let z := drawToken (SMap.get (zeros 64) x.sets y.sampler) y.seed y.length ents
        let u := if y.st = 6 then t else entryCount e.ix z.1 t
        let v := if y.st ≠ 6 ∧ ((u.counts (entrySlot b y)).any fun c => c.1 == z.1) = false then bump Config.tServing d.inst 13 1 u else u
        (ents ≠ [] → exec (.rowSample m row) s = .next (v.updSrvModel m fun w => { w with
          drawn := x.drawn ++ [(row, some z.1, z.2)], phase := if x.drawn.length + 1 = w.rows.length then 3 else 2 }))
        ∧ (ents = [] → exec (.rowSample m row) s = .next (t.updSrvModel m fun w => { w with
          drawn := x.drawn ++ [(row, none, 0)], phase := if x.drawn.length + 1 = w.rows.length then 3 else 2 })))
     ∧ (let r := s.ring (mOutRing b)
        let step := decide (x.phase = 3) && !x.plan.isEmpty
        let es := if step then endEntries m x.plan 0 s else (s, [])
        let bs := x.bents.foldr insertBent []
        let ents := es.2 ++ (bs.take 256).map fun e => { e with flags := e.flags - e.flags % 2 + b2n (decide (e.deadline < s.now)) }
        let n := cdiv (64 + 16 * ents.length) (2 ^ r.slotLog2)
        let toks := if step then (x.plan.map (·.count)).sum else 0
        let dec := ((x.plan.filter fun p => !p.prefill).map (·.count)).sum
        let head := leBytes 2 m ++ leBytes 1 (b2n !step) ++ leBytes 1 n ++ leBytes 4 ents.length ++ leBytes 8 x.step ++ leBytes 8 x.start
          ++ leBytes 8 s.now ++ leBytes 4 toks ++ zeros 28
        let t := (putSlots (mOutRing b) (head ++ ents.flatMap RecEnt.bytes) n es.1).updSrvModel m fun y => { y with
          phase := 0, plan := [], rows := [], drawn := [], fail := false, bents := bs.drop 256, stall := 0 }
        let u := srvCnt x 11 (ents.filter fun e => e.flags % 2 == 1).length
          (if step then srvCnt x 0 1 (srvCnt x 1 dec (srvCnt x 2 (toks - dec) t)) else t)
        x.phase = 3 ∨ (x.phase = 0 ∧ x.bents ≠ []) →
        (n ≤ r.slots - r.filled → exec (.stepRecordWrite m) s = .next
          (srvSweepModel m (srvCnt x 12 (if x.stall = 0 then 0 else 2 * (u.now + 1 - x.stall)) u)))
        ∧ (r.slots - r.filled < n → exec (.stepRecordWrite m) s = .next (s.updSrvModel m fun y => { y with
            stall := if y.stall = 0 then s.now + 1 else y.stall }))))

/-- Every plan that batching makes fits the model's limits (R402): at most REQS entries and TOKENS tokens; the model block is as it was. -/
def Obligations.PlanWithinLimits : Prop :=
  ∀ (m : Nat) (first : Bool) (l : List (Nat × SrvEntry)) (s : State),
    let b := (s.srvModel m).block
    let fits (x : SrvModel) := x.block = b ∧ x.plan.length ≤ mReqs b ∧ (x.plan.map (·.count)).sum ≤ mTokens b
    fits (s.srvModel m) → fits ((batchPass m first l s).srvModel m)

/-- A request's pages and tokens on the move (R24, R287, R288, R413, R414, R418): a Summary State lands or is restored, or fails; a token chunk leaves
against a credit, toward this device's T side or the peer's, and lands in its ring in the order of sending. -/
def Obligations.ServingTransfers : Prop :=
  (∀ (k c h sp a : Nat) (s : State), s.isFatal = false → (s.srvEntry k).pause = some (c, h, sp, a) → (s.srvEntry k).writing = true →
    (s.srvEntry k).st = 4 →
    let e := s.srvEntry k
    let n := sumBytes (s.srvModel e.model).block e
    (exec (.summaryWriteLanded k false) s = .next (srvErr e.model 2 k (finishOp c h eAborted 0 []
      (s.setSrvEntry k { e with st := 3, pause := none, writing := false }))))
    ∧ (s.pagesBad e = false → s.reach c (sp % 2) a n = true → (sp % 2 = 1 → s.ideDenied c = false) →
      let t := ctxWrite c (sp % 2) a (s.summary k) s
      let u := (t.updSrvModel e.model fun m =>
        let m := (e.pages ++ e.spare).foldl SrvModel.dropRef m
        { m with bents := m.bents ++ [{ ix := k, queue := e.queue, token := 0xFFFFFFFF, prob := 0, status := 5, flags := 8 * b2n e.full
                                        tag := e.tag, deadline := e.deadline }] }).setSrvEntry k { e with
          pages := [], spare := [], pause := none, writing := false }
      exec (.summaryWriteLanded k true) s = .next (srvCnt (s.srvModel e.model) 6 1 (finishOp c h 0 0 (leBytes 8 n) u))))
  ∧ (∀ (k c h sp a : Nat) (s : State), s.isFatal = false → (s.srvEntry k).resume = some (c, h, sp, a) → (s.srvEntry k).restore = 1 →
    (s.srvEntry k).st = 1 →
    let e := s.srvEntry k
    let b := (s.srvModel e.model).block
    let n := sumBytes b e
    let bs := s.ctxRead c sp a n
    (exec (.summaryRestoreComplete k false) s = .next (srvErr e.model 2 k (finishOp c h eAborted 0 []
      ((s.updSrvModel e.model fun m => (e.pages ++ e.spare).foldl SrvModel.dropRef m).setSrvEntry k { e with
        st := 4, pages := [], spare := [], resume := none, restore := 0 }))))
    ∧ (s.spaceBad sp a n = false → s.reach c sp a n = true → (sp = 1 → s.ideDenied c = false) →
      let t := (List.range (fullPages e)).foldl (fun s i =>
        hbmWrite (mPageAt b (nth e.pages i 0)) (unsumPage b (bs.drop (64 + i * sumPageBytes b))) s) s
      exec (.summaryRestoreComplete k true) s = .next ((hbmWrite (mPageAt b (nth e.pages (fullPages e) 0))
        (bs.drop (64 + fullPages e * sumPageBytes b)) t).setSrvEntry k { e with restore := 2 })))
  ∧ (∀ (k n t : Nat) (s : State), s.isFatal = false → s.tokenRing (s.srvEntry k).pring = some t →
    let e := s.srvEntry k
    let m := s.srvModel e.model
    let ch := e.pring / 16
    let w := min (min n 256) e.toks.length
    let last := w == e.toks.length && e.st == 5
    let bs := leBytes 8 e.seqId ++ leBytes 4 e.sentTo ++ leBytes 2 w ++ leBytes 1 (b2n (e.sentTo == e.from_) + 2 * b2n last)
      ++ leBytes 1 (e.pring % 16) ++ zeros 16 ++ (e.toks.take w).flatMap fun v => leBytes 4 v
    let u := s.setPring ch t { s.pring ch t with free := (s.pring ch t).free - 1 }
    let v := if (s.pring ch t).tHere s then
        u.updChan ch fun x => { x with flight := x.flight ++ [{ ring := t, seq := e.seqId, pos := e.sentTo, bytes := fitTo 1088 bs }] }
      else prismSend ch t 1 0 (fitTo 1088 bs) u
    e.st ≠ 0 → e.slot ≠ 0 → e.blk = 1 → w ≠ 0 → (s.pring ch t).free ≠ 0 → (s.pring ch t).sHere s = true → mPrism m.block = true →
    mSide m.block = 1 →
    exec (.tokenChunkSend k n) s = .next (bump Config.tPrism ch 13 1 (v.setSrvEntry k { e with
      toks := e.toks.drop w, sentTo := e.sentTo + w, blk := if last then 2 else 1 })))
  ∧ (∀ (k : Nat) (f : Flight) (s : State), s.isFatal = false → ((s.chan (k / 16)).flight.find? fun f => (s.pring (k / 16) f.ring).kind == 2) = some f → f.ring = k % 16 →
    (s.pring (k / 16) (k % 16)).kind = 2 → s.pringLive (k / 16) (k % 16) = true →
    let p := s.pring (k / 16) (k % 16)
    exec (.tokenChunkLand k) s = .next ((hbmWrite (p.base + p.tail % p.slots * 1088) (fitTo 1088 f.bytes)
      (s.updChan (k / 16) fun x => { x with flight := x.flight.erase f })).setPring (k / 16) (k % 16) { p with
        written := NSet.ins p.tail p.written, tail := (p.tail + 1) % (2 * p.slots) }))

/-! ### Loupe -/

/-- Group 0x0A (R533, R545, R546, R549–R552): sensors, the margin ledger, the log, power caps, and firmware staging, activation, commit and revert. -/
def Obligations.LoupeCommands : Prop :=
  ∀ (q : Request) (c : Nat) (p : Bytes) (ind : Option Indirect) (s : State),
    (admitted specLoupeSensors q c p ind s = true → (field p 0 1 ≤ 7 ∨ field p 0 1 = 255) →
      exec (.loupeSensors q) s = .next (okWith specLoupeSensors q c ind (s.sensors (field p 0 1)) (s.taken 0x0A00 q)))
    ∧ (admitted specLoupeLedger q c p ind s = true →
      exec (.loupeLedger q) s = .next (okWith specLoupeLedger q c ind s.ledgerBytes (s.taken 0x0A01 q)))
    ∧ (admitted specLoupeLogRead q c p ind s = true → 1 ≤ field p 8 4 → field p 8 4 ≤ 16384 →
      exec (.loupeLogRead q) s = .next (okWith specLoupeLogRead q c ind ((s.logRange (field p 0 8) (field p 8 4)).flatMap LogEntry.bytes)
        (s.taken 0x0A02 q)))
    ∧ (admitted specLoupePowerCap q c p ind s = true → 300 ≤ field p 0 2 → field p 0 2 ≤ 700 → field p 0 2 ≤ field p 2 2 → field p 2 2 ≤ 950 →
      exec (.loupePowerCap q) s = .next (okWith specLoupePowerCap q c ind (leBytes 2 s.loupe.capS ++ leBytes 2 s.loupe.capB)
        { s.taken 0x0A03 q with loupe := { s.loupe with capNext := some (field p 0 2, field p 2 2) } }))
    ∧ (let t := s.taken 0x0A04 q
       let k := 1 - s.sys.slot
       let sp := field p 8 1
       let n := field p 12 4
       admitted specLoupeFwStage q c p ind s = true → sp ≤ 1 → 0 < n → n ≤ 32 * 2 ^ 20 → s.loupe.staging = none → s.loupe.trial = none →
       s.reach c sp (field p 0 8) n = true → s.spaceBad sp (field p 0 8) n = false →
       exec (.loupeFwStage q) s = .next (concluded specLoupeFwStage q c p ind t (.pend { t with
        loupe := { s.loupe.setSlot k { s.loupe.slotOf k with cond := 0 } with
          staging := some (c, (s.ctx c).nextOp, s.spaceRead sp (field p 0 8) n) } })))
    ∧ (let q0 := withOp 0 q
       let t := s.taken 0x0A05 q0
       admitted specLoupeFwActivate q0 c p ind s = true → field p 0 1 = 0 → field p 1 1 < 2 → s.loupe.dip = none →
       (s.studentHolds = false ∨ field p 1 1 = 1) → (s.loupe.slotOf (1 - s.sys.slot)).cond = 1 →
       exec (.loupeFwActivate q) s = .next (okWith specLoupeFwActivate q0 c ind [] { t with
        sys := { s.sys with sysReset := some (s.sys.sysReset.getD 0) }, loupe := { s.loupe with swap := 1 } }))
    ∧ (let q1 := withOp 1 q
       let t := s.taken 0x0A05 q1
       admitted specLoupeFwActivate q1 c p ind s = true → field p 0 1 = 1 → field p 1 1 < 2 → s.loupe.dip = none → s.loupe.burning = none →
       (s.loupe.trial.isSome = true ∨ s.sys.rollback < s.sys.svn) →
       exec (.loupeFwCommit q) s = .next (concluded specLoupeFwActivate q1 c p ind t (.pend { t with
        loupe := { s.loupe with trial := none, burning := some (c, (s.ctx c).nextOp) } })))
    ∧ (let q2 := withOp 2 q
       let t := s.taken 0x0A05 q2
       admitted specLoupeFwActivate q2 c p ind s = true → field p 0 1 = 2 → field p 1 1 < 2 → (s.loupe.slotOf (1 - s.sys.slot)).cond = 2 →
       exec (.loupeFwRevert q) s = .next (okWith specLoupeFwActivate q2 c ind [] { t with
        sys := { s.sys with sysReset := some (s.sys.sysReset.getD 0) }, loupe := { s.loupe with swap := 2 } }))

/-- What ends firmware commands and what Loupe does on its own time (R509, R541, R544, R546, R549, R550): a staged bundle verifies or not, a fuse
step burns, the last of them makes a FALLBACK slot below it INVALID and a dip stops the others, a trial times out, re-plans are retried or late, and the log is copied.
No re-plan takes margin away but in an idle window (R544): every change that it queues keeps or adds margin. -/
def Obligations.LoupeEvents : Prop :=
  (∀ (s : State),
     (∀ c h b, s.loupe.staging = some (c, h, b) →
       let t := { s with loupe := { s.loupe with staging := none } }
       let k := 1 - s.sys.slot
       exec .fwStageVerified s = .next (match Config.bundle b with
         | none => finishOp c h 0x112 0 [] t
         | some (v, lo, sc) =>
           if v % 64 < s.sys.rollback then finishOp c h 0x2A00 s.sys.rollback [] t
           else finishOp c h 0 0 (leBytes 8 b.length ++ leBytes 1 k ++ leBytes 1 (v % 64)) (logPush 0x40 255 []
             { t with loupe := t.loupe.setSlot k { cond := 1, svn := v % 64, loupe := fitTo 48 lo, sci := fitTo 48 sc } })))
     ∧ (∀ c h, s.loupe.burning = some (c, h) → s.sys.rollback + 1 < s.sys.svn → s.loupe.dip = none →
         exec .fuseStepComplete s = .next (logPush 0x43 255 [] { s with sys := { s.sys with rollback := s.sys.rollback + 1 } }))
     ∧ (∀ c h, s.loupe.burning = some (c, h) → s.sys.rollback + 1 = s.sys.svn →
         let t := logPush 0x43 255 [] { s with sys := { s.sys with rollback := s.sys.rollback + 1 } }
         let k := 1 - s.sys.slot
         let x := s.loupe.slotOf k
         let l := { s.loupe with burning := none }
         exec .fuseStepComplete s = .next (finishOp c h 0 0 (leBytes 1 s.sys.svn) { t with
           loupe := if x.cond = 2 ∧ x.svn < s.sys.svn then l.setSlot k { x with cond := 0 } else l }))
     ∧ (∀ c h, s.loupe.burning = some (c, h) → s.sys.rollback + 1 < s.sys.svn → s.loupe.dip.isSome = true →
         let t := logPush 0x43 255 [] { s with sys := { s.sys with rollback := s.sys.rollback + 1 } }
         exec .fuseStepComplete s = .next (finishOp c h 0x113 0 [] { t with loupe := { s.loupe with burning := none } }))
     ∧ (∀ t, s.loupe.trial = some t → s.sys.booting = true → s.diesOn = true →
         exec .fwTrialTimeout s = .next (otherSlot 0 { s with now := max s.now (t + 30 * Config.sec) }))
     ∧ (s.loupe.planRetry ≠ 0 → s.running = true → s.isFatal = false → exec .replanRetry s = .next
         (planKick { s with now := max s.now s.loupe.planRetry, loupe := { s.loupe with planRetry := 0 } }))
     ∧ (s.loupe.planLate = false → s.running = true → s.isFatal = false →
         let t := logPush 0x31 255 [] { s with now := max s.now (s.loupe.planDue + 24 * 3600 * Config.sec), loupe := { s.loupe with planLate := true } }
         exec .replanLate s = .next (setErr Config.tLoupe 0 5 0x31 (t.log.next - 1) 0 t))
     ∧ (s.diesOn = true → s.sys.valid = true → exec .logCopy s = .next (bump Config.tLoupe 0 11 s.log.uncopied.length { s with log := { s.log with
         slc := (s.log.slc ++ s.log.uncopied).drop ((s.log.slc ++ s.log.uncopied).length - 16777216) } }))
     ∧ (s.running = true → s.isFatal = false → s.loupe.planTodo = [] →
         let t := { s with now := max s.now s.loupe.planDue, loupe := { s.loupe with ledger := [] } }
         exec (.replan false [] [] []) s = .next (logPush 0x30 255 [] { t with loupe := { t.loupe with
           plans := satAdd 32 s.loupe.plans 1, planAt := t.now, planLate := false, planDue := t.now + s.loupeSet 4 * 3600 * Config.sec } })))
  ∧ (∀ (meas : List (Nat × Nat × Nat × Nat × Nat)) (drift : List (Nat × Nat)) (wants : List (Nat × Nat × Nat × Nat)) (s : State),
     s.running = true → s.isFatal = false → s.loupe.planTodo = [] →
     ∃ t, exec (.replan false meas drift wants) s = .next t
       ∧ ∀ l ∈ t.loupe.planTodo, l ≠ [] ∧ ∀ i ∈ l, s.losesMargin i = false ∧ s.valueOf i.1 i.2.1 i.2.2.1 ≠ i.2.2.2)

/-! ### Power and temperature -/

/-- Limits on current and power (R531, R532, R535, R539, R540).
GOVERNOR_STEP (R533, R534): the millisecond's mean power and energy are taken in, pending caps hold, no die runs above its FMAX, the reservoir
stays below its capacity and is spent at what the power exceeds the sustained cap by. -/
def Obligations.PowerLimits : Prop :=
  (∀ (s : State),
     exec .forceThrottleAssert s = .next { s with loupe := { s.loupe with forced := true } }
     ∧ exec .forceThrottleRelease s = .next { s with loupe := { s.loupe with forced := false } }
     ∧ (∀ amps vin, s.diesOn = true →
         let t := atLeast (s.loupe.ilAt + 500) s
         let ns := if s.loupe.ilDuty < 100 then s.loupe.ilNs + (t.now - s.loupe.ilAt) else s.loupe.ilNs
         let u := bump Config.tLoupe 0 3 (ns / 1000 - s.loupe.ilNs / 1000) t
         let l := { s.loupe with ilAt := t.now, ilNs := ns, amps, vinMv := vin }
         let lim := s.loupeSet 2 * 10
         (lim < amps → s.loupe.ilDuty ≠ 100 → exec (.currentLimitSample amps vin) s = .next
           { u with loupe := { l with ilDuty := max 25 (s.loupe.ilDuty - 25), ilBelow := none } })
         ∧ (lim < amps → s.loupe.ilDuty = 100 → exec (.currentLimitSample amps vin) s = .next
             (let v := logPush 0x10 255 [] { u with loupe := { l with ilDuty := 75, ilBelow := none } }
              setErr Config.tLoupe 0 1 0x10 (v.log.next - 1) 0 v))
         ∧ (amps * 100 < 95 * lim → ∀ b, s.loupe.ilBelow = some b → b + 10 * Config.us ≤ t.now → exec (.currentLimitSample amps vin) s = .next
             { u with loupe := { l with ilDuty := min 100 (s.loupe.ilDuty + 25), ilBelow := some t.now } })
         ∧ (amps ≤ lim → 95 * lim ≤ amps * 100 → exec (.currentLimitSample amps vin) s = .next { u with loupe := { l with ilBelow := none } }))
     ∧ (∀ mw, s.diesOn = true →
         let t := atLeast (s.loupe.winAt + 100 * Config.us) s
         let ns := if s.loupe.window then s.loupe.winNs + (t.now - s.loupe.winAt) else s.loupe.winNs
         let u := bump Config.tLoupe 0 4 (ns / 1000 - s.loupe.winNs / 1000) t
         let on := if s.loupe.window then decide (s.loupe.capB * 1000 - 20000 < mw) else decide (s.loupe.capB * 1000 ≤ mw)
         let v := { u with loupe := { s.loupe with winAt := t.now, winNs := ns, window := on } }
         exec (.windowLimitEval mw) s = .next (if on && !s.loupe.window then logPush 0x11 255 [] v else v)))
  ∧ (∀ (mw : Nat) (s : State), s.diesOn = true → s.wf = true → SMap.wf 0 s.loupe.freq = true →
     ∃ t, exec (.governorStep mw) s = .next t
       ∧ t.loupe.meanMw = mw ∧ t.loupe.energy = s.loupe.energy + mw ∧ t.loupe.capNext = none
       ∧ (t.loupe.capS, t.loupe.capB) = s.loupe.capNext.getD (s.loupe.capS, s.loupe.capB)
       ∧ (∀ d ∈ computeDies, t.loupe.freqOf d ≤ s.fmax d)
       ∧ t.loupe.reservoir = min (s.loupeSet 1 * 1000000) (s.loupe.reservoir + t.loupe.capS * 1000 - mw)
       ∧ t.loupe.lastStep = max s.now (s.loupe.lastStep + Config.ms) ∧ t.now = t.loupe.lastStep
       ∧ t.jobs = s.jobs ∧ t.cores = s.cores ∧ t.mbs = s.mbs ∧ t.loupe.hot = s.loupe.hot ∧ t.loupe.slots = s.loupe.slots
       ∧ t.mem.sram = s.mem.sram ∧ t.mem.store = s.mem.store ∧ t.mem.pages = s.mem.pages)

/-- Temperatures and the supply (R382, R383, R385, R529, R536–R541, R584).
What outlasts the loss of the logic dies (R383, R566): the Store, the Loupe log, firmware slots, fuses and host memory; device memory, core SRAM,
contexts, rings, jobs, routes and the tables of serving are gone. -/
def Obligations.ThermalAndSupply : Prop :=
  (∀ (s : State),
     (∀ inst sensor t, s.diesOn = true → inst < 8 → exec (.thermalSample 0 inst sensor t) s = .next (junction inst sensor t s)
       ∧ exec (.thermalSample 2 inst sensor t) s = .next (storeHeat inst t s)
       ∧ let u := { s with loupe := { s.loupe with
           hbmTemp := SMap.set 0 s.loupe.hbmTemp inst t
           refresh := if t > 680 then NSet.ins inst s.loupe.refresh else NSet.del inst s.loupe.refresh
           hbmHot := if t ≥ 760 then NSet.ins inst s.loupe.hbmHot else NSet.del inst s.loupe.hbmHot } }
         exec (.thermalSample 1 inst sensor t) s = .next
           (if t ≥ 760 then throttleOn (Config.dieOf Config.tHbm inst) u else throttleOff (Config.dieOf Config.tHbm inst) u))
     ∧ (∀ inst sensor t, s.diesOn = true → inst < 5 → t < 640 → exec (.thermalSample 3 inst sensor t) s = .next
         { s with loupe := { s.loupe with oeTemp := SMap.set 0 s.loupe.oeTemp inst t } })
     ∧ (∀ die, s.diesOn = true → die < 8 → s.loupe.silent.contains die = false →
         exec (.sensorAgentTimeout die) s = .next (throttleOn die { setErr Config.tLoupe 0 4 0 0 0 s with loupe := { s.loupe with
           silent := NSet.ins die s.loupe.silent, temps := SMap.set (0, 0) s.loupe.temps die (800, 0)
           freq := if die < 6 then SMap.set 0 s.loupe.freq die 800 else s.loupe.freq } }))
     ∧ (s.diesOn = true → s.loupe.dip = none → exec .vinDipBegin s = .next
         (programHold true (bump Config.tLoupe 0 1 1 { s with loupe := { s.loupe with dip := some (s.now, 0) } })))
     ∧ (∀ t n, s.loupe.dip = some (t, n) → exec .dipLong s = .next (logPush 2 255 []
         { s with now := max s.now (t + (n + 1) * Config.sec), loupe := { s.loupe with dip := some (t, n + 1) } }))
     ∧ (∀ t n us mv, s.loupe.dip = some (t, n) →
         let u := atLeast (t + max 100 us * Config.us) s
         let v := programHold false (bump Config.tLoupe 0 2 ((u.now - t) / Config.us) { u with loupe := { s.loupe with dip := none } })
         let w := logPush 1 255 (leBytes 4 mv ++ leBytes 8 ((u.now - t) / Config.us)) v
         exec (.vinDipEnd us mv) s = .next (notifyTenants 1 v.log.next (setErr Config.tLoupe 0 0 1 (w.log.next - 1) 0 w)))
     ∧ (s.sys.vaux = true → s.sys.vin = true → s.loupe.trip = none → exec .powerLossFlush s = .next (powerOff
         (let t := flushStore s
          { t with sys := { t.sys with vin := false, sysReset := none }, loupe := { t.loupe with lost := t.loupe.lost || t.diesOn } })))
     ∧ (∀ die t0, s.diesOn = true → (s.loupe.temps.find? fun t => decide (t.2.1 ≥ 920)) = some (die, t0) →
         let t := flushStore (notifyTenants 0x23 s.log.next (logPush 0x23 die [] (bump Config.tLoupe 0 8 1 s)))
         exec .thermalTrip s = .next (powerOff { t with loupe := { t.loupe with thermtrip := true, trip := some t.now } }))
     ∧ (∀ t l, s.loupe.trip = some t → s.sys.vaux = true → l.length = 4 → (∀ x ∈ l, x < 640) → exec (.tripRelease l) s = .next
         { s with now := max s.now (t + 2 * Config.sec), loupe := { s.loupe with trip := none, thermtrip := false, tripped := true } })
     ∧ (∀ pod mgmt, s.sys.vaux = false → exec (.vauxApplied pod mgmt) s = .next { s with
         sys := { s.sys with vaux := true, strapPod := pod % 64, strapMgmt := mgmt % 4 }
         loupe := { s.loupe with aonStart := s.now, thermtrip := s.loupe.trip.isSome } })
     ∧ (s.sys.vaux = true → ∃ t, exec .vauxLost s = .next t ∧ t.sys.vaux = false ∧ t.mbs = [] ∧ t.log.aon = []
         ∧ t.mem.store = s.mem.store ∧ t.mem.host = s.mem.host ∧ t.mem.hbm = [] ∧ t.mem.sram = [] ∧ t.loupe.slots = s.loupe.slots
         ∧ t.log.slc = (if s.diesOn then (logCopy s).log.slc else s.log.slc) ∧ t.sys.rollback = s.sys.rollback))
  ∧ (∀ (s : State), s.sys.vaux = true → s.sys.vin = true → s.loupe.trip = none → SMap.wf Ctl.init s.ctls = true →
     ∃ t, exec .powerLossFlush s = .next t ∧ t.mem.store = s.mem.store ∧ t.mem.host = s.mem.host ∧ t.log.aon = s.log.aon ∧ t.log.slc = s.log.slc
       ∧ t.loupe.slots = s.loupe.slots ∧ t.sys.rollback = s.sys.rollback ∧ t.sys.slot = s.sys.slot ∧ t.sys.vaux = true
       ∧ t.sys.valid = false ∧ t.diesOn = false ∧ t.mem.hbm = [] ∧ t.mem.sram = [] ∧ t.ctxs = [] ∧ t.rings = [] ∧ t.jobs = [] ∧ t.ops = []
       ∧ t.beam = Beam.init ∧ t.srv = Serving.init ∧ t.cores = []
       ∧ (∀ m, m < Config.mailboxes + 4 → t.mb m = Mailbox.init)
       ∧ (∀ i, i < 8 → (t.ctl i).pend = [] ∧ ((s.ctl i).armed = true → (t.ctl i).dump = some (s.ctl i).pend)))

/-! ### Security -/

/-- Group 0x0B (R508, R509, R511, R514, R516, R525): certificates, measurements signed over a fresh nonce, key rolls, the debug state.
The SPDM responder (R510) and MCTP (R551): each request on a transport that is up is answered there, and nothing else of the part changes
but the counts of nonces and signatures and the sessions. -/
def Obligations.SecurityCommands : Prop :=
  (∀ (q : Request) (c : Nat) (p : Bytes) (ind : Option Indirect) (s : State),
     (admitted specSecCerts q c p ind s = true → field p 0 1 ≤ 1 → field p 8 2 ≠ 0 → exec (.secCerts q) s = .next
       (okWith specSecCerts q c ind (((Config.certChain (field p 0 1)).drop (field p 4 4)).take (field p 8 2)) (s.taken 0x0B00 q)))
     ∧ (let t := s.taken 0x0B01 q
        let m := measurements (s.ctxIndices (field p 0 1)) ((p.drop 8).take 32) [] true 0 t
        admitted specSecMeasurements q c p ind s = true → (c = 0 ∨ field p 0 1 = c) → field p 0 1 ≤ 63 →
        exec (.secMeasurements q) s = .next (okWith specSecMeasurements q c ind m.1
         { t with keys := s.keys + 1, sec := { s.sec with signs := s.sec.signs + 1 } }))
     ∧ (let n := field p 1 1
        let x := s.ctx n
        let fl := field p 0 1
        let t := s.taken 0x0B02 q
        let y (cs : Option Bytes) : Context := { x with
           secret := cs.map (fitTo 32), requireIde := x.requireIde || bitOf fl 2, confidential := x.confidential || bitOf fl 3 }
        admitted specSecCtxKeyRoll q c p ind s = true → fl < 16 → (c = 0 ∨ n = c) → 1 ≤ n → n ≤ 63 → s.rolling n = false → x.st = 1 →
        field p 8 8 = x.epoch → (bitOf fl 3 = true → bitOf fl 0 = true ∨ x.secret.isSome = true) →
        exec (.secCtxKeyRoll q) s = .next (concluded specSecCtxKeyRoll q c p ind t
         (match (if bitOf fl 0 then (s.unwrapSecret n p).map some else some x.secret) with
           | none => .fail 0x112 0
           | some cs =>
             if bitOf fl 1 then .pend ({ t with keys := s.keys + 1 }.setCtx n { y cs with oldKey := x.hbmKey, hbmKey := s.keys + 1 })
             else if q.defer then .pend (t.setCtx n (y cs))
             else .ok (leBytes 8 (x.epoch + 1)) (t.setCtx n { y cs with epoch := x.epoch + 1 }))))
     ∧ (∀ ctx o, (s.ops.find? fun o => o.opcode == 0x0B02 && field o.payload 1 1 == ctx) = some o → s.isFatal = false →
         exec (.keyRollReencryptComplete ctx) s = .next (finishOp o.ctx o.handle 0 0 (leBytes 8 ((s.ctx ctx).epoch + 1))
           (s.updCtx ctx fun x => { x with epoch := (s.ctx ctx).epoch + 1, oldKey := 0 })))
     ∧ (let told (t : State) := leBytes 1 t.sys.debug ++ leBytes 1 (b2n (t.sys.debug == 2)) ++ leBytes 1 (b2n (t.sys.debug == 2)) ++ zeros 5
          ++ leBytes 4 t.sys.svn ++ leBytes 1 t.sys.rollback
        (let q0 := withOp 0 q
         let t := s.taken 0x0B03 q0
         admitted specSecDebugState q0 c p ind s = true → field p 0 1 = 0 →
           exec (.secDebugQuery q) s = .next (okWith specSecDebugState q0 c ind (told t) t))
        ∧ (let q1 := withOp 1 q
           let t := s.taken 0x0B03 q1
           let u := { t with sec := { s.sec with token := true }, sys := { s.sys with debug := max s.sys.debug 1 } }
           admitted specSecDebugState q1 c p ind s = true → field p 0 1 = 1 → isAdmin q.mailbox = true →
           exec (.secDebugStageUnlock q) s = .next (concluded specSecDebugState q1 c p ind t
             (if Config.unlockToken (p.drop 1) s.sys.rollback then .ok (told u) u else .fail 0x112 0)))
        ∧ (let q2 := withOp 2 q
           let t := s.taken 0x0B03 q2
           let u := { t with sec := { s.sec with token := false }, sys := { s.sys with debug := if s.sys.debug = 1 then 0 else s.sys.debug } }
           admitted specSecDebugState q2 c p ind s = true → field p 0 1 = 2 → isAdmin q.mailbox = true →
           exec (.secDebugCancel q) s = .next (okWith specSecDebugState q2 c ind (told u) u))))
  ∧ (∀ (tr : Nat) (s : State), s.spdmUp tr = true →
     (∀ slot off len, ∃ bs, exec (.spdmGetCertificate tr slot off len) s = .next { s with sec := { s.sec with out := s.sec.out ++ [(tr, bs)] } })
     ∧ (∀ slot nonce sum, ∃ bs k, k ≤ 1 ∧ exec (.spdmChallenge tr slot nonce sum) s = .next
         { s with keys := s.keys + k, sec := { s.sec with signs := s.sec.signs + k, out := s.sec.out ++ [(tr, bs)] } })
     ∧ (∀ ix nonce signed, ∃ bs k, k ≤ 1 ∧ exec (.spdmGetMeasurements tr ix nonce signed) s = .next { s with
         keys := s.keys + k, sec := { s.sec with signs := s.sec.signs + (if signed then k else 0), out := s.sec.out ++ [(tr, bs)] } })
     ∧ (∀ slot msg, slot ≤ 1 → ∃ bs, exec (.spdmKeyExchange tr slot msg) s = .next { s with
         sec := { s.sec with signs := s.sec.signs + 1, session := NSet.ins tr s.sec.session, out := s.sec.out ++ [(tr, bs)] } })
     ∧ (∀ slot nonce sum, slot ≤ 1 → ∃ bs sg, exec (.spdmChallenge tr slot nonce sum) s = .next
         { s with keys := s.keys + 1, sec := { s.sec with signs := s.sec.signs + 1, out := s.sec.out ++ [(tr, bs ++ sg)] } }
         ∧ sg = fitTo 96 (Config.akSign s.sec.signs (Config.sha384 (nonce ++ bs))) ∧ bs.take 4 = [0x13, 0x03] ++ leBytes 1 slot ++ [3]
         ∧ (bs.drop 4).take 48 = fitTo 48 (Config.sha384 (Config.certChain slot)))
     ∧ (∀ op q, tr ≠ 0 → exec (.mctpControlMessage tr 0 op q) s = .next (mctpControl tr op q.payload s)
         ∧ exec (.mctpControlMessage tr 1 op q) s = .next (mctpRequest tr op q s)))

/-! ### Resets -/

/-- CTX_RESET and CTX_DESTROY (R82, R83, R95, R567): accepted, the context is RESETTING, its unit work has ended and its command waits for the reset
to settle; while a commit of it is in progress the stop waits too. A context that is not ACTIVE is refused, and so is another tenant's.
ENGINE_RESET (R569, R570, R574): the tasks of the instance and its rings end, for a core those of its Scaler and its Stream Unit too; the record
goes to every context with a ring that names them and tells whether the instance goes out of service, as it does at the third within 24 hours. -/
def Obligations.ContextResets : Prop :=
  (∀ (q : Request) (c : Nat) (p : Bytes) (ind : Option Indirect) (s : State),
     let n := field p 0 1
     let waits := (s.txn n).any fun x => x.st == 2
     let go (t : State) (destroy : Bool) : State :=
       let u := { t with sys := { s.sys with
         resets := s.sys.resets ++ [{ kind := 1, ctxs := [n], destroy, ops := [(c, (s.ctx c).nextOp)], begun := !waits }] } }
       if waits then u.updCtx n fun x => { x with st := 2 } else resetStop [n] true u
     (admitted specCtxReset q c p ind s = true → 
       let t := s.taken 0x0206 q
       ((c = 0 ∨ n = c) → 1 ≤ n → n ≤ 63 → (s.ctx n).st = 1 → exec (.ctxReset q) s = .next (concluded specCtxReset q c p ind t (.pend (go t false))))
       ∧ (c ≠ 0 → n ≠ c → exec (.ctxReset q) s = .next (concluded specCtxReset q c p ind t (.fail 0x106 0)))
       ∧ ((c = 0 ∨ n = c) → 1 ≤ n → n ≤ 63 → (s.ctx n).st ≠ 1 →
           exec (.ctxReset q) s = .next (concluded specCtxReset q c p ind t (.fail 0x10C (s.ctx n).st))))
     ∧ (admitted specCtxDestroy q c p ind s = true → 
       let t := s.taken 0x0201 q
       (1 ≤ n → n ≤ 63 → (s.ctx n).st = 1 → exec (.ctxDestroy q) s = .next (concluded specCtxDestroy q c p ind t (.pend (go t true))))
       ∧ (n = 0 ∨ 63 < n → exec (.ctxDestroy q) s = .next (concluded specCtxDestroy q c p ind t (.fail 0x108 0)))
       ∧ (1 ≤ n → n ≤ 63 → (s.ctx n).st ≠ 1 →
           exec (.ctxDestroy q) s = .next (concluded specCtxDestroy q c p ind t (.fail 0x10C (s.ctx n).st)))))
  ∧ (∀ (ty inst : Nat) (s : State), s.running = true → s.isFatal = false → Config.instances ty ≠ 0 → s.enabled ty inst = true →
     let us := engineUnits ty inst
     let named := ((us.flatMap fun u => s.namedBy u.1 u.2).map fun r => r.2.ctx).eraseDups
     let t := us.foldl (fun s u => engineStop u.1 u.2 s) s
     let day := (t.unit ty inst).resets.filter fun x => decide (t.now < x + 86400 * Config.sec)
     let u := t.updUnit ty inst fun u => { u with resets := day ++ [t.now] }
     let v := if 2 ≤ day.length then us.foldl (fun s u => s.updUnit u.1 u.2 fun x => { x with oos := true }) u else u
     exec (.engineReset ty inst) s = .next (raiseUnit { code := 9, status := 0x1FF, flags := if 2 ≤ day.length then 4 else 0, ty, inst, ctx := 255
                                                        ring := 0xFFFF, index := 0, addr := 0, space := 0 } named v)
     ∧ (∀ j x, s.unitRings ty inst = [(j, x)] → ty ≠ Config.tPrism → ty ≠ Config.tUpdate →
         let y := (engineStop ty inst s).ring j
         2 ≤ y.st ∧ y.st ≤ 4 ∧ y.stopCode = 0x113 ∧ y.stopIndex = (s.ring j).head))

/-- FUNCTION, WARM and COLD resets, PERST_N and the boot (R489, R550, R564–R568, R571, R581); the settling of each kind of reset; a link between
dies that is lost for good (R26), which every context with rings of units on either die hears of (R574). -/
def Obligations.DeviceResets : Prop :=
  ∀ (s : State),
    (s.diesOn = true → s.sys.booting = false → s.sys.resets = [] → exec .pcieFlr s = .next (bigReset 2 s.tenants { s with
        host := { s.host with flr := true }, sys := { s.sys with msixOn := false, unmasked := [], pba := [] } }))
    ∧ (s.diesOn = true → (∃ r ∈ s.sys.resets, 2 ≤ r.kind) → exec .pcieFlr s = .next s)
    ∧ (s.diesOn = true → s.sys.booting = false → s.sys.resets = [] →
        exec .pcieHotReset s = .next (linkReset (bigReset 3 (0 :: s.tenants) { s with sys := { s.sys with sysReset := none } })))
    ∧ (s.diesOn = true → s.sys.booting = false → s.sys.resets = [] → exec .perstNAssert s = .next
        (linkReset (bigReset 3 (0 :: s.tenants) { s with sys := { s.sys with perst := false, sysReset := none } })))
    ∧ exec .perstNDeassert s = .next { s with sys := { s.sys with perst := true } }
    ∧ (s.sys.sysReset = some 0 → s.loupe.swap = 0 → s.diesOn = true → s.sys.booting = false → s.sys.resets = [] →
        exec .warmReset s = .next (bigReset 3 (0 :: s.tenants) { s with now := s.now + Config.ms, sys := { s.sys with sysReset := none } }))
    ∧ (∀ r, s.sys.resets = [r] → r.begun = true → r.kind = 1 → exec .resetWritesSettled s = .next
        (resetOps r.ops (release4 (!r.destroy) r.ctxs { s with sys := { s.sys with resets := [] } })))
    ∧ (∀ r, s.sys.resets = [r] → r.begun = false → r.kind = 1 → (r.ctxs.all fun c => (s.txn c).isNone) = true →
        exec .resetWritesSettled s = .next (resetOps r.ops (release4 (!r.destroy) r.ctxs (resetStop r.ctxs true
          { s with sys := { s.sys with resets := [] } }))))
    ∧ (∀ r, s.sys.resets = [r] → r.begun = true → r.kind = 2 →
        let t := release4 false r.ctxs { s with sys := { s.sys with resets := [] } }
        exec .resetWritesSettled s = .next (planKick (cfgStart (resetOps r.ops { t with
          host := { t.host with flr := false }, units := SMap.mapVals UnitRegs.init (fun u => { u with snap := UnitRegs.init.snap }) t.units }))))
    ∧ (∀ r, s.sys.resets = [r] → r.begun = true → r.kind = 3 → s.loupe.dip = none → exec .resetWritesSettled s = .next
        (firmwareStop (release4 false r.ctxs { s with sys := { s.sys with resets := [] } })))
    ∧ (∀ pod mgmt bank temps, s.sys.vaux = true → s.loupe.trip = none → (s.sys.valid = false ∨ s.sys.sysReset = some 1) →
        let t := if s.diesOn then powerOff (programPending (atLeast (s.now + 11 * Config.ms) s)) else s
        let u := { t with sys := { t.sys with vin := true, sysReset := none, strapPod := pod % 64, strapMgmt := mgmt % 4 } }
        exec (.coldReset pod mgmt bank temps) s = .next (
          if u.loupe.tripped = true ∧ ∃ x ∈ temps, x.1 < 8 ∧ 720 ≤ x.2 then
            logPush 0x23 255 [] { u with loupe := { u.loupe with trip := some u.now, thermtrip := true } }
          else coldBoot bank temps u))
    ∧ (s.sys.booting = true → s.diesOn = true → s.sys.stage = 1 → s.sys.resets = [] → (s.sys.warm = false ∨ s.sys.perst = true) →
        ∃ t, exec .firmwareStartPublish s = .next t ∧ t.sys.stage = 2 ∧ t.sys.gen = (s.sys.gen + 1) % 2 ^ 32 ∧ t.sys.sciMajor = 1
          ∧ t.sys.booting = false ∧ t.sys.fwStart = s.now ∧ t.running = true ∧ t.jobs = s.jobs ∧ t.mbs = s.mbs ∧ t.mem.sram = s.mem.sram)
    ∧ (∀ c, s.diesOn = true → 0xF ≤ c → c ≤ 0x11 → s.isFatal = false → ∃ t, exec (.fatalError c) s = .next t ∧ t.sys.fatal = c ∧ t.isFatal = true
          ∧ t.jobs = s.jobs ∧ t.mbs = s.mbs ∧ t.cores = s.cores)
    ∧ (∀ k, s.diesOn = true → k < 22 → s.sys.linksDown.contains k = false →
        let u := { s with sys := { s.sys with linksDown := NSet.ins k s.sys.linksDown } }
        let v := if k ≥ 14 then u.updChan (k - 14) fun c => { c with route := u.chanRoute (k - 14) } else u
        let near := (s.rings.filter fun r => r.2.st != 0 && r.2.unitType != 0 && (let d := Config.dieOf r.2.unitType r.2.unitInst
          let e := (linkEnds[k]?).getD (8, 8)
          d == e.1 || d == e.2)).map fun r => r.2.ctx
        let t := raiseUnit { code := 8, status := 0x1FF, flags := 0, ty := Config.tLink, inst := k, ctx := 255, ring := 0xFFFF, index := 0, addr := 0
                             space := 0 } near v
        exec (.spineLinkDown k) s = .next (if t.isolated then fatalError 0x10 t else t))

/-! ### Records and time -/

/-- A command that answered PENDING tells its end in one record, CTX_RESET and CTX_DESTROY to context 0, and the context is then rid of it (R78,
R79); a merge interval of error records
ends with the record of its last occurrence (R575). -/
def Obligations.FinalRecords : Prop :=
  (∀ (c h st d : Nat) (r : Bytes) (o : PendingOp) (s : State), (s.ops.find? fun o => o.ctx == c && o.handle == h) = some o →
    finishOp c h st d r s = deliverEvent (if o.opcode = 0x0201 ∨ o.opcode = 0x0206 then 0 else c) (eventRecord o.opcode st o.tag 0 0 h s.now (opResult st d r) o.seq)
      { s with ops := s.ops.filter fun o => !(o.ctx == c && o.handle == h) }
    ∧ ((finishOp c h st d r s).ops.find? fun o => o.ctx == c && o.handle == h) = none)
  ∧ (∀ (c h : Nat) (o : PendingOp) (s : State), (s.ops.find? fun o => o.ctx == c && o.handle == h) = some o → s.running = true → s.isFatal = false →
    (s.ctx c).st ≠ 2 →
    (o.opcode = 0x0304 → exec (.commandEventRecord c h) s = .next (memCopyFinish o s))
    ∧ ∀ k, lateCommand o.opcode o.payload = true → specOf o.opcode = some k →
      exec (.commandEventRecord c h) s = .next (match k.run { mb := o.mailbox, ctx := c, tag := o.tag, seq := o.seq, opcode := o.opcode
                                                              defer := false, handle := h } o.payload s with
        | .ok r t => finishOp c h 0 0 r t
        | .fail st d => finishOp c h st d [] s
        | .failWith st d t => finishOp c h st d [] t
        | .pend _ => s
        | .hold _ => s))
  ∧ (∀ (c : Nat) (s : State), (s.log.slots.filter fun x => x.ctx == c) ≠ [] →
    let left := s.log.slots.filterMap fun x =>
      if x.ctx ≠ c then some x else if x.count = 0 then none else some { x with count := 0, bytes := [] }
    let t := { s with now := s.now + Config.ms, log := { s.log with slots := left } }
    exec (.errorRecordInterval c) s = .next
      ((s.log.slots.filter fun x => x.ctx == c && x.count != 0).foldl (fun s x => deliverEvent c x.bytes s) t))

/-- A record delivered to an event ring, which is no ring of kind 1, with room (R79, R334): its 64 bytes stand in the slot at TAIL with the LOST count filled in, TAIL has moved on,
and no other ring and no other byte of device memory has changed. -/
def Obligations.EventDelivery : Prop :=
  ∀ (c j : Nat) (rec : Bytes) (s : State), (s.ctx c).eventRing = some j → (s.ring j).full = false → (s.ctx c).held = [] → (s.ring j).st ≠ 0 →
    (s.ring j).kind ≠ 1 → rec.length = 64 → s.mem.wf = true → (s.ring j).space = 0 →
    let t := deliverEvent c rec s
    let a := (s.ring j).slotAddr (s.ring j).tail
    t.hbmRead a 64 = withLost rec (s.ctx c).lost ∧ (t.ring j).tail = (s.ring j).nextIx (s.ring j).tail ∧ (t.ring j).head = (s.ring j).head
      ∧ (∀ k, k ≠ j → t.ring k = s.ring k) ∧ (∀ x, x < a ∨ a + 64 ≤ x → Mem.get t.mem.hbm x = Mem.get s.mem.hbm x)
      ∧ t.mem.sram = s.mem.sram ∧ t.mem.host = s.mem.host ∧ t.mbs = s.mbs ∧ t.jobs = s.jobs ∧ t.cores = s.cores

/-! ### Teacher and Student Engines -/

/-- TE_LUT_PASS, TE_DIRECT_PASS, TE_PANE_PASS and TE_THIN_PASS (R103, R113, R133, R138–R141, R146, R147, R152, R154): a pass at the head of a ring
that may run, whose fields, ranges, chain and words are in order, runs; its rows wait for the drain. A pane entry with a format that its mode does
not accept stops the ring; a failed check, a broken chain, an uncorrectable error and poison end the task with the REASON of each. What a pass reads
of a half that a fill is writing is old or new word by word, by free values (the model's choice, log 8). -/
def Obligations.TeacherPasses : Prop :=
  (∀ x ∈ [(Instr.teLutPass, 0x10, lutPlan), (Instr.teDirectPass, 0x11, directPlan), (Instr.tePanePass, 0x12, fun k d _ s => panePlan k d s),
      (Instr.teThinPass, 0x13, thinPlan)], ∀ (j ix : Nat) (d : Bytes) (s : State),
    let k := (s.ring j).unitInst
    let u := fillMix k s
    let pl := x.2.2 k d (u.heldAcc k) u
    let start := if x.2.1 = 0x12 then 0 else tStart d
    let hold := x.2.1 != 0x12 && tHold d
    s.headOf j x.2.1 = some (ix, d) → (s.ring j).unitType = Config.tTeacher →
    s.mayRun j 1 (s.setting Config.tTeacher k 2 0 == 1) (s.stageReady k) = true → s.stageReady k d = true →
    (s.core k).drain = none → (s.core k).clearing = false →
    (s.paneFmtBad Config.tTeacher k d = true → exec (x.1 j) s = .next (refuse j ix d 0x108 s))
    ∧ (s.paneFmtBad Config.tTeacher k d = false →
      (teCheck k (u.ring j).ctx (u.ring j).inTask d u pl = none → chainBreaks (u.core k).chain j d start hold (teChain x.2.1) = false →
        exec (x.1 j) s = .next (match u.firstMarked k (pl.staged ++ pl.reads) with
          | none => runPass j ix k d pl hold u
          | some m => if u.sramUeAt k m.1 m.2 then coreAbort j ix d 0x113 2 0 (some 1) m.1 u else coreAbort j ix d 0x113 3 1 (some 3) m.1 u))
      ∧ (∀ st reason, teCheck k (u.ring j).ctx (u.ring j).inTask d u pl = some (st, reason) →
        exec (x.1 j) s = .next (failCheck j ix d st (reasonDetail Config.tTeacher d reason) false
          (if st = 0x111 then setErr Config.tTeacher k 4 j ix reason u else u)))
      ∧ (teCheck k (u.ring j).ctx (u.ring j).inTask d u pl = none → chainBreaks (u.core k).chain j d start hold (teChain x.2.1) = true →
        exec (x.1 j) s = .next (coreAbort j ix d 0x113 4 3 none 0 u))))
  ∧ (∀ (as vs : List Nat) (g : Nat), (∀ a ∈ as, a % 2 ^ 31 = 0) → lutGroup g as vs = g)
  ∧ (∀ (j ix k : Nat) (d : Bytes) (p : Pass) (acc : List (List (List Nat))) (pl : Plan) (s : State), pl.parts = [(p, acc)] → s.wf = true →
    (let t := runPass j ix k d pl true s
     (t.core k).chain = some { ring := j, desc := d, acc } ∧ (t.core k).drain = (s.core k).drain ∧ t.mem = s.mem)
    ∧ (let t := runPass j ix k d pl false s
       (t.core k).chain = none ∧ (t.core k).drain.map (·.writes) = some (p.drainRows acc) ∧ t.mem = s.mem))

/-- SE_MATMUL, SE_PANE_PASS and SE_KD_LOSS (R185, R187, R188, R191, R199, R200, R206), the vector tasks of both engines (R144, R192, R205), and the drain of a
pass (R133): its rows stand in core SRAM, its count of non-finite values in the unit's counter, its descriptor has ended. -/
def Obligations.StudentPassesAndDrains : Prop :=
  (∀ x ∈ [(Instr.seMatmul, 0x10, sePlan), (Instr.sePanePass, 0x12, fun k d _ s => sePanePlan k d s)], ∀ (j ix : Nat) (d : Bytes) (s : State),
    let i := (s.ring j).unitInst
    let k := 32 + i
    let pl := x.2.2 k d (s.heldAcc k) s
    let hold := x.2.1 != 0x12 && tHold d
    s.headOf j x.2.1 = some (ix, d) → (s.ring j).unitType = Config.tStudent →
    s.mayRun j 1 (s.setting Config.tStudent i 1 0 == 1) (fun _ => true) = true → (s.core k).drain = none → (s.core k).clearing = false →
    (s.paneFmtBad Config.tStudent k d = true → exec (x.1 j) s = .next (refuse j ix d 0x108 s))
    ∧ (s.paneFmtBad Config.tStudent k d = false →
      (seCheck k d s pl = none → chainBreaks (s.core k).chain j d (if x.2.1 = 0x12 then 0 else tStart d) hold seChain = false →
        exec (x.1 j) s = .next (match s.firstMarked k pl.reads with
          | none => runPass j ix k d pl hold s
          | some m => if s.sramUeAt k m.1 m.2 then coreAbort j ix d 0x113 2 0 (some 1) m.1 s else coreAbort j ix d 0x113 3 1 (some 3) m.1 s))
      ∧ (seCheck k d s pl = none → chainBreaks (s.core k).chain j d (if x.2.1 = 0x12 then 0 else tStart d) hold seChain = true →
        exec (x.1 j) s = .next (coreAbort j ix d 0x113 4 3 none 0 s))
      ∧ (∀ st, seCheck k d s pl = some st → exec (x.1 j) s = .next (failArg j ix d st s))))
  ∧ (∀ (j ix : Nat) (d : Bytes) (s : State),
    let i := (s.ring j).unitInst
    let k := 32 + i
    s.headOf j 0x21 = some (ix, d) → (s.ring j).unitType = Config.tStudent →
    s.mayRun j 2 (s.setting Config.tStudent i 1 0 == 1) (fun _ => true) = true → (s.core k).vec = none → (s.core k).kd = none →
    (s.core k).clearing = false → kdCheck k d s = none → s.chainHeld k j = false → s.firstMarked k (kdLabels d) = none →
    exec (.seKdLoss j) s = .next (kdRun k (kdRows d + 1) ((served j (begin j ix d s)).updCore k fun c => { c with
      kd := some { ring := j, row := 0, nonfin := 0, floored := 0, lb := 0 } })))
  ∧ (∀ (core key n : Nat) (s : State) (v : KdState) (c : Cur), (s.core core).kd = some v → (s.ring v.ring).cur = some c → v.row < kdRows c.desc →
    s.portRing (core - 32) (kdPort c.desc) = some key → (s.pring (key / 16) (key % 16)).avail ≠ 0 →
    kdRun core (n + 1) s = kdRun core n (kdStep core key c.desc v s))
  ∧ (∀ x ∈ [(Instr.teVector, Config.tTeacher, 2, 0), (Instr.seVector, Config.tStudent, 1, 32)], ∀ (j ix : Nat) (d : Bytes) (s : State),
    let i := (s.ring j).unitInst
    let k := x.2.2.2 + i
    s.headOf j 0x20 = some (ix, d) → (s.ring j).unitType = x.2.1 →
    s.mayRun j 2 (s.setting x.2.1 i x.2.2.1 0 == 1) (fun _ => true) = true → (s.core k).vec = none → (s.core k).kd = none →
    (s.core k).clearing = false → field d 11 2 ≠ 0 → sramReadable k (64 * field d 8 3) (8 * field d 11 2) = true → s.chainHeld k j = false →
    exec (x.1 j) s = .next (vecSettle k ((served j (begin j ix d s)).updCore k fun c => { c with
      vec := some (vecStart j ix i d (64 * field d 8 3)) })))
  ∧ (∀ (j k : Nat) (c : Cur) (dr : Drain) (s : State),
    let r := s.ring j
    let ty := r.unitType
    let te := ty = Config.tTeacher
    let w := dr.writes.foldl (fun a w => sramWrite k w.1 w.2 a) (s.updCore k fun x => { x with drain := none })
    let u := bump ty r.unitInst (if te then 8 else 5) dr.nonfin (dr.counts.foldl (fun a c => bump ty r.unitInst c.1 c.2 a) w)
    let lb := (dr.writes.map fun w => w.2.length).sum
    unitCore ty r.unitInst = some k → r.cur = some c → (s.core k).drain = some dr → dr.ring = j → c.phase = 0 → s.isFatal = false →
    (dr.nonfin = 0 → exec (.arrayPassDrainComplete j) s = .next (finish j 0 lb (coreDetail 0 (modeByte ty c.desc) 0 0 dr.cycles dr.gated) u))
    ∧ (dr.nonfin ≠ 0 →
      let e := setErr ty r.unitInst 2 j c.index 1 u
      let stop := e.setting ty r.unitInst (if te then 3 else 2) 0 = 1
      exec (.arrayPassDrainComplete j) s = .next (finish j (if stop then 0x113 else 0) lb
        (coreDetail (if stop then 1 else 0) (modeByte ty c.desc) 0 dr.nonfin dr.cycles dr.gated) e)))

/-! ### Vector programs -/

/-- The 48 instructions of a vector program (R192, R194–R197), each at PC of a program that runs: what it writes, where PC goes, and that no other
register, mask, VL or port changes; a student core counts the lanes of an SFU instruction (R210), and ends a task at its issue limit (R198, R208).
TWAIT_WAKE: a stalled TWAIT gets the address of the record at the head of its port and goes on, as the KD loss that waits there does; without a
record it waits; a port that has lost its ring ends the task. -/
def Obligations.VectorInstructions : Prop :=
  (∀ (core : Nat) (f : VecFields) (s : State) (v : VecState), (s.core core).vec = some v → v.wait = none → s.isFatal = false → v.wf = true →
    s.sramBad core (v.prog + 8 * v.pc) 8 = false →
    let at_ (op : Nat) : Prop := vecDecode (vecWord core v s) = (op, f) ∧ wordIllegal (decide (core < 32)) op f = false
    let v1 : VecState := { v with issued := v.issued + 1 }
    let s1 := s.updCore core fun c => { c with vec := some v1 }
    let goes (w : VecState) (jump : Int) (t : State) : State := vecNext core { w with pc := v.pc } jump t
    let same (w : VecState) : Prop := w.vl = v.vl ∧ w.lb = v.lb ∧ w.issued = v.issued + 1 ∧ w.ring = v.ring ∧ w.prog = v.prog ∧ w.len = v.len
      ∧ w.wait = none
    let e := fmtBytes (f.s3 % 16)
    (∀ x ∈ [(Instr.vuSli core f, 0x03, imm64 f), (.vuSadd core f, 0x04, v.xr f.s1 + v.xr f.s2 + imm64 f), (.vuSmul core f, 0x05, v.xr f.s1 * v.xr f.s2),
        (.vuSshr core f, 0x06, v.xr f.s1 / 2 ^ (f.imm % 64)), (.vuSlane core f, 0x0A, v.lane f.s1 (f.imm % 256)),
        (.vuVredsum core f, 0x50, v.tree f fAdd 0), (.vuVredmax core f, 0x51, v.tree f fMax 0xFF800000), (.vuVargmax core f, 0x52, v.argmax f)],
      at_ x.2.1 → ∃ w : VecState, exec x.1 s = .next (goes w 1 s1) ∧ (∀ r, w.xr r = if r = f.d ∧ r ≠ 0 then x.2.2 % 2 ^ 64 else v.xr r)
        ∧ w.v = v.v ∧ w.m = v.m ∧ same w)
    ∧ (∀ x ∈ [(Instr.vuVadd core f, 0x20, fun l => fAdd (v.lane f.s1 l) (v.lane f.s2 l)), (.vuVsub core f, 0x21, fun l => fSub (v.lane f.s1 l) (v.lane f.s2 l)),
        (.vuVmul core f, 0x22, fun l => fMul (v.lane f.s1 l) (v.lane f.s2 l)),
        (.vuVfma core f, 0x23, fun l => fFma (v.lane f.s1 l) (v.lane f.s2 l) (v.lane f.s3 l)),
        (.vuVmax core f, 0x24, fun l => fMax (v.lane f.s1 l) (v.lane f.s2 l)), (.vuVmin core f, 0x25, fun l => fMin (v.lane f.s1 l) (v.lane f.s2 l)),
        (.vuVabs core f, 0x26, fun l => fAbs (v.lane f.s1 l)), (.vuVneg core f, 0x27, fun l => fNeg (v.lane f.s1 l)),
        (.vuVadds core f, 0x28, fun l => fAdd (v.lane f.s1 l) (v.xr f.s2 % 2 ^ 32)), (.vuVmuls core f, 0x29, fun l => fMul (v.lane f.s1 l) (v.xr f.s2 % 2 ^ 32)),
        (.vuVbcast core f, 0x2A, fun _ => v.xr f.s1), (.vuVidx core f, 0x2B, fun l => l + v.xr f.s1), (.vuViadd core f, 0x2C, fun l => v.lane f.s1 l + v.lane f.s2 l),
        (.vuVand core f, 0x2D, fun l => Nat.land (v.lane f.s1 l) (v.lane f.s2 l)),
        (.vuVcvt core f, 0x2E, fun l => convert (f.imm % 16) (f.imm / 16 % 16) (v.lane f.s1 l)),
        (.vuVsel core f, 0x31, fun l => if bitOf (v.mask (f.s3 % 8)) l then v.lane f.s1 l else v.lane f.s2 l)],
      at_ x.2.1 → ∃ w : VecState, exec x.1 s = .next (goes w 1 s1)
        ∧ (∀ r l, l < 256 → w.lane r l = if r = f.d ∧ v.active f l = true then x.2.2 l % 2 ^ 32 else v.lane r l)
        ∧ w.x = v.x ∧ w.m = v.m ∧ same w)
    ∧ (∀ x ∈ [(Instr.vuVrcp core f, 0x40, fun l => sfuFn 0 (v.lane f.s1 l)), (.vuVsqrt core f, 0x41, fun l => sfuFn 1 (v.lane f.s1 l)),
        (.vuVrsqrt core f, 0x42, fun l => sfuFn 2 (v.lane f.s1 l)), (.vuVexp2 core f, 0x43, fun l => sfuFn 3 (v.lane f.s1 l)),
        (.vuVlog2 core f, 0x44, fun l => sfuFn 4 (v.lane f.s1 l)), (.vuVtanh core f, 0x45, fun l => sfuFn 5 (v.lane f.s1 l)),
        (.vuVsigm core f, 0x46, fun l => sfuFn 6 (v.lane f.s1 l))],
      at_ x.2.1 → ∃ w : VecState, exec x.1 s = .next (goes w 1 (if core < 32 then s1 else bump Config.tStudent (core - 32) 9 (v.lanes f).length s1))
        ∧ (∀ r l, l < 256 → w.lane r l = if r = f.d ∧ v.active f l = true then x.2.2 l % 2 ^ 32 else v.lane r l)
        ∧ w.x = v.x ∧ w.m = v.m ∧ same w)
    ∧ (∀ x ∈ [(Instr.vuVld core f, 0x10, fun l => v.strided f e l), (.vuVgather core f, 0x12, fun l => v.indexed f e l)],
      at_ x.2.1 → (∀ l ∈ v.lanes f, x.2.2 l % e = 0 ∧ vecReadable core (x.2.2 l) e = true ∧ s1.vecSealedAt core (x.2.2 l) e (s1.vecCtx v) = false
        ∧ s1.sramBad core (x.2.2 l) e = false) →
      ∃ w : VecState, exec x.1 s = .next (goes w 1 s1) ∧ (∀ r l, l < 256 → w.lane r l =
          if r = f.d ∧ v.active f l = true then widen (f.s3 % 16) (leNat (s.sramRead core (x.2.2 l) e)) % 2 ^ 32 else v.lane r l)
        ∧ w.x = v.x ∧ w.m = v.m ∧ same w)
    ∧ (∀ x ∈ [(Instr.vuVst core f, 0x11, fun l => v.strided f e l), (.vuVscatter core f, 0x13, fun l => v.indexed f e l)],
      at_ x.2.1 → (∀ l ∈ v.lanes f, x.2.2 l % e = 0 ∧ s1.vecWritable core (x.2.2 l) e = true) →
      exec x.1 s = .next (goes { v1 with lb := v.lb + e * (v.lanes f).length } 1
        (sramStore core ((v.lanes f).map fun l => (x.2.2 l, leBytes e (narrow (f.s3 % 16) (v.lane f.d l)))) s1)))
    ∧ (at_ 0x14 → v.addr f % 8 = 0 → vecReadable core (v.addr f) 8 = true → s1.vecSealedAt core (v.addr f) 8 (s1.vecCtx v) = false →
      s1.sramBad core (v.addr f) 8 = false →
      exec (.vuSld core f) s = .next (goes (v1.setX f.d (leNat (s1.sramRead core (v.addr f) 8))) 1 s1))
    ∧ (at_ 0x15 → v.addr f % 8 = 0 → s1.vecWritable core (v.addr f) 8 = true →
      exec (.vuSst core f) s = .next (goes { v1 with lb := v.lb + 8 } 1 (sramStore core [(v.addr f, leBytes 8 (v.xr f.s2))] s1)))
    ∧ (at_ 0x00 → exec (.vuNop core f) s = .next (goes v1 1 s1))
    ∧ (at_ 0x01 → exec (.vuHalt core f) s = .next (vecEnd core 0 0 none none 0 s1))
    ∧ (let n := if f.imm = 0 then v.xr f.s1 else imm64 f
       at_ 0x02 → exec (.vuSetvl core f) s = .next (if 1 ≤ n ∧ n ≤ 256 then goes { v1 with vl := n } 1 s1 else vecIllegal core s1))
    ∧ (∀ x ∈ [(Instr.vuBlt core f, 0x07, decide (sext 64 (v.xr f.s1) < sext 64 (v.xr f.s2))), (.vuBne core f, 0x08, v.xr f.s1 != v.xr f.s2),
        (.vuJmp core f, 0x09, true)],
      at_ x.2.1 → exec x.1 s = .next (if x.2.2 = false then goes v1 1 s1
        else if 0 ≤ (v.pc : Int) + immInt f ∧ (v.pc : Int) + immInt f < v.len then goes v1 (immInt f) s1 else vecIllegal core s1))
    ∧ (∀ x ∈ [(Instr.vuVcmp core f, 0x30, f.d % 8, fun l => decide (l < 256) && v.active f l && cmpBy f.imm (v.lane f.s1 l) (v.lane f.s2 l)),
        (.vuMand core f, 0x32, f.d, fun l => bitOf (v.mask f.s1) l && bitOf (v.mask f.s2) l),
        (.vuMnot core f, 0x33, f.d, fun l => decide (l < 256) && !bitOf (v.mask f.s1) l)],
      at_ x.2.1 → (∀ n, v.mask n < 2 ^ 256) → ∃ w : VecState, exec x.1 s = .next (goes w 1 s1)
        ∧ (∀ r l, r < 8 → bitOf (w.mask r) l = if r = x.2.2.1 then x.2.2.2 l else bitOf (v.mask r) l)
        ∧ w.x = v.x ∧ w.v = v.v ∧ same w)
    ∧ (let port := f.imm % 4
       let held (key : Nat) := (s1.pring (key / 16) (key % 16)).avail
       (at_ 0x60 → exec (.vuTwait core f) s = .next (match s1.portRing (core - 32) port with
         | none => vecTarget core s1
         | some key => if held key = 0 then s1.updCore core fun c => { c with vec := some { v1 with wait := some (port, f.d) } }
           else let r := twaitTake core port key f.d v1 s1
             goes r.1 1 r.2))
       ∧ (at_ 0x61 → exec (.vuTpop core f) s = .next (match s1.portRing (core - 32) port with
         | none => vecTarget core s1
         | some key => if held key = 0 then vecTarget core s1 else goes v1 1 (popPort (core - 32) port key s1)))
       ∧ (at_ 0x62 → exec (.vuTcount core f) s = .next (goes (v1.setX f.d (match s1.portRing (core - 32) port with
         | none => 0
         | some key => held key)) 1 s1))))
  ∧ (∀ (core port d : Nat) (s : State) (v : VecState), s.isFatal = false → (s.core core).vec = some v → v.wait = some (port, d) →
    (∀ key, s.portRing (core - 32) port = some key → (s.pring (key / 16) (key % 16)).avail ≠ 0 →
      let p := s.pring (key / 16) (key % 16)
      exec (.twaitWake core) s = .next (vecNext core (VecState.setX { v with wait := none } d (p.base + (p.head % p.slots) * p.slotBytes)) 1
        (spent Config.tStudent (core - 32) [10] (setTaken (core - 32) port true s))))
    ∧ (∀ key, s.portRing (core - 32) port = some key → (s.pring (key / 16) (key % 16)).avail = 0 → exec (.twaitWake core) s = .next s)
    ∧ (s.portRing (core - 32) port = none → exec (.twaitWake core) s = .next (vecTarget core s)))
  ∧ (∀ (core : Nat) (s : State) (v : KdState) (c : Cur), s.isFatal = false → (s.core core).vec = none → (s.core core).kd = some v →
    (s.ring v.ring).cur = some c →
    exec (.twaitWake core) s = .next (kdRun core (kdRows c.desc + 1) (spent Config.tStudent (core - 32) [10] s)))
  ∧ (∀ (core : Nat) (v : VecState) (jump : Int) (s : State),
    let limit := s.setting Config.tStudent (core - 32) 3 4096
    (core < 32 ∨ limit = 0 ∨ v.issued < limit * 2 ^ 20 → vecNext core v jump s = vecSettle core (s.updCore core fun c => { c with
      vec := some { v with pc := (v.pc + jump).toNat } }))
    ∧ (32 ≤ core → limit ≠ 0 → limit * 2 ^ 20 ≤ v.issued → vecNext core v jump s =
      vecEnd core 0x113 10 (some 7) none 0 (s.updCore core fun c => { c with vec := some v })))

/-! ### Scaler and Lens -/

/-- SCL_QUANT and SCL_AMAX (R216, R219, R223, R226–R228, R230): tasks that may run on checked operands run, or end at a marked word, which a
task whose slot was read ends with that slot's σ; amax is the largest finite magnitude; a code is the smallest exponent that brings it within
FMAX; a slot's history takes one amax at its position. -/
def Obligations.ScalerTasks : Prop :=
  (∀ x ∈ [(Instr.sclQuant, 0x10, quantRun), (Instr.sclAmax, 0x11, amaxRun)], ∀ (j ix : Nat) (d : Bytes) (s : State),
    let k := (s.ring j).unitInst
    let b := s.sramRead k (qSlotAt d) 128
    s.headOf j x.2.1 = some (ix, d) → (s.ring j).unitType = Config.tScaler →
    s.mayRun j 1 (s.setting Config.tScaler k 2 0 == 1) (fun _ => true) = true →
    (qCheck k d s = none → s.firstMarked k (qSlotRuns d) = none →
      ((qNoSlot d = true ∨ slotOk b = true) → s.firstMarked k [qInRun d] = none → exec (x.1 j) s = .next (x.2.2 j ix k d b s))
      ∧ (qNoSlot d = false → slotOk b = false → exec (x.1 j) s = .next
        (failCheck j ix d 0x108 (leBytes 1 9 ++ zeros 23) false (setErr Config.tScaler k 3 j ix 9 s))))
    ∧ (∀ st, qCheck k d s = some st → exec (x.1 j) s = .next (failArg j ix d st s))
    ∧ (∀ m, qCheck k d s = none → s.firstMarked k (qSlotRuns d) = some m → exec (x.1 j) s = .next (sclMarked j ix d m 0 s))
    ∧ (∀ m, qCheck k d s = none → s.firstMarked k (qSlotRuns d) = none → (qNoSlot d = true ∨ slotOk b = true) →
      s.firstMarked k [qInRun d] = some m →
      exec (x.1 j) s = .next (sclMarked j ix d m (if qNoSlot d then 0 else byteOf (slotParse b).sigma) s)))
  ∧ (∀ xs : List Nat, (∀ x ∈ xs, fNonFinite x = false → x % 2 ^ 31 ≤ amaxOf xs)
    ∧ (amaxOf xs = 0 ∨ ∃ x ∈ xs, fNonFinite x = false ∧ x % 2 ^ 31 = amaxOf xs))
  ∧ (∀ fmt a : Nat, (fmt = 3 ∨ fmt = 4) → 0 < a → a < 0x7F800000 → ∃ (m : Nat) (e : Int), ofF32 a = .fin false m e
    ∧ (m : Rat) * 2 ^ e ≤ (if fmt = 3 then 448 else 57344) * 2 ^ needExp fmt a
    ∧ (if fmt = 3 then 448 else 57344) * 2 ^ (needExp fmt a - 1) < (m : Rat) * 2 ^ e)
  ∧ (∀ (fmt a : Nat) (sl : Slot), sl.hist.length = 16 → sl.pos < 16 →
    (slotPush fmt a sl).pos = (sl.pos + 1) % 16 ∧ nth (slotPush fmt a sl).hist sl.pos 0 = a
    ∧ (∀ i, i ≠ sl.pos → nth (slotPush fmt a sl).hist i 0 = nth sl.hist i 0)
    ∧ (sl.len = 1 → (slotPush fmt a sl).sigma = if a = 0 then sl.sigma else clampInt (-126) 127 (needExp fmt a + sl.margin)))

/-- LENS_TOPK, LENS_COMPACT and LENS_SORT (R248, R250, R253–R257): a task that may start on checked operands suspends those of higher classes, is
taken up and runs its rows to its `n`-th yield point; a task of class 2 that was suspended goes on by LENS_TASK_RESUME while no task of a lower class
waits or is at work; each row's block stands at its stride (R246), or is held for the Prism, and a sort leaves its scratch undefined. -/
def Obligations.LensTasks : Prop :=
  (∀ x ∈ [(Instr.lensTopk, 0x10), (Instr.lensCompact, 0x11), (Instr.lensSort, 0x12)], ∀ (j n ix : Nat) (d : Bytes) (s : State),
    let r := s.ring j
    let t := lensServed j (lensClass d) (begin j ix d (lensSuspend r.unitInst (lensClass d) s))
    let u := t.setLensTask j ((t.lensTask j).start (t.lensK r.unitInst d) d)
    s.headOf j x.2 = some (ix, d) → r.unitType = Config.tLens → s.lensMay j (lensClass d) = true →
    (∀ st, lensCheck r.unitInst r.ctx d s = some st → exec (x.1 j n) s = .next (failArg j ix d st s))
    ∧ (lensCheck r.unitInst r.ctx d s = none → lSeg d = true → u.hbmBad (lSrc d) (16 * field d 12 2) = true →
      exec (x.1 j n) s = .next (lensMarked j { space := 0, core := 0, addr := lSrc d, len := 16 * field d 12 2 } u))
    ∧ (lensCheck r.unitInst r.ctx d s = none → (lSeg d = true → u.hbmBad (lSrc d) (16 * field d 12 2) = false) →
      exec (x.1 j n) s = .next (lensRun j (max n 1) u)))
  ∧ (∀ (j n : Nat) (s : State), (s.ring j).unitType = Config.tLens → s.isFatal = false → s.lensBusy j (s.ring j) 2 = true →
    (∀ x ∈ s.unitRings Config.tLens (s.ring j).unitInst, x.1 = j ∨ (s.lensBusy x.1 x.2 1 = false ∧ s.lensOffers x.2 1 = false)) →
    exec (.lensTaskResume j n) s = .next (lensRun j (max n 1) (s.setLensTask j { s.lensTask j with susp := false })))
  ∧ (∀ (j : Nat) (c : Cur) (s : State), let lens := (s.ring j).unitInst
    let d := c.desc
    let segs := (s.lensSegs d).map (LSeg.rowAt d c.rows)
    let u := segs.foldl (fun s g => if g.space = 0 then hbmTaken g.addr g.len s else s) s
    let w := lensRow (u.lensK lens d) d (segs.flatMap fun g => elems (fmtBytes (lFmt d)) (g.len / fmtBytes (lFmt d)) (u.lensRead lens g))
    let v := lensWrite lens (lDstSpace d) (field d 14 2) (lDst d + c.rows * lDstStride d) w.block u
    let f := freshBytes (8 * lN d) v
    (s.ring j).cur = some c → segs.find? (s.lensBad lens) = none →
    (dOp d ≠ 0x12 → lensStep j s = if lPrism d then u.setLensTask j { u.lensTask j with held := some w.block }
      else lensRowDone j w w.block.length v)
    ∧ (dOp d = 0x12 → ((lScratch d).space ≠ 0 ∨ u.hbmBad (lScratch d).addr (8 * w.valid) = false) → lPrism d = false →
      lensStep j s = lensRowDone j w w.block.length (lensWrite lens (field d 18 1) (field d 16 2) (field d 48 8) f.1 f.2)))

/-- The rank order of a Lens (R238): by key, ties by lowest index; what is ordered is a permutation of the valid elements in which each ranks before all
later ones. Top-k returns its first k (R241): fewer valid elements are padded and PADDED set, none is held twice, EQ_SPLIT tells that the key of the k-th
was left out. Sort returns all of it; compaction (R244) what meets the threshold, by index; a block has a header of 32 bytes and 8 for each entry (R246). -/
def Obligations.LensSelects : Prop :=
  (∀ (up : Bool) (a b : LEl), ranksBefore up a b = true ↔ (if up then a.key < b.key else b.key < a.key) ∨ (a.key = b.key ∧ a.ix < b.ix))
  ∧ (lensKey 0 0x80000000 = lensKey 0 0 ∧ lensKey 1 0x8000 = lensKey 1 0 ∧ lensKey 2 0x8000 = lensKey 2 0)
  ∧ (∀ (up : Bool) (l : List LEl), (l.map (·.ix)).Nodup → (rankOrder up l).Perm l ∧ (rankOrder up l).Pairwise fun a b => ranksBefore up a b = true)
  ∧ (∀ (fmt : Nat) (xs : List Nat), ((lensValid fmt xs).map (·.ix)).Nodup
    ∧ ∀ x, x ∈ lensValid fmt xs ↔ xs[x.ix]? = some x.b ∧ lensKey fmt x.b = some x.key)
  ∧ padEntry = (0xFFFFFFFF, 0xFF800000)
  ∧ (∀ (fmt k : Nat) (up : Bool) (prob : Option Nat) (xs : List Nat), let r := lensTopk fmt up prob k xs
    let vs := lensValid fmt xs
    r.nan = xs.length - vs.length ∧ r.valid = min k vs.length ∧ r.ents.length = k
    ∧ (r.ents.take r.valid).map (·.1) = ((rankOrder up vs).take k).map (·.ix) ∧ (∀ e ∈ r.ents.drop r.valid, e = padEntry)
    ∧ ((r.ents.take r.valid).map (·.1)).Nodup ∧ bitOf r.flags 0 = decide (vs.length < k)
    ∧ (bitOf r.flags 1 = true ↔ k ≤ vs.length ∧ ∃ a b, ((rankOrder up vs).take k).getLast? = some a ∧ b ∈ (rankOrder up vs).drop k ∧ b.key = a.key))
  ∧ (∀ (fmt t cap : Nat) (below incl : Bool) (prob : Option Nat) (xs : List Nat) (k : Nat), lensKey fmt t = some k →
    let r := lensCompact fmt below incl prob t cap xs
    let hit (x : LEl) : Bool := (if below then decide (x.key < k) else decide (x.key > k)) || (incl && x.key == k)
    r.selected = ((lensValid fmt xs).filter hit).length ∧ r.valid = min cap r.selected
    ∧ r.ents.map (·.1) = (((lensValid fmt xs).filter hit).take cap).map (·.ix))
  ∧ (∀ (fmt : Nat) (up : Bool) (xs : List Nat), let vs := lensValid fmt xs
    (lensSort fmt up xs).ents.length = xs.length
    ∧ ((lensSort fmt up xs).ents.take vs.length).map (·.1) = (rankOrder up vs).map (·.ix)
    ∧ ∀ e ∈ (lensSort fmt up xs).ents.drop vs.length, e = padEntry)
  ∧ ∀ r : LRow, r.block.length = 32 + 8 * r.ents.length

/-! ### Prism -/

/-- PRISM_ROWS, PRISM_TAP, PRISM_BLOCK_OPEN and PRISM_BLOCK_END at the head of a ring that may run, on checked operands (R275, R280, R291–R293), or
failing a check, with the channel ring named (R297); an open on another device is asked for there (R278, R288). BLOCK_GRANT (R274, R278),
PRISM_ROW_ACCEPT (R268), PRISM_RING_RESET (R295). Landings and credits (R273, R276, R277, R289): the oldest record of the stream that deficit round robin
picks lands, or leaves for the device that holds its ring; a record of a STREAM ring lands in the slot at its tail and is present there, one of a BLOCK
ring at its position; a credit is neither lost nor made by the messages that carry it back. -/
def Obligations.PrismCommands : Prop :=
  ((∀ (j ix ch : Nat) (d : Bytes) (s : State),
     (s.prismHead j 0x10 = some (ix, d, ch) →
       (rowsCheck ch d s = none → s.hbmBad (field d 16 8) (16 * field d 10 2) = false →
         exec (.prismRows j) s = .next (rowsGo j (field d 10 2 + 2) (hbmTaken (field d 16 8) (16 * field d 10 2) (served j (begin j ix d s)))))
       ∧ (∀ n, rowsCheck ch d s = some (0x111, n) → exec (.prismRows j) s = .next
           (failCheck j ix d 0x111 (reasonDetail Config.tPrism d 1) false (setErr Config.tPrism (s.ring j).unitInst 0 (j + 4096 * n) ix 1 s)))
       ∧ (∀ st n, rowsCheck ch d s = some (st, n) → st ≠ 0x111 → exec (.prismRows j) s = .next
           (failArg j ix d st (setErr Config.tPrism (s.ring j).unitInst 6 (j + 4096 * n) ix 5 s))))
     ∧ (s.prismHead j 0x11 = some (ix, d, ch) → tapCheck ch d s = none → s.hbmBad (field d 24 8) (16 * field d 12 2) = false →
         s.firstMarked (field d 10 2) ((List.range (field d 12 2)).map (tapRow d (s.pring ch (field d 8 1)))) = none →
         exec (.prismTap j) s = .next (tapGo j (field d 12 2 + 1) (served j (begin j ix d s))))
     ∧ (s.prismHead j 0x12 = some (ix, d, ch) → let n := field d 9 1
         let p := s.pring ch n
         let o : BlkOpen := { ring := n, seq := field d 16 8, first := field d 24 4, len := field d 28 4, by_ := j + 1 }
         let u := (served j (begin j ix d s)).updChan ch fun x => { x with opens := x.opens ++ [o] }
         s.pringLive ch n = true →
         (field d 8 1 = 0 → p.order = 1 → p.kind ≠ 2 → field d 28 4 ≠ 0 → field d 28 4 ≤ p.maxLen → p.blockOf (field d 16 8) = none →
           (∀ o ∈ (s.chan ch).opens, o.ring ≠ n ∨ o.seq ≠ field d 16 8) →
           exec (.prismBlockOpen j) s = .next (if (u.pring ch n).sHere u then u
             else prismSend ch n 3 0 (leBytes 8 o.seq ++ leBytes 4 o.first ++ leBytes 4 o.len) u))
         ∧ (field d 8 1 = 1 → (p.blockOf (field d 16 8)).isSome = true →
           let v := endBlock ch n (field d 16 8) (served j (begin j ix d s))
           exec (.prismBlockEnd j) s = .next (if p.sHere s then prismEnd j 0 0 0 0 0 v else v))))
   ∧ (∀ (ch n : Nat) (o : BlkOpen) (s : State), let p := s.pring ch n
     s.isFatal = false → ((s.chan ch).opens.find? fun o => o.ring == n) = some o → p.sHere s = true → o.len ≤ p.free → p.blocks.length < 256 →
     exec (.blockGrant ch n) s = .next (openDone ch o p.tail ((s.setPring ch n { p with
       free := p.free - o.len, tail := (p.tail + o.len) % (2 * p.slots)
       blocks := p.blocks ++ [{ seq := o.seq, first := o.first, len := o.len, start := p.tail }] }).updChan ch fun x => { x with opens := x.opens.erase o })))
   ∧ (∀ (ch n : Nat) (o : BlkOpen) (s : State), ((s.chan ch).opens.find? fun o => o.ring == n) = some o →
     ((s.pring ch n).free < o.len ∨ 256 ≤ (s.pring ch n).blocks.length) → exec (.blockGrant ch n) s = .next s)
   ∧ (∀ (lens j : Nat) (d row : Bytes) (l : TagList) (c : Cur) (s : State), s.heldRow lens = some (j, d, row) → let ch := field d 14 2
     s.nextList ch lens = some l → let tag := s.tagAt l.addr l.next
     let p := s.pring ch tag.ring
     s.isFatal = false → s.wf = true → (s.unit Config.tPrism ch).hold = false → s.pringLive ch tag.ring = true → (p.order = 0 → p.reserved ≠ 0) → s.mapPoison p row = none →
     (s.ring j).cur = some c → c.rows + 1 = lRows d → (∀ a ∈ s.srv.asks, a.2.2 ≠ lens) →
     ∃ t, exec (.prismRowAccept lens) s = .next t ∧ t.mem = s.mem ∧ t.mbs = s.mbs ∧ t.jobs = s.jobs ∧ (∀ k, k ≠ ch → t.chan k = s.chan k)
       ∧ (t.chan ch).flight = (s.chan ch).flight ++ [{ ring := tag.ring, seq := tag.seq, pos := tag.pos, bytes := (formRecord s ch p tag l.temp row).1 }]
       ∧ (p.order = 0 → (t.pring ch tag.ring) = { p with reserved := p.reserved - 1 })
       ∧ (t.ring j).cur.map (fun c => (c.phase, c.status, c.rows)) = some (1, 0, lRows d))
   ∧ (∀ (key : Nat) (s : State), let ch := key / 16
     let p := s.pring ch (key % 16)
     p.bound = true → p.st ≠ 2 → s.isFatal = false →
     (∀ cause, (cause = 0 ∨ p.remote ≠ 0xFFFF) → ∃ t, exec (.prismRingReset key cause) s = .next t ∧ t.mbs = s.mbs ∧ t.jobs = s.jobs
       ∧ (t.pring ch (key % 16)).st = 2 ∧ (t.pring ch (key % 16)).bound = true)
     ∧ (p.remote = 0xFFFF → exec (.prismRingReset key 1) s = .next s)))
  ∧ ((∀ (ch k : Nat) (h : Flight × Nat × Nat) (turns : Drr) (s : State), let hs := s.flightHeads ch
     let p := s.pring ch h.1.ring
     let u := s.updChan ch fun x => { x with flight := x.flight.erase h.1, turns }
     s.isFatal = false → (s.chan ch).turns.pick (1 + Config.prismQuantum) (hs.map fun h => (h.2.1, h.2.2, h.1.bytes.length)) = some (k, turns) →
     hs.find? (fun h => h.2.1 == k) = some h →
     (s.pringLive ch h.1.ring = true → p.sHere s = false → exec (.prismRecordLand ch) s = .next (sendRecord ch h.1 u))
     ∧ ((s.pringLive ch h.1.ring = false ∨ p.sHere s = true) → exec (.prismRecordLand ch) s = .next (arriveRecord ch h.1 u)))
   ∧ (∀ (ch : Nat) (s : State), s.flightHeads ch ≠ [] → ((s.chan ch).turns.pick (1 + Config.prismQuantum)
     ((s.flightHeads ch).map fun h => (h.2.1, h.2.2, h.1.bytes.length))).isSome = true)
   ∧ (∀ (ch : Nat) (s : State), ∀ h ∈ s.flightHeads ch, ∃ pre post, (s.chan ch).flight = pre ++ h.1 :: post
     ∧ ∀ g ∈ pre, (s.pring ch g.ring).kind = 2 ∨ s.flightSource ch g ≠ h.2.1)
   ∧ (∀ (ch : Nat) (f : Flight) (s : State), let p := s.pring ch f.ring
     let land (i : Nat) : State := bump Config.tPrism ch 8 1
       ((sramWrite (32 + p.core) (p.slotAt i) f.bytes s).updPring ch f.ring fun p => { p with written := NSet.ins i p.written })
     (s.pringLive ch f.ring = false → arriveRecord ch f s = bump Config.tPrism ch 7 1 s)
     ∧ (s.pringLive ch f.ring = true → p.order = 0 →
       arriveRecord ch f s = (land p.tail).updPring ch f.ring fun p => { p with tail := p.next p.tail })
     ∧ (∀ b, s.pringLive ch f.ring = true → p.order ≠ 0 → p.blockOf f.seq = some b → let i := p.posIx b f.pos
       arriveRecord ch f s = if b.first ≤ f.pos ∧ f.pos < b.first + b.len ∧ p.written.contains i = false ∧ p.inUse i = true then land i
         else setErr Config.tPrism ch 1 (4096 * f.ring) 0 0 (bump Config.tPrism ch 12 1 s)))
   ∧ (∀ (key : Nat) (s : State), let p := s.pring (key / 16) (key % 16)
     s.isFatal = false → p.pend ≠ 0 → ∃ t, exec (.prismCreditFlush key) s = .next t
       ∧ t.now = max s.now (p.since + cdiv (s.prismCoalesce (key / 16)) 2) ∧ t.mem = s.mem ∧ t.cores = s.cores
       ∧ (p.bound = true → t.pring (key / 16) (key % 16) = { p with pend := 0, crd := p.crd + if p.tHere s then p.pend else 0 }))
   ∧ (∀ (key n : Nat) (s : State), let p := s.pring (key / 16) (key % 16)
     let k := if p.remote = 0xFFFF then p.crd
       else min n (p.slots - p.free - p.reserved - ((s.chan (key / 16)).flight.filter fun f => f.ring == key % 16).length)
     s.isFatal = false → p.bound = true → p.st ≠ 2 →
     (k = 0 → exec (.prismCreditReturn key n) s = .next s)
     ∧ (k ≠ 0 → exec (.prismCreditReturn key n) s = .next (prismGo (key / 16) (s.setPring (key / 16) (key % 16)
         { p with free := p.free + k, crd := if p.remote = 0xFFFF then 0 else p.crd }))))
   ∧ (∀ (key : Nat) (s : State), let p := s.pring (key / 16) (key % 16)
     p.bound = true → p.order = 0 → let q := (releaseHead key s).pring (key / 16) (key % 16)
     (p.tHere s = true → q.pend + q.crd = p.pend + p.crd + 1) ∧ q.free = p.free ∧ q.reserved = p.reserved ∧ q.head = p.next p.head
       ∧ q.written = p.written.filter (· != p.head) ∧ (s.prismCoalesce (key / 16) ≠ 0 → q.crd = p.crd)))

/-! ### Update Units -/

/-- UPD_EXCHANGE, UPD_COMMIT, COMMIT_WORD_ARRIVAL, UPD_APPLY, UPD_GATHER and UPD_MARK (R306, R308, R309, R313–R315, R317, R321): what each does on checked
operands, in a replay too, and what a failed check does; an exchange or gather waits for the other members and ends where their sizes differ or their group
is lost; in a window whose word was not OK an apply writes nothing, and a window stays open until APPLY_COUNT descriptors of its attempt have completed.
That a mismatch ends a collective with E_BEAM_GROUP and REASON LINK is the model's choice (log 57). -/
def Obligations.UpdateCommands : Prop :=
  (∀ (j ix u h : Nat) (d : Bytes) (job : Job) (others : Option (List Bytes)) (s : State), (s.ring j).cur = none →
    s.updHead j 0x10 = some (ix, d, u, h, job) →
    let t := hbmTaken (field d 28 8) (2 * field d 24 4) (noteScale u d (served j (begin j ix d s)))
    (∀ st, exchangeCheck u (s.ring j).ctx d job s = some st → exec (.updExchange j others) s = .next (windowGo (failArg j ix d st s)))
    ∧ (∀ w, exchangeCheck u (s.ring j).ctx d job s = none → s.replayOf h = some w → exec (.updExchange j others) s = .next (exchangeReplay j ix h d w s))
    ∧ (exchangeCheck u (s.ring j).ctx d job s = none → s.replayOf h = none → s.hbmBad (field d 28 8) (2 * field d 24 4) = false →
      exec (.updExchange j others) s = .next (exchangeGo j u h job others
        (scanLocal u d (elems 2 (field d 24 4) (s.hbmRead (field d 28 8) (2 * field d 24 4))) t)))
    ∧ (exchangeCheck u (s.ring j).ctx d job s = none → s.replayOf h = none → s.hbmBad (field d 28 8) (2 * field d 24 4) = true →
      exec (.updExchange j others) s = .next (updMarked j u 0 (field d 28 8, 2 * field d 24 4) (t.updUpd u fun x => { x with shardsOk := false }))))
  ∧ (∀ (j h : Nat) (c : Cur) (job : Job) (others : Option (List Bytes)) (s : State), (s.ring j).cur = some c → s.updJob = some (h, job) → c.phase = 0 →
    (s.ring j).unitType = Config.tUpdate → s.isFatal = false →
    (dOp c.desc = 0x10 → exec (.updExchange j others) s = .next (exchangeGo j (s.ring j).unitInst h job others s))
    ∧ (dOp c.desc = 0x13 → exec (.updGather j others) s = .next (gatherGo j (s.ring j).unitInst h job others s)))
  ∧ (∀ (j u h : Nat) (job : Job) (c : Cur) (l : List Bytes) (s : State), (s.ring j).cur = some c → let n := field c.desc 24 4
    let p := (s.jobMembers job).length
    (s.jobGroupSt job = 1 → p ≠ 1 →
      ((l.length = p - 1 ∧ ∀ b ∈ l, b.length = 2 * n) → exchangeGo j u h job (some l) s = exchangeEnd j u h job l s)
      ∧ (¬(l.length = p - 1 ∧ ∀ b ∈ l, b.length = 2 * n) → exchangeGo j u h job (some l) s = exchangeLost j u 0x2901 8 s)
      ∧ exchangeGo j u h job none s = s)
    ∧ (p = 1 → s.jobGroupSt job ≠ 2 → s.jobGroupSt job ≠ 3 → exchangeGo j u h job none s = exchangeEnd j u h job [] s)
    ∧ (s.jobGroupSt job = 2 → exchangeGo j u h job (some l) s = exchangeLost j u 0x113 8 s)
    ∧ (s.jobGroupSt job = 3 → exchangeGo j u h job (some l) s = exchangeLost j u 0x2901 8 s)
    ∧ ((exchangeLost j u 0x113 8 s).upd u).shardsOk = false)
  ∧ (∀ (j ix u h : Nat) (d : Bytes) (job : Job) (s : State), s.updHead j 0x11 = some (ix, d, u, h, job) →
    (updAttemptBad u d s = true → exec (.updCommit j) s = .next (windowGo (failArg j ix d 0x10C s)))
    ∧ (updAttemptBad u d s = false → let t := (served j (begin j ix d s)).updUpd u fun x => { x with commit := some j, applyCount := field d 16 2 }
      (s.replayOf h = none → t.mirror.adopted = none →
        (t.jobGroupSt job ≠ 3 → (t.jobGroupSt job = 2 → (t.protOf h).isSome = true) → exec (.updCommit j) s = .next (commitGo h job t))
        ∧ ((t.jobGroupSt job = 3 ∨ (t.jobGroupSt job = 2 ∧ t.protOf h = none)) → exec (.updCommit j) s = .next
          ((updEnd j (groupStatus (t.jobGroupSt job)) 8 1 0 0 0 t).updUpd u fun x => { x with commit := none })))
      ∧ (∀ (r : Replay) (q : Delta) (v : CommitWord), s.replayOf h = some r → r.queue.head? = some q → q.attempt % 2 ^ 32 = dAttempt d → q.word = some v →
        (t.upd 0).commit.isSome = true → (t.upd 1).commit.isSome = true → exec (.updCommit j) s = .next (takeWord h job v t))))
  ∧ (∀ (job : Nat) (j : Job) (others : List Contribution) (s : State), s.updJob = some (job, j) → (s.upd 0).sent = true → (s.upd 1).sent = true →
    s.jobGroupSt j = 1 → s.isFatal = false → exec (.commitWordArrival job others) s = .next (takeWord job j
      (formWord (s.jobMembers j) (s.contribution :: others.filter fun c => c.dev != s.sysIndex)) s))
  ∧ (∀ (j ix u h : Nat) (d : Bytes) (job : Job) (s : State), s.updHead j 0x12 = some (ix, d, u, h, job) →
    (∀ st, applyCheck u (s.ring j).ctx d job s = some st → exec (.updApply j) s = .next (windowGo (failArg j ix d st s)))
    ∧ (applyCheck u (s.ring j).ctx d job s = none →
    (s.step.cause ≠ 0 → exec (.updApply j) s = .next (updSkip j u 2 (served j (begin j ix d s)))
      ∧ (updSkip j u 2 (served j (begin j ix d s))).mem = s.mem)
    ∧ (s.step.cause = 0 → s.ckptHolds (applyRuns job d) = true → exec (.updApply j) s = .next (spent Config.tMirror 0 [6] s))
    ∧ (s.step.cause = 0 → s.ckptHolds (applyRuns job d) = false →
      let runs := (field d 48 8, 2 * field d 16 4) :: applyRuns job d
      let t := served j (begin j ix d (ckptBefore (applyRuns job d) s))
      let n := field d 16 4
      let r := applyGo (applyConst job t.step (bitOf (field d 8 1) 0) (field d 44 4)) n (field d 20 8) (field d 28 8) (field d 36 8) (field d 48 8) n 0
        (runs.foldl (fun s r => hbmTaken r.1 r.2 s) t)
      (∀ x ∈ runs, t.hbmBad x.1 x.2 = false) → r.2 = (0, 0) →
      exec (.updApply j) s = .next (updEnd j 0 0 2 0 n (n * (if job.opt = 0 then 12 else 8)) (if n = 0 then r.1 else bump Config.tUpdate u 4 n r.1)))))
  ∧ (∀ (j ix u h : Nat) (d : Bytes) (job : Job) (others : Option (List Bytes)) (s : State), (s.ring j).cur = none →
    s.updHead j 0x13 = some (ix, d, u, h, job) →
    (∀ st, updGatherCheck u (s.ring j).ctx d job s = some st → exec (.updGather j others) s = .next (windowGo (failArg j ix d st s)))
    ∧ (updGatherCheck u (s.ring j).ctx d job s = none →
      let run := (field d 24 8, 2 * field d 20 4)
      let own := ownRange (s.rankIn (s.jobMembers job)) (field d 20 4) (s.jobMembers job).length
      let mine := (run.1 + 2 * own.1, 2 * (own.2 - own.1))
      let t := served j (begin j ix d (ckptBefore [run] s))
      ((s.step.cause ≠ 0 ∨ (s.replayOf h).isSome = true) → exec (.updGather j others) s = .next (updSkip j u 3 (served j (begin j ix d s))))
      ∧ (s.step.cause = 0 → s.replayOf h = none → s.ckptHolds [run] = false → t.hbmBad mine.1 mine.2 = false →
        exec (.updGather j others) s = .next (gatherGo j u h job others (hbmTaken mine.1 mine.2 t)))))
  ∧ (∀ (j ix u h : Nat) (d : Bytes) (job : Job) (s : State), s.updHead j 0x14 = some (ix, d, u, h, job) →
    let t := served j (begin j ix d s)
    let x := (t.upd u).attempt
    (31 < field d 8 1 → exec (.updMark j) s = .next (windowGo (failArg j ix d 0x108 s)))
    ∧ (field d 8 1 ≤ 31 → ∀ a ∈ [x, x + 1], dAttempt d = a % 2 ^ 32 → job.ledgerAddr ≠ 0 →
      exec (.updMark j) s = .next (updEnd j 0 0 4 0 0 8 (markPut job a (field d 8 1) (bitOf (field d 9 1) 0) t)))
    ∧ (field d 8 1 ≤ 31 → (job.ledgerAddr = 0 ∨ (dAttempt d ≠ x % 2 ^ 32 ∧ dAttempt d ≠ (x + 1) % 2 ^ 32)) →
      exec (.updMark j) s = .next (updEnd j 0 0 4 0 0 0 (bump Config.tUpdate u 11 1 t))))
  ∧ (∀ (h : Nat) (job : Job) (s : State), s.updJob = some (h, job) → (∀ u ∈ [0, 1], (s.upd u).window = false ∨ (s.upd u).applied < (s.upd u).applyCount) →
    windowGo s = s)

/-- The commit word and what follows from it (R307, R308, R310, R312): the owned ranges of the members tile a bucket; an OK word takes the step, a veto takes
none and halves the loss scale; the same word leaves every member with the same step state. -/
def Obligations.CommitWordRules : Prop :=
  (∀ count p i : Nat, 0 < p → i < count → ∃ r, r < p ∧ (ownRange r count p).1 ≤ i ∧ i < (ownRange r count p).2
    ∧ ∀ q, q < p → (ownRange q count p).1 ≤ i → i < (ownRange q count p).2 → q = r)
  ∧ (∀ (job : Job) (w : CommitWord) (att tick : Nat) (x : StepState), let y := stepAfter job w att tick x
    (w.cause = 0 → y.step = (x.step + 1) % 2 ^ 64 ∧ y.consecVeto = 0 ∧ y.b1t = fMul x.b1t job.beta1 ∧ y.b2t = fMul x.b2t job.beta2
      ∧ (x.clean + 1 < job.growth → y.scaleExp = x.scaleExp ∧ y.clean = x.clean + 1)
      ∧ (job.growth ≤ x.clean + 1 → y.clean = 0 ∧ y.scaleExp = if x.scaleExp < 24 then x.scaleExp + 1 else x.scaleExp))
    ∧ (w.cause ≠ 0 → y.step = x.step ∧ y.b1t = x.b1t ∧ y.b2t = x.b2t)
    ∧ (bitOf w.cause 0 = true → y.scaleExp = x.scaleExp - 1 ∧ y.clean = 0 ∧ y.consecVeto = min 255 (x.consecVeto + 1))
    ∧ (w.cause ≠ 0 → bitOf w.cause 0 = false → y.scaleExp = x.scaleExp ∧ y.clean = x.clean ∧ y.consecVeto = x.consecVeto)
    ∧ (w.cause = 0 → bitOf y.flags 2 = (decide (job.growth ≤ x.clean + 1) && decide (x.scaleExp < 24)))
    ∧ (bitOf w.cause 0 = true → bitOf y.flags 3 = decide (x.scaleExp ≠ 0) ∧ bitOf y.flags 1 = decide (x.scaleExp = 0))
    ∧ y.clip = (if job.maxNorm = 0 ∨ fLe w.norm job.maxNorm = true then 0x3F800000 else fMul job.maxNorm (fRcp w.norm))
    ∧ y.attempt = att ∧ y.commitTick = tick ∧ y.useExp = x.scaleExp ∧ y.cause = w.cause ∧ y.norm = w.norm)
  ∧ (∀ (ms : List Nat) (cs ds : List Contribution), cs.Perm ds → (cs.map (·.dev)).Nodup → formWord ms cs = formWord ms ds)
  ∧ (∀ (ms : List Nat) (cs : List Contribution), let w := formWord ms cs
    w.participants ≤ ms.length ∧ (bitOf w.cause 3 = true ↔ w.participants < ms.length)
    ∧ (bitOf w.cause 0 = true ↔ ∃ m ∈ ms, ∃ c, (cs.find? fun c => c.dev == m) = some c ∧ (c.localNf = true ∨ c.reducedNf = true))
    ∧ (w.cause = 0 → ∀ m ∈ ms, ∃ c, (cs.find? fun c => c.dev == m) = some c ∧ c.localNf = false ∧ c.reducedNf = false ∧ c.scaleOk = true ∧ c.shardsOk = true))

/-! ### Stream Units -/

/-- SU_COPY, SU_FILL, SU_GATHER and SU_TRANSPOSE (R327, R328, R342–R347): a checked descriptor starts, one that fails a check does not; its segments tile
their run and cross no boundary of SU_SET_SEG_MAX; those of a transpose bring byte k of element c of row r to byte k of element r of column c; an
acknowledged segment of a copy within device memory has moved its bytes and no others. -/
def Obligations.StreamCommands : Prop :=
  (∀ x ∈ [(Instr.suCopy, 0x10, copyCheck, copySegs), (Instr.suFill, 0x11, fillCheck, fillSegs),
      (Instr.suTranspose, 0x13, transposeCheck, transposeSegs)], ∀ (j ix : Nat) (d : Bytes) (s : State),
    let r := s.ring j
    s.headOf j x.2.1 = some (ix, d) → r.unitType = Config.tStream →
    (∀ st, x.2.2.1 r.unitInst r.ctx d s = some st → exec (x.1 j) s = .next (failArg j ix d st s))
    ∧ (x.2.2.1 r.unitInst r.ctx d s = none → exec (x.1 j) s = .next (suBegin j ix d (x.2.2.2 r.unitInst d s) s)))
  ∧ (∀ (j ix : Nat) (d : Bytes) (s : State), let r := s.ring j
    s.headOf j 0x12 = some (ix, d) → r.unitType = Config.tStream → gatherCheck r.unitInst r.ctx d s = none →
    (s.hbmBad (field d 14 8) (8 * field d 34 4) = false → exec (.suGather j) s = .next
      (suBegin j ix d (gatherSegs r.unitInst d s) (hbmTaken (field d 14 8) (8 * field d 34 4) s)))
    ∧ (s.hbmBad (field d 14 8) (8 * field d 34 4) = true → exec (.suGather j) s = .next
        (suSettle j (suLost j 1 0 (field d 14 8) 1 (bump Config.tStream r.unitInst 9 1 (begin j ix d s))))))
  ∧ (∀ (j ix st : Nat) (d : Bytes) (s : State), let r := s.ring j
    s.headOf j 0x12 = some (ix, d) → r.unitType = Config.tStream → gatherCheck r.unitInst r.ctx d s = some st →
    exec (.suGather j) s = .next (failArg j ix d st s))
  ∧ (∀ (b src dst len : Nat) (chk : Option (Nat × Nat)), 0 < b → let l := segsOf b src dst len chk
    (l.map (·.len)).sum = len ∧ (∀ g ∈ l, 1 ≤ g.len ∧ g.src % b + g.len ≤ b ∧ g.dst % b + g.len ≤ b)
    ∧ ∀ k g, l[k]? = some g → g.src = src + ((l.take k).map (·.len)).sum ∧ g.dst = dst + ((l.take k).map (·.len)).sum)
  ∧ (∀ (inst row col k : Nat) (d : Bytes) (s : State), let es := field d 9 1
    es = 1 ∨ es = 2 ∨ es = 4 → row < field d 30 4 → col < field d 34 4 → k < es → ∃ g ∈ transposeSegs inst d s, ∃ i, i < g.len
      ∧ g.src + i = field d 14 8 + row * field d 38 4 + col * es + k
      ∧ transposeDst d g i = field d 22 8 + col * field d 42 4 + row * es + k)
  ∧ (∀ (j k o : Nat) (data : Bytes) (c : Cur) (g : Seg) (s : State), let r := s.ring j
    r.cur = some c → r.unitType = Config.tStream → dOp c.desc = 0x10 → suSrcSpace c.desc = 0 → suDstSpace c.desc = 0 → c.phase = 0 → c.fault = 0 →
    c.out[k]? = some g → s.isFatal = false → s.hbmBad g.src g.len = false → s.mem.wf = true →
    ∃ t, exec (.streamSegmentAck j k o data) s = .next t ∧ t.hbmRead g.dst g.len = s.hbmRead g.src g.len
      ∧ (∀ x, x < g.dst ∨ g.dst + g.len ≤ x → Mem.get t.mem.hbm x = Mem.get s.mem.hbm x)
      ∧ t.mem.sram = s.mem.sram ∧ t.mem.host = s.mem.host ∧ t.mem.store = s.mem.store)

/-! ### Network Ports -/

/-- NP_BIND, NP_UNBIND, NP_WRITE and NP_READ at the head of a ring that may run (R493–R497): the checks, the binding made at the lowest free number, the queue
pair that fails when its binding goes, the packets that leave.
What a Network Port receives (R491, R492, R495–R498, R503, R504): acknowledgements, NAKs and time-outs, read responses, writes, reads, SENDs, pauses, links,
dropped frames. -/
def Obligations.NetworkCommands : Prop :=
  (∀ (j ix p : Nat) (d : Bytes) (s : State), let c := (s.ring j).ctx
     (s.npHead j 0x10 = some (ix, d, p) → field d 8 8 % 64 = 0 → s.owns c (field d 8 8) 128 = true → s.hbmBad (field d 8 8) 128 = false →
       let b := s.hbmRead (field d 8 8) 128
       let q := (s.nport p).nextQp
       (∀ st, bindCheck c b s = some st → exec (.npBind j) s = .next (failArg j ix d st s))
       ∧ (∀ n, bindCheck c b s = none → s.freeBind p = some n → exec (.npBind j) s = .next (finish j 0 0
           ([0, 0] ++ leBytes 2 n ++ leBytes 3 (q % 2 ^ 24) ++ [0] ++ leBytes 4 (q % 2 ^ 32) ++ zeros 12)
           (begin j ix d (served j ((s.setNport p { s.nport p with nextQp := q + 1 }).setBind n { NetBind.init with
             ctx := c, kind := field b 0 1, block := b, qpn := q % 2 ^ 24, rkey := q % 2 ^ 32, st := 1, sqPsn := field b 32 3
             rqPsn := field b 35 3 })))))
       ∧ (bindCheck c b s = none → s.freeBind p = none → exec (.npBind j) s = .next (failArg j ix d eNoResource s)))
     ∧ (s.npHead j 0x11 = some (ix, d, p) → (∀ x, bindNamed c d s = .inr x →
         exec (.npUnbind j) s = .next (finish j 0 0 (npDetail 0 1) (unbind (field d 8 2) (begin j ix d (served j s)))))
       ∧ ∀ st, bindNamed c d s = .inl st → exec (.npUnbind j) s = .next (failArg j ix d st s))
     ∧ (∀ x, s.bind (field d 8 2) = some x → npCheck c d s = none → s.npPaused p x = false →
       let t := begin j ix d (served j s)
       (x.st = 2 → (s.npHead j 0x12 = some (ix, d, p) → s.hbmBad (npLocal d) (npBytes d) = false → exec (.npWrite j) s = .next (npEnd j eAborted 2 t))
         ∧ (s.npHead j 0x13 = some (ix, d, p) → exec (.npRead j) s = .next (npEnd j eAborted 2 t)))
       ∧ (x.st ≠ 2 → s.npHead j 0x13 = some (ix, d, p) →
         let va := nbRemote x.block + npOffset d
         exec (.npRead j) s = .next (npSend (field d 8 2) x.sqPsn 2 va (leBytes 8 (npBytes d)) (t.setBind (field d 8 2) { x with
           at_ := if x.unacked.isEmpty then t.now else x.at_
           sqPsn := psnAdd x.sqPsn (cdiv (npBytes d) (t.npMtu p x.block)), unacked := x.unacked ++ [(x.sqPsn, 2, va, npBytes d, j + 1)] })))
       ∧ (x.st ≠ 2 → s.npHead j 0x12 = some (ix, d, p) → s.hbmBad (npLocal d) (npBytes d) = false →
         ∃ u, exec (.npWrite j) s = .next u ∧ u.mem = s.mem ∧ u.mbs = s.mbs ∧ u.ctxs = s.ctxs
           ∧ ((s.nport p).link = 2 → field d 8 2 / 256 = p → (u.nport p).sent.map (fun m => m.2.1) = (s.nport p).sent.map (fun m => m.2.1)
             ++ (packets (t.npMtu p x.block) x.sqPsn (npOut (t.chkOf c) (npOffset d) (t.hbmRead (npLocal d) (npBytes d)))).map (·.1)))))
  ∧ (∀ (p qpn psn b : Nat) (x : NetBind) (s : State), s.isFatal = false → p < 2 → (s.nport p).link = 2 →
     exec (.roceUnsupported p) s = .next (npCnt p 13 1 (npRecv p 0 false none s))
     ∧ exec (.fcsDrop p) s = .next (npCnt p 6 1 s)
     ∧ (∀ prio quanta, let t := npCnt p 7 1 (npRecv p 0 false none s)
         prio < 8 → (bitOf (t.valueOf Config.tNet p 2) prio = false → exec (.pfcPauseFrame p prio quanta) s = .next t)
         ∧ (bitOf (t.valueOf Config.tNet p 2) prio = true → exec (.pfcPauseFrame p prio quanta) s = .next (t.updNport p fun y => { y with
             paused := (y.paused.filter fun q => q.1 != prio) ++ (if quanta = 0 then [] else [(prio, t.now + cdiv (quanta % 65536 * 64) 100)]) })))
     ∧ exec (.npLinkDown p) s = .next (podsLost p ((((npErr p 0 0 0 2 0 (s.updNport p fun x => { x with link := 0, since := s.now, paused := [] })).binds.filter
         fun b => b.1 / 256 == p).foldl (fun s b => qpFail b.1 2 s) (npErr p 0 0 0 2 0 (s.updNport p fun x => { x with link := 0, since := s.now, paused := [] })))))
     ∧ exec (.npLinkUp p) s = .next s
     ∧ (s.sys.vin = true → exec (.npLinkUp p) { s with nports := [] } = .next (State.updNport { s with nports := [] } p fun x => { x with link := 2 }))
     ∧ (s.bindOf p qpn = some (b, x) →
       exec (.roceCnp p qpn) s = .next (npCnt p 10 1 (npRecv p 0 false none (s.setBind b { x with cnp := x.cnp + 1 })))
       ∧ (x.st = 1 → let t := npRecv p 0 false none s
         let mine := fun u : Nat × Nat × Nat × Nat × Nat => u.2.1 != 2 && psnLe u.1 psn
         (exec (.roceAck p qpn psn 0) s = .next ((x.unacked.filter mine).foldl (fun s u => if u.2.2.2.2 = 0 then s else npAcked (u.2.2.2.2 - 1) u.2.2.2.1 s)
           (t.setBind b { x with unacked := x.unacked.filter (fun u => !mine u), retries := 0, at_ := t.now })))
         ∧ exec (.roceAck p qpn psn 2) s = .next (qpFail b 3 t)
         ∧ exec (.roceAck p qpn psn 1) s = .next ((x.unacked.filter fun u => psnLe psn u.1).foldl (fun s u => resend b u.1 s)
           (npCnt p 11 (x.unacked.filter fun u => psnLe psn u.1).length t)))
       ∧ (x.st = 1 → psn = x.rqPsn → ∀ data ecn, let t := npRecv p data.length ecn (some b) s
         (∀ first va key len, exec (.roceRdmaWrite p qpn psn first va key len data ecn) s = .next (npWritePacket psn first va key len data (fun _ _ s => s) b x t)
           ∧ (first = true → key ≠ x.rkey → npWritePacket psn first va key len data (fun _ _ s => s) b x t = qpFail b 3 (npSend b psn 5 2 [] t))
           ∧ ∀ imm, ∃ u, exec (.roceWriteImmediate p qpn psn first va key len data imm ecn) s = .next u
             ∧ (first = true → key ≠ x.rkey → u = qpFail b 3 (npSend b psn 5 2 [] t)))
         ∧ (∀ va len, x.kind ≠ 2 → writeOk x va len t = true → data.length ≤ len → (x.kind = 1 → writeOk x va data.length t = true ∧ repeatsOther x va data = false) →
           let y := { x with rqPsn := psnAdd psn 1, rx := if len - data.length = 0 then none else some (va + data.length, data.length, len - data.length) }
           npWritePacket psn true va x.rkey len data (fun _ _ s => s) b x t = npSend b psn 4 0 [] (npPlace b y va data (t.setBind b y)))
         ∧ (data.length ≤ 256 → exec (.roceSend p qpn psn data ecn) s = .next (npSend b psn 4 0 []
             ((t.setBind b { x with rqPsn := psnAdd psn 1 }).updNport p fun y => { y with recv := y.recv ++ [(b, data)] })))
         ∧ (256 < data.length → exec (.roceSend p qpn psn data ecn) s = .next (npCnt p 13 1 t)))
       ∧ (x.st = 1 → psn = x.rqPsn → ∀ va key len ecn, let t := npRecv p 0 ecn (some b) s
         (key ≠ x.rkey → exec (.roceRdmaRead p qpn psn va key len ecn) s = .next (qpFail b 3 (npSend b psn 5 2 [] t)))
         ∧ (x.kind = 0 → key = x.rkey → va + len ≤ nbBytes x.block → (len ≠ 0 → t.owns x.ctx (nbBase x.block + va) len = true) →
           t.chkOf x.ctx = none → (t.ctx x.ctx).confidential = false → t.hbmBad (nbBase x.block + va) len = false →
           let ps := packets (t.npMtu p x.block) psn (t.hbmRead (nbBase x.block + va) len)
           exec (.roceRdmaRead p qpn psn va key len ecn) s = .next (ps.foldl (fun s q => npSend b q.1 7 (va + q.2.1) q.2.2 s)
             ((hbmTaken (nbBase x.block + va) len t).setBind b { x with rqPsn := psnAdd psn ps.length }))))
       ∧ (x.st = 1 → ∀ va key len ecn, let t := npRecv p 0 ecn (some b) s
         (seqCheck x psn = 1 → exec (.roceRdmaRead p qpn psn va key len ecn) s = .next (npSend b psn 4 0 [] t))
         ∧ (seqCheck x psn = 2 → exec (.roceRdmaRead p qpn psn va key len ecn) s = .next (npSend b x.rqPsn 5 0 [] t))))
     ∧ (s.bind b = some x → x.st = 1 → x.unacked ≠ [] →
       let t := atLeast (x.at_ + nbTimeout x.block) s
       (7 ≤ x.retries → exec (.qpRetryTimeout b) s = .next (qpFail b 2 t))
       ∧ (x.retries < 7 → exec (.qpRetryTimeout b) s = .next (x.unacked.foldl (fun s u => resend b u.1 s)
           (npCnt (b / 256) 11 x.unacked.length (t.setBind b { x with retries := x.retries + 1, at_ := t.now })))))
     ∧ (∀ u c data, s.bindOf p qpn = some (b, x) → x.st = 1 → (x.unacked.find? fun u => u.2.1 == 2) = some u → u.2.2.2.2 ≠ 0 →
       (s.ring (u.2.2.2.2 - 1)).cur = some c → c.phase = 0 → let mtu := s.npMtu p x.block
       let n := min mtu (npBytes c.desc - c.ackBytes)
       psn = psnAdd u.1 (c.ackBytes / mtu) → data.length = n → c.chk = none →
       exec (.roceReadResponse p qpn psn data) s = .next (npAcked (u.2.2.2.2 - 1) n ((npCnt p 14 n (hbmWrite (npLocal c.desc + c.ackBytes) data
         (npRecv p n false none s))).setBind b { x with retries := 0, at_ := s.now, unacked := if c.ackBytes + n = npBytes c.desc then x.unacked.erase u else x.unacked }))))

/-! ### The forward program -/

/-- The steps of the teacher forward program (R164, R174, R179, R180, R265, R275, R280, R285–R287): each is run by its own command at the step of its kind,
posts the descriptors that differ from the step's template only where firmware substitutes, and goes on; SOFT_TARGET issues its PRISM_ROWS first and, once
these have completed, its LENS_TOPK for as many rows; REPEAT and END follow their counts, and END consumes a token chunk once its rows were scored. -/
def Obligations.ForwardSteps : Prop :=
  ∀ (id : Nat) (w : Sweep) (g : Image) (b : Bytes) (s : State),
    (s.stepOf id 1 = some (w, g, b) → ∀ x u, substOk (stepDesc b) (fitTo 64 x.desc) [(2, 2), (8, 2), (16, 2), (26, 6), (40, 8), (56, 8)] = true →
      field x.desc 8 2 = w.image → isDma x.inst = true → fwPost Config.tStream x s = some u → exec (.fwdFill id x) s = .next (nextStep id u))
    ∧ (s.stepOf id 2 = some (w, g, b) → ∀ x, (∀ u, substOk (stepDesc b) (fitTo 64 x.desc) (passSubst (dOp (stepDesc b))) = true →
        fwPost Config.tTeacher x s = some u → exec (.fwdPass id x) s = .next (nextStep id u))
      ∧ (substOk (stepDesc b) (fitTo 64 x.desc) (passSubst (dOp (stepDesc b))) = false → exec (.fwdPass id x) s = .next s))
    ∧ (s.stepOf id 3 = some (w, g, b) → ∀ layer scores rows lists order, let l := s.imgRead g (s.imgLayerAt g + 32 * layer) 32
      let n := field l 8 2
      let k := field l 10 2
      layer < s.imgLayers g → field l 6 1 = 4 → rows ≠ 0 → s.owns 0 scores (4 * n * rows) = true → s.owns 0 lists (2 + 2 * n) = true →
      s.owns 0 order (4 * rows * k + 4 * (n + 1)) = true →
      let pick := (List.range rows).map fun r => chosen k ((List.range n).map fun e => field (s.hbmRead (scores + 4 * (n * r + e)) 4) 0 4)
      let used := (List.range n).filter fun e => pick.any fun p => p.contains e
      let of (e : Nat) : List Nat := (List.range rows).filter fun r => (nth pick r []).contains e
      let starts := (List.range (n + 1)).map fun e => (((List.range n).take e).map fun d => (of d).length).sum
      exec (.fwdRoute id layer scores rows lists order) s = .next (nextStep id (hbmWrite order
        (((List.range n).flatMap of ++ starts).flatMap fun r => leBytes 4 r)
        (hbmWrite lists (leBytes 2 used.length ++ used.flatMap fun e => leBytes 2 e) s))))
    ∧ (s.stepOf id 4 = some (w, g, b) → ∀ xs u, (∀ x ∈ xs, dOp x.desc = 0x10 ∧ (suSrcSpace x.desc = 0 ∨ suSrcSpace x.desc = 2)
        ∧ (suDstSpace x.desc = 0 ∨ suDstSpace x.desc = 2)) → fwPostAll Config.tStream xs s = some u → exec (.fwdExchange id xs) s = .next (nextStep id u))
    ∧ (s.stepOf id 5 = some (w, g, b) → ∀ rows lens,
      (w.soft = [] → lens = [] → s.softCovers w (rows.map fun x => (x.1, x.2.2.inst, field x.2.2.desc 10 2)) = true →
        (rows = [] → exec (.fwdSoftTarget id rows lens) s = .next (nextStep id s))
        ∧ ∀ u, rows ≠ [] → softAll w rows s = some u → exec (.fwdSoftTarget id rows lens) s = .next u)
      ∧ ∀ v, w.soft ≠ [] → rows = [] → (∀ x ∈ lens, dOp x.desc = 0x10 ∧ bits (field x.desc 9 1) 6 2 = 2 ∧ field x.desc 14 2 = x.inst) →
        (∀ l ∈ w.soft, s.fwDone l.ring l.index = true) →
        (∀ i, i < 8 → ((lens.filter fun x => x.inst == i).map fun x => lRows x.desc).sum = ((w.soft.filter fun l => l.chan == i).map s.softRowsOf).sum) →
        fwPostAll Config.tLens lens s = some v → exec (.fwdSoftTarget id rows lens) s = .next (nextStep id (updSweep id (fun w => { w with soft := [] }) v)))
    ∧ (s.stepOf id 6 = some (w, g, b) → ∀ xs u, (∀ x ∈ xs, dOp x.desc = 0x11 ∧ s.tapTags w x = true) → fwPostAll Config.tPrism xs s = some u →
      exec (.fwdTap id xs) s = .next (nextStep id u))
    ∧ (s.stepOf id 7 = some (w, g, b) → ∀ thin,
      (w.reps = 0 → thin = thinBody (s.repBody g w.step) → exec (.fwdRepeat id thin) s = .next (updSweep id (fun w => { w with
        step := w.step + 1, repAt := w.step + 1, reps := cdiv w.rows (if thin then 8 else 512) - 1 }) s))
      ∧ (w.reps ≠ 0 → exec (.fwdRepeat id thin) s = .next (updSweep id (fun _ => { w with step := w.repAt, reps := w.reps - 1 }) s)))
    ∧ (s.stepOf id 8 = some (w, g, b) → w.reps = 0 → ∀ token,
      (∀ r, token = some r → s.chunkScored w r = false → exec (.fwdEnd id token) s = .next s)
      ∧ ((∀ r, token = some r → s.chunkScored w r = true) → let u := match token with | some r => chunkDone r s | none => s
        (w.job = none → exec (.fwdEnd id token) s = .next { u with sweeps := u.sweeps.filter fun v => v.id != id })
        ∧ ∀ h j, w.job = some h → u.job h = some j →
          (j.st = 1 → exec (.fwdEnd id token) s = .next (updSweep id (fun w => Sweep.start w.id w.image w.job w.model w.rows) u))
          ∧ (j.st ≠ 1 → exec (.fwdEnd id token) s = .next (jobStopGo h
              ({ u with sweeps := u.sweeps.filter fun v => v.id != id }.setJob h { j with fwd := false })))))
    ∧ (∀ (k : Nat) (outs : List Nat), (chosen k outs).length ≤ k ∧ (chosen k outs).Nodup ∧ ∀ e ∈ chosen k outs, e < outs.length)

/-! ### The Weight Store -/

/-- STORE_PAGE_READ_COMPLETE, STORE_SCRUB_TIMER, STORE_PROGRAM_COMPLETE, STORE_ERASE_COMPLETE, relocations, die time-outs, metered writes and scrub stages (R361,
R366–R368, R370–R374, R377–R382, R384, R386), each while the schedule lets its class take the plane, whose time it then uses (R365): a class within its share
goes before those after it, and a read is that of the requester whose turn it is.
The read budget (R372, R373): every page read counts once at its block, and no other block's counter moves. The second page read within 24 hours that needs
parity retires its block (R370). How requests stand for a class's work is the model's reading (log 92). -/
def Obligations.StoreEvents : Prop :=
  (∀ (c die block : Nat) (s : State), let k := bkey die block
     let x := s.ctl c
     let b := x.block k
     s.isFatal = false → c < 8 → die < 16 → block < stripes → x.live = true →
     (∀ row ds, (x.stripeOf k).isSome = true →
       (∀ susp, row < x.pagesPer k → let pl := planeOf k
         let a := s.blockAddr c k row
         (s.readFor c pl a = none → exec (.storePageReadComplete c die block row susp ds) s = .next s)
         ∧ ∀ ring, s.readFor c pl a = some ring → exec (.storePageReadComplete c die block row susp ds) s = .next
           (let t := storeCnt c 1 storePage (readPage c k row false ds (readServed c pl ring (a.getD 0) s))
            if susp then storeCnt c 12 1 t else t))
       ∧ (row < b.pages → s.classMay c 2 (planeOf k) = true →
         exec (.storeScrubTimer c die block row ds) s = .next (storeCnt c 13 1 (readPage c k row true ds (charge c 2 (16 * Config.us) s)))))
     ∧ (∀ susp, b.st ≤ 1 → b.pages < x.pagesPer k → s.classMay c (x.progClass k) (planeOf k) = true →
       let t := charge c (x.progClass k) (progTime (x.slcMode k)) (storeCnt c 12 (min susp 4) s)
       let n := x.progPages k
       let u := (storeCnt c (if x.slcMode k then 3 else 2) (n * storePage) t).updCtl c fun y => y.setBlock k { b with
         st := if b.pages + n ≥ x.pagesPer k then 2 else 1, pages := b.pages + n }
       (x.slcMode k = false → exec (.storeProgramComplete c die block true susp) s = .next u)
       ∧ (∀ st d a, x.slcMode k = true → x.stripeOf k = some (st, d) → storeAddr c st d b.pages = some a →
         exec (.storeProgramComplete c die block true susp) s = .next (u.updCtl c fun y => { y with pend := y.pend.flatMap (outside a) }))
       ∧ ∃ t, exec (.storeProgramComplete c die block false susp) s = .next t ∧ ((t.ctl c).block k).st = 7 ∧ t.mem = s.mem ∧ t.images = s.images)
     ∧ (∀ susp, s.classMay c 2 (planeOf k) = true → let t := charge c 2 (5 * Config.ms) (storeCnt c 12 (min susp 4) s)
       let u := if b.st = 2 then slcFreed c k t else t
       ((b.st = 4 ∨ b.st = 5) ∨ ((b.st = 1 ∨ b.st = 2) ∧ ∃ st d, x.stripeOf k = some (st, d) ∧ (s.blockDeleted st = true ∨ firstSlc ≤ st))) →
       exec (.storeEraseComplete c die block true susp) s = .next
         (storeCnt c 11 1 (u.updCtl c fun y => y.setBlock k { SBlock.init with pe := b.pe + 1, slc := b.slc }))
       ∧ ∃ v, exec (.storeEraseComplete c die block false susp) s = .next v ∧ ((v.ctl c).block k).st = 7 ∧ ((v.ctl c).block k).pages = 0)
     ∧ (x.st ≥ 2 → x.hold = false → x.hot = false → x.reloc = none →
       (s.relocHead c = none → exec (.relocationStart c) s = .next s)
       ∧ ∀ h sp st d, s.relocHead c = some h → s.pickSpare c h = some sp → x.stripeOf h = some (st, d) →
         ∃ t, exec (.relocationStart c) s = .next t ∧ (t.ctl c).reloc = some (d, h, sp, st) ∧ t.mem = s.mem ∧ t.images = s.images)
     ∧ (∀ d src dst st, x.hold = false → x.reloc = some (d, src, dst, st) → s.classMay c 2 (planeOf dst) = true → ∃ t, exec (.relocationSwitch c) s = .next t ∧ (t.ctl c).reloc = none
       ∧ t.mem = s.mem ∧ (s.blockDeleted st = false → SMap.wf 0 x.moved = true →
         SMap.get 0 (t.ctl c).moved (st * 16 + d) = if dst = bkey d st then 0 else dst + 1))
     ∧ (x.failed.contains die = false → x.failed = [] → ∃ t, exec (.storeDieTimeout c die) s = .next t ∧ (t.ctl c).failed = [die]
       ∧ (t.ctl c).st = (if x.st = 3 then 4 else x.st) ∧ t.images = s.images ∧ t.mem.store = s.mem.store ∧ t.mem.storePoison = s.mem.storePoison)
     ∧ (∀ addr data pos, storePos addr = some pos → pos.ctl = c → data ≠ [] → Config.slcBase ≤ addr → addr % storePage + data.length ≤ storePage →
       s.sys.vin = true → (x.st = 3 ∨ x.st = 4) →
       (x.pendBytes + data.length ≤ x.limit * 2 ^ 20 → x.armed = true → x.limit ≠ 0 → ∃ t, exec (.meteredSlcWrite addr data) s = .next t
         ∧ t.mem = { s.mem with store := Mem.write s.mem.store addr data } ∧ (t.ctl c).pend = x.pend ++ [(addr, data.length)] ∧ s.now ≤ t.now)
       ∧ (x.limit ≠ 0 → (x.armed = false ∨ x.limit * 2 ^ 20 < x.pendBytes + data.length) → exec (.meteredSlcWrite addr data) s = .next s))
     ∧ (∀ ok, (x.st = 1 → exec (.storeScrubStageComplete c ok) s = .next (replayDump c ok s))
       ∧ (x.st = 2 → x.slcDone = false → (s.toScrub c) ≠ [] → exec (.storeScrubStageComplete c ok) s = .next (s.setCtl c { x with slcDone := true }))
       ∧ (x.st = 2 → x.slcDone = true → s.toScrub c = [] → exec (.storeScrubStageComplete c ok) s = .next
           (s.updCtl c fun y => { y with st := if y.failed.isEmpty then 3 else 4 }))))
  ∧ (∀ (c k n : Nat) (s : State), 0 < n → let t := countRead c k n s
     ((t.ctl c).block k).reads = ((s.ctl c).block k).reads + n
     ∧ (∀ j, j ≠ k → (t.ctl c).block j = (s.ctl c).block j) ∧ (∀ e, e ≠ c → t.ctl e = s.ctl e) ∧ t.mem = s.mem ∧ t.images = s.images ∧ t.rings = s.rings)
  ∧ (∀ (c k : Nat) (old : List Nat) (s : State), let b := (s.ctl c).block k
     let t := secondHit c k old s
     b.hits.length ≠ old.length → ((∃ x ∈ old, s.now < x + 86400 * Config.sec) → ((t.ctl c).block k).st = 7)
       ∧ ((∀ x ∈ old, x + 86400 * Config.sec ≤ s.now) → ((t.ctl c).block k).st = b.st))
  ∧ (∀ (c : Nat) (pl : Nat × Nat) (s : State),
     (s.slcWork c pl = true → s.shareLeft c 1 = true →
       s.classMay c 1 pl = true ∧ s.classMay c 2 pl = false ∧ s.classMay c 3 pl = false ∧ s.classMay c 4 pl = false)
     ∧ (s.relocWork c pl = true → s.shareLeft c 2 = true → s.classMay c 3 pl = false ∧ s.classMay c 4 pl = false
       ∧ ((s.slcWork c pl = false ∨ s.shareLeft c 1 = false) → s.classMay c 2 pl = true))
     ∧ (s.readers c pl ≠ [] → s.classMay c 4 pl = false ∧ ((s.slcWork c pl = false ∨ s.shareLeft c 1 = false) →
       (s.relocWork c pl = false ∨ s.shareLeft c 2 = false) → s.classMay c 3 pl = true))
     ∧ (s.readers c pl = [] → s.slcWork c pl = false → s.relocWork c pl = false → ∀ cls ∈ [1, 2, 3, 4], s.classMay c cls pl = true))

/-! ### The Host Port -/

/-- CXL.mem, snoops, back-invalidations, completions of segments and of image writes, link and IDE events, MSI-X (R171, R480–R488, R517, R518). -/
def Obligations.HostPortEvents : Prop :=
  ∀ (s : State),
    (∀ a, let l := a / 64
      s.hdmOpen = true → l ∉ s.host.bisnp → 64 * l + 64 ≤ Config.hbmBytes →
      (s.hostView (64 * l) = none → ∃ t, exec (.cxlMemRead a none) s = .next t ∧ t.mem = s.mem
        ∧ t.host.rdata = s.host.rdata ++ [(64 * l, false, List.replicate 64 0xFF)])
      ∧ (s.hostView (64 * l) = some none → s.hbmBad (64 * l) 64 = false → ∃ t, exec (.cxlMemRead a none) s = .next t ∧ t.mem = s.mem
        ∧ t.host.rdata = s.host.rdata ++ [(64 * l, false, s.hbmRead (64 * l) 64)] ∧ (l, false) ∈ t.host.snoop)
      ∧ (∀ data, s.hostView (64 * l) = some none → s.hbmBad (64 * l) 64 = false → s.mem.wf = true → ∃ t, exec (.cxlMemRead a (some data)) s = .next t
        ∧ t.host.rdata = s.host.rdata ++ [(64 * l, false, s.hbmRead (64 * l) 64)] ∧ (l, true) ∈ t.host.snoop
        ∧ t.hbmRead (64 * l) 64 = fitTo 64 data ∧ (∀ x, x < 64 * l ∨ 64 * l + 64 ≤ x → Mem.get t.mem.hbm x = Mem.get s.mem.hbm x))
      ∧ (∀ data en, s.hostView (64 * l) = some none → en = 2 ^ 64 - 1 → s.mem.wf = true → ∃ t, exec (.cxlMemWrite a data en) s = .next t
        ∧ t.hbmRead (64 * l) 64 = fitTo 64 data ∧ (∀ x, x < 64 * l ∨ 64 * l + 64 ≤ x → Mem.get t.mem.hbm x = Mem.get s.mem.hbm x)
        ∧ (∀ m, (l, m) ∉ t.host.snoop))
      ∧ (∀ data en, s.hostView (64 * l) = none → ∃ t, exec (.cxlMemWrite a data en) s = .next t ∧ t.mem = s.mem))
    ∧ (∀ l, (l ∈ s.host.bisnp → exec (.bisnpResponse l) s = .next { s with host := { s.host with bisnp := s.host.bisnp.filter (· ≠ l) } })
      ∧ (l ∉ s.host.bisnp → (l, true) ∈ s.host.snoop → ∃ t, exec (.bisnpResponse l) s = .next t ∧ t.host.sent = s.host.sent ++ [l]
        ∧ (∀ m, (l, m) ∉ t.host.snoop) ∧ t.mem = s.mem)
      ∧ (l ∉ s.host.bisnp → (l, true) ∉ s.host.snoop → exec (.bisnpResponse l) s = .next s)
      ∧ exec (.hostSnoop l) s = .next { s with host := { s.host with cache := s.host.cache.filter (· ≠ l) } })
    ∧ (∀ ring seg c g, ring < Config.rings → s.hostSeg ring seg = some (c, g) →
      exec (.hostCompletionTimeout ring seg) s = .next (hostFail ring seg 1 s)
      ∧ exec (.hostReadCompletion ring seg 1) s = .next (hostFail ring seg 2 s) ∧ exec (.hostReadCompletion ring seg 2) s = .next (hostFail ring seg 3 s)
      ∧ ∃ t, exec (.hostReadCompletion ring seg 0) s = .next t ∧ t.mem = s.mem ∧ t.rings = s.rings)
    ∧ (∀ img w x, ((s.image img).bind fun g => g.writes[w]?) = some x → x.kind = 1 → s.isFatal = false →
      let fault (bit : Nat) : State := imgHostFault img w (hpErr bit x.ctx (x.src + (x.pos - x.from_)) s)
      exec (.hostCompletionTimeout (Config.rings + img) w) s = .next (fault 1)
      ∧ exec (.hostReadCompletion (Config.rings + img) w 1) s = .next (fault 2) ∧ exec (.hostReadCompletion (Config.rings + img) w 2) s = .next (fault 3))
    ∧ (s.host.up = true → exec .hostLinkDown s = .next (hostWritesEnd (hostTasksEnd (hpErr 5 0 0 { s with host := { s.host with
        up := false, cxl := false, width := 0, rate := 0 } }))))
    ∧ (∀ width rate cxl, (s.host.up = false → s.sys.vin = true → s.sys.perst = true → exec (.hostLinkUp width rate cxl) s = .next (completeLate { s with host := { s.host with
        up := true, width := width % 32, rate := rate % 256
        cxl := cxl && decide (rate = 32 ∨ rate = 64) && decide (width = 16 ∨ width = 8) } }))
      ∧ (s.host.up = true → exec (.hostLinkUp width rate cxl) s = .next s))
    ∧ (s.host.up = true → ∀ v, v < 2048 → let t := { s with sys := { s.sys with
        msixOn := true, unmasked := NSet.ins v s.sys.unmasked, pba := NSet.del v s.sys.pba } }
      exec (.msixUnmask v) s = .next (if s.sys.pba.contains v then sendMsix v t else t))
    ∧ (s.host.up = true → (s.sys.ideLink = true ∨ s.sys.ideCxl = true) → exec .ideIntegrityFailure s = .next
        (hpErr 4 0 0 { s with sys := { s.sys with ideLink := false, ideCxl := false } }))
    ∧ (s.host.up = true → s.sec.session.contains 0 = true → ∀ link cxl, exec (.ideKmKeyProgram link cxl) s = .next { s with sys := { s.sys with
        ideLink := s.sys.ideLink || link, ideCxl := s.sys.ideCxl || (cxl && s.host.cxl) } })
    ∧ (∀ base, s.host.up = true → s.host.cxl = true → exec (.hdmDecoderCommit base) s = .next { s with host := { s.host with hdm := base + 1 } })

/-! ### Frames -/

/-- The frame of all 322 commands: what a command may change is its scope (Safety.lean: scopeOf, Scope.frame); every other field of the
state, the queue of waiting commands among them, keeps its value. -/
def Obligations.CommandsKeepTheRest : Prop :=
  ∀ (i : Instr) (s t : State), exec i s = .next t → t = (scopeOf i).frame s t
end

