-- ==== Sys2Proof/Laws/State.lean ====
section
/-! SUPPORT. Sys2Proof/Laws/State.lean: what each named update leaves of each field of the state; true by unfolding. -/

namespace Sys2Proof.Machine
open Sys2Proof

variable (s : State)

/-! `State.setMb` changes mbs alone. -/
@[simp] theorem State.setMb_pending (m : Nat) (x : Mailbox) : (s.setMb m x).pending = s.pending := rfl
@[simp] theorem State.setMb_now (m : Nat) (x : Mailbox) : (s.setMb m x).now = s.now := rfl
@[simp] theorem State.setMb_free (m : Nat) (x : Mailbox) : (s.setMb m x).free = s.free := rfl
@[simp] theorem State.setMb_keys (m : Nat) (x : Mailbox) : (s.setMb m x).keys = s.keys := rfl
@[simp] theorem State.setMb_sys (m : Nat) (x : Mailbox) : (s.setMb m x).sys = s.sys := rfl
@[simp] theorem State.setMb_mbs (m : Nat) (x : Mailbox) : (s.setMb m x).mbs = SMap.set Mailbox.init s.mbs m x := rfl
@[simp] theorem State.setMb_ctxs (m : Nat) (x : Mailbox) : (s.setMb m x).ctxs = s.ctxs := rfl
@[simp] theorem State.setMb_ops (m : Nat) (x : Mailbox) : (s.setMb m x).ops = s.ops := rfl
@[simp] theorem State.setMb_cfg (m : Nat) (x : Mailbox) : (s.setMb m x).cfg = s.cfg := rfl
@[simp] theorem State.setMb_rings (m : Nat) (x : Mailbox) : (s.setMb m x).rings = s.rings := rfl
@[simp] theorem State.setMb_cores (m : Nat) (x : Mailbox) : (s.setMb m x).cores = s.cores := rfl
@[simp] theorem State.setMb_units (m : Nat) (x : Mailbox) : (s.setMb m x).units = s.units := rfl
@[simp] theorem State.setMb_mem (m : Nat) (x : Mailbox) : (s.setMb m x).mem = s.mem := rfl
@[simp] theorem State.setMb_log (m : Nat) (x : Mailbox) : (s.setMb m x).log = s.log := rfl
@[simp] theorem State.setMb_prings (m : Nat) (x : Mailbox) : (s.setMb m x).prings = s.prings := rfl
@[simp] theorem State.setMb_chans (m : Nat) (x : Mailbox) : (s.setMb m x).chans = s.chans := rfl
@[simp] theorem State.setMb_jobs (m : Nat) (x : Mailbox) : (s.setMb m x).jobs = s.jobs := rfl
@[simp] theorem State.setMb_step (m : Nat) (x : Mailbox) : (s.setMb m x).step = s.step := rfl
@[simp] theorem State.setMb_upds (m : Nat) (x : Mailbox) : (s.setMb m x).upds = s.upds := rfl
@[simp] theorem State.setMb_sweeps (m : Nat) (x : Mailbox) : (s.setMb m x).sweeps = s.sweeps := rfl
@[simp] theorem State.setMb_lens (m : Nat) (x : Mailbox) : (s.setMb m x).lens = s.lens := rfl
@[simp] theorem State.setMb_images (m : Nat) (x : Mailbox) : (s.setMb m x).images = s.images := rfl
@[simp] theorem State.setMb_groups (m : Nat) (x : Mailbox) : (s.setMb m x).groups = s.groups := rfl
@[simp] theorem State.setMb_beam (m : Nat) (x : Mailbox) : (s.setMb m x).beam = s.beam := rfl
@[simp] theorem State.setMb_mirror (m : Nat) (x : Mailbox) : (s.setMb m x).mirror = s.mirror := rfl
@[simp] theorem State.setMb_binds (m : Nat) (x : Mailbox) : (s.setMb m x).binds = s.binds := rfl
@[simp] theorem State.setMb_nports (m : Nat) (x : Mailbox) : (s.setMb m x).nports = s.nports := rfl
@[simp] theorem State.setMb_host (m : Nat) (x : Mailbox) : (s.setMb m x).host = s.host := rfl
@[simp] theorem State.setMb_sec (m : Nat) (x : Mailbox) : (s.setMb m x).sec = s.sec := rfl
@[simp] theorem State.setMb_agents (m : Nat) (x : Mailbox) : (s.setMb m x).agents = s.agents := rfl
@[simp] theorem State.setMb_ctls (m : Nat) (x : Mailbox) : (s.setMb m x).ctls = s.ctls := rfl
@[simp] theorem State.setMb_srv (m : Nat) (x : Mailbox) : (s.setMb m x).srv = s.srv := rfl
@[simp] theorem State.setMb_loupe (m : Nat) (x : Mailbox) : (s.setMb m x).loupe = s.loupe := rfl

/-! `State.setCtx` changes ctxs alone. -/
@[simp] theorem State.setCtx_pending (c : Nat) (x : Context) : (s.setCtx c x).pending = s.pending := rfl
@[simp] theorem State.setCtx_now (c : Nat) (x : Context) : (s.setCtx c x).now = s.now := rfl
@[simp] theorem State.setCtx_free (c : Nat) (x : Context) : (s.setCtx c x).free = s.free := rfl
@[simp] theorem State.setCtx_keys (c : Nat) (x : Context) : (s.setCtx c x).keys = s.keys := rfl
@[simp] theorem State.setCtx_sys (c : Nat) (x : Context) : (s.setCtx c x).sys = s.sys := rfl
@[simp] theorem State.setCtx_mbs (c : Nat) (x : Context) : (s.setCtx c x).mbs = s.mbs := rfl
@[simp] theorem State.setCtx_ctxs (c : Nat) (x : Context) : (s.setCtx c x).ctxs = SMap.set Context.init s.ctxs c x := rfl
@[simp] theorem State.setCtx_ops (c : Nat) (x : Context) : (s.setCtx c x).ops = s.ops := rfl
@[simp] theorem State.setCtx_cfg (c : Nat) (x : Context) : (s.setCtx c x).cfg = s.cfg := rfl
@[simp] theorem State.setCtx_rings (c : Nat) (x : Context) : (s.setCtx c x).rings = s.rings := rfl
@[simp] theorem State.setCtx_cores (c : Nat) (x : Context) : (s.setCtx c x).cores = s.cores := rfl
@[simp] theorem State.setCtx_units (c : Nat) (x : Context) : (s.setCtx c x).units = s.units := rfl
@[simp] theorem State.setCtx_mem (c : Nat) (x : Context) : (s.setCtx c x).mem = s.mem := rfl
@[simp] theorem State.setCtx_log (c : Nat) (x : Context) : (s.setCtx c x).log = s.log := rfl
@[simp] theorem State.setCtx_prings (c : Nat) (x : Context) : (s.setCtx c x).prings = s.prings := rfl
@[simp] theorem State.setCtx_chans (c : Nat) (x : Context) : (s.setCtx c x).chans = s.chans := rfl
@[simp] theorem State.setCtx_jobs (c : Nat) (x : Context) : (s.setCtx c x).jobs = s.jobs := rfl
@[simp] theorem State.setCtx_step (c : Nat) (x : Context) : (s.setCtx c x).step = s.step := rfl
@[simp] theorem State.setCtx_upds (c : Nat) (x : Context) : (s.setCtx c x).upds = s.upds := rfl
@[simp] theorem State.setCtx_sweeps (c : Nat) (x : Context) : (s.setCtx c x).sweeps = s.sweeps := rfl
@[simp] theorem State.setCtx_lens (c : Nat) (x : Context) : (s.setCtx c x).lens = s.lens := rfl
@[simp] theorem State.setCtx_images (c : Nat) (x : Context) : (s.setCtx c x).images = s.images := rfl
@[simp] theorem State.setCtx_groups (c : Nat) (x : Context) : (s.setCtx c x).groups = s.groups := rfl
@[simp] theorem State.setCtx_beam (c : Nat) (x : Context) : (s.setCtx c x).beam = s.beam := rfl
@[simp] theorem State.setCtx_mirror (c : Nat) (x : Context) : (s.setCtx c x).mirror = s.mirror := rfl
@[simp] theorem State.setCtx_binds (c : Nat) (x : Context) : (s.setCtx c x).binds = s.binds := rfl
@[simp] theorem State.setCtx_nports (c : Nat) (x : Context) : (s.setCtx c x).nports = s.nports := rfl
@[simp] theorem State.setCtx_host (c : Nat) (x : Context) : (s.setCtx c x).host = s.host := rfl
@[simp] theorem State.setCtx_sec (c : Nat) (x : Context) : (s.setCtx c x).sec = s.sec := rfl
@[simp] theorem State.setCtx_agents (c : Nat) (x : Context) : (s.setCtx c x).agents = s.agents := rfl
@[simp] theorem State.setCtx_ctls (c : Nat) (x : Context) : (s.setCtx c x).ctls = s.ctls := rfl
@[simp] theorem State.setCtx_srv (c : Nat) (x : Context) : (s.setCtx c x).srv = s.srv := rfl
@[simp] theorem State.setCtx_loupe (c : Nat) (x : Context) : (s.setCtx c x).loupe = s.loupe := rfl

/-! `State.setRing` changes rings alone. -/
@[simp] theorem State.setRing_pending (j : Nat) (x : Ring) : (s.setRing j x).pending = s.pending := rfl
@[simp] theorem State.setRing_now (j : Nat) (x : Ring) : (s.setRing j x).now = s.now := rfl
@[simp] theorem State.setRing_free (j : Nat) (x : Ring) : (s.setRing j x).free = s.free := rfl
@[simp] theorem State.setRing_keys (j : Nat) (x : Ring) : (s.setRing j x).keys = s.keys := rfl
@[simp] theorem State.setRing_sys (j : Nat) (x : Ring) : (s.setRing j x).sys = s.sys := rfl
@[simp] theorem State.setRing_mbs (j : Nat) (x : Ring) : (s.setRing j x).mbs = s.mbs := rfl
@[simp] theorem State.setRing_ctxs (j : Nat) (x : Ring) : (s.setRing j x).ctxs = s.ctxs := rfl
@[simp] theorem State.setRing_ops (j : Nat) (x : Ring) : (s.setRing j x).ops = s.ops := rfl
@[simp] theorem State.setRing_cfg (j : Nat) (x : Ring) : (s.setRing j x).cfg = s.cfg := rfl
@[simp] theorem State.setRing_rings (j : Nat) (x : Ring) : (s.setRing j x).rings = SMap.set Ring.init s.rings j x := rfl
@[simp] theorem State.setRing_cores (j : Nat) (x : Ring) : (s.setRing j x).cores = s.cores := rfl
@[simp] theorem State.setRing_units (j : Nat) (x : Ring) : (s.setRing j x).units = s.units := rfl
@[simp] theorem State.setRing_mem (j : Nat) (x : Ring) : (s.setRing j x).mem = s.mem := rfl
@[simp] theorem State.setRing_log (j : Nat) (x : Ring) : (s.setRing j x).log = s.log := rfl
@[simp] theorem State.setRing_prings (j : Nat) (x : Ring) : (s.setRing j x).prings = s.prings := rfl
@[simp] theorem State.setRing_chans (j : Nat) (x : Ring) : (s.setRing j x).chans = s.chans := rfl
@[simp] theorem State.setRing_jobs (j : Nat) (x : Ring) : (s.setRing j x).jobs = s.jobs := rfl
@[simp] theorem State.setRing_step (j : Nat) (x : Ring) : (s.setRing j x).step = s.step := rfl
@[simp] theorem State.setRing_upds (j : Nat) (x : Ring) : (s.setRing j x).upds = s.upds := rfl
@[simp] theorem State.setRing_sweeps (j : Nat) (x : Ring) : (s.setRing j x).sweeps = s.sweeps := rfl
@[simp] theorem State.setRing_lens (j : Nat) (x : Ring) : (s.setRing j x).lens = s.lens := rfl
@[simp] theorem State.setRing_images (j : Nat) (x : Ring) : (s.setRing j x).images = s.images := rfl
@[simp] theorem State.setRing_groups (j : Nat) (x : Ring) : (s.setRing j x).groups = s.groups := rfl
@[simp] theorem State.setRing_beam (j : Nat) (x : Ring) : (s.setRing j x).beam = s.beam := rfl
@[simp] theorem State.setRing_mirror (j : Nat) (x : Ring) : (s.setRing j x).mirror = s.mirror := rfl
@[simp] theorem State.setRing_binds (j : Nat) (x : Ring) : (s.setRing j x).binds = s.binds := rfl
@[simp] theorem State.setRing_nports (j : Nat) (x : Ring) : (s.setRing j x).nports = s.nports := rfl
@[simp] theorem State.setRing_host (j : Nat) (x : Ring) : (s.setRing j x).host = s.host := rfl
@[simp] theorem State.setRing_sec (j : Nat) (x : Ring) : (s.setRing j x).sec = s.sec := rfl
@[simp] theorem State.setRing_agents (j : Nat) (x : Ring) : (s.setRing j x).agents = s.agents := rfl
@[simp] theorem State.setRing_ctls (j : Nat) (x : Ring) : (s.setRing j x).ctls = s.ctls := rfl
@[simp] theorem State.setRing_srv (j : Nat) (x : Ring) : (s.setRing j x).srv = s.srv := rfl
@[simp] theorem State.setRing_loupe (j : Nat) (x : Ring) : (s.setRing j x).loupe = s.loupe := rfl

/-! `State.setCore` changes cores alone. -/
@[simp] theorem State.setCore_pending (c : Nat) (x : Core) : (s.setCore c x).pending = s.pending := rfl
@[simp] theorem State.setCore_now (c : Nat) (x : Core) : (s.setCore c x).now = s.now := rfl
@[simp] theorem State.setCore_free (c : Nat) (x : Core) : (s.setCore c x).free = s.free := rfl
@[simp] theorem State.setCore_keys (c : Nat) (x : Core) : (s.setCore c x).keys = s.keys := rfl
@[simp] theorem State.setCore_sys (c : Nat) (x : Core) : (s.setCore c x).sys = s.sys := rfl
@[simp] theorem State.setCore_mbs (c : Nat) (x : Core) : (s.setCore c x).mbs = s.mbs := rfl
@[simp] theorem State.setCore_ctxs (c : Nat) (x : Core) : (s.setCore c x).ctxs = s.ctxs := rfl
@[simp] theorem State.setCore_ops (c : Nat) (x : Core) : (s.setCore c x).ops = s.ops := rfl
@[simp] theorem State.setCore_cfg (c : Nat) (x : Core) : (s.setCore c x).cfg = s.cfg := rfl
@[simp] theorem State.setCore_rings (c : Nat) (x : Core) : (s.setCore c x).rings = s.rings := rfl
@[simp] theorem State.setCore_cores (c : Nat) (x : Core) : (s.setCore c x).cores = SMap.set Core.init s.cores c x := rfl
@[simp] theorem State.setCore_units (c : Nat) (x : Core) : (s.setCore c x).units = s.units := rfl
@[simp] theorem State.setCore_mem (c : Nat) (x : Core) : (s.setCore c x).mem = s.mem := rfl
@[simp] theorem State.setCore_log (c : Nat) (x : Core) : (s.setCore c x).log = s.log := rfl
@[simp] theorem State.setCore_prings (c : Nat) (x : Core) : (s.setCore c x).prings = s.prings := rfl
@[simp] theorem State.setCore_chans (c : Nat) (x : Core) : (s.setCore c x).chans = s.chans := rfl
@[simp] theorem State.setCore_jobs (c : Nat) (x : Core) : (s.setCore c x).jobs = s.jobs := rfl
@[simp] theorem State.setCore_step (c : Nat) (x : Core) : (s.setCore c x).step = s.step := rfl
@[simp] theorem State.setCore_upds (c : Nat) (x : Core) : (s.setCore c x).upds = s.upds := rfl
@[simp] theorem State.setCore_sweeps (c : Nat) (x : Core) : (s.setCore c x).sweeps = s.sweeps := rfl
@[simp] theorem State.setCore_lens (c : Nat) (x : Core) : (s.setCore c x).lens = s.lens := rfl
@[simp] theorem State.setCore_images (c : Nat) (x : Core) : (s.setCore c x).images = s.images := rfl
@[simp] theorem State.setCore_groups (c : Nat) (x : Core) : (s.setCore c x).groups = s.groups := rfl
@[simp] theorem State.setCore_beam (c : Nat) (x : Core) : (s.setCore c x).beam = s.beam := rfl
@[simp] theorem State.setCore_mirror (c : Nat) (x : Core) : (s.setCore c x).mirror = s.mirror := rfl
@[simp] theorem State.setCore_binds (c : Nat) (x : Core) : (s.setCore c x).binds = s.binds := rfl
@[simp] theorem State.setCore_nports (c : Nat) (x : Core) : (s.setCore c x).nports = s.nports := rfl
@[simp] theorem State.setCore_host (c : Nat) (x : Core) : (s.setCore c x).host = s.host := rfl
@[simp] theorem State.setCore_sec (c : Nat) (x : Core) : (s.setCore c x).sec = s.sec := rfl
@[simp] theorem State.setCore_agents (c : Nat) (x : Core) : (s.setCore c x).agents = s.agents := rfl
@[simp] theorem State.setCore_ctls (c : Nat) (x : Core) : (s.setCore c x).ctls = s.ctls := rfl
@[simp] theorem State.setCore_srv (c : Nat) (x : Core) : (s.setCore c x).srv = s.srv := rfl
@[simp] theorem State.setCore_loupe (c : Nat) (x : Core) : (s.setCore c x).loupe = s.loupe := rfl

/-! `State.setUnit` changes units alone. -/
@[simp] theorem State.setUnit_pending (ty inst : Nat) (x : UnitRegs) : (s.setUnit ty inst x).pending = s.pending := rfl
@[simp] theorem State.setUnit_now (ty inst : Nat) (x : UnitRegs) : (s.setUnit ty inst x).now = s.now := rfl
@[simp] theorem State.setUnit_free (ty inst : Nat) (x : UnitRegs) : (s.setUnit ty inst x).free = s.free := rfl
@[simp] theorem State.setUnit_keys (ty inst : Nat) (x : UnitRegs) : (s.setUnit ty inst x).keys = s.keys := rfl
@[simp] theorem State.setUnit_sys (ty inst : Nat) (x : UnitRegs) : (s.setUnit ty inst x).sys = s.sys := rfl
@[simp] theorem State.setUnit_mbs (ty inst : Nat) (x : UnitRegs) : (s.setUnit ty inst x).mbs = s.mbs := rfl
@[simp] theorem State.setUnit_ctxs (ty inst : Nat) (x : UnitRegs) : (s.setUnit ty inst x).ctxs = s.ctxs := rfl
@[simp] theorem State.setUnit_ops (ty inst : Nat) (x : UnitRegs) : (s.setUnit ty inst x).ops = s.ops := rfl
@[simp] theorem State.setUnit_cfg (ty inst : Nat) (x : UnitRegs) : (s.setUnit ty inst x).cfg = s.cfg := rfl
@[simp] theorem State.setUnit_rings (ty inst : Nat) (x : UnitRegs) : (s.setUnit ty inst x).rings = s.rings := rfl
@[simp] theorem State.setUnit_cores (ty inst : Nat) (x : UnitRegs) : (s.setUnit ty inst x).cores = s.cores := rfl
@[simp] theorem State.setUnit_units (ty inst : Nat) (x : UnitRegs) : (s.setUnit ty inst x).units = SMap.set UnitRegs.init s.units (ukey ty inst) x := rfl
@[simp] theorem State.setUnit_mem (ty inst : Nat) (x : UnitRegs) : (s.setUnit ty inst x).mem = s.mem := rfl
@[simp] theorem State.setUnit_log (ty inst : Nat) (x : UnitRegs) : (s.setUnit ty inst x).log = s.log := rfl
@[simp] theorem State.setUnit_prings (ty inst : Nat) (x : UnitRegs) : (s.setUnit ty inst x).prings = s.prings := rfl
@[simp] theorem State.setUnit_chans (ty inst : Nat) (x : UnitRegs) : (s.setUnit ty inst x).chans = s.chans := rfl
@[simp] theorem State.setUnit_jobs (ty inst : Nat) (x : UnitRegs) : (s.setUnit ty inst x).jobs = s.jobs := rfl
@[simp] theorem State.setUnit_step (ty inst : Nat) (x : UnitRegs) : (s.setUnit ty inst x).step = s.step := rfl
@[simp] theorem State.setUnit_upds (ty inst : Nat) (x : UnitRegs) : (s.setUnit ty inst x).upds = s.upds := rfl
@[simp] theorem State.setUnit_sweeps (ty inst : Nat) (x : UnitRegs) : (s.setUnit ty inst x).sweeps = s.sweeps := rfl
@[simp] theorem State.setUnit_lens (ty inst : Nat) (x : UnitRegs) : (s.setUnit ty inst x).lens = s.lens := rfl
@[simp] theorem State.setUnit_images (ty inst : Nat) (x : UnitRegs) : (s.setUnit ty inst x).images = s.images := rfl
@[simp] theorem State.setUnit_groups (ty inst : Nat) (x : UnitRegs) : (s.setUnit ty inst x).groups = s.groups := rfl
@[simp] theorem State.setUnit_beam (ty inst : Nat) (x : UnitRegs) : (s.setUnit ty inst x).beam = s.beam := rfl
@[simp] theorem State.setUnit_mirror (ty inst : Nat) (x : UnitRegs) : (s.setUnit ty inst x).mirror = s.mirror := rfl
@[simp] theorem State.setUnit_binds (ty inst : Nat) (x : UnitRegs) : (s.setUnit ty inst x).binds = s.binds := rfl
@[simp] theorem State.setUnit_nports (ty inst : Nat) (x : UnitRegs) : (s.setUnit ty inst x).nports = s.nports := rfl
@[simp] theorem State.setUnit_host (ty inst : Nat) (x : UnitRegs) : (s.setUnit ty inst x).host = s.host := rfl
@[simp] theorem State.setUnit_sec (ty inst : Nat) (x : UnitRegs) : (s.setUnit ty inst x).sec = s.sec := rfl
@[simp] theorem State.setUnit_agents (ty inst : Nat) (x : UnitRegs) : (s.setUnit ty inst x).agents = s.agents := rfl
@[simp] theorem State.setUnit_ctls (ty inst : Nat) (x : UnitRegs) : (s.setUnit ty inst x).ctls = s.ctls := rfl
@[simp] theorem State.setUnit_srv (ty inst : Nat) (x : UnitRegs) : (s.setUnit ty inst x).srv = s.srv := rfl
@[simp] theorem State.setUnit_loupe (ty inst : Nat) (x : UnitRegs) : (s.setUnit ty inst x).loupe = s.loupe := rfl

/-! `State.setGroup` changes groups alone. -/
@[simp] theorem State.setGroup_pending (g : Nat) (x : Group) : (s.setGroup g x).pending = s.pending := rfl
@[simp] theorem State.setGroup_now (g : Nat) (x : Group) : (s.setGroup g x).now = s.now := rfl
@[simp] theorem State.setGroup_free (g : Nat) (x : Group) : (s.setGroup g x).free = s.free := rfl
@[simp] theorem State.setGroup_keys (g : Nat) (x : Group) : (s.setGroup g x).keys = s.keys := rfl
@[simp] theorem State.setGroup_sys (g : Nat) (x : Group) : (s.setGroup g x).sys = s.sys := rfl
@[simp] theorem State.setGroup_mbs (g : Nat) (x : Group) : (s.setGroup g x).mbs = s.mbs := rfl
@[simp] theorem State.setGroup_ctxs (g : Nat) (x : Group) : (s.setGroup g x).ctxs = s.ctxs := rfl
@[simp] theorem State.setGroup_ops (g : Nat) (x : Group) : (s.setGroup g x).ops = s.ops := rfl
@[simp] theorem State.setGroup_cfg (g : Nat) (x : Group) : (s.setGroup g x).cfg = s.cfg := rfl
@[simp] theorem State.setGroup_rings (g : Nat) (x : Group) : (s.setGroup g x).rings = s.rings := rfl
@[simp] theorem State.setGroup_cores (g : Nat) (x : Group) : (s.setGroup g x).cores = s.cores := rfl
@[simp] theorem State.setGroup_units (g : Nat) (x : Group) : (s.setGroup g x).units = s.units := rfl
@[simp] theorem State.setGroup_mem (g : Nat) (x : Group) : (s.setGroup g x).mem = s.mem := rfl
@[simp] theorem State.setGroup_log (g : Nat) (x : Group) : (s.setGroup g x).log = s.log := rfl
@[simp] theorem State.setGroup_prings (g : Nat) (x : Group) : (s.setGroup g x).prings = s.prings := rfl
@[simp] theorem State.setGroup_chans (g : Nat) (x : Group) : (s.setGroup g x).chans = s.chans := rfl
@[simp] theorem State.setGroup_jobs (g : Nat) (x : Group) : (s.setGroup g x).jobs = s.jobs := rfl
@[simp] theorem State.setGroup_step (g : Nat) (x : Group) : (s.setGroup g x).step = s.step := rfl
@[simp] theorem State.setGroup_upds (g : Nat) (x : Group) : (s.setGroup g x).upds = s.upds := rfl
@[simp] theorem State.setGroup_sweeps (g : Nat) (x : Group) : (s.setGroup g x).sweeps = s.sweeps := rfl
@[simp] theorem State.setGroup_lens (g : Nat) (x : Group) : (s.setGroup g x).lens = s.lens := rfl
@[simp] theorem State.setGroup_images (g : Nat) (x : Group) : (s.setGroup g x).images = s.images := rfl
@[simp] theorem State.setGroup_groups (g : Nat) (x : Group) : (s.setGroup g x).groups = SMap.set Group.init s.groups g x := rfl
@[simp] theorem State.setGroup_beam (g : Nat) (x : Group) : (s.setGroup g x).beam = s.beam := rfl
@[simp] theorem State.setGroup_mirror (g : Nat) (x : Group) : (s.setGroup g x).mirror = s.mirror := rfl
@[simp] theorem State.setGroup_binds (g : Nat) (x : Group) : (s.setGroup g x).binds = s.binds := rfl
@[simp] theorem State.setGroup_nports (g : Nat) (x : Group) : (s.setGroup g x).nports = s.nports := rfl
@[simp] theorem State.setGroup_host (g : Nat) (x : Group) : (s.setGroup g x).host = s.host := rfl
@[simp] theorem State.setGroup_sec (g : Nat) (x : Group) : (s.setGroup g x).sec = s.sec := rfl
@[simp] theorem State.setGroup_agents (g : Nat) (x : Group) : (s.setGroup g x).agents = s.agents := rfl
@[simp] theorem State.setGroup_ctls (g : Nat) (x : Group) : (s.setGroup g x).ctls = s.ctls := rfl
@[simp] theorem State.setGroup_srv (g : Nat) (x : Group) : (s.setGroup g x).srv = s.srv := rfl
@[simp] theorem State.setGroup_loupe (g : Nat) (x : Group) : (s.setGroup g x).loupe = s.loupe := rfl

/-! `State.setPring` changes prings alone. -/
@[simp] theorem State.setPring_pending (ch n : Nat) (x : PRing) : (s.setPring ch n x).pending = s.pending := rfl
@[simp] theorem State.setPring_now (ch n : Nat) (x : PRing) : (s.setPring ch n x).now = s.now := rfl
@[simp] theorem State.setPring_free (ch n : Nat) (x : PRing) : (s.setPring ch n x).free = s.free := rfl
@[simp] theorem State.setPring_keys (ch n : Nat) (x : PRing) : (s.setPring ch n x).keys = s.keys := rfl
@[simp] theorem State.setPring_sys (ch n : Nat) (x : PRing) : (s.setPring ch n x).sys = s.sys := rfl
@[simp] theorem State.setPring_mbs (ch n : Nat) (x : PRing) : (s.setPring ch n x).mbs = s.mbs := rfl
@[simp] theorem State.setPring_ctxs (ch n : Nat) (x : PRing) : (s.setPring ch n x).ctxs = s.ctxs := rfl
@[simp] theorem State.setPring_ops (ch n : Nat) (x : PRing) : (s.setPring ch n x).ops = s.ops := rfl
@[simp] theorem State.setPring_cfg (ch n : Nat) (x : PRing) : (s.setPring ch n x).cfg = s.cfg := rfl
@[simp] theorem State.setPring_rings (ch n : Nat) (x : PRing) : (s.setPring ch n x).rings = s.rings := rfl
@[simp] theorem State.setPring_cores (ch n : Nat) (x : PRing) : (s.setPring ch n x).cores = s.cores := rfl
@[simp] theorem State.setPring_units (ch n : Nat) (x : PRing) : (s.setPring ch n x).units = s.units := rfl
@[simp] theorem State.setPring_mem (ch n : Nat) (x : PRing) : (s.setPring ch n x).mem = s.mem := rfl
@[simp] theorem State.setPring_log (ch n : Nat) (x : PRing) : (s.setPring ch n x).log = s.log := rfl
@[simp] theorem State.setPring_chans (ch n : Nat) (x : PRing) : (s.setPring ch n x).chans = s.chans := rfl
@[simp] theorem State.setPring_jobs (ch n : Nat) (x : PRing) : (s.setPring ch n x).jobs = s.jobs := rfl
@[simp] theorem State.setPring_step (ch n : Nat) (x : PRing) : (s.setPring ch n x).step = s.step := rfl
@[simp] theorem State.setPring_upds (ch n : Nat) (x : PRing) : (s.setPring ch n x).upds = s.upds := rfl
@[simp] theorem State.setPring_sweeps (ch n : Nat) (x : PRing) : (s.setPring ch n x).sweeps = s.sweeps := rfl
@[simp] theorem State.setPring_lens (ch n : Nat) (x : PRing) : (s.setPring ch n x).lens = s.lens := rfl
@[simp] theorem State.setPring_images (ch n : Nat) (x : PRing) : (s.setPring ch n x).images = s.images := rfl
@[simp] theorem State.setPring_groups (ch n : Nat) (x : PRing) : (s.setPring ch n x).groups = s.groups := rfl
@[simp] theorem State.setPring_beam (ch n : Nat) (x : PRing) : (s.setPring ch n x).beam = s.beam := rfl
@[simp] theorem State.setPring_mirror (ch n : Nat) (x : PRing) : (s.setPring ch n x).mirror = s.mirror := rfl
@[simp] theorem State.setPring_binds (ch n : Nat) (x : PRing) : (s.setPring ch n x).binds = s.binds := rfl
@[simp] theorem State.setPring_nports (ch n : Nat) (x : PRing) : (s.setPring ch n x).nports = s.nports := rfl
@[simp] theorem State.setPring_host (ch n : Nat) (x : PRing) : (s.setPring ch n x).host = s.host := rfl
@[simp] theorem State.setPring_sec (ch n : Nat) (x : PRing) : (s.setPring ch n x).sec = s.sec := rfl
@[simp] theorem State.setPring_agents (ch n : Nat) (x : PRing) : (s.setPring ch n x).agents = s.agents := rfl
@[simp] theorem State.setPring_ctls (ch n : Nat) (x : PRing) : (s.setPring ch n x).ctls = s.ctls := rfl
@[simp] theorem State.setPring_srv (ch n : Nat) (x : PRing) : (s.setPring ch n x).srv = s.srv := rfl
@[simp] theorem State.setPring_loupe (ch n : Nat) (x : PRing) : (s.setPring ch n x).loupe = s.loupe := rfl

/-! `State.setChan` changes chans alone. -/
@[simp] theorem State.setChan_pending (ch : Nat) (x : Chan) : (s.setChan ch x).pending = s.pending := rfl
@[simp] theorem State.setChan_now (ch : Nat) (x : Chan) : (s.setChan ch x).now = s.now := rfl
@[simp] theorem State.setChan_free (ch : Nat) (x : Chan) : (s.setChan ch x).free = s.free := rfl
@[simp] theorem State.setChan_keys (ch : Nat) (x : Chan) : (s.setChan ch x).keys = s.keys := rfl
@[simp] theorem State.setChan_sys (ch : Nat) (x : Chan) : (s.setChan ch x).sys = s.sys := rfl
@[simp] theorem State.setChan_mbs (ch : Nat) (x : Chan) : (s.setChan ch x).mbs = s.mbs := rfl
@[simp] theorem State.setChan_ctxs (ch : Nat) (x : Chan) : (s.setChan ch x).ctxs = s.ctxs := rfl
@[simp] theorem State.setChan_ops (ch : Nat) (x : Chan) : (s.setChan ch x).ops = s.ops := rfl
@[simp] theorem State.setChan_cfg (ch : Nat) (x : Chan) : (s.setChan ch x).cfg = s.cfg := rfl
@[simp] theorem State.setChan_rings (ch : Nat) (x : Chan) : (s.setChan ch x).rings = s.rings := rfl
@[simp] theorem State.setChan_cores (ch : Nat) (x : Chan) : (s.setChan ch x).cores = s.cores := rfl
@[simp] theorem State.setChan_units (ch : Nat) (x : Chan) : (s.setChan ch x).units = s.units := rfl
@[simp] theorem State.setChan_mem (ch : Nat) (x : Chan) : (s.setChan ch x).mem = s.mem := rfl
@[simp] theorem State.setChan_log (ch : Nat) (x : Chan) : (s.setChan ch x).log = s.log := rfl
@[simp] theorem State.setChan_prings (ch : Nat) (x : Chan) : (s.setChan ch x).prings = s.prings := rfl
@[simp] theorem State.setChan_chans (ch : Nat) (x : Chan) : (s.setChan ch x).chans = SMap.set Chan.init s.chans ch x := rfl
@[simp] theorem State.setChan_jobs (ch : Nat) (x : Chan) : (s.setChan ch x).jobs = s.jobs := rfl
@[simp] theorem State.setChan_step (ch : Nat) (x : Chan) : (s.setChan ch x).step = s.step := rfl
@[simp] theorem State.setChan_upds (ch : Nat) (x : Chan) : (s.setChan ch x).upds = s.upds := rfl
@[simp] theorem State.setChan_sweeps (ch : Nat) (x : Chan) : (s.setChan ch x).sweeps = s.sweeps := rfl
@[simp] theorem State.setChan_lens (ch : Nat) (x : Chan) : (s.setChan ch x).lens = s.lens := rfl
@[simp] theorem State.setChan_images (ch : Nat) (x : Chan) : (s.setChan ch x).images = s.images := rfl
@[simp] theorem State.setChan_groups (ch : Nat) (x : Chan) : (s.setChan ch x).groups = s.groups := rfl
@[simp] theorem State.setChan_beam (ch : Nat) (x : Chan) : (s.setChan ch x).beam = s.beam := rfl
@[simp] theorem State.setChan_mirror (ch : Nat) (x : Chan) : (s.setChan ch x).mirror = s.mirror := rfl
@[simp] theorem State.setChan_binds (ch : Nat) (x : Chan) : (s.setChan ch x).binds = s.binds := rfl
@[simp] theorem State.setChan_nports (ch : Nat) (x : Chan) : (s.setChan ch x).nports = s.nports := rfl
@[simp] theorem State.setChan_host (ch : Nat) (x : Chan) : (s.setChan ch x).host = s.host := rfl
@[simp] theorem State.setChan_sec (ch : Nat) (x : Chan) : (s.setChan ch x).sec = s.sec := rfl
@[simp] theorem State.setChan_agents (ch : Nat) (x : Chan) : (s.setChan ch x).agents = s.agents := rfl
@[simp] theorem State.setChan_ctls (ch : Nat) (x : Chan) : (s.setChan ch x).ctls = s.ctls := rfl
@[simp] theorem State.setChan_srv (ch : Nat) (x : Chan) : (s.setChan ch x).srv = s.srv := rfl
@[simp] theorem State.setChan_loupe (ch : Nat) (x : Chan) : (s.setChan ch x).loupe = s.loupe := rfl

/-! `State.setJob` changes jobs alone. -/
@[simp] theorem State.setJob_pending (j : Nat) (x : Job) : (s.setJob j x).pending = s.pending := rfl
@[simp] theorem State.setJob_now (j : Nat) (x : Job) : (s.setJob j x).now = s.now := rfl
@[simp] theorem State.setJob_free (j : Nat) (x : Job) : (s.setJob j x).free = s.free := rfl
@[simp] theorem State.setJob_keys (j : Nat) (x : Job) : (s.setJob j x).keys = s.keys := rfl
@[simp] theorem State.setJob_sys (j : Nat) (x : Job) : (s.setJob j x).sys = s.sys := rfl
@[simp] theorem State.setJob_mbs (j : Nat) (x : Job) : (s.setJob j x).mbs = s.mbs := rfl
@[simp] theorem State.setJob_ctxs (j : Nat) (x : Job) : (s.setJob j x).ctxs = s.ctxs := rfl
@[simp] theorem State.setJob_ops (j : Nat) (x : Job) : (s.setJob j x).ops = s.ops := rfl
@[simp] theorem State.setJob_cfg (j : Nat) (x : Job) : (s.setJob j x).cfg = s.cfg := rfl
@[simp] theorem State.setJob_rings (j : Nat) (x : Job) : (s.setJob j x).rings = s.rings := rfl
@[simp] theorem State.setJob_cores (j : Nat) (x : Job) : (s.setJob j x).cores = s.cores := rfl
@[simp] theorem State.setJob_units (j : Nat) (x : Job) : (s.setJob j x).units = s.units := rfl
@[simp] theorem State.setJob_mem (j : Nat) (x : Job) : (s.setJob j x).mem = s.mem := rfl
@[simp] theorem State.setJob_log (j : Nat) (x : Job) : (s.setJob j x).log = s.log := rfl
@[simp] theorem State.setJob_prings (j : Nat) (x : Job) : (s.setJob j x).prings = s.prings := rfl
@[simp] theorem State.setJob_chans (j : Nat) (x : Job) : (s.setJob j x).chans = s.chans := rfl
@[simp] theorem State.setJob_jobs (j : Nat) (x : Job) : (s.setJob j x).jobs = SMap.set Job.init s.jobs j x := rfl
@[simp] theorem State.setJob_step (j : Nat) (x : Job) : (s.setJob j x).step = s.step := rfl
@[simp] theorem State.setJob_upds (j : Nat) (x : Job) : (s.setJob j x).upds = s.upds := rfl
@[simp] theorem State.setJob_sweeps (j : Nat) (x : Job) : (s.setJob j x).sweeps = s.sweeps := rfl
@[simp] theorem State.setJob_lens (j : Nat) (x : Job) : (s.setJob j x).lens = s.lens := rfl
@[simp] theorem State.setJob_images (j : Nat) (x : Job) : (s.setJob j x).images = s.images := rfl
@[simp] theorem State.setJob_groups (j : Nat) (x : Job) : (s.setJob j x).groups = s.groups := rfl
@[simp] theorem State.setJob_beam (j : Nat) (x : Job) : (s.setJob j x).beam = s.beam := rfl
@[simp] theorem State.setJob_mirror (j : Nat) (x : Job) : (s.setJob j x).mirror = s.mirror := rfl
@[simp] theorem State.setJob_binds (j : Nat) (x : Job) : (s.setJob j x).binds = s.binds := rfl
@[simp] theorem State.setJob_nports (j : Nat) (x : Job) : (s.setJob j x).nports = s.nports := rfl
@[simp] theorem State.setJob_host (j : Nat) (x : Job) : (s.setJob j x).host = s.host := rfl
@[simp] theorem State.setJob_sec (j : Nat) (x : Job) : (s.setJob j x).sec = s.sec := rfl
@[simp] theorem State.setJob_agents (j : Nat) (x : Job) : (s.setJob j x).agents = s.agents := rfl
@[simp] theorem State.setJob_ctls (j : Nat) (x : Job) : (s.setJob j x).ctls = s.ctls := rfl
@[simp] theorem State.setJob_srv (j : Nat) (x : Job) : (s.setJob j x).srv = s.srv := rfl
@[simp] theorem State.setJob_loupe (j : Nat) (x : Job) : (s.setJob j x).loupe = s.loupe := rfl

/-! `State.setUpd` changes upds alone. -/
@[simp] theorem State.setUpd_pending (u : Nat) (x : Upd) : (s.setUpd u x).pending = s.pending := rfl
@[simp] theorem State.setUpd_now (u : Nat) (x : Upd) : (s.setUpd u x).now = s.now := rfl
@[simp] theorem State.setUpd_free (u : Nat) (x : Upd) : (s.setUpd u x).free = s.free := rfl
@[simp] theorem State.setUpd_keys (u : Nat) (x : Upd) : (s.setUpd u x).keys = s.keys := rfl
@[simp] theorem State.setUpd_sys (u : Nat) (x : Upd) : (s.setUpd u x).sys = s.sys := rfl
@[simp] theorem State.setUpd_mbs (u : Nat) (x : Upd) : (s.setUpd u x).mbs = s.mbs := rfl
@[simp] theorem State.setUpd_ctxs (u : Nat) (x : Upd) : (s.setUpd u x).ctxs = s.ctxs := rfl
@[simp] theorem State.setUpd_ops (u : Nat) (x : Upd) : (s.setUpd u x).ops = s.ops := rfl
@[simp] theorem State.setUpd_cfg (u : Nat) (x : Upd) : (s.setUpd u x).cfg = s.cfg := rfl
@[simp] theorem State.setUpd_rings (u : Nat) (x : Upd) : (s.setUpd u x).rings = s.rings := rfl
@[simp] theorem State.setUpd_cores (u : Nat) (x : Upd) : (s.setUpd u x).cores = s.cores := rfl
@[simp] theorem State.setUpd_units (u : Nat) (x : Upd) : (s.setUpd u x).units = s.units := rfl
@[simp] theorem State.setUpd_mem (u : Nat) (x : Upd) : (s.setUpd u x).mem = s.mem := rfl
@[simp] theorem State.setUpd_log (u : Nat) (x : Upd) : (s.setUpd u x).log = s.log := rfl
@[simp] theorem State.setUpd_prings (u : Nat) (x : Upd) : (s.setUpd u x).prings = s.prings := rfl
@[simp] theorem State.setUpd_chans (u : Nat) (x : Upd) : (s.setUpd u x).chans = s.chans := rfl
@[simp] theorem State.setUpd_jobs (u : Nat) (x : Upd) : (s.setUpd u x).jobs = s.jobs := rfl
@[simp] theorem State.setUpd_step (u : Nat) (x : Upd) : (s.setUpd u x).step = s.step := rfl
@[simp] theorem State.setUpd_upds (u : Nat) (x : Upd) : (s.setUpd u x).upds = SMap.set Upd.init s.upds u x := rfl
@[simp] theorem State.setUpd_sweeps (u : Nat) (x : Upd) : (s.setUpd u x).sweeps = s.sweeps := rfl
@[simp] theorem State.setUpd_lens (u : Nat) (x : Upd) : (s.setUpd u x).lens = s.lens := rfl
@[simp] theorem State.setUpd_images (u : Nat) (x : Upd) : (s.setUpd u x).images = s.images := rfl
@[simp] theorem State.setUpd_groups (u : Nat) (x : Upd) : (s.setUpd u x).groups = s.groups := rfl
@[simp] theorem State.setUpd_beam (u : Nat) (x : Upd) : (s.setUpd u x).beam = s.beam := rfl
@[simp] theorem State.setUpd_mirror (u : Nat) (x : Upd) : (s.setUpd u x).mirror = s.mirror := rfl
@[simp] theorem State.setUpd_binds (u : Nat) (x : Upd) : (s.setUpd u x).binds = s.binds := rfl
@[simp] theorem State.setUpd_nports (u : Nat) (x : Upd) : (s.setUpd u x).nports = s.nports := rfl
@[simp] theorem State.setUpd_host (u : Nat) (x : Upd) : (s.setUpd u x).host = s.host := rfl
@[simp] theorem State.setUpd_sec (u : Nat) (x : Upd) : (s.setUpd u x).sec = s.sec := rfl
@[simp] theorem State.setUpd_agents (u : Nat) (x : Upd) : (s.setUpd u x).agents = s.agents := rfl
@[simp] theorem State.setUpd_ctls (u : Nat) (x : Upd) : (s.setUpd u x).ctls = s.ctls := rfl
@[simp] theorem State.setUpd_srv (u : Nat) (x : Upd) : (s.setUpd u x).srv = s.srv := rfl
@[simp] theorem State.setUpd_loupe (u : Nat) (x : Upd) : (s.setUpd u x).loupe = s.loupe := rfl

/-! `State.setImage` changes images alone. -/
@[simp] theorem State.setImage_pending (h : Nat) (x : Image) : (s.setImage h x).pending = s.pending := rfl
@[simp] theorem State.setImage_now (h : Nat) (x : Image) : (s.setImage h x).now = s.now := rfl
@[simp] theorem State.setImage_free (h : Nat) (x : Image) : (s.setImage h x).free = s.free := rfl
@[simp] theorem State.setImage_keys (h : Nat) (x : Image) : (s.setImage h x).keys = s.keys := rfl
@[simp] theorem State.setImage_sys (h : Nat) (x : Image) : (s.setImage h x).sys = s.sys := rfl
@[simp] theorem State.setImage_mbs (h : Nat) (x : Image) : (s.setImage h x).mbs = s.mbs := rfl
@[simp] theorem State.setImage_ctxs (h : Nat) (x : Image) : (s.setImage h x).ctxs = s.ctxs := rfl
@[simp] theorem State.setImage_ops (h : Nat) (x : Image) : (s.setImage h x).ops = s.ops := rfl
@[simp] theorem State.setImage_cfg (h : Nat) (x : Image) : (s.setImage h x).cfg = s.cfg := rfl
@[simp] theorem State.setImage_rings (h : Nat) (x : Image) : (s.setImage h x).rings = s.rings := rfl
@[simp] theorem State.setImage_cores (h : Nat) (x : Image) : (s.setImage h x).cores = s.cores := rfl
@[simp] theorem State.setImage_units (h : Nat) (x : Image) : (s.setImage h x).units = s.units := rfl
@[simp] theorem State.setImage_mem (h : Nat) (x : Image) : (s.setImage h x).mem = s.mem := rfl
@[simp] theorem State.setImage_log (h : Nat) (x : Image) : (s.setImage h x).log = s.log := rfl
@[simp] theorem State.setImage_prings (h : Nat) (x : Image) : (s.setImage h x).prings = s.prings := rfl
@[simp] theorem State.setImage_chans (h : Nat) (x : Image) : (s.setImage h x).chans = s.chans := rfl
@[simp] theorem State.setImage_jobs (h : Nat) (x : Image) : (s.setImage h x).jobs = s.jobs := rfl
@[simp] theorem State.setImage_step (h : Nat) (x : Image) : (s.setImage h x).step = s.step := rfl
@[simp] theorem State.setImage_upds (h : Nat) (x : Image) : (s.setImage h x).upds = s.upds := rfl
@[simp] theorem State.setImage_sweeps (h : Nat) (x : Image) : (s.setImage h x).sweeps = s.sweeps := rfl
@[simp] theorem State.setImage_lens (h : Nat) (x : Image) : (s.setImage h x).lens = s.lens := rfl
@[simp] theorem State.setImage_images (h : Nat) (x : Image) : (s.setImage h x).images = SMap.set Image.init s.images h x := rfl
@[simp] theorem State.setImage_groups (h : Nat) (x : Image) : (s.setImage h x).groups = s.groups := rfl
@[simp] theorem State.setImage_beam (h : Nat) (x : Image) : (s.setImage h x).beam = s.beam := rfl
@[simp] theorem State.setImage_mirror (h : Nat) (x : Image) : (s.setImage h x).mirror = s.mirror := rfl
@[simp] theorem State.setImage_binds (h : Nat) (x : Image) : (s.setImage h x).binds = s.binds := rfl
@[simp] theorem State.setImage_nports (h : Nat) (x : Image) : (s.setImage h x).nports = s.nports := rfl
@[simp] theorem State.setImage_host (h : Nat) (x : Image) : (s.setImage h x).host = s.host := rfl
@[simp] theorem State.setImage_sec (h : Nat) (x : Image) : (s.setImage h x).sec = s.sec := rfl
@[simp] theorem State.setImage_agents (h : Nat) (x : Image) : (s.setImage h x).agents = s.agents := rfl
@[simp] theorem State.setImage_ctls (h : Nat) (x : Image) : (s.setImage h x).ctls = s.ctls := rfl
@[simp] theorem State.setImage_srv (h : Nat) (x : Image) : (s.setImage h x).srv = s.srv := rfl
@[simp] theorem State.setImage_loupe (h : Nat) (x : Image) : (s.setImage h x).loupe = s.loupe := rfl

/-! `State.setBind` changes binds alone. -/
@[simp] theorem State.setBind_pending (b : Nat) (x : NetBind) : (s.setBind b x).pending = s.pending := rfl
@[simp] theorem State.setBind_now (b : Nat) (x : NetBind) : (s.setBind b x).now = s.now := rfl
@[simp] theorem State.setBind_free (b : Nat) (x : NetBind) : (s.setBind b x).free = s.free := rfl
@[simp] theorem State.setBind_keys (b : Nat) (x : NetBind) : (s.setBind b x).keys = s.keys := rfl
@[simp] theorem State.setBind_sys (b : Nat) (x : NetBind) : (s.setBind b x).sys = s.sys := rfl
@[simp] theorem State.setBind_mbs (b : Nat) (x : NetBind) : (s.setBind b x).mbs = s.mbs := rfl
@[simp] theorem State.setBind_ctxs (b : Nat) (x : NetBind) : (s.setBind b x).ctxs = s.ctxs := rfl
@[simp] theorem State.setBind_ops (b : Nat) (x : NetBind) : (s.setBind b x).ops = s.ops := rfl
@[simp] theorem State.setBind_cfg (b : Nat) (x : NetBind) : (s.setBind b x).cfg = s.cfg := rfl
@[simp] theorem State.setBind_rings (b : Nat) (x : NetBind) : (s.setBind b x).rings = s.rings := rfl
@[simp] theorem State.setBind_cores (b : Nat) (x : NetBind) : (s.setBind b x).cores = s.cores := rfl
@[simp] theorem State.setBind_units (b : Nat) (x : NetBind) : (s.setBind b x).units = s.units := rfl
@[simp] theorem State.setBind_mem (b : Nat) (x : NetBind) : (s.setBind b x).mem = s.mem := rfl
@[simp] theorem State.setBind_log (b : Nat) (x : NetBind) : (s.setBind b x).log = s.log := rfl
@[simp] theorem State.setBind_prings (b : Nat) (x : NetBind) : (s.setBind b x).prings = s.prings := rfl
@[simp] theorem State.setBind_chans (b : Nat) (x : NetBind) : (s.setBind b x).chans = s.chans := rfl
@[simp] theorem State.setBind_jobs (b : Nat) (x : NetBind) : (s.setBind b x).jobs = s.jobs := rfl
@[simp] theorem State.setBind_step (b : Nat) (x : NetBind) : (s.setBind b x).step = s.step := rfl
@[simp] theorem State.setBind_upds (b : Nat) (x : NetBind) : (s.setBind b x).upds = s.upds := rfl
@[simp] theorem State.setBind_sweeps (b : Nat) (x : NetBind) : (s.setBind b x).sweeps = s.sweeps := rfl
@[simp] theorem State.setBind_lens (b : Nat) (x : NetBind) : (s.setBind b x).lens = s.lens := rfl
@[simp] theorem State.setBind_images (b : Nat) (x : NetBind) : (s.setBind b x).images = s.images := rfl
@[simp] theorem State.setBind_groups (b : Nat) (x : NetBind) : (s.setBind b x).groups = s.groups := rfl
@[simp] theorem State.setBind_beam (b : Nat) (x : NetBind) : (s.setBind b x).beam = s.beam := rfl
@[simp] theorem State.setBind_mirror (b : Nat) (x : NetBind) : (s.setBind b x).mirror = s.mirror := rfl
@[simp] theorem State.setBind_binds (b : Nat) (x : NetBind) : (s.setBind b x).binds = SMap.set NetBind.init s.binds b x := rfl
@[simp] theorem State.setBind_nports (b : Nat) (x : NetBind) : (s.setBind b x).nports = s.nports := rfl
@[simp] theorem State.setBind_host (b : Nat) (x : NetBind) : (s.setBind b x).host = s.host := rfl
@[simp] theorem State.setBind_sec (b : Nat) (x : NetBind) : (s.setBind b x).sec = s.sec := rfl
@[simp] theorem State.setBind_agents (b : Nat) (x : NetBind) : (s.setBind b x).agents = s.agents := rfl
@[simp] theorem State.setBind_ctls (b : Nat) (x : NetBind) : (s.setBind b x).ctls = s.ctls := rfl
@[simp] theorem State.setBind_srv (b : Nat) (x : NetBind) : (s.setBind b x).srv = s.srv := rfl
@[simp] theorem State.setBind_loupe (b : Nat) (x : NetBind) : (s.setBind b x).loupe = s.loupe := rfl

/-! `State.setAgent` changes agents alone. -/
@[simp] theorem State.setAgent_pending (n : Nat) (x : Agent) : (s.setAgent n x).pending = s.pending := rfl
@[simp] theorem State.setAgent_now (n : Nat) (x : Agent) : (s.setAgent n x).now = s.now := rfl
@[simp] theorem State.setAgent_free (n : Nat) (x : Agent) : (s.setAgent n x).free = s.free := rfl
@[simp] theorem State.setAgent_keys (n : Nat) (x : Agent) : (s.setAgent n x).keys = s.keys := rfl
@[simp] theorem State.setAgent_sys (n : Nat) (x : Agent) : (s.setAgent n x).sys = s.sys := rfl
@[simp] theorem State.setAgent_mbs (n : Nat) (x : Agent) : (s.setAgent n x).mbs = s.mbs := rfl
@[simp] theorem State.setAgent_ctxs (n : Nat) (x : Agent) : (s.setAgent n x).ctxs = s.ctxs := rfl
@[simp] theorem State.setAgent_ops (n : Nat) (x : Agent) : (s.setAgent n x).ops = s.ops := rfl
@[simp] theorem State.setAgent_cfg (n : Nat) (x : Agent) : (s.setAgent n x).cfg = s.cfg := rfl
@[simp] theorem State.setAgent_rings (n : Nat) (x : Agent) : (s.setAgent n x).rings = s.rings := rfl
@[simp] theorem State.setAgent_cores (n : Nat) (x : Agent) : (s.setAgent n x).cores = s.cores := rfl
@[simp] theorem State.setAgent_units (n : Nat) (x : Agent) : (s.setAgent n x).units = s.units := rfl
@[simp] theorem State.setAgent_mem (n : Nat) (x : Agent) : (s.setAgent n x).mem = s.mem := rfl
@[simp] theorem State.setAgent_log (n : Nat) (x : Agent) : (s.setAgent n x).log = s.log := rfl
@[simp] theorem State.setAgent_prings (n : Nat) (x : Agent) : (s.setAgent n x).prings = s.prings := rfl
@[simp] theorem State.setAgent_chans (n : Nat) (x : Agent) : (s.setAgent n x).chans = s.chans := rfl
@[simp] theorem State.setAgent_jobs (n : Nat) (x : Agent) : (s.setAgent n x).jobs = s.jobs := rfl
@[simp] theorem State.setAgent_step (n : Nat) (x : Agent) : (s.setAgent n x).step = s.step := rfl
@[simp] theorem State.setAgent_upds (n : Nat) (x : Agent) : (s.setAgent n x).upds = s.upds := rfl
@[simp] theorem State.setAgent_sweeps (n : Nat) (x : Agent) : (s.setAgent n x).sweeps = s.sweeps := rfl
@[simp] theorem State.setAgent_lens (n : Nat) (x : Agent) : (s.setAgent n x).lens = s.lens := rfl
@[simp] theorem State.setAgent_images (n : Nat) (x : Agent) : (s.setAgent n x).images = s.images := rfl
@[simp] theorem State.setAgent_groups (n : Nat) (x : Agent) : (s.setAgent n x).groups = s.groups := rfl
@[simp] theorem State.setAgent_beam (n : Nat) (x : Agent) : (s.setAgent n x).beam = s.beam := rfl
@[simp] theorem State.setAgent_mirror (n : Nat) (x : Agent) : (s.setAgent n x).mirror = s.mirror := rfl
@[simp] theorem State.setAgent_binds (n : Nat) (x : Agent) : (s.setAgent n x).binds = s.binds := rfl
@[simp] theorem State.setAgent_nports (n : Nat) (x : Agent) : (s.setAgent n x).nports = s.nports := rfl
@[simp] theorem State.setAgent_host (n : Nat) (x : Agent) : (s.setAgent n x).host = s.host := rfl
@[simp] theorem State.setAgent_sec (n : Nat) (x : Agent) : (s.setAgent n x).sec = s.sec := rfl
@[simp] theorem State.setAgent_agents (n : Nat) (x : Agent) : (s.setAgent n x).agents = SMap.set Agent.init s.agents n x := rfl
@[simp] theorem State.setAgent_ctls (n : Nat) (x : Agent) : (s.setAgent n x).ctls = s.ctls := rfl
@[simp] theorem State.setAgent_srv (n : Nat) (x : Agent) : (s.setAgent n x).srv = s.srv := rfl
@[simp] theorem State.setAgent_loupe (n : Nat) (x : Agent) : (s.setAgent n x).loupe = s.loupe := rfl

/-! `State.setCkpt` changes mirror alone. -/
@[simp] theorem State.setCkpt_pending (n : Nat) (x : Ckpt) : (s.setCkpt n x).pending = s.pending := rfl
@[simp] theorem State.setCkpt_now (n : Nat) (x : Ckpt) : (s.setCkpt n x).now = s.now := rfl
@[simp] theorem State.setCkpt_free (n : Nat) (x : Ckpt) : (s.setCkpt n x).free = s.free := rfl
@[simp] theorem State.setCkpt_keys (n : Nat) (x : Ckpt) : (s.setCkpt n x).keys = s.keys := rfl
@[simp] theorem State.setCkpt_sys (n : Nat) (x : Ckpt) : (s.setCkpt n x).sys = s.sys := rfl
@[simp] theorem State.setCkpt_mbs (n : Nat) (x : Ckpt) : (s.setCkpt n x).mbs = s.mbs := rfl
@[simp] theorem State.setCkpt_ctxs (n : Nat) (x : Ckpt) : (s.setCkpt n x).ctxs = s.ctxs := rfl
@[simp] theorem State.setCkpt_ops (n : Nat) (x : Ckpt) : (s.setCkpt n x).ops = s.ops := rfl
@[simp] theorem State.setCkpt_cfg (n : Nat) (x : Ckpt) : (s.setCkpt n x).cfg = s.cfg := rfl
@[simp] theorem State.setCkpt_rings (n : Nat) (x : Ckpt) : (s.setCkpt n x).rings = s.rings := rfl
@[simp] theorem State.setCkpt_cores (n : Nat) (x : Ckpt) : (s.setCkpt n x).cores = s.cores := rfl
@[simp] theorem State.setCkpt_units (n : Nat) (x : Ckpt) : (s.setCkpt n x).units = s.units := rfl
@[simp] theorem State.setCkpt_mem (n : Nat) (x : Ckpt) : (s.setCkpt n x).mem = s.mem := rfl
@[simp] theorem State.setCkpt_log (n : Nat) (x : Ckpt) : (s.setCkpt n x).log = s.log := rfl
@[simp] theorem State.setCkpt_prings (n : Nat) (x : Ckpt) : (s.setCkpt n x).prings = s.prings := rfl
@[simp] theorem State.setCkpt_chans (n : Nat) (x : Ckpt) : (s.setCkpt n x).chans = s.chans := rfl
@[simp] theorem State.setCkpt_jobs (n : Nat) (x : Ckpt) : (s.setCkpt n x).jobs = s.jobs := rfl
@[simp] theorem State.setCkpt_step (n : Nat) (x : Ckpt) : (s.setCkpt n x).step = s.step := rfl
@[simp] theorem State.setCkpt_upds (n : Nat) (x : Ckpt) : (s.setCkpt n x).upds = s.upds := rfl
@[simp] theorem State.setCkpt_sweeps (n : Nat) (x : Ckpt) : (s.setCkpt n x).sweeps = s.sweeps := rfl
@[simp] theorem State.setCkpt_lens (n : Nat) (x : Ckpt) : (s.setCkpt n x).lens = s.lens := rfl
@[simp] theorem State.setCkpt_images (n : Nat) (x : Ckpt) : (s.setCkpt n x).images = s.images := rfl
@[simp] theorem State.setCkpt_groups (n : Nat) (x : Ckpt) : (s.setCkpt n x).groups = s.groups := rfl
@[simp] theorem State.setCkpt_beam (n : Nat) (x : Ckpt) : (s.setCkpt n x).beam = s.beam := rfl
@[simp] theorem State.setCkpt_binds (n : Nat) (x : Ckpt) : (s.setCkpt n x).binds = s.binds := rfl
@[simp] theorem State.setCkpt_nports (n : Nat) (x : Ckpt) : (s.setCkpt n x).nports = s.nports := rfl
@[simp] theorem State.setCkpt_host (n : Nat) (x : Ckpt) : (s.setCkpt n x).host = s.host := rfl
@[simp] theorem State.setCkpt_sec (n : Nat) (x : Ckpt) : (s.setCkpt n x).sec = s.sec := rfl
@[simp] theorem State.setCkpt_agents (n : Nat) (x : Ckpt) : (s.setCkpt n x).agents = s.agents := rfl
@[simp] theorem State.setCkpt_ctls (n : Nat) (x : Ckpt) : (s.setCkpt n x).ctls = s.ctls := rfl
@[simp] theorem State.setCkpt_srv (n : Nat) (x : Ckpt) : (s.setCkpt n x).srv = s.srv := rfl
@[simp] theorem State.setCkpt_loupe (n : Nat) (x : Ckpt) : (s.setCkpt n x).loupe = s.loupe := rfl

/-! `State.setLensTask` changes lens alone. -/
@[simp] theorem State.setLensTask_pending (j : Nat) (x : LensTask) : (s.setLensTask j x).pending = s.pending := rfl
@[simp] theorem State.setLensTask_now (j : Nat) (x : LensTask) : (s.setLensTask j x).now = s.now := rfl
@[simp] theorem State.setLensTask_free (j : Nat) (x : LensTask) : (s.setLensTask j x).free = s.free := rfl
@[simp] theorem State.setLensTask_keys (j : Nat) (x : LensTask) : (s.setLensTask j x).keys = s.keys := rfl
@[simp] theorem State.setLensTask_sys (j : Nat) (x : LensTask) : (s.setLensTask j x).sys = s.sys := rfl
@[simp] theorem State.setLensTask_mbs (j : Nat) (x : LensTask) : (s.setLensTask j x).mbs = s.mbs := rfl
@[simp] theorem State.setLensTask_ctxs (j : Nat) (x : LensTask) : (s.setLensTask j x).ctxs = s.ctxs := rfl
@[simp] theorem State.setLensTask_ops (j : Nat) (x : LensTask) : (s.setLensTask j x).ops = s.ops := rfl
@[simp] theorem State.setLensTask_cfg (j : Nat) (x : LensTask) : (s.setLensTask j x).cfg = s.cfg := rfl
@[simp] theorem State.setLensTask_rings (j : Nat) (x : LensTask) : (s.setLensTask j x).rings = s.rings := rfl
@[simp] theorem State.setLensTask_cores (j : Nat) (x : LensTask) : (s.setLensTask j x).cores = s.cores := rfl
@[simp] theorem State.setLensTask_units (j : Nat) (x : LensTask) : (s.setLensTask j x).units = s.units := rfl
@[simp] theorem State.setLensTask_mem (j : Nat) (x : LensTask) : (s.setLensTask j x).mem = s.mem := rfl
@[simp] theorem State.setLensTask_log (j : Nat) (x : LensTask) : (s.setLensTask j x).log = s.log := rfl
@[simp] theorem State.setLensTask_prings (j : Nat) (x : LensTask) : (s.setLensTask j x).prings = s.prings := rfl
@[simp] theorem State.setLensTask_chans (j : Nat) (x : LensTask) : (s.setLensTask j x).chans = s.chans := rfl
@[simp] theorem State.setLensTask_jobs (j : Nat) (x : LensTask) : (s.setLensTask j x).jobs = s.jobs := rfl
@[simp] theorem State.setLensTask_step (j : Nat) (x : LensTask) : (s.setLensTask j x).step = s.step := rfl
@[simp] theorem State.setLensTask_upds (j : Nat) (x : LensTask) : (s.setLensTask j x).upds = s.upds := rfl
@[simp] theorem State.setLensTask_sweeps (j : Nat) (x : LensTask) : (s.setLensTask j x).sweeps = s.sweeps := rfl
@[simp] theorem State.setLensTask_lens (j : Nat) (x : LensTask) : (s.setLensTask j x).lens = SMap.set LensTask.init s.lens j x := rfl
@[simp] theorem State.setLensTask_images (j : Nat) (x : LensTask) : (s.setLensTask j x).images = s.images := rfl
@[simp] theorem State.setLensTask_groups (j : Nat) (x : LensTask) : (s.setLensTask j x).groups = s.groups := rfl
@[simp] theorem State.setLensTask_beam (j : Nat) (x : LensTask) : (s.setLensTask j x).beam = s.beam := rfl
@[simp] theorem State.setLensTask_mirror (j : Nat) (x : LensTask) : (s.setLensTask j x).mirror = s.mirror := rfl
@[simp] theorem State.setLensTask_binds (j : Nat) (x : LensTask) : (s.setLensTask j x).binds = s.binds := rfl
@[simp] theorem State.setLensTask_nports (j : Nat) (x : LensTask) : (s.setLensTask j x).nports = s.nports := rfl
@[simp] theorem State.setLensTask_host (j : Nat) (x : LensTask) : (s.setLensTask j x).host = s.host := rfl
@[simp] theorem State.setLensTask_sec (j : Nat) (x : LensTask) : (s.setLensTask j x).sec = s.sec := rfl
@[simp] theorem State.setLensTask_agents (j : Nat) (x : LensTask) : (s.setLensTask j x).agents = s.agents := rfl
@[simp] theorem State.setLensTask_ctls (j : Nat) (x : LensTask) : (s.setLensTask j x).ctls = s.ctls := rfl
@[simp] theorem State.setLensTask_srv (j : Nat) (x : LensTask) : (s.setLensTask j x).srv = s.srv := rfl
@[simp] theorem State.setLensTask_loupe (j : Nat) (x : LensTask) : (s.setLensTask j x).loupe = s.loupe := rfl

/-! `State.setNport` changes nports alone. -/
@[simp] theorem State.setNport_pending (p : Nat) (x : NetPort) : (s.setNport p x).pending = s.pending := rfl
@[simp] theorem State.setNport_now (p : Nat) (x : NetPort) : (s.setNport p x).now = s.now := rfl
@[simp] theorem State.setNport_free (p : Nat) (x : NetPort) : (s.setNport p x).free = s.free := rfl
@[simp] theorem State.setNport_keys (p : Nat) (x : NetPort) : (s.setNport p x).keys = s.keys := rfl
@[simp] theorem State.setNport_sys (p : Nat) (x : NetPort) : (s.setNport p x).sys = s.sys := rfl
@[simp] theorem State.setNport_mbs (p : Nat) (x : NetPort) : (s.setNport p x).mbs = s.mbs := rfl
@[simp] theorem State.setNport_ctxs (p : Nat) (x : NetPort) : (s.setNport p x).ctxs = s.ctxs := rfl
@[simp] theorem State.setNport_ops (p : Nat) (x : NetPort) : (s.setNport p x).ops = s.ops := rfl
@[simp] theorem State.setNport_cfg (p : Nat) (x : NetPort) : (s.setNport p x).cfg = s.cfg := rfl
@[simp] theorem State.setNport_rings (p : Nat) (x : NetPort) : (s.setNport p x).rings = s.rings := rfl
@[simp] theorem State.setNport_cores (p : Nat) (x : NetPort) : (s.setNport p x).cores = s.cores := rfl
@[simp] theorem State.setNport_units (p : Nat) (x : NetPort) : (s.setNport p x).units = s.units := rfl
@[simp] theorem State.setNport_mem (p : Nat) (x : NetPort) : (s.setNport p x).mem = s.mem := rfl
@[simp] theorem State.setNport_log (p : Nat) (x : NetPort) : (s.setNport p x).log = s.log := rfl
@[simp] theorem State.setNport_prings (p : Nat) (x : NetPort) : (s.setNport p x).prings = s.prings := rfl
@[simp] theorem State.setNport_chans (p : Nat) (x : NetPort) : (s.setNport p x).chans = s.chans := rfl
@[simp] theorem State.setNport_jobs (p : Nat) (x : NetPort) : (s.setNport p x).jobs = s.jobs := rfl
@[simp] theorem State.setNport_step (p : Nat) (x : NetPort) : (s.setNport p x).step = s.step := rfl
@[simp] theorem State.setNport_upds (p : Nat) (x : NetPort) : (s.setNport p x).upds = s.upds := rfl
@[simp] theorem State.setNport_sweeps (p : Nat) (x : NetPort) : (s.setNport p x).sweeps = s.sweeps := rfl
@[simp] theorem State.setNport_lens (p : Nat) (x : NetPort) : (s.setNport p x).lens = s.lens := rfl
@[simp] theorem State.setNport_images (p : Nat) (x : NetPort) : (s.setNport p x).images = s.images := rfl
@[simp] theorem State.setNport_groups (p : Nat) (x : NetPort) : (s.setNport p x).groups = s.groups := rfl
@[simp] theorem State.setNport_beam (p : Nat) (x : NetPort) : (s.setNport p x).beam = s.beam := rfl
@[simp] theorem State.setNport_mirror (p : Nat) (x : NetPort) : (s.setNport p x).mirror = s.mirror := rfl
@[simp] theorem State.setNport_binds (p : Nat) (x : NetPort) : (s.setNport p x).binds = s.binds := rfl
@[simp] theorem State.setNport_nports (p : Nat) (x : NetPort) : (s.setNport p x).nports = SMap.set NetPort.init s.nports p x := rfl
@[simp] theorem State.setNport_host (p : Nat) (x : NetPort) : (s.setNport p x).host = s.host := rfl
@[simp] theorem State.setNport_sec (p : Nat) (x : NetPort) : (s.setNport p x).sec = s.sec := rfl
@[simp] theorem State.setNport_agents (p : Nat) (x : NetPort) : (s.setNport p x).agents = s.agents := rfl
@[simp] theorem State.setNport_ctls (p : Nat) (x : NetPort) : (s.setNport p x).ctls = s.ctls := rfl
@[simp] theorem State.setNport_srv (p : Nat) (x : NetPort) : (s.setNport p x).srv = s.srv := rfl
@[simp] theorem State.setNport_loupe (p : Nat) (x : NetPort) : (s.setNport p x).loupe = s.loupe := rfl

/-! `State.setPort` changes beam alone. -/
@[simp] theorem State.setPort_pending (p : Nat) (x : Port) : (s.setPort p x).pending = s.pending := rfl
@[simp] theorem State.setPort_now (p : Nat) (x : Port) : (s.setPort p x).now = s.now := rfl
@[simp] theorem State.setPort_free (p : Nat) (x : Port) : (s.setPort p x).free = s.free := rfl
@[simp] theorem State.setPort_keys (p : Nat) (x : Port) : (s.setPort p x).keys = s.keys := rfl
@[simp] theorem State.setPort_sys (p : Nat) (x : Port) : (s.setPort p x).sys = s.sys := rfl
@[simp] theorem State.setPort_mbs (p : Nat) (x : Port) : (s.setPort p x).mbs = s.mbs := rfl
@[simp] theorem State.setPort_ctxs (p : Nat) (x : Port) : (s.setPort p x).ctxs = s.ctxs := rfl
@[simp] theorem State.setPort_ops (p : Nat) (x : Port) : (s.setPort p x).ops = s.ops := rfl
@[simp] theorem State.setPort_cfg (p : Nat) (x : Port) : (s.setPort p x).cfg = s.cfg := rfl
@[simp] theorem State.setPort_rings (p : Nat) (x : Port) : (s.setPort p x).rings = s.rings := rfl
@[simp] theorem State.setPort_cores (p : Nat) (x : Port) : (s.setPort p x).cores = s.cores := rfl
@[simp] theorem State.setPort_units (p : Nat) (x : Port) : (s.setPort p x).units = s.units := rfl
@[simp] theorem State.setPort_mem (p : Nat) (x : Port) : (s.setPort p x).mem = s.mem := rfl
@[simp] theorem State.setPort_log (p : Nat) (x : Port) : (s.setPort p x).log = s.log := rfl
@[simp] theorem State.setPort_prings (p : Nat) (x : Port) : (s.setPort p x).prings = s.prings := rfl
@[simp] theorem State.setPort_chans (p : Nat) (x : Port) : (s.setPort p x).chans = s.chans := rfl
@[simp] theorem State.setPort_jobs (p : Nat) (x : Port) : (s.setPort p x).jobs = s.jobs := rfl
@[simp] theorem State.setPort_step (p : Nat) (x : Port) : (s.setPort p x).step = s.step := rfl
@[simp] theorem State.setPort_upds (p : Nat) (x : Port) : (s.setPort p x).upds = s.upds := rfl
@[simp] theorem State.setPort_sweeps (p : Nat) (x : Port) : (s.setPort p x).sweeps = s.sweeps := rfl
@[simp] theorem State.setPort_lens (p : Nat) (x : Port) : (s.setPort p x).lens = s.lens := rfl
@[simp] theorem State.setPort_images (p : Nat) (x : Port) : (s.setPort p x).images = s.images := rfl
@[simp] theorem State.setPort_groups (p : Nat) (x : Port) : (s.setPort p x).groups = s.groups := rfl
@[simp] theorem State.setPort_mirror (p : Nat) (x : Port) : (s.setPort p x).mirror = s.mirror := rfl
@[simp] theorem State.setPort_binds (p : Nat) (x : Port) : (s.setPort p x).binds = s.binds := rfl
@[simp] theorem State.setPort_nports (p : Nat) (x : Port) : (s.setPort p x).nports = s.nports := rfl
@[simp] theorem State.setPort_host (p : Nat) (x : Port) : (s.setPort p x).host = s.host := rfl
@[simp] theorem State.setPort_sec (p : Nat) (x : Port) : (s.setPort p x).sec = s.sec := rfl
@[simp] theorem State.setPort_agents (p : Nat) (x : Port) : (s.setPort p x).agents = s.agents := rfl
@[simp] theorem State.setPort_ctls (p : Nat) (x : Port) : (s.setPort p x).ctls = s.ctls := rfl
@[simp] theorem State.setPort_srv (p : Nat) (x : Port) : (s.setPort p x).srv = s.srv := rfl
@[simp] theorem State.setPort_loupe (p : Nat) (x : Port) : (s.setPort p x).loupe = s.loupe := rfl

/-! `State.setSrvModel` changes srv alone. -/
@[simp] theorem State.setSrvModel_pending (m : Nat) (x : SrvModel) : (s.setSrvModel m x).pending = s.pending := rfl
@[simp] theorem State.setSrvModel_now (m : Nat) (x : SrvModel) : (s.setSrvModel m x).now = s.now := rfl
@[simp] theorem State.setSrvModel_free (m : Nat) (x : SrvModel) : (s.setSrvModel m x).free = s.free := rfl
@[simp] theorem State.setSrvModel_keys (m : Nat) (x : SrvModel) : (s.setSrvModel m x).keys = s.keys := rfl
@[simp] theorem State.setSrvModel_sys (m : Nat) (x : SrvModel) : (s.setSrvModel m x).sys = s.sys := rfl
@[simp] theorem State.setSrvModel_mbs (m : Nat) (x : SrvModel) : (s.setSrvModel m x).mbs = s.mbs := rfl
@[simp] theorem State.setSrvModel_ctxs (m : Nat) (x : SrvModel) : (s.setSrvModel m x).ctxs = s.ctxs := rfl
@[simp] theorem State.setSrvModel_ops (m : Nat) (x : SrvModel) : (s.setSrvModel m x).ops = s.ops := rfl
@[simp] theorem State.setSrvModel_cfg (m : Nat) (x : SrvModel) : (s.setSrvModel m x).cfg = s.cfg := rfl
@[simp] theorem State.setSrvModel_rings (m : Nat) (x : SrvModel) : (s.setSrvModel m x).rings = s.rings := rfl
@[simp] theorem State.setSrvModel_cores (m : Nat) (x : SrvModel) : (s.setSrvModel m x).cores = s.cores := rfl
@[simp] theorem State.setSrvModel_units (m : Nat) (x : SrvModel) : (s.setSrvModel m x).units = s.units := rfl
@[simp] theorem State.setSrvModel_mem (m : Nat) (x : SrvModel) : (s.setSrvModel m x).mem = s.mem := rfl
@[simp] theorem State.setSrvModel_log (m : Nat) (x : SrvModel) : (s.setSrvModel m x).log = s.log := rfl
@[simp] theorem State.setSrvModel_prings (m : Nat) (x : SrvModel) : (s.setSrvModel m x).prings = s.prings := rfl
@[simp] theorem State.setSrvModel_chans (m : Nat) (x : SrvModel) : (s.setSrvModel m x).chans = s.chans := rfl
@[simp] theorem State.setSrvModel_jobs (m : Nat) (x : SrvModel) : (s.setSrvModel m x).jobs = s.jobs := rfl
@[simp] theorem State.setSrvModel_step (m : Nat) (x : SrvModel) : (s.setSrvModel m x).step = s.step := rfl
@[simp] theorem State.setSrvModel_upds (m : Nat) (x : SrvModel) : (s.setSrvModel m x).upds = s.upds := rfl
@[simp] theorem State.setSrvModel_sweeps (m : Nat) (x : SrvModel) : (s.setSrvModel m x).sweeps = s.sweeps := rfl
@[simp] theorem State.setSrvModel_lens (m : Nat) (x : SrvModel) : (s.setSrvModel m x).lens = s.lens := rfl
@[simp] theorem State.setSrvModel_images (m : Nat) (x : SrvModel) : (s.setSrvModel m x).images = s.images := rfl
@[simp] theorem State.setSrvModel_groups (m : Nat) (x : SrvModel) : (s.setSrvModel m x).groups = s.groups := rfl
@[simp] theorem State.setSrvModel_beam (m : Nat) (x : SrvModel) : (s.setSrvModel m x).beam = s.beam := rfl
@[simp] theorem State.setSrvModel_mirror (m : Nat) (x : SrvModel) : (s.setSrvModel m x).mirror = s.mirror := rfl
@[simp] theorem State.setSrvModel_binds (m : Nat) (x : SrvModel) : (s.setSrvModel m x).binds = s.binds := rfl
@[simp] theorem State.setSrvModel_nports (m : Nat) (x : SrvModel) : (s.setSrvModel m x).nports = s.nports := rfl
@[simp] theorem State.setSrvModel_host (m : Nat) (x : SrvModel) : (s.setSrvModel m x).host = s.host := rfl
@[simp] theorem State.setSrvModel_sec (m : Nat) (x : SrvModel) : (s.setSrvModel m x).sec = s.sec := rfl
@[simp] theorem State.setSrvModel_agents (m : Nat) (x : SrvModel) : (s.setSrvModel m x).agents = s.agents := rfl
@[simp] theorem State.setSrvModel_ctls (m : Nat) (x : SrvModel) : (s.setSrvModel m x).ctls = s.ctls := rfl
@[simp] theorem State.setSrvModel_loupe (m : Nat) (x : SrvModel) : (s.setSrvModel m x).loupe = s.loupe := rfl

/-! `State.setSrvQueue` changes srv alone. -/
@[simp] theorem State.setSrvQueue_pending (q : Nat) (x : SrvQueue) : (s.setSrvQueue q x).pending = s.pending := rfl
@[simp] theorem State.setSrvQueue_now (q : Nat) (x : SrvQueue) : (s.setSrvQueue q x).now = s.now := rfl
@[simp] theorem State.setSrvQueue_free (q : Nat) (x : SrvQueue) : (s.setSrvQueue q x).free = s.free := rfl
@[simp] theorem State.setSrvQueue_keys (q : Nat) (x : SrvQueue) : (s.setSrvQueue q x).keys = s.keys := rfl
@[simp] theorem State.setSrvQueue_sys (q : Nat) (x : SrvQueue) : (s.setSrvQueue q x).sys = s.sys := rfl
@[simp] theorem State.setSrvQueue_mbs (q : Nat) (x : SrvQueue) : (s.setSrvQueue q x).mbs = s.mbs := rfl
@[simp] theorem State.setSrvQueue_ctxs (q : Nat) (x : SrvQueue) : (s.setSrvQueue q x).ctxs = s.ctxs := rfl
@[simp] theorem State.setSrvQueue_ops (q : Nat) (x : SrvQueue) : (s.setSrvQueue q x).ops = s.ops := rfl
@[simp] theorem State.setSrvQueue_cfg (q : Nat) (x : SrvQueue) : (s.setSrvQueue q x).cfg = s.cfg := rfl
@[simp] theorem State.setSrvQueue_rings (q : Nat) (x : SrvQueue) : (s.setSrvQueue q x).rings = s.rings := rfl
@[simp] theorem State.setSrvQueue_cores (q : Nat) (x : SrvQueue) : (s.setSrvQueue q x).cores = s.cores := rfl
@[simp] theorem State.setSrvQueue_units (q : Nat) (x : SrvQueue) : (s.setSrvQueue q x).units = s.units := rfl
@[simp] theorem State.setSrvQueue_mem (q : Nat) (x : SrvQueue) : (s.setSrvQueue q x).mem = s.mem := rfl
@[simp] theorem State.setSrvQueue_log (q : Nat) (x : SrvQueue) : (s.setSrvQueue q x).log = s.log := rfl
@[simp] theorem State.setSrvQueue_prings (q : Nat) (x : SrvQueue) : (s.setSrvQueue q x).prings = s.prings := rfl
@[simp] theorem State.setSrvQueue_chans (q : Nat) (x : SrvQueue) : (s.setSrvQueue q x).chans = s.chans := rfl
@[simp] theorem State.setSrvQueue_jobs (q : Nat) (x : SrvQueue) : (s.setSrvQueue q x).jobs = s.jobs := rfl
@[simp] theorem State.setSrvQueue_step (q : Nat) (x : SrvQueue) : (s.setSrvQueue q x).step = s.step := rfl
@[simp] theorem State.setSrvQueue_upds (q : Nat) (x : SrvQueue) : (s.setSrvQueue q x).upds = s.upds := rfl
@[simp] theorem State.setSrvQueue_sweeps (q : Nat) (x : SrvQueue) : (s.setSrvQueue q x).sweeps = s.sweeps := rfl
@[simp] theorem State.setSrvQueue_lens (q : Nat) (x : SrvQueue) : (s.setSrvQueue q x).lens = s.lens := rfl
@[simp] theorem State.setSrvQueue_images (q : Nat) (x : SrvQueue) : (s.setSrvQueue q x).images = s.images := rfl
@[simp] theorem State.setSrvQueue_groups (q : Nat) (x : SrvQueue) : (s.setSrvQueue q x).groups = s.groups := rfl
@[simp] theorem State.setSrvQueue_beam (q : Nat) (x : SrvQueue) : (s.setSrvQueue q x).beam = s.beam := rfl
@[simp] theorem State.setSrvQueue_mirror (q : Nat) (x : SrvQueue) : (s.setSrvQueue q x).mirror = s.mirror := rfl
@[simp] theorem State.setSrvQueue_binds (q : Nat) (x : SrvQueue) : (s.setSrvQueue q x).binds = s.binds := rfl
@[simp] theorem State.setSrvQueue_nports (q : Nat) (x : SrvQueue) : (s.setSrvQueue q x).nports = s.nports := rfl
@[simp] theorem State.setSrvQueue_host (q : Nat) (x : SrvQueue) : (s.setSrvQueue q x).host = s.host := rfl
@[simp] theorem State.setSrvQueue_sec (q : Nat) (x : SrvQueue) : (s.setSrvQueue q x).sec = s.sec := rfl
@[simp] theorem State.setSrvQueue_agents (q : Nat) (x : SrvQueue) : (s.setSrvQueue q x).agents = s.agents := rfl
@[simp] theorem State.setSrvQueue_ctls (q : Nat) (x : SrvQueue) : (s.setSrvQueue q x).ctls = s.ctls := rfl
@[simp] theorem State.setSrvQueue_loupe (q : Nat) (x : SrvQueue) : (s.setSrvQueue q x).loupe = s.loupe := rfl

/-! `State.setSrvEntry` changes srv alone. -/
@[simp] theorem State.setSrvEntry_pending (i : Nat) (x : SrvEntry) : (s.setSrvEntry i x).pending = s.pending := rfl
@[simp] theorem State.setSrvEntry_now (i : Nat) (x : SrvEntry) : (s.setSrvEntry i x).now = s.now := rfl
@[simp] theorem State.setSrvEntry_free (i : Nat) (x : SrvEntry) : (s.setSrvEntry i x).free = s.free := rfl
@[simp] theorem State.setSrvEntry_keys (i : Nat) (x : SrvEntry) : (s.setSrvEntry i x).keys = s.keys := rfl
@[simp] theorem State.setSrvEntry_sys (i : Nat) (x : SrvEntry) : (s.setSrvEntry i x).sys = s.sys := rfl
@[simp] theorem State.setSrvEntry_mbs (i : Nat) (x : SrvEntry) : (s.setSrvEntry i x).mbs = s.mbs := rfl
@[simp] theorem State.setSrvEntry_ctxs (i : Nat) (x : SrvEntry) : (s.setSrvEntry i x).ctxs = s.ctxs := rfl
@[simp] theorem State.setSrvEntry_ops (i : Nat) (x : SrvEntry) : (s.setSrvEntry i x).ops = s.ops := rfl
@[simp] theorem State.setSrvEntry_cfg (i : Nat) (x : SrvEntry) : (s.setSrvEntry i x).cfg = s.cfg := rfl
@[simp] theorem State.setSrvEntry_rings (i : Nat) (x : SrvEntry) : (s.setSrvEntry i x).rings = s.rings := rfl
@[simp] theorem State.setSrvEntry_cores (i : Nat) (x : SrvEntry) : (s.setSrvEntry i x).cores = s.cores := rfl
@[simp] theorem State.setSrvEntry_units (i : Nat) (x : SrvEntry) : (s.setSrvEntry i x).units = s.units := rfl
@[simp] theorem State.setSrvEntry_mem (i : Nat) (x : SrvEntry) : (s.setSrvEntry i x).mem = s.mem := rfl
@[simp] theorem State.setSrvEntry_log (i : Nat) (x : SrvEntry) : (s.setSrvEntry i x).log = s.log := rfl
@[simp] theorem State.setSrvEntry_prings (i : Nat) (x : SrvEntry) : (s.setSrvEntry i x).prings = s.prings := rfl
@[simp] theorem State.setSrvEntry_chans (i : Nat) (x : SrvEntry) : (s.setSrvEntry i x).chans = s.chans := rfl
@[simp] theorem State.setSrvEntry_jobs (i : Nat) (x : SrvEntry) : (s.setSrvEntry i x).jobs = s.jobs := rfl
@[simp] theorem State.setSrvEntry_step (i : Nat) (x : SrvEntry) : (s.setSrvEntry i x).step = s.step := rfl
@[simp] theorem State.setSrvEntry_upds (i : Nat) (x : SrvEntry) : (s.setSrvEntry i x).upds = s.upds := rfl
@[simp] theorem State.setSrvEntry_sweeps (i : Nat) (x : SrvEntry) : (s.setSrvEntry i x).sweeps = s.sweeps := rfl
@[simp] theorem State.setSrvEntry_lens (i : Nat) (x : SrvEntry) : (s.setSrvEntry i x).lens = s.lens := rfl
@[simp] theorem State.setSrvEntry_images (i : Nat) (x : SrvEntry) : (s.setSrvEntry i x).images = s.images := rfl
@[simp] theorem State.setSrvEntry_groups (i : Nat) (x : SrvEntry) : (s.setSrvEntry i x).groups = s.groups := rfl
@[simp] theorem State.setSrvEntry_beam (i : Nat) (x : SrvEntry) : (s.setSrvEntry i x).beam = s.beam := rfl
@[simp] theorem State.setSrvEntry_mirror (i : Nat) (x : SrvEntry) : (s.setSrvEntry i x).mirror = s.mirror := rfl
@[simp] theorem State.setSrvEntry_binds (i : Nat) (x : SrvEntry) : (s.setSrvEntry i x).binds = s.binds := rfl
@[simp] theorem State.setSrvEntry_nports (i : Nat) (x : SrvEntry) : (s.setSrvEntry i x).nports = s.nports := rfl
@[simp] theorem State.setSrvEntry_host (i : Nat) (x : SrvEntry) : (s.setSrvEntry i x).host = s.host := rfl
@[simp] theorem State.setSrvEntry_sec (i : Nat) (x : SrvEntry) : (s.setSrvEntry i x).sec = s.sec := rfl
@[simp] theorem State.setSrvEntry_agents (i : Nat) (x : SrvEntry) : (s.setSrvEntry i x).agents = s.agents := rfl
@[simp] theorem State.setSrvEntry_ctls (i : Nat) (x : SrvEntry) : (s.setSrvEntry i x).ctls = s.ctls := rfl
@[simp] theorem State.setSrvEntry_loupe (i : Nat) (x : SrvEntry) : (s.setSrvEntry i x).loupe = s.loupe := rfl

/-! `State.setCtl` changes ctls alone. -/
@[simp] theorem State.setCtl_pending (c : Nat) (x : Ctl) : (s.setCtl c x).pending = s.pending := rfl
@[simp] theorem State.setCtl_now (c : Nat) (x : Ctl) : (s.setCtl c x).now = s.now := rfl
@[simp] theorem State.setCtl_free (c : Nat) (x : Ctl) : (s.setCtl c x).free = s.free := rfl
@[simp] theorem State.setCtl_keys (c : Nat) (x : Ctl) : (s.setCtl c x).keys = s.keys := rfl
@[simp] theorem State.setCtl_sys (c : Nat) (x : Ctl) : (s.setCtl c x).sys = s.sys := rfl
@[simp] theorem State.setCtl_mbs (c : Nat) (x : Ctl) : (s.setCtl c x).mbs = s.mbs := rfl
@[simp] theorem State.setCtl_ctxs (c : Nat) (x : Ctl) : (s.setCtl c x).ctxs = s.ctxs := rfl
@[simp] theorem State.setCtl_ops (c : Nat) (x : Ctl) : (s.setCtl c x).ops = s.ops := rfl
@[simp] theorem State.setCtl_cfg (c : Nat) (x : Ctl) : (s.setCtl c x).cfg = s.cfg := rfl
@[simp] theorem State.setCtl_rings (c : Nat) (x : Ctl) : (s.setCtl c x).rings = s.rings := rfl
@[simp] theorem State.setCtl_cores (c : Nat) (x : Ctl) : (s.setCtl c x).cores = s.cores := rfl
@[simp] theorem State.setCtl_units (c : Nat) (x : Ctl) : (s.setCtl c x).units = s.units := rfl
@[simp] theorem State.setCtl_mem (c : Nat) (x : Ctl) : (s.setCtl c x).mem = s.mem := rfl
@[simp] theorem State.setCtl_log (c : Nat) (x : Ctl) : (s.setCtl c x).log = s.log := rfl
@[simp] theorem State.setCtl_prings (c : Nat) (x : Ctl) : (s.setCtl c x).prings = s.prings := rfl
@[simp] theorem State.setCtl_chans (c : Nat) (x : Ctl) : (s.setCtl c x).chans = s.chans := rfl
@[simp] theorem State.setCtl_jobs (c : Nat) (x : Ctl) : (s.setCtl c x).jobs = s.jobs := rfl
@[simp] theorem State.setCtl_step (c : Nat) (x : Ctl) : (s.setCtl c x).step = s.step := rfl
@[simp] theorem State.setCtl_upds (c : Nat) (x : Ctl) : (s.setCtl c x).upds = s.upds := rfl
@[simp] theorem State.setCtl_sweeps (c : Nat) (x : Ctl) : (s.setCtl c x).sweeps = s.sweeps := rfl
@[simp] theorem State.setCtl_lens (c : Nat) (x : Ctl) : (s.setCtl c x).lens = s.lens := rfl
@[simp] theorem State.setCtl_images (c : Nat) (x : Ctl) : (s.setCtl c x).images = s.images := rfl
@[simp] theorem State.setCtl_groups (c : Nat) (x : Ctl) : (s.setCtl c x).groups = s.groups := rfl
@[simp] theorem State.setCtl_beam (c : Nat) (x : Ctl) : (s.setCtl c x).beam = s.beam := rfl
@[simp] theorem State.setCtl_mirror (c : Nat) (x : Ctl) : (s.setCtl c x).mirror = s.mirror := rfl
@[simp] theorem State.setCtl_binds (c : Nat) (x : Ctl) : (s.setCtl c x).binds = s.binds := rfl
@[simp] theorem State.setCtl_nports (c : Nat) (x : Ctl) : (s.setCtl c x).nports = s.nports := rfl
@[simp] theorem State.setCtl_host (c : Nat) (x : Ctl) : (s.setCtl c x).host = s.host := rfl
@[simp] theorem State.setCtl_sec (c : Nat) (x : Ctl) : (s.setCtl c x).sec = s.sec := rfl
@[simp] theorem State.setCtl_agents (c : Nat) (x : Ctl) : (s.setCtl c x).agents = s.agents := rfl
@[simp] theorem State.setCtl_ctls (c : Nat) (x : Ctl) : (s.setCtl c x).ctls = SMap.set Ctl.init s.ctls c x := rfl
@[simp] theorem State.setCtl_srv (c : Nat) (x : Ctl) : (s.setCtl c x).srv = s.srv := rfl
@[simp] theorem State.setCtl_loupe (c : Nat) (x : Ctl) : (s.setCtl c x).loupe = s.loupe := rfl

/-! `bump` changes units alone. -/
@[simp] theorem bump_pending (ty inst n k : Nat) : (bump ty inst n k s).pending = s.pending := rfl
@[simp] theorem bump_now (ty inst n k : Nat) : (bump ty inst n k s).now = s.now := rfl
@[simp] theorem bump_free (ty inst n k : Nat) : (bump ty inst n k s).free = s.free := rfl
@[simp] theorem bump_keys (ty inst n k : Nat) : (bump ty inst n k s).keys = s.keys := rfl
@[simp] theorem bump_sys (ty inst n k : Nat) : (bump ty inst n k s).sys = s.sys := rfl
@[simp] theorem bump_mbs (ty inst n k : Nat) : (bump ty inst n k s).mbs = s.mbs := rfl
@[simp] theorem bump_ctxs (ty inst n k : Nat) : (bump ty inst n k s).ctxs = s.ctxs := rfl
@[simp] theorem bump_ops (ty inst n k : Nat) : (bump ty inst n k s).ops = s.ops := rfl
@[simp] theorem bump_cfg (ty inst n k : Nat) : (bump ty inst n k s).cfg = s.cfg := rfl
@[simp] theorem bump_rings (ty inst n k : Nat) : (bump ty inst n k s).rings = s.rings := rfl
@[simp] theorem bump_cores (ty inst n k : Nat) : (bump ty inst n k s).cores = s.cores := rfl
@[simp] theorem bump_mem (ty inst n k : Nat) : (bump ty inst n k s).mem = s.mem := rfl
@[simp] theorem bump_log (ty inst n k : Nat) : (bump ty inst n k s).log = s.log := rfl
@[simp] theorem bump_prings (ty inst n k : Nat) : (bump ty inst n k s).prings = s.prings := rfl
@[simp] theorem bump_chans (ty inst n k : Nat) : (bump ty inst n k s).chans = s.chans := rfl
@[simp] theorem bump_jobs (ty inst n k : Nat) : (bump ty inst n k s).jobs = s.jobs := rfl
@[simp] theorem bump_step (ty inst n k : Nat) : (bump ty inst n k s).step = s.step := rfl
@[simp] theorem bump_upds (ty inst n k : Nat) : (bump ty inst n k s).upds = s.upds := rfl
@[simp] theorem bump_sweeps (ty inst n k : Nat) : (bump ty inst n k s).sweeps = s.sweeps := rfl
@[simp] theorem bump_lens (ty inst n k : Nat) : (bump ty inst n k s).lens = s.lens := rfl
@[simp] theorem bump_images (ty inst n k : Nat) : (bump ty inst n k s).images = s.images := rfl
@[simp] theorem bump_groups (ty inst n k : Nat) : (bump ty inst n k s).groups = s.groups := rfl
@[simp] theorem bump_beam (ty inst n k : Nat) : (bump ty inst n k s).beam = s.beam := rfl
@[simp] theorem bump_mirror (ty inst n k : Nat) : (bump ty inst n k s).mirror = s.mirror := rfl
@[simp] theorem bump_binds (ty inst n k : Nat) : (bump ty inst n k s).binds = s.binds := rfl
@[simp] theorem bump_nports (ty inst n k : Nat) : (bump ty inst n k s).nports = s.nports := rfl
@[simp] theorem bump_host (ty inst n k : Nat) : (bump ty inst n k s).host = s.host := rfl
@[simp] theorem bump_sec (ty inst n k : Nat) : (bump ty inst n k s).sec = s.sec := rfl
@[simp] theorem bump_agents (ty inst n k : Nat) : (bump ty inst n k s).agents = s.agents := rfl
@[simp] theorem bump_ctls (ty inst n k : Nat) : (bump ty inst n k s).ctls = s.ctls := rfl
@[simp] theorem bump_srv (ty inst n k : Nat) : (bump ty inst n k s).srv = s.srv := rfl
@[simp] theorem bump_loupe (ty inst n k : Nat) : (bump ty inst n k s).loupe = s.loupe := rfl

/-! `setErr` changes units alone. -/
@[simp] theorem setErr_pending (ty inst bit ring index reason : Nat) : (setErr ty inst bit ring index reason s).pending = s.pending := rfl
@[simp] theorem setErr_now (ty inst bit ring index reason : Nat) : (setErr ty inst bit ring index reason s).now = s.now := rfl
@[simp] theorem setErr_free (ty inst bit ring index reason : Nat) : (setErr ty inst bit ring index reason s).free = s.free := rfl
@[simp] theorem setErr_keys (ty inst bit ring index reason : Nat) : (setErr ty inst bit ring index reason s).keys = s.keys := rfl
@[simp] theorem setErr_sys (ty inst bit ring index reason : Nat) : (setErr ty inst bit ring index reason s).sys = s.sys := rfl
@[simp] theorem setErr_mbs (ty inst bit ring index reason : Nat) : (setErr ty inst bit ring index reason s).mbs = s.mbs := rfl
@[simp] theorem setErr_ctxs (ty inst bit ring index reason : Nat) : (setErr ty inst bit ring index reason s).ctxs = s.ctxs := rfl
@[simp] theorem setErr_ops (ty inst bit ring index reason : Nat) : (setErr ty inst bit ring index reason s).ops = s.ops := rfl
@[simp] theorem setErr_cfg (ty inst bit ring index reason : Nat) : (setErr ty inst bit ring index reason s).cfg = s.cfg := rfl
@[simp] theorem setErr_rings (ty inst bit ring index reason : Nat) : (setErr ty inst bit ring index reason s).rings = s.rings := rfl
@[simp] theorem setErr_cores (ty inst bit ring index reason : Nat) : (setErr ty inst bit ring index reason s).cores = s.cores := rfl
@[simp] theorem setErr_mem (ty inst bit ring index reason : Nat) : (setErr ty inst bit ring index reason s).mem = s.mem := rfl
@[simp] theorem setErr_log (ty inst bit ring index reason : Nat) : (setErr ty inst bit ring index reason s).log = s.log := rfl
@[simp] theorem setErr_prings (ty inst bit ring index reason : Nat) : (setErr ty inst bit ring index reason s).prings = s.prings := rfl
@[simp] theorem setErr_chans (ty inst bit ring index reason : Nat) : (setErr ty inst bit ring index reason s).chans = s.chans := rfl
@[simp] theorem setErr_jobs (ty inst bit ring index reason : Nat) : (setErr ty inst bit ring index reason s).jobs = s.jobs := rfl
@[simp] theorem setErr_step (ty inst bit ring index reason : Nat) : (setErr ty inst bit ring index reason s).step = s.step := rfl
@[simp] theorem setErr_upds (ty inst bit ring index reason : Nat) : (setErr ty inst bit ring index reason s).upds = s.upds := rfl
@[simp] theorem setErr_sweeps (ty inst bit ring index reason : Nat) : (setErr ty inst bit ring index reason s).sweeps = s.sweeps := rfl
@[simp] theorem setErr_lens (ty inst bit ring index reason : Nat) : (setErr ty inst bit ring index reason s).lens = s.lens := rfl
@[simp] theorem setErr_images (ty inst bit ring index reason : Nat) : (setErr ty inst bit ring index reason s).images = s.images := rfl
@[simp] theorem setErr_groups (ty inst bit ring index reason : Nat) : (setErr ty inst bit ring index reason s).groups = s.groups := rfl
@[simp] theorem setErr_beam (ty inst bit ring index reason : Nat) : (setErr ty inst bit ring index reason s).beam = s.beam := rfl
@[simp] theorem setErr_mirror (ty inst bit ring index reason : Nat) : (setErr ty inst bit ring index reason s).mirror = s.mirror := rfl
@[simp] theorem setErr_binds (ty inst bit ring index reason : Nat) : (setErr ty inst bit ring index reason s).binds = s.binds := rfl
@[simp] theorem setErr_nports (ty inst bit ring index reason : Nat) : (setErr ty inst bit ring index reason s).nports = s.nports := rfl
@[simp] theorem setErr_host (ty inst bit ring index reason : Nat) : (setErr ty inst bit ring index reason s).host = s.host := rfl
@[simp] theorem setErr_sec (ty inst bit ring index reason : Nat) : (setErr ty inst bit ring index reason s).sec = s.sec := rfl
@[simp] theorem setErr_agents (ty inst bit ring index reason : Nat) : (setErr ty inst bit ring index reason s).agents = s.agents := rfl
@[simp] theorem setErr_ctls (ty inst bit ring index reason : Nat) : (setErr ty inst bit ring index reason s).ctls = s.ctls := rfl
@[simp] theorem setErr_srv (ty inst bit ring index reason : Nat) : (setErr ty inst bit ring index reason s).srv = s.srv := rfl
@[simp] theorem setErr_loupe (ty inst bit ring index reason : Nat) : (setErr ty inst bit ring index reason s).loupe = s.loupe := rfl

/-! `hpErr` changes units alone. -/
@[simp] theorem hpErr_pending (bit ctx addr : Nat) : (hpErr bit ctx addr s).pending = s.pending := rfl
@[simp] theorem hpErr_now (bit ctx addr : Nat) : (hpErr bit ctx addr s).now = s.now := rfl
@[simp] theorem hpErr_free (bit ctx addr : Nat) : (hpErr bit ctx addr s).free = s.free := rfl
@[simp] theorem hpErr_keys (bit ctx addr : Nat) : (hpErr bit ctx addr s).keys = s.keys := rfl
@[simp] theorem hpErr_sys (bit ctx addr : Nat) : (hpErr bit ctx addr s).sys = s.sys := rfl
@[simp] theorem hpErr_mbs (bit ctx addr : Nat) : (hpErr bit ctx addr s).mbs = s.mbs := rfl
@[simp] theorem hpErr_ctxs (bit ctx addr : Nat) : (hpErr bit ctx addr s).ctxs = s.ctxs := rfl
@[simp] theorem hpErr_ops (bit ctx addr : Nat) : (hpErr bit ctx addr s).ops = s.ops := rfl
@[simp] theorem hpErr_cfg (bit ctx addr : Nat) : (hpErr bit ctx addr s).cfg = s.cfg := rfl
@[simp] theorem hpErr_rings (bit ctx addr : Nat) : (hpErr bit ctx addr s).rings = s.rings := rfl
@[simp] theorem hpErr_cores (bit ctx addr : Nat) : (hpErr bit ctx addr s).cores = s.cores := rfl
@[simp] theorem hpErr_mem (bit ctx addr : Nat) : (hpErr bit ctx addr s).mem = s.mem := rfl
@[simp] theorem hpErr_log (bit ctx addr : Nat) : (hpErr bit ctx addr s).log = s.log := rfl
@[simp] theorem hpErr_prings (bit ctx addr : Nat) : (hpErr bit ctx addr s).prings = s.prings := rfl
@[simp] theorem hpErr_chans (bit ctx addr : Nat) : (hpErr bit ctx addr s).chans = s.chans := rfl
@[simp] theorem hpErr_jobs (bit ctx addr : Nat) : (hpErr bit ctx addr s).jobs = s.jobs := rfl
@[simp] theorem hpErr_step (bit ctx addr : Nat) : (hpErr bit ctx addr s).step = s.step := rfl
@[simp] theorem hpErr_upds (bit ctx addr : Nat) : (hpErr bit ctx addr s).upds = s.upds := rfl
@[simp] theorem hpErr_sweeps (bit ctx addr : Nat) : (hpErr bit ctx addr s).sweeps = s.sweeps := rfl
@[simp] theorem hpErr_lens (bit ctx addr : Nat) : (hpErr bit ctx addr s).lens = s.lens := rfl
@[simp] theorem hpErr_images (bit ctx addr : Nat) : (hpErr bit ctx addr s).images = s.images := rfl
@[simp] theorem hpErr_groups (bit ctx addr : Nat) : (hpErr bit ctx addr s).groups = s.groups := rfl
@[simp] theorem hpErr_beam (bit ctx addr : Nat) : (hpErr bit ctx addr s).beam = s.beam := rfl
@[simp] theorem hpErr_mirror (bit ctx addr : Nat) : (hpErr bit ctx addr s).mirror = s.mirror := rfl
@[simp] theorem hpErr_binds (bit ctx addr : Nat) : (hpErr bit ctx addr s).binds = s.binds := rfl
@[simp] theorem hpErr_nports (bit ctx addr : Nat) : (hpErr bit ctx addr s).nports = s.nports := rfl
@[simp] theorem hpErr_host (bit ctx addr : Nat) : (hpErr bit ctx addr s).host = s.host := rfl
@[simp] theorem hpErr_sec (bit ctx addr : Nat) : (hpErr bit ctx addr s).sec = s.sec := rfl
@[simp] theorem hpErr_agents (bit ctx addr : Nat) : (hpErr bit ctx addr s).agents = s.agents := rfl
@[simp] theorem hpErr_ctls (bit ctx addr : Nat) : (hpErr bit ctx addr s).ctls = s.ctls := rfl
@[simp] theorem hpErr_srv (bit ctx addr : Nat) : (hpErr bit ctx addr s).srv = s.srv := rfl
@[simp] theorem hpErr_loupe (bit ctx addr : Nat) : (hpErr bit ctx addr s).loupe = s.loupe := rfl

/-! `hostWrite` changes mem alone. -/
@[simp] theorem hostWrite_pending (a : Nat) (bs : Bytes) : (hostWrite a bs s).pending = s.pending := rfl
@[simp] theorem hostWrite_now (a : Nat) (bs : Bytes) : (hostWrite a bs s).now = s.now := rfl
@[simp] theorem hostWrite_free (a : Nat) (bs : Bytes) : (hostWrite a bs s).free = s.free := rfl
@[simp] theorem hostWrite_keys (a : Nat) (bs : Bytes) : (hostWrite a bs s).keys = s.keys := rfl
@[simp] theorem hostWrite_sys (a : Nat) (bs : Bytes) : (hostWrite a bs s).sys = s.sys := rfl
@[simp] theorem hostWrite_mbs (a : Nat) (bs : Bytes) : (hostWrite a bs s).mbs = s.mbs := rfl
@[simp] theorem hostWrite_ctxs (a : Nat) (bs : Bytes) : (hostWrite a bs s).ctxs = s.ctxs := rfl
@[simp] theorem hostWrite_ops (a : Nat) (bs : Bytes) : (hostWrite a bs s).ops = s.ops := rfl
@[simp] theorem hostWrite_cfg (a : Nat) (bs : Bytes) : (hostWrite a bs s).cfg = s.cfg := rfl
@[simp] theorem hostWrite_rings (a : Nat) (bs : Bytes) : (hostWrite a bs s).rings = s.rings := rfl
@[simp] theorem hostWrite_cores (a : Nat) (bs : Bytes) : (hostWrite a bs s).cores = s.cores := rfl
@[simp] theorem hostWrite_units (a : Nat) (bs : Bytes) : (hostWrite a bs s).units = s.units := rfl
@[simp] theorem hostWrite_log (a : Nat) (bs : Bytes) : (hostWrite a bs s).log = s.log := rfl
@[simp] theorem hostWrite_prings (a : Nat) (bs : Bytes) : (hostWrite a bs s).prings = s.prings := rfl
@[simp] theorem hostWrite_chans (a : Nat) (bs : Bytes) : (hostWrite a bs s).chans = s.chans := rfl
@[simp] theorem hostWrite_jobs (a : Nat) (bs : Bytes) : (hostWrite a bs s).jobs = s.jobs := rfl
@[simp] theorem hostWrite_step (a : Nat) (bs : Bytes) : (hostWrite a bs s).step = s.step := rfl
@[simp] theorem hostWrite_upds (a : Nat) (bs : Bytes) : (hostWrite a bs s).upds = s.upds := rfl
@[simp] theorem hostWrite_sweeps (a : Nat) (bs : Bytes) : (hostWrite a bs s).sweeps = s.sweeps := rfl
@[simp] theorem hostWrite_lens (a : Nat) (bs : Bytes) : (hostWrite a bs s).lens = s.lens := rfl
@[simp] theorem hostWrite_images (a : Nat) (bs : Bytes) : (hostWrite a bs s).images = s.images := rfl
@[simp] theorem hostWrite_groups (a : Nat) (bs : Bytes) : (hostWrite a bs s).groups = s.groups := rfl
@[simp] theorem hostWrite_beam (a : Nat) (bs : Bytes) : (hostWrite a bs s).beam = s.beam := rfl
@[simp] theorem hostWrite_mirror (a : Nat) (bs : Bytes) : (hostWrite a bs s).mirror = s.mirror := rfl
@[simp] theorem hostWrite_binds (a : Nat) (bs : Bytes) : (hostWrite a bs s).binds = s.binds := rfl
@[simp] theorem hostWrite_nports (a : Nat) (bs : Bytes) : (hostWrite a bs s).nports = s.nports := rfl
@[simp] theorem hostWrite_host (a : Nat) (bs : Bytes) : (hostWrite a bs s).host = s.host := rfl
@[simp] theorem hostWrite_sec (a : Nat) (bs : Bytes) : (hostWrite a bs s).sec = s.sec := rfl
@[simp] theorem hostWrite_agents (a : Nat) (bs : Bytes) : (hostWrite a bs s).agents = s.agents := rfl
@[simp] theorem hostWrite_ctls (a : Nat) (bs : Bytes) : (hostWrite a bs s).ctls = s.ctls := rfl
@[simp] theorem hostWrite_srv (a : Nat) (bs : Bytes) : (hostWrite a bs s).srv = s.srv := rfl
@[simp] theorem hostWrite_loupe (a : Nat) (bs : Bytes) : (hostWrite a bs s).loupe = s.loupe := rfl

/-! `sramWrite` changes mem alone. -/
@[simp] theorem sramWrite_pending (core off : Nat) (bs : Bytes) : (sramWrite core off bs s).pending = s.pending := rfl
@[simp] theorem sramWrite_now (core off : Nat) (bs : Bytes) : (sramWrite core off bs s).now = s.now := rfl
@[simp] theorem sramWrite_free (core off : Nat) (bs : Bytes) : (sramWrite core off bs s).free = s.free := rfl
@[simp] theorem sramWrite_keys (core off : Nat) (bs : Bytes) : (sramWrite core off bs s).keys = s.keys := rfl
@[simp] theorem sramWrite_sys (core off : Nat) (bs : Bytes) : (sramWrite core off bs s).sys = s.sys := rfl
@[simp] theorem sramWrite_mbs (core off : Nat) (bs : Bytes) : (sramWrite core off bs s).mbs = s.mbs := rfl
@[simp] theorem sramWrite_ctxs (core off : Nat) (bs : Bytes) : (sramWrite core off bs s).ctxs = s.ctxs := rfl
@[simp] theorem sramWrite_ops (core off : Nat) (bs : Bytes) : (sramWrite core off bs s).ops = s.ops := rfl
@[simp] theorem sramWrite_cfg (core off : Nat) (bs : Bytes) : (sramWrite core off bs s).cfg = s.cfg := rfl
@[simp] theorem sramWrite_rings (core off : Nat) (bs : Bytes) : (sramWrite core off bs s).rings = s.rings := rfl
@[simp] theorem sramWrite_cores (core off : Nat) (bs : Bytes) : (sramWrite core off bs s).cores = s.cores := rfl
@[simp] theorem sramWrite_units (core off : Nat) (bs : Bytes) : (sramWrite core off bs s).units = s.units := rfl
@[simp] theorem sramWrite_log (core off : Nat) (bs : Bytes) : (sramWrite core off bs s).log = s.log := rfl
@[simp] theorem sramWrite_prings (core off : Nat) (bs : Bytes) : (sramWrite core off bs s).prings = s.prings := rfl
@[simp] theorem sramWrite_chans (core off : Nat) (bs : Bytes) : (sramWrite core off bs s).chans = s.chans := rfl
@[simp] theorem sramWrite_jobs (core off : Nat) (bs : Bytes) : (sramWrite core off bs s).jobs = s.jobs := rfl
@[simp] theorem sramWrite_step (core off : Nat) (bs : Bytes) : (sramWrite core off bs s).step = s.step := rfl
@[simp] theorem sramWrite_upds (core off : Nat) (bs : Bytes) : (sramWrite core off bs s).upds = s.upds := rfl
@[simp] theorem sramWrite_sweeps (core off : Nat) (bs : Bytes) : (sramWrite core off bs s).sweeps = s.sweeps := rfl
@[simp] theorem sramWrite_lens (core off : Nat) (bs : Bytes) : (sramWrite core off bs s).lens = s.lens := rfl
@[simp] theorem sramWrite_images (core off : Nat) (bs : Bytes) : (sramWrite core off bs s).images = s.images := rfl
@[simp] theorem sramWrite_groups (core off : Nat) (bs : Bytes) : (sramWrite core off bs s).groups = s.groups := rfl
@[simp] theorem sramWrite_beam (core off : Nat) (bs : Bytes) : (sramWrite core off bs s).beam = s.beam := rfl
@[simp] theorem sramWrite_mirror (core off : Nat) (bs : Bytes) : (sramWrite core off bs s).mirror = s.mirror := rfl
@[simp] theorem sramWrite_binds (core off : Nat) (bs : Bytes) : (sramWrite core off bs s).binds = s.binds := rfl
@[simp] theorem sramWrite_nports (core off : Nat) (bs : Bytes) : (sramWrite core off bs s).nports = s.nports := rfl
@[simp] theorem sramWrite_host (core off : Nat) (bs : Bytes) : (sramWrite core off bs s).host = s.host := rfl
@[simp] theorem sramWrite_sec (core off : Nat) (bs : Bytes) : (sramWrite core off bs s).sec = s.sec := rfl
@[simp] theorem sramWrite_agents (core off : Nat) (bs : Bytes) : (sramWrite core off bs s).agents = s.agents := rfl
@[simp] theorem sramWrite_ctls (core off : Nat) (bs : Bytes) : (sramWrite core off bs s).ctls = s.ctls := rfl
@[simp] theorem sramWrite_srv (core off : Nat) (bs : Bytes) : (sramWrite core off bs s).srv = s.srv := rfl
@[simp] theorem sramWrite_loupe (core off : Nat) (bs : Bytes) : (sramWrite core off bs s).loupe = s.loupe := rfl

/-! `sramMark` changes mem alone. -/
@[simp] theorem sramMark_pending (core off n : Nat) : (sramMark core off n s).pending = s.pending := rfl
@[simp] theorem sramMark_now (core off n : Nat) : (sramMark core off n s).now = s.now := rfl
@[simp] theorem sramMark_free (core off n : Nat) : (sramMark core off n s).free = s.free := rfl
@[simp] theorem sramMark_keys (core off n : Nat) : (sramMark core off n s).keys = s.keys := rfl
@[simp] theorem sramMark_sys (core off n : Nat) : (sramMark core off n s).sys = s.sys := rfl
@[simp] theorem sramMark_mbs (core off n : Nat) : (sramMark core off n s).mbs = s.mbs := rfl
@[simp] theorem sramMark_ctxs (core off n : Nat) : (sramMark core off n s).ctxs = s.ctxs := rfl
@[simp] theorem sramMark_ops (core off n : Nat) : (sramMark core off n s).ops = s.ops := rfl
@[simp] theorem sramMark_cfg (core off n : Nat) : (sramMark core off n s).cfg = s.cfg := rfl
@[simp] theorem sramMark_rings (core off n : Nat) : (sramMark core off n s).rings = s.rings := rfl
@[simp] theorem sramMark_cores (core off n : Nat) : (sramMark core off n s).cores = s.cores := rfl
@[simp] theorem sramMark_units (core off n : Nat) : (sramMark core off n s).units = s.units := rfl
@[simp] theorem sramMark_log (core off n : Nat) : (sramMark core off n s).log = s.log := rfl
@[simp] theorem sramMark_prings (core off n : Nat) : (sramMark core off n s).prings = s.prings := rfl
@[simp] theorem sramMark_chans (core off n : Nat) : (sramMark core off n s).chans = s.chans := rfl
@[simp] theorem sramMark_jobs (core off n : Nat) : (sramMark core off n s).jobs = s.jobs := rfl
@[simp] theorem sramMark_step (core off n : Nat) : (sramMark core off n s).step = s.step := rfl
@[simp] theorem sramMark_upds (core off n : Nat) : (sramMark core off n s).upds = s.upds := rfl
@[simp] theorem sramMark_sweeps (core off n : Nat) : (sramMark core off n s).sweeps = s.sweeps := rfl
@[simp] theorem sramMark_lens (core off n : Nat) : (sramMark core off n s).lens = s.lens := rfl
@[simp] theorem sramMark_images (core off n : Nat) : (sramMark core off n s).images = s.images := rfl
@[simp] theorem sramMark_groups (core off n : Nat) : (sramMark core off n s).groups = s.groups := rfl
@[simp] theorem sramMark_beam (core off n : Nat) : (sramMark core off n s).beam = s.beam := rfl
@[simp] theorem sramMark_mirror (core off n : Nat) : (sramMark core off n s).mirror = s.mirror := rfl
@[simp] theorem sramMark_binds (core off n : Nat) : (sramMark core off n s).binds = s.binds := rfl
@[simp] theorem sramMark_nports (core off n : Nat) : (sramMark core off n s).nports = s.nports := rfl
@[simp] theorem sramMark_host (core off n : Nat) : (sramMark core off n s).host = s.host := rfl
@[simp] theorem sramMark_sec (core off n : Nat) : (sramMark core off n s).sec = s.sec := rfl
@[simp] theorem sramMark_agents (core off n : Nat) : (sramMark core off n s).agents = s.agents := rfl
@[simp] theorem sramMark_ctls (core off n : Nat) : (sramMark core off n s).ctls = s.ctls := rfl
@[simp] theorem sramMark_srv (core off n : Nat) : (sramMark core off n s).srv = s.srv := rfl
@[simp] theorem sramMark_loupe (core off n : Nat) : (sramMark core off n s).loupe = s.loupe := rfl

/-! `sramClear` changes mem alone. -/
@[simp] theorem sramClear_pending (core : Nat) : (sramClear core s).pending = s.pending := rfl
@[simp] theorem sramClear_now (core : Nat) : (sramClear core s).now = s.now := rfl
@[simp] theorem sramClear_free (core : Nat) : (sramClear core s).free = s.free := rfl
@[simp] theorem sramClear_keys (core : Nat) : (sramClear core s).keys = s.keys := rfl
@[simp] theorem sramClear_sys (core : Nat) : (sramClear core s).sys = s.sys := rfl
@[simp] theorem sramClear_mbs (core : Nat) : (sramClear core s).mbs = s.mbs := rfl
@[simp] theorem sramClear_ctxs (core : Nat) : (sramClear core s).ctxs = s.ctxs := rfl
@[simp] theorem sramClear_ops (core : Nat) : (sramClear core s).ops = s.ops := rfl
@[simp] theorem sramClear_cfg (core : Nat) : (sramClear core s).cfg = s.cfg := rfl
@[simp] theorem sramClear_rings (core : Nat) : (sramClear core s).rings = s.rings := rfl
@[simp] theorem sramClear_cores (core : Nat) : (sramClear core s).cores = s.cores := rfl
@[simp] theorem sramClear_units (core : Nat) : (sramClear core s).units = s.units := rfl
@[simp] theorem sramClear_log (core : Nat) : (sramClear core s).log = s.log := rfl
@[simp] theorem sramClear_prings (core : Nat) : (sramClear core s).prings = s.prings := rfl
@[simp] theorem sramClear_chans (core : Nat) : (sramClear core s).chans = s.chans := rfl
@[simp] theorem sramClear_jobs (core : Nat) : (sramClear core s).jobs = s.jobs := rfl
@[simp] theorem sramClear_step (core : Nat) : (sramClear core s).step = s.step := rfl
@[simp] theorem sramClear_upds (core : Nat) : (sramClear core s).upds = s.upds := rfl
@[simp] theorem sramClear_sweeps (core : Nat) : (sramClear core s).sweeps = s.sweeps := rfl
@[simp] theorem sramClear_lens (core : Nat) : (sramClear core s).lens = s.lens := rfl
@[simp] theorem sramClear_images (core : Nat) : (sramClear core s).images = s.images := rfl
@[simp] theorem sramClear_groups (core : Nat) : (sramClear core s).groups = s.groups := rfl
@[simp] theorem sramClear_beam (core : Nat) : (sramClear core s).beam = s.beam := rfl
@[simp] theorem sramClear_mirror (core : Nat) : (sramClear core s).mirror = s.mirror := rfl
@[simp] theorem sramClear_binds (core : Nat) : (sramClear core s).binds = s.binds := rfl
@[simp] theorem sramClear_nports (core : Nat) : (sramClear core s).nports = s.nports := rfl
@[simp] theorem sramClear_host (core : Nat) : (sramClear core s).host = s.host := rfl
@[simp] theorem sramClear_sec (core : Nat) : (sramClear core s).sec = s.sec := rfl
@[simp] theorem sramClear_agents (core : Nat) : (sramClear core s).agents = s.agents := rfl
@[simp] theorem sramClear_ctls (core : Nat) : (sramClear core s).ctls = s.ctls := rfl
@[simp] theorem sramClear_srv (core : Nat) : (sramClear core s).srv = s.srv := rfl
@[simp] theorem sramClear_loupe (core : Nat) : (sramClear core s).loupe = s.loupe := rfl

/-! `updSweep` changes sweeps alone. -/
@[simp] theorem updSweep_pending (id : Nat) (f : Sweep → Sweep) : (updSweep id f s).pending = s.pending := rfl
@[simp] theorem updSweep_now (id : Nat) (f : Sweep → Sweep) : (updSweep id f s).now = s.now := rfl
@[simp] theorem updSweep_free (id : Nat) (f : Sweep → Sweep) : (updSweep id f s).free = s.free := rfl
@[simp] theorem updSweep_keys (id : Nat) (f : Sweep → Sweep) : (updSweep id f s).keys = s.keys := rfl
@[simp] theorem updSweep_sys (id : Nat) (f : Sweep → Sweep) : (updSweep id f s).sys = s.sys := rfl
@[simp] theorem updSweep_mbs (id : Nat) (f : Sweep → Sweep) : (updSweep id f s).mbs = s.mbs := rfl
@[simp] theorem updSweep_ctxs (id : Nat) (f : Sweep → Sweep) : (updSweep id f s).ctxs = s.ctxs := rfl
@[simp] theorem updSweep_ops (id : Nat) (f : Sweep → Sweep) : (updSweep id f s).ops = s.ops := rfl
@[simp] theorem updSweep_cfg (id : Nat) (f : Sweep → Sweep) : (updSweep id f s).cfg = s.cfg := rfl
@[simp] theorem updSweep_rings (id : Nat) (f : Sweep → Sweep) : (updSweep id f s).rings = s.rings := rfl
@[simp] theorem updSweep_cores (id : Nat) (f : Sweep → Sweep) : (updSweep id f s).cores = s.cores := rfl
@[simp] theorem updSweep_units (id : Nat) (f : Sweep → Sweep) : (updSweep id f s).units = s.units := rfl
@[simp] theorem updSweep_mem (id : Nat) (f : Sweep → Sweep) : (updSweep id f s).mem = s.mem := rfl
@[simp] theorem updSweep_log (id : Nat) (f : Sweep → Sweep) : (updSweep id f s).log = s.log := rfl
@[simp] theorem updSweep_prings (id : Nat) (f : Sweep → Sweep) : (updSweep id f s).prings = s.prings := rfl
@[simp] theorem updSweep_chans (id : Nat) (f : Sweep → Sweep) : (updSweep id f s).chans = s.chans := rfl
@[simp] theorem updSweep_jobs (id : Nat) (f : Sweep → Sweep) : (updSweep id f s).jobs = s.jobs := rfl
@[simp] theorem updSweep_step (id : Nat) (f : Sweep → Sweep) : (updSweep id f s).step = s.step := rfl
@[simp] theorem updSweep_upds (id : Nat) (f : Sweep → Sweep) : (updSweep id f s).upds = s.upds := rfl
@[simp] theorem updSweep_lens (id : Nat) (f : Sweep → Sweep) : (updSweep id f s).lens = s.lens := rfl
@[simp] theorem updSweep_images (id : Nat) (f : Sweep → Sweep) : (updSweep id f s).images = s.images := rfl
@[simp] theorem updSweep_groups (id : Nat) (f : Sweep → Sweep) : (updSweep id f s).groups = s.groups := rfl
@[simp] theorem updSweep_beam (id : Nat) (f : Sweep → Sweep) : (updSweep id f s).beam = s.beam := rfl
@[simp] theorem updSweep_mirror (id : Nat) (f : Sweep → Sweep) : (updSweep id f s).mirror = s.mirror := rfl
@[simp] theorem updSweep_binds (id : Nat) (f : Sweep → Sweep) : (updSweep id f s).binds = s.binds := rfl
@[simp] theorem updSweep_nports (id : Nat) (f : Sweep → Sweep) : (updSweep id f s).nports = s.nports := rfl
@[simp] theorem updSweep_host (id : Nat) (f : Sweep → Sweep) : (updSweep id f s).host = s.host := rfl
@[simp] theorem updSweep_sec (id : Nat) (f : Sweep → Sweep) : (updSweep id f s).sec = s.sec := rfl
@[simp] theorem updSweep_agents (id : Nat) (f : Sweep → Sweep) : (updSweep id f s).agents = s.agents := rfl
@[simp] theorem updSweep_ctls (id : Nat) (f : Sweep → Sweep) : (updSweep id f s).ctls = s.ctls := rfl
@[simp] theorem updSweep_srv (id : Nat) (f : Sweep → Sweep) : (updSweep id f s).srv = s.srv := rfl
@[simp] theorem updSweep_loupe (id : Nat) (f : Sweep → Sweep) : (updSweep id f s).loupe = s.loupe := rfl

/-! `updLoupe` changes loupe alone. -/
@[simp] theorem updLoupe_pending (f : Loupe → Loupe) : (updLoupe f s).pending = s.pending := rfl
@[simp] theorem updLoupe_now (f : Loupe → Loupe) : (updLoupe f s).now = s.now := rfl
@[simp] theorem updLoupe_free (f : Loupe → Loupe) : (updLoupe f s).free = s.free := rfl
@[simp] theorem updLoupe_keys (f : Loupe → Loupe) : (updLoupe f s).keys = s.keys := rfl
@[simp] theorem updLoupe_sys (f : Loupe → Loupe) : (updLoupe f s).sys = s.sys := rfl
@[simp] theorem updLoupe_mbs (f : Loupe → Loupe) : (updLoupe f s).mbs = s.mbs := rfl
@[simp] theorem updLoupe_ctxs (f : Loupe → Loupe) : (updLoupe f s).ctxs = s.ctxs := rfl
@[simp] theorem updLoupe_ops (f : Loupe → Loupe) : (updLoupe f s).ops = s.ops := rfl
@[simp] theorem updLoupe_cfg (f : Loupe → Loupe) : (updLoupe f s).cfg = s.cfg := rfl
@[simp] theorem updLoupe_rings (f : Loupe → Loupe) : (updLoupe f s).rings = s.rings := rfl
@[simp] theorem updLoupe_cores (f : Loupe → Loupe) : (updLoupe f s).cores = s.cores := rfl
@[simp] theorem updLoupe_units (f : Loupe → Loupe) : (updLoupe f s).units = s.units := rfl
@[simp] theorem updLoupe_mem (f : Loupe → Loupe) : (updLoupe f s).mem = s.mem := rfl
@[simp] theorem updLoupe_log (f : Loupe → Loupe) : (updLoupe f s).log = s.log := rfl
@[simp] theorem updLoupe_prings (f : Loupe → Loupe) : (updLoupe f s).prings = s.prings := rfl
@[simp] theorem updLoupe_chans (f : Loupe → Loupe) : (updLoupe f s).chans = s.chans := rfl
@[simp] theorem updLoupe_jobs (f : Loupe → Loupe) : (updLoupe f s).jobs = s.jobs := rfl
@[simp] theorem updLoupe_step (f : Loupe → Loupe) : (updLoupe f s).step = s.step := rfl
@[simp] theorem updLoupe_upds (f : Loupe → Loupe) : (updLoupe f s).upds = s.upds := rfl
@[simp] theorem updLoupe_sweeps (f : Loupe → Loupe) : (updLoupe f s).sweeps = s.sweeps := rfl
@[simp] theorem updLoupe_lens (f : Loupe → Loupe) : (updLoupe f s).lens = s.lens := rfl
@[simp] theorem updLoupe_images (f : Loupe → Loupe) : (updLoupe f s).images = s.images := rfl
@[simp] theorem updLoupe_groups (f : Loupe → Loupe) : (updLoupe f s).groups = s.groups := rfl
@[simp] theorem updLoupe_beam (f : Loupe → Loupe) : (updLoupe f s).beam = s.beam := rfl
@[simp] theorem updLoupe_mirror (f : Loupe → Loupe) : (updLoupe f s).mirror = s.mirror := rfl
@[simp] theorem updLoupe_binds (f : Loupe → Loupe) : (updLoupe f s).binds = s.binds := rfl
@[simp] theorem updLoupe_nports (f : Loupe → Loupe) : (updLoupe f s).nports = s.nports := rfl
@[simp] theorem updLoupe_host (f : Loupe → Loupe) : (updLoupe f s).host = s.host := rfl
@[simp] theorem updLoupe_sec (f : Loupe → Loupe) : (updLoupe f s).sec = s.sec := rfl
@[simp] theorem updLoupe_agents (f : Loupe → Loupe) : (updLoupe f s).agents = s.agents := rfl
@[simp] theorem updLoupe_ctls (f : Loupe → Loupe) : (updLoupe f s).ctls = s.ctls := rfl
@[simp] theorem updLoupe_srv (f : Loupe → Loupe) : (updLoupe f s).srv = s.srv := rfl
@[simp] theorem updLoupe_loupe (f : Loupe → Loupe) : (updLoupe f s).loupe = f s.loupe := rfl

/-! `mctpSend` changes sec alone. -/
@[simp] theorem mctpSend_pending (t : Nat) (bs : Bytes) : (mctpSend t bs s).pending = s.pending := rfl
@[simp] theorem mctpSend_now (t : Nat) (bs : Bytes) : (mctpSend t bs s).now = s.now := rfl
@[simp] theorem mctpSend_free (t : Nat) (bs : Bytes) : (mctpSend t bs s).free = s.free := rfl
@[simp] theorem mctpSend_keys (t : Nat) (bs : Bytes) : (mctpSend t bs s).keys = s.keys := rfl
@[simp] theorem mctpSend_sys (t : Nat) (bs : Bytes) : (mctpSend t bs s).sys = s.sys := rfl
@[simp] theorem mctpSend_mbs (t : Nat) (bs : Bytes) : (mctpSend t bs s).mbs = s.mbs := rfl
@[simp] theorem mctpSend_ctxs (t : Nat) (bs : Bytes) : (mctpSend t bs s).ctxs = s.ctxs := rfl
@[simp] theorem mctpSend_ops (t : Nat) (bs : Bytes) : (mctpSend t bs s).ops = s.ops := rfl
@[simp] theorem mctpSend_cfg (t : Nat) (bs : Bytes) : (mctpSend t bs s).cfg = s.cfg := rfl
@[simp] theorem mctpSend_rings (t : Nat) (bs : Bytes) : (mctpSend t bs s).rings = s.rings := rfl
@[simp] theorem mctpSend_cores (t : Nat) (bs : Bytes) : (mctpSend t bs s).cores = s.cores := rfl
@[simp] theorem mctpSend_units (t : Nat) (bs : Bytes) : (mctpSend t bs s).units = s.units := rfl
@[simp] theorem mctpSend_mem (t : Nat) (bs : Bytes) : (mctpSend t bs s).mem = s.mem := rfl
@[simp] theorem mctpSend_log (t : Nat) (bs : Bytes) : (mctpSend t bs s).log = s.log := rfl
@[simp] theorem mctpSend_prings (t : Nat) (bs : Bytes) : (mctpSend t bs s).prings = s.prings := rfl
@[simp] theorem mctpSend_chans (t : Nat) (bs : Bytes) : (mctpSend t bs s).chans = s.chans := rfl
@[simp] theorem mctpSend_jobs (t : Nat) (bs : Bytes) : (mctpSend t bs s).jobs = s.jobs := rfl
@[simp] theorem mctpSend_step (t : Nat) (bs : Bytes) : (mctpSend t bs s).step = s.step := rfl
@[simp] theorem mctpSend_upds (t : Nat) (bs : Bytes) : (mctpSend t bs s).upds = s.upds := rfl
@[simp] theorem mctpSend_sweeps (t : Nat) (bs : Bytes) : (mctpSend t bs s).sweeps = s.sweeps := rfl
@[simp] theorem mctpSend_lens (t : Nat) (bs : Bytes) : (mctpSend t bs s).lens = s.lens := rfl
@[simp] theorem mctpSend_images (t : Nat) (bs : Bytes) : (mctpSend t bs s).images = s.images := rfl
@[simp] theorem mctpSend_groups (t : Nat) (bs : Bytes) : (mctpSend t bs s).groups = s.groups := rfl
@[simp] theorem mctpSend_beam (t : Nat) (bs : Bytes) : (mctpSend t bs s).beam = s.beam := rfl
@[simp] theorem mctpSend_mirror (t : Nat) (bs : Bytes) : (mctpSend t bs s).mirror = s.mirror := rfl
@[simp] theorem mctpSend_binds (t : Nat) (bs : Bytes) : (mctpSend t bs s).binds = s.binds := rfl
@[simp] theorem mctpSend_nports (t : Nat) (bs : Bytes) : (mctpSend t bs s).nports = s.nports := rfl
@[simp] theorem mctpSend_host (t : Nat) (bs : Bytes) : (mctpSend t bs s).host = s.host := rfl
@[simp] theorem mctpSend_agents (t : Nat) (bs : Bytes) : (mctpSend t bs s).agents = s.agents := rfl
@[simp] theorem mctpSend_ctls (t : Nat) (bs : Bytes) : (mctpSend t bs s).ctls = s.ctls := rfl
@[simp] theorem mctpSend_srv (t : Nat) (bs : Bytes) : (mctpSend t bs s).srv = s.srv := rfl
@[simp] theorem mctpSend_loupe (t : Nat) (bs : Bytes) : (mctpSend t bs s).loupe = s.loupe := rfl

/-! `spdmSend` changes sec alone. -/
@[simp] theorem spdmSend_pending (t : Nat) (bs : Bytes) : (spdmSend t bs s).pending = s.pending := rfl
@[simp] theorem spdmSend_now (t : Nat) (bs : Bytes) : (spdmSend t bs s).now = s.now := rfl
@[simp] theorem spdmSend_free (t : Nat) (bs : Bytes) : (spdmSend t bs s).free = s.free := rfl
@[simp] theorem spdmSend_keys (t : Nat) (bs : Bytes) : (spdmSend t bs s).keys = s.keys := rfl
@[simp] theorem spdmSend_sys (t : Nat) (bs : Bytes) : (spdmSend t bs s).sys = s.sys := rfl
@[simp] theorem spdmSend_mbs (t : Nat) (bs : Bytes) : (spdmSend t bs s).mbs = s.mbs := rfl
@[simp] theorem spdmSend_ctxs (t : Nat) (bs : Bytes) : (spdmSend t bs s).ctxs = s.ctxs := rfl
@[simp] theorem spdmSend_ops (t : Nat) (bs : Bytes) : (spdmSend t bs s).ops = s.ops := rfl
@[simp] theorem spdmSend_cfg (t : Nat) (bs : Bytes) : (spdmSend t bs s).cfg = s.cfg := rfl
@[simp] theorem spdmSend_rings (t : Nat) (bs : Bytes) : (spdmSend t bs s).rings = s.rings := rfl
@[simp] theorem spdmSend_cores (t : Nat) (bs : Bytes) : (spdmSend t bs s).cores = s.cores := rfl
@[simp] theorem spdmSend_units (t : Nat) (bs : Bytes) : (spdmSend t bs s).units = s.units := rfl
@[simp] theorem spdmSend_mem (t : Nat) (bs : Bytes) : (spdmSend t bs s).mem = s.mem := rfl
@[simp] theorem spdmSend_log (t : Nat) (bs : Bytes) : (spdmSend t bs s).log = s.log := rfl
@[simp] theorem spdmSend_prings (t : Nat) (bs : Bytes) : (spdmSend t bs s).prings = s.prings := rfl
@[simp] theorem spdmSend_chans (t : Nat) (bs : Bytes) : (spdmSend t bs s).chans = s.chans := rfl
@[simp] theorem spdmSend_jobs (t : Nat) (bs : Bytes) : (spdmSend t bs s).jobs = s.jobs := rfl
@[simp] theorem spdmSend_step (t : Nat) (bs : Bytes) : (spdmSend t bs s).step = s.step := rfl
@[simp] theorem spdmSend_upds (t : Nat) (bs : Bytes) : (spdmSend t bs s).upds = s.upds := rfl
@[simp] theorem spdmSend_sweeps (t : Nat) (bs : Bytes) : (spdmSend t bs s).sweeps = s.sweeps := rfl
@[simp] theorem spdmSend_lens (t : Nat) (bs : Bytes) : (spdmSend t bs s).lens = s.lens := rfl
@[simp] theorem spdmSend_images (t : Nat) (bs : Bytes) : (spdmSend t bs s).images = s.images := rfl
@[simp] theorem spdmSend_groups (t : Nat) (bs : Bytes) : (spdmSend t bs s).groups = s.groups := rfl
@[simp] theorem spdmSend_beam (t : Nat) (bs : Bytes) : (spdmSend t bs s).beam = s.beam := rfl
@[simp] theorem spdmSend_mirror (t : Nat) (bs : Bytes) : (spdmSend t bs s).mirror = s.mirror := rfl
@[simp] theorem spdmSend_binds (t : Nat) (bs : Bytes) : (spdmSend t bs s).binds = s.binds := rfl
@[simp] theorem spdmSend_nports (t : Nat) (bs : Bytes) : (spdmSend t bs s).nports = s.nports := rfl
@[simp] theorem spdmSend_host (t : Nat) (bs : Bytes) : (spdmSend t bs s).host = s.host := rfl
@[simp] theorem spdmSend_agents (t : Nat) (bs : Bytes) : (spdmSend t bs s).agents = s.agents := rfl
@[simp] theorem spdmSend_ctls (t : Nat) (bs : Bytes) : (spdmSend t bs s).ctls = s.ctls := rfl
@[simp] theorem spdmSend_srv (t : Nat) (bs : Bytes) : (spdmSend t bs s).srv = s.srv := rfl
@[simp] theorem spdmSend_loupe (t : Nat) (bs : Bytes) : (spdmSend t bs s).loupe = s.loupe := rfl

/-! `atLeast` changes now alone. -/
@[simp] theorem atLeast_pending (t : Nat) : (atLeast t s).pending = s.pending := rfl
@[simp] theorem atLeast_now (t : Nat) : (atLeast t s).now = max s.now t := rfl
@[simp] theorem atLeast_free (t : Nat) : (atLeast t s).free = s.free := rfl
@[simp] theorem atLeast_keys (t : Nat) : (atLeast t s).keys = s.keys := rfl
@[simp] theorem atLeast_sys (t : Nat) : (atLeast t s).sys = s.sys := rfl
@[simp] theorem atLeast_mbs (t : Nat) : (atLeast t s).mbs = s.mbs := rfl
@[simp] theorem atLeast_ctxs (t : Nat) : (atLeast t s).ctxs = s.ctxs := rfl
@[simp] theorem atLeast_ops (t : Nat) : (atLeast t s).ops = s.ops := rfl
@[simp] theorem atLeast_cfg (t : Nat) : (atLeast t s).cfg = s.cfg := rfl
@[simp] theorem atLeast_rings (t : Nat) : (atLeast t s).rings = s.rings := rfl
@[simp] theorem atLeast_cores (t : Nat) : (atLeast t s).cores = s.cores := rfl
@[simp] theorem atLeast_units (t : Nat) : (atLeast t s).units = s.units := rfl
@[simp] theorem atLeast_mem (t : Nat) : (atLeast t s).mem = s.mem := rfl
@[simp] theorem atLeast_log (t : Nat) : (atLeast t s).log = s.log := rfl
@[simp] theorem atLeast_prings (t : Nat) : (atLeast t s).prings = s.prings := rfl
@[simp] theorem atLeast_chans (t : Nat) : (atLeast t s).chans = s.chans := rfl
@[simp] theorem atLeast_jobs (t : Nat) : (atLeast t s).jobs = s.jobs := rfl
@[simp] theorem atLeast_step (t : Nat) : (atLeast t s).step = s.step := rfl
@[simp] theorem atLeast_upds (t : Nat) : (atLeast t s).upds = s.upds := rfl
@[simp] theorem atLeast_sweeps (t : Nat) : (atLeast t s).sweeps = s.sweeps := rfl
@[simp] theorem atLeast_lens (t : Nat) : (atLeast t s).lens = s.lens := rfl
@[simp] theorem atLeast_images (t : Nat) : (atLeast t s).images = s.images := rfl
@[simp] theorem atLeast_groups (t : Nat) : (atLeast t s).groups = s.groups := rfl
@[simp] theorem atLeast_beam (t : Nat) : (atLeast t s).beam = s.beam := rfl
@[simp] theorem atLeast_mirror (t : Nat) : (atLeast t s).mirror = s.mirror := rfl
@[simp] theorem atLeast_binds (t : Nat) : (atLeast t s).binds = s.binds := rfl
@[simp] theorem atLeast_nports (t : Nat) : (atLeast t s).nports = s.nports := rfl
@[simp] theorem atLeast_host (t : Nat) : (atLeast t s).host = s.host := rfl
@[simp] theorem atLeast_sec (t : Nat) : (atLeast t s).sec = s.sec := rfl
@[simp] theorem atLeast_agents (t : Nat) : (atLeast t s).agents = s.agents := rfl
@[simp] theorem atLeast_ctls (t : Nat) : (atLeast t s).ctls = s.ctls := rfl
@[simp] theorem atLeast_srv (t : Nat) : (atLeast t s).srv = s.srv := rfl
@[simp] theorem atLeast_loupe (t : Nat) : (atLeast t s).loupe = s.loupe := rfl

/-! Changes of one entry are writes of the changed entry. -/
theorem State.updCtx_eq (c : Nat) (f : Context → Context) : s.updCtx c f = s.setCtx c (f (s.ctx c)) := rfl
theorem State.updRing_eq (j : Nat) (f : Ring → Ring) : s.updRing j f = s.setRing j (f (s.ring j)) := rfl
theorem State.updUnit_eq (ty inst : Nat) (f : UnitRegs → UnitRegs) : s.updUnit ty inst f = s.setUnit ty inst (f (s.unit ty inst)) := rfl
theorem State.updCore_eq (c : Nat) (f : Core → Core) : s.updCore c f = s.setCore c (f (s.core c)) := rfl
theorem State.updGroup_eq (g : Nat) (f : Group → Group) : s.updGroup g f = s.setGroup g (f (s.group g)) := rfl
theorem State.updPring_eq (ch n : Nat) (f : PRing → PRing) : s.updPring ch n f = s.setPring ch n (f (s.pring ch n)) := rfl
theorem State.updChan_eq (ch : Nat) (f : Chan → Chan) : s.updChan ch f = s.setChan ch (f (s.chan ch)) := rfl
theorem State.updUpd_eq (u : Nat) (f : Upd → Upd) : s.updUpd u f = s.setUpd u (f (s.upd u)) := rfl
theorem State.updNport_eq (p : Nat) (f : NetPort → NetPort) : s.updNport p f = s.setNport p (f (s.nport p)) := rfl
theorem State.updPort_eq (p : Nat) (f : Port → Port) : s.updPort p f = s.setPort p (f (s.port p)) := rfl
theorem State.updSrvModel_eq (m : Nat) (f : SrvModel → SrvModel) : s.updSrvModel m f = s.setSrvModel m (f (s.srvModel m)) := rfl
theorem State.updSrvEntry_eq (i : Nat) (f : SrvEntry → SrvEntry) : s.updSrvEntry i f = s.setSrvEntry i (f (s.srvEntry i)) := rfl
theorem State.updCtl_eq (c : Nat) (f : Ctl → Ctl) : s.updCtl c f = s.setCtl c (f (s.ctl c)) := rfl
@[simp] theorem State.updCtx_pending (c : Nat) (f : Context → Context) : (s.updCtx c f).pending = s.pending := rfl
@[simp] theorem State.updCtx_now (c : Nat) (f : Context → Context) : (s.updCtx c f).now = s.now := rfl
@[simp] theorem State.updCtx_free (c : Nat) (f : Context → Context) : (s.updCtx c f).free = s.free := rfl
@[simp] theorem State.updCtx_keys (c : Nat) (f : Context → Context) : (s.updCtx c f).keys = s.keys := rfl
@[simp] theorem State.updCtx_sys (c : Nat) (f : Context → Context) : (s.updCtx c f).sys = s.sys := rfl
@[simp] theorem State.updCtx_mbs (c : Nat) (f : Context → Context) : (s.updCtx c f).mbs = s.mbs := rfl
@[simp] theorem State.updCtx_ops (c : Nat) (f : Context → Context) : (s.updCtx c f).ops = s.ops := rfl
@[simp] theorem State.updCtx_cfg (c : Nat) (f : Context → Context) : (s.updCtx c f).cfg = s.cfg := rfl
@[simp] theorem State.updCtx_rings (c : Nat) (f : Context → Context) : (s.updCtx c f).rings = s.rings := rfl
@[simp] theorem State.updCtx_cores (c : Nat) (f : Context → Context) : (s.updCtx c f).cores = s.cores := rfl
@[simp] theorem State.updCtx_units (c : Nat) (f : Context → Context) : (s.updCtx c f).units = s.units := rfl
@[simp] theorem State.updCtx_mem (c : Nat) (f : Context → Context) : (s.updCtx c f).mem = s.mem := rfl
@[simp] theorem State.updCtx_log (c : Nat) (f : Context → Context) : (s.updCtx c f).log = s.log := rfl
@[simp] theorem State.updCtx_prings (c : Nat) (f : Context → Context) : (s.updCtx c f).prings = s.prings := rfl
@[simp] theorem State.updCtx_chans (c : Nat) (f : Context → Context) : (s.updCtx c f).chans = s.chans := rfl
@[simp] theorem State.updCtx_jobs (c : Nat) (f : Context → Context) : (s.updCtx c f).jobs = s.jobs := rfl
@[simp] theorem State.updCtx_step (c : Nat) (f : Context → Context) : (s.updCtx c f).step = s.step := rfl
@[simp] theorem State.updCtx_upds (c : Nat) (f : Context → Context) : (s.updCtx c f).upds = s.upds := rfl
@[simp] theorem State.updCtx_sweeps (c : Nat) (f : Context → Context) : (s.updCtx c f).sweeps = s.sweeps := rfl
@[simp] theorem State.updCtx_lens (c : Nat) (f : Context → Context) : (s.updCtx c f).lens = s.lens := rfl
@[simp] theorem State.updCtx_images (c : Nat) (f : Context → Context) : (s.updCtx c f).images = s.images := rfl
@[simp] theorem State.updCtx_groups (c : Nat) (f : Context → Context) : (s.updCtx c f).groups = s.groups := rfl
@[simp] theorem State.updCtx_beam (c : Nat) (f : Context → Context) : (s.updCtx c f).beam = s.beam := rfl
@[simp] theorem State.updCtx_mirror (c : Nat) (f : Context → Context) : (s.updCtx c f).mirror = s.mirror := rfl
@[simp] theorem State.updCtx_binds (c : Nat) (f : Context → Context) : (s.updCtx c f).binds = s.binds := rfl
@[simp] theorem State.updCtx_nports (c : Nat) (f : Context → Context) : (s.updCtx c f).nports = s.nports := rfl
@[simp] theorem State.updCtx_host (c : Nat) (f : Context → Context) : (s.updCtx c f).host = s.host := rfl
@[simp] theorem State.updCtx_sec (c : Nat) (f : Context → Context) : (s.updCtx c f).sec = s.sec := rfl
@[simp] theorem State.updCtx_agents (c : Nat) (f : Context → Context) : (s.updCtx c f).agents = s.agents := rfl
@[simp] theorem State.updCtx_ctls (c : Nat) (f : Context → Context) : (s.updCtx c f).ctls = s.ctls := rfl
@[simp] theorem State.updCtx_srv (c : Nat) (f : Context → Context) : (s.updCtx c f).srv = s.srv := rfl
@[simp] theorem State.updCtx_loupe (c : Nat) (f : Context → Context) : (s.updCtx c f).loupe = s.loupe := rfl
@[simp] theorem State.updRing_pending (j : Nat) (f : Ring → Ring) : (s.updRing j f).pending = s.pending := rfl
@[simp] theorem State.updRing_now (j : Nat) (f : Ring → Ring) : (s.updRing j f).now = s.now := rfl
@[simp] theorem State.updRing_free (j : Nat) (f : Ring → Ring) : (s.updRing j f).free = s.free := rfl
@[simp] theorem State.updRing_keys (j : Nat) (f : Ring → Ring) : (s.updRing j f).keys = s.keys := rfl
@[simp] theorem State.updRing_sys (j : Nat) (f : Ring → Ring) : (s.updRing j f).sys = s.sys := rfl
@[simp] theorem State.updRing_mbs (j : Nat) (f : Ring → Ring) : (s.updRing j f).mbs = s.mbs := rfl
@[simp] theorem State.updRing_ctxs (j : Nat) (f : Ring → Ring) : (s.updRing j f).ctxs = s.ctxs := rfl
@[simp] theorem State.updRing_ops (j : Nat) (f : Ring → Ring) : (s.updRing j f).ops = s.ops := rfl
@[simp] theorem State.updRing_cfg (j : Nat) (f : Ring → Ring) : (s.updRing j f).cfg = s.cfg := rfl
@[simp] theorem State.updRing_cores (j : Nat) (f : Ring → Ring) : (s.updRing j f).cores = s.cores := rfl
@[simp] theorem State.updRing_units (j : Nat) (f : Ring → Ring) : (s.updRing j f).units = s.units := rfl
@[simp] theorem State.updRing_mem (j : Nat) (f : Ring → Ring) : (s.updRing j f).mem = s.mem := rfl
@[simp] theorem State.updRing_log (j : Nat) (f : Ring → Ring) : (s.updRing j f).log = s.log := rfl
@[simp] theorem State.updRing_prings (j : Nat) (f : Ring → Ring) : (s.updRing j f).prings = s.prings := rfl
@[simp] theorem State.updRing_chans (j : Nat) (f : Ring → Ring) : (s.updRing j f).chans = s.chans := rfl
@[simp] theorem State.updRing_jobs (j : Nat) (f : Ring → Ring) : (s.updRing j f).jobs = s.jobs := rfl
@[simp] theorem State.updRing_step (j : Nat) (f : Ring → Ring) : (s.updRing j f).step = s.step := rfl
@[simp] theorem State.updRing_upds (j : Nat) (f : Ring → Ring) : (s.updRing j f).upds = s.upds := rfl
@[simp] theorem State.updRing_sweeps (j : Nat) (f : Ring → Ring) : (s.updRing j f).sweeps = s.sweeps := rfl
@[simp] theorem State.updRing_lens (j : Nat) (f : Ring → Ring) : (s.updRing j f).lens = s.lens := rfl
@[simp] theorem State.updRing_images (j : Nat) (f : Ring → Ring) : (s.updRing j f).images = s.images := rfl
@[simp] theorem State.updRing_groups (j : Nat) (f : Ring → Ring) : (s.updRing j f).groups = s.groups := rfl
@[simp] theorem State.updRing_beam (j : Nat) (f : Ring → Ring) : (s.updRing j f).beam = s.beam := rfl
@[simp] theorem State.updRing_mirror (j : Nat) (f : Ring → Ring) : (s.updRing j f).mirror = s.mirror := rfl
@[simp] theorem State.updRing_binds (j : Nat) (f : Ring → Ring) : (s.updRing j f).binds = s.binds := rfl
@[simp] theorem State.updRing_nports (j : Nat) (f : Ring → Ring) : (s.updRing j f).nports = s.nports := rfl
@[simp] theorem State.updRing_host (j : Nat) (f : Ring → Ring) : (s.updRing j f).host = s.host := rfl
@[simp] theorem State.updRing_sec (j : Nat) (f : Ring → Ring) : (s.updRing j f).sec = s.sec := rfl
@[simp] theorem State.updRing_agents (j : Nat) (f : Ring → Ring) : (s.updRing j f).agents = s.agents := rfl
@[simp] theorem State.updRing_ctls (j : Nat) (f : Ring → Ring) : (s.updRing j f).ctls = s.ctls := rfl
@[simp] theorem State.updRing_srv (j : Nat) (f : Ring → Ring) : (s.updRing j f).srv = s.srv := rfl
@[simp] theorem State.updRing_loupe (j : Nat) (f : Ring → Ring) : (s.updRing j f).loupe = s.loupe := rfl
@[simp] theorem State.updUnit_pending (ty inst : Nat) (f : UnitRegs → UnitRegs) : (s.updUnit ty inst f).pending = s.pending := rfl
@[simp] theorem State.updUnit_now (ty inst : Nat) (f : UnitRegs → UnitRegs) : (s.updUnit ty inst f).now = s.now := rfl
@[simp] theorem State.updUnit_free (ty inst : Nat) (f : UnitRegs → UnitRegs) : (s.updUnit ty inst f).free = s.free := rfl
@[simp] theorem State.updUnit_keys (ty inst : Nat) (f : UnitRegs → UnitRegs) : (s.updUnit ty inst f).keys = s.keys := rfl
@[simp] theorem State.updUnit_sys (ty inst : Nat) (f : UnitRegs → UnitRegs) : (s.updUnit ty inst f).sys = s.sys := rfl
@[simp] theorem State.updUnit_mbs (ty inst : Nat) (f : UnitRegs → UnitRegs) : (s.updUnit ty inst f).mbs = s.mbs := rfl
@[simp] theorem State.updUnit_ctxs (ty inst : Nat) (f : UnitRegs → UnitRegs) : (s.updUnit ty inst f).ctxs = s.ctxs := rfl
@[simp] theorem State.updUnit_ops (ty inst : Nat) (f : UnitRegs → UnitRegs) : (s.updUnit ty inst f).ops = s.ops := rfl
@[simp] theorem State.updUnit_cfg (ty inst : Nat) (f : UnitRegs → UnitRegs) : (s.updUnit ty inst f).cfg = s.cfg := rfl
@[simp] theorem State.updUnit_rings (ty inst : Nat) (f : UnitRegs → UnitRegs) : (s.updUnit ty inst f).rings = s.rings := rfl
@[simp] theorem State.updUnit_cores (ty inst : Nat) (f : UnitRegs → UnitRegs) : (s.updUnit ty inst f).cores = s.cores := rfl
@[simp] theorem State.updUnit_mem (ty inst : Nat) (f : UnitRegs → UnitRegs) : (s.updUnit ty inst f).mem = s.mem := rfl
@[simp] theorem State.updUnit_log (ty inst : Nat) (f : UnitRegs → UnitRegs) : (s.updUnit ty inst f).log = s.log := rfl
@[simp] theorem State.updUnit_prings (ty inst : Nat) (f : UnitRegs → UnitRegs) : (s.updUnit ty inst f).prings = s.prings := rfl
@[simp] theorem State.updUnit_chans (ty inst : Nat) (f : UnitRegs → UnitRegs) : (s.updUnit ty inst f).chans = s.chans := rfl
@[simp] theorem State.updUnit_jobs (ty inst : Nat) (f : UnitRegs → UnitRegs) : (s.updUnit ty inst f).jobs = s.jobs := rfl
@[simp] theorem State.updUnit_step (ty inst : Nat) (f : UnitRegs → UnitRegs) : (s.updUnit ty inst f).step = s.step := rfl
@[simp] theorem State.updUnit_upds (ty inst : Nat) (f : UnitRegs → UnitRegs) : (s.updUnit ty inst f).upds = s.upds := rfl
@[simp] theorem State.updUnit_sweeps (ty inst : Nat) (f : UnitRegs → UnitRegs) : (s.updUnit ty inst f).sweeps = s.sweeps := rfl
@[simp] theorem State.updUnit_lens (ty inst : Nat) (f : UnitRegs → UnitRegs) : (s.updUnit ty inst f).lens = s.lens := rfl
@[simp] theorem State.updUnit_images (ty inst : Nat) (f : UnitRegs → UnitRegs) : (s.updUnit ty inst f).images = s.images := rfl
@[simp] theorem State.updUnit_groups (ty inst : Nat) (f : UnitRegs → UnitRegs) : (s.updUnit ty inst f).groups = s.groups := rfl
@[simp] theorem State.updUnit_beam (ty inst : Nat) (f : UnitRegs → UnitRegs) : (s.updUnit ty inst f).beam = s.beam := rfl
@[simp] theorem State.updUnit_mirror (ty inst : Nat) (f : UnitRegs → UnitRegs) : (s.updUnit ty inst f).mirror = s.mirror := rfl
@[simp] theorem State.updUnit_binds (ty inst : Nat) (f : UnitRegs → UnitRegs) : (s.updUnit ty inst f).binds = s.binds := rfl
@[simp] theorem State.updUnit_nports (ty inst : Nat) (f : UnitRegs → UnitRegs) : (s.updUnit ty inst f).nports = s.nports := rfl
@[simp] theorem State.updUnit_host (ty inst : Nat) (f : UnitRegs → UnitRegs) : (s.updUnit ty inst f).host = s.host := rfl
@[simp] theorem State.updUnit_sec (ty inst : Nat) (f : UnitRegs → UnitRegs) : (s.updUnit ty inst f).sec = s.sec := rfl
@[simp] theorem State.updUnit_agents (ty inst : Nat) (f : UnitRegs → UnitRegs) : (s.updUnit ty inst f).agents = s.agents := rfl
@[simp] theorem State.updUnit_ctls (ty inst : Nat) (f : UnitRegs → UnitRegs) : (s.updUnit ty inst f).ctls = s.ctls := rfl
@[simp] theorem State.updUnit_srv (ty inst : Nat) (f : UnitRegs → UnitRegs) : (s.updUnit ty inst f).srv = s.srv := rfl
@[simp] theorem State.updUnit_loupe (ty inst : Nat) (f : UnitRegs → UnitRegs) : (s.updUnit ty inst f).loupe = s.loupe := rfl
@[simp] theorem State.updCore_pending (c : Nat) (f : Core → Core) : (s.updCore c f).pending = s.pending := rfl
@[simp] theorem State.updCore_now (c : Nat) (f : Core → Core) : (s.updCore c f).now = s.now := rfl
@[simp] theorem State.updCore_free (c : Nat) (f : Core → Core) : (s.updCore c f).free = s.free := rfl
@[simp] theorem State.updCore_keys (c : Nat) (f : Core → Core) : (s.updCore c f).keys = s.keys := rfl
@[simp] theorem State.updCore_sys (c : Nat) (f : Core → Core) : (s.updCore c f).sys = s.sys := rfl
@[simp] theorem State.updCore_mbs (c : Nat) (f : Core → Core) : (s.updCore c f).mbs = s.mbs := rfl
@[simp] theorem State.updCore_ctxs (c : Nat) (f : Core → Core) : (s.updCore c f).ctxs = s.ctxs := rfl
@[simp] theorem State.updCore_ops (c : Nat) (f : Core → Core) : (s.updCore c f).ops = s.ops := rfl
@[simp] theorem State.updCore_cfg (c : Nat) (f : Core → Core) : (s.updCore c f).cfg = s.cfg := rfl
@[simp] theorem State.updCore_rings (c : Nat) (f : Core → Core) : (s.updCore c f).rings = s.rings := rfl
@[simp] theorem State.updCore_units (c : Nat) (f : Core → Core) : (s.updCore c f).units = s.units := rfl
@[simp] theorem State.updCore_mem (c : Nat) (f : Core → Core) : (s.updCore c f).mem = s.mem := rfl
@[simp] theorem State.updCore_log (c : Nat) (f : Core → Core) : (s.updCore c f).log = s.log := rfl
@[simp] theorem State.updCore_prings (c : Nat) (f : Core → Core) : (s.updCore c f).prings = s.prings := rfl
@[simp] theorem State.updCore_chans (c : Nat) (f : Core → Core) : (s.updCore c f).chans = s.chans := rfl
@[simp] theorem State.updCore_jobs (c : Nat) (f : Core → Core) : (s.updCore c f).jobs = s.jobs := rfl
@[simp] theorem State.updCore_step (c : Nat) (f : Core → Core) : (s.updCore c f).step = s.step := rfl
@[simp] theorem State.updCore_upds (c : Nat) (f : Core → Core) : (s.updCore c f).upds = s.upds := rfl
@[simp] theorem State.updCore_sweeps (c : Nat) (f : Core → Core) : (s.updCore c f).sweeps = s.sweeps := rfl
@[simp] theorem State.updCore_lens (c : Nat) (f : Core → Core) : (s.updCore c f).lens = s.lens := rfl
@[simp] theorem State.updCore_images (c : Nat) (f : Core → Core) : (s.updCore c f).images = s.images := rfl
@[simp] theorem State.updCore_groups (c : Nat) (f : Core → Core) : (s.updCore c f).groups = s.groups := rfl
@[simp] theorem State.updCore_beam (c : Nat) (f : Core → Core) : (s.updCore c f).beam = s.beam := rfl
@[simp] theorem State.updCore_mirror (c : Nat) (f : Core → Core) : (s.updCore c f).mirror = s.mirror := rfl
@[simp] theorem State.updCore_binds (c : Nat) (f : Core → Core) : (s.updCore c f).binds = s.binds := rfl
@[simp] theorem State.updCore_nports (c : Nat) (f : Core → Core) : (s.updCore c f).nports = s.nports := rfl
@[simp] theorem State.updCore_host (c : Nat) (f : Core → Core) : (s.updCore c f).host = s.host := rfl
@[simp] theorem State.updCore_sec (c : Nat) (f : Core → Core) : (s.updCore c f).sec = s.sec := rfl
@[simp] theorem State.updCore_agents (c : Nat) (f : Core → Core) : (s.updCore c f).agents = s.agents := rfl
@[simp] theorem State.updCore_ctls (c : Nat) (f : Core → Core) : (s.updCore c f).ctls = s.ctls := rfl
@[simp] theorem State.updCore_srv (c : Nat) (f : Core → Core) : (s.updCore c f).srv = s.srv := rfl
@[simp] theorem State.updCore_loupe (c : Nat) (f : Core → Core) : (s.updCore c f).loupe = s.loupe := rfl
@[simp] theorem State.updGroup_pending (g : Nat) (f : Group → Group) : (s.updGroup g f).pending = s.pending := rfl
@[simp] theorem State.updGroup_now (g : Nat) (f : Group → Group) : (s.updGroup g f).now = s.now := rfl
@[simp] theorem State.updGroup_free (g : Nat) (f : Group → Group) : (s.updGroup g f).free = s.free := rfl
@[simp] theorem State.updGroup_keys (g : Nat) (f : Group → Group) : (s.updGroup g f).keys = s.keys := rfl
@[simp] theorem State.updGroup_sys (g : Nat) (f : Group → Group) : (s.updGroup g f).sys = s.sys := rfl
@[simp] theorem State.updGroup_mbs (g : Nat) (f : Group → Group) : (s.updGroup g f).mbs = s.mbs := rfl
@[simp] theorem State.updGroup_ctxs (g : Nat) (f : Group → Group) : (s.updGroup g f).ctxs = s.ctxs := rfl
@[simp] theorem State.updGroup_ops (g : Nat) (f : Group → Group) : (s.updGroup g f).ops = s.ops := rfl
@[simp] theorem State.updGroup_cfg (g : Nat) (f : Group → Group) : (s.updGroup g f).cfg = s.cfg := rfl
@[simp] theorem State.updGroup_rings (g : Nat) (f : Group → Group) : (s.updGroup g f).rings = s.rings := rfl
@[simp] theorem State.updGroup_cores (g : Nat) (f : Group → Group) : (s.updGroup g f).cores = s.cores := rfl
@[simp] theorem State.updGroup_units (g : Nat) (f : Group → Group) : (s.updGroup g f).units = s.units := rfl
@[simp] theorem State.updGroup_mem (g : Nat) (f : Group → Group) : (s.updGroup g f).mem = s.mem := rfl
@[simp] theorem State.updGroup_log (g : Nat) (f : Group → Group) : (s.updGroup g f).log = s.log := rfl
@[simp] theorem State.updGroup_prings (g : Nat) (f : Group → Group) : (s.updGroup g f).prings = s.prings := rfl
@[simp] theorem State.updGroup_chans (g : Nat) (f : Group → Group) : (s.updGroup g f).chans = s.chans := rfl
@[simp] theorem State.updGroup_jobs (g : Nat) (f : Group → Group) : (s.updGroup g f).jobs = s.jobs := rfl
@[simp] theorem State.updGroup_step (g : Nat) (f : Group → Group) : (s.updGroup g f).step = s.step := rfl
@[simp] theorem State.updGroup_upds (g : Nat) (f : Group → Group) : (s.updGroup g f).upds = s.upds := rfl
@[simp] theorem State.updGroup_sweeps (g : Nat) (f : Group → Group) : (s.updGroup g f).sweeps = s.sweeps := rfl
@[simp] theorem State.updGroup_lens (g : Nat) (f : Group → Group) : (s.updGroup g f).lens = s.lens := rfl
@[simp] theorem State.updGroup_images (g : Nat) (f : Group → Group) : (s.updGroup g f).images = s.images := rfl
@[simp] theorem State.updGroup_beam (g : Nat) (f : Group → Group) : (s.updGroup g f).beam = s.beam := rfl
@[simp] theorem State.updGroup_mirror (g : Nat) (f : Group → Group) : (s.updGroup g f).mirror = s.mirror := rfl
@[simp] theorem State.updGroup_binds (g : Nat) (f : Group → Group) : (s.updGroup g f).binds = s.binds := rfl
@[simp] theorem State.updGroup_nports (g : Nat) (f : Group → Group) : (s.updGroup g f).nports = s.nports := rfl
@[simp] theorem State.updGroup_host (g : Nat) (f : Group → Group) : (s.updGroup g f).host = s.host := rfl
@[simp] theorem State.updGroup_sec (g : Nat) (f : Group → Group) : (s.updGroup g f).sec = s.sec := rfl
@[simp] theorem State.updGroup_agents (g : Nat) (f : Group → Group) : (s.updGroup g f).agents = s.agents := rfl
@[simp] theorem State.updGroup_ctls (g : Nat) (f : Group → Group) : (s.updGroup g f).ctls = s.ctls := rfl
@[simp] theorem State.updGroup_srv (g : Nat) (f : Group → Group) : (s.updGroup g f).srv = s.srv := rfl
@[simp] theorem State.updGroup_loupe (g : Nat) (f : Group → Group) : (s.updGroup g f).loupe = s.loupe := rfl
@[simp] theorem State.updPring_pending (ch n : Nat) (f : PRing → PRing) : (s.updPring ch n f).pending = s.pending := rfl
@[simp] theorem State.updPring_now (ch n : Nat) (f : PRing → PRing) : (s.updPring ch n f).now = s.now := rfl
@[simp] theorem State.updPring_free (ch n : Nat) (f : PRing → PRing) : (s.updPring ch n f).free = s.free := rfl
@[simp] theorem State.updPring_keys (ch n : Nat) (f : PRing → PRing) : (s.updPring ch n f).keys = s.keys := rfl
@[simp] theorem State.updPring_sys (ch n : Nat) (f : PRing → PRing) : (s.updPring ch n f).sys = s.sys := rfl
@[simp] theorem State.updPring_mbs (ch n : Nat) (f : PRing → PRing) : (s.updPring ch n f).mbs = s.mbs := rfl
@[simp] theorem State.updPring_ctxs (ch n : Nat) (f : PRing → PRing) : (s.updPring ch n f).ctxs = s.ctxs := rfl
@[simp] theorem State.updPring_ops (ch n : Nat) (f : PRing → PRing) : (s.updPring ch n f).ops = s.ops := rfl
@[simp] theorem State.updPring_cfg (ch n : Nat) (f : PRing → PRing) : (s.updPring ch n f).cfg = s.cfg := rfl
@[simp] theorem State.updPring_rings (ch n : Nat) (f : PRing → PRing) : (s.updPring ch n f).rings = s.rings := rfl
@[simp] theorem State.updPring_cores (ch n : Nat) (f : PRing → PRing) : (s.updPring ch n f).cores = s.cores := rfl
@[simp] theorem State.updPring_units (ch n : Nat) (f : PRing → PRing) : (s.updPring ch n f).units = s.units := rfl
@[simp] theorem State.updPring_mem (ch n : Nat) (f : PRing → PRing) : (s.updPring ch n f).mem = s.mem := rfl
@[simp] theorem State.updPring_log (ch n : Nat) (f : PRing → PRing) : (s.updPring ch n f).log = s.log := rfl
@[simp] theorem State.updPring_chans (ch n : Nat) (f : PRing → PRing) : (s.updPring ch n f).chans = s.chans := rfl
@[simp] theorem State.updPring_jobs (ch n : Nat) (f : PRing → PRing) : (s.updPring ch n f).jobs = s.jobs := rfl
@[simp] theorem State.updPring_step (ch n : Nat) (f : PRing → PRing) : (s.updPring ch n f).step = s.step := rfl
@[simp] theorem State.updPring_upds (ch n : Nat) (f : PRing → PRing) : (s.updPring ch n f).upds = s.upds := rfl
@[simp] theorem State.updPring_sweeps (ch n : Nat) (f : PRing → PRing) : (s.updPring ch n f).sweeps = s.sweeps := rfl
@[simp] theorem State.updPring_lens (ch n : Nat) (f : PRing → PRing) : (s.updPring ch n f).lens = s.lens := rfl
@[simp] theorem State.updPring_images (ch n : Nat) (f : PRing → PRing) : (s.updPring ch n f).images = s.images := rfl
@[simp] theorem State.updPring_groups (ch n : Nat) (f : PRing → PRing) : (s.updPring ch n f).groups = s.groups := rfl
@[simp] theorem State.updPring_beam (ch n : Nat) (f : PRing → PRing) : (s.updPring ch n f).beam = s.beam := rfl
@[simp] theorem State.updPring_mirror (ch n : Nat) (f : PRing → PRing) : (s.updPring ch n f).mirror = s.mirror := rfl
@[simp] theorem State.updPring_binds (ch n : Nat) (f : PRing → PRing) : (s.updPring ch n f).binds = s.binds := rfl
@[simp] theorem State.updPring_nports (ch n : Nat) (f : PRing → PRing) : (s.updPring ch n f).nports = s.nports := rfl
@[simp] theorem State.updPring_host (ch n : Nat) (f : PRing → PRing) : (s.updPring ch n f).host = s.host := rfl
@[simp] theorem State.updPring_sec (ch n : Nat) (f : PRing → PRing) : (s.updPring ch n f).sec = s.sec := rfl
@[simp] theorem State.updPring_agents (ch n : Nat) (f : PRing → PRing) : (s.updPring ch n f).agents = s.agents := rfl
@[simp] theorem State.updPring_ctls (ch n : Nat) (f : PRing → PRing) : (s.updPring ch n f).ctls = s.ctls := rfl
@[simp] theorem State.updPring_srv (ch n : Nat) (f : PRing → PRing) : (s.updPring ch n f).srv = s.srv := rfl
@[simp] theorem State.updPring_loupe (ch n : Nat) (f : PRing → PRing) : (s.updPring ch n f).loupe = s.loupe := rfl
@[simp] theorem State.updChan_pending (ch : Nat) (f : Chan → Chan) : (s.updChan ch f).pending = s.pending := rfl
@[simp] theorem State.updChan_now (ch : Nat) (f : Chan → Chan) : (s.updChan ch f).now = s.now := rfl
@[simp] theorem State.updChan_free (ch : Nat) (f : Chan → Chan) : (s.updChan ch f).free = s.free := rfl
@[simp] theorem State.updChan_keys (ch : Nat) (f : Chan → Chan) : (s.updChan ch f).keys = s.keys := rfl
@[simp] theorem State.updChan_sys (ch : Nat) (f : Chan → Chan) : (s.updChan ch f).sys = s.sys := rfl
@[simp] theorem State.updChan_mbs (ch : Nat) (f : Chan → Chan) : (s.updChan ch f).mbs = s.mbs := rfl
@[simp] theorem State.updChan_ctxs (ch : Nat) (f : Chan → Chan) : (s.updChan ch f).ctxs = s.ctxs := rfl
@[simp] theorem State.updChan_ops (ch : Nat) (f : Chan → Chan) : (s.updChan ch f).ops = s.ops := rfl
@[simp] theorem State.updChan_cfg (ch : Nat) (f : Chan → Chan) : (s.updChan ch f).cfg = s.cfg := rfl
@[simp] theorem State.updChan_rings (ch : Nat) (f : Chan → Chan) : (s.updChan ch f).rings = s.rings := rfl
@[simp] theorem State.updChan_cores (ch : Nat) (f : Chan → Chan) : (s.updChan ch f).cores = s.cores := rfl
@[simp] theorem State.updChan_units (ch : Nat) (f : Chan → Chan) : (s.updChan ch f).units = s.units := rfl
@[simp] theorem State.updChan_mem (ch : Nat) (f : Chan → Chan) : (s.updChan ch f).mem = s.mem := rfl
@[simp] theorem State.updChan_log (ch : Nat) (f : Chan → Chan) : (s.updChan ch f).log = s.log := rfl
@[simp] theorem State.updChan_prings (ch : Nat) (f : Chan → Chan) : (s.updChan ch f).prings = s.prings := rfl
@[simp] theorem State.updChan_jobs (ch : Nat) (f : Chan → Chan) : (s.updChan ch f).jobs = s.jobs := rfl
@[simp] theorem State.updChan_step (ch : Nat) (f : Chan → Chan) : (s.updChan ch f).step = s.step := rfl
@[simp] theorem State.updChan_upds (ch : Nat) (f : Chan → Chan) : (s.updChan ch f).upds = s.upds := rfl
@[simp] theorem State.updChan_sweeps (ch : Nat) (f : Chan → Chan) : (s.updChan ch f).sweeps = s.sweeps := rfl
@[simp] theorem State.updChan_lens (ch : Nat) (f : Chan → Chan) : (s.updChan ch f).lens = s.lens := rfl
@[simp] theorem State.updChan_images (ch : Nat) (f : Chan → Chan) : (s.updChan ch f).images = s.images := rfl
@[simp] theorem State.updChan_groups (ch : Nat) (f : Chan → Chan) : (s.updChan ch f).groups = s.groups := rfl
@[simp] theorem State.updChan_beam (ch : Nat) (f : Chan → Chan) : (s.updChan ch f).beam = s.beam := rfl
@[simp] theorem State.updChan_mirror (ch : Nat) (f : Chan → Chan) : (s.updChan ch f).mirror = s.mirror := rfl
@[simp] theorem State.updChan_binds (ch : Nat) (f : Chan → Chan) : (s.updChan ch f).binds = s.binds := rfl
@[simp] theorem State.updChan_nports (ch : Nat) (f : Chan → Chan) : (s.updChan ch f).nports = s.nports := rfl
@[simp] theorem State.updChan_host (ch : Nat) (f : Chan → Chan) : (s.updChan ch f).host = s.host := rfl
@[simp] theorem State.updChan_sec (ch : Nat) (f : Chan → Chan) : (s.updChan ch f).sec = s.sec := rfl
@[simp] theorem State.updChan_agents (ch : Nat) (f : Chan → Chan) : (s.updChan ch f).agents = s.agents := rfl
@[simp] theorem State.updChan_ctls (ch : Nat) (f : Chan → Chan) : (s.updChan ch f).ctls = s.ctls := rfl
@[simp] theorem State.updChan_srv (ch : Nat) (f : Chan → Chan) : (s.updChan ch f).srv = s.srv := rfl
@[simp] theorem State.updChan_loupe (ch : Nat) (f : Chan → Chan) : (s.updChan ch f).loupe = s.loupe := rfl
@[simp] theorem State.updUpd_pending (u : Nat) (f : Upd → Upd) : (s.updUpd u f).pending = s.pending := rfl
@[simp] theorem State.updUpd_now (u : Nat) (f : Upd → Upd) : (s.updUpd u f).now = s.now := rfl
@[simp] theorem State.updUpd_free (u : Nat) (f : Upd → Upd) : (s.updUpd u f).free = s.free := rfl
@[simp] theorem State.updUpd_keys (u : Nat) (f : Upd → Upd) : (s.updUpd u f).keys = s.keys := rfl
@[simp] theorem State.updUpd_sys (u : Nat) (f : Upd → Upd) : (s.updUpd u f).sys = s.sys := rfl
@[simp] theorem State.updUpd_mbs (u : Nat) (f : Upd → Upd) : (s.updUpd u f).mbs = s.mbs := rfl
@[simp] theorem State.updUpd_ctxs (u : Nat) (f : Upd → Upd) : (s.updUpd u f).ctxs = s.ctxs := rfl
@[simp] theorem State.updUpd_ops (u : Nat) (f : Upd → Upd) : (s.updUpd u f).ops = s.ops := rfl
@[simp] theorem State.updUpd_cfg (u : Nat) (f : Upd → Upd) : (s.updUpd u f).cfg = s.cfg := rfl
@[simp] theorem State.updUpd_rings (u : Nat) (f : Upd → Upd) : (s.updUpd u f).rings = s.rings := rfl
@[simp] theorem State.updUpd_cores (u : Nat) (f : Upd → Upd) : (s.updUpd u f).cores = s.cores := rfl
@[simp] theorem State.updUpd_units (u : Nat) (f : Upd → Upd) : (s.updUpd u f).units = s.units := rfl
@[simp] theorem State.updUpd_mem (u : Nat) (f : Upd → Upd) : (s.updUpd u f).mem = s.mem := rfl
@[simp] theorem State.updUpd_log (u : Nat) (f : Upd → Upd) : (s.updUpd u f).log = s.log := rfl
@[simp] theorem State.updUpd_prings (u : Nat) (f : Upd → Upd) : (s.updUpd u f).prings = s.prings := rfl
@[simp] theorem State.updUpd_chans (u : Nat) (f : Upd → Upd) : (s.updUpd u f).chans = s.chans := rfl
@[simp] theorem State.updUpd_jobs (u : Nat) (f : Upd → Upd) : (s.updUpd u f).jobs = s.jobs := rfl
@[simp] theorem State.updUpd_step (u : Nat) (f : Upd → Upd) : (s.updUpd u f).step = s.step := rfl
@[simp] theorem State.updUpd_sweeps (u : Nat) (f : Upd → Upd) : (s.updUpd u f).sweeps = s.sweeps := rfl
@[simp] theorem State.updUpd_lens (u : Nat) (f : Upd → Upd) : (s.updUpd u f).lens = s.lens := rfl
@[simp] theorem State.updUpd_images (u : Nat) (f : Upd → Upd) : (s.updUpd u f).images = s.images := rfl
@[simp] theorem State.updUpd_groups (u : Nat) (f : Upd → Upd) : (s.updUpd u f).groups = s.groups := rfl
@[simp] theorem State.updUpd_beam (u : Nat) (f : Upd → Upd) : (s.updUpd u f).beam = s.beam := rfl
@[simp] theorem State.updUpd_mirror (u : Nat) (f : Upd → Upd) : (s.updUpd u f).mirror = s.mirror := rfl
@[simp] theorem State.updUpd_binds (u : Nat) (f : Upd → Upd) : (s.updUpd u f).binds = s.binds := rfl
@[simp] theorem State.updUpd_nports (u : Nat) (f : Upd → Upd) : (s.updUpd u f).nports = s.nports := rfl
@[simp] theorem State.updUpd_host (u : Nat) (f : Upd → Upd) : (s.updUpd u f).host = s.host := rfl
@[simp] theorem State.updUpd_sec (u : Nat) (f : Upd → Upd) : (s.updUpd u f).sec = s.sec := rfl
@[simp] theorem State.updUpd_agents (u : Nat) (f : Upd → Upd) : (s.updUpd u f).agents = s.agents := rfl
@[simp] theorem State.updUpd_ctls (u : Nat) (f : Upd → Upd) : (s.updUpd u f).ctls = s.ctls := rfl
@[simp] theorem State.updUpd_srv (u : Nat) (f : Upd → Upd) : (s.updUpd u f).srv = s.srv := rfl
@[simp] theorem State.updUpd_loupe (u : Nat) (f : Upd → Upd) : (s.updUpd u f).loupe = s.loupe := rfl
@[simp] theorem State.updNport_pending (p : Nat) (f : NetPort → NetPort) : (s.updNport p f).pending = s.pending := rfl
@[simp] theorem State.updNport_now (p : Nat) (f : NetPort → NetPort) : (s.updNport p f).now = s.now := rfl
@[simp] theorem State.updNport_free (p : Nat) (f : NetPort → NetPort) : (s.updNport p f).free = s.free := rfl
@[simp] theorem State.updNport_keys (p : Nat) (f : NetPort → NetPort) : (s.updNport p f).keys = s.keys := rfl
@[simp] theorem State.updNport_sys (p : Nat) (f : NetPort → NetPort) : (s.updNport p f).sys = s.sys := rfl
@[simp] theorem State.updNport_mbs (p : Nat) (f : NetPort → NetPort) : (s.updNport p f).mbs = s.mbs := rfl
@[simp] theorem State.updNport_ctxs (p : Nat) (f : NetPort → NetPort) : (s.updNport p f).ctxs = s.ctxs := rfl
@[simp] theorem State.updNport_ops (p : Nat) (f : NetPort → NetPort) : (s.updNport p f).ops = s.ops := rfl
@[simp] theorem State.updNport_cfg (p : Nat) (f : NetPort → NetPort) : (s.updNport p f).cfg = s.cfg := rfl
@[simp] theorem State.updNport_rings (p : Nat) (f : NetPort → NetPort) : (s.updNport p f).rings = s.rings := rfl
@[simp] theorem State.updNport_cores (p : Nat) (f : NetPort → NetPort) : (s.updNport p f).cores = s.cores := rfl
@[simp] theorem State.updNport_units (p : Nat) (f : NetPort → NetPort) : (s.updNport p f).units = s.units := rfl
@[simp] theorem State.updNport_mem (p : Nat) (f : NetPort → NetPort) : (s.updNport p f).mem = s.mem := rfl
@[simp] theorem State.updNport_log (p : Nat) (f : NetPort → NetPort) : (s.updNport p f).log = s.log := rfl
@[simp] theorem State.updNport_prings (p : Nat) (f : NetPort → NetPort) : (s.updNport p f).prings = s.prings := rfl
@[simp] theorem State.updNport_chans (p : Nat) (f : NetPort → NetPort) : (s.updNport p f).chans = s.chans := rfl
@[simp] theorem State.updNport_jobs (p : Nat) (f : NetPort → NetPort) : (s.updNport p f).jobs = s.jobs := rfl
@[simp] theorem State.updNport_step (p : Nat) (f : NetPort → NetPort) : (s.updNport p f).step = s.step := rfl
@[simp] theorem State.updNport_upds (p : Nat) (f : NetPort → NetPort) : (s.updNport p f).upds = s.upds := rfl
@[simp] theorem State.updNport_sweeps (p : Nat) (f : NetPort → NetPort) : (s.updNport p f).sweeps = s.sweeps := rfl
@[simp] theorem State.updNport_lens (p : Nat) (f : NetPort → NetPort) : (s.updNport p f).lens = s.lens := rfl
@[simp] theorem State.updNport_images (p : Nat) (f : NetPort → NetPort) : (s.updNport p f).images = s.images := rfl
@[simp] theorem State.updNport_groups (p : Nat) (f : NetPort → NetPort) : (s.updNport p f).groups = s.groups := rfl
@[simp] theorem State.updNport_beam (p : Nat) (f : NetPort → NetPort) : (s.updNport p f).beam = s.beam := rfl
@[simp] theorem State.updNport_mirror (p : Nat) (f : NetPort → NetPort) : (s.updNport p f).mirror = s.mirror := rfl
@[simp] theorem State.updNport_binds (p : Nat) (f : NetPort → NetPort) : (s.updNport p f).binds = s.binds := rfl
@[simp] theorem State.updNport_host (p : Nat) (f : NetPort → NetPort) : (s.updNport p f).host = s.host := rfl
@[simp] theorem State.updNport_sec (p : Nat) (f : NetPort → NetPort) : (s.updNport p f).sec = s.sec := rfl
@[simp] theorem State.updNport_agents (p : Nat) (f : NetPort → NetPort) : (s.updNport p f).agents = s.agents := rfl
@[simp] theorem State.updNport_ctls (p : Nat) (f : NetPort → NetPort) : (s.updNport p f).ctls = s.ctls := rfl
@[simp] theorem State.updNport_srv (p : Nat) (f : NetPort → NetPort) : (s.updNport p f).srv = s.srv := rfl
@[simp] theorem State.updNport_loupe (p : Nat) (f : NetPort → NetPort) : (s.updNport p f).loupe = s.loupe := rfl
@[simp] theorem State.updPort_pending (p : Nat) (f : Port → Port) : (s.updPort p f).pending = s.pending := rfl
@[simp] theorem State.updPort_now (p : Nat) (f : Port → Port) : (s.updPort p f).now = s.now := rfl
@[simp] theorem State.updPort_free (p : Nat) (f : Port → Port) : (s.updPort p f).free = s.free := rfl
@[simp] theorem State.updPort_keys (p : Nat) (f : Port → Port) : (s.updPort p f).keys = s.keys := rfl
@[simp] theorem State.updPort_sys (p : Nat) (f : Port → Port) : (s.updPort p f).sys = s.sys := rfl
@[simp] theorem State.updPort_mbs (p : Nat) (f : Port → Port) : (s.updPort p f).mbs = s.mbs := rfl
@[simp] theorem State.updPort_ctxs (p : Nat) (f : Port → Port) : (s.updPort p f).ctxs = s.ctxs := rfl
@[simp] theorem State.updPort_ops (p : Nat) (f : Port → Port) : (s.updPort p f).ops = s.ops := rfl
@[simp] theorem State.updPort_cfg (p : Nat) (f : Port → Port) : (s.updPort p f).cfg = s.cfg := rfl
@[simp] theorem State.updPort_rings (p : Nat) (f : Port → Port) : (s.updPort p f).rings = s.rings := rfl
@[simp] theorem State.updPort_cores (p : Nat) (f : Port → Port) : (s.updPort p f).cores = s.cores := rfl
@[simp] theorem State.updPort_units (p : Nat) (f : Port → Port) : (s.updPort p f).units = s.units := rfl
@[simp] theorem State.updPort_mem (p : Nat) (f : Port → Port) : (s.updPort p f).mem = s.mem := rfl
@[simp] theorem State.updPort_log (p : Nat) (f : Port → Port) : (s.updPort p f).log = s.log := rfl
@[simp] theorem State.updPort_prings (p : Nat) (f : Port → Port) : (s.updPort p f).prings = s.prings := rfl
@[simp] theorem State.updPort_chans (p : Nat) (f : Port → Port) : (s.updPort p f).chans = s.chans := rfl
@[simp] theorem State.updPort_jobs (p : Nat) (f : Port → Port) : (s.updPort p f).jobs = s.jobs := rfl
@[simp] theorem State.updPort_step (p : Nat) (f : Port → Port) : (s.updPort p f).step = s.step := rfl
@[simp] theorem State.updPort_upds (p : Nat) (f : Port → Port) : (s.updPort p f).upds = s.upds := rfl
@[simp] theorem State.updPort_sweeps (p : Nat) (f : Port → Port) : (s.updPort p f).sweeps = s.sweeps := rfl
@[simp] theorem State.updPort_lens (p : Nat) (f : Port → Port) : (s.updPort p f).lens = s.lens := rfl
@[simp] theorem State.updPort_images (p : Nat) (f : Port → Port) : (s.updPort p f).images = s.images := rfl
@[simp] theorem State.updPort_groups (p : Nat) (f : Port → Port) : (s.updPort p f).groups = s.groups := rfl
@[simp] theorem State.updPort_mirror (p : Nat) (f : Port → Port) : (s.updPort p f).mirror = s.mirror := rfl
@[simp] theorem State.updPort_binds (p : Nat) (f : Port → Port) : (s.updPort p f).binds = s.binds := rfl
@[simp] theorem State.updPort_nports (p : Nat) (f : Port → Port) : (s.updPort p f).nports = s.nports := rfl
@[simp] theorem State.updPort_host (p : Nat) (f : Port → Port) : (s.updPort p f).host = s.host := rfl
@[simp] theorem State.updPort_sec (p : Nat) (f : Port → Port) : (s.updPort p f).sec = s.sec := rfl
@[simp] theorem State.updPort_agents (p : Nat) (f : Port → Port) : (s.updPort p f).agents = s.agents := rfl
@[simp] theorem State.updPort_ctls (p : Nat) (f : Port → Port) : (s.updPort p f).ctls = s.ctls := rfl
@[simp] theorem State.updPort_srv (p : Nat) (f : Port → Port) : (s.updPort p f).srv = s.srv := rfl
@[simp] theorem State.updPort_loupe (p : Nat) (f : Port → Port) : (s.updPort p f).loupe = s.loupe := rfl
@[simp] theorem State.updSrvModel_pending (m : Nat) (f : SrvModel → SrvModel) : (s.updSrvModel m f).pending = s.pending := rfl
@[simp] theorem State.updSrvModel_now (m : Nat) (f : SrvModel → SrvModel) : (s.updSrvModel m f).now = s.now := rfl
@[simp] theorem State.updSrvModel_free (m : Nat) (f : SrvModel → SrvModel) : (s.updSrvModel m f).free = s.free := rfl
@[simp] theorem State.updSrvModel_keys (m : Nat) (f : SrvModel → SrvModel) : (s.updSrvModel m f).keys = s.keys := rfl
@[simp] theorem State.updSrvModel_sys (m : Nat) (f : SrvModel → SrvModel) : (s.updSrvModel m f).sys = s.sys := rfl
@[simp] theorem State.updSrvModel_mbs (m : Nat) (f : SrvModel → SrvModel) : (s.updSrvModel m f).mbs = s.mbs := rfl
@[simp] theorem State.updSrvModel_ctxs (m : Nat) (f : SrvModel → SrvModel) : (s.updSrvModel m f).ctxs = s.ctxs := rfl
@[simp] theorem State.updSrvModel_ops (m : Nat) (f : SrvModel → SrvModel) : (s.updSrvModel m f).ops = s.ops := rfl
@[simp] theorem State.updSrvModel_cfg (m : Nat) (f : SrvModel → SrvModel) : (s.updSrvModel m f).cfg = s.cfg := rfl
@[simp] theorem State.updSrvModel_rings (m : Nat) (f : SrvModel → SrvModel) : (s.updSrvModel m f).rings = s.rings := rfl
@[simp] theorem State.updSrvModel_cores (m : Nat) (f : SrvModel → SrvModel) : (s.updSrvModel m f).cores = s.cores := rfl
@[simp] theorem State.updSrvModel_units (m : Nat) (f : SrvModel → SrvModel) : (s.updSrvModel m f).units = s.units := rfl
@[simp] theorem State.updSrvModel_mem (m : Nat) (f : SrvModel → SrvModel) : (s.updSrvModel m f).mem = s.mem := rfl
@[simp] theorem State.updSrvModel_log (m : Nat) (f : SrvModel → SrvModel) : (s.updSrvModel m f).log = s.log := rfl
@[simp] theorem State.updSrvModel_prings (m : Nat) (f : SrvModel → SrvModel) : (s.updSrvModel m f).prings = s.prings := rfl
@[simp] theorem State.updSrvModel_chans (m : Nat) (f : SrvModel → SrvModel) : (s.updSrvModel m f).chans = s.chans := rfl
@[simp] theorem State.updSrvModel_jobs (m : Nat) (f : SrvModel → SrvModel) : (s.updSrvModel m f).jobs = s.jobs := rfl
@[simp] theorem State.updSrvModel_step (m : Nat) (f : SrvModel → SrvModel) : (s.updSrvModel m f).step = s.step := rfl
@[simp] theorem State.updSrvModel_upds (m : Nat) (f : SrvModel → SrvModel) : (s.updSrvModel m f).upds = s.upds := rfl
@[simp] theorem State.updSrvModel_sweeps (m : Nat) (f : SrvModel → SrvModel) : (s.updSrvModel m f).sweeps = s.sweeps := rfl
@[simp] theorem State.updSrvModel_lens (m : Nat) (f : SrvModel → SrvModel) : (s.updSrvModel m f).lens = s.lens := rfl
@[simp] theorem State.updSrvModel_images (m : Nat) (f : SrvModel → SrvModel) : (s.updSrvModel m f).images = s.images := rfl
@[simp] theorem State.updSrvModel_groups (m : Nat) (f : SrvModel → SrvModel) : (s.updSrvModel m f).groups = s.groups := rfl
@[simp] theorem State.updSrvModel_beam (m : Nat) (f : SrvModel → SrvModel) : (s.updSrvModel m f).beam = s.beam := rfl
@[simp] theorem State.updSrvModel_mirror (m : Nat) (f : SrvModel → SrvModel) : (s.updSrvModel m f).mirror = s.mirror := rfl
@[simp] theorem State.updSrvModel_binds (m : Nat) (f : SrvModel → SrvModel) : (s.updSrvModel m f).binds = s.binds := rfl
@[simp] theorem State.updSrvModel_nports (m : Nat) (f : SrvModel → SrvModel) : (s.updSrvModel m f).nports = s.nports := rfl
@[simp] theorem State.updSrvModel_host (m : Nat) (f : SrvModel → SrvModel) : (s.updSrvModel m f).host = s.host := rfl
@[simp] theorem State.updSrvModel_sec (m : Nat) (f : SrvModel → SrvModel) : (s.updSrvModel m f).sec = s.sec := rfl
@[simp] theorem State.updSrvModel_agents (m : Nat) (f : SrvModel → SrvModel) : (s.updSrvModel m f).agents = s.agents := rfl
@[simp] theorem State.updSrvModel_ctls (m : Nat) (f : SrvModel → SrvModel) : (s.updSrvModel m f).ctls = s.ctls := rfl
@[simp] theorem State.updSrvModel_loupe (m : Nat) (f : SrvModel → SrvModel) : (s.updSrvModel m f).loupe = s.loupe := rfl
@[simp] theorem State.updSrvEntry_pending (i : Nat) (f : SrvEntry → SrvEntry) : (s.updSrvEntry i f).pending = s.pending := rfl
@[simp] theorem State.updSrvEntry_now (i : Nat) (f : SrvEntry → SrvEntry) : (s.updSrvEntry i f).now = s.now := rfl
@[simp] theorem State.updSrvEntry_free (i : Nat) (f : SrvEntry → SrvEntry) : (s.updSrvEntry i f).free = s.free := rfl
@[simp] theorem State.updSrvEntry_keys (i : Nat) (f : SrvEntry → SrvEntry) : (s.updSrvEntry i f).keys = s.keys := rfl
@[simp] theorem State.updSrvEntry_sys (i : Nat) (f : SrvEntry → SrvEntry) : (s.updSrvEntry i f).sys = s.sys := rfl
@[simp] theorem State.updSrvEntry_mbs (i : Nat) (f : SrvEntry → SrvEntry) : (s.updSrvEntry i f).mbs = s.mbs := rfl
@[simp] theorem State.updSrvEntry_ctxs (i : Nat) (f : SrvEntry → SrvEntry) : (s.updSrvEntry i f).ctxs = s.ctxs := rfl
@[simp] theorem State.updSrvEntry_ops (i : Nat) (f : SrvEntry → SrvEntry) : (s.updSrvEntry i f).ops = s.ops := rfl
@[simp] theorem State.updSrvEntry_cfg (i : Nat) (f : SrvEntry → SrvEntry) : (s.updSrvEntry i f).cfg = s.cfg := rfl
@[simp] theorem State.updSrvEntry_rings (i : Nat) (f : SrvEntry → SrvEntry) : (s.updSrvEntry i f).rings = s.rings := rfl
@[simp] theorem State.updSrvEntry_cores (i : Nat) (f : SrvEntry → SrvEntry) : (s.updSrvEntry i f).cores = s.cores := rfl
@[simp] theorem State.updSrvEntry_units (i : Nat) (f : SrvEntry → SrvEntry) : (s.updSrvEntry i f).units = s.units := rfl
@[simp] theorem State.updSrvEntry_mem (i : Nat) (f : SrvEntry → SrvEntry) : (s.updSrvEntry i f).mem = s.mem := rfl
@[simp] theorem State.updSrvEntry_log (i : Nat) (f : SrvEntry → SrvEntry) : (s.updSrvEntry i f).log = s.log := rfl
@[simp] theorem State.updSrvEntry_prings (i : Nat) (f : SrvEntry → SrvEntry) : (s.updSrvEntry i f).prings = s.prings := rfl
@[simp] theorem State.updSrvEntry_chans (i : Nat) (f : SrvEntry → SrvEntry) : (s.updSrvEntry i f).chans = s.chans := rfl
@[simp] theorem State.updSrvEntry_jobs (i : Nat) (f : SrvEntry → SrvEntry) : (s.updSrvEntry i f).jobs = s.jobs := rfl
@[simp] theorem State.updSrvEntry_step (i : Nat) (f : SrvEntry → SrvEntry) : (s.updSrvEntry i f).step = s.step := rfl
@[simp] theorem State.updSrvEntry_upds (i : Nat) (f : SrvEntry → SrvEntry) : (s.updSrvEntry i f).upds = s.upds := rfl
@[simp] theorem State.updSrvEntry_sweeps (i : Nat) (f : SrvEntry → SrvEntry) : (s.updSrvEntry i f).sweeps = s.sweeps := rfl
@[simp] theorem State.updSrvEntry_lens (i : Nat) (f : SrvEntry → SrvEntry) : (s.updSrvEntry i f).lens = s.lens := rfl
@[simp] theorem State.updSrvEntry_images (i : Nat) (f : SrvEntry → SrvEntry) : (s.updSrvEntry i f).images = s.images := rfl
@[simp] theorem State.updSrvEntry_groups (i : Nat) (f : SrvEntry → SrvEntry) : (s.updSrvEntry i f).groups = s.groups := rfl
@[simp] theorem State.updSrvEntry_beam (i : Nat) (f : SrvEntry → SrvEntry) : (s.updSrvEntry i f).beam = s.beam := rfl
@[simp] theorem State.updSrvEntry_mirror (i : Nat) (f : SrvEntry → SrvEntry) : (s.updSrvEntry i f).mirror = s.mirror := rfl
@[simp] theorem State.updSrvEntry_binds (i : Nat) (f : SrvEntry → SrvEntry) : (s.updSrvEntry i f).binds = s.binds := rfl
@[simp] theorem State.updSrvEntry_nports (i : Nat) (f : SrvEntry → SrvEntry) : (s.updSrvEntry i f).nports = s.nports := rfl
@[simp] theorem State.updSrvEntry_host (i : Nat) (f : SrvEntry → SrvEntry) : (s.updSrvEntry i f).host = s.host := rfl
@[simp] theorem State.updSrvEntry_sec (i : Nat) (f : SrvEntry → SrvEntry) : (s.updSrvEntry i f).sec = s.sec := rfl
@[simp] theorem State.updSrvEntry_agents (i : Nat) (f : SrvEntry → SrvEntry) : (s.updSrvEntry i f).agents = s.agents := rfl
@[simp] theorem State.updSrvEntry_ctls (i : Nat) (f : SrvEntry → SrvEntry) : (s.updSrvEntry i f).ctls = s.ctls := rfl
@[simp] theorem State.updSrvEntry_loupe (i : Nat) (f : SrvEntry → SrvEntry) : (s.updSrvEntry i f).loupe = s.loupe := rfl
@[simp] theorem State.updCtl_pending (c : Nat) (f : Ctl → Ctl) : (s.updCtl c f).pending = s.pending := rfl
@[simp] theorem State.updCtl_now (c : Nat) (f : Ctl → Ctl) : (s.updCtl c f).now = s.now := rfl
@[simp] theorem State.updCtl_free (c : Nat) (f : Ctl → Ctl) : (s.updCtl c f).free = s.free := rfl
@[simp] theorem State.updCtl_keys (c : Nat) (f : Ctl → Ctl) : (s.updCtl c f).keys = s.keys := rfl
@[simp] theorem State.updCtl_sys (c : Nat) (f : Ctl → Ctl) : (s.updCtl c f).sys = s.sys := rfl
@[simp] theorem State.updCtl_mbs (c : Nat) (f : Ctl → Ctl) : (s.updCtl c f).mbs = s.mbs := rfl
@[simp] theorem State.updCtl_ctxs (c : Nat) (f : Ctl → Ctl) : (s.updCtl c f).ctxs = s.ctxs := rfl
@[simp] theorem State.updCtl_ops (c : Nat) (f : Ctl → Ctl) : (s.updCtl c f).ops = s.ops := rfl
@[simp] theorem State.updCtl_cfg (c : Nat) (f : Ctl → Ctl) : (s.updCtl c f).cfg = s.cfg := rfl
@[simp] theorem State.updCtl_rings (c : Nat) (f : Ctl → Ctl) : (s.updCtl c f).rings = s.rings := rfl
@[simp] theorem State.updCtl_cores (c : Nat) (f : Ctl → Ctl) : (s.updCtl c f).cores = s.cores := rfl
@[simp] theorem State.updCtl_units (c : Nat) (f : Ctl → Ctl) : (s.updCtl c f).units = s.units := rfl
@[simp] theorem State.updCtl_mem (c : Nat) (f : Ctl → Ctl) : (s.updCtl c f).mem = s.mem := rfl
@[simp] theorem State.updCtl_log (c : Nat) (f : Ctl → Ctl) : (s.updCtl c f).log = s.log := rfl
@[simp] theorem State.updCtl_prings (c : Nat) (f : Ctl → Ctl) : (s.updCtl c f).prings = s.prings := rfl
@[simp] theorem State.updCtl_chans (c : Nat) (f : Ctl → Ctl) : (s.updCtl c f).chans = s.chans := rfl
@[simp] theorem State.updCtl_jobs (c : Nat) (f : Ctl → Ctl) : (s.updCtl c f).jobs = s.jobs := rfl
@[simp] theorem State.updCtl_step (c : Nat) (f : Ctl → Ctl) : (s.updCtl c f).step = s.step := rfl
@[simp] theorem State.updCtl_upds (c : Nat) (f : Ctl → Ctl) : (s.updCtl c f).upds = s.upds := rfl
@[simp] theorem State.updCtl_sweeps (c : Nat) (f : Ctl → Ctl) : (s.updCtl c f).sweeps = s.sweeps := rfl
@[simp] theorem State.updCtl_lens (c : Nat) (f : Ctl → Ctl) : (s.updCtl c f).lens = s.lens := rfl
@[simp] theorem State.updCtl_images (c : Nat) (f : Ctl → Ctl) : (s.updCtl c f).images = s.images := rfl
@[simp] theorem State.updCtl_groups (c : Nat) (f : Ctl → Ctl) : (s.updCtl c f).groups = s.groups := rfl
@[simp] theorem State.updCtl_beam (c : Nat) (f : Ctl → Ctl) : (s.updCtl c f).beam = s.beam := rfl
@[simp] theorem State.updCtl_mirror (c : Nat) (f : Ctl → Ctl) : (s.updCtl c f).mirror = s.mirror := rfl
@[simp] theorem State.updCtl_binds (c : Nat) (f : Ctl → Ctl) : (s.updCtl c f).binds = s.binds := rfl
@[simp] theorem State.updCtl_nports (c : Nat) (f : Ctl → Ctl) : (s.updCtl c f).nports = s.nports := rfl
@[simp] theorem State.updCtl_host (c : Nat) (f : Ctl → Ctl) : (s.updCtl c f).host = s.host := rfl
@[simp] theorem State.updCtl_sec (c : Nat) (f : Ctl → Ctl) : (s.updCtl c f).sec = s.sec := rfl
@[simp] theorem State.updCtl_agents (c : Nat) (f : Ctl → Ctl) : (s.updCtl c f).agents = s.agents := rfl
@[simp] theorem State.updCtl_srv (c : Nat) (f : Ctl → Ctl) : (s.updCtl c f).srv = s.srv := rfl
@[simp] theorem State.updCtl_loupe (c : Nat) (f : Ctl → Ctl) : (s.updCtl c f).loupe = s.loupe := rfl

end Sys2Proof.Machine
end

