-- ==== Sys2Proof/Laws/Frame.lean ====
section
/-! SUPPORT. Sys2Proof/Laws/Frame.lean: the frames of the shared operations: how scopes compose, and what a record, an interrupt, an
error report, a device-memory write may change. -/

namespace Sys2Proof.Machine
open Sys2Proof

/-! ### How scopes compose -/

/-- `t` is `s` but for the fields of a scope. -/
def Within (k : Scope) (s t : State) : Prop := t = k.frame s t

theorem Within.refl (k : Scope) (s : State) : Within k s s := by cases k <;> rfl

/-- The fields of `s` come back however often they are taken. -/
theorem Scope.frame_frame (k : Scope) (s t u : State) : k.frame (k.frame s t) u = k.frame s u := by cases k <;> rfl

theorem Within.trans {k : Scope} {s t u : State} (h : Within k s t) (g : Within k t u) : Within k s u := by
  unfold Within at *
  rw [h, Scope.frame_frame] at g
  exact g

/-- The scopes within which a record may be written: all but those of single register groups, and of a core that is cleared. -/
def Scope.signals : Scope → Bool
  | .register | .ringReg | .hostPort | .memory => false
  | _ => true

/-- What only tells the outside: no memory but records, no unit state but error registers and counters. -/
def tells (s t : State) : State :=
  { s with
    ctxs := t.ctxs, free := t.free, host := t.host, log := t.log, rings := t.rings, sys := t.sys, units := t.units
    mem := { s.mem with hbm := t.mem.hbm, hbmPoison := t.mem.hbmPoison, host := t.mem.host, hostPoison := t.mem.hostPoison } }

/-- `t` is `s` but for what tells the outside. -/
def Tells (s t : State) : Prop := t = tells s t

theorem Tells.refl (s : State) : Tells s s := rfl
theorem Tells.trans {s t u : State} (h : Tells s t) (g : Tells t u) : Tells s u := by
  have e : tells (tells s t) u = tells s u := rfl
  unfold Tells at *
  rw [h, e] at g
  exact g

/-- Telling the outside is within every scope in which a record may be written. -/
theorem Tells.within {k : Scope} (hk : k.signals = true) {s t : State} (h : Tells s t) : Within k s t := by
  unfold Tells at h
  unfold Within
  rw [h]
  cases k <;> first | rfl | cases hk

theorem Tells.pending {s t : State} (h : Tells s t) : t.pending = s.pending := by rw [h]; rfl

/-! ### What only tells -/

theorem setCtx_tells (s : State) (c : Nat) (x : Context) : Tells s (s.setCtx c x) := rfl
theorem setRing_tells (s : State) (j : Nat) (x : Ring) : Tells s (s.setRing j x) := rfl
theorem setUnit_tells (s : State) (ty inst : Nat) (x : UnitRegs) : Tells s (s.setUnit ty inst x) := rfl
theorem bump_tells (ty inst n k : Nat) (s : State) : Tells s (bump ty inst n k s) := rfl
theorem setErr_tells (ty inst bit ring index reason : Nat) (s : State) : Tells s (setErr ty inst bit ring index reason s) := rfl
theorem hpErr_tells (bit ctx addr : Nat) (s : State) : Tells s (hpErr bit ctx addr s) := rfl
theorem hostWrite_tells (a : Nat) (bs : Bytes) (s : State) : Tells s (hostWrite a bs s) := rfl

theorem snoopOut_tells (a n : Nat) (s : State) : Tells s (snoopOut a n s) := by
  unfold snoopOut
  extract_lets hit
  split
  · exact .refl s
  · rfl

theorem hbmPut_tells (a : Nat) (bs : Bytes) (s : State) : Tells s (hbmPut a bs s) := by
  unfold hbmPut
  extract_lets n part t u
  split <;> rfl

theorem hbmWrite_tells (a : Nat) (bs : Bytes) (s : State) : Tells s (hbmWrite a bs s) :=
  (snoopOut_tells a bs.length s).trans (hbmPut_tells a bs _)

theorem spaceWrite_tells (space a : Nat) (bs : Bytes) (s : State) : Tells s (spaceWrite space a bs s) := by
  unfold spaceWrite
  split
  · exact hbmWrite_tells a bs s
  · exact hostWrite_tells a bs s

theorem sendMsix_tells (v : Nat) (s : State) : Tells s (sendMsix v s) := by
  unfold sendMsix
  split
  · exact .refl s
  · split <;> rfl

theorem ringPut_tells (j : Nat) (rec : Bytes) (s : State) : Tells s (ringPut j rec s) := by
  have put : ∀ (b : Bytes) (t : State), Tells s t → Tells s (spaceWrite (s.ring j).space ((s.ring j).slotAddr (s.ring j).tail) b t) :=
    fun b t h => h.trans (spaceWrite_tells _ _ _ _)
  have fresh : ∀ n, Tells s (freshBytes n s).2 := fun n => rfl
  unfold ringPut
  by_cases c : ((s.ring j).kind = 1 && bitOf (s.ring j).posted 1) = true
  · simp only [c, if_true]
    split
    · exact ((put _ _ (fresh _)).trans (setRing_tells _ _ _)).trans (sendMsix_tells _ _)
    · exact (put _ _ (fresh _)).trans (setRing_tells _ _ _)
  · simp only [c]
    split
    · exact ((put _ _ (.refl s)).trans (setRing_tells _ _ _)).trans (sendMsix_tells _ _)
    · exact (put _ _ (.refl s)).trans (setRing_tells _ _ _)

theorem produce_tells (j producer : Nat) (rec : Bytes) (v : Nat) (s : State) : Tells s (produce j producer rec v s) := by
  unfold produce
  extract_lets r
  split
  · exact setRing_tells _ _ _
  · exact (ringPut_tells _ _ _).trans (sendMsix_tells _ _)

theorem drainHeld_tells (j n : Nat) (s : State) : Tells s (drainHeld j n s) := by
  induction n generalizing s with
  | zero => exact .refl s
  | succ n ih =>
    unfold drainHeld
    extract_lets r
    split
    · split
      · exact .refl s
      · exact (((setRing_tells _ _ _).trans (ringPut_tells _ _ _)).trans (sendMsix_tells _ _)).trans (ih _)
    · exact .refl s

theorem deliverEvent_tells (c : Nat) (rec : Bytes) (s : State) : Tells s (deliverEvent c rec s) := by
  unfold deliverEvent
  extract_lets x
  split
  · split
    · exact (setCtx_tells _ _ _).trans (ringPut_tells _ _ _)
    · split <;> exact setCtx_tells _ _ _
  · split <;> exact setCtx_tells _ _ _

theorem drainEvents_tells (c n : Nat) (s : State) : Tells s (drainEvents c n s) := by
  induction n generalizing s with
  | zero => exact .refl s
  | succ n ih =>
    unfold drainEvents
    extract_lets x
    split
    · split
      · exact .refl s
      · exact ((setCtx_tells _ _ _).trans (ringPut_tells _ _ _)).trans (ih _)
    · exact .refl s

theorem notify_tells (c kind seq : Nat) (s : State) : Tells s (notify c kind seq s) := by
  unfold notify
  split
  · exact setCtx_tells _ _ _
  · refine Tells.trans ?_ (deliverEvent_tells _ _ _)
    rfl

theorem logPush_tells (kind die : Nat) (data : Bytes) (s : State) : Tells s (logPush kind die data s) := by
  unfold logPush
  extract_lets sev e aon t
  split
  · refine Tells.trans ?_ (notify_tells _ _ _ _)
    rfl
  · rfl

theorem errTo_tells (c : Nat) (e : Err) (logSeq : Nat) (s : State) : Tells s (errTo c e logSeq s) := by
  unfold errTo
  extract_lets key
  split
  · rfl
  · refine Tells.trans ?_ (deliverEvent_tells _ _ _)
    rfl

theorem poisonRead_tells (addr : Nat) (s : State) : Tells s (poisonRead addr s) := rfl

/-- An error report changes nothing but the log, event rings and what they are made of (R575). -/
theorem raise_tells (e : Err) (s : State) : Tells s (raise e s) := by
  unfold raise
  extract_lets v seq t u
  have hv : Tells s v := by
    show Tells s (if e.code = 3 && e.space = 1 then poisonRead e.addr s else s)
    split
    · exact poisonRead_tells _ _
    · exact .refl s
  have h : Tells s u := hv.trans ((logPush_tells _ _ _ v).trans (errTo_tells _ _ _ _))
  split
  · exact h
  · exact h.trans (errTo_tells _ _ _ _)

theorem raiseUnit_tells (e : Err) (cs : List Nat) (s : State) : Tells s (raiseUnit e cs s) := by
  unfold raiseUnit
  extract_lets seq
  have go : ∀ (l : List Nat) (t : State), Tells s t → Tells s (l.foldl (fun s c => errTo c e seq s) t) := by
    intro l
    induction l with
    | nil => exact fun _ h => h
    | cons c l ih => exact fun t h => ih _ (h.trans (errTo_tells _ _ _ _))
  exact go _ _ (raise_tells e s)

/-- A final event record changes, besides what tells, the list of open operations alone (R78). -/
theorem finishOp_within (c handle status detail : Nat) (result : Bytes) (s : State) :
    Within .mailbox s (finishOp c handle status detail result s) := by
  unfold finishOp
  split
  · exact .refl _ s
  · refine Within.trans (t := { s with ops := _ }) ?_ ((deliverEvent_tells _ _ _).within rfl)
    rfl

end Sys2Proof.Machine
end

