-- ==== Sys2Proof/Laws/Mem.lean ====
section
/-! SUPPORT. Sys2Proof/Laws/Mem.lean: sparse maps and memories: read after write, other places, the canonical form. -/

namespace Sys2Proof.Machine
open Sys2Proof

/-! ### Sparse maps -/

theorem SMap.get_set_ne {α : Type} [DecidableEq α] {d v : α} (hv : v ≠ d) (m : List (Nat × α)) (x : Nat) :
    SMap.get d (SMap.set d m x v) x = v := by
  induction m with
  | nil => simp [SMap.set, SMap.get, hv]
  | cons c m ih =>
    obtain ⟨k, w⟩ := c
    simp only [SMap.set, hv, if_false]
    split
    · simp [SMap.get]
    · split
      · rename_i h; simp [SMap.get, h]
      · rename_i h; simp [SMap.get, h, ih]

theorem SMap.set_set_ne {α : Type} [DecidableEq α] {d v w : α} (hv : v ≠ d) (hw : w ≠ d) (m : List (Nat × α)) (x : Nat) :
    SMap.set d (SMap.set d m x v) x w = SMap.set d m x w := by
  induction m with
  | nil => simp [SMap.set, hv, hw]
  | cons c m ih =>
    obtain ⟨k, u⟩ := c
    simp only [SMap.set, hv, hw, if_false]
    split
    · simp [SMap.set, hw]
    · split
      · rename_i h1 h; simp [SMap.set, hw, h]
      · rename_i h1 h2; simp [SMap.set, h1, h2, ih]

/-- Other keys keep their values. -/
theorem SMap.get_set_other {α : Type} [DecidableEq α] {d v : α} (m : List (Nat × α)) {x y : Nat} (h : y ≠ x) :
    SMap.get d (SMap.set d m x v) y = SMap.get d m y := by
  induction m with
  | nil => unfold SMap.set; split <;> simp [SMap.get, h]
  | cons c m ih =>
    obtain ⟨k, w⟩ := c
    unfold SMap.set
    split
    · split <;> simp [SMap.get, h]
    · split
      · rename_i e; subst e; split <;> simp [SMap.get, h]
      · simp [SMap.get, ih]

theorem SMap.wfFrom_le {α : Type} [DecidableEq α] {d : α} {a b : Nat} (h : a ≤ b) {m : List (Nat × α)}
    (w : SMap.wfFrom d b m = true) : SMap.wfFrom d a m = true := by
  cases m with
  | nil => rfl
  | cons c m =>
    obtain ⟨k, v⟩ := c
    simp only [SMap.wfFrom, Bool.and_eq_true, decide_eq_true_eq] at w ⊢
    exact ⟨⟨by omega, w.1.2⟩, w.2⟩

theorem SMap.set_wfFrom {α : Type} [DecidableEq α] {d : α} (v : α) (x : Nat) (m : List (Nat × α)) :
    ∀ lo, lo ≤ x → SMap.wfFrom d lo m = true → SMap.wfFrom d lo (SMap.set d m x v) = true := by
  induction m with
  | nil => intro lo h _; unfold SMap.set; split <;> simp_all [SMap.wfFrom]
  | cons c m ih =>
    obtain ⟨k, w⟩ := c
    intro lo h hw
    have hw' := hw
    simp only [SMap.wfFrom, Bool.and_eq_true, decide_eq_true_eq] at hw
    unfold SMap.set
    split
    · split
      · exact hw'
      · simp only [SMap.wfFrom, Bool.and_eq_true, decide_eq_true_eq]
        exact ⟨⟨h, by assumption⟩, ⟨by omega, hw.1.2⟩, hw.2⟩
    · split
      · split
        · exact SMap.wfFrom_le (by omega) hw.2
        · simp only [SMap.wfFrom, Bool.and_eq_true, decide_eq_true_eq]
          exact ⟨⟨hw.1.1, by assumption⟩, hw.2⟩
      · simp only [SMap.wfFrom, Bool.and_eq_true, decide_eq_true_eq]
        exact ⟨hw.1, ih (k + 1) (by omega) hw.2⟩

/-- A write keeps the canonical form. -/
theorem SMap.set_wf {α : Type} [DecidableEq α] {d : α} {m : List (Nat × α)} (x : Nat) (v : α) (h : SMap.wf d m = true) :
    SMap.wf d (SMap.set d m x v) = true := SMap.set_wfFrom v x m 0 (Nat.zero_le x) h

theorem SMap.filter_wfFrom {α : Type} [DecidableEq α] {d : α} (f : Nat × α → Bool) (m : List (Nat × α)) :
    ∀ lo, SMap.wfFrom d lo m = true → SMap.wfFrom d lo (m.filter f) = true := by
  induction m with
  | nil => intro lo _; rfl
  | cons c m ih =>
    obtain ⟨k, w⟩ := c
    intro lo h
    simp only [SMap.wfFrom, Bool.and_eq_true, decide_eq_true_eq] at h
    rw [List.filter_cons]
    split
    · simp only [SMap.wfFrom, Bool.and_eq_true, decide_eq_true_eq]
      exact ⟨h.1, ih _ h.2⟩
    · exact SMap.wfFrom_le (by omega) (ih _ h.2)

theorem SMap.get_of_wfFrom {α : Type} [DecidableEq α] {d : α} {m : List (Nat × α)} {x : Nat} :
    ∀ {lo}, x < lo → SMap.wfFrom d lo m = true → SMap.get d m x = d := by
  induction m with
  | nil => intros; rfl
  | cons c m ih =>
    obtain ⟨k, w⟩ := c
    intro lo h hw
    simp only [SMap.wfFrom, Bool.and_eq_true, decide_eq_true_eq] at hw
    have : x ≠ k := by omega
    simp only [SMap.get, this, if_false]
    exact ih (by omega) hw.2

/-- Read after write, in a canonical map. -/
theorem SMap.get_set_self {α : Type} [DecidableEq α] {d v : α} (m : List (Nat × α)) (x : Nat) :
    ∀ lo, SMap.wfFrom d lo m = true → SMap.get d (SMap.set d m x v) x = v := by
  by_cases hv : v = d
  · subst hv
    induction m with
    | nil => intros; simp [SMap.set, SMap.get]
    | cons c m ih =>
      obtain ⟨k, w⟩ := c
      intro lo hw
      simp only [SMap.wfFrom, Bool.and_eq_true, decide_eq_true_eq] at hw
      unfold SMap.set
      split
      · rw [if_pos rfl]
        have : x ≠ k := by omega
        simp only [SMap.get, this, if_false]
        exact SMap.get_of_wfFrom (lo := k + 1) (by omega) hw.2
      · split
        · rename_i e; subst e
          rw [if_pos rfl]
          exact SMap.get_of_wfFrom (Nat.lt_succ_self _) hw.2
        · rename_i e
          simp only [SMap.get, e, if_false]
          exact ih _ hw.2
  · intros; exact SMap.get_set_ne hv m x

/-! ### Byte memories -/

theorem Mem.set_wf {m : Mem} (a : Nat) (b : Byte) (h : Memory.wf m = true) : Memory.wf (Mem.set m a b) = true :=
  SMap.set_wf a b h

theorem Mem.write_wf {m : Mem} (a : Nat) (bs : Bytes) (h : Memory.wf m = true) : Memory.wf (Mem.write m a bs) = true := by
  induction bs generalizing m a with
  | nil => exact h
  | cons b bs ih => exact ih _ (Mem.set_wf a b h)

theorem Mem.clear_wf {m : Mem} (a n : Nat) (h : Memory.wf m = true) : Memory.wf (Mem.clear m a n) = true :=
  SMap.filter_wfFrom _ m 0 h

theorem Mem.get_set_other (m : Mem) {a x : Nat} (b : Byte) (h : x ≠ a) : Mem.get (Mem.set m a b) x = Mem.get m x :=
  SMap.get_set_other m h

theorem Mem.get_set_self {m : Mem} (a : Nat) (b : Byte) (h : Memory.wf m = true) : Mem.get (Mem.set m a b) a = b :=
  SMap.get_set_self m a 0 h

/-- A run stored leaves every address outside it as it was. -/
theorem Mem.get_write_other (m : Mem) {a x : Nat} (bs : Bytes) (h : x < a ∨ a + bs.length ≤ x) :
    Mem.get (Mem.write m a bs) x = Mem.get m x := by
  induction bs generalizing m a with
  | nil => rfl
  | cons b bs ih =>
    simp only [List.length_cons] at h
    rw [Mem.write, ih _ (by omega)]
    exact Mem.get_set_other m b (by omega)

/-- A run stored reads back. -/
theorem Mem.get_write_inside {m : Mem} {a i : Nat} {bs : Bytes} (w : Memory.wf m = true) (h : i < bs.length) :
    Mem.get (Mem.write m a bs) (a + i) = bs[i] := by
  induction bs generalizing m a i with
  | nil => simp at h
  | cons b bs ih =>
    rw [Mem.write]
    cases i with
    | zero =>
      rw [Nat.add_zero, Mem.get_write_other _ bs (Or.inl (by omega))]
      simpa using Mem.get_set_self a b w
    | succ i =>
      have e : a + (i + 1) = a + 1 + i := by omega
      rw [e, ih (Mem.set_wf a b w) (by simpa using h)]
      simp

theorem Mem.read_length (m : Mem) (a n : Nat) : (Mem.read m a n).length = n := by
  induction n generalizing a with
  | zero => rfl
  | succ n ih => simp [Mem.read, ih]

theorem Mem.read_get (m : Mem) (a n i : Nat) (h : i < n) : (Mem.read m a n)[i]? = some (Mem.get m (a + i)) := by
  induction n generalizing a i with
  | zero => omega
  | succ n ih =>
    cases i with
    | zero => simp [Mem.read]
    | succ i => simp only [Mem.read, List.getElem?_cons_succ]; rw [ih _ _ (by omega)]; congr 2; omega

/-- A run that is stored and read again, where nothing else was stored, is the run. -/
theorem Mem.read_write {m : Mem} (a : Nat) (bs : Bytes) (w : Memory.wf m = true) :
    Mem.read (Mem.write m a bs) a bs.length = bs := by
  apply List.ext_getElem?
  intro i
  by_cases h : i < bs.length
  · rw [Mem.read_get _ _ _ _ h, Mem.get_write_inside w h]; simp [h]
  · rw [List.getElem?_eq_none (by rw [Mem.read_length]; omega), List.getElem?_eq_none (by omega)]

end Sys2Proof.Machine
end

