-- ==== Sys2Proof/Laws/Sci.lean ====
section
/-! SUPPORT. Sys2Proof/Laws/Sci.lean: what an SCI request that passes its checks does, once for all commands. -/

namespace Sys2Proof.Machine
open Sys2Proof

theorem setMb_setMb {s : State} {m : Nat} {x y : Mailbox} (hx : x ≠ Mailbox.init) (hy : y ≠ Mailbox.init) :
    (s.setMb m x).setMb m y = s.setMb m y := by
  simp [State.setMb, SMap.set_set_ne hx hy]

theorem mb_setMb {s : State} {m : Nat} {x : Mailbox} (hx : x ≠ Mailbox.init) : (s.setMb m x).mb m = x :=
  SMap.get_set_ne hx _ _

theorem Mailbox.ne_init_of_st {b : Mailbox} (h : b.st = 1) : b ≠ Mailbox.init := by
  rintro rfl; simp [Mailbox.init] at h
theorem Mailbox.ne_init_of_req {b : Mailbox} (h : b.req ≠ []) : b ≠ Mailbox.init := by
  rintro rfl; simp [Mailbox.init] at h

theorem goWrite_filled {k : CmdSpec} {q : Request} {s : State} (h1 : s.reachMb q.mailbox = true)
    (h2 : (s.mb q.mailbox).st ≠ 1) (h3 : q.sequence = (s.mb q.mailbox).expect) :
    submit k q s = .next (runAccepted (some k) k.opcode q (s.taken k.opcode q)) := by
  have e : submit k q s = .next (goWrite (some k) k.opcode q
      (s.setMb q.mailbox { s.mb q.mailbox with req := reqHeader k.opcode q ++ q.payload })) := by
    simp [submit, h1, h2]
  have n1 : ({ s.mb q.mailbox with req := reqHeader k.opcode q ++ q.payload } : Mailbox) ≠ Mailbox.init :=
    Mailbox.ne_init_of_req (by simp [reqHeader, leBytes])
  have n2 : ({ s.mb q.mailbox with
    req := reqHeader k.opcode q ++ q.payload, st := 1, tag := q.tag, expect := ((s.mb q.mailbox).expect + 1) % 2 ^ 64, resp := [] } : Mailbox)
      ≠ Mailbox.init := Mailbox.ne_init_of_st rfl
  rw [e, State.taken]
  generalize hb : s.mb q.mailbox = b at *
  have m1 := mb_setMb (s := s) (m := q.mailbox) n1
  have m2 := setMb_setMb (s := s) (m := q.mailbox) n1 n2
  rw [← m2]
  generalize hs : s.setMb q.mailbox { b with req := reqHeader k.opcode q ++ q.payload } = u at *
  have hu : u.reachMb q.mailbox = true := by rw [← hs]; exact h1
  simp only [goWrite, hu, m1, h2, h3]
  simp

/-- What an admitted request does, whatever its command: the command's own rule decides. -/
theorem submit_admitted {k : CmdSpec} {q : Request} {c : Nat} {p : Bytes} {ind : Option Indirect} {s : State}
    (h : admitted k q c p ind s = true) :
    submit k q s = .next (concluded k q c p ind (s.taken k.opcode q)
      (k.run (issOf k.opcode c q s) p (s.taken k.opcode q))) := by
  simp only [admitted, Bool.and_eq_true, bne_iff_ne, ne_eq, beq_iff_eq, Bool.not_eq_true'] at h
  obtain ⟨⟨⟨⟨⟨⟨⟨⟨⟨⟨⟨h1, h2⟩, h3⟩, h4⟩, h5⟩, h6⟩, h7⟩, h8⟩, h9⟩, h10⟩, h11⟩, h12⟩ := h
  have ht : (s.taken k.opcode q).mbOwner q.mailbox = some c := by
    have e : (s.taken k.opcode q).mb q.mailbox = _ := mb_setMb (Mailbox.ne_init_of_st rfl)
    simp only [State.mbOwner, e] at h4 ⊢
    exact h4
  rw [goWrite_filled h1 h2 h3]
  congr 1
  have c6 : ((s.taken k.opcode q).ctx c).st ≠ 2 := h6
  have c7 : ((s.taken k.opcode q).isFatal && !fatalOk q.mailbox k.opcode) = false := by
    change (s.isFatal && !fatalOk q.mailbox k.opcode) = false
    cases hf : s.isFatal <;> simp_all
  have c12 : ((k.p || bitOf q.flags 2) && !noRing k.opcode && ((s.taken k.opcode q).ctx c).eventRing.isNone) = false := h12
  have ci : issOf k.opcode c q s = issOf k.opcode c q (s.taken k.opcode q) := rfl
  rw [ci]
  generalize s.taken k.opcode q = t at *
  simp only [runAccepted, runChecked, ht, h5, c6, c7, h8, h9]
  simp only [runBody, h10, Bool.not_true, c12, issOf]
  cases ind with
  | none =>
    simp only [ne_eq, not_true_eq_false, Bool.false_and, Bool.false_eq_true, if_false]
    cases k.run _ p _ <;> simp [concluded]
  | some i =>
    simp only at h11
    simp only [h11, Bool.false_and, Bool.false_eq_true, if_false, ne_eq, not_true_eq_false]
    cases k.run _ p _ <;> simp [concluded]
end Sys2Proof.Machine
end

