-- ==== Sys2Proof/Laws/Wf.lean ====
section
/-! SUPPORT. Sys2Proof/Laws/Wf.lean: the named updates and the shared operations keep the canonical form. -/

namespace Sys2Proof.Machine
open Sys2Proof

/-- The canonical form, part by part. -/
theorem State.wf_iff (s : State) : s.wf = true ↔
    (Memory.wf s.mem.hbm = true ∧ Memory.wf s.mem.sram = true ∧ Memory.wf s.mem.host = true ∧ Memory.wf s.mem.store = true)
    ∧ SMap.wf Mailbox.init s.mbs = true ∧ SMap.wf Context.init s.ctxs = true ∧ SMap.wf Ring.init s.rings = true
    ∧ SMap.wf Core.init s.cores = true ∧ SMap.wf UnitRegs.init s.units = true
    ∧ (s.cores.all fun c => c.2.vec.all VecState.wf) = true := by
  simp only [State.wf, Mems.wf, Bool.and_eq_true, and_assoc]

/-- The form depends on the memories and six maps alone. -/
theorem State.wf_congr {s t : State} (hm : t.mem.hbm = s.mem.hbm) (hr : t.mem.sram = s.mem.sram) (hh : t.mem.host = s.mem.host)
    (hs : t.mem.store = s.mem.store) (hb : t.mbs = s.mbs) (hc : t.ctxs = s.ctxs) (hj : t.rings = s.rings) (hk : t.cores = s.cores)
    (hu : t.units = s.units) (h : s.wf = true) : t.wf = true := by
  rw [State.wf_iff] at *
  rw [hm, hr, hh, hs, hb, hc, hj, hk, hu]
  exact h

theorem State.setMb_wf {s : State} (m : Nat) (x : Mailbox) (h : s.wf = true) : (s.setMb m x).wf = true := by
  rw [State.wf_iff] at *
  exact ⟨h.1, SMap.set_wf _ _ h.2.1, h.2.2⟩
theorem State.setCtx_wf {s : State} (c : Nat) (x : Context) (h : s.wf = true) : (s.setCtx c x).wf = true := by
  rw [State.wf_iff] at *
  exact ⟨h.1, h.2.1, SMap.set_wf _ _ h.2.2.1, h.2.2.2⟩
theorem State.setRing_wf {s : State} (j : Nat) (x : Ring) (h : s.wf = true) : (s.setRing j x).wf = true := by
  rw [State.wf_iff] at *
  exact ⟨h.1, h.2.1, h.2.2.1, SMap.set_wf _ _ h.2.2.2.1, h.2.2.2.2⟩
theorem State.setUnit_wf {s : State} (ty inst : Nat) (x : UnitRegs) (h : s.wf = true) : (s.setUnit ty inst x).wf = true := by
  rw [State.wf_iff] at *
  exact ⟨h.1, h.2.1, h.2.2.1, h.2.2.2.1, h.2.2.2.2.1, SMap.set_wf _ _ h.2.2.2.2.2.1, h.2.2.2.2.2.2⟩

/-- What a written map says of all its entries, if the entry written says it. -/
theorem SMap.all_set {α : Type} [DecidableEq α] {d v : α} (f : α → Bool) (m : List (Nat × α)) (x : Nat) (hv : f v = true)
    (h : (m.all fun c => f c.2) = true) : ((SMap.set d m x v).all fun c => f c.2) = true := by
  induction m with
  | nil => unfold SMap.set; split <;> simp [hv]
  | cons c m ih =>
    obtain ⟨k, w⟩ := c
    simp only [List.all_cons, Bool.and_eq_true] at h
    unfold SMap.set
    split
    · split <;> simp [hv, h.1, h.2]
    · split
      · split <;> simp [hv, h.2]
      · simp [h.1, ih h.2]

/-- Writing a core keeps the form, if the core's vector registers are in theirs. -/
theorem State.setCore_wf {s : State} (c : Nat) (x : Core) (hx : x.vec.all VecState.wf = true) (h : s.wf = true) : (s.setCore c x).wf = true := by
  rw [State.wf_iff] at *
  exact ⟨h.1, h.2.1, h.2.2.1, h.2.2.2.1, SMap.set_wf _ _ h.2.2.2.2.1, h.2.2.2.2.2.1,
    SMap.all_set (fun y : Core => y.vec.all VecState.wf) s.cores c hx h.2.2.2.2.2.2⟩

theorem bump_wf {s : State} (ty inst n k : Nat) (h : s.wf = true) : (bump ty inst n k s).wf = true := State.setUnit_wf _ _ _ h
theorem setErr_wf {s : State} (ty inst bit ring index reason : Nat) (h : s.wf = true) :
    (setErr ty inst bit ring index reason s).wf = true := State.setUnit_wf _ _ _ h
theorem hpErr_wf {s : State} (bit ctx addr : Nat) (h : s.wf = true) : (hpErr bit ctx addr s).wf = true := State.setUnit_wf _ _ _ h

theorem hostWrite_wf {s : State} (a : Nat) (bs : Bytes) (h : s.wf = true) : (hostWrite a bs s).wf = true := by
  rw [State.wf_iff] at *
  exact ⟨⟨h.1.1, h.1.2.1, Mem.write_wf _ _ h.1.2.2.1, h.1.2.2.2⟩, h.2⟩
theorem sramWrite_wf {s : State} (core off : Nat) (bs : Bytes) (h : s.wf = true) : (sramWrite core off bs s).wf = true := by
  rw [State.wf_iff] at *
  exact ⟨⟨h.1.1, Mem.write_wf _ _ h.1.2.1, h.1.2.2⟩, h.2⟩
theorem sramClear_wf {s : State} (core : Nat) (h : s.wf = true) : (sramClear core s).wf = true := by
  rw [State.wf_iff] at *
  exact ⟨⟨h.1.1, Mem.clear_wf _ _ h.1.2.1, h.1.2.2⟩, h.2⟩

theorem snoopOut_wf {s : State} (a n : Nat) (h : s.wf = true) : (snoopOut a n s).wf = true := by
  unfold snoopOut
  extract_lets hit
  split
  · exact h
  · exact bump_wf _ _ _ _ (State.wf_congr rfl rfl rfl rfl rfl rfl rfl rfl rfl h)

theorem hbmPut_wf {s : State} (a : Nat) (bs : Bytes) (h : s.wf = true) : (hbmPut a bs s).wf = true := by
  unfold hbmPut
  extract_lets n part src t u
  have ht : t.wf = true := by
    rw [State.wf_iff] at h ⊢
    exact ⟨⟨Mem.write_wf _ _ h.1.1, h.1.2⟩, h.2⟩
  have hu : u.wf = true := bump_wf _ _ _ _ ht
  split
  · exact hu
  · exact bump_wf _ _ _ _ hu

theorem hbmWrite_wf {s : State} (a : Nat) (bs : Bytes) (h : s.wf = true) : (hbmWrite a bs s).wf = true :=
  hbmPut_wf _ _ (snoopOut_wf _ _ h)

theorem spaceWrite_wf {s : State} (space a : Nat) (bs : Bytes) (h : s.wf = true) : (spaceWrite space a bs s).wf = true := by
  unfold spaceWrite
  split
  · exact hbmWrite_wf _ _ h
  · exact hostWrite_wf _ _ h

theorem sendMsix_wf {s : State} (v : Nat) (h : s.wf = true) : (sendMsix v s).wf = true := by
  unfold sendMsix
  split
  · exact h
  · split
    · exact bump_wf _ _ _ _ (State.wf_congr rfl rfl rfl rfl rfl rfl rfl rfl rfl h)
    · exact State.wf_congr rfl rfl rfl rfl rfl rfl rfl rfl rfl h

theorem ringPut_wf {s : State} (j : Nat) (rec : Bytes) (h : s.wf = true) : (ringPut j rec s).wf = true := by
  have fresh : (freshBytes rec.length s).2.wf = true := State.wf_congr rfl rfl rfl rfl rfl rfl rfl rfl rfl h
  unfold ringPut
  by_cases c : ((s.ring j).kind = 1 && bitOf (s.ring j).posted 1) = true
  · simp only [c, if_true]
    split
    · exact sendMsix_wf _ (State.setRing_wf _ _ (spaceWrite_wf _ _ _ fresh))
    · exact State.setRing_wf _ _ (spaceWrite_wf _ _ _ fresh)
  · simp only [c]
    split
    · exact sendMsix_wf _ (State.setRing_wf _ _ (spaceWrite_wf _ _ _ h))
    · exact State.setRing_wf _ _ (spaceWrite_wf _ _ _ h)

theorem produce_wf {s : State} (j producer : Nat) (rec : Bytes) (v : Nat) (h : s.wf = true) : (produce j producer rec v s).wf = true := by
  unfold produce
  extract_lets r
  split
  · exact State.setRing_wf _ _ h
  · exact sendMsix_wf _ (ringPut_wf _ _ h)

theorem drainHeld_wf (j n : Nat) : ∀ {s : State}, s.wf = true → (drainHeld j n s).wf = true := by
  induction n with
  | zero => exact fun h => h
  | succ n ih =>
    intro s h
    unfold drainHeld
    extract_lets r
    split
    · split
      · exact h
      · exact ih (sendMsix_wf _ (ringPut_wf _ _ (State.setRing_wf _ _ h)))
    · exact h

theorem deliverEvent_wf {s : State} (c : Nat) (rec : Bytes) (h : s.wf = true) : (deliverEvent c rec s).wf = true := by
  unfold deliverEvent
  extract_lets x
  split
  · split
    · exact ringPut_wf _ _ (State.setCtx_wf _ _ h)
    · split <;> exact State.setCtx_wf _ _ h
  · split <;> exact State.setCtx_wf _ _ h

theorem drainEvents_wf (c n : Nat) : ∀ {s : State}, s.wf = true → (drainEvents c n s).wf = true := by
  induction n with
  | zero => exact fun h => h
  | succ n ih =>
    intro s h
    unfold drainEvents
    extract_lets x
    split
    · split
      · exact h
      · exact ih (ringPut_wf _ _ (State.setCtx_wf _ _ h))
    · exact h

theorem notify_wf {s : State} (c kind seq : Nat) (h : s.wf = true) : (notify c kind seq s).wf = true := by
  unfold notify
  split
  · exact State.setCtx_wf _ _ h
  · exact deliverEvent_wf _ _ (State.wf_congr rfl rfl rfl rfl rfl rfl rfl rfl rfl h)

theorem logPush_wf {s : State} (kind die : Nat) (data : Bytes) (h : s.wf = true) : (logPush kind die data s).wf = true := by
  unfold logPush
  extract_lets sev e aon src t
  have ht : t.wf = true := State.wf_congr rfl rfl rfl rfl rfl rfl rfl rfl rfl h
  split
  · exact notify_wf _ _ _ ht
  · exact ht

theorem errTo_wf {s : State} (c : Nat) (e : Err) (logSeq : Nat) (h : s.wf = true) : (errTo c e logSeq s).wf = true := by
  unfold errTo
  extract_lets key
  split
  · exact State.wf_congr rfl rfl rfl rfl rfl rfl rfl rfl rfl h
  · exact deliverEvent_wf _ _ (State.wf_congr rfl rfl rfl rfl rfl rfl rfl rfl rfl h)

theorem raise_wf {s : State} (e : Err) (h : s.wf = true) : (raise e s).wf = true := by
  unfold raise
  extract_lets v seq t u
  have hv : v.wf = true := by
    show (if e.code = 3 && e.space = 1 then poisonRead e.addr s else s).wf = true
    split
    · exact bump_wf _ _ _ _ (State.setUnit_wf _ _ _ h)
    · exact h
  have hu : u.wf = true := errTo_wf _ _ _ (logPush_wf _ _ _ hv)
  split
  · exact hu
  · exact errTo_wf _ _ _ hu

theorem finishOp_wf {s : State} (c handle status detail : Nat) (result : Bytes) (h : s.wf = true) :
    (finishOp c handle status detail result s).wf = true := by
  unfold finishOp
  split
  · exact h
  · exact deliverEvent_wf _ _ (State.wf_congr rfl rfl rfl rfl rfl rfl rfl rfl rfl h)

theorem atLeast_wf {s : State} (t : Nat) (h : s.wf = true) : (atLeast t s).wf = true :=
  State.wf_congr rfl rfl rfl rfl rfl rfl rfl rfl rfl h

end Sys2Proof.Machine
end

