-- ==== Sys2Proof/WellFormed.lean ====
section
/-! DEFINITION. Sys2Proof/WellFormed.lean: the operands that the manual's encodings and unit counts allow. A command is given a meaning
whether or not it is well formed; the fields of a well-formed one fit the places that the manual gives them. -/

namespace Sys2Proof

/-- The fields of a request fit the header of R72, and its payload the request buffer (R68); mailboxes 256 to 259 are those of agents
(R98). -/
def Request.wf (q : Request) : Bool :=
  decide (q.mailbox < Config.mailboxes + 4) && decide (q.flags < 2 ^ 16) && decide (q.tag < 2 ^ 16) && decide (q.context < 2 ^ 8)
    && decide (q.rsv7 < 2 ^ 8) && decide (q.length < 2 ^ 32) && decide (q.rsv12 < 2 ^ 32) && decide (q.sequence < 2 ^ 64)
    && decide (q.rsv24 < 2 ^ 64) && decide (q.payload.length ≤ Config.reqMax)

/-- The block exists (R62, R68, R352). -/
def Block.wf : Block → Bool
  | .facet => true
  | .mailbox m => decide (m < Config.mailboxes + 4)
  | .ring j => decide (j < Config.rings)
  | .cfg => true
  | .unit ty inst => decide (inst < Config.instances ty)

/-- An access that the Aperture supports: 4 or 8 bytes, aligned (R11). -/
def alignedAccess (size off : Nat) : Bool := (size == 4 || size == 8) && off % size == 0

/-- A ring that an agent names exists, and an access moves at most a line (R68). -/
def AgentPlace.wf : AgentPlace → Bool
  | .ring j _ => decide (j < Config.rings)
  | _ => true
def AgentAct.wf : AgentAct → Bool
  | .illegal => true
  | .fetch a n => a.wf && decide (n ≤ 64)
  | .load a n => a.wf && decide (n ≤ 64)
  | .store a bs => a.wf && decide (bs.length ≤ 64)

/-- A member's contribution (R309): a system index, and fields of their widths. -/
def Contribution.wf (c : Contribution) : Bool :=
  decide (c.dev < 1024) && decide (c.attempt < 2 ^ 64) && decide (c.cls < 2 ^ 8) && decide (c.tensor < 2 ^ 32) && decide (c.norm < 2 ^ 32)

/-- A commit word (R309). -/
def CommitWord.wf (w : CommitWord) : Bool :=
  decide (w.cause < 2 ^ 8) && decide (w.vetoDev < 2 ^ 16) && decide (w.vetoTensor < 2 ^ 32) && decide (w.norm < 2 ^ 32)
    && decide (w.participants ≤ 64)

/-- A descriptor that firmware issues: 64 bytes (R87) to a ring of the part. -/
def FwIssue.wf (x : FwIssue) : Bool := decide (x.ring < Config.rings) && decide (x.desc.length = 64)

/-- The operands of a command are within what the manual's encodings and counts allow. -/
def Instr.wf : Instr → Bool
  | .sysNop q | .sysEcho q | .sysInfo q | .sysTime q | .sysEventRing q | .sysReset q | .cfgBegin q | .cfgSet q | .cfgCommit q
  | .cfgRollback q | .cfgQuery q | .ctxCreate q | .ctxDestroy q | .ctxSetQuota q | .ctxQuery q | .ctxAssignMailbox q
  | .ctxReleaseMailbox q | .ctxReset q | .ctxAgentLoad q | .ctxAgentStart q | .ctxAgentStop q | .ctxAgentUnload q | .memAlloc q
  | .memFree q | .memMapHost q | .memUnmapHost q | .memCopy q | .memQuery q | .ringCreate q | .ringDestroy q | .ringDrain q
  | .ringQuery q | .imgOpen q | .imgWrite q | .imgClose q | .imgActivate q | .imgDelete q | .imgQuery q | .jobCreate q | .jobStart q
  | .jobStop q | .jobQuery q | .jobLedgerRead q | .srvQueueCreate q | .srvQueueWeight q | .srvSubmit q | .srvCancel q | .srvPause q
  | .srvResume q | .srvPrefixCreate q | .srvPrefixRelease q | .srvSamplerSet q | .mirCkpt q | .mirRestore q | .mirSnapshot q
  | .mirSpareProtect q | .mirSpareDesignate q | .mirSpareReserve q | .mirSpareRelease q | .mirTakeoverBegin q | .mirTakeoverEnd q
  | .mirLogQuery q | .podJoin q | .podGroupCreate q | .podBarrier q | .podReset q | .beamRouteQuery q | .beamPortQuery q
  | .loupeSensors q | .loupeLedger q | .loupeLogRead q | .loupePowerCap q | .loupeFwStage q | .loupeFwActivate q | .loupeFwCommit q
  | .loupeFwRevert q | .secCerts q | .secMeasurements q | .secCtxKeyRoll q | .secDebugQuery q | .secDebugStageUnlock q
  | .secDebugCancel q => q.wf
  | .cfgCommitAllHold | .cfgQuiesceTimeout | .podJoinTimeout | .fwStageVerified | .fuseStepComplete | .fwTrialTimeout
  | .fwdRoute _ _ _ _ _ _ | .fwdRepeat _ _ | .governorStep _ | .currentLimitSample _ _ | .windowLimitEval _ | .thermalTrip | .vinDipBegin
  | .vinDipEnd _ _ | .dipLong | .powerLossFlush | .forceThrottleAssert | .forceThrottleRelease | .vauxLost | .replanRetry | .replanLate
  | .logCopy | .resetWritesSettled | .pcieFlr | .pcieHotReset | .perstNAssert | .warmReset | .firmwareStartPublish | .hostLinkDown
  | .ideIntegrityFailure | .ideKmKeyProgram _ _ | .perstNDeassert => true
  | .cfgCommitReject ty inst | .snapTake ty inst | .snapCaptureComplete ty inst | .coreClearComplete ty inst | .engineReset ty inst =>
      decide (inst < Config.instances ty)
  | .cfgTxnTimeout ctx | .keyRollReencryptComplete ctx | .errorRecordInterval ctx => decide (ctx < 64)
  | .agentFault agent act => decide (agent < 4) && AgentAct.wf act
  | .ringDrainComplete ring | .ringCtrlRestart ring | .ringCtrlArm ring | .descriptorNop ring | .fence ring | .fenceResume ring
  | .taskComplete ring | .teLutPass ring | .teDirectPass ring | .tePanePass ring | .teThinPass ring | .teVector ring
  | .arrayPassDrainComplete ring | .seMatmul ring | .sePanePass ring | .seVector ring | .seKdLoss ring | .sclQuant ring | .sclAmax ring
  | .lensTopk ring _ | .lensCompact ring _ | .lensSort ring _ | .lensTaskResume ring _ | .prismRows ring | .prismTap ring
  | .prismBlockOpen ring | .prismBlockEnd ring | .updExchange ring _ | .updCommit ring | .updApply ring | .updGather ring _
  | .updMark ring | .suCopy ring | .suFill ring | .suGather ring | .suTranspose ring | .suStageFill ring | .stageFillWriteStart ring
  | .stageFillComplete ring | .beamColl ring _ | .npBind ring | .npUnbind ring | .npWrite ring | .npRead ring =>
      decide (ring < Config.rings)
  | .imgChunkProgrammed img _ | .imgVerifyComplete img | .imgDeleteComplete img => decide (img < 2 ^ 32)
  | .jobStopWindowTimeout job | .deltaAck job => decide (job < 2 ^ 32)
  | .summaryWriteLanded entry _ | .summaryRestoreComplete entry _ => decide (entry < 16384)
  | .ckptCaptureDone ckpt | .ckptManifestWritten ckpt _ => decide (ckpt < 2 ^ 32)
  | .takeoverRestoreComplete job _ block _ => decide (job < 2 ^ 32) && decide (block.length = 64)
  | .groupFormed group _ => decide (group < 2 ^ 32)
  | .commandEventRecord ctx handle => decide (ctx < 64) && decide (handle < 2 ^ 32)
  | .mailboxOverrun mb => decide (mb < Config.mailboxes + 4)
  | .ringTailWrite ring value | .ringHeadWrite ring value => decide (ring < Config.rings) && decide (value < 2 ^ 32)
  | .rcFieldRead blk off size => blk.wf && alignedAccess size off
  | .registerWrite blk off size value => blk.wf && alignedAccess size off && decide (value < 2 ^ (8 * size))
  | .apertureUnsupportedAccess _ blk _ _ => blk.wf
  | .descriptorFetch ring n => decide (ring < Config.rings) && decide (n ≤ Config.fetchAhead)
  | .vuNop core f | .vuHalt core f | .vuSetvl core f | .vuSli core f | .vuSadd core f | .vuSmul core f | .vuSshr core f | .vuBlt core f
  | .vuBne core f | .vuJmp core f | .vuSlane core f | .vuVld core f | .vuVst core f | .vuVgather core f | .vuVscatter core f
  | .vuSld core f | .vuSst core f | .vuVadd core f | .vuVsub core f | .vuVmul core f | .vuVfma core f | .vuVmax core f | .vuVmin core f
  | .vuVabs core f | .vuVneg core f | .vuVadds core f | .vuVmuls core f | .vuVbcast core f | .vuVidx core f | .vuViadd core f
  | .vuVand core f | .vuVcvt core f | .vuVcmp core f | .vuVsel core f | .vuMand core f | .vuMnot core f | .vuVrcp core f
  | .vuVsqrt core f | .vuVrsqrt core f | .vuVexp2 core f | .vuVlog2 core f | .vuVtanh core f | .vuVsigm core f | .vuVredsum core f
  | .vuVredmax core f | .vuVargmax core f | .vuTwait core f | .vuTpop core f | .vuTcount core f => decide (core < 48) && f.wf
  | .twaitWake core => decide (core < 48)
  | .samplerRequest model _ lens => decide (model < 32) && decide (lens < 10)
  | .blockGrant chan ring => decide (chan < 8) && decide (ring < 16)
  | .prismRowAccept lens => decide (lens < 10)
  | .prismRecordLand chan => decide (chan < 8)
  | .prismCreditFlush ring | .tokenChunkLand ring | .prismRingResetComplete ring => decide (ring < 128)
  | .prismCreditReturn ring n => decide (ring < 128) && decide (n < 2 ^ 16)
  | .tokenChunkSend entry n => decide (entry < 16384) && decide (1 ≤ n ∧ n ≤ 256)
  | .prismRingReset ring cause => decide (ring < 128) && decide (cause < 2)
  | .commitWordArrival job others => decide (job < 2 ^ 32) && others.all Contribution.wf
  | .streamSegmentAck ring seg outcome _ => decide (ring < Config.rings) && decide (seg < Config.tags) && decide (outcome < 5)
  | .groupBroken group member => decide (group < 2 ^ 32) && decide (member < 64)
  | .resolutionComplete group held survivors => decide (group < 2 ^ 32) && decide (survivors ≤ 64) && held.all CommitWord.wf
  | .mirrorHeartbeat dev | .heartbeatLoss dev => decide (dev < 1024)
  | .fwdFill _ x | .fwdPass _ x => x.wf
  | .fwdExchange _ xs | .fwdTap _ xs => xs.all FwIssue.wf
  | .fwdSoftTarget _ rows lens => (rows.all fun r => r.2.2.wf) && lens.all FwIssue.wf
  | .fwdEnd _ token => token.all fun r => decide (r < 128)
  | .servingBoundary model | .executorDone model _ | .rowSample model _ | .stepRecordWrite model => decide (model < 32)
  | .portLightDetect port | .trainingTimeout port | .laserInputLow port | .lossOfLight port | .replayReq port
  | .retransmitTimerExpiry port | .nullFlitTimer port | .retrainComplete port _ | .downRetryTimer port => decide (port < 40)
  | .trainingComplete port peer pport waves _ => decide (port < 40) && decide (peer < 1024) && decide (pport < 64) && decide (waves < 256)
  | .beamFlitReceive port flit => decide (port < 40) && decide (flit.length = 256)
  | .routeTableInstall port table => decide (port < 40) && table.all fun r => decide (r.1 < 64)
  | .timebaseSync t => decide (t < 2 ^ 64)
  | .storePageReadComplete ctl die block _ _ _ | .storeProgramComplete ctl die block _ _ | .storeEraseComplete ctl die block _ _
  | .storeScrubTimer ctl die block _ _ => decide (ctl < 8) && decide (die < 16) && decide (block < 5440)
  | .relocationStart ctl | .relocationSwitch ctl | .storeScrubStageComplete ctl _ => decide (ctl < 8)
  | .storeDieTimeout ctl die => decide (ctl < 8) && decide (die < 16)
  | .meteredSlcWrite addr _ => decide (addr < Config.slcBytes)
  | .hbmRefreshTimer stack | .hbmStackFail stack => decide (stack < 8)
  | .hbmScrubLine addr _ => decide (addr < Config.hbmBytes)
  | .thermalSample cls inst _ _ => decide (cls < 4) && decide (inst < 8)
  | .tripRelease substrate => decide (substrate.length = 4)
  | .sensorAgentTimeout die => decide (die < 8)
  | .vauxApplied pod mgmt => decide (pod < 64) && decide (mgmt < 4)
  | .replan _ meas _ _ => meas.all fun m => decide (m.1 < 8)
  | .coldReset pod mgmt _ temps => decide (pod < 64) && decide (mgmt < 4) && temps.all fun x => decide (x.1 < 8)
  | .spineLinkDown link => decide (link < 22)
  | .fatalError code => decide (0x0F ≤ code ∧ code ≤ 0x11)
  | .cxlMemRead addr own => decide (addr < 2 ^ 52) && own.all fun b => decide (b.length = 64)
  | .cxlMemWrite addr data enable => decide (addr < 2 ^ 52) && decide (data.length = 64) && decide (enable < 2 ^ 64)
  | .bisnpResponse line | .hostSnoop line => decide (line < 2 ^ 46)
  | .hostReadCompletion ring seg status => decide (ring < Config.rings) && decide (seg < Config.tags) && decide (status < 3)
  | .hostCompletionTimeout ring seg => decide (ring < Config.rings) && decide (seg < Config.tags)
  | .msixUnmask vector => decide (vector < 2048)
  | .spdmGetCertificate transport slot off len =>
      decide (transport < 3) && decide (slot < 256) && decide (off < 2 ^ 16) && decide (len < 2 ^ 16)
  | .spdmChallenge transport slot nonce _ => decide (transport < 3) && decide (slot < 256) && decide (nonce.length = 32)
  | .spdmGetMeasurements transport index nonce _ => decide (transport < 3) && decide (index < 256) && decide (nonce.length = 32)
  | .spdmKeyExchange transport slot _ => decide (transport < 3) && decide (slot < 256)
  | .mctpControlMessage transport kind op q => decide (1 ≤ transport ∧ transport ≤ 2) && decide (kind < 2) && decide (op < 2 ^ 16) && q.wf
  | .roceRdmaWrite port qpn psn _ va key len data _ =>
      decide (port < 2) && decide (qpn < 2 ^ 24) && decide (psn < 2 ^ 24) && decide (va < 2 ^ 64) && decide (key < 2 ^ 32)
        && decide (len < 2 ^ 32) && decide (data.length ≤ 4096)
  | .roceWriteImmediate port qpn psn _ va key len data imm _ =>
      decide (port < 2) && decide (qpn < 2 ^ 24) && decide (psn < 2 ^ 24) && decide (va < 2 ^ 64) && decide (key < 2 ^ 32)
        && decide (len < 2 ^ 32) && decide (data.length ≤ 4096) && decide (imm < 2 ^ 32)
  | .roceRdmaRead port qpn psn va key len _ =>
      decide (port < 2) && decide (qpn < 2 ^ 24) && decide (psn < 2 ^ 24) && decide (va < 2 ^ 64) && decide (key < 2 ^ 32)
        && decide (len < 2 ^ 32)
  | .roceSend port qpn psn data _ => decide (port < 2) && decide (qpn < 2 ^ 24) && decide (psn < 2 ^ 24) && decide (data.length ≤ 256)
  | .roceAck port qpn psn kind => decide (port < 2) && decide (qpn < 2 ^ 24) && decide (psn < 2 ^ 24) && decide (kind < 3)
  | .roceCnp port qpn => decide (port < 2) && decide (qpn < 2 ^ 24)
  | .roceUnsupported port | .npLinkDown port | .npLinkUp port | .fcsDrop port => decide (port < 2)
  | .qpRetryTimeout bind => decide (bind < 2 ^ 32)
  | .pfcPauseFrame port prio quanta => decide (port < 2) && decide (prio < 8) && decide (quanta < 2 ^ 16)
  | .hostLinkUp width rate _ => decide (width < 32) && decide (rate < 256)
  | .hdmDecoderCommit base => decide (base < 2 ^ 52)
  | .roceReadResponse port qpn psn data =>
      decide (port < 2) && decide (qpn < 2 ^ 24) && decide (psn < 2 ^ 24) && decide (data.length ≤ 4096)

end Sys2Proof
end

