-- ==== Sys2Proof/Tests/Slice0.lean ====
section
/-! SUPPORT. Sys2Proof/Tests/Slice0.lean: smoke tests of the checks, words of the manual's encodings, and a state and operands that meet
the hypotheses of each statement. -/

set_option Elab.async false

namespace Sys2Proof.Tests
open Sys2Proof Sys2Proof.Machine

/-! ### States and requests for the tests -/

/-- SCI firmware runs, the host link is up, mailbox 2 belongs to context 1, ring 9 is context 1's event ring, ring 8 context 0's; all of
device memory from page 0 to 3 is context 1's, and host memory up to 1 MiB its window. -/
def up : State := { State.reset with
  sys := { Sys.init with vaux := true, vin := true, valid := true, stage := 2, sciMajor := 1, sciMinor := 0 }
  host := { HostPort.init with up := true }
  mbs := [(2, { Mailbox.init with assigned := true, ctx := 1 })]
  ctxs := [(0, { Context.init with st := 1, eventRing := some 8 }), (1, { Context.init with
    st := 1, eventRing := some 9, windows := [{ handle := 0, base := 0, len := 2 ^ 20 }]
    quota := { Quota.zero with hbmT := 1024, hbmS := 1024, slc := 1024, rings := 64, mailboxes := 4, srvQueues := 4, srvEntries := 64, prefixes := 4
                               agents := 4, prismShare := 1, hbmShare := 1, storeShare := 1, prioMax := 7 } })]
  rings := [(8, { Ring.init with st := 1, kind := 2, slotLog2 := 6, slots := 16, space := 1, ctx := 0 })
    , (9, { Ring.init with st := 1, kind := 2, slotLog2 := 6, slots := 16, space := 1, ctx := 1 })]
  mem := { Mems.init with
    pages := [(0, 2), (1, 2), (2, 2), (3, 2)], allocs := [{ ctx := 1, base := 0, len := 4 * Config.pageBytes }] } }

/-- A request in mailbox 0 as context 0, and one in mailbox 2 as context 1. -/
def rq (payload : Bytes) : Request :=
  { mailbox := 0, flags := 0, tag := 7, context := 0, rsv7 := 0, length := payload.length, rsv12 := 0, sequence := 1, rsv24 := 0, payload
    defer := false }
def rt (payload : Bytes) : Request := { rq payload with mailbox := 2, context := 1 }

/-- Ring 5 of context 1, of kind 0, on a unit, at `base` of device memory. -/
def withRing (ty inst : Nat) (x : Ring → Ring) (s : State) : State :=
  s.setRing 5 (x { Ring.init with
    st := 1, kind := 0, slotLog2 := 6, slots := 8, base := 0, unitType := ty, unitInst := inst, completion := 0xFFFF, vector := 0xFFFF, ctx := 1 })
/-- The same with descriptor `d` fetched at its head. -/
def withDesc (ty inst : Nat) (d : Bytes) (s : State) : State :=
  withRing ty inst (fun r => { r with tail := 1, fetched := [(0, some d)] }) s
/-- A descriptor of an opcode with these body bytes. -/
def dsc (op : Nat) (body : Bytes) : Bytes := leBytes 4 op ++ [1, 0, 0, 0] ++ fitTo 56 body

/-! ### Hypotheses of the statements can be met -/

theorem wit_EmptyQueueTicks : up.pending = [] ∧ (∀ x ∈ up.mbs, x.2.waiting = none)
    ∧ (let b := { Mailbox.init with assigned := true, ctx := 1, st := 1, waiting := some (1, rt [], []) }
       let s := { up with mbs := [(2, b)] }
       s.pending = [] ∧ s.mbs = [(2, b)] ∧ b ≠ Mailbox.init ∧ b.waiting = some (1, rt [], []) ∧ ([] : List (Nat × Nat)).any s.running? = false
       ∧ 2 ≤ Config.mailboxes + 4) := by decide +kernel
theorem wit_StepKeepsCanonicalForm : up.wf = true ∧ step up = .next (tick up) := ⟨by decide, rfl⟩
theorem wit_VectorWords : (255 : Nat) < 256 ∧ ({ d := 31, s1 := 31, s2 := 31, s3 := 31, m := 7, men := true, imm := 2 ^ 32 - 1 } : VecFields).wf = true
    ∧ (2 ^ 64 - 1 : Nat) < 2 ^ 64 := by decide +kernel

theorem wit_MailboxAcceptance : up.reachMb 0 = true ∧ (up.mb 0).st ≠ 1 ∧ ({ rq [] with sequence := 2 }).sequence ≠ (up.mb 0).expect
    ∧ (rq []).sequence = (up.mb 0).expect ∧ up.mbOwner 0 = some 0 ∧ ({ rq [] with context := 1 }).context ≠ 0
    ∧ (let s := up.setMb 0 { Mailbox.init with st := 1 }; s.reachMb 0 = true ∧ (s.mb 0).st = 1) := by decide +kernel
theorem wit_MailboxAcceptance_MailboxResponse : admitted specSysEcho (rq [1, 2, 3]) 0 [1, 2, 3] none up = true ∧ bitOf (rq []).flags 2 = false := by decide +kernel
theorem wit_SystemCommands : admitted specSysNop (rq []) 0 [] none up = true ∧ admitted specSysEcho (rt [9]) 1 [9] none up = true
    ∧ admitted specSysInfo (rq []) 0 [] none up = true ∧ admitted specSysTime (rq []) 0 [] none up = true
    ∧ (admitted specSysEventRing (rt [255, 255]) 1 [255, 255] none up = true ∧ field [255, 255] 0 2 = 0xFFFF)
    ∧ (admitted specSysEventRing (rt [9, 0]) 1 [9, 0] none up = true ∧ field [9, 0] 0 2 < Config.rings ∧ (up.ring 9).st ≠ 0 ∧ (up.ring 9).ctx = 1
      ∧ (up.ring 9).kind = 2)
    ∧ (admitted specSysReset (rq [1]) 0 [1] none up = true ∧ field [1] 0 1 ≤ 1 ∧ up.loupe.trip = none) := by decide +kernel
theorem wit_RegisterAccesses : (up.sys.valid = true ∧ sizeOk (.cfg) 4 8 = false)
    ∧ (sizeOk .cfg 0x208 8 = true ∧ up.disabled .cfg = false ∧ up.hidden .cfg 0x208 = false ∧ inBuffer .cfg 0x208 = false)
    ∧ up.isFatal = false
    ∧ (let s := up.setUnit Config.tStream 3 { UnitRegs.init with err := 3 }
       s.disabled (.unit Config.tStream 3) = false ∧ Config.tStream ≠ Config.tMirror ∧ rw1c (s.unit Config.tStream 3).err 1 ≠ 0
       ∧ errAt Config.tStream % 8 = 0)
    ∧ (let s := up.setMb 0 { Mailbox.init with st := 1 }; s.reachMb 0 = true ∧ (s.mb 0).st = 1) := by decide +kernel
theorem wit_SnapshotCapture : up.running = true ∧ up.isFatal = false ∧ up.enabled Config.tTeacher 31 = true
    ∧ (up.unit Config.tTeacher 31).snap.busy = false
    ∧ (let b : Bool → State := fun p => up.setUnit Config.tTeacher 31 { UnitRegs.init with snap := { UnitRegs.init.snap with busy := true, pend := p } }
       (((b false).unit Config.tTeacher 31).snap.busy = true ∧ ((b false).unit Config.tTeacher 31).snap.pend = false)
       ∧ ((b true).unit Config.tTeacher 31).snap.busy = true ∧ ((b true).unit Config.tTeacher 31).snap.pend = true) := by decide +kernel

/-- Payload of RING_CREATE for a Stream Unit ring of 8 slots. -/
def ringPayload : Bytes := [0, 6, 0, 0, 8, 0, 0, 0] ++ zeros 8 ++ [0, 0] ++ leBytes 2 Config.tStream ++ [50, 0, 0xFF, 0xFF, 0xFF, 0xFF] ++ zeros 6
/-- A NOP, and a FENCE with handle bits `h` that posts to ring 6 or takes from it. -/
def nopDesc : Bytes := dsc 0 []
def fenceDesc (h : Nat) : Bytes := dsc 1 ([0] ++ leBytes 1 h ++ leBytes 2 6 ++ leBytes 2 6)
/-- A handle ring 6 of context 1. -/
def withHandles (tail : Nat) (s : State) : State :=
  s.setRing 6 { Ring.init with st := 1, kind := 1, slotLog2 := 4, slots := 8, base := 4096, tail, ctx := 1 }

theorem wit_RingCommands :
    (admitted specRingCreate (rt ringPayload) 1 ringPayload none up = true ∧ ringArgs 1 ringPayload up = none ∧ ringRoom 1 ringPayload up = none
      ∧ up.freeRing = some 0)
    ∧ (let s := withRing Config.tStream 50 id up
       admitted specRingDestroy (rt [5, 0]) 1 [5, 0] none s = true ∧ ringHandle 1 5 s = none ∧ s.ringBusy 5 = false
       ∧ unitCore (s.ring 5).unitType (s.ring 5).unitInst = none
       ∧ admitted specRingDrain (rt [5, 0]) 1 [5, 0] none s = true ∧ (s.ring 5).kind = 0 ∧ (s.ring 5).st ≤ 2 ∧ (rt [5, 0]).defer = false
       ∧ (s.ring 5).cur = none ∧ (s.ring 5).inTask = false ∧ admitted specRingQuery (rt [5, 0]) 1 [5, 0] none s = true)
    ∧ (let s := withRing Config.tTeacher 3 id up
       admitted specRingDestroy (rt [5, 0]) 1 [5, 0] none s = true ∧ ringHandle 1 5 s = none ∧ s.ringBusy 5 = false
       ∧ unitCore (s.ring 5).unitType (s.ring 5).unitInst = some 3 ∧ ((s.setRing 5 Ring.init).coreRings 3).isEmpty = true) := by decide +kernel
theorem wit_RingCommands_DrainAndClear :
    (let s := withRing Config.tStream 50 (fun r => { r with st := 3, drainOp := some 4 }) up
     (s.ring 5).st = 3 ∧ s.isFatal = false ∧ s.drainIdle 5 = true ∧ (s.ring 5).drainOp = some 4)
    ∧ (let s := withRing Config.tStream 50 (fun r => { r with st := 3 }) up
       (s.ring 5).st = 3 ∧ s.drainIdle 5 = true ∧ (s.ring 5).drainOp = none)
    ∧ (let s := up.setCore 33 { Core.init with clearing := true }
       unitCore Config.tStudent 1 = some 33 ∧ (s.core 33).clearing = true ∧ (s.core 33).waiter = none ∧ Memory.wf s.mem.sram = true) := by decide +kernel
theorem wit_RingRegisters :
    (let s := withRing Config.tStream 50 id up
     s.isFatal = false ∧ (s.ring 5).st ≠ 0 ∧ (s.ring 5).tailRw = true ∧ (s.ring 5).tailValid 8 = true ∧ (s.ring 5).tailValid 9 = false)
    ∧ (let s := withRing Config.tStream 50 (fun r => { r with kind := 4, head := 2, tail := 4 }) up
       (s.ring 5).kind = 4 ∧ (s.ring 5).headRw = true ∧ (s.ring 5).held = [] ∧ (s.ring 5).headValid 4 = true ∧ (s.ring 5).headValid 5 = false)
    ∧ (let s := withRing Config.tStream 50 (fun r => { r with st := 4 }) up; (s.ring 5).kind = 0 ∧ (s.ring 5).st = 4) := by decide +kernel
theorem wit_RingRegisters_IndexWriteValidity : (let r := { Ring.init with slots := 3, head := 4, tail := 5 }
    0 < r.slots ∧ r.head < 2 * r.slots ∧ r.tail < 2 * r.slots ∧ 1 < 2 * r.slots ∧ r.tailValid 1 = true ∧ r.tailValid 2 = false) := by decide +kernel
theorem wit_DescriptorFlow :
    (let s := withRing Config.tStream 50 id up; s.isFatal = false ∧ (s.ring 5).kind = 0 ∧ (s.ring 5).st = 1)
    ∧ (withDesc Config.tStream 50 nopDesc up).headOf 5 0 = some (0, nopDesc)
    ∧ (let c : Cur := { index := 0, desc := nopDesc, phase := 1, status := 0, lb := 0, detail := zeros 24, force := false, out := [],
                             todo := [], ackBytes := 0, ackSegs := 0, start := 0, last := 0, chk := none, fault := 0, fstat := 0, faddr := 0, rows := 0 }
       let s := withRing Config.tStream 50 (fun r => { r with cur := some c }) up
       (s.ring 5).cur = some c ∧ c.phase = 1)
    ∧ (let s := withHandles 0 (withDesc Config.tStream 50 (fenceDesc 0) up)
       s.headOf 5 1 = some (0, fenceDesc 0) ∧ (s.ring 5).fence = 0 ∧ fenceCheck 5 (fenceDesc 0) s = none)
    ∧ (let s := withHandles 0 (withDesc Config.tStream 50 (fenceDesc 2) up)
       s.headOf 5 1 = some (0, fenceDesc 2) ∧ fenceCheck 5 (fenceDesc 2) s = none ∧ (s.ring 6).full = false
       ∧ bitOf (field (fenceDesc 2) 9 1) 1 = true ∧ bitOf (field (fenceDesc 2) 9 1) 0 = false)
    ∧ (let s := withHandles 0 (withDesc Config.tStream 50 (fenceDesc 1) up)
       s.headOf 5 1 = some (0, fenceDesc 1) ∧ fenceCheck 5 (fenceDesc 1) s = none ∧ (s.ring 6).filled = 0)
    ∧ (let s := withHandles 0 ((withDesc Config.tStream 50 (fenceDesc 2) up).updRing 5 fun r => { r with fence := 2 })
       s.headOf 5 1 = some (0, fenceDesc 2) ∧ (s.ring 5).fence = 2 ∧ (s.ring 6).full = false) := by decide +kernel
theorem wit_FetchStaysAhead : (let s := withRing Config.tStream 50 (fun r => { r with tail := 3 }) up
    s.wf = true ∧ (s.ring 5).fetched.length ≤ 8 ∧ (s.ring 5).fetched.length ≤ (s.ring 5).filled ∧ (s.ring 5).st ≠ 0) := by decide +kernel

def memP (side : Nat) : Bytes := leBytes 8 5 ++ leBytes 1 side ++ [0xFF, 0xFF, 21]
def copyP : Bytes := leBytes 8 64 ++ leBytes 8 4096 ++ leBytes 8 100 ++ [0]
def quotaP (n : Nat) : Bytes := leBytes 1 n ++ zeros 63 ++ zeros 25 ++ [1, 1, 1, 0] ++ zeros 35
/-- An agent on agent core 2 of context 1, in a state. -/
def withAgent (st : Nat) : State := up.setAgent 2 { Agent.init with st, ctx := 1, base := 2 ^ 38, len := 2 ^ 20 }

theorem wit_MemoryCommands :
    (admitted specMemAlloc (rt (memP 0)) 1 (memP 0) none up = true ∧ field (memP 0) 0 8 ≠ 0 ∧ field (memP 0) 8 1 = 0 ∧ field (memP 0) 9 2 = 0xFFFF
      ∧ field (memP 0) 11 1 = 21 ∧ up.heldBytes 1 0 + cdiv 5 Config.pageBytes * Config.pageBytes ≤ (up.ctx 1).quota.hbmT * 2 ^ 20
      ∧ [0, 1, 2, 3].findSome? (fun k => up.freeRun k (cdiv 5 Config.pageBytes) (2 ^ (21 - 21))) = some 4)
    ∧ (let a : Alloc := { ctx := 1, base := 0, len := 4 * Config.pageBytes }
       admitted specMemFree (rt (zeros 8)) 1 (zeros 8) none up = true
       ∧ (up.mem.allocs.find? fun a => a.base == field (zeros 8) 0 8 && a.ctx == 1 && up.agents.all (fun g => g.2.base != a.base)) = some a
       ∧ up.spaceUsed 1 0 a.base a.len = false)
    ∧ (let p := leBytes 8 4096 ++ leBytes 8 8192
       admitted specMemMapHost (rt p) 1 p none up = true ∧ field p 0 8 % 4096 = 0 ∧ field p 8 8 ≠ 0 ∧ field p 8 8 % 4096 = 0
       ∧ field p 0 8 + field p 8 8 ≤ 2 ^ 64 ∧ (up.ctx 1).windows.length < 65535 ∧ up.ideDenied 1 = false
       ∧ ((List.range 65536).find? fun h => (up.ctx 1).windows.all fun w => w.handle != h) = some 1)
    ∧ (let w : Window := { handle := 0, base := 0, len := 2 ^ 20 }
       let s := { up with rings := [] }.updCtx 1 fun x => { x with eventRing := none }
       admitted specMemUnmapHost (rt [0, 0]) 1 [0, 0] none s = true ∧ ((s.ctx 1).windows.find? fun w => w.handle == field [0, 0] 0 2) = some w
       ∧ s.spaceUsed 1 1 w.base w.len = false)
    ∧ admitted specMemQuery (rt []) 1 [] none up = true := by decide +kernel
theorem wit_MemoryCommands_MemCopyCopies : admitted specMemCopy (rt copyP) 1 copyP none up = true ∧ (rt copyP).defer = false ∧ bitOf (rt copyP).flags 2 = false
    ∧ field copyP 24 1 = 0 ∧ field copyP 16 8 ≠ 0 ∧ up.reach 1 0 (field copyP 0 8) (field copyP 16 8) = true
    ∧ up.reach 1 0 (field copyP 8 8) (field copyP 16 8) = true ∧ runsMeet (field copyP 0 8) (field copyP 16 8) (field copyP 8 8) (field copyP 16 8) = false
    ∧ up.hbmBad (field copyP 0 8) (field copyP 16 8) = false ∧ up.mem.wf = true := by decide +kernel
theorem wit_DeviceMemory : up.enabled Config.tHbm 7 = true ∧ Config.hbmBytes - 1 < Config.hbmBytes ∧ up.isFatal = false
    ∧ up.mem.hbmPoison.contains ((Config.hbmBytes - 1) / 64) = false ∧ up.mem.failed.contains 7 = false ∧ up.mem.wf = true := by decide +kernel
theorem wit_ContextCommands :
    (admitted specCtxCreate (rq (quotaP 63)) 0 (quotaP 63) none up = true ∧ field (quotaP 63) 0 1 = 63 ∧ (parseQuota (quotaP 63) 64).bad = none
      ∧ (up.ctx 63).st = 0)
    ∧ (admitted specCtxCreate (rq (quotaP 255)) 0 (quotaP 255) none up = true ∧ field (quotaP 255) 0 1 = 0xFF
      ∧ (parseQuota (quotaP 255) 64).bad = none ∧ ((List.range 64).find? fun c => c != 0 && (up.ctx c).st == 0) = some 2)
    ∧ (admitted specCtxSetQuota (rq (quotaP 1)) 0 (quotaP 1) none up = true ∧ field (quotaP 1) 0 1 = 1 ∧ (up.ctx 1).st ≠ 0)
    ∧ admitted specCtxQuery (rt [1]) 1 [1] none up = true
    ∧ (let p : Bytes := [255, 0, 1]
       let t := up.taken 0x0204 (rq p)
       admitted specCtxAssignMailbox (rq p) 0 p none up = true ∧ field p 0 2 = 255 ∧ field p 2 1 = 1 ∧ (up.ctx 1).st = 1
       ∧ t.mailboxesOf 1 < (up.ctx 1).quota.mailboxes ∧ (t.mb 255).assigned = false)
    ∧ (let t := up.taken 0x0205 (rq [2, 0])
       admitted specCtxReleaseMailbox (rq [2, 0]) 0 [2, 0] none up = true ∧ (t.mb 2).assigned = true ∧ (t.mb 2).st ≠ 1) := by decide +kernel
theorem wit_AgentCommands :
    (let p := leBytes 8 0 ++ leBytes 4 16 ++ leBytes 4 1
     admitted specCtxAgentLoad (rt p) 1 p none up = true ∧ up.reach 1 0 (field p 0 8) (field p 8 4) = true ∧ field p 8 4 = 16 ∧ field p 12 4 = 1
     ∧ up.agentsOf 1 < (up.ctx 1).quota.agents ∧ up.heldBytes 1 1 + cdiv (1 * 2 ^ 20) Config.pageBytes * Config.pageBytes ≤ (up.ctx 1).quota.hbmS * 2 ^ 20
     ∧ up.freeAgent = some 0 ∧ [4, 5, 6, 7].findSome? (fun k => up.freeRun k (cdiv (1 * 2 ^ 20) Config.pageBytes) 1) = some (4 * 24576)
     ∧ (rt p).defer = false ∧ up.hbmBad (field p 0 8) (field p 8 4) = false)
    ∧ (let p := leBytes 16 2
       admitted specCtxAgentStart (rt p) 1 p none (withAgent 1) = true ∧ agentCheck 1 2 (withAgent 1) = none ∧ ((withAgent 1).agent 2).st = 1
       ∧ field p 0 1 = 2)
    ∧ (admitted specCtxAgentStop (rt [2]) 1 [2] none (withAgent 2) = true ∧ agentCheck 1 2 (withAgent 2) = none ∧ ((withAgent 2).agent 2).st = 2)
    ∧ admitted specCtxAgentUnload (rt [2]) 1 [2] none (withAgent 1) = true ∧ (withAgent 2).isFatal = false := by decide +kernel

/-- Context 1's transaction with one item, open or committed. -/
def txn1 (st : Nat) : Txn := { ctx := 1, id := 2 ^ 26 + 1, st, items := [], start := 0, op := none, mailbox := 2, since := 0, left := 0, rejected := [] }
def withTxn (x : Txn) (s : State) : State := { s with cfg := { s.cfg with txns := [x], queue := if x.st = 2 then [1] else [] } }
/-- A setting of the Stream Unit of core 3. -/
def item1 : CfgItem := { ty := Config.tStream, inst := 3, setting := 1, value := 12 }
def setP : Bytes := leBytes 4 (2 ^ 26 + 1) ++ leBytes 4 1 ++ leBytes 2 Config.tStream ++ leBytes 2 3 ++ leBytes 4 1 ++ leBytes 8 12
theorem wit_ConfigCommands :
    (admitted specCfgBegin (rt []) 1 [] none up = true ∧ up.txn 1 = none)
    ∧ (let s := withTxn (txn1 1) (withRing Config.tTeacher 3 id up)
       let items := (List.range (field setP 4 4)).map fun k => itemAt setP (8 + 16 * k)
       admitted specCfgSet (rt setP) 1 setP none s = true ∧ s.txn 1 = some (txn1 1) ∧ (txn1 1).id = field setP 0 4 ∧ (txn1 1).st = 1
       ∧ (txn1 1).id / 2 ^ 26 = 1 ∧ field setP 4 4 = 1 ∧ (∀ x ∈ items, itemPerm 1 x s = false) ∧ (∀ x ∈ items, itemArg x true s = none)
       ∧ ((items.flatMap fun x => (itemInsts 1 x s).map fun k => { x with inst := k }).foldl stageItem (txn1 1).items).length ≤ 1024)
    ∧ (let s := withTxn (txn1 1) up
       let p := leBytes 4 (2 ^ 26 + 1)
       admitted specCfgRollback (rt p) 1 p none s = true ∧ s.txn 1 = some (txn1 1) ∧ (txn1 1).id = field p 0 4)
    ∧ (let p := leBytes 2 Config.tStream ++ leBytes 2 3 ++ leBytes 2 1 ++ zeros 10
       admitted specCfgQuery (rt p) 1 p none up = true ∧ field p 2 2 ≠ 0xFFFF ∧ itemArg (itemAt p 0) false up = none)
    ∧ (let tx := { txn1 1 with items := [item1] }
       let s := withTxn tx (withRing Config.tTeacher 3 id up)
       let p := leBytes 4 (2 ^ 26 + 1)
       let tx' : Txn := { tx with st := 2, op := none, mailbox := 2, left := (tx.start + 10 * Config.sec - s.now) / (10 * Config.ms) }
       let t := cfgStart (setTxn tx' { s.taken 0x0102 (rt p) with cfg := { s.cfg with queue := [1] } })
       admitted specCfgCommit (rt p) 1 p none s = true ∧ s.txn 1 = some tx ∧ s.cfg.queue = [] ∧ t.cfgFront.bind Txn.firstReject = none ∧ t.firstBusy tx' = none) := by
  decide +kernel
/-- Ring 5's descriptor in progress. -/
def cur0 (d : Bytes) : Cur :=
  { index := 0, desc := d, phase := 0, status := 0, lb := 0, detail := zeros 24, force := false, out := [], todo := [], ackBytes := 0, ackSegs := 0
    start := 0, last := 0, chk := none, fault := 0, fstat := 0, faddr := 0, rows := 0 }
theorem wit_ConfigCommands_ConfigEvents :
    (let tx := { txn1 2 with items := [item1] }
     let s := withTxn tx (withRing Config.tTeacher 3 id up)
     s.isFatal = false ∧ s.cfgFront = some tx ∧ tx.firstReject = none ∧ s.firstBusy tx = none)
    ∧ (let tx := { txn1 2 with items := [item1], rejected := [(Config.tStream, 3)] }
       let s := withTxn tx up
       s.cfgFront = some tx ∧ tx.rejected.contains (Config.tStream, 3) = true)
    ∧ (let tx := { txn1 2 with items := [item1] }
       let s := withTxn tx (withRing Config.tStream 3 (fun r => { r with cur := some (cur0 (dsc 0x11 [])) }) up)
       s.cfgFront = some tx ∧ tx.firstReject = none ∧ s.firstBusy tx = some (Config.tStream, 3))
    ∧ (let s := withTxn (txn1 1) up; s.txn 1 = some (txn1 1) ∧ (txn1 1).st = 1) := by decide +kernel
theorem wit_CommitIsAllOrNothing : (let tx := { txn1 2 with items := [item1] }; let s := withTxn tx up
    s.wf = true ∧ s.cfgFront = some tx ∧ (∀ x ∈ tx.items, ¬ (x.ty = Config.tStream ∧ x.inst = 3 ∧ x.setting = 2)) ∧ (3 : Nat) < 65536
    ∧ ∀ x ∈ tx.items, x.inst < 65536) := by decide +kernel

/-- Image 3 of context 1 in a state; a tensor of one group of 2-bit codes stands in its table. -/
def img (st : Nat) : Image := { Image.init with st, owner := 2, len := 4096, scrub := 1, op := some (1, 1) }
def withImage (g : Image) (s : State) : State := s.setImage 3 g
def imgBytes : Bytes := zeros 36 ++ leBytes 4 1 ++ zeros 24 ++ leBytes 8 512 ++ zeros 440
  ++ leBytes 4 0 ++ leBytes 4 0 ++ [8, 0, 0, 0] ++ leBytes 4 32 ++ leBytes 4 128 ++ zeros 8 ++ leBytes 8 1024 ++ leBytes 8 1280
def fillDesc : Bytes := dsc 0x40 ([3, 0] ++ leBytes 4 0 ++ [2, 1] ++ leBytes 2 5 ++ leBytes 2 0 ++ [1, 0] ++ leBytes 2 0 ++ leBytes 2 1)
def withFill (c : Option Cur) : State :=
  let s := withRing Config.tStream 50 (fun r => { r with cur := c, tail := 1, fetched := if c.isNone then [(0, some fillDesc)] else [] })
    (withImage (img 3) (up.setRing 4 { Ring.init with st := 1, slots := 8, slotLog2 := 6, unitType := Config.tTeacher, unitInst := 5, completion := 0xFFFF, ctx := 1 }))
  { s with mem := { s.mem with store := Mem.write [] 0 imgBytes } }
def chunkWrite (stop : Nat) : ImgWrite := { ctx := 1, op := 1, kind := 0, src := 0, pos := 0, stop, from_ := 0 }
def withWrite (stop len : Nat) : State := withImage { img 0 with len, writes := [chunkWrite stop] } up

theorem wit_ImageCommands :
    (let p := leBytes 8 300 ++ [0]
     let s := up
     admitted specImgOpen (rt p) 1 p none s = true ∧ field p 8 1 ≤ 1 ∧ 256 ≤ field p 0 8 ∧ s.images.length < 16
     ∧ (List.range 8).any (fun k => decide ((s.ctl k).spares false < 64)) = false ∧ s.freeExtent (cdiv (field p 0 8) Config.chunkBytes) = some 0)
    ∧ (let p : Bytes := [3, 0, 0] ++ zeros 5 ++ leBytes 8 0 ++ leBytes 8 0 ++ leBytes 8 4096
       let s := withImage (img 0) up
       admitted specImgWrite (rt p) 1 p none s = true ∧ s.image (field p 0 2) = some (img 0) ∧ imgRight 1 (img 0) = true
       ∧ field p 8 8 + field p 24 8 = (img 0).len ∧ s.reach 1 (field p 2 1) (field p 16 8) (field p 24 8) = true)
    ∧ (admitted specImgClose (rt [3, 0]) 1 [3, 0] none (withImage (img 0) up) = true ∧ (img 0).writes = [] ∧ (img 0).st = 0)
    ∧ (admitted specImgActivate (rt [3, 0, 1]) 1 [3, 0, 1] none (withImage (img 2) up) = true ∧ (img 2).scrub ≠ 0
      ∧ sealLive (img 2) (withImage (img 2) up) = none)
    ∧ (admitted specImgActivate (rt [3, 0, 0]) 1 [3, 0, 0] none (withImage (img 3) up) = true ∧ (withImage (img 3) up).imageUsed 3 = false)
    ∧ (admitted specImgDelete (rt [3, 0]) 1 [3, 0] none (withImage (img 2) up) = true ∧ (withImage (img 2) up).imageUsed 3 = false)
    ∧ admitted specImgQuery (rt [3, 0]) 1 [3, 0] none (withImage (img 2) up) = true := by decide +kernel
theorem wit_ImageCommands_ImageEvents :
    (let s := withWrite 4096 4096
     s.isFatal = false ∧ s.image 3 = some { img 0 with len := 4096, writes := [chunkWrite 4096] } ∧ sourceBad (chunkWrite 4096) 4096 s = false
     ∧ (chunkSource (chunkWrite 4096) 4096 s).isSome = true ∧ 0 + min Config.chunkBytes (4096 - 0) = 4096)
    ∧ (withImage (img 1) up).image 3 = some (img 1) ∧ up.running = true ∧ (withImage (img 1) up).imgBad (img 1) 0 4096 = false
    ∧ (withImage (img 6) up).image 3 = some (img 6) := by decide +kernel
/-- The first of two chunks: its source bytes are those of device memory. -/
theorem wit_ImageEvents_first : ∃ bs, chunkSource (chunkWrite (2 ^ 21)) (min Config.chunkBytes (2 ^ 21 - 0)) (withWrite (2 ^ 21) (2 ^ 21)) = some bs
    ∧ bs.length = min Config.chunkBytes (2 ^ 21 - 0) ∧ 0 + bs.length ≠ 2 ^ 21 ∧ (withWrite (2 ^ 21) (2 ^ 21)).wf = true
    ∧ sourceBad (chunkWrite (2 ^ 21)) (min Config.chunkBytes (2 ^ 21 - 0)) (withWrite (2 ^ 21) (2 ^ 21)) = false := by
  refine ⟨_, rfl, ?_, ?_, by decide +kernel, by decide +kernel⟩ <;> rw [State.hbmRead, Mem.read_length] <;> decide
theorem wit_StageFills :
    (let s := withFill none
     s.headOf 5 0x40 = some (0, fillDesc) ∧ (s.ring 5).unitType = Config.tStream ∧ isDma (s.ring 5).unitInst = true
     ∧ sfCheck (s.ring 5).ctx fillDesc s = none)
    ∧ (let s := withFill (some (cur0 fillDesc))
       s.wf = true ∧ s.fillOf 5 = some (cur0 fillDesc) ∧ (cur0 fillDesc).rows = 0 ∧ (s.core (sfCore fillDesc)).clearing = false
       ∧ s.image (sfImage fillDesc) = some (img 3)
       ∧ (((s.core (sfCore fillDesc)).stage (sfHalf fillDesc)).freeSeq + 65536 - sfExpectFree fillDesc) % 65536 < 0x8000)
    ∧ (let c := { cur0 fillDesc with rows := 1 }
       let s := withFill (some c)
       s.fillOf 5 = some c ∧ c.rows ≠ 0 ∧ s.image (sfImage c.desc) = some (img 3)) := by decide +kernel

/-! ### Jobs and Mirror -/

/-- First byte of the student side; its first page is context 1's in `up2`. -/
def sa : Nat := 4 * Config.stackBytes
def up2 : State := { up with mem := { up.mem with pages := up.mem.pages ++ [(4 * (Config.stackBytes / Config.pageBytes), 2)] } }
/-- A job header without an image: its role, its step block at the start of the student side, its ledger behind it. -/
def hdr (role : Nat) : Bytes :=
  [3] ++ leBytes 1 role ++ [0, 0, 255, 255, 255, 255] ++ zeros 4 ++ leBytes 4 one32 ++ zeros 8 ++ leBytes 8 (if role = 2 then sa else 0)
    ++ leBytes 8 (if role = 2 then sa + 64 else 0) ++ [1, 0] ++ [255, 255, 255, 255, 255, 255, 255, 255] ++ [0, 0, 1, 0, 0, 0] ++ zeros 16 ++ leBytes 4 one32
    ++ zeros 180
/-- Job 0 of context 1, a student job in a state. -/
def isJob (f : Job → Bool) : (Nat × Nat) ⊕ Job → Bool
  | .inr j => f j
  | .inl _ => false
def withJob (st : Nat) (started : Bool) (s : State) : State :=
  s.setJob 0 { Job.init with ctx := 1, st, started, header := hdr 2 }
theorem wit_JobCommands :
    (let p := hdr 2
     admitted specJobCreate (rt p) 1 p none up2 = true ∧ field p 1 1 = 2 ∧ field p 3 1 = 0 ∧ jobModeBad p up2 = false ∧ up2.studentJob = none
     ∧ headerRange p (up2.jobLayers p) = none ∧ jobRights 1 p up2 = none ∧ jobSeal p up2 = none
     ∧ ((List.range 4).find? fun h => (up2.job h).isNone) = some 0)
    ∧ (let s := withJob 0 false up2
       let u := s.taken 0x0601 (rt [0, 0])
       admitted specJobStart (rt [0, 0]) 1 [0, 0] none s = true ∧ ((s.job 0).map (·.ctx)) = some 1 ∧ ((s.job 0).map (·.st)) = some 0
       ∧ (s.job 0).any (fun j => !j.resume && (match bindAll 0 j j.binds 256 u with | .inr v => v == u | .inl _ => false)) = true)
    ∧ (let s := withJob 1 true up2
       admitted specJobStop (rt [0, 0, 0]) 1 [0, 0, 0] none s = true ∧ ((s.job 0).map (·.st)) = some 1)
    ∧ (let s := withJob 4 true up2
       let p : Bytes := [0, 0, 1]
       admitted specJobStop (rt p) 1 p none s = true ∧ field p 2 1 = 1 ∧ ((s.job 0).map (·.st)) = some 4 ∧ ((s.job 0).map (·.stopOp)) = some none
       ∧ (s.jobRings 0).isEmpty = true)
    ∧ (let s := withJob 1 true up2
       admitted specJobQuery (rt [0, 0]) 1 [0, 0] none s = true
       ∧ (let p := zeros 16 ++ leBytes 4 1
          admitted specJobLedgerRead (rt p) 1 p none s = true ∧ field p 16 4 = 1 ∧ ((s.job 0).map (·.ledgerAddr)) = some (sa + 64)
          ∧ s.hbmBad (sa + 64) 576 = false)) := by decide +kernel
/-- Prism ring 0 of channel 0 of job 0, on its way to be reset. -/
def withPRing (st : Nat) (s : State) : State := s.setPring 0 0 { PRing.init with bound := true, job := 0, ctx := 1, st, slots := 4 }
theorem wit_JobCommands_JobEvents :
    (up.isFatal = false ∧ ((withPRing 2 up).pring 0 0).bound = true ∧ ((withPRing 2 up).pring 0 0).st = 2)
    ∧ (let s := (withJob 2 true up2).setUpd 0 { Upd.init with window := true }
       s.isFatal = false ∧ (s.job 0).map (·.st) = some 2 ∧ (s.job 0).map (·.student) = some true ∧ s.windowOpen = true) := by decide +kernel

/-- One region of 64 bytes. -/
def regP : Bytes := leBytes 8 sa ++ leBytes 8 64 ++ zeros 16
def reg1 : Region := { addr := sa, len := 64, early := false }
def prot0 : Prot := { job := 0, buddy := 1, retain := 4, logAddr := sa, logDepth := 16, deltaMax := 0, regs := [reg1], ok := true, noBuddy := false, mek := none }
def ckpt1 (st : Nat) : Ckpt := { Ckpt.init with st, ctx := 1, block := stepBlock StepState.init, regs := [reg1], was := [zeros 64], data := [some (zeros 64)] }
def withMirror (f : Mirror → Mirror) (s : State) : State := { s with mirror := f s.mirror }
theorem wit_MirrorCheckpoints :
    (let s := withMirror (fun m => { m with prot := some prot0 }) (withJob 1 true up2)
     let p := [0, 0, 1, 0, 1, 0, 0, 0] ++ zeros 8 ++ regP
     admitted specMirCkpt (rt p) 1 p none s = true
     ∧ isJob (fun j => j.student && j.started && j.st == 1) (mirJob 1 0 0 s) = true
     ∧ l3Bad 1 1 0 6 s = none ∧ field p 4 2 = 1 ∧ regsBad 1 (parseRegs (p.drop 16) 1) s = none ∧ s.protOf 0 = some prot0
     ∧ prot0.noBuddy = false ∧ s.ckptPoint = true ∧ s.ckptBusy = false)
    ∧ (let s := withMirror (fun m => { m with ckpts := [(2, ckpt1 3)], last := [(1, 2)] }) (withJob 0 false up2)
       let p := [0, 0, 1, 1, 1, 0, 0, 0] ++ zeros 8 ++ regP
       admitted specMirRestore (rt p) 1 p none s = true
       ∧ isJob (fun j => j.student && j.st == 0) (mirJob 1 0 0 s) = true ∧ l3Bad 1 1 0 6 s = none
       ∧ regsBad 1 (parseRegs (p.drop 16) 1) s = none ∧ s.restorable 1 1 true 0 = some (ckpt1 3)
       ∧ (ckpt1 3).regs.map (·.len) = (parseRegs (p.drop 16) 1).map (·.len) ∧ (rt p).defer = false)
    ∧ (let s := withMirror (fun m => { m with tmpl := [(0, [reg1])] }) (withJob 1 true up2)
       let p : Bytes := [0, 0, 2, 0, 0, 0]
       admitted specMirSnapshot (rt p) 1 p none s = true
       ∧ isJob (fun j => j.student && j.started && j.st == 1) (mirJob 1 0 0 s) = true ∧ l3Bad 1 2 0 4 s = none
       ∧ s.slcUsed 1 + regBytes (s.template 0) ≤ (s.ctx 1).quota.slc * 2 ^ 20 ∧ (s.template 0).isEmpty = false ∧ s.mirror.snapWait = none)
    ∧ (let s := withMirror (fun m => { m with prot := some prot0 }) (withJob 1 true up2)
       let p := zeros 16 ++ leBytes 2 1
       admitted specMirLogQuery (rt p) 1 p none s = true ∧ isJob (fun _ => true) (mirJob 1 0 0 s) = true ∧ field p 16 2 = 1
       ∧ s.mirror.prot = some prot0 ∧ prot0.job = field p 0 2) := by decide +kernel
theorem wit_MirrorCheckpoints_MirrorEvents :
    (let s := withMirror (fun m => { m with ckpts := [(2, ckpt1 1)] }) (withJob 1 true up2)
     s.isFatal = false ∧ (s.ckpt 2).st = 1 ∧ ((ckptRead 2 (·.early) s).ckpt 2).st = 1)
    ∧ (let s := withMirror (fun m => { m with ckpts := [(4, ckpt1 2)] }) (withJob 1 true up2)
       let t := ckptRead 4 (fun _ => true) s
       (s.ckpt 4).st = 2 ∧ (t.ckpt 4).st = 2 ∧ (t.ckpt 4).op = none ∧ (t.job (t.ckpt 4).job).isSome = true ∧ (t.ckpt 4).snap = false)
    ∧ (let s := withMirror (fun m => { m with prot := some prot0, asked := true }) (withJob 1 true up2)
       (s.job 0).isSome = true ∧ s.mirror.asked = true ∧ s.mirror.acked = false ∧ (s.protOf 0).isSome = true)
    ∧ (let s := withMirror (fun m => { m with resv := [{ dev := 1, base := sa, len := 2 ^ 21, got := [], word := none }], beats := [(1, 5)] }) up2
       (s.mirror.resv.any fun r => r.dev == 1) = true ∧ (s.mirror.beats.find? fun b => b.1 == 1) = some (1, 5)) := by decide +kernel
def group0 (st : Nat) : Group := { Group.init with ctx := 1, members := [0, 1, 2], st }
/-- Group 0 of devices 0, 1, 2, and job 0 a member of it. -/
def withGroup (st : Nat) (s : State) : State :=
  { s with groups := [(0, group0 st)], jobs := s.jobs.map fun x => (x.1, { x.2 with header := splice x.2.header 6 [0, 0] }) }
theorem wit_Resolution :
    (let s := withGroup 2 (withMirror (fun m => { m with prot := some prot0 }) (withJob 1 true up2))
     s.isFatal = false ∧ s.studentJob.map (·.1) = some 0 ∧ s.studentJob.map (·.2.group) = some 0 ∧ (s.group 0).st = 2
     ∧ (s.protOf 0).isSome = true ∧ s.studentJob.map (·.2.st) = some 1 ∧ 2 * 1 ≤ (s.group 0).members.length ∧ (s.group 0).members.length < 2 * 2
     ∧ s.windowOpen = false ∧ (s.upd 0).commit = none)
    ∧ (let s := ((withGroup 2 (withMirror (fun m => { m with prot := some prot0 }) (withJob 1 true up2))).setUpd 0 { Upd.init with
         commit := some 5 }).setUpd 1 { Upd.init with commit := some 6 }
       (s.upd 0).commit.isSome = true ∧ (s.upd 1).commit.isSome = true ∧ s.windowOpen = false) := by decide +kernel
theorem wit_MirrorSpares :
    (let s := withMirror id (withJob 1 true up2)
     let p := [0, 0, 0, 0, 1, 0, 1, 0] ++ leBytes 8 sa ++ leBytes 4 16 ++ zeros 8 ++ regP
     let q := withOp 0 (rt p)
     admitted specMirSpare q 1 p none s = true ∧ field p 0 1 = 0
     ∧ isJob (fun j => j.student && j.started && j.st == 1 && j.ctx == 1) (mirJob 1 0 2 s) = true
     ∧ field p 6 1 = 1 ∧ field p 16 4 = 16 ∧ (p.length - 28) / 32 = 1 ∧ s.ownsStudent 1 sa (128 * 16) = true
     ∧ regsBad 1 (parseRegs (p.drop 28) 1) s = none ∧ 1 ≠ s.sysIndex ∧ 1 / 64 = s.sys.pod ∧ s.ckptPoint = true ∧ s.ckptBusy = false)
    ∧ (let s := withGroup 1 (withJob 0 false up2)
       let p : Bytes := [1, 0, 0, 0, 0, 0, 0]
       admitted specMirSpare (withOp 1 (rt p)) 1 p none s = true ∧ field p 0 1 = 1 ∧ (s.group 0).members ≠ [] ∧ (s.group 0).ctx = 1
       ∧ isJob (fun j => j.student && !j.resume && j.st == 0 && j.ctx == 1) (mirJob 1 0 4 s) = true)
    ∧ (let p := [2, 0, 1, 0] ++ zeros 4 ++ leBytes 8 1
       admitted specMirSpare (withOp 2 (rq p)) 0 p none up2 = true ∧ field p 0 1 = 2 ∧ isAdmin 0 = true ∧ field p 2 2 ≠ up2.sysIndex
       ∧ field p 2 2 / 64 = up2.sys.pod ∧ field p 8 8 ≠ 0
       ∧ ([4, 5, 6, 7].findSome? fun k => up2.freeRun k (cdiv 1 Config.pageBytes) 1) = some (4 * 24576 + 1)
       ∧ (up2.mirror.resv.any fun r => r.dev == 1) = false)
    ∧ (let s := withMirror (fun m => { m with
         prot := some prot0, desig := some { group := 0, job := 0, auto := false }, resv := [{ dev := 1, base := 0, len := 2 ^ 21, got := [], word := none }] })
           (withGroup 1 (withJob 1 true up2))
       admitted specMirSpare (withOp 3 (rt [3, 0, 0, 0])) 1 [3, 0, 0, 0] none s = true
       ∧ isJob (fun _ => true) (mirJob 1 0 2 s) = true
       ∧ admitted specMirSpare (withOp 3 (rt [3, 1, 0, 0])) 1 [3, 1, 0, 0] none s = true ∧ (s.group 0).ctx = 1
       ∧ admitted specMirSpare (withOp 3 (rq [3, 2, 1, 0])) 0 [3, 2, 1, 0] none s = true
       ∧ (s.mirror.resv.find? fun r => r.dev == 1).isSome = true ∧ (s.mirror.beats.any fun b => b.1 == 1) = false
       ∧ (s.mem.allocs.find? fun a => a.base == 0).isSome = true) := by decide +kernel
theorem wit_Takeover :
    (let s := withMirror (fun m => { m with desig := some { group := 0, job := 0, auto := false } }) (withGroup 2 (withJob 0 false up2))
     let p : Bytes := [0, 0, 0, 0, 2, 0, 0, 0]
     admitted specMirTakeover (withOp 0 (rt p)) 1 p none s = true ∧ (s.group 0).ctx = 1
     ∧ isJob (fun j => j.st == 0) (mirJob 1 0 6 s) = true ∧ field p 4 2 < (s.group 0).members.length
     ∧ (s.group 0).st = 2 ∧ s.mirror.replay = none)
    ∧ (let r : Replay := { job := 0, group := 0, rank := 2, ready := true, queue := [], first := 0, last := 0, op := none }
       let s := withMirror (fun m => { m with replay := some r }) (withGroup 4 (withJob 1 true up2))
       let p : Bytes := [1, 0, 0, 0, 2, 0, 0, 0]
       admitted specMirTakeover (withOp 1 (rt p)) 1 p none s = true ∧ field p 0 1 = 1 ∧ (s.group 0).members ≠ [] ∧ s.mirror.replay = some r
       ∧ r.rank = field p 4 2 ∧ s.windowOpen = false ∧ (rt p).defer = false
       ∧ isJob (fun _ => true) (mirJob 1 0 6 s) = true)
    ∧ (let r : Replay := { job := 0, group := 0, rank := 2, ready := false, queue := [], first := 0, last := 0, op := none }
       let s := withMirror (fun m => { m with replay := some r, tmpl := [(0, [reg1])] }) (withGroup 4 (withJob 1 true up2))
       s.isFatal = false ∧ s.mirror.replay = some r ∧ (s.job 0).isSome = true ∧ [zeros 64].length = (s.template 0).length
       ∧ stepBlockBad (fitTo 64 (stepBlock { StepState.init with b1t := one32, b2t := one32 })) = none) := by decide +kernel

/-! ### Pod and Beam -/

def withBeam (f : Beam → Beam) (s : State) : State := { s with beam := f s.beam }
/-- Port 3 in a state. -/
def withPort (st : Nat) (s : State) : State := s.setPort 3 { Port.init with st, lightRx := true }
def grpP : Bytes := [2, 0, 0, 0, 0, 0, 0, 0] ++ leBytes 8 9 ++ [0, 0, 1, 0]
theorem wit_PodCommands :
    (let p := zeros 8 ++ leBytes 8 1
     admitted specPodJoin (rq p) 0 p none up = true ∧ field p 0 1 = 0 ∧ up.twinSeen = false ∧ up.sys.joined = false ∧ up.beam.join = none
     ∧ allReached (field p 8 8) up.reachMap = true ∧ (rq p).defer = false
     ∧ (let p := zeros 8 ++ leBytes 8 3; admitted specPodJoin (rq p) 0 p none up = true ∧ allReached (field p 8 8) up.reachMap = false))
    ∧ (let s := withBeam (fun b => { b with routes := [(1, 1, 1)] }) up
       admitted specPodGroupCreate (rt grpP) 1 grpP none s = true ∧ field grpP 2 1 = 0 ∧ field grpP 0 2 = 2
       ∧ ((List.range 2).map fun k => field grpP (16 + 2 * k) 2) = [0, 1] ∧ [0, 1].Pairwise (· < ·) ∧ s.sysIndex ∈ [0, 1] ∧ (s.routeTo 1).isSome = true
       ∧ ((List.range 64).find? fun g => (s.group g).members.isEmpty) = some 0)
    ∧ (let s := withGroup 1 up
       admitted specPodBarrier (rt [0, 0]) 1 [0, 0] none s = true ∧ groupHandle 1 (field [0, 0] 0 2) 0 s = none ∧ (s.group (field [0, 0] 0 2)).st = 1
       ∧ admitted specPodBarrier { rt [0, 0] with defer := true } 1 [0, 0] none s = true)
    ∧ (let s := withGroup 2 up
       admitted specPodReset (rq (zeros 16)) 0 (zeros 16) none s = true ∧ groupHandle 0 (field (zeros 16) 2 2) 2 s = none
       ∧ admitted specPodReset (rq (1 :: zeros 15)) 0 (1 :: zeros 15) none s = true
       ∧ admitted specPodReset (rq ([2] ++ zeros 7 ++ leBytes 8 1)) 0 ([2] ++ zeros 7 ++ leBytes 8 1) none s = true
       ∧ ((List.range 64).filter fun k => bitOf 1 k && k != s.sys.podDev) = [])
    ∧ admitted specBeamRouteQuery (rq [0xFF, 3]) 0 [0xFF, 3] none up = true ∧ admitted specBeamPortQuery (rq [39]) 0 [39] none up = true := by
  decide +kernel
theorem wit_PodCommands_PodEvents :
    (let s := withBeam (fun b => { b with join := some (0, 1, 3, 7) }) up; s.isFatal = false ∧ s.beam.join = some (0, 1, 3, 7))
    ∧ (let s := withGroup 0 up; (s.group 0).members ≠ [] ∧ (s.group 0).st = 0)
    ∧ (let s := withGroup 1 up; (s.group 0).members[2]? = some 2 ∧ 2 ≠ s.sysIndex ∧ (s.group 0).st = 1 ∧ (s.group 0).members.Nodup)
    ∧ (up.running = true ∧ up.beam.held = [] ∧ up.beam.routes = [] ∧ up.beam.join = none ∧ up.groups = [])
    ∧ (let s := withPort 3 up; (1 : Nat) ≠ s.sys.podDev ∧ (∀ i ∈ maskPorts 8, (s.port i).st = 3))
    ∧ (let s : State := { withBeam (fun b => { b with routes := [(0, 8, 1)] }) up with sys := { up.sys with joined := true, podDev := 1 } }
       s.isFatal = false ∧ s.sys.joined = true ∧ s.podMaster = false) := by decide +kernel
/-- BROADCAST of one byte of format 0 … from rank 0, from device address 0 to 4096, in group 0. -/
def collD (k : Nat) : Bytes :=
  dsc 0x10 ([ofNatB k, 0, 0, 0, 0, 0, 0, 0] ++ leBytes 4 4 ++ leBytes 8 0 ++ leBytes 8 4096)
where ofNatB (n : Nat) : Byte := BitVec.ofNat 8 n
theorem wit_CollectiveResult :
    (let s := withGroup 1 (withDesc Config.tEngine 0 (collD 4) up)
     s.mem.wf = true ∧ s.headOf 5 0x10 = some (0, collD 4) ∧ (s.ring 5).unitType = Config.tEngine ∧ collCheck (s.ring 5).ctx (collD 4) s = none
     ∧ (s.group (field (collD 4) 12 2)).st = 1 ∧ [zeros 16, zeros 16].length + 1 = (s.group (field (collD 4) 12 2)).members.length
     ∧ (s.ring 5).st ≠ 0 ∧ s.hbmBad (field (collD 4) 20 8) (collSrcLen (collD 4) (s.rankIn (s.group (field (collD 4) 12 2)).members) 3) = false) := by
  decide +kernel
theorem wit_CollectiveResult_CollectiveRefused :
    (let s := withGroup 1 (withDesc Config.tEngine 0 (collD 7) up)
     s.headOf 5 0x10 = some (0, collD 7) ∧ (s.ring 5).unitType = Config.tEngine ∧ collCheck (s.ring 5).ctx (collD 7) s = some 0x108)
    ∧ (let s := withGroup 3 (withDesc Config.tEngine 0 (collD 4) up)
       s.headOf 5 0x10 = some (0, collD 4) ∧ collCheck (s.ring 5).ctx (collD 4) s = some 0x2901) := by decide +kernel
theorem wit_PortStates : up.beamOn 3 = true ∧ ((withPort 2 up).port 3).st = 2 ∧ (withPort 3 up).beamOn 3 = true ∧ ((withPort 4 up).port 3).st = 4
    ∧ ((withPort 5 up).port 3).st = 5 ∧ 1 / 64 = up.sys.pod ∧ 1 % 64 ≠ up.sys.podDev
    ∧ (let s := up.setPort 3 { Port.init with st := 3, unacked := [zeros 256] }; s.beamOn 3 = true ∧ (s.port 3).st = 3 ∧ (s.port 3).unacked ≠ []) := by
  decide +kernel
def nullFlit : Bytes := flitFill (zeros 252) 0 0 0 0
def dataFlit (seq : Nat) : Bytes := flitFill (fitTo 252 [1]) seq 0 0 0
theorem wit_FlitReceive :
    ((withPort 3 up).beamOn 3 = true ∧ ((withPort 3 up).port 3).st = 3 ∧ flitOk [] = false)
    ∧ (flitOk (flitFill (zeros 252) 0 1 0 0) = true ∧ takeAck ((withPort 3 up).port 3) 1 0 = none)
    ∧ (flitOk nullFlit = true ∧ flitKind nullFlit = 0 ∧ (takeAck ((withPort 3 up).port 3) (field nullFlit 4 2) 0).isSome = true)
    ∧ (flitOk (dataFlit 0) = true ∧ flitKind (dataFlit 0) = 1 ∧ field (dataFlit 0) 2 2 = ((withPort 3 up).port 3).rxExpect)
    ∧ (flitOk (dataFlit 65535) = true ∧ (0 + 65536 - field (dataFlit 65535) 2 2) % 65536 ≤ 8192)
    ∧ (flitOk (dataFlit 1) = true ∧ 8192 < (0 + 65536 - field (dataFlit 1) 2 2) % 65536)
    ∧ (flitOk (flitFill (fitTo 252 [2]) 0 0 0 0) = true ∧ flitKind (flitFill (fitTo 252 [2]) 0 0 0 0) = 2) := by decide +kernel
theorem wit_ReplayBufferAgrees : ((withPort 3 up).port 3).unacked.length
      = (((withPort 3 up).port 3).txNext + 65536 - ((withPort 3 up).port 3).txAcked) % 65536 ∧ (takeAck ((withPort 3 up).port 3) 0 0).isSome = true := by
  decide +kernel

/-! ### Serving -/

def withRingAt (j kind slots : Nat) (f : Ring → Ring) (s : State) : State :=
  s.setRing j (f { Ring.init with st := 1, kind, slotLog2 := 6, slots, ctx := 1, completion := 0xFFFF, vector := 0xFFFF, base := 2 ^ 19, space := 1 })
/-- A student-side model block of one layer, 64 elements, two pages, one request of one token; rings 10, 11 and 12. -/
def srvB : Bytes :=
  [1, 0x10, 255, 255, 10, 0, 11, 0, 12, 0, 1, 0, 2, 0, 4, 0] ++ leBytes 4 64 ++ leBytes 4 2 ++ leBytes 4 8 ++ leBytes 4 16 ++ leBytes 8 sa
    ++ leBytes 8 (sa + 16384) ++ leBytes 8 (sa + 32768) ++ [1, 0, 1, 0] ++ zeros 4
def upS : State := withRingAt 10 1 8 (fun r => { r with slotLog2 := 4 }) (withRingAt 11 1 8 (fun r => { r with
  slotLog2 := 4, unitType := Config.tServing, unitInst := up2.leadBlock 1 }) (withRingAt 12 3 256 id up2))
/-- Model 16 of context 1 with queue 0. -/
def withModel (f : SrvModel → SrvModel) (s : State) : State :=
  (s.setSrvModel 16 (f { SrvModel.init with ctx := 1, block := srvB })).setSrvQueue 0 { model := 16, weight := 1, closed := false, deficit := 0 }
def entry0 (st : Nat) : SrvEntry := { SrvEntry.init with
  st, ctx := 1, model := 16, length := 3, computed := 2, maxLen := 4, slot := 1, prompt := 3, tokAddr := sa + 40960, pages := [0] }
def withEntry (e : SrvEntry) (s : State) : State := (withModel (fun m => { m with refs := [(0, 1)], slots := [0] }) s).setSrvEntry 0 e
def queueP : Bytes := [255, 255, 1] ++ zeros 61 ++ srvB
def submitP : Bytes := [0, 0, 0, 0, 0, 0, 0, 0] ++ zeros 24 ++ leBytes 4 4 ++ leBytes 4 3 ++ leBytes 8 (sa + 40960) ++ zeros 9
def pauseP : Bytes := zeros 8 ++ leBytes 8 (sa + 65536) ++ leBytes 8 16384
theorem wit_ServingCommands :
    (let b := (queueP.drop 64).take 64
     admitted specSrvQueueCreate (rt queueP) 1 queueP none upS = true ∧ field queueP 2 1 = 1
     ∧ (upS.srv.queues.filter fun x => (upS.srvModel x.2.model).ctx == 1).length < (upS.ctx 1).quota.srvQueues
     ∧ lowest srvQueueMax (fun q => !upS.hasQueue q) = some 0 ∧ field queueP 0 2 = 0xFFFF ∧ bits (field b 1 1) 1 3 = 0 ∧ mSide b = 1
     ∧ modelImage 1 b upS = none ∧ modelBad 1 (upS.leadBlock 1) b upS = none ∧ modelRange 1 1 (mKv b) (mPages b * mPageBytes b) upS = true
     ∧ modelRange 1 1 (mReq b) (mSlots b * mSlotBytes b) upS = true ∧ modelRange 1 1 (mPlan b) (mPlanBytes b) upS = true
     ∧ lowest srvSideModels (fun n => !upS.hasModel (16 + n)) = some 0)
    ∧ (let s := withModel id upS
       let p := [16, 0, 1] ++ zeros 125
       admitted specSrvQueueCreate (rt p) 1 p none s = true ∧ s.hasModel (field p 0 2) = true ∧ (s.srvModel (field p 0 2)).ctx = 1
       ∧ lowest srvQueueMax (fun q => !s.hasQueue q) = some 1)
    ∧ (let s := withModel id upS
       admitted specSrvQueueWeight (rt [0, 0, 0]) 1 [0, 0, 0] none s = true ∧ queueHandle 1 0 s = none)
    ∧ (let s := withModel id upS
       admitted specSrvSubmit (rt submitP) 1 submitP none s = true ∧ queueHandle 1 (field submitP 0 2) s = none
       ∧ field submitP 2 1 ≤ (s.ctx 1).quota.prioMax ∧ field submitP 24 8 = 0 ∧ field submitP 36 4 = 3 ∧ field submitP 32 4 = 4
       ∧ 4 ≤ 1024 * mMaxlen (s.srvModel 16).block ∧ mPrism (s.srvModel 16).block = false ∧ s.owns 1 (field submitP 40 8) (4 * 3) = true
       ∧ s.entriesHeld 1 < (s.ctx 1).quota.srvEntries ∧ lowest srvEntryMax (fun k => (s.srvEntry k).st == 0) = some 0
       ∧ (s.srvQueue 0).closed = false ∧ (s.srvModel 16).faulted = false ∧ cdiv 4 64 - 0 / 64 ≤ mPages (s.srvModel 16).block)
    ∧ (let s := withEntry (entry0 3) upS
       admitted specSrvCancel (rt [0, 0]) 1 [0, 0] none s = true ∧ entryHandle 1 0 0 s = none ∧ (s.srvEntry 0).st = 3
       ∧ admitted specSrvPause (rt pauseP) 1 pauseP none s = true ∧ field pauseP 2 1 = 0
       ∧ s.reach 1 0 (field pauseP 8 8) (max 1 (field pauseP 16 8)) = true ∧ (s.srvEntry 0).pause = none ∧ (s.srvEntry 0).resume = none
       ∧ s.modelSealed (s.srvModel 16) = false ∧ sumBytes (s.srvModel 16).block (s.srvEntry 0) ≤ field pauseP 16 8)
    ∧ (let s := withEntry (entry0 4) upS
       let p := zeros 8 ++ leBytes 8 (sa + 65536)
       admitted specSrvResume (rt p) 1 p none s = true ∧ entryHandle 1 0 0 s = none ∧ field p 2 1 = 0
       ∧ s.reach 1 0 (field p 8 8) (sumBytes (s.srvModel 16).block (s.srvEntry 0)) = true ∧ (s.srvEntry 0).st = 4
       ∧ s.spaceBad 0 (field p 8 8) (sumBytes (s.srvModel 16).block (s.srvEntry 0)) = false)
    ∧ (let s := withEntry (entry0 3) upS
       let p := leBytes 8 7 ++ [0, 0, 0, 0] ++ leBytes 4 2
       admitted specSrvPrefixCreate (rt p) 1 p none s = true ∧ entryHandle 1 0 8 s = none ∧ field p 0 8 ≠ 0 ∧ s.prefixOf 1 (field p 0 8) = none
       ∧ field p 12 4 = 2 ∧ 2 ≤ (s.srvEntry 0).computed ∧ (s.srv.prefixes.filter fun x => x.ctx == 1).length < (s.ctx 1).quota.prefixes
       ∧ s.srv.prefixes.length < srvPrefixMax ∧ cdiv 2 64 ≤ (s.srvEntry 0).pages.length)
    ∧ (let s : State := { withModel id upS with srv := { (withModel id upS).srv with prefixes := [{ ctx := 1, handle := 7, model := 16, n := 2, pages := [0] }] } }
       admitted specSrvPrefixRelease (rt (leBytes 8 7)) 1 (leBytes 8 7) none s = true ∧ (s.prefixOf 1 (field (leBytes 8 7) 0 8)).isSome = true)
    ∧ (admitted specSrvSamplerSet (rt (zeros 128)) 1 (zeros 128) none upS = true ∧ samplerBad ((zeros 128 |>.drop 64).take 64) = none) := by
  decide +kernel
def plan1 : PlanEnt := { ix := 0, prefill := false, row := true, cow := false, first := 2, count := 1, tokens := [5] }
/-- A model in a phase of its step, with one decode row. -/
def inStep (phase : Nat) : State :=
  (withModel (fun m => { m with phase, step := 1, plan := [plan1], rows := [(0, 0, sa + 49152)], refs := [(0, 1)], slots := [0] }) upS).setSrvEntry 0 (entry0 3)
theorem wit_ServingStep :
    (let s := withEntry { entry0 3 with pages := [0], spare := [1] } upS
     let t := boundaryPass 16 [1, 3, 4] (boundaryPass 16 [6] (boundaryPass 16 [5] s))
     s.isFatal = false ∧ s.hasModel 16 = true ∧ (s.srvModel 16).phase = 0 ∧ t.hasModel 16 = true ∧ (t.srvModel 16).faulted = false
     ∧ (t.ring (mPlanRing srvB)).full = false ∧ (t.unit Config.tServing (t.leadBlock (mSide srvB))).hold = false)
    ∧ (let s := (inStep 1).setRing 11 { upS.ring 11 with tail := 1 }
       let s : State := { s with mem := { s.mem with host := Mem.write [] (2 ^ 19) (leBytes 8 (sa + 8192) ++ leBytes 4 16 ++ leBytes 2 1 ++ [0, 0]) } }
       let r := s.ring 11
       let d := s.spaceRead r.space (r.slotAddr r.head) 16
       mDoneRing srvB = 11 ∧ mSide srvB = 1 ∧ r.filled ≠ 0 ∧ s.spaceBad r.space (r.slotAddr r.head) 16 = false ∧ field d 15 1 = 0
       ∧ field d 12 2 = 1 ∧ planRows [plan1] = 1 ∧ s.owns 1 (field d 0 8) 16 = true ∧ s.hbmBad (field d 0 8) 16 = false)
    ∧ (let s := withModel (fun m => { m with block := 0 :: srvB.drop 1, phase := 1, step := 1, plan := [plan1] }) (upS.setCtx 0 (up.ctx 0))
       let s : State := { s with mem := { s.mem with pages := (5, 1) :: s.mem.pages } }
       let h := leBytes 8 (5 * Config.pageBytes) ++ leBytes 4 16 ++ leBytes 2 1 ++ [0, 0]
       s.hasModel 16 = true ∧ mSide (s.srvModel 16).block = 0 ∧ field (fitTo 16 h) 15 1 = 0 ∧ field (fitTo 16 h) 12 2 = 1
       ∧ s.owns 0 (field (fitTo 16 h) 0 8) 16 = true ∧ s.hbmBad (field (fitTo 16 h) 0 8) 16 = false
       ∧ (s.sweeps.any fun w => w.model == some 16) = false)
    ∧ (let s := inStep 2
       let lens := 8
       let r : LRange := { space := 0, core := 0, addr := sa + 49152, len := 2 * mVocab srvB }
       rowEntry [plan1] 0 = some plan1 ∧ s.enabled Config.tLens lens = true ∧ s.enabled Config.tServing (Config.dieOf Config.tLens lens) = true
       ∧ (Config.dieOf Config.tLens lens < 4 ↔ mSide srvB = 0) ∧ r.onDie lens = true ∧ s.lensPerm lens 1 r = true ∧ s.lensRange lens 1 true r = true
       ∧ s.lensBad lens r = false ∧ s.hbmBad (entrySlot srvB (entry0 3)) 8192 = false ∧ s.hbmBad (entrySlot srvB (entry0 3) + 8192) 4 = false)
    ∧ (let d : Draw := { model := 16, row := 0, inst := 4, block := leBytes 4 1 ++ zeros 28 ++ leBytes 4 5 ++ leBytes 4 one32 }
       let s : State := { inStep 2 with srv := { (inStep 2).srv with draws := [d] } }
       (s.srv.draws.find? fun d => d.model == 16 && d.row == 0) = some d ∧ rowEntry [plan1] 0 = some plan1
       ∧ ((List.range (field d.block 0 4)).map fun i => (field d.block (32 + 8 * i) 4, field d.block (36 + 8 * i) 4)) ≠ [])
    ∧ (let s := inStep 3
       let es := endEntries 16 [plan1] 0 s
       (s.srvModel 16).phase = 3 ∧ cdiv (64 + 16 * es.2.length) (2 ^ (s.ring 12).slotLog2) ≤ (s.ring 12).slots - (s.ring 12).filled) := by decide +kernel
theorem wit_PlanWithinLimits : (let x := (withModel id upS).srvModel 16
    x.plan.length ≤ mReqs x.block ∧ (x.plan.map (·.count)).sum ≤ mTokens x.block) := by decide +kernel
theorem wit_ServingTransfers :
    (let e := { entry0 4 with pause := some (1, 1, 2 * 16384, sa + 65536), writing := true }
     let s := withEntry e upS
     s.isFatal = false ∧ (s.srvEntry 0).pause = some (1, 1, 2 * 16384, sa + 65536) ∧ (s.srvEntry 0).writing = true ∧ s.pagesBad e = false
     ∧ s.reach 1 0 (sa + 65536) (sumBytes srvB e) = true)
    ∧ (let e := { entry0 1 with resume := some (1, 1, 0, sa + 65536), restore := 1 }
       let s := withEntry e upS
       (s.srvEntry 0).resume = some (1, 1, 0, sa + 65536) ∧ (s.srvEntry 0).restore = 1 ∧ s.spaceBad 0 (sa + 65536) (sumBytes srvB e) = false
       ∧ s.reach 1 0 (sa + 65536) (sumBytes srvB e) = true)
    ∧ (let s := (withModel (fun m => { m with block := 1 :: 1 :: srvB.drop 2 }) upS).setSrvEntry 0 { entry0 3 with blk := 1, toks := [5], pring := 1 }
       let s := (s.setPring 0 1 { PRing.init with bound := true, st := 1, ctx := 1, slots := 4 }).setPring 0 2 { PRing.init with
         bound := true, kind := 2, st := 1, ctx := 1, slots := 4, free := 4, base := 8192 }
       s.tokenRing (s.srvEntry 0).pring = some 2 ∧ (s.srvEntry 0).slot ≠ 0 ∧ (s.pring 0 2).free ≠ 0 ∧ mPrism (s.srvModel 16).block = true
       ∧ mSide (s.srvModel 16).block = 1)
    ∧ (let f : Flight := { ring := 2, seq := 0, pos := 0, bytes := zeros 1088 }
       let s := (upS.setPring 0 2 { PRing.init with bound := true, kind := 2, st := 1, ctx := 1, slots := 4, free := 3, base := 8192 }).updChan 0
         fun c => { c with flight := [f] }
       ((s.chan 0).flight.find? fun f => f.ring == 2) = some f ∧ s.pringLive 0 2 = true) := by decide +kernel

/-! ### Loupe -/

def withLoupe (f : Loupe → Loupe) (s : State) : State := { s with loupe := f s.loupe }
theorem wit_LoupeCommands :
    (admitted specLoupeSensors (rq [255]) 0 [255] none up = true ∧ admitted specLoupeLedger (rq []) 0 [] none up = true)
    ∧ (let p := zeros 8 ++ leBytes 4 1; admitted specLoupeLogRead (rq p) 0 p none up = true ∧ field p 8 4 = 1)
    ∧ (let p := leBytes 2 700 ++ leBytes 2 950
       admitted specLoupePowerCap (rq p) 0 p none up = true ∧ field p 0 2 = 700 ∧ field p 2 2 = 950)
    ∧ (let s : State := (up.updCtx 0 fun x => { x with windows := [{ handle := 0, base := 0, len := 4096 }] })
       let p := zeros 8 ++ [1, 0, 0, 0] ++ leBytes 4 64
       admitted specLoupeFwStage (rq p) 0 p none s = true ∧ field p 8 1 = 1 ∧ field p 12 4 = 64 ∧ s.loupe.staging = none ∧ s.loupe.trial = none
       ∧ s.reach 0 1 0 64 = true ∧ s.spaceBad 1 0 64 = false)
    ∧ (let s := withLoupe (fun l => l.setSlot 1 { cond := 1, svn := 0, loupe := [], sci := [] }) up
       admitted specLoupeFwActivate (withOp 0 (rq [0, 0])) 0 [0, 0] none s = true ∧ s.loupe.dip = none ∧ s.studentHolds = false
       ∧ (s.loupe.slotOf (1 - s.sys.slot)).cond = 1)
    ∧ (let s := withLoupe (fun l => { l with trial := some 0 }) up
       admitted specLoupeFwActivate (withOp 1 (rq [1, 0])) 0 [1, 0] none s = true ∧ s.loupe.burning = none ∧ s.loupe.trial.isSome = true)
    ∧ (let s := withLoupe (fun l => l.setSlot 1 { cond := 2, svn := 0, loupe := [], sci := [] }) up
       admitted specLoupeFwActivate (withOp 2 (rq [2, 0])) 0 [2, 0] none s = true ∧ (s.loupe.slotOf (1 - s.sys.slot)).cond = 2) := by decide +kernel
theorem wit_LoupeEvents :
    (withLoupe (fun l => { l with staging := some (0, 1, [0]) }) up).loupe.staging = some (0, 1, [0])
    ∧ (let s : State := { withLoupe (fun l => { l with burning := some (0, 1) }) up with sys := { up.sys with svn := 2 } }
       s.loupe.burning = some (0, 1) ∧ s.sys.rollback + 1 < s.sys.svn ∧ s.loupe.dip = none)
    ∧ (let s : State := { withLoupe (fun l => { l with burning := some (0, 1) }) up with sys := { up.sys with svn := 1 } }
       s.sys.rollback + 1 = s.sys.svn ∧ (s.loupe.slotOf (1 - s.sys.slot)).cond ≠ 2)
    ∧ (let s : State := { withLoupe (fun l => { l with trial := some 3 }) up with sys := { up.sys with booting := true } }
       s.loupe.trial = some 3 ∧ s.sys.booting = true ∧ s.diesOn = true)
    ∧ (withLoupe (fun l => { l with planRetry := 9 }) up).loupe.planRetry ≠ 0 ∧ up.running = true ∧ up.isFatal = false ∧ up.loupe.planLate = false
    ∧ up.diesOn = true ∧ up.loupe.planTodo = [] := by decide +kernel
theorem wit_LoupeEvents_ReplanKeepsMargin : up.running = true ∧ up.isFatal = false ∧ up.loupe.planTodo = [] := by decide +kernel
theorem wit_PowerLimits : up.sys.vaux = true ∧ up.diesOn = true
    ∧ (let s := withLoupe (fun l => { l with ilDuty := 75, ilBelow := some 0 }) { up with now := 100000 }
       s.loupe.ilDuty ≠ 100 ∧ up.loupe.ilDuty = 100 ∧ s.loupeSet 2 * 10 < 100000 ∧ 0 * 100 < 95 * (s.loupeSet 2 * 10)
       ∧ s.loupe.ilBelow = some 0 ∧ 0 + 10 * Config.us ≤ (atLeast (s.loupe.ilAt + 500) s).now
       ∧ 95 * (s.loupeSet 2 * 10) ≤ s.loupeSet 2 * 10 * 100) := by decide +kernel
theorem wit_PowerLimits_GovernorStep : up.diesOn = true ∧ up.wf = true ∧ SMap.wf 0 up.loupe.freq = true := by decide +kernel
theorem wit_ThermalAndSupply : up.diesOn = true ∧ up.loupe.silent.contains 7 = false ∧ up.loupe.dip = none
    ∧ (withLoupe (fun l => { l with dip := some (3, 1) }) up).loupe.dip = some (3, 1)
    ∧ up.sys.vaux = true ∧ up.sys.vin = true ∧ up.loupe.trip = none
    ∧ (let s := withLoupe (fun l => { l with temps := [(2, (920, 1))] }) up
       (s.loupe.temps.find? fun t => decide (t.2.1 ≥ 920)) = some (2, (920, 1)))
    ∧ (withLoupe (fun l => { l with trip := some 5 }) up).loupe.trip = some 5 ∧ State.reset.sys.vaux = false
    ∧ (let s : State := { State.reset with sys := { Sys.init with vaux := true } }; s.sys.vaux = true ∧ s.diesOn = false) := by decide +kernel
theorem wit_ThermalAndSupply_PowerOffKeeps : up.sys.vaux = true ∧ up.sys.vin = true ∧ up.loupe.trip = none
    ∧ (let s := up.setCtl 7 { Ctl.init with armed := true, pend := [(0, 1)] }; SMap.wf Ctl.init s.ctls = true ∧ (s.ctl 7).armed = true) := by
  decide +kernel

/-! ### Security, resets, records -/

def rollP (fl : Nat) : Bytes := leBytes 1 fl ++ [1] ++ zeros 254
theorem wit_SecurityCommands :
    (let p := zeros 8 ++ [1, 0]; admitted specSecCerts (rt p) 1 p none up = true ∧ field p 8 2 = 1)
    ∧ (let p := 1 :: zeros 39; admitted specSecMeasurements (rt p) 1 p none up = true ∧ field p 0 1 = 1)
    ∧ (admitted specSecCtxKeyRoll (rt (rollP 2)) 1 (rollP 2) none up = true ∧ field (rollP 2) 0 1 = 2 ∧ field (rollP 2) 1 1 = 1 ∧ up.rolling 1 = false
      ∧ (up.ctx 1).st = 1 ∧ field (rollP 2) 8 8 = (up.ctx 1).epoch ∧ bitOf 2 3 = false)
    ∧ (let o : PendingOp := { ctx := 1, handle := 1, opcode := 0x0B02, tag := 0, seq := 1, mailbox := 2, payload := rollP 2 }
       let s : State := { up with ops := [o] }
       (s.ops.find? fun o => o.opcode == 0x0B02 && field o.payload 1 1 == 1) = some o ∧ s.isFatal = false)
    ∧ (admitted specSecDebugState (withOp 0 (rt [0])) 1 [0] none up = true
      ∧ (let p := 1 :: zeros 512; admitted specSecDebugState (withOp 1 (rq p)) 0 p none up = true ∧ isAdmin 0 = true)
      ∧ admitted specSecDebugState (withOp 2 (rq [2])) 0 [2] none up = true) := by decide +kernel
theorem wit_SecurityCommands_SpdmAnswers : (let s : State := { up with sec := { up.sec with boot := 1 } }; s.spdmUp 0 = true ∧ s.spdmUp 2 = true) := by decide +kernel
theorem wit_ContextResets :
    (admitted specCtxReset (rt [1]) 1 [1] none up = true ∧ (up.ctx 1).st = 1 ∧ ((up.txn 1).all fun x => x.st != 2) = true)
    ∧ (admitted specCtxDestroy (rq [1]) 0 [1] none up = true
      ∧ (let s := withTxn (txn1 2) up; admitted specCtxDestroy (rq [1]) 0 [1] none s = true ∧ ((s.txn 1).all fun x => x.st != 2) = false)) := by
  decide +kernel
def runC (kind : Nat) : ResetRun := { kind, ctxs := [1], destroy := true, ops := [], begun := true }
def withSys (f : Sys → Sys) (s : State) : State := { s with sys := f s.sys }
theorem wit_DeviceResets :
    (up.diesOn = true ∧ up.sys.booting = false ∧ up.sys.resets = [] ∧ (withSys (fun x => { x with sysReset := some 0 }) up).sys.sysReset = some 0
      ∧ up.loupe.swap = 0 ∧ up.loupe.dip = none ∧ up.isFatal = false ∧ up.sys.linksDown.contains 21 = false)
    ∧ ((withSys (fun x => { x with resets := [runC 1] }) up).sys.resets = [runC 1] ∧ (runC 1).begun = true ∧ (runC 3).kind = 3)
    ∧ (let s := withSys (fun x => { x with vaux := true }) State.reset
       s.sys.vaux = true ∧ s.loupe.trip = none ∧ s.sys.valid = false ∧ s.loupe.tripped = false)
    ∧ (let s := withSys (fun x => { x with stage := 1, booting := true, sciMajor := 0 }) up
       s.sys.booting = true ∧ s.diesOn = true ∧ s.sys.stage = 1 ∧ s.sys.resets = [] ∧ s.sys.warm = false) := by decide +kernel
theorem wit_ContextResets_EngineReset : up.running = true ∧ up.isFatal = false ∧ up.enabled Config.tLens 3 = true ∧ engineUnits Config.tLens 3 = [(Config.tLens, 3)]
    ∧ up.namedBy Config.tLens 3 = [] ∧ up.unitRings Config.tLens 3 = [] ∧ Config.tLens ≠ Config.tPrism ∧ Config.tLens ≠ Config.tUpdate
    ∧ up.wf = true := by decide +kernel
def opC (op : Nat) (payload : Bytes) : PendingOp := { ctx := 1, handle := 1, opcode := op, tag := 3, seq := 1, mailbox := 2, payload }
theorem wit_FinalRecords :
    (let s : State := { up with ops := [opC 0x0304 copyP] }
     (s.ops.find? fun o => o.ctx == 1 && o.handle == 1) = some (opC 0x0304 copyP) ∧ s.running = true ∧ s.isFatal = false ∧ (s.ctx 1).st ≠ 2)
    ∧ (lateCommand 0x0902 [0, 0] = true ∧ (specOf 0x0902).isSome = true)
    ∧ (let s : State := { up with log := { up.log with slots := [{ ctx := 0, code := 1, unit := 0, count := 1, bytes := zeros 64 }] } }
       (s.log.slots.filter fun x => x.ctx == 0) ≠ []) := by decide +kernel
theorem wit_EventDelivery : (let s := up.updRing 9 fun r => { r with space := 0 }
    (s.ctx 1).eventRing = some 9 ∧ (s.ring 9).full = false ∧ (s.ctx 1).held = [] ∧ (s.ring 9).st ≠ 0 ∧ (zeros 64).length = 64
    ∧ s.mem.wf = true ∧ (s.ring 9).space = 0) := by decide +kernel

/-! ### Engines -/

/-- TE_DIRECT_PASS of one element in bf16: A, B, result and preload at 64-byte units of the activation SRAM. -/
def dirD (ctl : Byte) : Bytes :=
  let u := actBase / 64
  dsc 0x11 ([1, 0x11, ctl, 0, 1, 1, 0, 0] ++ leBytes 3 u ++ zeros 6 ++ leBytes 3 (u + 1) ++ leBytes 3 (u + 2) ++ leBytes 3 (u + 3))
def teS (d : Bytes) : State := withDesc Config.tTeacher 5 d up
theorem wit_TeacherPasses :
    (let s := teS (dirD 0)
     let pl := directPlan 5 (dirD 0) (s.heldAcc 5) s
     s.headOf 5 0x11 = some (0, dirD 0) ∧ (s.ring 5).unitType = Config.tTeacher
     ∧ s.mayRun 5 1 (s.setting Config.tTeacher 5 2 0 == 1) (s.stageReady 5) = true ∧ s.stageReady 5 (dirD 0) = true
     ∧ (s.core 5).drain = none ∧ (s.core 5).clearing = false ∧ teCheck 5 1 false (dirD 0) s pl = none
     ∧ chainBreaks (s.core 5).chain 5 (dirD 0) (tStart (dirD 0)) (tHold (dirD 0)) (teChain 0x11) = false
     ∧ s.firstMarked 5 (pl.staged ++ pl.reads) = none ∧ (s.ring 5).inTask = false ∧ s.wf = true)
    ∧ (let s := teS (dirD 3)
       s.headOf 5 0x11 = some (0, dirD 3) ∧ s.stageReady 5 (dirD 3) = true
       ∧ teCheck 5 1 false (dirD 3) s (directPlan 5 (dirD 3) (s.heldAcc 5) s) = some (0x108, 8))
    ∧ (let s := teS (dirD 1)
       s.headOf 5 0x11 = some (0, dirD 1) ∧ teCheck 5 1 false (dirD 1) s (directPlan 5 (dirD 1) (s.heldAcc 5) s) = none
       ∧ chainBreaks (s.core 5).chain 5 (dirD 1) (tStart (dirD 1)) (tHold (dirD 1)) (teChain 0x11) = true) := by decide +kernel

/-- SE_MATMUL of one element in bf16. -/
def matD (arrays : Byte) : Bytes :=
  dsc 0x10 ([arrays, 0x11, 0, 0, 1, 1, 0, 0, 0, 0] ++ leBytes 3 0 ++ leBytes 3 1 ++ leBytes 3 2 ++ leBytes 3 3)
/-- SE_KD_LOSS of one row of a vocabulary of one, from port 0. -/
def kdD : Bytes := dsc 0x21 ([0, 0, 0, 0, 1, 0, 0, 0] ++ leBytes 4 1 ++ leBytes 3 0 ++ leBytes 3 1 ++ leBytes 3 2 ++ leBytes 3 3 ++ leBytes 2 1
  ++ leBytes 2 1 ++ leBytes 4 0 ++ leBytes 4 0 ++ leBytes 4 0x3F800000 ++ leBytes 4 0x3F800000)
/-- A vector program of one word at byte 64. -/
def vecD : Bytes := dsc 0x20 (leBytes 3 1 ++ leBytes 2 1)
def seS (d : Bytes) : State := withDesc Config.tStudent 3 d up
/-- A bound STREAM ring of channel 0 with one record present at port 0 of student core 3. -/
def tgtRing : PRing := { PRing.init with
  bound := true, st := 1, kind := 0, core := 3, port := 0, remote := 0xFFFF, slots := 4, limit := 4, tail := 1, written := [0], ctx := 1 }
def kdRunS : State :=
  ((withRing Config.tStudent 3 (fun r => { r with cur := some (cur0 kdD) }) up).setPring 0 2 tgtRing).updCore 35 fun c => { c with
    kd := some { ring := 5, row := 0, nonfin := 0, floored := 0, lb := 0 } }
def drain0 (nf : Nat) : Drain := { ring := 5, writes := [(actBase, zeros 4)], nonfin := nf, cycles := 0, gated := 0, counts := [] }
def drainS (nf : Nat) : State :=
  (withRing Config.tTeacher 5 (fun r => { r with cur := some (cur0 (dirD 0)) }) up).updCore 5 fun c => { c with drain := some (drain0 nf) }
theorem wit_StudentPassesAndDrains :
    (let s := seS (matD 1)
     let pl := sePlan 35 (matD 1) (s.heldAcc 35) s
     s.headOf 5 0x10 = some (0, matD 1) ∧ (s.ring 5).unitType = Config.tStudent
     ∧ s.mayRun 5 1 (s.setting Config.tStudent 3 1 0 == 1) (fun _ => true) = true ∧ (s.core 35).drain = none ∧ (s.core 35).clearing = false
     ∧ seCheck 35 (matD 1) s pl = none ∧ chainBreaks (s.core 35).chain 5 (matD 1) (tStart (matD 1)) (tHold (matD 1)) seChain = false
     ∧ s.firstMarked 35 pl.reads = none
     ∧ (let s := seS (matD 0); s.headOf 5 0x10 = some (0, matD 0) ∧ seCheck 35 (matD 0) s (sePlan 35 (matD 0) (s.heldAcc 35) s) = some 0x108))
    ∧ (let s := seS kdD
       s.headOf 5 0x21 = some (0, kdD) ∧ s.mayRun 5 2 (s.setting Config.tStudent 3 1 0 == 1) (fun _ => true) = true ∧ (s.core 35).vec = none
       ∧ (s.core 35).kd = none ∧ kdCheck 35 kdD s = none ∧ s.chainHeld 35 5 = false ∧ s.firstMarked 35 (kdLabels kdD) = none)
    ∧ ((kdRunS.ring 5).cur = some (cur0 kdD) ∧ 0 < kdRows kdD ∧ kdRunS.portRing 3 (kdPort kdD) = some 2 ∧ (kdRunS.pring 0 2).avail ≠ 0)
    ∧ (let s := seS vecD
       s.headOf 5 0x20 = some (0, vecD) ∧ s.mayRun 5 2 (s.setting Config.tStudent 3 1 0 == 1) (fun _ => true) = true ∧ field vecD 11 2 ≠ 0
       ∧ sramReadable 35 (64 * field vecD 8 3) (8 * field vecD 11 2) = true)
    ∧ (unitCore Config.tTeacher 5 = some 5 ∧ (∀ n, (drain0 n).ring = 5) ∧ ((drainS 0).core 5).drain = some (drain0 0)
      ∧ ((drainS 1).core 5).drain = some (drain0 1) ∧ ((drainS 1).ring 5).cur = some (cur0 (dirD 0)) ∧ (cur0 (dirD 0)).phase = 0
      ∧ (drainS 1).isFatal = false ∧ (drain0 1).nonfin ≠ 0) := by
  refine ⟨by decide +kernel, by decide +kernel, by decide +kernel, by decide +kernel, by decide +kernel, fun _ => rfl, by decide +kernel⟩

/-! ### Vector programs -/

def vf0 : VecFields := { d := 0, s1 := 0, s2 := 0, s3 := 0, m := 0, men := false, imm := 0 }
def vec0 (wait : Option (Nat × Nat)) : VecState := { vecStart 5 0 3 vecD 64 with wait }
/-- Student core 3 at a word of a vector program, its target port 0 with one record. -/
def vuS (op : Nat) : State :=
  (sramWrite 35 64 (leBytes 8 (vecEncode op vf0)) ((seS vecD).setPring 0 2 tgtRing)).updCore 35 fun c => { c with vec := some (vec0 none) }
/-- The same where TWAIT has stalled at a port. -/
def waitS (port : Nat) (p : PRing) : State := (up.setPring 0 2 p).updCore 35 fun c => { c with vec := some (vec0 (some (port, 1))) }
theorem wit_VectorInstructions :
    (∀ op ∈ [0x00, 0x01, 0x02, 0x03, 0x04, 0x05, 0x06, 0x07, 0x08, 0x09, 0x0A, 0x10, 0x11, 0x12, 0x13, 0x14, 0x15, 0x20, 0x21, 0x22, 0x23, 0x24, 0x25,
        0x26, 0x27, 0x28, 0x29, 0x2A, 0x2B, 0x2C, 0x2D, 0x2E, 0x30, 0x31, 0x32, 0x33, 0x40, 0x41, 0x42, 0x43, 0x44, 0x45, 0x46, 0x50, 0x51, 0x52, 0x60,
        0x61, 0x62], ((vuS op).core 35).vec = some (vec0 none) ∧ (vuS op).isFatal = false ∧ (vuS op).sramBad 35 (64 + 8 * 0) 8 = false
          ∧ vecDecode (vecWord 35 (vec0 none) (vuS op)) = (op, vf0) ∧ wordIllegal (decide (35 < 32)) op vf0 = false)
    ∧ ((vec0 none).wf = true ∧ (vec0 none).wait = none)
    ∧ (let s := vuS 0x10
       ∀ l ∈ (vec0 none).lanes vf0, (vec0 none).strided vf0 4 l % 4 = 0 ∧ vecReadable 35 ((vec0 none).strided vf0 4 l) 4 = true
         ∧ s.vecSealedAt 35 ((vec0 none).strided vf0 4 l) 4 1 = false ∧ s.sramBad 35 ((vec0 none).strided vf0 4 l) 4 = false
         ∧ (withDesc Config.tStudent 3 vecD up).vecWritable 35 ((vec0 none).strided vf0 4 l) 4 = true)
    ∧ ((vec0 none).addr vf0 % 8 = 0 ∧ vecReadable 35 ((vec0 none).addr vf0) 8 = true)
    ∧ (∀ n, n < 8 → (vec0 none).mask n < 2 ^ 256)
    ∧ ((vuS 0x60).portRing 3 0 = some 2 ∧ ((vuS 0x60).pring 0 2).avail ≠ 0)
    ∧ ((waitS 0 tgtRing).isFatal = false ∧ ((waitS 0 tgtRing).core 35).vec = some (vec0 (some (0, 1))) ∧ (waitS 0 tgtRing).portRing 3 0 = some 2
      ∧ ((waitS 0 tgtRing).pring 0 2).avail ≠ 0 ∧ (waitS 1 tgtRing).portRing 3 1 = none
      ∧ ((waitS 0 { tgtRing with written := [] }).pring 0 2).avail = 0) := by decide +kernel

/-- Words written out from R193: OP in [7:0], D in [12:8], S1 in [17:13], S2 in [22:18], S3 in [27:23], M in [30:28], MEN in [31], IMM in [63:32]. VADD v1 = v2 + v3
under m5; SLI x4 = −1; VLD v31 from x1 in bf16 (FMT 1 in S3). -/
theorem test_vector_words :
    vecDecode 0x00000000D00C4120 = (0x20, { d := 1, s1 := 2, s2 := 3, s3 := 0, m := 5, men := true, imm := 0 })
    ∧ vecDecode 0xFFFFFFFF00000403 = (0x03, { d := 4, s1 := 0, s2 := 0, s3 := 0, m := 0, men := false, imm := 2 ^ 32 - 1 })
    ∧ vecDecode 0x0000000000803F10 = (0x10, { d := 31, s1 := 1, s2 := 0, s3 := 1, m := 0, men := false, imm := 0 }) := by decide

/-! ### Scaler and Lens -/

/-- SCL_QUANT in LIVE mode without a slot of one bf16 element to E4M3; `mode` goes into MODE. -/
def quantD (mode : Byte) : Bytes :=
  dsc 0x10 ([0x20 + mode, 0x31, 0, 0, 0, 0] ++ leBytes 3 (actBase / 64) ++ leBytes 3 (actBase / 64 + 1) ++ leBytes 3 (actBase / 64 + 2)
    ++ leBytes 3 (actBase / 64 + 4))
/-- SCL_QUANT in DELAYED mode with a slot. -/
def quantS : Bytes :=
  dsc 0x10 ([1, 0x31, 0, 0, 0, 0] ++ leBytes 3 (actBase / 64) ++ leBytes 3 (actBase / 64 + 1) ++ leBytes 3 0 ++ leBytes 3 (actBase / 64 + 4))
def sclS (d : Bytes) : State := withDesc Config.tScaler 3 d up
def slot0 : Slot := { noSlot with hist := List.replicate 16 0 }
theorem wit_ScalerTasks :
    (let d := quantD 2
     let s := sclS d
     s.headOf 5 0x10 = some (0, d) ∧ (s.ring 5).unitType = Config.tScaler ∧ s.mayRun 5 1 (s.setting Config.tScaler 3 2 0 == 1) (fun _ => true) = true
     ∧ qCheck 3 d s = none ∧ s.firstMarked 3 (qSlotRuns d) = none ∧ qNoSlot d = true ∧ s.firstMarked 3 [qInRun d] = none)
    ∧ (let s := sclS quantS
       s.headOf 5 0x10 = some (0, quantS) ∧ qCheck 3 quantS s = none ∧ qNoSlot quantS = false ∧ slotOk (s.sramRead 3 (qSlotAt quantS) 128) = false
       ∧ (let s := sramMark 3 (qSlotAt quantS) 8 s; s.headOf 5 0x10 = some (0, quantS) ∧ (s.firstMarked 3 (qSlotRuns quantS)).isSome = true
          ∧ qCheck 3 quantS s = none))
    ∧ (let d := quantD 3; (sclS d).headOf 5 0x10 = some (0, d) ∧ qCheck 3 d (sclS d) = some 0x108)
    ∧ (fNonFinite 0x3F800000 = false ∧ slot0.hist.length = 16 ∧ slot0.pos < 16 ∧ slot0.len = 1) := by decide +kernel

/-- LENS_TOPK of one row of two elements in device memory with k = 1; `rows` 0 is no task. SEG names a table at 4096. -/
def topkD (ctl rows : Byte) (n : Nat) : Bytes :=
  dsc 0x10 ([ctl, 0, rows, 0, 1, 0, 0, 0] ++ leBytes 4 1 ++ leBytes 4 n ++ leBytes 4 0 ++ leBytes 8 4096 ++ leBytes 8 8192 ++ leBytes 4 0 ++ leBytes 4 64)
def lensS (d : Bytes) : State := withDesc Config.tLens 3 d up
def lensRunS : State := (withRing Config.tLens 3 (fun r => { r with cur := some (cur0 (topkD 0 1 2)) }) up).setLensTask 5 { LensTask.init with cls := 2 }
theorem wit_LensTasks :
    (let d := topkD 0 1 2
     let s := lensS d
     s.headOf 5 0x10 = some (0, d) ∧ (s.ring 5).unitType = Config.tLens ∧ s.lensMay 5 (lensClass d) = true ∧ lensCheck 3 1 d s = none ∧ lSeg d = false)
    ∧ (let d := topkD 0 0 2; (lensS d).headOf 5 0x10 = some (0, d) ∧ lensCheck 3 1 d (lensS d) = some 0x108)
    ∧ (let d := topkD 4 1 2
       let s := { lensS d with mem := { (lensS d).mem with hbmPoison := [64] } }
       s.headOf 5 0x10 = some (0, d) ∧ lensCheck 3 1 d s = none ∧ lSeg d = true ∧ s.hbmBad (lSrc d) (16 * field d 12 2) = true)
    ∧ ((lensRunS.ring 5).unitType = Config.tLens ∧ lensRunS.isFatal = false ∧ lensRunS.lensBusy 5 (lensRunS.ring 5) 2 = true
      ∧ (∀ x ∈ lensRunS.unitRings Config.tLens 3, x.1 = 5) ∧ (lensRunS.ring 5).cur = some (cur0 (topkD 0 1 2)) ∧ dOp (topkD 0 1 2) ≠ 0x12
      ∧ ((lensRunS.lensSegs (topkD 0 1 2)).map (LSeg.rowAt (topkD 0 1 2) 0)).find? (lensRunS.lensBad 3) = none) := by decide +kernel
/-- R238, R239: of 1, 3, 3 and 2 as uint32 the two that rank first are the elements at 1 and 2, the tie going to the lower index. -/
theorem test_topk : (lensTopk 6 false none 2 [1, 3, 3, 2]).ents = [(1, 3), (2, 3)] := by decide
theorem wit_LensSelects : ((lensValid 6 [1, 3, 3, 2]).map (·.ix)).Nodup ∧ lensKey 6 2 = some 2 := by decide

/-! ### Prism -/

/-- Channel 0 with ring 2 of its transmit side live; a ring of context 0 on the channel. -/
def prS (p : PRing) (d : Bytes) : State :=
  ((withDesc Config.tPrism 0 d up).updRing 5 fun r => { r with ctx := 0 }).setPring 0 2 p
/-- PRISM_ROWS of one row whose tag, of zeros but for ring 2, stands at 4096; TEMP 1. -/
def rowsD : Bytes := dsc 0x10 ([0, 1, 1, 0] ++ leBytes 4 0x3F800000 ++ leBytes 8 4096)
def prTag (p : PRing) (d : Bytes) : State :=
  let s := prS p d
  { s with mem := { s.mem with hbm := Mem.write [] 4096 (zeros 12 ++ [2, 0, 0, 0]) } }
def tapD : Bytes := dsc 0x11 ([2, 0, 0, 0, 1, 0, 0, 0] ++ leBytes 3 (actBase / 64) ++ leBytes 3 1 ++ [0, 0] ++ leBytes 8 4096)
def blockD (op : Byte) : Bytes := dsc 0x12 ([op, 2, 0, 0, 0, 0, 0, 0] ++ leBytes 8 7 ++ leBytes 4 0 ++ leBytes 4 1)
def placed : PRing := { tgtRing with order := 1, maxLen := 4, free := 4 }
def blk7 : Blk := { seq := 7, first := 0, len := 1, start := 0 }
def open7 : BlkOpen := { ring := 2, seq := 7, first := 0, len := 1, by_ := 0 }
/-- A Lens row held for channel 0, whose list takes its tag at 4096. -/
def prismTopk : Bytes := dsc 0x10 ([1, 0x80, 1, 0, 1, 0, 0, 0] ++ leBytes 4 1)
def heldS : State :=
  let s := prTag { tgtRing with reserved := 1 } rowsD
  (((s.setRing 6 { Ring.init with
    st := 1, slots := 8, slotLog2 := 6, unitType := Config.tLens, completion := 0xFFFF, vector := 0xFFFF, cur := some (cur0 prismTopk) }).setLensTask 6
    { LensTask.init with held := some (zeros 40) }).updChan 0 fun x => { x with
      lists := [{ lens := 0, addr := 4096, rows := 1, next := 0, temp := 0x3F800000, reserve := true }] })
theorem wit_PrismCommands :
    (let s := prTag { tgtRing with kmax := 64, free := 1 } rowsD
     s.prismHead 5 0x10 = some (0, rowsD, 0) ∧ (s.chan 0).lists.length < 4 ∧ rowsCheck 0 rowsD s = none ∧ s.hbmBad (field rowsD 16 8) 16 = false
     ∧ (let s := prTag { tgtRing with kmax := 1, free := 1 } rowsD; s.prismHead 5 0x10 = some (0, rowsD, 0) ∧ rowsCheck 0 rowsD s = some (0x111, 2)))
    ∧ (let s := prTag { tgtRing with kind := 1 } tapD
       s.prismHead 5 0x11 = some (0, tapD, 0) ∧ tapCheck 0 tapD s = none ∧ s.hbmBad (field tapD 24 8) 16 = false
       ∧ s.firstMarked 0 ((List.range 1).map (tapRow tapD (s.pring 0 2))) = none)
    ∧ (let s := prS placed (blockD 0)
       s.prismHead 5 0x12 = some (0, blockD 0, 0) ∧ s.pringLive 0 2 = true ∧ field (blockD 0) 28 4 ≤ placed.maxLen ∧ (s.chan 0).opens = []
       ∧ (s.pring 0 2).blockOf 7 = none
       ∧ (let s := prS { placed with blocks := [blk7] } (blockD 1)
          s.prismHead 5 0x12 = some (0, blockD 1, 0) ∧ ((s.pring 0 2).blockOf (field (blockD 1) 16 8)).isSome = true))
    ∧ (let s := (prS placed (blockD 0)).updChan 0 fun x => { x with opens := [open7] }
       ((s.chan 0).opens.find? fun o => o.ring == 2) = some open7 ∧ open7.len ≤ (s.pring 0 2).free ∧ (s.pring 0 2).blocks.length < 256
       ∧ (let s := s.setPring 0 2 { placed with free := 0 }; (s.pring 0 2).free < open7.len))
    ∧ (heldS.wf = true ∧ (heldS.unit Config.tPrism 0).hold = false ∧ heldS.heldRow 0 = some (6, prismTopk, zeros 40) ∧ (heldS.nextList 0 0).isSome = true ∧ (heldS.tagAt 4096 0).ring = 2
      ∧ heldS.pringLive 0 2 = true ∧ (heldS.pring 0 2).reserved ≠ 0 ∧ heldS.mapPoison (heldS.pring 0 2) (zeros 40) = none
      ∧ (heldS.ring 6).cur = some (cur0 prismTopk) ∧ (cur0 prismTopk).rows + 1 = lRows prismTopk)
    ∧ ((up.setPring 0 2 tgtRing).pring 0 2 = tgtRing ∧ tgtRing.bound = true ∧ tgtRing.st ≠ 2 ∧ tgtRing.remote = 0xFFFF) := by
  refine ⟨by decide +kernel, by decide +kernel, by decide +kernel, by decide +kernel, by decide +kernel, by decide +kernel⟩
def flyS : State := (up.setPring 0 2 tgtRing).updChan 0 fun x => { x with flight := [{ ring := 2, seq := 0, pos := 0, bytes := zeros 64 }] }
theorem wit_PrismCommands_PrismFlow :
    (((flyS.chan 0).flight.find? fun f => (flyS.pring 0 f.ring).kind != 2).isSome = true ∧ flyS.isFatal = false ∧ flyS.pringLive 0 2 = true
      ∧ flyS.wf = true ∧ (flyS.pring 0 2).order = 0 ∧ (flyS.pring 0 2).remote = 0xFFFF)
    ∧ ((up.setPring 0 2 { tgtRing with pend := 1 }).pring (2 / 16) (2 % 16)).pend ≠ 0
    ∧ ((up.setPring 0 2 { tgtRing with crd := 1 }).pring (2 / 16) (2 % 16)).crd ≠ 0 ∧ ((up.setPring 0 2 tgtRing).pring 0 2).crd = 0
    ∧ (up.setPring 0 2 tgtRing).prismCoalesce 0 ≠ 0 := by decide +kernel

/-! ### Update Units -/

def updS (d : Bytes) : State := withDesc Config.tUpdate 0 d (withJob 1 true up2)
def job0 : Job := { Job.init with ctx := 1, st := 1, started := true, header := hdr 2 }
def exD (rep : Byte) : Bytes := dsc 0x10 ([rep, 0, 0, 0, 0, 0, 0, 0] ++ zeros 8 ++ leBytes 4 1 ++ leBytes 8 4096 ++ leBytes 8 8192)
def comD (att : Nat) : Bytes := dsc 0x11 (zeros 4 ++ leBytes 4 att ++ [1, 0])
def appD : Bytes := dsc 0x12 (zeros 8 ++ leBytes 4 1 ++ leBytes 8 4096 ++ leBytes 8 8192 ++ leBytes 8 12288 ++ leBytes 4 0 ++ leBytes 8 16384)
def gatD : Bytes := dsc 0x13 (zeros 8 ++ zeros 4 ++ leBytes 4 1 ++ leBytes 8 4096)
def mrkD : Bytes := dsc 0x14 (zeros 8)
def winS (cause : Nat) (d : Bytes) : State :=
  let s := (updS d).setUpd 0 { Upd.init with window := true, applyCount := 2 }
  { s with step := { s.step with cause } }
def jobG : Job := { job0 with header := [3, 2, 0, 0, 255, 255, 0, 0] ++ (hdr 2).drop 8 }
def ctr0 : Contribution :=
  { dev := 0, shardsOk := true, scaleOk := true, localNf := false, reducedNf := false, attempt := 0, cls := 2, tensor := 0, norm := 0 }
theorem wit_UpdateCommands :
    (let s := updS (exD 0)
     (s.ring 5).cur = none ∧ s.updHead 5 0x10 = some (0, exD 0, 0, 0, job0) ∧ exchangeCheck 0 1 (exD 0) job0 s = none ∧ s.replayOf 0 = none
     ∧ s.hbmBad (field (exD 0) 28 8) (2 * field (exD 0) 24 4) = false
     ∧ (updS (exD 1)).updHead 5 0x10 = some (0, exD 1, 0, 0, job0) ∧ exchangeCheck 0 1 (exD 1) job0 (updS (exD 1)) = some 0x108)
    ∧ ((withGroup 1 up).jobGroupSt jobG = 1 ∧ ((withGroup 1 up).jobMembers jobG).length ≠ 1 ∧ (up.jobMembers job0).length = 1
      ∧ up.jobGroupSt job0 ≠ 2 ∧ up.jobGroupSt job0 ≠ 3)
    ∧ (let s := updS (comD 0)
       s.updHead 5 0x11 = some (0, comD 0, 0, 0, job0) ∧ updAttemptBad 0 (comD 0) s = false ∧ s.mirror.adopted = none ∧ s.jobGroupSt job0 ≠ 2
       ∧ (updS (comD 1)).updHead 5 0x11 = some (0, comD 1, 0, 0, job0) ∧ updAttemptBad 0 (comD 1) (updS (comD 1)) = true)
    ∧ (let s := ((withJob 1 true up2).setUpd 0 { Upd.init with sent := true }).setUpd 1 { Upd.init with sent := true }
       s.updJob = some (0, job0) ∧ (s.upd 0).sent = true ∧ (s.upd 1).sent = true ∧ s.jobGroupSt job0 = 1 ∧ s.isFatal = false)
    ∧ ((winS 1 appD).updHead 5 0x12 = some (0, appD, 0, 0, job0) ∧ applyCheck 0 1 appD job0 (winS 1 appD) = none ∧ (winS 1 appD).step.cause ≠ 0
      ∧ ((winS 1 appD).upd 0).applied + 1 < ((winS 1 appD).upd 0).applyCount ∧ (winS 0 appD).updHead 5 0x12 = some (0, appD, 0, 0, job0)
      ∧ (winS 0 appD).step.cause = 0 ∧ (winS 0 appD).ckptHolds (applyRuns job0 appD) = false)
    ∧ (∀ c ∈ [0, 1], (winS c gatD).updHead 5 0x13 = some (0, gatD, 0, 0, job0) ∧ updGatherCheck 0 1 gatD job0 (winS c gatD) = none
      ∧ (winS c gatD).step.cause = c ∧ (winS c gatD).replayOf 0 = none ∧ (winS c gatD).ckptHolds [(field gatD 24 8, 2 * field gatD 20 4)] = false)
    ∧ ((updS mrkD).updHead 5 0x14 = some (0, mrkD, 0, 0, job0) ∧ field mrkD 8 1 ≤ 31 ∧ dAttempt mrkD = ((updS mrkD).upd 0).attempt
      ∧ job0.ledgerAddr ≠ 0) := by
  refine ⟨by decide +kernel, by decide +kernel, by decide +kernel, by decide +kernel, by decide +kernel, by decide +kernel, by decide +kernel⟩
/-- UPD_APPLY with the momentum optimizer of one zero element under an OK word: nothing is left for its value, and no line is poisoned. -/
def jobM : Job := { job0 with header := [3, 2, 0, 1] ++ (hdr 2).drop 4 }
theorem wit_UpdateCommands_apply :
    (let s := (winS 0 appD).setJob 0 jobM
     let t := served 5 (begin 5 0 appD (ckptBefore (applyRuns jobM appD) s))
     s.updHead 5 0x12 = some (0, appD, 0, 0, jobM) ∧ applyCheck 0 1 appD jobM s = none ∧ s.ckptHolds (applyRuns jobM appD) = false
     ∧ (∀ x ∈ (field appD 48 8, 2 * 1) :: applyRuns jobM appD, t.hbmBad x.1 x.2 = false)
     ∧ (applyGo (applyConst jobM t.step false 0) 1 (field appD 20 8) (field appD 28 8) (field appD 36 8) (field appD 48 8) 1 0 t).2 = (0, 0)) := by
  decide +kernel
theorem wit_CommitWordRules : 0 < 1 ∧ (formWord [0] [ctr0]).cause = 0 ∧ [ctr0].Perm [ctr0] ∧ ([ctr0].map (·.dev)).Nodup
    ∧ (formWord [0] [{ ctr0 with localNf := true }]).cause = 1 ∧ (formWord [0] [{ ctr0 with scaleOk := false }]).cause = 2 := by decide +kernel

/-! ### Stream Units -/

/-- SU_COPY of 64 bytes from device address 4096 to 8192. -/
def copyD (n : Nat) : Bytes := dsc 0x10 ([0, 0, 0, 0, 0, 0] ++ leBytes 8 4096 ++ leBytes 8 8192 ++ leBytes 4 n)
def gthD : Bytes := dsc 0x12 ([0, 0, 0, 0, 0, 0] ++ leBytes 8 4096 ++ leBytes 8 8192 ++ leBytes 4 64 ++ leBytes 4 1 ++ leBytes 4 0)
def suS (d : Bytes) : State := withDesc Config.tStream 48 d up
def seg0 : Seg := { src := 4096, dst := 8192, len := 64, chk := none }
def ackS : State := withRing Config.tStream 48 (fun r => { r with cur := some { cur0 (copyD 64) with out := [seg0] } }) up
theorem wit_StreamCommands :
    ((suS (copyD 64)).headOf 5 0x10 = some (0, copyD 64) ∧ ((suS (copyD 64)).ring 5).unitType = Config.tStream
      ∧ copyCheck 48 1 (copyD 64) (suS (copyD 64)) = none ∧ (suS (copyD 0)).headOf 5 0x10 = some (0, copyD 0)
      ∧ copyCheck 48 1 (copyD 0) (suS (copyD 0)) = some 0x108)
    ∧ ((suS gthD).headOf 5 0x12 = some (0, gthD) ∧ gatherCheck 48 1 gthD (suS gthD) = none ∧ (suS gthD).hbmBad 4096 8 = false
      ∧ (let s := { suS gthD with mem := { (suS gthD).mem with hbmPoison := [64] } }
         s.headOf 5 0x12 = some (0, gthD) ∧ gatherCheck 48 1 gthD s = none ∧ s.hbmBad 4096 8 = true))
    ∧ (0 < 64 ∧ (segsOf 64 32 0 100 none)[1]? = some { src := 64, dst := 32, len := 32, chk := none })
    ∧ (let c := { cur0 (copyD 64) with out := [seg0] }
       (ackS.ring 5).cur = some c ∧ (ackS.ring 5).unitType = Config.tStream ∧ dOp c.desc = 0x10 ∧ suSrcSpace c.desc = 0 ∧ suDstSpace c.desc = 0
       ∧ c.phase = 0 ∧ c.fault = 0 ∧ c.out[0]? = some seg0 ∧ ackS.isFatal = false ∧ ackS.hbmBad seg0.src seg0.len = false ∧ ackS.mem.wf = true) := by
  decide +kernel

/-! ### Network Ports -/

/-- Ring 5 of context 1 on Network Port 0, whose link is up; binding 0 of the port in a kind and state. -/
def nb (kind : Byte) : Bytes := [kind, 0, 0, 0, 0, 0, 0, 1] ++ zeros 30 ++ [0, 8, 255, 255] ++ leBytes 8 4096 ++ leBytes 8 4096 ++ zeros 14 ++ leBytes 8 4096 ++ zeros 48
def npS (f : NetBind → NetBind) (d : Bytes) : State :=
  let s := withDesc Config.tNet 0 d up
  ((s.setNport 0 { NetPort.init with link := 2 }).setBind 0 (f { NetBind.init with ctx := 1, kind := 2, block := nb 2, st := 1, qpn := 16, rkey := 16 }))
def bndD (a : Nat) : Bytes := dsc 0x10 (leBytes 8 a)
/-- A binding block of an RX_HBM binding of 4 KiB at device address 4096 stands at 8192; at 12288 stands one of a reserved KIND. -/
def bndS (d : Bytes) : State :=
  let s := npS id d
  { s with mem := { s.mem with hbm := Mem.write (Mem.write [] 8192 (nb 0)) 12288 (nb 3) } }
def unbD (b : Nat) : Bytes := dsc 0x11 (leBytes 2 b)
def rwD (op : Nat) : Bytes := dsc op ([0, 0, 0, 0] ++ leBytes 8 4096 ++ leBytes 8 0 ++ leBytes 8 64)
theorem wit_NetworkCommands :
    (let d := bndD 8192
     let s := bndS d
     s.npHead 5 0x10 = some (0, d, 0) ∧ s.owns 1 8192 128 = true ∧ s.hbmBad 8192 128 = false ∧ bindCheck 1 (s.hbmRead 8192 128) s = none
     ∧ s.freeBind 0 = some 1 ∧ (let d := bndD 12288; (bndS d).npHead 5 0x10 = some (0, d, 0) ∧ bindCheck 1 ((bndS d).hbmRead 12288 128) (bndS d) = some eBadArgument)
     ∧ (let t : State := { s with binds := (List.range 256).map fun b => (b, { NetBind.init with st := 1 }) }; t.npHead 5 0x10 = some (0, d, 0)
        ∧ t.freeBind 0 = none ∧ bindCheck 1 (t.hbmRead 8192 128) t = none))
    ∧ ((npS id (unbD 0)).npHead 5 0x11 = some (0, unbD 0, 0) ∧ (∃ x, bindNamed 1 (unbD 0) (npS id (unbD 0)) = .inr x)
      ∧ bindNamed 1 (unbD 9) (npS id (unbD 9)) = .inl eBadHandle)
    ∧ (∀ op ∈ [0x12, 0x13], ∀ st ∈ [1, 2], let s := npS (fun x => { x with st }) (rwD op)
      s.npHead 5 op = some (0, rwD op, 0) ∧ npCheck 1 (rwD op) s = none ∧ (s.bind 0).map (·.st) = some st ∧ (s.nport 0).link = 2
      ∧ s.hbmBad 4096 64 = false ∧ (match s.bind 0 with | some x => !s.npPaused 0 x | none => false) = true) := by
  refine ⟨by decide +kernel, ⟨by decide +kernel, ⟨_, rfl⟩, by decide +kernel⟩, by decide +kernel⟩
theorem wit_NetworkCommands_NetworkEvents :
    (let s := npS id (rwD 0x13)
     s.isFatal = false ∧ (s.nport 0).link = 2 ∧ s.sys.vin = true ∧ (s.bindOf 0 16).map (·.1) = some 0 ∧ (s.bind 0).map (·.rqPsn) = some 0
     ∧ (s.bind 0).map (·.st) = some 1)
    ∧ (let s := npS (fun x => { x with unacked := [(0, 2, 0, 64, 6)] }) (rwD 0x13)
       let s := s.updRing 5 fun r => { r with cur := some (cur0 (rwD 0x13)) }
       (s.bindOf 0 16).map (fun x => x.2.unacked.find? fun u => u.2.1 == 2) = some (some (0, 2, 0, 64, 6))
       ∧ (s.ring 5).cur = some (cur0 (rwD 0x13)) ∧ (cur0 (rwD 0x13)).phase = 0 ∧ (cur0 (rwD 0x13)).chk = none
       ∧ psnAdd 0 (0 / nbMtu (nb 2)) = 0 ∧ (zeros 64).length = min (nbMtu (nb 2)) (npBytes (rwD 0x13) - 0))
    ∧ ((npS (fun x => { x with kind := 0, block := nb 0 }) []).bindOf 0 16).map (fun x => x.2.kind) = some 0 := by decide +kernel

/-! ### The forward program -/

/-- Sweep 7 of image 3 at a step of a kind; the image's one step and one KIND 4 layer of two experts stand in the Store. -/
def progS (kind : Byte) (desc : Bytes) (w : Sweep) : State :=
  let s := withImage (img 3) up
  { s with
    sweeps := [w]
    mem := { s.mem with
      pages := (0, 1) :: s.mem.pages.drop 1
      store := Mem.write [] 0 (zeros 32 ++ leBytes 4 1 ++ zeros 8 ++ leBytes 4 1 ++ zeros 8 ++ leBytes 8 1024 ++ zeros 16
        ++ leBytes 8 512 ++ zeros 424 ++ [kind] ++ fitTo 63 desc ++ zeros 448 ++ [0, 0, 0, 0, 0, 0, 4, 0, 2, 0, 1, 0] ++ zeros 20) } }
def sweep7 (reps : Nat) (job model : Option Nat) : Sweep := { id := 7, image := 3, job, model, rows := 1, step := 0, repAt := 0, reps, soft := [], scored := none }
def fw (inst op : Nat) (body : Bytes) : FwIssue := { ring := 20, inst, base := 10 * Config.pageBytes, desc := dsc op body }
def atStep (kind : Byte) (desc : Bytes) (w : Sweep) : Bool :=
  match (progS kind desc w).stepOf 7 kind.toNat with | some (v, _, _) => v == w | none => false
theorem wit_ForwardSteps :
    (let x := fw 48 0x40 [3, 0]
     let s := progS 1 x.desc (sweep7 0 none none)
     atStep 1 x.desc (sweep7 0 none none) = true ∧ (fwPost Config.tStream x s).isSome = true ∧ isDma x.inst = true ∧ field x.desc 8 2 = 3
     ∧ (match s.stepOf 7 1 with | some (_, _, b) => substOk (stepDesc b) (fitTo 64 x.desc) [(2, 2), (8, 2), (16, 2), (26, 6), (40, 8), (56, 8)] | none => false)
        = true)
    ∧ (let x := fw 0 0x10 []
       let s := progS 2 x.desc (sweep7 0 none none)
       atStep 2 x.desc (sweep7 0 none none) = true ∧ (fwPost Config.tTeacher x s).isSome = true
       ∧ (match s.stepOf 7 2 with
          | some (_, _, b) => substOk (stepDesc b) (fitTo 64 x.desc) (passSubst (dOp (stepDesc b)))
              && !substOk (stepDesc b) (fitTo 64 (dsc 0x11 [])) (passSubst (dOp (stepDesc b)))
          | none => false) = true)
    ∧ (let s := progS 3 [] (sweep7 0 none none)
       atStep 3 [] (sweep7 0 none none) = true ∧ 0 < s.imgLayers (img 3)
       ∧ (let l := s.imgRead (img 3) (s.imgLayerAt (img 3)) 32; field l 6 1 = 4 ∧ field l 8 2 = 2 ∧ field l 10 2 = 1)
       ∧ s.owns 0 4096 8 = true ∧ s.owns 0 8192 6 = true ∧ s.owns 0 12288 4 = true)
    ∧ (let x := fw 48 0x10 []
       atStep 4 [] (sweep7 0 none none) = true ∧ dOp x.desc = 0x10 ∧ suSrcSpace x.desc = 0 ∧ suDstSpace x.desc = 0
       ∧ (fwPostAll Config.tStream [x] (progS 4 [] (sweep7 0 none none))).isSome = true)
    ∧ (let x := fw 0 0x10 [0, 0x80]
       let s := progS 5 [] (sweep7 0 none none)
       atStep 5 [] (sweep7 0 none none) = true ∧ atStep 5 [] (sweep7 0 none (some 0)) = true ∧ dOp x.desc = 0x10
       ∧ bits (field x.desc 9 1) 6 2 = 2 ∧ (softAll (sweep7 0 none none) [] s).isSome = true ∧ (fwPostAll Config.tLens [x] s).isSome = true)
    ∧ (let x := fw 0 0x11 []
       atStep 6 [] (sweep7 0 none none) = true ∧ dOp x.desc = 0x11 ∧ (fwPostAll Config.tPrism [x] (progS 6 [] (sweep7 0 none none))).isSome = true)
    ∧ (atStep 7 [] (sweep7 0 none none) = true ∧ atStep 7 [] (sweep7 3 none none) = true)
    ∧ (atStep 8 [] (sweep7 0 none none) = true ∧ atStep 8 [] (sweep7 0 (some 0) none) = true
      ∧ (∀ st ∈ [1, 2], ((progS 8 [] (sweep7 0 (some 0) none)).setJob 0 { job0 with st }).job 0 = some { job0 with st })) := by
  refine ⟨by decide +kernel, by decide +kernel, by decide +kernel, by decide +kernel, by decide +kernel, by decide +kernel, by decide +kernel,
    by decide +kernel⟩

/-! ### The Weight Store -/

/-- Controller 2 in a state, with block 5 of die 3 in a state after some pages. -/
def ctl2 (f : Ctl → Ctl) (b : SBlock) : State := up.setCtl 2 (f ({ Ctl.init with st := 3, armed := true, limit := 1 }.setBlock (bkey 3 5) b))
def blkSt (st pages : Nat) : SBlock := { SBlock.init with st, pages }
theorem wit_StoreEvents :
    (let s := ctl2 id (blkSt 1 3)
     s.isFatal = false ∧ (s.ctl 2).live = true ∧ ((s.ctl 2).stripeOf (bkey 3 5)).isSome = true ∧ 0 < ((s.ctl 2).block (bkey 3 5)).pages
     ∧ ((s.ctl 2).block (bkey 3 5)).pages < (s.ctl 2).pagesPer (bkey 3 5) ∧ ((s.ctl 2).block (bkey 3 5)).st ≤ 1 ∧ (s.ctl 2).slcMode (bkey 3 5) = false
     ∧ (s.ctl 2).st ≥ 2 ∧ (s.ctl 2).hold = false ∧ (s.ctl 2).hot = false ∧ (s.ctl 2).reloc = none ∧ s.relocHead 2 = none ∧ (s.ctl 2).failed = [])
    ∧ ((ctl2 id (blkSt 4 0)).ctl 2).live = true ∧ (((ctl2 id (blkSt 4 0)).ctl 2).block (bkey 3 5)).st = 4
    ∧ (let s := ctl2 id { blkSt 2 1 with suspect := true }
       s.relocHead 2 = some (bkey 3 5) ∧ (s.ctl 2).stripeOf (bkey 3 5) = some (5, 3))
    ∧ (let s := ctl2 (fun x => { x with reloc := some (3, bkey 3 5, bkey 3 firstTlcSpare, 5) }) (blkSt 3 1)
       (s.ctl 2).reloc = some (3, bkey 3 5, bkey 3 firstTlcSpare, 5) ∧ s.blockDeleted 5 = false ∧ SMap.wf 0 (s.ctl 2).moved = true)
    ∧ (let s := ctl2 id (blkSt 0 0)
       (storePos (Config.slcBase + 2 * storePage)).map (·.ctl) = some 2 ∧ s.sys.vin = true ∧ (s.ctl 2).pendBytes + 1 ≤ (s.ctl 2).limit * 2 ^ 20
       ∧ (Config.slcBase + 2 * storePage) % storePage + 1 ≤ storePage ∧ (s.ctl 2).armed = true ∧ (s.ctl 2).limit ≠ 0
       ∧ (let s := ctl2 (fun x => { x with armed := false }) (blkSt 0 0); (s.ctl 2).armed = false ∧ (s.ctl 2).live = true))
    ∧ ((ctl2 (fun x => { x with st := 1 }) (blkSt 0 0)).ctl 2).st = 1
    ∧ (let s := ctl2 (fun x => { x with st := 2 }) (blkSt 0 0)
       (s.ctl 2).slcDone = false ∧ ((withImage { img 2 with scrub := 0 } s).toScrub 2) ≠ []
       ∧ (let s := ctl2 (fun x => { x with st := 2, slcDone := true }) (blkSt 0 0); (s.ctl 2).slcDone = true ∧ s.toScrub 2 = [])) := by
  refine ⟨by decide +kernel, by decide +kernel, by decide +kernel, by decide +kernel, by decide +kernel, by decide +kernel, by decide +kernel,
    by decide +kernel⟩
/-- The least-worn spare of the die of a SUSPECT block. -/
theorem wit_StoreEvents_spare : ((ctl2 id { blkSt 2 1 with suspect := true }).pickSpare 2 (bkey 3 5)).isSome = true := by decide +kernel
theorem wit_StoreEvents_PageReadsCount : 0 < 1 := by decide

/-! ### The Host Port -/

def hostS (f : HostPort → HostPort) : State := { up with host := f { up.host with cxl := true, hdm := 1 } }
theorem wit_HostPortEvents :
    ((hostS id).hdmOpen = true ∧ 0 ∉ (hostS id).host.bisnp ∧ (hostS id).hostView 0 = some none ∧ (hostS id).hbmBad 0 64 = false ∧ (hostS id).mem.wf = true
      ∧ (hostS id).hostView (5 * Config.pageBytes) = none ∧ 64 * (5 * Config.pageBytes / 64) + 64 ≤ Config.hbmBytes ∧ (hostS id).host.up = true
      ∧ (hostS id).host.cxl = true)
    ∧ (let s := hostS fun h => { h with bisnp := [3] }; 3 ∈ s.host.bisnp ∧ 4 ∉ s.host.bisnp ∧ (4, true) ∉ s.host.snoop)
    ∧ (let c := { cur0 (dsc 0x10 ([1, 0, 0, 0, 0, 0] ++ leBytes 8 4096 ++ leBytes 8 8192 ++ leBytes 4 64)) with out := [seg0] }
       let s := withRing Config.tStream 48 (fun r => { r with cur := some c }) up
       s.hostSeg 5 0 = some (c, seg0))
    ∧ (let s := hostS fun h => { h with up := false }; s.host.up = false ∧ s.sys.vin = true ∧ (withSys (fun x => { x with perst := true }) s).sys.perst = true)
    ∧ (withSys (fun x => { x with ideLink := true }) up).sys.ideLink = true
    ∧ ({ up with sec := { up.sec with session := [0] } } : State).sec.session.contains 0 = true := by decide +kernel

theorem wit_CommandsKeepTheRest : ∃ t, exec .hostLinkDown up = .next t ∧ t ≠ up := by
  refine ⟨_, rfl, fun h => ?_⟩
  have := congrArg (fun s : State => s.host.up) h
  revert this; decide +kernel

/-! ### More hypotheses of the statements -/

theorem wit_EmptyQueueTicks_LinkDown : (let b := { Mailbox.init with assigned := true, ctx := 1, st := 1, waiting := some (1, rt [], []) }
    let s := { up with mbs := [(2, b)], host := HostPort.init }
    s.pending = [] ∧ s.mbs = [(2, b)] ∧ 2 < Config.mailboxes ∧ s.host.up = false ∧ up.host.up = true) := by decide +kernel
theorem wit_SnapshotCapture_Stage1 : (let s := { up with sys := { up.sys with stage := 1, sciMajor := 0 } }
    up.answers Config.tTeacher = true ∧ s.answers Config.tHost = true ∧ s.running = false ∧ s.isFatal = false ∧ s.enabled Config.tHost 0 = true
    ∧ (s.unit Config.tHost 0).snap.busy = false) := by decide +kernel
theorem wit_RingCommands_Fails :
    (let p := (ringPayload.set 0 9)
     admitted specRingCreate (rt p) 1 p none up = true ∧ ((ringArgs 1 p up).or (ringRoom 1 p up)).isSome = true)
    ∧ (let s := (withRing Config.tStream 50 (fun r => { r with st := 3 }) up).setRing 6 { Ring.init with
         st := 1, kind := 0, slotLog2 := 6, slots := 8, unitType := Config.tStream, unitInst := 50, completion := 5, vector := 0xFFFF, ctx := 1 }
       admitted specRingDestroy (rt [5, 0]) 1 [5, 0] none s = true ∧ ringHandle 1 5 s = none ∧ s.ringBusy 5 = true
       ∧ admitted specRingDrain (rt [5, 0]) 1 [5, 0] none s = true ∧ 2 < (s.ring 5).st)
    ∧ (admitted specRingDestroy (rt [7, 0]) 1 [7, 0] none up = true ∧ admitted specRingDrain (rt [7, 0]) 1 [7, 0] none up = true
      ∧ admitted specRingQuery (rt [7, 0]) 1 [7, 0] none up = true ∧ (ringHandle 1 7 up).isSome = true)
    ∧ (let s := withRing Config.tTeacher 3 (fun r => { r with st := 1 }) up
       (s.ring 5).st ≠ 3 ∧ (s.core 3).clearing = false ∧ unitCore Config.tTeacher 3 = some 3 ∧ SMap.wf Core.init s.cores = true) := by decide +kernel
theorem wit_RingRegisters_Kinds :
    (let s := withRing 0 0 (fun r => { r with kind := 1, slotLog2 := 4, posted := 1 }) up
     s.isFatal = false ∧ (s.ring 5).st ≠ 0 ∧ (s.ring 5).tailValid 8 = true ∧ (s.ring 5).kind = 1 ∧ bitOf (s.ring 5).posted 0 = true)
    ∧ (let s := withRing 0 0 (fun r => { r with kind := 2, head := 2, tail := 4 }) up
       (s.ring 5).headValid 4 = true ∧ (s.ring 5).kind = 2 ∧ s.ctx (s.ring 5).ctx = { s.ctx (s.ring 5).ctx with held := [] })
    ∧ (let s := withRing Config.tStream 50 (fun r => { r with st := 4 }) up
       (up.rings.all fun r => r.2.completion != 5) = true ∧ (s.unit (s.ring 5).unitType (s.ring 5).unitInst).oos = false
       ∧ (s.ring 5).headRw = false) := by decide +kernel
/-- Core 3 holds its accumulators for ring 5. -/
def chainS (d : Bytes) : State := (withDesc Config.tTeacher 3 d up).setCore 3 { Core.init with chain := some { ring := 5, desc := d, acc := [] } }
/-- A handle ring 6 with one handle, of check value 6 or of another. -/
def oneHandle (k : Byte) (s : State) : State := { withHandles 1 s with mem := { s.mem with hbm := Mem.write [] 4096 (zeros 12 ++ [k, 0, 0, 0]) } }
theorem wit_DescriptorFlow_Fences :
    (let s := withRing Config.tStream 50 id up
     (s.ring 5).unitType ≠ 0 ∧ (s.ctx (s.ring 5).ctx).st ≠ 2 ∧ s.updStopped (s.ring 5) = false)
    ∧ ((chainS nopDesc).headOf 5 0 = some (0, nopDesc) ∧ unitCore ((chainS nopDesc).ring 5).unitType ((chainS nopDesc).ring 5).unitInst = some 3
      ∧ (chainS nopDesc).chainHeld 3 5 = true ∧ dLink nopDesc = false)
    ∧ (let s := withDesc Config.tStream 50 (fenceDesc 2) up
       s.headOf 5 1 = some (0, fenceDesc 2) ∧ (s.ring 5).fence = 0 ∧ (fenceCheck 5 (fenceDesc 2) s).isSome = true)
    ∧ bits (field (fenceDesc 0) 9 1) 0 2 = 0
    ∧ (let s := oneHandle 6 (withDesc Config.tStream 50 (fenceDesc 1) up)
       s.headOf 5 1 = some (0, fenceDesc 1) ∧ (s.ring 5).fence = 0 ∧ fenceCheck 5 (fenceDesc 1) s = none ∧ bitOf (field (fenceDesc 1) 9 1) 0 = true
       ∧ (s.ring (field (fenceDesc 1) 10 2)).filled ≠ 0
       ∧ s.spaceBad (s.ring 6).space ((s.ring 6).slotAddr (s.ring 6).head) 16 = false)
    ∧ (let s := oneHandle 6 ((withDesc Config.tStream 50 (fenceDesc 1) up).updRing 5 fun r => { r with fence := 1 })
       s.headOf 5 1 = some (0, fenceDesc 1) ∧ (s.ring 5).fence = 1 ∧ (s.ring (field (fenceDesc 1) 10 2)).filled ≠ 0) := by decide +kernel
/-- A Stream Unit task that reads bytes 0 to 64 of device memory, or of host memory, is in progress on ring 5. -/
def readingS (space : Byte) : State :=
  withRing Config.tStream 50 (fun r => { r with cur := some { cur0 (dsc 0x10 [space, 0]) with out := [{ src := 0, dst := 8192, len := 64, chk := none }] } }) up
theorem wit_MemoryCommands_Busy :
    (let p := leBytes 8 5 ++ [1] ++ leBytes 2 7 ++ [21]
     admitted specMemAlloc (rt p) 1 p none up = true ∧ field p 9 2 < 8 ∧ sideOf (field p 9 2) = field p 8 1 ∧ up.enabled Config.tHbm (field p 9 2) = true
     ∧ up.freeRun 7 1 1 = some (7 * 24576))
    ∧ (let a : Alloc := { ctx := 1, base := 0, len := 4 * Config.pageBytes }
       admitted specMemFree (rt (zeros 8)) 1 (zeros 8) none (readingS 0) = true
       ∧ ((readingS 0).mem.allocs.find? fun a => a.base == field (zeros 8) 0 8 && a.ctx == 1 && (readingS 0).agents.all (fun g => g.2.base != a.base)) = some a
       ∧ (readingS 0).spaceUsed 1 0 a.base a.len = true)
    ∧ (let w : Window := { handle := 0, base := 0, len := 2 ^ 20 }
       admitted specMemUnmapHost (rt [0, 0]) 1 [0, 0] none (readingS 1) = true
       ∧ (((readingS 1).ctx 1).windows.find? fun w => w.handle == field [0, 0] 0 2) = some w ∧ (readingS 1).spaceUsed 1 1 w.base w.len = true)
    ∧ (let q := { rt copyP with defer := true }
       admitted specMemCopy q 1 copyP none up = true ∧ q.defer = true ∧ field copyP 24 1 % 2 = 0 ∧ field copyP 24 1 / 2 = 0) := by decide +kernel
theorem wit_DeviceMemory_Stack : (7 : Nat) < 8 ∧ stackOf (8 * Config.stackBytes - 64) = 7 ∧ up.mem.failed.contains 7 = false := by decide +kernel
theorem wit_AgentCommands_Acts :
    (let p := leBytes 8 0 ++ leBytes 4 16 ++ leBytes 4 1
     let q := { rt p with defer := true }
     admitted specCtxAgentLoad q 1 p none up = true ∧ q.defer = true)
    ∧ ((withAgent 2).isFatal = false ∧ ((withAgent 2).agent 2).st = 2 ∧ (withAgent 2).agentMay 2 .illegal = false
      ∧ (withAgent 2).agentMay 2 (.load (.data 0) 8) = true) := by decide +kernel
/-- CFG_COMMIT of context 1's transaction. -/
def commitP : Bytes := leBytes 4 (2 ^ 26 + 1)
def commitT (q : Request) (s : State) : State :=
  let tx' : Txn := { { txn1 1 with items := [item1] } with
    st := 2, op := if q.defer then some (s.ctx 1).nextOp else none, mailbox := 2, left := (0 + 10 * Config.sec - s.now) / (10 * Config.ms) }
  cfgStart (setTxn tx' { s.taken 0x0102 q with cfg := { s.cfg with queue := s.cfg.queue ++ [1] } })
theorem wit_ConfigCommands_CommitWaits :
    (let s := withTxn { txn1 1 with items := [item1] } (withRing Config.tStream 3 (fun r => { r with cur := some (cur0 (dsc 0x11 [])) }) up)
     let q := rt commitP
     admitted specCfgCommit q 1 commitP none s = true ∧ s.txn 1 = some { txn1 1 with items := [item1] } ∧ s.cfg.queue = [] ∧ q.defer = false
     ∧ (commitT q s).cfgFront.bind Txn.firstReject = none
     ∧ (commitT q s).firstBusy { txn1 1 with items := [item1] } = some (Config.tStream, 3))
    ∧ (let q := { rt commitP with defer := true }
       admitted specCfgCommit q 1 commitP none (withTxn { txn1 1 with items := [item1] } up) = true ∧ q.defer = true)
    ∧ (let s := withTxn { txn1 1 with items := [item1] } up
       (commitT (rt commitP) s).cfgFront.bind Txn.firstReject = some (Config.tStream, 3) ∧ s.cfg.queue = [])
    ∧ (let s := withTxn { txn1 1 with items := [item1] } up
       let s := { s with cfg := { s.cfg with queue := [2] } }
       admitted specCfgCommit (rt commitP) 1 commitP none s = true ∧ s.cfg.queue ≠ []) := by decide +kernel
theorem wit_ImageCommands_Ends :
    (let g := { img 0 with writes := [chunkWrite 4096], done := [0] }
     let s := withImage g up
     s.isFatal = false ∧ s.image 3 = some g ∧ g.writes[0]? = some (chunkWrite 4096) ∧ g.done.contains 0 = true)
    ∧ (let s := withWrite 4096 4096
       let t := { s with mem := { s.mem with hbmPoison := [0] } }
       sourceBad (chunkWrite 4096) 4096 t = true)
    ∧ (let g := { img 0 with sealed := true, len := 2 ^ 21, writes := [{ chunkWrite (2 ^ 21) with pos := Config.chunkBytes }] }
       let s := withImage g up
       s.image 3 = some g ∧ (g.done.contains 1 || (g.writes.take 0).any fun y => y.pos / Config.chunkBytes == 1) = false
       ∧ openChunk g 1 [] s = .inr (eState, 0))
    ∧ (openChunk { img 0 with writes := [chunkWrite 4096] } 0 [] up = .inl [] ∧ (chunkWrite 4096).kind < 2) := by decide +kernel
theorem wit_StageFills_Ends :
    (let s := (withFill none).setImage 3 (img 2)
     s.headOf 5 0x40 = some (0, fillDesc) ∧ sfCheck (s.ring 5).ctx fillDesc s = some (0x10C, 3) ∧ (0x10C : Nat) ≠ 0x113)
    ∧ (let c := { cur0 fillDesc with rows := 1 }
       let s := withFill (some c)
       c.todo = [] ∧ s.fillClash 5 (sfCore fillDesc) (sfHalf fillDesc) = false ∧ s.wf = true)
    ∧ (let s := (withFill (some (cur0 fillDesc))).setCore (sfCore fillDesc) { Core.init with
         stage0 := { Core.init.stage0 with sealing := true }, stage1 := { Core.init.stage1 with sealing := true } }
       s.wf = true ∧ ((s.core (sfCore fillDesc)).stage (sfHalf fillDesc)).sealing = true ∧ (img 3).sealed = false) := by decide +kernel
theorem wit_JobCommands_Stops :
    (let s := withJob 2 true up2
     let p : Bytes := [0, 0, 0]
     admitted specJobStop (rt p) 1 p none s = true ∧ (s.job 0).map (·.ctx) = some 1 ∧ (s.job 0).map (·.st) = some 2)
    ∧ (let s := (withJob 4 true up2).setRing 5 { Ring.init with st := 1, unitType := Config.tUpdate, ctx := 1 }
       let p : Bytes := [0, 0, 0]
       admitted specJobStop (rt p) 1 p none s = true ∧ bitOf (field p 2 1) 0 = false)
    ∧ (let s := withPRing 1 (withJob 4 true up2)
       (s.jobRings 0).isEmpty = false ∧ (s.job 0).map (·.stopOp) = some none)
    ∧ (let s := (withJob 0 false up2).setJob 0 { Job.init with ctx := 1, st := 0, started := false, header := splice (hdr 2) 1 [6] }
       (s.job 0).map (·.resume) = some true ∧ (s.job 0).map (·.student) = some true ∧ s.hbmBad sa 64 = false) := by decide +kernel
theorem wit_MirrorCheckpoints_Fails :
    (let s := (withJob 1 true up2).updCtx 1 fun x => { x with quota := { x.quota with slc := 0 } }
     let p := [0, 0, 2, 0, 1, 0, 0, 0] ++ zeros 8 ++ regP
     admitted specMirCkpt (rt p) 1 p none s = true ∧ isJob (fun j => j.ctx == 1) (mirJob 1 0 0 s) = true ∧ l3Bad 1 2 0 6 s = none
     ∧ regsBad 1 (parseRegs (p.drop 16) 1) s = none ∧ s.slcBad 1 s.slcOld (regBytes (parseRegs (p.drop 16) 1)) = some (0x109, 8))
    ∧ (let s := withJob 1 true up2
       let p := [0, 0, 2, 1, 1, 0, 0, 0] ++ zeros 8 ++ regP
       admitted specMirCkpt (rt p) 1 p none s = true ∧ regsBad 1 (parseRegs (p.drop 16) 1) s = none ∧ field p 3 1 = 1
       ∧ s.slcBad 1 s.slcOld (regBytes (parseRegs (p.drop 16) 1)) = none ∧ s.ckptPoint = true ∧ s.ckptBusy = false)
    ∧ (let s := withMirror (fun m => { m with ckpts := [(2, { ckpt1 3 with mek := some (zeros 32) })], last := [(1, 2)] }) (withJob 3 false up2)
       let p := [0, 0, 1, 1, 1, 0, 0, 0] ++ zeros 8 ++ regP
       let q := { rt p with defer := true }
       admitted specMirRestore q 1 p none s = true ∧ isJob (fun j => j.student && j.st == 3) (mirJob 1 0 0 s) = true
       ∧ s.restorable 1 1 true 0 = some { ckpt1 3 with mek := some (zeros 32) } ∧ q.defer = true
       ∧ admitted specMirRestore (rt p) 1 p none s = true ∧ (rt p).defer = false ∧ s.mek 0 0xFFFF = none) := by decide +kernel
theorem wit_MirrorCheckpoints_Manifest :
    (let s := withMirror (fun m => { m with ckpts := [(4, { ckpt1 2 with spoilt := true })] }) (withJob 1 true up2)
     let t := ckptSpoil 4 (ckptRead 4 (fun _ => true) s)
     (s.ckpt 4).st = 2 ∧ (t.ckpt 4).st = 2 ∧ (t.ckpt 4).op = none ∧ (t.job (t.ckpt 4).job).isSome = true)
    ∧ (let o := fun k => ({ ctx := 1, handle := 1, opcode := k, tag := 0, seq := 1, mailbox := 2, payload := [] } : PendingOp)
       let s := fun k => ({ withMirror (fun m => { m with prot := some prot0, ckpts := [(2, { ckpt1 2 with op := some (1, 1) })] }) (withJob 1 true up2) with
         ops := [o k] } : State)
       let t := fun k => ckptSpoil 2 (ckptRead 2 (fun _ => true) (s k))
       ((t 0x0800).ckpt 2).st = 2 ∧ ((t 0x0800).ckpt 2).op = some (1, 1) ∧ ((t 0x0800).ops.find? fun x => x.ctx == 1 && x.handle == 1) = some (o 0x0800)
       ∧ ((t 0x0803).ckpt 2).st = 2 ∧ ((t 0x0803).ops.find? fun x => x.ctx == 1 && x.handle == 1) = some (o 0x0803) ∧ ((t 0x0803).ckpt 2).snap = false
       ∧ (t 0x0803).mirror.prot = some prot0 ∧ prot0.job = ((t 0x0803).ckpt 2).job ∧ ((t 0x0803).job 0).isSome = true)
    ∧ (let s := withMirror (fun m => { m with prot := some prot0, beats := [(1, 5)] }) (withJob 1 true up2)
       s.mirror.prot = some prot0 ∧ prot0.buddy = 1 ∧ (s.mirror.resv.any fun r => r.dev == 1) = false
       ∧ (s.mirror.beats.find? fun b => b.1 == 1) = some (1, 5)) := by decide +kernel
theorem wit_Resolution_Ends :
    (let s := withGroup 2 (withMirror (fun m => { m with prot := some prot0, resolving := some 0 }) (withJob 1 true up2))
     (s.group 0).members.length < 2 * 2 ∧ s.windowOpen = false ∧ (s.upd 0).sent = false ∧ ¬(2 * 2 ≤ (s.group 0).members.length)
     ∧ 2 * 1 ≤ (s.group 0).members.length)
    ∧ (let s := (withGroup 2 (withMirror (fun m => { m with prot := some prot0, resolving := some 0 }) (withJob 1 true up2))).setUpd 0 { Upd.init with
         window := true }
       s.windowOpen = true)
    ∧ (let s := ((withGroup 2 (withMirror (fun m => { m with
         prot := some prot0, resv := [{ dev := 2, base := sa, len := 2 ^ 21, got := [], word := none }] }) (withJob 2 true up2))).setUpd 0 { Upd.init with
         sent := true, commit := some 5 }).setUpd 1 { Upd.init with sent := true, commit := some 6 }
       (s.upd 0).sent = true ∧ s.windowOpen = false ∧ s.studentJob.map (·.2.st) = some 2 ∧ (s.group 0).members[(s.group 0).lost]? = some 0) := by
  decide +kernel
theorem wit_MirrorSpares_Ends :
    (let s := withMirror (fun m => { m with desig := some { group := 0, job := 0, auto := false } }) (withGroup 1 (withJob 0 false up2))
     admitted specMirSpare (withOp 3 (rt [3, 1, 0, 0])) 1 [3, 1, 0, 0] none s = true ∧ s.mirror.desig = some { group := 0, job := 0, auto := false })
    ∧ (let s := withMirror (fun m => { m with prot := some prot0 }) (withJob 1 true up2)
       let p := [0, 0, 0, 0, 2, 0, 64, 0] ++ leBytes 8 sa ++ leBytes 4 16 ++ zeros 8 ++ regP
       admitted specMirSpare (withOp 0 (rt p)) 1 p none s = true ∧ field p 6 1 = 64 ∧ s.slcBad 1 s.slcLog (128 * field p 16 4) = none
       ∧ regsBad 1 (parseRegs (p.drop 28) 1) s = none ∧ s.ckptPoint = true) := by decide +kernel
theorem wit_Takeover_Ends :
    (let r : Replay := { job := 0, group := 0, rank := 2, ready := true, queue := [], first := 0, last := 0, op := none }
     let s := withMirror (fun m => { m with replay := some r }) (withGroup 4 (withJob 1 true up2))
     let p : Bytes := [1, 0, 0, 0, 2, 0, 0, 0]
     let q := withOp 1 { rt p with defer := true }
     admitted specMirTakeover q 1 p none s = true ∧ q.defer = true ∧ s.mirror.replay = some r ∧ s.windowOpen = false)
    ∧ (let r : Replay := { job := 0, group := 0, rank := 2, ready := false, queue := [], first := 0, last := 0, op := some (1, 1) }
       let s := withMirror (fun m => { m with replay := some r, tmpl := [(0, [reg1])] }) (withGroup 4 (withJob 1 true up2))
       let d : Delta := { Delta.init with attempt := 5, early := [zeros 64] }
       s.isFatal = false ∧ s.mirror.replay = some r ∧ (s.job 0).isSome = true ∧ [zeros 64, zeros 64].length ≠ (s.template 0).length
       ∧ (stepBlockBad (fitTo 64 [1])).isSome = true ∧ [zeros 64].length = (s.template 0).length
       ∧ stepBlockBad (fitTo 64 (stepBlock { StepState.init with b1t := one32, b2t := one32 })) = none
       ∧ [d].head? = some d ∧ [d].getLast? = some d) := by decide +kernel
theorem wit_PodCommands_Refused :
    (let s := { withGroup 1 up with groups := [(0, { group0 1 with members := [3, 4] })] }
     admitted specPodBarrier (rt [0, 0]) 1 [0, 0] none s = true ∧ groupHandle 1 (field [0, 0] 0 2) 0 s = none
     ∧ (s.group (field [0, 0] 0 2)).members.contains s.sysIndex = false)
    ∧ ((withGroup 1 up).group 0).members.contains (withGroup 1 up).sysIndex = true
    ∧ (let p := [2] ++ zeros 7 ++ leBytes 8 2
       let s := withBeam (fun b => { b with routes := [(1, 8, 1)] }) (withPort 3 up)
       admitted specPodReset (rq p) 0 p none s = true ∧ ((List.range 64).filter fun k => bitOf (field p 8 8) k && k != s.sys.podDev) = [1]
       ∧ (s.routeTo 1).isSome = true)
    ∧ (let s := withPort 3 up
       s.synced = false ∧ s.groups = [] ∧ s.liveMask 8 ≠ 0 ∧ (∀ r ∈ [(0, 8, 1), (2, 16, 1)], r.1 = s.sys.podDev ∨ 64 ≤ r.1 ∨ 4 < r.2.2 ∨ s.liveMask r.2.1 = 0))
    ∧ (let s := withSys (fun x => { x with joined := true, podDev := 1 }) (withBeam (fun b => { b with routes := [(0, 8, 1)], step := true }) (withPort 3 up))
       s.isFatal = false ∧ s.podMaster = false ∧ s.beam.step = true ∧ s.sys.podSync = false
       ∧ (withSys (fun x => { x with podSync := true }) s).podMaster = false) := by decide +kernel
theorem wit_CollectiveResult_Mismatch :
    (let s := withGroup 1 (withDesc Config.tEngine 0 (collD 4) up)
     s.mayTake 5 (s.setting Config.tEngine 0 2 0 == 1) = true ∧ (s.ring 5).unitInst = 0
     ∧ [zeros 16, zeros 8].map List.length ≠ ((List.range 3).filter (· != 0)).map (fun i => collSrcLen (collD 4) i 3)
     ∧ s.rankIn [0, 1, 2] = 0) := by decide +kernel
theorem wit_FlitReceive_Replay :
    ((withPort 3 up).port 3).asked = false ∧ ((withPort 3 up).port 3).unacked.length < replayFlits
    ∧ (let s := up.setPort 3 { Port.init with st := 3, asked := true }
       s.beamOn 3 = true ∧ (takeAck (s.port 3) 0 0).isSome = true ∧ (s.port 3).asked = true)
    ∧ flitKind (flitFill (fitTo 252 [2]) 9 0 0 0) = 2 ∧ field (flitFill (fitTo 252 [2]) 9 0 0 0) 2 2 = 9 ∧ (zeros 252).length = 252 := by decide +kernel
/-- No room in a quota of context 1. -/
def noRoom (f : Quota → Quota) (s : State) : State := s.updCtx 1 fun x => { x with quota := f x.quota }
theorem wit_ServingCommands_Quota :
    (let s := noRoom (fun q => { q with srvQueues := 1 }) (withModel id upS)
     let p := [16, 0, 1] ++ zeros 125
     admitted specSrvQueueCreate (rt p) 1 p none s = true ∧ field p 2 1 ≠ 0 ∧ field p 0 2 ≠ 0xFFFF ∧ s.hasModel (field p 0 2) = true
     ∧ s.queuesOf (field p 0 2) ≠ [] ∧ (s.srvModel (field p 0 2)).ctx = 1
     ∧ ¬((1 : Nat) = 0 ∨ (s.srv.queues.filter fun x => (s.srvModel x.2.model).ctx == 1).length < (s.ctx 1).quota.srvQueues))
    ∧ (withModel id upS).queuesOf 16 ≠ []
    ∧ (let s := noRoom (fun q => { q with srvEntries := 0 }) (withModel id upS)
       admitted specSrvSubmit (rt submitP) 1 submitP none s = true ∧ queueHandle 1 (field submitP 0 2) s = none
       ∧ field submitP 2 1 ≤ (s.ctx 1).quota.prioMax ∧ s.owns 1 (field submitP 40 8) (4 * 3) = true
       ∧ (s.ctx 1).quota.srvEntries ≤ s.entriesHeld 1)
    ∧ (let s := noRoom (fun q => { q with prefixes := 0 }) (withEntry (entry0 3) upS)
       let p := leBytes 8 7 ++ [0, 0, 0, 0] ++ leBytes 4 2
       admitted specSrvPrefixCreate (rt p) 1 p none s = true ∧ entryHandle 1 0 8 s = none ∧ s.prefixOf 1 (field p 0 8) = none
       ∧ (s.ctx 1).quota.prefixes ≤ (s.srv.prefixes.filter fun x => x.ctx == 1).length)
    ∧ (let s := withModel id upS; admitted specSrvQueueWeight (rt [0, 0, 5]) 1 [0, 0, 5] none s = true ∧ field [0, 0, 5] 2 1 ≠ 0) := by decide +kernel
/-- Lens 8 holds a row for the Prism on ring 6. -/
def lensHeld (s : State) : State := (s.setRing 6 { Ring.init with
    st := 1, slots := 8, slotLog2 := 6, unitType := Config.tLens, unitInst := 8, completion := 0xFFFF, vector := 0xFFFF
    cur := some (cur0 (dsc 0x10 ([1, 0x80, 1, 0, 1, 0, 0, 0] ++ leBytes 4 1))) }).setLensTask 6 { LensTask.init with held := some (zeros 40) }
theorem wit_ServingStep_Waits :
    (let s := lensHeld (inStep 2)
     rowEntry [plan1] 0 = some plan1 ∧ (s.heldRow 8).isSome = true ∧ s.srv.draws = [] ∧ s.srv.asks = [] ∧ (s.srvModel 16).drawn = []
     ∧ s.prismWaits srvB (entry0 3) = false ∧ (s.unit Config.tLens 8).oos = false ∧ (s.srvModel 16).rows[0]? = some (0, 0, sa + 49152))
    ∧ ((inStep 2).heldRow 8 = none ∧ ∀ a ∈ (inStep 2).srv.asks, a.2.2 ≠ 8)
    ∧ (let d : Draw := { model := 16, row := 0, inst := 4, block := leBytes 4 0 }
       let s : State := { inStep 2 with srv := { (inStep 2).srv with draws := [d] } }
       (s.srv.draws.find? fun d => d.model == 16 && d.row == 0) = some d
       ∧ ((List.range (field d.block 0 4)).map fun i => (field d.block (32 + 8 * i) 4, field d.block (36 + 8 * i) 4)) = [])
    ∧ (let e : RecEnt := { ix := 0, queue := 0, token := 0, prob := 0, status := 5, flags := 0, tag := 0, deadline := 0 }
       let s := (withModel (fun m => { m with bents := [e] }) upS).setRing 12 { upS.ring 12 with tail := 256 }
       (s.srvModel 16).phase = 0 ∧ (s.srvModel 16).bents ≠ [] ∧ (s.ring 12).slots - (s.ring 12).filled < cdiv (64 + 16 * 1) (2 ^ (s.ring 12).slotLog2))
    ∧ (let s := (withModel id upS).setUnit Config.tServing (upS.leadBlock 1) { UnitRegs.init with hold := true }
       (s.srvModel 16).phase = 0 ∧ (s.unit Config.tServing (s.leadBlock 1)).hold = true)
    ∧ (let s := withModel (fun m => { m with faulted := true }) upS; (s.srvModel 16).faulted = true ∧ s.hasModel 16 = true) := by decide +kernel
theorem wit_ServingTransfers_Remote :
    (let s := (withModel (fun m => { m with block := 1 :: 1 :: srvB.drop 2 }) upS).setSrvEntry 0 { entry0 5 with blk := 1, toks := [5], pring := 1 }
     let s := s.setPring 0 2 { PRing.init with bound := true, kind := 2, st := 1, ctx := 1, slots := 4, free := 4, base := 8192, remote := 0 }
     s.tokenRing (s.srvEntry 0).pring = some 2 ∧ (s.pring 0 2).sHere s = true ∧ (s.pring 0 2).tHere s = false ∧ min (min 1 256) [5].length = [5].length)
    ∧ (let f : Flight := { ring := 2, seq := 0, pos := 0, bytes := zeros 1088 }
       let s := (upS.setPring 0 2 { PRing.init with bound := true, kind := 2, st := 1, ctx := 1, slots := 4, free := 3, base := 8192 }).updChan 0
         fun c => { c with flight := [f] }
       ((s.chan 0).flight.find? fun f => (s.pring 0 f.ring).kind == 2) = some f ∧ (s.pring 0 2).kind = 2 ∧ f.ring = 2 % 16) := by decide +kernel
theorem wit_LoupeEvents_Dip : (let s : State := { withLoupe (fun l => { l with burning := some (0, 1), dip := some (3, 1) }) up with sys := { up.sys with svn := 2 } }
     s.loupe.burning = some (0, 1) ∧ s.sys.rollback + 1 < s.sys.svn ∧ s.loupe.dip.isSome = true)
    ∧ (let s : State := { withLoupe (fun l => (l.setSlot 1 { cond := 2, svn := 0, loupe := [], sci := [] })) up with sys := { up.sys with svn := 1 } }
       let s := withLoupe (fun l => { l with burning := some (0, 1) }) s
       s.sys.rollback + 1 = s.sys.svn ∧ (s.loupe.slotOf (1 - s.sys.slot)).cond = 2 ∧ (s.loupe.slotOf (1 - s.sys.slot)).svn < s.sys.svn)
    ∧ up.sys.valid = true ∧ up.diesOn = true := by decide +kernel
theorem wit_SecurityCommands_Roll :
    (admitted specSecCtxKeyRoll (rt (rollP 0)) 1 (rollP 0) none up = true ∧ field (rollP 0) 0 1 < 16 ∧ bitOf 0 1 = false ∧ (rt (rollP 0)).defer = false)
    ∧ (admitted specSecCtxKeyRoll (rt (rollP 1)) 1 (rollP 1) none up = true ∧ bitOf 1 0 = true ∧ (field (rollP 1) 8 8 = (up.ctx 1).epoch)) := by
  decide +kernel
theorem wit_ContextResets_Refused :
    (admitted specCtxReset (rt [2]) 1 [2] none up = true ∧ (2 : Nat) ≠ 1)
    ∧ (admitted specCtxReset (rq [5]) 0 [5] none up = true ∧ (up.ctx 5).st ≠ 1)
    ∧ (admitted specCtxDestroy (rq [0]) 0 [0] none up = true ∧ admitted specCtxDestroy (rq [5]) 0 [5] none up = true)
    ∧ (let s := (withRing Config.tLens 3 id up).updUnit Config.tLens 3 fun u => { u with resets := [0, 0] }
       s.running = true ∧ s.enabled Config.tLens 3 = true ∧ 2 ≤ ((s.unit Config.tLens 3).resets.filter fun x => decide (s.now < x + 86400 * Config.sec)).length
       ∧ s.unitRings Config.tLens 3 = [(5, s.ring 5)]) := by decide +kernel
theorem wit_DeviceResets_Others :
    ((withSys (fun x => { x with resets := [runC 2] }) up).diesOn = true ∧ 2 ≤ (runC 2).kind ∧ (runC 2).begun = true)
    ∧ (let r := { runC 1 with begun := false }
       let s := withSys (fun x => { x with resets := [r] }) up
       s.sys.resets = [r] ∧ (r.ctxs.all fun c => (s.txn c).isNone) = true)
    ∧ (let s := withSys (fun x => { x with vaux := true, sysReset := some 1 }) up
       s.sys.vaux = true ∧ s.sys.sysReset = some 1 ∧ s.loupe.trip = none)
    ∧ (let s := withLoupe (fun l => { l with tripped := true }) (withSys (fun x => { x with vaux := true }) State.reset)
       s.loupe.tripped = true ∧ ∃ x ∈ [(0, 720)], x.1 < 8 ∧ 720 ≤ x.2)
    ∧ up.sys.linksDown.contains 3 = false ∧ (3 : Nat) < 22
    ∧ (let s := withRing Config.tTeacher 0 id up
       (s.rings.filter fun r => r.2.st != 0 && r.2.unitType != 0).length = 1) := by decide +kernel
theorem wit_FinalRecords_ContextZero :
    (let s : State := { up with ops := [{ opC 0x0206 [1] with ctx := 1 }] }
     (s.ops.find? fun o => o.ctx == 1 && o.handle == 1) = some (opC 0x0206 [1]))
    ∧ (let x := { ctx := 0, code := 1, unit := 0, count := 0, bytes := [] }
       let s : State := { up with log := { up.log with slots := [x] } }
       (s.log.slots.filter fun x => x.ctx == 0) ≠ [])
    ∧ (up.ring 9).kind ≠ 1 := by decide +kernel
/-- TE_PANE_PASS and SE_PANE_PASS of one array and one quadrant, its table at the start of the activation SRAM. -/
def paneD : Bytes := dsc 0x12 ([1, 0, 1, 0] ++ leBytes 3 (actBase / 64))
theorem wit_TeacherPasses_Refused :
    (let s := teS paneD
     s.headOf 5 0x12 = some (0, paneD) ∧ s.mayRun 5 1 (s.setting Config.tTeacher 5 2 0 == 1) (s.stageReady 5) = true ∧ s.stageReady 5 paneD = true
     ∧ (s.core 5).drain = none ∧ s.paneFmtBad Config.tTeacher 5 paneD = true)
    ∧ (let s := teS (dirD 0); s.paneFmtBad Config.tTeacher 5 (dirD 0) = false ∧ fillMix 5 s = s)
    ∧ (let s := sramMark 5 actBase 8 (teS (dirD 0))
       let pl := directPlan 5 (dirD 0) (s.heldAcc 5) s
       s.headOf 5 0x11 = some (0, dirD 0) ∧ teCheck 5 1 false (dirD 0) s pl = none
       ∧ (∃ m ∈ s.firstMarked 5 (pl.staged ++ pl.reads), s.sramUeAt 5 m.1 m.2 = false))
    ∧ (let s := sramUpset 5 actBase (teS (dirD 0))
       let pl := directPlan 5 (dirD 0) (s.heldAcc 5) s
       s.headOf 5 0x11 = some (0, dirD 0) ∧ teCheck 5 1 false (dirD 0) s pl = none
       ∧ (∃ m ∈ s.firstMarked 5 (pl.staged ++ pl.reads), s.sramUeAt 5 m.1 m.2 = true)) := by decide +kernel
theorem wit_StudentPasses_Refused :
    (let d : Bytes := dsc 0x12 [1, 0, 1, 0]
     let s := sramWrite 35 0 (zeros 9 ++ [0xFF]) (seS d)
     s.headOf 5 0x12 = some (0, d) ∧ s.mayRun 5 1 (s.setting Config.tStudent 3 1 0 == 1) (fun _ => true) = true
     ∧ (s.core 35).drain = none ∧ s.paneFmtBad Config.tStudent 35 d = true)
    ∧ (seS (matD 1)).paneFmtBad Config.tStudent 35 (matD 1) = false
    ∧ (let s := sramUpset 35 0 (seS (matD 1))
       let pl := sePlan 35 (matD 1) (s.heldAcc 35) s
       s.headOf 5 0x10 = some (0, matD 1) ∧ seCheck 35 (matD 1) s pl = none
       ∧ (∃ m ∈ s.firstMarked 35 pl.reads, s.sramUeAt 35 m.1 m.2 = true))
    ∧ (let s := (seS (matD 1)).updCore 35 fun c => { c with chain := some { ring := 6, desc := matD 1, acc := [] } }
       s.headOf 5 0x10 = some (0, matD 1) ∧ chainBreaks (s.core 35).chain 5 (matD 1) 1 false seChain = true) := by decide +kernel
/-- A vector program on student core 3 at its limit of 4,096 × 2^20 instructions; a KD loss that waits there. -/
theorem wit_VectorInstructions_Limit :
    (up.setting Config.tStudent (35 - 32) 3 4096 = 4096 ∧ (4096 : Nat) * 2 ^ 20 ≤ ({ vec0 none with issued := 2 ^ 32 } : VecState).issued)
    ∧ (kdRunS.isFatal = false ∧ (kdRunS.core 35).vec = none ∧ (kdRunS.core 35).kd.isSome = true ∧ (kdRunS.ring 5).cur.isSome = true)
    ∧ ((vec0 none).issued < up.setting Config.tStudent 3 3 4096 * 2 ^ 20)
    ∧ (vuS 0x43).core 35 = (vuS 0x43).core 35 ∧ wordIllegal (decide (35 < 32)) 0x43 vf0 = false := by decide +kernel
/-- A slot that keeps R221. -/
def goodSlot : Bytes := leBytes 4 one32 ++ [0, 0, 1, 0] ++ zeros 120
theorem wit_ScalerTasks_Marked :
    (let s := sramWrite 3 (qSlotAt quantS) goodSlot (sclS quantS)
     let s := sramMark 3 (qInRun quantS).1 8 s
     s.headOf 5 0x10 = some (0, quantS) ∧ qCheck 3 quantS s = none ∧ s.firstMarked 3 (qSlotRuns quantS) = none
     ∧ slotOk (s.sramRead 3 (qSlotAt quantS) 128) = true ∧ (s.firstMarked 3 [qInRun quantS]).isSome = true ∧ qNoSlot quantS = false)
    ∧ (let d := quantD 2
       let s := sramMark 3 (qInRun d).1 8 (sclS d)
       qCheck 3 d s = none ∧ s.firstMarked 3 (qSlotRuns d) = none ∧ qNoSlot d = true ∧ (s.firstMarked 3 [qInRun d]).isSome = true) := by decide +kernel
/-- LENS_SORT of two elements. -/
def sortD : Bytes :=
  dsc 0x12 ([0, 0, 1, 0, 0, 0, 0, 0] ++ zeros 4 ++ leBytes 4 2 ++ zeros 4 ++ leBytes 8 4096 ++ leBytes 8 8192 ++ zeros 4 ++ leBytes 8 12288)
theorem wit_LensTasks_Sort :
    (let s := (withRing Config.tLens 3 (fun r => { r with cur := some (cur0 sortD) }) up).setLensTask 5 { LensTask.init with cls := 2 }
     (s.ring 5).cur = some (cur0 sortD) ∧ dOp sortD = 0x12 ∧ lPrism sortD = false
     ∧ ((s.lensSegs sortD).map (LSeg.rowAt sortD 0)).find? (s.lensBad 3) = none
     ∧ (s.lensSegs sortD).all (fun g => g.space == 0) = true ∧ s.mem.hbmPoison = [])
    ∧ (let d := topkD 4 1 2
       let s := lensS d
       lSeg d = true ∧ s.hbmBad (lSrc d) (16 * field d 12 2) = false
       ∧ (let t := { s with mem := { s.mem with hbm := Mem.write [] 4096 ([0, 0, 0, 0] ++ leBytes 4 2 ++ leBytes 8 16384) } }
          lensCheck 3 1 d t = none ∧ t.headOf 5 0x10 = some (0, d))) := by decide +kernel
theorem wit_PrismCommands_Remote :
    (let s := prTag { tgtRing with kmax := 64, free := 1 } (dsc 0x10 ([0, 1, 1, 0] ++ leBytes 4 0 ++ leBytes 8 4096))
     let d := dsc 0x10 ([0, 1, 1, 0] ++ leBytes 4 0 ++ leBytes 8 4096)
     s.prismHead 5 0x10 = some (0, d, 0) ∧ rowsCheck 0 d s = some (0x108, 0))
    ∧ (let s := { prS { placed with remote := 1 } (blockD 0) with sys := { up.sys with podDev := 0 } }
       s.prismHead 5 0x12 = some (0, blockD 0, 0) ∧ s.pringLive 0 2 = true ∧ (s.pring 0 2).sHere s = false ∧ placed.order = 1
       ∧ (let s := s.setPring 0 2 { placed with remote := 1, blocks := [blk7] }
          ((s.pring 0 2).blockOf 7).isSome = true ∧ (s.pring 0 2).sHere s = false))
    ∧ (heldS.srv.asks = [] ∧ (heldS.pring 0 2).order = 0)
    ∧ (let s := up.setPring 0 2 { tgtRing with remote := 1 }
       (s.pring 0 2).remote ≠ 0xFFFF ∧ (s.pring 0 2).bound = true ∧ (s.pring 0 2).st ≠ 2) := by decide +kernel
theorem wit_PrismFlow_Sources :
    (let h : Flight × Nat × Nat := ({ ring := 2, seq := 0, pos := 0, bytes := zeros 64 }, 0, 1)
     (flyS.chan 0).turns = Drr.init ∧ flyS.flightHeads 0 = [h] ∧ (flyS.flightHeads 0).find? (fun x => x.2.1 == 0) = some h
     ∧ (flyS.pring 0 2).sHere flyS = true
     ∧ ((flyS.chan 0).turns.pick 1 ((flyS.flightHeads 0).map fun h => (h.2.1, h.2.2, h.1.bytes.length))).map (·.1) = some 0)
    ∧ (let s := flyS.setPring 0 2 { tgtRing with remote := 1 }; s.pringLive 0 2 = true ∧ (s.pring 0 2).sHere s = false)
    ∧ (let p := { placed with blocks := [blk7], tail := 1, free := 3, written := [] }
       let s := up.setPring 0 2 p
       s.pringLive 0 2 = true ∧ p.order ≠ 0 ∧ p.blockOf 7 = some blk7 ∧ p.posIx blk7 0 = 0)
    ∧ ((up.setPring 0 2 { tgtRing with bound := false }).pringLive 0 2 = false)
    ∧ (let s := up.setPring 0 2 { tgtRing with remote := 1, free := 1, crd := 0, tail := 0, written := [] }
       min 1 ((s.pring 0 2).slots - (s.pring 0 2).free - (s.pring 0 2).reserved - ((s.chan 0).flight.filter fun f => f.ring == 2).length) ≠ 0)
    ∧ (tgtRing.order = 0 ∧ tgtRing.tHere up = true) := by decide +kernel
/-- A replay of job 0 with one delta that holds a word. -/
def okWord : CommitWord := { cause := 0, isLocal := false, vetoDev := 0xFFFF, vetoTensor := 0, norm := 0, participants := 1 }
def replay0 : Replay :=
  { job := 0, group := 0, rank := 2, ready := true, queue := [{ Delta.init with word := some okWord }], first := 0, last := 0, op := none }
def replayS (s : State) : State := withMirror (fun m => { m with replay := some replay0 }) s
theorem wit_UpdateCommands_Ends :
    ((replayS (updS (exD 0))).updHead 5 0x10 = some (0, exD 0, 0, 0, job0) ∧ (replayS (updS (exD 0))).replayOf 0 = some replay0
      ∧ exchangeCheck 0 1 (exD 0) job0 (replayS (updS (exD 0))) = none)
    ∧ (let s := { updS (exD 0) with mem := { (updS (exD 0)).mem with hbmPoison := [4096 / 64] } }
       s.updHead 5 0x10 = some (0, exD 0, 0, 0, job0) ∧ exchangeCheck 0 1 (exD 0) job0 s = none ∧ s.replayOf 0 = none
       ∧ s.hbmBad (field (exD 0) 28 8) (2 * field (exD 0) 24 4) = true)
    ∧ (∀ d ∈ [exD 0, gatD], let s := withRing Config.tUpdate 0 (fun r => { r with cur := some (cur0 d) }) (withJob 1 true up2)
       (s.ring 5).cur = some (cur0 d) ∧ s.updJob = some (0, job0) ∧ (cur0 d).phase = 0 ∧ (s.ring 5).unitType = Config.tUpdate)
    ∧ ((withGroup 1 up).jobGroupSt jobG = 1 ∧ ((withGroup 1 up).jobMembers jobG).length = 3 ∧ [zeros 8, zeros 8].length = 3 - 1
      ∧ (∀ b ∈ [zeros 8, zeros 8], b.length = 8) ∧ (withGroup 2 up).jobGroupSt jobG = 2 ∧ (withGroup 3 up).jobGroupSt jobG = 3)
    ∧ (let s := (replayS (updS (comD 0))).setUpd 1 { Upd.init with commit := some 6 }
       s.updHead 5 0x11 = some (0, comD 0, 0, 0, job0) ∧ updAttemptBad 0 (comD 0) s = false ∧ s.replayOf 0 = some replay0
       ∧ replay0.queue.head? = some { Delta.init with word := some okWord } ∧ dAttempt (comD 0) = Delta.init.attempt % 2 ^ 32)
    ∧ (∀ st ∈ [2, 3], let s := withGroup st (updS (comD 0))
       s.updHead 5 0x11 = some (0, comD 0, 0, 0, { job0 with header := splice (hdr 2) 6 [0, 0] }) ∧ updAttemptBad 0 (comD 0) s = false
       ∧ s.jobGroupSt { job0 with header := splice (hdr 2) 6 [0, 0] } = st ∧ s.protOf 0 = none) := by
  refine ⟨by decide +kernel, by decide +kernel, by decide +kernel, by decide +kernel, by decide +kernel, by decide +kernel⟩
theorem wit_UpdateCommands_Windows :
    (let d := dsc 0x12 (zeros 8 ++ leBytes 4 1 ++ zeros 24 ++ leBytes 4 0x7F800000)
     (winS 0 d).updHead 5 0x12 = some (0, d, 0, 0, job0) ∧ applyCheck 0 1 d job0 (winS 0 d) = some 0x108)
    ∧ (let s := withMirror (fun m => { m with ckpts := [(2, { ckpt1 1 with regs := [{ addr := 4096, len := 16384, early := true }] })] }) (winS 0 appD)
       s.updHead 5 0x12 = some (0, appD, 0, 0, job0) ∧ s.step.cause = 0 ∧ s.ckptHolds (applyRuns job0 appD) = true)
    ∧ (let d := dsc 0x13 (zeros 8 ++ zeros 4 ++ leBytes 4 1 ++ leBytes 8 4097)
       (winS 0 d).updHead 5 0x13 = some (0, d, 0, 0, job0) ∧ updGatherCheck 0 1 d job0 (winS 0 d) = some 0x10D)
    ∧ ((replayS (winS 0 gatD)).updHead 5 0x13 = some (0, gatD, 0, 0, job0) ∧ ((replayS (winS 0 gatD)).replayOf 0).isSome = true
      ∧ updGatherCheck 0 1 gatD job0 (replayS (winS 0 gatD)) = none)
    ∧ (let d := dsc 0x14 (32 :: zeros 7); (updS d).updHead 5 0x14 = some (0, d, 0, 0, job0) ∧ 31 < field d 8 1)
    ∧ (let d := dsc 0x14 (zeros 4 ++ leBytes 4 1)
       (updS d).updHead 5 0x14 = some (0, d, 0, 0, job0) ∧ dAttempt d = (((updS d).upd 0).attempt + 1) % 2 ^ 32)
    ∧ (let d := dsc 0x14 (zeros 4 ++ leBytes 4 2)
       (updS d).updHead 5 0x14 = some (0, d, 0, 0, job0) ∧ dAttempt d ≠ ((updS d).upd 0).attempt % 2 ^ 32
       ∧ dAttempt d ≠ (((updS d).upd 0).attempt + 1) % 2 ^ 32)
    ∧ ((updS mrkD).updJob = some (0, job0) ∧ ∀ u ∈ [0, 1], ((updS mrkD).upd u).window = false) := by
  refine ⟨by decide +kernel, by decide +kernel, by decide +kernel, by decide +kernel, by decide +kernel, by decide +kernel, by decide +kernel,
    by decide +kernel⟩
theorem wit_CommitWordRules_Growth : StepState.init.clean + 1 < 2 ∧ (1 : Nat) ≤ StepState.init.clean + 1
    ∧ (formWord [0, 1] [ctr0]).participants < 2 ∧ bitOf 1 0 = true ∧ bitOf 2 0 = false ∧ (2 : Nat) ≠ 0 := by decide +kernel
theorem wit_StreamCommands_Transpose : (let d := dsc 0x13 ([4, 0, 0, 0, 0, 0] ++ leBytes 8 4096 ++ leBytes 8 8192 ++ leBytes 4 4 ++ leBytes 4 4 ++ leBytes 4 64 ++ leBytes 4 64)
     field d 9 1 = 0 ∧ (let d := dsc 0x13 ([0, 4, 0, 0, 0, 0] ++ leBytes 8 4096 ++ leBytes 8 8192 ++ leBytes 4 4 ++ leBytes 4 3 ++ leBytes 4 64 ++ leBytes 4 64)
     field d 9 1 = 4 ∧ 3 < field d 30 4 ∧ 2 < field d 34 4 ∧ transposeCheck 48 1 d (suS d) = none ∧ (suS d).headOf 5 0x13 = some (0, d)))
    ∧ (let d := dsc 0x12 ([0, 0, 0, 0, 0, 0] ++ leBytes 8 4096 ++ leBytes 8 8192 ++ leBytes 4 64 ++ leBytes 4 0 ++ leBytes 4 0)
       (suS d).headOf 5 0x12 = some (0, d) ∧ (gatherCheck 48 1 d (suS d)).isSome = true) := by decide +kernel
/-- Ring 5 on Network Port 0 beside an RX_HBM binding of 4 KiB at 4096, which expects packet 0. -/
def rxS : State := npS (fun x => { x with kind := 0, block := nb 0 }) []
theorem wit_NetworkCommands_Receive :
    (let x : NetBind := { NetBind.init with ctx := 1, kind := 0, block := nb 0, st := 1, qpn := 16, rkey := 16 }
     rxS.bindOf 0 16 = some (0, x) ∧ x.kind ≠ 2 ∧ writeOk x 0 64 (npRecv 0 64 false (some 0) rxS) = true ∧ x.rqPsn = 0
     ∧ seqCheck x 0 = 0 ∧ seqCheck x 5 = 2 ∧ seqCheck { x with rqPsn := 5 } 3 = 1
     ∧ 0 + 64 ≤ nbBytes x.block ∧ rxS.owns 1 (nbBase x.block + 0) 64 = true ∧ (rxS.chkOf 1).isNone = true ∧ (rxS.ctx 1).confidential = false
     ∧ rxS.hbmBad (nbBase x.block + 0) 64 = false)
    ∧ (let s := npS (fun x => { x with unacked := [(0, 2, 0, 64, 6)], retries := 7 }) []
       (s.bind 0).map (fun x => (x.st, x.unacked.isEmpty, x.retries)) = some (1, false, 7))
    ∧ (let s := npS (fun x => { x with unacked := [(0, 1, 0, 64, 6)] }) []
       (s.bind 0).map (fun x => (x.st, x.retries, decide ((x.unacked.filter fun u => u.2.1 != 2 && psnLe u.1 0) = [(0, 1, 0, 64, 6)]))) = some (1, 0, true))
    ∧ ((up.nport 0).link = 0 ∧ up.sys.vin = true) := by
  refine ⟨by decide +kernel, by decide +kernel, by decide +kernel, by decide +kernel⟩
/-- A SOFT_TARGET step of offline job 0, four rows on the first channel of each T-die, and the same once its PRISM_ROWS were issued. -/
def softW (soft : List SoftList) : Sweep := { sweep7 0 (some 0) none with rows := 4, soft }
def softS (soft : List SoftList) : State :=
  ((progS 5 [] (softW soft)).setJob 0 { job0 with header := 0 :: (hdr 2).drop 1 }).updChan 0 fun x => { x with
    lists := [{ lens := 0, addr := 4096, rows := 1, next := 0, temp := one32, reserve := true }] }
def softX (i : Nat) : FwIssue :=
  { ring := 20 + i, inst := 2 * i, base := 10 * Config.pageBytes + 4096 * i, desc := dsc 0x10 ([0, 1, 1, 0] ++ leBytes 4 one32 ++ leBytes 8 4096) }
theorem wit_ForwardSteps_SoftTarget :
    (let rows := (List.range 4).map fun i => (i, ([] : Bytes), softX i)
     (match (softS []).stepOf 7 5 with | some (v, _, _) => v == softW [] | none => false) = true
     ∧ (softS []).softCovers (softW []) (rows.map fun x => (x.1, x.2.2.inst, field x.2.2.desc 10 2)) = true
     ∧ (softAll (softW []) rows (softS [])).isSome = true)
    ∧ (let l : SoftList := { ring := 20, index := 0, chan := 0, addr := 4096, rows := 1 }
       let x := fw 0 0x10 [0, 0x80, 1, 0]
       (match (softS [l]).stepOf 7 5 with | some (v, _, _) => v == softW [l] | none => false) = true
       ∧ dOp x.desc = 0x10 ∧ bits (field x.desc 9 1) 6 2 = 2 ∧ field x.desc 14 2 = x.inst ∧ (softS [l]).fwDone 20 0 = true
       ∧ (∀ i, i < 8 → (([x].filter fun x => x.inst == i).map fun x => lRows x.desc).sum = (([l].filter fun l => l.chan == i).map (softS [l]).softRowsOf).sum)
       ∧ (fwPostAll Config.tLens [x] (softS [l])).isSome = true)
    ∧ (progS 5 [] (sweep7 0 none none)).softCovers (sweep7 0 none none) [] = true
    ∧ (progS 6 [] (sweep7 0 none none)).tapTags (sweep7 0 none none) (fw 0 0x11 []) = true
    ∧ thinBody ((progS 7 [] (sweep7 0 none none)).repBody (img 3) 0) = false := by decide +kernel
theorem wit_ForwardSteps_End :
    (let w := sweep7 0 (some 0) none
     let s := (progS 8 [] w).setJob 0 job0
     s.chunkScored w 2 = false
     ∧ (s.setPring 0 2 { PRing.init with bound := true, kind := 2, st := 1, ctx := 1, slots := 4, free := 3, base := 8192, written := [0], remote := 0xFFFF }).chunkScored w 2
       = true) := by decide +kernel
/-- Controller 2 with its first SLC stripe's block of die 3. -/
def slcK : Nat := bkey 3 firstSlc
def ctlSlc (f : Ctl → Ctl) (b : SBlock) : State := up.setCtl 2 (f ({ Ctl.init with st := 3, armed := true, limit := 1 }.setBlock slcK b))
theorem wit_StoreEvents_Classes :
    (let s := ctl2 id (blkSt 1 3)
     s.readFor 2 (planeOf (bkey 3 5)) (s.blockAddr 2 (bkey 3 5) 1) = some none ∧ s.classMay 2 2 (planeOf (bkey 3 5)) = true
     ∧ s.classMay 2 ((s.ctl 2).progClass (bkey 3 5)) (planeOf (bkey 3 5)) = true ∧ s.readers 2 (planeOf (bkey 3 5)) = []
     ∧ s.slcWork 2 (planeOf (bkey 3 5)) = false ∧ s.relocWork 2 (planeOf (bkey 3 5)) = false)
    ∧ (let s := ctl2 id (blkSt 4 0)
       s.readFor 2 (planeOf (bkey 3 5)) (s.blockAddr 2 (bkey 3 5) 1) = none ∧ s.relocWork 2 (planeOf (bkey 3 5)) = true ∧ s.shareLeft 2 2 = true
       ∧ s.slcWork 2 (planeOf (bkey 3 5)) = false ∧ s.classMay 2 2 (planeOf (bkey 3 5)) = true)
    ∧ (let s := ctlSlc id (blkSt 0 0)
       (s.ctl 2).slcMode slcK = true ∧ (s.ctl 2).stripeOf slcK = some (firstSlc, 3) ∧ (storeAddr 2 firstSlc 3 0).isSome = true
       ∧ s.classMay 2 ((s.ctl 2).progClass slcK) (planeOf slcK) = true
       ∧ (match storeAddr 2 firstSlc 3 0 with
          | some a => let t := ctlSlc (fun x => { x with pend := [(a, 64)] }) (blkSt 0 0)
            t.slcWork 2 (planeOf slcK) && t.shareLeft 2 1
          | none => false) = true)
    ∧ (let s := ctlSlc id (blkSt 2 512); ((s.ctl 2).block slcK).st = 2 ∧ s.classMay 2 2 (planeOf slcK) = true ∧ firstSlc ≤ firstSlc)
    ∧ (let s := withImage (img 6) (ctl2 id (blkSt 2 1536)); s.blockDeleted 5 = true ∧ (s.ctl 2).stripeOf (bkey 3 5) = some (5, 3))
    ∧ (let s := ctl2 id { blkSt 2 1 with hits := [0] }; ((s.ctl 2).block (bkey 3 5)).hits.length ≠ ([] : List Nat).length ∧ s.now < 0 + 86400 * Config.sec) := by
  decide +kernel
theorem wit_StoreEvents_Readers :
    (let s := withImage (img 1) (ctl2 id (blkSt 2 1536))
     s.readers 2 (planeOf (bkey 3 5)) ≠ [] ∧ s.slcWork 2 (planeOf (bkey 3 5)) = false ∧ s.relocWork 2 (planeOf (bkey 3 5)) = false) := by decide +kernel
theorem wit_HostPortEvents_Others :
    (let s := hostS fun h => { h with snoop := [(4, true)] }; 4 ∉ s.host.bisnp ∧ (4, true) ∈ s.host.snoop)
    ∧ (let x := { chunkWrite 4096 with kind := 1 }
       let s := withImage { img 0 with writes := [x] } up
       ((s.image 3).bind fun g => g.writes[0]?) = some x ∧ x.kind = 1 ∧ s.isFatal = false ∧ (5 : Nat) < Config.rings)
    ∧ ((withSys (fun x => { x with perst := true }) (hostS fun h => { h with up := false })).host.up = false) := by decide +kernel

/-! ### Ill-formed terms, each refused by its check -/

theorem smoke_request_wf : (rq []).wf = true ∧ ({ rq [] with mailbox := 260 } : Request).wf = false
    ∧ ({ rq [] with flags := 2 ^ 16 } : Request).wf = false ∧ ({ rq [] with tag := 2 ^ 16 } : Request).wf = false
    ∧ ({ rq [] with context := 256 } : Request).wf = false ∧ ({ rq [] with rsv7 := 256 } : Request).wf = false
    ∧ ({ rq [] with length := 2 ^ 32 } : Request).wf = false ∧ ({ rq [] with rsv12 := 2 ^ 32 } : Request).wf = false
    ∧ ({ rq [] with sequence := 2 ^ 64 } : Request).wf = false ∧ ({ rq [] with rsv24 := 2 ^ 64 } : Request).wf = false
    ∧ ({ rq [] with payload := zeros 2017 } : Request).wf = false := by decide +kernel

theorem smoke_vec_wf : ({ d := 31, s1 := 31, s2 := 31, s3 := 31, m := 7, men := true, imm := 2 ^ 32 - 1 } : VecFields).wf = true
    ∧ ({ d := 32, s1 := 0, s2 := 0, s3 := 0, m := 0, men := false, imm := 0 } : VecFields).wf = false
    ∧ ({ d := 0, s1 := 32, s2 := 0, s3 := 0, m := 0, men := false, imm := 0 } : VecFields).wf = false
    ∧ ({ d := 0, s1 := 0, s2 := 32, s3 := 0, m := 0, men := false, imm := 0 } : VecFields).wf = false
    ∧ ({ d := 0, s1 := 0, s2 := 0, s3 := 32, m := 0, men := false, imm := 0 } : VecFields).wf = false
    ∧ ({ d := 0, s1 := 0, s2 := 0, s3 := 0, m := 8, men := false, imm := 0 } : VecFields).wf = false
    ∧ ({ d := 0, s1 := 0, s2 := 0, s3 := 0, m := 0, men := false, imm := 2 ^ 32 } : VecFields).wf = false := by decide

theorem smoke_parts_wf : alignedAccess 8 16 = true ∧ alignedAccess 4 12 = true ∧ alignedAccess 2 0 = false ∧ alignedAccess 8 4 = false
    ∧ Block.wf (.unit Config.tHbm 7) = true ∧ Block.wf (.unit Config.tHbm 8) = false ∧ Block.wf (.mailbox 260) = false
    ∧ Block.wf (.ring 4096) = false
    ∧ Contribution.wf { dev := 1024, shardsOk := true, scaleOk := true, localNf := false, reducedNf := false, attempt := 0, cls := 0, tensor := 0
                        norm := 0 } = false
    ∧ CommitWord.wf { cause := 256, isLocal := false, vetoDev := 0, vetoTensor := 0, norm := 0, participants := 1 } = false
    ∧ FwIssue.wf { ring := 0, inst := 0, base := 0, desc := zeros 63 } = false := by decide +kernel

theorem smoke_instr_wf : Instr.wf (.sysNop (rq [])) = true ∧ Instr.wf (.sysNop { rq [] with tag := 2 ^ 16 }) = false
    ∧ Instr.wf (.fence 4096) = false ∧ Instr.wf (.vuNop 48 { d := 0, s1 := 0, s2 := 0, s3 := 0, m := 0, men := false, imm := 0 }) = false
    ∧ Instr.wf (.snapTake Config.tPort 40) = false ∧ Instr.wf (.ctxDestroy { rq [] with sequence := 2 ^ 64 }) = false
    ∧ Instr.wf (.cfgTxnTimeout 64) = false ∧ Instr.wf (.agentFault 4 .illegal) = false ∧ Instr.wf (.blockGrant 8 0) = false
    ∧ Instr.wf (.ringTailWrite 0 (2 ^ 32)) = false ∧ Instr.wf (.rcFieldRead .cfg 4 8) = false ∧ Instr.wf (.msixUnmask 2048) = false
    ∧ Instr.wf (.beamFlitReceive 0 (zeros 255)) = false ∧ Instr.wf (.cxlMemWrite 0 (zeros 63) 0) = false
    ∧ Instr.wf (.fatalError 0x12) = false ∧ Instr.wf (.hbmRefreshTimer 8) = false ∧ Instr.wf (.spineLinkDown 22) = false := by
  decide +kernel

end Sys2Proof.Tests
end

section
/-! PROOFS for 00_scope.md.

The canonical form, step by step. For each function `f` of the model that leaves a state, `f_wf` says that `f` keeps the form (`State.wf`);
`OutcomeWf`, `ResWf`, `VResWf`, `OptionWf` and `BindWf` say it of what is a state only in some cases, and `SpecWf` of a command's entry.
The lemmas stand in the order of the model, so that each proof cites those of the functions that its function calls. -/

namespace Sys2Proof.Machine
open Sys2Proof

/-- Where an outcome is a next state, the state is in canonical form. -/
def OutcomeWf (o : Host.Outcome State Fault Refusal) : Prop :=
  match o with
  | .next t => t.wf = true
  | _ => True

/-- Where a command's own rule leaves a state, the state is in canonical form. -/
def ResWf (r : Res) : Prop :=
  match r with
  | .fail _ _ => True
  | .ok _ t | .failWith _ _ t | .pend t | .hold t => t.wf = true

/-- What a vector instruction leaves, registers and state, is in canonical form. -/
def VResWf (r : VRes) : Prop :=
  match r with
  | .ok v _ t => v.wf = true ∧ t.wf = true
  | .stop t => t.wf = true
  | .stall v => v.wf = true

/-- A command of the list keeps the canonical form. -/
def SpecWf (k : CmdSpec) : Prop :=
  (∀ i p s, s.wf = true → ResWf (k.run i p s)) ∧ ∀ s, s.wf = true → (k.after s).wf = true

variable {s : State}

/-- The form does not depend on what lies outside the memories and the six maps. -/
theorem State.with_wf {pending : List Instr} {now free keys : Nat} {sys : Sys} {ops : List PendingOp} {cfg : Cfg} {log : LogState}
    {prings : List (Nat × PRing)} {chans : List (Nat × Chan)} {jobs : List (Nat × Job)} {step : StepState} {upds : List (Nat × Upd)}
    {sweeps : List Sweep} {lens : List (Nat × LensTask)} {images : List (Nat × Image)} {groups : List (Nat × Group)} {beam : Beam}
    {mirror : Mirror} {binds : List (Nat × NetBind)} {nports : List (Nat × NetPort)} {host : HostPort} {sec : Sec}
    {agents : List (Nat × Agent)} {ctls : List (Nat × Ctl)} {srv : Serving} {loupe : Loupe} (h : s.wf = true) :
    ({ s with
      pending, now, free, keys, sys, ops, cfg, log, prings, chans, jobs, step, upds, sweeps, lens, images, groups, beam, mirror, binds
      nports, host, sec, agents, ctls, srv, loupe } : State).wf = true := h

/-- The form does not depend on marks, pages and allocations. -/
theorem State.withMarks_wf {hbmPoison sramPoison sramUe storePoison hostPoison failed : List Nat} {pages : List (Nat × Nat)}
    {allocs : List Alloc} (h : s.wf = true) :
    ({ s with mem := { s.mem with hbmPoison, sramPoison, sramUe, storePoison, hostPoison, failed, pages, allocs } } : State).wf = true := h

theorem ite_wf {c : Prop} [Decidable c] {t u : State} (ht : t.wf = true) (hu : u.wf = true) : (if c then t else u).wf = true := by
  split
  · exact ht
  · exact hu

theorem OutcomeWf.ite {c : Prop} [Decidable c] {o o' : Host.Outcome State Fault Refusal} (h : OutcomeWf o) (h' : OutcomeWf o') :
    OutcomeWf (if c then o else o') := by
  split
  · exact h
  · exact h'

theorem ResWf.ite {c : Prop} [Decidable c] {r r' : Res} (h : ResWf r) (h' : ResWf r') : ResWf (if c then r else r') := by
  split
  · exact h
  · exact h'

theorem VResWf.ite {c : Prop} [Decidable c] {r r' : VRes} (h : VResWf r) (h' : VResWf r') : VResWf (if c then r else r') := by
  split
  · exact h
  · exact h'

/-- A fold of a change that keeps the form keeps it. -/
theorem foldl_wf {α : Type} {f : State → α → State} {l : List α} (hf : ∀ s x, s.wf = true → (f s x).wf = true) (h : s.wf = true) :
    (l.foldl f s).wf = true := by
  induction l generalizing s with
  | nil => exact h
  | cons x l ih => exact ih (hf s x h)

theorem snd_wf {α : Type} {p : α × State} {a : α} {t : State} (e : p = (a, t)) (h : p.2.wf = true) : t.wf = true := by
  subst e; exact h
theorem fst_wf {α : Type} {p : State × α} {a : α} {t : State} (e : p = (t, a)) (h : p.1.wf = true) : t.wf = true := by
  subst e; exact h

theorem snd_snd_wf {α β : Type} {p : α × β × State} {a : α} {b : β} {t : State} (e : p = (a, b, t)) (h : p.2.2.wf = true) :
    t.wf = true := by
  subst e; exact h

theorem State.updCtx_wf {c : Nat} {f : Context → Context} (h : s.wf = true) : (s.updCtx c f).wf = true := State.setCtx_wf _ _ h
theorem State.updRing_wf {j : Nat} {f : Ring → Ring} (h : s.wf = true) : (s.updRing j f).wf = true := State.setRing_wf _ _ h
theorem State.updUnit_wf {ty inst : Nat} {f : UnitRegs → UnitRegs} (h : s.wf = true) : (s.updUnit ty inst f).wf = true :=
  State.setUnit_wf _ _ _ h

/-- A core's vector registers are in their form. -/
theorem State.core_vec_wf (k : Nat) (h : s.wf = true) : ((s.core k).vec.all VecState.wf) = true := by
  rw [State.wf_iff] at h
  obtain ⟨-, -, -, -, -, -, hv⟩ := h
  unfold State.core
  generalize s.cores = m at hv
  induction m with
  | nil => rfl
  | cons c m ih =>
    obtain ⟨x, y⟩ := c
    simp only [List.all_cons, Bool.and_eq_true] at hv
    unfold SMap.get
    split
    · exact hv.1
    · exact ih hv.2

/-- A change of a core that leaves its vector unit alone keeps the form. -/
theorem State.updCore_wf {k : Nat} {f : Core → Core} (hf : (f (s.core k)).vec = (s.core k).vec) (h : s.wf = true) :
    (s.updCore k f).wf = true :=
  State.setCore_wf _ _ (hf ▸ State.core_vec_wf k h) h

/-- A change of a core that leaves it a vector unit in its form keeps the form. -/
theorem State.updCore_vec_wf {k : Nat} {f : Core → Core} (hf : (f (s.core k)).vec.all VecState.wf = true) (h : s.wf = true) :
    (s.updCore k f).wf = true := State.setCore_wf _ _ hf h

theorem Core.setStage_vec (c : Core) (h : Nat) (f : Stage → Stage) : (c.setStage h f).vec = c.vec := by
  unfold Core.setStage
  split <;> rfl

/-- Where a binding of a job's rings leaves a state, the state is in canonical form. -/
def BindWf (r : (Nat × Nat) ⊕ State) : Prop :=
  match r with
  | .inl _ => True
  | .inr t => t.wf = true

theorem BindWf.ite {c : Prop} [Decidable c] {r r' : (Nat × Nat) ⊕ State} (h : BindWf r) (h' : BindWf r') : BindWf (if c then r else r') := by
  split
  · exact h
  · exact h'

theorem BindWf.of_eq {r : (Nat × Nat) ⊕ State} {t : State} (e : r = .inr t) (h : BindWf r) : t.wf = true := by
  subst e; exact h

/-- Where an optional state is one, it is in canonical form. -/
def OptionWf (o : Option State) : Prop :=
  match o with
  | none => True
  | some t => t.wf = true

theorem OptionWf.ite {c : Prop} [Decidable c] {o o' : Option State} (h : OptionWf o) (h' : OptionWf o') : OptionWf (if c then o else o') := by
  split
  · exact h
  · exact h'

theorem OptionWf.of_eq {o : Option State} {t : State} (e : o = some t) (h : OptionWf o) : t.wf = true := by
  subst e; exact h

theorem OptionWf.getD {o : Option State} (ho : OptionWf o) (h : s.wf = true) : (o.getD s).wf = true := by
  cases o with
  | none => exact h
  | some t => exact ho

/-! The parts of the state that no named update writes. -/

theorem State.storeWrite_wf {a : Nat} {bs : Bytes} (h : s.wf = true) :
    ({ s with mem := { s.mem with store := Mem.write s.mem.store a bs } } : State).wf = true := by
  rw [State.wf_iff] at *
  obtain ⟨⟨hhbm, hsram, hhost, hstore⟩, hmaps⟩ := h
  exact ⟨⟨hhbm, hsram, hhost, Mem.write_wf _ _ hstore⟩, hmaps⟩

theorem State.storeClear_wf {a n : Nat} {marks : List Nat} (h : s.wf = true) :
    ({ s with mem := { s.mem with store := Mem.clear s.mem.store a n, storePoison := marks } } : State).wf = true := by
  rw [State.wf_iff] at *
  obtain ⟨⟨hhbm, hsram, hhost, hstore⟩, hmaps⟩ := h
  exact ⟨⟨hhbm, hsram, hhost, Mem.clear_wf _ _ hstore⟩, hmaps⟩

theorem SMap.filterMap_wfFrom {α : Type} [DecidableEq α] {d : α} {g : Nat × α → Option (Nat × α)}
    (hg : ∀ c e, g c = some e → e.1 = c.1 ∧ (c.2 ≠ d → e.2 ≠ d)) (m : List (Nat × α)) :
    ∀ lo, SMap.wfFrom d lo m = true → SMap.wfFrom d lo (m.filterMap g) = true := by
  induction m with
  | nil => intro lo h; exact h
  | cons c m ih =>
    intro lo h
    obtain ⟨k, v⟩ := c
    simp only [SMap.wfFrom, Bool.and_eq_true, decide_eq_true_eq] at h
    obtain ⟨⟨hlo, hv⟩, hm⟩ := h
    cases e : g (k, v) with
    | none =>
      rw [List.filterMap_cons_none e]
      exact SMap.wfFrom_le (by omega) (ih _ hm)
    | some c' =>
      obtain ⟨k', v'⟩ := c'
      obtain ⟨rfl, hd⟩ := hg _ _ e
      rw [List.filterMap_cons_some e]
      simp only [SMap.wfFrom, Bool.and_eq_true, decide_eq_true_eq]
      exact ⟨⟨hlo, hd hv⟩, ih _ hm⟩

theorem SMap.mapVals_wfFrom {α : Type} [DecidableEq α] {d : α} {f : α → α} (m : List (Nat × α)) :
    ∀ lo, SMap.wfFrom d lo m = true → SMap.wfFrom d lo (SMap.mapVals d f m) = true := by
  unfold SMap.mapVals
  induction m with
  | nil => intro lo h; exact h
  | cons c m ih =>
    intro lo h
    obtain ⟨k, v⟩ := c
    simp only [SMap.wfFrom, Bool.and_eq_true, decide_eq_true_eq] at h
    obtain ⟨⟨hlo, hv⟩, hm⟩ := h
    have ihm := ih _ hm
    simp only [List.map_cons, List.filter_cons]
    split
    · next hd =>
      simp only [SMap.wfFrom, Bool.and_eq_true, decide_eq_true_eq]
      exact ⟨⟨hlo, by simpa using hd⟩, ihm⟩
    · exact SMap.wfFrom_le (by omega) ihm

theorem SMap.mapVals_wf {α : Type} [DecidableEq α] {d : α} {f : α → α} {m : List (Nat × α)} (h : SMap.wf d m = true) :
    SMap.wf d (SMap.mapVals d f m) = true := SMap.mapVals_wfFrom m 0 h

theorem State.mapUnits_wf {f : UnitRegs → UnitRegs} (h : s.wf = true) :
    ({ s with units := SMap.mapVals UnitRegs.init f s.units } : State).wf = true := by
  rw [State.wf_iff] at *
  obtain ⟨hmem, hmbs, hctxs, hrings, hcores, hunits, hvec⟩ := h
  exact ⟨hmem, hmbs, hctxs, hrings, hcores, SMap.mapVals_wf hunits, hvec⟩

theorem State.filterRings_wf {f : Nat × Ring → Bool} (h : s.wf = true) : ({ s with rings := s.rings.filter f } : State).wf = true := by
  rw [State.wf_iff] at *
  obtain ⟨hmem, hmbs, hctxs, hrings, hrest⟩ := h
  exact ⟨hmem, hmbs, hctxs, SMap.filter_wfFrom _ _ _ hrings, hrest⟩

theorem State.filterMbs_wf {c : Nat × Mailbox → Prop} [DecidablePred c] (h : s.wf = true) :
    ({ s with mbs := s.mbs.filterMap fun m => if c m then some m else none } : State).wf = true := by
  rw [State.wf_iff] at *
  obtain ⟨hmem, hmbs, hrest⟩ := h
  refine ⟨hmem, SMap.filterMap_wfFrom (fun m x hx => ?_) _ _ hmbs, hrest⟩
  split at hx
  · cases hx
    exact ⟨rfl, id⟩
  · cases hx

theorem State.noMbs_wf (h : s.wf = true) : ({ s with mbs := [] } : State).wf = true := by
  rw [State.wf_iff] at *
  exact ⟨h.1, rfl, h.2.2⟩

/-- The counters that outlast a power loss: only units that keep one are listed. -/
theorem coldUnits_wf {us : List (Nat × UnitRegs)} (h : SMap.wf UnitRegs.init us = true) : SMap.wf UnitRegs.init (coldUnits us) = true := by
  unfold coldUnits
  refine SMap.filterMap_wfFrom (fun u x hx => ?_) _ _ h
  extract_lets keep at hx
  clear_value keep
  split at hx
  · cases hx
  · next hk =>
    cases hx
    refine ⟨rfl, fun _ e => hk ?_⟩
    have : keep = [] := congrArg UnitRegs.cnt e
    simp [this]

/-! The registers of a vector program. -/

theorem VecState.wf_iff (v : VecState) : v.wf = true ↔ SMap.wf 0 v.x = true ∧ SMap.wf 0 v.v = true ∧ v.m.length = 8 := by
  simp only [VecState.wf, Bool.and_eq_true, beq_iff_eq, and_assoc]

theorem VecState.setX_wf {v : VecState} {i n : Nat} (h : v.wf = true) : (v.setX i n).wf = true := by
  unfold VecState.setX
  split
  · exact h
  · rw [VecState.wf_iff] at *
    exact ⟨SMap.set_wf _ _ h.1, h.2⟩

theorem VecState.setLane_wf {v : VecState} {r l n : Nat} (h : v.wf = true) : (v.setLane r l n).wf = true := by
  rw [VecState.wf_iff] at *
  exact ⟨h.1, SMap.set_wf _ _ h.2.1, h.2.2⟩

theorem VecState.setMask_wf {v : VecState} {i n : Nat} (h : v.wf = true) : (v.setMask i n).wf = true := by
  rw [VecState.wf_iff] at *
  exact ⟨h.1, h.2.1, by simp [VecState.setMask, h.2.2]⟩

theorem VecState.foldl_wf {α : Type} {f : VecState → α → VecState} {l : List α} {v : VecState} (hf : ∀ v x, v.wf = true → (f v x).wf = true)
    (h : v.wf = true) : (l.foldl f v).wf = true := by
  induction l generalizing v with
  | nil => exact h
  | cons x l ih => exact ih (hf v x h)

theorem VecState.mapLanes_wf {v : VecState} {f : VecFields} {g : Nat → Nat} (h : v.wf = true) : (v.mapLanes f g).wf = true :=
  VecState.foldl_wf (fun _ _ h => VecState.setLane_wf h) h

theorem vecStart_wf {ring ix inst prog : Nat} {d : Bytes} : (vecStart ring ix inst d prog).wf = true :=
  VecState.setX_wf (VecState.setX_wf (VecState.foldl_wf (fun _ _ h => VecState.setX_wf h) rfl))

theorem vecFilter_wf {o : Option VecState} {f : VecState → Bool} (h : o.all VecState.wf = true) :
    (o.filter f).all VecState.wf = true := by
  cases o with
  | none => rfl
  | some v =>
    rw [Option.filter_some]
    split
    · exact h
    · rfl


/-! #### Machine/Ops.lean -/

theorem State.fresh_wf {s : State} (h : s.wf = true) : s.fresh.2.wf = true := h

theorem freshBytes_wf {n : Nat} {s : State} (h : s.wf = true) : (freshBytes n s).2.wf = true := h

theorem spent_wf {ty inst : Nat} {l : List Nat} {s : State} (h : s.wf = true) : (spent ty inst l s).wf = true := by
  induction l generalizing s with
  | nil => exact h
  | cons x l ih =>
    unfold spent
    exact ih (bump_wf _ _ _ _ (State.fresh_wf h))

theorem handleWait_wf {j : Nat} {s : State} (h : s.wf = true) : (handleWait j s).wf = true := ite_wf (bump_wf _ _ _ _ h) h

theorem hbmTaken_wf {a n : Nat} {s : State} (h : s.wf = true) : (hbmTaken a n s).wf = true := ite_wf h (bump_wf _ _ _ _ h)

theorem sramStore_wf {core : Nat} {cells : List (Nat × Bytes)} {s : State} (h : s.wf = true) : (sramStore core cells s).wf = true :=
  State.withMarks_wf (foldl_wf (fun _ _ h1 => sramWrite_wf _ _ _ h1) h)

theorem mayLand_wf {core : Nat} {l : List (Nat × Bytes)} {s : State} (h : s.wf = true) : (mayLand core l s).wf = true := by
  induction l generalizing s with
  | nil => exact h
  | cons x l ih =>
    unfold mayLand
    exact ih (ite_wf (State.fresh_wf h) (sramWrite_wf _ _ _ (State.fresh_wf h)))

theorem sramMark_wf {core off n : Nat} {s : State} (h : s.wf = true) : (sramMark core off n s).wf = true := h

theorem sramUpset_wf {core off : Nat} {s : State} (h : s.wf = true) : (sramUpset core off s).wf = true := State.withMarks_wf (sramMark_wf h)

theorem poisonRead_wf {addr : Nat} {s : State} (h : s.wf = true) : (poisonRead addr s).wf = true := bump_wf _ _ _ _ (State.updUnit_wf h)

theorem raiseUnit_wf {e : Err} {cs : List Nat} {s : State} (h : s.wf = true) : (raiseUnit e cs s).wf = true :=
  foldl_wf (fun _ _ h1 => errTo_wf _ _ _ h1) (raise_wf _ h)

/-! #### Machine/Wire.lean -/

theorem State.setPort_wf {s : State} {p : Nat} {x : Port} (h : s.wf = true) : (s.setPort p x).wf = true := h

theorem State.updPort_wf {s : State} {p : Nat} {f : Port → Port} (h : s.wf = true) : (s.updPort p f).wf = true := State.setPort_wf h

theorem portEmit_wf {p : Nat} {f : Bytes} {s : State} (h : s.wf = true) : (portEmit p f s).wf = true := bump_wf _ _ _ _ (State.updPort_wf h)

theorem sendNull_wf {p : Nat} {s : State} (h : s.wf = true) : (sendNull p s).wf = true := by
  unfold sendNull
  extract_lets x
  split
  exact portEmit_wf (State.setPort_wf h)

theorem sendNumbered_wf {p : Nat} {f : Bytes} {s : State} (h : s.wf = true) : (sendNumbered p f s).wf = true := by
  unfold sendNumbered
  extract_lets x
  split
  extract_lets g s1
  have hs1 : s1.wf = true := State.setPort_wf h
  exact bump_wf _ _ _ _ (portEmit_wf hs1)

theorem portPump_wf {p n : Nat} {s : State} (h : s.wf = true) : (portPump p n s).wf = true := by
  induction n generalizing s with
  | zero => exact h
  | succ n ih =>
    unfold portPump
    extract_lets x
    refine ite_wf h ?_
    split
    · exact h
    · extract_lets s1 s2 s3
      have hs1 : s1.wf = true := State.setPort_wf h
      have hs2 : s2.wf = true := sendNumbered_wf hs1
      have hs3 : s3.wf = true := ite_wf hs2 (State.updPort_wf hs2)
      exact ih hs3

theorem portGo_wf {p : Nat} {s : State} (h : s.wf = true) : (portGo p s).wf = true := ite_wf (spent_wf (portPump_wf h)) (portPump_wf h)

theorem sendToward_wf {inp : Nat} {f : Bytes} {s : State} (h : s.wf = true) : (sendToward inp f s).wf = true := by
  unfold sendToward
  extract_lets _ held
  have hheld : held.wf = true := h
  refine ite_wf hheld ?_
  split
  · extract_lets s1
    have hs1 : s1.wf = true := h
    exact portGo_wf (State.updPort_wf hs1)
  · exact hheld

theorem sendMsg_wf {dst cls stream : Nat} {enc : Bool} {m : Bytes} {s : State} (h : s.wf = true) :
    (sendMsg dst cls stream enc m s).wf = true :=
  ite_wf (foldl_wf (fun _ _ h1 => sendToward_wf h1) h) h

/-! #### Machine/Access.lean -/

theorem halfUndefined_wf {core h : Nat} {s : State} (hw : s.wf = true) :
    (halfUndefined core h s).2.wf = true := State.with_wf (sramWrite_wf _ _ _ hw)

theorem State.setGroup_wf {s : State} {g : Nat} {x : Group} (h : s.wf = true) : (s.setGroup g x).wf = true := h

theorem State.updGroup_wf {s : State} {g : Nat} {f : Group → Group} (h : s.wf = true) : (s.updGroup g f).wf = true := State.setGroup_wf h

theorem sendOne_wf {og : Option Nat} {dev cls : Nat} {st : Option Nat} {a : Nat} {bs : Bytes} {s : State} (h : s.wf = true) :
    (sendOne og dev cls st a bs s).wf = true := by
  unfold sendOne
  split
  · exact sendMsg_wf h
  · extract_lets n stream
    exact sendMsg_wf h

theorem sendGroup_wf {og : Option Nat} {dev cls a : Nat} {bs : Bytes} {s : State} (h : s.wf = true) :
    (sendGroup og dev cls a bs s).wf = true :=
  foldl_wf (fun _ _ h1 => sendOne_wf h1) h

theorem sendStriped_wf {og : Option Nat} {dev a : Nat} {bs : Bytes} {s : State} (h : s.wf = true) : (sendStriped og dev a bs s).wf = true :=
  foldl_wf (fun _ _ h1 => foldl_wf (fun _ _ h2 => sendOne_wf h2) h1) h

theorem openPeer_wf {src cls stream : Nat} {msg : Bytes} {s : State} (h : s.wf = true) : (openPeer src cls stream msg s).2.wf = true := by
  unfold openPeer
  split
  extract_lets key w
  split
  · exact h
  split
  · exact h
  · split
    · exact h
    · exact h

theorem State.setPring_wf {s : State} {ch n : Nat} {x : PRing} (h : s.wf = true) : (s.setPring ch n x).wf = true := h

theorem State.updPring_wf {s : State} {ch n : Nat} {f : PRing → PRing} (h : s.wf = true) : (s.updPring ch n f).wf = true :=
  State.setPring_wf h

theorem State.setChan_wf {s : State} {ch : Nat} {x : Chan} (h : s.wf = true) : (s.setChan ch x).wf = true := h

theorem State.updChan_wf {s : State} {ch : Nat} {f : Chan → Chan} (h : s.wf = true) : (s.updChan ch f).wf = true := State.setChan_wf h

theorem State.setJob_wf {s : State} {j : Nat} {x : Job} (h : s.wf = true) : (s.setJob j x).wf = true := h

theorem State.setUpd_wf {s : State} {u : Nat} {x : Upd} (h : s.wf = true) : (s.setUpd u x).wf = true := h

theorem State.setImage_wf {s : State} {h : Nat} {x : Image} (hw : s.wf = true) : (s.setImage h x).wf = true := hw

theorem hostPut_wf {chk : Option Bytes} {a : Nat} {bs : Bytes} {s : State} (h : s.wf = true) : (hostPut chk a bs s).wf = true := by
  unfold hostPut
  split
  · exact hostWrite_wf _ _ h
  · extract_lets l0 cnt old
    exact hostWrite_wf _ _ h

theorem State.setBind_wf {s : State} {b : Nat} {x : NetBind} (h : s.wf = true) : (s.setBind b x).wf = true := h

theorem consumedTo_wf {b v len img : Nat} {s : State} (h : s.wf = true) : (consumedTo b v len img s).wf = true := by
  unfold consumedTo
  split
  · extract_lets s'
    have hs' : s'.wf = true := State.setBind_wf h
    exact ite_wf (State.with_wf hs') hs'
  · exact h

theorem createRing_wf {j kind slotLog2 slots base space ty inst compl vector c : Nat} {s : State} (h : s.wf = true) :
    (createRing j kind slotLog2 slots base space ty inst compl vector c s).wf = true :=
  State.setRing_wf _ _ h

/-! #### Machine/SciCore.lean -/

theorem mbComplete_wf {m op : Nat} {q : Request} {status detail handle len : Nat} {payload : Bytes} {s : State} (h : s.wf = true) :
    (mbComplete m op q status detail handle len payload s).wf = true :=
  ite_wf (State.setMb_wf _ _ h) (ite_wf (sendMsix_wf _ (State.setMb_wf _ _ h)) (State.setMb_wf _ _ h))

theorem flagRecord_wf {op : Nat} {q : Request} {c status detail : Nat} {payload : Bytes} {s : State} (h : s.wf = true) :
    (flagRecord op q c status detail payload s).wf = true :=
  ite_wf (deliverEvent_wf _ _ h) h

theorem answer_wf {m op c : Nat} {q : Request} {ind : Option Indirect} {status detail : Nat} {payload : Bytes} {s : State}
    (h : s.wf = true) : (answer m op c q ind status detail payload s).wf = true := by
  unfold answer
  split
  · exact ite_wf (flagRecord_wf (mbComplete_wf (spaceWrite_wf _ _ _ h))) (flagRecord_wf (mbComplete_wf h))
  · exact flagRecord_wf (mbComplete_wf h)

/-- A command that keeps the form keeps it through its checks, its effect and its answer. -/
theorem runBody_wf {k : CmdSpec} {q : Request} {m c : Nat} {p : Bytes} {ind : Option Indirect} {s : State} (hk : SpecWf k)
    (h : s.wf = true) : (runBody k q m c p ind s).wf = true := by
  obtain ⟨hrun, hafter⟩ := hk
  unfold runBody
  extract_lets op bad badResp iss needRing
  have hbad : ∀ st d s, s.wf = true → (bad st d s).wf = true := fun _ _ _ h => answer_wf h
  refine ite_wf (hbad _ _ _ h) (ite_wf (hbad _ _ _ h) ?_)
  have hr : ResWf (k.run iss p s) := hrun _ _ _ h
  generalize k.run iss p s = r at hr
  cases r with
  | fail st d => exact hbad _ _ _ h
  | failWith st d t => exact ite_wf (hbad _ _ _ h) (hbad _ _ _ hr)
  | ok resp t => exact ite_wf (hbad _ _ _ h) (answer_wf hr)
  | hold t => exact ite_wf (hbad _ _ _ h) hr
  | pend t => exact ite_wf (hbad _ _ _ h) (hafter _ (mbComplete_wf (State.with_wf (State.updCtx_wf hr))))

theorem runChecked_wf {spec : Option CmdSpec} {op c : Nat} {q : Request} {s : State} (hk : ∀ k ∈ spec, SpecWf k) (h : s.wf = true) :
    (runChecked spec op c q s).wf = true := by
  unfold runChecked
  split
  · exact flagRecord_wf (mbComplete_wf h)
  · exact raise_wf _ (flagRecord_wf (mbComplete_wf h))
  · split
    · exact h
    · exact ite_wf (State.setMb_wf _ _ h) (runBody_wf (hk _ rfl) h)

theorem runAccepted_wf {spec : Option CmdSpec} {op : Nat} {q : Request} {s : State} (hk : ∀ k ∈ spec, SpecWf k) (h : s.wf = true) :
    (runAccepted spec op q s).wf = true := by
  unfold runAccepted
  extract_lets m
  split
  · exact mbComplete_wf h
  · exact ite_wf (mbComplete_wf h) (ite_wf (mbComplete_wf h) (ite_wf (mbComplete_wf h) (runChecked_wf hk h)))

theorem runWaited_wf {spec : Option CmdSpec} {op : Nat} {q : Request} {s : State} (hk : ∀ k ∈ spec, SpecWf k) (h : s.wf = true) :
    (runWaited spec op q s).wf = true := by
  unfold runWaited
  extract_lets q'
  split
  · exact mbComplete_wf h
  · exact ite_wf (mbComplete_wf h) (ite_wf (mbComplete_wf h) (runChecked_wf hk h))

theorem mctpSend_wf {t : Nat} {bs : Bytes} {s : State} (h : s.wf = true) : (mctpSend t bs s).wf = true := h

theorem mctpReply_wf {m : Nat} {s : State} (h : s.wf = true) : (mctpReply m s).wf = true := ite_wf (mctpSend_wf h) h

theorem goWrite_wf {spec : Option CmdSpec} {op : Nat} {q : Request} {s : State} (hk : ∀ k ∈ spec, SpecWf k) (h : s.wf = true) :
    (goWrite spec op q s).wf = true :=
  ite_wf h (ite_wf (State.setMb_wf _ _ h) (ite_wf (mbComplete_wf (State.setMb_wf _ _ h)) (runAccepted_wf hk (State.setMb_wf _ _ h))))

theorem submit_wf {k : CmdSpec} {q : Request} {s : State} (hk : SpecWf k) (h : s.wf = true) : OutcomeWf (submit k q s) :=
  goWrite_wf (by rintro _ ⟨⟩; exact hk) (ite_wf h (State.setMb_wf _ _ h))

theorem completeHeld_wf {m status detail : Nat} {payload : Bytes} {s : State} (h : s.wf = true) :
    (completeHeld m status detail payload s).wf = true := by
  unfold completeHeld
  split
  extract_lets ind
  exact ite_wf (State.setMb_wf _ _ h) (ite_wf (answer_wf h) h)

theorem completeLate_wf {s : State} (h : s.wf = true) : (completeLate s).wf = true := by
  refine foldl_wf (fun s1 x1 h1 => ?_) h
  split
  · exact completeHeld_wf (State.setMb_wf _ _ h1)
  · exact h1

/-! #### Machine/MemCmd.lean -/

theorem takePages_wf {c p n : Nat} {s : State} (h : s.wf = true) : (takePages c p n s).wf = true := by
  refine bump_wf _ _ _ _ ?_
  rw [State.wf_iff] at *
  obtain ⟨⟨hhbm, hmem⟩, hmaps⟩ := h
  exact ⟨⟨Mem.clear_wf _ _ hhbm, hmem⟩, hmaps⟩

theorem freePages_wf {a : Alloc} {s : State} (h : s.wf = true) : (freePages a s).wf = true := h

theorem specMemAlloc_wf : SpecWf specMemAlloc := by
  refine ⟨fun i p s h => ?_, fun _ h => h⟩
  unfold specMemAlloc
  dsimp -zeta only
  extract_lets bytes side inst al n quota tries
  refine .ite trivial (.ite trivial (.ite trivial (.ite trivial (.ite trivial ?_))))
  split
  · exact trivial
  · exact takePages_wf h

theorem specMemMapHost_wf :
    SpecWf specMemMapHost := ⟨fun _ _ _ h => .ite trivial (.ite trivial (.ite trivial (.ite trivial (State.setCtx_wf _ _ h)))), fun _ h =>
    h⟩

theorem memCopy_wf {c ss ds src dst n n1 : Nat} {s : State} (h : s.wf = true) : (memCopy c ss ds src dst n n1 s).2.2.wf = true := by
  induction n generalizing src dst n1 s with
  | zero => exact h
  | succ n ih =>
    unfold memCopy
    split
    · exact h
    extract_lets k bs s1 s2
    have hs1 : s1.wf = true := ite_wf (hbmTaken_wf h) h
    have hs2 : s2.wf = true := ite_wf (hbmWrite_wf _ _ hs1) (hostPut_wf hs1)
    split
    · exact h
    split
    rename_i e
    have ht := snd_snd_wf e (ih hs2)
    exact ht

theorem memCopyDo_wf {c : Nat} {p : Bytes} {s : State} (h : s.wf = true) : (memCopyDo c p s).2.2.wf = true := memCopy_wf h

theorem memCopyErr_wf {c : Nat} {p : Bytes} {done : Nat} {s : State} (h : s.wf = true) : (memCopyErr c p done s).wf = true := raise_wf _ h

theorem specMemCopy_wf :
    SpecWf specMemCopy := ⟨fun _ _ _ h => .ite trivial (.ite trivial (.ite trivial (.ite trivial (.ite h (.ite (memCopyDo_wf h)
    (memCopyErr_wf (memCopyDo_wf h))))))), fun _ h => h⟩

theorem memCopyFinish_wf {o : PendingOp} {s : State} (h : s.wf = true) : (memCopyFinish o s).wf = true := by
  unfold memCopyFinish
  split
  rename_i e
  have ht := snd_snd_wf e (memCopyDo_wf h)
  exact ite_wf (finishOp_wf _ _ _ _ _ ht) (memCopyErr_wf (finishOp_wf _ _ _ _ _ ht))

theorem specMemQuery_wf : SpecWf specMemQuery := ⟨fun _ _ _ h => h, fun _ h => h⟩

theorem hbmCorrected_wf {stack : Nat} {s : State} (h : s.wf = true) : (hbmCorrected stack s).wf = true := by
  unfold hbmCorrected
  extract_lets s1 u recent excess s2
  have hs1 : s1.wf = true := bump_wf _ _ _ _ h
  have hs2 : s2.wf = true := State.setUnit_wf _ _ _ hs1
  exact ite_wf (raise_wf _ hs2) hs2

theorem hbmUncorrectable_wf {addr : Nat} {scrub : Bool} {s : State} (h : s.wf = true) : (hbmUncorrectable addr scrub s).wf = true :=
  raise_wf _ (State.updUnit_wf (bump_wf _ _ _ _ h))

theorem execHbmScrubLine_wf {addr errors : Nat} {s : State} (h : s.wf = true) : OutcomeWf (execHbmScrubLine addr errors s) := by
  refine .ite h ?_
  extract_lets s1
  have hs1 : s1.wf = true := bump_wf _ _ _ _ h
  exact .ite hs1 (.ite (hbmCorrected_wf hs1) (hbmUncorrectable_wf hs1))

theorem execHbmStackFail_wf {stack : Nat} {s : State} (h : s.wf = true) : OutcomeWf (execHbmStackFail stack s) := by
  refine .ite h ?_
  extract_lets _ s1 owners
  have hs1 : s1.wf = true := h
  exact raiseUnit_wf hs1

/-! #### Machine/Descriptor.lean -/

theorem release_wf {ty inst : Nat} {d : Bytes} {s : State} (h : s.wf = true) : (release ty inst d s).wf = true := by
  unfold release
  split
  · exact State.updCore_wf (Core.setStage_vec _ _ _) h
  · exact h

theorem putRecord_wf {j : Nat} {rec : Bytes} {v : Nat} {s : State} (h : s.wf = true) : (putRecord j rec v s).wf = true :=
  ite_wf (sendMsix_wf _ h) (produce_wf _ _ _ _ h)

theorem noteLast_wf {ty inst : Nat} {d detail : Bytes} {s : State} (h : s.wf = true) : (noteLast ty inst d detail s).wf = true :=
  ite_wf h (ite_wf (State.updUnit_wf h) (ite_wf (State.updUnit_wf h) h))

theorem noteApplied_wf {ty inst : Nat} {d : Bytes} {s : State} (h : s.wf = true) : (noteApplied ty inst d s).wf = true :=
  ite_wf (State.setUpd_wf h) h

theorem recordDesc_wf {j ix : Nat} {d : Bytes} {status lb : Nat} {detail : Bytes} {force : Bool} {s : State} (h : s.wf = true) :
    (recordDesc j ix d status lb detail force s).wf = true :=
  State.updRing_wf (ite_wf (putRecord_wf (noteApplied_wf (noteLast_wf h))) (sendMsix_wf _ (noteApplied_wf (noteLast_wf h))))

theorem consume_wf {j : Nat} {s : State} (h : s.wf = true) : (consume j s).wf = true := State.updRing_wf h

theorem dropHeld_wf {j : Nat} {s : State} (h : s.wf = true) : (dropHeld j s).wf = true := ite_wf (State.updCore_wf rfl h) (ite_wf h h)

theorem stopRing_wf {j ix code : Nat} {s : State} (h : s.wf = true) : (stopRing j ix code s).wf = true :=
  setErr_wf _ _ _ _ _ _ (State.updRing_wf (dropHeld_wf h))

theorem refuse_wf {j ix : Nat} {d : Bytes} {code : Nat} {s : State} (h : s.wf = true) : (refuse j ix d code s).wf = true :=
  stopRing_wf (recordDesc_wf (consume_wf h))

theorem fenceArg_wf {j ix : Nat} {d : Bytes} {status : Nat} {s : State} (h : s.wf = true) : (fenceArg j ix d status s).wf = true := by
  unfold fenceArg
  extract_lets r s1 s2
  have hs1 : s1.wf = true := recordDesc_wf (dropHeld_wf (consume_wf h))
  have hs2 : s2.wf = true := by
    unfold s2
    split
    · exact setErr_wf _ _ _ _ _ _ hs1
    · exact hs1
  exact State.updRing_wf hs2

theorem settle_wf {j n : Nat} {s : State} (h : s.wf = true) : (settle j n s).wf = true := by
  induction n generalizing s with
  | zero => exact h
  | succ n ih =>
    unfold settle
    extract_lets r s1
    have hs1 : s1.wf = true := consume_wf h
    refine ite_wf h ?_
    split
    · refine ite_wf h ?_
      extract_lets s2 s3
      have hs2 : s2.wf = true := putRecord_wf hs1
      have hs3 : s3.wf = true := stopRing_wf hs2
      exact raise_wf _ hs3
    · split
      · exact ite_wf (refuse_wf h) h
      · refine ite_wf h (ite_wf (ih (fenceArg_wf h)) (ite_wf ?_ h))
        extract_lets s2 s3
        have hs2 : s2.wf = true := release_wf (consume_wf h)
        have hs3 : s3.wf = true := recordDesc_wf hs2
        exact ih (State.updRing_wf hs3)
    · exact h

theorem settleAll_wf {j : Nat} {s : State} (h : s.wf = true) : (settleAll j s).wf = true := settle_wf h

theorem failCheck_wf {j ix : Nat} {d : Bytes} {status : Nat} {detail : Bytes} {force : Bool} {s : State} (h : s.wf = true) :
    (failCheck j ix d status detail force s).wf = true := by
  unfold failCheck
  extract_lets r s1 s2 s3
  have hs1 : s1.wf = true := dropHeld_wf (release_wf (consume_wf h))
  have hs2 : s2.wf = true := by
    unfold s2
    split
    · exact setErr_wf _ _ _ _ _ _ hs1
    · exact hs1
  have hs3 : s3.wf = true := recordDesc_wf hs2
  exact settleAll_wf (State.updRing_wf hs3)

theorem failArg_wf {j ix : Nat} {d : Bytes} {status : Nat} {s : State} (h : s.wf = true) : (failArg j ix d status s).wf = true :=
  failCheck_wf h

theorem begin_wf {j ix : Nat} {d : Bytes} {s : State} (h : s.wf = true) : (begin j ix d s).wf = true := State.updRing_wf (consume_wf h)

theorem finish_wf {j status lb : Nat} {detail : Bytes} {s : State} (h : s.wf = true) : (finish j status lb detail s).wf = true := by
  unfold finish
  extract_lets r
  split
  · exact State.setRing_wf _ _ h
  · exact h

theorem completeCur_wf {j : Nat} {s : State} (h : s.wf = true) : (completeCur j s).wf = true := by
  unfold completeCur
  extract_lets r
  split
  · extract_lets s1 s2 s3
    have hs1 : s1.wf = true := release_wf (ite_wf h (dropHeld_wf h))
    have hs2 : s2.wf = true := recordDesc_wf hs1
    have hs3 : s3.wf = true := spent_wf hs2
    exact settleAll_wf (State.updRing_wf hs3)
  · exact h

theorem served_wf {j : Nat} {s : State} (h : s.wf = true) : (served j s).wf = true := State.updUnit_wf h

theorem fetchMore_wf {j n : Nat} {s : State} (h : s.wf = true) : (fetchMore j n s).wf = true := by
  induction n generalizing s with
  | zero => exact h
  | succ n ih =>
    unfold fetchMore
    extract_lets r ix a d s1
    have hs1 : s1.wf = true := ite_wf (hbmTaken_wf h) h
    exact ite_wf h (ih (State.setRing_wf _ _ hs1))

theorem fenceWait_wf {j k : Nat} {s : State} (h : s.wf = true) : (fenceWait j k s).wf = true := State.updRing_wf h

theorem fenceEnd_wf {j ix : Nat} {d : Bytes} {status reason : Nat} {s : State} (h : s.wf = true) :
    (fenceEnd j ix d status reason s).wf = true :=
  settleAll_wf (recordDesc_wf (spent_wf (consume_wf (State.updRing_wf (handleWait_wf h)))))

theorem fencePost_wf {j ix : Nat} {d : Bytes} {s : State} (h : s.wf = true) : (fencePost j ix d s).wf = true :=
  ite_wf (ite_wf (fenceWait_wf h) (fenceEnd_wf (ringPut_wf _ _ h))) (fenceEnd_wf h)

theorem fenceTake_wf {j ix : Nat} {d : Bytes} {s : State} (h : s.wf = true) : (fenceTake j ix d s).wf = true := by
  unfold fenceTake
  extract_lets r hb t h1 a bad seq s1
  have hs1 : s1.wf = true := State.setRing_wf _ _ h
  exact ite_wf (ite_wf (fenceWait_wf h) (ite_wf (raise_wf _ (fenceEnd_wf hs1)) (ite_wf (fenceEnd_wf hs1) (fencePost_wf hs1))))
    (fencePost_wf h)

theorem execFence_wf {j : Nat} {s : State} (h : s.wf = true) : OutcomeWf (execFence j s) := by
  unfold execFence
  split
  · exact h
  · refine .ite h ?_
    split
    · exact settleAll_wf (fenceArg_wf h)
    · exact fenceTake_wf h

theorem execFenceResume_wf {j : Nat} {s : State} (h : s.wf = true) : OutcomeWf (execFenceResume j s) := by
  unfold execFenceResume
  split
  · exact h
  · split
    · exact h
    · exact fenceTake_wf h
    · exact fencePost_wf h

/-! #### Machine/Array.lean -/

theorem coreAbort_wf {j ix : Nat} {d : Bytes} {status reason bit : Nat} {code : Option Nat} {addr : Nat} {s : State} (h : s.wf = true) :
    (coreAbort j ix d status reason bit code addr s).wf = true := by
  unfold coreAbort
  extract_lets r s1 s2
  have hs1 : s1.wf = true := setErr_wf _ _ _ _ _ _ (begin_wf h)
  have hs2 : s2.wf = true := finish_wf hs1
  split
  · exact raise_wf _ hs2
  · exact hs2

theorem execDescriptorNop_wf {j : Nat} {s : State} (h : s.wf = true) : OutcomeWf (execDescriptorNop j s) := by
  unfold execDescriptorNop
  split
  · exact h
  · extract_lets r held s1
    have hs1 : s1.wf = true := recordDesc_wf (consume_wf h)
    exact .ite (coreAbort_wf h) (settleAll_wf (State.updRing_wf hs1))

theorem markedAbort_wf {j ix core : Nat} {d : Bytes} {m : Nat × Nat} {s : State} (h : s.wf = true) :
    (markedAbort j ix core d m s).wf = true :=
  ite_wf (coreAbort_wf h) (coreAbort_wf h)

theorem runPass_wf {j ix core : Nat} {d : Bytes} {pl : Plan} {hold : Bool} {s : State} (h : s.wf = true) :
    (runPass j ix core d pl hold s).wf = true := by
  unfold runPass
  split
  next cyc t e =>
    have ht : t.wf = true := by
      split at e
      · cases e; exact h
      · exact snd_wf e (State.fresh_wf h)
    have ht1 : (served j (begin j ix d t)).wf = true := served_wf (begin_wf ht)
    exact ite_wf (finish_wf (foldl_wf (fun _ _ h => bump_wf _ _ _ _ h) (State.updCore_wf rfl ht1))) (State.updCore_wf rfl ht1)

theorem execArrayPassDrainComplete_wf {ring : Nat} {s : State} (h : s.wf = true) : OutcomeWf (execArrayPassDrainComplete ring s) := by
  unfold execArrayPassDrainComplete
  extract_lets r te
  split
  · split
    · refine .ite h ?_
      extract_lets s1 s2 s3 s4 stop lb
      have hs1 : s1.wf = true := foldl_wf (fun _ _ h1 => sramWrite_wf _ _ _ h1) (State.updCore_wf rfl h)
      have hs2 : s2.wf = true := foldl_wf (fun _ _ h1 => bump_wf _ _ _ _ h1) hs1
      have hs3 : s3.wf = true := bump_wf _ _ _ _ hs2
      have hs4 : s4.wf = true := ite_wf hs3 (setErr_wf _ _ _ _ _ _ hs3)
      exact finish_wf hs4
    · exact h
  · exact h

/-! #### Machine/StoreGeom.lean -/

theorem State.setCtl_wf {s : State} {c : Nat} {x : Ctl} (h : s.wf = true) : (s.setCtl c x).wf = true := h

theorem State.updCtl_wf {s : State} {c : Nat} {f : Ctl → Ctl} (h : s.wf = true) : (s.updCtl c f).wf = true := State.setCtl_wf h

/-! #### Machine/Image.lean -/

theorem specImgOpen_wf : SpecWf specImgOpen := by
  refine ⟨fun i p s h => .ite trivial (.ite trivial (.ite trivial (.ite trivial ?_))), fun _ h => h⟩
  split
  · exact trivial
  · exact State.setImage_wf (State.with_wf h)

theorem specImgWrite_wf : SpecWf specImgWrite := by
  refine ⟨fun i p s h => ?_, fun _ h => h⟩
  unfold specImgWrite
  dsimp -zeta only
  extract_lets h1 kind off src len
  split
  · exact trivial
  · exact .ite trivial (.ite trivial (.ite trivial (.ite trivial (.ite trivial (.ite trivial (.ite trivial (State.setImage_wf h)))))))

theorem writeEnd_wf {h : Nat} {w : ImgWrite} {status detail : Nat} {s : State} (hw : s.wf = true) :
    (writeEnd h w status detail s).wf = true := by
  unfold writeEnd
  extract_lets s1
  have hs1 : s1.wf = true := by
    unfold s1
    split
    · exact State.setImage_wf hw
    · exact hw
  exact finishOp_wf _ _ _ _ _ hs1

theorem imgFault_wf {x : ImgWrite} {s : State} (h : s.wf = true) : (imgFault x s).wf = true := raise_wf _ h

theorem imgHostFault_wf {img w : Nat} {s : State} (h : s.wf = true) : (imgHostFault img w s).wf = true := by
  unfold imgHostFault
  split
  · exact h
  · split
    · exact ite_wf (imgFault_wf (writeEnd_wf h)) h
    · exact h

theorem execImgChunkProgrammed_wf {img w : Nat} {s : State} (h : s.wf = true) : OutcomeWf (execImgChunkProgrammed img w s) := by
  unfold execImgChunkProgrammed
  split
  · exact h
  · split
    · exact h
    · extract_lets i n s0 _ x'
      refine .ite h (.ite (writeEnd_wf h) (.ite (imgFault_wf (writeEnd_wf h)) ?_))
      split
      · exact h
      · split
        · exact writeEnd_wf h
        · extract_lets s1 s2 s3 s4
          have hs1 : s1.wf = true := State.storeWrite_wf h
          have hs2 : s2.wf = true := ite_wf (hbmTaken_wf hs1) hs1
          have hs3 : s3.wf = true := State.setImage_wf hs2
          have hs4 : s4.wf = true := ite_wf (consumedTo_wf hs3) hs3
          exact .ite (writeEnd_wf hs4) hs4

theorem specImgClose_wf : SpecWf specImgClose := by
  refine ⟨fun i p s h => ?_, fun _ h => h⟩
  unfold specImgClose
  dsimp -zeta only
  extract_lets h1
  split
  · exact trivial
  · exact .ite trivial (.ite trivial (State.setImage_wf h))

theorem execImgVerifyComplete_wf {img : Nat} {s : State} (h : s.wf = true) : OutcomeWf (execImgVerifyComplete img s) := by
  unfold execImgVerifyComplete
  split
  · exact h
  · refine .ite h ?_
    extract_lets owner
    split
    · exact finishOp_wf _ _ _ _ _ (State.setImage_wf h)
    · extract_lets s1
      have hs1 : s1.wf = true := finishOp_wf _ _ _ _ _ (State.setImage_wf h)
      exact .ite (raise_wf _ hs1) hs1

theorem specImgActivate_wf : SpecWf specImgActivate := by
  refine ⟨fun i p s h => ?_, fun _ h => h⟩
  unfold specImgActivate
  dsimp -zeta only
  extract_lets h1 on
  split
  · exact trivial
  · refine .ite trivial (.ite (.ite trivial (.ite trivial ?_)) (.ite trivial (.ite trivial (State.setImage_wf h))))
    split
    · exact trivial
    · exact State.setImage_wf h

theorem specImgDelete_wf : SpecWf specImgDelete := by
  refine ⟨fun i p s h => ?_, fun _ h => h⟩
  unfold specImgDelete
  dsimp -zeta only
  extract_lets h1
  split
  · exact trivial
  · exact .ite trivial (.ite trivial (.ite trivial (State.setImage_wf h)))

theorem execImgDeleteComplete_wf {img : Nat} {s : State} (h : s.wf = true) : OutcomeWf (execImgDeleteComplete img s) := by
  unfold execImgDeleteComplete
  split
  · exact h
  · exact .ite h (finishOp_wf _ _ _ _ _ (State.with_wf (State.storeClear_wf h)))

theorem specImgQuery_wf : SpecWf specImgQuery := by
  refine ⟨fun i p s h => ?_, fun _ h => h⟩
  unfold specImgQuery
  dsimp -zeta only
  extract_lets h1
  split
  · exact trivial
  · exact h

/-! #### Machine/Lens.lean -/

theorem State.setLensTask_wf {s : State} {j : Nat} {x : LensTask} (h : s.wf = true) : (s.setLensTask j x).wf = true := h

theorem lensWrite_wf {lens space core addr : Nat} {bs : Bytes} {s : State} (h : s.wf = true) :
    (lensWrite lens space core addr bs s).wf = true := by
  refine ite_wf (hbmWrite_wf _ _ h) ?_
  split
  · exact sramWrite_wf _ _ _ h
  · exact h

theorem lensEnd_wf {j status reason : Nat} {s : State} (h : s.wf = true) : (lensEnd j status reason s).wf = true := by
  unfold lensEnd
  extract_lets r t
  split
  · split
    rename_i e
    have ht := snd_wf e (State.fresh_wf h)
    extract_lets s1
    have hs1 : s1.wf = true := State.setLensTask_wf ht
    exact finish_wf hs1
  · exact h

theorem lensNote_wf {lens ctx ring index : Nat} {g : LRange} {s : State} (h : s.wf = true) : (lensNote lens ctx ring index g s).wf = true :=
  raise_wf _ (setErr_wf _ _ _ _ _ _ h)

theorem lensMarked_wf {j : Nat} {g : LRange} {s : State} (h : s.wf = true) : (lensMarked j g s).wf = true := lensEnd_wf (lensNote_wf h)

theorem lensLast_wf {lens valid flags : Nat} {s : State} (h : s.wf = true) : (lensLast lens valid flags s).wf = true := State.updUnit_wf h

theorem lensCounts_wf {lens : Nat} {cs : List (Nat × Nat)} {s : State} (h : s.wf = true) : (lensCounts lens cs s).wf = true :=
  foldl_wf (fun _ _ h1 => ite_wf h1 (bump_wf _ _ _ _ h1)) h

theorem lensRowDone_wf {j : Nat} {w : LRow} {bytes : Nat} {s : State} (h : s.wf = true) : (lensRowDone j w bytes s).wf = true := by
  unfold lensRowDone
  extract_lets r t
  split
  · extract_lets d k s1 s2
    have hs1 : s1.wf = true := State.setLensTask_wf h
    have hs2 : s2.wf = true := State.setRing_wf _ _ hs1
    exact lensCounts_wf (lensLast_wf hs2)
  · exact h

theorem lensStep_wf {j : Nat} {s : State} (h : s.wf = true) : (lensStep j s).wf = true := by
  unfold lensStep
  extract_lets r lens
  split
  · extract_lets d segs s1 xs w _ s2 s3
    have hs1 : s1.wf = true := foldl_wf (fun _ _ h1 => ite_wf (hbmTaken_wf h1) h1) h
    have hs2 : s2.wf = true := lensWrite_wf hs1
    have hs3 : s3.wf = true := by
      unfold s3
      refine ite_wf ?_ hs2
      split
      rename_i e
      have ht := snd_wf e (freshBytes_wf hs2)
      exact lensWrite_wf ht
    split
    · exact lensMarked_wf h
    · exact ite_wf (lensMarked_wf hs1) (ite_wf (State.setLensTask_wf hs1) (lensRowDone_wf hs3))
  · exact h

theorem lensRun_wf {j n : Nat} {s : State} (h : s.wf = true) : (lensRun j n s).wf = true := by
  induction n generalizing s with
  | zero => exact h
  | succ n ih =>
    unfold lensRun
    split
    · refine ite_wf h (ite_wf (ih (State.setLensTask_wf h)) ?_)
      extract_lets s1
      have hs1 : s1.wf = true := lensStep_wf h
      split
      · exact ite_wf (lensEnd_wf hs1) (ih hs1)
      · exact hs1
    · exact h

theorem lensSuspend_wf {lens cls : Nat} {s : State} (h : s.wf = true) : (lensSuspend lens cls s).wf = true :=
  foldl_wf (fun _ _ h1 => ite_wf (bump_wf _ _ _ _ (State.setLensTask_wf h1)) h1) h

theorem lensServed_wf {j cls : Nat} {s : State} (h : s.wf = true) : (lensServed j cls s).wf = true := State.updUnit_wf h

theorem lensTake_wf {j op n : Nat} {s : State} (h : s.wf = true) : (lensTake j op n s).wf = true := by
  unfold lensTake
  split
  · exact h
  · extract_lets r s1 s2
    have hs1 : s1.wf = true := lensServed_wf (begin_wf (lensSuspend_wf h))
    have hs2 : s2.wf = true := State.setLensTask_wf hs1
    refine ite_wf h ?_
    split
    · exact failArg_wf h
    · exact ite_wf (lensMarked_wf hs2) (lensRun_wf hs2)

/-! #### Machine/Target.lean -/

theorem prismSend_wf {ch n kind v : Nat} {bs : Bytes} {s : State} (h : s.wf = true) : (prismSend ch n kind v bs s).wf = true :=
  sendGroup_wf h

theorem crdSend_wf {key : Nat} {s : State} (h : s.wf = true) : (crdSend key s).wf = true := by
  unfold crdSend
  extract_lets p s1
  have hs1 : s1.wf = true := bump_wf _ _ _ _ (bump_wf _ _ _ _ h)
  exact ite_wf h (ite_wf (State.setPring_wf hs1) (prismSend_wf (State.setPring_wf hs1)))

theorem releaseHead_wf {key : Nat} {s : State} (h : s.wf = true) : (releaseHead key s).wf = true := by
  unfold releaseHead
  extract_lets ch p p' s1 s2
  have hs1 : s1.wf = true := State.setPring_wf h
  have hs2 : s2.wf = true := State.setPring_wf h
  exact ite_wf (ite_wf hs1 (prismSend_wf hs1)) (ite_wf (crdSend_wf hs2) hs2)

theorem setTaken_wf {inst port : Nat} {on : Bool} {s : State} (h : s.wf = true) : (setTaken inst port on s).wf = true :=
  State.updCore_wf rfl h

theorem popPort_wf {inst port key : Nat} {s : State} (h : s.wf = true) : (popPort inst port key s).wf = true :=
  bump_wf _ _ _ _ (setTaken_wf (releaseHead_wf h))

/-! #### Machine/Prism.lean -/

theorem prismEnd_wf {j status reason rows start lb : Nat} {s : State} (h : s.wf = true) :
    (prismEnd j status reason rows start lb s).wf = true := by
  unfold prismEnd
  split
  · exact finish_wf h
  · exact h

theorem rowsGo_wf {j n : Nat} {s : State} (h : s.wf = true) : (rowsGo j n s).wf = true := by
  induction n generalizing s with
  | zero => exact h
  | succ n ih =>
    unfold rowsGo
    extract_lets r ch
    split
    · exact h
    · extract_lets d l p
      exact ite_wf (prismEnd_wf (State.updChan_wf h)) (ite_wf (ih (State.setRing_wf _ _ h)) (ite_wf h (ih (State.setRing_wf _ _
        (State.setPring_wf h)))))

theorem prismFail_wf {j ix : Nat} {d : Bytes} {status n : Nat} {s : State} (h : s.wf = true) : (prismFail j ix d status n s).wf = true :=
  ite_wf (failCheck_wf (setErr_wf _ _ _ _ _ _ h)) (failArg_wf (setErr_wf _ _ _ _ _ _ h))

theorem prismMarked_wf {j ix : Nat} {d : Bytes} {space addr : Nat} {s : State} (h : s.wf = true) :
    (prismMarked j ix d space addr s).wf = true :=
  raise_wf _ (prismEnd_wf (begin_wf h))

theorem execPrismRows_wf {ring : Nat} {s : State} (h : s.wf = true) : OutcomeWf (execPrismRows ring s) := by
  unfold execPrismRows
  split
  · exact h
  · split
    · exact prismFail_wf h
    · exact .ite (prismMarked_wf h) (rowsGo_wf (hbmTaken_wf (served_wf (begin_wf h))))

theorem fly_wf {ch ring seq pos : Nat} {bs : Bytes} {s : State} (h : s.wf = true) : (fly ch ring seq pos bs s).wf = true :=
  bump_wf _ _ _ _ (State.updChan_wf h)

theorem tapGo_wf {j n : Nat} {s : State} (h : s.wf = true) : (tapGo j n s).wf = true := by
  induction n generalizing s with
  | zero => exact h
  | succ n ih =>
    unfold tapGo
    extract_lets r ch
    split
    · exact h
    · extract_lets d p t flags bs s1 s2
      have hs1 : s1.wf = true := ite_wf (State.setPring_wf h) h
      have hs2 : s2.wf = true := bump_wf _ _ _ _ (fly_wf hs1)
      exact ite_wf (prismEnd_wf h) (ite_wf h (ih (State.setRing_wf _ _ hs2)))

theorem execPrismTap_wf {ring : Nat} {s : State} (h : s.wf = true) : OutcomeWf (execPrismTap ring s) := by
  unfold execPrismTap
  split
  · exact h
  · split
    · exact prismFail_wf h
    · extract_lets p
      refine .ite (prismMarked_wf h) ?_
      split
      · exact prismMarked_wf h
      · exact tapGo_wf (served_wf (begin_wf h))

theorem prismGo_wf {ch : Nat} {s : State} (h : s.wf = true) : (prismGo ch s).wf = true := by
  refine foldl_wf (fun s1 x1 h1 => ?_) h
  split
  · exact ite_wf h1 (ite_wf (rowsGo_wf h1) (ite_wf (tapGo_wf h1) h1))
  · exact h1

theorem openAsk_wf {ch : Nat} {o : BlkOpen} {s : State} (h : s.wf = true) : (openAsk ch o s).wf = true :=
  ite_wf (State.updChan_wf h) (prismSend_wf (State.updChan_wf h))

theorem openDone_wf {ch : Nat} {o : BlkOpen} {start : Nat} {s : State} (h : s.wf = true) : (openDone ch o start s).wf = true :=
  ite_wf h (ite_wf (prismEnd_wf h) (prismSend_wf h))

theorem execPrismBlockOpen_wf {ring : Nat} {s : State} (h : s.wf = true) : OutcomeWf (execPrismBlockOpen ring s) := by
  unfold execPrismBlockOpen
  split
  · exact h
  · extract_lets n p fail
    have hfail : ∀ st1, (fail st1).wf = true := fun _ => prismFail_wf h
    exact .ite h (.ite (hfail _) (.ite (hfail _) (.ite (hfail _) (.ite (hfail _) (openAsk_wf (served_wf (begin_wf h)))))))

theorem execBlockGrant_wf {chan ring : Nat} {s : State} (h : s.wf = true) : OutcomeWf (execBlockGrant chan ring s) := by
  unfold execBlockGrant
  split
  · exact h
  · refine .ite h ?_
    extract_lets s1 s2
    have hs1 : s1.wf = true := State.setPring_wf h
    have hs2 : s2.wf = true := State.updChan_wf hs1
    exact openDone_wf hs2

theorem placeRecord_wf {ch n i : Nat} {bs : Bytes} {s : State} (h : s.wf = true) : (placeRecord ch n i bs s).wf = true :=
  State.updPring_wf (sramWrite_wf _ _ _ h)

theorem endBlock_wf {ch n seq : Nat} {s : State} (h : s.wf = true) : (endBlock ch n seq s).wf = true := by
  unfold endBlock
  extract_lets p gone
  have hgone : ∀ s1, s1.wf = true → (gone s1).wf = true := fun _ h1 => State.updPring_wf h1
  refine ite_wf (prismSend_wf (hgone _ h)) ?_
  split
  · exact h
  · extract_lets todo s1
    have hs1 : s1.wf = true := foldl_wf (fun _ _ h1 => placeRecord_wf h1) h
    exact hgone _ (ite_wf hs1 (bump_wf _ _ _ _ hs1))

theorem execPrismBlockEnd_wf {ring : Nat} {s : State} (h : s.wf = true) : OutcomeWf (execPrismBlockEnd ring s) := by
  unfold execPrismBlockEnd
  split
  · exact h
  · extract_lets n here s1
    have hs1 : s1.wf = true := endBlock_wf (served_wf (begin_wf h))
    exact .ite h (.ite (prismFail_wf h) (ite_wf (prismEnd_wf hs1) hs1))

theorem unreserve_wf {ch addr i n : Nat} {s : State} (h : s.wf = true) : (unreserve ch addr i n s).wf = true :=
  foldl_wf (fun _ _ h1 => State.updPring_wf h1) h

theorem pringReset_wf {ch n reason : Nat} {s : State} (h : s.wf = true) : (pringReset ch n reason s).wf = true := by
  unfold pringReset
  extract_lets p gone s1 s2 s3 dropped s4 s5 s6
  have hs1 : s1.wf = true := by
    unfold s1
    refine foldl_wf (fun s7 x1 h1 => ?_) h
    split
    · exact ite_wf (lensEnd_wf (setErr_wf _ _ _ _ _ _ h1)) h1
    · exact h1
  have hs2 : s2.wf = true := foldl_wf (fun _ _ h1 => bump_wf _ _ _ _ (ite_wf (unreserve_wf h1) h1)) hs1
  have hs3 : s3.wf = true := by
    unfold s3
    refine foldl_wf (fun s7 x1 h1 => ?_) hs2
    split
    · refine ite_wf ?_ h1
      extract_lets a
      have ha : a.wf = true := ite_wf (unreserve_wf h1) h1
      exact prismEnd_wf ha
    · exact h1
  have hs4 : s4.wf = true := ite_wf hs3 (bump_wf _ _ _ _ hs3)
  have hs5 : s5.wf = true := State.updChan_wf hs4
  have hs6 : s6.wf = true := ite_wf (setTaken_wf hs5) hs5
  exact ite_wf h (setErr_wf _ _ _ _ _ _ (State.updPring_wf hs6))

theorem pringNotice_wf {c : Nat} {s : State} (h : s.wf = true) : (pringNotice c s).wf = true := by
  unfold pringNotice
  split
  rename_i e
  have ht := snd_wf e (State.fresh_wf h)
  exact notify_wf _ _ _ ht

theorem arriveRecord_wf {ch : Nat} {f : Flight} {s : State} (h : s.wf = true) : (arriveRecord ch f s).wf = true := by
  unfold arriveRecord
  extract_lets p stray land
  have hstray : ∀ s1, s1.wf = true → (stray s1).wf = true := fun _ h1 => setErr_wf _ _ _ _ _ _ (bump_wf _ _ _ _ h1)
  have hland : ∀ i1 s1, s1.wf = true → (land i1 s1).wf = true := fun _ _ h1 => bump_wf _ _ _ _ (placeRecord_wf h1)
  refine ite_wf (bump_wf _ _ _ _ h) (ite_wf (State.updPring_wf (hland _ _ h)) ?_)
  split
  · exact hstray _ h
  · extract_lets i
    exact ite_wf (hstray _ h) (hland _ _ h)

theorem sendRecord_wf {ch : Nat} {f : Flight} {s : State} (h : s.wf = true) : (sendRecord ch f s).wf = true :=
  foldl_wf (fun _ _ h1 => prismSend_wf h1) h

theorem execPrismRecordLand_wf {chan : Nat} {s : State} (h : s.wf = true) : OutcomeWf (execPrismRecordLand chan s) := by
  unfold execPrismRecordLand
  extract_lets hs
  split
  · exact h
  · split
    · exact h
    · refine .ite h ?_
      extract_lets s1
      have hs1 : s1.wf = true := State.updChan_wf h
      exact .ite (arriveRecord_wf hs1) (sendRecord_wf hs1)

theorem creditBack_wf {key n : Nat} {s : State} (h : s.wf = true) : (creditBack key n s).wf = true :=
  ite_wf h (prismGo_wf (State.setPring_wf h))

theorem landChunk_wf {ch n : Nat} {bs : Bytes} {s : State} (h : s.wf = true) : (landChunk ch n bs s).wf = true :=
  State.setPring_wf (hbmWrite_wf _ _ h)

theorem prismPeer_wf {src w : Nat} {b : Bytes} {s : State} (h : s.wf = true) : (prismPeer src w b s).wf = true := by
  refine ite_wf h ?_
  split
  · exact ite_wf h (ite_wf (State.setPring_wf h) (arriveRecord_wf (State.setPring_wf h)))
  · exact ite_wf h (landChunk_wf h)
  · exact creditBack_wf h
  · exact ite_wf h (State.updChan_wf h)
  · split
    · exact endBlock_wf h
    · exact openDone_wf (State.setPring_wf (State.updChan_wf h))
  · exact prismSend_wf (endBlock_wf h)
  · split
    · exact prismEnd_wf h
    · exact h
  · exact h

/-! #### Machine/Job.lean -/

theorem State.updUpd_wf {s : State} {u : Nat} {f : Upd → Upd} (h : s.wf = true) : (s.updUpd u f).wf = true := State.setUpd_wf h

theorem loadStep_wf {b : Bytes} {s : State} (h : s.wf = true) : (loadStep b s).wf = true := State.setUpd_wf (State.setUpd_wf h)

theorem ledgerOpen_wf {j : Job} {attempt : Nat} {s : State} (h : s.wf = true) : (ledgerOpen j attempt s).wf = true :=
  ite_wf h (hbmWrite_wf _ _ h)

theorem ledgerPut_wf {j : Job} {attempt off : Nat} {bs : Bytes} {s : State} (h : s.wf = true) : (ledgerPut j attempt off bs s).wf = true :=
  ite_wf h (hbmWrite_wf _ _ (ledgerOpen_wf h))

theorem updCut_wf {reason : Nat} {s : State} (h : s.wf = true) : (updCut reason s).wf = true := by
  refine foldl_wf (fun s1 x1 h1 => ?_) h
  split
  · exact ite_wf (State.updUpd_wf (finish_wf h1)) h1
  · exact h1

theorem resetJobRings_wf {h reason : Nat} {s : State} (hw : s.wf = true) : (resetJobRings h reason s).wf = true := by
  unfold resetJobRings
  split
  · exact hw
  · exact ite_wf (pringNotice_wf (foldl_wf (fun _ _ h1 => pringReset_wf h1) hw)) hw

theorem State.setCkpt_wf {s : State} {n : Nat} {x : Ckpt} (h : s.wf = true) : (s.setCkpt n x).wf = true := h

theorem mirErr_wf {bit job dev attempt : Nat} {s : State} (h : s.wf = true) : (mirErr bit job dev attempt s).wf = true :=
  State.updUnit_wf (ite_wf h h)

theorem ckptFail_wf {n status : Nat} {s : State} (h : s.wf = true) : (ckptFail n status s).wf = true := by
  unfold ckptFail
  extract_lets k s1
  have hs1 : s1.wf = true := mirErr_wf (State.setCkpt_wf h)
  refine ite_wf ?_ h
  split
  · exact finishOp_wf _ _ _ _ _ hs1
  · exact hs1

theorem ckptsFail_wf {h : Nat} {s : State} (hw : s.wf = true) : (ckptsFail h s).wf = true := foldl_wf (fun _ _ h1 => ckptFail_wf h1) hw

theorem jobAbort_wf {h : Nat} {s : State} (hw : s.wf = true) : (jobAbort h s).wf = true := by
  unfold jobAbort
  split
  · exact hw
  · extract_lets s1 s2 s3
    have hs1 : s1.wf = true := State.setJob_wf hw
    have hs2 : s2.wf = true := State.with_wf hs1
    have hs3 : s3.wf = true := ite_wf (updCut_wf (State.updUpd_wf (State.updUpd_wf hs2))) hs2
    exact ckptsFail_wf (resetJobRings_wf hs3)

theorem jobStopEnd_wf {h : Nat} {s : State} (hw : s.wf = true) : (jobStopEnd h s).wf = true := by
  unfold jobStopEnd
  split
  · exact hw
  · refine ite_wf ?_ hw
    extract_lets step status s1
    have hs1 : s1.wf = true := ite_wf hw (State.setJob_wf hw)
    split
    · exact finishOp_wf _ _ _ _ _ hs1
    · exact hs1

theorem jobStopGo_wf {h : Nat} {s : State} (hw : s.wf = true) : (jobStopGo h s).wf = true := by
  unfold jobStopGo
  split
  · exact hw
  · exact ite_wf (jobStopEnd_wf (resetJobRings_wf (ite_wf (updCut_wf hw) hw))) hw

theorem inconsistent_wf {u c ring ix : Nat} {s : State} (h : s.wf = true) : (inconsistent u c ring ix s).wf = true := raise_wf _ h

theorem specJobCreate_wf : SpecWf specJobCreate := by
  refine ⟨fun i p s h => .ite trivial (.ite trivial ?_), fun _ h => h⟩
  split
  · exact trivial
  · split
    · exact trivial
    · split
      · exact trivial
      · extract_lets a resume
        refine .ite (raise_wf _ h) ?_
        split
        · exact trivial
        · split
          · exact trivial
          · exact State.setJob_wf h

theorem bindOne_wf {h : Nat} {j : Job} {b : Bytes} {at_ : Nat} {s : State} (hw : s.wf = true) : BindWf (bindOne h j b at_ s) := by
  unfold bindOne
  split
  · exact trivial
  · exact .ite trivial <| .ite trivial <| .ite trivial <| .ite trivial <| .ite trivial <| .ite trivial <| .ite trivial <| .ite trivial <|
      .ite trivial <| .ite trivial <| .ite trivial <| .ite trivial (State.setPring_wf hw)

theorem bindAll_wf {h : Nat} {j : Job} {l : List Bytes} {n : Nat} {s : State} (hw : s.wf = true) : BindWf (bindAll h j l n s) := by
  induction l generalizing n s with
  | nil => exact hw
  | cons b l ih =>
    unfold bindAll
    split
    · exact trivial
    · next e => exact ih (BindWf.of_eq e (bindOne_wf hw))

theorem freshStep_wf {j : Job} {s : State} (h : s.wf = true) : (freshStep j s).wf = true := State.setUpd_wf (State.setUpd_wf h)

theorem specJobStart_wf : SpecWf specJobStart := by
  refine ⟨fun i p s h => ?_, fun _ h => h⟩
  unfold specJobStart
  dsimp -zeta only
  extract_lets hd
  split
  · exact trivial
  · refine .ite trivial ?_
    split
    · exact trivial
    · next e =>
      have ht := BindWf.of_eq e (bindAll_wf h)
      extract_lets first blk t t'
      refine .ite (raise_wf _ h) ?_
      split
      · exact trivial
      · have ht1 : t.wf = true := ite_wf ht (ite_wf (loadStep_wf ht) (freshStep_wf ht))
        have ht2 : t'.wf = true := State.setJob_wf ht1
        exact ite_wf (State.with_wf ht2) ht2

theorem specJobStop_wf : SpecWf specJobStop := by
  refine ⟨fun i p s h => ?_, fun s h => foldl_wf (fun _ _ h => ite_wf (jobStopGo_wf h) h) h⟩
  unfold specJobStop
  dsimp -zeta only
  extract_lets hd del
  split
  · exact trivial
  · exact .ite (State.setJob_wf h) (.ite trivial (.ite h (State.setJob_wf h)))

theorem execJobStopWindowTimeout_wf {job : Nat} {s : State} (h : s.wf = true) : OutcomeWf (execJobStopWindowTimeout job s) := by
  unfold execJobStopWindowTimeout
  split
  · exact h
  · refine .ite h ?_
    extract_lets s1 att step s2 s3
    have hs1 : s1.wf = true := atLeast_wf _ h
    have hs2 : s2.wf = true := inconsistent_wf (inconsistent_wf (setErr_wf _ _ _ _ _ _ (setErr_wf _ _ _ _ _ _ hs1)))
    have hs3 : s3.wf = true := jobAbort_wf (State.setJob_wf hs2)
    split
    · exact finishOp_wf _ _ _ _ _ hs3
    · exact hs3

theorem specJobQuery_wf : SpecWf specJobQuery := by
  refine ⟨fun i p s h => ?_, fun _ h => h⟩
  unfold specJobQuery
  dsimp -zeta only
  split
  · exact trivial
  · exact h

theorem specJobLedgerRead_wf : SpecWf specJobLedgerRead := by
  refine ⟨fun i p s h => ?_, fun _ h => h⟩
  unfold specJobLedgerRead
  dsimp -zeta only
  split
  · exact trivial
  · refine .ite trivial (.ite trivial ?_)
    extract_lets at_
    split
    · exact raise_wf _ h
    · exact h

/-! #### Machine/Ckpt.lean -/

theorem ckptStart_wf {h level : Nat} {regs : List Region} {bind : Nat} {op : Option (Nat × Nat)} {snap : Bool} {s : State}
    (hw : s.wf = true) : (ckptStart h level regs bind op snap s).wf = true := by
  unfold ckptStart
  split
  · exact hw
  · exact State.setCkpt_wf hw

theorem readRegions_wf {test : Region → Bool} {l : List (Region × Bytes × Option Bytes)} {s : State} (h : s.wf = true) :
    (readRegions test l s).2.2.wf = true := by
  induction l generalizing s with
  | nil => exact h
  | cons x l ih =>
    unfold readRegions
    split
    · exact ih h
    · extract_lets now_
      split
      next t e =>
        refine ih (hbmTaken_wf ?_)
        split at e
        · cases e; exact h
        · exact snd_wf e (freshBytes_wf h)

theorem ckptRead_wf {n : Nat} {test : Region → Bool} {s : State} (h : s.wf = true) : (ckptRead n test s).wf = true := by
  unfold ckptRead
  extract_lets k want
  split
  · exact raise_wf _ (ckptFail_wf h)
  · split
    rename_i e
    have ht := snd_snd_wf e (readRegions_wf h)
    exact State.setCkpt_wf ht

theorem ckptSpoil_wf {n : Nat} {s : State} (h : s.wf = true) : (ckptSpoil n s).wf = true := by
  unfold ckptSpoil
  refine ite_wf h ?_
  split
  rename_i e
  have ht := snd_wf e (freshBytes_wf h)
  extract_lets parts
  exact State.setCkpt_wf ht

theorem ckptBefore_wf {runs : List (Nat × Nat)} {s : State} (h : s.wf = true) : (ckptBefore runs s).wf = true :=
  foldl_wf (fun _ _ h1 => ckptRead_wf h1) (ite_wf (spent_wf h) h)

theorem autoL1_wf {h : Nat} {s : State} (hw : s.wf = true) : (autoL1 h s).wf = true := by
  unfold autoL1
  split
  · exact ite_wf (bump_wf _ _ _ _ (ckptStart_wf hw)) hw
  · exact hw

theorem snapGo_wf {s : State} (h : s.wf = true) : (snapGo s).wf = true := by
  unfold snapGo
  split
  · exact ite_wf (ckptStart_wf h) h
  · exact h

/-! #### Machine/Update.lean -/

theorem updEnd_wf {j status reason op nf elements lb : Nat} {s : State} (h : s.wf = true) :
    (updEnd j status reason op nf elements lb s).wf = true := by
  refine ite_wf (finish_wf h) ?_
  split
  rename_i e
  have ht := snd_wf e (State.fresh_wf h)
  exact finish_wf ht

theorem updUnreadable_wf {j u : Nat} {run : Nat × Nat} {s : State} (h : s.wf = true) : (updUnreadable j u run s).wf = true :=
  raise_wf _ (setErr_wf _ _ _ _ _ _ h)

theorem updMarked_wf {j u op : Nat} {run : Nat × Nat} {s : State} (h : s.wf = true) : (updMarked j u op run s).wf = true :=
  updEnd_wf (updUnreadable_wf h)

theorem exchangeLost_wf {j u status reason : Nat} {s : State} (h : s.wf = true) : (exchangeLost j u status reason s).wf = true :=
  updEnd_wf (State.updUpd_wf h)

theorem updInconsistent_wf {j u h reason op : Nat} {s : State} (hw : s.wf = true) : (updInconsistent j u h reason op s).wf = true :=
  inconsistent_wf (jobAbort_wf (setErr_wf _ _ _ _ _ _ (updEnd_wf hw)))

theorem replayBad_wf {j ix : Nat} {d : Bytes} {h : Nat} {s : State} (hw : s.wf = true) : (replayBad j ix d h s).wf = true :=
  jobAbort_wf (mirErr_wf (failCheck_wf hw))

theorem closeWindow_wf {u h : Nat} {job : Job} {s : State} (hw : s.wf = true) : (closeWindow u h job s).wf = true := by
  unfold closeWindow
  extract_lets att _ s1 _ s2 s3 _ s4
  have hs1 : s1.wf = true := ledgerPut_wf (State.setUpd_wf hw)
  have hs2 : s2.wf = true := State.with_wf hs1
  have hs3 : s3.wf = true := ite_wf (hbmWrite_wf _ _ hs2) hs2
  have hs4 : s4.wf = true := State.with_wf hs3
  exact ite_wf hs1 (jobStopGo_wf (autoL1_wf (snapGo_wf hs4)))

theorem windowGo_wf {s : State} (h : s.wf = true) : (windowGo s).wf = true := by
  unfold windowGo
  split
  · exact h
  · exact foldl_wf (fun _ _ h1 => ite_wf (closeWindow_wf h1) h1) h

theorem windowAfter_wf {ty : Nat} {s : State} (h : s.wf = true) : (windowAfter ty s).wf = true := ite_wf (windowGo_wf h) h

theorem noteScale_wf {u : Nat} {d : Bytes} {s : State} (h : s.wf = true) : (noteScale u d s).wf = true := State.updUpd_wf h

theorem scanLocal_wf {u : Nat} {d : Bytes} {xs : List Nat} {s : State} (h : s.wf = true) : (scanLocal u d xs s).wf = true :=
  State.updUpd_wf (ite_wf (bump_wf _ _ _ _ h) (bump_wf _ _ _ _ (bump_wf _ _ _ _ h)))

theorem scanReduced_wf {u : Nat} {d : Bytes} {job : Job} {first : Nat} {xs : List Nat} {s : State} (h : s.wf = true) :
    (scanReduced u d job first xs s).wf = true :=
  State.updUpd_wf (ite_wf (ite_wf h (bump_wf _ _ _ _ h)) (bump_wf _ _ _ _ (ite_wf h (bump_wf _ _ _ _ h))))

theorem deltaOver_wf {h : Nat} {p : Prot} {s : State} (hw : s.wf = true) : (deltaOver h p s).wf = true := mirErr_wf hw

theorem toBuddy_wf {kind h : Nat} {p : Prot} {bs : Bytes} {s : State} (hw : s.wf = true) : (toBuddy kind h p bs s).wf = true :=
  ite_wf (sendStriped_wf hw) (sendGroup_wf hw)

theorem deltaAdd_wf {h : Nat} {e : DeltaEnt} {s : State} (hw : s.wf = true) : (deltaAdd h e s).wf = true := by
  unfold deltaAdd
  split
  · exact hw
  · refine ite_wf hw ?_
    extract_lets _ x _ s1
    have hs1 : s1.wf = true := bump_wf _ _ _ _ hw
    exact ite_wf (deltaOver_wf hw) (toBuddy_wf hs1)

theorem exchangeEnd_wf {j u h : Nat} {job : Job} {others : List Bytes} {s : State} (hw : s.wf = true) :
    (exchangeEnd j u h job others s).wf = true := by
  unfold exchangeEnd
  split
  · exact hw
  · extract_lets d n red ms r local_ all out
    split
    extract_lets own bs s1 s2 s3 s4
    have hs1 : s1.wf = true := ite_wf hw (hbmWrite_wf _ _ hw)
    have hs2 : s2.wf = true := scanReduced_wf hs1
    have hs3 : s3.wf = true := deltaAdd_wf hs2
    have hs4 : s4.wf = true := State.updUpd_wf hs3
    exact updEnd_wf hs4

theorem exchangeGo_wf {j u h : Nat} {job : Job} {others : Option (List Bytes)} {s : State} (hw : s.wf = true) :
    (exchangeGo j u h job others s).wf = true := by
  refine ite_wf (exchangeLost_wf hw) (ite_wf (exchangeEnd_wf hw) (ite_wf hw ?_))
  split
  · exact ite_wf (exchangeEnd_wf hw) (exchangeLost_wf hw)
  · exact hw

theorem exchangeReplay_wf {j ix h : Nat} {d : Bytes} {w : Replay} {s : State} (hw : s.wf = true) :
    (exchangeReplay j ix h d w s).wf = true := by
  unfold exchangeReplay
  split
  · split
    · exact updEnd_wf (hbmWrite_wf _ _ (served_wf (begin_wf hw)))
    · exact replayBad_wf hw
  · exact replayBad_wf hw

theorem execUpdExchange_wf {ring : Nat} {others : Option (List (List Byte))} {s : State} (h : s.wf = true) :
    OutcomeWf (execUpdExchange ring others s) := by
  unfold execUpdExchange
  split
  · exact .ite (exchangeGo_wf h) h
  · split
    · exact h
    · split
      · exact windowGo_wf (failArg_wf h)
      · split
        · exact exchangeReplay_wf h
        · extract_lets n s1
          have hs1 : s1.wf = true := hbmTaken_wf (noteScale_wf (served_wf (begin_wf h)))
          exact .ite (updMarked_wf (State.updUpd_wf hs1)) (exchangeGo_wf (scanLocal_wf hs1))

theorem commitSend_wf {job : Job} {s : State} (h : s.wf = true) : (commitSend job s).wf = true :=
  ledgerPut_wf (State.updUpd_wf (State.updUpd_wf h))

theorem logSlot_wf {p : Prot} {job : Job} {s : State} (h : s.wf = true) : (logSlot p job s).wf = true := by
  unfold logSlot
  extract_lets att a old bad slot s1 log
  have hs1 : s1.wf = true := hbmWrite_wf _ _ h
  exact bump_wf _ _ _ _ (State.with_wf hs1)

theorem deltaSend_wf {h : Nat} {p : Prot} {s : State} (hw : s.wf = true) : (deltaSend h p s).wf = true := by
  unfold deltaSend
  extract_lets _ x s1 s2
  have hs1 : s1.wf = true := bump_wf _ _ _ _ (bump_wf _ _ _ _ hw)
  have hs2 : s2.wf = true := toBuddy_wf (toBuddy_wf hs1)
  exact ite_wf (deltaOver_wf hw) (State.with_wf hs2)

theorem retainDone_wf {s : State} (h : s.wf = true) : (retainDone s).wf = true := by
  unfold retainDone
  split
  · exact bump_wf _ _ _ _ h
  · exact h

theorem commitGo_wf {h : Nat} {job : Job} {s : State} (hw : s.wf = true) : (commitGo h job s).wf = true := by
  refine ite_wf hw ?_
  split
  · exact commitSend_wf hw
  · refine ite_wf (commitSend_wf (logSlot_wf hw)) (ite_wf (ite_wf (commitSend_wf hw) hw) (ite_wf (autoL1_wf hw) ?_))
    extract_lets s1
    have hs1 : s1.wf = true := deltaSend_wf (logSlot_wf (retainDone_wf hw))
    exact ite_wf hs1 (commitSend_wf hs1)

theorem logWord_wf {h : Nat} {w : CommitWord} {att : Nat} {s : State} (hw : s.wf = true) : (logWord h w att s).wf = true := by
  unfold logWord
  split
  · exact hw
  · refine ite_wf hw ?_
    extract_lets kept fill log s1 s2 s3
    have hs1 : s1.wf = true := hbmWrite_wf _ _ hw
    have hs2 : s2.wf = true := hbmWrite_wf _ _ hs1
    have hs3 : s3.wf = true := ite_wf hs2 (toBuddy_wf hs2)
    exact State.with_wf hs3

theorem takeWord_wf {h : Nat} {job : Job} {w : CommitWord} {s : State} (hw : s.wf = true) : (takeWord h job w s).wf = true := by
  unfold takeWord
  extract_lets att x _ s1 s2 s3 s4 n s5
  have hs1 : s1.wf = true := hw
  have hs2 : s2.wf = true := hbmWrite_wf _ _ hs1
  have hs3 : s3.wf = true := ledgerPut_wf (ledgerPut_wf hs2)
  have hs4 : s4.wf = true := logWord_wf hs3
  have hs5 : s5.wf = true := by
    unfold s5
    refine foldl_wf (fun s6 x1 h1 => ?_) hs4
    extract_lets a a1
    have ha : a.wf = true := bump_wf _ _ _ _ h1
    have ha1 : a1.wf = true := by
      unfold a1
      split
      · exact finish_wf ha
      · exact ha
    exact State.updUpd_wf ha1
  exact ite_wf (jobAbort_wf (deliverEvent_wf _ _ hs5)) (windowGo_wf hs5)

theorem execUpdCommit_wf {ring : Nat} {s : State} (h : s.wf = true) : OutcomeWf (execUpdCommit ring s) := by
  unfold execUpdCommit
  split
  · exact h
  · refine .ite (windowGo_wf (failArg_wf h)) ?_
    extract_lets go s1
    have hgo : ∀ s2, s2.wf = true → (go s2).wf = true := fun _ h1 => State.updUpd_wf (served_wf (begin_wf h1))
    have hs1 : s1.wf = true := hgo _ h
    split
    · split
      · refine .ite (replayBad_wf h) ?_
        split
        · exact .ite (takeWord_wf hs1) hs1
        · exact hs1
      · exact replayBad_wf h
    · split
      · exact .ite (takeWord_wf hs1) hs1
      · exact .ite (State.updUpd_wf (updEnd_wf hs1)) (commitGo_wf hs1)

theorem execDeltaAck_wf {job : Nat} {s : State} (h : s.wf = true) : OutcomeWf (execDeltaAck job s) := by
  unfold execDeltaAck
  split
  · exact h
  · exact .ite h (commitGo_wf h)

theorem execCommitWordArrival_wf {job : Nat} {others : List Contribution} {s : State} (h : s.wf = true) :
    OutcomeWf (execCommitWordArrival job others s) := by
  unfold execCommitWordArrival
  split
  · exact h
  · refine .ite h ?_
    extract_lets cs
    exact takeWord_wf h

theorem applyGo_wf {k : ApplyConst} {n hi lo st gr m i : Nat} {s : State} (h : s.wf = true) :
    (applyGo k n hi lo st gr m i s).1.wf = true := by
  induction m generalizing i s with
  | zero => exact h
  | succ m ih =>
    unfold applyGo
    extract_lets w x v
    split
    · exact ih h
    · exact ih h
    · exact ih (ite_wf (hbmWrite_wf _ _ (hbmWrite_wf _ _ (hbmWrite_wf _ _ (hbmWrite_wf _ _ h))))
        (hbmWrite_wf _ _ (hbmWrite_wf _ _ (hbmWrite_wf _ _ h))))

theorem updSkip_wf {j u op : Nat} {s : State} (h : s.wf = true) : (updSkip j u op s).wf = true := bump_wf _ _ _ _ (updEnd_wf h)

theorem execUpdApply_wf {ring : Nat} {s : State} (h : s.wf = true) : OutcomeWf (execUpdApply ring s) := by
  unfold execUpdApply
  split
  · exact h
  · split
    · exact windowGo_wf (failArg_wf h)
    · extract_lets runs s1 n k s2
      have hs1 : s1.wf = true := served_wf (begin_wf (ckptBefore_wf h))
      have hs2 : s2.wf = true := foldl_wf (fun _ _ h1 => hbmTaken_wf h1) hs1
      refine .ite (updSkip_wf (served_wf (begin_wf h))) (.ite (spent_wf h) ?_)
      split
      · exact updInconsistent_wf (updUnreadable_wf hs1)
      · split
        rename_i e
        have ht := fst_wf e (applyGo_wf hs2)
        extract_lets s3 s4
        have hs3 : s3.wf = true := foldl_wf (fun _ _ h1 => ite_wf h1 (bump_wf _ _ _ _ h1)) ht
        have hs4 : s4.wf = true := ite_wf hs3 (setErr_wf _ _ _ _ _ _ hs3)
        exact updEnd_wf hs4

theorem gatherWrite_wf {hi n : Nat} {ms : List Nat} {own : Nat} {others : List Bytes} {s : State} (h : s.wf = true) :
    (gatherWrite hi n ms own others s).1.wf = true := by
  refine List.foldlRecOn (motive := fun a : State × Nat => a.1.wf = true) _ _ h fun a ha p _ => ?_
  split
  split
  · exact ha
  · exact hbmWrite_wf _ _ ha

theorem gatherGo_wf {j u h : Nat} {job : Job} {others : Option (List Bytes)} {s : State} (hw : s.wf = true) :
    (gatherGo j u h job others s).wf = true := by
  unfold gatherGo
  split
  · exact hw
  · extract_lets ms n own size fin
    have hfin : ∀ l1, (fin l1).wf = true := by
      intro l1
      unfold fin
      split
      rename_i e
      have ht := fst_wf e (gatherWrite_wf hw)
      exact updEnd_wf ht
    refine ite_wf (updInconsistent_wf hw) (ite_wf (hfin _) (ite_wf hw ?_))
    split
    · exact ite_wf (hfin _) (updEnd_wf hw)
    · exact hw

theorem execUpdGather_wf {ring : Nat} {others : Option (List (List Byte))} {s : State} (h : s.wf = true) :
    OutcomeWf (execUpdGather ring others s) := by
  unfold execUpdGather
  split
  · exact .ite (gatherGo_wf h) h
  · split
    · exact h
    · split
      · exact windowGo_wf (failArg_wf h)
      · extract_lets run ms own mine s1
        have hs1 : s1.wf = true := served_wf (begin_wf (ckptBefore_wf h))
        exact .ite (updSkip_wf (served_wf (begin_wf h))) (.ite (spent_wf h) (.ite (updInconsistent_wf (updUnreadable_wf hs1)) (gatherGo_wf
          (hbmTaken_wf hs1))))

theorem markPut_wf {job : Job} {att phase : Nat} {exit : Bool} {s : State} (h : s.wf = true) :
    (markPut job att phase exit s).wf = true := by
  unfold markPut
  extract_lets s1 a seen multi opn b was
  have hs1 : s1.wf = true := ledgerOpen_wf h
  split
  extract_lets s2
  have hs2 : s2.wf = true := hbmWrite_wf _ _ hs1
  exact ite_wf (hbmWrite_wf _ _ hs2) (ite_wf hs2 (hbmWrite_wf _ _ hs2))

theorem execUpdMark_wf {ring : Nat} {s : State} (h : s.wf = true) : OutcomeWf (execUpdMark ring s) := by
  unfold execUpdMark
  split
  · exact h
  · refine .ite (windowGo_wf (failArg_wf h)) ?_
    extract_lets s1 x att
    have hs1 : s1.wf = true := served_wf (begin_wf h)
    clear_value att
    split
    · exact .ite (updEnd_wf (bump_wf _ _ _ _ hs1)) (updEnd_wf (markPut_wf hs1))
    · exact updEnd_wf (bump_wf _ _ _ _ hs1)

/-! #### Machine/Mirror.lean -/

theorem setTemplate_wf {h : Nat} {l : List Region} {s : State} (hw : s.wf = true) : (setTemplate h l s).wf = true := hw

theorem specMirCkpt_wf : SpecWf specMirCkpt := by
  refine ⟨fun i p s h => ?_, fun _ h => h⟩
  unfold specMirCkpt
  dsimp -zeta only
  extract_lets h1 level n regs s1
  have hs1 : s1.wf = true := ite_wf (setTemplate_wf h) h
  split
  · exact trivial
  · split
    · exact trivial
    · refine .ite trivial (.ite trivial ?_)
      split
      · exact trivial
      · split
        · exact trivial
        · exact .ite trivial (.ite trivial (.ite trivial (ckptStart_wf hs1)))

theorem execCkptCaptureDone_wf {ckpt : Nat} {s : State} (h : s.wf = true) : OutcomeWf (execCkptCaptureDone ckpt s) := by
  refine .ite h ?_
  extract_lets s1 k h1
  have hs1 : s1.wf = true := ckptRead_wf h
  exact .ite hs1 (deliverEvent_wf _ _ (State.setCkpt_wf hs1))

theorem ckptShip_wf {n : Nat} {s : State} (h : s.wf = true) : (ckptShip n s).wf = true := by
  unfold ckptShip
  split
  · split
    · exact toBuddy_wf h
    · exact h
  refine ite_wf ?_ h
  split
  · extract_lets out
    exact h
  · exact h

theorem execCkptManifestWritten_wf {ckpt : Nat} {ok : Bool} {s : State} (h : s.wf = true) :
    OutcomeWf (execCkptManifestWritten ckpt ok s) := by
  refine .ite h ?_
  extract_lets s1 k bytes s2 s3 level _ s4 members _ s5 s6
  have hs1 : s1.wf = true := ckptSpoil_wf (ckptRead_wf h)
  have hs2 : s2.wf = true := bump_wf _ _ _ _ (bump_wf _ _ _ _ (ckptShip_wf hs1))
  have hs3 : s3.wf = true := State.setCkpt_wf hs2
  have hs4 : s4.wf = true := State.with_wf hs3
  have hs5 : s5.wf = true := ite_wf (State.with_wf hs4) hs4
  have hs6 : s6.wf = true := by
    unfold s6
    split
    · extract_lets r
      exact finishOp_wf _ _ _ _ _ hs5
    · exact hs5
  refine .ite hs1 (.ite (ckptFail_wf hs1) ?_)
  split
  · exact commitGo_wf (snapGo_wf hs6)
  · exact hs6

theorem restoreRegs_wf {regs : List Region} {data : List Bytes} {s : State} (h : s.wf = true) : (restoreRegs regs data s).wf = true :=
  foldl_wf (fun _ _ h1 => hbmWrite_wf _ _ h1) h

theorem restoreUndefined_wf {regs : List Region} {s : State} (h : s.wf = true) : (restoreUndefined regs s).wf = true :=
  foldl_wf (fun _ _ h1 => hbmWrite_wf _ _ (freshBytes_wf h1)) h

theorem specMirRestore_wf : SpecWf specMirRestore := by
  refine ⟨fun i p s h => ?_, fun _ h => h⟩
  unfold specMirRestore
  dsimp -zeta only
  extract_lets h1 level n regs
  split
  · exact trivial
  · split
    · exact trivial
    · refine .ite trivial (.ite trivial ?_)
      split
      · exact trivial
      · split
        · exact trivial
        · split
          · exact trivial
          · refine .ite trivial (.ite h (.ite (mirErr_wf (restoreUndefined_wf h)) ?_))
            extract_lets s1
            have hs1 : s1.wf = true := loadStep_wf (restoreRegs_wf h)
            exact bump_wf _ _ _ _ (State.setJob_wf hs1)

theorem specMirSnapshot_wf : SpecWf specMirSnapshot := by
  refine ⟨fun i p s h => ?_, fun _ h => h⟩
  unfold specMirSnapshot
  dsimp -zeta only
  extract_lets h1 level bytes
  split
  · exact trivial
  · split
    · exact trivial
    · refine .ite trivial ?_
      split
      · exact trivial
      · exact .ite trivial (.ite trivial (.ite trivial (snapGo_wf h)))

theorem spareProtect_wf {i : Iss} {p : Bytes} {s : State} (h : s.wf = true) : ResWf (spareProtect i p s) := by
  unfold spareProtect
  extract_lets h1 n regs b _ s1
  have hs1 : s1.wf = true := h
  split
  · exact trivial
  · refine .ite trivial (.ite trivial (.ite trivial (.ite trivial ?_)))
    split
    · exact trivial
    · split
      · exact trivial
      · exact .ite trivial (.ite trivial (.ite trivial (ckptStart_wf (setTemplate_wf hs1))))

theorem spareTell_wf {g : Nat} {on : Bool} {auto : Nat} {s : State} (h : s.wf = true) : (spareTell g on auto s).wf = true :=
  foldl_wf (fun _ _ h1 => sendMsg_wf h1) h

theorem spareDesignate_wf {i : Iss} {p : Bytes} {s : State} (h : s.wf = true) : ResWf (spareDesignate i p s) := by
  refine .ite trivial (.ite trivial ?_)
  split
  · exact trivial
  · exact .ite trivial (.ite trivial (spareTell_wf h))

theorem spareReserve_wf {i : Iss} {p : Bytes} {s : State} (h : s.wf = true) : ResWf (spareReserve i p s) := by
  refine .ite trivial (.ite trivial (.ite trivial ?_))
  split
  · exact trivial
  · refine .ite trivial ?_
    extract_lets s1
    have hs1 : s1.wf = true := takePages_wf h
    exact State.with_wf hs1

theorem spareRelease_wf {i : Iss} {p : Bytes} {s : State} (h : s.wf = true) : ResWf (spareRelease i p s) := by
  unfold spareRelease
  extract_lets x _ m
  split
  · split
    · exact trivial
    · refine .ite trivial ?_
      change State.wf _ = true
      split
      · exact commitGo_wf h
      · exact h
    · exact trivial
  · split
    · exact .ite trivial (.ite trivial (spareTell_wf h))
    · exact trivial
  · split
    · refine .ite trivial (.ite trivial ?_)
      extract_lets s1
      have hs1 : s1.wf = true := by
        unfold s1
        split
        · exact freePages_wf h
        · exact h
      exact State.with_wf hs1
    · exact trivial
  · exact trivial

theorem specMirSpare_wf : SpecWf specMirSpare := by
  refine ⟨fun i p s h => ?_, fun _ h => h⟩
  unfold specMirSpare
  dsimp -zeta only
  split
  · exact spareProtect_wf h
  · exact spareDesignate_wf h
  · exact spareReserve_wf h
  · exact spareRelease_wf h
  · exact trivial

theorem tellMembers_wf {g w : Nat} {bs : Bytes} {s : State} (h : s.wf = true) : (tellMembers g w bs s).wf = true :=
  foldl_wf (fun _ _ h1 => sendMsg_wf h1) h

theorem takeoverGo_wf {g rank h : Nat} {j : Job} {op : Option (Nat × Nat)} {s : State} (hw : s.wf = true) :
    (takeoverGo g rank h j op s).wf = true := by
  unfold takeoverGo
  extract_lets s1 s2 s3
  have hs1 : s1.wf = true := State.updGroup_wf hw
  have hs2 : s2.wf = true := tellMembers_wf hs1
  have hs3 : s3.wf = true := State.setJob_wf hs2
  exact State.with_wf hs3

theorem takeoverAuto_wf {key rank : Nat} {s : State} (h : s.wf = true) : (takeoverAuto key rank s).wf = true := by
  unfold takeoverAuto
  split
  · exact h
  · split
    · exact h
    · extract_lets g
      exact ite_wf h (takeoverGo_wf h)

theorem takeoverBegin_wf {i : Iss} {p : Bytes} {s : State} (h : s.wf = true) : ResWf (takeoverBegin i p s) := by
  refine .ite trivial (.ite trivial ?_)
  split
  · exact trivial
  · exact .ite trivial (.ite trivial (.ite trivial (.ite trivial (takeoverGo_wf h))))

theorem execTakeoverRestoreComplete_wf {job : Nat} {data : List (List Byte)} {block : List Byte} {deltas : List Delta} {s : State}
    (h : s.wf = true) : OutcomeWf (execTakeoverRestoreComplete job data block deltas s) := by
  unfold execTakeoverRestoreComplete
  split
  · refine .ite h ?_
    extract_lets regs done st s1 _ s2 s3 first last _ s4
    have hdone : ∀ st1 d1 res1 s5, s5.wf = true → (done st1 d1 res1 s5).wf = true := by
      intro st1 d1 res1 s5 hs5
      unfold done
      split
      · exact finishOp_wf _ _ _ _ _ hs5
      · exact deliverEvent_wf _ _ hs5
    have hs1 : s1.wf = true := State.updGroup_wf (State.setJob_wf h)
    have hs2 : s2.wf = true := bump_wf _ _ _ _ (loadStep_wf (restoreRegs_wf h))
    have hs3 : s3.wf = true := by
      unfold s3
      split
      · exact restoreRegs_wf hs2
      · exact hs2
    have hs4 : s4.wf = true := State.with_wf hs3
    exact .ite (hdone _ _ _ _ (State.with_wf hs1)) (hdone _ _ _ _ hs4)
  · exact h

theorem takeoverEnd_wf {i : Iss} {p : Bytes} {s : State} (h : s.wf = true) : ResWf (takeoverEnd i p s) := by
  unfold takeoverEnd
  extract_lets g h1 att s1
  have hs1 : s1.wf = true := bump_wf _ _ _ _ (State.updGroup_wf (tellMembers_wf h))
  refine .ite trivial (.ite trivial ?_)
  split
  · exact trivial
  · split
    · exact trivial
    · exact .ite trivial (.ite trivial (.ite h (.ite (mirErr_wf h) (State.with_wf hs1))))

theorem specMirTakeover_wf : SpecWf specMirTakeover := by
  refine ⟨fun i p s h => ?_, fun _ h => h⟩
  unfold specMirTakeover
  dsimp -zeta only
  split
  · exact takeoverBegin_wf h
  · exact takeoverEnd_wf h
  · exact trivial

theorem specMirLogQuery_wf : SpecWf specMirLogQuery := by
  refine ⟨fun i p s h => ?_, fun _ h => h⟩
  unfold specMirLogQuery
  dsimp -zeta only
  split
  · exact trivial
  · exact .ite trivial (.ite trivial h)

/-! #### Machine/RingCmd.lean -/

theorem specRingCreate_wf : SpecWf specRingCreate := by
  refine ⟨fun i p s h => ?_, fun _ h => h⟩
  unfold specRingCreate
  dsimp -zeta only
  split
  · exact trivial
  · split
    · exact trivial
    · extract_lets j
      exact createRing_wf h

theorem beginClear_wf {core : Nat} {waiter : Option Nat} {s : State} (h : s.wf = true) : (beginClear core waiter s).wf = true :=
  State.updCore_vec_wf rfl h

theorem specRingDestroy_wf : SpecWf specRingDestroy := by
  refine ⟨fun i p s h => ?_, fun _ h => h⟩
  unfold specRingDestroy
  dsimp -zeta only
  extract_lets j r s'
  have hs' : s'.wf = true := State.setRing_wf _ _ h
  split
  · exact trivial
  · refine .ite trivial ?_
    split
    · exact .ite (beginClear_wf hs') hs'
    · exact hs'

theorem execCoreClearComplete_wf {ty inst : Nat} {s : State} (h : s.wf = true) : OutcomeWf (execCoreClearComplete ty inst s) := by
  unfold execCoreClearComplete
  split
  · exact h
  · extract_lets x s1
    have hs1 : s1.wf = true := State.setCore_wf _ _ rfl (sramClear_wf _ h)
    refine .ite h ?_
    split
    · exact completeHeld_wf hs1
    · exact hs1

theorem drained_wf {j : Nat} {s : State} (h : s.wf = true) : (drained j s).wf = true :=
  State.updRing_wf (ite_wf (putRecord_wf (dropHeld_wf h)) h)

theorem specRingDrain_wf : SpecWf specRingDrain := by
  refine ⟨fun i p s h => ?_, fun _ h => h⟩
  unfold specRingDrain
  dsimp -zeta only
  extract_lets j r s'
  have hs' : s'.wf = true := State.setRing_wf _ _ (handleWait_wf h)
  split
  · exact trivial
  · exact .ite trivial (.ite (drained_wf hs') hs')

theorem execRingDrainComplete_wf {ring : Nat} {s : State} (h : s.wf = true) : OutcomeWf (execRingDrainComplete ring s) := by
  refine .ite ?_ h
  split
  · exact finishOp_wf _ _ _ _ _ (drained_wf h)
  · exact drained_wf h

theorem specRingQuery_wf : SpecWf specRingQuery := by
  refine ⟨fun i p s h => ?_, fun _ h => h⟩
  unfold specRingQuery
  dsimp -zeta only
  extract_lets j r
  split
  · exact trivial
  · exact h

theorem slotsUndefined_wf {j x n : Nat} {s : State} (h : s.wf = true) : (slotsUndefined j x n s).wf = true := by
  induction n generalizing x s with
  | zero => exact h
  | succ n ih =>
    unfold slotsUndefined
    extract_lets r
    split
    rename_i e
    have ht := snd_wf e (freshBytes_wf h)
    exact ih (spaceWrite_wf _ _ _ ht)

theorem execRingTailWrite_wf {ring value : Nat} {s : State} (h : s.wf = true) : OutcomeWf (execRingTailWrite ring value s) := by
  unfold execRingTailWrite
  extract_lets r v s1
  have hs1 : s1.wf = true := State.setRing_wf _ _ h
  exact .ite h (.ite (.ite (State.setRing_wf _ _ h) (ite_wf (slotsUndefined_wf hs1) hs1)) (State.setRing_wf _ _ h))

theorem execRingCtrlRestart_wf {ring : Nat} {s : State} (h : s.wf = true) :
    OutcomeWf (execRingCtrlRestart ring s) := .ite (State.setRing_wf _ _ h) h

theorem execRingCtrlArm_wf {ring : Nat} {s : State} (h : s.wf = true) :
    OutcomeWf (execRingCtrlArm ring s) := .ite h (State.setRing_wf _ _ h)

/-! #### Machine/Ctx.lean -/

theorem State.setAgent_wf {s : State} {n : Nat} {x : Agent} (h : s.wf = true) : (s.setAgent n x).wf = true := h

theorem specCtxCreate_wf : SpecWf specCtxCreate := by
  refine ⟨fun i p s h => .ite trivial ?_, fun _ h => h⟩
  split
  · exact trivial
  · split
    · exact trivial
    · refine .ite trivial ?_
      extract_lets x
      exact State.setCtx_wf _ _ h

theorem specCtxSetQuota_wf : SpecWf specCtxSetQuota := by
  refine ⟨fun i p s h => .ite trivial ?_, fun _ h => h⟩
  split
  · exact trivial
  · exact .ite trivial (State.updCtx_wf h)

theorem specCtxQuery_wf : SpecWf specCtxQuery := ⟨fun _ _ _ h => .ite trivial (.ite trivial h), fun _ h => h⟩

theorem specCtxAssignMailbox_wf :
    SpecWf specCtxAssignMailbox := ⟨fun _ _ _ h => .ite trivial (.ite trivial (.ite trivial (.ite trivial (.ite trivial (State.setMb_wf _ _
    h))))), fun _ h => h⟩

theorem specCtxReleaseMailbox_wf :
    SpecWf specCtxReleaseMailbox := ⟨fun _ _ _ h => .ite trivial (.ite trivial (.ite trivial (State.setMb_wf _ _ h))), fun _ h => h⟩

theorem specCtxAgentLoad_wf : SpecWf specCtxAgentLoad := by
  refine ⟨fun i p s h => ?_, fun _ h => h⟩
  unfold specCtxAgentLoad
  dsimp -zeta only
  extract_lets a n w pages img m
  refine .ite trivial (.ite trivial (.ite trivial (.ite trivial (.ite trivial ?_))))
  split
  · refine .ite h (.ite (raise_wf _ h) ?_)
    extract_lets s1 s2
    have hs1 : s1.wf = true := takePages_wf (hbmTaken_wf h)
    have hs2 : s2.wf = true := State.setAgent_wf hs1
    exact State.setMb_wf _ _ hs2
  · exact trivial

theorem specCtxAgentStart_wf : SpecWf specCtxAgentStart := by
  refine ⟨fun i p s h => ?_, fun _ h => h⟩
  unfold specCtxAgentStart
  dsimp -zeta only
  extract_lets n
  split
  · exact trivial
  · exact .ite trivial (State.setAgent_wf h)

theorem specCtxAgentStop_wf : SpecWf specCtxAgentStop := by
  refine ⟨fun i p s h => ?_, fun _ h => h⟩
  unfold specCtxAgentStop
  dsimp -zeta only
  extract_lets n
  split
  · exact trivial
  · exact .ite trivial (State.setAgent_wf h)

theorem agentUnload_wf {n : Nat} {s : State} (h : s.wf = true) : (agentUnload n s).wf = true := by
  unfold agentUnload
  extract_lets a s1
  have hs1 : s1.wf = true := by
    unfold s1
    split
    · exact freePages_wf h
    · exact h
  exact State.setMb_wf _ _ (State.setAgent_wf hs1)

theorem specCtxAgentUnload_wf : SpecWf specCtxAgentUnload := by
  refine ⟨fun i p s h => ?_, fun _ h => h⟩
  unfold specCtxAgentUnload
  dsimp -zeta only
  extract_lets n
  split
  · exact trivial
  · exact .ite trivial (agentUnload_wf h)

/-! #### Machine/Stream.lean -/

theorem suFault_wf {j reason status addr : Nat} {s : State} (h : s.wf = true) : (suFault j reason status addr s).wf = true :=
  State.updRing_wf h

theorem suLost_wf {j reason src addr space : Nat} {s : State} (h : s.wf = true) : (suLost j reason src addr space s).wf = true := by
  unfold suLost
  extract_lets r s'
  have hs' : s'.wf = true := suFault_wf h
  split
  · exact ite_wf hs' (raise_wf _ hs')
  · exact h

theorem suSettle_wf {j : Nat} {s : State} (h : s.wf = true) : (suSettle j s).wf = true := by
  unfold suSettle
  extract_lets r
  split
  · refine ite_wf h ?_
    extract_lets status detail s1 s2 bit
    have hs1 : s1.wf = true := finish_wf h
    have hs2 : s2.wf = true := ite_wf (bump_wf _ _ _ _ hs1) hs1
    clear_value bit
    split
    · exact setErr_wf _ _ _ _ _ _ hs2
    · exact hs2
  · exact h

theorem suAsk_wf {c : Nat} {d : Bytes} {g : Seg} {s : State} (h : s.wf = true) : (suAsk c d g s).wf = true := ite_wf (sendGroup_wf h) h

theorem suIssue_wf {inst n : Nat} {s : State} (h : s.wf = true) : (suIssue inst n s).wf = true := by
  induction n generalizing s with
  | zero => exact h
  | succ n ih =>
    unfold suIssue
    refine ite_wf h ?_
    split
    · exact h
    · split
      · split
        · extract_lets listSpace wr bad s1 start
          have hs1 : s1.wf = true := State.updUnit_wf h
          exact ite_wf (ih (suSettle_wf (suFault_wf h))) (ih (suAsk_wf (State.setRing_wf _ _ hs1)))
        · exact h
      · exact h

theorem suBegin_wf {j ix : Nat} {d : Bytes} {segs : List Seg} {s : State} (h : s.wf = true) : (suBegin j ix d segs s).wf = true :=
  suIssue_wf (State.updRing_wf (begin_wf h))

theorem suStart_wf {j op : Nat} {check : Nat → Nat → Bytes → State → Option Nat} {segs : Nat → Bytes → State → List Seg} {s : State}
    (h : s.wf = true) : (suStart j op check segs s).wf = true := by
  unfold suStart
  split
  · exact h
  · extract_lets r
    refine ite_wf h ?_
    split
    · exact failArg_wf h
    · exact suBegin_wf h

theorem execSuGather_wf {ring : Nat} {s : State} (h : s.wf = true) : OutcomeWf (execSuGather ring s) := by
  unfold execSuGather
  split
  · exact h
  · extract_lets r s1
    have hs1 : s1.wf = true := bump_wf _ _ _ _ (begin_wf h)
    refine .ite h ?_
    split
    · exact failArg_wf h
    · exact .ite (suSettle_wf (suLost_wf hs1)) (suBegin_wf (hbmTaken_wf h))

theorem suWrite_wf {inst c : Nat} {d : Bytes} {chk : Option Bytes} {space a : Nat} {bs : Bytes} {s : State} (h : s.wf = true) :
    (suWrite inst c d chk space a bs s).wf = true :=
  ite_wf (hbmWrite_wf _ _ h) (ite_wf (hostPut_wf h) (ite_wf (ite_wf (sramWrite_wf _ _ _ h) (bump_wf _ _ _ _ (sramWrite_wf _ _ _ h)))
  (sendGroup_wf h)))

theorem execStreamSegmentAck_wf {ring seg outcome : Nat} {data : Bytes} {s : State} (h : s.wf = true) :
    OutcomeWf (execStreamSegmentAck ring seg outcome data s) := by
  unfold execStreamSegmentAck
  extract_lets r inst ended
  have hended : ∀ s1, s1.wf = true → (ended s1).wf = true := fun _ h1 => suIssue_wf (suSettle_wf h1)
  split
  · exact h
  · split
    · exact h
    · refine .ite h ?_
      extract_lets d ss ds writes at_ hostAt s1 s2 s21 s22 s23 s24 s25 s26 s27 s28
      have hs1 : s1.wf = true := State.setRing_wf _ _ h
      have hs2 : s2.wf = true := foldl_wf (fun _ _ h1 => suWrite_wf h1) hs1
      have hs21 : s21.wf = true := State.updRing_wf hs2
      have hs22 : s22.wf = true := bump_wf _ _ _ _ (bump_wf _ _ _ _ hs21)
      have hs23 : s23.wf = true := ite_wf hs22 (bump_wf _ _ _ _ hs22)
      have hs24 : s24.wf = true := ite_wf (hbmTaken_wf hs23) hs23
      have hs25 : s25.wf = true := ite_wf (bump_wf _ _ _ _ hs24) hs24
      have hs26 : s26.wf = true := ite_wf (bump_wf _ _ _ _ hs25) hs25
      have hs27 : s27.wf = true := ite_wf (bump_wf _ _ _ _ hs26) hs26
      have hs28 : s28.wf = true := ite_wf (bump_wf _ _ _ _ hs27) hs27
      exact .ite (.ite (hended _ (suLost_wf (hpErr_wf _ _ _ hs1))) (hended _ (suLost_wf (bump_wf _ _ _ _ hs1)))) (.ite (hended _ (suLost_wf
        (bump_wf _ _ _ _ hs1))) (.ite (hended _ (suLost_wf (ite_wf (hpErr_wf _ _ _ hs1) hs1))) (.ite (hended _ (suFault_wf hs1)) (hended _
        hs28))))

/-! #### Machine/Fill.lean -/

theorem execSuStageFill_wf {ring : Nat} {s : State} (h : s.wf = true) : OutcomeWf (execSuStageFill ring s) := by
  unfold execSuStageFill
  split
  · exact h
  · extract_lets r
    refine .ite h ?_
    split
    · extract_lets s1
      have hs1 : s1.wf = true := finish_wf (begin_wf h)
      exact raise_wf _ hs1
    · exact failCheck_wf h
    · exact begin_wf h

theorem execStageFillWriteStart_wf {ring : Nat} {s : State} (h : s.wf = true) : OutcomeWf (execStageFillWriteStart ring s) := by
  unfold execStageFillWriteStart
  split
  · exact h
  · extract_lets d hf k x st sealed s1 st' s2 todo
    have hs1 : s1.wf = true := ite_wf (sramWrite_wf _ _ _ h) h
    have hs2 : s2.wf = true := State.updCore_wf (f := fun c => c.setStage hf fun _ => st') (Core.setStage_vec _ _ _) hs1
    clear_value s2
    exact .ite h (State.updRing_wf hs2)

theorem execStageFillComplete_wf {ring : Nat} {s : State} (h : s.wf = true) : OutcomeWf (execStageFillComplete ring s) := by
  unfold execStageFillComplete
  split
  · exact h
  · refine .ite h ?_
    split
    · exact h
    · extract_lets d h1 k inst runs bad n s1 s11 s12 s13 s14 u s15
      have hs1 : s1.wf = true := foldl_wf (fun _ _ h2 => sramWrite_wf _ _ _ h2) h
      have hs11 : s11.wf = true := foldl_wf (fun _ _ h2 => sramMark_wf h2) hs1
      have hs12 : s12.wf = true := State.updCore_wf (Core.setStage_vec _ _ _) hs11
      have hs13 : s13.wf = true := bump_wf _ _ _ _ (bump_wf _ _ _ _ (bump_wf _ _ _ _ hs12))
      have hs14 : s14.wf = true := ite_wf hs13 (setErr_wf _ _ _ _ _ _ (bump_wf _ _ _ _ hs13))
      have hs15 : s15.wf = true := ite_wf (State.updCore_wf (Core.setStage_vec _ _ _) (halfUndefined_wf hs14)) hs14
      exact finish_wf hs15

theorem fillAbort_wf {ring : Nat} {c : Cur} {s : State} (h : s.wf = true) : (fillAbort ring c s).wf = true :=
  finish_wf (ite_wf h (halfUndefined_wf h))

theorem fillMix_wf {core : Nat} {s : State} (h : s.wf = true) : (fillMix core s).wf = true := by
  refine foldl_wf (fun s1 x1 h1 => ?_) h
  split
  · split
    · exact ite_wf h1 (mayLand_wf h1)
    · exact h1
  · exact h1

/-! #### Machine/HostPort.lean -/

theorem hpCnt_wf {n k : Nat} {s : State} (h : s.wf = true) : (hpCnt n k s).wf = true := ite_wf h (bump_wf _ _ _ _ h)

theorem snoopTrack_wf {l : Nat} {m : Bool} {s : State} (h : s.wf = true) : (snoopTrack l m s).wf = true := by
  unfold snoopTrack
  extract_lets rest
  refine ite_wf h ?_
  clear_value rest
  split
  · exact hpCnt_wf h
  · exact h

theorem hostLine_wf {l : Nat} {data : Bytes} {enable : Nat} {s : State} (h : s.wf = true) : (hostLine l data enable s).wf = true := by
  unfold hostLine
  split
  · exact h
  · split
    · exact ite_wf (hbmPut_wf _ _ h) h
    · exact ite_wf (hbmPut_wf _ _ h) (foldl_wf (fun _ _ h1 => hbmPut_wf _ _ h1) h)

theorem execCxlMemRead_wf {addr : Nat} {own : Option (List Byte)} {s : State} (h : s.wf = true) :
    OutcomeWf (execCxlMemRead addr own s) := by
  unfold execCxlMemRead
  extract_lets l s1 ones reply s2 bs
  have hs1 : s1.wf = true := hpCnt_wf (hpCnt_wf h)
  have hreply : ∀ bad1 bs1 s3, s3.wf = true → (reply bad1 bs1 s3).wf = true := fun _ _ _ h1 => h1
  have hs2 : s2.wf = true := bump_wf _ _ _ _ hs1
  refine .ite h (.ite (hpCnt_wf (hreply _ _ _ hs1)) ?_)
  split
  · exact hreply _ _ _ hs1
  · refine .ite (hreply _ _ _ (poisonRead_wf hs2)) ?_
    extract_lets bs1 s3
    have hs3 : s3.wf = true := snoopTrack_wf (hreply _ _ _ hs2)
    split
    · exact hostLine_wf hs3
    · exact hs3

theorem execCxlMemWrite_wf {addr : Nat} {data : Bytes} {enable : Nat} {s : State} (h : s.wf = true) :
    OutcomeWf (execCxlMemWrite addr data enable s) := by
  unfold execCxlMemWrite
  extract_lets l s1
  have hs1 : s1.wf = true := hpCnt_wf (hpCnt_wf h)
  exact .ite h (.ite (hpCnt_wf hs1) (hostLine_wf (State.with_wf hs1)))

theorem hostFail_wf {ring seg bit : Nat} {s : State} (h : s.wf = true) : (hostFail ring seg bit s).wf = true := by
  unfold hostFail
  split
  · exact h
  · extract_lets r s1
    have hs1 : s1.wf = true := State.setRing_wf _ _ h
    split
    exact suIssue_wf (suSettle_wf (suLost_wf (hpErr_wf _ _ _ hs1)))

theorem hostImgFail_wf {img w bit : Nat} {s : State} (h : s.wf = true) : (hostImgFail img w bit s).wf = true := by
  unfold hostImgFail
  split
  · exact h
  · exact ite_wf (imgHostFault_wf (hpErr_wf _ _ _ h)) h

theorem execHostReadCompletion_wf {ring seg status : Nat} {s : State} (h : s.wf = true) :
    OutcomeWf (execHostReadCompletion ring seg status s) := by
  refine .ite (ite_wf (hostImgFail_wf h) (ite_wf (hostImgFail_wf h) h)) ?_
  split
  · exact h
  · refine .ite (hostFail_wf h) (.ite (hostFail_wf h) ?_)
    extract_lets ls hits s1 cache
    have hs1 : s1.wf = true := hpCnt_wf (hpCnt_wf h)
    exact .ite hs1 (State.with_wf hs1)

theorem hostWritesEnd_wf {s : State} (h : s.wf = true) : (hostWritesEnd s).wf = true :=
  foldl_wf (fun _ _ h1 => foldl_wf (fun _ _ h2 => imgFault_wf (writeEnd_wf h2)) h1) h

theorem hostTasksEnd_wf {s : State} (h : s.wf = true) : (hostTasksEnd s).wf = true := by
  refine foldl_wf (fun s1 x1 h1 => ?_) h
  extract_lets r
  split
  · exact h1
  · split
    · exact h1
    · refine ite_wf h1 ?_
      split
      extract_lets s2
      have hs2 : s2.wf = true := State.setRing_wf _ _ h1
      exact suIssue_wf (suSettle_wf (suLost_wf hs2))

theorem execHostLinkUp_wf {width rate : Nat} {cxl : Bool} {s : State} (h : s.wf = true) : OutcomeWf (execHostLinkUp width rate cxl s) := by
  refine .ite h ?_
  extract_lets c
  exact completeLate_wf h

theorem execMsixUnmask_wf {v : Nat} {s : State} (h : s.wf = true) : OutcomeWf (execMsixUnmask v s) := by
  refine .ite h ?_
  extract_lets _ s1
  have hs1 : s1.wf = true := h
  exact ite_wf (sendMsix_wf _ hs1) hs1

/-! #### Machine/Teacher.lean -/

theorem tePass_wf {j op : Nat} {plan : Nat → Bytes → List (List (List Nat)) → State → Plan} {s : State} (h : s.wf = true) :
    (tePass j op plan s).wf = true := by
  unfold tePass
  split
  · exact h
  · extract_lets r k s1 pl start hold
    have hs1 : s1.wf = true := fillMix_wf h
    refine ite_wf h (ite_wf (refuse_wf h) ?_)
    split
    · extract_lets s2
      have hs2 : s2.wf = true := ite_wf (setErr_wf _ _ _ _ _ _ hs1) hs1
      exact failCheck_wf hs2
    · refine ite_wf (coreAbort_wf hs1) ?_
      split
      · exact markedAbort_wf hs1
      · exact runPass_wf hs1

/-! #### Machine/VecCore.lean -/

theorem vecEnd_wf {core status reason : Nat} {bit code : Option Nat} {addr : Nat} {s : State} (h : s.wf = true) :
    (vecEnd core status reason bit code addr s).wf = true := by
  unfold vecEnd
  split
  · exact h
  · split
    extract_lets r ix
    split
    next e =>
      extract_lets s1 s2 s3
      have hs1 : s1.wf = true := State.updCore_vec_wf rfl (snd_wf e (State.fresh_wf h))
      have hs2 : s2.wf = true := by
        unfold s2
        split
        · exact setErr_wf _ _ _ _ _ _ hs1
        · exact hs1
      have hs3 : s3.wf = true := finish_wf hs2
      split
      · exact raise_wf _ hs3
      · exact hs3

theorem vecIllegal_wf {core : Nat} {s : State} (h : s.wf = true) : (vecIllegal core s).wf = true := ite_wf (vecEnd_wf h) (vecEnd_wf h)

theorem vecAddress_wf {core : Nat} {s : State} (h : s.wf = true) : (vecAddress core s).wf = true := vecEnd_wf h

theorem vecMarked_wf {core addr n : Nat} {s : State} (h : s.wf = true) : (vecMarked core addr n s).wf = true :=
  ite_wf (vecEnd_wf h) (vecEnd_wf h)

theorem vecSealed_wf {core : Nat} {s : State} (h : s.wf = true) : (vecSealed core s).wf = true := vecEnd_wf h

theorem vecTarget_wf {core : Nat} {s : State} (h : s.wf = true) : (vecTarget core s).wf = true := vecEnd_wf h

theorem vecSettle_wf {core : Nat} {s : State} (h : s.wf = true) : (vecSettle core s).wf = true := by
  unfold vecSettle
  split
  · exact h
  · exact ite_wf (vecEnd_wf h) (ite_wf (vecMarked_wf h) (ite_wf (vecIllegal_wf h) h))

theorem vecNext_wf {core : Nat} {v : VecState} {jump : Int} {s : State} (hv : v.wf = true) (h : s.wf = true) :
    (vecNext core v jump s).wf = true :=
  ite_wf (vecEnd_wf (State.updCore_vec_wf hv h)) (vecSettle_wf (State.updCore_vec_wf hv h))

/-- An instruction that keeps the forms of its registers and of the state keeps them through its issue. -/
theorem vecIssue_wf {core op : Nat} {f : VecFields} {body : VecState → State → VRes} {s : State}
    (hb : ∀ v s, v.wf = true → s.wf = true → VResWf (body v s)) (h : s.wf = true) : (vecIssue core op f body s).wf = true := by
  unfold vecIssue
  split
  · exact h
  · next v e =>
    refine ite_wf h (ite_wf (vecMarked_wf h) (ite_wf (vecIllegal_wf h) ?_))
    have hv : v.wf = true := by simpa [e] using State.core_vec_wf core h
    extract_lets v' s'
    have hv' : v'.wf = true := hv
    have hs' : s'.wf = true := State.updCore_vec_wf hv' h
    have hr := hb v' s' hv' hs'
    generalize body v' s' = r at hr
    cases r with
    | ok w jump t => exact vecNext_wf hr.1 hr.2
    | stop t => exact hr
    | stall w => exact State.updCore_vec_wf hr hs'

theorem vecBranch_wf {core op : Nat} {f : VecFields} {taken : VecState → Bool} {s : State} (h : s.wf = true) :
    (vecBranch core op f taken s).wf = true :=
  vecIssue_wf (fun _ _ hv h => .ite (.ite ⟨hv, h⟩ (vecIllegal_wf h)) ⟨hv, h⟩) h

theorem vecPure_wf {core op : Nat} {f : VecFields} {g : VecState → VecState} {s : State} (hg : ∀ v, v.wf = true → (g v).wf = true)
    (h : s.wf = true) : (vecPure core op f g s).wf = true :=
  vecIssue_wf (fun v _ hv h => ⟨hg v hv, h⟩) h

theorem vecLanes_wf {core op : Nat} {f : VecFields} {g : VecState → Nat → Nat} {s : State} (h : s.wf = true) :
    (vecLanes core op f g s).wf = true :=
  vecPure_wf (fun _ hv => VecState.mapLanes_wf hv) h

theorem vecSfu_wf {core op n : Nat} {f : VecFields} {s : State} (h : s.wf = true) : (vecSfu core op f n s).wf = true :=
  vecIssue_wf (fun _ _ hv h => ⟨VecState.mapLanes_wf hv, ite_wf h (bump_wf _ _ _ _ h)⟩) h

theorem vecLoad_wf {core e : Nat} {addrs : List Nat} {v : VecState} {s : State} {k : List Nat → VRes} (hk : ∀ xs, VResWf (k xs))
    (h : s.wf = true) : VResWf (vecLoad core e addrs v s k) := by
  refine .ite (vecIllegal_wf h) (.ite (vecAddress_wf h) (.ite (vecSealed_wf h) ?_))
  split
  · exact vecMarked_wf h
  · exact hk _

theorem vecStore_wf {core e : Nat} {cells : List (Nat × Nat)} {v : VecState} {s : State} (hv : v.wf = true) (h : s.wf = true) :
    VResWf (vecStore core e cells v s) :=
  .ite (vecIllegal_wf h) (.ite (vecAddress_wf h) ⟨hv, sramStore_wf h⟩)

theorem vecLoadLanes_wf {core : Nat} {f : VecFields} {at_ : VecState → Nat → Nat → Nat} {v : VecState} {s : State} (hv : v.wf = true)
    (h : s.wf = true) : VResWf (vecLoadLanes core f at_ v s) := by
  unfold vecLoadLanes
  refine vecLoad_wf (fun xs => ?_) h
  exact ⟨VecState.foldl_wf (fun _ _ hw => VecState.setLane_wf hw) hv, h⟩

theorem vecStoreLanes_wf {core : Nat} {f : VecFields} {at_ : VecState → Nat → Nat → Nat} {v : VecState} {s : State} (hv : v.wf = true)
    (h : s.wf = true) : VResWf (vecStoreLanes core f at_ v s) :=
  vecStore_wf hv h

theorem vecTask_wf {ty j : Nat} {lowest : Bool} {s : State} (h : s.wf = true) : (vecTask ty j lowest s).wf = true := by
  unfold vecTask
  split
  · exact h
  · refine ite_wf h (ite_wf (failArg_wf h) (ite_wf (failArg_wf h) (ite_wf (coreAbort_wf h) ?_)))
    exact vecSettle_wf (State.updCore_vec_wf vecStart_wf (served_wf (begin_wf h)))

/-! #### Machine/VecScalar.lean -/

theorem twaitTake_wf {core port key d : Nat} {v : VecState} {s : State} (hv : v.wf = true) (h : s.wf = true) :
    VResWf (.ok (twaitTake core port key d v s).1 1 (twaitTake core port key d v s).2) :=
  ⟨VecState.setX_wf (v := { v with wait := none }) hv, setTaken_wf h⟩

theorem execVuTwait_wf {core : Nat} {f : VecFields} {s : State} (h : s.wf = true) : OutcomeWf (execVuTwait core f s) := by
  refine vecIssue_wf (fun v t hv ht => ?_) h
  extract_lets port
  split
  · exact vecTarget_wf ht
  · exact .ite hv (twaitTake_wf hv ht)

theorem execVuTpop_wf {core : Nat} {f : VecFields} {s : State} (h : s.wf = true) : OutcomeWf (execVuTpop core f s) := by
  refine vecIssue_wf (fun v t hv ht => ?_) h
  split
  · exact vecTarget_wf ht
  · exact .ite (vecTarget_wf ht) ⟨hv, popPort_wf ht⟩

theorem execVuTcount_wf {core : Nat} {f : VecFields} {s : State} (h : s.wf = true) : OutcomeWf (execVuTcount core f s) := by
  unfold execVuTcount
  refine vecIssue_wf (fun v1 s1 h1 h2 => ?_) h
  extract_lets n
  exact ⟨VecState.setX_wf h1, h2⟩

/-! #### Machine/Student.lean -/

theorem sePassTake_wf {j op : Nat} {plan : Nat → Bytes → List (List (List Nat)) → State → Plan} {s : State} (h : s.wf = true) :
    (sePassTake j op plan s).wf = true := by
  unfold sePassTake
  split
  · exact h
  · extract_lets r k pl
    refine ite_wf h (ite_wf (refuse_wf h) ?_)
    split
    · exact failArg_wf h
    · refine ite_wf (coreAbort_wf h) ?_
      split
      · exact markedAbort_wf h
      · exact runPass_wf h

/-! #### Machine/KdLoss.lean -/

theorem kdEnd_wf {core status reason : Nat} {bit code : Option Nat} {addr : Nat} {s : State} (h : s.wf = true) :
    (kdEnd core status reason bit code addr s).wf = true := by
  unfold kdEnd
  split
  · exact h
  · split
    extract_lets r ix
    split
    rename_i e
    have ht := snd_wf e (State.fresh_wf h)
    extract_lets s1 s2 s3
    have hs1 : s1.wf = true := State.updCore_wf rfl ht
    have hs2 : s2.wf = true := by
      unfold s2
      split
      · exact setErr_wf _ _ _ _ _ _ hs1
      · exact hs1
    have hs3 : s3.wf = true := finish_wf hs2
    split
    · exact raise_wf _ hs3
    · exact hs3

theorem kdStep_wf {core key : Nat} {d : Bytes} {v : KdState} {s : State} (h : s.wf = true) : (kdStep core key d v s).wf = true := by
  unfold kdStep
  extract_lets p at_ logits rd z hard t g s1 s2 s3 s4 nf
  have hs1 : s1.wf = true := sramWrite_wf _ _ _ h
  have hs2 : s2.wf = true := sramWrite_wf _ _ _ hs1
  have hs3 : s3.wf = true := popPort_wf (spent_wf hs2)
  have hs4 : s4.wf = true := ite_wf (bump_wf _ _ _ _ hs3) hs3
  split
  · exact ite_wf (kdEnd_wf h) (kdEnd_wf h)
  · exact State.updCore_wf rfl hs4

theorem kdRun_wf {core n : Nat} {s : State} (h : s.wf = true) : (kdRun core n s).wf = true := by
  induction n generalizing s with
  | zero => exact h
  | succ n ih =>
    unfold kdRun
    split
    · exact h
    · split
      · exact h
      · extract_lets d
        refine ite_wf (kdEnd_wf h) ?_
        split
        · exact kdEnd_wf h
        · exact ite_wf h (ih (kdStep_wf h))

theorem execSeKdLoss_wf {ring : Nat} {s : State} (h : s.wf = true) : OutcomeWf (execSeKdLoss ring s) := by
  unfold execSeKdLoss
  split
  · exact h
  · extract_lets r k s1
    have hs1 : s1.wf = true := served_wf (begin_wf h)
    refine .ite h ?_
    split
    · exact failArg_wf h
    · refine .ite (coreAbort_wf h) ?_
      split
      · exact markedAbort_wf h
      · exact kdRun_wf (State.updCore_wf rfl hs1)

theorem execTwaitWake_wf {core : Nat} {s : State} (h : s.wf = true) : OutcomeWf (execTwaitWake core s) := by
  refine .ite h ?_
  split
  · next v e =>
    have hv : v.wf = true := by simpa [e] using State.core_vec_wf core h
    split
    · exact h
    · next port d _ =>
      split
      · exact vecTarget_wf h
      · next key _ =>
        obtain ⟨hw, ht⟩ := twaitTake_wf (core := core) (port := port) (key := key) (d := d) hv h
        exact .ite h (vecNext_wf hw (spent_wf ht))
  · split
    · exact kdRun_wf (spent_wf h)
    · exact h
  · exact h

/-! #### Machine/Port.lean -/

theorem portTo_wf {p st : Nat} {s : State} (h : s.wf = true) : (portTo p st s).wf = true := ite_wf h (logPush_wf _ _ _ (State.updPort_wf h))

theorem portErr_wf {p bit : Nat} {s : State} (h : s.wf = true) : (portErr p bit s).wf = true := State.updUnit_wf h

theorem resendAll_wf {p : Nat} {s : State} (h : s.wf = true) : (resendAll p s).wf = true :=
  State.updPort_wf (foldl_wf (fun _ _ h1 => portEmit_wf h1) h)

theorem portHold_wf {p : Nat} {s : State} (h : s.wf = true) : (portHold p s).wf = true := by
  unfold portHold
  extract_lets x s1
  have hs1 : s1.wf = true := State.setPort_wf h
  exact State.with_wf hs1

theorem portDown_wf {p : Nat} {s : State} (h : s.wf = true) : (portDown p s).wf = true :=
  bump_wf _ _ _ _ (portErr_wf (portTo_wf (portHold_wf h)))

theorem portReplay_wf {p : Nat} {s : State} (h : s.wf = true) : (portReplay p s).wf = true :=
  ite_wf (resendAll_wf (State.setPort_wf (bump_wf _ _ _ _ h))) (ite_wf (portDown_wf (State.setPort_wf (bump_wf _ _ _ _ h))) (bump_wf _ _ _
  _ (portErr_wf (portTo_wf (State.setPort_wf (bump_wf _ _ _ _ h))))))

theorem execPortLightDetect_wf {port : Nat} {s : State} (h : s.wf = true) : OutcomeWf (execPortLightDetect port s) := by
  unfold execPortLightDetect
  extract_lets x s1
  have hs1 : s1.wf = true := State.setPort_wf h
  exact .ite h (.ite (portTo_wf hs1) hs1)

theorem portUp_wf {p : Nat} {s : State} (h : s.wf = true) : (portUp p s).wf = true := portTo_wf (State.updPort_wf h)

theorem execTrainingComplete_wf {port peer pport waves : Nat} {twin : Bool} {s : State} (h : s.wf = true) :
    OutcomeWf (execTrainingComplete port peer pport waves twin s) := by
  refine .ite h ?_
  extract_lets s1
  have hs1 : s1.wf = true := State.updPort_wf h
  exact .ite (portDown_wf hs1) (.ite (portErr_wf (portTo_wf hs1)) (portUp_wf hs1))

theorem execLossOfLight_wf {port : Nat} {s : State} (h : s.wf = true) : OutcomeWf (execLossOfLight port s) := by
  unfold execLossOfLight
  extract_lets x s1
  have hs1 : s1.wf = true := State.setPort_wf h
  exact .ite h (.ite (portErr_wf (portTo_wf (portHold_wf hs1))) (.ite (portTo_wf hs1) (.ite (portTo_wf hs1) hs1)))

theorem execLaserInputLow_wf {port : Nat} {s : State} (h : s.wf = true) : OutcomeWf (execLaserInputLow port s) := by
  unfold execLaserInputLow
  extract_lets x s1
  have hs1 : s1.wf = true := portErr_wf (State.setPort_wf h)
  exact .ite h (.ite (portErr_wf (portTo_wf (portHold_wf hs1))) (.ite (portTo_wf hs1) hs1))

/-! #### Machine/Cfg.lean -/

theorem setTxn_wf {t : Txn} {s : State} (h : s.wf = true) : (setTxn t s).wf = true := h

theorem dropTxn_wf {c : Nat} {s : State} (h : s.wf = true) : (dropTxn c s).wf = true := h

theorem setHolds_wf {items : List CfgItem} {v : Bool} {s : State} (h : s.wf = true) : (setHolds items v s).wf = true :=
  foldl_wf (fun _ _ h1 => State.updUnit_wf h1) h

theorem cfgStart_wf {s : State} (h : s.wf = true) : (cfgStart s).wf = true := by
  unfold cfgStart
  split
  · exact setHolds_wf (setTxn_wf h)
  · exact h

theorem planKick_wf {s : State} (h : s.wf = true) : (planKick s).wf = true := by
  unfold planKick
  split
  · refine ite_wf h ?_
    extract_lets id t s1 first _ s2
    have hs1 : s1.wf = true := setTxn_wf (State.updCtx_wf h)
    have hs2 : s2.wf = true := State.with_wf hs1
    exact ite_wf (cfgStart_wf hs2) hs2
  · exact h

theorem applyItem_wf {i : CfgItem} {s : State} (h : s.wf = true) : (applyItem i s).wf = true :=
  ite_wf (ite_wf (ite_wf (State.updUnit_wf h) (portTo_wf (ite_wf (portHold_wf (State.updUnit_wf h)) (State.updUnit_wf h)))) (ite_wf
  (portTo_wf (State.updUnit_wf h)) (State.updUnit_wf h))) (State.updUnit_wf h)

theorem planEnd_wf {status : Nat} {s : State} (h : s.wf = true) : (planEnd status s).wf = true := by
  refine ite_wf ?_ h
  extract_lets rest _ s1
  have hs1 : s1.wf = true := bump_wf _ _ _ _ h
  exact ite_wf (logPush_wf _ _ _ (State.with_wf hs1)) hs1

theorem cfgClose_wf {status : Nat} {s : State} (h : s.wf = true) : (cfgClose status s).2.wf = true := by
  unfold cfgClose
  split
  · exact h
  · extract_lets s1 s2 s3
    have hs1 : s1.wf = true := ite_wf (foldl_wf (fun _ _ h1 => applyItem_wf h1) h) h
    have hs2 : s2.wf = true := dropTxn_wf (setHolds_wf hs1)
    have hs3 : s3.wf = true := foldl_wf (fun _ _ h1 => ite_wf (portGo_wf h1) h1) hs2
    exact State.with_wf hs3

theorem cfgEnd_wf {status detail : Nat} {s : State} (h : s.wf = true) : (cfgEnd status detail s).wf = true := by
  unfold cfgEnd
  split
  · exact h
  · split
    rename_i e
    have ht := snd_wf e (cfgClose_wf h)
    extract_lets r s1
    have hs1 : s1.wf = true := by
      unfold s1
      split
      · exact finishOp_wf _ _ _ _ _ ht
      · exact ite_wf (planEnd_wf ht) (completeHeld_wf ht)
    exact planKick_wf (cfgStart_wf hs1)

theorem specCfgBegin_wf : SpecWf specCfgBegin := by
  refine ⟨fun i p s h => ?_, fun _ h => h⟩
  unfold specCfgBegin
  dsimp -zeta only
  split
  · exact trivial
  · extract_lets id
    exact setTxn_wf (State.updCtx_wf h)

theorem specCfgSet_wf : SpecWf specCfgSet := by
  refine ⟨fun i p s h => ?_, fun _ h => h⟩
  unfold specCfgSet
  dsimp -zeta only
  extract_lets n items all
  split
  · exact trivial
  · split
    · exact trivial
    · split
      · exact trivial
      · refine .ite trivial ?_
        split
        · exact trivial
        · extract_lets staged
          exact .ite trivial (.ite trivial (setTxn_wf h))

theorem specCfgCommit_wf : SpecWf specCfgCommit := by
  refine ⟨fun i p s h => ?_, fun _ h => h⟩
  unfold specCfgCommit
  dsimp -zeta only
  split
  · exact trivial
  · split
    · exact trivial
    · refine .ite trivial ?_
      extract_lets first t _ s1 s2
      have hs1 : s1.wf = true := setTxn_wf h
      have hs2 : s2.wf = true := ite_wf (cfgStart_wf hs1) hs1
      refine .ite hs2 (.ite hs2 ?_)
      split
      · exact planKick_wf (cfgStart_wf (cfgClose_wf hs2))
      · exact hs2
      · exact planKick_wf (cfgStart_wf (cfgClose_wf hs2))

theorem specCfgRollback_wf : SpecWf specCfgRollback := by
  refine ⟨fun i p s h => ?_, fun _ h => h⟩
  unfold specCfgRollback
  dsimp -zeta only
  split
  · exact trivial
  · split
    · exact trivial
    · exact .ite trivial (planKick_wf (dropTxn_wf h))

theorem specCfgQuery_wf : SpecWf specCfgQuery := by
  refine ⟨fun i p s h => .ite trivial ?_, fun _ h => h⟩
  split
  · exact trivial
  · exact h

theorem execCfgCommitAllHold_wf {s : State} (h : s.wf = true) : OutcomeWf (execCfgCommitAllHold s) := by
  unfold execCfgCommitAllHold
  split
  · exact .ite h (cfgEnd_wf h)
  · exact h

theorem execCfgCommitReject_wf {ty inst : Nat} {s : State} (h : s.wf = true) : OutcomeWf (execCfgCommitReject ty inst s) := by
  unfold execCfgCommitReject
  split
  · exact .ite h (cfgEnd_wf h)
  · exact h

theorem execCfgQuiesceTimeout_wf {s : State} (h : s.wf = true) : OutcomeWf (execCfgQuiesceTimeout s) := by
  unfold execCfgQuiesceTimeout
  split
  · refine .ite h ?_
    split
    · exact cfgEnd_wf (atLeast_wf _ h)
    · exact h
  · exact h

theorem execCfgTxnTimeout_wf {ctx : Nat} {s : State} (h : s.wf = true) : OutcomeWf (execCfgTxnTimeout ctx s) := by
  unfold execCfgTxnTimeout
  split
  · refine .ite h ?_
    extract_lets s1
    have hs1 : s1.wf = true := dropTxn_wf (atLeast_wf _ h)
    exact planKick_wf (State.with_wf hs1)
  · exact h

/-! #### Machine/Store.lean -/

theorem storeCnt_wf {c n k : Nat} {s : State} (h : s.wf = true) : (storeCnt c n k s).wf = true := ite_wf h (bump_wf _ _ _ _ h)

theorem storeErr_wf {c bit : Nat} {s : State} (h : s.wf = true) : (storeErr c bit s).wf = true := State.updUnit_wf h

theorem countRead_wf {c k n : Nat} {s : State} (h : s.wf = true) : (countRead c k n s).wf = true :=
  ite_wf (storeErr_wf (storeCnt_wf (State.updCtl_wf h))) (storeCnt_wf (State.updCtl_wf h))

theorem charge_wf {c cls t : Nat} {s : State} (h : s.wf = true) : (charge c cls t s).wf = true := State.updCtl_wf h

theorem readServed_wf {c : Nat} {pl : Nat × Nat} {ring : Option Nat} {a : Nat} {s : State} (h : s.wf = true) :
    (readServed c pl ring a s).wf = true := by
  unfold readServed
  extract_lets t s1 s2
  have hs1 : s1.wf = true := by
    unfold s1
    clear_value t
    split
    · exact State.updCtl_wf h
    · exact h
  have hs2 : s2.wf = true := by
    unfold s2
    split
    · exact State.updRing_wf hs1
    · exact hs1
  exact charge_wf hs2

theorem damage_wf {h : Nat} {s : State} (hw : s.wf = true) : (damage h s).wf = true := by
  unfold damage
  split
  · exact ite_wf (State.setImage_wf hw) hw
  · exact hw

theorem poisonCodeword_wf {c a : Nat} {s : State} (h : s.wf = true) : (poisonCodeword c a s).wf = true := by
  refine ite_wf h ?_
  extract_lets img _ s1 s2 s3 owner s4
  have hs1 : s1.wf = true := h
  have hs2 : s2.wf = true := storeCnt_wf hs1
  have hs3 : s3.wf = true := State.updUnit_wf hs2
  have hs4 : s4.wf = true := raise_wf _ hs3
  clear_value img
  split
  · exact damage_wf hs4
  · exact hs4

theorem readCodeword.go_wf {p : PagePos} {k i : Nat} {scrub : Bool} {d : Decode} {c : Nat} {x : Ctl} {dead : Bool} {lost : List Nat}
    {step : Nat} {addr : Option Nat} {s : State} (h : s.wf = true) :
    (readCodeword.go p k i scrub d c x dead lost step addr s).wf = true := by
  unfold readCodeword.go
  extract_lets max_ retries s1 s2 s3 s4 s5 s6 weak s7 s8 s9
  have hs1 : s1.wf = true := ite_wf (storeCnt_wf h) h
  have hs2 : s2.wf = true := storeCnt_wf hs1
  have hs3 : s3.wf = true := ite_wf (storeCnt_wf hs2) hs2
  have hs4 : s4.wf = true := by
    unfold s4
    refine ite_wf ?_ hs3
    refine foldl_wf (fun s10 x1 h1 => ?_) hs3
    extract_lets km
    exact ite_wf h1 (countRead_wf h1)
  have hs5 : s5.wf = true := ite_wf (storeErr_wf (storeCnt_wf hs4)) hs4
  have hs6 : s6.wf = true := ite_wf (raise_wf _ hs5) hs5
  have hs7 : s7.wf = true := ite_wf (State.updCtl_wf hs6) hs6
  have hs8 : s8.wf = true := ite_wf (State.updCtl_wf hs7) hs7
  have hs9 : s9.wf = true := by
    unfold s9
    split
    · exact storeCnt_wf (poisonCodeword_wf hs8)
    · exact hs8
  refine ite_wf ?_ hs8
  refine foldl_wf (fun s10 x1 h1 => ?_) hs9
  split
  · exact poisonCodeword_wf h1
  · exact h1

theorem readCodeword_wf {p : PagePos} {k i : Nat} {scrub : Bool} {d : Decode} {s : State} (h : s.wf = true) :
    (readCodeword p k i scrub d s).wf = true := by
  unfold readCodeword
  extract_lets c x dead lost lost1 step addr
  clear_value addr
  split
  · exact ite_wf (storeCnt_wf h) (readCodeword.go_wf h)
  · exact readCodeword.go_wf h

theorem secondHit_wf {c k : Nat} {old : List Nat} {s : State} (h : s.wf = true) : (secondHit c k old s).wf = true := State.updCtl_wf h

theorem readPage_wf {c k row : Nat} {scrub : Bool} {ds : List Decode} {s : State} (h : s.wf = true) :
    (readPage c k row scrub ds s).wf = true := by
  unfold readPage
  split
  · exact h
  · extract_lets p known s1 old
    have hs1 : s1.wf = true := ite_wf h (countRead_wf h)
    exact secondHit_wf (foldl_wf (fun _ _ h1 => readCodeword_wf h1) hs1)

theorem execStorePageReadComplete_wf {c die block row : Nat} {susp : Bool} {ds : List Decode} {s : State} (h : s.wf = true) :
    OutcomeWf (execStorePageReadComplete c die block row susp ds s) := by
  refine .ite h ?_
  split
  · exact h
  · extract_lets s1 s2
    have hs1 : s1.wf = true := readServed_wf h
    have hs2 : s2.wf = true := storeCnt_wf (readPage_wf hs1)
    exact ite_wf (storeCnt_wf hs2) hs2

theorem drawSlc_wf {c : Nat} {s : State} (h : s.wf = true) : (drawSlc c s).wf = true := by
  unfold drawSlc
  refine ite_wf h ?_
  split
  · exact State.setCtl_wf h
  · exact h

theorem spareLow_wf {c before : Nat} {s : State} (h : s.wf = true) : (spareLow c before s).wf = true := ite_wf (storeErr_wf h) h

theorem execStoreProgramComplete_wf {c die block : Nat} {ok : Bool} {susp : Nat} {s : State} (h : s.wf = true) :
    OutcomeWf (execStoreProgramComplete c die block ok susp s) := by
  unfold execStoreProgramComplete
  extract_lets k x b s1 n pages s2 s3 gone low s4 s5
  have hs1 : s1.wf = true := charge_wf (storeCnt_wf h)
  have hs2 : s2.wf = true := storeCnt_wf hs1
  have hs3 : s3.wf = true := State.updCtl_wf hs2
  have hs4 : s4.wf = true := storeErr_wf (State.updCtl_wf hs1)
  have hs5 : s5.wf = true := by
    unfold s5
    split
    · exact hs4
    · extract_lets s6
      have hs6 : s6.wf = true := by
        unfold s6
        split
        · exact State.updCtl_wf hs4
        · exact hs4
      split
      · exact ite_wf (State.updCtl_wf hs6) hs6
      · exact hs6
  refine .ite h (.ite ?_ (spareLow_wf (drawSlc_wf hs5)))
  clear_value gone
  split
  · exact State.updCtl_wf hs3
  · exact hs3

theorem slcFreed_wf {c k : Nat} {s : State} (h : s.wf = true) : (slcFreed c k s).wf = true := by
  unfold slcFreed
  split
  · exact ite_wf h h
  · exact h

theorem execStoreEraseComplete_wf {c die block : Nat} {ok : Bool} {susp : Nat} {s : State} (h : s.wf = true) :
    OutcomeWf (execStoreEraseComplete c die block ok susp s) := by
  unfold execStoreEraseComplete
  extract_lets k x b del s1 s2 _ low
  have hs1 : s1.wf = true := charge_wf (storeCnt_wf h)
  have hs2 : s2.wf = true := ite_wf (slcFreed_wf hs1) hs1
  exact .ite h (.ite (storeCnt_wf (State.updCtl_wf hs2)) (spareLow_wf (drawSlc_wf (storeErr_wf (State.updCtl_wf hs2)))))

theorem execRelocationStart_wf {c : Nat} {s : State} (h : s.wf = true) : OutcomeWf (execRelocationStart c s) := by
  refine .ite h ?_
  split
  · exact h
  · split
    · extract_lets y y1
      exact spareLow_wf (drawSlc_wf (State.setCtl_wf h))
    · exact h

theorem execRelocationSwitch_wf {c : Nat} {s : State} (h : s.wf = true) : OutcomeWf (execRelocationSwitch c s) := by
  refine .ite h ?_
  split
  · exact h
  · extract_lets b old _ s1 s2 s3 s4
    have hs1 : s1.wf = true := charge_wf h
    have hs2 : s2.wf = true := ite_wf hs1 (countRead_wf hs1)
    have hs3 : s3.wf = true := State.updCtl_wf hs2
    have hs4 : s4.wf = true := State.updCtl_wf hs3
    exact .ite h (.ite (State.setCtl_wf h) (storeCnt_wf (storeCnt_wf hs4)))

theorem execStoreDieTimeout_wf {c die : Nat} {s : State} (h : s.wf = true) : OutcomeWf (execStoreDieTimeout c die s) := by
  unfold execStoreDieTimeout
  extract_lets x failed second s1 e owners s2 lost cws s3 s4
  have hs2 : s2.wf = true := raiseUnit_wf (storeErr_wf (State.setCtl_wf h))
  have hs3 : s3.wf = true := storeCnt_wf hs2
  have hs4 : s4.wf = true := by
    unfold s4
    clear_value lost
    cases lost with
    | nil => exact hs3
    | cons st l => exact State.updUnit_wf hs3
  clear_value s2 s4
  exact .ite h (.ite (raiseUnit_wf (foldl_wf (fun _ _ h => damage_wf h) hs4)) hs2)

theorem meter_wf {c n : Nat} {exempt : Bool} {s : State} (h : s.wf = true) : (meter c n exempt s).wf = true := by
  unfold meter
  extract_lets x
  split
  extract_lets r done dt excess held slow
  split
  extract_lets s1
  have hs1 : s1.wf = true := State.setCtl_wf h
  exact storeCnt_wf (atLeast_wf _ hs1)

theorem execMeteredSlcWrite_wf {addr : Nat} {data : Bytes} {s : State} (h : s.wf = true) : OutcomeWf (execMeteredSlcWrite addr data s) := by
  unfold execMeteredSlcWrite
  extract_lets n
  split
  · exact h
  · extract_lets c x room s1 _ s2
    have hs1 : s1.wf = true := meter_wf h
    have hs2 : s2.wf = true := State.storeWrite_wf hs1
    exact .ite h (ite_wf hs2 (State.updCtl_wf hs2))

theorem replayDump_wf {c : Nat} {ok : Bool} {s : State} (h : s.wf = true) : (replayDump c ok s).wf = true := by
  unfold replayDump
  extract_lets x s1 s2 s3
  have hs1 : s1.wf = true := State.setCtl_wf h
  have hs2 : s2.wf = true := State.updCtl_wf hs1
  have hs3 : s3.wf = true := storeCnt_wf hs2
  split
  · exact State.updCtl_wf hs1
  · refine ite_wf ?_ (foldl_wf (fun _ _ h1 => foldl_wf (fun _ _ h2 => poisonCodeword_wf h2) h1) hs3)
    extract_lets n
    exact storeErr_wf (storeCnt_wf (meter_wf hs3))

theorem execStoreScrubStageComplete_wf {c : Nat} {ok : Bool} {s : State} (h : s.wf = true) :
    OutcomeWf (execStoreScrubStageComplete c ok s) := by
  unfold execStoreScrubStageComplete
  extract_lets x s1
  have hs1 : s1.wf = true := by
    unfold s1
    refine ite_wf (State.setCtl_wf h) ?_
    split
    · exact h
    · extract_lets s2
      have hs2 : s2.wf = true := State.setCtl_wf h
      refine ite_wf ?_ hs2
      split
      · exact State.setImage_wf hs2
      · exact hs2
  exact .ite h (.ite (replayDump_wf h) (.ite (State.updCtl_wf hs1) hs1))

/-! #### Machine/Power.lean -/

theorem updLoupe_wf {f : Loupe → Loupe} {s : State} (h : s.wf = true) : (updLoupe f s).wf = true := h

theorem loupeErr_wf {bit kind : Nat} {s : State} (h : s.wf = true) : (loupeErr bit kind s).wf = true := setErr_wf _ _ _ _ _ _ h

theorem notifyTenants_wf {kind seq : Nat} {s : State} (h : s.wf = true) : (notifyTenants kind seq s).wf = true :=
  foldl_wf (fun _ _ h1 => notify_wf _ _ _ h1) h

theorem execCurrentLimitSample_wf {amps vin : Nat} {s : State} (h : s.wf = true) : OutcomeWf (execCurrentLimitSample amps vin s) := by
  refine .ite h ?_
  extract_lets s1 l lim ns s2 l1 s3
  have hs1 : s1.wf = true := atLeast_wf _ h
  have hs2 : s2.wf = true := bump_wf _ _ _ _ hs1
  have hs3 : s3.wf = true := State.with_wf hs2
  refine .ite (ite_wf (loupeErr_wf (logPush_wf _ _ _ hs3)) hs3) (.ite ?_ (State.with_wf hs2))
  split
  · exact State.with_wf hs2
  · exact .ite (State.with_wf hs2) (State.with_wf hs2)

theorem execWindowLimitEval_wf {mw : Nat} {s : State} (h : s.wf = true) : OutcomeWf (execWindowLimitEval mw s) := by
  refine .ite h ?_
  extract_lets s1 l ns s2 on s3
  have hs1 : s1.wf = true := atLeast_wf _ h
  have hs2 : s2.wf = true := bump_wf _ _ _ _ hs1
  have hs3 : s3.wf = true := State.with_wf hs2
  exact ite_wf (logPush_wf _ _ _ hs3) hs3

theorem stepDie_wf {die f : Nat} {s : State} (h : s.wf = true) : (stepDie die f s).wf = true := bump_wf _ _ _ _ (updLoupe_wf h)

theorem clampDie_wf {die : Nat} {s : State} (h : s.wf = true) : (clampDie die s).wf = true := ite_wf h (bump_wf _ _ _ _ (updLoupe_wf h))

theorem reservoirStep_wf {mw : Nat} {s : State} (h : s.wf = true) : (reservoirStep mw s).wf = true := by
  unfold reservoirStep
  extract_lets l cap r s1
  have hs1 : s1.wf = true := State.with_wf h
  clear_value s1
  exact ite_wf (logPush_wf _ _ _ hs1) hs1

theorem govern_wf {mw : Nat} {s : State} (h : s.wf = true) : (govern mw s).wf = true := by
  unfold govern
  extract_lets l fast s1
  have hs1 : s1.wf = true := updLoupe_wf h
  split
  · exact ite_wf (ite_wf (stepDie_wf h) h) (updLoupe_wf h)
  · split
    · split
      · exact stepDie_wf hs1
      · exact hs1
    refine ite_wf ?_ hs1
    split
    · exact stepDie_wf hs1
    · exact hs1

theorem execGovernorStep_wf {mw : Nat} {s : State} (h : s.wf = true) : OutcomeWf (execGovernorStep mw s) := by
  refine .ite h ?_
  extract_lets s1 l caps s2 s3 s4 s5 s6 s7 s8
  have hs1 : s1.wf = true := atLeast_wf _ h
  have hs2 : s2.wf = true := bump_wf _ _ _ _ hs1
  have hs3 : s3.wf = true := ite_wf hs2 (bump_wf _ _ _ _ hs2)
  have hs4 : s4.wf = true := ite_wf (bump_wf _ _ _ _ hs3) hs3
  have hs5 : s5.wf = true := State.with_wf hs4
  have hs6 : s6.wf = true := reservoirStep_wf (foldl_wf (fun _ _ h1 => clampDie_wf h1) hs5)
  have hs7 : s7.wf = true := updLoupe_wf hs6
  have hs8 : s8.wf = true := govern_wf hs7
  exact updLoupe_wf hs8

theorem throttleOn_wf {die : Nat} {s : State} (h : s.wf = true) : (throttleOn die s).wf = true :=
  ite_wf h (ite_wf (updLoupe_wf (loupeErr_wf (logPush_wf _ _ _ h))) (logPush_wf _ _ _ (updLoupe_wf (loupeErr_wf (logPush_wf _ _ _ h)))))

theorem throttleOff_wf {die : Nat} {s : State} (h : s.wf = true) : (throttleOff die s).wf = true :=
  ite_wf h (notifyTenants_wf (logPush_wf _ _ _ (updLoupe_wf h)))

theorem junction_wf {die sensor : Nat} {t : Int} {s : State} (h : s.wf = true) : (junction die sensor t s).wf = true := by
  unfold junction
  extract_lets l s1 s2
  have hs1 : s1.wf = true := updLoupe_wf h
  have hs2 : s2.wf = true := ite_wf (loupeErr_wf (bump_wf _ _ _ _ (logPush_wf _ _ _ (updLoupe_wf hs1)))) (ite_wf (updLoupe_wf hs1) hs1)
  exact ite_wf (throttleOn_wf hs2) (throttleOff_wf hs2)

theorem storeHeat_wf {stack : Nat} {t : Int} {s : State} (h : s.wf = true) : (storeHeat stack t s).wf = true :=
  foldl_wf (fun _ _ h1 => State.updCtl_wf h1) (updLoupe_wf h)

theorem execThermalSample_wf {cls inst sensor : Nat} {temp : Int} {s : State} (h : s.wf = true) :
    OutcomeWf (execThermalSample cls inst sensor temp s) := by
  refine .ite h (.ite (.ite (junction_wf h) h) ?_)
  split
  · refine .ite h ?_
    extract_lets die s1
    have hs1 : s1.wf = true := updLoupe_wf h
    exact ite_wf (throttleOn_wf hs1) (throttleOff_wf hs1)
  refine .ite (.ite (storeHeat_wf h) h) (.ite ?_ h)
  extract_lets s1
  have hs1 : s1.wf = true := updLoupe_wf h
  exact ite_wf (logPush_wf _ _ _ hs1) hs1

theorem execSensorAgentTimeout_wf {die : Nat} {s : State} (h : s.wf = true) : OutcomeWf (execSensorAgentTimeout die s) := by
  refine .ite h ?_
  extract_lets s1 s2
  have hs1 : s1.wf = true := setErr_wf _ _ _ _ _ _ h
  have hs2 : s2.wf = true := updLoupe_wf hs1
  exact throttleOn_wf hs2

theorem programHold_wf {v : Bool} {s : State} (h : s.wf = true) : (programHold v s).wf = true :=
  foldl_wf (fun _ _ h1 => State.updCtl_wf h1) h

theorem execDipLong_wf {s : State} (h : s.wf = true) : OutcomeWf (execDipLong s) := by
  unfold execDipLong
  split
  · exact h
  · exact logPush_wf _ _ _ (updLoupe_wf (atLeast_wf _ h))

theorem execVinDipEnd_wf {us mv : Nat} {s : State} (h : s.wf = true) : OutcomeWf (execVinDipEnd us mv s) := by
  unfold execVinDipEnd
  split
  · exact h
  · extract_lets s1 s2 seq
    have hs1 : s1.wf = true := atLeast_wf _ h
    have hs2 : s2.wf = true := programHold_wf (bump_wf _ _ _ _ (updLoupe_wf hs1))
    exact notifyTenants_wf (loupeErr_wf (logPush_wf _ _ _ hs2))

theorem flushStore_wf {s : State} (h : s.wf = true) : (flushStore s).wf = true :=
  foldl_wf (fun _ _ h1 => ite_wf (bump_wf _ _ _ _ (State.setCtl_wf h1)) (State.setCtl_wf h1)) h

/-- What remains with the logic dies off is in canonical form: the mailboxes of the MCTP transports, the memories of the host and of the
Store,
and the counters that outlast it. -/
theorem powerOff_wf {s : State} (h : s.wf = true) : (powerOff s).wf = true := by
  rw [State.wf_iff] at *
  obtain ⟨⟨-, -, hhost, hstore⟩, hmbs, -, -, -, hunits, -⟩ := h
  exact ⟨⟨rfl, rfl, hhost, hstore⟩, SMap.filter_wfFrom _ _ _ hmbs, rfl, rfl, rfl, coldUnits_wf hunits, rfl⟩

theorem execPowerLossFlush_wf {s : State} (h : s.wf = true) : OutcomeWf (execPowerLossFlush s) := by
  refine .ite h ?_
  extract_lets s1 on _ _ s2
  have hs1 : s1.wf = true := ite_wf (flushStore_wf h) h
  have hs2 : s2.wf = true := State.with_wf hs1
  exact powerOff_wf hs2

theorem execThermalTrip_wf {s : State} (h : s.wf = true) : OutcomeWf (execThermalTrip s) := by
  refine .ite h ?_
  extract_lets die seq s1 s2
  have hs1 : s1.wf = true := notifyTenants_wf (logPush_wf _ _ _ (bump_wf _ _ _ _ h))
  have hs2 : s2.wf = true := flushStore_wf hs1
  exact powerOff_wf (State.with_wf hs2)

theorem execTripRelease_wf {substrate : List Int} {s : State} (h : s.wf = true) : OutcomeWf (execTripRelease substrate s) := by
  unfold execTripRelease
  split
  · exact h
  · exact .ite h (updLoupe_wf (atLeast_wf _ h))

theorem logCopy_wf {s : State} (h : s.wf = true) : (logCopy s).wf = true := bump_wf _ _ _ _ (State.with_wf h)

theorem execVauxLost_wf {s : State} (h : s.wf = true) : OutcomeWf (execVauxLost s) := by
  refine .ite h ?_
  have hs1 : (if s.diesOn then logCopy (flushStore s) else s).wf = true := ite_wf (logCopy_wf (flushStore_wf h)) h
  exact State.with_wf (State.noMbs_wf (powerOff_wf (State.with_wf hs1)))

/-! #### Machine/Security.lean -/

theorem specSecCerts_wf : SpecWf specSecCerts := ⟨fun _ _ _ h => .ite trivial (.ite trivial h), fun _ h => h⟩

theorem measurements_wf {ixs : List Nat} {nonce reqCtx : Bytes} {sign : Bool} {slot : Nat} {s : State} (h : s.wf = true) :
    (measurements ixs nonce reqCtx sign slot s).2.wf = true := by
  unfold measurements
  extract_lets rec_ body s1
  have hs1 : s1.wf = true := h
  split
  · exact State.with_wf hs1
  exact hs1

theorem specSecMeasurements_wf : SpecWf specSecMeasurements := by
  refine ⟨fun i p s h => ?_, fun _ h => h⟩
  unfold specSecMeasurements
  dsimp -zeta only
  extract_lets c
  exact .ite trivial (.ite trivial (measurements_wf h))

theorem specSecCtxKeyRoll_wf :
    SpecWf specSecCtxKeyRoll := ⟨fun _ _ _ h => .ite trivial (.ite trivial (.ite trivial (.ite trivial (.ite trivial (.ite trivial (.ite
    trivial (.ite (State.setCtx_wf _ _ h) (.ite (State.setCtx_wf _ _ h) (State.setCtx_wf _ _ h))))))))), fun _ h => h⟩

theorem execKeyRollReencryptComplete_wf {ctx : Nat} {s : State} (h : s.wf = true) : OutcomeWf (execKeyRollReencryptComplete ctx s) := by
  unfold execKeyRollReencryptComplete
  split
  · exact h
  · refine .ite h ?_
    extract_lets e
    exact finishOp_wf _ _ _ _ _ (State.updCtx_wf h)

theorem specSecDebugState_wf : SpecWf specSecDebugState := by
  refine ⟨fun i p s h => ?_, fun _ h => h⟩
  unfold specSecDebugState
  dsimp -zeta only
  extract_lets op answer
  have hanswer : ∀ s1, s1.wf = true → ResWf (answer s1) := by
    intro s1 hs1
    unfold answer
    extract_lets o
    exact hs1
  refine .ite trivial (.ite trivial ?_)
  split
  · exact .ite trivial h
  split
  · exact h
  exact h

theorem spdmSend_wf {t : Nat} {bs : Bytes} {s : State} (h : s.wf = true) : (spdmSend t bs s).wf = true := h

theorem execSpdmGetCertificate_wf {transport slot off len : Nat} {s : State} (h : s.wf = true) :
    OutcomeWf (execSpdmGetCertificate transport slot off len s) := by
  refine .ite h (.ite (spdmSend_wf h) ?_)
  extract_lets rest part
  exact spdmSend_wf h

theorem execSpdmChallenge_wf {transport slot : Nat} {nonce : List Byte} {summary : Bool} {s : State} (h : s.wf = true) :
    OutcomeWf (execSpdmChallenge transport slot nonce summary s) := by
  refine .ite h (.ite (spdmSend_wf h) ?_)
  extract_lets body
  exact spdmSend_wf h

theorem execSpdmGetMeasurements_wf {transport index : Nat} {nonce : List Byte} {signed : Bool} {s : State} (h : s.wf = true) :
    OutcomeWf (execSpdmGetMeasurements transport index nonce signed s) := by
  refine .ite h ?_
  extract_lets ixs
  refine .ite (spdmSend_wf h) ?_
  split
  rename_i e
  have ht := snd_wf e (measurements_wf h)
  exact spdmSend_wf ht

/-! #### Machine/Loupe.lean -/

theorem specLoupeSensors_wf : SpecWf specLoupeSensors := ⟨fun _ _ _ h => .ite trivial h, fun _ h => h⟩

theorem specLoupeLedger_wf : SpecWf specLoupeLedger := ⟨fun _ _ _ h => h, fun _ h => h⟩

theorem specLoupeLogRead_wf : SpecWf specLoupeLogRead := ⟨fun _ _ _ h => .ite trivial h, fun _ h => h⟩

theorem specLoupePowerCap_wf : SpecWf specLoupePowerCap := ⟨fun _ _ _ h => .ite trivial (.ite trivial (updLoupe_wf h)), fun _ h => h⟩

theorem specLoupeFwStage_wf :
    SpecWf specLoupeFwStage := ⟨fun _ _ _ h => .ite trivial (.ite trivial (.ite trivial (.ite trivial (.ite trivial (.ite (raise_wf _ h)
    (updLoupe_wf h)))))), fun _ h => h⟩

theorem execFwStageVerified_wf {s : State} (h : s.wf = true) : OutcomeWf (execFwStageVerified s) := by
  unfold execFwStageVerified
  split
  · exact h
  · extract_lets k s1
    have hs1 : s1.wf = true := updLoupe_wf h
    split
    · exact finishOp_wf _ _ _ _ _ hs1
    · refine .ite (finishOp_wf _ _ _ _ _ hs1) ?_
      extract_lets s2
      have hs2 : s2.wf = true := updLoupe_wf hs1
      exact finishOp_wf _ _ _ _ _ (logPush_wf _ _ _ hs2)

theorem specLoupeFwActivate_wf : SpecWf specLoupeFwActivate := by
  refine ⟨fun i p s h => ?_, fun _ h => h⟩
  unfold specLoupeFwActivate
  dsimp -zeta only
  extract_lets op l noSlot
  have hno : ResWf noSlot := trivial
  exact .ite (.ite trivial (.ite trivial (.ite hno (State.with_wf h))))
    (.ite (.ite trivial (.ite hno (updLoupe_wf h))) (.ite (.ite hno (State.with_wf h)) trivial))

theorem execFuseStepComplete_wf {s : State} (h : s.wf = true) : OutcomeWf (execFuseStepComplete s) := by
  unfold execFuseStepComplete
  split
  · exact h
  · extract_lets _ s1 k s2
    have hs1 : s1.wf = true := ite_wf (logPush_wf _ _ _ h) h
    have hs2 : s2.wf = true := updLoupe_wf hs1
    exact .ite (finishOp_wf _ _ _ _ _ hs2) (.ite (finishOp_wf _ _ _ _ _ (updLoupe_wf hs1)) hs1)

theorem planStart_wf {items : List (Nat × Nat × Nat × Nat)} {s : State} (h : s.wf = true) : (planStart items s).wf = true :=
  ite_wf (logPush_wf _ _ _ (updLoupe_wf h)) (planKick_wf (updLoupe_wf h))

theorem execReplan_wf {idle : Bool} {meas : List (Nat × Nat × Nat × Nat × Nat)} {drift : List (Nat × Nat)} {wants : List
    (Nat × Nat × Nat × Nat)} {s : State} (h : s.wf = true) : OutcomeWf (execReplan idle meas drift wants s) := by
  refine .ite h ?_
  extract_lets s1 s2 items
  have hs1 : s1.wf = true := ite_wf (atLeast_wf _ h) (atLeast_wf _ h)
  have hs2 : s2.wf = true := updLoupe_wf hs1
  exact planStart_wf hs2

theorem execReplanLate_wf {s : State} (h : s.wf = true) : OutcomeWf (execReplanLate s) := by
  refine .ite h ?_
  extract_lets s1
  have hs1 : s1.wf = true := atLeast_wf _ h
  exact loupeErr_wf (logPush_wf _ _ _ (updLoupe_wf hs1))

/-! #### Machine/Beam.lean -/

theorem collEnd_wf {j status reason lost lb : Nat} {s : State} (h : s.wf = true) : (collEnd j status reason lost lb s).wf = true := by
  unfold collEnd
  split
  · extract_lets e s1 s2
    have hs1 : s1.wf = true := bump_wf _ _ _ _ h
    have hs2 : s2.wf = true := ite_wf hs1 (setErr_wf _ _ _ _ _ _ hs1)
    exact finish_wf hs2
  · exact h

theorem collGo_wf {j : Nat} {others : Option (List Bytes)} {s : State} (h : s.wf = true) : (collGo j others s).wf = true := by
  unfold collGo
  split
  · exact h
  · extract_lets d g p r src s1
    have hs1 : s1.wf = true := hbmTaken_wf h
    refine ite_wf (collEnd_wf h) (ite_wf (collEnd_wf h) (ite_wf h ?_))
    split
    · exact h
    · refine ite_wf (collEnd_wf h) ?_
      extract_lets bs s2 s3 s4
      have hs2 : s2.wf = true := ite_wf hs1 (hbmWrite_wf _ _ hs1)
      have hs3 : s3.wf = true := ite_wf (bump_wf _ _ _ _ hs2) hs2
      have hs4 : s4.wf = true := ite_wf (spent_wf hs3) hs3
      exact collEnd_wf hs4

theorem execBeamColl_wf {ring : Nat} {others : Option (List (List Byte))} {s : State} (h : s.wf = true) :
    OutcomeWf (execBeamColl ring others s) := by
  unfold execBeamColl
  extract_lets r
  split
  · exact .ite (collGo_wf h) h
  · split
    · exact h
    · refine .ite h ?_
      split
      · exact .ite (bump_wf _ _ _ _ (failCheck_wf (setErr_wf _ _ _ _ _ _ h))) (failArg_wf h)
      · extract_lets gh g n s1 s2 len
        have hs1 : s1.wf = true := State.setGroup_wf h
        have hs2 : s2.wf = true := State.updRing_wf (served_wf (begin_wf hs1))
        exact .ite (raise_wf _ (collEnd_wf hs2)) (collGo_wf hs2)

theorem groupAbort_wf {g status reason lost : Nat} {s : State} (h : s.wf = true) : (groupAbort g status reason lost s).wf = true := by
  refine foldl_wf (fun s1 x1 h1 => ?_) h
  split
  · exact ite_wf (collEnd_wf h1) h1
  · exact h1

theorem groupUpd_wf {g status : Nat} {s : State} (h : s.wf = true) : (groupUpd g status s).wf = true := by
  unfold groupUpd
  split
  · exact h
  · refine ite_wf h ?_
    refine foldl_wf (fun s1 x1 h1 => ?_) h
    split
    · exact ite_wf h1 (ite_wf (exchangeLost_wf h1) (ite_wf (updInconsistent_wf h1) (ite_wf (State.updUpd_wf (updEnd_wf h1)) h1)))
    · exact h1

theorem buddyLost_wf {dev : Nat} {s : State} (h : s.wf = true) : (buddyLost dev s).wf = true := by
  unfold buddyLost
  split
  · refine ite_wf ?_ h
    extract_lets _ s1
    have hs1 : s1.wf = true := mirErr_wf h
    split
    · exact ite_wf (commitGo_wf (State.with_wf hs1)) (commitGo_wf hs1)
    · exact hs1
  · exact h

theorem groupBreakAt_wf {g r : Nat} {s : State} (h : s.wf = true) : (groupBreakAt g r s).wf = true :=
  groupUpd_wf (groupAbort_wf (ite_wf (State.with_wf (State.updGroup_wf h)) (State.updGroup_wf h)))

theorem groupBreak_wf {g dev : Nat} {s : State} (h : s.wf = true) : (groupBreak g dev s).wf = true := by
  unfold groupBreak
  extract_lets x
  split
  · exact h
  · exact ite_wf h (groupBreakAt_wf h)

theorem autoTakeover_wf {dev : Nat} {s : State} (h : s.wf = true) : (autoTakeover dev s).wf = true := by
  refine ite_wf h ?_
  extract_lets l
  split
  · exact sendMsg_wf h
  · exact h

theorem execGroupBroken_wf {group member : Nat} {s : State} (h : s.wf = true) : OutcomeWf (execGroupBroken group member s) := by
  unfold execGroupBroken
  split
  · exact h
  · exact .ite h (buddyLost_wf (groupBreak_wf h))

theorem deviceLost_wf {dev : Nat} {s : State} (h : s.wf = true) : (deviceLost dev s).wf = true :=
  ite_wf (buddyLost_wf (foldl_wf (fun _ _ h1 => groupBreak_wf h1) h)) (autoTakeover_wf (buddyLost_wf (foldl_wf (fun _ _ h1 => groupBreak_wf
  h1) h)))

theorem execHeartbeatLoss_wf {dev : Nat} {s : State} (h : s.wf = true) : OutcomeWf (execHeartbeatLoss dev s) := by
  unfold execHeartbeatLoss
  split
  · exact h
  · refine .ite h ?_
    extract_lets s1 _ s2
    have hs1 : s1.wf = true := atLeast_wf _ h
    have hs2 : s2.wf = true := State.with_wf hs1
    exact .ite (deviceLost_wf (bump_wf _ _ _ _ (mirErr_wf hs2))) (buddyLost_wf hs2)

theorem execResolutionComplete_wf {group : Nat} {held : Option CommitWord} {survivors : Nat} {s : State} (h : s.wf = true) :
    OutcomeWf (execResolutionComplete group held survivors s) := by
  unfold execResolutionComplete
  split
  · exact h
  · extract_lets g att w _ s1 s2 s3 s4
    have hs1 : s1.wf = true := h
    have hs2 : s2.wf = true := mirErr_wf (setErr_wf _ _ _ _ _ _ (setErr_wf _ _ _ _ _ _ hs1))
    have hs3 : s3.wf = true := inconsistent_wf (inconsistent_wf hs2)
    have hs4 : s4.wf = true := autoTakeover_wf (bump_wf _ _ _ _ hs1)
    exact .ite h (.ite (jobAbort_wf (deliverEvent_wf _ _ hs3)) (.ite hs4 (.ite (takeWord_wf hs4) (State.with_wf hs4))))

theorem specPodJoin_wf : SpecWf specPodJoin := by
  refine ⟨fun i p s h => .ite trivial (.ite trivial (.ite trivial ?_)), fun _ h => h⟩
  extract_lets _ _ s1
  have hs1 : s1.wf = true := h
  exact .ite (State.with_wf hs1) (State.with_wf hs1)

theorem joinEnd_wf {s : State} (h : s.wf = true) : (joinEnd s).wf = true := by
  unfold joinEnd
  split
  · exact h
  · extract_lets _ _ s1
    have hs1 : s1.wf = true := h
    exact finishOp_wf _ _ _ _ _ hs1

theorem execPodJoinTimeout_wf {s : State} (h : s.wf = true) : OutcomeWf (execPodJoinTimeout s) := by
  unfold execPodJoinTimeout
  split
  · exact h
  · exact .ite h (joinEnd_wf (ite_wf h (atLeast_wf _ h)))

theorem specPodGroupCreate_wf : SpecWf specPodGroupCreate := by
  refine ⟨fun i p s h => .ite trivial ?_, fun _ h => h⟩
  split
  · exact trivial
  · split
    · exact trivial
    · refine .ite trivial ?_
      split
      · exact trivial
      · exact State.setGroup_wf h

theorem specPodBarrier_wf : SpecWf specPodBarrier := by
  refine ⟨fun i p s h => ?_, fun _ h => h⟩
  unfold specPodBarrier
  dsimp -zeta only
  extract_lets g
  split
  · exact trivial
  · exact .ite trivial (.ite trivial (.ite trivial (.ite h h)))

theorem groupReset_wf {g : Nat} {s : State} (h : s.wf = true) : (groupReset g s).wf = true :=
  State.updGroup_wf (ite_wf (State.with_wf (groupUpd_wf (groupAbort_wf h))) (groupUpd_wf (groupAbort_wf h)))

theorem groupResetAll_wf {g : Nat} {s : State} (h : s.wf = true) : (groupResetAll g s).wf = true := groupReset_wf (tellMembers_wf h)

theorem specPodReset_wf : SpecWf specPodReset := by
  refine ⟨fun i p s h => ?_, fun _ h => h⟩
  unfold specPodReset
  dsimp -zeta only
  split
  · split
    · exact trivial
    · exact .ite h (groupResetAll_wf h)
  · exact .ite h (foldl_wf (fun _ _ h1 => groupResetAll_wf h1) h)
  · extract_lets map_ s1
    have hs1 : s1.wf = true := foldl_wf (fun _ _ h1 => sendMsg_wf h1) h
    split
    · exact trivial
    · exact ite_wf (State.with_wf hs1) hs1
  · exact trivial

theorem specBeamRouteQuery_wf : SpecWf specBeamRouteQuery := by
  refine ⟨fun i p s h => .ite trivial (.ite h (.ite h ?_)), fun _ h => h⟩
  split
  · exact h
  · exact h

theorem specBeamPortQuery_wf : SpecWf specBeamPortQuery := ⟨fun _ _ _ h => .ite trivial h, fun _ h => h⟩

theorem unreachable_wf {dev : Nat} {s : State} (h : s.wf = true) : (unreachable dev s).wf = true := by
  unfold unreachable
  extract_lets s1 s2
  have hs1 : s1.wf = true := by
    unfold s1
    refine foldl_wf (fun s3 x1 h1 => ?_) h
    split
    · exact ite_wf (suSettle_wf (State.updRing_wf (suFault_wf h1))) h1
    · exact h1
  have hs2 : s2.wf = true := foldl_wf (fun _ _ h1 => pringNotice_wf (pringReset_wf (setErr_wf _ _ _ _ _ _ h1))) hs1
  exact deviceLost_wf hs2

theorem execRouteTableInstall_wf {port : Nat} {table : List (Nat × Nat × Nat)} {s : State} (h : s.wf = true) :
    OutcomeWf (execRouteTableInstall port table s) := by
  refine .ite h ?_
  extract_lets tab before changed _ s1 lost s2 s3 s31 dest s4
  have hs1 : s1.wf = true := bump_wf _ _ _ _ (bump_wf _ _ _ _ h)
  have hs2 : s2.wf = true := foldl_wf (fun _ _ h1 => ite_wf (sendToward_wf h1) h1) hs1
  have hs3 : s3.wf = true := foldl_wf (fun _ _ h1 => unreachable_wf h1) hs2
  have hs31 : s31.wf = true := ite_wf (bump_wf _ _ _ _ (bump_wf _ _ _ _ hs3)) hs3
  have hs4 : s4.wf = true := ite_wf hs31 (foldl_wf (fun _ _ h1 => deliverEvent_wf _ _ h1) hs31)
  split
  · exact .ite (joinEnd_wf hs4) hs4
  · exact hs4

theorem execTimebaseSync_wf {t : Nat} {s : State} (h : s.wf = true) : OutcomeWf (execTimebaseSync t s) := by
  refine .ite h ?_
  extract_lets s1 off sync _ _ s11
  have hs1 : s1.wf = true := ite_wf h h
  have hs11 : s11.wf = true := State.with_wf hs1
  exact .ite (bump_wf _ _ _ _ (bump_wf _ _ _ _ hs11)) hs11

/-! #### Machine/Net.lean -/

theorem State.setNport_wf {s : State} {p : Nat} {x : NetPort} (h : s.wf = true) : (s.setNport p x).wf = true := h

theorem State.updNport_wf {s : State} {p : Nat} {f : NetPort → NetPort} (h : s.wf = true) : (s.updNport p f).wf = true :=
  State.setNport_wf h

theorem npCnt_wf {p n k : Nat} {s : State} (h : s.wf = true) : (npCnt p n k s).wf = true := ite_wf h (bump_wf _ _ _ _ h)

theorem npErr_wf {p bit ring index reason bind : Nat} {s : State} (h : s.wf = true) : (npErr p bit ring index reason bind s).wf = true :=
  State.updUnit_wf h

theorem npSend_wf {b psn op va : Nat} {bs : Bytes} {s : State} (h : s.wf = true) : (npSend b psn op va bs s).wf = true :=
  ite_wf h (npCnt_wf (npCnt_wf (State.updNport_wf h)))

theorem npEnd_wf {j status reason : Nat} {s : State} (h : s.wf = true) : (npEnd j status reason s).wf = true := by
  unfold npEnd
  split
  · exact ite_wf (finish_wf h) h
  · exact h

theorem qpFail_wf {b reason : Nat} {s : State} (h : s.wf = true) : (qpFail b reason s).wf = true := by
  unfold qpFail
  split
  · exact h
  · refine ite_wf h ?_
    extract_lets p rings s1 s2
    have hs1 : s1.wf = true := State.setBind_wf h
    have hs2 : s2.wf = true := foldl_wf (fun _ _ h1 => ite_wf h1 (npEnd_wf h1)) hs1
    exact npErr_wf (npCnt_wf hs2)

theorem execNpBind_wf {j : Nat} {s : State} (h : s.wf = true) : OutcomeWf (execNpBind j s) := by
  unfold execNpBind
  split
  · exact h
  · extract_lets c a b x qpn key s1
    have hs1 : s1.wf = true := State.setNport_wf h
    refine .ite (failArg_wf h) (.ite (failArg_wf h) (.ite (raise_wf _ (npErr_wf (npEnd_wf (begin_wf (served_wf h))))) ?_))
    split
    · exact failArg_wf h
    · split
      · exact failArg_wf h
      · extract_lets s2 s3
        have hs2 : s2.wf = true := State.setBind_wf hs1
        have hs3 : s3.wf = true := begin_wf (served_wf hs2)
        exact finish_wf hs3

theorem unbind_wf {b : Nat} {s : State} (h : s.wf = true) : (unbind b s).wf = true := State.with_wf (qpFail_wf h)

theorem execNpUnbind_wf {j : Nat} {s : State} (h : s.wf = true) : OutcomeWf (execNpUnbind j s) := by
  unfold execNpUnbind
  split
  · exact h
  · split
    · exact failArg_wf h
    · exact finish_wf (unbind_wf (begin_wf (served_wf h)))

theorem execNpWrite_wf {j : Nat} {s : State} (h : s.wf = true) : OutcomeWf (execNpWrite j s) := by
  unfold execNpWrite
  split
  · exact h
  · extract_lets c b s1 bs
    have hs1 : s1.wf = true := hbmTaken_wf (begin_wf (served_wf h))
    split
    · exact failArg_wf h
    · exact h
    · refine .ite h (.ite (raise_wf _ (npErr_wf (npEnd_wf (begin_wf (served_wf h))))) (.ite (npEnd_wf (begin_wf (served_wf h))) ?_))
      extract_lets ps s2
      have hs2 : s2.wf = true := State.setBind_wf hs1
      exact foldl_wf (fun _ _ h1 => npSend_wf h1) hs2

theorem execNpRead_wf {j : Nat} {s : State} (h : s.wf = true) : OutcomeWf (execNpRead j s) := by
  unfold execNpRead
  split
  · exact h
  · extract_lets c b s1
    have hs1 : s1.wf = true := begin_wf (served_wf h)
    split
    · exact failArg_wf h
    · exact h
    · refine .ite h (.ite (npEnd_wf (begin_wf (served_wf h))) ?_)
      extract_lets va s2
      have hs2 : s2.wf = true := State.setBind_wf hs1
      exact npSend_wf hs2

theorem npRecv_wf {p n : Nat} {ecn : Bool} {b : Option Nat} {s : State} (h : s.wf = true) : (npRecv p n ecn b s).wf = true := by
  unfold npRecv
  extract_lets s1 s2
  have hs1 : s1.wf = true := npCnt_wf (npCnt_wf h)
  have hs2 : s2.wf = true := npCnt_wf hs1
  refine ite_wf ?_ hs1
  split
  · exact ite_wf (npCnt_wf (npSend_wf hs2)) hs2
  · exact hs2

theorem npAcked_wf {j n : Nat} {s : State} (h : s.wf = true) : (npAcked j n s).wf = true := by
  unfold npAcked
  split
  · refine ite_wf h ?_
    extract_lets s1
    have hs1 : s1.wf = true := State.updRing_wf h
    exact ite_wf (npEnd_wf hs1) hs1
  · exact h

theorem resend_wf {b psn : Nat} {s : State} (h : s.wf = true) : (resend b psn s).wf = true := by
  unfold resend
  split
  · exact npSend_wf h
  · exact h

theorem execRoceAck_wf {p qpn psn kind : Nat} {s : State} (h : s.wf = true) : OutcomeWf (execRoceAck p qpn psn kind s) := by
  unfold execRoceAck
  split
  · exact h
  · refine .ite h ?_
    extract_lets s1 done s2 again
    have hs1 : s1.wf = true := npRecv_wf h
    have hs2 : s2.wf = true := State.setBind_wf hs1
    exact .ite (foldl_wf (fun _ _ h1 => ite_wf h1 (npAcked_wf h1)) hs2) (.ite (foldl_wf (fun _ _ h1 => resend_wf h1) (npCnt_wf hs1))
      (qpFail_wf hs1))

theorem execRoceReadResponse_wf {p qpn psn : Nat} {data : Bytes} {s : State} (h : s.wf = true) :
    OutcomeWf (execRoceReadResponse p qpn psn data s) := by
  unfold execRoceReadResponse
  split
  · exact h
  · split
    · exact h
    · split
      · exact h
      · extract_lets mtu got n s1 s2 s3 s4
        have hs1 : s1.wf = true := npRecv_wf h
        have hs2 : s2.wf = true := hbmWrite_wf _ _ hs1
        have hs3 : s3.wf = true := npCnt_wf hs2
        have hs4 : s4.wf = true := State.setBind_wf hs3
        exact .ite h (npAcked_wf hs4)

theorem execQpRetryTimeout_wf {b : Nat} {s : State} (h : s.wf = true) : OutcomeWf (execQpRetryTimeout b s) := by
  unfold execQpRetryTimeout
  split
  · exact h
  · refine .ite h (.ite (qpFail_wf (atLeast_wf _ h)) ?_)
    extract_lets s1 s2
    have hs1 : s1.wf = true := atLeast_wf _ h
    have hs2 : s2.wf = true := State.setBind_wf hs1
    exact foldl_wf (fun _ _ h1 => resend_wf h1) (npCnt_wf hs2)

theorem execRoceCnp_wf {p qpn : Nat} {s : State} (h : s.wf = true) : OutcomeWf (execRoceCnp p qpn s) := by
  unfold execRoceCnp
  split
  · exact h
  · exact .ite h (npCnt_wf (npRecv_wf (State.setBind_wf h)))

theorem npArrive_wf {p qpn psn n : Nat} {ecn : Bool} {k : Nat → NetBind → State → State} {s : State}
    (hk : ∀ b x s, s.wf = true → (k b x s).wf = true) (h : s.wf = true) : OutcomeWf (npArrive p qpn psn n ecn k s) := by
  unfold npArrive
  split
  · exact h
  · refine .ite h ?_
    extract_lets s1
    have hs1 : s1.wf = true := npRecv_wf h
    split
    · exact hk _ _ _ hs1
    · exact npSend_wf hs1
    · exact npSend_wf hs1

theorem npRefuse_wf {b psn bit : Nat} {s : State} (h : s.wf = true) : (npRefuse b psn bit s).wf = true :=
  qpFail_wf (ite_wf (npErr_wf (npSend_wf h)) (npSend_wf h))

theorem npPlace_wf {b : Nat} {x : NetBind} {va : Nat} {bs : Bytes} {s : State} (h : s.wf = true) : (npPlace b x va bs s).wf = true :=
  ite_wf (hbmWrite_wf _ _ (npCnt_wf h)) (State.setBind_wf (npCnt_wf h))

theorem npWritePacket_wf {psn : Nat} {first : Bool} {va key len : Nat} {bs : Bytes} {fin : Nat → Nat → State → State} {b : Nat}
    {x : NetBind}
    {s : State} (hf : ∀ b n s, s.wf = true → (fin b n s).wf = true) (h : s.wf = true) :
    (npWritePacket psn first va key len bs fin b x s).wf = true := by
  unfold npWritePacket
  extract_lets start
  clear_value start
  split
  · exact npRefuse_wf h
  · exact ite_wf (npRefuse_wf h) (ite_wf (npRefuse_wf h) (hf _ _ _ (npSend_wf (npPlace_wf (State.setBind_wf h)))))

theorem execRoceWriteImmediate_wf {p qpn psn : Nat} {first : Bool} {va key len : Nat} {data : Bytes} {imm : Nat} {ecn : Bool} {s : State}
    (h : s.wf = true) : OutcomeWf (execRoceWriteImmediate p qpn psn first va key len data imm ecn s) := by
  refine npArrive_wf (fun b x s h => npWritePacket_wf (fun b n s h => ?_) h) h
  split
  · exact ite_wf (produce_wf _ _ _ _ h) h
  · exact h

theorem execRoceRdmaRead_wf {p qpn psn va key len : Nat} {ecn : Bool} {s : State} (h : s.wf = true) :
    OutcomeWf (execRoceRdmaRead p qpn psn va key len ecn s) := by
  refine npArrive_wf (fun b x s h => ?_) h
  extract_lets a bs bs' ps s1
  have hs1 : s1.wf = true := State.setBind_wf (hbmTaken_wf h)
  exact ite_wf (npRefuse_wf h) (ite_wf (npRefuse_wf (npErr_wf h)) (foldl_wf (fun _ _ h => npSend_wf h) hs1))

theorem execPfcPauseFrame_wf {p prio quanta : Nat} {s : State} (h : s.wf = true) : OutcomeWf (execPfcPauseFrame p prio quanta s) := by
  refine .ite h ?_
  extract_lets s1
  have hs1 : s1.wf = true := npCnt_wf (npRecv_wf h)
  exact .ite (State.updNport_wf hs1) hs1

theorem podsLost_wf {p : Nat} {s : State} (h : s.wf = true) : (podsLost p s).wf = true :=
  foldl_wf (fun _ _ h1 => deviceLost_wf h1) (State.updNport_wf h)

theorem execNpLinkDown_wf {p : Nat} {s : State} (h : s.wf = true) : OutcomeWf (execNpLinkDown p s) := by
  refine .ite h ?_
  extract_lets s1 s2
  have hs1 : s1.wf = true := npErr_wf (State.updNport_wf h)
  have hs2 : s2.wf = true := foldl_wf (fun _ _ h1 => qpFail_wf h1) hs1
  exact podsLost_wf hs2

/-! #### Machine/MemFree.lean -/

theorem specMemFree_wf : SpecWf specMemFree := by
  refine ⟨fun i p s h => ?_, fun _ h => h⟩
  unfold specMemFree
  dsimp -zeta only
  split
  · exact trivial
  · exact .ite trivial (freePages_wf h)

theorem specMemUnmapHost_wf : SpecWf specMemUnmapHost := by
  refine ⟨fun i p s h => ?_, fun _ h => h⟩
  unfold specMemUnmapHost
  dsimp -zeta only
  split
  · exact trivial
  · exact .ite trivial (State.updCtx_wf h)

/-! #### Machine/Serving.lean -/

theorem State.setSrvModel_wf {s : State} {m : Nat} {x : SrvModel} (h : s.wf = true) : (s.setSrvModel m x).wf = true := h

theorem State.updSrvModel_wf {s : State} {m : Nat} {f : SrvModel → SrvModel} (h : s.wf = true) : (s.updSrvModel m f).wf = true :=
  State.setSrvModel_wf h

theorem State.setSrvQueue_wf {s : State} {q : Nat} {x : SrvQueue} (h : s.wf = true) : (s.setSrvQueue q x).wf = true := h

theorem State.setSrvEntry_wf {s : State} {i : Nat} {x : SrvEntry} (h : s.wf = true) : (s.setSrvEntry i x).wf = true := h

theorem State.updSrvEntry_wf {s : State} {i : Nat} {f : SrvEntry → SrvEntry} (h : s.wf = true) : (s.updSrvEntry i f).wf = true :=
  State.setSrvEntry_wf h

theorem srvCnt_wf {m : SrvModel} {n k : Nat} {s : State} (h : s.wf = true) : (srvCnt m n k s).wf = true := ite_wf h (bump_wf _ _ _ _ h)

theorem srvErr_wf {m bit index : Nat} {s : State} (h : s.wf = true) : (srvErr m bit index s).wf = true := State.updUnit_wf h

theorem srvPrismEnd_wf {e : SrvEntry} {s : State} (h : s.wf = true) : (srvPrismEnd e s).wf = true :=
  ite_wf (endBlock_wf (State.updChan_wf h)) h

theorem srvSweepModel_wf {m : Nat} {s : State} (h : s.wf = true) : (srvSweepModel m s).wf = true := ite_wf h h

theorem srvSweepQueue_wf {q : Nat} {s : State} (h : s.wf = true) : (srvSweepQueue q s).wf = true :=
  ite_wf (srvSweepModel_wf (State.setSrvQueue_wf h)) h

theorem srvRelease_wf {i : Nat} {s : State} (h : s.wf = true) : (srvRelease i s).wf = true :=
  srvSweepQueue_wf (srvCnt_wf (State.setSrvEntry_wf (State.updSrvModel_wf (srvPrismEnd_wf h))))

theorem srvDropOps_wf {i status : Nat} {s : State} (h : s.wf = true) : (srvDropOps i status s).wf = true := by
  unfold srvDropOps
  extract_lets e s1 s2
  have hs1 : s1.wf = true := by
    unfold s1
    split
    · exact finishOp_wf _ _ _ _ _ h
    · exact h
  have hs2 : s2.wf = true := by
    unfold s2
    split
    · exact finishOp_wf _ _ _ _ _ hs1
    · exact hs1
  exact State.updSrvEntry_wf hs2

theorem srvDrop_wf {c : Nat} {s : State} (h : s.wf = true) : (srvDrop c s).wf = true := by
  unfold srvDrop
  extract_lets s1 mine
  have hs1 : s1.wf = true := foldl_wf (fun _ _ h1 => srvPrismEnd_wf (srvDropOps_wf h1)) h
  exact State.with_wf hs1

theorem specSrvQueueCreate_wf : SpecWf specSrvQueueCreate := by
  refine ⟨fun i p s h => ?_, fun _ h => h⟩
  unfold specSrvQueueCreate
  dsimp -zeta only
  extract_lets m w b queues room newQueue side
  have hroom : ∀ k, (∀ q, ResWf (k q)) → ResWf (room k) := by
    intro k hk
    unfold room
    refine .ite trivial ?_
    split
    · exact hk _
    · exact trivial
  clear_value room
  refine .ite (.ite trivial (.ite trivial (.ite trivial (hroom _ fun _ => State.setSrvQueue_wf h)))) (.ite trivial ?_)
  split
  · exact trivial
  · split
    · exact trivial
    · refine .ite trivial (.ite trivial (.ite trivial (hroom _ fun q => ?_)))
      split
      · exact trivial
      · exact State.setSrvQueue_wf (State.setSrvModel_wf h)

theorem specSrvQueueWeight_wf : SpecWf specSrvQueueWeight := by
  refine ⟨fun i p s h => ?_, fun _ h => h⟩
  unfold specSrvQueueWeight
  dsimp -zeta only
  extract_lets q w x
  split
  · exact trivial
  · exact ite_wf (srvSweepQueue_wf (State.setSrvQueue_wf h)) (State.setSrvQueue_wf h)

theorem specSrvSubmit_wf : SpecWf specSrvSubmit := by
  refine ⟨fun i p s h => ?_, fun _ h => h⟩
  unfold specSrvSubmit
  dsimp -zeta only
  extract_lets q prio maxLen plen ph x m pf n need pages _ e
  split
  · exact trivial
  · refine .ite trivial (.ite trivial (.ite trivial (.ite trivial (.ite trivial (.ite trivial ?_)))))
    split
    · exact trivial
    · refine .ite trivial (.ite trivial ?_)
      split
      · exact trivial
      · exact .ite trivial (.ite trivial (.ite trivial (State.setSrvEntry_wf (State.updSrvModel_wf h))))

theorem specSrvCancel_wf : SpecWf specSrvCancel := by
  refine ⟨fun i p s h => ?_, fun _ h => h⟩
  unfold specSrvCancel
  dsimp -zeta only
  extract_lets k e
  split
  · exact trivial
  · exact .ite trivial (srvCnt_wf (State.updSrvEntry_wf (srvDropOps_wf h)))

theorem specSrvPause_wf : SpecWf specSrvPause := by
  refine ⟨fun i p s h => ?_, fun _ h => h⟩
  unfold specSrvPause
  dsimp -zeta only
  extract_lets k cap e m
  split
  · exact trivial
  · exact .ite trivial (.ite trivial (.ite trivial (.ite trivial (.ite trivial (.ite trivial (State.setSrvEntry_wf h))))))

theorem ctxWrite_wf {c space a : Nat} {bs : Bytes} {s : State} (h : s.wf = true) : (ctxWrite c space a bs s).wf = true :=
  ite_wf (hbmWrite_wf _ _ h) (hostPut_wf h)

theorem execSummaryWriteLanded_wf {k : Nat} {ok : Bool} {s : State} (h : s.wf = true) : OutcomeWf (execSummaryWriteLanded k ok s) := by
  unfold execSummaryWriteLanded
  extract_lets e m n
  split
  · exact h
  · refine .ite h ?_
    extract_lets space s1 s2 s3
    have hs1 : s1.wf = true := ctxWrite_wf h
    have hs2 : s2.wf = true := State.updSrvModel_wf hs1
    have hs3 : s3.wf = true := State.setSrvEntry_wf hs2
    exact .ite (srvErr_wf (finishOp_wf _ _ _ _ _ (State.setSrvEntry_wf h))) (srvCnt_wf (finishOp_wf _ _ _ _ _ hs3))

theorem specSrvResume_wf : SpecWf specSrvResume := by
  refine ⟨fun i p s h => ?_, fun _ h => h⟩
  unfold specSrvResume
  dsimp -zeta only
  extract_lets k space e m n
  split
  · exact trivial
  · exact .ite trivial (.ite trivial (.ite trivial (.ite trivial (.ite trivial (.ite (srvErr_wf h) (.ite (srvErr_wf h)
      (State.setSrvEntry_wf h)))))))

theorem execSummaryRestoreComplete_wf {k : Nat} {ok : Bool} {s : State} (h : s.wf = true) :
    OutcomeWf (execSummaryRestoreComplete k ok s) := by
  unfold execSummaryRestoreComplete
  extract_lets e b n s1 s2
  have hs1 : s1.wf = true := State.updSrvModel_wf h
  have hs2 : s2.wf = true := State.setSrvEntry_wf hs1
  split
  · exact h
  · refine .ite h (.ite (srvErr_wf (finishOp_wf _ _ _ _ _ hs2)) ?_)
    extract_lets bs s3 s4
    have hs3 : s3.wf = true := foldl_wf (fun _ _ h1 => hbmWrite_wf _ _ h1) h
    have hs4 : s4.wf = true := hbmWrite_wf _ _ hs3
    exact State.setSrvEntry_wf hs4

theorem specSrvPrefixCreate_wf : SpecWf specSrvPrefixCreate := by
  refine ⟨fun i p s h => ?_, fun _ h => h⟩
  unfold specSrvPrefixCreate
  dsimp -zeta only
  extract_lets h1 k n e pages s1
  have hs1 : s1.wf = true := State.updSrvModel_wf h
  split
  · exact trivial
  · exact .ite trivial (.ite trivial (.ite trivial (.ite trivial (.ite trivial (State.with_wf hs1)))))

theorem specSrvPrefixRelease_wf : SpecWf specSrvPrefixRelease := by
  refine ⟨fun i p s h => ?_, fun _ h => h⟩
  unfold specSrvPrefixRelease
  dsimp -zeta only
  split
  · exact trivial
  · extract_lets s1
    have hs1 : s1.wf = true := State.updSrvModel_wf h
    exact State.with_wf hs1

theorem specSrvSamplerSet_wf : SpecWf specSrvSamplerSet := by
  refine ⟨fun i p s h => ?_, fun _ h => h⟩
  unfold specSrvSamplerSet
  dsimp -zeta only
  extract_lets b
  split
  · exact trivial
  · exact h

/-! #### Machine/ServeStep.lean -/

theorem countTok_wf {a tok : Nat} {s : State} (h : s.wf = true) : (countTok a tok s).1.wf = true := by
  unfold countTok
  extract_lets l
  split
  · exact hbmWrite_wf _ _ h
  · split
    · exact hbmWrite_wf _ _ h
    exact h

theorem entryCount_wf {k tok : Nat} {s : State} (h : s.wf = true) : (entryCount k tok s).wf = true := by
  unfold entryCount
  extract_lets e
  split
  rename_i e1
  have ht := fst_wf e1 (countTok_wf h)
  exact ite_wf (State.updSrvEntry_wf ht) ht

theorem addBent_wf {m : Nat} {r : RecEnt} {s : State} (h : s.wf = true) : (addBent m r s).wf = true := State.updSrvModel_wf h

theorem boundaryEntry_wf {m k : Nat} {s : State} (h : s.wf = true) : (boundaryEntry m k s).wf = true := by
  unfold boundaryEntry
  extract_lets e x s1
  have hs1 : s1.wf = true := State.setSrvEntry_wf h
  refine ite_wf (ite_wf h (srvRelease_wf h)) (ite_wf (srvRelease_wf (addBent_wf h)) (ite_wf (srvRelease_wf (addBent_wf (srvDropOps_wf h)))
    ?_))
  split
  · exact ite_wf h (ite_wf (finishOp_wf _ _ _ _ _ (State.setSrvEntry_wf h)) (State.setSrvEntry_wf h))
  · split
    · exact ite_wf (srvCnt_wf (finishOp_wf _ _ _ _ _ (addBent_wf hs1))) h
    · exact h

theorem boundaryPass_wf {m : Nat} {sts : List Nat} {s : State} (h : s.wf = true) : (boundaryPass m sts s).wf = true :=
  foldl_wf (fun _ _ h1 => boundaryEntry_wf h1) h

theorem fillDeficits_wf {m : Nat} {s : State} (h : s.wf = true) : (fillDeficits m s).wf = true :=
  foldl_wf (fun _ _ h1 => State.setSrvQueue_wf h1) h

theorem askBlocks_wf {m : Nat} {s : State} (h : s.wf = true) : (askBlocks m s).wf = true :=
  ite_wf (foldl_wf (fun _ _ h1 => ite_wf (openAsk_wf (State.setSrvEntry_wf h1)) h1) h) h

theorem takeIn_wf {k : Nat} {s : State} (h : s.wf = true) : (takeIn k s).wf = true := by
  unfold takeIn
  extract_lets e m spare slot prompt _ s1 e1 s2 set s3
  have hs1 : s1.wf = true := State.setSrvModel_wf h
  have hs2 : s2.wf = true := hbmWrite_wf _ _ (State.setSrvEntry_wf hs1)
  have hs3 : s3.wf = true := ite_wf (foldl_wf (fun _ _ h1 => entryCount_wf h1) hs2) hs2
  exact srvCnt_wf hs3

theorem nextPage_wf {k : Nat} {s : State} (h : s.wf = true) : (nextPage k s).2.wf = true := by
  unfold nextPage
  extract_lets e p
  split
  · exact State.setSrvEntry_wf h
  · exact State.updSrvModel_wf h

theorem placePages_wf {k count : Nat} {s : State} (h : s.wf = true) : (placePages k count s).1.wf = true := by
  unfold placePages
  extract_lets e m b cow i old s1 s2 e1
  have hs1 : s1.wf = true := by
    unfold s1
    refine ite_wf ?_ h
    split
    rename_i e2
    have ht := snd_wf e2 (nextPage_wf h)
    extract_lets s3 s4
    have hs3 : s3.wf = true := hbmWrite_wf _ _ ht
    have hs4 : s4.wf = true := State.updSrvModel_wf hs3
    exact srvCnt_wf (State.updSrvEntry_wf hs4)
  have hs2 : s2.wf = true := by
    unfold s2
    refine foldl_wf (fun s3 x1 h1 => ?_) hs1
    split
    rename_i e2
    have ht := snd_wf e2 (nextPage_wf h1)
    exact State.updSrvEntry_wf ht
  exact hbmWrite_wf _ _ hs2

theorem takeCand_wf {m k : Nat} {s : State} (h : s.wf = true) : (takeCand m k s).wf = true := by
  unfold takeCand
  extract_lets cost s1
  have hs1 : s1.wf = true := ite_wf (takeIn_wf h) h
  split
  rename_i e
  have ht := fst_wf e (placePages_wf hs1)
  extract_lets e1 tokens s2 q
  have hs2 : s2.wf = true := State.updSrvModel_wf ht
  exact State.setSrvQueue_wf hs2

theorem batchPass_wf {m : Nat} {first : Bool} {l : List (Nat × SrvEntry)} {s : State} (h : s.wf = true) :
    (batchPass m first l s).wf = true := by
  induction l generalizing s with
  | nil => exact h
  | cons x l ih =>
    unfold batchPass
    extract_lets x1 e toks traffic cost
    exact ite_wf (ih h) (ih (takeCand_wf h))

theorem startRestores_wf {m : Nat} {s : State} (h : s.wf = true) : (startRestores m s).wf = true :=
  foldl_wf (fun _ _ h1 => ite_wf (hbmWrite_wf _ _ (State.setSrvEntry_wf (State.setSrvModel_wf h1))) h1) h

theorem handOver_wf {m : Nat} {s : State} (h : s.wf = true) : (handOver m s).wf = true := by
  unfold handOver
  extract_lets x b step toks head s1 s2 s3
  have hs1 : s1.wf = true := hbmWrite_wf _ _ h
  have hs2 : s2.wf = true := hbmWrite_wf _ _ hs1
  have hs3 : s3.wf = true := State.setSrvModel_wf hs2
  exact ite_wf (ringPut_wf _ _ hs3) (State.with_wf hs3)

theorem execServingBoundary_wf {m : Nat} {s : State} (h : s.wf = true) : OutcomeWf (execServingBoundary m s) := by
  refine .ite h ?_
  extract_lets s1 s2 s3 x s4 full s5 s6
  have hs3 : s3.wf = true := boundaryPass_wf (boundaryPass_wf (boundaryPass_wf (boundaryPass_wf h)))
  have hs4 : s4.wf = true := State.setSrvModel_wf hs3
  have hs5 : s5.wf = true := startRestores_wf (askBlocks_wf (fillDeficits_wf hs4))
  have hs6 : s6.wf = true := ite_wf hs4 (batchPass_wf (batchPass_wf hs5))
  clear_value s6 s5 s4 s3
  exact .ite hs3 (.ite (handOver_wf hs6) (.ite (State.updSrvModel_wf hs6) hs6))

theorem stepFail_wf {m : Nat} {bits_ : List Nat} {s : State} (h : s.wf = true) : (stepFail m bits_ s).wf = true := by
  unfold stepFail
  extract_lets x ix s1 s2
  have hs1 : s1.wf = true := foldl_wf (fun _ _ h1 => srvErr_wf h1) h
  have hs2 : s2.wf = true := State.setSrvModel_wf hs1
  exact raise_wf _ (State.with_wf hs2)

theorem execExecutorDone_wf {m : Nat} {handle : Bytes} {s : State} (h : s.wf = true) : OutcomeWf (execExecutorDone m handle s) := by
  unfold execExecutorDone
  extract_lets x n go j r a bad h1 s1
  have hgo : ∀ h2 s2, s2.wf = true → (go h2 s2).wf = true :=
    fun _ _ h3 => ite_wf (stepFail_wf h3) (ite_wf (State.updSrvModel_wf h3) (ite_wf (stepFail_wf h3) (ite_wf (stepFail_wf h3)
    (State.updSrvModel_wf h3))))
  have hs1 : s1.wf = true := State.setRing_wf _ _ h
  exact .ite h (.ite (.ite h (ite_wf (stepFail_wf hs1) (hgo _ _ hs1))) (.ite h (hgo _ _ h)))

theorem samplerRun_wf {m row lens : Nat} {s : State} (h : s.wf = true) : (samplerRun m row lens s).wf = true := by
  unfold samplerRun
  extract_lets x b inst sz
  split
  · extract_lets e r slot set temp bs s1 k xs q s2 s3
    have hs1 : s1.wf = true := lensWrite_wf (lensSuspend_wf h)
    have hs2 : s2.wf = true := lensCounts_wf (spent_wf (spent_wf (lensLast_wf hs1)))
    have hs3 : s3.wf = true := State.updUnit_wf hs2
    exact ite_wf (stepFail_wf h) (ite_wf (stepFail_wf (lensNote_wf h)) (ite_wf (stepFail_wf h) (bump_wf _ _ _ _ (State.with_wf hs3))))
  · exact h

theorem samplerServe_wf {lens : Nat} {s : State} (h : s.wf = true) : (samplerServe lens s).wf = true :=
  foldl_wf (fun _ _ h1 => ite_wf (samplerRun_wf h1) h1) h

theorem execSamplerRequest_wf {m row lens : Nat} {s : State} (h : s.wf = true) : OutcomeWf (execSamplerRequest m row lens s) := by
  unfold execSamplerRequest
  extract_lets x b inst _ s1
  have hs1 : s1.wf = true := h
  exact .ite h (ite_wf hs1 (samplerServe_wf hs1))

theorem execPrismRowAccept_wf {lens : Nat} {s : State} (h : s.wf = true) : OutcomeWf (execPrismRowAccept lens s) := by
  unfold execPrismRowAccept
  split
  · exact h
  · extract_lets ch w
    split
    · exact h
    · extract_lets tag p s1 s2 s3
      have hs1 : s1.wf = true := ite_wf (State.setPring_wf h) h
      have hs2 : s2.wf = true := State.updChan_wf hs1
      have hs3 : s3.wf = true := ite_wf hs2 (spent_wf hs2)
      refine .ite h ?_
      split
      · exact raise_wf _ (pringNotice_wf (pringReset_wf (setErr_wf _ _ _ _ _ _ h)))
      · split
        extract_lets s4 s5 s6
        have hs4 : s4.wf = true := fly_wf hs3
        have hs5 : s5.wf = true := foldl_wf (fun _ _ h1 => ite_wf h1 (bump_wf _ _ _ _ h1)) hs4
        have hs6 : s6.wf = true := spent_wf (lensRowDone_wf hs5)
        split
        · exact .ite (samplerServe_wf (lensEnd_wf hs6)) (lensRun_wf (samplerServe_wf hs6))
        · exact hs6

theorem execRowSample_wf {m row : Nat} {s : State} (h : s.wf = true) : OutcomeWf (execRowSample m row s) := by
  unfold execRowSample
  extract_lets x _ s1
  have hs1 : s1.wf = true := h
  split
  · refine .ite h ?_
    extract_lets e ents y
    split
    extract_lets s2 missed s3 drawn
    have hs2 : s2.wf = true := by
      unfold s2
      split
      · exact ite_wf hs1 (entryCount_wf hs1)
      · exact hs1
    have hs3 : s3.wf = true := ite_wf (bump_wf _ _ _ _ hs2) hs2
    exact State.updSrvModel_wf hs3
  · exact h

theorem endEntry_wf {m : Nat} {p : PlanEnt} {row : Nat} {s : State} (h : s.wf = true) : (endEntry m p row s).1.wf = true := by
  unfold endEntry
  extract_lets x e r none_ done set len
  split
  · exact h
  split
  · exact State.updSrvEntry_wf (srvDropOps_wf h)
  split
  · exact State.setSrvEntry_wf h
  split
  · extract_lets stop fin status s1 s2
    have hs1 : s1.wf = true := ite_wf (srvDropOps_wf h) h
    have hs2 : s2.wf = true := State.updSrvEntry_wf hs1
    exact hs2
  · exact srvErr_wf (State.updSrvEntry_wf (srvDropOps_wf h))

theorem endEntries_wf {m : Nat} {l : List PlanEnt} {n : Nat} {s : State} (h : s.wf = true) : (endEntries m l n s).1.wf = true := by
  induction l generalizing n s with
  | nil => exact h
  | cons x l ih =>
    unfold endEntries
    split
    rename_i e
    have ht := fst_wf e (endEntry_wf h)
    split
    rename_i e1
    have ht1 := fst_wf e1 (ih ht)
    exact ht1

theorem putSlots_wf {j : Nat} {rec : Bytes} {n : Nat} {s : State} (h : s.wf = true) : (putSlots j rec n s).wf = true :=
  ite_wf (sendMsix_wf _ (State.setRing_wf _ _ (foldl_wf (fun _ _ h1 => spaceWrite_wf _ _ _ h1) h))) (State.setRing_wf _ _ (foldl_wf (fun _
  _ h1 => spaceWrite_wf _ _ _ h1) h))

theorem execStepRecordWrite_wf {m : Nat} {s : State} (h : s.wf = true) : OutcomeWf (execStepRecordWrite m s) := by
  unfold execStepRecordWrite
  extract_lets x b j r step bs late toks dec
  have he : (if step then endEntries m x.plan 0 s else (s, [])).1.wf = true := by
    split
    · exact endEntries_wf h
    · exact h
  refine .ite h ?_
  split
  next e =>
    have ht := fst_wf e he
    extract_lets ents size n head s1 s2 s3 s4
    have hs2 : s2.wf = true := State.updSrvModel_wf (putSlots_wf ht)
    have hs3 : s3.wf = true := ite_wf (srvCnt_wf (srvCnt_wf (srvCnt_wf hs2))) hs2
    exact .ite (State.updSrvModel_wf h) (srvSweepModel_wf (srvCnt_wf (srvCnt_wf hs3)))

theorem execTokenChunkSend_wf {k n : Nat} {s : State} (h : s.wf = true) : OutcomeWf (execTokenChunkSend k n s) := by
  unfold execTokenChunkSend
  extract_lets e m ch n1 last bs
  split
  · exact h
  · extract_lets p s1 s2
    have hs1 : s1.wf = true := State.setPring_wf h
    have hs2 : s2.wf = true := ite_wf (State.updChan_wf hs1) (prismSend_wf hs1)
    exact .ite h (bump_wf _ _ _ _ (State.setSrvEntry_wf hs2))

theorem execTokenChunkLand_wf {ring : Nat} {s : State} (h : s.wf = true) : OutcomeWf (execTokenChunkLand ring s) := by
  unfold execTokenChunkLand
  extract_lets ch n p
  split
  · exact h
  · exact .ite h (landChunk_wf (State.updChan_wf h))

/-! #### Machine/System.lean -/

theorem specSysNop_wf : SpecWf specSysNop := ⟨fun _ _ _ h => h, fun _ h => h⟩

theorem specSysEcho_wf : SpecWf specSysEcho := ⟨fun _ _ _ h => h, fun _ h => h⟩

theorem specSysInfo_wf : SpecWf specSysInfo := ⟨fun _ _ _ h => h, fun _ h => h⟩

theorem specSysTime_wf : SpecWf specSysTime := ⟨fun _ _ _ h => h, fun _ h => h⟩

theorem specSysEventRing_wf :
    SpecWf specSysEventRing := ⟨fun _ _ _ h => .ite (State.updCtx_wf h) (.ite trivial (.ite trivial (.ite trivial (drainEvents_wf _ _
    (State.updCtx_wf h))))), fun _ h => h⟩

theorem specSysReset_wf : SpecWf specSysReset := ⟨fun _ _ _ h => .ite trivial (.ite trivial h), fun _ h => h⟩

theorem execSnapTake_wf {ty inst : Nat} {s : State} (h : s.wf = true) : OutcomeWf (execSnapTake ty inst s) := by
  refine .ite h ?_
  extract_lets u
  exact .ite (State.setUnit_wf _ _ _ h) (State.setUnit_wf _ _ _ h)

theorem execSnapCaptureComplete_wf {ty inst : Nat} {s : State} (h : s.wf = true) : OutcomeWf (execSnapCaptureComplete ty inst s) := by
  unfold execSnapCaptureComplete
  extract_lets u _ v
  exact .ite h (State.setUnit_wf _ _ _ h)

/-! #### Machine/Reset.lean -/

theorem suCut_wf {d : Bytes} {core : Nat} {segs : List Seg} {s : State} (h : s.wf = true) : (suCut d core segs s).wf = true := by
  refine foldl_wf (fun s1 x1 h1 => ?_) h
  split
  rename_i e
  have ht := snd_wf e (freshBytes_wf h1)
  split
  · exact hbmWrite_wf _ _ ht
  · exact hostWrite_wf _ _ ht
  · exact sramWrite_wf _ _ _ ht
  · exact ht

theorem taskAbort_wf {j : Nat} {s : State} (h : s.wf = true) : (taskAbort j s).wf = true := by
  unfold taskAbort
  extract_lets r ty k
  split
  · exact h
  · refine ite_wf h (ite_wf (fillAbort_wf h) (ite_wf (suSettle_wf (suCut_wf (State.updRing_wf (suFault_wf h)))) (ite_wf (lensEnd_wf h)
      (ite_wf (prismEnd_wf h) (ite_wf (finish_wf (bump_wf _ _ _ _ h)) (ite_wf (npEnd_wf h) (ite_wf (kdEnd_wf h) ?_)))))))
    split
    · exact vecEnd_wf h
    · exact ite_wf (State.updUpd_wf (finish_wf h)) (finish_wf h)

theorem coreDrop_wf {j : Nat} {s : State} (h : s.wf = true) : (coreDrop j s).wf = true := by
  unfold coreDrop
  extract_lets r
  split
  · exact h
  · next k _ =>
    refine State.updCore_vec_wf ?_ (mayLand_wf h)
    exact vecFilter_wf (State.core_vec_wf k (mayLand_wf h))

theorem ringEnd_wf {j : Nat} {write : Bool} {s : State} (h : s.wf = true) : (ringEnd j write s).wf = true := by
  unfold ringEnd
  extract_lets r s1 s2
  have hs1 : s1.wf = true := taskAbort_wf (handleWait_wf h)
  have hs2 : s2.wf = true := by
    unfold s2
    split
    · split
      · exact release_wf (dropHeld_wf hs1)
      · exact dropHeld_wf hs1
    split
    · exact completeCur_wf (State.updRing_wf hs1)
    · exact ite_wf (recordDesc_wf (consume_wf hs1)) (ite_wf (recordDesc_wf (consume_wf (dropHeld_wf hs1))) hs1)
    · exact ite_wf (putRecord_wf (dropHeld_wf hs1)) hs1
  exact State.updRing_wf (coreDrop_wf hs2)

theorem lensQueued_wf {j : Nat} {s : State} (h : s.wf = true) : (lensQueued j s).wf = true := by
  refine ite_wf (ringEnd_wf h) ?_
  refine foldl_wf (fun s1 x1 h1 => ?_) (ringEnd_wf h)
  split
  · exact ite_wf h1 (recordDesc_wf h1)
  · exact h1

theorem opAbort_wf {o : PendingOp} {s : State} (h : s.wf = true) : (opAbort o s).wf = true := by
  refine ite_wf ?_ (finishOp_wf _ _ _ _ _ h)
  split
  rename_i e
  have ht := snd_wf e (freshBytes_wf h)
  exact finishOp_wf _ _ _ _ _ (spaceWrite_wf _ _ _ ht)

theorem opsAbort_wf {cs : List Nat} {s : State} (h : s.wf = true) : (opsAbort cs s).wf = true :=
  foldl_wf (fun _ _ h1 => opAbort_wf h1) (foldl_wf (fun _ _ h1 => foldl_wf (fun _ _ h2 => ite_wf (writeEnd_wf h2) h2) h1) h)

/-- The commands that complete at acceptance keep the form. -/
theorem atAcceptance_wf : ∀ k ∈ atAcceptance, SpecWf k := by
  simp only [atAcceptance, List.cons_append, List.nil_append, List.forall_mem_cons]
  exact ⟨specSysNop_wf, specSysEcho_wf, specSysInfo_wf, specSysTime_wf, specSysEventRing_wf, specSysReset_wf, specCfgBegin_wf,
    specCfgSet_wf,
    specCfgRollback_wf, specCfgQuery_wf, specCtxCreate_wf, specCtxSetQuota_wf, specCtxQuery_wf, specCtxAssignMailbox_wf,
    specCtxReleaseMailbox_wf, specCtxAgentStart_wf, specCtxAgentStop_wf, specCtxAgentUnload_wf, specMemAlloc_wf, specMemFree_wf,
    specMemMapHost_wf, specMemUnmapHost_wf, specMemQuery_wf, specRingCreate_wf, specRingDestroy_wf, specRingQuery_wf, by simp⟩

theorem waitedEnd_wf {cs : List Nat} {s : State} (h : s.wf = true) : (waitedEnd cs s).wf = true := by
  refine foldl_wf (fun s m h => ?_) h
  split
  · refine ite_wf ?_ h
    extract_lets t
    refine mctpReply_wf ?_
    split
    · next k hk =>
      refine runWaited_wf ?_ (State.setMb_wf _ _ h)
      rintro _ ⟨⟩
      exact atAcceptance_wf k (List.mem_of_find?_eq_some hk)
    · exact answer_wf (State.setMb_wf _ _ h)
  · exact h

theorem jobReset_wf {h : Nat} {notice : Bool} {s : State} (hw : s.wf = true) : (jobReset h notice s).wf = true := by
  unfold jobReset
  split
  · exact hw
  · extract_lets s1 live s2
    have hs1 : s1.wf = true := ite_wf (foldl_wf (fun _ _ h1 => ite_wf (inconsistent_wf (setErr_wf _ _ _ _ _ _ h1)) h1) hw) hw
    have hs2 : s2.wf = true := foldl_wf (fun _ _ h1 => pringReset_wf h1) hs1
    exact jobAbort_wf (ite_wf (pringNotice_wf hs2) hs2)

theorem resetStop_wf {cs : List Nat} {write : Bool} {s : State} (h : s.wf = true) : (resetStop cs write s).wf = true := by
  unfold resetStop
  extract_lets s1 s2 s3 js s4 hs s5
  have hs1 : s1.wf = true := waitedEnd_wf (opsAbort_wf h)
  have hs2 : s2.wf = true := foldl_wf (fun _ _ h1 => State.updCtx_wf h1) hs1
  have hs3 : s3.wf = true := by
    unfold s3
    refine foldl_wf (fun s6 x1 h1 => ?_) hs2
    split
    · exact ite_wf (dropTxn_wf h1) h1
    · exact h1
  have hs4 : s4.wf = true := foldl_wf (fun _ _ h1 => ite_wf (lensQueued_wf h1) (ringEnd_wf h1)) hs3
  have hs5 : s5.wf = true := foldl_wf (fun _ _ h1 => jobReset_wf h1) hs4
  exact foldl_wf (fun _ _ h1 => srvDrop_wf h1) hs5

theorem coreClear_wf {k : Nat} {s : State} (h : s.wf = true) : (coreClear k s).wf = true := by
  unfold coreClear
  extract_lets x s1
  have hs1 : s1.wf = true := State.setCore_wf _ _ rfl (sramClear_wf _ h)
  split
  · exact completeHeld_wf hs1
  · exact hs1

theorem clearCores_wf {cs : List Nat} {s : State} (h : s.wf = true) : (clearCores cs s).wf = true :=
  foldl_wf (fun _ _ h1 => ite_wf (coreClear_wf h1) h1) h

theorem leaveGroups_wf {cs : List Nat} {s : State} (h : s.wf = true) : (leaveGroups cs s).wf = true :=
  foldl_wf (fun _ _ h1 => sendMsg_wf h1) h

theorem leaveMirror_wf {hs gs : List Nat} {s : State} (h : s.wf = true) : (leaveMirror hs gs s).wf = true := by
  unfold leaveMirror
  extract_lets m m1
  split
  · exact ite_wf h h
  · exact h

theorem ctxAfter_wf {keep : Bool} {c : Nat} {s : State} (h : s.wf = true) : (ctxAfter keep c s).wf = true :=
  ite_wf (State.setCtx_wf _ _ h) (ite_wf (State.setCtx_wf _ _ h) (State.setCtx_wf _ _ h))

theorem release4_wf {keep : Bool} {cs : List Nat} {s : State} (h : s.wf = true) : (release4 keep cs s).wf = true := by
  unfold release4
  extract_lets s1 hs gs student s2 s3 s4 s5 _ _ s6 s7
  have hs2 : s2.wf = true := foldl_wf (fun _ _ h => unbind_wf h) (clearCores_wf h)
  have hs4 : s4.wf = true := foldl_wf (fun _ _ h => ite_wf (agentUnload_wf h) h) (leaveMirror_wf (leaveGroups_wf hs2))
  have hs5 : s5.wf = true := foldl_wf (fun _ _ h => freePages_wf h) hs4
  clear_value s5
  have hs6 : s6.wf = true := State.with_wf (State.filterRings_wf hs5)
  clear_value s6
  have hs7 : s7.wf = true := ite_wf hs6 (State.with_wf (State.filterMbs_wf hs6))
  exact foldl_wf (fun _ _ h => ctxAfter_wf h) hs7

theorem ctxBegin_wf {c : Nat} {destroy : Bool} {op : Nat × Nat} {s : State} (h : s.wf = true) : (ctxBegin c destroy op s).wf = true :=
  ite_wf (State.updCtx_wf h) (resetStop_wf h)

theorem specCtxDestroy_wf : SpecWf specCtxDestroy := ⟨fun _ _ _ h => .ite trivial (.ite trivial (ctxBegin_wf h)), fun _ h => h⟩

theorem specCtxReset_wf : SpecWf specCtxReset := ⟨fun _ _ _ h => .ite trivial (.ite trivial (.ite trivial (ctxBegin_wf h))), fun _ h => h⟩

theorem cfgDecide_wf {s : State} (h : s.wf = true) : (cfgDecide s).wf = true := by
  unfold cfgDecide
  split
  · exact h
  · split
    split
    rename_i e
    have ht := snd_wf e (cfgClose_wf h)
    extract_lets r
    split
    · exact finishOp_wf _ _ _ _ _ ht
    · exact ite_wf (planEnd_wf ht) (completeHeld_wf ht)

theorem cfgPurge_wf {cs : List Nat} {s : State} (h : s.wf = true) : (cfgPurge cs s).wf = true := by
  unfold cfgPurge
  extract_lets gone s1
  have hs1 : s1.wf = true := by
    unfold s1
    refine foldl_wf (fun s2 x1 h1 => ?_) h
    refine ite_wf h1 ?_
    split
    · exact finishOp_wf _ _ _ _ _ h1
    · exact ite_wf h1 (completeHeld_wf h1)
  exact State.with_wf hs1

theorem bigReset_wf {kind : Nat} {cs : List Nat} {s : State} (h : s.wf = true) : (bigReset kind cs s).wf = true :=
  resetStop_wf (cfgPurge_wf (cfgDecide_wf h))

theorem execPcieFlr_wf {s : State} (h : s.wf = true) : OutcomeWf (execPcieFlr s) := by
  refine .ite h ?_
  extract_lets _ _ s1
  have hs1 : s1.wf = true := h
  exact bigReset_wf hs1

theorem warmBegin_wf {s : State} (h : s.wf = true) : (warmBegin s).wf = true := ite_wf h (bigReset_wf h)

theorem linkReset_wf {s : State} (h : s.wf = true) : (linkReset s).wf = true := h

theorem execPerstNAssert_wf {s : State} (h : s.wf = true) : OutcomeWf (execPerstNAssert s) := by
  unfold execPerstNAssert
  extract_lets _ s1
  have hs1 : s1.wf = true := h
  exact .ite hs1 (linkReset_wf (warmBegin_wf hs1))

theorem resetOps_wf {ops : List (Nat × Nat)} {s : State} (h : s.wf = true) : (resetOps ops s).wf = true :=
  foldl_wf (fun _ _ h1 => finishOp_wf _ _ _ _ _ h1) h

theorem programPending_wf {s : State} (h : s.wf = true) : (programPending s).wf = true :=
  foldl_wf (fun _ _ h1 => storeCnt_wf (State.updCtl_wf h1)) h

theorem swapSlot_wf {s : State} (h : s.wf = true) : (swapSlot s).wf = true := by
  unfold swapSlot
  extract_lets a b l _ _ l1 l2 x
  exact ite_wf h (logPush_wf _ _ _ h)

theorem firmwareStop_wf {s : State} (h : s.wf = true) : (firmwareStop s).wf = true := by
  unfold firmwareStop
  extract_lets s1 resv s2 oos _ _ _ _ s3 s4
  have hs2 : s2.wf = true := by
    refine foldl_wf (fun s r h => ?_) (programPending_wf h)
    split
    · exact freePages_wf h
    · exact h
  clear_value s2
  have hs3 : s3.wf = true := State.with_wf (State.mapUnits_wf hs2)
  have hs4 : s4.wf = true := foldl_wf (fun _ _ h => ite_wf (portTo_wf (portHold_wf h)) h) hs3
  exact swapSlot_wf hs4

theorem execResetWritesSettled_wf {s : State} (h : s.wf = true) : OutcomeWf (execResetWritesSettled s) := by
  unfold execResetWritesSettled
  extract_lets ready
  split
  · exact h
  · extract_lets s1 s2 s3 _ s4
    have hs1 : s1.wf = true := State.with_wf h
    have hs3 : s3.wf = true := release4_wf (ite_wf hs1 (resetStop_wf hs1))
    clear_value s3
    have hs4 : s4.wf = true := State.with_wf (State.mapUnits_wf (f := fun u => { u with snap := UnitRegs.init.snap }) hs3)
    exact .ite (resetOps_wf hs3) (.ite (planKick_wf (cfgStart_wf (resetOps_wf hs4))) (firmwareStop_wf hs3))

theorem engineRing_wf {j : Nat} {s : State} (h : s.wf = true) : (engineRing j s).wf = true := State.updRing_wf (ringEnd_wf h)

theorem engineStop_wf {ty inst : Nat} {s : State} (h : s.wf = true) : (engineStop ty inst s).wf = true := by
  unfold engineStop
  extract_lets s1 s2 ns
  have hs1 : s1.wf = true := foldl_wf (fun _ _ h1 => engineRing_wf h1) h
  have hs2 : s2.wf = true := State.updUnit_wf hs1
  refine ite_wf (foldl_wf (fun _ _ h1 => pringNotice_wf (pringReset_wf h1)) hs2) (ite_wf ?_ hs2)
  split
  · exact jobAbort_wf (inconsistent_wf (setErr_wf _ _ _ _ _ _ hs2))
  · exact hs2

theorem execEngineReset_wf {ty inst : Nat} {s : State} (h : s.wf = true) : OutcomeWf (execEngineReset ty inst s) := by
  refine .ite h ?_
  extract_lets us cs s1 day out s2 s3 e
  have hs1 : s1.wf = true := foldl_wf (fun _ _ h1 => engineStop_wf h1) h
  have hs2 : s2.wf = true := State.updUnit_wf hs1
  have hs3 : s3.wf = true := ite_wf (foldl_wf (fun _ _ h1 => State.updUnit_wf h1) hs2) hs2
  exact raiseUnit_wf hs3

/-! #### Machine/Boot.lean -/

theorem runSlot_wf {k : Nat} {s : State} (h : s.wf = true) : (runSlot k s).wf = true := h

theorem otherSlot_wf {cond : Nat} {s : State} (h : s.wf = true) : (otherSlot cond s).wf = true := by
  unfold otherSlot
  extract_lets a s1 s2
  have hs1 : s1.wf = true := updLoupe_wf h
  have hs2 : s2.wf = true := loupeErr_wf (logPush_wf _ _ _ hs1)
  exact ite_wf (runSlot_wf hs2) (State.with_wf hs2)

theorem bootSlot_wf {s : State} (h : s.wf = true) : (bootSlot s).wf = true :=
  ite_wf (runSlot_wf (logPush_wf _ _ _ (updLoupe_wf h))) (ite_wf (runSlot_wf h) (otherSlot_wf h))

theorem bootDebug_wf {s : State} (h : s.wf = true) : (bootDebug s).wf = true := ite_wf h h

theorem bootCtl_wf {bank : Nat} {s : State} {c : Nat} (h : s.wf = true) : (bootCtl bank s c).wf = true :=
  ite_wf (storeErr_wf (State.updCtl_wf h)) (State.updCtl_wf h)

theorem coldBoot_wf {bank : Nat} {temps : List (Nat × Int)} {s : State} (h : s.wf = true) : (coldBoot bank temps s).wf = true := by
  unfold coldBoot
  extract_lets trip _ _ _ s1 s2 s3 s4
  have hs1 : s1.wf = true := h
  have hs2 : s2.wf = true := State.updCtx_wf hs1
  have hs3 : s3.wf = true := bootDebug_wf (bootSlot_wf hs2)
  have hs4 : s4.wf = true := ite_wf (setErr_wf _ _ _ _ _ _ hs3) hs3
  exact foldl_wf (fun _ _ h1 => bootCtl_wf h1) hs4

theorem execColdReset_wf {pod mgmt bank : Nat} {temps : List (Nat × Int)} {s : State} (h : s.wf = true) :
    OutcomeWf (execColdReset pod mgmt bank temps s) := by
  refine .ite h (.ite h ?_)
  extract_lets s1 _ s2
  have hs1 : s1.wf = true := ite_wf (powerOff_wf (programPending_wf (atLeast_wf _ h))) h
  have hs2 : s2.wf = true := State.with_wf hs1
  exact .ite (logPush_wf _ _ _ (updLoupe_wf hs2)) (coldBoot_wf hs2)

theorem execFwTrialTimeout_wf {s : State} (h : s.wf = true) : OutcomeWf (execFwTrialTimeout s) := by
  unfold execFwTrialTimeout
  split
  · exact h
  · exact .ite h (otherSlot_wf (atLeast_wf _ h))

theorem reapply_wf {s : State} (h : s.wf = true) : (reapply s).wf = true := foldl_wf (fun _ _ h1 => State.updUnit_wf h1) h

theorem sealCheck_wf {s : State} (h : s.wf = true) : (sealCheck s).wf = true := h

theorem lostRecords_wf {s : State} (h : s.wf = true) : (lostRecords s).wf = true :=
  updLoupe_wf (ite_wf (raise_wf _ (ite_wf (raise_wf _ h) h)) (ite_wf (raise_wf _ h) h))

theorem execFirmwareStartPublish_wf {s : State} (h : s.wf = true) : OutcomeWf (execFirmwareStartPublish s) := by
  refine .ite h ?_
  extract_lets s1 oos _ s2 s3
  have hs1 : s1.wf = true := reapply_wf h
  have hs2 : s2.wf = true := State.with_wf hs1
  have hs3 : s3.wf = true := foldl_wf (fun _ _ h1 => ite_wf (portTo_wf h1) h1) hs2
  exact planKick_wf (lostRecords_wf (sealCheck_wf hs3))

theorem fatalError_wf {code : Nat} {s : State} (h : s.wf = true) : (fatalError code s).wf = true := by
  refine ite_wf h ?_
  extract_lets s1
  have hs1 : s1.wf = true := raise_wf _ h
  exact State.with_wf hs1

theorem execSpineLinkDown_wf {link : Nat} {s : State} (h : s.wf = true) : OutcomeWf (execSpineLinkDown link s) := by
  refine .ite h ?_
  extract_lets _ s1 s2 ends near s3
  have hs1 : s1.wf = true := h
  have hs2 : s2.wf = true := ite_wf (State.updChan_wf hs1) hs1
  have hs3 : s3.wf = true := raiseUnit_wf hs2
  exact ite_wf (fatalError_wf hs3) hs3

/-! #### Machine/Aperture.lean -/

theorem execRcFieldRead_wf {blk : Block} {off size : Nat} {s : State} (h : s.wf = true) : OutcomeWf (execRcFieldRead blk off size s) := by
  refine .ite h ?_
  extract_lets v _ k f
  exact .ite h (.ite h h)

/-! #### Machine/Forward.lean -/

theorem updSweep_wf {id : Nat} {f : Sweep → Sweep} {s : State} (h : s.wf = true) : (updSweep id f s).wf = true := h

theorem nextStep_wf {id : Nat} {s : State} (h : s.wf = true) : (nextStep id s).wf = true := updSweep_wf h

theorem fwRing_wf {ty : Nat} {x : FwIssue} {s : State} (h : s.wf = true) :
    OptionWf (fwRing ty x s) := .ite trivial (.ite (.ite (createRing_wf (State.withMarks_wf h)) trivial) (.ite h trivial))

theorem fwPost_wf {ty : Nat} {x : FwIssue} {s : State} (h : s.wf = true) : OptionWf (fwPost ty x s) := by
  unfold fwPost
  split
  · exact trivial
  · next e => exact .ite trivial (State.updRing_wf (spaceWrite_wf _ _ _ (OptionWf.of_eq e (fwRing_wf h))))

theorem fwPostAll_wf {ty : Nat} {l : List FwIssue} {s : State} (h : s.wf = true) : OptionWf (fwPostAll ty l s) := by
  induction l generalizing s with
  | nil => exact h
  | cons x l ih =>
    unfold fwPostAll
    split
    · exact trivial
    · next e => exact ih (OptionWf.of_eq e (fwPost_wf h))

theorem execFwdFill_wf {sweep : Nat} {x : FwIssue} {s : State} (h : s.wf = true) : OutcomeWf (execFwdFill sweep x s) := by
  unfold execFwdFill
  split
  · exact h
  · extract_lets t
    refine .ite h ?_
    split
    · exact h
    · rename_i e
      have ht := OptionWf.of_eq e (fwPost_wf h)
      exact nextStep_wf ht

theorem execFwdPass_wf {sweep : Nat} {x : FwIssue} {s : State} (h : s.wf = true) : OutcomeWf (execFwdPass sweep x s) := by
  unfold execFwdPass
  split
  · exact h
  · extract_lets t
    refine .ite h ?_
    split
    · exact h
    · rename_i e
      have ht := OptionWf.of_eq e (fwPost_wf h)
      exact nextStep_wf ht

theorem execFwdRoute_wf {sweep layer scores rows lists order : Nat} {s : State} (h : s.wf = true) :
    OutcomeWf (execFwdRoute sweep layer scores rows lists order s) := by
  unfold execFwdRoute
  split
  · exact h
  · extract_lets l n pick used of ord starts s1
    have hs1 : s1.wf = true := hbmWrite_wf _ _ h
    exact .ite h (nextStep_wf (hbmWrite_wf _ _ hs1))

theorem execFwdExchange_wf {sweep : Nat} {xs : List FwIssue} {s : State} (h : s.wf = true) : OutcomeWf (execFwdExchange sweep xs s) := by
  unfold execFwdExchange
  split
  · exact h
  · extract_lets ok
    refine .ite h ?_
    split
    · exact h
    · rename_i e
      have ht := OptionWf.of_eq e (fwPostAll_wf h)
      exact nextStep_wf ht

theorem softRows_wf {w : Sweep} {first : Nat} {tags : Bytes} {x : FwIssue} {s : State} (h : s.wf = true) :
    OptionWf (softRows w first tags x s) := by
  unfold softRows
  extract_lets n a off cand use ix
  refine .ite trivial ?_
  have hp : OptionWf (fwPost Config.tPrism x (hbmWrite a use.flatten s)) := fwPost_wf (hbmWrite_wf _ _ h)
  generalize fwPost Config.tPrism x (hbmWrite a use.flatten s) = o at hp
  cases o with
  | none => exact trivial
  | some t => exact updSweep_wf hp

theorem softAll_wf {w : Sweep} {l : List (Nat × Bytes × FwIssue)} {s : State} (h : s.wf = true) : OptionWf (softAll w l s) := by
  induction l generalizing s with
  | nil => exact h
  | cons x l ih =>
    unfold softAll
    split
    · exact trivial
    · next e => exact ih (OptionWf.of_eq e (softRows_wf h))

theorem execFwdSoftTarget_wf {sweep : Nat} {rows : List (Nat × List Byte × FwIssue)} {lens : List FwIssue} {s : State} (h : s.wf = true) :
    OutcomeWf (execFwdSoftTarget sweep rows lens s) := by
  unfold execFwdSoftTarget
  split
  · exact h
  · refine .ite (.ite h (.ite (nextStep_wf h) ((softAll_wf h).getD h))) ?_
    refine .ite h ?_
    split
    · exact h
    · next e => exact nextStep_wf (updSweep_wf (OptionWf.of_eq e (fwPostAll_wf h)))

theorem execFwdTap_wf {sweep : Nat} {xs : List FwIssue} {s : State} (h : s.wf = true) : OutcomeWf (execFwdTap sweep xs s) := by
  unfold execFwdTap
  split
  · exact h
  · refine .ite h ?_
    split
    · exact h
    · rename_i e
      have ht := OptionWf.of_eq e (fwPostAll_wf h)
      exact nextStep_wf ht

theorem execFwdRepeat_wf {sweep : Nat} {thin : Bool} {s : State} (h : s.wf = true) : OutcomeWf (execFwdRepeat sweep thin s) := by
  unfold execFwdRepeat
  split
  · exact h
  · split
    · exact updSweep_wf h
    · exact .ite h (updSweep_wf h)

theorem chunkDone_wf {ring : Nat} {s : State} (h : s.wf = true) : (chunkDone ring s).wf = true := by
  unfold chunkDone
  extract_lets ch n p b s1 s2
  have hs1 : s1.wf = true := State.setPring_wf h
  have hs2 : s2.wf = true := ite_wf hs1 (prismSend_wf hs1)
  exact ite_wf h (ite_wf (endBlock_wf hs2) hs2)

theorem execFwdEnd_wf {sweep : Nat} {token : Option Nat} {s : State} (h : s.wf = true) : OutcomeWf (execFwdEnd sweep token s) := by
  unfold execFwdEnd
  split
  · exact h
  · split
    · exact updSweep_wf h
    · refine .ite h ?_
      extract_lets s1
      have hs1 : s1.wf = true := by
        unfold s1
        split
        · exact chunkDone_wf h
        · exact h
      split
      · exact State.with_wf hs1
      · split
        · exact State.with_wf hs1
        · exact .ite (updSweep_wf hs1) (jobStopGo_wf (State.setJob_wf (State.with_wf hs1)))

/-! #### Machine/Tasks.lean -/

theorem execTaskComplete_wf {j : Nat} {s : State} (h : s.wf = true) : OutcomeWf (execTaskComplete j s) := by
  unfold execTaskComplete
  split
  · exact .ite (windowAfter_wf (completeCur_wf h)) h
  · exact h

theorem refill_wf {j : Nat} {s : State} (h : s.wf = true) : (refill j s).wf = true :=
  ite_wf (ite_wf (drainEvents_wf _ _ h) h) (drainHeld_wf _ _ h)

theorem settleNamed_wf {j : Nat} {s : State} (h : s.wf = true) : (settleNamed j s).wf = true :=
  foldl_wf (fun _ _ h1 => windowAfter_wf (settleAll_wf h1)) h

theorem execRingHeadWrite_wf {ring value : Nat} {s : State} (h : s.wf = true) :
    OutcomeWf (execRingHeadWrite ring value s) := .ite h (.ite (settleNamed_wf (refill_wf (State.setRing_wf _ _ h))) (State.setRing_wf _ _
    h))

/-! #### Machine/Mailbox.lean -/

/-- Every command of the list keeps the form. -/
theorem commands_wf : ∀ k ∈ commands, SpecWf k := by
  simp only [commands, List.cons_append, List.nil_append, List.forall_mem_cons]
  exact ⟨specSysNop_wf, specSysEcho_wf, specSysInfo_wf, specSysTime_wf, specSysEventRing_wf, specSysReset_wf, specCfgBegin_wf,
    specCfgSet_wf,
    specCfgCommit_wf, specCfgRollback_wf, specCfgQuery_wf, specCtxCreate_wf, specCtxDestroy_wf, specCtxSetQuota_wf, specCtxQuery_wf,
    specCtxAssignMailbox_wf, specCtxReleaseMailbox_wf, specCtxReset_wf, specCtxAgentLoad_wf, specCtxAgentStart_wf, specCtxAgentStop_wf,
    specCtxAgentUnload_wf, specMemAlloc_wf, specMemFree_wf, specMemMapHost_wf, specMemUnmapHost_wf, specMemCopy_wf, specMemQuery_wf,
    specRingCreate_wf, specRingDestroy_wf, specRingDrain_wf, specRingQuery_wf, specImgOpen_wf, specImgWrite_wf, specImgClose_wf,
    specImgActivate_wf, specImgDelete_wf, specImgQuery_wf, specJobCreate_wf, specJobStart_wf, specJobStop_wf, specJobQuery_wf,
    specJobLedgerRead_wf, specSrvQueueCreate_wf, specSrvQueueWeight_wf, specSrvSubmit_wf, specSrvCancel_wf, specSrvPause_wf,
    specSrvResume_wf,
    specSrvPrefixCreate_wf, specSrvPrefixRelease_wf, specSrvSamplerSet_wf, specMirCkpt_wf, specMirRestore_wf, specMirSnapshot_wf,
    specMirSpare_wf, specMirTakeover_wf, specMirLogQuery_wf, specPodJoin_wf, specPodGroupCreate_wf, specPodBarrier_wf, specPodReset_wf,
    specBeamRouteQuery_wf, specBeamPortQuery_wf, specLoupeSensors_wf, specLoupeLedger_wf, specLoupeLogRead_wf, specLoupePowerCap_wf,
    specLoupeFwStage_wf, specLoupeFwActivate_wf, specSecCerts_wf, specSecMeasurements_wf, specSecCtxKeyRoll_wf, specSecDebugState_wf, by
    simp⟩

theorem specOf_wf {op : Nat} : ∀ k ∈ specOf op, SpecWf k := fun k hk => commands_wf k (List.mem_of_find?_eq_some hk)

theorem nextOf_wf {o : Host.Outcome State Fault Refusal} {s : State} (ho : OutcomeWf o) (h : s.wf = true) : (nextOf o s).wf = true := by
  cases o with
  | next t => exact ho
  | fault => exact h
  | refused => exact h

theorem writeGo_wf {m : Nat} {s : State} (h : s.wf = true) : (writeGo m s).wf = true := by
  unfold writeGo
  split
  exact goWrite_wf specOf_wf h

theorem writeMb_wf {m off size value : Nat} {s : State} (h : s.wf = true) : (writeMb m off size value s).wf = true := by
  unfold writeMb
  split
  refine ite_wf (ite_wf h (State.setMb_wf _ _ h)) ?_
  split
  · exact ite_wf (writeGo_wf h) h
  · exact State.setMb_wf _ _ h
  · exact ite_wf (State.setMb_wf _ _ h) h
  · exact h

theorem writeRing_wf {j off size value : Nat} {s : State} (h : s.wf = true) : (writeRing j off size value s).wf = true := by
  unfold writeRing
  split
  refine ite_wf h ?_
  split
  · refine nextOf_wf ?_ h
    exact execRingTailWrite_wf h
  · refine nextOf_wf ?_ h
    exact execRingHeadWrite_wf h
  · exact ite_wf (State.setRing_wf _ _ h) h
  · extract_lets s1
    have hs1 : s1.wf = true := by
      unfold s1
      refine ite_wf ?_ h
      refine nextOf_wf ?_ h
      exact execRingCtrlRestart_wf h
    refine ite_wf ?_ hs1
    refine nextOf_wf ?_ hs1
    exact execRingCtrlArm_wf hs1
  · exact h

theorem clearErr_wf {ty inst v : Nat} {s : State} (h : s.wf = true) : (clearErr ty inst v s).wf = true := by
  unfold clearErr
  extract_lets u e gone u1 s1
  have hs1 : s1.wf = true := State.setUnit_wf _ _ _ h
  exact ite_wf (State.with_wf hs1) hs1

theorem writeUnit_wf {ty inst off size value : Nat} {s : State} (h : s.wf = true) : (writeUnit ty inst off size value s).wf = true := by
  unfold writeUnit
  split
  extract_lets r
  refine ite_wf (clearErr_wf h) (ite_wf ?_ h)
  refine nextOf_wf ?_ h
  exact execSnapTake_wf h

theorem execRegisterWrite_wf {blk : Block} {off size value : Nat} {s : State} (h : s.wf = true) :
    OutcomeWf (execRegisterWrite blk off size value s) := by
  refine .ite h ?_
  split
  · exact .ite (writeMb_wf h) h
  · exact .ite h (writeRing_wf h)
  · exact .ite h (writeUnit_wf h)
  · exact h
  · exact h

theorem agentDo_wf {g : Nat} {act : AgentAct} {s : State} (h : s.wf = true) : (agentDo g act s).wf = true := by
  unfold agentDo
  split
  · exact h
  · exact State.setAgent_wf h
  · exact hbmWrite_wf _ _ h
  · exact writeRing_wf h
  · exact writeMb_wf h
  · exact h

theorem execCommandEventRecord_wf {ctx handle : Nat} {s : State} (h : s.wf = true) : OutcomeWf (execCommandEventRecord ctx handle s) := by
  unfold execCommandEventRecord
  split
  · exact h
  · refine .ite h (.ite (memCopyFinish_wf h) (.ite h ?_))
    split
    · exact h
    · next o _ _ k hk =>
      extract_lets i
      have hr : ResWf (k.run i o.payload s) := (specOf_wf k hk).1 _ _ _ h
      generalize k.run i o.payload s = r at hr
      cases r with
      | ok resp t => exact finishOp_wf _ _ _ _ _ hr
      | fail st d => exact finishOp_wf _ _ _ _ _ h
      | failWith st d t => exact finishOp_wf _ _ _ _ _ hr
      | pend t => exact h
      | hold t => exact h

theorem execErrorRecordInterval_wf {ctx : Nat} {s : State} (h : s.wf = true) : OutcomeWf (execErrorRecordInterval ctx s) := by
  unfold execErrorRecordInterval
  extract_lets mine s1 slots _ s2
  have hs1 : s1.wf = true := atLeast_wf _ h
  have hs2 : s2.wf = true := State.with_wf hs1
  exact .ite h (foldl_wf (fun _ _ h1 => deliverEvent_wf _ _ h1) hs2)

theorem mctpControl_wf {t op : Nat} {p : Bytes} {s : State} (h : s.wf = true) : (mctpControl t op p s).wf = true := by
  unfold mctpControl
  extract_lets answer e
  have hanswer : ∀ cc1 bs1 s1, s1.wf = true → (answer cc1 bs1 s1).wf = true := fun _ _ _ h1 => mctpSend_wf h1
  split
  · exact ite_wf (hanswer _ _ _ h) (hanswer _ _ _ h)
  · exact hanswer _ _ _ h
  · exact hanswer _ _ _ h
  · exact hanswer _ _ _ h
  · exact hanswer _ _ _ h

theorem mctpRequest_wf {t op : Nat} {q : Request} {s : State} (h : s.wf = true) : (mctpRequest t op q s).wf = true := by
  unfold mctpRequest
  extract_lets m b q1 s1 s2
  have hs1 : s1.wf = true := State.setMb_wf _ _ h
  have hs2 : s2.wf = true :=
    ite_wf (mbComplete_wf (State.setMb_wf _ _ h)) (ite_wf (mbComplete_wf hs1) (ite_wf (mbComplete_wf hs1) (ite_wf (mbComplete_wf hs1)
    (ite_wf (mbComplete_wf hs1) (runAccepted_wf specOf_wf hs1)))))
  exact ite_wf h (ite_wf (mctpSend_wf hs2) hs2)

theorem startWaiting_wf {m : Nat} {s : State} (h : s.wf = true) : (startWaiting m s).wf = true := by
  unfold startWaiting
  split
  · refine ite_wf h ?_
    extract_lets _ s1
    have hs1 : s1.wf = true := State.setMb_wf _ _ h
    exact mctpReply_wf (runWaited_wf specOf_wf hs1)
  · exact h

theorem upset_wf {s : State} (h : s.wf = true) : (upset s).wf = true := by
  unfold upset
  split
  rename_i e
  have ht := snd_wf e (State.fresh_wf h)
  extract_lets n
  split
  · exact ite_wf (bump_wf _ _ _ _ ht) (bump_wf _ _ _ _ ht)
  · exact sramUpset_wf ht
  · exact ht
  · exact ite_wf (hpErr_wf _ _ _ (bump_wf _ _ _ _ ht)) ht
  · exact ite_wf (npCnt_wf ht) ht
  · exact ite_wf (npErr_wf (npCnt_wf ht)) ht
  · exact ht

theorem tick_wf {s : State} (h : s.wf = true) : (tick s).wf = true :=
  ite_wf (upset_wf (foldl_wf (fun _ _ h1 => startWaiting_wf h1) h)) (foldl_wf (fun _ _ h1 => startWaiting_wf h1) h)

/-! #### Machine/Peer.lean -/

theorem peerRequest_wf {src w : Nat} {b : Bytes} {s : State} (h : s.wf = true) : (peerRequest src w b s).wf = true :=
  ite_wf (sendMsg_wf h) (ite_wf (sendMsg_wf (hbmTaken_wf h)) (sendMsg_wf (hbmWrite_wf _ _ h)))

theorem peerManage_wf {src w : Nat} {b : Bytes} {s : State} (h : s.wf = true) : (peerManage src w b s).wf = true :=
  ite_wf (foldl_wf (fun _ _ h1 => groupBreak_wf h1) h) (ite_wf h (ite_wf (foldl_wf (fun _ _ h1 => ite_wf (groupReset_wf h1) h1) h) (ite_wf
  h (ite_wf (takeoverAuto_wf h) (ite_wf (foldl_wf (fun _ _ h1 => ite_wf (State.updGroup_wf h1) h1) h) h)))))

theorem deliver_wf {cls src : Nat} {m : Bytes} {s : State} (h : s.wf = true) : (deliver cls src m s).wf = true :=
  ite_wf (peerManage_wf h) (ite_wf (prismPeer_wf h) (ite_wf (peerRequest_wf h) (ite_wf h h)))

theorem rejected_wf {p cls src : Nat} {msg : Bytes} {s : State} (h : s.wf = true) : (rejected p cls src msg s).wf = true :=
  ite_wf (sendMsg_wf (logPush_wf _ _ _ h)) (ite_wf (groupAbort_wf (logPush_wf _ _ _ h)) (logPush_wf _ _ _ h))

theorem flitAccept_wf {p : Nat} {f : Bytes} {s : State} (h : s.wf = true) : (flitAccept p f s).wf = true := by
  unfold flitAccept
  extract_lets len s1 s2 freed k msg _ _ s3
  have hs1 : s1.wf = true := bump_wf _ _ _ _ h
  have hs2 : s2.wf = true := ite_wf (State.updPort_wf hs1) hs1
  have hfreed : ∀ s4, s4.wf = true → (freed s4).wf = true := fun _ h1 => State.updPort_wf h1
  have hs3 : s3.wf = true := State.with_wf (hfreed _ hs2)
  refine ite_wf (ite_wf (portReplay_wf h) h) (ite_wf (ite_wf hs3 (ite_wf (deliver_wf hs3) ?_)) (ite_wf (hfreed _ hs2) (sendToward_wf hs2)))
  split
  · rename_i e
    have ht := snd_wf e (openPeer_wf hs3)
    exact deliver_wf ht
  · rename_i e
    have ht := snd_wf e (openPeer_wf hs3)
    exact rejected_wf ht

theorem tellAck_wf {p : Nat} {s : State} (h : s.wf = true) : (tellAck p s).wf = true := ite_wf (sendNull_wf h) h

theorem execBeamFlitReceive_wf {port : Nat} {flit : List Byte} {s : State} (h : s.wf = true) :
    OutcomeWf (execBeamFlitReceive port flit s) := by
  refine .ite h (.ite (portErr_wf (bump_wf _ _ _ _ h)) ?_)
  extract_lets s1 seq
  have hs1 : s1.wf = true := bump_wf _ _ _ _ h
  split
  · exact portDown_wf (portErr_wf hs1)
  · extract_lets s2 x s3
    have hs2 : s2.wf = true := portGo_wf (State.setPort_wf hs1)
    have hs3 : s3.wf = true := bump_wf _ _ _ _ hs2
    exact .ite hs2 (.ite (tellAck_wf (flitAccept_wf (State.setPort_wf hs2))) (.ite (bump_wf _ _ _ _ hs2) (.ite hs3 (sendNumbered_wf
      (State.setPort_wf hs3)))))

/-! #### Machine/Scaler.lean -/

theorem qWrite_wf {core : Nat} {d : Bytes} {p : QPass} {s : State} (h : s.wf = true) : (qWrite core d p s).wf = true :=
  foldl_wf (fun _ _ h1 => foldl_wf (fun _ _ h2 => sramWrite_wf _ _ _ h2) h1) (foldl_wf (fun _ _ h1 => sramWrite_wf _ _ _ h1) h)

theorem sclMarked_wf {j ix : Nat} {d : Bytes} {m : Nat × Nat} {next : Nat} {s : State} (h : s.wf = true) :
    (sclMarked j ix d m next s).wf = true :=
  raise_wf _ (finish_wf (setErr_wf _ _ _ _ _ _ (begin_wf h)))

theorem quantRun_wf {j ix core : Nat} {d b : Bytes} {s : State} (h : s.wf = true) : (quantRun j ix core d b s).wf = true := by
  unfold quantRun
  extract_lets r ty inst sl x flat amax nf nonzero p1 exceeds live ovf uf act p used s1 sl' s2 reads both s3 outcome reason s4
  have hs1 : s1.wf = true := qWrite_wf (served_wf (begin_wf h))
  have hs2 : s2.wf = true := ite_wf hs1 (sramWrite_wf _ _ _ hs1)
  have hs3 : s3.wf = true := foldl_wf (fun _ _ h1 => ite_wf h1 (bump_wf _ _ _ _ h1)) hs2
  have hs4 : s4.wf = true := ite_wf (setErr_wf _ _ _ _ _ _ hs3) hs3
  exact finish_wf hs4

theorem amaxRun_wf {j ix core : Nat} {d b : Bytes} {s : State} (h : s.wf = true) : (amaxRun j ix core d b s).wf = true := by
  unfold amaxRun
  extract_lets r sl x flat amax nf nonzero rows push s1 s2 sl' s3 s4
  have hs1 : s1.wf = true := served_wf (begin_wf h)
  have hs2 : s2.wf = true := ite_wf (foldl_wf (fun _ _ h1 => sramWrite_wf _ _ _ h1) hs1) hs1
  have hs3 : s3.wf = true := ite_wf (sramWrite_wf _ _ _ hs2) hs2
  have hs4 : s4.wf = true := foldl_wf (fun _ _ h1 => ite_wf h1 (bump_wf _ _ _ _ h1)) hs3
  exact finish_wf hs4

theorem sclTask_wf {j op : Nat} {run : Nat → Nat → Nat → Bytes → Bytes → State → State} {s : State}
    (hr : ∀ j ix core d b s, s.wf = true → (run j ix core d b s).wf = true) (h : s.wf = true) : (sclTask j op run s).wf = true := by
  unfold sclTask
  split
  · exact h
  · refine ite_wf h ?_
    split
    · exact failArg_wf h
    · split
      · exact sclMarked_wf h
      · refine ite_wf (failCheck_wf (setErr_wf _ _ _ _ _ _ h)) ?_
        split
        · exact sclMarked_wf h
        · exact hr _ _ _ _ _ _ h

/-! #### The instructions, and a step -/

/-- Every instruction of the table keeps the form. -/
theorem exec_wf {i : Instr} {s : State} (h : s.wf = true) : OutcomeWf (exec i s) := by
  cases i with
  | sysNop => exact submit_wf specSysNop_wf h
  | sysEcho => exact submit_wf specSysEcho_wf h
  | sysInfo => exact submit_wf specSysInfo_wf h
  | sysTime => exact submit_wf specSysTime_wf h
  | sysEventRing => exact submit_wf specSysEventRing_wf h
  | sysReset => exact submit_wf specSysReset_wf h
  | cfgBegin => exact submit_wf specCfgBegin_wf h
  | cfgSet => exact submit_wf specCfgSet_wf h
  | cfgCommit => exact submit_wf specCfgCommit_wf h
  | cfgRollback => exact submit_wf specCfgRollback_wf h
  | cfgQuery => exact submit_wf specCfgQuery_wf h
  | cfgCommitAllHold => exact execCfgCommitAllHold_wf h
  | cfgCommitReject => exact execCfgCommitReject_wf h
  | cfgQuiesceTimeout => exact execCfgQuiesceTimeout_wf h
  | cfgTxnTimeout => exact execCfgTxnTimeout_wf h
  | ctxCreate => exact submit_wf specCtxCreate_wf h
  | ctxDestroy => exact submit_wf specCtxDestroy_wf h
  | ctxSetQuota => exact submit_wf specCtxSetQuota_wf h
  | ctxQuery => exact submit_wf specCtxQuery_wf h
  | ctxAssignMailbox => exact submit_wf specCtxAssignMailbox_wf h
  | ctxReleaseMailbox => exact submit_wf specCtxReleaseMailbox_wf h
  | ctxReset => exact submit_wf specCtxReset_wf h
  | ctxAgentLoad => exact submit_wf specCtxAgentLoad_wf h
  | ctxAgentStart => exact submit_wf specCtxAgentStart_wf h
  | ctxAgentStop => exact submit_wf specCtxAgentStop_wf h
  | ctxAgentUnload => exact submit_wf specCtxAgentUnload_wf h
  | agentFault => exact .ite h (.ite (agentDo_wf h) (deliverEvent_wf _ _ (State.setAgent_wf h)))
  | memAlloc => exact submit_wf specMemAlloc_wf h
  | memFree => exact submit_wf specMemFree_wf h
  | memMapHost => exact submit_wf specMemMapHost_wf h
  | memUnmapHost => exact submit_wf specMemUnmapHost_wf h
  | memCopy => exact submit_wf specMemCopy_wf h
  | memQuery => exact submit_wf specMemQuery_wf h
  | ringCreate => exact submit_wf specRingCreate_wf h
  | ringDestroy => exact submit_wf specRingDestroy_wf h
  | ringDrain => exact submit_wf specRingDrain_wf h
  | ringQuery => exact submit_wf specRingQuery_wf h
  | ringDrainComplete => exact execRingDrainComplete_wf h
  | imgOpen => exact submit_wf specImgOpen_wf h
  | imgWrite => exact submit_wf specImgWrite_wf h
  | imgChunkProgrammed => exact execImgChunkProgrammed_wf h
  | imgClose => exact submit_wf specImgClose_wf h
  | imgVerifyComplete => exact execImgVerifyComplete_wf h
  | imgActivate => exact submit_wf specImgActivate_wf h
  | imgDelete => exact submit_wf specImgDelete_wf h
  | imgDeleteComplete => exact execImgDeleteComplete_wf h
  | imgQuery => exact submit_wf specImgQuery_wf h
  | jobCreate => exact submit_wf specJobCreate_wf h
  | jobStart => exact submit_wf specJobStart_wf h
  | jobStop => exact submit_wf specJobStop_wf h
  | jobStopWindowTimeout => exact execJobStopWindowTimeout_wf h
  | jobQuery => exact submit_wf specJobQuery_wf h
  | jobLedgerRead => exact submit_wf specJobLedgerRead_wf h
  | srvQueueCreate => exact submit_wf specSrvQueueCreate_wf h
  | srvQueueWeight => exact submit_wf specSrvQueueWeight_wf h
  | srvSubmit => exact submit_wf specSrvSubmit_wf h
  | srvCancel => exact submit_wf specSrvCancel_wf h
  | srvPause => exact submit_wf specSrvPause_wf h
  | summaryWriteLanded => exact execSummaryWriteLanded_wf h
  | srvResume => exact submit_wf specSrvResume_wf h
  | summaryRestoreComplete => exact execSummaryRestoreComplete_wf h
  | srvPrefixCreate => exact submit_wf specSrvPrefixCreate_wf h
  | srvPrefixRelease => exact submit_wf specSrvPrefixRelease_wf h
  | srvSamplerSet => exact submit_wf specSrvSamplerSet_wf h
  | mirCkpt => exact submit_wf specMirCkpt_wf h
  | ckptCaptureDone => exact execCkptCaptureDone_wf h
  | ckptManifestWritten => exact execCkptManifestWritten_wf h
  | mirRestore => exact submit_wf specMirRestore_wf h
  | mirSnapshot => exact submit_wf specMirSnapshot_wf h
  | mirSpareProtect | mirSpareDesignate | mirSpareReserve | mirSpareRelease => exact submit_wf specMirSpare_wf h
  | mirTakeoverBegin | mirTakeoverEnd => exact submit_wf specMirTakeover_wf h
  | takeoverRestoreComplete => exact execTakeoverRestoreComplete_wf h
  | mirLogQuery => exact submit_wf specMirLogQuery_wf h
  | podJoin => exact submit_wf specPodJoin_wf h
  | podJoinTimeout => exact execPodJoinTimeout_wf h
  | podGroupCreate => exact submit_wf specPodGroupCreate_wf h
  | groupFormed => exact .ite h (.ite (State.setGroup_wf h) (groupUpd_wf (groupAbort_wf (setErr_wf _ _ _ _ _ _ (setErr_wf _ _ _ _ _ _
    (State.setGroup_wf h))))))
  | podBarrier => exact submit_wf specPodBarrier_wf h
  | podReset => exact submit_wf specPodReset_wf h
  | beamRouteQuery => exact submit_wf specBeamRouteQuery_wf h
  | beamPortQuery => exact submit_wf specBeamPortQuery_wf h
  | loupeSensors => exact submit_wf specLoupeSensors_wf h
  | loupeLedger => exact submit_wf specLoupeLedger_wf h
  | loupeLogRead => exact submit_wf specLoupeLogRead_wf h
  | loupePowerCap => exact submit_wf specLoupePowerCap_wf h
  | loupeFwStage => exact submit_wf specLoupeFwStage_wf h
  | fwStageVerified => exact execFwStageVerified_wf h
  | loupeFwActivate | loupeFwCommit | loupeFwRevert => exact submit_wf specLoupeFwActivate_wf h
  | fuseStepComplete => exact execFuseStepComplete_wf h
  | fwTrialTimeout => exact execFwTrialTimeout_wf h
  | secCerts => exact submit_wf specSecCerts_wf h
  | secMeasurements => exact submit_wf specSecMeasurements_wf h
  | secCtxKeyRoll => exact submit_wf specSecCtxKeyRoll_wf h
  | keyRollReencryptComplete => exact execKeyRollReencryptComplete_wf h
  | secDebugQuery | secDebugStageUnlock | secDebugCancel => exact submit_wf specSecDebugState_wf h
  | commandEventRecord => exact execCommandEventRecord_wf h
  | mailboxOverrun => exact .ite (State.setMb_wf _ _ h) h
  | ringTailWrite => exact execRingTailWrite_wf h
  | ringHeadWrite => exact execRingHeadWrite_wf h
  | ringCtrlRestart => exact execRingCtrlRestart_wf h
  | ringCtrlArm => exact execRingCtrlArm_wf h
  | snapTake => exact execSnapTake_wf h
  | snapCaptureComplete => exact execSnapCaptureComplete_wf h
  | rcFieldRead => exact execRcFieldRead_wf h
  | registerWrite => exact execRegisterWrite_wf h
  | apertureUnsupportedAccess | mirrorHeartbeat | vauxApplied | ideKmKeyProgram | hdmDecoderCommit => exact .ite h h
  | descriptorFetch => exact .ite h (windowAfter_wf (settleAll_wf (fetchMore_wf h)))
  | descriptorNop => exact execDescriptorNop_wf h
  | fence => exact execFence_wf h
  | fenceResume => exact execFenceResume_wf h
  | taskComplete => exact execTaskComplete_wf h
  | teLutPass | teDirectPass | tePanePass | teThinPass => exact tePass_wf h
  | teVector | seVector => exact vecTask_wf h
  | arrayPassDrainComplete => exact execArrayPassDrainComplete_wf h
  | coreClearComplete => exact execCoreClearComplete_wf h
  | seMatmul | sePanePass => exact sePassTake_wf h
  | seKdLoss => exact execSeKdLoss_wf h
  | vuNop => exact vecPure_wf (fun _ hv => hv) h
  | vuHalt => exact vecIssue_wf (fun _ _ h1 h2 => vecEnd_wf h2) h
  | vuSetvl => exact vecIssue_wf (fun _ _ hv h => .ite ⟨hv, h⟩ (vecIllegal_wf h)) h
  | vuSli | vuSadd | vuSmul | vuSshr | vuSlane | vuVredsum | vuVredmax | vuVargmax => exact vecPure_wf (fun _ h1 => VecState.setX_wf h1) h
  | vuBlt | vuBne | vuJmp => exact vecBranch_wf h
  | vuVld | vuVgather => exact vecIssue_wf (fun _ _ h1 h2 => vecLoadLanes_wf h1 h2) h
  | vuVst | vuVscatter => exact vecIssue_wf (fun _ _ h1 h2 => vecStoreLanes_wf h1 h2) h
  | vuSld => exact vecIssue_wf (fun _ _ h1 h2 => vecLoad_wf (fun _ => ⟨VecState.setX_wf h1, h2⟩) h2) h
  | vuSst => exact vecIssue_wf (fun _ _ h1 h2 => vecStore_wf h1 h2) h
  | vuVadd | vuVsub | vuVmul | vuVfma | vuVmax | vuVmin | vuVabs | vuVneg | vuVadds | vuVmuls | vuVbcast | vuVidx | vuViadd | vuVand |
    vuVcvt | vuVsel => exact vecLanes_wf h
  | vuVcmp | vuMand | vuMnot => exact vecPure_wf (fun _ h1 => VecState.setMask_wf h1) h
  | vuVrcp | vuVsqrt | vuVrsqrt | vuVexp2 | vuVlog2 | vuVtanh | vuVsigm => exact vecSfu_wf h
  | vuTwait => exact execVuTwait_wf h
  | twaitWake => exact execTwaitWake_wf h
  | vuTpop => exact execVuTpop_wf h
  | vuTcount => exact execVuTcount_wf h
  | sclQuant => exact sclTask_wf (fun _ _ _ _ _ _ h1 => quantRun_wf h1) h
  | sclAmax => exact sclTask_wf (fun _ _ _ _ _ _ h1 => amaxRun_wf h1) h
  | lensTopk | lensCompact | lensSort => exact lensTake_wf h
  | lensTaskResume => exact .ite h (lensRun_wf (State.setLensTask_wf h))
  | samplerRequest => exact execSamplerRequest_wf h
  | prismRows => exact execPrismRows_wf h
  | prismTap => exact execPrismTap_wf h
  | prismBlockOpen => exact execPrismBlockOpen_wf h
  | prismBlockEnd => exact execPrismBlockEnd_wf h
  | blockGrant => exact execBlockGrant_wf h
  | prismRowAccept => exact execPrismRowAccept_wf h
  | prismRecordLand => exact execPrismRecordLand_wf h
  | prismCreditFlush => exact .ite h (crdSend_wf (atLeast_wf _ h))
  | prismCreditReturn => exact .ite h (creditBack_wf h)
  | tokenChunkSend => exact execTokenChunkSend_wf h
  | tokenChunkLand => exact execTokenChunkLand_wf h
  | prismRingReset => exact .ite h (.ite (raise_wf _ (pringNotice_wf (pringReset_wf (setErr_wf _ _ _ _ _ _ h)))) (.ite h (pringNotice_wf
    (pringReset_wf (setErr_wf _ _ _ _ _ _ h)))))
  | prismRingResetComplete => exact .ite h (jobStopEnd_wf (State.setPring_wf h))
  | updExchange => exact execUpdExchange_wf h
  | updCommit => exact execUpdCommit_wf h
  | commitWordArrival => exact execCommitWordArrival_wf h
  | updApply => exact execUpdApply_wf h
  | updGather => exact execUpdGather_wf h
  | updMark => exact execUpdMark_wf h
  | deltaAck => exact execDeltaAck_wf h
  | suCopy | suFill | suTranspose => exact suStart_wf h
  | suGather => exact execSuGather_wf h
  | suStageFill => exact execSuStageFill_wf h
  | stageFillWriteStart => exact execStageFillWriteStart_wf h
  | stageFillComplete => exact execStageFillComplete_wf h
  | streamSegmentAck => exact execStreamSegmentAck_wf h
  | beamColl => exact execBeamColl_wf h
  | groupBroken => exact execGroupBroken_wf h
  | resolutionComplete => exact execResolutionComplete_wf h
  | heartbeatLoss => exact execHeartbeatLoss_wf h
  | npBind => exact execNpBind_wf h
  | npUnbind => exact execNpUnbind_wf h
  | npWrite => exact execNpWrite_wf h
  | npRead => exact execNpRead_wf h
  | fwdFill => exact execFwdFill_wf h
  | fwdPass => exact execFwdPass_wf h
  | fwdRoute => exact execFwdRoute_wf h
  | fwdExchange => exact execFwdExchange_wf h
  | fwdSoftTarget => exact execFwdSoftTarget_wf h
  | fwdTap => exact execFwdTap_wf h
  | fwdRepeat => exact execFwdRepeat_wf h
  | fwdEnd => exact execFwdEnd_wf h
  | servingBoundary => exact execServingBoundary_wf h
  | executorDone => exact execExecutorDone_wf h
  | rowSample => exact execRowSample_wf h
  | stepRecordWrite => exact execStepRecordWrite_wf h
  | portLightDetect => exact execPortLightDetect_wf h
  | trainingComplete => exact execTrainingComplete_wf h
  | trainingTimeout => exact .ite h (portErr_wf (portTo_wf (atLeast_wf _ h)))
  | laserInputLow => exact execLaserInputLow_wf h
  | lossOfLight => exact execLossOfLight_wf h
  | beamFlitReceive => exact execBeamFlitReceive_wf h
  | replayReq => exact .ite h (portReplay_wf h)
  | retransmitTimerExpiry => exact .ite h (portReplay_wf (bump_wf _ _ _ _ (atLeast_wf _ h)))
  | nullFlitTimer => exact .ite h (sendNull_wf (atLeast_wf _ h))
  | retrainComplete => exact .ite h (.ite (portGo_wf (resendAll_wf (portTo_wf (State.updPort_wf h)))) (portDown_wf h))
  | downRetryTimer => exact .ite h (portTo_wf (atLeast_wf _ h))
  | routeTableInstall => exact execRouteTableInstall_wf h
  | timebaseSync => exact execTimebaseSync_wf h
  | storePageReadComplete => exact execStorePageReadComplete_wf h
  | storeProgramComplete => exact execStoreProgramComplete_wf h
  | storeEraseComplete => exact execStoreEraseComplete_wf h
  | relocationStart => exact execRelocationStart_wf h
  | relocationSwitch => exact execRelocationSwitch_wf h
  | storeScrubTimer => exact .ite h (storeCnt_wf (readPage_wf (charge_wf h)))
  | storeDieTimeout => exact execStoreDieTimeout_wf h
  | meteredSlcWrite => exact execMeteredSlcWrite_wf h
  | storeScrubStageComplete => exact execStoreScrubStageComplete_wf h
  | hbmRefreshTimer => exact .ite (spent_wf (bump_wf _ _ _ _ h)) h
  | hbmScrubLine => exact execHbmScrubLine_wf h
  | governorStep => exact execGovernorStep_wf h
  | currentLimitSample => exact execCurrentLimitSample_wf h
  | windowLimitEval => exact execWindowLimitEval_wf h
  | thermalSample => exact execThermalSample_wf h
  | thermalTrip => exact execThermalTrip_wf h
  | tripRelease => exact execTripRelease_wf h
  | sensorAgentTimeout => exact execSensorAgentTimeout_wf h
  | vinDipBegin => exact .ite h (programHold_wf (bump_wf _ _ _ _ (updLoupe_wf h)))
  | vinDipEnd => exact execVinDipEnd_wf h
  | dipLong => exact execDipLong_wf h
  | powerLossFlush => exact execPowerLossFlush_wf h
  | forceThrottleAssert | forceThrottleRelease => exact updLoupe_wf h
  | vauxLost => exact execVauxLost_wf h
  | replan => exact execReplan_wf h
  | replanRetry => exact .ite h (planKick_wf (updLoupe_wf (atLeast_wf _ h)))
  | replanLate => exact execReplanLate_wf h
  | logCopy => exact .ite h (logCopy_wf h)
  | errorRecordInterval => exact execErrorRecordInterval_wf h
  | engineReset => exact execEngineReset_wf h
  | resetWritesSettled => exact execResetWritesSettled_wf h
  | pcieFlr => exact execPcieFlr_wf h
  | pcieHotReset => exact .ite h (linkReset_wf (warmBegin_wf h))
  | perstNAssert => exact execPerstNAssert_wf h
  | warmReset => exact .ite h (warmBegin_wf (atLeast_wf _ h))
  | coldReset => exact execColdReset_wf h
  | firmwareStartPublish => exact execFirmwareStartPublish_wf h
  | spineLinkDown => exact execSpineLinkDown_wf h
  | fatalError => exact .ite h (fatalError_wf h)
  | cxlMemRead => exact execCxlMemRead_wf h
  | cxlMemWrite => exact execCxlMemWrite_wf h
  | bisnpResponse => exact .ite h (.ite (hpCnt_wf h) h)
  | hostSnoop | perstNDeassert => exact h
  | hostReadCompletion => exact execHostReadCompletion_wf h
  | hostCompletionTimeout => exact ite_wf (hostImgFail_wf h) (hostFail_wf h)
  | hostLinkDown => exact .ite h (hostWritesEnd_wf (hostTasksEnd_wf (hpErr_wf _ _ _ h)))
  | ideIntegrityFailure => exact .ite h (hpErr_wf _ _ _ h)
  | msixUnmask => exact execMsixUnmask_wf h
  | spdmGetCertificate => exact execSpdmGetCertificate_wf h
  | spdmChallenge => exact execSpdmChallenge_wf h
  | spdmGetMeasurements => exact execSpdmGetMeasurements_wf h
  | spdmKeyExchange => exact .ite h (.ite (spdmSend_wf h) (spdmSend_wf h))
  | mctpControlMessage => exact .ite h (.ite (mctpControl_wf h) (.ite (mctpRequest_wf h) h))
  | roceRdmaWrite => exact npArrive_wf (fun _ _ _ h1 => npWritePacket_wf (fun _ _ _ h2 => h2) h1) h
  | roceWriteImmediate => exact execRoceWriteImmediate_wf h
  | roceRdmaRead => exact execRoceRdmaRead_wf h
  | roceSend => exact npArrive_wf (fun _ _ _ h1 => ite_wf (npCnt_wf h1) (npSend_wf (State.updNport_wf (State.setBind_wf h1)))) h
  | roceAck => exact execRoceAck_wf h
  | roceCnp => exact execRoceCnp_wf h
  | roceUnsupported => exact .ite h (npCnt_wf (npRecv_wf h))
  | qpRetryTimeout => exact execQpRetryTimeout_wf h
  | pfcPauseFrame => exact execPfcPauseFrame_wf h
  | npLinkDown => exact execNpLinkDown_wf h
  | hostLinkUp => exact execHostLinkUp_wf h
  | hbmStackFail => exact execHbmStackFail_wf h
  | roceReadResponse => exact execRoceReadResponse_wf h
  | npLinkUp => exact .ite h (State.updNport_wf h)
  | fcsDrop => exact .ite h (npCnt_wf h)

theorem step_wf {s : State} (h : s.wf = true) : OutcomeWf (step s) := by
  unfold step
  split
  · exact tick_wf h
  · exact exec_wf (State.with_wf h)

/-- Settles O5: a step is a composition of the operations whose lemmas stand above, and each of them keeps the form. -/
theorem stepKeepsCanonicalForm : Obligations.StepKeepsCanonicalForm := by
  intro s t h e
  have hstep := step_wf h
  rw [e] at hstep
  exact hstep

end Sys2Proof.Machine
end

section
/-! PROOFS for 00_scope.md: accesses to the registers of the Aperture. -/

namespace Sys2Proof.Machine
open Sys2Proof

/-- A size and offset that a register takes at 64 bits, it takes at 32 bits too. -/
theorem sizeOk_four {blk : Block} {off : Nat} (hb : inBuffer blk off = false) (h : sizeOk blk off 8 = true) : sizeOk blk off 4 = true := by
  simp only [sizeOk, hb, Bool.and_eq_true, beq_iff_eq] at h ⊢
  exact ⟨rfl, by omega⟩

theorem execRcFieldRead_eight {blk : Block} {off : Nat} {s : State} (hv : s.sys.valid = true) (hs : sizeOk blk off 8 = true)
    (hd : s.disabled blk = false) (hh : s.hidden blk off = false) (hb : inBuffer blk off = false) :
    execRcFieldRead blk off 8 s = .next { s with sys := { s.sys with
      rdata := Nat.lor (s.regRead blk off 8) (SMap.get 0 s.sys.rc (rcKey blk (off / 8 * 8)))
      rc := SMap.set 0 s.sys.rc (rcKey blk (off / 8 * 8)) 0 } } := by
  simp [execRcFieldRead, hv, hs, hd, hh, hb]

theorem execRcFieldRead_four {blk : Block} {off : Nat} {s : State} (hv : s.sys.valid = true) (hs : sizeOk blk off 4 = true)
    (hd : s.disabled blk = false) (hh : s.hidden blk off = false) (hb : inBuffer blk off = false) :
    execRcFieldRead blk off 4 s = .next { s with sys := { s.sys with
      rdata := Nat.lor (s.regRead blk off 4) (bits (SMap.get 0 s.sys.rc (rcKey blk (off / 8 * 8))) (8 * (off % 8)) 32) } } := by
  simp [execRcFieldRead, hv, hs, hd, hh, hb]

/-- A refused read: a size or an alignment that the register does not take, or a unit that is disabled. -/
theorem execApertureUnsupportedAccess_read {blk : Block} {off size : Nat} {s : State} (hv : s.sys.valid = true)
    (h : sizeOk blk off size = false ∨ s.disabled blk = true) :
    execApertureUnsupportedAccess false blk off size s = .next { s with sys := { s.sys with rdata := 2 ^ (8 * size) - 1 } } := by
  rcases h with h | h <;> simp [execApertureUnsupportedAccess, onesOf, hv, h]

theorem execRegisterWrite_refused {blk : Block} {off size v : Nat} {s : State} (h : sizeOk blk off size = false ∨ s.disabled blk = true) :
    execRegisterWrite blk off size v s = .next s := by
  rcases h with h | h <;> simp [execRegisterWrite, h]

/-- An accepted write to a ring's register group acts on the ring. -/
theorem execRegisterWrite_ring {j off v : Nat} {s : State} (hv : s.sys.valid = true) (hf : s.isFatal = false)
    (hs : sizeOk (.ring j) off 8 = true) : execRegisterWrite (.ring j) off 8 v s = .next (writeRing j off 8 v s) := by
  simp [execRegisterWrite, State.disabled, hv, hf, hs]

/-- An accepted write to a unit's block acts on the unit. -/
theorem execRegisterWrite_unit {ty inst off v : Nat} {s : State} (hv : s.sys.valid = true) (hf : s.isFatal = false)
    (hd : s.disabled (.unit ty inst) = false) (hs : sizeOk (.unit ty inst) off 8 = true) :
    execRegisterWrite (.unit ty inst) off 8 v s = .next (writeUnit ty inst off 8 v s) := by
  simp [execRegisterWrite, hv, hf, hd, hs]

/-- Only the low 32 bits of TAIL and HEAD exist. -/
theorem execRingTailWrite_mod (j v : Nat) (s : State) : execRingTailWrite j (v % 2 ^ 64) s = execRingTailWrite j v s := by
  have e : v % 2 ^ 64 % 2 ^ 32 = v % 2 ^ 32 := Nat.mod_mod_of_dvd v (by decide)
  simp only [execRingTailWrite, e]

theorem execRingHeadWrite_mod (j v : Nat) (s : State) : execRingHeadWrite j (v % 2 ^ 64) s = execRingHeadWrite j v s := by
  have e : v % 2 ^ 64 % 2 ^ 32 = v % 2 ^ 32 := Nat.mod_mod_of_dvd v (by decide)
  simp only [execRingHeadWrite, e]

/-- What a row leaves, where it leaves a next state, is that state. -/
theorem next_nextOf {o : Host.Outcome State Fault Refusal} {s : State} (h : ∃ t, o = .next t) : .next (nextOf o s) = o := by
  obtain ⟨t, rfl⟩ := h
  rfl

theorem execRingTailWrite_next (j v : Nat) (s : State) : ∃ t, execRingTailWrite j v s = .next t := by
  unfold execRingTailWrite
  extract_lets r w
  split
  · exact ⟨_, rfl⟩
  · split
    · split
      · exact ⟨_, rfl⟩
      · exact ⟨_, rfl⟩
    · exact ⟨_, rfl⟩

theorem execRingHeadWrite_next (j v : Nat) (s : State) : ∃ t, execRingHeadWrite j v s = .next t := by
  unfold execRingHeadWrite
  extract_lets r w
  split
  · exact ⟨_, rfl⟩
  · split
    · exact ⟨_, rfl⟩
    · exact ⟨_, rfl⟩

theorem execRingCtrlRestart_next (j : Nat) (s : State) : ∃ t, execRingCtrlRestart j s = .next t := by
  unfold execRingCtrlRestart
  extract_lets r
  split
  · exact ⟨_, rfl⟩
  · exact ⟨_, rfl⟩

theorem execRingCtrlArm_next (j : Nat) (s : State) : ∃ t, execRingCtrlArm j s = .next t := by
  unfold execRingCtrlArm
  extract_lets r
  split
  · exact ⟨_, rfl⟩
  · exact ⟨_, rfl⟩

/-! A 64-bit write to each register of a ring's group. -/

theorem writeRing_tail (j v : Nat) (s : State) : writeRing j 0x00 8 v s = nextOf (execRingTailWrite j v s) s := by
  rw [← execRingTailWrite_mod]
  rfl

theorem writeRing_head (j v : Nat) (s : State) : writeRing j 0x08 8 v s = nextOf (execRingHeadWrite j v s) s := by
  rw [← execRingHeadWrite_mod]
  rfl

theorem writeRing_badWrite (j : Nat) (s : State) : writeRing j 0x10 8 8 s = s.setRing j { s.ring j with badWrite := false } := rfl

theorem writeRing_restart (j : Nat) (s : State) : writeRing j 0x18 8 1 s = nextOf (execRingCtrlRestart j s) s := rfl

theorem writeRing_arm (j : Nat) (s : State) : writeRing j 0x18 8 2 s = nextOf (execRingCtrlArm j s) s := rfl

/-- Of a unit with the plain layout, bits of the error register go and the record of the first error stays while a bit remains. -/
theorem clearErr_of_ne_zero {ty inst v : Nat} {s : State} (hm : ty ≠ Config.tMirror) (hst : ty ≠ Config.tStore) (hh : ty ≠ Config.tHbm)
    (he : rw1c (s.unit ty inst).err v ≠ 0) : clearErr ty inst v s = s.updUnit ty inst fun u => { u with err := rw1c u.err v } := by
  simp [clearErr, State.updUnit, hm, hst, hh, he]

theorem writeUnit_err {ty inst v : Nat} {s : State} (hv : v < 2 ^ 64) (ha : errAt ty % 8 = 0) :
    writeUnit ty inst (errAt ty) 8 v s = clearErr ty inst v s := by
  have hr : errAt ty / 8 * 8 = errAt ty := Nat.div_mul_cancel (Nat.dvd_of_mod_eq_zero ha)
  simp only [writeUnit, placed, hr, if_true, Nat.mod_eq_of_lt hv]

/-- Settles O9: each clause is the equation of one row, and a ring's register write is the row of that register. -/
theorem registerAccesses : Obligations.RegisterAccesses := by
  refine ⟨fun blk off size s hv h => ⟨execApertureUnsupportedAccess_read hv h, fun v => ⟨execRegisterWrite_refused h, rfl⟩⟩,
    fun blk off s hv hs hd hh hb => ⟨execRcFieldRead_eight hv hs hd hh hb, execRcFieldRead_four hv (sizeOk_four hb hs) hd hh hb⟩,
    fun j v s hv hf => ?_, fun ty inst v s hv hf hd hlt hm he hst hh ha => ?_, fun m s hr hb => ?_⟩
  · have hw := fun off v => execRegisterWrite_ring (j := j) (off := off) (v := v) hv hf
    refine ⟨(hw _ _ rfl).trans ?_, (hw _ _ rfl).trans ?_, (hw _ _ rfl).trans ?_, (hw _ _ rfl).trans ?_, (hw _ _ rfl).trans ?_⟩
    · rw [writeRing_tail]
      exact next_nextOf (execRingTailWrite_next j v s)
    · rw [writeRing_head]
      exact next_nextOf (execRingHeadWrite_next j v s)
    · rw [writeRing_badWrite]
    · rw [writeRing_restart]
      exact next_nextOf (execRingCtrlRestart_next j s)
    · rw [writeRing_arm]
      exact next_nextOf (execRingCtrlArm_next j s)
  · have hs : sizeOk (.unit ty inst) (errAt ty) 8 = true := by simp [sizeOk, inBuffer, ha]
    refine (execRegisterWrite_unit hv hf hd hs).trans ?_
    rw [writeUnit_err hlt ha, clearErr_of_ne_zero hm hst hh he]
  · change execMailboxOverrun m s = _
    simp [execMailboxOverrun, hr, hb]

end Sys2Proof.Machine
end

section
/-! PROOFS for 01_architecture.md: the snapshot registers of a block. -/

namespace Sys2Proof.Machine
open Sys2Proof

/-- A TAKE that the block accepts, with no capture in progress, starts one (R40). -/
theorem execSnapTake_of_idle {ty inst : Nat} {s : State} (ha : s.answers ty = true) (hf : s.isFatal = false)
    (he : s.enabled ty inst = true) (hb : (s.unit ty inst).snap.busy = false) :
    execSnapTake ty inst s = .next (s.updUnit ty inst snapStart) := by
  simp [execSnapTake, State.updUnit_eq, ha, hf, he, hb]

/-- A TAKE that the block accepts during a capture sets PEND (R40); the capture in progress keeps what it has latched. -/
theorem execSnapTake_of_busy {ty inst : Nat} {s : State} (ha : s.answers ty = true) (hf : s.isFatal = false)
    (he : s.enabled ty inst = true) (hb : (s.unit ty inst).snap.busy = true) :
    execSnapTake ty inst s = .next (s.updUnit ty inst fun u => { u with snap := { u.snap with pend := true } }) := by
  simp [execSnapTake, State.updUnit_eq, ha, hf, he, hb]

/-- The end of a capture publishes what it latched and counts SEQ (R39). -/
def snapPublish (u : UnitRegs) : UnitRegs :=
  { u with snap := { u.snap with
      busy := false, pend := false, seq := (u.snap.seq + 1) % 256, latched := [], shadow := u.snap.latched } }

theorem execSnapCaptureComplete_of_not_pend {ty inst : Nat} {s : State} (hf : s.isFatal = false)
    (hb : (s.unit ty inst).snap.busy = true) (hp : (s.unit ty inst).snap.pend = false) :
    execSnapCaptureComplete ty inst s = .next (s.updUnit ty inst snapPublish) := by
  simp [execSnapCaptureComplete, snapPublish, State.updUnit_eq, hf, hb, hp]

/-- With a capture queued, the next one starts on the counters as they stand at the end of the current one (R40). -/
theorem execSnapCaptureComplete_of_pend {ty inst : Nat} {s : State} (hf : s.isFatal = false)
    (hb : (s.unit ty inst).snap.busy = true) (hp : (s.unit ty inst).snap.pend = true) :
    execSnapCaptureComplete ty inst s = .next (s.updUnit ty inst fun u => snapStart (snapPublish u)) := by
  simp [execSnapCaptureComplete, snapPublish, State.updUnit_eq, hf, hb, hp]

/-- Settles O10: each row by BUSY (a TAKE) or by PEND (the end of a capture). -/
theorem snapshotCapture : Obligations.SnapshotCapture := by
  unfold Obligations.SnapshotCapture
  intro ty inst s
  exact ⟨execSnapTake_of_idle, execSnapTake_of_busy, execSnapCaptureComplete_of_not_pend, execSnapCaptureComplete_of_pend⟩

end Sys2Proof.Machine
end

section
/-! PROOFS for 02_identity_and_facet_table.md: the part at reset. -/

namespace Sys2Proof.Machine
open Sys2Proof

@[simp] theorem Mem.get_nil (a : Nat) : Mem.get [] a = 0 := rfl

/-! What `State.reset` holds in each of its maps. -/

@[simp] theorem State.reset_mb (m : Nat) : State.reset.mb m = Mailbox.init := rfl

@[simp] theorem State.reset_ring (j : Nat) : State.reset.ring j = Ring.init := rfl

@[simp] theorem State.reset_txn (c : Nat) : State.reset.txn c = none := rfl

theorem State.reset_wf : State.reset.wf = true := rfl

/-- No byte of HBM, SRAM or the weight store is listed, so each reads zero. -/
theorem State.reset_mem_get (a : Nat) :
    Mem.get State.reset.mem.hbm a = 0 ∧ Mem.get State.reset.mem.sram a = 0 ∧ Mem.get State.reset.mem.store a = 0 :=
  ⟨Mem.get_nil a, Mem.get_nil a, Mem.get_nil a⟩

/-! The registers of a mailbox (R69) whose state is that of reset, in any state of the part. -/

section Mailbox
variable {s : State} {m : Nat} (h : s.mb m = Mailbox.init)
include h

theorem State.mbReg_status_of_init : s.mbReg m 0x08 = 0 := by simp [State.mbReg, h, Mailbox.init, regOf]

theorem State.mbReg_event_of_init : s.mbReg m 0x10 = 0 := by simp [State.mbReg, h, Mailbox.init, regOf, b2n]

theorem State.mbReg_irq_of_init : s.mbReg m 0x18 = 0 := by simp [State.mbReg, h, Mailbox.init, regOf, b2n]

theorem State.mbReg_seq_of_init : s.mbReg m 0x28 = 1 := by simp [State.mbReg, h, Mailbox.init]

/-- MB_OWNER of a mailbox that no context has been given: neither ADMIN nor ASSIGNED. -/
theorem State.mbReg_owner_of_init (hm : 2 ≤ m) : s.mbReg m 0x20 = 0 := by
  have hadm : ¬ m < 2 := by omega
  simp [State.mbReg, h, Mailbox.init, regOf, b2n, hadm]

end Mailbox

/-- MB_OWNER of the mailboxes 0 and 1 is fixed: context 0, with ADMIN (bit 8) and ASSIGNED (bit 9). -/
theorem State.mbReg_owner_admin {m : Nat} (s : State) (hm : m < 2) : s.mbReg m 0x20 = 768 := by
  simp [State.mbReg, regOf, b2n, hm]

/-- The group of a FREE ring reads zero at every offset (R352). -/
theorem State.ringReg_of_init {s : State} {j : Nat} (h : s.ring j = Ring.init) (off : Nat) : s.ringReg j off = 0 := by
  unfold State.ringReg
  split <;> simp [h, Ring.init, Ring.heldCount, regOf, b2n]

/-- With no transaction open, CFG_TXN of every context reads zero (R96). -/
theorem State.cfgReg_txn_of_none {s : State} {off : Nat} (ho : off < 0x200) (h : s.txn (off / 8) = none) : s.cfgReg off = 0 := by
  simp [State.cfgReg, ho, h]

/-- No transaction is open, and CFG_LAST and CFG_COUNT tell of no commit (R96). -/
theorem State.reset_cfgReg (off : Nat) : State.reset.cfgReg off = 0 := by
  by_cases ho : off < 0x200
  · exact State.cfgReg_txn_of_none ho (State.reset_txn _)
  · simp [State.cfgReg, ho, State.reset, regOf]

/-- Settles O3: at reset every map is empty, so each entry reads as its initial value, and each register group of an initial value is
read once above. -/
theorem resetState : Obligations.ResetState := by
  unfold Obligations.ResetState
  have hmb := State.reset_mb
  refine ⟨rfl, rfl, State.reset_wf, State.reset_mem_get, fun m => ?mailbox, fun m => ?unassigned, fun m => ?admin, fun j => ?ring,
    State.reset_cfgReg⟩
  case mailbox =>
    exact ⟨State.mbReg_status_of_init (hmb m), State.mbReg_event_of_init (hmb m), State.mbReg_irq_of_init (hmb m),
      State.mbReg_seq_of_init (hmb m)⟩
  case unassigned => exact State.mbReg_owner_of_init (hmb m)
  case admin => exact State.mbReg_owner_admin State.reset
  case ring => exact State.ringReg_of_init (State.reset_ring j)

end Sys2Proof.Machine
end

section
/-! PROOFS for 04_number_formats.md: the four passes of a Teacher Engine. -/

namespace Sys2Proof.Machine
open Sys2Proof

/-! What the operations of a pass leave of the cores, the rings and the memories. -/

theorem State.core_congr {s t : State} (h : t.cores = s.cores) (k : Nat) : t.core k = s.core k := by
  unfold State.core
  rw [h]

theorem State.ring_congr {s t : State} (h : t.rings = s.rings) (j : Nat) : t.ring j = s.ring j := by
  unfold State.ring
  rw [h]

/-- Read after write of a core. -/
theorem State.core_updCore_self {s : State} (k : Nat) (f : Core → Core) (h : s.wf = true) : (s.updCore k f).core k = f (s.core k) := by
  obtain ⟨-, -, -, -, hcores, -, -⟩ := (State.wf_iff s).mp h
  exact SMap.get_set_self s.cores k 0 hcores

@[simp] theorem State.fresh_cores (s : State) : s.fresh.2.cores = s.cores := rfl
@[simp] theorem State.fresh_mem (s : State) : s.fresh.2.mem = s.mem := rfl

@[simp] theorem begin_cores (j ix : Nat) (d : Bytes) (s : State) : (begin j ix d s).cores = s.cores := rfl
@[simp] theorem begin_mem (j ix : Nat) (d : Bytes) (s : State) : (begin j ix d s).mem = s.mem := rfl

@[simp] theorem served_cores (j : Nat) (s : State) : (served j s).cores = s.cores := rfl
@[simp] theorem served_mem (j : Nat) (s : State) : (served j s).mem = s.mem := rfl

@[simp] theorem finish_cores (j status lb : Nat) (detail : Bytes) (s : State) : (finish j status lb detail s).cores = s.cores := by
  unfold finish
  extract_lets r
  split <;> rfl

@[simp] theorem finish_mem (j status lb : Nat) (detail : Bytes) (s : State) : (finish j status lb detail s).mem = s.mem := by
  unfold finish
  extract_lets r
  split <;> rfl

/-- Counting changes no core and no memory. -/
theorem foldl_bump_cores_mem (ty inst : Nat) (cs : List (Nat × Nat)) (s : State) :
    (cs.foldl (fun a c => bump ty inst c.1 c.2 a) s).cores = s.cores ∧ (cs.foldl (fun a c => bump ty inst c.1 c.2 a) s).mem = s.mem :=
  List.foldlRecOn (motive := fun t : State => t.cores = s.cores ∧ t.mem = s.mem) cs _ ⟨rfl, rfl⟩ fun _ h _ _ => h

/-- Words that land in core SRAM leave the rings alone. -/
@[simp] theorem mayLand_rings (core : Nat) (ws : List (Nat × Bytes)) (s : State) : (mayLand core ws s).rings = s.rings := by
  induction ws generalizing s with
  | nil => rfl
  | cons w ws ih =>
    rw [mayLand, ih]
    split <;> rfl

@[simp] theorem fillMix_rings (core : Nat) (s : State) : (fillMix core s).rings = s.rings := by
  refine List.foldlRecOn (motive := fun t : State => t.rings = s.rings) s.rings _ rfl fun t ht r _ => ?_
  split
  · split
    · split
      · exact ht
      · exact (mayLand_rings ..).trans ht
    · exact ht
  · exact ht

@[simp] theorem fillMix_ring (core : Nat) (s : State) (j : Nat) : (fillMix core s).ring j = s.ring j :=
  State.ring_congr (fillMix_rings core s) j

/-! ### Taking up a pass (R133, R145–R147, R152, R154) -/

/-- The descriptor `d` at the head of ring `j`, slot `ix`, is a pass of opcode `op` that its teacher core may take up: the ring has its turn, the
staging half is filled, and no pass waits for its drain. -/
structure MayTakePass (j op ix : Nat) (d : Bytes) (s : State) : Prop where
  head : s.headOf j op = some (ix, d)
  teacher : (s.ring j).unitType = Config.tTeacher
  turn : s.mayRun j 1 (s.setting Config.tTeacher (s.ring j).unitInst 2 0 == 1) (s.stageReady (s.ring j).unitInst) = true
  filled : s.stageReady (s.ring j).unitInst d = true
  drained : (s.core (s.ring j).unitInst).drain = none
  notClearing : (s.core (s.ring j).unitInst).clearing = false

/-- What becomes of a pass that the core may take up. `k` is the core, `u` the state once some words of a fill in progress have landed, `pl` the
plan of the pass in it; the branches come in the order of the checks. -/
theorem tePass_of_mayTake {j op ix k : Nat} {d : Bytes} {plan : Nat → Bytes → List (List (List Nat)) → State → Plan} {s u : State} {pl : Plan}
    (h : MayTakePass j op ix d s) (hk : (s.ring j).unitInst = k) (hu : fillMix k s = u) (hpl : plan k d (u.heldAcc k) u = pl) :
    tePass j op plan s =
      if s.paneFmtBad Config.tTeacher k d then refuse j ix d 0x108 s
      else (teCheck k (u.ring j).ctx (u.ring j).inTask d u pl).elim
        (if chainBreaks (u.core k).chain j d (if op = 0x12 then 0 else tStart d) (op != 0x12 && tHold d) (teChain op) then
          coreAbort j ix d 0x113 4 3 none 0 u
        else (u.firstMarked k (pl.staged ++ pl.reads)).elim (runPass j ix k d pl (op != 0x12 && tHold d) u) fun m => markedAbort j ix k d m u)
        fun c => failCheck j ix d c.1 (reasonDetail Config.tTeacher d c.2) false
          (if c.1 = 0x111 then setErr Config.tTeacher k 4 j ix c.2 u else u) := by
  obtain ⟨hhead, hty, hturn, hfill, hdrain, hclear⟩ := h
  subst hk hu hpl
  simp only [tePass, hhead, hty, hturn, hfill, hdrain, hclear, fillMix_ring]
  rw [if_neg (by simp)]
  refine ite_congr rfl (fun _ => rfl) fun _ => ?_
  split
  next c hc => rw [hc, Option.elim_some]
  next hc =>
    rw [hc, Option.elim_none]
    refine ite_congr rfl (fun _ => rfl) fun _ => ?_
    split
    next m hm => rw [hm, Option.elim_some]
    next hm => rw [hm, Option.elim_none]

/-! ### Accumulation and the course of a pass (R113, R133) -/

/-- Zero activations, of either sign, leave the partial sum of their group. -/
theorem lutGroup_of_zero (as vs : List Nat) (g : Nat) (h : ∀ a ∈ as, a % 2 ^ 31 = 0) : lutGroup g as vs = g := by
  induction as generalizing vs with
  | nil => rfl
  | cons a as ih =>
    obtain ⟨ha, has⟩ := List.forall_mem_cons.mp h
    cases vs with
    | nil => rfl
    | cons v vs => rw [lutGroup, if_pos ha, ih vs has]

/-- What a plan leaves for the drain of ring `j`. -/
def Plan.toDrain (pl : Plan) (j cycles : Nat) : Drain :=
  { ring := j, writes := pl.parts.flatMap fun p => p.1.drainRows p.2, nonfin := (pl.parts.map fun p => Pass.nonfinite p.2).sum, cycles
    gated := pl.gated, counts := pl.counts }

section Course
variable {j ix k : Nat} {d : Bytes} {pl : Plan} {s : State}

/-- No memory changes until the drain. -/
theorem runPass_mem (hold : Bool) : (runPass j ix k d pl hold s).mem = s.mem := by
  unfold runPass
  cases pl.cycles <;> cases hold <;> simp [foldl_bump_cores_mem]

/-- HOLD keeps the bank of accumulators in the core as a chain of this ring. -/
theorem runPass_hold_core {p : Pass} {acc : List (List (List Nat))} (hp : pl.parts = [(p, acc)]) (h : s.wf = true) :
    (runPass j ix k d pl true s).core k = { s.core k with chain := some { ring := j, desc := d, acc } } := by
  have hcores : (runPass j ix k d pl true s).cores = (s.updCore k fun x => { x with chain := some { ring := j, desc := d, acc } }).cores := by
    unfold runPass
    cases pl.cycles <;> simp [hp, foldl_bump_cores_mem, State.updCore_eq, State.core]
  rw [State.core_congr hcores, State.core_updCore_self k _ h]

/-- Without HOLD the rows wait in the core for the drain, and no chain is left. -/
theorem runPass_drain_core (h : s.wf = true) :
    ∃ cycles, (runPass j ix k d pl false s).core k = { s.core k with chain := none, drain := some (pl.toDrain j cycles) } := by
  refine ⟨pl.cycles.getD s.fresh.1, ?_⟩
  have hcores : (runPass j ix k d pl false s).cores
      = (s.updCore k fun x => { x with chain := none, drain := some (pl.toDrain j (pl.cycles.getD s.fresh.1)) }).cores := by
    unfold runPass
    cases pl.cycles <;> rfl
  rw [State.core_congr hcores, State.core_updCore_self k _ h]

end Course

/-- Settles O46: each clause of a pass is one branch of `tePass`, the same for the four opcodes; what a pass leaves in its core is read back. -/
theorem teacherPasses : Obligations.TeacherPasses := by
  unfold Obligations.TeacherPasses
  refine ⟨fun x hx j ix d s => ?_, lutGroup_of_zero, fun j ix k d p acc pl s hp hw => ⟨?_, ?_⟩⟩
  · intro k u pl start hold hhead hty hturn hfill hdrain hclear
    have hexec : exec (x.1 j) s = .next (tePass j x.2.1 x.2.2 s) := by
      simp only [List.mem_cons, List.not_mem_nil, or_false] at hx
      rcases hx with rfl | rfl | rfl | rfl <;> rfl
    rw [hexec, tePass_of_mayTake (k := k) (u := u) (pl := pl) ⟨hhead, hty, hturn, hfill, hdrain, hclear⟩ rfl rfl rfl]
    refine ⟨fun hf => ?_, fun hf => ⟨fun hc hb => ?_, fun st reason hc => ?_, fun hc hb => ?_⟩⟩
    · rw [if_pos hf]
    · rw [hf, hc, Option.elim_none, hb]
      cases u.firstMarked k (pl.staged ++ pl.reads) <;> rfl
    · rw [hf, hc]
      rfl
    · rw [hf, hc, Option.elim_none, hb]
      rfl
  · intro t
    have ht : t.core k = { s.core k with chain := some { ring := j, desc := d, acc } } := runPass_hold_core hp hw
    exact ⟨by rw [ht], by rw [ht], runPass_mem true⟩
  · intro t
    obtain ⟨cycles, ht⟩ : ∃ cycles, t.core k = _ := runPass_drain_core hw
    exact ⟨by rw [ht], by simp [ht, hp, Plan.toDrain], runPass_mem false⟩

end Sys2Proof.Machine
end

section
/-! PROOFS for 06_teacher_weight_path.md: the image commands of group 0x05 and the events of image work. -/

namespace Sys2Proof.Machine
open Sys2Proof

/-! ### Group 0x05 (R167–R173) -/

/-- An admitted request whose rule completes: the response goes out in the state that the rule leaves. -/
theorem submit_of_run_ok {k : CmdSpec} {q : Request} {c : Nat} {p : Bytes} {ind : Option Indirect} {s : State} {resp : Bytes} {u : State}
    (h : admitted k q c p ind s = true) (hrun : k.run (issOf k.opcode c q s) p (s.taken k.opcode q) = .ok resp u) :
    submit k q s = .next (okWith k q c ind resp u) := by
  rw [submit_admitted h, hrun]
  rfl

/-- An admitted request whose rule answers PENDING. -/
theorem submit_of_run_pend {k : CmdSpec} {q : Request} {c : Nat} {p : Bytes} {ind : Option Indirect} {s u : State}
    (h : admitted k q c p ind s = true) (hrun : k.run (issOf k.opcode c q s) p (s.taken k.opcode q) = .pend u) :
    submit k q s = .next (pendWith k q c p (s.taken k.opcode q) u) := by
  rw [submit_admitted h, hrun]
  rfl

theorem imgHandle_of_right {c h : Nat} {s : State} {g : Image} (hg : s.image h = some g) (hr : imgRight c g = true) :
    imgHandle c h s = .inr g := by
  simp [imgHandle, hg, hr]

section Run
variable {i : Iss} {p : Bytes} {s : State} {g : Image}

/-- The search for an extent counts chunks of 2^20 bytes, which the kernel must not unfold: the lets of the rule stay in place. -/
theorem specImgOpen_run {b : Nat} (hlen : 256 ≤ field p 0 8) (hdebug : field p 8 1 = 1 → s.sys.debug = 0) (hroom : s.images.length < 16)
    (hspare : (List.range 8).any (fun k => decide ((s.ctl k).spares false < 64)) = false)
    (hfree : s.freeExtent (cdiv (field p 0 8) Config.chunkBytes) = some b) :
    let g : Image := { Image.init with
      owner := i.ctx + 1, base := b, len := field p 0 8, sealed := field p 8 1 == 1, key := if field p 8 1 = 1 then s.keys + 1 else 0, scrub := 1 }
    specImgOpen.run i p s
      = .ok (leBytes 2 s.freeImage ++ zeros 6 ++ leBytes 8 (g.addr 0)) (({ s with keys := s.keys + 1 } : State).setImage s.freeImage g) := by
  intro g
  unfold specImgOpen
  dsimp -zeta only
  extract_lets +onlyGivenNames len fl
  have hdebug' : ¬ (decide (fl = 1) && decide (s.sys.debug ≠ 0)) = true := by simpa using hdebug
  have hfree' : s.freeExtent (cdiv len Config.chunkBytes) = some b := hfree
  rw [if_neg (Nat.not_lt.mpr hlen), if_neg hdebug', if_neg (Nat.not_le.mpr hroom), if_neg (by simp [hspare]), hfree']

/-- A write from device or host memory that ends with the image. -/
theorem specImgWrite_run (hg : s.image (field p 0 2) = some g) (hr : imgRight i.ctx g = true) (hkind : field p 2 1 ≤ 1)
    (haligned : field p 8 8 % Config.chunkBytes = 0) (hpos : 0 < field p 24 8) (hend : field p 8 8 + field p 24 8 = g.len)
    (hmax : field p 24 8 ≤ 64 * 2 ^ 30) (hreach : s.reach i.ctx (field p 2 1) (field p 16 8) (field p 24 8) = true) (hst : g.st = 0) :
    specImgWrite.run i p s = .pend (s.setImage (field p 0 2) { g with
      writes := g.writes ++ [{ ctx := i.ctx, op := i.handle, kind := field p 2 1, src := field p 16 8, pos := field p 8 8
                               stop := g.len, from_ := field p 8 8 }] }) := by
  have hmemory : field p 2 1 ≠ 2 := by omega
  have hoff : ¬ field p 8 8 ≥ g.len := by omega
  simp only [specImgWrite, imgHandle_of_right hg hr, hend]
  rw [if_neg (by omega), if_neg (by simp [hmemory]), if_neg (by simp [hmemory]), if_neg (by simp [haligned, hoff]),
    if_neg (by simp; omega), if_neg (by simp [hreach]), if_neg (by simp [hst])]

theorem specImgClose_run (hg : s.image (field p 0 2) = some g) (hr : imgRight i.ctx g = true) (hw : g.writes = []) (hst : g.st = 0) :
    specImgClose.run i p s = .pend (s.setImage (field p 0 2) { g with st := 1, op := some (i.ctx, i.handle) }) := by
  simp only [specImgClose, imgHandle_of_right hg hr]
  rw [if_neg (by simp [hw]), if_neg (by simp [hst])]

theorem specImgActivate_run_on (hg : s.image (field p 0 2) = some g) (hr : imgRight i.ctx g = true) (hon : field p 2 1 = 1)
    (hst : g.st = 2) (hscrub : g.scrub ≠ 0) (hseal : sealLive g s = none) :
    specImgActivate.run i p s = .ok [] (s.setImage (field p 0 2) { g with st := 3, owner := i.ctx + 1 }) := by
  simp only [specImgActivate, imgHandle_of_right hg hr, hseal]
  rw [if_neg (by omega), if_pos hon, if_neg (by simp [hst]), if_neg hscrub]

theorem specImgActivate_run_off (hg : s.image (field p 0 2) = some g) (hr : imgRight i.ctx g = true) (hoff : field p 2 1 = 0)
    (hst : g.st = 3) (hused : s.imageUsed (field p 0 2) = false) :
    specImgActivate.run i p s = .ok [] (s.setImage (field p 0 2) { g with st := 2 }) := by
  simp only [specImgActivate, imgHandle_of_right hg hr, hused]
  rw [if_neg (by omega), if_neg (by omega), if_neg (by simp [hst]), if_neg (by simp)]

theorem specImgDelete_run (hg : s.image (field p 0 2) = some g) (hr : imgRight i.ctx g = true) (hw : g.writes = [])
    (hused : s.imageUsed (field p 0 2) = false) (hst : g.st = 0 ∨ g.st = 2 ∨ g.st = 4 ∨ g.st = 5) :
    specImgDelete.run i p s = .pend (s.setImage (field p 0 2) { g with st := 6, key := 0, op := some (i.ctx, i.handle) }) := by
  simp only [specImgDelete, imgHandle_of_right hg hr, hused]
  rw [if_neg (by simp [hw]), if_neg (by simp), if_neg (by simp; omega)]

theorem specImgQuery_run (hg : s.image (field p 0 2) = some g) (hr : imgRight i.ctx g = true) :
    specImgQuery.run i p s = .ok (leBytes 1 g.st ++ leBytes 1 (if g.owner = 0 then 255 else g.owner - 1)
      ++ leBytes 1 (if g.done.contains 0 then s.imgFlags g else b2n g.sealed) ++ zeros 5 ++ leBytes 8 g.len
      ++ leBytes 8 g.doneBytes ++ leBytes 8 (s.imgPoisoned g) ++ s.imgDigest g ++ s.imgId g) s := by
  simp only [specImgQuery, imgHandle_of_right hg hr]

end Run

/-! ### The poisoned pages of an image

What is poisoned depends on the memories and the controllers alone. The pages are found by arithmetic on Store addresses, which the kernel
must not unfold, so this is no `rfl`. -/

theorem State.pageLost_congr {s t : State} (hctls : t.ctls = s.ctls) (a : Nat) : t.pageLost a = s.pageLost a := by
  unfold State.pageLost State.ctl
  rw [hctls]

theorem State.imgPoisoned_congr {s t : State} (hmem : t.mem = s.mem) (hctls : t.ctls = s.ctls) (g : Image) :
    t.imgPoisoned g = s.imgPoisoned g := by
  simp only [State.imgPoisoned, State.storeBadPages, hmem, hctls, State.pageLost_congr hctls]

theorem State.taken_imgPoisoned (s : State) (op : Nat) (q : Request) (g : Image) : (s.taken op q).imgPoisoned g = s.imgPoisoned g :=
  State.imgPoisoned_congr (t := s.taken op q) (s := s) rfl rfl g

/-! ### The map of images -/

/-- Read after write of an image that is not the absent one. -/
theorem State.image_setImage_self {s : State} {h : Nat} {g : Image} (hg : g ≠ Image.init) : (s.setImage h g).image h = some g := by
  have hset : ∀ m : List (Nat × Image), ((SMap.set Image.init m h g).find? fun x => x.1 == h).map (·.2) = some g := by
    intro m
    induction m with
    | nil => simp [SMap.set, hg]
    | cons c m ih =>
      obtain ⟨k, v⟩ := c
      simp only [SMap.set, if_neg hg]
      split
      · simp
      · split
        next hk => simp [hk]
        next hk => simpa [Ne.symm hk] using ih
  exact hset s.images

theorem NSet.ins_ne_nil (x : Nat) (l : List Nat) : NSet.ins x l ≠ [] := by
  cases l with
  | nil => simp [NSet.ins]
  | cons y l =>
    rw [NSet.ins]
    split
    · simp
    · split <;> simp

/-! ### The bytes of an image in the Store (R172) -/

theorem storeCrypt_length (key a : Nat) (bs : Bytes) : (storeCrypt key a bs).length = bs.length := by
  induction bs generalizing a with
  | nil => rfl
  | cons b bs ih => simp [storeCrypt, ih]

/-- Encrypting twice under one Store key gives the bytes back. -/
theorem storeCrypt_storeCrypt (key a : Nat) (bs : Bytes) : storeCrypt key a (storeCrypt key a bs) = bs := by
  induction bs generalizing a with
  | nil => rfl
  | cons b bs ih => rw [storeCrypt, storeCrypt, ih, BitVec.xor_assoc, BitVec.xor_self, BitVec.xor_zero]

theorem State.imgCrypt_length (s : State) (g : Image) (off : Nat) (bs : Bytes) : (s.imgCrypt g off bs).length = bs.length := by
  unfold State.imgCrypt
  split
  · simp [storeCrypt_length]
    omega
  · rfl

/-- What is stored of a run decrypts to the run, in any state with the same BODY_OFFSET. -/
theorem State.imgCrypt_imgCrypt {s t : State} {g : Image} {off : Nat} {bs : Bytes}
    (hbody : g.sealed = true → t.imgRaw g 48 8 = s.imgRaw g 48 8) : t.imgCrypt g off (s.imgCrypt g off bs) = bs := by
  unfold State.imgCrypt
  split
  next hs =>
    rw [hbody hs]
    dsimp only
    generalize leNat (s.imgRaw g 48 8) - off = k
    by_cases hk : k ≤ bs.length
    · have hlen : (bs.take k).length = k := List.length_take_of_le hk
      rw [List.take_left' hlen, List.drop_left' hlen, storeCrypt_storeCrypt, List.take_append_drop]
    · have hcut : bs.length ≤ k := by omega
      simp [List.take_of_length_le hcut, List.drop_of_length_le hcut, storeCrypt]
  · rfl

/-- A run that does not meet what is written reads as before. -/
theorem Mem.read_write_other {m : Mem} {a b n : Nat} {bs : Bytes} (h : b + n ≤ a ∨ a + bs.length ≤ b) :
    Mem.read (Mem.write m a bs) b n = Mem.read m b n := by
  induction n generalizing b with
  | zero => rfl
  | succ n ih => rw [Mem.read, Mem.read, ih (by omega), Mem.get_write_other m bs (by omega)]

/-! ### Programming a chunk (R165, R171, R172) -/

/-- Another write has chunk `i` of an image: it is programmed, or an earlier one of the writes in progress stands at it. -/
def Image.chunkTaken (g : Image) (w i : Nat) : Bool :=
  g.done.contains i || (g.writes.take w).any fun y => y.pos / Config.chunkBytes == i

/-- The state once `n` bytes `bs` of the `w`-th write `x` of image `h` are programmed, the record of its end apart. -/
def chunkStored (h w n : Nat) (g : Image) (x : ImgWrite) (bs : Bytes) (s : State) : State :=
  let u : State := { s with mem := { s.mem with store := Mem.write s.mem.store (g.addr x.pos) (s.imgCrypt g x.pos (bs.take n)) } }
  let v := if x.kind = 0 then hbmTaken (x.src + (x.pos - x.from_)) n u else u
  v.setImage h { g with done := NSet.ins (x.pos / Config.chunkBytes) g.done, writes := g.writes.set w { x with pos := x.pos + n } }

section Chunk
variable {h w n : Nat} {g : Image} {x : ImgWrite} {s : State}

@[simp] theorem hbmTaken_mem (a n : Nat) (s : State) : (hbmTaken a n s).mem = s.mem := by
  unfold hbmTaken
  split <;> rfl

theorem chunkStored_mem (bs : Bytes) : (chunkStored h w n g x bs s).mem
    = { s.mem with store := Mem.write s.mem.store (g.addr x.pos) (s.imgCrypt g x.pos (bs.take n)) } := by
  simp only [chunkStored, State.setImage_mem]
  split <;> simp

theorem chunkStored_image (bs : Bytes) : (chunkStored h w n g x bs s).image h
    = some { g with done := NSet.ins (x.pos / Config.chunkBytes) g.done, writes := g.writes.set w { x with pos := x.pos + n } } :=
  State.image_setImage_self fun e => NSet.ins_ne_nil _ _ (congrArg Image.done e)

/-- The run is in the Store as `imgCrypt` has it. -/
theorem chunkStored_read {bs : Bytes} (hlen : bs.length = n) (hwf : s.wf = true) :
    Mem.read (chunkStored h w n g x bs s).mem.store (g.addr x.pos) n = s.imgCrypt g x.pos bs := by
  obtain ⟨⟨-, -, -, hstore⟩, -⟩ := (State.wf_iff s).mp hwf
  have hread := Mem.read_write (g.addr x.pos) (s.imgCrypt g x.pos bs) hstore
  rw [State.imgCrypt_length, hlen] at hread
  rw [chunkStored_mem, List.take_of_length_le (Nat.le_of_eq hlen), hread]

/-- The fill path reads the plaintext: BODY_OFFSET, which the cipher depends on, lies in the first chunk. -/
theorem chunkStored_imgRead {bs : Bytes} (hlen : bs.length = n) (hwf : s.wf = true) (hbody : g.sealed = false ∨ Config.chunkBytes ≤ x.pos) :
    (chunkStored h w n g x bs s).imgRead g x.pos n = bs := by
  have hraw : (chunkStored h w n g x bs s).imgRaw g x.pos n = s.imgCrypt g x.pos bs := chunkStored_read hlen hwf
  rw [State.imgRead, hraw]
  refine State.imgCrypt_imgCrypt fun hsealed => ?_
  have hpos : Config.chunkBytes ≤ x.pos := hbody.resolve_left (by simp [hsealed])
  rw [State.imgRaw, chunkStored_mem]
  refine Mem.read_write_other (Or.inl ?_)
  simp only [Image.addr, Config.chunkBytes] at *
  omega

theorem chunkStored_store_other {bs : Bytes} {a : Nat} (hlen : bs.length = n) (ha : a < g.addr x.pos ∨ g.addr x.pos + n ≤ a) :
    Mem.get (chunkStored h w n g x bs s).mem.store a = Mem.get s.mem.store a := by
  rw [chunkStored_mem]
  exact Mem.get_write_other _ _ (by simpa [State.imgCrypt_length, hlen] using ha)

variable (hfatal : s.isFatal = false) (hg : s.image h = some g) (hx : g.writes[w]? = some x)
include hfatal hg hx

theorem execImgChunkProgrammed_of_taken (htaken : g.chunkTaken w (x.pos / Config.chunkBytes) = true) :
    execImgChunkProgrammed h w s = .next (writeEnd h x 0x2500 (x.pos / Config.chunkBytes) s) := by
  unfold Image.chunkTaken at htaken
  simp only [execImgChunkProgrammed, hg, hx, hfatal, htaken]
  rfl

variable (hn : min Config.chunkBytes (x.stop - x.pos) = n) (hfree : g.chunkTaken w (x.pos / Config.chunkBytes) = false)
include hn hfree

theorem execImgChunkProgrammed_of_sourceBad (hbad : sourceBad x n s = true) :
    execImgChunkProgrammed h w s = .next (imgFault x (writeEnd h x 0x113 (x.pos - x.from_) s)) := by
  unfold Image.chunkTaken at hfree
  simp only [execImgChunkProgrammed, hg, hx, hfatal, hfree, hn, hbad]
  rfl

variable (hgood : sourceBad x n s = false) {src : Bytes} (hsrc : chunkSource x n s = some src)
include hgood hsrc

theorem execImgChunkProgrammed_of_not_opened {e : Nat × Nat} (hopen : openChunk g (x.pos / Config.chunkBytes) src s = .inr e) :
    execImgChunkProgrammed h w s = .next (writeEnd h x e.1 e.2 s) := by
  unfold Image.chunkTaken at hfree
  simp only [execImgChunkProgrammed, hg, hx, hfatal, hfree, hn, hgood, hsrc, hopen]
  rfl

/-- A chunk from device or host memory that opens is programmed, and the last of a write ends it. -/
theorem execImgChunkProgrammed_of_opened {bs : Bytes} (hkind : x.kind < 2)
    (hopen : openChunk g (x.pos / Config.chunkBytes) src s = .inl bs) :
    execImgChunkProgrammed h w s = .next (if x.pos + n = x.stop
      then writeEnd h { x with pos := x.pos + n } 0 0 (chunkStored h w n g x bs s) else chunkStored h w n g x bs s) := by
  unfold Image.chunkTaken at hfree
  simp only [execImgChunkProgrammed, hg, hx, hfatal, hfree, hn, hgood, hsrc, hopen, Nat.ne_of_lt hkind, Bool.false_eq_true, if_false]
  split <;> rfl

end Chunk

/-! ### Verification and deletion (R167, R173) -/

/-- No part of the image is poisoned, so the check that fails has no error record. -/
theorem execImgVerifyComplete_of_clean {h : Nat} {g : Image} {s : State} (hfatal : s.isFatal = false) (hrun : s.running = true)
    (hg : s.image h = some g) (hst : g.st = 1) (hclean : s.imgBad g 0 g.len = false) :
    execImgVerifyComplete h s = .next (match closeCheck g s with
      | none => finishOp (g.op.getD (0, 0)).1 (g.op.getD (0, 0)).2 0 0 (leBytes 8 g.len) (s.setImage h { g with st := 2, op := none })
      | some (st, d) => finishOp (g.op.getD (0, 0)).1 (g.op.getD (0, 0)).2 st d [] (s.setImage h { g with st := 5, op := none })) := by
  simp only [execImgVerifyComplete, hg, hst, hfatal, hrun, hclean]
  cases closeCheck g s <;> rfl

theorem execImgDeleteComplete_of_deleting {h : Nat} {g : Image} {s : State} (hfatal : s.isFatal = false) (hg : s.image h = some g)
    (hst : g.st = 6) :
    execImgDeleteComplete h s = .next (finishOp (g.op.getD (0, 0)).1 (g.op.getD (0, 0)).2 0 0 [] { s with
      images := s.images.filter (fun x => x.1 != h)
      mem := { s.mem with
        store := Mem.clear s.mem.store (g.addr 0) (g.chunks * Config.chunkBytes)
        storePoison := s.mem.storePoison.filter fun w => !decide (g.addr 0 ≤ w * Config.codewordBytes
          ∧ w * Config.codewordBytes < g.addr 0 + g.chunks * Config.chunkBytes) } }) := by
  simp only [execImgDeleteComplete, hg, hst, hfatal]
  rfl

/-- Settles O21: each command by what its own rule leaves, each event by the branch that its hypotheses take. -/
theorem imageCommands : Obligations.ImageCommands := by
  unfold Obligations.ImageCommands
  refine ⟨fun q c p ind s => ⟨?opened, ?write, ?close, ?activate, ?deactivate, ?delete, ?query⟩, ?chunk, ?verify, ?deleted⟩
  case opened =>
    intro b h _ hlen hdebug hroom hspare hfree
    exact submit_of_run_ok h (specImgOpen_run (s := s.taken specImgOpen.opcode q) hlen hdebug hroom hspare hfree)
  case write =>
    intro g h hg hr hkind haligned hpos hend hmax hreach hst
    exact submit_of_run_pend h (specImgWrite_run (s := s.taken specImgWrite.opcode q) hg hr hkind haligned hpos hend hmax hreach hst)
  case close =>
    intro g h hg hr hw hst
    exact submit_of_run_pend h (specImgClose_run (s := s.taken specImgClose.opcode q) hg hr hw hst)
  case activate =>
    intro g h hg hr hon hst hscrub hseal
    exact submit_of_run_ok h (specImgActivate_run_on (s := s.taken specImgActivate.opcode q) hg hr hon hst hscrub hseal)
  case deactivate =>
    intro g h hg hr hoff hst hused
    exact submit_of_run_ok h (specImgActivate_run_off (s := s.taken specImgActivate.opcode q) hg hr hoff hst hused)
  case delete =>
    intro g h hg hr hw hused hst
    exact submit_of_run_pend h (specImgDelete_run (s := s.taken specImgDelete.opcode q) hg hr hw hused hst)
  case query =>
    intro g h hg hr
    rw [← State.taken_imgPoisoned s 0x0505 q g]
    exact submit_of_run_ok h (specImgQuery_run (s := s.taken specImgQuery.opcode q) hg hr)
  case chunk =>
    intro h w g x s hfatal hg hx i n twice
    refine ⟨execImgChunkProgrammed_of_taken hfatal hg hx, execImgChunkProgrammed_of_sourceBad hfatal hg hx rfl,
      fun src e ht hgood hsrc => execImgChunkProgrammed_of_not_opened hfatal hg hx rfl ht hgood hsrc, ?more, ?last⟩
    case more =>
      intro src bs hwf ht hkind hgood hsrc hopen hlen hmore
      refine ⟨chunkStored h w n g x bs s, ?_, chunkStored_read hlen hwf, chunkStored_imgRead hlen hwf,
        fun a => chunkStored_store_other hlen, ?_, ?_, chunkStored_image bs⟩
      · exact (execImgChunkProgrammed_of_opened hfatal hg hx rfl ht hgood hsrc hkind hopen).trans (by rw [if_neg hmore])
      · rw [chunkStored_mem]
      · rw [chunkStored_mem]
    case last =>
      intro src bs ht hkind hgood hsrc hopen hlast
      refine (execImgChunkProgrammed_of_opened hfatal hg hx rfl ht hgood hsrc hkind hopen).trans ?_
      rw [if_pos hlast, chunkStored, hlast]
  case verify => exact fun h g s => execImgVerifyComplete_of_clean
  case deleted => exact fun h g s => execImgDeleteComplete_of_deleting

end Sys2Proof.Machine
end

section
/-! PROOFS for 06_teacher_weight_path.md: fills of the staging halves. -/

namespace Sys2Proof.Machine
open Sys2Proof

/-! ### SU_STAGE_FILL (R175, R178) -/

section Check
variable {ring ix : Nat} {d : Bytes} {s : State} (hhead : s.headOf ring 0x40 = some (ix, d))
  (hunit : (s.ring ring).unitType = Config.tStream) (hdma : isDma (s.ring ring).unitInst = true)
include hhead hunit hdma

theorem execSuStageFill_of_good (hcheck : sfCheck (s.ring ring).ctx d s = none) :
    execSuStageFill ring s = .next (begin ring ix d s) := by
  simp [execSuStageFill, hhead, hunit, hdma, hcheck]

/-- A failed check other than poison in the gather list, which has an error record besides. -/
theorem execSuStageFill_of_failed {e : Nat × Nat} (hcheck : sfCheck (s.ring ring).ctx d s = some e) (hpoison : e.1 ≠ 0x113) :
    execSuStageFill ring s = .next (failCheck ring ix d e.1 (sfDetail e.2 0 0 0) false s) := by
  obtain ⟨st, reason⟩ := e
  simp [execSuStageFill, hhead, hunit, hdma, hcheck]

end Check

/-! ### What the two events of a fill touch -/

theorem sfHalf_lt (d : Bytes) : sfHalf d < 2 := Nat.mod_lt _ (by decide)

@[simp] theorem Core.stage_setStage_self (c : Core) (h : Nat) (f : Stage → Stage) : (c.setStage h f).stage h = f (c.stage h) := by
  by_cases hh : h = 0 <;> simp [Core.setStage, Core.stage, hh]

theorem Core.stage_setStage_other {h : Nat} (hh : h < 2) (c : Core) (f : Stage → Stage) :
    (c.setStage h f).stage (1 - h) = c.stage (1 - h) := by
  obtain rfl | rfl : h = 0 ∨ h = 1 := by omega
  · rfl
  · rfl

/-- Read after write of a ring. -/
theorem State.ring_setRing_self {s : State} (h : SMap.wf Ring.init s.rings = true) (j : Nat) (x : Ring) : (s.setRing j x).ring j = x :=
  SMap.get_set_self s.rings j 0 h

theorem State.ring_updRing_self {s : State} (h : SMap.wf Ring.init s.rings = true) (j : Nat) (f : Ring → Ring) :
    (s.updRing j f).ring j = f (s.ring j) := State.ring_setRing_self h j _

theorem State.rings_wf {s : State} (h : s.wf = true) : SMap.wf Ring.init s.rings = true := by
  obtain ⟨-, -, -, hrings, -⟩ := (State.wf_iff s).mp h
  exact hrings

theorem State.cur_of_fillOf {s : State} {ring : Nat} {c : Cur} (h : s.fillOf ring = some c) : (s.ring ring).cur = some c := by
  simp only [State.fillOf] at h
  split at h
  next c' hc =>
    split at h
    · exact hc.trans h
    · cases h
  · cases h

/-- The descriptor whose work has ended waits for TASK_COMPLETE. -/
theorem finish_phase {s : State} {j : Nat} {c : Cur} (hcur : (s.ring j).cur = some c) (h : SMap.wf Ring.init s.rings = true)
    (status lb : Nat) (detail : Bytes) : ((finish j status lb detail s).ring j).cur.map (·.phase) = some 1 := by
  simp only [finish, hcur]
  rw [State.ring_setRing_self h]
  rfl

/-- `t` is `s` but for the bytes and the marks of core SRAM. -/
def SramWithin (s t : State) : Prop :=
  t = { s with mem := { s.mem with sram := t.mem.sram, sramPoison := t.mem.sramPoison, sramUe := t.mem.sramUe } }

namespace SramWithin
variable {s t u : State} (h : SramWithin s t)
include h

theorem trans (g : SramWithin t u) : SramWithin s u := by
  unfold SramWithin at *
  rw [h] at g
  exact g

theorem rings : t.rings = s.rings := by rw [h]
theorem cores : t.cores = s.cores := by rw [h]
theorem hbm : t.mem.hbm = s.mem.hbm := by rw [h]
theorem store : t.mem.store = s.mem.store := by rw [h]

end SramWithin

theorem sramWrite_sramWithin (k off : Nat) (bs : Bytes) (s : State) : SramWithin s (sramWrite k off bs s) := rfl
theorem sramMark_sramWithin (k off n : Nat) (s : State) : SramWithin s (sramMark k off n s) := rfl
theorem sramWrite_sram (k off : Nat) (bs : Bytes) (s : State) : (sramWrite k off bs s).mem.sram = Mem.write s.mem.sram (sramAt k off) bs := rfl
theorem sramMark_sram (k off n : Nat) (s : State) : (sramMark k off n s).mem.sram = s.mem.sram := rfl

/-- `t` is `s` but for the registers of units. -/
def UnitsWithin (s t : State) : Prop := t = { s with units := t.units }

namespace UnitsWithin
variable {s t u : State} (h : UnitsWithin s t)
include h

theorem trans (g : UnitsWithin t u) : UnitsWithin s u := by
  unfold UnitsWithin at *
  rw [h] at g
  exact g

theorem rings : t.rings = s.rings := by rw [h]
theorem cores : t.cores = s.cores := by rw [h]
theorem mem : t.mem = s.mem := by rw [h]

end UnitsWithin

theorem bump_unitsWithin (ty inst n k : Nat) (s : State) : UnitsWithin s (bump ty inst n k s) := rfl
theorem setErr_unitsWithin (ty inst bit ring index reason : Nat) (s : State) : UnitsWithin s (setErr ty inst bit ring index reason s) := rfl

/-! ### STAGE_FILL_WRITE_START (R176) -/

/-- A staging half into which a fill begins to write. -/
def Stage.filling (st : Stage) (sealed : Bool) : Stage :=
  { st with
    sealing := sealed, poison := if st.fresh then false else st.poison, bad := if st.fresh then false else st.bad
    fresh := false }

/-- Before an open image is written over a sealed half, the half is cleared. -/
def halfUnsealed (k h : Nat) (sealed : Bool) (s : State) : State :=
  if !sealed && ((s.core k).stage h).sealing then sramWrite k (h * halfBytes) (zeros halfBytes) s else s

theorem halfUnsealed_sramWithin (k h : Nat) (sealed : Bool) (s : State) : SramWithin s (halfUnsealed k h sealed s) := by
  unfold halfUnsealed
  split
  · exact sramWrite_sramWithin _ _ _ s
  · rfl

theorem halfUnsealed_wf {s : State} (k h : Nat) (sealed : Bool) (hs : s.wf = true) : (halfUnsealed k h sealed s).wf = true :=
  ite_wf (sramWrite_wf _ _ _ hs) hs

theorem halfUnsealed_zero {s : State} {k h o : Nat} (hsealing : ((s.core k).stage h).sealing = true) (hs : s.wf = true) (ho : o < halfBytes) :
    Mem.get (halfUnsealed k h false s).mem.sram (sramAt k (h * halfBytes + o)) = 0 := by
  obtain ⟨⟨-, hsram, -⟩, -⟩ := (State.wf_iff s).mp hs
  have haddr : sramAt k (h * halfBytes + o) = sramAt k (h * halfBytes) + o := (Nat.add_assoc ..).symm
  have hin : o < (zeros halfBytes).length := by simpa [zeros] using ho
  rw [halfUnsealed, if_pos (by simp [hsealing]), sramWrite_sram, haddr, Mem.get_write_inside hsram hin]
  simp [zeros]

/-- The state once the fill `c` of image `g` on a ring has begun to write. -/
def fillStarted (ring : Nat) (c : Cur) (g : Image) (s : State) : State :=
  ((halfUnsealed (sfCore c.desc) (sfHalf c.desc) g.sealed s).updCore (sfCore c.desc) fun x =>
      x.setStage (sfHalf c.desc) fun _ => ((s.core (sfCore c.desc)).stage (sfHalf c.desc)).filling g.sealed).updRing ring
    fun r => { r with cur := some { c with rows := 1, last := s.now, todo := sfPages g c.desc s } }

section Start
variable {ring : Nat} {c : Cur} {g : Image} {s : State}

theorem execStageFillWriteStart_of_released (hfill : s.fillOf ring = some c) (hrows : c.rows = 0)
    (hclear : (s.core (sfCore c.desc)).clearing = false) (hg : s.image (sfImage c.desc) = some g)
    (hfree : (((s.core (sfCore c.desc)).stage (sfHalf c.desc)).freeSeq + 65536 - sfExpectFree c.desc) % 65536 < 0x8000) :
    execStageFillWriteStart ring s = .next (fillStarted ring c g s) := by
  simp only [execStageFillWriteStart, hfill, hrows, hclear, hg]
  rw [if_neg (by simpa using hfree)]
  rfl

theorem fillStarted_core (h : s.wf = true) : (fillStarted ring c g s).core (sfCore c.desc)
    = (s.core (sfCore c.desc)).setStage (sfHalf c.desc) fun _ =>
        ((s.core (sfCore c.desc)).stage (sfHalf c.desc)).filling g.sealed := by
  have hcores := (halfUnsealed_sramWithin (sfCore c.desc) (sfHalf c.desc) g.sealed s).cores
  rw [fillStarted, State.core_congr (State.updRing_cores ..), State.core_updCore_self _ _ (halfUnsealed_wf _ _ _ h), State.core_congr hcores]

theorem fillStarted_ring (h : s.wf = true) :
    ((fillStarted ring c g s).ring ring).cur = some { c with rows := 1, last := s.now, todo := sfPages g c.desc s } := by
  rw [fillStarted, State.ring_updRing_self]
  rw [State.updCore_rings]
  exact State.rings_wf (halfUnsealed_wf _ _ _ h)

theorem fillStarted_mem : (fillStarted ring c g s).mem = (halfUnsealed (sfCore c.desc) (sfHalf c.desc) g.sealed s).mem := rfl

end Start

/-! ### STAGE_FILL_COMPLETE (R176) -/

/-- A staging half into which a fill has placed its runs: FINAL advances FILL_SEQ and settles POISON. -/
def Stage.filled (st : Stage) (final bad : Bool) : Stage :=
  if final then { st with fillSeq := (st.fillSeq + 1) % 65536, poison := st.bad || bad, bad := false, fresh := true }
  else { st with bad := st.bad || bad }

theorem Stage.filled_fillSeq (st : Stage) (final bad : Bool) :
    (st.filled final bad).fillSeq = if final then (st.fillSeq + 1) % 65536 else st.fillSeq := by
  unfold Stage.filled
  split <;> rfl

/-- The runs of a fill stand in half `h` of core `k`, and the words at `bad` are marked. -/
def runsPlaced (k h : Nat) (g : Image) (runs : List (Nat × Nat × Nat)) (bad : List Nat) (s : State) : State :=
  bad.foldl (fun a o => sramMark k (h * halfBytes + o) 64 a)
    (runs.foldl (fun a r => sramWrite k (h * halfBytes + r.1) (s.imgRead g r.2.1 r.2.2) a) s)

section Placed
variable (k h : Nat) (g : Image) (runs : List (Nat × Nat × Nat)) (bad : List Nat) (s : State)

theorem runsPlaced_sramWithin : SramWithin s (runsPlaced k h g runs bad s) := by
  have hruns : SramWithin s (runs.foldl (fun a r => sramWrite k (h * halfBytes + r.1) (s.imgRead g r.2.1 r.2.2) a) s) :=
    List.foldlRecOn (motive := SramWithin s) runs _ rfl fun t ht r _ => ht.trans (sramWrite_sramWithin _ _ _ t)
  exact List.foldlRecOn (motive := SramWithin s) bad _ hruns fun t ht o _ => ht.trans (sramMark_sramWithin _ _ _ t)

theorem runsPlaced_sram : (runsPlaced k h g runs bad s).mem.sram
    = runs.foldl (fun m r => Mem.write m (sramAt k (h * halfBytes + r.1)) (s.imgRead g r.2.1 r.2.2)) s.mem.sram := by
  have hmarks : ∀ t : State, (bad.foldl (fun a o => sramMark k (h * halfBytes + o) 64 a) t).mem.sram = t.mem.sram := fun t =>
    List.foldlRecOn (motive := fun u : State => u.mem.sram = t.mem.sram) bad _ rfl fun u hu o _ => (sramMark_sram _ _ _ u).trans hu
  rw [runsPlaced, hmarks]
  exact (List.foldl_hom (fun t : State => t.mem.sram) fun t r => (sramWrite_sram _ _ _ t).symm).symm

theorem runsPlaced_wf {s : State} (hs : s.wf = true) : (runsPlaced k h g runs bad s).wf = true :=
  foldl_wf (fun _ _ ht => sramMark_wf ht) (foldl_wf (fun _ _ ht => sramWrite_wf _ _ _ ht) hs)

end Placed

/-- The state in which the fill `c` of image `g` has placed its runs and settled its half, `bad` the words that it marks. -/
def fillPlaced (c : Cur) (g : Image) (bad : List Nat) (s : State) : State :=
  (runsPlaced (sfCore c.desc) (sfHalf c.desc) g (sfRuns g c.desc s) bad s).updCore (sfCore c.desc) fun x =>
    x.setStage (sfHalf c.desc) fun st => st.filled (sfFinal c.desc) !bad.isEmpty

section Complete
variable {ring : Nat} {c : Cur} {g : Image} {s : State}

/-- The end of a fill that no other meets in its half: once it has placed its runs, counters and error registers of units change, and its
work ends. -/
theorem execStageFillComplete_of_alone (hfill : s.fillOf ring = some c) (hrows : c.rows ≠ 0) (htodo : c.todo = [])
    (hg : s.image (sfImage c.desc) = some g) (hclash : s.fillClash ring (sfCore c.desc) (sfHalf c.desc) = false) :
    ∃ lb detail bad t, UnitsWithin (fillPlaced c g bad s) t ∧ execStageFillComplete ring s = .next (finish ring 0 lb detail t) := by
  simp only [execStageFillComplete, hfill, htodo, hg, hclash, Bool.false_eq_true, if_false]
  rw [if_neg (by simp [hrows])]
  refine ⟨_, _, (sfRuns g c.desc s).flatMap (placedBad g s), _, ?_, rfl⟩
  split
  · exact ((bump_unitsWithin ..).trans (bump_unitsWithin ..)).trans (bump_unitsWithin ..)
  · exact ((((bump_unitsWithin ..).trans (bump_unitsWithin ..)).trans (bump_unitsWithin ..)).trans (bump_unitsWithin ..)).trans
      (setErr_unitsWithin ..)

theorem fillPlaced_core (bad : List Nat) (h : s.wf = true) : (fillPlaced c g bad s).core (sfCore c.desc)
    = (s.core (sfCore c.desc)).setStage (sfHalf c.desc) fun st => st.filled (sfFinal c.desc) !bad.isEmpty := by
  have hcores := (runsPlaced_sramWithin (sfCore c.desc) (sfHalf c.desc) g (sfRuns g c.desc s) bad s).cores
  rw [fillPlaced, State.core_updCore_self _ _ (runsPlaced_wf _ _ _ _ _ h), State.core_congr hcores]

theorem fillPlaced_mem (bad : List Nat) : (fillPlaced c g bad s).mem
    = (runsPlaced (sfCore c.desc) (sfHalf c.desc) g (sfRuns g c.desc s) bad s).mem := State.updCore_mem ..

theorem fillPlaced_rings (bad : List Nat) : (fillPlaced c g bad s).rings = s.rings :=
  (State.updCore_rings ..).trans (runsPlaced_sramWithin ..).rings

end Complete

/-- Settles O22: the checks by their outcome; each event by the state that it leaves, read at the half, the ring and the memories. -/
theorem stageFills : Obligations.StageFills := by
  unfold Obligations.StageFills
  refine ⟨fun ring ix d s hhead hunit hdma => ⟨execSuStageFill_of_good hhead hunit hdma, fun e => execSuStageFill_of_failed hhead hunit hdma⟩,
    fun ring c g s hwf hfill hrows hclear hg hfree => ?start, fun ring c g s hwf hfill hrows htodo hg hclash => ?complete⟩
  case start =>
    have hsram := halfUnsealed_sramWithin (sfCore c.desc) (sfHalf c.desc) g.sealed s
    refine ⟨fillStarted ring c g s, execStageFillWriteStart_of_released hfill hrows hclear hg hfree, ?_, ?_, fillStarted_ring hwf,
      fun hsealing hopen o ho => ?_, ?_, ?_⟩
    · rw [fillStarted_core hwf, Core.stage_setStage_self]
      rfl
    · rw [fillStarted_core hwf, Core.stage_setStage_other (sfHalf_lt _)]
    · rw [fillStarted_mem, hopen]
      exact halfUnsealed_zero hsealing hwf ho
    · rw [fillStarted_mem, hsram.hbm]
    · rw [fillStarted_mem, hsram.store]
  case complete =>
    obtain ⟨lb, detail, bad, t, hunits, hexec⟩ := execStageFillComplete_of_alone hfill hrows htodo hg hclash
    have hsram := runsPlaced_sramWithin (sfCore c.desc) (sfHalf c.desc) g (sfRuns g c.desc s) bad s
    have hrings : t.rings = s.rings := hunits.rings.trans (fillPlaced_rings bad)
    have hcur : (t.ring ring).cur = some c := by rw [State.ring_congr hrings, State.cur_of_fillOf hfill]
    refine ⟨finish ring 0 lb detail t, hexec, ?_, ?_, ?_, ?_, finish_phase hcur (hrings ▸ State.rings_wf hwf) 0 lb detail⟩
    · rw [State.core_congr ((finish_cores ..).trans hunits.cores), fillPlaced_core bad hwf, Core.stage_setStage_self, Stage.filled_fillSeq]
    · rw [finish_mem, hunits.mem, fillPlaced_mem, runsPlaced_sram]
    · rw [finish_mem, hunits.mem, fillPlaced_mem, hsram.hbm]
    · rw [finish_mem, hunits.mem, fillPlaced_mem, hsram.store]

end Sys2Proof.Machine
end

section
/-! PROOFS for 06_teacher_weight_path.md: the steps of the teacher forward program. -/

namespace Sys2Proof.Machine
open Sys2Proof

/-! ### Rank order (R238): each valid element once -/

theorem insertRank_perm (up : Bool) (a : LEl) (l : List LEl) : (insertRank up a l).Perm (a :: l) := by
  induction l with
  | nil => exact .refl _
  | cons b l ih =>
    rw [insertRank]
    split
    · exact .refl _
    · exact (ih.cons b).trans (.swap a b l)

theorem rankOrder_perm (up : Bool) (l : List LEl) : (rankOrder up l).Perm l := by
  induction l with
  | nil => exact .refl _
  | cons a l ih => exact (insertRank_perm up a _).trans (ih.cons a)

/-- The valid elements of a row stand at indices of the row, in order. -/
theorem lensValid_ix_sublist (fmt : Nat) (xs : List Nat) : ((lensValid fmt xs).map (·.ix)).Sublist (List.range xs.length) := by
  have hindices : ∀ ps : List (Nat × Nat),
      ((ps.filterMap fun x => (lensKey fmt x.1).map fun k => ({ ix := x.2, key := k, b := x.1 } : LEl)).map (·.ix)).Sublist (ps.map (·.2)) := by
    intro ps
    induction ps with
    | nil => exact .slnil
    | cons x ps ih => cases hk : lensKey fmt x.1 <;> simp [hk, ih, List.Sublist.cons]
  simpa [lensValid, List.zipIdx_map_snd, List.range_eq_range'] using hindices xs.zipIdx

/-- The experts chosen are the indices of the first elements in rank order. -/
theorem chosen_sublist (k : Nat) (outs : List Nat) :
    (chosen k outs).Sublist ((rankOrder false (lensValid 0 outs)).map (·.ix)) := (List.take_sublist k _).map _

theorem chosen_length_le (k : Nat) (outs : List Nat) : (chosen k outs).length ≤ k := by
  rw [chosen, List.length_map]
  exact List.length_take_le k _

theorem chosen_nodup (k : Nat) (outs : List Nat) : (chosen k outs).Nodup :=
  (((rankOrder_perm false _).map _).nodup_iff.mpr ((lensValid_ix_sublist 0 outs).nodup List.nodup_range)).sublist (chosen_sublist k outs)

theorem lt_length_of_mem_chosen {k e : Nat} {outs : List Nat} (h : e ∈ chosen k outs) : e < outs.length := by
  have hrank := (chosen_sublist k outs).subset h
  have hvalid := ((rankOrder_perm false _).map _).mem_iff.mp hrank
  exact List.mem_range.mp ((lensValid_ix_sublist 0 outs).subset hvalid)

/-! ### Steps that post descriptors (R164, R174, R179, R180, R280) -/

section Step
variable {id : Nat} {w : Sweep} {g : Image} {b : Bytes} {s : State}

theorem execFwdFill_of_posted {x : FwIssue} {u : State} (hstep : s.stepOf id 1 = some (w, g, b))
    (hsubst : substOk (stepDesc b) (fitTo 64 x.desc) [(2, 2), (8, 2), (16, 2), (26, 6), (40, 8), (56, 8)] = true)
    (himage : field x.desc 8 2 = w.image) (hdma : isDma x.inst = true) (hpost : fwPost Config.tStream x s = some u) :
    execFwdFill id x s = .next (nextStep id u) := by
  simp only [execFwdFill, hstep, hpost]
  rw [if_neg (by simp [hsubst, himage, hdma])]

theorem execFwdPass_of_posted {x : FwIssue} {u : State} (hstep : s.stepOf id 2 = some (w, g, b))
    (hsubst : substOk (stepDesc b) (fitTo 64 x.desc) (passSubst (dOp (stepDesc b))) = true)
    (hpost : fwPost Config.tTeacher x s = some u) : execFwdPass id x s = .next (nextStep id u) := by
  simp only [execFwdPass, hstep, hpost, hsubst]
  rw [if_neg (by simp)]

/-- A descriptor that differs from the template elsewhere is not issued. -/
theorem execFwdPass_of_not_subst {x : FwIssue} (hstep : s.stepOf id 2 = some (w, g, b))
    (hsubst : substOk (stepDesc b) (fitTo 64 x.desc) (passSubst (dOp (stepDesc b))) = false) : execFwdPass id x s = .next s := by
  simp only [execFwdPass, hstep, hsubst]
  rw [if_pos (by simp)]

theorem execFwdExchange_of_posted {xs : List FwIssue} {u : State} (hstep : s.stepOf id 4 = some (w, g, b))
    (hcopies : ∀ x ∈ xs, dOp x.desc = 0x10 ∧ (suSrcSpace x.desc = 0 ∨ suSrcSpace x.desc = 2) ∧ (suDstSpace x.desc = 0 ∨ suDstSpace x.desc = 2))
    (hpost : fwPostAll Config.tStream xs s = some u) : execFwdExchange id xs s = .next (nextStep id u) := by
  have hall : xs.all (fun x => dOp x.desc == 0x10 && (suSrcSpace x.desc == 0 || suSrcSpace x.desc == 2)
      && (suDstSpace x.desc == 0 || suDstSpace x.desc == 2)) = true := by simpa [and_assoc] using hcopies
  simp only [execFwdExchange, hstep, hpost, hall]
  rw [if_neg (by simp)]

theorem execFwdTap_of_posted {xs : List FwIssue} {u : State} (hstep : s.stepOf id 6 = some (w, g, b))
    (htaps : ∀ x ∈ xs, dOp x.desc = 0x11 ∧ s.tapTags w x = true) (hpost : fwPostAll Config.tPrism xs s = some u) :
    execFwdTap id xs s = .next (nextStep id u) := by
  simp only [execFwdTap, hstep, hpost]
  rw [if_neg (by simpa using htaps)]

/-! ### SOFT_TARGET (R265, R275, R285–R287) -/

/-- A step that has no rows to send is done at once. -/
theorem execFwdSoftTarget_of_no_rows (hstep : s.stepOf id 5 = some (w, g, b)) (hsoft : w.soft = []) (hcovers : s.softCovers w [] = true) :
    execFwdSoftTarget id [] [] s = .next (nextStep id s) := by
  simp [execFwdSoftTarget, hstep, hsoft, hcovers]

/-- First the step issues its PRISM_ROWS. -/
theorem execFwdSoftTarget_of_rows {rows : List (Nat × List Byte × FwIssue)} {u : State} (hstep : s.stepOf id 5 = some (w, g, b))
    (hsoft : w.soft = []) (hcovers : s.softCovers w (rows.map fun x => (x.1, x.2.2.inst, field x.2.2.desc 10 2)) = true)
    (hrows : rows ≠ []) (hpost : softAll w rows s = some u) : execFwdSoftTarget id rows [] s = .next u := by
  simp [execFwdSoftTarget, hstep, hsoft, hcovers, hrows, hpost]

/-- Once these have completed, it issues its LENS_TOPK, each Lens with its own channel as destination and as many rows as its lists have. -/
theorem execFwdSoftTarget_of_lens {lens : List FwIssue} {v : State} (hstep : s.stepOf id 5 = some (w, g, b)) (hsoft : w.soft ≠ [])
    (htopk : ∀ x ∈ lens, dOp x.desc = 0x10 ∧ bits (field x.desc 9 1) 6 2 = 2 ∧ field x.desc 14 2 = x.inst)
    (hdone : ∀ l ∈ w.soft, s.fwDone l.ring l.index = true)
    (hcount : ∀ i, i < 8 →
      ((lens.filter fun x => x.inst == i).map fun x => lRows x.desc).sum = ((w.soft.filter fun l => l.chan == i).map s.softRowsOf).sum)
    (hpost : fwPostAll Config.tLens lens s = some v) :
    execFwdSoftTarget id [] lens s = .next (nextStep id (updSweep id (fun w => { w with soft := [] }) v)) := by
  have htopks : lens.all (fun x => dOp x.desc == 0x10 && bits (field x.desc 9 1) 6 2 == 2 && field x.desc 14 2 == x.inst) = true := by
    simpa [and_assoc] using htopk
  have hdones : w.soft.all (fun l => s.fwDone l.ring l.index) = true := by simpa using hdone
  have hcounts : (List.range 8).all (fun i => ((lens.filter fun x => x.inst == i).map fun x => lRows x.desc).sum
      == ((w.soft.filter fun l => l.chan == i).map s.softRowsOf).sum) = true := by simpa using hcount
  simp only [execFwdSoftTarget, hstep, hpost, htopks, hdones, hcounts]
  rw [if_neg (by simpa using hsoft), if_neg (by simp)]

/-! ### ROUTE (R174, R180) -/

/-- The experts that each row of a layer chooses: `k` of `n`, from the router outputs at `scores`. -/
def State.routePicks (s : State) (scores n k rows : Nat) : List (List Nat) :=
  (List.range rows).map fun r => chosen k ((List.range n).map fun e => field (s.hbmRead (scores + 4 * (n * r + e)) 4) 0 4)

/-- The rows that chose expert `e`. -/
def rowsOf (pick : List (List Nat)) (rows e : Nat) : List Nat := (List.range rows).filter fun r => (nth pick r []).contains e

/-- The expert list (R174). -/
def routeList (pick : List (List Nat)) (n : Nat) : Bytes :=
  let used := (List.range n).filter fun e => pick.any fun p => p.contains e
  leBytes 2 used.length ++ used.flatMap fun e => leBytes 2 e

/-- The rows sorted by expert, and where each expert's rows start. -/
def routeOrder (pick : List (List Nat)) (n rows : Nat) : Bytes :=
  let starts := (List.range (n + 1)).map fun e => (((List.range n).take e).map fun d => (rowsOf pick rows d).length).sum
  ((List.range n).flatMap (rowsOf pick rows) ++ starts).flatMap fun r => leBytes 4 r

theorem execFwdRoute_of_owned {layer scores rows lists order n k : Nat} (hstep : s.stepOf id 3 = some (w, g, b))
    (hn : field (s.layer g layer) 8 2 = n) (hk : field (s.layer g layer) 10 2 = k) (hlayer : layer < s.imgLayers g)
    (hkind : field (s.layer g layer) 6 1 = 4) (hrows : rows ≠ 0) (hscores : s.owns 0 scores (4 * n * rows) = true)
    (hlists : s.owns 0 lists (2 + 2 * n) = true) (horder : s.owns 0 order (4 * rows * k + 4 * (n + 1)) = true) :
    let pick := s.routePicks scores n k rows
    execFwdRoute id layer scores rows lists order s
      = .next (nextStep id (hbmWrite order (routeOrder pick n rows) (hbmWrite lists (routeList pick n) s))) := by
  have hin : ¬ layer ≥ s.imgLayers g := Nat.not_le.mpr hlayer
  simp only [execFwdRoute, hstep, hn, hk]
  rw [if_neg (by simp [hin, hkind, hrows, hscores, hlists, horder])]
  rfl

/-! ### REPEAT and END (R164, R179, R287, R304) -/

/-- A repeat begins: ⌈T / 512⌉ times through the steps that follow, or once per 8 rows on the thin path. -/
theorem execFwdRepeat_of_begin {thin : Bool} (hstep : s.stepOf id 7 = some (w, g, b)) (hreps : w.reps = 0)
    (hthin : thin = thinBody (s.repBody g w.step)) :
    execFwdRepeat id thin s = .next (updSweep id (fun w => { w with
      step := w.step + 1, repAt := w.step + 1, reps := cdiv w.rows (if thin then 8 else 512) - 1 }) s) := by
  simp [execFwdRepeat, hstep, Sweep.again, hreps, hthin]

theorem execFwdRepeat_of_again (hstep : s.stepOf id 7 = some (w, g, b)) (hreps : w.reps ≠ 0) (thin : Bool) :
    execFwdRepeat id thin s = .next (updSweep id (fun _ => { w with step := w.repAt, reps := w.reps - 1 }) s) := by
  simp [execFwdRepeat, hstep, Sweep.again, hreps]

section End
variable {token : Option Nat} (hstep : s.stepOf id 8 = some (w, g, b)) (hreps : w.reps = 0)
include hstep hreps

/-- END waits until the chunk that it is to consume has been scored. -/
theorem execFwdEnd_of_not_scored {r : Nat} (htoken : token = some r) (hscored : s.chunkScored w r = false) :
    execFwdEnd id token s = .next s := by
  simp [execFwdEnd, hstep, Sweep.again, hreps, htoken, hscored]

variable (hscored : token.all (fun r => s.chunkScored w r) = true)
include hscored

/-! What END does once nothing waits, in the state in which its chunk, if it has one, has been consumed. -/

theorem execFwdEnd_of_no_job (hjob : w.job = none) : execFwdEnd id token s
    = .next (let u := token.elim s (chunkDone · s); { u with sweeps := u.sweeps.filter fun v => v.id != id }) := by
  simp only [execFwdEnd, hstep, Sweep.again, hreps, hscored, hjob]
  cases token <;> rfl

variable {h : Nat} {j : Job} (hjob : w.job = some h) (hj : (token.elim s (chunkDone · s)).job h = some j)
include hjob hj

/-- A RUNNING job goes on with its next batch. -/
theorem execFwdEnd_of_running (hst : j.st = 1) : execFwdEnd id token s
    = .next (updSweep id (fun w => Sweep.start w.id w.image w.job w.model w.rows) (token.elim s (chunkDone · s))) := by
  simp only [execFwdEnd, hstep, Sweep.again, hreps, hscored, hjob]
  cases token with
  | none => simp [show s.job h = some j from hj, hst]
  | some r => simp [show (chunkDone r s).job h = some j from hj, hst]

/-- The program of a job that does not run any more ends. -/
theorem execFwdEnd_of_stopping (hst : j.st ≠ 1) : execFwdEnd id token s
    = .next (let u := token.elim s (chunkDone · s)
        jobStopGo h ({ u with sweeps := u.sweeps.filter fun v => v.id != id }.setJob h { j with fwd := false })) := by
  simp only [execFwdEnd, hstep, Sweep.again, hreps, hscored, hjob]
  cases token with
  | none => simp [show s.job h = some j from hj, hst]
  | some r => simp [show (chunkDone r s).job h = some j from hj, hst]

end End

end Step

/-- Settles O57: each step by its own command, and the choice of experts by the rank order of their outputs. -/
theorem forwardSteps : Obligations.ForwardSteps := by
  unfold Obligations.ForwardSteps
  intro id w g b s
  refine ⟨fun hstep x u => execFwdFill_of_posted hstep, fun hstep x => ⟨fun u => execFwdPass_of_posted hstep, execFwdPass_of_not_subst hstep⟩,
    fun hstep layer scores rows lists order => execFwdRoute_of_owned hstep rfl rfl, fun hstep xs u => execFwdExchange_of_posted hstep,
    fun hstep rows lens => ⟨fun hsoft hlens hcovers => ?rows, fun v hsoft hrows => ?lens⟩, fun hstep xs u => execFwdTap_of_posted hstep,
    fun hstep thin => ⟨execFwdRepeat_of_begin hstep, fun hreps => execFwdRepeat_of_again hstep hreps thin⟩,
    fun hstep hreps token => ⟨fun r => execFwdEnd_of_not_scored hstep hreps, fun hscored => ?ended⟩,
    fun k outs => ⟨chosen_length_le k outs, chosen_nodup k outs, fun e => lt_length_of_mem_chosen⟩⟩
  case rows =>
    subst hlens
    refine ⟨fun hrows => ?_, fun u => execFwdSoftTarget_of_rows hstep hsoft hcovers⟩
    subst hrows
    exact execFwdSoftTarget_of_no_rows hstep hsoft hcovers
  case lens =>
    subst hrows
    exact execFwdSoftTarget_of_lens hstep hsoft
  case ended =>
    have hall : token.all (fun r => s.chunkScored w r) = true := by simpa [Option.all_eq_true] using hscored
    intro u
    have hu : u = token.elim s (chunkDone · s) := by cases token <;> rfl
    clear_value u
    subst hu
    exact ⟨execFwdEnd_of_no_job hstep hreps hall, fun h j hjob hj =>
      ⟨execFwdEnd_of_running hstep hreps hall hjob hj, execFwdEnd_of_stopping hstep hreps hall hjob hj⟩⟩

end Sys2Proof.Machine
end

section
/-! PROOFS for 07_student_engine.md: the words and the instructions of vector programs. -/

namespace Sys2Proof.Machine
open Sys2Proof

/-! ### Vector instruction words (R193) -/

theorem VecFields.wf_iff (f : VecFields) :
    f.wf = true ↔ f.d < 32 ∧ f.s1 < 32 ∧ f.s2 < 32 ∧ f.s3 < 32 ∧ f.m < 8 ∧ f.imm < 2 ^ 32 := by
  simp only [VecFields.wf, Bool.and_eq_true, decide_eq_true_eq, and_assoc]

/-- The word as a sum of its fields at their places, MEN among them as one bit. -/
theorem vecEncode_eq (op : Nat) (f : VecFields) : vecEncode op f
    = op + 2 ^ 8 * f.d + 2 ^ 13 * f.s1 + 2 ^ 18 * f.s2 + 2 ^ 23 * f.s3 + 2 ^ 28 * f.m + 2 ^ 31 * b2n f.men + 2 ^ 32 * f.imm := by
  cases hmen : f.men <;> simp [vecEncode, b2n, hmen]

theorem b2n_lt (b : Bool) : b2n b < 2 := by cases b <;> decide

theorem decide_b2n (b : Bool) : decide (b2n b = 1) = b := by cases b <;> rfl

theorem b2n_decide (n : Nat) : b2n (decide (n % 2 = 1)) = n % 2 := by
  rcases Nat.mod_two_eq_zero_or_one n with h | h <;> rw [h] <;> rfl

theorem vecEncode_lt {op : Nat} {f : VecFields} (hop : op < 256) (hf : f.wf = true) : vecEncode op f < 2 ^ 64 := by
  obtain ⟨hd, hs1, hs2, hs3, hm, himm⟩ := (VecFields.wf_iff f).mp hf
  have hmen := b2n_lt f.men
  rw [vecEncode_eq]
  omega

theorem vecDecode_vecEncode {op : Nat} {f : VecFields} (hop : op < 256) (hf : f.wf = true) : vecDecode (vecEncode op f) = (op, f) := by
  obtain ⟨hd, hs1, hs2, hs3, hm, himm⟩ := (VecFields.wf_iff f).mp hf
  have hmen := b2n_lt f.men
  have hw := vecEncode_eq op f
  generalize vecEncode op f = w at hw
  have hbit : w / 2 ^ 31 % 2 = b2n f.men := by omega
  unfold vecDecode
  rw [hbit, decide_b2n, Prod.mk.injEq, VecFields.mk.injEq]
  refine ⟨?_, ?_, ?_, ?_, ?_, ?_, rfl, ?_⟩ <;> omega

theorem vecDecode_wf (w : Nat) : (vecDecode w).2.wf = true := by
  rw [VecFields.wf_iff]
  refine ⟨?_, ?_, ?_, ?_, ?_, ?_⟩ <;> exact Nat.mod_lt _ (by decide)

theorem vecEncode_vecDecode {w : Nat} (hw : w < 2 ^ 64) : vecEncode (vecDecode w).1 (vecDecode w).2 = w := by
  rw [vecEncode_eq]
  simp only [vecDecode, b2n_decide]
  omega

/-- Settles O6: the fields of a word are its digits in the mixed radix of R193. -/
theorem vectorWordsDecodeAndEncode : Obligations.VectorWordsDecodeAndEncode := by
  unfold Obligations.VectorWordsDecodeAndEncode
  exact ⟨fun op f hop hf => ⟨vecEncode_lt hop hf, vecDecode_vecEncode hop hf⟩, fun w hw => ⟨vecDecode_wf w, vecEncode_vecDecode hw⟩⟩

/-! ### The registers of a vector program: what a read returns after a write -/

/-- Read after write of a scalar register; x0 stays 0 (R192). -/
theorem VecState.xr_setX {v : VecState} (hv : v.wf = true) (i n r : Nat) :
    (v.setX i n).xr r = if r = i ∧ r ≠ 0 then n % 2 ^ 64 else v.xr r := by
  obtain ⟨hx, -, -⟩ := (VecState.wf_iff v).mp hv
  by_cases hi : i = 0
  · simp [VecState.setX, hi]
  by_cases hr : r = i
  · subst hr
    simp [VecState.xr, VecState.setX, hi, SMap.get_set_self v.x r 0 hx]
  · simp [VecState.xr, VecState.setX, hi, hr, SMap.get_set_other v.x hr]

theorem VecState.setX_eq (v : VecState) (i n : Nat) : v.setX i n = { v with x := (v.setX i n).x } := by
  unfold VecState.setX
  split <;> rfl

/-- Read after write of a lane of a vector register. -/
theorem VecState.lane_setLane {v : VecState} (hv : v.wf = true) {l i : Nat} (hl : l < 256) (hi : i < 256) (d n r : Nat) :
    (v.setLane d l n).lane r i = if r = d ∧ i = l then n % 2 ^ 32 else v.lane r i := by
  obtain ⟨-, hmap, -⟩ := (VecState.wf_iff v).mp hv
  by_cases h : r = d ∧ i = l
  · obtain ⟨rfl, rfl⟩ := h
    simp [VecState.lane, VecState.setLane, SMap.get_set_self v.v (256 * r + i) 0 hmap]
  · rw [if_neg h]
    exact SMap.get_set_other v.v (by omega)

theorem VecState.mem_lanes {v : VecState} {f : VecFields} {l : Nat} : l ∈ v.lanes f ↔ l < 256 ∧ v.active f l = true := by
  simp [VecState.lanes]

theorem VecState.lane_foldl_setLane {d r i : Nat} {g : Nat → Nat} (hi : i < 256) (ls : List Nat) {v : VecState} (hv : v.wf = true)
    (hls : ∀ l ∈ ls, l < 256) :
    (ls.foldl (fun w l => w.setLane d l (g l)) v).lane r i = if r = d ∧ i ∈ ls then g i % 2 ^ 32 else v.lane r i := by
  induction ls generalizing v with
  | nil => simp
  | cons l ls ih =>
    obtain ⟨hl, hls⟩ := List.forall_mem_cons.mp hls
    rw [List.foldl_cons, ih (VecState.setLane_wf hv) hls, VecState.lane_setLane hv hl hi]
    by_cases hil : i = l
    · subst hil
      by_cases hr : r = d <;> simp [hr]
    · simp [hil]

/-- Read after a lane-wise write: the active lanes of vD take their values. -/
theorem VecState.lane_mapLanes {v : VecState} (hv : v.wf = true) (f : VecFields) (g : Nat → Nat) {r l : Nat} (hl : l < 256) :
    (v.mapLanes f g).lane r l = if r = f.d ∧ v.active f l = true then g l % 2 ^ 32 else v.lane r l := by
  rw [VecState.mapLanes, VecState.lane_foldl_setLane hl _ hv fun _ h => (VecState.mem_lanes.mp h).1]
  simp [VecState.mem_lanes, hl]

theorem VecState.mapLanes_eq (v : VecState) (f : VecFields) (g : Nat → Nat) : v.mapLanes f g = { v with v := (v.mapLanes f g).v } :=
  List.foldlRecOn (motive := fun w : VecState => w = { v with v := w.v }) (v.lanes f) _ rfl fun w hw l _ => by
    rw [hw]
    rfl

/-- Read after write of a mask. -/
theorem VecState.mask_setMask {v : VecState} (hv : v.wf = true) (i n : Nat) {r : Nat} (hr : r < 8) :
    (v.setMask i n).mask r = if r = i then n else v.mask r := by
  obtain ⟨-, -, hlen⟩ := (VecState.wf_iff v).mp hv
  by_cases h : i = r <;> simp [VecState.mask, VecState.setMask, nth, hlen, h, hr, eq_comm]

/-! ### Bits of masks -/

theorem bitOf_eq_testBit (v i : Nat) : bitOf v i = v.testBit i := by
  rw [bitOf, Nat.testBit_eq_decide_div_mod_eq]
  rfl

theorem bitOf_land (a b i : Nat) : bitOf (Nat.land a b) i = (bitOf a i && bitOf b i) := by
  simp only [bitOf_eq_testBit]
  exact Nat.testBit_and a b i

/-- The complement of a mask of 256 lanes. -/
theorem bitOf_complement {m : Nat} (hm : m < 2 ^ 256) (i : Nat) : bitOf (2 ^ 256 - 1 - m) i = (decide (i < 256) && !bitOf m i) := by
  rw [bitOf_eq_testBit, bitOf_eq_testBit, ← Nat.testBit_two_pow_sub_succ hm]
  congr 1
  omega

/-- The mask of the lanes below `n` that satisfy `p`. -/
def laneMask (p : Nat → Bool) (n : Nat) : Nat := ((List.range n).filter p).foldl (fun a l => a + 2 ^ l) 0

theorem laneMask_succ (p : Nat → Bool) (n : Nat) : laneMask p (n + 1) = 2 ^ n * b2n (p n) + laneMask p n := by
  cases hp : p n <;> simp [laneMask, List.range_succ, hp, b2n, Nat.add_comm]

theorem laneMask_lt (p : Nat → Bool) (n : Nat) : laneMask p n < 2 ^ n := by
  induction n with
  | zero => exact Nat.one_pos
  | succ n ih =>
    have hbit : b2n (p n) ≤ 1 := by cases p n <;> decide
    have := Nat.mul_le_mul_left (2 ^ n) hbit
    rw [laneMask_succ, Nat.pow_succ]
    omega

theorem bitOf_laneMask (p : Nat → Bool) (n i : Nat) : bitOf (laneMask p n) i = (decide (i < n) && p i) := by
  rw [bitOf_eq_testBit]
  induction n with
  | zero => simp [laneMask]
  | succ n ih =>
    rw [laneMask_succ, Nat.testBit_two_pow_mul_add _ (laneMask_lt p n)]
    obtain h | rfl | h := Nat.lt_trichotomy i n
    · rw [if_pos h, ih, decide_eq_true h, decide_eq_true (Nat.lt_succ_of_lt h)]
    · cases p i <;> simp [b2n]
    · have h0 : (b2n (p n)).testBit (i - n) = false :=
        Nat.testBit_lt_two_pow (Nat.lt_of_lt_of_le (by cases p n <;> decide) (Nat.pow_le_pow_right (by decide) (by omega : 1 ≤ i - n)))
      rw [if_neg (by omega), h0, decide_eq_false (by omega), Bool.false_and]

theorem VecState.bitOf_cmpMask (v : VecState) (f : VecFields) (l : Nat) :
    bitOf (v.cmpMask f) l = (decide (l < 256) && v.active f l && cmpBy f.imm (v.lane f.s1 l) (v.lane f.s2 l)) := by
  have hmask : v.cmpMask f = laneMask (fun l => v.active f l && cmpBy f.imm (v.lane f.s1 l) (v.lane f.s2 l)) 256 := by
    rw [VecState.cmpMask, VecState.lanes, List.filter_filter, laneMask]
    simp only [Bool.and_comm]
  rw [hmask, bitOf_laneMask, Bool.and_assoc]

/-! ### Issue of the instruction at PC (R196) -/

/-- The vector program `v` runs on a core, and the word at its PC can be read. -/
structure VecRuns (core : Nat) (s : State) (v : VecState) : Prop where
  vec : (s.core core).vec = some v
  wait : v.wait = none
  live : s.isFatal = false
  readable : s.sramBad core (v.prog + 8 * v.pc) 8 = false

/-- The word at PC is this instruction, and legal. -/
def VecAtPc (core : Nat) (s : State) (v : VecState) (op : Nat) (f : VecFields) : Prop :=
  vecDecode (vecWord core v s) = (op, f) ∧ wordIllegal (decide (core < 32)) op f = false

/-- The program once the instruction has been issued, and the state that holds it. -/
def VecState.issue (v : VecState) : VecState := { v with issued := v.issued + 1 }
def issued (core : Nat) (v : VecState) (s : State) : State := s.updCore core fun c => { c with vec := some v.issue }

theorem VecState.issue_wf {v : VecState} (hv : v.wf = true) : v.issue.wf = true := hv

theorem VecState.issue_tree (v : VecState) (f : VecFields) (g : Nat → Nat → Nat) (idle : Nat) : v.issue.tree f g idle = v.tree f g idle := by
  unfold VecState.tree
  rfl

/-- What the state becomes by what an instruction does. -/
def VRes.settle (core : Nat) (s : State) : VRes → State
  | .ok v jump t => vecNext core v jump t
  | .stop t => t
  | .stall v => s.updCore core fun c => { c with vec := some v }

/-- But for the registers and the count of issued instructions `w` is `v`, and no TWAIT stalls. -/
def VecState.Same (v w : VecState) : Prop :=
  w.vl = v.vl ∧ w.lb = v.lb ∧ w.issued = v.issued + 1 ∧ w.ring = v.ring ∧ w.prog = v.prog ∧ w.len = v.len ∧ w.wait = none

/-- Of the registers only the active lanes of vD have changed, to the values `g`. -/
def VecState.LanesWritten (v : VecState) (f : VecFields) (g : Nat → Nat) (w : VecState) : Prop :=
  (∀ r l, l < 256 → w.lane r l = if r = f.d ∧ v.active f l = true then g l % 2 ^ 32 else v.lane r l) ∧ w.x = v.x ∧ w.m = v.m ∧ v.Same w

section Issue
variable {core op : Nat} {f : VecFields} {s : State} {v : VecState} (hr : VecRuns core s v) (hat : VecAtPc core s v op f)
include hr hat

theorem vecIssue_of_atPc (body : VecState → State → VRes) :
    vecIssue core op f body s = (body v.issue (issued core v s)).settle core (issued core v s) := by
  obtain ⟨hvec, hwait, hlive, hread⟩ := hr
  obtain ⟨hword, hlegal⟩ := hat
  unfold vecIssue
  rw [hvec]
  dsimp only
  rw [if_neg (by simp [hwait, hlive, hword]), if_neg (by simp [hread]), if_neg (by simp [hlegal])]
  rfl

theorem vecIssue_of_ok {body : VecState → State → VRes} {w : VecState} {jump : Int} {t : State}
    (hbody : body v.issue (issued core v s) = .ok w jump t) : vecIssue core op f body s = vecNext core w jump t := by
  rw [vecIssue_of_atPc hr hat, hbody]
  rfl

/-- PC still stands where it stood when a scalar register has been written. -/
theorem vecIssue_of_setX {body : VecState → State → VRes} {w : VecState} {i n : Nat} {t : State}
    (hbody : body v.issue (issued core v s) = .ok (w.setX i n) 1 t) (hpc : w.pc = v.pc) :
    vecIssue core op f body s = vecNext core { w.setX i n with pc := v.pc } 1 t := by
  rw [vecIssue_of_ok hr hat hbody, VecState.setX_eq, ← hpc]

variable (hv : v.wf = true)
include hv

/-- An instruction that writes scalar register D: what the program holds next. -/
theorem scalar_of_pure {g : VecState → VecState} {n : Nat} (hg : g v.issue = v.issue.setX f.d n) :
    ∃ w : VecState, vecPure core op f g s = vecNext core { w with pc := v.pc } 1 (issued core v s)
      ∧ (∀ r, w.xr r = if r = f.d ∧ r ≠ 0 then n % 2 ^ 64 else v.xr r) ∧ w.v = v.v ∧ w.m = v.m ∧ v.Same w := by
  refine ⟨v.issue.setX f.d n, ?_, VecState.xr_setX (VecState.issue_wf hv) f.d n, ?_⟩
  · exact vecIssue_of_setX (body := fun v s => .ok (g v) 1 s) hr hat (congrArg (VRes.ok · _ _) hg) rfl
  · rw [VecState.setX_eq]
    exact ⟨rfl, rfl, rfl, rfl, rfl, rfl, rfl, rfl, hr.wait⟩

/-- An instruction that writes the active lanes of vector register D, and goes on in the state `t`. -/
theorem lanes_of_body {body : VecState → State → VRes} {h g : Nat → Nat} {t : State}
    (hbody : body v.issue (issued core v s) = .ok (v.issue.mapLanes f h) 1 t) (hg : ∀ l, h l % 2 ^ 32 = g l % 2 ^ 32) :
    ∃ w : VecState, vecIssue core op f body s = vecNext core { w with pc := v.pc } 1 t ∧ v.LanesWritten f g w := by
  refine ⟨v.issue.mapLanes f h, ?_, fun r l hl => ?_, ?_⟩
  · rw [vecIssue_of_ok hr hat hbody, VecState.mapLanes_eq]
    rfl
  · rw [← hg l]
    exact VecState.lane_mapLanes (VecState.issue_wf hv) f h hl
  · rw [VecState.mapLanes_eq]
    exact ⟨rfl, rfl, rfl, rfl, rfl, rfl, rfl, rfl, hr.wait⟩

theorem lanes_of_vecLanes {h : VecState → Nat → Nat} {g : Nat → Nat} (hg : ∀ l, h v.issue l % 2 ^ 32 = g l % 2 ^ 32) :
    ∃ w : VecState, vecLanes core op f h s = vecNext core { w with pc := v.pc } 1 (issued core v s) ∧ v.LanesWritten f g w :=
  lanes_of_body (body := fun v s => .ok (v.mapLanes f (h v)) 1 s) hr hat hv rfl hg

/-- An SFU instruction; a student core counts the lanes that took part (R210). -/
theorem lanes_of_vecSfu (n : Nat) :
    ∃ w : VecState, vecSfu core op f n s = vecNext core { w with pc := v.pc } 1
        (if core < 32 then issued core v s else bump Config.tStudent (core - 32) 9 (v.lanes f).length (issued core v s))
      ∧ v.LanesWritten f (fun l => sfuFn n (v.lane f.s1 l)) w := by
  unfold vecSfu
  exact lanes_of_body hr hat hv rfl fun _ => rfl

/-- An instruction that writes mask `i`. -/
theorem mask_of_pure {g : VecState → VecState} {i n : Nat} {p : Nat → Bool} (hg : g v.issue = v.issue.setMask i n) (hp : ∀ l, bitOf n l = p l) :
    ∃ w : VecState, vecPure core op f g s = vecNext core { w with pc := v.pc } 1 (issued core v s)
      ∧ (∀ r l, r < 8 → bitOf (w.mask r) l = if r = i then p l else bitOf (v.mask r) l) ∧ w.x = v.x ∧ w.v = v.v ∧ v.Same w := by
  refine ⟨v.issue.setMask i n, ?_, fun r l h => ?_, rfl, rfl, rfl, rfl, rfl, rfl, rfl, rfl, hr.wait⟩
  · rw [vecPure, vecIssue_of_ok hr hat rfl, hg]
    rfl
  · rw [VecState.mask_setMask (VecState.issue_wf hv) i n h, apply_ite (bitOf · l), hp]
    rfl

end Issue

/-! ### Element accesses that no check refuses -/

section Access
variable {core e : Nat} {f : VecFields} {v : VecState} {s : State}

theorem vecLoad_of_readable {addrs : List Nat} {k : List Nat → VRes}
    (h : ∀ a ∈ addrs, a % e = 0 ∧ vecReadable core a e = true ∧ s.vecSealedAt core a e (s.vecCtx v) = false ∧ s.sramBad core a e = false) :
    vecLoad core e addrs v s k = k (addrs.map fun a => leNat (s.sramRead core a e)) := by
  simp only [imp_and, forall_and] at h
  obtain ⟨halign, hread, hopen, hclean⟩ := h
  have haligned : (addrs.any fun a => a % e != 0) = false := List.any_eq_false.mpr fun a ha => by simp [halign a ha]
  have hreadable : (addrs.all fun a => vecReadable core a e) = true := List.all_eq_true.mpr hread
  have hunsealed : (addrs.any fun a => s.vecSealedAt core a e (s.vecCtx v)) = false := List.any_eq_false.mpr fun a ha => by simp [hopen a ha]
  have hunmarked : (addrs.find? fun a => s.sramBad core a e) = none := List.find?_eq_none.mpr fun a ha => by simp [hclean a ha]
  simp [vecLoad, haligned, hreadable, hunsealed, hunmarked]

theorem vecStore_of_writable {cells : List (Nat × Nat)} (h : ∀ c ∈ cells, c.1 % e = 0 ∧ s.vecWritable core c.1 e = true) :
    vecStore core e cells v s
      = .ok { v with lb := v.lb + e * cells.length } 1 (sramStore core (cells.map fun c => (c.1, leBytes e c.2)) s) := by
  have haligned : (cells.any fun c => c.1 % e != 0) = false := List.any_eq_false.mpr fun c hc => by simp [(h c hc).1]
  have hwritable : (cells.all fun c => s.vecWritable core c.1 e) = true := List.all_eq_true.mpr fun c hc => (h c hc).2
  simp [vecStore, haligned, hwritable]

variable {addr : VecState → Nat → Nat → Nat}

theorem vecLoadLanes_of_readable (he : fmtBytes (f.s3 % 16) = e)
    (h : ∀ l ∈ v.lanes f, addr v e l % e = 0 ∧ vecReadable core (addr v e l) e = true
      ∧ s.vecSealedAt core (addr v e l) e (s.vecCtx v) = false ∧ s.sramBad core (addr v e l) e = false) :
    vecLoadLanes core f addr v s
      = .ok (v.mapLanes f fun l => widen (f.s3 % 16) (leNat (s.sramRead core (addr v e l) e))) 1 s := by
  subst he
  rw [vecLoadLanes, vecLoad_of_readable (List.forall_mem_map.mpr h), List.map_map, ← List.map_prod_left_eq_zip, List.foldl_map]
  rfl

theorem vecStoreLanes_of_writable (he : fmtBytes (f.s3 % 16) = e)
    (h : ∀ l ∈ v.lanes f, addr v e l % e = 0 ∧ s.vecWritable core (addr v e l) e = true) :
    vecStoreLanes core f addr v s = .ok { v with lb := v.lb + e * (v.lanes f).length } 1
      (sramStore core ((v.lanes f).map fun l => (addr v e l, leBytes e (narrow (f.s3 % 16) (v.lane f.d l)))) s) := by
  subst he
  rw [vecStoreLanes, vecStore_of_writable (List.forall_mem_map.mpr h), List.map_map, List.length_map]
  rfl

end Access

/-! ### SETVL, branches, scalar accesses, target ports -/

section Single
variable {core op : Nat} {f : VecFields} {s : State} {v : VecState} (hr : VecRuns core s v)
include hr

theorem execVuSetvl_of_atPc {n : Nat} (hat : VecAtPc core s v 0x02 f) (hn : (if f.imm = 0 then v.xr f.s1 else imm64 f) = n) :
    execVuSetvl core f s = .next (if 1 ≤ n ∧ n ≤ 256 then vecNext core { v.issue with vl := n } 1 (issued core v s)
      else vecIllegal core (issued core v s)) := by
  subst hn
  rw [execVuSetvl, vecIssue_of_atPc hr hat]
  exact congrArg _ (apply_ite (VRes.settle core _) (1 ≤ _ ∧ _ ≤ 256) ..)

theorem vecBranch_of_atPc {taken : VecState → Bool} (hat : VecAtPc core s v op f) :
    vecBranch core op f taken s = if taken v.issue = false then vecNext core v.issue 1 (issued core v s)
      else if 0 ≤ (v.pc : Int) + immInt f ∧ (v.pc : Int) + immInt f < v.len then vecNext core v.issue (immInt f) (issued core v s)
      else vecIllegal core (issued core v s) := by
  rw [vecBranch, vecIssue_of_atPc hr hat]
  cases htaken : taken v.issue
  · rfl
  · exact apply_ite (VRes.settle core _) (0 ≤ _ ∧ _ < _) ..

theorem execVuSld_of_readable (hat : VecAtPc core s v 0x14 f) (halign : v.addr f % 8 = 0) (hreadable : vecReadable core (v.addr f) 8 = true)
    (hopen : (issued core v s).vecSealedAt core (v.addr f) 8 ((issued core v s).vecCtx v) = false)
    (hclean : (issued core v s).sramBad core (v.addr f) 8 = false) :
    execVuSld core f s = .next (vecNext core
      { v.issue.setX f.d (leNat ((issued core v s).sramRead core (v.addr f) 8)) with pc := v.pc } 1 (issued core v s)) := by
  rw [execVuSld]
  refine congrArg _ (vecIssue_of_setX (w := v.issue) hr hat ?_ rfl)
  exact vecLoad_of_readable (v := v.issue) (List.forall_mem_singleton.mpr ⟨halign, hreadable, hopen, hclean⟩)

theorem execVuSst_of_writable (hat : VecAtPc core s v 0x15 f) (halign : v.addr f % 8 = 0)
    (hwritable : (issued core v s).vecWritable core (v.addr f) 8 = true) :
    execVuSst core f s = .next (vecNext core { v.issue with lb := v.lb + 8 } 1
      (sramStore core [(v.addr f, leBytes 8 (v.xr f.s2))] (issued core v s))) := by
  rw [execVuSst]
  refine congrArg _ (vecIssue_of_ok hr hat ?_)
  exact vecStore_of_writable (v := v.issue) (cells := [(v.addr f, v.xr f.s2)]) (List.forall_mem_singleton.mpr ⟨halign, hwritable⟩)

/-! TWAIT at a port without a ring, at one without a record, at one that holds a record (R197). -/

theorem execVuTwait_of_lost (hat : VecAtPc core s v 0x60 f) (hport : (issued core v s).portRing (core - 32) (f.imm % 4) = none) :
    execVuTwait core f s = .next (vecTarget core (issued core v s)) := by
  rw [execVuTwait, vecIssue_of_atPc hr hat]
  simp only [hport, VRes.settle]

theorem execVuTwait_of_no_record {key : Nat} (hat : VecAtPc core s v 0x60 f)
    (hport : (issued core v s).portRing (core - 32) (f.imm % 4) = some key)
    (havail : ((issued core v s).pring (key / 16) (key % 16)).avail = 0) :
    execVuTwait core f s = .next ((issued core v s).updCore core fun c => { c with
      vec := some { v.issue with wait := some (f.imm % 4, f.d) } }) := by
  rw [execVuTwait, vecIssue_of_atPc hr hat]
  simp only [hport, havail, if_true, VRes.settle]

theorem execVuTwait_of_record {key : Nat} (hat : VecAtPc core s v 0x60 f)
    (hport : (issued core v s).portRing (core - 32) (f.imm % 4) = some key)
    (havail : ((issued core v s).pring (key / 16) (key % 16)).avail ≠ 0) :
    execVuTwait core f s = .next (vecNext core { (twaitTake core (f.imm % 4) key f.d v.issue (issued core v s)).1 with pc := v.pc } 1
      (twaitTake core (f.imm % 4) key f.d v.issue (issued core v s)).2) := by
  rw [execVuTwait]
  refine congrArg _ (vecIssue_of_setX hr hat ?_ rfl)
  simp only [hport, havail, if_false]
  rfl

/-- TPOP where no record is present: the port has lost its ring, or the ring holds none (R197). -/
theorem execVuTpop_of_no_record (hat : VecAtPc core s v 0x61 f)
    (h : ∀ key, (issued core v s).portRing (core - 32) (f.imm % 4) = some key → ((issued core v s).pring (key / 16) (key % 16)).avail = 0) :
    execVuTpop core f s = .next (vecTarget core (issued core v s)) := by
  rw [execVuTpop, vecIssue_of_atPc hr hat]
  cases hport : (issued core v s).portRing (core - 32) (f.imm % 4) with
  | none => simp only [VRes.settle]
  | some key => simp only [h key hport, if_true, VRes.settle]

theorem execVuTpop_of_record {key : Nat} (hat : VecAtPc core s v 0x61 f)
    (hport : (issued core v s).portRing (core - 32) (f.imm % 4) = some key)
    (havail : ((issued core v s).pring (key / 16) (key % 16)).avail ≠ 0) :
    execVuTpop core f s = .next (vecNext core v.issue 1 (popPort (core - 32) (f.imm % 4) key (issued core v s))) := by
  rw [execVuTpop, vecIssue_of_atPc hr hat]
  simp only [hport, havail, if_false, VRes.settle]

end Single

/-! ### The end of an instruction -/

/-- No issue limit holds a program of a teacher core, nor one below it. -/
theorem vecNext_of_below {core : Nat} {v : VecState} {s : State} (jump : Int)
    (h : core < 32 ∨ s.setting Config.tStudent (core - 32) 3 4096 = 0 ∨ v.issued < s.setting Config.tStudent (core - 32) 3 4096 * 2 ^ 20) :
    vecNext core v jump s = vecSettle core (s.updCore core fun c => { c with vec := some { v with pc := (v.pc + jump).toNat } }) := by
  unfold vecNext
  refine if_neg ?_
  by_cases hcore : core < 32
  · simp [hcore]
  · simp only [hcore, if_false, false_or, Bool.and_eq_true, decide_eq_true_eq] at h ⊢
    omega

theorem vecNext_of_limit {core : Nat} {v : VecState} {s : State} (jump : Int) (hcore : 32 ≤ core)
    (hlimit : s.setting Config.tStudent (core - 32) 3 4096 ≠ 0) (h : s.setting Config.tStudent (core - 32) 3 4096 * 2 ^ 20 ≤ v.issued) :
    vecNext core v jump s = vecEnd core 0x113 10 (some 7) none 0 (s.updCore core fun c => { c with vec := some v }) := by
  unfold vecNext
  rw [if_neg (Nat.not_lt.mpr hcore)]
  exact if_pos (by simpa only [Bool.and_eq_true, decide_eq_true_eq] using ⟨hlimit, h⟩)

/-! ### TWAIT_WAKE (R197) -/

section Wake
variable {core : Nat} {s : State}

theorem execTwaitWake_of_record {port d key : Nat} {v : VecState} (hlive : s.isFatal = false) (hvec : (s.core core).vec = some v)
    (hwait : v.wait = some (port, d)) (hport : s.portRing (core - 32) port = some key) (havail : (s.pring (key / 16) (key % 16)).avail ≠ 0) :
    execTwaitWake core s = .next (vecNext core (twaitTake core port key d v s).1 1
      (spent Config.tStudent (core - 32) [10] (twaitTake core port key d v s).2)) := by
  simp [execTwaitWake, hlive, hvec, hwait, hport, havail]

theorem execTwaitWake_of_no_record {port d key : Nat} {v : VecState} (hlive : s.isFatal = false) (hvec : (s.core core).vec = some v)
    (hwait : v.wait = some (port, d)) (hport : s.portRing (core - 32) port = some key) (havail : (s.pring (key / 16) (key % 16)).avail = 0) :
    execTwaitWake core s = .next s := by
  simp [execTwaitWake, hlive, hvec, hwait, hport, havail]

theorem execTwaitWake_of_lost {port d : Nat} {v : VecState} (hlive : s.isFatal = false) (hvec : (s.core core).vec = some v)
    (hwait : v.wait = some (port, d)) (hport : s.portRing (core - 32) port = none) : execTwaitWake core s = .next (vecTarget core s) := by
  simp [execTwaitWake, hlive, hvec, hwait, hport]

theorem execTwaitWake_of_kd {v : KdState} {c : Cur} (hlive : s.isFatal = false) (hvec : (s.core core).vec = none)
    (hkd : (s.core core).kd = some v) (hcur : (s.ring v.ring).cur = some c) :
    execTwaitWake core s = .next (kdRun core (kdRows c.desc + 1) (spent Config.tStudent (core - 32) [10] s)) := by
  simp [execTwaitWake, hlive, hvec, hkd, hcur]

end Wake

/-- Settles O48: the instructions at PC by their families (scalar, lane-wise, SFU, loads, stores, branches, masks) and one by one, each through what
`vecIssue` does with the word at PC of a program that runs. -/
theorem vectorInstructions : Obligations.VectorInstructions := by
  unfold Obligations.VectorInstructions
  refine ⟨fun core f s v hvec hwait hlive hv hread => ?instructions, fun core port d s v hlive hvec hwait => ?wake,
    fun core s v c => execTwaitWake_of_kd, fun core v jump s => ⟨vecNext_of_below jump, vecNext_of_limit jump⟩⟩
  case wake =>
    exact ⟨fun key => execTwaitWake_of_record hlive hvec hwait, fun key => execTwaitWake_of_no_record hlive hvec hwait,
      execTwaitWake_of_lost hlive hvec hwait⟩
  case instructions =>
    have hr : VecRuns core s v := ⟨hvec, hwait, hlive, hread⟩
    intro at_ v1 s1 goes same e
    refine ⟨fun x hx hat => ?scalars, fun x hx hat => ?lanes, fun x hx hat => ?sfu, fun x hx hat hok => ?loads, fun x hx hat hok => ?stores,
      fun hat halign hreadable hopen hclean => ?sld, fun hat halign hwritable => ?sst, fun hat => ?nop, fun hat => ?halt,
      fun hat => ?setvl, fun x hx hat => ?branches, fun x hx hat hm => ?masks, fun hat => ?twait, fun hat => ?tpop, fun hat => ?tcount⟩
    case scalars =>
      have hexec : ∃ g, exec x.1 s = .next (vecPure core x.2.1 f g s) ∧ g v.issue = v.issue.setX f.d x.2.2 := by
        simp only [List.mem_cons, List.not_mem_nil, or_false] at hx
        rcases hx with rfl | rfl | rfl | rfl | rfl | rfl | rfl | rfl
        iterate 5 exact ⟨_, rfl, rfl⟩
        iterate 2 exact ⟨_, rfl, congrArg _ (VecState.issue_tree ..)⟩
        exact ⟨_, rfl, rfl⟩
      obtain ⟨g, hexec, hg⟩ := hexec
      obtain ⟨w, hw, hregs⟩ := scalar_of_pure hr hat hv hg
      exact ⟨w, hexec.trans (congrArg _ hw), hregs⟩
    case lanes =>
      have hexec : ∃ g, exec x.1 s = .next (vecLanes core x.2.1 f g s) ∧ ∀ l, g v.issue l % 2 ^ 32 = x.2.2 l % 2 ^ 32 := by
        simp only [List.mem_cons, List.not_mem_nil, or_false] at hx
        rcases hx with rfl | rfl | rfl | rfl | rfl | rfl | rfl | rfl | rfl | rfl | rfl | rfl | rfl | rfl | rfl | rfl
        all_goals refine ⟨_, rfl, fun l => ?_⟩
        -- the model cuts VBCAST, VIDX and VIADD to 32 bits itself; the other values are the stated ones
        any_goals rfl
        all_goals exact Nat.mod_mod _ _
      obtain ⟨g, hexec, hg⟩ := hexec
      obtain ⟨w, hw, hregs⟩ := lanes_of_vecLanes hr hat hv hg
      exact ⟨w, hexec.trans (congrArg _ hw), hregs⟩
    case sfu =>
      have hexec : ∃ n, exec x.1 s = .next (vecSfu core x.2.1 f n s) ∧ ∀ l, x.2.2 l = sfuFn n (v.lane f.s1 l) := by
        simp only [List.mem_cons, List.not_mem_nil, or_false] at hx
        rcases hx with rfl | rfl | rfl | rfl | rfl | rfl | rfl <;> exact ⟨_, rfl, fun _ => rfl⟩
      obtain ⟨n, hexec, hg⟩ := hexec
      obtain ⟨w, hw, hregs⟩ := lanes_of_vecSfu hr hat hv n
      simp only [hg]
      exact ⟨w, hexec.trans (congrArg _ hw), hregs⟩
    case loads =>
      have hexec : ∃ addr, exec x.1 s = .next (vecIssue core x.2.1 f (vecLoadLanes core f addr) s) ∧ ∀ l, addr v1 e l = x.2.2 l := by
        simp only [List.mem_cons, List.not_mem_nil, or_false] at hx
        rcases hx with rfl | rfl <;> exact ⟨_, rfl, fun _ => rfl⟩
      obtain ⟨addr, hexec, haddr⟩ := hexec
      simp only [← haddr] at hok ⊢
      obtain ⟨w, hw, hregs⟩ := lanes_of_body hr hat hv (vecLoadLanes_of_readable rfl hok) fun _ => rfl
      exact ⟨w, hexec.trans (congrArg _ hw), hregs⟩
    case stores =>
      have hexec : ∃ addr, exec x.1 s = .next (vecIssue core x.2.1 f (vecStoreLanes core f addr) s) ∧ ∀ l, addr v1 e l = x.2.2 l := by
        simp only [List.mem_cons, List.not_mem_nil, or_false] at hx
        rcases hx with rfl | rfl <;> exact ⟨_, rfl, fun _ => rfl⟩
      obtain ⟨addr, hexec, haddr⟩ := hexec
      simp only [← haddr] at hok ⊢
      rw [hexec, vecIssue_of_atPc hr hat, vecStoreLanes_of_writable rfl hok]
      rfl
    case sld => exact execVuSld_of_readable hr hat halign hreadable hopen hclean
    case sst => exact execVuSst_of_writable hr hat halign hwritable
    case nop => exact congrArg _ (vecIssue_of_ok hr hat rfl)
    case halt => exact congrArg _ (vecIssue_of_atPc hr hat _)
    case setvl => exact execVuSetvl_of_atPc hr hat rfl
    case branches =>
      have hexec : ∃ taken, exec x.1 s = .next (vecBranch core x.2.1 f taken s) ∧ taken v.issue = x.2.2 := by
        simp only [List.mem_cons, List.not_mem_nil, or_false] at hx
        rcases hx with rfl | rfl | rfl <;> exact ⟨_, rfl, rfl⟩
      obtain ⟨taken, hexec, htaken⟩ := hexec
      rw [hexec, vecBranch_of_atPc hr hat, htaken]
      rfl
    case masks =>
      have hexec : ∃ g n, exec x.1 s = .next (vecPure core x.2.1 f g s)
          ∧ g v.issue = v.issue.setMask x.2.2.1 n ∧ ∀ l, bitOf n l = x.2.2.2 l := by
        simp only [List.mem_cons, List.not_mem_nil, or_false] at hx
        rcases hx with rfl | rfl | rfl
        · exact ⟨_, _, rfl, rfl, v.bitOf_cmpMask f⟩
        · exact ⟨_, _, rfl, rfl, bitOf_land _ _⟩
        · exact ⟨_, _, rfl, rfl, bitOf_complement (hm f.s1)⟩
      obtain ⟨g, n, hexec, hg, hn⟩ := hexec
      obtain ⟨w, hw, hregs⟩ := mask_of_pure hr hat hv hg hn
      exact ⟨w, hexec.trans (congrArg _ hw), hregs⟩
    case twait =>
      cases hport : s1.portRing (core - 32) (f.imm % 4) with
      | none => exact execVuTwait_of_lost hr hat hport
      | some key =>
        dsimp only
        split
        next havail => exact execVuTwait_of_no_record hr hat hport havail
        next havail => exact execVuTwait_of_record hr hat hport havail
    case tpop =>
      cases hport : s1.portRing (core - 32) (f.imm % 4) with
      | none => exact execVuTpop_of_no_record hr hat fun key hkey => by cases hport.symm.trans hkey
      | some key =>
        dsimp only
        split
        next havail => exact execVuTpop_of_no_record hr hat fun key' hkey => by cases hport.symm.trans hkey; exact havail
        next havail => exact execVuTpop_of_record hr hat hport havail
    case tcount =>
      refine congrArg _ (vecIssue_of_setX (w := v.issue) hr hat ?_ rfl)
      rfl

end Sys2Proof.Machine
end

section
/-! PROOFS for 07_student_engine.md: student passes, the KD loss, vector tasks and drains. -/

namespace Sys2Proof.Machine
open Sys2Proof

/-! ### Taking up a pass (R133, R185, R188, R206) -/

/-- The descriptor `d` at the head of ring `j`, slot `ix`, is a pass of opcode `op` that its student core may take up: the ring has its turn, and no
pass waits for its drain. -/
structure MayTakeStudentPass (j op ix : Nat) (d : Bytes) (s : State) : Prop where
  head : s.headOf j op = some (ix, d)
  student : (s.ring j).unitType = Config.tStudent
  turn : s.mayRun j 1 (s.setting Config.tStudent (s.ring j).unitInst 1 0 == 1) (fun _ => true) = true
  drained : (s.core (32 + (s.ring j).unitInst)).drain = none
  notClearing : (s.core (32 + (s.ring j).unitInst)).clearing = false

/-- What becomes of a pass that the core may take up. `k` is the core, `pl` the plan of the pass; the branches come in the order of the checks. -/
theorem sePassTake_of_mayTake {j op ix k : Nat} {d : Bytes} {plan : Nat → Bytes → List (List (List Nat)) → State → Plan} {s : State} {pl : Plan}
    (h : MayTakeStudentPass j op ix d s) (hk : 32 + (s.ring j).unitInst = k) (hpl : plan k d (s.heldAcc k) s = pl) :
    sePassTake j op plan s =
      if s.paneFmtBad Config.tStudent k d then refuse j ix d 0x108 s
      else (seCheck k d s pl).elim
        (if chainBreaks (s.core k).chain j d (if op = 0x12 then 0 else tStart d) (op != 0x12 && tHold d) seChain then
          coreAbort j ix d 0x113 4 3 none 0 s
        else (s.firstMarked k pl.reads).elim (runPass j ix k d pl (op != 0x12 && tHold d) s) fun m => markedAbort j ix k d m s)
        fun st => failArg j ix d st s := by
  obtain ⟨hhead, hty, hturn, hdrain, hclear⟩ := h
  subst hk hpl
  simp only [sePassTake, hhead, hty, hturn, hdrain, hclear]
  rw [if_neg (by simp)]
  refine ite_congr rfl (fun _ => rfl) fun _ => ?_
  split
  next c hc => rw [hc, Option.elim_some]
  next hc =>
    rw [hc, Option.elim_none]
    refine ite_congr rfl (fun _ => rfl) fun _ => ?_
    split
    next m hm => rw [hm, Option.elim_some]
    next hm => rw [hm, Option.elim_none]

/-! ### SE_KD_LOSS (R199, R200) -/

theorem execSeKdLoss_of_good {j ix k : Nat} {d : Bytes} {s : State} (hk : 32 + (s.ring j).unitInst = k) (hhead : s.headOf j 0x21 = some (ix, d))
    (hty : (s.ring j).unitType = Config.tStudent)
    (hturn : s.mayRun j 2 (s.setting Config.tStudent (s.ring j).unitInst 1 0 == 1) (fun _ => true) = true)
    (hvec : (s.core k).vec = none) (hkd : (s.core k).kd = none) (hclear : (s.core k).clearing = false) (hcheck : kdCheck k d s = none)
    (hchain : s.chainHeld k j = false) (hmarked : s.firstMarked k (kdLabels d) = none) :
    execSeKdLoss j s = .next (kdRun k (kdRows d + 1) ((served j (begin j ix d s)).updCore k fun c => { c with
      kd := some { ring := j, row := 0, nonfin := 0, floored := 0, lb := 0 } })) := by
  subst hk
  simp [execSeKdLoss, hhead, hty, hturn, hvec, hkd, hclear, hcheck, hchain, hmarked]

/-- A row of the loss is worked on once its record is present. -/
theorem kdRun_succ_of_record {core key : Nat} (n : Nat) {s : State} {v : KdState} {c : Cur} (hkd : (s.core core).kd = some v)
    (hcur : (s.ring v.ring).cur = some c) (hrow : v.row < kdRows c.desc) (hport : s.portRing (core - 32) (kdPort c.desc) = some key)
    (havail : (s.pring (key / 16) (key % 16)).avail ≠ 0) : kdRun core (n + 1) s = kdRun core n (kdStep core key c.desc v s) := by
  rw [kdRun]
  simp [hkd, hcur, Nat.ne_of_lt hrow, hport, havail]

/-! ### Vector tasks (R144, R192, R205) -/

theorem vecTask_of_good {ty j ix k : Nat} {lowest : Bool} {d : Bytes} {s : State}
    (hk : (if ty = Config.tTeacher then (s.ring j).unitInst else 32 + (s.ring j).unitInst) = k) (hhead : s.headOf j 0x20 = some (ix, d))
    (hty : (s.ring j).unitType = ty) (hturn : s.mayRun j 2 lowest (fun _ => true) = true) (hvec : (s.core k).vec = none)
    (hkd : (s.core k).kd = none) (hclear : (s.core k).clearing = false) (hlen : field d 11 2 ≠ 0)
    (hread : sramReadable k (64 * field d 8 3) (8 * field d 11 2) = true) (hchain : s.chainHeld k j = false) :
    vecTask ty j lowest s = vecSettle k ((served j (begin j ix d s)).updCore k fun c => { c with
      vec := some (vecStart j ix (s.ring j).unitInst d (64 * field d 8 3)) }) := by
  subst hk
  simp [vecTask, hhead, hty, hturn, hvec, hkd, hclear, hlen, hread, hchain]

/-! ### The drain of a pass (R133) -/

/-- The rows of a pass of core `k` stand in its SRAM, and the counters of its unit have been told: what the pass counts, and its values that are
not finite. -/
def drainLanded (k ty inst : Nat) (dr : Drain) (s : State) : State :=
  bump ty inst (if ty = Config.tTeacher then 8 else 5) dr.nonfin
    (dr.counts.foldl (fun a c => bump ty inst c.1 c.2 a)
      (dr.writes.foldl (fun a w => sramWrite k w.1 w.2 a) (s.updCore k fun x => { x with drain := none })))

section Drain
variable {j k ty inst : Nat} {c : Cur} {dr : Drain} {s : State}

theorem execArrayPassDrainComplete_of_finite (hty : (s.ring j).unitType = ty) (hinst : (s.ring j).unitInst = inst)
    (hcore : unitCore ty inst = some k) (hcur : (s.ring j).cur = some c) (hdrain : (s.core k).drain = some dr) (hring : dr.ring = j)
    (hphase : c.phase = 0) (hlive : s.isFatal = false) (hfin : dr.nonfin = 0) :
    execArrayPassDrainComplete j s = .next (finish j 0 (dr.writes.map fun w => w.2.length).sum
      (coreDetail 0 (modeByte ty c.desc) 0 0 dr.cycles dr.gated) (drainLanded k ty inst dr s)) := by
  subst hty hinst
  simp [execArrayPassDrainComplete, drainLanded, hcore, hcur, hdrain, hring, hphase, hlive, hfin]

/-- Values that are not finite leave an error in the unit, and end the task where its setting says so. -/
theorem execArrayPassDrainComplete_of_nonfinite {e : State} (hty : (s.ring j).unitType = ty) (hinst : (s.ring j).unitInst = inst)
    (hcore : unitCore ty inst = some k) (hcur : (s.ring j).cur = some c) (hdrain : (s.core k).drain = some dr) (hring : dr.ring = j)
    (hphase : c.phase = 0) (hlive : s.isFatal = false) (hnonfin : dr.nonfin ≠ 0)
    (he : setErr ty inst 2 j c.index 1 (drainLanded k ty inst dr s) = e) :
    execArrayPassDrainComplete j s = .next (finish j (if e.setting ty inst (if ty = Config.tTeacher then 3 else 2) 0 = 1 then 0x113 else 0)
      (dr.writes.map fun w => w.2.length).sum
      (coreDetail (if e.setting ty inst (if ty = Config.tTeacher then 3 else 2) 0 = 1 then 1 else 0) (modeByte ty c.desc) 0 dr.nonfin dr.cycles
        dr.gated) e) := by
  subst hty hinst
  unfold drainLanded at he
  by_cases hstop : e.setting (s.ring j).unitType (s.ring j).unitInst (if (s.ring j).unitType = Config.tTeacher then 3 else 2) 0 = 1 <;>
    simp [execArrayPassDrainComplete, hcore, hcur, hdrain, hring, hphase, hlive, hnonfin, he, hstop]

end Drain

/-- Settles O47: a pass, a KD loss and a vector task that the core may take up run as the checks in front of them say, and the drain of a pass tells
of its non-finite values. -/
theorem studentPassesAndDrains : Obligations.StudentPassesAndDrains := by
  unfold Obligations.StudentPassesAndDrains
  refine ⟨fun x hx j ix d s => ?passes, fun j ix d s => execSeKdLoss_of_good rfl, fun core key n s v c => kdRun_succ_of_record n,
    fun x hx j ix d s => ?vector, fun j k c dr s => ?drain⟩
  case passes =>
    intro i k pl hold hhead hty hturn hdrain hclear
    have hexec : exec (x.1 j) s = .next (sePassTake j x.2.1 x.2.2 s) := by
      simp only [List.mem_cons, List.not_mem_nil, or_false] at hx
      rcases hx with rfl | rfl <;> rfl
    rw [hexec, sePassTake_of_mayTake (k := k) (pl := pl) ⟨hhead, hty, hturn, hdrain, hclear⟩ rfl rfl]
    refine ⟨fun hf => ?_, fun hf => ⟨fun hc hb => ?_, fun hc hb => ?_, fun st hc => ?_⟩⟩
    · rw [if_pos hf]
    · rw [hf, hc, Option.elim_none, hb]
      cases s.firstMarked k pl.reads <;> rfl
    · rw [hf, hc, Option.elim_none, hb]
      rfl
    · rw [hf, hc]
      rfl
  case vector =>
    intro i k hhead hty hturn hvec hkd hclear hlen hread hchain
    have hexec : exec (x.1 j) s = .next (vecTask x.2.1 j (s.setting x.2.1 i x.2.2.1 0 == 1) s)
        ∧ (if x.2.1 = Config.tTeacher then i else 32 + i) = k := by
      simp only [List.mem_cons, List.not_mem_nil, or_false] at hx
      rcases hx with rfl | rfl
      · exact ⟨rfl, (Nat.zero_add i).symm⟩
      · exact ⟨rfl, rfl⟩
    obtain ⟨hexec, hk⟩ := hexec
    rw [hexec, vecTask_of_good hk hhead hty hturn hvec hkd hclear hlen hread hchain]
  case drain =>
    intro r ty te w u lb hcore hcur hdrain hring hphase hlive
    refine ⟨fun hfin => ?_, fun hnonfin => ?_⟩
    · exact execArrayPassDrainComplete_of_finite rfl rfl hcore hcur hdrain hring hphase hlive hfin
    · exact execArrayPassDrainComplete_of_nonfinite rfl rfl hcore hcur hdrain hring hphase hlive hnonfin rfl

end Sys2Proof.Machine
end

section
/-! PROOFS for 08_scaler.md: the tasks of a Scaler, and what they compute of a tensor and a slot. -/

namespace Sys2Proof.Machine
open Sys2Proof

/-! ### Taking up a task (R146, R221, R226–R228, R230) -/

/-- The descriptor `d` at the head of ring `j`, slot `ix`, is a task of opcode `op` that its Scaler may take up: the ring has its turn. -/
structure MayTakeScalerTask (j op ix : Nat) (d : Bytes) (s : State) : Prop where
  head : s.headOf j op = some (ix, d)
  scaler : (s.ring j).unitType = Config.tScaler
  turn : s.mayRun j 1 (s.setting Config.tScaler (s.ring j).unitInst 2 0 == 1) (fun _ => true) = true

/-- What becomes of a task that the Scaler may take up. `k` is the core, `b` the bytes of the slot; the branches come in the order of the checks. -/
theorem sclTask_of_mayTake {j op ix k : Nat} {d b : Bytes} {run : Nat → Nat → Nat → Bytes → Bytes → State → State} {s : State}
    (h : MayTakeScalerTask j op ix d s) (hk : (s.ring j).unitInst = k) (hb : s.sramRead k (qSlotAt d) 128 = b) :
    sclTask j op run s =
      (qCheck k d s).elim
        ((s.firstMarked k (qSlotRuns d)).elim
          (if !qNoSlot d && !slotOk b then
            failCheck j ix d 0x108 (leBytes 1 9 ++ zeros 23) false (setErr Config.tScaler k 3 j ix 9 s)
          else (s.firstMarked k [qInRun d]).elim (run j ix k d b s) fun m =>
            sclMarked j ix d m (if qNoSlot d then 0 else byteOf (slotParse b).sigma) s)
          fun m => sclMarked j ix d m 0 s)
        fun st => failArg j ix d st s := by
  obtain ⟨hhead, hty, hturn⟩ := h
  subst hk hb
  simp only [sclTask, hhead, hty, hturn]
  rw [if_neg (by simp)]
  split
  next st hc => rw [hc, Option.elim_some]
  next hc =>
    rw [hc, Option.elim_none]
    split
    next m hm => rw [hm, Option.elim_some]
    next hm =>
      rw [hm, Option.elim_none]
      refine ite_congr rfl (fun _ => rfl) fun _ => ?_
      split
      next m hi => rw [hi, Option.elim_some]
      next hi => rw [hi, Option.elim_none]

/-- A task without a slot, or with one that keeps R221, passes the check of its slot. -/
theorem slotRefused_eq_false {d b : Bytes} (h : qNoSlot d = true ∨ slotOk b = true) : (!qNoSlot d && !slotOk b) = false := by
  rcases h with h | h <;> simp [h]

/-! ### Statistics (R216) -/

/-- amax is the maximum of the finite magnitudes, 0 when there is none. -/
theorem amaxOf_eq_max? (xs : List Nat) :
    amaxOf xs = ((xs.filter fun x => !fNonFinite x).map fun x => x % 2 ^ 31).max?.getD 0 := by
  rw [← Nat.zero_max (Option.getD _ 0), ← List.foldl_max, List.foldl_map, List.foldl_filter, amaxOf]
  congr 1
  funext a x
  cases fNonFinite x <;> rfl

/-- amax is an upper bound of the finite magnitudes. -/
theorem le_amaxOf {xs : List Nat} {x : Nat} (hx : x ∈ xs) (hfin : fNonFinite x = false) : x % 2 ^ 31 ≤ amaxOf xs := by
  rw [amaxOf_eq_max?]
  refine List.le_max?_getD_of_mem (List.mem_map.mpr ⟨x, List.mem_filter.mpr ⟨hx, ?_⟩, rfl⟩)
  rw [hfin]
  rfl

/-- amax is one of the finite magnitudes, or 0. -/
theorem amaxOf_attained (xs : List Nat) : amaxOf xs = 0 ∨ ∃ x ∈ xs, fNonFinite x = false ∧ x % 2 ^ 31 = amaxOf xs := by
  rw [amaxOf_eq_max?]
  generalize hmax : List.max? (α := Nat) _ = top
  cases top with
  | none => exact .inl rfl
  | some a =>
    obtain ⟨x, hx, hxa⟩ := List.mem_map.mp (List.max?_mem hmax)
    obtain ⟨hx, hfin⟩ := List.mem_filter.mp hx
    exact .inr ⟨x, hx, (Bool.not_eq_true' _).mp hfin, hxa⟩

/-! ### The exponent that a magnitude needs (R217) -/

/-- The value of a finite fp32 pattern without a sign (R100). -/
theorem ofF32_of_finite {a : Nat} (hfin : a < 0x7F800000) :
    ofF32 a = if a / 2 ^ 23 = 0 then .fin false (a % 2 ^ 23) (1 - 127 - 23)
      else .fin false (a % 2 ^ 23 + 2 ^ 23) (((a / 2 ^ 23 : Nat) : Int) - 127 - 23) := by
  have hsign : bitOf a (8 + 23) = false := by rw [bitOf, Nat.div_eq_of_lt (by omega)]; rfl
  have hmag : a % 2 ^ (8 + 23) = a := Nat.mod_eq_of_lt (by omega)
  have hexp : a / 2 ^ 23 ≠ 2 ^ 8 - 1 := by omega
  simp only [ofF32, Fmt.value, fmt32, Fmt.signBit, hsign, hmag, if_neg hexp]
  rfl

/-- A positive finite fp32 pattern stands for m · 2^e with m > 0. -/
theorem ofF32_of_pos_of_finite {a : Nat} (hpos : 0 < a) (hfin : a < 0x7F800000) :
    ∃ (m : Nat) (e : Int), ofF32 a = .fin false m e ∧ m ≠ 0 := by
  rw [ofF32_of_finite hfin]
  split
  · exact ⟨_, _, rfl, by omega⟩
  · exact ⟨_, _, rfl, by omega⟩

theorem needExp_of_fin {fmt a m : Nat} {neg : Bool} {e : Int} (h : ofF32 a = .fin neg m e) :
    needExp fmt a + fmaxExp fmt = (m.log2 : Int) + e - (if 4 * m ≤ 7 * 2 ^ m.log2 then 2 else 1) := by
  rw [needExp, h]
  dsimp only
  split <;> omega

/-- A power of two goes from the exponent into the factor. -/
theorem mul_two_zpow_natCast_add (c k : Nat) (n : Int) : (c : Rat) * 2 ^ ((k : Int) + n) = ((c * 2 ^ k : Nat) : Rat) * 2 ^ n := by
  rw [Rat.zpow_add (by decide), Rat.zpow_natCast, Rat.natCast_mul, Rat.natCast_pow, Rat.mul_assoc]
  rfl

theorem mul_two_zpow_le {p q : Nat} (h : p ≤ q) (n : Int) : (p : Rat) * 2 ^ n ≤ q * 2 ^ n :=
  Rat.mul_le_mul_of_nonneg_right (Rat.natCast_le_natCast.mpr h) (Rat.zpow_nonneg (by decide))

theorem mul_two_zpow_lt {p q : Nat} (h : p < q) (n : Int) : (p : Rat) * 2 ^ n < q * 2 ^ n :=
  Rat.mul_lt_mul_of_pos_right (Rat.natCast_lt_natCast.mpr h) (Rat.zpow_pos (by decide))

/-- FMAX of an fp8 format (R215) is 7 · 2^`fmaxExp`. -/
theorem fmax_mul_two_zpow {fmt : Nat} (hfmt : fmt = 3 ∨ fmt = 4) (n : Int) :
    (if fmt = 3 then (448 : Rat) else 57344) * 2 ^ n = (7 : Nat) * 2 ^ (n + fmaxExp fmt) := by
  rw [Int.add_comm]
  rcases hfmt with rfl | rfl
  · exact (mul_two_zpow_natCast_add 7 6 n).symm
  · exact (mul_two_zpow_natCast_add 7 13 n).symm

/-- The smallest 7 · 2^n that is not below m · 2^e: m stands between two powers of two, and on one side of 7/4 of the lower. All are compared as
multiples of 2^(e − 3). -/
theorem le_seven_mul_two_zpow_and_lt {m : Nat} (e : Int) (hm : m ≠ 0) :
    (m : Rat) * 2 ^ e ≤ (7 : Nat) * 2 ^ ((m.log2 : Int) + e - (if 4 * m ≤ 7 * 2 ^ m.log2 then 2 else 1))
    ∧ (7 : Nat) * 2 ^ ((m.log2 : Int) + e - (if 4 * m ≤ 7 * 2 ^ m.log2 then 2 else 1) - 1) < (m : Rat) * 2 ^ e := by
  have hlow : 2 ^ m.log2 ≤ m := Nat.log2_self_le hm
  have hhigh : m < 2 ^ (m.log2 + 1) := Nat.lt_log2_self
  have hval : (m : Rat) * 2 ^ e = ((m * 2 ^ 3 : Nat) : Rat) * 2 ^ (e - 3) := by
    rw [← mul_two_zpow_natCast_add, show ((3 : Nat) : Int) + (e - 3) = e by omega]
  have hseven (k : Nat) {n : Int} (hn : n = ((m.log2 + k : Nat) : Int) + (e - 3)) :
      ((7 : Nat) : Rat) * 2 ^ n = ((7 * (2 ^ m.log2 * 2 ^ k) : Nat) : Rat) * 2 ^ (e - 3) := by
    rw [hn, mul_two_zpow_natCast_add, Nat.pow_add]
  rw [hval]
  split
  next h =>
    rw [hseven 1 (by omega), hseven 0 (by omega)]
    exact ⟨mul_two_zpow_le (by omega) _, mul_two_zpow_lt (by omega) _⟩
  next h =>
    rw [hseven 2 (by omega), hseven 1 (by omega)]
    exact ⟨mul_two_zpow_le (by omega) _, mul_two_zpow_lt (by omega) _⟩

/-! ### The history of a slot (R219, R224) -/

/-- Read after write in a list, at the index written and elsewhere. -/
theorem nth_set_self {α : Type} {l : List α} {i : Nat} (a d : α) (h : i < l.length) : nth (l.set i a) i d = a := by
  simp [nth, h]

theorem nth_set_of_ne {α : Type} {l : List α} {i k : Nat} (a d : α) (h : k ≠ i) : nth (l.set i a) k d = nth l k d := by
  simp [nth, List.getD_eq_getElem?_getD, List.getElem?_set_ne h.symm]

@[simp] theorem slotPush_pos (fmt a : Nat) (sl : Slot) : (slotPush fmt a sl).pos = (sl.pos + 1) % 16 := rfl

theorem nth_slotPush_hist_self (fmt : Nat) {a : Nat} {sl : Slot} (hlen : sl.hist.length = 16) (hpos : sl.pos < 16) :
    nth (slotPush fmt a sl).hist sl.pos 0 = a :=
  nth_set_self a 0 (hlen ▸ hpos)

theorem nth_slotPush_hist_of_ne (fmt a : Nat) {sl : Slot} {i : Nat} (h : i ≠ sl.pos) : nth (slotPush fmt a sl).hist i 0 = nth sl.hist i 0 :=
  nth_set_of_ne a 0 h

/-- With a history of one, the σ of a slot comes from the amax that was pushed. -/
theorem slotPush_sigma_of_len_one {fmt a : Nat} {sl : Slot} (hlen : sl.hist.length = 16) (hpos : sl.pos < 16) (hone : sl.len = 1) :
    (slotPush fmt a sl).sigma = if a = 0 then sl.sigma else clampInt (-126) 127 (needExp fmt a + sl.margin) := by
  have hlast : ((sl.pos + 1) % 16 + 15) % 16 = sl.pos := by omega
  have hnew : nth (sl.hist.set sl.pos a) sl.pos 0 = a := nth_slotPush_hist_self fmt hlen hpos
  simp [slotPush, sigmaNext, hone, hlast, hnew, maxOf]

/-- Settles O49: a task is taken up by the checks in their order, amax is a largest element, a code comes from where the magnitude stands between
two powers of two, and a push writes one place of the history. -/
theorem scalerTasks : Obligations.ScalerTasks := by
  unfold Obligations.ScalerTasks
  refine ⟨fun x hx j ix d s => ?tasks, fun xs => ⟨fun x => le_amaxOf, amaxOf_attained xs⟩, fun fmt a hfmt hpos hfin => ?code,
    fun fmt a sl hlen hpos => ⟨slotPush_pos .., nth_slotPush_hist_self fmt hlen hpos, fun i => nth_slotPush_hist_of_ne fmt a,
      slotPush_sigma_of_len_one hlen hpos⟩⟩
  case tasks =>
    intro k b hhead hty hturn
    have hexec : exec (x.1 j) s = .next (sclTask j x.2.1 x.2.2 s) := by
      simp only [List.mem_cons, List.not_mem_nil, or_false] at hx
      rcases hx with rfl | rfl <;> rfl
    rw [hexec, sclTask_of_mayTake (k := k) (b := b) ⟨hhead, hty, hturn⟩ rfl rfl]
    refine ⟨fun hc hs => ⟨fun hok hi => ?_, fun hno hbad => ?_⟩, fun st hc => ?_, fun m hc hs => ?_, fun m hc hs hok hi => ?_⟩
    · rw [hc, hs, hi, slotRefused_eq_false hok]
      rfl
    · rw [hc, hs, hno, hbad]
      rfl
    · rw [hc, Option.elim_some]
    · rw [hc, hs]
      rfl
    · rw [hc, hs, hi, slotRefused_eq_false hok]
      rfl
  case code =>
    obtain ⟨m, e, hval, hm⟩ := ofF32_of_pos_of_finite hpos hfin
    obtain ⟨hle, hlt⟩ := le_seven_mul_two_zpow_and_lt e hm
    refine ⟨m, e, hval, ?_, ?_⟩
    · rwa [fmax_mul_two_zpow hfmt, needExp_of_fin hval]
    · rwa [fmax_mul_two_zpow hfmt, show needExp fmt a - 1 + fmaxExp fmt = needExp fmt a + fmaxExp fmt - 1 by omega, needExp_of_fin hval]

end Sys2Proof.Machine
end

section
/-! PROOFS for 09_lens.md: Lens tasks, and what a Lens selects of a row. -/

namespace Sys2Proof.Machine
open Sys2Proof

/-! ### Taking up a task (R248, R250, R253–R257) -/

/-- The descriptor `d` at the head of ring `j`, slot `ix`, is a task of opcode `op` that its Lens may start or go on with. -/
structure MayTakeLensTask (j op ix : Nat) (d : Bytes) (s : State) : Prop where
  head : s.headOf j op = some (ix, d)
  lens : (s.ring j).unitType = Config.tLens
  turn : s.lensMay j (lensClass d) = true

/-- The Lens has suspended the tasks of higher classes, and the task of `d` stands before its first row. -/
def lensTaken (j ix : Nat) (d : Bytes) (s : State) : State :=
  let t := lensServed j (lensClass d) (begin j ix d (lensSuspend (s.ring j).unitInst (lensClass d) s))
  t.setLensTask j ((t.lensTask j).start (t.lensK (s.ring j).unitInst d) d)

/-- What becomes of a task that the Lens may take up: refused by its check, ended by a mark in its segment table, or run. -/
theorem lensTake_of_mayTake {j op ix : Nat} {d : Bytes} {s : State} (n : Nat) (h : MayTakeLensTask j op ix d s) :
    lensTake j op n s =
      (lensCheck (s.ring j).unitInst (s.ring j).ctx d s).elim
        (if lSeg d && (lensTaken j ix d s).hbmBad (lSrc d) (16 * field d 12 2) then
          lensMarked j { space := 0, core := 0, addr := lSrc d, len := 16 * field d 12 2 } (lensTaken j ix d s)
        else lensRun j (max n 1) (lensTaken j ix d s))
        fun st => failArg j ix d st s := by
  obtain ⟨hhead, hty, hturn⟩ := h
  simp only [lensTake, hhead, hty, hturn]
  rw [if_neg (by simp)]
  split
  next st hc => rw [hc, Option.elim_some]
  next hc =>
    rw [hc, Option.elim_none]
    rfl

/-- A suspended task of class 2 goes on once no other ring has a task of class 1 at work or waiting (R250). -/
theorem execLensTaskResume_of_free {j : Nat} {s : State} (n : Nat) (hty : (s.ring j).unitType = Config.tLens) (hlive : s.isFatal = false)
    (hbusy : s.lensBusy j (s.ring j) 2 = true)
    (hfree : ∀ x ∈ s.unitRings Config.tLens (s.ring j).unitInst, x.1 = j ∨ (s.lensBusy x.1 x.2 1 = false ∧ s.lensOffers x.2 1 = false)) :
    execLensTaskResume j n s = .next (lensRun j (max n 1) (s.setLensTask j { s.lensTask j with susp := false })) := by
  have hothers : ((s.unitRings Config.tLens (s.ring j).unitInst).filter fun x => x.1 != j).any
      (fun x => s.lensBusy x.1 x.2 1 || s.lensOffers x.2 1) = false := by
    rw [List.any_eq_false]
    intro x hx
    obtain ⟨hmem, hne⟩ := List.mem_filter.mp hx
    obtain ⟨hb, ho⟩ := (hfree x hmem).resolve_left (by simpa using hne)
    simp [hb, ho]
  simp [execLensTaskResume, hty, hlive, hbusy, hothers]

/-! ### One row of a task (R246, R252, R257) -/

section Row
variable {j : Nat} {c : Cur} {segs : List LRange} {s u : State} {w : LRow} (hcur : (s.ring j).cur = some c)
  (hsegs : (s.lensSegs c.desc).map (LSeg.rowAt c.desc c.rows) = segs) (hsound : segs.find? (s.lensBad (s.ring j).unitInst) = none)
  (hu : segs.foldl (fun s g => if g.space = 0 then hbmTaken g.addr g.len s else s) s = u)
  (hw : lensRow (u.lensK (s.ring j).unitInst c.desc) c.desc
    (segs.flatMap fun g => elems (fmtBytes (lFmt c.desc)) (g.len / fmtBytes (lFmt c.desc)) (u.lensRead (s.ring j).unitInst g)) = w)
include hcur hsegs hsound hu hw

/-- A row of a top-k or a compaction is held for the Prism, or its block is written. -/
theorem lensStep_of_not_sort (hop : dOp c.desc ≠ 0x12) :
    lensStep j s = if lPrism c.desc then u.setLensTask j { u.lensTask j with held := some w.block }
      else lensRowDone j w w.block.length
        (lensWrite (s.ring j).unitInst (lDstSpace c.desc) (field c.desc 14 2) (lDst c.desc + c.rows * lDstStride c.desc) w.block u) := by
  subst hsegs hu hw
  simp [lensStep, hcur, hsound, hop]

/-- A row of a sort leaves free bytes in its scratch range. -/
theorem lensStep_of_sort {v : State} (hop : dOp c.desc = 0x12)
    (hscratch : (lScratch c.desc).space ≠ 0 ∨ u.hbmBad (lScratch c.desc).addr (8 * w.valid) = false) (hprism : lPrism c.desc = false)
    (hv : lensWrite (s.ring j).unitInst (lDstSpace c.desc) (field c.desc 14 2) (lDst c.desc + c.rows * lDstStride c.desc) w.block u = v) :
    lensStep j s = lensRowDone j w w.block.length (lensWrite (s.ring j).unitInst (field c.desc 18 1) (field c.desc 16 2) (field c.desc 48 8)
      (freshBytes (8 * lN c.desc) v).1 (freshBytes (8 * lN c.desc) v).2) := by
  have hgood : ((lScratch c.desc).space == 0 && w.valid != 0 && u.hbmBad (lScratch c.desc).addr (8 * w.valid)) = false := by
    rcases hscratch with h | h <;> simp [h]
  subst hsegs hu hw hv
  simp only [lensStep, hcur, hsound, hop, hprism, decide_true, Bool.true_and, hgood]
  rfl

end Row

/-- Settles O50: a task is taken up by the check in front of it, resumed when nothing of a lower class stands in its way, and each row is written
or held. -/
theorem lensTasks : Obligations.LensTasks := by
  unfold Obligations.LensTasks
  refine ⟨fun x hx j n ix d s => ?tasks, fun j n s => execLensTaskResume_of_free n, fun j c s => ?row⟩
  case tasks =>
    intro r t u hhead hty hturn
    have hexec : exec (x.1 j n) s = .next (lensTake j x.2 n s) := by
      simp only [List.mem_cons, List.not_mem_nil, or_false] at hx
      rcases hx with rfl | rfl | rfl <;> rfl
    have hu : lensTaken j ix d s = u := rfl
    rw [hexec, lensTake_of_mayTake n ⟨hhead, hty, hturn⟩, hu]
    refine ⟨fun st hc => ?_, fun hc hseg hbad => ?_, fun hc hsound => ?_⟩
    · rw [hc, Option.elim_some]
    · rw [hc, Option.elim_none, hseg, hbad]
      rfl
    · rw [hc, Option.elim_none, if_neg]
      simpa using hsound
  case row =>
    intro lens d segs u w v f hcur hsound
    exact ⟨lensStep_of_not_sort hcur rfl hsound rfl rfl,
      fun hop hscratch hprism => lensStep_of_sort hcur rfl hsound rfl rfl hop hscratch hprism rfl⟩

end Sys2Proof.Machine
end

section
/-! PROOFS for 09_lens.md: what a Lens selects of a row. -/

namespace Sys2Proof.Machine
open Sys2Proof

/-! ### Rank order (R238) -/

theorem ranksBefore_iff (up : Bool) (a b : LEl) :
    ranksBefore up a b = true ↔ (if up then a.key < b.key else b.key < a.key) ∨ (a.key = b.key ∧ a.ix < b.ix) := by
  cases up <;> simp [ranksBefore]

theorem ranksBefore_trans {up : Bool} {a b c : LEl} (hab : ranksBefore up a b = true) (hbc : ranksBefore up b c = true) :
    ranksBefore up a c = true := by
  rw [ranksBefore_iff] at *
  cases up <;> simp only [if_true, Bool.false_eq_true, if_false] at * <;> omega

/-- Elements at different indices are comparable: the rank order is total. -/
theorem ranksBefore_of_not {up : Bool} {a b : LEl} (hix : a.ix ≠ b.ix) (h : ranksBefore up a b ≠ true) : ranksBefore up b a = true := by
  rw [Ne, ranksBefore_iff] at h
  rw [ranksBefore_iff]
  cases up <;> simp only [if_true, Bool.false_eq_true, if_false] at * <;> omega

/-- Between two elements of one key stand only elements of that key. -/
theorem key_eq_of_ranksBefore {up : Bool} {a h b : LEl} (hah : ranksBefore up a h = true) (hhb : h = b ∨ ranksBefore up h b = true)
    (hkey : b.key = a.key) : h.key = a.key := by
  rcases hhb with rfl | hhb
  · exact hkey
  · rw [ranksBefore_iff] at hah hhb
    cases up <;> simp only [if_true, Bool.false_eq_true, if_false] at * <;> omega

theorem insertRank_pairwise {up : Bool} {a : LEl} {l : List LEl} (hl : l.Pairwise fun a b => ranksBefore up a b = true)
    (hix : ∀ b ∈ l, a.ix ≠ b.ix) : (insertRank up a l).Pairwise fun a b => ranksBefore up a b = true := by
  induction l with
  | nil => exact List.pairwise_singleton ..
  | cons b l ih =>
    obtain ⟨hb, hl'⟩ := List.pairwise_cons.mp hl
    obtain ⟨hab, hal⟩ := List.forall_mem_cons.mp hix
    rw [insertRank]
    split
    next h => exact List.pairwise_cons.mpr ⟨List.forall_mem_cons.mpr ⟨h, fun c hc => ranksBefore_trans h (hb c hc)⟩, hl⟩
    next h =>
      refine List.pairwise_cons.mpr ⟨fun c hc => ?_, ih hl' hal⟩
      rcases List.mem_cons.mp ((insertRank_perm up a l).mem_iff.mp hc) with rfl | hc
      · exact ranksBefore_of_not hab h
      · exact hb c hc

theorem rankOrder_pairwise (up : Bool) {l : List LEl} (h : (l.map (·.ix)).Nodup) :
    (rankOrder up l).Pairwise fun a b => ranksBefore up a b = true := by
  induction l with
  | nil => exact .nil
  | cons a l ih =>
    obtain ⟨ha, hl⟩ := List.nodup_cons.mp h
    refine insertRank_pairwise (ih hl) fun b hb hix => ha ?_
    exact List.mem_map.mpr ⟨b, (rankOrder_perm up l).mem_iff.mp hb, hix.symm⟩

@[simp] theorem rankOrder_length (up : Bool) (l : List LEl) : (rankOrder up l).length = l.length := (rankOrder_perm up l).length_eq

/-- A row has a first element in one direction exactly if it has one in the other. -/
theorem rankOrder_head?_eq_none_iff (up : Bool) (l : List LEl) : (rankOrder up l).head? = none ↔ l = [] := by
  rw [List.head?_eq_none_iff, ← List.length_eq_zero_iff, rankOrder_length, List.length_eq_zero_iff]

/-! ### The valid elements of a row (R236, R237) -/

theorem lensValid_ix_nodup (fmt : Nat) (xs : List Nat) : ((lensValid fmt xs).map (·.ix)).Nodup :=
  (lensValid_ix_sublist fmt xs).nodup List.nodup_range

theorem lensValid_length_le (fmt : Nat) (xs : List Nat) : (lensValid fmt xs).length ≤ xs.length := by
  simpa using (lensValid_ix_sublist fmt xs).length_le

theorem mem_lensValid_iff {fmt : Nat} {xs : List Nat} {x : LEl} :
    x ∈ lensValid fmt xs ↔ xs[x.ix]? = some x.b ∧ lensKey fmt x.b = some x.key := by
  simp only [lensValid, List.mem_filterMap, Option.map_eq_some_iff]
  constructor
  · rintro ⟨p, hp, k, hk, rfl⟩
    exact ⟨List.mem_zipIdx_iff_getElem?.mp hp, hk⟩
  · rintro ⟨hb, hk⟩
    exact ⟨(x.b, x.ix), List.mem_zipIdx_iff_getElem?.mpr hb, x.key, hk, rfl⟩

theorem rankOrder_lensValid_ix_nodup (fmt : Nat) (up : Bool) (xs : List Nat) : ((rankOrder up (lensValid fmt xs)).map (·.ix)).Nodup :=
  ((rankOrder_perm up _).map _).nodup_iff.mpr (lensValid_ix_nodup fmt xs)

/-! ### The entries of a block: elements, then padding (R241, R246) -/

section Entries
variable {ents : List (Nat × Nat)} {shown : List LEl} {v : LEl → Nat} {pad : Nat}
  (h : ents = shown.map (fun x => (x.ix, v x)) ++ List.replicate pad padEntry)
include h

theorem entries_length : ents.length = shown.length + pad := by simp [h]

theorem entries_take_ix : (ents.take shown.length).map (·.1) = shown.map (·.ix) := by
  simp [h, List.take_left']

theorem entries_drop_pad : ∀ e ∈ ents.drop shown.length, e = padEntry := by
  rw [h, List.drop_left' (by simp)]
  exact fun e => List.eq_of_mem_replicate

end Entries

/-- The row shows the elements of `shown`, then `pad` padding entries; it reports these counts, and `flags` as its two lowest flags. -/
structure LRow.Reports (r : LRow) (shown : List LEl) (nan count flags pad : Nat) : Prop where
  valid : r.valid = shown.length
  nan : r.nan = nan
  selected : r.selected = count
  flags : r.flags % 4 = flags % 4
  ents : ∃ v : LEl → Nat, r.ents = shown.map (fun x => (x.ix, v x)) ++ List.replicate pad padEntry

/-- A split row reports what it is given; one without a first element has nothing to show. -/
theorem lensSplit_reports {fmt n nan : Nat} {prob : Option Nat} {first top : Option LEl} {sel left shown : List LEl} {flags pad count : Nat}
    (hempty : first = none ∨ top = none → shown = [] ∧ count = 0) :
    (lensSplit fmt n nan prob first top sel left shown flags pad count).Reports shown nan count flags pad := by
  have hnone (h : first = none ∨ top = none) (m : Nat) :
      (LRow.mk 0 nan 0 (flags + 8) negInf m 0 0 (List.replicate pad padEntry)).Reports shown nan count flags pad := by
    obtain ⟨rfl, rfl⟩ := hempty h
    exact ⟨rfl, rfl, rfl, Nat.add_mul_mod_self_left flags 4 2, fun _ => 0, rfl⟩
  match first, top, prob with
  | none, _, _ => exact hnone (.inl rfl) _
  | some _, none, _ => exact hnone (.inr rfl) _
  | some _, some _, none => exact ⟨rfl, rfl, rfl, rfl, _, rfl⟩
  | some _, some _, some _ => exact ⟨rfl, rfl, rfl, Nat.add_mul_mod_self_left .., _, rfl⟩

/-- The two lowest of a row's flags. -/
theorem bitOf_of_mod_four {n : Nat} {p q : Bool} (h : n % 4 = (b2n p + 2 * b2n q) % 4) : bitOf n 0 = p ∧ bitOf n 1 = q := by
  have hb (b : Bool) : (b2n b == 1) = b := by cases b <;> rfl
  have hp := b2n_lt p
  have hq := b2n_lt q
  have h0 : n / 2 ^ 0 % 2 = b2n p := by omega
  have h1 : n / 2 ^ 1 % 2 = b2n q := by omega
  exact ⟨by rw [bitOf, h0, hb], by rw [bitOf, h1, hb]⟩

/-! ### Top-k (R239–R241) -/

/-- EQ_SPLIT of the first `k` elements: the first that is left out has the key of the last that is not. -/
def eqSplit (k : Nat) (o : List LEl) : Bool :=
  match (o.take k).getLast?, o.drop k with
  | some a, b :: _ => a.key == b.key
  | _, _ => false

theorem eqSplit_iff {up : Bool} {k : Nat} {o : List LEl} (ho : o.Pairwise fun a b => ranksBefore up a b = true) :
    eqSplit k o = true ↔ k ≤ o.length ∧ ∃ a b, (o.take k).getLast? = some a ∧ b ∈ o.drop k ∧ b.key = a.key := by
  rw [eqSplit]
  split
  next a b l ha hb =>
    have hk : k ≤ o.length := by
      have hlen := congrArg List.length hb
      rw [List.length_drop, List.length_cons] at hlen
      omega
    rw [← List.take_append_drop k o, hb, List.pairwise_append, List.pairwise_cons] at ho
    obtain ⟨-, ⟨hbl, -⟩, hcross⟩ := ho
    have hab := hcross a (List.mem_of_getLast? ha) b List.mem_cons_self
    rw [ha, hb]
    constructor
    · intro h
      exact ⟨hk, a, b, rfl, List.mem_cons_self, (beq_iff_eq.mp h).symm⟩
    · rintro ⟨-, a', c, ha', hc, hkey⟩
      obtain rfl := Option.some.inj ha'
      rw [beq_iff_eq, key_eq_of_ranksBefore hab ((List.mem_cons.mp hc).imp Eq.symm (hbl c)) hkey]
  next hno =>
    refine iff_of_false (by decide) ?_
    rintro ⟨-, a, b, ha, hb, -⟩
    obtain ⟨c, l, hcl⟩ := List.exists_cons_of_ne_nil (List.ne_nil_of_mem hb)
    exact hno a c l ha hcl

theorem lensTopk_reports (fmt : Nat) (up : Bool) (prob : Option Nat) (k : Nat) (xs : List Nat) :
    let vs := lensValid fmt xs
    let sel := (rankOrder up vs).take k
    (lensTopk fmt up prob k xs).Reports sel (xs.length - vs.length) sel.length
      (b2n (decide (vs.length < k)) + 2 * b2n (eqSplit k (rankOrder up vs))) (k - sel.length) := by
  refine lensSplit_reports fun h => ?_
  have hvs : lensValid fmt xs = [] := h.elim (rankOrder_head?_eq_none_iff up _).mp (rankOrder_head?_eq_none_iff false _).mp
  simp [hvs, rankOrder]

/-! ### Threshold compaction (R244) -/

/-- The key `x` lies beyond the threshold's key `t`, or on it where that counts. -/
def meetsThreshold (below incl : Bool) (t : Nat) (x : LEl) : Bool :=
  (if below then decide (x.key < t) else decide (x.key > t)) || (incl && x.key == t)

theorem lensCompact_reports {fmt thresh t : Nat} (ht : lensKey fmt thresh = some t) (below incl : Bool) (prob : Option Nat) (cap : Nat)
    (xs : List Nat) :
    let vs := lensValid fmt xs
    let sel := vs.filter (meetsThreshold below incl t)
    (lensCompact fmt below incl prob thresh cap xs).Reports (sel.take cap) (xs.length - vs.length) sel.length
      (16 * b2n (decide (sel.length > cap))) 0 := by
  obtain rfl : (lensKey fmt thresh).getD 0 = t := by rw [ht, Option.getD_some]
  refine lensSplit_reports fun h => ?_
  have hvs : lensValid fmt xs = [] := (rankOrder_head?_eq_none_iff false _).mp (or_self_iff.mp h)
  simp [hvs]

/-! ### The result block (R246) -/

@[simp] theorem leBytes_length (n v : Nat) : (leBytes n v).length = n := by
  induction n generalizing v with
  | zero => rfl
  | succ n ih => rw [leBytes, List.length_cons, ih]

/-- Each entry is 8 bytes. -/
theorem entryBytes_length (ents : List (Nat × Nat)) : (ents.flatMap fun e => leBytes 4 e.1 ++ leBytes 4 e.2).length = 8 * ents.length := by
  induction ents with
  | nil => rfl
  | cons e ents ih =>
    rw [List.flatMap_cons, List.length_append, ih, List.length_append, leBytes_length, leBytes_length, List.length_cons]
    omega

theorem LRow.block_length (r : LRow) : r.block.length = 32 + 8 * r.ents.length := by
  simp only [LRow.block, zeros, List.length_append, leBytes_length, List.length_replicate, entryBytes_length]

/-- Settles O51: the rank order is a strict total order of the valid elements, and each selection is a part of the elements it is made of, with the
padding behind it. -/
theorem lensSelects : Obligations.LensSelects := by
  unfold Obligations.LensSelects
  refine ⟨ranksBefore_iff, by decide, fun up l h => ⟨rankOrder_perm up l, rankOrder_pairwise up h⟩,
    fun fmt xs => ⟨lensValid_ix_nodup fmt xs, fun x => mem_lensValid_iff⟩, rfl, fun fmt k up prob xs => ?topk,
    fun fmt t cap below incl prob xs k hk => ?compact, fun fmt up xs => ?sort, LRow.block_length⟩
  case topk =>
    intro r vs
    obtain ⟨hvalid, hnan, -, hflags, v, hents⟩ := lensTopk_reports fmt up prob k xs
    obtain ⟨hpadded, hsplit⟩ := bitOf_of_mod_four hflags
    have hlen : ((rankOrder up vs).take k).length = min k vs.length := by simp
    have hix : (r.ents.take r.valid).map (·.1) = ((rankOrder up vs).take k).map (·.ix) := by
      rw [hvalid]
      exact entries_take_ix hents
    refine ⟨hnan, hvalid.trans hlen, ?_, hix, ?_, ?_, hpadded, ?_⟩
    · rw [entries_length hents, hlen]
      omega
    · rw [hvalid]
      exact entries_drop_pad hents
    · rw [hix]
      exact (rankOrder_lensValid_ix_nodup fmt up xs).sublist ((List.take_sublist k _).map _)
    · rw [hsplit, eqSplit_iff (rankOrder_pairwise up (lensValid_ix_nodup fmt xs)), rankOrder_length]
  case compact =>
    intro r hit
    obtain ⟨hvalid, -, hselected, -, v, hents⟩ := lensCompact_reports hk below incl prob cap xs
    refine ⟨hselected, ?_, ?_⟩
    · rw [hvalid, hselected, List.length_take]
    · rw [hents, List.replicate_zero, List.append_nil, List.map_map]
      rfl
  case sort =>
    intro vs
    have hle : vs.length ≤ xs.length := lensValid_length_le fmt xs
    have hents : (lensSort fmt up xs).ents
      = (rankOrder up vs).map (fun x => (x.ix, lensValue fmt x.b)) ++ List.replicate (xs.length - vs.length) padEntry := rfl
    have htake := entries_take_ix hents
    have hdrop := entries_drop_pad hents
    rw [rankOrder_length] at htake hdrop
    refine ⟨?_, htake, hdrop⟩
    rw [entries_length hents, rankOrder_length, Nat.add_sub_cancel' hle]

end Sys2Proof.Machine
end

section
/-! PROOFS for 10_prism_distillation.md: Summary States and token chunks on the move. -/

namespace Sys2Proof.Machine
open Sys2Proof

/-- Settles O36: each clause is the branch of its event that every guard lets pass; a transfer that failed takes the branch before it. -/
theorem servingTransfers : Obligations.ServingTransfers := by
  unfold Obligations.ServingTransfers
  refine ⟨fun k c h sp a s hlive hpause hwriting hst => ⟨?writeFails, fun hclean hreach hide => ?writeLands⟩,
    fun k c h sp a s hlive hresume hrestore hst => ⟨?restoreFails, fun hclean hreach hide => ?restoreEnds⟩,
    fun k n t s hlive hring => ?send, fun k f s hlive hfind hf hkind hring => ?land⟩
  case writeFails =>
    show execSummaryWriteLanded k false s = _
    simp [execSummaryWriteLanded, hlive, hpause, hwriting, hst]
  case writeLands =>
    show execSummaryWriteLanded k true s = _
    have hpath : (decide (sp % 2 = 1) && s.ideDenied c) = false := by simpa using hide
    simp [execSummaryWriteLanded, hlive, hpause, hwriting, hst, hclean, hreach, hpath]
  case restoreFails =>
    show execSummaryRestoreComplete k false s = _
    simp [execSummaryRestoreComplete, hlive, hresume, hrestore, hst]
  case restoreEnds =>
    show execSummaryRestoreComplete k true s = _
    have hpath : (decide (sp = 1) && s.ideDenied c) = false := by simpa using hide
    simp [execSummaryRestoreComplete, hlive, hresume, hrestore, hst, hclean, hreach, hpath]
  case send =>
    intro e m ch w last bs u v hused hslot hblk hw hcredit hhere hprism hside
    show execTokenChunkSend k n s = _
    have hready : ¬(s.isFatal || e.st = 0 || e.slot = 0 || e.blk ≠ 1 || w = 0 || (s.pring ch t).free = 0 || !(s.pring ch t).sHere s
        || !mPrism m.block || mSide m.block ≠ 1) = true := by
      simp [hlive, hused, hslot, hblk, hw, hcredit, hhere, hprism, hside]
    simp only [execTokenChunkSend, hring]
    exact if_neg hready
  case land =>
    intro p
    show execTokenChunkLand k s = _
    simp only [execTokenChunkLand, hfind]
    rw [if_neg (by simp [hlive, hf, hkind, hring])]
    rfl

end Sys2Proof.Machine
end

section
/-! PROOFS for 10_prism_distillation.md: the row of a Lens that a channel accepts. -/

namespace Sys2Proof.Machine
open Sys2Proof

/-! ### What the work of units moves -/

/-- `t` is `s` but for what the work of units moves: rings, Lens tasks, registers, the links and free values. -/
def WorkWithin (s t : State) : Prop :=
  t = { s with beam := t.beam, free := t.free, lens := t.lens, rings := t.rings, sec := t.sec, sys := t.sys, units := t.units }

namespace WorkWithin

theorem refl (s : State) : WorkWithin s s := rfl

theorem trans {s t u : State} (h : WorkWithin s t) (g : WorkWithin t u) : WorkWithin s u := by
  unfold WorkWithin at *
  rw [h] at g
  exact g

theorem ite {c : Prop} [Decidable c] {s t u : State} (ht : WorkWithin s t) (hu : WorkWithin s u) : WorkWithin s (if c then t else u) := by
  split
  · exact ht
  · exact hu

theorem foldl {α : Type} {f : State → α → State} (hf : ∀ s x, WorkWithin s (f s x)) (l : List α) (s : State) : WorkWithin s (l.foldl f s) :=
  List.foldlRecOn (motive := WorkWithin s) l f (refl s) fun t h x _ => h.trans (hf t x)

section Fields
variable {s t : State} (h : WorkWithin s t)
include h

theorem now : t.now = s.now := by rw [h]
theorem mem : t.mem = s.mem := by rw [h]
theorem mbs : t.mbs = s.mbs := by rw [h]
theorem jobs : t.jobs = s.jobs := by rw [h]
theorem cores : t.cores = s.cores := by rw [h]
theorem chans : t.chans = s.chans := by rw [h]
theorem prings : t.prings = s.prings := by rw [h]
theorem srv : t.srv = s.srv := by rw [h]

theorem chan (ch : Nat) : t.chan ch = s.chan ch := by unfold State.chan; rw [h.chans]
theorem pring (ch n : Nat) : t.pring ch n = s.pring ch n := by unfold State.pring; rw [h.prings]

end Fields
end WorkWithin

theorem bump_workWithin (ty inst n k : Nat) (s : State) : WorkWithin s (bump ty inst n k s) := rfl
theorem setErr_workWithin (ty inst bit ring index reason : Nat) (s : State) : WorkWithin s (setErr ty inst bit ring index reason s) := rfl
theorem setRing_workWithin (s : State) (j : Nat) (x : Ring) : WorkWithin s (s.setRing j x) := rfl
theorem updPort_workWithin (s : State) (p : Nat) (f : Port → Port) : WorkWithin s (s.updPort p f) := rfl

theorem spent_workWithin (ty inst : Nat) (l : List Nat) (s : State) : WorkWithin s (spent ty inst l s) := by
  induction l generalizing s with
  | nil => exact .refl s
  | cons n l ih => exact WorkWithin.trans (t := bump ty inst n s.fresh.1 s.fresh.2) rfl (ih _)

theorem foldl_count_workWithin (ty inst : Nat) (cs : List (Nat × Nat)) (s : State) :
    WorkWithin s (cs.foldl (fun a x => if x.2 = 0 then a else bump ty inst x.1 x.2 a) s) :=
  .foldl (fun _ _ => .ite (.refl _) (bump_workWithin ..)) cs s

theorem finish_workWithin (j status lb : Nat) (detail : Bytes) (s : State) : WorkWithin s (finish j status lb detail s) := by
  unfold finish
  extract_lets r
  split
  · exact setRing_workWithin ..
  · exact .refl s

theorem lensEnd_workWithin (j status reason : Nat) (s : State) : WorkWithin s (lensEnd j status reason s) := by
  unfold lensEnd
  extract_lets r
  split
  · exact WorkWithin.trans (by rfl) (finish_workWithin ..)
  · exact .refl s

theorem lensRowDone_workWithin (j : Nat) (w : LRow) (bytes : Nat) (s : State) : WorkWithin s (lensRowDone j w bytes s) := by
  unfold lensRowDone
  extract_lets r
  split
  · exact WorkWithin.trans (by rfl) (foldl_count_workWithin ..)
  · exact .refl s

/-! ### A message leaves (R288) -/

theorem portEmit_workWithin (p : Nat) (f : Bytes) (s : State) : WorkWithin s (portEmit p f s) := rfl

theorem sendNumbered_workWithin (p : Nat) (f : Bytes) (s : State) : WorkWithin s (sendNumbered p f s) := by
  unfold sendNumbered
  extract_lets x
  split
  extract_lets g s1
  have h1 : WorkWithin s s1 := rfl
  exact (h1.trans (portEmit_workWithin ..)).trans (bump_workWithin ..)

theorem portPump_workWithin (p n : Nat) (s : State) : WorkWithin s (portPump p n s) := by
  induction n generalizing s with
  | zero => exact .refl s
  | succ n ih =>
    unfold portPump
    extract_lets x
    refine .ite (.refl s) ?_
    split
    · exact .refl s
    · extract_lets s1 s2 s3
      have h1 : WorkWithin s s1 := rfl
      have h2 : WorkWithin s s2 := h1.trans (sendNumbered_workWithin ..)
      have h3 : WorkWithin s s3 := .ite h2 (h2.trans (updPort_workWithin ..))
      exact h3.trans (ih s3)

theorem portGo_workWithin (p : Nat) (s : State) : WorkWithin s (portGo p s) :=
  .ite ((portPump_workWithin ..).trans (spent_workWithin ..)) (portPump_workWithin ..)

theorem sendToward_workWithin (inp : Nat) (f : Bytes) (s : State) : WorkWithin s (sendToward inp f s) := by
  unfold sendToward
  extract_lets held
  refine .ite rfl ?_
  split
  · exact WorkWithin.trans (by rfl) (portGo_workWithin ..)
  · rfl

theorem sendMsg_workWithin (dst cls stream : Nat) (enc : Bool) (m : Bytes) (s : State) : WorkWithin s (sendMsg dst cls stream enc m s) :=
  .ite (.foldl (fun s f => sendToward_workWithin 0 f s) _ s) rfl

theorem sendOne_workWithin (og : Option Nat) (dev cls : Nat) (st : Option Nat) (a : Nat) (bs : Bytes) (s : State) :
    WorkWithin s (sendOne og dev cls st a bs s) := by
  unfold sendOne
  extract_lets dst m
  split
  · exact sendMsg_workWithin ..
  · exact WorkWithin.trans (by rfl) (sendMsg_workWithin ..)

theorem prismSend_workWithin (ch n kind v : Nat) (bs : Bytes) (s : State) : WorkWithin s (prismSend ch n kind v bs s) :=
  .foldl (fun _ _ => sendOne_workWithin ..) _ s

/-! ### Channels, read and written -/

/-- Read after write of a channel, in a canonical map. -/
theorem State.chan_updChan_self {s : State} (h : SMap.wf Chan.init s.chans = true) (ch : Nat) (f : Chan → Chan) :
    (s.updChan ch f).chan ch = f (s.chan ch) := SMap.get_set_self s.chans ch 0 h

/-- A channel in which a record is in flight reads back, whatever the map. -/
theorem State.chan_updChan_of_flight {s : State} {ch : Nat} {f : Chan → Chan} (h : (f (s.chan ch)).flight ≠ []) :
    (s.updChan ch f).chan ch = f (s.chan ch) :=
  SMap.get_set_ne (fun e => h (congrArg Chan.flight e)) s.chans ch

theorem State.chan_updChan_other (s : State) {ch k : Nat} (f : Chan → Chan) (h : k ≠ ch) : (s.updChan ch f).chan k = s.chan k :=
  SMap.get_set_other s.chans h

/-- A bound Prism ring reads back, whatever the map. -/
theorem State.pring_setPring_of_bound (s : State) (ch n : Nat) {x : PRing} (h : x.bound = true) : (s.setPring ch n x).pring ch n = x :=
  SMap.get_set_ne (fun e => by simp [e, PRing.init] at h) s.prings _

/-- A ring with a descriptor in progress reads back, whatever the map. -/
theorem State.ring_setRing_of_cur (s : State) (j : Nat) {x : Ring} (h : x.cur.isSome = true) : (s.setRing j x).ring j = x :=
  SMap.get_set_ne (fun e => by simp [e, Ring.init] at h) s.rings j

/-- Work on the side does not meet a change of a channel. -/
theorem WorkWithin.updChan {s t : State} (h : WorkWithin s t) (ch : Nat) (f : Chan → Chan) : WorkWithin (s.updChan ch f) (t.updChan ch f) := by
  unfold WorkWithin
  rw [State.updChan_eq, State.updChan_eq, h.chan]
  exact congrArg (fun u : State => u.setChan ch (f (s.chan ch))) h

/-! ### The end of a Lens row -/

theorem spent_rings (ty inst : Nat) (l : List Nat) (s : State) : (spent ty inst l s).rings = s.rings := by
  induction l generalizing s with
  | nil => rfl
  | cons n l ih => exact ih _

/-- Counting changes no ring. -/
theorem foldl_count_rings (ty inst : Nat) (cs : List (Nat × Nat)) (s : State) :
    (cs.foldl (fun a x => if x.2 = 0 then a else bump ty inst x.1 x.2 a) s).rings = s.rings := by
  refine List.foldlRecOn (motive := fun t : State => t.rings = s.rings) cs _ rfl fun t h x _ => ?_
  split <;> exact h

/-- A row more is done. -/
theorem lensRowDone_cur {j : Nat} {c : Cur} {s : State} (h : (s.ring j).cur = some c) (w : LRow) (bytes : Nat) :
    ((lensRowDone j w bytes s).ring j).cur = some { c with rows := c.rows + 1, lb := c.lb + bytes } := by
  simp only [lensRowDone, lensCounts, h]
  rw [State.ring_congr (foldl_count_rings ..)]
  exact congrArg Ring.cur (State.ring_setRing_of_cur _ _ rfl)

/-- The task that ends waits for TASK_COMPLETE with its status and its rows. -/
theorem lensEnd_cur {j : Nat} {c : Cur} {s : State} (h : (s.ring j).cur = some c) (status reason : Nat) :
    ((lensEnd j status reason s).ring j).cur.map (fun c => (c.phase, c.status, c.rows)) = some (1, status, c.rows) := by
  have hkeep (x : LensTask) : ((s.fresh.2.setLensTask j x).ring j).cur = some c := h
  simp only [lensEnd, h, finish, hkeep]
  rw [State.ring_setRing_of_cur _ _ rfl]
  rfl

/-- No sampler request waits for the Lens. -/
theorem samplerServe_of_no_asks {lens : Nat} {s : State} (h : ∀ a ∈ s.srv.asks, a.2.2 ≠ lens) : samplerServe lens s = s := by
  have hmine : (s.srv.asks.filter fun a => a.2.2 == lens) = [] := by simpa [List.filter_eq_nil_iff] using h
  simp only [samplerServe, hmine, List.foldl_nil]

/-! ### PRISM_ROW_ACCEPT (R268, R275) -/

/-- A Lens holds a row of the task `d` of ring `j` for channel `ch`, whose list `l` has the row's tag, and the channel may accept it. -/
structure MayAcceptRow (lens ch j : Nat) (d row : Bytes) (l : TagList) (s : State) : Prop where
  held : s.heldRow lens = some (j, d, row)
  chan : field d 14 2 = ch
  tagged : s.nextList ch lens = some l
  live : s.isFatal = false
  free : (s.unit Config.tPrism ch).hold = false
  ring : s.pringLive ch (s.tagAt l.addr l.next).ring = true
  credit : (s.pring ch (s.tagAt l.addr l.next).ring).order = 0 → (s.pring ch (s.tagAt l.addr l.next).ring).reserved ≠ 0
  clean : s.mapPoison (s.pring ch (s.tagAt l.addr l.next).ring) row = none

/-- The next tag of list `l` has been used; a list without tags is gone. -/
def Chan.useTag (l : TagList) (x : Chan) : Chan :=
  { x with lists := (x.lists.map fun y => if y = l then { y with next := y.next + 1 } else y).filter fun y => decide (y.next < y.rows) }

/-- The record of the row that takes the next tag of `l`. -/
def State.rowRecord (s : State) (ch : Nat) (l : TagList) (row : Bytes) : Flight :=
  let tag := s.tagAt l.addr l.next
  { ring := tag.ring, seq := tag.seq, pos := tag.pos, bytes := (formRecord s ch (s.pring ch tag.ring) tag l.temp row).1 }

/-- The reserved credit and the tag are used, and the row's record is in flight. -/
def rowTaken (ch : Nat) (l : TagList) (row : Bytes) (s : State) : State :=
  let n := (s.tagAt l.addr l.next).ring
  let p := s.pring ch n
  ((if p.order = 0 then s.setPring ch n { p with reserved := p.reserved - 1 } else s).updChan ch (Chan.useTag l)).updChan ch
    fun x => { x with flight := x.flight ++ [s.rowRecord ch l row] }

/-- Accepting a row changes Prism rings and channels alone. -/
theorem rowTaken_frame (ch : Nat) (l : TagList) (row : Bytes) (s : State) :
    rowTaken ch l row s = { s with chans := (rowTaken ch l row s).chans, prings := (rowTaken ch l row s).prings } := by
  unfold rowTaken
  extract_lets n p
  split <;> rfl

/-- The last row of a task is accepted: but for counters and the end of the task, its record is in flight and nothing else has changed. -/
theorem execPrismRowAccept_of_last {lens ch j : Nat} {d row : Bytes} {l : TagList} {c : Cur} {s : State} (h : MayAcceptRow lens ch j d row l s)
    (hcur : (s.ring j).cur = some c) (hlast : c.rows + 1 = lRows d) (hasks : ∀ a ∈ s.srv.asks, a.2.2 ≠ lens) :
    ∃ t, execPrismRowAccept lens s = .next t ∧ WorkWithin (rowTaken ch l row s) t
      ∧ (t.ring j).cur.map (fun c => (c.phase, c.status, c.rows)) = some (1, 0, lRows d) := by
  obtain ⟨hheld, rfl, htag, hlive, hfree, hring, hcredit, hclean⟩ := h
  unfold execPrismRowAccept
  split
  next e => cases hheld.symm.trans e
  rename_i j' d' row' e
  obtain ⟨rfl, rfl, rfl⟩ : j = j' ∧ d = d' ∧ row = row' := by simpa using hheld.symm.trans e
  extract_lets ch w
  split
  next e => cases htag.symm.trans e
  rename_i l' e
  obtain rfl : l = l' := Option.some.inj (htag.symm.trans e)
  extract_lets tag p s1 s2 s3
  rw [if_neg (by simpa [p, tag, ch, hlive, hfree, hring] using hcredit)]
  split
  next e => cases hclean.symm.trans e
  split
  rename_i rc folded hrec
  extract_lets s4 s5 s6
  have hs3 : WorkWithin s2 s3 := .ite (.refl s2) (spent_workWithin ..)
  have hs4 : WorkWithin (rowTaken ch l row s) s4 := by
    have hrc : s4 = fly ch tag.ring tag.seq tag.pos (formRecord s ch p tag l.temp row).1 s3 := by rw [hrec]
    rw [hrc]
    exact (hs3.updChan ch _).trans (bump_workWithin ..)
  have hs5 : WorkWithin s4 s5 := foldl_count_workWithin ..
  have hs6 : WorkWithin s5 s6 := (lensRowDone_workWithin ..).trans (spent_workWithin ..)
  have hcur5 : (s5.ring j).cur = some c := by
    have hs1 : s1.rings = s.rings := by
      unfold s1
      split <;> rfl
    have hs3 : s3.rings = s1.rings := by
      unfold s3
      split
      · rfl
      · exact spent_rings ..
    have hs5 : s5.rings = s3.rings := foldl_count_rings ..
    rw [State.ring_congr (hs5.trans (hs3.trans hs1)), hcur]
  have hcur6 : (s6.ring j).cur = some { c with rows := c.rows + 1, lb := c.lb + 0 } :=
    (congrArg Ring.cur (State.ring_congr (spent_rings ..) j)).trans (lensRowDone_cur hcur5 w 0)
  have hserve : samplerServe lens (lensEnd j 0 0 s6) = lensEnd j 0 0 s6 := by
    refine samplerServe_of_no_asks ?_
    rw [((hs4.trans hs5).trans (hs6.trans (lensEnd_workWithin ..))).srv, rowTaken_frame]
    exact hasks
  refine ⟨lensEnd j 0 0 s6, ?_, (hs4.trans hs5).trans (hs6.trans (lensEnd_workWithin ..)), ?_⟩
  · rw [hcur6]
    exact (if_pos hlast).trans (congrArg _ hserve)
  · rw [lensEnd_cur hcur6, ← hlast]

theorem chan_rowTaken_flight (ch : Nat) (l : TagList) (row : Bytes) (s : State) :
    ((rowTaken ch l row s).chan ch).flight = ((s.updChan ch (Chan.useTag l)).chan ch).flight ++ [s.rowRecord ch l row] := by
  unfold rowTaken
  rw [State.chan_updChan_of_flight (by simp)]
  split <;> rfl

theorem chan_rowTaken_other {ch k : Nat} (h : k ≠ ch) (l : TagList) (row : Bytes) (s : State) : (rowTaken ch l row s).chan k = s.chan k := by
  unfold rowTaken
  rw [State.chan_updChan_other _ _ h, State.chan_updChan_other _ _ h]
  split <;> rfl

/-- A STREAM ring has used a reserved credit. -/
theorem pring_rowTaken {ch n : Nat} {l : TagList} {s : State} (hn : (s.tagAt l.addr l.next).ring = n) (hbound : (s.pring ch n).bound = true)
    (horder : (s.pring ch n).order = 0) (row : Bytes) :
    (rowTaken ch l row s).pring ch n = { s.pring ch n with reserved := (s.pring ch n).reserved - 1 } := by
  subst hn
  unfold rowTaken
  extract_lets n p
  rw [if_pos horder]
  exact State.pring_setPring_of_bound s ch n hbound

end Sys2Proof.Machine
end

section
/-! PROOFS for 10_prism_distillation.md: descriptors, landings, turns, credits and resets of Prism rings. -/

namespace Sys2Proof.Machine
open Sys2Proof

/-! ### Descriptors at the head of a ring (R275, R291–R293) -/

section Head
variable {j ix ch : Nat} {d : Bytes} {s : State}

theorem execPrismRows_of_failed {st n : Nat} (hhead : s.prismHead j 0x10 = some (ix, d, ch)) (hcheck : rowsCheck ch d s = some (st, n)) :
    execPrismRows j s = .next (prismFail j ix d st n s) := by
  simp only [execPrismRows, hhead, hcheck]

variable (hhead : s.prismHead j 0x12 = some (ix, d, ch)) (hring : s.pringLive ch (field d 9 1) = true)
include hhead hring

/-- The open of a new block that fits its ring is asked for. -/
theorem execPrismBlockOpen_of_good {p : PRing} (hp : s.pring ch (field d 9 1) = p) (hop : field d 8 1 = 0) (horder : p.order = 1) (hkind : p.kind ≠ 2)
    (hlen : field d 28 4 ≠ 0) (hmax : field d 28 4 ≤ p.maxLen) (hnew : p.blockOf (field d 16 8) = none)
    (hopens : ∀ o ∈ (s.chan ch).opens, o.ring ≠ field d 9 1 ∨ o.seq ≠ field d 16 8) :
    execPrismBlockOpen j s = .next (openAsk ch
      { ring := field d 9 1, seq := field d 16 8, first := field d 24 4, len := field d 28 4, by_ := j + 1 } (served j (begin j ix d s))) := by
  subst hp
  have hfits : ¬((s.pring ch (field d 9 1)).order ≠ 1 || (s.pring ch (field d 9 1)).kind = 2 || field d 28 4 = 0
      || (s.pring ch (field d 9 1)).maxLen < field d 28 4) = true := by
    simp [horder, hkind, hlen, hmax]
  have hunasked : ((s.chan ch).opens.any fun o => o.ring == field d 9 1 && o.seq == field d 16 8) = false := by
    rw [List.any_eq_false]
    intro o ho
    rcases hopens o ho with h | h <;> simp [h]
  have hfresh : ¬(((s.pring ch (field d 9 1)).blockOf (field d 16 8)).isSome
      || (s.chan ch).opens.any fun o => o.ring == field d 9 1 && o.seq == field d 16 8) = true := by
    rw [hnew, hunasked]
    exact Bool.false_ne_true
  simp only [execPrismBlockOpen, hhead]
  rw [if_neg (by simp [hop]), if_neg (by simp [hop]), if_neg (by simpa using hring), if_neg hfits, if_neg hfresh]

/-- The end of an open block: here the task ends with it, else once the device of the ring has answered. -/
theorem execPrismBlockEnd_of_open (hop : field d 8 1 = 1) (hopen : ((s.pring ch (field d 9 1)).blockOf (field d 16 8)).isSome = true) :
    execPrismBlockEnd j s = .next (if (s.pring ch (field d 9 1)).sHere s then
        prismEnd j 0 0 0 0 0 (endBlock ch (field d 9 1) (field d 16 8) (served j (begin j ix d s)))
      else endBlock ch (field d 9 1) (field d 16 8) (served j (begin j ix d s))) := by
  have hthere : ¬(!s.pringLive ch (field d 9 1) || ((s.pring ch (field d 9 1)).blockOf (field d 16 8)).isNone) = true := by
    simp [hring, Option.isSome_iff_ne_none.mp hopen]
  simp only [execPrismBlockEnd, hhead]
  rw [if_neg (by simp [hop]), if_neg hthere]

end Head

/-! ### Landings (R273, R274, R289) -/

/-- The record that deficit round robin picks comes to its ring here, or leaves for the device that holds it. -/
theorem execPrismRecordLand_of_pick {ch k : Nat} {h : Flight × Nat × Nat} {turns : Drr} {s : State} (hlive : s.isFatal = false)
    (hpick : (s.chan ch).turns.pick (1 + Config.prismQuantum) ((s.flightHeads ch).map fun h => (h.2.1, h.2.2, h.1.bytes.length)) = some (k, turns))
    (hfind : (s.flightHeads ch).find? (fun h => h.2.1 == k) = some h) :
    execPrismRecordLand ch s = .next (if (s.pring ch h.1.ring).sHere s || !s.pringLive ch h.1.ring
      then arriveRecord ch h.1 (s.updChan ch fun x => { x with flight := x.flight.erase h.1, turns })
      else sendRecord ch h.1 (s.updChan ch fun x => { x with flight := x.flight.erase h.1, turns })) := by
  simp only [execPrismRecordLand, hpick, hfind, hlive]
  exact (apply_ite Host.Outcome.next _ _ _).symm

/-- A record of a BLOCK ring whose block is open lands at its position once, and strays outside the block. -/
theorem arriveRecord_of_block {ch : Nat} {f : Flight} {b : Blk} {s : State} {p : PRing} (hp : s.pring ch f.ring = p)
    (hring : s.pringLive ch f.ring = true) (horder : p.order ≠ 0) (hb : p.blockOf f.seq = some b) :
    arriveRecord ch f s =
      if b.first ≤ f.pos ∧ f.pos < b.first + b.len ∧ p.written.contains (p.posIx b f.pos) = false ∧ p.inUse (p.posIx b f.pos) = true then
        bump Config.tPrism ch 8 1 (placeRecord ch f.ring (p.posIx b f.pos) f.bytes s)
      else setErr Config.tPrism ch 1 (4096 * f.ring) 0 0 (bump Config.tPrism ch 12 1 s) := by
  subst hp
  unfold arriveRecord
  extract_lets p
  rw [if_neg (by simp [hring]), if_neg horder, hb]
  have hstray : (f.pos < b.first || b.first + b.len ≤ f.pos || p.written.contains (p.posIx b f.pos) || !p.inUse (p.posIx b f.pos)) = true
      ↔ ¬(b.first ≤ f.pos ∧ f.pos < b.first + b.len ∧ p.written.contains (p.posIx b f.pos) = false ∧ p.inUse (p.posIx b f.pos) = true) := by
    simp only [Bool.or_eq_true, decide_eq_true_eq, Bool.not_eq_true', Decidable.not_and_iff_not_or_not, Bool.not_eq_true, Bool.not_eq_false,
      Nat.not_le, Nat.not_lt, or_assoc]
  exact (ite_congr (propext hstray) (fun _ => rfl) fun _ => rfl).trans (ite_not ..)

/-! ### Deficit round robin (R289) -/

/-- Among finitely many, one is least by `f` and then by `g`. -/
theorem exists_lex_least {α : Type} (f g : α → Nat) {l : List α} (h : l ≠ []) :
    ∃ x ∈ l, ∀ y ∈ l, f x < f y ∨ f x = f y ∧ g x ≤ g y := by
  induction l with
  | nil => exact absurd rfl h
  | cons a l ih =>
    by_cases hl : l = []
    · subst hl
      exact ⟨a, List.mem_singleton_self a, fun y hy => .inr (List.mem_singleton.mp hy ▸ ⟨rfl, Nat.le_refl _⟩)⟩
    · obtain ⟨x, hx, hleast⟩ := ih hl
      by_cases hax : f a < f x ∨ f a = f x ∧ g a ≤ g x
      · refine ⟨a, List.mem_cons_self, fun y hy => ?_⟩
        rcases List.mem_cons.mp hy with rfl | hy
        · exact .inr ⟨rfl, Nat.le_refl _⟩
        · have hxy := hleast y hy
          omega
      · refine ⟨x, List.mem_cons_of_mem a hx, fun y hy => ?_⟩
        rcases List.mem_cons.mp hy with rfl | hy
        · omega
        · exact hleast y hy

/-- Where a source has data, one goes next. -/
theorem Drr.pick_isSome (quantum : Nat) {srcs : List (Nat × Nat × Nat)} (h : srcs ≠ []) (d : Drr) : (d.pick quantum srcs).isSome = true := by
  unfold Drr.pick
  extract_lets owed put
  split
  · rfl
  next rounds far before _ _ =>
    obtain ⟨x, hx, hleast⟩ := exists_lex_least rounds far h
    have hfind : (srcs.find? fun x => srcs.all fun y => before x y).isSome = true := by
      rw [List.find?_isSome]
      exact ⟨x, hx, List.all_eq_true.mpr fun y hy => decide_eq_true (hleast y hy)⟩
    split
    next e => simp [e] at hfind
    next => rfl

/-- The record that waits first in a source: no earlier record in flight is of that source. -/
theorem first_of_mem_flightHeads {ch : Nat} {s : State} {h : Flight × Nat × Nat} (hm : h ∈ s.flightHeads ch) :
    ∃ pre post, (s.chan ch).flight = pre ++ h.1 :: post ∧ ∀ g ∈ pre, (s.pring ch g.ring).kind = 2 ∨ s.flightSource ch g ≠ h.2.1 := by
  simp only [State.flightHeads, List.mem_filterMap, Option.map_eq_some_iff] at hm
  obtain ⟨k, -, f, hf, rfl⟩ := hm
  rw [List.find?_filter, List.find?_eq_some_iff_append] at hf
  obtain ⟨-, pre, post, hsplit, hpre⟩ := hf
  refine ⟨pre, post, hsplit, fun g hg => ?_⟩
  have hskip := hpre g hg
  by_cases hkind : (s.pring ch g.ring).kind = 2
  · exact .inl hkind
  · exact .inr (by simpa [hkind] using hskip)

/-! ### Credits (R276, R277) -/

/-- Flushing credits changes Prism rings, and what the message moves. -/
theorem crdSend_frame (key : Nat) (s : State) :
    (crdSend key s).now = s.now ∧ (crdSend key s).mem = s.mem ∧ (crdSend key s).cores = s.cores := by
  unfold crdSend
  extract_lets p u
  split
  · exact ⟨rfl, rfl, rfl⟩
  · split
    · exact ⟨rfl, rfl, rfl⟩
    · have h := prismSend_workWithin (key / 16) (key % 16) 2 p.pend [] (u.setPring (key / 16) (key % 16) { p with pend := 0 })
      exact ⟨h.now, h.mem, h.cores⟩

/-- The pending credits of a ring are on their way: with this device as transmit side they wait to arrive, else they have left in a message. -/
theorem pring_crdSend {key : Nat} {s : State} {p : PRing} (hp : s.pring (key / 16) (key % 16) = p) (hbound : p.bound = true) (hpend : p.pend ≠ 0) :
    (crdSend key s).pring (key / 16) (key % 16) = { p with pend := 0, crd := p.crd + if p.tHere s then p.pend else 0 } := by
  subst hp
  unfold crdSend
  extract_lets p u
  have hthere : p.tHere u = p.tHere s := rfl
  rw [if_neg hpend, hthere]
  cases p.tHere s with
  | true => exact State.pring_setPring_of_bound _ _ _ hbound
  | false =>
    rw [if_neg Bool.false_ne_true, (prismSend_workWithin ..).pring]
    exact State.pring_setPring_of_bound _ _ _ hbound

/-- The slot of the head record is free, and its credit is pending. -/
def PRing.release (p : PRing) (now : Nat) : PRing :=
  { p with head := p.next p.head, written := p.written.filter (· != p.head), pend := p.pend + 1, since := if p.pend = 0 then now else p.since }

theorem releaseHead_of_stream {key : Nat} {s : State} {p : PRing} (hp : s.pring (key / 16) (key % 16) = p) (horder : p.order = 0) :
    releaseHead key s =
      if s.prismCoalesce (key / 16) = 0 then crdSend key (s.setPring (key / 16) (key % 16) (p.release s.now))
      else s.setPring (key / 16) (key % 16) (p.release s.now) := by
  subst hp
  exact if_neg (by rw [horder]; decide)

/-- A released credit of a STREAM ring is pending, or on its way where credits are not held back. -/
theorem pring_releaseHead {key : Nat} {s : State} {p : PRing} (hp : s.pring (key / 16) (key % 16) = p) (hbound : p.bound = true)
    (horder : p.order = 0) :
    (releaseHead key s).pring (key / 16) (key % 16) =
      if s.prismCoalesce (key / 16) = 0 then { p.release s.now with pend := 0, crd := p.crd + if p.tHere s then p.pend + 1 else 0 }
      else p.release s.now := by
  have hread : (s.setPring (key / 16) (key % 16) (p.release s.now)).pring (key / 16) (key % 16) = p.release s.now :=
    State.pring_setPring_of_bound s _ _ hbound
  rw [releaseHead_of_stream hp horder]
  split
  · exact pring_crdSend hread hbound (Nat.succ_ne_zero _)
  · exact hread

/-! ### Ring resets (R295) -/

/-- Neither a mailbox nor a job has changed, and ring `n` of channel `ch`, where it was bound, is. -/
structure KeepsBound (ch n : Nat) (s t : State) : Prop where
  mbs : t.mbs = s.mbs
  jobs : t.jobs = s.jobs
  bound : (s.pring ch n).bound = true → (t.pring ch n).bound = true

namespace KeepsBound
variable {ch n : Nat} {s t u : State}

theorem refl (ch n : Nat) (s : State) : KeepsBound ch n s s := ⟨rfl, rfl, id⟩

theorem trans (h : KeepsBound ch n s t) (g : KeepsBound ch n t u) : KeepsBound ch n s u :=
  ⟨g.mbs.trans h.mbs, g.jobs.trans h.jobs, g.bound ∘ h.bound⟩

theorem ite {c : Prop} [Decidable c] (ht : KeepsBound ch n s t) (hu : KeepsBound ch n s u) : KeepsBound ch n s (if c then t else u) := by
  split
  · exact ht
  · exact hu

theorem foldl {α : Type} {f : State → α → State} (hf : ∀ s x, KeepsBound ch n s (f s x)) (l : List α) (s : State) :
    KeepsBound ch n s (l.foldl f s) :=
  List.foldlRecOn (motive := KeepsBound ch n s) l f (refl ch n s) fun t h x _ => h.trans (hf t x)

theorem of_prings (hmbs : t.mbs = s.mbs) (hjobs : t.jobs = s.jobs) (h : t.prings = s.prings) : KeepsBound ch n s t :=
  ⟨hmbs, hjobs, by unfold State.pring; rw [h]; exact id⟩

end KeepsBound

theorem WorkWithin.keepsBound {s t : State} (h : WorkWithin s t) (ch n : Nat) : KeepsBound ch n s t := .of_prings h.mbs h.jobs h.prings

/-- A change of a Prism ring that does not unbind it. -/
theorem updPring_keepsBound (ch n k : Nat) {f : PRing → PRing} (hf : ∀ p, (f p).bound = p.bound) (s : State) :
    KeepsBound ch n s (s.updPring ch k f) := by
  refine ⟨rfl, rfl, fun h => ?_⟩
  by_cases hk : n = k
  · subst hk
    have hb : (f (s.pring ch n)).bound = true := (hf _).trans h
    rwa [State.updPring_eq, State.pring_setPring_of_bound s ch n hb]
  · exact (congrArg PRing.bound (SMap.get_set_other s.prings (by omega : ch * 16 + n ≠ ch * 16 + k))).trans h

theorem updChan_keepsBound (ch n k : Nat) (f : Chan → Chan) (s : State) : KeepsBound ch n s (s.updChan k f) := .of_prings rfl rfl rfl

theorem setTaken_keepsBound (ch n inst port : Nat) (on : Bool) (s : State) : KeepsBound ch n s (setTaken inst port on s) :=
  .of_prings rfl rfl rfl

theorem unreserve_keepsBound (ch n addr i k : Nat) (s : State) : KeepsBound ch n s (unreserve ch addr i k s) :=
  .foldl (fun _ _ => updPring_keepsBound ch n _ (fun p => by split <;> rfl) _) _ s

theorem prismEnd_workWithin (j status reason rows start lb : Nat) (s : State) : WorkWithin s (prismEnd j status reason rows start lb s) := by
  unfold prismEnd
  split
  · exact finish_workWithin ..
  · exact .refl s

/-- A reset leaves the ring RESETTING, and neither a mailbox nor a job changed. -/
theorem pringReset_resets {ch n : Nat} {s : State} (hbound : (s.pring ch n).bound = true) (hst : (s.pring ch n).st ≠ 2) (reason : Nat) :
    (pringReset ch n reason s).mbs = s.mbs ∧ (pringReset ch n reason s).jobs = s.jobs
      ∧ ((pringReset ch n reason s).pring ch n).st = 2 ∧ ((pringReset ch n reason s).pring ch n).bound = true := by
  unfold pringReset
  extract_lets p gone s1 s2 s3 dropped s4 s5 s6
  have h1 : KeepsBound ch n s s1 := by
    refine .foldl (fun a lens => ?_) _ s
    split
    · exact .ite (((setErr_workWithin ..).trans (lensEnd_workWithin ..)).keepsBound ch n) (.refl ch n a)
    · exact .refl ch n a
  have h2 : KeepsBound ch n s1 s2 :=
    .foldl (fun a l => (KeepsBound.ite (unreserve_keepsBound ..) (.refl ch n a)).trans ((bump_workWithin ..).keepsBound ch n)) _ s1
  have h3 : KeepsBound ch n s2 s3 := by
    refine .foldl (fun a r => ?_) _ s2
    split
    · exact .ite ((KeepsBound.ite (unreserve_keepsBound ..) (.refl ch n a)).trans ((prismEnd_workWithin ..).keepsBound ch n)) (.refl ch n a)
    · exact .refl ch n a
  have h4 : KeepsBound ch n s3 s4 := .ite (.refl ch n s3) ((bump_workWithin ..).keepsBound ch n)
  have h5 : KeepsBound ch n s4 s5 := updChan_keepsBound ..
  have h6 : KeepsBound ch n s5 s6 := .ite (setTaken_keepsBound ..) (.refl ch n s5)
  have h : KeepsBound ch n s s6 := ((h1.trans h2).trans (h3.trans h4)).trans (h5.trans h6)
  rw [if_neg (by simp [p, hbound, hst])]
  clear_value s6
  have hread : (s6.updPring ch n fun p => { p with st := 2 }).pring ch n = { s6.pring ch n with st := 2 } :=
    State.pring_setPring_of_bound s6 ch n (h.bound hbound)
  exact ⟨h.mbs, h.jobs, congrArg PRing.st hread, (congrArg PRing.bound hread).trans (h.bound hbound)⟩

theorem Tells.mbs {s t : State} (h : Tells s t) : t.mbs = s.mbs := by rw [h]; rfl
theorem Tells.jobs {s t : State} (h : Tells s t) : t.jobs = s.jobs := by rw [h]; rfl
theorem Tells.pring {s t : State} (h : Tells s t) (ch n : Nat) : t.pring ch n = s.pring ch n := by
  have hp : t.prings = s.prings := by rw [h]; rfl
  unfold State.pring
  rw [hp]

theorem pringNotice_tells (c : Nat) (s : State) : Tells s (pringNotice c s) := by
  unfold pringNotice
  exact Tells.trans (t := s.fresh.2) rfl (notify_tells ..)

/-- A reset that an error bit precedes, and that notices, log entries and records follow. -/
theorem resets_of_tells {ch n bit ring reason : Nat} {s t : State} (hbound : (s.pring ch n).bound = true) (hst : (s.pring ch n).st ≠ 2)
    (h : Tells (pringReset ch n reason (setErr Config.tPrism ch bit ring 0 reason s)) t) :
    t.mbs = s.mbs ∧ t.jobs = s.jobs ∧ (t.pring ch n).st = 2 ∧ (t.pring ch n).bound = true := by
  rw [h.mbs, h.jobs, h.pring]
  exact pringReset_resets (s := setErr Config.tPrism ch bit ring 0 reason s) hbound hst reason

end Sys2Proof.Machine
end

section
/-! PROOFS for 10_prism_distillation.md: the statement of O52, and a state that refutes it. -/

namespace Sys2Proof.Machine
open Sys2Proof

/-! ### The statement where channels are listed once -/

/-- What O52 says of PRISM_ROW_ACCEPT (R268), of the states that `good` picks. -/
def RowAcceptClause (good : State → Prop) : Prop :=
  ∀ (lens j : Nat) (d row : Bytes) (l : TagList) (c : Cur) (s : State), good s → s.heldRow lens = some (j, d, row) → let ch := field d 14 2
    s.nextList ch lens = some l → let tag := s.tagAt l.addr l.next
    let p := s.pring ch tag.ring
    s.isFatal = false → s.wf = true → (s.unit Config.tPrism ch).hold = false → s.pringLive ch tag.ring = true → (p.order = 0 → p.reserved ≠ 0) →
    s.mapPoison p row = none → (s.ring j).cur = some c → c.rows + 1 = lRows d → (∀ a ∈ s.srv.asks, a.2.2 ≠ lens) →
    ∃ t, exec (.prismRowAccept lens) s = .next t ∧ t.mem = s.mem ∧ t.mbs = s.mbs ∧ t.jobs = s.jobs ∧ (∀ k, k ≠ ch → t.chan k = s.chan k)
      ∧ (t.chan ch).flight = (s.chan ch).flight ++ [{ ring := tag.ring, seq := tag.seq, pos := tag.pos, bytes := (formRecord s ch p tag l.temp row).1 }]
      ∧ (p.order = 0 → (t.pring ch tag.ring) = { p with reserved := p.reserved - 1 })
      ∧ (t.ring j).cur.map (fun c => (c.phase, c.status, c.rows)) = some (1, 0, lRows d)

/-- Where the map of channels is canonical, the clause holds. -/
theorem rowAcceptClause_of_canonical : RowAcceptClause fun s => SMap.wf Chan.init s.chans = true := by
  intro lens j d row l c s hchans hheld ch htag tag p hlive hwf hfree hring hcredit hclean hcur hlast hasks
  obtain ⟨t, hexec, hwork, hend⟩ := execPrismRowAccept_of_last ⟨hheld, rfl, htag, hlive, hfree, hring, hcredit, hclean⟩ hcur hlast hasks
  have hframe := rowTaken_frame ch l row s
  have hbound : p.bound = true := by
    simp only [State.pringLive, Bool.and_eq_true] at hring
    exact hring.1.1
  refine ⟨t, hexec, ?_, ?_, ?_, fun k hk => ?_, ?_, fun horder => ?_, hend⟩
  · rw [hwork.mem, hframe]
  · rw [hwork.mbs, hframe]
  · rw [hwork.jobs, hframe]
  · rw [hwork.chan, chan_rowTaken_other hk]
  · rw [hwork.chan, chan_rowTaken_flight, State.chan_updChan_self hchans]
    rfl
  · rw [hwork.pring]
    exact pring_rowTaken rfl hbound horder row

/-- The statement of O52, its clause on PRISM_ROW_ACCEPT for the states that `good` picks. -/
def PrismCommandsOn (good : State → Prop) : Prop :=
  ((∀ (j ix ch : Nat) (d : Bytes) (s : State),
     (s.prismHead j 0x10 = some (ix, d, ch) →
       (rowsCheck ch d s = none → s.hbmBad (field d 16 8) (16 * field d 10 2) = false →
         exec (.prismRows j) s = .next (rowsGo j (field d 10 2 + 2) (hbmTaken (field d 16 8) (16 * field d 10 2) (served j (begin j ix d s)))))
       ∧ (∀ n, rowsCheck ch d s = some (0x111, n) → exec (.prismRows j) s = .next
           (failCheck j ix d 0x111 (reasonDetail Config.tPrism d 1) false (setErr Config.tPrism (s.ring j).unitInst 0 (j + 4096 * n) ix 1 s)))
       ∧ (∀ st n, rowsCheck ch d s = some (st, n) → st ≠ 0x111 → exec (.prismRows j) s = .next
           (failArg j ix d st (setErr Config.tPrism (s.ring j).unitInst 6 (j + 4096 * n) ix 5 s))))
     ∧ (s.prismHead j 0x11 = some (ix, d, ch) → tapCheck ch d s = none → s.hbmBad (field d 24 8) (16 * field d 12 2) = false →
         s.firstMarked (field d 10 2) ((List.range (field d 12 2)).map (tapRow d (s.pring ch (field d 8 1)))) = none →
         exec (.prismTap j) s = .next (tapGo j (field d 12 2 + 1) (served j (begin j ix d s))))
     ∧ (s.prismHead j 0x12 = some (ix, d, ch) → let n := field d 9 1
         let p := s.pring ch n
         let o : BlkOpen := { ring := n, seq := field d 16 8, first := field d 24 4, len := field d 28 4, by_ := j + 1 }
         let u := (served j (begin j ix d s)).updChan ch fun x => { x with opens := x.opens ++ [o] }
         s.pringLive ch n = true →
         (field d 8 1 = 0 → p.order = 1 → p.kind ≠ 2 → field d 28 4 ≠ 0 → field d 28 4 ≤ p.maxLen → p.blockOf (field d 16 8) = none →
           (∀ o ∈ (s.chan ch).opens, o.ring ≠ n ∨ o.seq ≠ field d 16 8) →
           exec (.prismBlockOpen j) s = .next (if (u.pring ch n).sHere u then u
             else prismSend ch n 3 0 (leBytes 8 o.seq ++ leBytes 4 o.first ++ leBytes 4 o.len) u))
         ∧ (field d 8 1 = 1 → (p.blockOf (field d 16 8)).isSome = true →
           let v := endBlock ch n (field d 16 8) (served j (begin j ix d s))
           exec (.prismBlockEnd j) s = .next (if p.sHere s then prismEnd j 0 0 0 0 0 v else v))))
   ∧ (∀ (ch n : Nat) (o : BlkOpen) (s : State), let p := s.pring ch n
     s.isFatal = false → ((s.chan ch).opens.find? fun o => o.ring == n) = some o → p.sHere s = true → o.len ≤ p.free → p.blocks.length < 256 →
     exec (.blockGrant ch n) s = .next (openDone ch o p.tail ((s.setPring ch n { p with
       free := p.free - o.len, tail := (p.tail + o.len) % (2 * p.slots)
       blocks := p.blocks ++ [{ seq := o.seq, first := o.first, len := o.len, start := p.tail }] }).updChan ch fun x => { x with opens := x.opens.erase o })))
   ∧ (∀ (ch n : Nat) (o : BlkOpen) (s : State), ((s.chan ch).opens.find? fun o => o.ring == n) = some o →
     ((s.pring ch n).free < o.len ∨ 256 ≤ (s.pring ch n).blocks.length) → exec (.blockGrant ch n) s = .next s)
   ∧ RowAcceptClause good
   ∧ (∀ (key : Nat) (s : State), let ch := key / 16
     let p := s.pring ch (key % 16)
     p.bound = true → p.st ≠ 2 → s.isFatal = false →
     (∀ cause, (cause = 0 ∨ p.remote ≠ 0xFFFF) → ∃ t, exec (.prismRingReset key cause) s = .next t ∧ t.mbs = s.mbs ∧ t.jobs = s.jobs
       ∧ (t.pring ch (key % 16)).st = 2 ∧ (t.pring ch (key % 16)).bound = true)
     ∧ (p.remote = 0xFFFF → exec (.prismRingReset key 1) s = .next s)))
  ∧ ((∀ (ch k : Nat) (h : Flight × Nat × Nat) (turns : Drr) (s : State), let hs := s.flightHeads ch
     let p := s.pring ch h.1.ring
     let u := s.updChan ch fun x => { x with flight := x.flight.erase h.1, turns }
     s.isFatal = false → (s.chan ch).turns.pick (1 + Config.prismQuantum) (hs.map fun h => (h.2.1, h.2.2, h.1.bytes.length)) = some (k, turns) →
     hs.find? (fun h => h.2.1 == k) = some h →
     (s.pringLive ch h.1.ring = true → p.sHere s = false → exec (.prismRecordLand ch) s = .next (sendRecord ch h.1 u))
     ∧ ((s.pringLive ch h.1.ring = false ∨ p.sHere s = true) → exec (.prismRecordLand ch) s = .next (arriveRecord ch h.1 u)))
   ∧ (∀ (ch : Nat) (s : State), s.flightHeads ch ≠ [] → ((s.chan ch).turns.pick (1 + Config.prismQuantum)
     ((s.flightHeads ch).map fun h => (h.2.1, h.2.2, h.1.bytes.length))).isSome = true)
   ∧ (∀ (ch : Nat) (s : State), ∀ h ∈ s.flightHeads ch, ∃ pre post, (s.chan ch).flight = pre ++ h.1 :: post
     ∧ ∀ g ∈ pre, (s.pring ch g.ring).kind = 2 ∨ s.flightSource ch g ≠ h.2.1)
   ∧ (∀ (ch : Nat) (f : Flight) (s : State), let p := s.pring ch f.ring
     let land (i : Nat) : State := bump Config.tPrism ch 8 1
       ((sramWrite (32 + p.core) (p.slotAt i) f.bytes s).updPring ch f.ring fun p => { p with written := NSet.ins i p.written })
     (s.pringLive ch f.ring = false → arriveRecord ch f s = bump Config.tPrism ch 7 1 s)
     ∧ (s.pringLive ch f.ring = true → p.order = 0 →
       arriveRecord ch f s = (land p.tail).updPring ch f.ring fun p => { p with tail := p.next p.tail })
     ∧ (∀ b, s.pringLive ch f.ring = true → p.order ≠ 0 → p.blockOf f.seq = some b → let i := p.posIx b f.pos
       arriveRecord ch f s = if b.first ≤ f.pos ∧ f.pos < b.first + b.len ∧ p.written.contains i = false ∧ p.inUse i = true then land i
         else setErr Config.tPrism ch 1 (4096 * f.ring) 0 0 (bump Config.tPrism ch 12 1 s)))
   ∧ (∀ (key : Nat) (s : State), let p := s.pring (key / 16) (key % 16)
     s.isFatal = false → p.pend ≠ 0 → ∃ t, exec (.prismCreditFlush key) s = .next t
       ∧ t.now = max s.now (p.since + cdiv (s.prismCoalesce (key / 16)) 2) ∧ t.mem = s.mem ∧ t.cores = s.cores
       ∧ (p.bound = true → t.pring (key / 16) (key % 16) = { p with pend := 0, crd := p.crd + if p.tHere s then p.pend else 0 }))
   ∧ (∀ (key n : Nat) (s : State), let p := s.pring (key / 16) (key % 16)
     let k := if p.remote = 0xFFFF then p.crd
       else min n (p.slots - p.free - p.reserved - ((s.chan (key / 16)).flight.filter fun f => f.ring == key % 16).length)
     s.isFatal = false → p.bound = true → p.st ≠ 2 →
     (k = 0 → exec (.prismCreditReturn key n) s = .next s)
     ∧ (k ≠ 0 → exec (.prismCreditReturn key n) s = .next (prismGo (key / 16) (s.setPring (key / 16) (key % 16)
         { p with free := p.free + k, crd := if p.remote = 0xFFFF then 0 else p.crd }))))
   ∧ (∀ (key : Nat) (s : State), let p := s.pring (key / 16) (key % 16)
     p.bound = true → p.order = 0 → let q := (releaseHead key s).pring (key / 16) (key % 16)
     (p.tHere s = true → q.pend + q.crd = p.pend + p.crd + 1) ∧ q.free = p.free ∧ q.reserved = p.reserved ∧ q.head = p.next p.head
       ∧ q.written = p.written.filter (· != p.head) ∧ (s.prismCoalesce (key / 16) ≠ 0 → q.crd = p.crd)))

/-- Of all states, this is the statement itself. -/
theorem prismCommandsOn_true_iff : PrismCommandsOn (fun _ => True) ↔ Obligations.PrismCommands := by
  unfold PrismCommandsOn Obligations.PrismCommands
  constructor
  · rintro ⟨⟨htasks, hgrant, hwait, hrow, hreset⟩, hflow⟩
    exact ⟨⟨htasks, hgrant, hwait, fun lens j d row l c s => hrow lens j d row l c s trivial, hreset⟩, hflow⟩
  · rintro ⟨⟨htasks, hgrant, hwait, hrow, hreset⟩, hflow⟩
    exact ⟨⟨htasks, hgrant, hwait, fun lens j d row l c s _ => hrow lens j d row l c s, hreset⟩, hflow⟩

/-- Where the map of channels is canonical, O52 holds. -/
theorem prismCommandsOn_canonical : PrismCommandsOn fun s => SMap.wf Chan.init s.chans = true := by
  unfold PrismCommandsOn
  refine ⟨⟨fun j ix ch d s => ⟨fun hhead => ⟨?rows, ?rowsSeal, ?rowsArg⟩, ?tap, ?block⟩, fun ch n o s => ?grant, fun ch n o s => ?noRoom,
      rowAcceptClause_of_canonical, fun key s => ?reset⟩,
    fun ch k h turns s => ?land, fun ch s => ?turn, fun ch s h hm => first_of_mem_flightHeads hm, fun ch f s => ?arrive, fun key s => ?flush,
    fun key n s => ?back, fun key s => ?release⟩
  case rows =>
    intro hcheck hclean
    show execPrismRows j s = _
    simp [execPrismRows, hhead, hcheck, hclean]
  case rowsSeal => exact fun n hcheck => (execPrismRows_of_failed hhead hcheck).trans (by simp [prismFail])
  case rowsArg => exact fun st n hcheck hst => (execPrismRows_of_failed hhead hcheck).trans (congrArg _ (if_neg hst))
  case tap =>
    intro hhead hcheck hclean hmarks
    show execPrismTap j s = _
    simp [execPrismTap, hhead, hcheck, hclean, hmarks]
  case block =>
    intro hhead n p o u hring
    exact ⟨execPrismBlockOpen_of_good hhead hring rfl, execPrismBlockEnd_of_open hhead hring⟩
  case grant =>
    intro p hlive ho hhere hroom hblocks
    show execBlockGrant ch n s = _
    have hready : ¬(s.isFatal || p.free < o.len || p.blocks.length ≥ 256 || !p.sHere s) = true := by
      simp [hlive, hhere, hroom, hblocks]
    simp only [execBlockGrant, ho]
    exact if_neg hready
  case noRoom =>
    intro ho hfull
    show execBlockGrant ch n s = _
    have hwait : (s.isFatal || (s.pring ch n).free < o.len || (s.pring ch n).blocks.length ≥ 256 || !(s.pring ch n).sHere s) = true := by
      rcases hfull with h | h <;> simp [h]
    simp only [execBlockGrant, ho]
    exact if_pos hwait
  case reset =>
    intro ch p hbound hst hlive
    have hgo : ¬(!p.bound || p.st = 2 || s.isFatal) = true := by simp [hbound, hst, hlive]
    refine ⟨fun cause hcause => ?_, fun hremote => ?_⟩
    · show ∃ t, execPrismRingReset key cause s = .next t ∧ _
      simp only [execPrismRingReset]
      rw [if_neg hgo]
      by_cases h0 : cause = 0
      · exact ⟨_, if_pos h0, resets_of_tells hbound hst ((pringNotice_tells ..).trans (raise_tells ..))⟩
      · exact ⟨_, (if_neg h0).trans (if_neg (hcause.resolve_left h0)), resets_of_tells hbound hst (pringNotice_tells ..)⟩
    · show execPrismRingReset key 1 s = _
      simp only [execPrismRingReset]
      exact (if_neg hgo).trans (if_pos hremote)
  case land =>
    intro hs p u hlive hpick hfind
    have hexec := execPrismRecordLand_of_pick hlive hpick hfind
    refine ⟨fun hring hhere => hexec.trans (congrArg _ (if_neg ?_)), fun hor => hexec.trans (congrArg _ (if_pos ?_))⟩
    · simp [hring, show (s.pring ch h.1.ring).sHere s = false from hhere]
    · rcases hor with hdead | hhere
      · simp [hdead]
      · simp [show (s.pring ch h.1.ring).sHere s = true from hhere]
  case turn =>
    intro h
    exact Drr.pick_isSome _ (by simpa using h) _
  case arrive =>
    intro p land
    refine ⟨fun hdead => if_pos ?_, fun hring horder => (if_neg ?_).trans (if_pos horder), fun b => arriveRecord_of_block rfl⟩
    · simp [hdead]
    · simp [hring]
  case flush =>
    intro p hlive hpend
    have hframe := crdSend_frame key (atLeast (p.since + cdiv (s.prismCoalesce (key / 16)) 2) s)
    refine ⟨_, if_neg (by simp [p, hlive, hpend]), hframe.1, hframe.2.1, hframe.2.2, fun hbound => ?_⟩
    exact pring_crdSend (s := atLeast (p.since + cdiv (s.prismCoalesce (key / 16)) 2) s) rfl hbound hpend
  case back =>
    intro p k hlive hbound hst
    have hexec : exec (.prismCreditReturn key n) s = .next (creditBack key n s) := if_neg (by simp [p, hlive, hbound, hst])
    rw [hexec]
    exact ⟨fun h => congrArg _ (if_pos h), fun h => congrArg _ (if_neg h)⟩
  case release =>
    intro p hbound horder q
    have hq : q = _ := pring_releaseHead rfl hbound horder
    by_cases hco : s.prismCoalesce (key / 16) = 0
    · rw [if_pos hco] at hq
      rw [hq]
      refine ⟨fun hhere => ?_, rfl, rfl, rfl, rfl, fun h => absurd hco h⟩
      show 0 + (p.crd + if p.tHere s then p.pend + 1 else 0) = _
      rw [if_pos hhere]
      omega
    · rw [if_neg hco] at hq
      rw [hq]
      exact ⟨fun _ => Nat.add_right_comm .., rfl, rfl, rfl, rfl, fun _ => rfl⟩

/-! ### A channel that is listed twice -/

/-- A task of one row for channel 0, about to end. -/
def oneRowTask : Cur :=
  { index := 0, desc := zeros 10 ++ leBytes 2 1, phase := 0, status := 0, lb := 0, detail := [], force := false, out := [], todo := [], ackBytes := 0
    ackSegs := 0, start := 0, last := 0, chk := none, fault := 0, fstat := 0, faddr := 0, rows := 0 }

/-- The list that tags that row: one tag, the zeros at address 0, which name ring 0. -/
def oneTagList : TagList := { lens := 0, addr := 0, rows := 1, next := 0, temp := 0, reserve := false }

/-- A record that only the second entry of channel 0 has in flight. -/
def shadowedRecord : Flight := { ring := 0, seq := 0, pos := 0, bytes := [] }

/-- Lens 0 holds a row for channel 0, which the map of channels lists twice: the first entry has the row's tag list and nothing else, so
that it becomes the initial value, and is dropped, once the tag is used. -/
def listedTwice : State := { State.reset with
  rings := [(1, { Ring.init with st := 1, unitType := Config.tLens, cur := some oneRowTask })]
  lens := [(1, { LensTask.init with held := some (zeros 32) })]
  prings := [(0, { PRing.init with bound := true, st := 1, order := 1 })]
  chans := [(0, { Chan.init with lists := [oneTagList] }), (0, { Chan.init with flight := [shadowedRecord] })] }

theorem listedTwice_mayAcceptRow : MayAcceptRow 0 0 1 oneRowTask.desc (zeros 32) oneTagList listedTwice where
  held := by decide
  chan := by decide
  tagged := by decide
  live := by decide
  free := by decide
  ring := by decide
  credit := by decide
  clean := by decide

theorem listedTwice_wf : listedTwice.wf = true := by decide

theorem not_rowAcceptClause : ¬ RowAcceptClause fun _ => True := by
  intro h
  obtain ⟨hheld, -, htag, hlive, hfree, hring, hcredit, hclean⟩ := listedTwice_mayAcceptRow
  obtain ⟨t, hexec, -, -, -, -, hflight, -, -⟩ := h 0 1 _ _ _ oneRowTask listedTwice trivial hheld htag hlive listedTwice_wf hfree hring hcredit hclean
    rfl rfl (by decide)
  obtain ⟨u, hexec', hwork, -⟩ := execPrismRowAccept_of_last listedTwice_mayAcceptRow (c := oneRowTask) rfl rfl (by decide)
  obtain rfl : t = u := Host.Outcome.next.inj (hexec.symm.trans hexec')
  have hshadowed : ((listedTwice.updChan 0 (Chan.useTag oneTagList)).chan 0).flight = [shadowedRecord] := by decide
  have hone : (t.chan 0).flight.length = 1 := congrArg List.length hflight
  have htwo : (t.chan 0).flight.length = 2 := by
    rw [hwork.chan, chan_rowTaken_flight, hshadowed]
    rfl
  omega

/-- Refutes O52, in its clause on PRISM_ROW_ACCEPT alone: the row's tag is used up before its record joins the flight, and where that leaves
the channel's entry as at reset, a second entry of the same channel, which `State.wf` does not rule out, answers for it (`listedTwice`). With each
channel listed once the statement holds (`prismCommandsOn_canonical`). -/
theorem not_prismCommands : ¬ Obligations.PrismCommands := by
  intro h
  obtain ⟨⟨-, -, -, hrow, -⟩, -⟩ := prismCommandsOn_true_iff.mpr h
  exact not_rowAcceptClause hrow

end Sys2Proof.Machine
end

section
/-! PROOFS for 11_training_support.md: jobs, and the ends of a stop. -/

namespace Sys2Proof.Machine
open Sys2Proof

/-- An admitted request whose rule fails: the state in which the rule ran stands. -/
theorem submit_of_run_fail {k : CmdSpec} {q : Request} {c : Nat} {p : Bytes} {ind : Option Indirect} {s : State} {st d : Nat}
    (h : admitted k q c p ind s = true) (hrun : k.run (issOf k.opcode c q s) p (s.taken k.opcode q) = .fail st d) :
    submit k q s = .next (concluded k q c p ind (s.taken k.opcode q) (.fail st d)) := by
  rw [submit_admitted h, hrun]

/-! ### Group 0x06 (R299–R304, R322) -/

theorem jobHandle_of_own {c h o : Nat} {s : State} {j : Job} (hj : s.job h = some j) (hown : j.ctx = c) : jobHandle c h o s = .inr j := by
  simp [jobHandle, hj, hown]

/-- A job as JOB_CREATE leaves it, of a payload `p`. -/
def jobCreated (c : Nat) (p : Bytes) : Job := { Job.init with
  ctx := c, header := p.take 256, binds := (List.range (field p 2 1)).map fun k => (p.drop (256 + 64 * k)).take 64 }

/-- Job `h` starts in a state in which its rings are bound; `blk` is the step block of a student job that resumes. -/
def jobStarted (h : Nat) (j : Job) (blk : Bytes) (s : State) : State :=
  let v := if j.student && !j.started then (if j.resume then loadStep blk s else freshStep j s) else s
  let w := v.setJob h { j with st := 1, started := true, fwd := j.teacher }
  if j.teacher then { w with sweeps := w.sweeps ++ [Sweep.start h j.image (some h) none j.batch] } else w

section Run
variable {i : Iss} {p : Bytes} {s : State} {j : Job}

theorem specJobCreate_run {h : Nat} (hmode : jobModeBad p s = false) (halone : bitOf (field p 1 1) 1 = true → s.studentJob = none)
    (hrange : headerRange p (s.jobLayers p) = none) (hrights : jobRights i.ctx p s = none) (hseal : jobSeal p s = none)
    (hblock : (bitOf (field p 1 1) 1 && bitOf (field p 1 1) 2) = true →
      s.hbmBad (field p 24 8) 64 = false ∧ stepBlockBad (s.hbmRead (field p 24 8) 64) = none)
    (hfree : ((List.range 4).find? fun h => (s.job h).isNone) = some h) :
    specJobCreate.run i p s = .ok (leBytes 2 h) (s.setJob h (jobCreated i.ctx p)) := by
  have hone : (bitOf (field p 1 1) 1 && s.studentJob.isSome) = false := by
    cases hrole : bitOf (field p 1 1) 1
    · rfl
    · simp [halone hrole]
  simp only [specJobCreate, hmode, hone, hrange, hrights, hseal, hfree]
  cases hresume : bitOf (field p 1 1) 1 && bitOf (field p 1 1) 2
  · rfl
  · obtain ⟨hread, hgood⟩ := hblock hresume
    simp only [hread, hgood]
    rfl

variable (hj : s.job (field p 0 2) = some j) (hown : j.ctx = i.ctx)
include hj hown

theorem specJobStart_run {u : State} (hst : j.st = 0 ∨ j.st = 3) (hbind : bindAll (field p 0 2) j j.binds 256 s = .inr u)
    (hblock : j.student = true → j.started = false → j.resume = true →
      s.hbmBad j.stepAddr 64 = false ∧ stepBlockBad (s.hbmRead j.stepAddr 64) = none) :
    specJobStart.run i p s = .ok [] (jobStarted (field p 0 2) j (s.hbmRead j.stepAddr 64) u) := by
  have hidle : ¬(decide (j.st ≠ 0) && decide (j.st ≠ 3)) = true := by
    rcases hst with h | h <;> simp [h]
  have hresumed : (j.student && !j.started && j.resume) = true →
      s.hbmBad j.stepAddr 64 = false ∧ stepBlockBad (s.hbmRead j.stepAddr 64) = none := by
    simp only [Bool.and_eq_true, Bool.not_eq_true']
    exact fun ⟨⟨hstudent, hstarted⟩, hresume⟩ => hblock hstudent hstarted hresume
  have hread : (j.student && !j.started && j.resume && s.hbmBad j.stepAddr 64) = false := by
    cases hfirst : j.student && !j.started && j.resume
    · rfl
    · exact (hresumed hfirst).1
  have hgood : (if j.student && !j.started && j.resume then stepBlockBad (s.hbmRead j.stepAddr 64) else none) = none := by
    split
    next hfirst => exact (hresumed hfirst).2
    next => rfl
  simp only [specJobStart, jobHandle_of_own hj hown, hbind, hread, hgood]
  rw [if_neg hidle]
  unfold jobStarted
  cases j.student && !j.started <;> rfl

theorem specJobStop_run_active (hst : j.st = 1) : specJobStop.run i p s = .pend (s.setJob (field p 0 2) { j with
    st := 2, stopOp := some i.handle, stopDelete := bitOf (field p 2 1) 0, stopAt := s.now }) := by
  simp only [specJobStop, jobHandle_of_own hj hown]
  exact if_pos hst

theorem specJobStop_run_delete (hdelete : bitOf (field p 2 1) 0 = true) (hactive : j.st ≠ 1) (hstopping : j.st ≠ 2) (hop : j.stopOp = none) :
    specJobStop.run i p s = if (s.jobRings (field p 0 2)).isEmpty
      then .ok (leBytes 8 (if j.student then s.step.step else 0)) { s with jobs := s.jobs.filter fun x => x.1 != field p 0 2 }
      else .pend (s.setJob (field p 0 2) { j with stopOp := some i.handle, stopDelete := true }) := by
  simp only [specJobStop, jobHandle_of_own hj hown]
  rw [if_neg hactive, if_neg (by simp [hdelete, hstopping, hop])]

theorem specJobStop_run_refused (hactive : j.st ≠ 1) (hundue : j.st = 2 ∨ bitOf (field p 2 1) 0 = false ∨ j.stopOp.isSome = true) :
    specJobStop.run i p s = .fail eState j.st := by
  simp only [specJobStop, jobHandle_of_own hj hown]
  rw [if_neg hactive, if_pos (by simpa [or_assoc] using hundue)]

theorem specJobQuery_run : specJobQuery.run i p s = .ok (leBytes 1 j.st ++ leBytes 1 j.ctx ++ zeros 6 ++
    (if j.student && j.started then stepBlock s.step else zeros 64)) s := by
  simp only [specJobQuery, jobHandle_of_own hj hown]

theorem specJobLedgerRead_run (hmin : 1 ≤ field p 16 4) (hmax : field p 16 4 ≤ 65535) (hledger : j.ledgerAddr ≠ 0)
    (hclean : ∀ a ∈ (List.range (field p 16 4)).map fun k => j.ledgerEntry (field p 8 8 + k), s.hbmBad a 576 = false) :
    specJobLedgerRead.run i p s = .ok
      (((List.range (field p 16 4)).map fun k => j.ledgerEntry (field p 8 8 + k)).flatMap fun a => s.hbmRead a 576) s := by
  have hnone : (((List.range (field p 16 4)).map fun k => j.ledgerEntry (field p 8 8 + k)).find? fun a => s.hbmBad a 576) = none :=
    List.find?_eq_none.mpr fun a ha => by simp [hclean a ha]
  simp only [specJobLedgerRead, jobHandle_of_own hj hown, hnone]
  rw [if_neg (by simp; omega), if_neg hledger]

end Run

/-! ### The ends of a job's rings and of its stop (R295, R304) -/

theorem execPrismRingResetComplete_of_resetting {k : Nat} {s : State} (hlive : s.isFatal = false)
    (hbound : (s.pring (k / 16) (k % 16)).bound = true) (hst : (s.pring (k / 16) (k % 16)).st = 2) :
    execPrismRingResetComplete k s
      = .next (jobStopEnd (s.pring (k / 16) (k % 16)).job (s.setPring (k / 16) (k % 16) PRing.init)) :=
  if_neg (by simp [hlive, hbound, hst])

/-- A window that a stop has waited 10 s for: both Update Units are INCONSISTENT and the job is ABORTED. -/
def stopTimedOut (h : Nat) (j : Job) (s : State) : State :=
  let t := atLeast (j.stopAt + 10 * Config.sec) s
  let u := inconsistent 1 j.ctx 0xFFFF 0 (inconsistent 0 j.ctx 0xFFFF 0 (setErr Config.tUpdate 1 5 0 0 7 (setErr Config.tUpdate 0 5 0 0 7 t)))
  jobAbort h (u.setJob h { j with stopOp := none })

theorem execJobStopWindowTimeout_of_open {h : Nat} {j : Job} {s : State} (hlive : s.isFatal = false) (hj : s.job h = some j) (hst : j.st = 2)
    (hstudent : j.student = true) (hopen : s.windowOpen = true) :
    execJobStopWindowTimeout h s = .next (match j.stopOp with
      | some o => finishOp j.ctx o 0x2603 ((s.upd (if (s.upd 0).window then 0 else 1)).attempt % 2 ^ 32) (leBytes 8 s.step.step) (stopTimedOut h j s)
      | none => stopTimedOut h j s) := by
  simp only [execJobStopWindowTimeout, hj]
  rw [if_neg (by simp [hst, hstudent, hopen, hlive])]
  cases j.stopOp <;> rfl

/-- Settles O23: each command by what its own rule leaves, each end by the branch that its hypotheses take. -/
theorem jobCommands : Obligations.JobCommands := by
  unfold Obligations.JobCommands
  refine ⟨fun q c p ind s => ⟨?create, ?start, ⟨?stop, ?delete, ?refused⟩, ?query, ?ledger⟩, fun k s => execPrismRingResetComplete_of_resetting,
    fun h j s hlive hj hst hstudent hopen => ?timeout⟩
  case create =>
    intro resume h hadm _ _ hmode halone hrange hrights hseal hblock hfree
    exact submit_of_run_ok hadm (specJobCreate_run (s := s.taken specJobCreate.opcode q) hmode halone hrange hrights hseal hblock hfree)
  case start =>
    intro h j u hadm hj hown hst hbind hblock
    exact submit_of_run_ok hadm (specJobStart_run (s := s.taken specJobStart.opcode q) hj hown hst hbind hblock)
  case stop =>
    intro j hadm _ hj hown hst
    exact submit_of_run_pend hadm (specJobStop_run_active (s := s.taken specJobStop.opcode q) hj hown hst)
  case delete =>
    intro j hadm hflags hj hown hactive hstopping hop
    have hrun := specJobStop_run_delete (i := issOf specJobStop.opcode c q s) (s := s.taken specJobStop.opcode q) hj hown (by simp [hflags, bitOf])
      hactive hstopping hop
    by_cases hempty : (s.jobRings (field p 0 2)).isEmpty = true
    · rw [if_pos hempty]
      exact submit_of_run_ok hadm (hrun.trans (if_pos hempty))
    · rw [if_neg hempty]
      exact submit_of_run_pend hadm (hrun.trans (if_neg hempty))
  case refused =>
    intro j hadm hj hown hactive hundue
    exact submit_of_run_fail hadm (specJobStop_run_refused (s := s.taken specJobStop.opcode q) hj hown hactive hundue)
  case query =>
    intro j hadm hj hown
    exact submit_of_run_ok hadm (specJobQuery_run (s := s.taken specJobQuery.opcode q) hj hown)
  case ledger =>
    intro at_ j hadm hj hown hmin hmax hledger hclean
    exact submit_of_run_ok hadm (specJobLedgerRead_run (s := s.taken specJobLedgerRead.opcode q) hj hown hmin hmax hledger hclean)
  case timeout =>
    exact execJobStopWindowTimeout_of_open hlive hj hst hstudent hopen

end Sys2Proof.Machine
end

section
/-! PROOFS for 11_training_support.md: the descriptors of an Update Unit. -/

namespace Sys2Proof.Machine
open Sys2Proof

/-! ### What the end of a descriptor leaves -/

theorem WorkWithin.upd {s t : State} (h : WorkWithin s t) (u : Nat) : t.upd u = s.upd u := by
  unfold State.upd
  rw [h]

theorem updEnd_workWithin (j status reason op nf elements lb : Nat) (s : State) : WorkWithin s (updEnd j status reason op nf elements lb s) := by
  unfold updEnd
  split
  · exact finish_workWithin ..
  · exact WorkWithin.trans (t := s.fresh.2) rfl (finish_workWithin ..)

/-- A skipped descriptor writes no memory. -/
theorem updSkip_mem (j u op : Nat) (s : State) : (updSkip j u op s).mem = s.mem :=
  ((updEnd_workWithin ..).trans (bump_workWithin ..)).mem

/-- Read after write of an Update Unit that is not as at reset. -/
theorem State.upd_updUpd_of_ne {s : State} {u : Nat} {f : Upd → Upd} (h : f (s.upd u) ≠ Upd.init) : (s.updUpd u f).upd u = f (s.upd u) :=
  SMap.get_set_ne h _ _

/-- An exchange that ends before its reduced data came leaves the attempt's shards not whole. -/
theorem exchangeLost_shardsOk (j u status reason : Nat) (s : State) : ((exchangeLost j u status reason s).upd u).shardsOk = false := by
  unfold exchangeLost
  rw [(updEnd_workWithin ..).upd, State.upd_updUpd_of_ne fun h => absurd (congrArg Upd.shardsOk h) (by simp [Upd.init])]

/-! ### UPD_EXCHANGE (R308, R309, R469) -/

section Exchange
variable {j ix u h : Nat} {d : Bytes} {job : Job} {others : Option (List Bytes)} {s : State}

/-- An exchange at work goes on with what has come of the others. -/
theorem execUpdExchange_of_started {c : Cur} (hcur : (s.ring j).cur = some c) (hjob : s.updJob = some (h, job)) (hphase : c.phase = 0)
    (hty : (s.ring j).unitType = Config.tUpdate) (hlive : s.isFatal = false) (hop : dOp c.desc = 0x10) :
    execUpdExchange j others s = .next (exchangeGo j (s.ring j).unitInst h job others s) := by
  simp [execUpdExchange, hcur, hjob, hphase, hty, hop, hlive]

variable (hidle : (s.ring j).cur = none) (hhead : s.updHead j 0x10 = some (ix, d, u, h, job))
include hidle hhead

theorem execUpdExchange_of_failed {st : Nat} (hcheck : exchangeCheck u (s.ring j).ctx d job s = some st) :
    execUpdExchange j others s = .next (windowGo (failArg j ix d st s)) := by
  simp only [execUpdExchange, hidle, hhead, hcheck]

variable (hcheck : exchangeCheck u (s.ring j).ctx d job s = none)
include hcheck

theorem execUpdExchange_of_replay {w : Replay} (hreplay : s.replayOf h = some w) :
    execUpdExchange j others s = .next (exchangeReplay j ix h d w s) := by
  simp only [execUpdExchange, hidle, hhead, hcheck, hreplay]

/-- Outside a replay this member's bucket is read: it is scanned, or its marked lines end the exchange. -/
theorem execUpdExchange_of_bucket {t : State} {n : Nat} (hreplay : s.replayOf h = none) (hn : field d 24 4 = n)
    (ht : hbmTaken (field d 28 8) (2 * n) (noteScale u d (served j (begin j ix d s))) = t) :
    execUpdExchange j others s = .next (if s.hbmBad (field d 28 8) (2 * n) = true
      then updMarked j u 0 (field d 28 8, 2 * n) (t.updUpd u fun x => { x with shardsOk := false })
      else exchangeGo j u h job others (scanLocal u d (elems 2 n (s.hbmRead (field d 28 8) (2 * n))) t)) := by
  simp only [execUpdExchange, hidle, hhead, hcheck, hreplay, hn, ht]
  exact (apply_ite ..).symm

end Exchange

/-! ### What ends the wait of an exchange (R308, R317, R440–R443) -/

section ExchangeGo
variable {j u h : Nat} {job : Job} {others : Option (List Bytes)} {s : State}

theorem exchangeGo_of_lost (hlost : s.jobGroupSt job = 2 ∨ s.jobGroupSt job = 3) :
    exchangeGo j u h job others s = exchangeLost j u (groupStatus (s.jobGroupSt job)) 8 s := if_pos (by simpa using hlost)

theorem exchangeGo_of_alone (hbroken : s.jobGroupSt job ≠ 2) (hfailed : s.jobGroupSt job ≠ 3) (halone : (s.jobMembers job).length = 1) :
    exchangeGo j u h job others s = exchangeEnd j u h job [] s := (if_neg (by simp [hbroken, hfailed])).trans (if_pos halone)

variable (hready : s.jobGroupSt job = 1) (hmany : (s.jobMembers job).length ≠ 1)
include hready hmany

theorem exchangeGo_of_waiting : exchangeGo j u h job none s = s := by
  simp [exchangeGo, hready, hmany]

/-- The other members' buckets have come: they are one of each, and of this bucket's count, or do not match. -/
theorem exchangeGo_of_come {c : Cur} {l : List Bytes} (hcur : (s.ring j).cur = some c) :
    exchangeGo j u h job (some l) s = if l.length = (s.jobMembers job).length - 1 ∧ ∀ b ∈ l, b.length = 2 * field c.desc 24 4
      then exchangeEnd j u h job l s else exchangeLost j u 0x2901 8 s := by
  simp [exchangeGo, hready, hmany, hcur]

end ExchangeGo

/-! ### UPD_COMMIT (R309, R469) -/

/-- An UPD_COMMIT is taken up: its unit's part of the contribution is ready. -/
def commitTaken (j ix u : Nat) (d : Bytes) (s : State) : State :=
  (served j (begin j ix d s)).updUpd u fun x => { x with commit := some j, applyCount := field d 16 2 }

theorem execUpdCommit_of_stale {j ix u h : Nat} {d : Bytes} {job : Job} {s : State} (hhead : s.updHead j 0x11 = some (ix, d, u, h, job))
    (hbad : updAttemptBad u d s = true) : execUpdCommit j s = .next (windowGo (failArg j ix d 0x10C s)) := by
  simp only [execUpdCommit, hhead]
  exact if_pos hbad

section Commit
variable {j ix u h : Nat} {d : Bytes} {job : Job} {s t : State} (hhead : s.updHead j 0x11 = some (ix, d, u, h, job))
  (hfresh : updAttemptBad u d s = false) (ht : commitTaken j ix u d s = t)
include hhead hfresh ht

/-- Outside a replay, and where no survivor's word is to be taken, only the state of the group is in the way of the contribution. -/
theorem execUpdCommit_of_word_due (hreplay : s.replayOf h = none) (hadopted : t.mirror.adopted = none) :
    execUpdCommit j s = .next (if (t.jobGroupSt job = 2 ∧ t.protOf h = none) ∨ t.jobGroupSt job = 3
      then (updEnd j (groupStatus (t.jobGroupSt job)) 8 1 0 0 0 t).updUpd u fun x => { x with commit := none } else commitGo h job t) := by
  unfold commitTaken at ht
  simp only [execUpdCommit, hhead, hfresh, hreplay, ht, hadopted, Bool.false_eq_true, ↓reduceIte, Bool.or_eq_true, Bool.and_eq_true,
    decide_eq_true_iff, Option.isNone_iff_eq_none]
  exact (apply_ite ..).symm

/-- In a replay the second of the two commits takes the retained word. -/
theorem execUpdCommit_of_retained {r : Replay} {q : Delta} {v : CommitWord} (hreplay : s.replayOf h = some r) (hq : r.queue.head? = some q)
    (hatt : q.attempt % 2 ^ 32 = dAttempt d) (hword : q.word = some v) (hboth : (t.upd 0).commit.isSome = true ∧ (t.upd 1).commit.isSome = true) :
    execUpdCommit j s = .next (takeWord h job v t) := by
  obtain ⟨qs, hqueue⟩ : ∃ qs, r.queue = q :: qs := List.head?_eq_some_iff.mp hq
  unfold commitTaken at ht
  simp only [execUpdCommit, hhead, hfresh, hreplay, hqueue, ht, hword, hboth, Bool.false_eq_true, ↓reduceIte, Bool.and_self]
  exact if_neg (not_not.mpr hatt)

end Commit

/-- The contributions of the members that sent one have come, so the word is formed. -/
theorem execCommitWordArrival_of_sent {h : Nat} {job : Job} {others : List Contribution} {s : State} (hjob : s.updJob = some (h, job))
    (hsent0 : (s.upd 0).sent = true) (hsent1 : (s.upd 1).sent = true) (hready : s.jobGroupSt job = 1) (hlive : s.isFatal = false) :
    execCommitWordArrival h others s = .next (takeWord h job
      (formWord (s.jobMembers job) (s.contribution :: others.filter fun c => c.dev != s.sysIndex)) s) := by
  simp [execCommitWordArrival, hjob, hsent0, hsent1, hready, hlive]

/-! ### UPD_APPLY (R313, R314) -/

/-- The end of an apply that has gone through its `n` elements: `r` is the state, and how many were left for their w and for a result. -/
def applyDone (j ix u n : Nat) (job : Job) (r : State × Nat × Nat) : State :=
  let left := r.2.1 + r.2.2
  let t := [(4, n - r.2.1 - r.2.2), (5, r.2.1), (6, r.2.2)].foldl (fun t c => if c.2 = 0 then t else bump Config.tUpdate u c.1 c.2 t) r.1
  updEnd j 0 0 2 left n ((n - r.2.1 - r.2.2) * (if job.opt = 0 then 12 else 8)) (if left = 0 then t else setErr Config.tUpdate u 4 j ix 0 t)

/-- No element was left. -/
theorem applyDone_of_all {j ix u n : Nat} {job : Job} {r : State × Nat × Nat} (hall : r.2 = (0, 0)) :
    applyDone j ix u n job r
      = updEnd j 0 0 2 0 n (n * (if job.opt = 0 then 12 else 8)) (if n = 0 then r.1 else bump Config.tUpdate u 4 n r.1) := by
  obtain ⟨t, left⟩ := r
  cases hall
  rfl

section Apply
variable {j ix u h : Nat} {d : Bytes} {job : Job} {s : State} (hhead : s.updHead j 0x12 = some (ix, d, u, h, job))
include hhead

theorem execUpdApply_of_failed {st : Nat} (hcheck : applyCheck u (s.ring j).ctx d job s = some st) :
    execUpdApply j s = .next (windowGo (failArg j ix d st s)) := by
  simp only [execUpdApply, hhead, hcheck]

variable (hcheck : applyCheck u (s.ring j).ctx d job s = none)
include hcheck

theorem execUpdApply_of_veto (hcause : s.step.cause ≠ 0) : execUpdApply j s = .next (updSkip j u 2 (served j (begin j ix d s))) := by
  simp only [execUpdApply, hhead, hcheck]
  exact if_pos hcause

variable (hcause : s.step.cause = 0)
include hcause

theorem execUpdApply_of_held (hheld : s.ckptHolds (applyRuns job d) = true) : execUpdApply j s = .next (spent Config.tMirror 0 [6] s) := by
  simp only [execUpdApply, hhead, hcheck]
  exact (if_neg (not_not.mpr hcause)).trans (if_pos hheld)

/-- An apply under an OK word whose runs no checkpoint holds and which can all be read. -/
theorem execUpdApply_of_clean {t : State} (hfree : s.ckptHolds (applyRuns job d) = false)
    (ht : served j (begin j ix d (ckptBefore (applyRuns job d) s)) = t)
    (hclean : ∀ x ∈ (field d 48 8, 2 * field d 16 4) :: applyRuns job d, t.hbmBad x.1 x.2 = false) :
    execUpdApply j s = .next (applyDone j ix u (field d 16 4) job
      (applyGo (applyConst job t.step (bitOf (field d 8 1) 0) (field d 44 4)) (field d 16 4) (field d 20 8) (field d 28 8) (field d 36 8) (field d 48 8)
        (field d 16 4) 0 (((field d 48 8, 2 * field d 16 4) :: applyRuns job d).foldl (fun s r => hbmTaken r.1 r.2 s) t))) := by
  have hnone : (((field d 48 8, 2 * field d 16 4) :: applyRuns job d).find? fun r => t.hbmBad r.1 r.2) = none :=
    List.find?_eq_none.mpr fun x hx => by simp [hclean x hx]
  simp only [execUpdApply, hhead, hcheck, ht, hnone]
  rw [if_neg (by simp [hcause]), if_neg (by simp [hfree])]
  rfl

end Apply

/-! ### UPD_GATHER (R315) -/

section Gather
variable {j ix u h : Nat} {d : Bytes} {job : Job} {others : Option (List Bytes)} {s : State}

/-- A gather at work goes on with what has come of the others. -/
theorem execUpdGather_of_started {c : Cur} (hcur : (s.ring j).cur = some c) (hjob : s.updJob = some (h, job)) (hphase : c.phase = 0)
    (hty : (s.ring j).unitType = Config.tUpdate) (hlive : s.isFatal = false) (hop : dOp c.desc = 0x13) :
    execUpdGather j others s = .next (gatherGo j (s.ring j).unitInst h job others s) := by
  simp [execUpdGather, hcur, hjob, hphase, hty, hop, hlive]

variable (hidle : (s.ring j).cur = none) (hhead : s.updHead j 0x13 = some (ix, d, u, h, job))
include hidle hhead

theorem execUpdGather_of_failed {st : Nat} (hcheck : updGatherCheck u (s.ring j).ctx d job s = some st) :
    execUpdGather j others s = .next (windowGo (failArg j ix d st s)) := by
  simp only [execUpdGather, hidle, hhead, hcheck]

variable (hcheck : updGatherCheck u (s.ring j).ctx d job s = none)
include hcheck

/-- Neither under a veto nor in a replay is there anything to gather. -/
theorem execUpdGather_of_skipped (hskip : s.step.cause ≠ 0 ∨ (s.replayOf h).isSome = true) :
    execUpdGather j others s = .next (updSkip j u 3 (served j (begin j ix d s))) := by
  simp only [execUpdGather, hidle, hhead, hcheck]
  exact if_pos (by simpa using hskip)

/-- This member's own range can be read, and no checkpoint holds the bucket. -/
theorem execUpdGather_of_clean {own : Nat × Nat} {t : State} (hcause : s.step.cause = 0) (hreplay : s.replayOf h = none)
    (hfree : s.ckptHolds [(field d 24 8, 2 * field d 20 4)] = false)
    (hown : ownRange (s.rankIn (s.jobMembers job)) (field d 20 4) (s.jobMembers job).length = own)
    (ht : served j (begin j ix d (ckptBefore [(field d 24 8, 2 * field d 20 4)] s)) = t)
    (hclean : t.hbmBad (field d 24 8 + 2 * own.1) (2 * (own.2 - own.1)) = false) :
    execUpdGather j others s
      = .next (gatherGo j u h job others (hbmTaken (field d 24 8 + 2 * own.1) (2 * (own.2 - own.1)) t)) := by
  simp only [execUpdGather, hidle, hhead, hcheck, hown, ht]
  rw [if_neg (by simp [hcause, hreplay]), if_neg (by simp [hfree]), if_neg (by simp [hclean])]

end Gather

/-! ### UPD_MARK (R321, R322) -/

/-- The attempt that a mark names: the one of its unit, which is `x`, or the next. -/
def markAttempt (x att : Nat) : Option Nat :=
  if att = x % 2 ^ 32 then some x else if att = (x + 1) % 2 ^ 32 then some (x + 1) else none

theorem markAttempt_of_mem {x a : Nat} (h : a ∈ [x, x + 1]) : markAttempt x (a % 2 ^ 32) = some a := by
  obtain rfl | rfl : a = x ∨ a = x + 1 := by simpa using h
  · exact if_pos rfl
  · exact (if_neg (by omega)).trans (if_pos rfl)

section Mark
variable {j ix u h : Nat} {d : Bytes} {job : Job} {s t : State} (hhead : s.updHead j 0x14 = some (ix, d, u, h, job))
include hhead

theorem execUpdMark_of_bad_phase (hphase : 31 < field d 8 1) : execUpdMark j s = .next (windowGo (failArg j ix d 0x108 s)) := by
  simp only [execUpdMark, hhead]
  exact if_pos hphase

variable (hphase : field d 8 1 ≤ 31) (ht : served j (begin j ix d s) = t)
include hphase ht

theorem execUpdMark_of_named {a : Nat} (hatt : markAttempt (t.upd u).attempt (dAttempt d) = some a) (hledger : job.ledgerAddr ≠ 0) :
    execUpdMark j s = .next (updEnd j 0 0 4 0 0 8 (markPut job a (field d 8 1) (bitOf (field d 9 1) 0) t)) := by
  unfold markAttempt at hatt
  simp only [execUpdMark, hhead, ht, hatt]
  exact (if_neg (Nat.not_lt.mpr hphase)).trans (if_neg hledger)

/-- A mark that is not filed only counts. -/
theorem execUpdMark_of_unfiled (hnone : job.ledgerAddr = 0 ∨ markAttempt (t.upd u).attempt (dAttempt d) = none) :
    execUpdMark j s = .next (updEnd j 0 0 4 0 0 0 (bump Config.tUpdate u 11 1 t)) := by
  cases hatt : markAttempt (t.upd u).attempt (dAttempt d)
  case none =>
    unfold markAttempt at hatt
    simp only [execUpdMark, hhead, ht, hatt]
    exact if_neg (Nat.not_lt.mpr hphase)
  case some a =>
    have hledger : job.ledgerAddr = 0 := hnone.resolve_right (by simp [hatt])
    unfold markAttempt at hatt
    simp only [execUpdMark, hhead, ht, hatt]
    exact (if_neg (Nat.not_lt.mpr hphase)).trans (if_pos hledger)

end Mark

/-! ### The update window (R313) -/

theorem windowGo_of_open {h : Nat} {job : Job} {s : State} (hjob : s.updJob = some (h, job))
    (hopen : ∀ u ∈ [0, 1], (s.upd u).window = false ∨ (s.upd u).applied < (s.upd u).applyCount) : windowGo s = s := by
  have hundue : ∀ u ∈ [0, 1], ((s.upd u).window && decide ((s.upd u).applyCount ≤ (s.upd u).applied)) = false := fun u hu => by
    rcases hopen u hu with hclosed | hfew
    · simp [hclosed]
    · simp [hfew]
  simp only [windowGo, hjob]
  exact List.foldlRecOn (motive := fun t => t = s) [0, 1] _ rfl fun t ht u hu => ht ▸ if_neg (by simp [ht, hundue u hu])

/-- Settles O53: each descriptor by the branch of its rule that the hypotheses take; what a collective waits for, what an apply ends with and
which window is due, by the lemmas above. -/
theorem updateCommands : Obligations.UpdateCommands := by
  unfold Obligations.UpdateCommands
  refine ⟨fun j ix u h d job others s hidle hhead => ⟨fun st => execUpdExchange_of_failed hidle hhead,
      fun w hcheck => execUpdExchange_of_replay hidle hhead hcheck, ?exchange, ?exchangeMarked⟩,
    fun j h c job others s hcur hjob hphase hty hlive => ⟨execUpdExchange_of_started hcur hjob hphase hty hlive,
      execUpdGather_of_started hcur hjob hphase hty hlive⟩,
    fun j u h job c l s hcur => ⟨fun hready hmany => ?come, ?alone, ?broken, ?failed, exchangeLost_shardsOk ..⟩,
    fun j ix u h d job s hhead => ⟨execUpdCommit_of_stale hhead, fun hfresh => ⟨fun hreplay hadopted => ⟨?commit, ?commitLost⟩, ?retained⟩⟩,
    fun h job others s => execCommitWordArrival_of_sent,
    fun j ix u h d job s hhead => ⟨fun st => execUpdApply_of_failed hhead, fun hcheck =>
      ⟨fun hcause => ⟨execUpdApply_of_veto hhead hcheck hcause, updSkip_mem ..⟩, execUpdApply_of_held hhead hcheck, ?apply⟩⟩,
    fun j ix u h d job others s hidle hhead => ⟨fun st => execUpdGather_of_failed hidle hhead, fun hcheck =>
      ⟨execUpdGather_of_skipped hidle hhead hcheck, ?gather⟩⟩,
    fun j ix u h d job s hhead => ⟨execUpdMark_of_bad_phase hhead, ?mark, ?unfiled⟩,
    fun h job s => windowGo_of_open⟩
  case exchange =>
    intro hcheck hreplay hclean
    exact (execUpdExchange_of_bucket hidle hhead hcheck hreplay rfl rfl).trans (congrArg _ (if_neg (by simp [hclean])))
  case exchangeMarked =>
    intro hcheck hreplay hbad
    exact (execUpdExchange_of_bucket hidle hhead hcheck hreplay rfl rfl).trans (congrArg _ (if_pos hbad))
  case come =>
    have hcome := exchangeGo_of_come (u := u) (h := h) (l := l) hready hmany hcur
    exact ⟨fun hall => hcome.trans (if_pos hall), fun hsome => hcome.trans (if_neg hsome), exchangeGo_of_waiting hready hmany⟩
  case alone => exact fun halone hbroken hfailed => exchangeGo_of_alone hbroken hfailed halone
  case broken =>
    intro hbroken
    rw [exchangeGo_of_lost (.inl hbroken), hbroken]
    rfl
  case failed =>
    intro hfailed
    rw [exchangeGo_of_lost (.inr hfailed), hfailed]
    rfl
  case commit =>
    intro hworks hprot
    refine (execUpdCommit_of_word_due hhead hfresh rfl hreplay hadopted).trans (congrArg _ (if_neg ?_))
    rintro (⟨hbroken, halone⟩ | hfailed)
    · exact absurd halone (Option.isSome_iff_ne_none.mp (hprot hbroken))
    · exact hworks hfailed
  case commitLost =>
    intro hlost
    exact (execUpdCommit_of_word_due hhead hfresh rfl hreplay hadopted).trans (congrArg _ (if_pos hlost.symm))
  case retained =>
    intro r q v hreplay hq hatt hword h0 h1
    exact execUpdCommit_of_retained hhead hfresh rfl hreplay hq hatt hword ⟨h0, h1⟩
  case apply =>
    intro hcause hfree runs t n r hclean hall
    exact (execUpdApply_of_clean hhead hcheck hcause hfree rfl hclean).trans (congrArg _ (applyDone_of_all hall))
  case gather =>
    intro hcause hreplay hfree hclean
    exact execUpdGather_of_clean hidle hhead hcheck hcause hreplay hfree rfl rfl hclean
  case mark =>
    intro hphase a ha hatt hledger
    exact execUpdMark_of_named hhead hphase rfl (hatt ▸ markAttempt_of_mem ha) hledger
  case unfiled =>
    intro hphase hnone
    exact execUpdMark_of_unfiled hhead hphase rfl (hnone.imp_right fun ⟨hthis, hnext⟩ => (if_neg hthis).trans (if_neg hnext))

end Sys2Proof.Machine
end

section
/-! PROOFS for 11_training_support.md: the commit word and the step state that it makes. -/

namespace Sys2Proof.Machine
open Sys2Proof

/-! ### Owned ranges (R308) -/

/-- Elements of a full owned range. -/
def ownStride (count p : Nat) : Nat := 64 * cdiv count (64 * p)

theorem le_ownStride_mul (count : Nat) {p : Nat} (hp : 0 < p) : count ≤ ownStride count p * p := by
  have hceil : count ≤ (64 * p) • (count ⌈/⌉ (64 * p)) := le_smul_ceilDiv (Nat.mul_pos (by decide) hp)
  rw [smul_eq_mul, Nat.ceilDiv_eq_add_pred_div] at hceil
  calc count ≤ 64 * p * cdiv count (64 * p) := hceil
    _ = ownStride count p * p := by rw [ownStride]; ring

/-- An element of the bucket is in the range of the one rank that its index, counted in full ranges, names. -/
theorem mem_ownRange_iff {count p i : Nat} (hp : 0 < p) (hi : i < count) (r : Nat) :
    ((ownRange r count p).1 ≤ i ∧ i < (ownRange r count p).2) ↔ i / ownStride count p = r := by
  have hpos : 0 < ownStride count p := Nat.pos_of_mul_pos_right (Nat.lt_of_lt_of_le (Nat.zero_lt_of_lt hi) (le_ownStride_mul count hp))
  show min (r * ownStride count p) count ≤ i ∧ i < min ((r + 1) * ownStride count p) count ↔ _
  rw [Nat.div_eq_iff hpos, Nat.succ_mul]
  omega

/-! ### The step state after a word (R307, R310, R312) -/

/-- What every word leaves in the step state, whatever its cause. -/
def wordNoted (job : Job) (w : CommitWord) (att tick : Nat) (x : StepState) : StepState := { x with
  attempt := att, cause := w.cause, vetoDev := w.vetoDev, vetoTensor := w.vetoTensor, norm := w.norm, clip := clipOf job w.norm
  participants := w.participants, commitTick := tick, useExp := x.scaleExp, flags := b2n w.isLocal }

/-- GROWTH clean steps have passed and the loss scale may still grow. -/
def scaleGrows (job : Job) (x : StepState) : Bool := decide (job.growth ≤ x.clean + 1) && decide (x.scaleExp < 24)

theorem ne_zero_of_bitOf {v i : Nat} (h : bitOf v i = true) : v ≠ 0 := by
  rintro rfl
  simp [bitOf] at h

section Word
variable {job : Job} {w : CommitWord} {att tick : Nat} {x : StepState}

theorem stepAfter_of_ok (h : w.cause = 0) : stepAfter job w att tick x = { wordNoted job w att tick x with
    step := (x.step + 1) % 2 ^ 64, scaleExp := x.scaleExp + b2n (scaleGrows job x)
    clean := if decide (job.growth ≤ x.clean + 1) then 0 else x.clean + 1, consecVeto := 0
    b1t := fMul x.b1t job.beta1, b2t := fMul x.b2t job.beta2, flags := b2n w.isLocal + 4 * b2n (scaleGrows job x) } := if_pos h

theorem stepAfter_of_nonfinite (h : bitOf w.cause 0 = true) : stepAfter job w att tick x = { wordNoted job w att tick x with
    scaleExp := x.scaleExp - 1, clean := 0, consecVeto := min 255 (x.consecVeto + 1)
    flags := b2n w.isLocal + 2 * b2n (x.scaleExp == 0) + 8 * b2n (x.scaleExp != 0) } :=
  (if_neg (ne_zero_of_bitOf h)).trans (if_pos h)

theorem stepAfter_of_other (h : w.cause ≠ 0) (hbit : bitOf w.cause 0 = false) : stepAfter job w att tick x = wordNoted job w att tick x :=
  (if_neg h).trans (if_neg (by simp [hbit]))

/-- The three kinds of word: OK, a veto for a non-finite element, and a veto for another cause. -/
theorem cause_cases (v : Nat) : v = 0 ∨ bitOf v 0 = true ∨ (v ≠ 0 ∧ bitOf v 0 = false) := by
  by_cases h : v = 0
  · exact .inl h
  · cases hbit : bitOf v 0
    · exact .inr (.inr ⟨h, rfl⟩)
    · exact .inr (.inl rfl)

/-- Only an OK word takes the step. -/
theorem stepAfter_of_veto (h : w.cause ≠ 0) : (stepAfter job w att tick x).step = x.step ∧ (stepAfter job w att tick x).b1t = x.b1t
    ∧ (stepAfter job w att tick x).b2t = x.b2t := by
  obtain hok | hbit | ⟨-, hbit⟩ := cause_cases w.cause
  · exact absurd hok h
  · simp [stepAfter_of_nonfinite hbit, wordNoted]
  · simp [stepAfter_of_other h hbit, wordNoted]

theorem stepAfter_noted (job : Job) (w : CommitWord) (att tick : Nat) (x : StepState) : let y := stepAfter job w att tick x
    y.clip = clipOf job w.norm ∧ y.attempt = att ∧ y.commitTick = tick ∧ y.useExp = x.scaleExp ∧ y.cause = w.cause ∧ y.norm = w.norm := by
  obtain hok | hbit | ⟨hveto, hbit⟩ := cause_cases w.cause
  · simp [stepAfter_of_ok hok, wordNoted]
  · simp [stepAfter_of_nonfinite hbit, wordNoted]
  · simp [stepAfter_of_other hveto hbit, wordNoted]

end Word

theorem clipOf_eq (job : Job) (norm : Nat) :
    clipOf job norm = if job.maxNorm = 0 ∨ fLe norm job.maxNorm = true then 0x3F800000 else fMul job.maxNorm (fRcp norm) := by
  simp [clipOf, one32]

/-- Bit 2 of the FLAGS of an OK word. -/
theorem bitOf_growFlags : ∀ loc grow : Bool, bitOf (b2n loc + 4 * b2n grow) 2 = grow := by decide

/-- Bits 3 and 1 of the FLAGS of a word that halves the scale. -/
theorem bitOf_halveFlags : ∀ loc zero pos : Bool, bitOf (b2n loc + 2 * b2n zero + 8 * b2n pos) 3 = pos
    ∧ bitOf (b2n loc + 2 * b2n zero + 8 * b2n pos) 1 = zero := by decide

/-! ### The word that contributions reduce to (R309) -/

/-- At most one contribution is of a device, so the search finds it wherever it stands. -/
theorem find?_dev_eq_some_iff {cs : List Contribution} (hdev : (cs.map (·.dev)).Nodup) {m : Nat} {c : Contribution} :
    (cs.find? fun c => c.dev == m) = some c ↔ c ∈ cs ∧ c.dev = m := by
  constructor
  · exact fun h => ⟨List.mem_of_find?_eq_some h, by simpa using List.find?_some h⟩
  · rintro ⟨hc, rfl⟩
    obtain ⟨e, he⟩ := Option.isSome_iff_exists.mp (List.find?_isSome (p := fun x => x.dev == c.dev) |>.mpr ⟨c, hc, by simp⟩)
    have hed : e.dev = c.dev := by simpa using List.find?_some he
    rw [he, List.inj_on_of_nodup_map hdev (List.mem_of_find?_eq_some he) hc hed]

theorem find?_dev_of_perm {cs ds : List Contribution} (h : cs.Perm ds) (hdev : (cs.map (·.dev)).Nodup) (m : Nat) :
    (cs.find? fun c => c.dev == m) = ds.find? fun c => c.dev == m := by
  ext c
  rw [find?_dev_eq_some_iff hdev, find?_dev_eq_some_iff ((h.map _).nodup_iff.mp hdev), h.mem_iff]

/-- The word depends on which contributions came, and not on their order. -/
theorem formWord_perm (ms : List Nat) {cs ds : List Contribution} (h : cs.Perm ds) (hdev : (cs.map (·.dev)).Nodup) :
    formWord ms cs = formWord ms ds := by
  simp only [formWord, find?_dev_of_perm h hdev]

/-- The contributions that came, by rank. -/
def cameByRank (ms : List Nat) (cs : List Contribution) : List Contribution := ms.filterMap fun m => cs.find? fun c => c.dev == m

theorem mem_cameByRank {ms : List Nat} {cs : List Contribution} {c : Contribution} :
    c ∈ cameByRank ms cs ↔ ∃ m ∈ ms, (cs.find? fun c => c.dev == m) = some c := List.mem_filterMap

/-- A cause byte of six bits, bit by bit as far as the rules of the word ask. -/
theorem causeBits : ∀ nf scale shards absent attempt norm : Bool,
    let v := b2n nf + 2 * b2n scale + 4 * b2n shards + 8 * b2n absent + 16 * b2n attempt + 32 * b2n norm
    bitOf v 0 = nf ∧ bitOf v 3 = absent ∧ (v = 0 → nf = false ∧ scale = false ∧ shards = false ∧ absent = false) := by decide

section Cause
variable (ms : List Nat) (cs : List Contribution)

theorem formWord_participants : (formWord ms cs).participants = (cameByRank ms cs).length := rfl

theorem formWord_cause :
    bitOf (formWord ms cs).cause 0 = ((cameByRank ms cs).any fun c => c.localNf || c.reducedNf)
    ∧ bitOf (formWord ms cs).cause 3 = decide ((cameByRank ms cs).length < ms.length)
    ∧ ((formWord ms cs).cause = 0 → ((cameByRank ms cs).any fun c => c.localNf || c.reducedNf) = false
      ∧ ((cameByRank ms cs).any fun c => !c.scaleOk) = false ∧ ((cameByRank ms cs).any fun c => !c.shardsOk) = false
      ∧ decide ((cameByRank ms cs).length < ms.length) = false) :=
  causeBits _ _ _ _ _ _

theorem formWord_nonfinite_iff : bitOf (formWord ms cs).cause 0 = true
    ↔ ∃ m ∈ ms, ∃ c, (cs.find? fun c => c.dev == m) = some c ∧ (c.localNf = true ∨ c.reducedNf = true) := by
  rw [(formWord_cause ms cs).1, List.any_eq_true]
  constructor
  · rintro ⟨c, hc, hnf⟩
    obtain ⟨m, hm, hfind⟩ := mem_cameByRank.mp hc
    exact ⟨m, hm, c, hfind, by simpa using hnf⟩
  · rintro ⟨m, hm, c, hfind, hnf⟩
    exact ⟨c, mem_cameByRank.mpr ⟨m, hm, hfind⟩, by simpa using hnf⟩

/-- Under an OK word every member's contribution came, and none vetoes. -/
theorem all_came_of_formWord_ok (h : (formWord ms cs).cause = 0) : ∀ m ∈ ms, ∃ c, (cs.find? fun c => c.dev == m) = some c
    ∧ c.localNf = false ∧ c.reducedNf = false ∧ c.scaleOk = true ∧ c.shardsOk = true := by
  obtain ⟨-, -, hok⟩ := formWord_cause ms cs
  obtain ⟨hnf, hscale, hshards, habsent⟩ := hok h
  intro m hm
  have hall : (cameByRank ms cs).length = ms.length := Nat.le_antisymm (List.length_filterMap_le ..) (by simpa using habsent)
  obtain ⟨c, hfind⟩ := Option.isSome_iff_exists.mp (List.filterMap_length_eq_length.mp hall m hm)
  have hc : c ∈ cameByRank ms cs := mem_cameByRank.mpr ⟨m, hm, hfind⟩
  simp only [List.any_eq_false, Bool.or_eq_true, not_or, Bool.not_eq_true, Bool.not_eq_false'] at hnf hscale hshards
  exact ⟨c, hfind, (hnf c hc).1, (hnf c hc).2, by simpa using hscale c hc, by simpa using hshards c hc⟩

end Cause

/-- Settles O54: ranges by the index counted in strides, the step state by the three kinds of word, the word by the contributions that came. -/
theorem commitWordRules : Obligations.CommitWordRules := by
  unfold Obligations.CommitWordRules
  refine ⟨fun count p i hp hi => ?tiles, fun job w att tick x => ⟨?taken, stepAfter_of_veto, ?halved, ?kept, ?growFlag, ?halveFlags, ?_⟩,
    fun ms cs ds => formWord_perm ms, fun ms cs => ⟨List.length_filterMap_le .., ?absent, formWord_nonfinite_iff ms cs, all_came_of_formWord_ok ms cs⟩⟩
  case tiles =>
    refine ⟨i / ownStride count p, Nat.div_lt_of_lt_mul (Nat.lt_of_lt_of_le hi (le_ownStride_mul count hp)), ?_⟩
    obtain ⟨hlo, hup⟩ := (mem_ownRange_iff hp hi (i / ownStride count p)).mpr rfl
    exact ⟨hlo, hup, fun q _ hqlo hqup => ((mem_ownRange_iff hp hi q).mp ⟨hqlo, hqup⟩).symm⟩
  case taken =>
    intro hok
    rw [stepAfter_of_ok hok]
    refine ⟨rfl, rfl, rfl, rfl, fun hfew => ?_, fun hmany => ?_⟩
    · have hfew' : ¬job.growth ≤ x.clean + 1 := by omega
      simp [scaleGrows, hfew', b2n]
    · by_cases hroom : x.scaleExp < 24 <;> simp [scaleGrows, hmany, hroom, b2n]
  case halved =>
    intro hbit
    rw [stepAfter_of_nonfinite hbit]
    exact ⟨rfl, rfl, rfl⟩
  case kept =>
    intro hveto hbit
    rw [stepAfter_of_other hveto hbit]
    exact ⟨rfl, rfl, rfl⟩
  case growFlag =>
    intro hok
    rw [stepAfter_of_ok hok]
    exact bitOf_growFlags _ _
  case halveFlags =>
    intro hbit
    rw [stepAfter_of_nonfinite hbit]
    by_cases hfloor : x.scaleExp = 0 <;> simp [bitOf_halveFlags, hfloor]
  case absent =>
    rw [(formWord_cause ms cs).2.1, decide_eq_true_iff, formWord_participants]
  · rw [← clipOf_eq]
    exact stepAfter_noted job w att tick x

end Sys2Proof.Machine
end

section
/-! PROOFS for 15_beam_links_collectives.md: the states of a port. -/

namespace Sys2Proof.Machine
open Sys2Proof

section Rows
variable {n : Nat} {s : State} (hon : s.beamOn n = true)
include hon

theorem execPortLightDetect_of_on {t : State} (ht : s.setPort n { s.port n with lightIn := true, lightRx := true } = t) :
    execPortLightDetect n s = .next (if (s.port n).st = 1 ∨ (s.port n).st = 6 then portTo n 2 t else t) := by
  simp only [execPortLightDetect, hon, ht, Bool.not_true, Bool.false_eq_true, ↓reduceIte, Bool.or_eq_true, decide_eq_true_iff]
  exact (apply_ite ..).symm

section Training
variable (hst : (s.port n).st = 2)
include hst

theorem execTrainingComplete_of_narrow {peer pport waves : Nat} {twin : Bool} (hwaves : waves ≠ 255) :
    execTrainingComplete n peer pport waves twin s = .next (portDown n (s.updPort n fun x => { x with
      waves := waves % 256, peer := peer % 1024, peerPort := pport % 64, peerOk := true
      twin := twin && peer % 64 == s.sys.podDev && peer / 64 == s.sys.pod })) := by
  simp [execTrainingComplete, hon, hst, hwaves]

/-- All eight wavelengths, and a peer of the same pod that is another device: the port comes into ACTIVE. -/
theorem execTrainingComplete_of_peer {peer pport : Nat} (hpod : peer / 64 = s.sys.pod) (hdev : peer % 64 ≠ s.sys.podDev) (hpeer : peer < 1024)
    (hpport : pport < 64) : execTrainingComplete n peer pport 255 false s = .next (portUp n (s.updPort n fun x => { x with
      waves := 255, peer, peerPort := pport, peerOk := true, twin := false })) := by
  simp [execTrainingComplete, hon, hst, hpod, hdev, Nat.mod_eq_of_lt hpeer, Nat.mod_eq_of_lt hpport]

theorem execTrainingTimeout_of_training : execTrainingTimeout n s
    = .next (portErr n 4 (portTo n 6 (atLeast ((s.port n).since + 100 * Config.ms) s))) :=
  if_neg (by simp [hon, hst])

end Training

/-- A port that carries traffic holds its flits for another route. -/
theorem execLossOfLight_of_carrying (hst : (s.port n).st = 3 ∨ (s.port n).st = 4) : execLossOfLight n s
    = .next (portErr n 3 (portTo n 1 (portHold n (s.setPort n { s.port n with lightRx := false })))) := by
  rcases hst with hst | hst <;> simp [execLossOfLight, hon, hst]

theorem execLossOfLight_of_training_or_isolated (hst : (s.port n).st = 2 ∨ (s.port n).st = 7) : execLossOfLight n s
    = .next (portTo n 1 (s.setPort n { s.port n with lightRx := false })) := by
  rcases hst with hst | hst <;> simp [execLossOfLight, hon, hst]

theorem execLossOfLight_of_failed (hst : (s.port n).st = 6) : execLossOfLight n s
    = .next (portTo n 2 (s.setPort n { s.port n with lightRx := false })) := by
  simp [execLossOfLight, hon, hst]

theorem execLaserInputLow_of_carrying (hst : (s.port n).st = 3 ∨ (s.port n).st = 4) : execLaserInputLow n s
    = .next (portErr n 3 (portTo n 1 (portHold n (portErr n 5 (s.setPort n { s.port n with lightIn := false }))))) := by
  rcases hst with hst | hst <;> simp [execLaserInputLow, hon, hst]

section Retraining
variable (hst : (s.port n).st = 4)
include hst

theorem execRetrainComplete_of_equalised : execRetrainComplete n true s = .next (portGo n (resendAll n (portTo n 3 (s.updPort n fun x => { x with
    retry := 0, retrained := true, eqGen := s.setting Config.tPort n 2 0 })))) := by
  simp [execRetrainComplete, hon, hst]

theorem execRetrainComplete_of_not_equalised : execRetrainComplete n false s = .next (portDown n s) := by
  simp [execRetrainComplete, hon, hst]

end Retraining

theorem execDownRetryTimer_of_down (hst : (s.port n).st = 5) : execDownRetryTimer n s
    = .next (portTo n 2 (atLeast ((s.port n).since + Config.sec) s)) := if_neg (by simp [hon, hst])

section Active
variable (hst : (s.port n).st = 3)
include hst

theorem execNullFlitTimer_of_active : execNullFlitTimer n s = .next (sendNull n (atLeast ((s.port n).lastTx + Config.us) s)) :=
  if_neg (by simp [hon, hst])

theorem execReplayReq_of_active : execReplayReq n s = .next (portReplay n s) := if_neg (by simp [hon, hst])

theorem execRetransmitTimerExpiry_of_unacked (hunacked : (s.port n).unacked ≠ []) : execRetransmitTimerExpiry n s
    = .next (portReplay n (bump Config.tPort n 8 1 (atLeast ((s.port n).oldest + 8 * Config.us) s))) :=
  if_neg (by simp [hon, hst, hunacked])

end Active
end Rows

/-- Settles O30: each row in the state of the port that its hypothesis names. -/
theorem portStates : Obligations.PortStates := by
  unfold Obligations.PortStates
  intro n s hon
  refine ⟨?light, ?peer, ?narrow, ?timeout, ?loss, ?lossBefore, ?lossFailed, ?laser, ?retrain, ?retry, ?active⟩
  case light => exact execPortLightDetect_of_on hon rfl
  case peer => exact fun hst peer pport => execTrainingComplete_of_peer hon hst
  case narrow => exact fun hst peer pport waves twin => execTrainingComplete_of_narrow hon hst
  case timeout => exact execTrainingTimeout_of_training hon
  case loss => exact execLossOfLight_of_carrying hon
  case lossBefore => exact execLossOfLight_of_training_or_isolated hon
  case lossFailed => exact execLossOfLight_of_failed hon
  case laser => exact execLaserInputLow_of_carrying hon
  case retrain => exact fun hst => ⟨execRetrainComplete_of_equalised hon hst, execRetrainComplete_of_not_equalised hon hst⟩
  case retry => exact execDownRetryTimer_of_down hon
  case active =>
    exact fun hst => ⟨execNullFlitTimer_of_active hon hst, execReplayReq_of_active hon hst, execRetransmitTimerExpiry_of_unacked hon hst⟩

end Sys2Proof.Machine
end

section
/-! PROOFS for 15_beam_links_collectives.md: the fields of flits, what a port receives, and its replay buffer. -/

namespace Sys2Proof.Machine
open Sys2Proof

/-! ### Fields of byte runs -/

theorem leNat_leBytes (n v : Nat) : leNat (leBytes n v) = v % 256 ^ n := by
  induction n generalizing v with
  | zero => simp [leBytes, leNat, Nat.mod_one]
  | succ n ih =>
    have hlow : (BitVec.ofNat 8 (v % 256)).toNat = v % 256 := by simp
    rw [leBytes, leNat, hlow, ih, Nat.pow_succ', Nat.mod_mul]

/-- A field that lies within a part of a run is a field of that part. -/
theorem field_slice (bs : Bytes) (a : Nat) {o n m : Nat} (h : o + n ≤ m) : field bs (a + o) n = field ((bs.drop a).take m) o n := by
  simp [field, List.drop_take, List.take_take, Nat.min_eq_left (show n ≤ m - o by omega)]

theorem splice_length (bs : Bytes) (o : Nat) (w : Bytes) (h : o + w.length ≤ bs.length) : (splice bs o w).length = bs.length := by
  simp [splice]
  omega

/-- What is spliced in stands there. -/
theorem take_drop_splice {bs : Bytes} {o : Nat} {w : Bytes} (h : o + w.length ≤ bs.length) : ((splice bs o w).drop o).take w.length = w := by
  have ho : (bs.take o).length = o := by simp; omega
  rw [splice, List.append_assoc, List.drop_take, List.drop_append_of_le_length (by omega), List.drop_eq_nil_of_le (by omega),
    List.take_take, Nat.min_eq_left (by omega)]
  simp

/-! ### Fields of flits (R428) -/

theorem crcBit_lt {c : Nat} (h : c < 2 ^ 32) : crcBit c < 2 ^ 32 := by
  unfold crcBit
  split
  · exact Nat.xor_lt_two_pow (by omega) (by decide)
  · omega

theorem crcByte_lt {c : Nat} (h : c < 2 ^ 32) (b : Byte) : crcByte c b < 2 ^ 32 :=
  List.foldlRecOn (motive := fun c => c < 2 ^ 32) (List.range 8) _ (Nat.xor_lt_two_pow h (Nat.lt_of_lt_of_le b.isLt (by decide)))
    fun _ hc _ _ => crcBit_lt hc

theorem crc32c_lt (bs : Bytes) : crc32c bs < 2 ^ 32 :=
  Nat.xor_lt_two_pow (List.foldlRecOn (motive := fun c => c < 2 ^ 32) bs _ (by decide) fun _ hc b _ => crcByte_lt hc b) (by decide)

section Fill
variable {f : Bytes} (hf : 252 ≤ f.length) (seq ack cls n : Nat)
include hf

/-- The six bytes behind KIND and CLASS of a flit that is filled in. -/
theorem flitFill_slice : ((flitFill f seq ack cls n).drop 2).take 6 = leBytes 2 seq ++ leBytes 2 ack ++ leBytes 1 cls ++ leBytes 1 n := by
  generalize hw : leBytes 2 seq ++ leBytes 2 ack ++ leBytes 1 cls ++ leBytes 1 n = w
  have hlen : w.length = 6 := by rw [← hw]; simp
  have hsplice := take_drop_splice (bs := f) (o := 2) (w := w) (by omega)
  have hbody : (splice f 2 w).length = f.length := splice_length f 2 w (by omega)
  rw [flitFill, hw, flitSeal, List.drop_append_of_le_length (by simp; omega), List.take_append_of_le_length (by simp; omega), List.drop_take,
    List.take_take, Nat.min_eq_left (by omega), ← hlen]
  exact hsplice

theorem field_flitFill_seq : field (flitFill f seq ack cls n) 2 2 = seq % 65536 := by
  rw [field_slice _ 2 (o := 0) (m := 6) (by omega), flitFill_slice hf]
  simp [field, leNat_leBytes]

theorem field_flitFill_ack : field (flitFill f seq ack cls n) 4 2 = ack % 65536 := by
  rw [field_slice _ 2 (o := 2) (m := 6) (by omega), flitFill_slice hf]
  simp [field, leNat_leBytes]

/-- A flit that is filled in carries its CRC. -/
theorem flitOk_flitFill : flitOk (flitFill f seq ack cls n) = true := by
  generalize hm : splice f 2 (leBytes 2 seq ++ leBytes 2 ack ++ leBytes 1 cls ++ leBytes 1 n) = m
  have hbody : (m.take 252).length = 252 := by
    rw [← hm, List.length_take, splice_length _ _ _ (by simp; omega)]
    omega
  have hseal : flitFill f seq ack cls n = m.take 252 ++ leBytes 4 (crc32c (m.take 252)) := by rw [flitFill, hm, flitSeal]
  have hcrc := Nat.mod_eq_of_lt (crc32c_lt (m.take 252))
  generalize m.take 252 = b at hbody hseal hcrc
  have htake : (flitFill f seq ack cls n).take 252 = b := by rw [hseal, ← hbody, List.take_left]
  have hdrop : (flitFill f seq ack cls n).drop 252 = leBytes 4 (crc32c b) := by rw [hseal, ← hbody, List.drop_left]
  have hfield : field (flitFill f seq ack cls n) 252 4 = crc32c b := by
    rw [field, hdrop, List.take_of_length_le (by simp), leNat_leBytes]
    exact hcrc
  rw [flitOk, hfield, htake, hseal]
  simp [hbody]

end Fill

/-! ### Flits on the wire (R429) -/

/-- Read after write of a port, of any value but that at reset. -/
theorem State.port_setPort_of_ne {s : State} {p : Nat} {x : Port} (h : x ≠ Port.init) : (s.setPort p x).port p = x :=
  SMap.get_set_ne h s.beam.ports p

theorem Port.ne_init_of_wire {x : Port} (h : x.wire ≠ []) : x ≠ Port.init := by
  rintro rfl
  exact h rfl

theorem Port.ne_init_of_unacked {x : Port} (h : x.unacked ≠ []) : x ≠ Port.init := by
  rintro rfl
  exact h rfl

theorem portEmit_port (p : Nat) (f : Bytes) (s : State) :
    (portEmit p f s).port p = { s.port p with wire := (s.port p).wire ++ [f], lastTx := s.now } :=
  State.port_setPort_of_ne (Port.ne_init_of_wire (by simp))

/-- Giving buffers back changes what is owed alone. -/
theorem Port.gave_eq (x : Port) : x.gave = { x with owed := x.gave.owed } := by
  unfold Port.gave
  split <;> rfl

/-- A NULL flit of a port that carries flits: it has the current ACK. -/
theorem sendNull_wire {p : Nat} {s : State} (hst : (s.port p).st = 3) : ∃ g, ((sendNull p s).port p).wire = (s.port p).wire ++ [g]
    ∧ field g 4 2 = (s.port p).rxExpect % 65536 := by
  have hx : { (s.port p).gave with ackSent := (s.port p).rxExpect } ≠ Port.init := by
    rw [Port.gave_eq]
    exact fun h => absurd (congrArg Port.st h) (by simp [hst, Port.init])
  refine ⟨flitFill (zeros 252) 0 (s.port p).rxExpect (s.port p).giveBack.1 (s.port p).giveBack.2, ?_, field_flitFill_ack (List.length_replicate ..).ge ..⟩
  simp only [sendNull]
  rw [portEmit_port, State.port_setPort_of_ne hx, Port.gave_eq]

/-- A numbered flit of port `x`, as it leaves. -/
def Port.numbered (x : Port) (f : Bytes) : Bytes := flitFill f x.txNext x.rxExpect x.giveBack.1 x.giveBack.2

/-- What a port is once a numbered flit has left: it keeps the flit. -/
theorem sendNumbered_port (p : Nat) (f : Bytes) (s : State) : (sendNumbered p f s).port p = { s.port p with
    owed := (s.port p).gave.owed, ackSent := (s.port p).rxExpect, txNext := ((s.port p).txNext + 1) % 65536
    unacked := (s.port p).unacked ++ [(s.port p).numbered f]
    oldest := if (s.port p).unacked.isEmpty then s.now else (s.port p).oldest
    wire := (s.port p).wire ++ [(s.port p).numbered f], lastTx := s.now } := by
  have hemit : (sendNumbered p f s).port p = (portEmit p ((s.port p).numbered f) (s.setPort p { (s.port p).gave with
      ackSent := (s.port p).rxExpect, txNext := ((s.port p).txNext + 1) % 65536
      unacked := (s.port p).unacked ++ [(s.port p).numbered f]
      oldest := if (s.port p).unacked.isEmpty then s.now else (s.port p).oldest })).port p := rfl
  rw [hemit, portEmit_port, State.port_setPort_of_ne (Port.ne_init_of_unacked (by simp)), Port.gave_eq]
  rfl

/-! ### Acknowledgement (R430) -/

/-- An ACK frees as many flits as it is ahead of the last. -/
theorem takeAck_frees {x y : Port} {a now : Nat} (hacked : x.txAcked < 65536) (ha : a < 65536)
    (hlen : x.unacked.length = (x.txNext + 65536 - x.txAcked) % 65536) (h : takeAck x a now = some y) :
    y.txAcked = a ∧ y.unacked.length + (a + 65536 - x.txAcked) % 65536 = x.unacked.length := by
  unfold takeAck at h
  extract_lets d at h
  split at h
  · cases h
  · split at h <;> cases h
    · constructor <;> omega
    · refine ⟨rfl, ?_⟩
      simp only [List.length_drop]
      omega

/-- Settles O32: the flit sent is the last of those kept, and its number the one before the next. -/
theorem replayBufferAgrees : Obligations.ReplayBufferAgrees := by
  unfold Obligations.ReplayBufferAgrees
  intro n f s hlen hnext hacked hroom t
  have hport : t.port n = _ := sendNumbered_port n f s
  rw [hport]
  refine ⟨?count, rfl, rfl, ⟨(s.port n).numbered f, rfl, fun hf => ⟨flitOk_flitFill hf .., ?number⟩⟩, fun a x ha hack => ?freed⟩
  case count =>
    simp only [List.length_append, List.length_singleton]
    omega
  case number => exact (field_flitFill_seq hf ..).trans (Nat.mod_eq_of_lt hnext)
  case freed =>
    obtain ⟨hack', hfreed⟩ := takeAck_frees hacked ha hlen hack
    refine ⟨?_, hfreed⟩
    rw [hack']
    split
    next h => exact h
    next => rfl

/-! ### BEAM_FLIT_RECEIVE (R430) -/

section Receive
variable {n : Nat} {f : Bytes} {s : State} (hon : s.beamOn n = true) (hst : (s.port n).st = 3)
include hon hst

theorem execBeamFlitReceive_of_crc (hok : flitOk f = false) :
    execBeamFlitReceive n f s = .next (portErr n 0 (bump Config.tPort n 4 1 s)) := by
  simp [execBeamFlitReceive, hon, hst, hok]

variable (hok : flitOk f = true)
include hok

theorem execBeamFlitReceive_of_bad_ack (hack : takeAck (s.port n) (field f 4 2) s.now = none) :
    execBeamFlitReceive n f s = .next (portDown n (portErr n 7 (bump Config.tPort n 1 1 s))) := by
  have hack' : takeAck ((bump Config.tPort n 1 1 s).port n) (field f 4 2) (bump Config.tPort n 1 1 s).now = none := hack
  simp only [execBeamFlitReceive, hack', hok]
  exact if_neg (by simp [hon, hst])

variable {x : Port} {t : State} (hack : takeAck (s.port n) (field f 4 2) s.now = some x)
  (ht : portGo n ((bump Config.tPort n 1 1 s).setPort n (takeCredit x f)) = t)
include hack ht

/-- ACK and CREDIT of a good flit have been taken, and what may go has gone: the rest is its number's to say. -/
theorem execBeamFlitReceive_of_ack : execBeamFlitReceive n f s =
    if flitKind f ≠ 1 ∧ flitKind f ≠ 2 then .next t
    else if field f 2 2 = (t.port n).rxExpect then
      .next (tellAck n (flitAccept n f (t.setPort n { t.port n with rxExpect := (field f 2 2 + 1) % 65536, asked := false })))
    else if ((t.port n).rxExpect + 65536 - field f 2 2) % 65536 ≤ 8192 then .next (bump Config.tPort n 5 1 t)
    else if (t.port n).asked ∨ replayFlits ≤ (t.port n).unacked.length then .next (bump Config.tPort n 6 1 t)
    else .next (sendNumbered n (fitTo 252 ([2] ++ zeros 12 ++ leBytes 1 1 ++ zeros 2 ++ leBytes 2 (t.port n).rxExpect))
      ((bump Config.tPort n 6 1 t).setPort n { t.port n with asked := true })) := by
  have hack' : takeAck ((bump Config.tPort n 1 1 s).port n) (field f 4 2) (bump Config.tPort n 1 1 s).now = some x := hack
  simp only [execBeamFlitReceive, hack', hok, ht, Bool.or_eq_true, Bool.and_eq_true, decide_eq_true_iff]
  exact if_neg (by simp [hon, hst])

end Receive

/-- Settles O31: what its CRC, its ACK and then its number make of a flit; and the ACK in what a port sends. -/
theorem flitReceive : Obligations.FlitReceive := by
  unfold Obligations.FlitReceive
  intro n f s hon hst
  refine ⟨execBeamFlitReceive_of_crc hon hst, execBeamFlitReceive_of_bad_ack hon hst, fun x hok hack => ?good⟩
  intro t y
  have hrow := execBeamFlitReceive_of_ack hon hst hok hack (t := t) rfl
  refine ⟨fun hkind => ?null, fun hkind hseq => ?expected, fun hkind hseq hdup => ?duplicate, fun hkind hgap => ?gap, sendNull_wire hst,
    fun m hm => ⟨(s.port n).numbered m, ?_, field_flitFill_ack (by omega) ..⟩⟩
  case null => exact hrow.trans (if_pos (by omega))
  case expected => exact (hrow.trans ((if_neg (by omega)).trans (if_pos hseq))).trans (by rw [hseq])
  case duplicate => exact hrow.trans ((if_neg (by omega)).trans ((if_neg hseq).trans (if_pos hdup)))
  case gap =>
    have hseq : field f 2 2 ≠ (t.port n).rxExpect := fun h => by
      rw [h, show y.rxExpect = (t.port n).rxExpect from rfl] at hgap
      omega
    exact (hrow.trans ((if_neg (by omega)).trans ((if_neg hseq).trans (if_neg (Nat.not_le.mpr hgap))))).trans (apply_ite ..).symm
  · rw [sendNumbered_port]

end Sys2Proof.Machine
end

section
/-! PROOFS for 12_streams_rings_hbm.md: the registers of a ring, and the descriptors that its unit fetches. -/

namespace Sys2Proof.Machine
open Sys2Proof

theorem Ring.ne_init_of_st {x : Ring} (h : x.st ≠ 0) : x ≠ Ring.init := by
  rintro rfl
  exact h rfl

/-- Read after write of a ring that is not FREE, whatever the map. -/
theorem State.ring_setRing_of_st (s : State) (j : Nat) {x : Ring} (h : x.st ≠ 0) : (s.setRing j x).ring j = x :=
  SMap.get_set_ne (Ring.ne_init_of_st h) s.rings j

theorem State.ring_setRing_other (s : State) {i j : Nat} (x : Ring) (h : i ≠ j) : (s.setRing j x).ring i = s.ring i :=
  SMap.get_set_other s.rings h

/-! ### Ring registers (R331, R333, R335) -/

/-- A distance between indices, counted upward round the ring. -/
theorem Ring.dist_eq_emod {r : Ring} {a b : Nat} (hb : b < 2 * r.slots) :
    (((a + 2 * r.slots - b) % (2 * r.slots) : Nat) : Int) = ((a : Int) - b) % (2 * r.slots) := by
  rw [Int.natCast_mod, Nat.cast_sub (by omega), Nat.cast_add, add_sub_right_comm, Int.add_emod_right]
  rfl

theorem Ring.tailValid_iff {r : Ring} {v : Nat} (hhead : r.head < 2 * r.slots) (htail : r.tail < 2 * r.slots) (hv : v < 2 * r.slots) :
    r.tailValid v = true ↔ ((v : Int) - r.head) % (2 * r.slots) ≤ r.slots
      ∧ ((v : Int) - r.tail) % (2 * r.slots) ≤ ((v : Int) - r.head) % (2 * r.slots) := by
  rw [← Ring.dist_eq_emod hhead, ← Ring.dist_eq_emod htail]
  simp only [Ring.tailValid, hv, decide_true, Bool.true_and, Bool.and_eq_true, decide_eq_true_iff, Int.ofNat_le]

theorem Ring.headValid_iff {r : Ring} {v : Nat} (hhead : r.head < 2 * r.slots) (hv : v < 2 * r.slots) :
    r.headValid v = true ↔ ((r.tail : Int) - v) % (2 * r.slots) ≤ ((r.tail : Int) - r.head) % (2 * r.slots) := by
  rw [← Ring.dist_eq_emod hhead, ← Ring.dist_eq_emod hv]
  simp only [Ring.headValid, hv, decide_true, Bool.true_and, decide_eq_true_iff, Int.ofNat_le]

section Registers
variable {j v : Nat} {s : State} (hlive : s.isFatal = false) (hst : (s.ring j).st ≠ 0)

/-- No ring names `j` as its completion ring: nothing waited for room in it. -/
theorem settleNamed_of_unnamed {u : State} (h : (u.rings.all fun r => r.2.completion != j) = true) : settleNamed j u = u := by
  have hnone : (u.rings.filter fun r => r.2.completion == j && r.2.kind == 0 && r.2.unitType != 0) = [] := by
    refine List.filter_eq_nil_iff.mpr fun r hr => ?_
    have hother := List.all_eq_true.mp h r hr
    simp only [bne_iff_ne, ne_eq] at hother
    simp [hother]
  rw [settleNamed, hnone, List.foldl_nil]

theorem refill_setRing_of_no_held {x : Ring} (hst : x.st ≠ 0) (hheld : x.held = []) (hkind : x.kind ≠ 2) :
    refill j (s.setRing j x) = s.setRing j x := by
  simp [refill, drainHeld, State.ring_setRing_of_st s j hst, hheld, hkind]

/-- A context that holds no record has none to write. -/
theorem drainEvents_of_no_held {c n : Nat} {u : State} (hheld : (u.ctx c).held = []) : drainEvents c n u = u := by
  cases n with
  | zero => rfl
  | succ n =>
    unfold drainEvents
    extract_lets x
    split
    next h => cases hheld.symm.trans h
    next => rfl

theorem refill_setRing_of_event_ring {x : Ring} (hst : x.st ≠ 0) (hheld : (s.ctx x.ctx).held = []) (hkind : x.kind = 2) :
    refill j (s.setRing j x) = s.setRing j x := by
  have hheld' : ((s.setRing j x).ctx x.ctx).held = [] := hheld
  simp [refill, State.ring_setRing_of_st s j hst, hkind, drainEvents_of_no_held hheld']

include hlive hst

theorem execRingTailWrite_of_valid (hrw : (s.ring j).tailRw = true) (hvalid : (s.ring j).tailValid (v % 2 ^ 32) = true) (hkind : (s.ring j).kind ≠ 1) :
    execRingTailWrite j v s = .next (s.setRing j { s.ring j with tail := v % 2 ^ 32 }) := by
  simp only [execRingTailWrite, hvalid]
  exact (if_neg (by simp [hlive, hst, hrw])).trans (if_pos hkind)

theorem execRingTailWrite_of_handles (hvalid : (s.ring j).tailValid (v % 2 ^ 32) = true) (hkind : (s.ring j).kind = 1) :
    execRingTailWrite j v s = .next (
      let u := s.setRing j { s.ring j with tail := v % 2 ^ 32, posted := Nat.lor (s.ring j).posted 2 }
      if bitOf (s.ring j).posted 0
      then slotsUndefined j (s.ring j).tail ((v % 2 ^ 32 + 2 * (s.ring j).slots - (s.ring j).tail) % (2 * (s.ring j).slots)) u else u) := by
  simp only [execRingTailWrite, hvalid]
  exact (if_neg (by simp [hlive, hst, hkind, Ring.tailRw])).trans (if_neg (not_not.mpr hkind))

theorem execRingTailWrite_of_invalid (hrw : (s.ring j).tailRw = true) (hvalid : (s.ring j).tailValid (v % 2 ^ 32) = false) :
    execRingTailWrite j v s = .next (s.setRing j { s.ring j with badWrite := true }) := by
  simp only [execRingTailWrite, hvalid]
  exact if_neg (by simp [hlive, hst, hrw])

theorem execRingHeadWrite_of_invalid (hrw : (s.ring j).headRw = true) (hvalid : (s.ring j).headValid (v % 2 ^ 32) = false) :
    execRingHeadWrite j v s = .next (s.setRing j { s.ring j with badWrite := true }) := by
  simp only [execRingHeadWrite, hvalid]
  exact if_neg (by simp [hlive, hst, hrw])

section Valid
variable (hvalid : (s.ring j).headValid (v % 2 ^ 32) = true)
include hvalid

theorem execRingHeadWrite_of_valid (hrw : (s.ring j).headRw = true) (hheld : (s.ring j).held = []) (hkind : (s.ring j).kind ≠ 2) :
    execRingHeadWrite j v s = .next (settleNamed j (s.setRing j { s.ring j with
      head := v % 2 ^ 32
      done := if (s.ring j).kind < 2 then ((s.ring j).done + (v % 2 ^ 32 + 2 * (s.ring j).slots - (s.ring j).head) % (2 * (s.ring j).slots)) % 2 ^ 32
              else (s.ring j).done })) := by
  simp only [execRingHeadWrite, hvalid, ↓reduceIte]
  rw [refill_setRing_of_no_held]
  · exact if_neg (by simp [hlive, hst, hrw])
  · exact hst
  · exact hheld
  · exact hkind

theorem execRingHeadWrite_of_event_ring (hkind : (s.ring j).kind = 2)
    (hheld : s.ctx (s.ring j).ctx = { s.ctx (s.ring j).ctx with held := [] }) :
    execRingHeadWrite j v s = .next (settleNamed j (s.setRing j { s.ring j with head := v % 2 ^ 32 })) := by
  have hdone : ¬(s.ring j).kind < 2 := by omega
  simp only [execRingHeadWrite, hvalid, hdone, ↓reduceIte]
  rw [refill_setRing_of_event_ring]
  · exact if_neg (by simp [hlive, hst, hkind, Ring.headRw])
  · exact hst
  · exact congrArg Context.held hheld
  · exact hkind

end Valid

theorem execRingCtrlArm_of_live : execRingCtrlArm j s = .next (s.setRing j { s.ring j with arm := true }) :=
  if_neg (by simp [hlive, hst])

omit hst in
theorem execRingCtrlRestart_of_drained (hkind : (s.ring j).kind = 0) (hdrained : (s.ring j).st = 4)
    (hserves : (s.unit (s.ring j).unitType (s.ring j).unitInst).oos = false) :
    execRingCtrlRestart j s = .next (s.setRing j { s.ring j with st := 1 }) := if_pos (by simp [hlive, hkind, hdrained, hserves])

omit hlive hst in
theorem execRingCtrlRestart_of_other (h : (s.ring j).kind ≠ 0 ∨ (s.ring j).st ≠ 4) : execRingCtrlRestart j s = .next s := by
  refine if_neg ?_
  rcases h with h | h <;> simp [h]

end Registers

/-- Settles O12: each register by whether the write is valid, and what is valid as a distance round the ring. -/
theorem ringRegisters : Obligations.RingRegisters := by
  unfold Obligations.RingRegisters
  refine ⟨fun j v s hlive hst => ⟨?tail, ?handles, ?badTail, ?head, ?events, fun u => settleNamed_of_unnamed, ?badHead, ?restart, ?other, ?arm⟩,
    fun r v _ hhead htail hv => ⟨r.tailValid_iff hhead htail hv, r.headValid_iff hhead hv⟩⟩
  case tail => exact execRingTailWrite_of_valid hlive hst
  case handles => exact execRingTailWrite_of_handles hlive hst
  case badTail => exact execRingTailWrite_of_invalid hlive hst
  case head => exact fun hrw hvalid => execRingHeadWrite_of_valid hlive hst hvalid hrw
  case events => exact execRingHeadWrite_of_event_ring hlive hst
  case badHead => exact execRingHeadWrite_of_invalid hlive hst
  case restart => exact execRingCtrlRestart_of_drained hlive
  case other => exact execRingCtrlRestart_of_other
  case arm => exact execRingCtrlArm_of_live hlive hst

/-! ### Fetching (R332) -/

/-- The descriptor of ring `j` that stands `i` slots ahead of HEAD, with its index; none where it cannot be read. -/
def State.slotAhead (s : State) (j i : Nat) : Nat × Option Bytes :=
  let r := s.ring j
  let ix := (r.head + i) % (2 * r.slots)
  (ix, if s.spaceBad r.space (r.slotAddr ix) 64 then none else some (s.spaceRead r.space (r.slotAddr ix) 64))

/-- A read of device memory for slot `i` ahead of HEAD is counted (R360). -/
def slotTaken (j i : Nat) (s : State) : State :=
  if (s.ring j).space = 0 then hbmTaken ((s.ring j).slotAddr (s.slotAhead j i).1) 64 s else s

/-- The next descriptor of ring `j` comes into its unit's queue. -/
def fetchOne (j : Nat) (s : State) : State :=
  (slotTaken j (s.ring j).fetched.length s).setRing j
    { s.ring j with fetched := (s.ring j).fetched ++ [s.slotAhead j (s.ring j).fetched.length] }

theorem fetchMore_succ (j n : Nat) (s : State) : fetchMore j (n + 1) s
    = if 8 ≤ (s.ring j).fetched.length ∨ (s.ring j).filled ≤ (s.ring j).fetched.length then s else fetchMore j n (fetchOne j s) := by
  simp only [fetchMore, Config.fetchAhead, ge_iff_le, Bool.or_eq_true, decide_eq_true_iff]
  rfl

/-- Read after write of a unit's registers, in a canonical map. -/
theorem State.unit_setUnit_self {s : State} (h : SMap.wf UnitRegs.init s.units = true) (ty inst : Nat) (x : UnitRegs) :
    (s.setUnit ty inst x).unit ty inst = x := SMap.get_set_self s.units (ukey ty inst) 0 h

/-- A counter that moves leaves the rest of its unit, and every other unit. -/
theorem bump_unit {s : State} (h : SMap.wf UnitRegs.init s.units = true) (ty inst n k ty' inst' : Nat) :
    (bump ty inst n k s).unit ty' inst' = { s.unit ty' inst' with cnt := ((bump ty inst n k s).unit ty' inst').cnt } := by
  unfold bump State.updUnit State.unit State.setUnit
  by_cases hkey : ukey ty' inst' = ukey ty inst
  · simp only [hkey, SMap.get_set_self s.units (ukey ty inst) 0 h]
  · simp only [SMap.get_set_other s.units hkey]

/-- `t` is `s` but for the queue of ring `j`, to which `k` descriptors have come, and for counters. -/
structure Fetches (j k : Nat) (s t : State) : Prop where
  ring : t.ring j = { s.ring j with fetched := (s.ring j).fetched ++ (List.range k).map fun i => s.slotAhead j ((s.ring j).fetched.length + i) }
  other : ∀ i, i ≠ j → t.ring i = s.ring i
  frame : t = { s with rings := t.rings, units := t.units }
  count : ∀ ty inst, t.unit ty inst = { s.unit ty inst with cnt := (t.unit ty inst).cnt }
  hostRing : (s.ring j).space ≠ 0 → t.units = s.units

namespace Fetches

theorem refl (j : Nat) (s : State) : Fetches j 0 s s :=
  ⟨by simp, fun _ _ => rfl, rfl, fun _ _ => rfl, fun _ => rfl⟩

theorem slotAhead {j k : Nat} {s t : State} (h : Fetches j k s t) (i : Nat) : t.slotAhead j i = s.slotAhead j i := by
  unfold State.slotAhead
  rw [h.ring, h.frame]
  rfl

theorem trans {j k l : Nat} {s t u : State} (h : Fetches j k s t) (g : Fetches j l t u) : Fetches j (k + l) s u where
  ring := by
    rw [g.ring]
    simp only [h.slotAhead]
    rw [h.ring]
    simp [List.range_add, Nat.add_assoc]
  other i hi := (g.other i hi).trans (h.other i hi)
  frame := by
    rw [g.frame, h.frame]
  count ty inst := by
    rw [g.count, h.count]
  hostRing hspace := (g.hostRing (by rw [h.ring]; exact hspace)).trans (h.hostRing hspace)

end Fetches

theorem slotTaken_units (j i : Nat) (s : State) : slotTaken j i s = { s with units := (slotTaken j i s).units } := by
  unfold slotTaken
  split <;> rfl

theorem slotTaken_wf {j i : Nat} {s : State} (hwf : s.wf = true) : (slotTaken j i s).wf = true := ite_wf (hbmTaken_wf hwf) hwf

theorem slotTaken_unit {j i : Nat} {s : State} (hwf : s.wf = true) (ty inst : Nat) :
    (slotTaken j i s).unit ty inst = { s.unit ty inst with cnt := ((slotTaken j i s).unit ty inst).cnt } := by
  obtain ⟨-, -, -, -, -, hunits, -⟩ := (State.wf_iff s).mp hwf
  unfold slotTaken
  split
  · exact bump_unit hunits ..
  · rfl

theorem fetchOne_fetches {j : Nat} {s : State} (hwf : s.wf = true) (hst : (s.ring j).st ≠ 0) : Fetches j 1 s (fetchOne j s) where
  ring := (State.ring_setRing_of_st _ _ (by exact hst)).trans (by simp)
  other i hi := (State.ring_setRing_other _ _ hi).trans (State.ring_congr (by rw [slotTaken_units]) i)
  frame := by
    unfold fetchOne
    rw [slotTaken_units]
    rfl
  count ty inst := slotTaken_unit hwf ty inst
  hostRing hspace := by
    have hnone : slotTaken j (s.ring j).fetched.length s = s := if_neg hspace
    exact (congrArg State.units hnone :)

theorem fetchOne_wf {j : Nat} {s : State} (hwf : s.wf = true) : (fetchOne j s).wf = true :=
  State.setRing_wf _ _ (slotTaken_wf hwf)

/-- As many descriptors come as there is room for ahead of HEAD, and as have been posted. -/
theorem exists_fetches_fetchMore (j n : Nat) : ∀ {s : State}, s.wf = true → (s.ring j).st ≠ 0 → (s.ring j).fetched.length ≤ 8 →
    (s.ring j).fetched.length ≤ (s.ring j).filled →
    ∃ k, Fetches j k s (fetchMore j n s) ∧ (s.ring j).fetched.length + k ≤ 8 ∧ (s.ring j).fetched.length + k ≤ (s.ring j).filled := by
  induction n with
  | zero => exact fun _ _ hahead hfilled => ⟨0, .refl .., hahead, hfilled⟩
  | succ n ih =>
    intro s hwf hst hahead hfilled
    rw [fetchMore_succ]
    split
    next => exact ⟨0, .refl .., hahead, hfilled⟩
    next hroom =>
      have hone := fetchOne_fetches hwf hst
      have hring := hone.ring
      obtain ⟨k, hmore, hahead', hfilled'⟩ := ih (fetchOne_wf hwf) (by rw [hring]; exact hst) (by rw [hring]; simp; omega)
        (by rw [hring]; simp [Ring.filled] at hroom ⊢; omega)
      rw [hring] at hahead' hfilled'
      simp only [List.length_append, List.length_map, List.length_range] at hahead' hfilled'
      exact ⟨1 + k, hone.trans hmore, by omega, hfilled'.trans_eq' (by omega)⟩

/-- Settles O14: one descriptor after the other, each from the slot behind the last. -/
theorem fetchStaysAhead : Obligations.FetchStaysAhead := by
  unfold Obligations.FetchStaysAhead
  intro j n s hwf hahead hfilled hst
  obtain ⟨k, h, hahead', hfilled'⟩ := exists_fetches_fetchMore j n hwf hst hahead hfilled
  refine ⟨_, h.ring, h.other, h.frame, h.count, h.hostRing, by simpa using hahead', by simpa using hfilled', fun i x hx => ?_⟩
  obtain ⟨hi, rfl⟩ := List.getElem?_eq_some_iff.mp hx
  rw [List.getElem_map, List.getElem_range]
  exact ⟨by rw [Nat.add_assoc]; rfl, rfl⟩

end Sys2Proof.Machine
end

section
/-! PROOFS for 12_streams_rings_hbm.md: device memory and its controllers. -/

namespace Sys2Proof.Machine
open Sys2Proof

/-! ### Writes of device memory (R355) -/

theorem snoopOut_mem (a n : Nat) (s : State) : (snoopOut a n s).mem = s.mem := by
  unfold snoopOut
  extract_lets hit
  split <;> rfl

/-- A write stores its bytes, and takes the poison of the lines that it covers. -/
theorem hbmWrite_mem (a : Nat) (bs : Bytes) (s : State) : (hbmWrite a bs s).mem = { s.mem with
    hbm := Mem.write s.mem.hbm a bs, hbmPoison := s.mem.hbmPoison.filter fun l => !coversLine a bs.length l } := by
  have hput (t : State) : (hbmPut a bs t).mem = { t.mem with
      hbm := Mem.write t.mem.hbm a bs, hbmPoison := t.mem.hbmPoison.filter fun l => !coversLine a bs.length l } := by
    simp only [hbmPut]
    split <;> rfl
  rw [hbmWrite, hput, snoopOut_mem]

theorem Mems.wf_iff (m : Mems) : m.wf = true ↔
    Memory.wf m.hbm = true ∧ Memory.wf m.sram = true ∧ Memory.wf m.host = true ∧ Memory.wf m.store = true := by
  simp only [Mems.wf, Bool.and_eq_true, and_assoc]

theorem hbmWrite_read {s : State} (hwf : s.mem.wf = true) (a : Nat) (bs : Bytes) : (hbmWrite a bs s).hbmRead a bs.length = bs := by
  rw [State.hbmRead, hbmWrite_mem]
  exact Mem.read_write a bs ((Mems.wf_iff _).mp hwf).1

theorem hbmWrite_get_other (s : State) {a x : Nat} {bs : Bytes} (h : x < a ∨ a + bs.length ≤ x) :
    Mem.get (hbmWrite a bs s).mem.hbm x = Mem.get s.mem.hbm x := by
  rw [hbmWrite_mem]
  exact Mem.get_write_other _ bs h

theorem mem_hbmWrite_poison (a : Nat) (bs : Bytes) (s : State) (l : Nat) :
    l ∈ (hbmWrite a bs s).mem.hbmPoison ↔ l ∈ s.mem.hbmPoison ∧ coversLine a bs.length l = false := by
  simp [hbmWrite_mem]

theorem hbmWrite_mem_wf {s : State} (hwf : s.mem.wf = true) (a : Nat) (bs : Bytes) : (hbmWrite a bs s).mem.wf = true := by
  obtain ⟨hhbm, hrest⟩ := (Mems.wf_iff _).mp hwf
  rw [Mems.wf_iff, hbmWrite_mem]
  exact ⟨Mem.write_wf a bs hhbm, hrest⟩

/-! ### Refresh, patrol scrub, the failure of a stack (R355, R356, R576) -/

theorem NSet.mem_ins {x y : Nat} {l : List Nat} : y ∈ NSet.ins x l ↔ y = x ∨ y ∈ l := by
  induction l with
  | nil => simp [NSet.ins]
  | cons z l ih =>
    unfold NSet.ins
    split
    · simp
    · split
      · next h => simp [h]
      · simp only [List.mem_cons, ih]
        tauto

theorem execHbmRefreshTimer_of_enabled {k : Nat} {s : State} (h : s.enabled Config.tHbm k = true) :
    execHbmRefreshTimer k s = .next (spent Config.tHbm k [7, 9] (bump Config.tHbm k 6 1 s)) := if_pos h

section Scrub
variable {a : Nat} {s : State} (ha : a < Config.hbmBytes) (hlive : s.isFatal = false)
include ha hlive

theorem execHbmScrubLine_of_good : execHbmScrubLine a 0 s = .next (bump Config.tHbm (stackOf a) 8 1 s) := by
  simp [execHbmScrubLine, ha, hlive]

variable (hclean : s.mem.hbmPoison.contains (a / 64) = false)
include hclean

theorem execHbmScrubLine_of_one_symbol :
    execHbmScrubLine a 1 s = .next (hbmCorrected (stackOf a) (bump Config.tHbm (stackOf a) 8 1 s)) := by
  have hclean' : (bump Config.tHbm (stackOf a) 8 1 s).mem.hbmPoison.contains (a / 64) = false := hclean
  simp only [execHbmScrubLine, hclean', Nat.not_le.mpr ha, hlive]
  rfl

theorem execHbmScrubLine_of_more_symbols (n : Nat) :
    execHbmScrubLine a (n + 2) s = .next (hbmUncorrectable a true (bump Config.tHbm (stackOf a) 8 1 s)) := by
  have hclean' : (bump Config.tHbm (stackOf a) 8 1 s).mem.hbmPoison.contains (a / 64) = false := hclean
  simp only [execHbmScrubLine, hclean']
  simp [ha, hlive]

end Scrub

theorem execHbmStackFail_of_working {k : Nat} {s : State} (hk : k < 8) (hworking : s.mem.failed.contains k = false) :
    execHbmStackFail k s = .next (raiseUnit { code := 7, status := 0x1FF, flags := 0, ty := Config.tHbm, inst := k, ctx := 255
                                              ring := 0xFFFF, index := 0, addr := 0, space := 0 }
      ((s.mem.allocs.filter fun a => stackOf a.base == k || stackOf (a.base + a.len - 1) == k).map (·.ctx))
      { s with mem := { s.mem with failed := NSet.ins k s.mem.failed } }) := if_neg (by rw [hworking]; simp [hk])

/-- What begins in a failed stack reads poison. -/
theorem State.hbmBad_of_failed {s : State} {a n : Nat} (hn : 0 < n) (h : stackOf a ∈ s.mem.failed) : s.hbmBad a n = true := by
  have hlow : stackOf a * Config.stackBytes ≤ a := Nat.div_mul_le_self ..
  have hhigh : a < (stackOf a + 1) * Config.stackBytes := by
    rw [Nat.mul_comm]
    exact Nat.lt_mul_div_succ a (by decide)
  have hmeets : (s.mem.failed.any fun k => decide (k * Config.stackBytes < a + n ∧ a < (k + 1) * Config.stackBytes)) = true :=
    List.any_eq_true.mpr ⟨_, h, decide_eq_true ⟨by omega, hhigh⟩⟩
  simp only [State.hbmBad, hmeets, Bool.or_true, Bool.and_true, bne_iff_ne]
  omega

/-- Settles O16: each event of a controller by its branch, and a write by what it does to the bytes and to the marks of lines. -/
theorem deviceMemory : Obligations.DeviceMemory := by
  unfold Obligations.DeviceMemory
  refine ⟨⟨fun k s => execHbmRefreshTimer_of_enabled, fun a s ha hlive => ⟨execHbmScrubLine_of_good ha hlive, fun hclean => ⟨?one, ?more⟩⟩,
    fun k s hk hworking => ⟨execHbmStackFail_of_working hk hworking, fun a n hn ha => ?failed⟩⟩, fun a bs s hwf => ?write⟩
  case one => exact execHbmScrubLine_of_one_symbol ha hlive hclean
  case more => exact execHbmScrubLine_of_more_symbols ha hlive hclean
  case failed => exact State.hbmBad_of_failed hn (NSet.mem_ins.mpr (.inl ha))
  case write =>
    exact ⟨hbmWrite_read hwf a bs, fun x => hbmWrite_get_other s, mem_hbmWrite_poison a bs s, by rw [hbmWrite_mem], hbmWrite_mem_wf hwf a bs⟩

end Sys2Proof.Machine
end

section
/-! PROOFS for 12_streams_rings_hbm.md: the descriptors of a Stream Unit and their segments. -/

namespace Sys2Proof.Machine
open Sys2Proof

/-! ### Taking up a descriptor (R327, R342–R347) -/

section Start
variable {j ix op st : Nat} {d : Bytes} {s : State} {check : Nat → Nat → Bytes → State → Option Nat} {segs : Nat → Bytes → State → List Seg}
  (hhead : s.headOf j op = some (ix, d)) (hty : (s.ring j).unitType = Config.tStream)
include hhead hty

theorem suStart_of_failed (hcheck : check (s.ring j).unitInst (s.ring j).ctx d s = some st) : suStart j op check segs s = failArg j ix d st s := by
  simp only [suStart, hhead, hcheck]
  exact if_neg (not_not.mpr hty)

theorem suStart_of_good (hcheck : check (s.ring j).unitInst (s.ring j).ctx d s = none) :
    suStart j op check segs s = suBegin j ix d (segs (s.ring j).unitInst d s) s := by
  simp only [suStart, hhead, hcheck]
  exact if_neg (not_not.mpr hty)

end Start

section Gather
variable {j ix : Nat} {d : Bytes} {s : State} (hhead : s.headOf j 0x12 = some (ix, d)) (hty : (s.ring j).unitType = Config.tStream)
include hhead hty

theorem execSuGather_of_failed {st : Nat} (hcheck : gatherCheck (s.ring j).unitInst (s.ring j).ctx d s = some st) :
    execSuGather j s = .next (failArg j ix d st s) := by
  simp only [execSuGather, hhead, hcheck]
  exact if_neg (not_not.mpr hty)

variable (hcheck : gatherCheck (s.ring j).unitInst (s.ring j).ctx d s = none)
include hcheck

theorem execSuGather_of_readable (hclean : s.hbmBad (field d 14 8) (8 * field d 34 4) = false) : execSuGather j s
    = .next (suBegin j ix d (gatherSegs (s.ring j).unitInst d s) (hbmTaken (field d 14 8) (8 * field d 34 4) s)) := by
  simp only [execSuGather, hhead, hcheck, hclean]
  exact if_neg (not_not.mpr hty)

theorem execSuGather_of_poison (hbad : s.hbmBad (field d 14 8) (8 * field d 34 4) = true) : execSuGather j s
    = .next (suSettle j (suLost j 1 0 (field d 14 8) 1 (bump Config.tStream (s.ring j).unitInst 9 1 (begin j ix d s)))) := by
  simp only [execSuGather, hhead, hcheck, hbad]
  exact if_neg (not_not.mpr hty)

end Gather

/-! ### Segments (R328) -/

/-- The segments of a run, one behind the other, each within one block of `b` bytes of its source and of its destination. -/
inductive Tiles (b : Nat) : Nat → Nat → Nat → List Seg → Prop
  | nil (src dst : Nat) : Tiles b src dst 0 []
  | cons {g : Seg} {len : Nat} {l : List Seg} (hlen : 1 ≤ g.len) (hsrc : g.src % b + g.len ≤ b) (hdst : g.dst % b + g.len ≤ b)
      (hrest : Tiles b (g.src + g.len) (g.dst + g.len) len l) : Tiles b g.src g.dst (g.len + len) (g :: l)

namespace Tiles
variable {b src dst len : Nat} {l : List Seg} (h : Tiles b src dst len l)
include h

theorem sum_len : (l.map (·.len)).sum = len := by
  induction h with
  | nil => rfl
  | cons _ _ _ _ ih => simp [ih]

theorem within : ∀ g ∈ l, 1 ≤ g.len ∧ g.src % b + g.len ≤ b ∧ g.dst % b + g.len ≤ b := by
  induction h with
  | nil => simp
  | cons hlen hsrc hdst _ ih => exact List.forall_mem_cons.mpr ⟨⟨hlen, hsrc, hdst⟩, ih⟩

theorem place : ∀ k g, l[k]? = some g → g.src = src + ((l.take k).map (·.len)).sum ∧ g.dst = dst + ((l.take k).map (·.len)).sum := by
  induction h with
  | nil => simp
  | cons _ _ _ _ ih =>
    intro k g hg
    cases k with
    | zero =>
      obtain rfl : _ = g := Option.some.inj hg
      simp
    | succ k =>
      obtain ⟨hsrc, hdst⟩ := ih k g hg
      simp only [List.take_succ_cons, List.map_cons, List.sum_cons]
      omega

/-- Every byte of the run is in a segment. -/
theorem covers : ∀ o, o < len → ∃ g ∈ l, ∃ i, i < g.len ∧ g.src + i = src + o := by
  induction h with
  | nil => intro o ho; omega
  | @cons g len l _ _ _ _ ih =>
    intro o ho
    by_cases hin : o < g.len
    · exact ⟨g, List.mem_cons_self, o, hin, rfl⟩
    · obtain ⟨g', hg', i, hi, hplace⟩ := ih (o - g.len) (by omega)
      exact ⟨g', List.mem_cons_of_mem _ hg', i, hi, by omega⟩

end Tiles

/-- A step of `n` bytes that does not pass the end of its block comes over as many ends of blocks as it reaches, none or one. -/
theorem blockEnds_step {b a n len : Nat} (hb : 0 < b) (hn : n ≤ len) (hblock : a % b + n ≤ b) :
    ((a + n) % b + (len - n)) / b + (if a % b + n = b then 1 else 0) = (a % b + len) / b := by
  have hmod : (a + n) % b = (a % b + n) % b := (Nat.mod_add_mod ..).symm
  rw [hmod]
  split
  next hend =>
    rw [hend, Nat.mod_self, Nat.zero_add, Nat.div_eq_sub_div hb (show b ≤ a % b + len by omega)]
    congr 2
    omega
  next hend =>
    rw [Nat.mod_eq_of_lt (show a % b + n < b by omega), Nat.add_zero]
    congr 1
    omega

/-- Enough cuts cut a whole run: one for each end of a block in its source and its destination, and one more. -/
theorem cutRun_tiles {b : Nat} (hb : 0 < b) : ∀ (f src dst len : Nat) (chk : Option (Nat × Nat)),
    (len = 0 ∨ (src % b + len) / b + (dst % b + len) / b + 1 ≤ f) → Tiles b src dst len (cutRun b chk f src dst len)
  | 0, src, dst, len, chk, hf => by
    obtain rfl : len = 0 := hf.resolve_right (Nat.not_succ_le_zero _)
    exact .nil ..
  | f + 1, src, dst, len, chk, hf => by
    unfold cutRun
    split
    next hzero => exact hzero ▸ .nil ..
    next hlen =>
      extract_lets n
      have hsrc := Nat.mod_lt src hb
      have hdst := Nat.mod_lt dst hb
      have hn : n = min len (min (b - src % b) (b - dst % b)) := rfl
      clear_value n
      have ends (a : Nat) := blockEnds_step (b := b) (a := a) (n := n) (len := len) hb (by omega)
      have hs := ends src (by omega)
      have hd := ends dst (by omega)
      have hrest := cutRun_tiles hb f (src + n) (dst + n) (len - n) none (by
        by_cases hend : len - n = 0
        · exact .inl hend
        · right
          split at hs <;> split at hd <;> omega)
      obtain ⟨m, rfl⟩ := Nat.exists_eq_add_of_le (show n ≤ len by omega)
      rw [Nat.add_sub_cancel_left] at hrest ⊢
      exact .cons (g := ⟨src, dst, n, chk⟩) (by simp; omega) (by simp; omega) (by simp; omega) hrest

theorem segsOf_tiles {b : Nat} (hb : 0 < b) (src dst len : Nat) (chk : Option (Nat × Nat)) : Tiles b src dst len (segsOf b src dst len chk) := by
  have ends (a : Nat) : (a % b + len) / b ≤ len / b + 1 := by
    rw [← Nat.add_div_left len hb]
    exact Nat.div_le_div_right (by have := Nat.mod_lt a hb; omega)
  have hs := ends src
  have hd := ends dst
  exact cutRun_tiles hb _ src dst len chk (.inr (by omega))

/-! ### Transposes (R345) -/

/-- Each byte of the matrix is in a segment of the part of its row that its tile holds. -/
theorem exists_transposeSeg {d : Bytes} {row col k : Nat} (inst : Nat) (s : State) (htile : 0 < tileSide d)
    (hrow : row < field d 30 4) (hcol : col < field d 34 4) (hk : k < field d 9 1) :
    ∃ g ∈ transposeSegs inst d s, ∃ i, i < g.len ∧ g.src + i = field d 14 8 + row * field d 38 4 + col * field d 9 1 + k
      ∧ g.dst = field d 22 8 + row * field d 9 1 := by
  generalize ht : tileSide d = t at htile
  generalize hes' : field d 9 1 = es at *
  have hrow' := Nat.div_add_mod' row t
  have hcol' := Nat.div_add_mod' col t
  have hrowTile := Nat.mod_lt row htile
  have hcolTile := Nat.mod_lt col htile
  have tiles {x n : Nat} (hx : x < n) : x / t < cdiv n t := by
    rw [cdiv, Nat.div_lt_iff_lt_mul htile]
    have := Nat.lt_div_mul_add (a := n + t - 1) htile
    omega
  have hoff : col % t * es + k < min t (field d 34 4 - col / t * t) * es := by
    have hin : col % t + 1 ≤ min t (field d 34 4 - col / t * t) := by omega
    calc col % t * es + k < col % t * es + es := by omega
      _ = (col % t + 1) * es := (Nat.succ_mul ..).symm
      _ ≤ min t (field d 34 4 - col / t * t) * es := Nat.mul_le_mul_right es hin
  obtain ⟨g, hg, i, hi, hplace⟩ := (segsOf_tiles (Nat.two_pow_pos _) (field d 14 8 + row * field d 38 4 + col / t * t * es)
    (field d 14 8 + row * field d 38 4 + col / t * t * es) (min t (field d 34 4 - col / t * t) * es) none).covers _ hoff
  refine ⟨{ g with dst := field d 22 8 + row * es }, ?_, i, hi, ?_, rfl⟩
  · simp only [transposeSegs, ht, hes', List.mem_flatMap, List.mem_range, List.mem_map]
    refine ⟨row / t, tiles hrow, col / t, tiles hcol, row % t, by omega, g, ?_, by rw [hrow']⟩
    rw [hrow']
    exact hg
  · have hbytes : col / t * t * es + col % t * es = col * es := by rw [← Nat.add_mul, hcol']
    simp only
    omega

/-- The byte goes to its element's place in the column's row. -/
theorem transposeDst_of_place {d : Bytes} {g : Seg} {row col k i : Nat} (hes : 0 < field d 9 1) (hk : k < field d 9 1)
    (hsrc : g.src + i = field d 14 8 + row * field d 38 4 + col * field d 9 1 + k) (hdst : g.dst = field d 22 8 + row * field d 9 1) :
    transposeDst d g i = field d 22 8 + col * field d 42 4 + row * field d 9 1 + k := by
  have hrow : (g.dst - field d 22 8) / field d 9 1 = row := by rw [hdst, Nat.add_sub_cancel_left, Nat.mul_div_cancel _ hes]
  have hoff : g.src + i - (field d 14 8 + row * field d 38 4) = k + field d 9 1 * col := by
    rw [hsrc, Nat.mul_comm (field d 9 1)]
    omega
  rw [transposeDst, hrow, hoff, Nat.add_mul_div_left _ _ hes, Nat.add_mul_mod_self_left, Nat.div_eq_of_lt hk, Nat.mod_eq_of_lt hk, hdst, Nat.zero_add]
  omega

/-! ### An acknowledged segment (R328, R347) -/

theorem hbmTaken_workWithin (a n : Nat) (s : State) : WorkWithin s (hbmTaken a n s) := .ite (.refl s) (bump_workWithin ..)

theorem suFault_workWithin (j reason status addr : Nat) (s : State) : WorkWithin s (suFault j reason status addr s) := rfl

theorem suSettle_workWithin (j : Nat) (s : State) : WorkWithin s (suSettle j s) := by
  unfold suSettle
  extract_lets r
  split
  · refine .ite (.refl s) ?_
    extract_lets status detail s1 s2 bit
    have h2 : WorkWithin s s2 := (finish_workWithin ..).trans (.ite (bump_workWithin ..) (.refl _))
    clear_value bit
    split
    · exact h2.trans (setErr_workWithin ..)
    · exact h2
  · exact .refl s

theorem sendGroup_workWithin (og : Option Nat) (dev cls a : Nat) (bs : Bytes) (s : State) : WorkWithin s (sendGroup og dev cls a bs s) :=
  .foldl (fun _ _ => sendOne_workWithin ..) _ s

theorem suAsk_workWithin (c : Nat) (d : Bytes) (g : Seg) (s : State) : WorkWithin s (suAsk c d g s) :=
  .ite (sendGroup_workWithin ..) (.refl s)

/-- Issuing segments moves no byte. -/
theorem suIssue_workWithin (inst f : Nat) (s : State) : WorkWithin s (suIssue inst f s) := by
  induction f generalizing s with
  | zero => exact .refl s
  | succ f ih =>
    unfold suIssue
    refine .ite (.refl s) ?_
    split
    · exact .refl s
    · split
      · split
        · extract_lets listSpace wr bad s1 start
          refine .ite (((suFault_workWithin ..).trans (suSettle_workWithin ..)).trans (ih _)) ?_
          exact (WorkWithin.trans (t := s1.setRing _ _) rfl (suAsk_workWithin ..)).trans (ih _)
        · exact .refl s
      · exact .refl s

/-- A segment of a copy within device memory is acknowledged: its bytes have been written, and work has gone on. -/
theorem execStreamSegmentAck_of_copy {j k o : Nat} {data : Bytes} {c : Cur} {g : Seg} {s : State} (hcur : (s.ring j).cur = some c)
    (hty : (s.ring j).unitType = Config.tStream) (hop : dOp c.desc = 0x10) (hsrc : suSrcSpace c.desc = 0) (hdst : suDstSpace c.desc = 0)
    (hphase : c.phase = 0) (hg : c.out[k]? = some g) (hlive : s.isFatal = false) (hclean : s.hbmBad g.src g.len = false) :
    ∃ u t, execStreamSegmentAck j k o data s = .next t ∧ u.mem = s.mem ∧ WorkWithin (hbmWrite g.dst (s.hbmRead g.src g.len) u) t := by
  obtain ⟨u, hu⟩ : ∃ u, s.setRing j { s.ring j with cur := some { c with out := c.out.eraseIdx k, last := s.now } } = u := ⟨_, rfl⟩
  have hread : (segSrc c.desc g).any (fun x => suBad (s.ring j).unitInst c.desc 0 x.1 x.2 s) = false := by
    simp [segSrc, suBad, hop, hclean]
  have hmoves : segMoves (s.ring j).unitInst c.desc c.chk g data s = [(g.dst, s.hbmRead g.src g.len)] := by
    simp [segMoves, suRead, hop, hsrc]
  simp only [execStreamSegmentAck, hcur, hg, hu]
  simp only [hphase, hty, hlive, hop, hsrc, hdst, hmoves]
  simp only [hread, suWrite, Nat.reduceEqDiff, ↓reduceIte, decide_false, Bool.or_false, Bool.and_false, ne_eq, not_true_eq_false,
    Bool.false_eq_true, OfNat.zero_ne_ofNat, zero_ne_one, List.foldl_cons, List.foldl_nil]
  have hcounted (n : Nat) (w : State) (f : Ring → Ring) : WorkWithin w (hbmTaken g.src g.len (bump Config.tStream n 0 g.len
      (bump Config.tStream n 1 g.len (bump Config.tStream n 2 1 (w.updRing j f))))) :=
    WorkWithin.trans (t := w.updRing j f) rfl ((((bump_workWithin ..).trans (bump_workWithin ..)).trans (bump_workWithin ..)).trans
      (hbmTaken_workWithin ..))
  exact ⟨u, _, rfl, hu ▸ rfl, (hcounted ..).trans ((suSettle_workWithin ..).trans (suIssue_workWithin ..))⟩

/-- Settles O55: descriptors by their checks; segments as tiles of a run, of which a transpose has one at each byte of its matrix; and what an
acknowledgement writes. -/
theorem streamCommands : Obligations.StreamCommands := by
  unfold Obligations.StreamCommands
  refine ⟨?start, ?gather, ?refused, fun b src dst len chk hb => ?tiles, ?transpose, ?acknowledged⟩
  case start =>
    intro x hx j ix d s r hhead hty
    simp only [List.mem_cons, List.not_mem_nil, or_false] at hx
    rcases hx with rfl | rfl | rfl <;>
      exact ⟨fun st hcheck => congrArg _ (suStart_of_failed hhead hty hcheck), fun hcheck => congrArg _ (suStart_of_good hhead hty hcheck)⟩
  case gather =>
    intro j ix d s r hhead hty hcheck
    exact ⟨execSuGather_of_readable hhead hty hcheck, execSuGather_of_poison hhead hty hcheck⟩
  case refused =>
    intro j ix st d s r hhead hty hcheck
    exact execSuGather_of_failed hhead hty hcheck
  case tiles =>
    have h := segsOf_tiles hb src dst len chk
    exact ⟨h.sum_len, h.within, h.place⟩
  case transpose =>
    intro inst row col k d s es hes hrow hcol hk
    have htile : 0 < tileSide d := by
      rcases hes with h | h | h <;> simp [tileSide, show field d 9 1 = _ from h]
    obtain ⟨g, hg, i, hi, hsrc, hdst⟩ := exists_transposeSeg inst s htile hrow hcol hk
    exact ⟨g, hg, i, hi, hsrc, transposeDst_of_place (by omega) hk hsrc hdst⟩
  case acknowledged =>
    intro j k o data c g s r hcur hty hop hsrc hdst hphase _ hg hlive hclean hwf
    obtain ⟨u, t, hrow, hmem, hwork⟩ := execStreamSegmentAck_of_copy (o := o) (data := data) hcur hty hop hsrc hdst hphase hg hlive hclean
    have hlen : (s.hbmRead g.src g.len).length = g.len := Mem.read_length ..
    have hread := hbmWrite_read (s := u) (hmem ▸ hwf) g.dst (s.hbmRead g.src g.len)
    rw [hlen] at hread
    refine ⟨t, hrow, (congrArg (fun m : Mems => Mem.read m.hbm g.dst g.len) hwork.mem).trans hread, fun x hx => ?_, ?_⟩
    · rw [hwork.mem, hbmWrite_get_other u (by rwa [hlen]), hmem]
    · rw [hwork.mem, hbmWrite_mem, hmem]
      exact ⟨rfl, rfl, rfl⟩

end Sys2Proof.Machine
end

section
/-! PROOFS for 95_what_each_step_holds.md: the command at the front of the queue. -/

namespace Sys2Proof.Machine
open Sys2Proof

/-- Settles O1: `step` takes the front off the queue and runs it on the state with the rest, by its definition. -/
theorem stepRunsFrontCommand : Obligations.StepRunsFrontCommand := fun _ _ _ => rfl

end Sys2Proof.Machine
end

section
/-! PROOFS for 19_loupe_power_thermal_ageing.md and 13_weight_store.md: temperatures, dips, loss and return of the supply. -/

namespace Sys2Proof.Machine
open Sys2Proof

/-! ### Sparse maps: filtered keys, changed values -/

theorem SMap.get_filter_of_false {α : Type} {d : α} {f : Nat × α → Bool} {x : Nat} (hf : ∀ v, f (x, v) = false) (m : List (Nat × α)) :
    SMap.get d (m.filter f) x = d := by
  induction m with
  | nil => rfl
  | cons c m ih =>
    obtain ⟨k, v⟩ := c
    rw [List.filter_cons]
    split
    · next hk =>
      have hne : x ≠ k := by
        rintro rfl
        rw [hf v] at hk
        cases hk
      simp only [SMap.get, hne, if_false, ih]
    · exact ih

theorem SMap.get_map_snd {α : Type} {d : α} {f : α → α} (hf : f d = d) (m : List (Nat × α)) (x : Nat) :
    SMap.get d (m.map fun c => (c.1, f c.2)) x = f (SMap.get d m x) := by
  induction m with
  | nil => exact hf.symm
  | cons c m ih =>
    obtain ⟨k, v⟩ := c
    simp only [List.map_cons, SMap.get, ih]
    exact (apply_ite f ..).symm

/-! ### What changes the controllers and the registers of units alone -/

/-- `t` is `s` but for the controllers of the Store and the registers of units. -/
def CtlsWithin (s t : State) : Prop := t = { s with ctls := t.ctls, units := t.units }

namespace CtlsWithin
variable {s t u : State}

theorem trans (h : CtlsWithin s t) (g : CtlsWithin t u) : CtlsWithin s u := by
  unfold CtlsWithin at *
  rw [h] at g
  exact g

theorem foldl {α : Type} {f : State → α → State} (hf : ∀ s x, CtlsWithin s (f s x)) (l : List α) (s : State) : CtlsWithin s (l.foldl f s) := by
  induction l generalizing s with
  | nil => rfl
  | cons x l ih => exact (hf s x).trans (ih _)

variable (h : CtlsWithin s t)
include h

theorem mem : t.mem = s.mem := by rw [h]
theorem log : t.log = s.log := by rw [h]
theorem loupe : t.loupe = s.loupe := by rw [h]
theorem sys : t.sys = s.sys := by rw [h]
theorem images : t.images = s.images := by rw [h]

end CtlsWithin

/-! ### The flush (R383) -/

/-- A controller after the flush: what an armed dump covers is dumped. -/
def flushed (x : Ctl) : Ctl :=
  if x.armed then
    (List.range 16).foldl (fun x d => x.updBlock (bkey d dumpStripe) fun b => { b with st := 2 }) { x with dump := some x.pend, pend := [], armed := false }
  else { x with pend := [] }

/-- The flush of one controller, with its count. -/
def flushCtl (s : State) (c : Nat) : State :=
  if (s.ctl c).armed then bump Config.tStore c 15 1 (s.setCtl c (flushed (s.ctl c))) else s.setCtl c (flushed (s.ctl c))

theorem flushStore_eq (s : State) : flushStore s = (List.range 8).foldl flushCtl s := by
  have hstep : ∀ (t : State) (c : Nat), (if (t.ctl c).armed then
      bump Config.tStore c 15 1 (t.setCtl c ((List.range 16).foldl (fun x d => x.updBlock (bkey d dumpStripe) fun b => { b with st := 2 })
        { t.ctl c with dump := some (t.ctl c).pend, pend := [], armed := false })) else t.setCtl c { t.ctl c with pend := [] }) = flushCtl t c := by
    intro t c
    unfold flushCtl flushed
    split <;> rfl
  unfold flushStore
  simp only [hstep]

theorem flushCtl_ctlsWithin (s : State) (c : Nat) : CtlsWithin s (flushCtl s c) := by
  unfold flushCtl
  split <;> rfl

theorem flushStore_ctlsWithin (s : State) : CtlsWithin s (flushStore s) := by
  rw [flushStore_eq]
  exact .foldl flushCtl_ctlsWithin _ s

theorem flushCtl_ctls (s : State) (c : Nat) : (flushCtl s c).ctls = SMap.set Ctl.init s.ctls c (flushed (s.ctl c)) := by
  unfold flushCtl
  split <;> rfl

theorem flushCtls_wf {s : State} (h : SMap.wf Ctl.init s.ctls = true) (l : List Nat) : SMap.wf Ctl.init (l.foldl flushCtl s).ctls = true := by
  induction l generalizing s with
  | nil => exact h
  | cons c l ih => exact ih (by rw [flushCtl_ctls]; exact SMap.set_wf _ _ h)

theorem flushCtls_ctl {s : State} (h : SMap.wf Ctl.init s.ctls = true) (i : Nat) {l : List Nat} (hl : l.Nodup) :
    (l.foldl flushCtl s).ctl i = if i ∈ l then flushed (s.ctl i) else s.ctl i := by
  induction l generalizing s with
  | nil => simp
  | cons c l ih =>
    obtain ⟨hc, hl⟩ := List.nodup_cons.mp hl
    have hw : SMap.wf Ctl.init (flushCtl s c).ctls = true := by rw [flushCtl_ctls]; exact SMap.set_wf _ _ h
    have hself : (flushCtl s c).ctl c = flushed (s.ctl c) := by
      unfold State.ctl
      rw [flushCtl_ctls]
      exact SMap.get_set_self _ _ 0 h
    have hother (j : Nat) (hj : j ≠ c) : (flushCtl s c).ctl j = s.ctl j := by
      unfold State.ctl
      rw [flushCtl_ctls]
      exact SMap.get_set_other _ hj
    rw [List.foldl_cons, ih hw hl]
    by_cases hi : i = c
    · subst hi
      simp [hc, hself]
    · simp [hi, hother i hi]

/-- Each of the eight controllers is flushed. -/
theorem flushStore_ctl {s : State} (h : SMap.wf Ctl.init s.ctls = true) {i : Nat} (hi : i < 8) : (flushStore s).ctl i = flushed (s.ctl i) := by
  rw [flushStore_eq, flushCtls_ctl h i List.nodup_range, if_pos (List.mem_range.mpr hi)]

theorem updBlocks_pend_dump (ks : List Nat) (f : SBlock → SBlock) (x : Ctl) :
    (ks.foldl (fun x d => x.updBlock (bkey d dumpStripe) f) x).pend = x.pend
      ∧ (ks.foldl (fun x d => x.updBlock (bkey d dumpStripe) f) x).dump = x.dump := by
  induction ks generalizing x with
  | nil => exact ⟨rfl, rfl⟩
  | cons k ks ih => exact ih _

theorem flushed_pend (x : Ctl) : (flushed x).pend = [] := by
  unfold flushed
  split
  · exact (updBlocks_pend_dump _ _ _).1
  · rfl

theorem flushed_dump_of_armed {x : Ctl} (h : x.armed = true) : (flushed x).dump = some x.pend := by
  unfold flushed
  rw [if_pos h]
  exact (updBlocks_pend_dump _ _ _).2

/-! ### The logic dies go off (R566) -/

theorem powerOff_mb {s : State} {m : Nat} (h : m < Config.mailboxes + 4) : (powerOff s).mb m = Mailbox.init :=
  SMap.get_filter_of_false (fun _ => by simp; omega) _

theorem powerOff_ctl (s : State) (i : Nat) : (powerOff s).ctl i = coldCtl (s.ctl i) := SMap.get_map_snd rfl s.ctls i

section Rows
variable {s : State}

theorem execPowerLossFlush_of_on (hvaux : s.sys.vaux = true) (hvin : s.sys.vin = true) (htrip : s.loupe.trip = none) :
    execPowerLossFlush s = .next (powerOff { flushStore s with
      sys := { (flushStore s).sys with vin := false, sysReset := none }
      loupe := { (flushStore s).loupe with lost := (flushStore s).loupe.lost || (flushStore s).diesOn } }) := by
  simp [execPowerLossFlush, hvaux, hvin, htrip]

theorem logCopy_mem (s : State) : (logCopy s).mem = s.mem := rfl
theorem logCopy_loupe (s : State) : (logCopy s).loupe = s.loupe := rfl
theorem logCopy_sys (s : State) : (logCopy s).sys = s.sys := rfl
theorem logCopy_log (s : State) : (logCopy s).log = { s.log with
    slc := (s.log.slc ++ s.log.uncopied).drop ((s.log.slc ++ s.log.uncopied).length - 16777216) } := rfl

theorem execVauxLost_of_on (hvaux : s.sys.vaux = true) : ∃ t, execVauxLost s = .next t ∧ t.sys.vaux = false ∧ t.mbs = [] ∧ t.log.aon = []
    ∧ t.mem.store = s.mem.store ∧ t.mem.host = s.mem.host ∧ t.mem.hbm = [] ∧ t.mem.sram = [] ∧ t.loupe.slots = s.loupe.slots
    ∧ t.log.slc = (if s.diesOn then (logCopy s).log.slc else s.log.slc) ∧ t.sys.rollback = s.sys.rollback := by
  cases hon : s.diesOn with
  | true =>
    have hf := flushStore_ctlsWithin s
    have hmem : (logCopy (flushStore s)).mem = s.mem := (logCopy_mem _).trans hf.mem
    have hloupe : (logCopy (flushStore s)).loupe = s.loupe := (logCopy_loupe _).trans hf.loupe
    have hsys : (logCopy (flushStore s)).sys = s.sys := (logCopy_sys _).trans hf.sys
    have hslc : (logCopy (flushStore s)).log.slc = (logCopy s).log.slc := by rw [logCopy_log, logCopy_log, hf.log]
    obtain ⟨u, hu⟩ : ∃ u, logCopy (flushStore s) = u := ⟨_, rfl⟩
    rw [hu] at hmem hloupe hsys hslc
    have hstore : u.mem.store = s.mem.store := congrArg Mems.store hmem
    have hhost : u.mem.host = s.mem.host := congrArg Mems.host hmem
    have hslots : u.loupe.slots = s.loupe.slots := congrArg Loupe.slots hloupe
    have hrollback : u.sys.rollback = s.sys.rollback := congrArg Sys.rollback hsys
    simp only [execVauxLost, hvaux, hon, hu, Bool.not_true, Bool.false_eq_true, ↓reduceIte]
    exact ⟨_, rfl, rfl, rfl, rfl, hstore, hhost, rfl, rfl, hslots, hslc, hrollback⟩
  | false =>
    simp only [execVauxLost, hvaux, hon, Bool.not_true, Bool.false_eq_true, ↓reduceIte]
    exact ⟨_, rfl, rfl, rfl, rfl, rfl, rfl, rfl, rfl, rfl, rfl, rfl⟩

theorem execThermalTrip_of_hot {die : Nat} {t0 : Int × Nat} (hon : s.diesOn = true)
    (hhot : (s.loupe.temps.find? fun t => decide (t.2.1 ≥ 920)) = some (die, t0)) {t : State}
    (ht : flushStore (notifyTenants 0x23 s.log.next (logPush 0x23 die [] (bump Config.tLoupe 0 8 1 s))) = t) :
    execThermalTrip s = .next (powerOff { t with loupe := { t.loupe with thermtrip := true, trip := some t.now } }) := by
  have hany : s.loupe.temps.any (fun t => decide (t.2.1 ≥ 920)) = true :=
    List.any_eq_true.mpr ⟨(die, t0), List.mem_of_find?_eq_some hhot, by simpa using List.find?_some hhot⟩
  simp only [execThermalTrip, hon, hany, hhot, ht, Bool.not_true, Bool.or_self, Bool.false_eq_true, ↓reduceIte, Option.map_some, Option.getD_some]

theorem execTripRelease_of_cool {t : Nat} {l : List Int} (htrip : s.loupe.trip = some t) (hvaux : s.sys.vaux = true) (hl : l.length = 4)
    (hcool : ∀ x ∈ l, x < 640) : execTripRelease l s = .next
      { s with now := max s.now (t + 2 * Config.sec), loupe := { s.loupe with trip := none, thermtrip := false, tripped := true } } := by
  have hany : l.any (fun x => decide (x ≥ 640)) = false :=
    List.any_eq_false.mpr fun x hx => by simpa using hcool x hx
  simp only [execTripRelease, htrip, hvaux, hl, hany]
  rfl

theorem execThermalSample_of_stack {inst sensor : Nat} {temp : Int} (hon : s.diesOn = true) (hinst : inst < 8) {u : State}
    (hu : updLoupe (fun l => { l with
      hbmTemp := SMap.set 0 l.hbmTemp inst temp
      refresh := if temp > 680 then NSet.ins inst l.refresh else NSet.del inst l.refresh
      hbmHot := if temp ≥ 760 then NSet.ins inst l.hbmHot else NSet.del inst l.hbmHot }) s = u) :
    execThermalSample 1 inst sensor temp s = .next
      (if temp ≥ 760 then throttleOn (Config.dieOf Config.tHbm inst) u else throttleOff (Config.dieOf Config.tHbm inst) u) := by
  simp only [execThermalSample, hon, hu, Bool.not_true, Bool.false_eq_true, ↓reduceIte, Nat.one_ne_zero, ge_iff_le, Nat.not_le.mpr hinst]

theorem execSensorAgentTimeout_of_heard {die : Nat} (hon : s.diesOn = true) (hdie : die < 8) (hheard : s.loupe.silent.contains die = false) :
    execSensorAgentTimeout die s = .next (throttleOn die { setErr Config.tLoupe 0 4 0 0 0 s with loupe := { s.loupe with
      silent := NSet.ins die s.loupe.silent, temps := SMap.set (0, 0) s.loupe.temps die (800, 0)
      freq := if die < 6 then SMap.set 0 s.loupe.freq die 800 else s.loupe.freq } }) := by
  simp only [execSensorAgentTimeout, hon, hheard, ge_iff_le, Nat.not_le.mpr hdie]
  rfl

end Rows

/-- What a loss of power leaves and what it takes (R383, R566), of any flushed state `u`. -/
theorem powerOff_flushed {s u : State} (hf : CtlsWithin s u) (hu : ∀ i, i < 8 → u.ctl i = flushed (s.ctl i)) {t : State}
    (ht : powerOff { u with
      sys := { u.sys with vin := false, sysReset := none }, loupe := { u.loupe with lost := u.loupe.lost || u.diesOn } } = t) :
    t.mem.store = s.mem.store ∧ t.mem.host = s.mem.host ∧ t.log.aon = s.log.aon ∧ t.log.slc = s.log.slc
      ∧ t.loupe.slots = s.loupe.slots ∧ t.sys.rollback = s.sys.rollback ∧ t.sys.slot = s.sys.slot ∧ t.sys.vaux = s.sys.vaux
      ∧ (∀ i, i < 8 → (t.ctl i).pend = [] ∧ ((s.ctl i).armed = true → (t.ctl i).dump = some (s.ctl i).pend)) := by
  have hstore : u.mem.store = s.mem.store := congrArg Mems.store hf.mem
  have hhost : u.mem.host = s.mem.host := congrArg Mems.host hf.mem
  have haon : u.log.aon = s.log.aon := congrArg LogState.aon hf.log
  have hslc : u.log.slc = s.log.slc := congrArg LogState.slc hf.log
  have hslots : u.loupe.slots = s.loupe.slots := congrArg Loupe.slots hf.loupe
  have hrollback : u.sys.rollback = s.sys.rollback := congrArg Sys.rollback hf.sys
  have hslot : u.sys.slot = s.sys.slot := congrArg Sys.slot hf.sys
  have hvaux : u.sys.vaux = s.sys.vaux := congrArg Sys.vaux hf.sys
  subst ht
  refine ⟨hstore, hhost, haon, hslc, hslots, hrollback, hslot, hvaux, ?_⟩
  intro i hi
  rw [powerOff_ctl]
  refine ⟨?_, fun harmed => ?_⟩
  · calc (coldCtl (u.ctl i)).pend = (u.ctl i).pend := rfl
      _ = [] := by rw [hu i hi, flushed_pend]
  · calc (coldCtl (u.ctl i)).dump = (u.ctl i).dump := rfl
      _ = some (s.ctl i).pend := by rw [hu i hi, flushed_dump_of_armed harmed]

/-- Settles O40: each row by its branch; the loss of power by `powerOff_flushed`. -/
theorem thermalAndSupply : Obligations.ThermalAndSupply := by
  unfold Obligations.ThermalAndSupply
  refine ⟨fun s => ⟨?sample, ?engine, ?agent, ?dip, ?dipLong, ?dipEnd, ?loss, ?trip, ?release, ?vaux, execVauxLost_of_on⟩, ?lasting⟩
  case sample =>
    intro inst sensor t hon hinst
    refine ⟨?_, ?_, execThermalSample_of_stack hon hinst rfl⟩
    · exact (if_neg (by simp [hon])).trans (if_pos hinst)
    · exact (if_neg (by simp [hon])).trans (if_pos hinst)
  case engine =>
    intro inst sensor t hon hinst ht
    have hcool : ¬ t ≥ 640 := by omega
    show execThermalSample 3 inst sensor t s = _
    simp [execThermalSample, hon, hinst, hcool, updLoupe]
  case agent => exact fun die hon hdie hheard => execSensorAgentTimeout_of_heard hon hdie hheard
  case dip => exact fun hon hdip => if_neg (by simp [hon, hdip])
  case dipLong =>
    intro t n hdip
    show execDipLong s = _
    simp only [execDipLong, hdip]
    rfl
  case dipEnd =>
    intro t n us mv hdip
    show execVinDipEnd us mv s = _
    simp only [execVinDipEnd, hdip]
    rfl
  case loss => exact execPowerLossFlush_of_on
  case trip => exact fun die t0 hon hhot => execThermalTrip_of_hot hon hhot rfl
  case release => exact fun t l htrip hvaux hl hcool => execTripRelease_of_cool htrip hvaux hl hcool
  case vaux => exact fun pod mgmt hvaux => if_neg (by simp [hvaux])
  case lasting =>
    intro s hvaux hvin htrip hwf
    obtain ⟨hstore, hhost, haon, hslc, hslots, hrollback, hslot, hv, hctl⟩ :=
      powerOff_flushed (flushStore_ctlsWithin s) (fun _ => flushStore_ctl hwf) rfl
    exact ⟨_, execPowerLossFlush_of_on hvaux hvin htrip, hstore, hhost, haon, hslc, hslots, hrollback, hslot, hv.trans hvaux, rfl, by
      simp [State.diesOn, powerOff], rfl, rfl, rfl, rfl, rfl, rfl, rfl, rfl, rfl, fun m hm => powerOff_mb hm, hctl⟩

end Sys2Proof.Machine
end

section
/-! PROOFS for 13_weight_store.md: page reads, programs, erases, relocation, scrub, die failure, metered writes, the classes of plane time. -/

namespace Sys2Proof.Machine
open Sys2Proof

/-! ### Controllers and blocks, read after write -/

theorem State.ctl_setCtl_of_ne {s : State} {c : Nat} {x : Ctl} (hx : x ≠ Ctl.init) : (s.setCtl c x).ctl c = x := SMap.get_set_ne hx _ _

theorem State.ctl_setCtl_other {s : State} {c e : Nat} {x : Ctl} (h : e ≠ c) : (s.setCtl c x).ctl e = s.ctl e := SMap.get_set_other _ h

theorem Ctl.block_setBlock_of_ne {x : Ctl} {k : Nat} {b : SBlock} (hb : b ≠ SBlock.init) : (x.setBlock k b).block k = b := SMap.get_set_ne hb _ _

theorem Ctl.block_setBlock_other {x : Ctl} {k j : Nat} {b : SBlock} (h : j ≠ k) : (x.setBlock k b).block j = x.block j := SMap.get_set_other _ h

theorem SBlock.ne_init_of_st {b : SBlock} (h : b.st ≠ 0) : b ≠ SBlock.init := by
  rintro rfl
  exact h rfl

theorem Ctl.ne_init_of_block {x : Ctl} {k : Nat} (h : x.block k ≠ SBlock.init) : x ≠ Ctl.init := by
  rintro rfl
  exact h rfl

theorem Ctl.ne_init_of_reloc {x : Ctl} {r : Nat × Nat × Nat × Nat} (h : x.reloc = some r) : x ≠ Ctl.init := by
  rintro rfl
  cases h

theorem Ctl.ne_init_of_st {x : Ctl} (h : x.st ≠ 0) : x ≠ Ctl.init := by
  rintro rfl
  exact h rfl

/-- A change of a controller that keeps a listed block keeps it in the state. -/
theorem State.block_updCtl_of_eq {s : State} {c k : Nat} {f : Ctl → Ctl} (hf : (f (s.ctl c)).block k = (s.ctl c).block k)
    (hne : (s.ctl c).block k ≠ SBlock.init) : ((s.updCtl c f).ctl c).block k = (s.ctl c).block k := by
  have hx : f (s.ctl c) ≠ Ctl.init := Ctl.ne_init_of_block (k := k) (by rwa [hf])
  rw [State.updCtl_eq, State.ctl_setCtl_of_ne hx, hf]

theorem State.ctl_updCtl_setBlock {s : State} {c k : Nat} {b : SBlock} (hb : b ≠ SBlock.init) :
    (s.updCtl c fun y => y.setBlock k b).ctl c = (s.ctl c).setBlock k b :=
  State.ctl_setCtl_of_ne (Ctl.ne_init_of_block (k := k) (by rwa [Ctl.block_setBlock_of_ne hb]))

theorem State.ctl_congr {s t : State} (h : t.ctls = s.ctls) (c : Nat) : t.ctl c = s.ctl c := congrArg (fun m => SMap.get Ctl.init m c) h

/-! ### Counters, errors, charges -/

theorem storeCnt_ctls (c n k : Nat) (s : State) : (storeCnt c n k s).ctls = s.ctls := by
  unfold storeCnt
  split <;> rfl

theorem storeErr_ctls (c bit : Nat) (s : State) : (storeErr c bit s).ctls = s.ctls := rfl

theorem storeCnt_ctlsWithin (c n k : Nat) (s : State) : CtlsWithin s (storeCnt c n k s) := by
  unfold storeCnt
  split <;> rfl

theorem storeErr_ctlsWithin (c bit : Nat) (s : State) : CtlsWithin s (storeErr c bit s) := rfl

theorem State.updCtl_ctlsWithin (c : Nat) (f : Ctl → Ctl) (s : State) : CtlsWithin s (s.updCtl c f) := rfl

theorem charge_ctlsWithin (c cls t : Nat) (s : State) : CtlsWithin s (charge c cls t s) := rfl

theorem CtlsWithin.ite {s t u : State} {p : Prop} [Decidable p] (h : CtlsWithin s t) (g : CtlsWithin s u) : CtlsWithin s (if p then t else u) := by
  split
  · exact h
  · exact g

theorem charge_keeps_reloc {s : State} {c cls t : Nat} {r : Nat × Nat × Nat × Nat} (hr : (s.ctl c).reloc = some r) :
    ((charge c cls t s).ctl c).reloc = some r ∧ ((charge c cls t s).ctl c).moved = (s.ctl c).moved := by
  unfold charge
  rw [State.updCtl_eq, State.ctl_setCtl_of_ne (Ctl.ne_init_of_reloc (r := r) (by exact hr))]
  exact ⟨hr, rfl⟩

/-! ### The count of page reads (R372, R373) -/

theorem countRead_ctls (c k n : Nat) (s : State) :
    (countRead c k n s).ctls = (s.updCtl c fun x => x.updBlock k fun b => { b with reads := b.reads + n }).ctls := by
  unfold countRead
  extract_lets before u v
  have hv : v.ctls = u.ctls := storeCnt_ctls _ _ _ _
  split
  · exact hv
  · exact hv

theorem countRead_ctlsWithin (c k n : Nat) (s : State) : CtlsWithin s (countRead c k n s) := by
  unfold countRead
  extract_lets before u v
  have hu : CtlsWithin s u := State.updCtl_ctlsWithin _ _ _
  have hv : CtlsWithin s v := hu.trans (storeCnt_ctlsWithin _ _ _ _)
  exact .ite (hv.trans (storeErr_ctlsWithin _ _ _)) hv

theorem countRead_ctl {c k n : Nat} {s : State} (hn : 0 < n) :
    (countRead c k n s).ctl c = (s.ctl c).setBlock k { (s.ctl c).block k with reads := ((s.ctl c).block k).reads + n } := by
  rw [State.ctl_congr (countRead_ctls c k n s)]
  refine State.ctl_updCtl_setBlock (s := s) (c := c) (k := k) (b := { (s.ctl c).block k with reads := ((s.ctl c).block k).reads + n }) ?_
  intro h
  have hr : ((s.ctl c).block k).reads + n = 0 := congrArg SBlock.reads h
  omega

theorem countRead_other {c k n e : Nat} {s : State} (he : e ≠ c) : (countRead c k n s).ctl e = s.ctl e := by
  rw [State.ctl_congr (countRead_ctls c k n s)]
  exact State.ctl_setCtl_other he

/-- Counting a read keeps a relocation in progress and the stripe table. -/
theorem countRead_keeps_reloc {c k n : Nat} {s : State} {r : Nat × Nat × Nat × Nat} (hr : (s.ctl c).reloc = some r) :
    ((countRead c k n s).ctl c).reloc = some r ∧ ((countRead c k n s).ctl c).moved = (s.ctl c).moved := by
  rw [State.ctl_congr (countRead_ctls c k n s), State.updCtl_eq, State.ctl_setCtl_of_ne (Ctl.ne_init_of_reloc (r := r) (by exact hr))]
  exact ⟨hr, rfl⟩

/-! ### Spares (R370, R374, R379) -/

theorem Ctl.leastWorn_mem {x : Ctl} {l : List Nat} {k : Nat} (h : x.leastWorn l = some k) : k ∈ l := by
  have go : ∀ (m : List Nat) (best : Option Nat), (∀ b, best = some b → b ∈ l) → (∀ a ∈ m, a ∈ l) →
      ∀ r, m.foldl (fun best k => match best with
        | none => some k
        | some b => if (x.block k).pe < (x.block b).pe then some k else some b) best = some r → r ∈ l := by
    intro m
    induction m with
    | nil => exact fun best hb _ r hr => hb r hr
    | cons a m ih =>
      intro best hb hm r hr
      refine ih _ ?_ (fun b hbm => hm b (List.mem_cons_of_mem _ hbm)) r hr
      have ha : a ∈ l := hm a List.mem_cons_self
      intro b hbe
      cases best with
      | none => cases hbe; exact ha
      | some b0 =>
        simp only at hbe
        split at hbe
        · cases hbe; exact ha
        · exact hb b hbe
  exact go l none (fun _ h => by cases h) (fun _ h => h) k h

theorem Ctl.spareRange_st {x : Ctl} {die k : Nat} {slc : Bool} (h : k ∈ x.spareRange die slc) : (x.block k).st = 0 := by
  have hs : x.isSpare slc k = true := (List.mem_filter.mp h).2
  simp only [Ctl.isSpare, Bool.and_eq_true, beq_iff_eq] at hs
  exact hs.1.1.1.1

/-- The spare that is picked is erased. -/
theorem State.pickSpare_st {s : State} {c k sp : Nat} (h : s.pickSpare c k = some sp) : ((s.ctl c).block sp).st = 0 := by
  unfold State.pickSpare at h
  extract_lets x slc at h
  split at h
  · obtain ⟨d, -, hd⟩ := List.mem_filterMap.mp (Ctl.leastWorn_mem h)
    split at hd
    · cases hd
    · exact Ctl.spareRange_st (Ctl.leastWorn_mem hd)
  · exact Ctl.spareRange_st (Ctl.leastWorn_mem h)

/-- The members of a TLC spare stripe that is drawn come into use in SLC mode. -/
def slcDrawn (b : Nat) (x : Ctl) (d : Nat) : Ctl := if x.failed.contains d then x else x.updBlock (bkey d b) fun y => { y with slc := true, pe := y.pe + 1 }

theorem slcDrawn_keeps (b : Nat) (x : Ctl) (d : Nat) : (slcDrawn b x d).failed = x.failed ∧ (slcDrawn b x d).reloc = x.reloc := by
  unfold slcDrawn
  split <;> exact ⟨rfl, rfl⟩

theorem slcDrawn_reloc (b : Nat) (ds : List Nat) (x : Ctl) : (ds.foldl (slcDrawn b) x).reloc = x.reloc := by
  induction ds generalizing x with
  | nil => rfl
  | cons d ds ih => exact (ih _).trans (slcDrawn_keeps b x d).2

theorem slcDrawn_block {b k : Nat} (ds : List Nat) {x : Ctl} (hk : ∀ d ∈ ds, x.failed.contains d = true ∨ k ≠ bkey d b) :
    (ds.foldl (slcDrawn b) x).block k = x.block k := by
  induction ds generalizing x with
  | nil => rfl
  | cons d ds ih =>
    have hfirst : (slcDrawn b x d).block k = x.block k := by
      unfold slcDrawn
      split
      · rfl
      · next hd => exact Ctl.block_setBlock_other ((hk d List.mem_cons_self).resolve_left hd)
    rw [List.foldl_cons, ih, hfirst]
    intro e he
    rw [(slcDrawn_keeps b x d).1]
    exact hk e (List.mem_cons_of_mem _ he)

/-- What the drawing of a spare stripe does: nothing, or `slcDrawn` on a stripe whose members in service are erased. -/
theorem drawSlc_cases (c : Nat) (s : State) : drawSlc c s = s ∨ ∃ b, drawSlc c s = s.setCtl c ((List.range 16).foldl (slcDrawn b) (s.ctl c))
    ∧ ∀ d ∈ List.range 16, (s.ctl c).failed.contains d = true ∨ ((s.ctl c).block (bkey d b)).st = 0 := by
  unfold drawSlc
  extract_lets x
  split
  · exact .inl rfl
  · split
    · next b hb =>
      refine .inr ⟨b, rfl, fun d hd => ?_⟩
      have hall := List.find?_some hb
      simp only [List.all_eq_true, Bool.or_eq_true] at hall
      refine (hall d hd).imp_right fun h => ?_
      simp only [Ctl.isSpare, Bool.and_eq_true, beq_iff_eq] at h
      exact h.1.1.1.1
    · exact .inl rfl

theorem drawSlc_ctlsWithin (c : Nat) (s : State) : CtlsWithin s (drawSlc c s) := by
  obtain h | ⟨b, h, -⟩ := drawSlc_cases c s <;> rw [h] <;> rfl

/-- A block in use stays as it is when a spare stripe is drawn. -/
theorem drawSlc_block {c k : Nat} {s : State} (hk : ((s.ctl c).block k).st ≠ 0) : ((drawSlc c s).ctl c).block k = (s.ctl c).block k := by
  obtain h | ⟨b, h, hst⟩ := drawSlc_cases c s
  · rw [h]
  · rw [h]
    refine State.block_updCtl_of_eq (f := fun x => (List.range 16).foldl (slcDrawn b) x) (slcDrawn_block _ fun d hd => ?_) (SBlock.ne_init_of_st hk)
    refine (hst d hd).imp_right ?_
    rintro h0 rfl
    exact hk h0

theorem drawSlc_reloc {c : Nat} {s : State} {r : Nat × Nat × Nat × Nat} (hr : (s.ctl c).reloc = some r) : ((drawSlc c s).ctl c).reloc = some r := by
  obtain h | ⟨b, h, -⟩ := drawSlc_cases c s
  · rw [h, hr]
  · have hx : ((List.range 16).foldl (slcDrawn b) (s.ctl c)).reloc = some r := by rw [slcDrawn_reloc, hr]
    rw [h, State.ctl_setCtl_of_ne (Ctl.ne_init_of_reloc hx), hx]

theorem spareLow_ctls (c before : Nat) (s : State) : (spareLow c before s).ctls = s.ctls := by
  unfold spareLow
  split <;> rfl

theorem spareLow_ctlsWithin (c before : Nat) (s : State) : CtlsWithin s (spareLow c before s) := by
  unfold spareLow
  split <;> rfl

end Sys2Proof.Machine
end

section
/-! PROOFS for 13_weight_store.md: the Store's events. -/

namespace Sys2Proof.Machine
open Sys2Proof

/-- After a failed program of block `k`, the data is moved to a spare `sp`, if one is found: in the stripe table and as the destination of a relocation. -/
def programMoved (c k : Nat) (x : Ctl) (b : SBlock) (s : State) : State :=
  match s.pickSpare c k with
  | none => s
  | some sp =>
    let s := match x.stripeOf k with
      | some (st, d) => s.updCtl c fun y => { (y.updBlock sp fun z => { z with st := 1, pages := b.pages }) with
          moved := SMap.set 0 y.moved (st * 16 + d) (sp + 1) }
      | none => s
    match x.reloc with
    | some (d, src, dst, st) =>
      if dst = k then s.updCtl c fun y => { (y.updBlock sp fun z => { z with st := 1 }) with reloc := some (d, src, sp, st) } else s
    | none => s

theorem programMoved_ctlsWithin (c k : Nat) (x : Ctl) (b : SBlock) (s : State) : CtlsWithin s (programMoved c k x b s) := by
  unfold programMoved
  split
  · rfl
  · extract_lets t
    have ht : CtlsWithin s t := by
      unfold t
      split <;> rfl
    split
    · exact .ite (ht.trans (State.updCtl_ctlsWithin _ _ _)) ht
    · exact ht

/-- The block that failed stays as it is: a spare is another block. -/
theorem programMoved_block {c k : Nat} {x : Ctl} {b : SBlock} {s : State} (hk : ((s.ctl c).block k).st ≠ 0) :
    ((programMoved c k x b s).ctl c).block k = (s.ctl c).block k := by
  unfold programMoved
  split
  · rfl
  · next sp hsp =>
    have hne : k ≠ sp := by
      rintro rfl
      exact hk (State.pickSpare_st hsp)
    extract_lets t
    have ht : (t.ctl c).block k = (s.ctl c).block k := by
      unfold t
      split
      · exact State.block_updCtl_of_eq (Ctl.block_setBlock_other (x := s.ctl c) hne) (SBlock.ne_init_of_st hk)
      · rfl
    have hkt : (t.ctl c).block k ≠ SBlock.init := by rw [ht]; exact SBlock.ne_init_of_st hk
    split
    · split
      · exact (State.block_updCtl_of_eq (Ctl.block_setBlock_other (x := t.ctl c) hne) hkt).trans ht
      · exact ht
    · exact ht

section Rows
variable {c die block k : Nat} {s : State} {x : Ctl} {b : SBlock} (hfatal : s.isFatal = false) (hc : c < 8) (hdie : die < 16)
  (hblock : block < stripes) (hk : bkey die block = k) (hx : s.ctl c = x) (hb : x.block k = b) (hlive : x.live = true)

/-! ### Page reads (R365 to R368, R377) -/

section Reads
variable {row : Nat} {ds : List Decode} (hstripe : (x.stripeOf k).isSome = true)
include hfatal hc hdie hblock hk hx hlive hstripe

section Page
variable {susp : Bool} (hrow : row < x.pagesPer k)
include hrow

theorem storePageRead_runs : ¬ (s.isFatal || decide (c ≥ 8) || decide (die ≥ 16) || decide (block ≥ stripes) || decide ((s.ctl c).st = 0)
    || decide (row ≥ (s.ctl c).pagesPer (bkey die block)) || ((s.ctl c).stripeOf (bkey die block)).isNone) = true := by
  have hst : x.st ≠ 0 := by
    simp only [Ctl.live, decide_eq_true_eq] at hlive
    omega
  have hnone : (x.stripeOf k).isNone = false := by simpa using hstripe
  simp [hk, hx, hfatal, hc, hdie, hblock, hst, hrow, hnone]

theorem execStorePageReadComplete_of_waiting (hfor : s.readFor c (planeOf k) (s.blockAddr c k row) = none) :
    execStorePageReadComplete c die block row susp ds s = .next s := by
  refine (if_neg (storePageRead_runs hfatal hc hdie hblock hk hx hlive hstripe hrow)).trans ?_
  simp only [hk, hfor]

theorem execStorePageReadComplete_of_served {ring : Option Nat} (hfor : s.readFor c (planeOf k) (s.blockAddr c k row) = some ring)
    {t : State} (ht : storeCnt c 1 storePage (readPage c k row false ds (readServed c (planeOf k) ring ((s.blockAddr c k row).getD 0) s)) = t) :
    execStorePageReadComplete c die block row susp ds s = .next (if susp then storeCnt c 12 1 t else t) := by
  refine (if_neg (storePageRead_runs hfatal hc hdie hblock hk hx hlive hstripe hrow)).trans ?_
  simp only [hk, hfor, ht]

end Page

include hb in
theorem execStoreScrubTimer_of_may (hrow : row < b.pages) (hmay : s.classMay c 2 (planeOf k) = true) : execStoreScrubTimer c die block row ds s =
    .next (storeCnt c 13 1 (readPage c k row true ds (charge c 2 (16 * Config.us) s))) := by
  have hnone : (x.stripeOf k).isNone = false := by simpa using hstripe
  subst hk hx hb
  exact if_neg (by simp [hfatal, hc, hdie, hblock, hlive, hrow, hnone, hmay])

end Reads

include hfatal hc hdie hblock hk hx hb hlive

/-! ### Programs (R361, R366, R370) -/

section Programs
variable {susp : Nat} (hst : b.st ≤ 1) (hpages : b.pages < x.pagesPer k) (hmay : s.classMay c (x.progClass k) (planeOf k) = true)
  {t : State} (ht : charge c (x.progClass k) (progTime (x.slcMode k)) (storeCnt c 12 (min susp 4) s) = t)
include hst hpages hmay ht

section Ok
variable {u : State} (hu : (storeCnt c (if x.slcMode k then 3 else 2) (x.progPages k * storePage) t).updCtl c (fun y => y.setBlock k { b with
  st := if b.pages + x.progPages k ≥ x.pagesPer k then 2 else 1, pages := b.pages + x.progPages k }) = u)
include hu

theorem execStoreProgramComplete_of_tlc (hslc : x.slcMode k = false) : execStoreProgramComplete c die block true susp s = .next u := by
  subst hk hx hb ht hu
  refine (if_neg (by simp [hfatal, hc, hdie, hblock, hlive, hst, hpages, hmay])).trans ?_
  simp only [hslc, Bool.false_eq_true, ↓reduceIte]

/-- A page of the SLC region leaves the pending buffer. -/
theorem execStoreProgramComplete_of_slc {st d a : Nat} (hslc : x.slcMode k = true) (hstripe : x.stripeOf k = some (st, d))
    (haddr : storeAddr c st d b.pages = some a) : execStoreProgramComplete c die block true susp s =
      .next (u.updCtl c fun y => { y with pend := y.pend.flatMap (outside a) }) := by
  subst hk hx hb ht hu
  refine (if_neg (by simp [hfatal, hc, hdie, hblock, hlive, hst, hpages, hmay])).trans ?_
  simp only [hslc, hstripe, haddr, ↓reduceIte]

end Ok

/-- A program that fails: the block is RETIRED, and what it was to hold goes to a spare. -/
theorem execStoreProgramComplete_of_failed : execStoreProgramComplete c die block false susp s =
    .next (spareLow c (x.spares false) (drawSlc c (programMoved c k x b
      (storeErr c 2 (t.updCtl c fun y => y.setBlock k { b with st := 7 }))))) := by
  subst hk hx hb ht
  refine (if_neg (by simp [hfatal, hc, hdie, hblock, hlive, hst, hpages, hmay])).trans ((if_neg Bool.false_ne_true).trans ?_)
  rfl

end Programs
end Rows

end Sys2Proof.Machine
end

section
/-! PROOFS for 13_weight_store.md: erases, relocation, die failure, metered writes, scrub stages; O58. -/

namespace Sys2Proof.Machine
open Sys2Proof

/-! ### What is left after a block has failed -/

/-- A block that was marked stays so through the choice of a spare, the drawing of a spare stripe and the count of the reserve. -/
theorem spareLow_drawSlc_block {c k low : Nat} {s : State} (hk : ((s.ctl c).block k).st ≠ 0) :
    ((spareLow c low (drawSlc c s)).ctl c).block k = (s.ctl c).block k := by
  rw [State.ctl_congr (spareLow_ctls _ _ _), drawSlc_block hk]

theorem spareLow_drawSlc_ctlsWithin (c low : Nat) (s : State) : CtlsWithin s (spareLow c low (drawSlc c s)) :=
  (drawSlc_ctlsWithin c s).trans (spareLow_ctlsWithin _ _ _)

/-- A block retired in the state that is passed on. -/
theorem storeErr_updCtl_block {c k bit : Nat} {b : SBlock} {s : State} (hb : b.st ≠ 0) :
    ((storeErr c bit (s.updCtl c fun y => y.setBlock k b)).ctl c).block k = b := by
  have hne := SBlock.ne_init_of_st hb
  rw [State.ctl_congr (storeErr_ctls _ _ _), State.ctl_updCtl_setBlock hne, Ctl.block_setBlock_of_ne hne]

/-- What a failed program leaves: its block RETIRED, memory and images as before. -/
theorem programFailed_effect {c k low : Nat} {x : Ctl} {b : SBlock} {s t : State} (ht : CtlsWithin s t) {u : State}
    (hu : spareLow c low (drawSlc c (programMoved c k x b (storeErr c 2 (t.updCtl c fun y => y.setBlock k { b with st := 7 })))) = u) :
    ((u.ctl c).block k).st = 7 ∧ u.mem = s.mem ∧ u.images = s.images := by
  obtain ⟨v, hv⟩ : ∃ v, storeErr c 2 (t.updCtl c fun y => y.setBlock k { b with st := 7 }) = v := ⟨_, rfl⟩
  have hblock : (v.ctl c).block k = { b with st := 7 } := by rw [← hv]; exact storeErr_updCtl_block (b := { b with st := 7 }) (by simp)
  have hst : ((v.ctl c).block k).st = 7 := by rw [hblock]
  have hw : CtlsWithin t v := by rw [← hv]; exact (State.updCtl_ctlsWithin _ _ _).trans (storeErr_ctlsWithin _ _ _)
  rw [hv] at hu
  have hall : CtlsWithin s u := by
    rw [← hu]
    exact ((ht.trans hw).trans (programMoved_ctlsWithin _ _ _ _ _)).trans (spareLow_drawSlc_ctlsWithin _ _ _)
  have hmoved : ((programMoved c k x b v).ctl c).block k = (v.ctl c).block k := programMoved_block (by omega)
  refine ⟨?_, hall.mem, hall.images⟩
  rw [← hu, spareLow_drawSlc_block (by rw [hmoved]; omega), hmoved, hst]

section Rows
variable {c : Nat} {s : State} {x : Ctl} (hfatal : s.isFatal = false) (hc : c < 8) (hx : s.ctl c = x) (hlive : x.live = true)

/-! ### Erases (R372, R386) -/

section Erases
variable {die block k susp : Nat} {b : SBlock} (hdie : die < 16) (hblock : block < stripes) (hk : bkey die block = k) (hb : x.block k = b)
  (hmay : s.classMay c 2 (planeOf k) = true)
  (herase : (b.st = 4 ∨ b.st = 5) ∨ ((b.st = 1 ∨ b.st = 2) ∧ ∃ st d, x.stripeOf k = some (st, d) ∧ (s.blockDeleted st = true ∨ firstSlc ≤ st)))
  {u : State} (hu : (if b.st = 2 then slcFreed c k (charge c 2 (5 * Config.ms) (storeCnt c 12 (min susp 4) s))
    else charge c 2 (5 * Config.ms) (storeCnt c 12 (min susp 4) s)) = u)
include hfatal hc hx hlive hdie hblock hk hb hmay herase hu

theorem execStoreEraseComplete_of_erasable (ok : Bool) : execStoreEraseComplete c die block ok susp s =
    if ok then .next (storeCnt c 11 1 (u.updCtl c fun y => y.setBlock k { SBlock.init with pe := b.pe + 1, slc := b.slc }))
    else .next (spareLow c (x.spares false) (drawSlc c (storeErr c 3 (u.updCtl c fun y => y.setBlock k { b with st := 7, pages := 0 })))) := by
  subst hk hx hb hu
  refine if_neg ?_
  obtain hst | ⟨hst, st, d, hstripe, hfree⟩ := herase
  · have h : (((s.ctl c).block (bkey die block)).st == 4 || ((s.ctl c).block (bkey die block)).st == 5) = true := by simpa using hst
    simp [hfatal, hc, hdie, hblock, hlive, hmay, h]
  · have h : (((s.ctl c).block (bkey die block)).st == 1 || ((s.ctl c).block (bkey die block)).st == 2) = true := by simpa using hst
    have hfree' : (s.blockDeleted st || decide (firstSlc ≤ st)) = true := by simpa using hfree
    simp [hfatal, hc, hdie, hblock, hlive, hmay, hstripe, h, hfree']

theorem execStoreEraseComplete_of_failed : ∃ v, execStoreEraseComplete c die block false susp s = .next v ∧ ((v.ctl c).block k).st = 7
    ∧ ((v.ctl c).block k).pages = 0 := by
  refine ⟨_, (execStoreEraseComplete_of_erasable hfatal hc hx hlive hdie hblock hk hb hmay herase hu false).trans (if_neg Bool.false_ne_true), ?_⟩
  obtain ⟨v, hv⟩ : ∃ v, storeErr c 3 (u.updCtl c fun y => y.setBlock k { b with st := 7, pages := 0 }) = v := ⟨_, rfl⟩
  have hbl : (v.ctl c).block k = { b with st := 7, pages := 0 } := by
    rw [← hv]
    exact storeErr_updCtl_block (b := { b with st := 7, pages := 0 }) (by simp)
  rw [hv, spareLow_drawSlc_block (by rw [hbl]; simp), hbl]
  exact ⟨rfl, rfl⟩

end Erases

/-! ### Relocation (R374) -/

section Start
variable (hst : x.st ≥ 2) (hhold : x.hold = false) (hhot : x.hot = false) (hreloc : x.reloc = none)
include hfatal hc hx hlive hst hhold hhot hreloc

theorem execRelocationStart_of_idle (hhead : s.relocHead c = none) : execRelocationStart c s = .next s := by
  refine (if_neg (by simp [hfatal, hc, hx, hlive, hhold, hhot, hreloc]; omega)).trans ?_
  simp only [hhead]

theorem execRelocationStart_of_head {h sp st d : Nat} (hhead : s.relocHead c = some h) (hsp : s.pickSpare c h = some sp)
    (hstripe : x.stripeOf h = some (st, d)) : ∃ t, execRelocationStart c s = .next t ∧ (t.ctl c).reloc = some (d, h, sp, st)
      ∧ t.mem = s.mem ∧ t.images = s.images := by
  obtain ⟨y, hy⟩ : ∃ y, { (x.updBlock h fun b => { b with st := if b.st = 2 && !x.failed.contains (h / 8192) then 3 else b.st }).updBlock sp
      fun b => { b with st := 1 } with reloc := some (d, h, sp, st) } = y := ⟨_, rfl⟩
  have hyr : y.reloc = some (d, h, sp, st) := by rw [← hy]
  have hrow : execRelocationStart c s = .next (spareLow c (x.spares false) (drawSlc c (s.setCtl c y))) := by
    subst hy hx
    refine (if_neg (by simp [hfatal, hc, hlive, hhold, hhot, hreloc]; omega)).trans ?_
    simp only [hhead, hsp, hstripe]
  have hset : ((s.setCtl c y).ctl c).reloc = some (d, h, sp, st) := by rw [State.ctl_setCtl_of_ne (Ctl.ne_init_of_reloc hyr), hyr]
  have hw : CtlsWithin s (s.setCtl c y) := rfl
  have hall := hw.trans (spareLow_drawSlc_ctlsWithin c (x.spares false) _)
  refine ⟨_, hrow, ?_, hall.mem, hall.images⟩
  rw [State.ctl_congr (spareLow_ctls _ _ _), drawSlc_reloc hset]

end Start

/-- What becomes of the source of a relocation that ends: a RELOCATING one comes into state `n`. -/
def relocOld (src n : Nat) (y : Ctl) : Ctl := y.updBlock src fun z => { z with st := if z.st = 3 then n else z.st, suspect := false }

/-- The stripe table names the destination. -/
def relocMoved (d src dst st pages : Nat) (y : Ctl) : Ctl :=
  { relocOld src 4 (y.updBlock dst fun z => { z with st := 2, pages }) with
    reloc := none, moved := SMap.set 0 y.moved (st * 16 + d) (if dst = bkey d st then 0 else dst + 1) }

/-- The end of the relocation at its source: a retired block holds nothing any more. -/
def relocFreed (src : Nat) (y : Ctl) : Ctl := y.updBlock src fun z => { z with pages := if z.st = 7 then 0 else z.pages }

theorem relocOld_block {src n dst : Nat} {y : Ctl} (h : (y.block dst).st ≠ 0) (hn : n ≠ 0) : ((relocOld src n y).block dst).st ≠ 0 := by
  unfold relocOld
  by_cases he : dst = src
  · subst he
    have hne : (if (y.block dst).st = 3 then n else (y.block dst).st) ≠ 0 := by split <;> assumption
    unfold Ctl.updBlock
    rw [Ctl.block_setBlock_of_ne (SBlock.ne_init_of_st (by exact hne))]
    exact hne
  · unfold Ctl.updBlock
    rwa [Ctl.block_setBlock_other he]

theorem Ctl.updBlock_st {y : Ctl} {k : Nat} {f : SBlock → SBlock} (hf : (f (y.block k)).st ≠ 0) : ((y.updBlock k f).block k).st ≠ 0 := by
  unfold Ctl.updBlock
  rwa [Ctl.block_setBlock_of_ne (SBlock.ne_init_of_st hf)]

theorem relocFreed_block {src dst : Nat} {y : Ctl} (h : (y.block dst).st ≠ 0) : ((relocFreed src y).block dst).st ≠ 0 := by
  by_cases he : dst = src
  · subst he
    exact Ctl.updBlock_st (f := fun z => { z with pages := if z.st = 7 then 0 else z.pages }) h
  · unfold relocFreed Ctl.updBlock
    rwa [Ctl.block_setBlock_other he]

section Switch
variable {d src dst st : Nat} (hhold : x.hold = false) (hreloc : x.reloc = some (d, src, dst, st)) (hmay : s.classMay c 2 (planeOf dst) = true)
include hfatal hc hx hlive hhold hreloc hmay

/-- The image of the block is being deleted: the relocation is cancelled. -/
theorem execRelocationSwitch_of_deleted (hdel : s.blockDeleted st = true) : ∃ t, execRelocationSwitch c s = .next t ∧ (t.ctl c).reloc = none
    ∧ t.mem = s.mem := by
  obtain ⟨y, hy⟩ : ∃ y, { relocOld src 5 (x.updBlock dst fun z => { z with st := 5 }) with reloc := none } = y := ⟨_, rfl⟩
  have hrow : execRelocationSwitch c s = .next (s.setCtl c y) := by
    subst hy hx
    refine (if_neg (by simp [hfatal, hc, hlive, hhold])).trans ?_
    simp only [hreloc, hmay, hdel]
    rfl
  have hblock : (y.block dst).st ≠ 0 := by
    subst hy
    exact relocOld_block (Ctl.updBlock_st (by simp)) (by simp)
  refine ⟨_, hrow, ?_, rfl⟩
  rw [State.ctl_setCtl_of_ne (Ctl.ne_init_of_block (SBlock.ne_init_of_st hblock)), ← hy]

/-- Else the stripe table names the destination. -/
theorem execRelocationSwitch_of_kept (hdel : s.blockDeleted st = false) : ∃ t, execRelocationSwitch c s = .next t ∧ (t.ctl c).reloc = none
    ∧ t.mem = s.mem ∧ (SMap.wf 0 x.moved = true → SMap.get 0 (t.ctl c).moved (st * 16 + d) = if dst = bkey d st then 0 else dst + 1) := by
  obtain ⟨b, hb⟩ : ∃ b, x.block src = b := ⟨_, rfl⟩
  obtain ⟨t, ht⟩ : ∃ t, charge c 2 (b.pages * 16 * Config.us + cdiv b.pages (x.progPages dst) * progTime (x.slcMode dst)) s = t := ⟨_, rfl⟩
  obtain ⟨u, hu⟩ : ∃ u, (if x.failed.contains (src / 8192) then t else countRead c src b.pages t) = u := ⟨_, rfl⟩
  have hrow : execRelocationSwitch c s = .next (storeCnt c 10 1 (storeCnt c (if x.slcMode dst then 3 else 2) (b.pages * storePage)
      ((u.updCtl c (relocMoved d src dst st b.pages)).updCtl c (relocFreed src)))) := by
    subst hu ht hb hx
    refine (if_neg (by simp [hfatal, hc, hlive, hhold])).trans ?_
    simp only [hreloc, hmay, hdel]
    rfl
  have hkeep : (t.ctl c).reloc = some (d, src, dst, st) ∧ (t.ctl c).moved = x.moved := by
    subst ht hx
    exact charge_keeps_reloc hreloc
  have hmoved : (u.ctl c).moved = x.moved := by
    subst hu
    split
    · exact hkeep.2
    · exact (countRead_keeps_reloc hkeep.1).2.trans hkeep.2
  have hwt : CtlsWithin s t := by subst ht; exact charge_ctlsWithin _ _ _ _
  have hwu : CtlsWithin s u := by subst hu; exact .ite hwt (hwt.trans (countRead_ctlsWithin _ _ _ _))
  have hblock : ((relocMoved d src dst st b.pages (u.ctl c)).block dst).st ≠ 0 := relocOld_block (Ctl.updBlock_st (by simp)) (by simp)
  have hfreed := relocFreed_block (src := src) hblock
  have hctl : ((u.updCtl c (relocMoved d src dst st b.pages)).updCtl c (relocFreed src)).ctl c =
      relocFreed src (relocMoved d src dst st b.pages (u.ctl c)) := by
    have h1 : (u.updCtl c (relocMoved d src dst st b.pages)).ctl c = relocMoved d src dst st b.pages (u.ctl c) :=
      State.ctl_setCtl_of_ne (Ctl.ne_init_of_block (SBlock.ne_init_of_st hblock))
    rw [State.updCtl_eq, h1, State.ctl_setCtl_of_ne (Ctl.ne_init_of_block (SBlock.ne_init_of_st hfreed))]
  have hend : ∀ n m, (storeCnt c 10 1 (storeCnt c n m ((u.updCtl c (relocMoved d src dst st b.pages)).updCtl c (relocFreed src)))).ctl c =
      relocFreed src (relocMoved d src dst st b.pages (u.ctl c)) := fun n m =>
    (State.ctl_congr ((storeCnt_ctls _ _ _ _).trans (storeCnt_ctls _ _ _ _)) c).trans hctl
  have hall : ∀ n m, CtlsWithin s (storeCnt c 10 1 (storeCnt c n m
      ((u.updCtl c (relocMoved d src dst st b.pages)).updCtl c (relocFreed src)))) := fun n m =>
    ((hwu.trans ((State.updCtl_ctlsWithin c _ _).trans (State.updCtl_ctlsWithin c _ _))).trans (storeCnt_ctlsWithin c n m _)).trans
      (storeCnt_ctlsWithin c 10 1 _)
  refine ⟨_, hrow, by rw [hend]; rfl, (hall _ _).mem, fun hwf => ?_⟩
  rw [hend]
  show SMap.get 0 (SMap.set 0 (u.ctl c).moved _ _) _ = _
  rw [hmoved]
  exact SMap.get_set_self _ _ 0 hwf

end Switch

/-! ### A die that fails (R371) -/

include hfatal hc hx hlive in
/-- The first die that fails: the stack is DEGRADED, and the owners of images are told. -/
theorem execStoreDieTimeout_of_first {die : Nat} (hdie : die < 16) (hfailed : x.failed = []) : ∃ t, execStoreDieTimeout c die s = .next t
    ∧ (t.ctl c).failed = [die] ∧ (t.ctl c).st = (if x.st = 3 then 4 else x.st) ∧ t.images = s.images ∧ t.mem.store = s.mem.store
    ∧ t.mem.storePoison = s.mem.storePoison := by
  obtain ⟨y, hy⟩ : ∃ y : Ctl, { x with failed := [die], st := if x.st = 3 then 4 else x.st, reloc := none } = y := ⟨_, rfl⟩
  have hyf : y.failed = [die] := by rw [← hy]
  have hyne : y ≠ Ctl.init := by
    rintro rfl
    cases hyf
  obtain ⟨e, owners, hrow⟩ : ∃ e owners, execStoreDieTimeout c die s = .next (raiseUnit e owners (storeErr c 4 (s.setCtl c y))) := by
    refine ⟨{ code := 5, status := eInternal, flags := 0, ty := Config.tStore, inst := c, ctx := 255, ring := 0xFFFF, index := 0, addr := 0, space := 0 },
      (s.images.filter fun i => i.2.owner != 0).map fun i => i.2.owner - 1, ?_⟩
    subst hy hx
    refine (if_neg (by simp [hfatal, hc, hdie, hlive, hfailed])).trans ?_
    simp only [hfailed]
    rfl
  have htells := raiseUnit_tells e owners (storeErr c 4 (s.setCtl c y))
  obtain ⟨u, hu⟩ : ∃ u, raiseUnit e owners (storeErr c 4 (s.setCtl c y)) = u := ⟨_, rfl⟩
  rw [hu] at hrow htells
  have hctl : u.ctl c = y := by rw [htells]; exact State.ctl_setCtl_of_ne hyne
  refine ⟨u, hrow, by rw [hctl, hyf], by rw [hctl, ← hy], ?_, ?_, ?_⟩ <;> rw [htells] <;> rfl

/-! ### Metered writes (R380 to R382) -/

/-- The budget's account of a write: the controller's own account, counters and the time; the pending buffer stays. -/
theorem meter_effect {c n : Nat} {exempt : Bool} {s t : State} (ht : meter c n exempt s = t) (hst : (s.ctl c).st ≠ 0) :
    (t.ctl c).pend = (s.ctl c).pend ∧ (t.ctl c).st = (s.ctl c).st ∧ t.mem = s.mem ∧ s.now ≤ t.now := by
  subst ht
  unfold meter
  extract_lets x
  split
  extract_lets r done dt excess held slow
  split
  extract_lets u
  have hu : u.ctl c = { x with burst := _, life := _, evalAt := _, throttled := _, thrRate := _, thrLife := _ } :=
    State.ctl_setCtl_of_ne (Ctl.ne_init_of_st (by exact hst))
  have hctl : ∀ m, (storeCnt c 14 m (atLeast done u)).ctl c = u.ctl c := fun m => State.ctl_congr (storeCnt_ctls _ _ _ _) c
  have hw : ∀ m, CtlsWithin (atLeast done u) (storeCnt c 14 m (atLeast done u)) := fun m => storeCnt_ctlsWithin _ _ _ _
  refine ⟨by rw [hctl, hu], by rw [hctl, hu], (hw _).mem, ?_⟩
  rw [show ∀ m, (storeCnt c 14 m (atLeast done u)).now = (atLeast done u).now from fun m => by rw [hw m]]
  exact Nat.le_max_left ..

section Metered
variable {addr : Nat} {data : Bytes} {pos : PagePos} (hpos : storePos addr = some pos) (hctl : pos.ctl = c) (hdata : data ≠ [])
  (hslc : Config.slcBase ≤ addr) (hpage : addr % storePage + data.length ≤ storePage) (hvin : s.sys.vin = true) (hst : x.st = 3 ∨ x.st = 4)

include hpos hctl hx in
theorem execMeteredSlcWrite_of_full (hlimit : x.limit ≠ 0) (hfull : x.armed = false ∨ x.limit * 2 ^ 20 < x.pendBytes + data.length) :
    execMeteredSlcWrite addr data s = .next s := by
  subst hctl
  have hroom : (decide (x.pendBytes + data.length ≤ x.limit * 2 ^ 20) && x.armed) = false := by
    obtain h | h := hfull
    · simp [h]
    · rw [decide_eq_false (Nat.not_le.mpr h), Bool.false_and]
  simp only [execMeteredSlcWrite, hpos, hx, hroom, hlimit]
  simp

include hfatal hpos hctl hx hdata hslc hpage hvin hst in
theorem execMeteredSlcWrite_of_room (hroom : x.pendBytes + data.length ≤ x.limit * 2 ^ 20) (harmed : x.armed = true) (hlimit : x.limit ≠ 0) :
    ∃ t, execMeteredSlcWrite addr data s = .next t ∧ t.mem = { s.mem with store := Mem.write s.mem.store addr data }
      ∧ (t.ctl c).pend = x.pend ++ [(addr, data.length)] ∧ s.now ≤ t.now := by
  subst hctl
  obtain ⟨u, hu⟩ : ∃ u, meter pos.ctl data.length false s = u := ⟨_, rfl⟩
  have hst0 : x.st ≠ 0 := by omega
  obtain ⟨hpend, hust, hmem, hnow⟩ := meter_effect hu (by rwa [hx])
  rw [hx] at hpend hust
  have hlen : data.length ≠ 0 := by simpa using hdata
  have hrow : execMeteredSlcWrite addr data s = .next (({ u with mem := { u.mem with store := Mem.write u.mem.store addr data } } : State).updCtl
      pos.ctl fun y => { y with pend := y.pend ++ [(addr, data.length)] }) := by
    simp only [execMeteredSlcWrite, hpos, hx, hu, hlimit, if_false]
    refine if_neg ?_
    have hin : (decide (x.st = 3) || decide (x.st = 4)) = true := by simpa using hst
    rw [decide_eq_true hroom, hin]
    simp [hfatal, hdata, hslc, hpage, hvin, harmed]
  refine ⟨_, hrow, ?_, ?_, hnow⟩
  · rw [State.updCtl_mem, hmem]
  · have hne : ({ u.ctl pos.ctl with pend := (u.ctl pos.ctl).pend ++ [(addr, data.length)] } : Ctl) ≠ Ctl.init :=
      Ctl.ne_init_of_st (by exact hust ▸ hst0)
    rw [← hpend]
    exact congrArg Ctl.pend (State.ctl_setCtl_of_ne hne)

end Metered

/-! ### Stages after a cold reset (R378, R384) -/

section Stages
variable (ok : Bool)
include hfatal hc hx

theorem execStoreScrubStageComplete_of_replay (hst : x.st = 1) : execStoreScrubStageComplete c ok s = .next (replayDump c ok s) :=
  (if_neg (by simp [hfatal, hc, hx, hst])).trans (if_pos (by rw [hx, hst]))

theorem execStoreScrubStageComplete_of_slc (hst : x.st = 2) (hslc : x.slcDone = false) (hmore : s.toScrub c ≠ []) :
    execStoreScrubStageComplete c ok s = .next (s.setCtl c { x with slcDone := true }) := by
  have hctl : (s.setCtl c { x with slcDone := true }).ctl c = { x with slcDone := true } :=
    State.ctl_setCtl_of_ne (Ctl.ne_init_of_st (by simp [hst]))
  have hsame : (s.setCtl c { x with slcDone := true }).toScrub c = s.toScrub c := by
    unfold State.toScrub
    rw [hctl, hx]
    rfl
  have hempty : ((s.setCtl c { x with slcDone := true }).toScrub c).isEmpty = false := by rw [hsame]; simpa using hmore
  refine (if_neg (by simp [hfatal, hc, hx, hst])).trans ((if_neg (by simp [hx, hst])).trans ?_)
  simp only [hx, hslc, hempty, Bool.not_false, ↓reduceIte, Bool.false_eq_true]

theorem execStoreScrubStageComplete_of_last (hst : x.st = 2) (hslc : x.slcDone = true) (hdone : s.toScrub c = []) :
    execStoreScrubStageComplete c ok s = .next (s.updCtl c fun y => { y with st := if y.failed.isEmpty then 3 else 4 }) := by
  refine (if_neg (by simp [hfatal, hc, hx, hst])).trans ((if_neg (by simp [hx, hst])).trans ?_)
  simp only [hx, hslc, hdone, List.isEmpty_nil, Bool.not_true, Bool.false_eq_true, ↓reduceIte]

end Stages
end Rows

/-! ### The count of a read, a second hit, and the classes of plane time -/

theorem countRead_effect {c k n : Nat} {s : State} (hn : 0 < n) :
    (((countRead c k n s).ctl c).block k).reads = ((s.ctl c).block k).reads + n
      ∧ (∀ j, j ≠ k → ((countRead c k n s).ctl c).block j = (s.ctl c).block j) := by
  rw [countRead_ctl hn]
  have hne : ({ (s.ctl c).block k with reads := ((s.ctl c).block k).reads + n } : SBlock) ≠ SBlock.init := by
    intro h
    have hr : ((s.ctl c).block k).reads + n = 0 := congrArg SBlock.reads h
    omega
  exact ⟨by rw [Ctl.block_setBlock_of_ne hne], fun j hj => Ctl.block_setBlock_other hj⟩

/-- The state of a block after a read of which a codeword reached step 4: of the ticks before, `hits` are those of the last 24 hours. -/
theorem secondHit_st {c k : Nat} {old hits : List Nat} {s : State} (hlen : ((s.ctl c).block k).hits.length ≠ old.length)
    (hhits : (old.filter fun t => decide (s.now < t + 86400 * Config.sec)) = hits) :
    (((secondHit c k old s).ctl c).block k).st = if hits.length ≥ 1 then 7 else ((s.ctl c).block k).st := by
  obtain ⟨b, hb⟩ : ∃ b, { (s.ctl c).block k with
      hits := s.now :: hits, st := if (s.now :: hits).length ≥ 2 then 7 else ((s.ctl c).block k).st } = b := ⟨_, rfl⟩
  have hne : b ≠ SBlock.init := by
    rintro rfl
    cases congrArg SBlock.hits hb
  have hblock : ((secondHit c k old s).ctl c).block k = b := by
    have hupd : (secondHit c k old s).ctl c = (s.ctl c).setBlock k b := by
      rw [← State.ctl_updCtl_setBlock hne, ← hb, ← hhits]
      simp only [secondHit, State.updCtl_eq, Ctl.updBlock, if_neg hlen]
    rw [hupd, Ctl.block_setBlock_of_ne hne]
  rw [hblock, ← hb]
  simp only [List.length_cons, ge_iff_le, Nat.reduceLeDiff]

theorem secondHit_retires {c k : Nat} {old : List Nat} {s : State} (hlen : ((s.ctl c).block k).hits.length ≠ old.length) :
    ((∃ x ∈ old, s.now < x + 86400 * Config.sec) → (((secondHit c k old s).ctl c).block k).st = 7)
      ∧ ((∀ x ∈ old, x + 86400 * Config.sec ≤ s.now) → (((secondHit c k old s).ctl c).block k).st = ((s.ctl c).block k).st) := by
  refine ⟨fun ⟨x, hx, hnow⟩ => ?_, fun hold => ?_⟩
  · rw [secondHit_st hlen rfl, if_pos]
    exact List.length_pos_of_mem (List.mem_filter.mpr ⟨hx, by simpa using hnow⟩)
  · have hnone : (old.filter fun t => decide (s.now < t + 86400 * Config.sec)) = [] :=
      List.filter_eq_nil_iff.mpr fun x hx => by simpa using hold x hx
    rw [secondHit_st hlen hnone]
    rfl

theorem classMay_order (c : Nat) (pl : Nat × Nat) (s : State) :
    (s.slcWork c pl = true → s.shareLeft c 1 = true →
      s.classMay c 1 pl = true ∧ s.classMay c 2 pl = false ∧ s.classMay c 3 pl = false ∧ s.classMay c 4 pl = false)
    ∧ (s.relocWork c pl = true → s.shareLeft c 2 = true → s.classMay c 3 pl = false ∧ s.classMay c 4 pl = false
      ∧ ((s.slcWork c pl = false ∨ s.shareLeft c 1 = false) → s.classMay c 2 pl = true))
    ∧ (s.readers c pl ≠ [] → s.classMay c 4 pl = false ∧ ((s.slcWork c pl = false ∨ s.shareLeft c 1 = false) →
      (s.relocWork c pl = false ∨ s.shareLeft c 2 = false) → s.classMay c 3 pl = true))
    ∧ (s.readers c pl = [] → s.slcWork c pl = false → s.relocWork c pl = false → ∀ cls ∈ [1, 2, 3, 4], s.classMay c cls pl = true) := by
  refine ⟨fun hslc h1 => ?_, fun hrel h2 => ⟨?_, ?_, fun h => ?_⟩, fun hread => ⟨?_, fun h h' => ?_⟩, fun hread hslc hrel cls hcls => ?_⟩
  · simp [State.classMay, hslc, h1]
  · simp [State.classMay, hrel, h2]
  · simp [State.classMay, hrel]
  · simpa [State.classMay, h2] using h
  · simp [State.classMay, hread]
  · simpa [State.classMay] using And.intro h h'
  · simp only [List.mem_cons, List.not_mem_nil, or_false] at hcls
    obtain rfl | rfl | rfl | rfl := hcls <;> simp [State.classMay, hread, hslc, hrel]

/-- Settles O58: each event by its branch; reads by `countRead_effect`, a second hit by `secondHit_retires`, the classes by `classMay_order`. -/
theorem storeEvents : Obligations.StoreEvents := by
  unfold Obligations.StoreEvents
  refine ⟨?events, ?reads, ?hits, classMay_order⟩
  case events =>
    intro c die block s k x b hfatal hc hdie hblock hlive
    refine ⟨?_, ?_, ?_, ?_, ?_, ?_, ?_, ?_⟩
    · intro row ds hstripe
      refine ⟨?_, fun hrow hmay => execStoreScrubTimer_of_may hfatal hc hdie hblock rfl rfl rfl hlive hstripe hrow hmay⟩
      intro susp hrow pl a
      exact ⟨execStorePageReadComplete_of_waiting hfatal hc hdie hblock rfl rfl hlive hstripe hrow,
        fun ring hfor => execStorePageReadComplete_of_served hfatal hc hdie hblock rfl rfl hlive hstripe hrow hfor rfl⟩
    · intro susp hst hpages hmay t n u
      refine ⟨execStoreProgramComplete_of_tlc hfatal hc hdie hblock rfl rfl rfl hlive hst hpages hmay rfl rfl, ?_, ?_⟩
      · exact fun st d a => execStoreProgramComplete_of_slc hfatal hc hdie hblock rfl rfl rfl hlive hst hpages hmay rfl rfl
      · exact ⟨_, execStoreProgramComplete_of_failed hfatal hc hdie hblock rfl rfl rfl hlive hst hpages hmay rfl,
          programFailed_effect ((storeCnt_ctlsWithin _ _ _ _).trans (charge_ctlsWithin _ _ _ _)) rfl⟩
    · intro susp hmay t u herase
      exact ⟨(execStoreEraseComplete_of_erasable hfatal hc rfl hlive hdie hblock rfl rfl hmay herase rfl true).trans (if_pos rfl),
        execStoreEraseComplete_of_failed hfatal hc rfl hlive hdie hblock rfl rfl hmay herase rfl⟩
    · intro hst hhold hhot hreloc
      exact ⟨execRelocationStart_of_idle hfatal hc rfl hlive hst hhold hhot hreloc,
        fun h sp st d => execRelocationStart_of_head hfatal hc rfl hlive hst hhold hhot hreloc⟩
    · intro d src dst st hhold hreloc hmay
      cases hdel : s.blockDeleted st with
      | true =>
        obtain ⟨t, hrow, hnone, hmem⟩ := execRelocationSwitch_of_deleted hfatal hc rfl hlive hhold hreloc hmay hdel
        exact ⟨t, hrow, hnone, hmem, fun h => by cases h⟩
      | false =>
        obtain ⟨t, hrow, hnone, hmem, hmoved⟩ := execRelocationSwitch_of_kept hfatal hc rfl hlive hhold hreloc hmay hdel
        exact ⟨t, hrow, hnone, hmem, fun _ => hmoved⟩
    · exact fun _ hfailed => execStoreDieTimeout_of_first hfatal hc rfl hlive hdie hfailed
    · intro addr data pos hpos hctl hdata hslc hpage hvin hst
      exact ⟨execMeteredSlcWrite_of_room hfatal rfl hpos hctl hdata hslc hpage hvin hst,
        execMeteredSlcWrite_of_full rfl hpos hctl⟩
    · exact fun ok => ⟨execStoreScrubStageComplete_of_replay hfatal hc rfl ok, execStoreScrubStageComplete_of_slc hfatal hc rfl ok,
        execStoreScrubStageComplete_of_last hfatal hc rfl ok⟩
  case reads =>
    intro c k n s hn t
    obtain ⟨hreads, hother⟩ := countRead_effect (c := c) (k := k) (s := s) hn
    have hw := countRead_ctlsWithin c k n s
    have hrings : t.rings = s.rings := by
      unfold t
      rw [hw]
    exact ⟨hreads, hother, fun e he => countRead_other he, hw.mem, hw.images, hrings⟩
  case hits =>
    intro c k old s b t hlen
    exact secondHit_retires hlen

end Sys2Proof.Machine
end

section
/-! PROOFS for 14_serving_block.md: the commands of group 0x07. -/

namespace Sys2Proof.Machine
open Sys2Proof

section Run
variable {i : Iss} {p : Bytes} {s : State}

/-! ### Queues and models (R390 to R392, R399) -/

/-- The queues that count against the quota of a context. -/
def State.queuesHeld (s : State) (c : Nat) : Nat := (s.srv.queues.filter fun x => (s.srvModel x.2.model).ctx == c).length

/-- The block of a model as it is served: VOCAB of a teacher model is that of its image (R391). -/
def servedBlock (side : Nat) (b0 : Bytes) (s : State) : Bytes :=
  if side = 0 then (match s.image (mImage b0) with | some g => splice b0 28 (leBytes 4 (s.imgVocab g)) | none => b0) else b0

section NewQueue
variable (hw : field p 2 1 ≠ 0)
include hw

section Existing
variable (hm : field p 0 2 ≠ 0xFFFF) (hmodel : s.hasModel (field p 0 2) = true) (hqueues : s.queuesOf (field p 0 2) ≠ [])
  (hctx : (s.srvModel (field p 0 2)).ctx = i.ctx)
include hm hmodel hqueues hctx

theorem specSrvQueueCreate_run_full (hroom : ¬ (i.ctx = 0 ∨ s.queuesHeld i.ctx < (s.ctx i.ctx).quota.srvQueues)) :
    specSrvQueueCreate.run i p s = .fail 0x109 16 := by
  obtain ⟨h0, hfull⟩ := not_or.mp hroom
  unfold State.queuesHeld at hfull
  simp [specSrvQueueCreate, hm, hmodel, hqueues, hctx, hw, h0, Nat.not_lt.mp hfull, eQuota]

theorem specSrvQueueCreate_run_existing {k : Nat} (hroom : i.ctx = 0 ∨ s.queuesHeld i.ctx < (s.ctx i.ctx).quota.srvQueues)
    (hlow : lowest srvQueueMax (fun q => !s.hasQueue q) = some k) : specSrvQueueCreate.run i p s = .ok (leBytes 2 k ++ leBytes 2 (field p 0 2))
      (s.setSrvQueue k { model := field p 0 2, weight := field p 2 1, closed := false, deficit := 0 }) := by
  have hfull : (decide (i.ctx ≠ 0) && decide ((s.ctx i.ctx).quota.srvQueues ≤ s.queuesHeld i.ctx)) = false := by
    obtain h | h := hroom
    · simp [h]
    · simp [Nat.not_le.mpr h]
  unfold State.queuesHeld at hfull
  simp only [specSrvQueueCreate, hlow]
  simp only [ge_iff_le, hfull]
  simp [hm, hmodel, hqueues, hctx, hw]

end Existing

/-- The first queue of a model makes the model. -/
theorem specSrvQueueCreate_run_model {b0 b : Bytes} {side k n : Nat} (hb0 : (p.drop 64).take 64 = b0) (hside : mSide b0 = side)
    (hb : servedBlock side b0 s = b)
    (hroom : i.ctx = 0 ∨ s.queuesHeld i.ctx < (s.ctx i.ctx).quota.srvQueues) (hlow : lowest srvQueueMax (fun q => !s.hasQueue q) = some k)
    (hm : field p 0 2 = 0xFFFF) (himage : modelImage i.ctx b0 s = none) (hbad : modelBad i.ctx (s.leadBlock side) b0 s = none)
    (hkv : modelRange i.ctx side (mKv b) (mPages b * mPageBytes b) s = true)
    (hreq : modelRange i.ctx side (mReq b) (mSlots b * mSlotBytes b) s = true) (hplan : modelRange i.ctx side (mPlan b) (mPlanBytes b) s = true)
    (hn : lowest srvSideModels (fun n => !s.hasModel (side * 16 + n)) = some n) :
    specSrvQueueCreate.run i p s = .ok (leBytes 2 k ++ leBytes 2 (side * 16 + n))
      ((s.setSrvModel (side * 16 + n) { SrvModel.init with ctx := i.ctx, block := b }).setSrvQueue k
        { model := side * 16 + n, weight := field p 2 1, closed := false, deficit := 0 }) := by
  have hfull : (decide (i.ctx ≠ 0) && decide ((s.ctx i.ctx).quota.srvQueues ≤ s.queuesHeld i.ctx)) = false := by
    obtain h | h := hroom
    · simp [h]
    · simp [Nat.not_le.mpr h]
  unfold State.queuesHeld at hfull
  cases hg : s.image (mImage b0) with
  | none =>
    simp only [servedBlock, hg] at hb
    simp only [specSrvQueueCreate, hm, hw, hb0, hside, himage, hbad, hg, hb, hkv, hreq, hplan, hlow, hn, ge_iff_le, hfull]
    rfl
  | some g =>
    simp only [servedBlock, hg] at hb
    simp only [specSrvQueueCreate, hm, hw, hb0, hside, himage, hbad, hg, hb, hkv, hreq, hplan, hlow, hn, ge_iff_le, hfull]
    rfl

end NewQueue

theorem specSrvQueueWeight_run (hq : queueHandle i.ctx (field p 0 2) s = none) : specSrvQueueWeight.run i p s =
    .ok [] (if field p 2 1 = 0 then srvSweepQueue (field p 0 2) (s.setSrvQueue (field p 0 2) { s.srvQueue (field p 0 2) with closed := true })
      else s.setSrvQueue (field p 0 2) { s.srvQueue (field p 0 2) with weight := field p 2 1 }) := by
  simp only [specSrvQueueWeight, hq]

/-! ### Requests (R393, R404, R412, R416) -/

/-- The entry that a request makes, with `n` positions and the pages that it shares. -/
def submitEntry (i : Iss) (p : Bytes) (x : SrvQueue) (n : Nat) (pages : List Nat) : SrvEntry :=
  { SrvEntry.init with
    st := 1, ctx := i.ctx, queue := field p 0 2, model := x.model, length := n + field p 36 4, computed := n, maxLen := field p 32 4
    prio := field p 2 1, deadline := if field p 8 8 = 0 then 2 ^ 64 - 1 else field p 8 8, prefx := field p 24 8, sampler := field p 3 1
    seed := field p 16 8, tag := field p 4 2, seqId := field p 48 8, pring := field p 56 1, prompt := field p 36 4, from_ := n
    tokAddr := field p 40 8, pages, sentTo := n }

/-- What is left of a request's checks once its quota allows it: an entry, the queue, the model and its pages. -/
def submitPlaced (i : Iss) (p : Bytes) (x : SrvQueue) (m : SrvModel) (n : Nat) (pages : List Nat) (s : State) : Option Nat → Res
  | none => .fail eNoResource 0
  | some k =>
    if x.closed then .fail eState 0
    else if m.faulted then .fail 0x2703 x.model
    else if cdiv (field p 32 4) 64 - n / 64 > mPages m.block then .fail 0x2701 (cdiv (field p 32 4) 64 - n / 64)
    else .ok (leBytes 2 k) ((s.updSrvModel x.model fun m => pages.foldl SrvModel.addRef m).setSrvEntry k (submitEntry i p x n pages))

section Submit
variable {x : SrvQueue} {m : SrvModel} {pf : Option SrvPrefix} {n : Nat} (hx : s.srvQueue (field p 0 2) = x) (hm : s.srvModel x.model = m)
  (hpf : (if field p 24 8 = 0 then none else s.prefixOf i.ctx (field p 24 8)) = pf) (hn : (pf.map (·.n)).getD 0 = n)
  {pages : List Nat} (hpages : (pf.map (·.pages)).getD [] = pages)
  (hq : queueHandle i.ctx (field p 0 2) s = none) (hprio : field p 2 1 ≤ (s.ctx i.ctx).quota.prioMax) (hmax : field p 2 1 ≤ 7)
  (hprefix : field p 24 8 ≠ 0 → ∃ y, pf = some y ∧ y.model = x.model) (hlen : n + field p 36 4 + 1 ≤ field p 32 4)
  (hlong : field p 32 4 ≤ 1024 * mMaxlen m.block) (hempty : field p 36 4 = 0 → field p 24 8 ≠ 0)
  (hring : mPrism m.block = true → srvRingBad i.ctx (field p 56 1) (field p 32 4) s = none)
  (howns : field p 36 4 ≠ 0 → s.owns i.ctx (field p 40 8) (4 * field p 36 4) = true)
include hx hm hpf hn hpages hq hprio hmax hprefix hlen hlong hempty hring howns

/-- The checks before the quota pass. -/
theorem specSrvSubmit_run_checked : specSrvSubmit.run i p s =
    if i.ctx ≠ 0 && decide (s.entriesHeld i.ctx ≥ (s.ctx i.ctx).quota.srvEntries) then .fail eQuota 18
    else submitPlaced i p x m n pages s (lowest srvEntryMax (fun k => (s.srvEntry k).st == 0)) := by
  have hnone : (decide (field p 24 8 ≠ 0) && pf.isNone) = false := by
    by_cases h : field p 24 8 = 0
    · simp [h]
    · obtain ⟨y, hy, -⟩ := hprefix h
      simp [hy]
  have hplen : (decide (field p 36 4 = 0) && pf.isNone) = false := by
    by_cases h : field p 36 4 = 0
    · obtain ⟨y, hy, -⟩ := hprefix (hempty h)
      simp [hy]
    · simp [h]
  have hlens : (decide (field p 32 4 < n + field p 36 4 + 1) || decide (field p 32 4 > 1024 * mMaxlen m.block)) = false := by
    simp only [Bool.or_eq_false_iff, decide_eq_false_iff_not]
    omega
  have hprism : (if mPrism m.block = true then srvRingBad i.ctx (field p 56 1) (field p 32 4) s else none) = none := by
    split
    · exact hring ‹_›
    · rfl
  have hmem : (decide (field p 36 4 ≠ 0) && !s.owns i.ctx (field p 40 8) (4 * field p 36 4)) = false := by
    by_cases h : field p 36 4 = 0
    · simp [h]
    · simp [howns h]
  have hprio' : ¬ field p 2 1 > (s.ctx i.ctx).quota.prioMax := by omega
  have hmax' : ¬ field p 2 1 > 7 := by omega
  have hsame : ∀ y, pf = some y → y.model = x.model := by
    intro y hy
    by_cases h : field p 24 8 = 0
    · rw [h, if_pos rfl] at hpf
      rw [hy] at hpf
      cases hpf
    · obtain ⟨z, hz, hmodel⟩ := hprefix h
      rw [hy] at hz
      cases hz
      exact hmodel
  obtain ⟨o, ho⟩ : ∃ o, lowest srvEntryMax (fun k => (s.srvEntry k).st == 0) = o := ⟨_, rfl⟩
  cases pf with
  | none =>
    simp only [Option.map_none, Option.getD_none] at hn hpages
    subst hn hpages
    simp only [specSrvSubmit, hq, hx, hm, hpf, if_neg hprio', hnone, if_neg hmax', hlens, hplen, hprism, hmem, ho, Bool.false_eq_true, ↓reduceIte]
    cases o <;> rfl
  | some y =>
    have hne : (y.model != x.model) = false := by simp [hsame y rfl]
    simp only [Option.map_some, Option.getD_some] at hn hpages
    simp only [specSrvSubmit, hq, hx, hm, hpf, hn, if_neg hprio', hnone, if_neg hmax', hlens, hplen, hprism, hmem, hne, ho, hpages, Bool.false_eq_true, ↓reduceIte]
    cases o <;> rfl

theorem specSrvSubmit_run_full (hctx : i.ctx ≠ 0) (hfull : (s.ctx i.ctx).quota.srvEntries ≤ s.entriesHeld i.ctx) :
    specSrvSubmit.run i p s = .fail 0x109 18 :=
  (specSrvSubmit_run_checked hx hm hpf hn hpages hq hprio hmax hprefix hlen hlong hempty hring howns).trans (if_pos (by simp [hctx, hfull]))

theorem specSrvSubmit_run_ok {k : Nat} (hroom : i.ctx = 0 ∨ s.entriesHeld i.ctx < (s.ctx i.ctx).quota.srvEntries)
    (hlow : lowest srvEntryMax (fun k => (s.srvEntry k).st == 0) = some k) (hclosed : x.closed = false) (hfaulted : m.faulted = false)
    (hneed : cdiv (field p 32 4) 64 - n / 64 ≤ mPages m.block) : specSrvSubmit.run i p s = .ok (leBytes 2 k)
      ((s.updSrvModel x.model fun m => pages.foldl SrvModel.addRef m).setSrvEntry k
        (submitEntry i p x n pages)) := by
  refine (specSrvSubmit_run_checked hx hm hpf hn hpages hq hprio hmax hprefix hlen hlong hempty hring howns).trans ((if_neg ?_).trans ?_)
  · obtain h | h := hroom
    · simp [h]
    · simp [Nat.not_le.mpr h]
  · simp only [submitPlaced, hlow, hclosed, hfaulted, Bool.false_eq_true, ↓reduceIte]
    exact if_neg (Nat.not_lt.mpr hneed)

end Submit

theorem specSrvCancel_run (hk : entryHandle i.ctx (field p 0 2) 0 s = none) (h5 : (s.srvEntry (field p 0 2)).st ≠ 5)
    (h6 : (s.srvEntry (field p 0 2)).st ≠ 6) : specSrvCancel.run i p s = .ok [] (srvCnt (s.srvModel (s.srvEntry (field p 0 2)).model) 5 1
      ((srvDropOps (field p 0 2) eState s).updSrvEntry (field p 0 2) fun e => { e with st := 6 })) := by
  simp only [specSrvCancel, hk, h5, h6]
  rfl

/-! ### Pause and resume (R413 to R415) -/

section Pause
variable {e : SrvEntry} (he : s.srvEntry (field p 0 2) = e) (hk : entryHandle i.ctx (field p 0 2) 0 s = none) (hsp : field p 2 1 ≤ 1)
  (hpause : e.pause = none) (hresume : e.resume = none) (hseal : s.modelSealed (s.srvModel e.model) = false)
include he hk hsp hpause hresume hseal

theorem specSrvPause_run (hreach : s.reach i.ctx (field p 2 1) (field p 8 8) (max 1 (field p 16 8)) = true) (hst : e.st = 3)
    (hcap : sumBytes (s.srvModel e.model).block e ≤ field p 16 8) : specSrvPause.run i p s = .pend
      (s.setSrvEntry (field p 0 2) { e with pause := some (i.ctx, i.handle, field p 2 1 + 2 * field p 16 8, field p 8 8) }) := by
  simp only [specSrvPause, hk, he, hreach, hpause, hresume, hst, hseal, if_neg (Nat.not_lt.mpr hsp), if_neg (Nat.not_lt.mpr hcap)]
  rfl

theorem specSrvResume_run {n : Nat} (hn : sumBytes (s.srvModel e.model).block e = n)
    (hreach : s.reach i.ctx (field p 2 1) (field p 8 8) n = true) (hst : e.st = 4)
    (hgood : s.spaceBad (field p 2 1) (field p 8 8) n = false) (hide : field p 2 1 = 1 → s.ideDenied i.ctx = false) :
    specSrvResume.run i p s = if summaryOk (field p 0 2) e (s.ctxRead i.ctx (field p 2 1) (field p 8 8) n) then
        .pend (s.setSrvEntry (field p 0 2) { e with st := 1, resume := some (i.ctx, i.handle, field p 2 1, field p 8 8), restore := 0 })
      else .failWith eIntegrity 0 (srvErr e.model 2 (field p 0 2) s) := by
  have hbad : (s.spaceBad (field p 2 1) (field p 8 8) n || (decide (field p 2 1 = 1) && s.ideDenied i.ctx)) = false := by
    by_cases h : field p 2 1 = 1
    · rw [hgood, hide h, Bool.and_false]; rfl
    · simp [hgood, h]
  simp only [specSrvResume, hk, he, hn, hreach, hpause, hresume, hst, hseal, hbad, if_neg (Nat.not_lt.mpr hsp)]
  cases summaryOk (field p 0 2) e (s.ctxRead i.ctx (field p 2 1) (field p 8 8) n) <;> rfl

end Pause

/-! ### Prefixes and sampler sets (R404, R406) -/

section Prefix
variable {e : SrvEntry} (he : s.srvEntry (field p 8 2) = e) (hk : entryHandle i.ctx (field p 8 2) 8 s = none) (h0 : field p 0 8 ≠ 0)
  (hnew : s.prefixOf i.ctx (field p 0 8) = none) (hn : field p 12 4 ≠ 0) (hcomputed : field p 12 4 ≤ e.computed)
include he hk h0 hnew hn hcomputed

theorem specSrvPrefixCreate_run_full (hctx : i.ctx ≠ 0)
    (hfull : (s.ctx i.ctx).quota.prefixes ≤ (s.srv.prefixes.filter fun x => x.ctx == i.ctx).length) :
    specSrvPrefixCreate.run i p s = .fail 0x109 20 := by
  simp [specSrvPrefixCreate, hk, he, h0, hnew, hn, Nat.not_lt.mpr hcomputed, hctx, hfull, eQuota]

theorem specSrvPrefixCreate_run_ok {t : State} {pages : List Nat} (hpages : e.pages.take (cdiv (field p 12 4) 64) = pages)
    (ht : (s.updSrvModel e.model fun m => pages.foldl SrvModel.addRef m) = t)
    (hroom : i.ctx = 0 ∨ (s.srv.prefixes.filter fun x => x.ctx == i.ctx).length < (s.ctx i.ctx).quota.prefixes)
    (htable : s.srv.prefixes.length < srvPrefixMax) (h5 : e.st ≠ 5) (h6 : e.st ≠ 6) (hlong : cdiv (field p 12 4) 64 ≤ e.pages.length) :
    specSrvPrefixCreate.run i p s = .ok [] { t with srv := { t.srv with
      prefixes := t.srv.prefixes ++ [{ ctx := i.ctx, handle := field p 0 8, model := e.model, n := field p 12 4, pages }] } } := by
  have hfull : (decide (i.ctx ≠ 0) && decide ((s.srv.prefixes.filter fun x => x.ctx == i.ctx).length ≥ (s.ctx i.ctx).quota.prefixes)) = false := by
    obtain h | h := hroom
    · simp [h]
    · rw [decide_eq_false (Nat.not_le.mpr h), Bool.and_false]
  have h56 : (decide (e.st = 5) || decide (e.st = 6) || decide (e.pages.length < cdiv (field p 12 4) 64)) = false := by
    rw [decide_eq_false h5, decide_eq_false h6, decide_eq_false (Nat.not_lt.mpr hlong)]; rfl
  have hnc : (decide (field p 12 4 = 0) || decide (e.computed < field p 12 4)) = false := by
    rw [decide_eq_false hn, decide_eq_false (Nat.not_lt.mpr hcomputed)]; rfl
  simp only [specSrvPrefixCreate, hk, he, h0, hnew, hnc, hfull, if_neg (Nat.not_le.mpr htable), h56, hpages, ht]
  rfl

end Prefix

theorem specSrvPrefixRelease_run {x : SrvPrefix} (hx : s.prefixOf i.ctx (field p 0 8) = some x) {t : State}
    (ht : (s.updSrvModel x.model fun m => x.pages.foldl SrvModel.dropRef m) = t) : specSrvPrefixRelease.run i p s = .ok []
      { t with srv := { t.srv with prefixes := t.srv.prefixes.filter fun y => !(y.ctx == x.ctx && y.handle == x.handle) } } := by
  simp only [specSrvPrefixRelease, hx, ht]

theorem specSrvSamplerSet_run (hbad : samplerBad ((p.drop 64).take 64) = none) : specSrvSamplerSet.run i p s =
    .ok [] { s with srv := { s.srv with samplers := SMap.set (zeros 64) s.srv.samplers (i.ctx * 256 + field p 0 1) ((p.drop 64).take 64) } } := by
  simp only [specSrvSamplerSet, hbad]

end Run

/-- An admitted request is concluded by what its rule answers. -/
theorem submit_of_run {k : CmdSpec} {q : Request} {c : Nat} {p : Bytes} {ind : Option Indirect} {s : State} {r : Res}
    (h : admitted k q c p ind s = true) (hrun : k.run (issOf k.opcode c q s) p (s.taken k.opcode q) = r) :
    submit k q s = .next (concluded k q c p ind (s.taken k.opcode q) r) := by
  rw [submit_admitted h, hrun]

/-- Settles O33: each command by what its own rule leaves. -/
theorem servingCommands : Obligations.ServingCommands := by
  unfold Obligations.ServingCommands
  intro q c p ind s room
  refine ⟨⟨?full, ?queue⟩, ?weight, ?sub, ?cancel, ?pause, ?resume, ?prefixes, ?release, ?sampler⟩
  case full =>
    intro hadm hw hroom hm hmodel hqueues hctx
    exact submit_of_run_fail hadm (specSrvQueueCreate_run_full (i := issOf specSrvQueueCreate.opcode c q s) (s := s.taken specSrvQueueCreate.opcode q) hw hm hmodel hqueues hctx hroom)
  case queue =>
    intro k hadm hw hroom hlow
    refine ⟨fun hm hmodel hqueues hctx => ?_, fun n hm himage hbad hkv hreq hplan hn => ?_⟩
    · exact submit_of_run_ok hadm (specSrvQueueCreate_run_existing (i := issOf specSrvQueueCreate.opcode c q s) (s := s.taken specSrvQueueCreate.opcode q) hw hm hmodel hqueues hctx hroom hlow)
    · exact submit_of_run_ok hadm (specSrvQueueCreate_run_model (i := issOf specSrvQueueCreate.opcode c q s) (s := s.taken specSrvQueueCreate.opcode q) hw rfl rfl rfl hroom hlow hm himage
        hbad hkv hreq hplan hn)
  case weight => exact fun hadm hq => submit_of_run_ok hadm (specSrvQueueWeight_run (i := issOf specSrvQueueWeight.opcode c q s) (s := s.taken specSrvQueueWeight.opcode q) hq)
  case sub =>
    intro x m ph pf n plen maxLen pages e k hadm hq hprio hmax hprefix hlen hlong hempty hring howns
    have hpf : (if field p 24 8 = 0 then none else s.prefixOf c (field p 24 8)) = pf := rfl
    have hn : (pf.map (·.n)).getD 0 = n := by
      unfold n
      cases pf <;> rfl
    have hpages : (pf.map (·.pages)).getD [] = pages := by
      unfold pages
      cases pf <;> rfl
    exact ⟨fun hctx hfull => submit_of_run_fail hadm (specSrvSubmit_run_full (i := issOf specSrvSubmit.opcode c q s) (s := s.taken specSrvSubmit.opcode q) rfl rfl hpf hn hpages hq hprio
        hmax hprefix hlen hlong hempty hring howns hctx hfull),
      fun hroom hlow hclosed hfaulted hneed => submit_of_run_ok hadm (specSrvSubmit_run_ok (i := issOf specSrvSubmit.opcode c q s) (s := s.taken specSrvSubmit.opcode q) rfl rfl hpf hn
        hpages hq hprio hmax hprefix hlen hlong hempty hring howns hroom hlow hclosed hfaulted hneed)⟩
  case cancel => exact fun hadm hk h5 h6 => submit_of_run_ok hadm (specSrvCancel_run (i := issOf specSrvCancel.opcode c q s) (s := s.taken specSrvCancel.opcode q) hk h5 h6)
  case pause =>
    intro k e m cap t hadm hk hsp hreach hpause hresume hst hseal hcap
    exact submit_of_run hadm (specSrvPause_run (i := issOf specSrvPause.opcode c q s) (s := s.taken specSrvPause.opcode q) rfl hk hsp hpause hresume hseal hreach hst hcap)
  case resume =>
    intro k e m n sp t hadm hk hsp hreach hpause hresume hst hseal hgood hide
    exact submit_of_run hadm (specSrvResume_run (i := issOf specSrvResume.opcode c q s) (s := s.taken specSrvResume.opcode q) rfl hk hsp hpause hresume hseal rfl hreach hst hgood hide)
  case prefixes =>
    intro h k n e pages t hadm hk h0 hnew hn hcomputed held
    exact ⟨fun hctx hfull => submit_of_run_fail hadm (specSrvPrefixCreate_run_full (i := issOf specSrvPrefixCreate.opcode c q s) (s := s.taken specSrvPrefixCreate.opcode q) rfl hk h0 hnew hn
        hcomputed hctx hfull),
      fun hroom htable h5 h6 hlong => submit_of_run_ok hadm (specSrvPrefixCreate_run_ok (i := issOf specSrvPrefixCreate.opcode c q s) (s := s.taken specSrvPrefixCreate.opcode q) rfl hk h0
        hnew hn hcomputed rfl rfl hroom htable h5 h6 hlong)⟩
  case release =>
    intro x hadm hx
    exact submit_of_run_ok hadm (specSrvPrefixRelease_run (i := issOf specSrvPrefixRelease.opcode c q s) (s := s.taken specSrvPrefixRelease.opcode q) hx rfl)
  case sampler =>
    exact fun hadm _ hbad => submit_of_run_ok hadm (specSrvSamplerSet_run (i := issOf specSrvSamplerSet.opcode c q s) (s := s.taken specSrvSamplerSet.opcode q) hbad)

end Sys2Proof.Machine
end

section
/-! PROOFS for 14_serving_block.md: plans stay within the limits of their model. -/

namespace Sys2Proof.Machine
open Sys2Proof

/-! ### Models, read after write -/

theorem State.srvModel_congr {s t : State} (h : t.srv = s.srv) (m : Nat) : t.srvModel m = s.srvModel m :=
  congrArg (fun v : Serving => SMap.get SrvModel.init v.models m) h

theorem State.srvModel_setSrvModel_of_ne {s : State} {m : Nat} {x : SrvModel} (h : x ≠ SrvModel.init) : (s.setSrvModel m x).srvModel m = x :=
  SMap.get_set_ne h _ _

theorem State.srvModel_setSrvModel_other {s : State} {m n : Nat} {x : SrvModel} (h : n ≠ m) : (s.setSrvModel m x).srvModel n = s.srvModel n :=
  SMap.get_set_other _ h

theorem State.srvModel_setSrvEntry (s : State) (k : Nat) (e : SrvEntry) (m : Nat) : (s.setSrvEntry k e).srvModel m = s.srvModel m := rfl

theorem State.srvModel_setSrvQueue (s : State) (q : Nat) (x : SrvQueue) (m : Nat) : (s.setSrvQueue q x).srvModel m = s.srvModel m := rfl

theorem hbmWrite_srv (a : Nat) (bs : Bytes) (s : State) : (hbmWrite a bs s).srv = s.srv := by
  rw [hbmWrite_tells a bs s]
  rfl

theorem hbmWrite_srvModel (a : Nat) (bs : Bytes) (s : State) (m : Nat) : (hbmWrite a bs s).srvModel m = s.srvModel m :=
  State.srvModel_congr (hbmWrite_srv a bs s) m

theorem srvCnt_srv (x : SrvModel) (n k : Nat) (s : State) : (srvCnt x n k s).srv = s.srv := by
  unfold srvCnt
  split <;> rfl

theorem SrvModel.ne_init_of_refs {x : SrvModel} (h : x.refs ≠ []) : x ≠ SrvModel.init := by
  rintro rfl
  exact h rfl

theorem SMap.set_ne_nil {α : Type} [DecidableEq α] {d v : α} (hv : v ≠ d) (m : List (Nat × α)) (x : Nat) : SMap.set d m x v ≠ [] := by
  intro h
  have hget := SMap.get_set_ne hv m x
  rw [h] at hget
  exact hv hget.symm

theorem SrvModel.addRef_ne_init (x : SrvModel) (p : Nat) : x.addRef p ≠ SrvModel.init :=
  SrvModel.ne_init_of_refs (SMap.set_ne_nil (Nat.succ_ne_zero _) _ _)

theorem SrvModel.addRefs_keeps (l : List Nat) (x : SrvModel) : (l.foldl SrvModel.addRef x).block = x.block ∧ (l.foldl SrvModel.addRef x).plan = x.plan := by
  induction l generalizing x with
  | nil => exact ⟨rfl, rfl⟩
  | cons p l ih => exact ih (x.addRef p)

/-! ### What keeps the block and the plan of every model -/

/-- Every model of `t` has the block and the plan that it has in `s`. -/
def PlansKept (s t : State) : Prop := ∀ m, (t.srvModel m).block = (s.srvModel m).block ∧ (t.srvModel m).plan = (s.srvModel m).plan

namespace PlansKept

theorem refl (s : State) : PlansKept s s := fun _ => ⟨rfl, rfl⟩

theorem trans {s t u : State} (h : PlansKept s t) (g : PlansKept t u) : PlansKept s u :=
  fun m => ⟨(g m).1.trans (h m).1, (g m).2.trans (h m).2⟩

theorem of_models {s t : State} (h : ∀ m, t.srvModel m = s.srvModel m) : PlansKept s t := fun m => by rw [h m]; exact ⟨rfl, rfl⟩

theorem of_srv {s t : State} (h : t.srv = s.srv) : PlansKept s t := of_models (State.srvModel_congr h)

theorem foldl {α : Type} {f : State → α → State} (hf : ∀ s x, PlansKept s (f s x)) (l : List α) (s : State) : PlansKept s (l.foldl f s) :=
  List.foldlRecOn (motive := PlansKept s) l f (refl s) fun t h x _ => h.trans (hf t x)

/-- A model that is written, and is not the default, with the block and the plan that it had. -/
theorem setSrvModel {s : State} {m : Nat} {x : SrvModel} (hx : x ≠ SrvModel.init) (hblock : x.block = (s.srvModel m).block)
    (hplan : x.plan = (s.srvModel m).plan) : PlansKept s (s.setSrvModel m x) := by
  intro n
  by_cases h : n = m
  · subst h
    rw [State.srvModel_setSrvModel_of_ne hx]
    exact ⟨hblock, hplan⟩
  · rw [State.srvModel_setSrvModel_other h]
    exact ⟨rfl, rfl⟩

end PlansKept

theorem entryCount_plansKept (k tok : Nat) (s : State) : PlansKept s (entryCount k tok s) := by
  have hcount : PlansKept s (countTok (entrySlot (s.srvModel (s.srvEntry k).model).block (s.srvEntry k)) tok s).1 := by
    unfold countTok
    extract_lets l
    split
    · exact .of_srv (hbmWrite_srv _ _ _)
    · split
      · exact .of_srv (hbmWrite_srv _ _ _)
      · exact .refl s
  unfold entryCount
  extract_lets e
  split
  next u full hu =>
  rw [show countTok (entrySlot (s.srvModel (s.srvEntry k).model).block (s.srvEntry k)) tok s = (u, full) from hu] at hcount
  split
  · exact hcount.trans (.of_models fun m => State.srvModel_setSrvEntry _ _ _ m)
  · exact hcount

/-- Admission writes a slot into the model: it is not the default. -/
theorem takeIn_plansKept (k : Nat) (s : State) : PlansKept s (takeIn k s) := by
  unfold takeIn
  extract_lets e m spare slot prompt m1 t e1 u set v
  have ht : PlansKept s t := by
    obtain ⟨hblock, hplan⟩ := SrvModel.addRefs_keeps spare m
    refine .setSrvModel ?_ hblock hplan
    intro h
    exact NSet.ins_ne_nil _ _ (congrArg SrvModel.slots h)
  have hu : PlansKept t u := (PlansKept.of_models (State.srvModel_setSrvEntry t k e1)).trans (.of_srv (hbmWrite_srv _ _ _))
  have hv : PlansKept u v := by
    unfold v
    split
    · exact .foldl (fun _ _ => entryCount_plansKept _ _ _) _ _
    · exact .refl u
  exact ((ht.trans hu).trans hv).trans (.of_srv (srvCnt_srv _ _ _ _))

/-! ### Pages -/

theorem nextPage_plansKept (k : Nat) (s : State) : PlansKept s (nextPage k s).2 := by
  unfold nextPage
  extract_lets e
  split
  · exact .of_models (State.srvModel_setSrvEntry s k _)
  · exact .setSrvModel (SrvModel.addRef_ne_init _ _) rfl rfl

/-- A page that is referred to stays so. -/
theorem nextPage_ref {k m p : Nat} {s : State} {n : Nat} (h : n < (s.srvModel m).ref p) : n < ((nextPage k s).2.srvModel m).ref p := by
  unfold nextPage
  extract_lets e
  split
  · exact h
  · next hspare =>
    obtain ⟨a, ha⟩ : ∃ a, ((s.srvModel e.model).takePages 1).headD 0 = a := ⟨_, rfl⟩
    show n < ((s.updSrvModel e.model fun m => m.addRef (((s.srvModel e.model).takePages 1).headD 0)).srvModel m).ref p
    rw [ha]
    by_cases hm : m = e.model
    · subst hm
      have hself : (s.updSrvModel e.model fun m => m.addRef a).srvModel e.model = (s.srvModel e.model).addRef a :=
        State.srvModel_setSrvModel_of_ne (SrvModel.addRef_ne_init _ _)
      rw [hself]
      by_cases hp : p = a
      · subst hp
        have hnew : ((s.srvModel e.model).addRef p).ref p = (s.srvModel e.model).ref p + 1 := SMap.get_set_ne (Nat.succ_ne_zero _) _ _
        omega
      · have hold : ((s.srvModel e.model).addRef a).ref p = (s.srvModel e.model).ref p := SMap.get_set_other _ hp
        omega
    · have hother : (s.updSrvModel e.model fun m => m.addRef a).srvModel m = s.srvModel m := State.srvModel_setSrvModel_other hm
      rwa [hother]

/-- A page that others share is given up: one reference at least is left. -/
theorem dropRef_plansKept {m p : Nat} {s : State} (h : 1 < (s.srvModel m).ref p) : PlansKept s (s.updSrvModel m fun x => x.dropRef p) :=
  .setSrvModel (SrvModel.ne_init_of_refs (SMap.set_ne_nil (Nat.sub_ne_zero_of_lt h) _ _)) rfl rfl

/-- The copy of a shared page, as `placePages` makes it. -/
def copyPage (k : Nat) (s : State) : State :=
  let e := s.srvEntry k
  let m := s.srvModel e.model
  let b := m.block
  let i := e.computed / 64
  let old := nth e.pages i 0
  let (p, s) := nextPage k s
  let s := hbmWrite (mPageAt b p) (s.hbmRead (mPageAt b old) (mPageBytes b)) s
  let s := s.updSrvModel e.model fun m => m.dropRef old
  srvCnt m 8 1 (s.updSrvEntry k fun e => { e with pages := e.pages.set i p })

theorem copyPage_plansKept {k : Nat} {s : State}
    (h : 1 < (s.srvModel (s.srvEntry k).model).ref (nth (s.srvEntry k).pages ((s.srvEntry k).computed / 64) 0)) : PlansKept s (copyPage k s) := by
  unfold copyPage
  extract_lets e m b i old
  have hnext := nextPage_plansKept k s
  have href : 1 < ((nextPage k s).2.srvModel e.model).ref old := nextPage_ref h
  split
  next p t ht =>
  rw [ht] at hnext href
  extract_lets u v
  have hu : u.srv = t.srv := hbmWrite_srv _ _ _
  have hv : PlansKept u v := dropRef_plansKept (by rwa [State.srvModel_congr hu])
  refine ((hnext.trans (.of_srv hu)).trans hv).trans ?_
  exact (PlansKept.of_models (State.srvModel_setSrvEntry v k _)).trans (.of_srv (srvCnt_srv _ _ _ _))

/-- An entry takes its next page. -/
def appendPage (k : Nat) (s : State) : State :=
  let (p, s) := nextPage k s
  s.updSrvEntry k fun e => { e with pages := e.pages ++ [p] }

theorem appendPage_plansKept (k : Nat) (s : State) : PlansKept s (appendPage k s) := by
  unfold appendPage
  have hnext := nextPage_plansKept k s
  split
  next p t ht =>
  rw [ht] at hnext
  exact hnext.trans (.of_models (State.srvModel_setSrvEntry t k _))

theorem placePages_plansKept (k count : Nat) (s : State) : PlansKept s (placePages k count s).1 := by
  unfold placePages
  extract_lets e m b cow i old
  have hcopy : PlansKept s (if cow = true then copyPage k s else s) := by
    split
    · next hcow =>
      refine copyPage_plansKept ?_
      simp only [cow, needsCow, Bool.and_eq_true, decide_eq_true_eq] at hcow
      exact hcow.2
    · exact .refl s
  have happend : ∀ (l : List Nat) (t : State), PlansKept t (l.foldl (fun s _ => appendPage k s) t) := fun l t =>
    .foldl (fun u _ => appendPage_plansKept k u) l t
  exact (hcopy.trans (happend _ _)).trans (.of_srv (hbmWrite_srv _ _ _))

/-! ### A candidate that is taken -/

/-- The plan of the model gets one entry, with the cost of the candidate. -/
theorem takeCand_plan (m k : Nat) (s : State) : ∃ p : PlanEnt, p.count = srvCost (s.srvModel m).block (s.srvEntry k)
    ∧ ((takeCand m k s).srvModel m).block = (s.srvModel m).block ∧ ((takeCand m k s).srvModel m).plan = (s.srvModel m).plan ++ [p] := by
  unfold takeCand
  extract_lets cost t
  have ht : PlansKept s t := by
    unfold t
    split
    · exact takeIn_plansKept k s
    · exact .refl s
  have hplace := placePages_plansKept k cost t
  split
  next u cow hu =>
  rw [hu] at hplace
  extract_lets e tokens v q
  obtain ⟨hblock, hplan⟩ := (ht.trans hplace) m
  obtain ⟨p, hp⟩ : ∃ p : PlanEnt, { ix := k, prefill := e.st != 3, row := e.computed + cost == e.length, cow, first := e.computed, count := cost, tokens } = p :=
    ⟨_, rfl⟩
  have hv : v.srvModel m = { u.srvModel m with plan := (u.srvModel m).plan ++ [p] } := by
    unfold v
    rw [hp]
    refine State.srvModel_setSrvModel_of_ne fun h => ?_
    have hnil : (u.srvModel m).plan ++ [p] = [] := congrArg SrvModel.plan h
    exact List.append_ne_nil_of_right_ne_nil _ (List.cons_ne_nil _ _) hnil
  refine ⟨p, by rw [← hp], ?_, ?_⟩
  · rw [State.srvModel_setSrvQueue, hv, hblock]
  · rw [State.srvModel_setSrvQueue, hv, hplan]

/-- A model within its limits (R402): at most REQS entries and TOKENS tokens, of the block `b`. -/
def PlanFits (b : Bytes) (x : SrvModel) : Prop := x.block = b ∧ x.plan.length ≤ mReqs b ∧ (x.plan.map (·.count)).sum ≤ mTokens b

theorem takeCand_planFits {b : Bytes} {m k traffic : Nat} {s : State} (h : PlanFits b (s.srvModel m))
    (hfits : candFits (s.srvModel m) (k, s.srvEntry k) ((s.srvModel m).plan.map (·.count)).sum traffic s = true) :
    PlanFits b ((takeCand m k s).srvModel m) := by
  obtain ⟨hb, -, -⟩ := h
  obtain ⟨p, hcount, hblock, hplan⟩ := takeCand_plan m k s
  simp only [candFits, Bool.and_eq_true, decide_eq_true_eq, hb] at hfits
  obtain ⟨⟨⟨hlen, hsum⟩, -⟩, -⟩ := hfits
  refine ⟨hblock.trans hb, ?_, ?_⟩
  · rw [hplan, List.length_append, List.length_singleton]
    exact hlen
  · rw [hplan, List.map_append, List.sum_append, List.map_singleton, List.sum_singleton, hcount, hb]
    exact hsum

/-- Settles O35, by induction on the candidates: each that is taken fits. -/
theorem planWithinLimits : Obligations.PlanWithinLimits := by
  unfold Obligations.PlanWithinLimits
  intro m first l s b fits
  suffices h : ∀ t : State, PlanFits b (t.srvModel m) → PlanFits b ((batchPass m first l t).srvModel m) from h s
  induction l with
  | nil => exact fun t h => h
  | cons c l ih =>
    intro t h
    unfold batchPass
    extract_lets x e toks traffic cost
    split
    · exact ih t h
    · next hc =>
      simp only [Bool.or_eq_true, not_or, Bool.not_eq_true, Bool.not_eq_false'] at hc
      exact ih _ (takeCand_planFits h hc.1.2)

end Sys2Proof.Machine
end

section
/-! PROOFS for 14_serving_block.md: the step of a served model. -/

namespace Sys2Proof.Machine
open Sys2Proof

section Step
variable {m : Nat} {s : State} (hfatal : s.isFatal = false) (hmodel : s.hasModel m = true)

/-! ### The boundary (R395 to R402) -/

/-- Batching at a boundary: deficits, Prism blocks, restores, then the two passes. -/
def batched (m : Nat) (u : State) : State :=
  let v := startRestores m (askBlocks m (fillDeficits m u))
  batchPass m false (v.ranked m) (batchPass m true (v.ranked m) v)

include hfatal hmodel in
theorem execServingBoundary_of_waiting (hphase : (s.srvModel m).phase = 0) {t u w : State} {y : SrvModel}
    (ht : boundaryPass m [1, 4] (boundaryPass m [3] (boundaryPass m [6] (boundaryPass m [5] s))) = t) (hy : t.srvModel m = y)
    (hu : t.setSrvModel m { y with
      plan := [], sets := (t.srv.samplers.filter fun z => z.1 / 256 == y.ctx).map fun z => (z.1 % 256, z.2) } = u)
    (hw : (if y.faulted = true ∨ (mSide y.block = 1 ∧ (u.ring (mPlanRing y.block)).full = true)
      ∨ (u.unit Config.tServing (u.leadBlock (mSide y.block))).hold = true then u else batched m u) = w) :
    execServingBoundary m s = .next (if t.hasModel m = false then t
      else if (w.srvModel m).plan ≠ [] then handOver m w
      else if (w.srvModel m).bents ≠ [] then w.updSrvModel m fun x => { x with phase := 3, start := w.now } else w) := by
  have hwait : (if (y.faulted || (mSide y.block == 1 && (u.ring (mPlanRing y.block)).full)
      || (u.unit Config.tServing (u.leadBlock (mSide y.block))).hold) = true then u else batched m u) = w := by
    rw [← hw]
    simp only [Bool.or_eq_true, Bool.and_eq_true, beq_iff_eq, or_assoc]
  unfold batched at hwait
  simp only [execServingBoundary, hmodel, hphase, hfatal, ht, hy, hu, hwait]
  cases t.hasModel m with
  | false => rfl
  | true => cases hplan : (w.srvModel m).plan <;> cases hbents : (w.srvModel m).bents <;> simp

/-! ### The executor's handle (R397) -/

section Handle
variable (hphase : (s.srvModel m).phase = 1) (hrows : planRows (s.srvModel m).plan ≠ 0)
include hfatal hmodel hphase hrows

theorem execExecutorDone_of_teacher {h : Bytes} (hside : mSide (s.srvModel m).block = 0)
    (hswept : (s.sweeps.any fun w => w.model == some m) = false) (hflags : field (fitTo 16 h) 15 1 = 0)
    (hstep : field (fitTo 16 h) 12 2 = (s.srvModel m).step % 65536)
    (howns : s.owns 0 (field (fitTo 16 h) 0 8) (16 * planRows (s.srvModel m).plan) = true)
    (hgood : s.hbmBad (field (fitTo 16 h) 0 8) (16 * planRows (s.srvModel m).plan) = false) :
    execExecutorDone m h s = .next (s.updSrvModel m fun x => { x with
      rows := s.rowTable (field (fitTo 16 h) 0 8) (planRows (s.srvModel m).plan), phase := 2 }) := by
  have hrights : (s.srvModel m).rights = 0 := if_pos hside
  have hrun : ¬ (!s.hasModel m || decide ((s.srvModel m).phase ≠ 1) || s.isFatal) = true := by simp [hmodel, hphase, hfatal]
  refine (if_neg hrun).trans ((if_neg (by simp [hside])).trans ((if_neg (by simp [hswept])).trans ?_))
  simp only [hflags, hstep, hrights, howns, hgood, hrows, ne_eq, not_true_eq_false, decide_false, Bool.or_self, Bool.not_true, Bool.false_eq_true,
    ↓reduceIte]

theorem execExecutorDone_of_student {h d : Bytes} {r : Ring} {t : State} (hside : mSide (s.srvModel m).block = 1)
    (hr : s.ring (mDoneRing (s.srvModel m).block) = r) (hd : s.spaceRead r.space (r.slotAddr r.head) 16 = d)
    (ht : s.setRing (mDoneRing (s.srvModel m).block) { r with head := r.nextIx r.head, done := (r.done + 1) % 2 ^ 32 } = t)
    (hfilled : r.filled ≠ 0) (hread : s.spaceBad r.space (r.slotAddr r.head) 16 = false) (hflags : field d 15 1 = 0)
    (hstep : field d 12 2 = (s.srvModel m).step % 65536)
    (howns : s.owns (s.srvModel m).rights (field d 0 8) (16 * planRows (s.srvModel m).plan) = true)
    (hgood : s.hbmBad (field d 0 8) (16 * planRows (s.srvModel m).plan) = false) :
    execExecutorDone m h s = .next (t.updSrvModel m fun x => { x with
      rows := t.rowTable (field d 0 8) (planRows (s.srvModel m).plan), phase := 2 }) := by
  have hrun : ¬ (!s.hasModel m || decide ((s.srvModel m).phase ≠ 1) || s.isFatal) = true := by simp [hmodel, hphase, hfatal]
  have howns' : t.owns (s.srvModel m).rights (field d 0 8) (16 * planRows (s.srvModel m).plan) = true := by rw [← ht]; exact howns
  have hgood' : t.hbmBad (field d 0 8) (16 * planRows (s.srvModel m).plan) = false := by rw [← ht]; exact hgood
  refine (if_neg hrun).trans ((if_pos hside).trans ?_)
  simp only [hr, ht, hd, hfilled, hread, hflags, hstep, howns', hgood', hrows, ne_eq, not_true_eq_false, decide_false, Bool.or_self, Bool.not_true, Bool.false_eq_true,
    ↓reduceIte]

end Handle

/-! ### Sampling (R408 to R411) -/

section Sampler
variable {row lens space core addr inst : Nat} {x : SrvModel} {e : PlanEnt} (hx : s.srvModel m = x) (hinst : Config.dieOf Config.tLens lens = inst)
  (hrow : x.rows[row]? = some (space, core, addr)) (hentry : rowEntry x.plan row = some e)

section Request
variable (hphase : x.phase = 2) (hlens : s.enabled Config.tLens lens = true) (hoos : (s.unit Config.tLens lens).oos = false)
  (hblock : s.enabled Config.tServing inst = true) (hdraws : (s.srv.draws.any fun d => d.model == m && d.row == row) = false)
  (hasks : (s.srv.asks.any fun a => a.1 == m && a.2.1 == row) = false) (hdrawn : (x.drawn.any fun d => d.1 == row) = false)
  (hside : inst < 4 ↔ mSide x.block = 0) (hprism : s.prismWaits x.block (s.srvEntry e.ix) = false)
include hfatal hx hinst hrow hentry hphase hlens hoos hblock hdraws hasks hdrawn hside hprism

/-- A request that passes its checks waits in `asks` until the Lens serves it. -/
theorem execSamplerRequest_of_ready {t : State} (ht : { s with srv := { s.srv with asks := s.srv.asks ++ [(m, row, lens)] } } = t) :
    execSamplerRequest m row lens s = .next (if (t.heldRow lens).isSome then t else samplerServe lens t) := by
  have hdie : (decide (inst < 4) != (mSide x.block == 0)) = false := by simp [hside, beq_eq_decide]
  simp only [execSamplerRequest, hx, hinst, hrow, hentry, hphase, hlens, hoos, hblock, hdraws, hasks, hdrawn, hprism, hfatal, hdie, ht]
  rfl

theorem execSamplerRequest_of_held (hheld : (s.heldRow lens).isSome = true) : execSamplerRequest m row lens s =
    .next { s with srv := { s.srv with asks := s.srv.asks ++ [(m, row, lens)] } } :=
  (execSamplerRequest_of_ready hfatal hx hinst hrow hentry hphase hlens hoos hblock hdraws hasks hdrawn hside hprism rfl).trans
    (congrArg Host.Outcome.next (if_pos hheld))

end Request

/-- Of requests of which none is for this Lens, one more is served at once. -/
theorem samplerServe_of_only {a : Nat × Nat × Nat} (ha : a.2.2 = lens) (hothers : ∀ b ∈ s.srv.asks, b.2.2 ≠ lens) :
    samplerServe lens { s with srv := { s.srv with asks := s.srv.asks ++ [a] } } = samplerRun a.1 a.2.1 lens s := by
  have hmine : (s.srv.asks ++ [a]).filter (fun b => b.2.2 == lens) = [a] := by
    rw [List.filter_append, List.filter_eq_nil_iff.mpr fun b hb => by simpa using hothers b hb]
    simp [ha]
  have hnot : a ∉ s.srv.asks := fun h => hothers a h ha
  have herase : (s.srv.asks ++ [a]).erase a = s.srv.asks := by
    rw [List.erase_append_right _ hnot]
    simp
  have hin : (s.srv.asks ++ [a]).contains a = true := by simp
  simp only [samplerServe, hmine, List.foldl_cons, List.foldl_nil, hin, herase, if_true]

section Run
variable {b : Bytes} {sz k temp slot : Nat} {r : LRange} {set bs : Bytes} (hb : x.block = b) (hsz : (if mFmt b = 0 then 4 else 2) = sz)
  (hr : ({ space, core, addr, len := sz * mVocab b } : LRange) = r) (hslot : entrySlot b (s.srvEntry e.ix) = slot)
  (hset : SMap.get (zeros 64) x.sets (s.srvEntry e.ix).sampler = set) (htemp : field set 0 4 = temp)
  (hbs : penalized b set (s.counts slot) (s.lensRead lens r) = bs) (hk : (if temp = 0 then 1 else if field set 4 2 = 0 then 256 else field set 4 2) = k)
  (hspace : space ≤ 1) (hondie : r.onDie lens = true) (hperm : s.lensPerm lens x.rights r = true) (hrange : s.lensRange lens x.rights true r = true)
  (hgood : s.lensBad lens r = false) (hcounts : s.hbmBad slot 8192 = false)
  (hpages : s.hbmBad (slot + 8192) (4 * (s.srvEntry e.ix).pages.length) = false)

theorem lensSuspend_workWithin (lens cls : Nat) (s : State) : WorkWithin s (lensSuspend lens cls s) := by
  refine .foldl (fun a x => ?_) _ s
  extract_lets t
  exact .ite rfl (.refl a)

theorem lensWrite_srv (lens space core addr : Nat) (bs : Bytes) (s : State) : (lensWrite lens space core addr bs s).srv = s.srv := by
  unfold lensWrite
  split
  · exact hbmWrite_srv _ _ _
  · split <;> rfl

include hx hinst hrow hentry hb hsz hr hslot hset htemp hbs hk hspace hondie hperm hrange hgood hcounts hpages

/-- The Lens selects from the row with its penalties, which stand in memory, and the result is a draw of the row. -/
theorem samplerRun_effect : (samplerRun m row lens s).mem = (lensWrite lens space core addr bs (lensSuspend lens 0 s)).mem
    ∧ (samplerRun m row lens s).srv.draws = s.srv.draws ++ [
      { model := m, row, inst, block := (lensTopk (mFmt b) false (some (if temp = 0 then one32 else temp)) k
          ((List.range (mVocab b)).map fun i => field bs (sz * i) sz)).block }] := by
  obtain ⟨q, hq⟩ : ∃ q, lensTopk (mFmt b) false (some (if temp = 0 then one32 else temp)) k
    ((List.range (mVocab b)).map fun i => field bs (sz * i) sz) = q := ⟨_, rfl⟩
  obtain ⟨v, hv⟩ : ∃ v, lensWrite lens space core addr bs (lensSuspend lens 0 s) = v := ⟨_, rfl⟩
  have hread : (decide (space > 1) || !r.onDie lens || !s.lensPerm lens x.rights r || !s.lensRange lens x.rights true r) = false := by
    simp [hondie, hperm, hrange, hspace]
  have hsrv : v.srv = s.srv := by rw [← hv, lensWrite_srv, (lensSuspend_workWithin _ _ _).srv]
  have hrun : ∃ w, WorkWithin v w ∧ samplerRun m row lens s = bump Config.tServing inst 9 1 { w with srv := { w.srv with
      draws := w.srv.draws ++ [{ model := m, row, inst, block := q.block }] } } := by
    have hcounted : ∀ (cs : List (Nat × Nat)) (l l' : List Nat) (f : UnitRegs → UnitRegs),
        WorkWithin v ((lensCounts lens cs (spent Config.tServing inst l (spent Config.tLens lens l' (lensLast lens q.valid q.flags v)))).updUnit
          Config.tLens lens f) := by
      intro cs l l' f
      have hlast : WorkWithin v (lensLast lens q.valid q.flags v) := rfl
      have hcount := foldl_count_workWithin Config.tLens lens cs
        (spent Config.tServing inst l (spent Config.tLens lens l' (lensLast lens q.valid q.flags v)))
      exact ((hlast.trans ((spent_workWithin ..).trans (spent_workWithin ..))).trans hcount).trans rfl
    simp only [samplerRun, hx, hrow, hentry, hinst, hb, hsz, hr, hslot, hread, hgood, hcounts, hpages, hset, htemp, hbs, hk, hv, hq,
      Bool.or_self, Bool.false_eq_true, ↓reduceIte]
    exact ⟨_, hcounted _ _ _ _, rfl⟩
  obtain ⟨w, hw, hrun⟩ := hrun
  rw [hrun, hv, hq]
  refine ⟨hw.mem, ?_⟩
  show w.srv.draws ++ _ = _
  rw [hw.srv, hsrv]

end Run
end Sampler

/-! ### The token of a row (R407, R408) -/

section Token
variable {row : Nat} {d : Draw} {e : PlanEnt} {x : SrvModel} {t : State} {ents : List (Nat × Nat)} (hx : s.srvModel m = x)
  (hdraw : (s.srv.draws.find? fun d => d.model == m && d.row == row) = some d) (hentry : rowEntry x.plan row = some e) (hphase : x.phase = 2)
  (ht : { s with srv := { s.srv with draws := s.srv.draws.filter fun z => !(z.model == m && z.row == row) } } = t)
  (hents : (List.range (field d.block 0 4)).map (fun i => (field d.block (32 + 8 * i) 4, field d.block (36 + 8 * i) 4)) = ents)
include hfatal hx hdraw hentry hphase ht hents

theorem execRowSample_of_none (hnone : ents = []) : execRowSample m row s = .next (t.updSrvModel m fun w => { w with
    drawn := x.drawn ++ [(row, none, 0)], phase := if x.drawn.length + 1 = w.rows.length then 3 else 2 }) := by
  subst hnone
  simp only [execRowSample, hx, hdraw, hentry, hphase, hfatal, ht, hents]
  simp

theorem execRowSample_of_drawn {y : SrvEntry} {z : Nat × Nat} {u v : State} (hy : s.srvEntry e.ix = y) (hsome : ents ≠ [])
    (hz : drawToken (SMap.get (zeros 64) x.sets y.sampler) y.seed y.length ents = z)
    (hu : (if y.st = 6 then t else entryCount e.ix z.1 t) = u)
    (hv : (if y.st ≠ 6 ∧ ((u.counts (entrySlot x.block y)).any fun c => c.1 == z.1) = false then bump Config.tServing d.inst 13 1 u else u) = v) :
    execRowSample m row s = .next (v.updSrvModel m fun w => { w with
      drawn := x.drawn ++ [(row, some z.1, z.2)], phase := if x.drawn.length + 1 = w.rows.length then 3 else 2 }) := by
  have hempty : ents.isEmpty = false := by simpa using hsome
  have hv' : (if (y.st != 6 && !((u.counts (entrySlot x.block y)).any fun c => c.1 == z.1)) = true then bump Config.tServing d.inst 13 1 u else u) = v := by
    rw [← hv]
    simp only [Bool.and_eq_true, bne_iff_ne, Bool.not_eq_true']
  simp only [execRowSample, hx, hdraw, hentry, hphase, hfatal, ht, hents, hy, hempty, hz, Bool.false_eq_true, ↓reduceIte, hu, hv']
  simp

end Token

/-! ### Records (R398, R399) -/

theorem stepRecord_runs {x : SrvModel} (hfatal : s.isFatal = false) (hmodel : s.hasModel m = true)
    (hdue : x.phase = 3 ∨ (x.phase = 0 ∧ x.bents ≠ [])) :
    ¬ (!s.hasModel m || s.isFatal || !(decide (x.phase = 3) || (decide (x.phase = 0) && !x.bents.isEmpty))) = true := by
  obtain h | ⟨h0, hbents⟩ := hdue
  · simp [hmodel, hfatal, h]
  · simp [hmodel, hfatal, h0, hbents]

section Record
variable {x : SrvModel} {r : Ring} {step : Bool} {es : State × List RecEnt} {bs ents : List RecEnt} {n toks dec : Nat} (hx : s.srvModel m = x)
  (hr : s.ring (mOutRing x.block) = r) (hstep : (decide (x.phase = 3) && !x.plan.isEmpty) = step)
  (hes : (if step then endEntries m x.plan 0 s else (s, [])) = es) (hbs : x.bents.foldr insertBent [] = bs)
  (hents : es.2 ++ (bs.take 256).map (fun e => { e with flags := e.flags - e.flags % 2 + b2n (decide (e.deadline < s.now)) }) = ents)
  (hn : cdiv (64 + 16 * ents.length) (2 ^ r.slotLog2) = n) (hdue : x.phase = 3 ∨ (x.phase = 0 ∧ x.bents ≠ []))
include hfatal hmodel hx hr hstep hes hbs hents hn hdue

theorem execStepRecordWrite_of_full (hroom : r.slots - r.filled < n) : execStepRecordWrite m s = .next (s.updSrvModel m fun y => { y with
    stall := if y.stall = 0 then s.now + 1 else y.stall }) := by
  have hrun := stepRecord_runs hfatal hmodel hdue
  simp only [execStepRecordWrite, hx]
  refine (if_neg hrun).trans ?_
  simp only [hstep, hes, hr, hbs, hents, hn]
  exact if_pos hroom

theorem execStepRecordWrite_of_room (htoks : (if step then (x.plan.map (·.count)).sum else 0) = toks)
    (hdec : ((x.plan.filter fun p => !p.prefill).map (·.count)).sum = dec) {head : Bytes}
    (hhead : leBytes 2 m ++ leBytes 1 (b2n !step) ++ leBytes 1 n ++ leBytes 4 ents.length ++ leBytes 8 x.step ++ leBytes 8 x.start
      ++ leBytes 8 s.now ++ leBytes 4 toks ++ zeros 28 = head) {t u : State}
    (ht : (putSlots (mOutRing x.block) (head ++ ents.flatMap RecEnt.bytes) n es.1).updSrvModel m (fun y => { y with
      phase := 0, plan := [], rows := [], drawn := [], fail := false, bents := bs.drop 256, stall := 0 }) = t)
    (hu : srvCnt x 11 (ents.filter fun e => e.flags % 2 == 1).length
      (if step then srvCnt x 0 1 (srvCnt x 1 dec (srvCnt x 2 (toks - dec) t)) else t) = u) (hroom : n ≤ r.slots - r.filled) :
    execStepRecordWrite m s = .next (srvSweepModel m (srvCnt x 12 (if x.stall = 0 then 0 else 2 * (u.now + 1 - x.stall)) u)) := by
  have hrun := stepRecord_runs hfatal hmodel hdue
  simp only [execStepRecordWrite, hx]
  refine (if_neg hrun).trans ?_
  simp only [hstep, hes, hr, hbs, hents, hn]
  refine (if_neg (Nat.not_lt.mpr hroom)).trans ?_
  simp only [htoks, hdec, hhead, ht, hu]

end Record

end Step

/-- Settles O34: each event by the branch that its hypotheses take. -/
theorem servingStep : Obligations.ServingStep := by
  unfold Obligations.ServingStep
  intro m s hfatal hmodel x b
  refine ⟨?boundary, ?teacher, ?student, ?request, ?sample, ?record⟩
  case boundary =>
    intro t y u v w hphase
    exact execServingBoundary_of_waiting hfatal hmodel hphase rfl rfl rfl rfl
  case teacher =>
    exact fun h hphase hside hswept hflags hstep hrows howns hgood =>
      execExecutorDone_of_teacher hfatal hmodel hphase hrows hside hswept hflags hstep howns hgood
  case student =>
    intro h r a d t hphase hside hfilled hread hflags hstep hrows howns hgood
    exact execExecutorDone_of_student hfatal hmodel hphase hrows hside rfl rfl rfl hfilled hread hflags hstep howns hgood
  case request =>
    intro row lens space core addr e hrow hentry hphase hlens hoos inst hblock hdraws hasks hdrawn hside hprism
    refine ⟨execSamplerRequest_of_held hfatal rfl rfl hrow hentry hphase hlens hoos hblock hdraws hasks hdrawn hside hprism, fun hheld hothers => ⟨?_, ?_⟩⟩
    · refine (execSamplerRequest_of_ready hfatal rfl rfl hrow hentry hphase hlens hoos hblock hdraws hasks hdrawn hside hprism rfl).trans ?_
      have hnone : ¬ (s.heldRow lens).isSome = true := by simp [hheld]
      exact congrArg Host.Outcome.next ((if_neg hnone).trans (samplerServe_of_only rfl hothers))
    · intro sz r slot set temp bs k hspace hondie hperm hrange hgood hcounts hpages
      exact samplerRun_effect rfl rfl hrow hentry rfl rfl rfl rfl rfl rfl rfl rfl hspace hondie hperm hrange hgood hcounts hpages
  case sample =>
    intro row d e hdraw hentry hphase y ents t z u v
    exact ⟨fun hsome => execRowSample_of_drawn hfatal rfl hdraw hentry hphase rfl rfl rfl hsome rfl rfl rfl,
      fun hnone => execRowSample_of_none hfatal rfl hdraw hentry hphase rfl rfl hnone⟩
  case record =>
    intro r step es bs ents n toks dec head t u hdue
    exact ⟨fun hroom => execStepRecordWrite_of_room hfatal hmodel rfl rfl rfl rfl rfl rfl rfl hdue rfl rfl rfl rfl rfl hroom,
      fun hroom => execStepRecordWrite_of_full hfatal hmodel rfl rfl rfl rfl rfl rfl rfl hdue hroom⟩

end Sys2Proof.Machine
end

section
/-! PROOFS for 15_beam_links_collectives.md: what a collective leaves. -/

namespace Sys2Proof.Machine
open Sys2Proof

/-! ### What a collective moves -/

/-- `t` is `s` but for what a collective on ring `j` moves: its ring, groups, registers, free values, the host's lines and device memory. -/
structure CollWithin (j : Nat) (s t : State) : Prop where
  rest : t = { s with
    groups := t.groups, rings := t.rings, units := t.units, free := t.free, host := t.host
    mem := { s.mem with hbm := t.mem.hbm, hbmPoison := t.mem.hbmPoison } }
  ring : ∀ k, k ≠ j → t.ring k = s.ring k

namespace CollWithin
variable {j : Nat} {s t u : State}

theorem refl (s : State) : CollWithin j s s := ⟨rfl, fun _ _ => rfl⟩

theorem trans (h : CollWithin j s t) (g : CollWithin j t u) : CollWithin j s u := by
  refine ⟨?_, fun k hk => (g.ring k hk).trans (h.ring k hk)⟩
  have hu := g.rest
  rw [h.rest] at hu
  exact hu

/-- A change of registers and free values alone. -/
theorem of_units (h : t = { s with units := t.units, free := t.free }) : CollWithin j s t :=
  ⟨by rw [h], fun k _ => by rw [h]; rfl⟩

theorem setRing (s : State) (x : Ring) : CollWithin j s (s.setRing j x) := ⟨rfl, fun _ hk => State.ring_setRing_other s _ hk⟩

theorem updRing (s : State) (f : Ring → Ring) : CollWithin j s (s.updRing j f) := setRing s _

theorem snoopOut (s : State) (a n : Nat) : CollWithin j s (Machine.snoopOut a n s) := by
  unfold Machine.snoopOut
  extract_lets hit
  split
  · exact .refl s
  · exact ⟨rfl, fun _ _ => rfl⟩

theorem hbmPut (s : State) (a : Nat) (bs : Bytes) : CollWithin j s (Machine.hbmPut a bs s) := by
  unfold Machine.hbmPut
  dsimp only
  split
  · exact ⟨rfl, fun _ _ => rfl⟩
  · exact ⟨rfl, fun _ _ => rfl⟩

theorem hbmWrite (s : State) (a : Nat) (bs : Bytes) : CollWithin j s (Machine.hbmWrite a bs s) :=
  (snoopOut s a bs.length).trans (hbmPut _ a bs)

end CollWithin

theorem spent_units (ty inst : Nat) (l : List Nat) (s : State) :
    spent ty inst l s = { s with units := (spent ty inst l s).units, free := (spent ty inst l s).free } := by
  induction l generalizing s with
  | nil => rfl
  | cons n l ih =>
    have h := ih (bump ty inst n s.fresh.1 s.fresh.2)
    rw [spent, h]
    rfl

theorem snoopOut_rings (a n : Nat) (s : State) : (snoopOut a n s).rings = s.rings := by
  unfold snoopOut
  extract_lets hit
  split <;> rfl

theorem hbmWrite_rings (a : Nat) (bs : Bytes) (s : State) : (hbmWrite a bs s).rings = s.rings := by
  have hput (t : State) : (hbmPut a bs t).rings = t.rings := by
    simp only [hbmPut]
    split <;> rfl
  rw [hbmWrite, hput, snoopOut_rings]

/-! ### The descriptor of a collective, at work and finished -/

/-- The descriptor `d` of index `ix` is at work on ring `j`. -/
def AtWork (j ix : Nat) (d : Bytes) (s : State) : Prop := ∃ c, (s.ring j).cur = some c ∧ c.desc = d ∧ c.index = ix

/-- The descriptor `d` of index `ix` has finished on ring `j`, with a status and its bytes; its record is due. -/
def Finished (j ix : Nat) (d : Bytes) (status lb : Nat) (s : State) : Prop :=
  ∃ c, (s.ring j).cur = some c ∧ c.phase = 1 ∧ c.status = status ∧ c.lb = lb ∧ c.desc = d ∧ c.index = ix

theorem finish_finished {j ix status lb : Nat} {d detail : Bytes} {s : State} (h : AtWork j ix d s) :
    Finished j ix d status lb (finish j status lb detail s) ∧ CollWithin j s (finish j status lb detail s) := by
  obtain ⟨c, hcur, hd, hix⟩ := h
  simp only [finish, hcur]
  refine ⟨⟨{ c with phase := 1, status, lb, detail, out := [], todo := [] }, ?_, rfl, rfl, rfl, hd, hix⟩, .setRing s _⟩
  rw [State.ring_setRing_of_cur s j rfl]

theorem collEnd_finished {j ix status reason lost lb : Nat} {d : Bytes} {s : State} (h : AtWork j ix d s) :
    Finished j ix d status lb (collEnd j status reason lost lb s) ∧ CollWithin j s (collEnd j status reason lost lb s)
      ∧ (collEnd j status reason lost lb s).mem = s.mem := by
  obtain ⟨c, hcur, hd, hix⟩ := h
  simp only [collEnd, hcur]
  obtain ⟨u, hu⟩ : ∃ u, (if reason = 0 then bump Config.tEngine (s.ring j).unitInst (if status = 0 then 0 else 1) 1 s
    else setErr Config.tEngine (s.ring j).unitInst (match reason with | 1 => 0 | 2 => 1 | _ => 4) j c.index reason
      (bump Config.tEngine (s.ring j).unitInst (if status = 0 then 0 else 1) 1 s)) = u := ⟨_, rfl⟩
  have hw : UnitsWithin s u := by
    rw [← hu]
    split <;> rfl
  have hwork : AtWork j ix d u := ⟨c, by rw [hw]; exact hcur, hd, hix⟩
  have hcoll : CollWithin j s u := .of_units (by rw [hw])
  have hgoal : ∀ detail, Finished j ix d status lb (finish j status lb detail u) ∧ CollWithin j s (finish j status lb detail u)
      ∧ (finish j status lb detail u).mem = s.mem := fun detail =>
    ⟨(finish_finished hwork).1, hcoll.trans (finish_finished hwork).2, (finish_mem ..).trans hw.mem⟩
  rw [← hu] at hgoal
  exact hgoal _

/-- The collective begins: the group counts it, and the descriptor is at work with the group's number. -/
def collBegun (j ix : Nat) (d : Bytes) (s : State) : State :=
  let g := s.group (field d 12 2)
  let n := if (s.ring j).unitInst = 0 then g.seq0 else g.seq1
  let t := s.setGroup (field d 12 2) (if (s.ring j).unitInst = 0 then { g with seq0 := n + 1 } else { g with seq1 := n + 1 })
  (served j (begin j ix d t)).updRing j fun x => { x with cur := x.cur.map fun c => { c with rows := n } }

theorem collBegun_atWork {j ix : Nat} {d : Bytes} {s : State} (hst : (s.ring j).st ≠ 0) : AtWork j ix d (collBegun j ix d s) := by
  unfold collBegun
  extract_lets g n t
  have hconsume : (consume j t).ring j = { t.ring j with head := (t.ring j).nextIx (t.ring j).head, fetched := (t.ring j).fetched.drop 1 } :=
    State.ring_setRing_of_st t j (by exact hst)
  obtain ⟨c, hcur, hd, hix⟩ : AtWork j ix d (begin j ix d t) := by
    unfold AtWork begin
    rw [State.updRing_eq, State.ring_setRing_of_cur _ j rfl]
    exact ⟨_, rfl, rfl, rfl⟩
  have hserved : (served j (begin j ix d t)).ring j = (begin j ix d t).ring j := rfl
  refine ⟨{ c with rows := n }, ?_, hd, hix⟩
  rw [State.updRing_eq, State.ring_setRing_of_cur, hserved, hcur]
  · rfl
  · rw [hserved, hcur]
    rfl

theorem collBegun_collWithin (j ix : Nat) (d : Bytes) (s : State) : CollWithin j s (collBegun j ix d s) := by
  unfold collBegun
  extract_lets g n t
  have ht : CollWithin j s t := ⟨rfl, fun _ _ => rfl⟩
  have hbegin : CollWithin j t (begin j ix d t) := (CollWithin.updRing t _).trans (.updRing _ _)
  have hserved : CollWithin j (begin j ix d t) (served j (begin j ix d t)) := .of_units rfl
  exact ((ht.trans hbegin).trans hserved).trans (.updRing _ _)

theorem collBegun_mem (j ix : Nat) (d : Bytes) (s : State) : (collBegun j ix d s).mem = s.mem := by
  simp only [collBegun, State.updRing_mem, served_mem, begin_mem, State.setGroup_mem]

theorem collBegun_rankIn (j ix : Nat) (d : Bytes) (s : State) (ms : List Nat) : (collBegun j ix d s).rankIn ms = s.rankIn ms := by
  obtain ⟨t, ht⟩ : ∃ t, collBegun j ix d s = t := ⟨_, rfl⟩
  have hw := collBegun_collWithin j ix d s
  rw [ht] at hw ⊢
  rw [hw.rest]
  rfl

/-- The group goes on as it was, with its count. -/
theorem collBegun_group {j ix : Nat} {d : Bytes} {s : State} (hst : (s.group (field d 12 2)).st = 1) :
    ((collBegun j ix d s).group (field d 12 2)).members = (s.group (field d 12 2)).members
      ∧ ((collBegun j ix d s).group (field d 12 2)).st = 1 := by
  obtain ⟨x, hx⟩ : ∃ x, (if (s.ring j).unitInst = 0
    then { s.group (field d 12 2) with seq0 := (if (s.ring j).unitInst = 0 then (s.group (field d 12 2)).seq0 else (s.group (field d 12 2)).seq1) + 1 }
    else { s.group (field d 12 2) with seq1 := (if (s.ring j).unitInst = 0 then (s.group (field d 12 2)).seq0 else (s.group (field d 12 2)).seq1) + 1 })
    = x := ⟨_, rfl⟩
  have hxst : x.st = 1 ∧ x.members = (s.group (field d 12 2)).members := by
    rw [← hx]
    split <;> exact ⟨hst, rfl⟩
  have hne : x ≠ Group.init := by
    rintro rfl
    cases hxst.1
  have hgroup : (collBegun j ix d s).group (field d 12 2) = x := by
    show SMap.get Group.init (SMap.set Group.init s.groups _ (if _ then _ else _)) _ = x
    rw [hx]
    exact SMap.get_set_ne hne _ _
  rw [hgroup]
  exact ⟨hxst.2, hxst.1⟩

/-! ### What the other members gave (R441) -/

section Go
variable {j ix : Nat} {d : Bytes} {l : List Bytes} {ms : List Nat} {r : Nat} {t : State} (hwork : AtWork j ix d t)
  (hms : (t.group (field d 12 2)).members = ms) (hst : (t.group (field d 12 2)).st = 1) (hr : t.rankIn ms = r)
include hwork hms hst hr

theorem collGo_of_mismatch (hlen : l.map List.length ≠ ((List.range ms.length).filter (· != r)).map fun i => collSrcLen d i ms.length) :
    collGo j (some l) t = collEnd j 0x2901 2 0xFFFF 0 t := by
  obtain ⟨c, hcur, hd, -⟩ := hwork
  subst hd
  simp only [collGo, hcur, hst, hms, hr]
  exact if_pos hlen

/-- The bytes match: the result is written, and the collective ends. -/
theorem collGo_of_match (hlen : l.map List.length = ((List.range ms.length).filter (· != r)).map fun i => collSrcLen d i ms.length) {res : Bytes}
    (hres : collResult d ms r (atRank r (t.hbmRead (field d 20 8) (collSrcLen d r ms.length)) l) = res) :
    ∃ u v, collGo j (some l) t = collEnd j 0 0 0xFFFF res.length v ∧ UnitsWithin t u
      ∧ CollWithin j (if res.isEmpty then u else hbmWrite (field d 28 8) res u) v ∧ v.rings = t.rings
      ∧ v.mem = (if res.isEmpty then u else hbmWrite (field d 28 8) res u).mem := by
  obtain ⟨c, hcur, hd, -⟩ := hwork
  subst hd
  obtain ⟨n, hn⟩ : ∃ n, (t.hbmRead (field c.desc 20 8) (collSrcLen c.desc r ms.length)).length = n := ⟨_, rfl⟩
  obtain ⟨u, hu⟩ : ∃ u, hbmTaken (field c.desc 20 8) n t = u := ⟨_, rfl⟩
  obtain ⟨w, hw⟩ : ∃ w, (if res.isEmpty then u else hbmWrite (field c.desc 28 8) res u) = w := ⟨_, rfl⟩
  obtain ⟨y, hy⟩ : ∃ y, (if collKind c.desc < 3 then bump Config.tEngine (w.ring j).unitInst 2 n w else w) = y := ⟨_, rfl⟩
  obtain ⟨v, hv⟩ : ∃ v, (if (ms.any fun m => m / 64 != y.sys.pod) = true then spent Config.tEngine (y.ring j).unitInst [3] y else y) = v := ⟨_, rfl⟩
  have huw : UnitsWithin t u := by
    rw [← hu]
    unfold hbmTaken
    split <;> rfl
  have hyw : y = { w with units := y.units, free := y.free } := by
    rw [← hy]
    split <;> rfl
  have hvy : v = { y with units := v.units, free := v.free } := by
    rw [← hv]
    split
    · exact spent_units _ _ _ _
    · rfl
  have hvw : v = { w with units := v.units, free := v.free } := by
    rw [hyw] at hvy
    exact hvy
  have hwrings : w.rings = t.rings := by
    rw [← hw]
    split
    · exact huw.rings
    · exact (hbmWrite_rings _ _ _).trans huw.rings
  refine ⟨u, v, ?_, huw, ?_, ?_, ?_⟩
  · have hlen' : ¬ l.map List.length ≠ ((List.range ms.length).filter (· != r)).map fun i => collSrcLen c.desc i ms.length := by simp [hlen]
    simp only [collGo, hcur, hst, hms, hr, if_neg hlen', hres, hn, hu, hw, hy]
    rw [← hv]
    rfl
  · rw [hw]
    exact .of_units hvw
  · rw [hvw]
    exact hwrings
  · rw [hw, hvw]

end Go

/-! ### BEAM_COLL (R441, R444) -/

theorem State.cur_of_headOf {op : Nat} {j ix : Nat} {d : Bytes} {s : State} (h : s.headOf j op = some (ix, d)) : (s.ring j).cur = none := by
  unfold State.headOf at h
  extract_lets r at h
  split at h
  · cases h
  · next hno =>
    simp only [Bool.or_eq_true, not_or, Bool.not_eq_true, Option.isSome_eq_false_iff, Option.isNone_iff_eq_none] at hno
    exact hno.1.1.1.1.2

section Coll
variable {j ix : Nat} {d : Bytes} {s : State} (hhead : s.headOf j 0x10 = some (ix, d)) (htype : (s.ring j).unitType = Config.tEngine)
  (hmay : s.mayTake j (s.setting Config.tEngine (s.ring j).unitInst 2 0 == 1) = true)
include hhead htype hmay

theorem execBeamColl_of_refused {o : Option (List Bytes)} {st : Nat} (hcheck : collCheck (s.ring j).ctx d s = some st) :
    execBeamColl j o s = .next (if st = 0x2901 then bump Config.tEngine (s.ring j).unitInst 1 1
      (failCheck j ix d st (collDetail 2 (collKind d) 0xFFFF 0 0) false (setErr Config.tEngine (s.ring j).unitInst 1 j ix 2 s))
      else failArg j ix d st s) := by
  have hrun : ¬ (decide ((s.ring j).unitType ≠ Config.tEngine)
      || !s.mayTake j (s.setting Config.tEngine (s.ring j).unitInst 2 0 == 1)) = true := by simp [htype, hmay]
  simp only [execBeamColl, State.cur_of_headOf hhead, hhead]
  rw [if_neg hrun, hcheck]
  exact (apply_ite ..).symm

theorem execBeamColl_of_good {l : List Bytes} (hcheck : collCheck (s.ring j).ctx d s = none)
    (hgood : s.hbmBad (field d 20 8) (collSrcLen d (s.rankIn (s.group (field d 12 2)).members) (s.group (field d 12 2)).members.length) = false) :
    execBeamColl j (some l) s = .next (collGo j (some l) (collBegun j ix d s)) := by
  have hrun : ¬ (decide ((s.ring j).unitType ≠ Config.tEngine)
      || !s.mayTake j (s.setting Config.tEngine (s.ring j).unitInst 2 0 == 1)) = true := by simp [htype, hmay]
  simp only [execBeamColl, State.cur_of_headOf hhead, hhead]
  rw [if_neg hrun, hcheck]
  obtain ⟨t, ht⟩ : ∃ t, collBegun j ix d s = t := ⟨_, rfl⟩
  have hmem : t.mem = s.mem := by rw [← ht, collBegun_mem]
  have hgood' : t.hbmBad (field d 20 8) (collSrcLen d (s.rankIn (s.group (field d 12 2)).members) (s.group (field d 12 2)).members.length) = false := by
    unfold State.hbmBad at hgood ⊢
    rwa [hmem]
  have hrank : t.rankIn (s.group (field d 12 2)).members = s.rankIn (s.group (field d 12 2)).members := by rw [← ht, collBegun_rankIn]
  rw [ht]
  simp only [collBegun] at ht
  simp only [ht]
  rw [hrank]
  exact if_neg (ne_true_of_eq_false hgood')

end Coll

/-- Settles O29: the members' bytes decide, and what is refused leaves its record. -/
theorem collectiveResult : Obligations.CollectiveResult := by
  unfold Obligations.CollectiveResult
  refine ⟨?done, ?refused⟩
  case refused =>
    exact fun j ix st d o s hhead htype hmay hcheck => execBeamColl_of_refused hhead htype hmay hcheck
  case done =>
    intro j ix d l s hwf hhead htype hmay hcheck hst hring ms r lens res hgood
    have hrow : execBeamColl j (some l) s = .next (collGo j (some l) (collBegun j ix d s)) := execBeamColl_of_good hhead htype hmay hcheck hgood
    have hwork : AtWork j ix d (collBegun j ix d s) := collBegun_atWork hring
    have hbegun := collBegun_collWithin j ix d s
    obtain ⟨hms, hst'⟩ := collBegun_group (j := j) (ix := ix) hst
    have hmem : (collBegun j ix d s).mem = s.mem := collBegun_mem j ix d s
    have hrank : (collBegun j ix d s).rankIn ms = r := collBegun_rankIn j ix d s ms
    obtain ⟨t, ht⟩ : ∃ t, collBegun j ix d s = t := ⟨_, rfl⟩
    rw [ht] at hrow hwork hbegun hms hst' hmem hrank
    refine ⟨fun hlen => ?_, fun hlen => ?_⟩
    · obtain ⟨hfin, -, hm⟩ := collEnd_finished (reason := 2) (lost := 0xFFFF) (status := 0x2901) (lb := 0) hwork
      obtain ⟨c, hcur, hphase, hstatus, hlb, hd, hix⟩ := hfin
      rw [collGo_of_mismatch hwork hms hst' hrank hlen] at hrow
      exact ⟨_, c, hrow, hm.trans hmem, hcur, hphase, hstatus, hlb, hd, hix⟩
    · have hres : collResult d ms r (atRank r (t.hbmRead (field d 20 8) (collSrcLen d r ms.length)) l) = res := by
        unfold State.hbmRead
        rw [hmem]
        rfl
      obtain ⟨u, v, hgo, hu, hv, hvr, hvm⟩ := collGo_of_match hwork hms hst' hrank hlen hres
      have hvwork : AtWork j ix d v := by
        obtain ⟨c, hcur, hd, hix⟩ := hwork
        exact ⟨c, by rwa [State.ring_congr hvr], hd, hix⟩
      obtain ⟨⟨c, hcur, hphase, hstatus, hlb, hd, hix⟩, hend, hm⟩ :=
        collEnd_finished (reason := 0) (lost := 0xFFFF) (status := 0) (lb := res.length) hvwork
      rw [hgo] at hrow
      have huw : CollWithin j t u := .of_units (by rw [hu])
      have hwrite : CollWithin j u (if res.isEmpty then u else hbmWrite (field d 28 8) res u) := by
        split
        · exact .refl u
        · exact .hbmWrite u _ _
      have hall := (((hbegun.trans huw).trans hwrite).trans hv).trans hend
      have humem : u.mem = s.mem := hu.mem.trans hmem
      obtain ⟨f, hf⟩ : ∃ f, collEnd j 0 0 0xFFFF res.length v = f := ⟨_, rfl⟩
      rw [hf] at hrow hcur hall hm
      have hfmem : f.mem = (if res.isEmpty then u else hbmWrite (field d 28 8) res u).mem := hm.trans hvm
      have hread : f.hbmRead (field d 28 8) res.length = res := by
        unfold State.hbmRead
        rw [hfmem]
        by_cases he : res.isEmpty = true
        · rw [List.isEmpty_iff.mp he]
          rfl
        · rw [if_neg he]
          exact hbmWrite_read (by rwa [humem]) _ _
      have hother : ∀ a, a < field d 28 8 ∨ field d 28 8 + res.length ≤ a → Mem.get f.mem.hbm a = Mem.get s.mem.hbm a := by
        intro a ha
        rw [hfmem]
        split
        · rw [humem]
        · rw [hbmWrite_get_other u ha, humem]
      have hrest := hall.rest
      refine ⟨f, hrow, hread, hother, ?_, ?_, ?_, ?_, ⟨c, hcur, hphase, hstatus, hlb, hd, hix⟩, ?_, ?_, ?_, ?_, ?_, ?_, hall.ring⟩
      all_goals rw [hrest]

end Sys2Proof.Machine
end

section
/-! PROOFS for 15_beam_links_collectives.md: what the sending of a message leaves unchanged. -/

namespace Sys2Proof.Machine
open Sys2Proof

/-- `t` is `s` but for what the sending of messages moves: the links, their registers and free values, and what leaves for another pod. -/
def LinkWithin (s t : State) : Prop :=
  t = { s with beam := t.beam, free := t.free, units := t.units, sys := { s.sys with outbound := t.sys.outbound } }

namespace LinkWithin
variable {s t u : State}

theorem refl (s : State) : LinkWithin s s := rfl

theorem trans (h : LinkWithin s t) (g : LinkWithin t u) : LinkWithin s u := by
  unfold LinkWithin at *
  rw [h] at g
  exact g

theorem ite {c : Prop} [Decidable c] (h : LinkWithin s t) (g : LinkWithin s u) : LinkWithin s (if c then t else u) := by
  split
  · exact h
  · exact g

theorem foldl {α : Type} {f : State → α → State} (hf : ∀ s x, LinkWithin s (f s x)) (l : List α) (s : State) : LinkWithin s (l.foldl f s) :=
  List.foldlRecOn (motive := LinkWithin s) l f (refl s) fun t h x _ => h.trans (hf t x)

/-- A change of the links, of registers and of free values alone. -/
theorem of_beam (h : t = { s with beam := t.beam, free := t.free, units := t.units }) : LinkWithin s t := by
  unfold LinkWithin
  rw [h]

section Fields
variable (h : LinkWithin s t)
include h

theorem now : t.now = s.now := by rw [h]
theorem mem : t.mem = s.mem := by rw [h]
theorem mbs : t.mbs = s.mbs := by rw [h]
theorem jobs : t.jobs = s.jobs := by rw [h]
theorem upds : t.upds = s.upds := by rw [h]
theorem groups : t.groups = s.groups := by rw [h]
theorem mirror : t.mirror = s.mirror := by rw [h]
theorem podDev : t.sys.podDev = s.sys.podDev := by rw [h]
theorem pod : t.sys.pod = s.sys.pod := by rw [h]

end Fields
end LinkWithin

theorem setPort_linkWithin (p : Nat) (x : Port) (s : State) : LinkWithin s (s.setPort p x) := .of_beam rfl

theorem updPort_linkWithin (p : Nat) (f : Port → Port) (s : State) : LinkWithin s (s.updPort p f) := .of_beam rfl

theorem bump_linkWithin (ty inst n k : Nat) (s : State) : LinkWithin s (bump ty inst n k s) := .of_beam rfl

theorem spent_linkWithin (ty inst : Nat) (l : List Nat) (s : State) : LinkWithin s (spent ty inst l s) := by
  induction l generalizing s with
  | nil => exact .refl s
  | cons n l ih => exact LinkWithin.trans (t := bump ty inst n s.fresh.1 s.fresh.2) (.of_beam rfl) (ih _)

theorem sendNumbered_linkWithin (p : Nat) (f : Bytes) (s : State) : LinkWithin s (sendNumbered p f s) := by
  unfold sendNumbered
  extract_lets x
  split
  extract_lets g t
  have ht : LinkWithin s t := setPort_linkWithin _ _ _
  exact (ht.trans (.of_beam rfl)).trans (bump_linkWithin _ _ _ _ _)

theorem portPump_linkWithin (p n : Nat) (s : State) : LinkWithin s (portPump p n s) := by
  induction n generalizing s with
  | zero => exact .refl s
  | succ n ih =>
    unfold portPump
    extract_lets x
    split
    · exact .refl s
    · split
      · exact .refl s
      · extract_lets t u v
        have ht : LinkWithin s t := setPort_linkWithin _ _ _
        have hu : LinkWithin s u := ht.trans (sendNumbered_linkWithin _ _ _)
        have hv : LinkWithin s v := .ite hu (hu.trans (updPort_linkWithin _ _ _))
        exact hv.trans (ih v)

theorem portGo_linkWithin (p : Nat) (s : State) : LinkWithin s (portGo p s) :=
  .ite ((portPump_linkWithin _ _ _).trans (spent_linkWithin _ _ _ _)) (portPump_linkWithin _ _ _)

theorem sendToward_linkWithin (inp : Nat) (f : Bytes) (s : State) : LinkWithin s (sendToward inp f s) := by
  unfold sendToward
  extract_lets b held
  have hheld : LinkWithin s held := .of_beam rfl
  split
  · exact hheld
  · split
    · extract_lets t
      have ht : LinkWithin s t := .of_beam rfl
      exact (ht.trans (updPort_linkWithin _ _ _)).trans (portGo_linkWithin _ _)
    · exact hheld

theorem sendMsg_linkWithin (dst cls stream : Nat) (enc : Bool) (m : Bytes) (s : State) : LinkWithin s (sendMsg dst cls stream enc m s) :=
  .ite (.foldl (fun s f => sendToward_linkWithin 0 f s) _ s) rfl

end Sys2Proof.Machine
end

section
/-! PROOFS for 15_beam_links_collectives.md: the commands of group 0x09, and how a pod and its groups come about and break. -/

namespace Sys2Proof.Machine
open Sys2Proof

/-! ### The commands (R434, R440, R446) -/

section Run
variable {i : Iss} {p : Bytes} {s : State}

section Join
variable (hpod : field p 0 1 ≤ 15) (htwin : s.twinSeen = false) (hjoined : s.sys.joined = false ∨ s.sys.pod = field p 0 1)
  (hjoin : s.beam.join = none) {u : State} (hu : { s with sys := { s.sys with pod := field p 0 1 }, beam := { s.beam with step := true } } = u)
include hpod htwin hjoined hjoin hu

/-- A device that may join: it has joined at once where it reaches all it is to reach, else once it does. -/
theorem specPodJoin_run : specPodJoin.run i p s =
    if allReached (field p 8 8) u.reachMap && !i.defer then .ok (leBytes 8 u.reachMap ++ [1]) { u with sys := { u.sys with joined := true } }
    else .pend { u with beam := { u.beam with join := some (i.ctx, i.handle, field p 8 8, s.now) } } := by
  have hpod' : ¬ field p 0 1 > 15 := by omega
  have hother : (s.twinSeen || (s.sys.joined && decide (s.sys.pod ≠ field p 0 1))) = false := by
    obtain h | h := hjoined
    · rw [htwin, h]; rfl
    · simp [htwin, h]
  have hidle : s.beam.join.isSome = false := by rw [hjoin]; rfl
  subst hu
  simp only [specPodJoin, if_neg hpod', hother, hidle]
  rfl

end Join

/-- The members in rising order, each reached, and the key at hand: the lowest free group is made. -/
theorem specPodGroupCreate_run {ms : List Nat} {n g : Nat} (hn : field p 0 2 = n) (hms : (List.range n).map (fun k => field p (16 + 2 * k) 2) = ms)
    (h2 : 2 ≤ n) (hmax : n ≤ 1024) (hdev : ∀ m ∈ ms, m < 1024) (hrise : ms.Pairwise (· < ·))
    (hroute : ∀ m ∈ ms, m ≠ s.sysIndex → m / 64 = s.sys.pod → (s.routeTo (m % 64)).isSome = true)
    (hsecret : field p 2 1 = 1 → (s.ctx i.ctx).secret.isSome = true)
    (hfree : (List.range 64).find? (fun g => (s.group g).members.isEmpty) = some g) :
    specPodGroupCreate.run i p s = .ok (leBytes 2 g) (s.setGroup g { Group.init with
      ctx := i.ctx, key := field p 8 8, members := ms, enc := field p 2 1 == 1, gdk := s.newGdk i.ctx (field p 8 8) }) := by
  have hlen : ms.length = n := by rw [← hms, List.length_map, List.length_range]
  have hget {k : Nat} (hk : k < n) : nth ms k 0 = ms[k]'(by omega) := by
    unfold nth
    rw [List.getD_eq_getElem?_getD, List.getElem?_eq_getElem (by omega), Option.getD_some]
  have hcount : (decide (n < 2) || decide (n > 1024)) = false := by
    simp only [Bool.or_eq_false_iff, decide_eq_false_iff_not]
    omega
  have horder : ((List.range n).find? fun k => decide (nth ms k 0 ≥ 1024) || (decide (k ≠ 0) && decide (nth ms k 0 ≤ nth ms (k - 1) 0))) = none := by
    refine List.find?_eq_none.mpr fun k hk => ?_
    have hkn : k < n := List.mem_range.mp hk
    have hlow : ms[k]'(by omega) < 1024 := hdev _ (List.getElem_mem _)
    rw [hget hkn]
    by_cases h0 : k = 0
    · subst h0
      simpa using hlow
    · have hprev := List.pairwise_iff_getElem.mp hrise (k - 1) k (by omega) (by omega) (by omega)
      rw [hget (by omega : k - 1 < n)]
      simp [Nat.not_le.mpr hlow, Nat.not_le.mpr hprev]
  have hreach : (ms.find? fun m => m != s.sysIndex && m / 64 == s.sys.pod && (s.routeTo (m % 64)).isNone) = none := by
    refine List.find?_eq_none.mpr fun m hm => ?_
    by_cases hself : m = s.sysIndex
    · simp [hself]
    · by_cases hpod : m / 64 = s.sys.pod
      · have hsome := hroute m hm hself hpod
        simp [Option.isSome_iff_ne_none.mp hsome]
      · simp [hpod]
  have hkey : (decide (field p 2 1 = 1) && (s.ctx i.ctx).secret.isNone) = false := by
    by_cases h : field p 2 1 = 1
    · rw [Option.isNone_eq_false_iff.mpr (hsecret h), Bool.and_false]
    · simp [h]
  simp only [specPodGroupCreate, hn, hms, hcount, horder, hreach, hkey, hfree]
  rfl

/-- A barrier of a member, by the state of the group. -/
theorem specPodBarrier_run {g : Group} (hg : s.group (field p 0 2) = g) (hhandle : groupHandle i.ctx (field p 0 2) 0 s = none) :
    specPodBarrier.run i p s =
      if g.members.contains s.sysIndex = false then .fail 0x108 0
      else if g.st = 3 then .fail 0x2901 0
      else if g.st = 2 then .fail 0x2903 g.lost
      else if i.defer = true ∨ g.st ≠ 1 then .pend s else .ok (leBytes 8 s.now) s := by
  simp only [specPodBarrier, hg, hhandle, Bool.not_eq_true', Bool.or_eq_true, decide_eq_true_eq]
  rfl

section Reset
variable (p)

theorem specPodReset_run_group (hkind : field p 0 1 = 0) (hhandle : groupHandle i.ctx (field p 2 2) 2 s = none) :
    specPodReset.run i p s = if i.defer then .pend s else .ok [] (groupResetAll (field p 2 2) s) := by
  simp only [specPodReset, hkind, hhandle]

theorem specPodReset_run_all (hkind : field p 0 1 = 1) :
    specPodReset.run i p s = if i.defer then .pend s else .ok [] (s.groups.foldl (fun a g => groupResetAll g.1 a) s) := by
  simp only [specPodReset, hkind]

theorem specPodReset_run_devices (hkind : field p 0 1 = 2) {out : List Nat}
    (hout : (List.range 64).filter (fun k => bitOf (field p 8 8) k && k != s.sys.podDev) = out)
    (hroute : ∀ k ∈ out, (s.routeTo k).isSome = true) {u : State}
    (hu : out.foldl (fun s k => sendMsg (s.sys.pod * 64 + k) 0 0 false (msgBytes mgReset []) s) s = u) :
    specPodReset.run i p s = .ok []
      (if bitOf (field p 8 8) s.sys.podDev then { u with sys := { u.sys with sysReset := some (u.sys.sysReset.getD 0) } } else u) := by
  have hnone : ((List.range 64).find? fun k => bitOf (field p 8 8) k && k != s.sys.podDev && (s.routeTo k).isNone) = none := by
    refine List.find?_eq_none.mpr fun k hk h => ?_
    simp only [Bool.and_eq_true] at h
    have hin : k ∈ out := by
      rw [← hout]
      exact List.mem_filter.mpr ⟨hk, by simpa using h.1⟩
    have hsome := hroute k hin
    simp [Option.isNone_iff_eq_none.mp h.2] at hsome
  have hdev : u.sys.podDev = s.sys.podDev := by
    rw [← hu]
    exact (LinkWithin.foldl (fun s _ => sendMsg_linkWithin ..) out s).podDev
  simp only [specPodReset, hkind, hnone, hout, hu, hdev]

end Reset

theorem specBeamRouteQuery_run {d : Nat} (hd : field p 0 2 = d) (hmax : d < 1024) : specBeamRouteQuery.run i p s = .ok
    (if d = s.sysIndex then zeros 10 else if d / 64 ≠ s.sys.pod then zeros 9 ++ [1] else match s.routeTo (d % 64) with
      | some (m, h) => leBytes 8 (m % 2 ^ 40) ++ leBytes 1 h ++ [0]
      | none => zeros 8 ++ [255, 0]) s := by
  have hmax' : ¬ d ≥ 1024 := by omega
  simp only [specBeamRouteQuery, hd, if_neg hmax']
  by_cases hself : d = s.sysIndex
  · rw [if_pos hself, if_pos hself]
  · rw [if_neg hself, if_neg hself]
    by_cases hpod : d / 64 = s.sys.pod
    · rw [if_neg (not_not.mpr hpod), if_neg (not_not.mpr hpod)]
      cases s.routeTo (d % 64) <;> rfl
    · rw [if_pos hpod, if_pos hpod]
      rfl

theorem specBeamPortQuery_run {x : Port} (hport : field p 0 1 < 40) (hx : s.port (field p 0 1) = x) : specBeamPortQuery.run i p s = .ok
    (leBytes 1 x.st ++ [0] ++ leBytes 2 x.peer ++ leBytes 1 x.peerPort ++ zeros 3
      ++ leBytes 8 (Config.optics (field p 0 1) s.now % 2 ^ 48)) s := by
  simp only [specBeamPortQuery, if_neg (Nat.not_le.mpr hport), hx]

end Run

/-! ### How a pod and its groups come about and break (R435, R436, R439, R440, R443, R446) -/

section Events
variable {s : State} (hfatal : s.isFatal = false)
include hfatal

theorem execPodJoinTimeout_of_joining {c h want at_ : Nat} (hjoin : s.beam.join = some (c, h, want, at_)) {t : State}
    (ht : (if allReached want s.reachMap then s else atLeast (at_ + Config.sec) s) = t) : execPodJoinTimeout s =
      .next (finishOp c h 0 0 (leBytes 8 t.reachMap ++ leBytes 1 (b2n (allReached want t.reachMap)))
        { t with beam := { s.beam with join := none }, sys := { s.sys with joined := true } }) := by
  have hbeam : t.beam = s.beam := by rw [← ht]; split <;> rfl
  have hsys : t.sys = s.sys := by rw [← ht]; split <;> rfl
  have htjoin : t.beam.join = some (c, h, want, at_) := by rw [hbeam, hjoin]
  simp only [execPodJoinTimeout, hjoin, hfatal, ht, Bool.false_eq_true, ↓reduceIte]
  simp only [joinEnd, htjoin, ← hbeam, ← hsys]
  rfl

section Formed
variable {g : Nat} (hmembers : (s.group g).members ≠ []) (hst : (s.group g).st = 0)
include hmembers hst

theorem execGroupFormed_of_new (identical : Bool) : execGroupFormed g identical s =
    if identical then .next (s.setGroup g { s.group g with st := 1 })
    else .next (groupUpd g 0x2901 (groupAbort g 0x2901 2 0xFFFF
      (setErr Config.tEngine 1 1 0 0 2 (setErr Config.tEngine 0 1 0 0 2 (s.setGroup g { s.group g with st := 3 }))))) :=
  if_neg (by simp [hmembers, hst, hfatal])

end Formed

theorem execGroupBroken_of_ready {g r dev : Nat} (hrank : (s.group g).members[r]? = some dev) (hdev : dev ≠ s.sysIndex)
    (hst : (s.group g).st = 1) (hnodup : (s.group g).members.Nodup) :
    execGroupBroken g r s = .next (buddyLost dev (groupBreakAt g r s)) := by
  obtain ⟨hr, hget⟩ := List.getElem?_eq_some_iff.mp hrank
  have hfind : ((s.group g).members.findIdx? fun m => m == dev) = some r := by
    refine List.findIdx?_eq_some_iff_getElem.mpr ⟨hr, by simpa using hget, fun k hk => ?_⟩
    have hne : (s.group g).members[k] ≠ dev := by
      rw [← hget]
      exact fun h => absurd ((List.Nodup.getElem_inj_iff hnodup).mp h) (by omega)
    simpa using hne
  have hguard : (s.isFatal || decide (dev = s.sysIndex)) = false := by simp [hfatal, hdev]
  simp only [execGroupBroken, hrank, hguard, groupBreak, hfind, hst]
  rfl

/-! #### Route tables (R435, R436) -/

section Routes
variable {port : Nat} (hrunning : s.running = true) (hheld : s.beam.held = []) (hroutes : s.beam.routes = []) (hjoin : s.beam.join = none)
  (hsync : s.synced = false)
include hrunning hheld hroutes hjoin hsync

/-- The rows of a table that are routes from here. -/
def liveTable (table : List (Nat × Nat × Nat)) (s : State) : List (Nat × Nat × Nat) :=
  ((table.filter fun r => decide (r.1 < 64) && r.1 != s.sys.podDev && decide (r.2.2 ≤ 4)).map fun r =>
    (r.1, s.liveMask r.2.1, r.2.2)).filter fun r => r.2.1 != 0

/-- A table where none was, with no flit held: a device that comes to be reached is told of. -/
theorem execRouteTableInstall_of_fresh {table tab : List (Nat × Nat × Nat)} (htab : liveTable table s = tab) {changed : Option Nat}
    (hchanged : (List.range 64).filter (fun d => (none : Option (Nat × Nat × Nat)) != (tab.find? fun r => r.1 == d)) = changed.toList) {t : State}
    (ht : bump Config.tEngine 0 4 1 (bump Config.tEngine 1 4 1 { s with beam := { s.beam with routes := tab } }) = t) :
    execRouteTableInstall port table s = .next (changed.elim t fun d => (t.routeCtxs [d]).foldl (fun a c =>
      deliverEvent c (eventRecord 0xFFFF 0 0 2 0 0 a.now (leBytes 1 port ++ leBytes 1 (a.port port).st
        ++ leBytes 2 (s.sys.pod * 64 + d)) 0) a) t) := by
  have hno : ∀ d, s.routeTo d = none := fun d => by simp [State.routeTo, hroutes]
  have hlost : (List.range 64).filter (fun d => (s.routeTo d).isSome && (t.routeTo d).isNone) = [] :=
    List.filter_eq_nil_iff.mpr fun d _ => by simp [hno]
  have hkept : ∀ {f}, Tells t f → f.beam.join = none := fun {f} htells => by
    have hbeam : f.beam = { s.beam with routes := tab } := by rw [htells, ← ht]; rfl
    rw [hbeam, hjoin]
  have hins : (bump Config.tEngine 0 4 1 (bump Config.tEngine 1 4 1 { s with beam := { s.beam with routes := tab, held := [] } })) = t := by
    rw [← ht, ← hheld]
  have hguard : (!s.running || s.isFatal) = false := by simp [hrunning, hfatal]
  unfold liveTable at htab
  simp only [execRouteTableInstall, hguard, hroutes, hheld, htab, List.find?_nil, hchanged, hins, hlost, hsync, List.foldl_nil, Bool.false_and,
    Bool.false_eq_true, ↓reduceIte]
  cases changed with
  | none => simp only [Option.toList_none, List.isEmpty_nil, ↓reduceIte, hkept (.refl t), Option.elim_none]
  | some d =>
    have htold := List.foldlRecOn (motive := Tells t) (t.routeCtxs [d]) (fun a c =>
      deliverEvent c (eventRecord 0xFFFF 0 0 2 0 0 a.now (leBytes 1 port ++ leBytes 1 (a.port port).st
        ++ leBytes 2 (s.sys.pod * 64 + d)) 0) a) (.refl t) fun u hu c _ => hu.trans (deliverEvent_tells ..)
    simp only [Option.toList_some, List.isEmpty_cons, Bool.false_eq_true, ↓reduceIte, hkept htold, Option.elim_some]

theorem execRouteTableInstall_of_none {table : List (Nat × Nat × Nat)}
    (hnone : ∀ r ∈ table, r.1 = s.sys.podDev ∨ 64 ≤ r.1 ∨ 4 < r.2.2 ∨ s.liveMask r.2.1 = 0) :
    execRouteTableInstall port table s = .next (bump Config.tEngine 0 4 1 (bump Config.tEngine 1 4 1 s)) := by
  have htab : liveTable table s = [] := by
    refine List.filter_eq_nil_iff.mpr fun x hx => ?_
    obtain ⟨r, hr, rfl⟩ := List.mem_map.mp hx
    obtain ⟨hin, hok⟩ := List.mem_filter.mp hr
    simp only [Bool.and_eq_true, decide_eq_true_eq, bne_iff_ne] at hok
    obtain ⟨⟨hlow, hself⟩, hhops⟩ := hok
    have hmask : s.liveMask r.2.1 = 0 := by
      obtain h | h | h | h := hnone r hin
      · exact absurd h hself
      · omega
      · omega
      · exact h
    simp [hmask]
  have hsame : { s with beam := { s.beam with routes := [] } } = s := by rw [← hroutes]
  refine (execRouteTableInstall_of_fresh hfatal hrunning hheld hroutes hjoin hsync htab (changed := none) ?_ rfl).trans ?_
  · exact List.filter_eq_nil_iff.mpr fun d _ => by simp
  · rw [hsame]
    rfl

theorem execRouteTableInstall_of_one {d mask hops : Nat} (hd : d < 64) (hself : d ≠ s.sys.podDev) (hhops : hops ≤ 4) (hmask : s.liveMask mask ≠ 0)
    (hgroups : s.groups = []) {t : State}
    (ht : bump Config.tEngine 0 4 1 (bump Config.tEngine 1 4 1 { s with beam := { s.beam with routes := [(d, s.liveMask mask, hops)] } }) = t) :
    execRouteTableInstall port [(d, mask, hops)] s = .next (deliverEvent 0 (eventRecord 0xFFFF 0 0 2 0 0 s.now
      (leBytes 1 port ++ leBytes 1 (s.port port).st ++ leBytes 2 (s.sys.pod * 64 + d)) 0) t) := by
  have htab : liveTable [(d, mask, hops)] s = [(d, s.liveMask mask, hops)] := by
    simp [liveTable, hd, hself, hhops, hmask]
  have hchanged : (List.range 64).filter (fun x => (none : Option (Nat × Nat × Nat)) != ([(d, s.liveMask mask, hops)].find? fun r => r.1 == x)) = (some d).toList := by
    have hiff : (fun x => (none : Option (Nat × Nat × Nat)) != ([(d, s.liveMask mask, hops)].find? fun r => r.1 == x)) = fun x => x == d := by
      funext x
      by_cases h : d = x
      · simp [h]
      · simp [h, Ne.symm h]
    rw [hiff]
    rw [List.filter_beq, List.count_eq_one_of_mem List.nodup_range (List.mem_range.mpr hd)]
    rfl
  have hctxs : t.routeCtxs [d] = [0] := by
    have hg : t.groups = [] := by rw [← ht]; exact hgroups
    simp [State.routeCtxs, hg]
  have hnow : t.now = s.now := by rw [← ht]; rfl
  have hport : (t.port port).st = (s.port port).st := by rw [← ht]; rfl
  refine (execRouteTableInstall_of_fresh hfatal hrunning hheld hroutes hjoin hsync htab hchanged ht).trans ?_
  simp only [Option.elim_some, hctxs, List.foldl_cons, List.foldl_nil, hnow, hport]

end Routes

/-! #### The timebase (R439) -/

section Timebase
variable {t : Nat} (hjoined : s.sys.joined = true) (hmaster : s.podMaster = false)
include hjoined hmaster

/-- An exchange: the first after POD_JOIN steps the counter forward, any other steers it. -/
theorem execTimebaseSync_of_member {u v : State} {sync : Bool} {off : Nat}
    (hu : (if s.beam.step && !s.sys.podSync then { s with now := max s.now t } else s) = u)
    (hsync : decide (-64 < (t : Int) - u.now ∧ (t : Int) - u.now < 64) = sync)
    (hoff : ((max (-32768) (min 32767 ((t : Int) - u.now)) + 65536) % 65536).toNat = off)
    (hv : { u with now := u.now + min (t - u.now) 20, sys := { u.sys with podSync := sync }
                   beam := { u.beam with offset := off, level := u.syncDepth, step := false } } = v) :
    execTimebaseSync t s = .next (if u.sys.podSync && !sync then bump Config.tEngine 0 5 1 (bump Config.tEngine 1 5 1 v) else v) := by
  have hguard : (!s.sys.joined || s.podMaster || s.isFatal) = false := by simp [hjoined, hmaster, hfatal]
  simp only [execTimebaseSync, hguard, Bool.false_eq_true, ↓reduceIte, hu, hsync, hoff, hv]
  exact (apply_ite ..).symm

theorem execTimebaseSync_of_near (hstep : s.beam.step = false ∨ s.sys.podSync = true) (hle : s.now ≤ t) (hnear : t < s.now + 64) :
    execTimebaseSync t s = .next { s with
      now := s.now + min (t - s.now) 20, sys := { s.sys with podSync := true }
      beam := { s.beam with offset := t - s.now, level := s.syncDepth, step := false } } := by
  have hfirst : (s.beam.step && !s.sys.podSync) = false := by
    obtain h | h := hstep <;> simp [h]
  have hoff : ((max (-32768) (min 32767 ((t : Int) - s.now)) + 65536) % 65536).toNat = t - s.now := by omega
  have hsync : decide (-64 < (t : Int) - s.now ∧ (t : Int) - s.now < 64) = true := decide_eq_true (by omega)
  refine (execTimebaseSync_of_member hfatal hjoined hmaster (if_neg (by simp [hfirst])) hsync hoff rfl).trans ?_
  rw [Bool.not_true, Bool.and_false, if_neg Bool.false_ne_true]

theorem execTimebaseSync_of_first (hstep : s.beam.step = true) (hsync : s.sys.podSync = false) (hle : s.now ≤ t) :
    execTimebaseSync t s = .next { s with
      now := t, sys := { s.sys with podSync := true }, beam := { s.beam with offset := 0, level := s.syncDepth, step := false } } := by
  have hu : (if s.beam.step && !s.sys.podSync then { s with now := max s.now t } else s) = { s with now := t } := by
    rw [hstep, hsync, Nat.max_eq_right hle]
    rfl
  have hoff : ((max (-32768) (min 32767 ((t : Int) - t)) + 65536) % 65536).toNat = 0 := by omega
  have hnear : decide (-64 < (t : Int) - t ∧ (t : Int) - t < 64) = true := decide_eq_true (by omega)
  refine (execTimebaseSync_of_member hfatal hjoined hmaster hu hnear hoff rfl).trans ?_
  rw [Bool.not_true, Bool.and_false, if_neg Bool.false_ne_true]
  have hnow : t + min (t - t) 20 = t := by omega
  simp only [hnow]
  rfl

theorem execTimebaseSync_of_far (hsync : s.sys.podSync = true) (hfar : s.now + 64 ≤ t) : execTimebaseSync t s = .next
    (bump Config.tEngine 0 5 1 (bump Config.tEngine 1 5 1 { s with
      now := s.now + 20, sys := { s.sys with podSync := false }
      beam := { s.beam with offset := min 32767 (t - s.now), level := s.syncDepth, step := false } })) := by
  have hoff : ((max (-32768) (min 32767 ((t : Int) - s.now)) + 65536) % 65536).toNat = min 32767 (t - s.now) := by omega
  have hnear : decide (-64 < (t : Int) - s.now ∧ (t : Int) - s.now < 64) = false := decide_eq_false (by omega)
  have hnow : s.now + min (t - s.now) 20 = s.now + 20 := by omega
  refine (execTimebaseSync_of_member hfatal hjoined hmaster (if_neg (by simp [hsync])) hnear hoff rfl).trans ?_
  rw [hsync, Bool.not_false, Bool.and_true, if_pos rfl, hnow]

end Timebase
end Events

/-- Settles O28: each command by its own rule, each event by the branch that its hypotheses take. -/
theorem podCommands : Obligations.PodCommands := by
  unfold Obligations.PodCommands
  refine ⟨fun q c p ind s => ⟨?join, ?create, ?barrier, ?reset, ?route, ?port⟩, ?timeout, ?formed, ?broken, ?none_, ?one, ?timebase⟩
  case join =>
    intro t u hadm hpod htwin hjoined hjoin
    have hrun := specPodJoin_run (i := issOf specPodJoin.opcode c q s) (s := s.taken specPodJoin.opcode q) hpod htwin hjoined hjoin rfl
    refine ⟨fun hall hdefer => submit_of_run_ok hadm (hrun.trans (if_pos ?_)), fun hwait => submit_of_run_pend hadm (hrun.trans (if_neg ?_))⟩
    · rw [Bool.and_eq_true, Bool.not_eq_true']
      exact ⟨hall, hdefer⟩
    · rw [Bool.and_eq_true, Bool.not_eq_true']
      rintro ⟨hall, hdefer⟩
      obtain h | h := hwait
      · exact Bool.false_ne_true (h.symm.trans hall)
      · exact Bool.false_ne_true (hdefer.symm.trans h)
  case create =>
    intro n ms g hadm _ h2 hmax hdev hrise hroute hsecret hfree
    exact submit_of_run_ok hadm (specPodGroupCreate_run (i := issOf specPodGroupCreate.opcode c q s) (s := s.taken specPodGroupCreate.opcode q)
      rfl rfl h2 hmax hdev hrise hroute hsecret hfree)
  case barrier =>
    intro t g hadm hhandle
    have hrun := specPodBarrier_run (i := issOf specPodBarrier.opcode c q s) (s := s.taken specPodBarrier.opcode q) rfl hhandle
    refine ⟨fun hout => submit_of_run hadm (hrun.trans (if_pos hout)), fun hin => ?_⟩
    refine (submit_of_run hadm (hrun.trans (if_neg (ne_false_of_eq_true hin)))).trans (congrArg Host.Outcome.next ?_)
    exact (apply_ite ..).trans (if_congr Iff.rfl rfl ((apply_ite ..).trans (if_congr Iff.rfl rfl (apply_ite ..))))
  case reset =>
    intro t hadm
    refine ⟨fun hkind hhandle => ?_, fun hkind => ?_, ?_⟩
    · exact (submit_of_run hadm (specPodReset_run_group (i := issOf specPodReset.opcode c q s) (s := s.taken specPodReset.opcode q) p hkind
        hhandle)).trans (congrArg Host.Outcome.next (apply_ite ..))
    · exact (submit_of_run hadm (specPodReset_run_all (i := issOf specPodReset.opcode c q s) (s := s.taken specPodReset.opcode q) p hkind)).trans
        (congrArg Host.Outcome.next (apply_ite ..))
    · intro out u hkind hroute
      exact submit_of_run_ok hadm (specPodReset_run_devices (i := issOf specPodReset.opcode c q s) (s := s.taken specPodReset.opcode q) p hkind
        rfl hroute rfl)
  case route =>
    intro d hadm hd
    exact submit_of_run_ok hadm (specBeamRouteQuery_run (i := issOf specBeamRouteQuery.opcode c q s) (s := s.taken specBeamRouteQuery.opcode q)
      rfl hd)
  case port =>
    intro x hadm hport
    exact submit_of_run_ok hadm (specBeamPortQuery_run (i := issOf specBeamPortQuery.opcode c q s) (s := s.taken specBeamPortQuery.opcode q)
      hport rfl)
  case timeout =>
    intro c h want at_ s hfatal hjoin t
    exact execPodJoinTimeout_of_joining hfatal hjoin rfl
  case formed =>
    exact fun g s hfatal hmembers hst => ⟨execGroupFormed_of_new hfatal hmembers hst true, execGroupFormed_of_new hfatal hmembers hst false⟩
  case broken =>
    exact fun g r dev s hfatal hrank hdev hst hnodup => execGroupBroken_of_ready hfatal hrank hdev hst hnodup
  case none_ =>
    exact fun port table s hfatal hrunning hheld hroutes hjoin hsync hnone =>
      execRouteTableInstall_of_none hfatal hrunning hheld hroutes hjoin hsync hnone
  case one =>
    exact fun port d mask hops s hfatal hrunning hheld hroutes hjoin hsync hd hself hhops hmask hgroups =>
      execRouteTableInstall_of_one hfatal hrunning hheld hroutes hjoin hsync hd hself hhops hmask hgroups rfl
  case timebase =>
    exact fun t s hfatal hjoined hmaster => ⟨execTimebaseSync_of_near hfatal hjoined hmaster, execTimebaseSync_of_first hfatal hjoined hmaster,
      execTimebaseSync_of_far hfatal hjoined hmaster⟩

end Sys2Proof.Machine
end

section
/-! PROOFS for 16_mirror_resilience.md: protection, designation and reservation of spares. -/

namespace Sys2Proof.Machine
open Sys2Proof

/-! ### MIR_SPARE (R453, R454, R475) -/

theorem withOp_mailbox (op : Nat) (q : Request) : (withOp op q).mailbox = q.mailbox := by
  unfold withOp
  split <;> rfl

theorem withOp_defer (op : Nat) (q : Request) : (withOp op q).defer = q.defer := by
  unfold withOp
  split <;> rfl

/-- A command that finds a job has found one that there is. -/
theorem job_of_mirJob {c h o : Nat} {s : State} {j : Job} (hmir : mirJob c h o s = .inr j) : s.job h = some j := by
  unfold mirJob at hmir
  cases hjob : s.job h with
  | none => simp [hjob] at hmir
  | some x =>
    rw [hjob] at hmir
    by_cases hown : (decide (c ≠ 0) && decide (x.ctx ≠ c)) = true
    · simp only [hown, ↓reduceIte, reduceCtorEq] at hmir
    · simp only [hown, Bool.false_eq_true, ↓reduceIte] at hmir
      exact congrArg some (Sum.inr.inj hmir)

/-- The owner of a group, and context 0, may name it. -/
theorem not_foreign {c x : Nat} (h : c = 0 ∨ x = c) : (decide (c ≠ 0) && decide (x ≠ c)) = false := by
  obtain h | h := h <;> simp [h]

section Run
variable {i : Iss} {p : Bytes} {s : State}

section Protect
variable {h b n : Nat} {regs : List Region} {j : Job} (hop : field p 0 1 = 0) (hh : field p 2 2 = h) (hb : field p 4 2 = b)
  (hn : (p.length - 28) / 32 = n) (hregs : parseRegs (p.drop 28) n = regs) (hjob : mirJob i.ctx h 2 s = .inr j)
  (hretain : 1 ≤ field p 6 1 ∧ field p 6 1 ≤ 64) (hdepth : 16 ≤ field p 16 4 ∧ field p 16 4 ≤ 65536) (hcount : 1 ≤ n ∧ n ≤ 1024)
  (howns : s.ownsStudent j.ctx (field p 8 8) (128 * field p 16 4) = true) (hgood : regsBad j.ctx regs s = none)
  (hslc : s.slcBad j.ctx s.slcLog (128 * field p 16 4) = none) (hself : b ≠ s.sysIndex) (hpod : b / 64 = s.sys.pod)
include hop hh hb hn hregs hjob hretain hdepth hcount howns hgood hslc

theorem specMirSpare_run_protect_refused (hpeer : Config.peerReserves b s.now = false) : specMirSpare.run i p s = .fail 0x2802 b := by
  have hretain' : (decide (field p 6 1 < 1) || decide (field p 6 1 > 64)) = false := by simp; omega
  have hdepth' : (decide (field p 16 4 < 16) || decide (field p 16 4 > 65536)) = false := by simp; omega
  have hcount' : (decide (n < 1) || decide (n > 1024)) = false := by simp; omega
  simp only [specMirSpare, hop, spareProtect, hh, hb, hn, hregs, hjob, hretain', hdepth', hcount', howns, hgood, hslc, hpeer, Bool.not_true,
    Bool.not_false, Bool.or_true, Bool.false_eq_true, ↓reduceIte]

include hself hpod

/-- The first checkpoint of a protection starts: the command is outstanding until it is complete. -/
theorem specMirSpare_run_protect (hpeer : Config.peerReserves b s.now = true) (hstudent : j.student = true) (hstarted : j.started = true)
    (hst : j.st ≠ 4) (hpoint : s.ckptPoint = true) (hbusy : s.ckptBusy = false) :
    specMirSpare.run i p s = .pend (ckptStart h 1 regs 0 (some (i.ctx, i.handle)) false
      (setTemplate h regs { s with mirror := { s.mirror with
        prot := some { job := h, buddy := b, retain := field p 6 1, logAddr := field p 8 8, logDepth := field p 16 4
                       deltaMax := field p 20 8, regs, ok := true, noBuddy := false, mek := none }
        kept := [], cur := Delta.init, asked := false, acked := false, badSlot := false, resolving := none, waitAt := none } })) := by
  have hretain' : (decide (field p 6 1 < 1) || decide (field p 6 1 > 64)) = false := by simp; omega
  have hdepth' : (decide (field p 16 4 < 16) || decide (field p 16 4 > 65536)) = false := by simp; omega
  have hcount' : (decide (n < 1) || decide (n > 1024)) = false := by simp; omega
  have hbuddy : (decide (b = s.sysIndex) || decide (b / 64 ≠ s.sys.pod) || !Config.peerReserves b s.now) = false := by
    simp [hself, hpod, hpeer]
  have hstate : (!j.student || !j.started || decide (j.st = 4) || !s.ckptPoint) = false := by simp [hstudent, hstarted, hst, hpoint]
  simp only [specMirSpare, hop, spareProtect, hh, hb, hn, hregs, hjob, hretain', hdepth', hcount', howns, hgood, hslc, hbuddy, hstate, hbusy,
    Bool.not_true, Bool.false_eq_true, ↓reduceIte]

end Protect

theorem specMirSpare_run_designate {g h : Nat} {j : Job} (hop : field p 0 1 = 1) (hg : field p 2 2 = g) (hh : field p 4 2 = h)
    (hmembers : (s.group g).members ≠ []) (hctx : i.ctx = 0 ∨ (s.group g).ctx = i.ctx) (hjob : mirJob i.ctx h 4 s = .inr j)
    (hsame : j.ctx = (s.group g).ctx) (hstudent : j.student = true) (hresume : j.resume = false) (hst : j.st = 0) :
    specMirSpare.run i p s = .ok [] (spareTell g true (field p 6 1)
      { s with mirror := { s.mirror with desig := some { group := g, job := h, auto := field p 6 1 == 1 } } }) := by
  have hsome : (s.group g).members.isEmpty = false := List.isEmpty_eq_false_iff.mpr hmembers
  have hstandby : (decide (j.ctx ≠ (s.group g).ctx) || !j.student || j.resume) = false := by simp [hsame, hstudent, hresume]
  have hidle : ¬ j.st ≠ 0 := not_not.mpr hst
  simp only [specMirSpare, hop, spareDesignate, hg, hh, hsome, not_foreign hctx, hjob, hstandby, if_neg hidle, Bool.false_eq_true, ↓reduceIte]

theorem specMirSpare_run_reserve {dev n pg : Nat} {u : State} (hop : field p 0 1 = 2) (hdev : field p 2 2 = dev)
    (hn : cdiv (field p 8 8) Config.pageBytes = n) (hadmin : isAdmin i.mb = true) (hself : dev ≠ s.sysIndex) (hpod : dev / 64 = s.sys.pod)
    (hlen : field p 8 8 ≠ 0) (hfree : ([4, 5, 6, 7].findSome? fun k => s.freeRun k n 1) = some pg)
    (hnew : (s.mirror.resv.any fun r => r.dev == dev) = false) (hu : takePages 0 pg n s = u) :
    specMirSpare.run i p s = .ok (leBytes 8 (pg * Config.pageBytes)) { u with mirror := { u.mirror with
      resv := u.mirror.resv ++ [{ dev, base := pg * Config.pageBytes, len := n * Config.pageBytes, got := [], word := none }] } } := by
  have hpeer : (decide (dev = s.sysIndex) || decide (dev / 64 ≠ s.sys.pod)) = false := by simp [hself, hpod]
  simp only [specMirSpare, hop, spareReserve, hdev, hn, hadmin, hpeer, if_neg hlen, hfree, hnew, hu, Bool.not_true, Bool.false_eq_true, ↓reduceIte]

section Release
variable {x : Nat} (hop : field p 0 1 = 3) (hx : field p 2 2 = x)
include hop hx

theorem specMirSpare_run_release_protection {y : Prot} {j : Job} (hkind : field p 1 1 = 0) (hprot : s.mirror.prot = some y) (hown : y.job = x)
    (hjob : mirJob i.ctx x 2 s = .inr j) :
    specMirSpare.run i p s = .ok [] (commitGo x j { s with mirror := { s.mirror with
      prot := none, kept := [], cur := Delta.init, asked := false, acked := false, badSlot := false, resolving := none, waitAt := none } }) := by
  have hown' : ¬ y.job ≠ x := not_not.mpr hown
  simp only [specMirSpare, hop, spareRelease, hx, hkind, hprot, hjob, if_neg hown', job_of_mirJob hjob]

theorem specMirSpare_run_release_designation {d : Desig} (hkind : field p 1 1 = 1) (hdesig : s.mirror.desig = some d) (hown : d.group = x)
    (hctx : i.ctx = 0 ∨ (s.group x).ctx = i.ctx) :
    specMirSpare.run i p s = .ok [] (spareTell x false 0 { s with mirror := { s.mirror with desig := none } }) := by
  have hown' : ¬ d.group ≠ x := not_not.mpr hown
  simp only [specMirSpare, hop, spareRelease, hx, hkind, hdesig, if_neg hown', not_foreign hctx, Bool.false_eq_true, ↓reduceIte]

theorem specMirSpare_run_release_reservation {r : Resv} {a : Alloc} (hkind : field p 1 1 = 2)
    (hresv : (s.mirror.resv.find? fun r => r.dev == x) = some r) (hadmin : isAdmin i.mb = true)
    (hbeats : (s.mirror.beats.any fun b => b.1 == x) = false) (halloc : (s.mem.allocs.find? fun a => a.base == r.base) = some a) :
    specMirSpare.run i p s = .ok [] { freePages a s with mirror := { s.mirror with resv := s.mirror.resv.filter fun y => y.dev != x } } := by
  simp only [specMirSpare, hop, spareRelease, hx, hkind, hresv, hadmin, hbeats, halloc, Bool.not_true, Bool.false_eq_true, ↓reduceIte]
  rfl

end Release
end Run

/-- Settles O26: each operation by its own rule. -/
theorem mirrorSpares : Obligations.MirrorSpares := by
  unfold Obligations.MirrorSpares
  intro q c p ind s
  refine ⟨?protect, ?designate, ?reserve, ?release⟩
  case protect =>
    intro q0 t h n regs b j hadm hop hjob h1 h64 h16 hmax hn hn' howns hgood hslc hself hpod hstudent hstarted hst hpoint hbusy
    refine submit_of_run hadm ?_
    by_cases hpeer : Config.peerReserves b s.now = true
    · refine (specMirSpare_run_protect (i := issOf specMirSpare.opcode c q0 s) (s := s.taken specMirSpare.opcode q0) hop rfl rfl rfl rfl hjob
        ⟨h1, h64⟩ ⟨h16, hmax⟩ ⟨hn, hn'⟩ howns hgood hslc hself hpod hpeer hstudent hstarted hst hpoint hbusy).trans ?_
      simp only [hpeer, Bool.not_true, Bool.false_eq_true, ↓reduceIte]
      rfl
    · have hpeer' := Bool.eq_false_iff.mpr hpeer
      refine (specMirSpare_run_protect_refused (i := issOf specMirSpare.opcode c q0 s) (s := s.taken specMirSpare.opcode q0) hop rfl rfl rfl rfl
        hjob ⟨h1, h64⟩ ⟨h16, hmax⟩ ⟨hn, hn'⟩ howns hgood hslc hpeer').trans ?_
      simp only [hpeer', Bool.not_false, ↓reduceIte]
      rfl
  case designate =>
    intro q1 j hadm hop _ hmembers hctx hjob hsame hstudent hresume hst
    exact submit_of_run_ok hadm (specMirSpare_run_designate (i := issOf specMirSpare.opcode c q1 s) (s := s.taken specMirSpare.opcode q1) hop rfl
      rfl hmembers hctx hjob hsame hstudent hresume hst)
  case reserve =>
    intro q2 dev n pg hadm hop hadmin hself hpod hlen hfree hnew u
    rw [← withOp_mailbox 2 q] at hadmin
    exact submit_of_run_ok hadm (specMirSpare_run_reserve (i := issOf specMirSpare.opcode c q2 s) (s := s.taken specMirSpare.opcode q2) hop rfl
      rfl hadmin hself hpod hlen hfree hnew rfl)
  case release =>
    intro q3 t x hadm hop
    refine ⟨fun y j hkind hprot hown hjob => ?_, fun d hkind hdesig hown hctx => ?_, fun r a hkind hresv hadmin hbeats halloc => ?_⟩
    · exact submit_of_run_ok hadm (specMirSpare_run_release_protection (i := issOf specMirSpare.opcode c q3 s)
        (s := s.taken specMirSpare.opcode q3) hop rfl hkind hprot hown hjob)
    · exact submit_of_run_ok hadm (specMirSpare_run_release_designation (i := issOf specMirSpare.opcode c q3 s)
        (s := s.taken specMirSpare.opcode q3) hop rfl hkind hdesig hown hctx)
    · rw [← withOp_mailbox 3 q] at hadmin
      exact submit_of_run_ok hadm (specMirSpare_run_release_reservation (i := issOf specMirSpare.opcode c q3 s)
        (s := s.taken specMirSpare.opcode q3) hop rfl hkind hresv hadmin hbeats halloc)

end Sys2Proof.Machine
end

section
/-! PROOFS for 16_mirror_resilience.md: the resolution of a broken group's attempt, and takeovers. -/

namespace Sys2Proof.Machine
open Sys2Proof

/-! ### RESOLUTION_COMPLETE (R454, R466, R467) -/

/-- The word that a resolution takes: that which a survivor held, else a commit word of cause ABSENT. -/
def resolvedWord (held : Option CommitWord) (n : Nat) : CommitWord :=
  held.getD { cause := 8, isLocal := false, vetoDev := 0xFFFF, vetoTensor := 0, norm := 0, participants := n }

/-- What a resolution leaves in Mirror's registers and with the states held for the lost member. -/
def resolved (g : Nat) (held : Option CommitWord) (n : Nat) (s : State) : State :=
  { s with mirror := { s.mirror with
    resolving := none
    rCause := (resolvedWord held n).cause, rHeld := held.isSome, rSurv := min n 1023, rAttempt := (s.upd 0).attempt % 2 ^ 32
    resv := s.mirror.resv.map fun r =>
      if (s.group g).members[(s.group g).lost]? = some r.dev then { r with word := some (resolvedWord held n) } else r } }

section Resolution
variable {g h n : Nat} {j : Job} {held : Option CommitWord} {s : State} (hfatal : s.isFatal = false) (hjob : s.studentJob = some (h, j))
  (hgroup : j.group = g) (hbroken : (s.group g).st = 2) (hprot : (s.protOf h).isSome = true) (hst : j.st = 1 ∨ j.st = 2)
include hfatal hgroup hbroken hprot hst

theorem resolution_open : (decide (j.group ≠ g) || decide ((s.group g).st ≠ 2) || (s.protOf h).isNone || s.isFatal
    || !(decide (j.st = 1) || decide (j.st = 2))) = false := by
  have hsome : (s.protOf h).isNone = false := Option.isNone_eq_false_iff.mpr hprot
  obtain hst | hst := hst <;> simp [hgroup, hbroken, hsome, hfatal, hst]

include hjob

/-- Half of the group is no majority: the job is aborted. -/
theorem execResolutionComplete_of_minority (hless : 2 * n ≤ (s.group g).members.length) {t u v : State} (ht : resolved g held n s = t)
    (hu : mirErr 4 h t.sysIndex (s.upd 0).attempt (setErr Config.tUpdate 1 5 0 0 8 (setErr Config.tUpdate 0 5 0 0 8 t)) = u)
    (hv : inconsistent 1 j.ctx 0xFFFF 0 (inconsistent 0 j.ctx 0xFFFF 0 u) = v) :
    execResolutionComplete g held n s = .next (jobAbort h (deliverEvent j.ctx (eventRecord 0xFFFF 0x2803 0 2 0 0 v.now (leBytes 4 n) 0) v)) := by
  subst hv hu ht
  simp only [execResolutionComplete, hjob, resolution_open hfatal hgroup hbroken hprot hst, if_pos hless, Bool.false_eq_true, ↓reduceIte]
  rfl

variable (hmore : (s.group g).members.length < 2 * n) {u : State}
  (hu : autoTakeover (((s.group g).members[(s.group g).lost]?).getD 1024) (bump Config.tMirror 0 8 1 (resolved g held n s)) = u)
include hmore hu

theorem execResolutionComplete_of_majority : execResolutionComplete g held n s = .next
    (if u.windowOpen || (held.isSome && !(u.upd 0).sent) then u
     else if (u.upd 0).commit.isSome && (u.upd 1).commit.isSome then takeWord h j (resolvedWord held n) u
     else { u with mirror := { u.mirror with adopted := some (resolvedWord held n) } }) := by
  have hless : ¬ 2 * n ≤ (s.group g).members.length := Nat.not_le.mpr hmore
  subst hu
  simp only [execResolutionComplete, hjob, resolution_open hfatal hgroup hbroken hprot hst, if_neg hless, Bool.false_eq_true, ↓reduceIte]
  rw [apply_ite Host.Outcome.next, apply_ite Host.Outcome.next]
  rfl

theorem execResolutionComplete_of_over (hover : u.windowOpen = true ∨ (held.isSome = true ∧ (u.upd 0).sent = false)) :
    execResolutionComplete g held n s = .next u := by
  rw [execResolutionComplete_of_majority hfatal hjob hgroup hbroken hprot hst hmore hu, if_pos]
  obtain h | ⟨hheld, hsent⟩ := hover
  · rw [h, Bool.true_or]
  · rw [hheld, hsent, Bool.not_false, Bool.and_true, Bool.or_true]

theorem execResolutionComplete_of_waiting (hclosed : u.windowOpen = false) (hsent : held = none ∨ (u.upd 0).sent = true) :
    execResolutionComplete g held n s = .next (if (u.upd 0).commit.isSome ∧ (u.upd 1).commit.isSome then takeWord h j (resolvedWord held n) u
      else { u with mirror := { u.mirror with adopted := some (resolvedWord held n) } }) := by
  have htakes : (u.windowOpen || (held.isSome && !(u.upd 0).sent)) = false := by
    obtain h | h := hsent <;> simp [hclosed, h]
  rw [execResolutionComplete_of_majority hfatal hjob hgroup hbroken hprot hst hmore hu, if_neg (Bool.eq_false_iff.mp htakes)]
  simp only [Bool.and_eq_true]

end Resolution

/-- Settles O25: by whether the survivors are more than half of the group, and whether this member's attempt may take the word. -/
theorem resolution : Obligations.Resolution := by
  unfold Obligations.Resolution
  intro g h n j held s hfatal hjob hgroup hbroken hprot hst att w lost t u
  refine ⟨fun hless => ?minority, fun hmore => ?late, fun hmore => ?waiting⟩
  case minority => exact execResolutionComplete_of_minority hfatal hjob hgroup hbroken hprot hst hless rfl rfl rfl
  case late => exact execResolutionComplete_of_over hfatal hjob hgroup hbroken hprot hst hmore rfl
  case waiting => exact execResolutionComplete_of_waiting hfatal hjob hgroup hbroken hprot hst hmore rfl

/-! ### MIR_TAKEOVER (R454, R468, R470) -/

theorem State.group_updGroup_of_st (s : State) (g : Nat) {f : Group → Group} (h : (f (s.group g)).st ≠ 0) :
    (s.updGroup g f).group g = f (s.group g) :=
  SMap.get_set_ne (fun heq => h (congrArg Group.st heq)) s.groups g

section Run
variable {i : Iss} {p : Bytes} {s : State} {g h rank : Nat} {j : Job} (hg : field p 2 2 = g) (hrank : field p 4 2 = rank) (hh : field p 6 2 = h)
  (hctx : i.ctx = 0 ∨ (s.group g).ctx = i.ctx) (hjob : mirJob i.ctx h 6 s = .inr j)
include hg hrank hh hctx hjob

theorem specMirTakeover_run_begin {d : Desig} (hop : field p 0 1 = 0) (hlow : rank < (s.group g).members.length) (hdesig : s.mirror.desig = some d)
    (hdgroup : d.group = g) (hdjob : d.job = h) (hbroken : (s.group g).st = 2) (hst : j.st = 0) (hidle : s.mirror.replay = none) {u : State}
    (hu : (tellMembers g mgRank (leBytes 8 (s.group g).key ++ leBytes 2 rank)
      (s.updGroup g fun x => { x with members := x.members.set rank s.sysIndex, st := 4 })).setJob h { j with
        st := 1, started := true, header := splice j.header 6 (leBytes 2 g) } = u) :
    specMirTakeover.run i p s = .pend { u with mirror := { u.mirror with
      replay := some { job := h, group := g, rank, ready := false, queue := [], first := 0, last := 0, op := some (i.ctx, i.handle) } } } := by
  have hsome : (s.group g).members.isEmpty = false := by
    refine List.isEmpty_eq_false_iff.mpr fun hnil => ?_
    rw [hnil] at hlow
    exact absurd hlow (Nat.not_lt_zero _)
  have hall : s.mirror.desig.all (fun d => d.group != g || d.job != h) = false := by simp [hdesig, hdgroup, hdjob]
  have hfree : (decide (j.st ≠ 0) || s.mirror.replay.isSome) = false := by simp [hst, hidle]
  have hbroken' : ¬ (s.group g).st ≠ 2 := not_not.mpr hbroken
  have hkey : ((s.updGroup g fun x => { x with members := x.members.set rank s.sysIndex, st := 4 }).group g).key = (s.group g).key := by
    rw [State.group_updGroup_of_st s g (Nat.succ_ne_zero 3)]
  subst hu
  simp only [specMirTakeover, hop, takeoverBegin, hg, hrank, hh, hsome, not_foreign hctx, hjob, if_neg (Nat.not_le.mpr hlow), hall, if_neg hbroken',
    hfree, takeoverGo, hkey, Bool.false_eq_true, ↓reduceIte]

section End
variable {r : Replay} (hop : field p 0 1 = 1) (hmembers : (s.group g).members ≠ []) (hreplay : s.mirror.replay = some r) (hrgroup : r.group = g)
  (hrjob : r.job = h) (hrrank : r.rank = rank) (hready : r.ready = true) (hqueue : r.queue = []) (hclosed : s.windowOpen = false)
include hop hmembers hreplay hrgroup hrjob hrrank hready hqueue hclosed

theorem specMirTakeover_run_end : specMirTakeover.run i p s =
    if i.defer then .pend s
    else if !Config.replayAgrees s.now then .failWith 0x2804 ((s.upd 0).attempt % 2 ^ 32) (mirErr 5 h s.sysIndex (s.upd 0).attempt s)
    else
      let u := bump Config.tMirror 0 9 1 ((tellMembers g mgGroup (leBytes 8 (s.group g).key) s).updGroup g fun x => { x with st := 1 })
      .ok (leBytes 8 r.first ++ leBytes 8 r.last) { u with mirror := { u.mirror with replay := none, desig := none } } := by
  have hsome : (s.group g).members.isEmpty = false := List.isEmpty_eq_false_iff.mpr hmembers
  have hnamed : (decide (r.group ≠ g) || decide (r.job ≠ h) || decide (r.rank ≠ rank)) = false := by simp [hrgroup, hrjob, hrrank]
  have hreplayed : (!r.ready || !r.queue.isEmpty || s.windowOpen) = false := by simp [hready, hqueue, hclosed]
  simp only [specMirTakeover, hop, takeoverEnd, hg, hrank, hh, hsome, not_foreign hctx, hjob, hreplay, hnamed, hreplayed, Bool.false_eq_true,
    ↓reduceIte]

end End
end Run

/-! #### TAKEOVER_RESTORE_COMPLETE (R454, R468) -/

/-- Who hears of a takeover's restore: the command that began it, else the job's context. -/
def takeoverTold (r : Replay) (j : Job) (st d : Nat) (res : Bytes) (x : State) : State :=
  match r.op with
  | some o => finishOp o.1 o.2 st d res x
  | none => deliverEvent j.ctx (eventRecord 0xFFFF st 0 2 0 0 x.now res 0) x

section Restore
variable {h : Nat} {j : Job} {r : Replay} {data : List Bytes} {block : Bytes} {ds : List Delta} {s : State} (hfatal : s.isFatal = false)
  (hreplay : s.mirror.replay = some r) (hjob : s.job h = some j) (hrjob : r.job = h) (hready : r.ready = false)
include hfatal hrjob hready

theorem takeover_awaited : (decide (r.job ≠ h) || r.ready || s.isFatal) = false := by simp [hrjob, hready, hfatal]

include hreplay hjob

/-- The standby job is lost, and its group as before. -/
theorem execTakeoverRestoreComplete_of_bad
    (hbad : (data.isEmpty || decide (data.length ≠ (s.template h).length) || (stepBlockBad (fitTo 64 block)).isSome) = true) :
    execTakeoverRestoreComplete h data block ds s = .next (takeoverTold r j (if data.isEmpty then 0x2800 else 0x2801)
      (if data.isEmpty then 1 else min data.length (s.template h).length) []
      { (s.setJob h { j with st := 4 }).updGroup r.group (fun x => { x with st := 2 }) with mirror := { s.mirror with replay := none } }) := by
  simp only [execTakeoverRestoreComplete, hreplay, hjob, takeover_awaited hfatal hrjob hready, hbad, Bool.false_eq_true, ↓reduceIte]
  rfl

variable (hsome : data ≠ []) (hlen : data.length = (s.template h).length) (hblock : stepBlockBad (fitTo 64 block) = none) {u : State}
  (hu : bump Config.tMirror 0 2 1 (loadStep (fitTo 64 block) (restoreRegs (s.template h) data s)) = u)
include hsome hlen hblock

omit hfatal hreplay hjob hrjob hready in
theorem takeover_whole : (data.isEmpty || decide (data.length ≠ (s.template h).length) || (stepBlockBad (fitTo 64 block)).isSome) = false := by
  simp [hsome, hlen, hblock]

include hu

theorem execTakeoverRestoreComplete_of_no_delta (hds : ds = []) :
    execTakeoverRestoreComplete h data block ds s = .next (takeoverTold r j 0 0
      (leBytes 8 (u.upd 0).attempt ++ leBytes 8 ((u.upd 0).attempt - 1)) { u with mirror := { u.mirror with
        replay := some { r with ready := true, queue := [], first := (u.upd 0).attempt, last := (u.upd 0).attempt - 1, op := none } } }) := by
  subst hds
  simp only [execTakeoverRestoreComplete, hreplay, hjob, takeover_awaited hfatal hrjob hready,
    takeover_whole hsome hlen hblock, hu, Bool.false_eq_true, ↓reduceIte, List.getLast?_nil]
  rfl

/-- The retained deltas wait to be replayed from the first on; the early regions are those of the last. -/
theorem execTakeoverRestoreComplete_of_deltas {d e : Delta} (hhead : ds.head? = some d) (hlast : ds.getLast? = some e) {v : State}
    (hv : restoreRegs ((s.template h).filter (·.early)) e.early u = v) :
    execTakeoverRestoreComplete h data block ds s = .next (takeoverTold r j 0 0 (leBytes 8 d.attempt ++ leBytes 8 e.attempt)
      { v with mirror := { v.mirror with
        replay := some { r with ready := true, queue := ds, first := d.attempt, last := e.attempt, op := none } } }) := by
  cases ds with
  | nil => exact absurd hhead (by simp)
  | cons x l =>
    obtain rfl : x = d := Option.some.inj hhead
    simp only [execTakeoverRestoreComplete, hreplay, hjob, takeover_awaited hfatal hrjob hready,
      takeover_whole hsome hlen hblock, hu, hlast, hv, Bool.false_eq_true, ↓reduceIte]
    rfl

end Restore

/-- Settles O27: the command's two operations each by its own rule, the restore by what the buddy sent. -/
theorem takeover : Obligations.Takeover := by
  unfold Obligations.Takeover
  intro q c p ind s
  refine ⟨?begin_, ?end_, ?restore⟩
  case begin_ =>
    intro q0 t g h j d hadm hop hctx hjob hlow hdesig hdgroup hdjob hbroken hst hidle u
    exact submit_of_run hadm (specMirTakeover_run_begin (i := issOf specMirTakeover.opcode c q0 s) (s := s.taken specMirTakeover.opcode q0) rfl rfl
      rfl hctx hjob hop hlow hdesig hdgroup hdjob hbroken hst hidle rfl)
  case end_ =>
    intro q1 t g j r hadm hop hmembers hctx hjob hreplay hrgroup hrjob hrrank hready hqueue hclosed
    have hrun := specMirTakeover_run_end (i := issOf specMirTakeover.opcode c q1 s) (s := s.taken specMirTakeover.opcode q1) rfl rfl
      rfl hctx hjob hop hmembers hreplay hrgroup hrjob hrrank hready hqueue hclosed
    rw [← withOp_defer 1 q]
    split
    · next hdefer => exact submit_of_run_pend hadm (hrun.trans (if_pos hdefer))
    · next hdefer =>
      split
      · next hagrees => exact submit_of_run_ok hadm ((hrun.trans (if_neg hdefer)).trans (if_neg (by rw [Bool.not_eq_true']; exact ne_false_of_eq_true hagrees)))
      · next hagrees =>
        exact submit_of_run hadm ((hrun.trans (if_neg hdefer)).trans (if_pos (by rw [Bool.not_eq_true']; exact Bool.eq_false_iff.mpr hagrees)))
  case restore =>
    intro h j r data block ds hfatal hreplay hjob hrjob hready told lost
    refine ⟨fun hnil => ?none_, fun hsome hbad => ?bad, fun hsome hlen hblock => ⟨fun hds => ?fresh, fun d e hhead hlast => ?deltas⟩⟩
    case none_ =>
      subst hnil
      exact execTakeoverRestoreComplete_of_bad hfatal hreplay hjob hrjob hready rfl
    case bad =>
      have hempty : data.isEmpty = false := List.isEmpty_eq_false_iff.mpr hsome
      have hwrong : (data.isEmpty || decide (data.length ≠ (s.template h).length) || (stepBlockBad (fitTo 64 block)).isSome) = true := by
        obtain h | h := hbad <;> simp [h]
      rw [show exec (.takeoverRestoreComplete h data block ds) s = execTakeoverRestoreComplete h data block ds s from rfl,
        execTakeoverRestoreComplete_of_bad hfatal hreplay hjob hrjob hready hwrong, hempty]
      rfl
    case fresh => exact execTakeoverRestoreComplete_of_no_delta hfatal hreplay hjob hrjob hready hsome hlen hblock rfl hds
    case deltas => exact execTakeoverRestoreComplete_of_deltas hfatal hreplay hjob hrjob hready hsome hlen hblock rfl hhead hlast rfl

end Sys2Proof.Machine
end

section
/-! PROOFS for 16_mirror_resilience.md: checkpoints, restores, snapshots and the log, the ends of a checkpoint's stages, and heartbeats. -/

namespace Sys2Proof.Machine
open Sys2Proof

/-! ### Checkpoints, restores, snapshots and the log (R457, R459, R460, R462, R471, R474, R516) -/

section Run
variable {i : Iss} {p : Bytes} {s : State} {h : Nat} {j : Job} (hh : field p 0 2 = h) (hjob : mirJob i.ctx h 0 s = .inr j)
include hh hjob

section Regions
variable {level n : Nat} {regs : List Region} (hlevel : field p 2 1 = level) (hn : field p 4 2 = n) (hregs : parseRegs (p.drop 16) n = regs)
  (hl3 : l3Bad i.ctx level (field p 6 2) 6 s = none) (hcount : 1 ≤ n ∧ n ≤ 1024) (hgood : regsBad j.ctx regs s = none)
include hlevel hn hregs hl3 hcount hgood

theorem specMirCkpt_run_full {e : Nat × Nat} (hslc : level = 2) (hfull : s.slcBad j.ctx s.slcOld (regBytes regs) = some e) :
    specMirCkpt.run i p s = .fail e.1 e.2 := by
  have hrange' : (decide (level < 1) || decide (level > 3)) = false := by simp [hslc]
  have hcount' : (decide (n < 1) || decide (n > 1024)) = false := by simp; omega
  simp only [specMirCkpt, hh, hlevel, hn, hregs, hjob, hl3, hrange', hcount', hgood, if_pos hslc, hfull, Bool.false_eq_true, ↓reduceIte]

variable (hrange : 1 ≤ level ∧ level ≤ 3)
include hrange

theorem specMirCkpt_run (hslc : level = 2 → s.slcBad j.ctx s.slcOld (regBytes regs) = none)
    (hbuddy : level = 1 → ∃ x, s.protOf h = some x ∧ x.noBuddy = false) (hstudent : j.student = true) (hstarted : j.started = true) (hst : j.st ≠ 4)
    (hpoint : s.ckptPoint = true) (hbusy : s.ckptBusy = false) :
    specMirCkpt.run i p s = .pend (ckptStart h level regs (field p 6 2) (some (i.ctx, i.handle)) false
      (if field p 3 1 = 1 then setTemplate h regs s else s)) := by
  have hrange' : (decide (level < 1) || decide (level > 3)) = false := by simp; omega
  have hcount' : (decide (n < 1) || decide (n > 1024)) = false := by simp; omega
  have hroom : (if level = 2 then s.slcBad j.ctx s.slcOld (regBytes regs) else none) = none := by
    split
    · next h2 => exact hslc h2
    · rfl
  have hstate : (!j.student || !j.started || decide (j.st = 4) || !s.ckptPoint) = false := by simp [hstudent, hstarted, hst, hpoint]
  simp only [specMirCkpt, hh, hlevel, hn, hregs, hjob, hl3, hrange', hcount', hgood, hroom, hstate, hbusy, Bool.false_eq_true, ↓reduceIte]
  by_cases h1 : level = 1
  · obtain ⟨x, hprot, hx⟩ := hbuddy h1
    simp only [h1, hprot, hx, decide_true, Bool.true_and, Bool.false_eq_true, ↓reduceIte]
  · simp only [h1, decide_false, Bool.false_and, Bool.false_eq_true, ↓reduceIte]

/-- A restore: it waits for earlier commands, finds the copy whole and of the same secret, or leaves its destination undefined. -/
theorem specMirRestore_run {k : Ckpt} (hfound : s.restorable j.ctx level (field p 3 1 == 1) (field p 8 8) = some k)
    (hsame : k.regs.map (·.len) = regs.map (·.len)) (hstudent : j.student = true) (hst : j.st = 0 ∨ j.st = 3) :
    specMirRestore.run i p s =
      if i.defer then .pend s
      else if !Config.copyIntact level s.now || (k.mek.isSome && k.mek != s.mek h j.group) then
        .failWith eIntegrity 0 (mirErr 3 h s.sysIndex k.attempt (restoreUndefined regs s))
      else .ok (leBytes 8 k.step) (bump Config.tMirror 0 2 1
        ((loadStep k.block (restoreRegs regs (k.data.map (·.getD [])) s)).setJob h { j with started := true })) := by
  have hrange' : (decide (level < 1) || decide (level > 3)) = false := by simp; omega
  have hcount' : (decide (n < 1) || decide (n > 1024)) = false := by simp; omega
  have hlen : regs.length = n := by rw [← hregs, parseRegs, List.length_map, List.length_range]
  have hklen : k.regs.length = n := by simpa [hlen] using congrArg List.length hsame
  have hmatch : (if k.regs.length ≠ n then some (min n k.regs.length) else (List.range n).find? fun x =>
      (k.regs[x]?.map (·.len)) != (regs[x]?.map (·.len))) = none := by
    rw [if_neg (not_not.mpr hklen)]
    refine List.find?_eq_none.mpr fun x _ => ?_
    simp only [← List.getElem?_map, hsame, bne_self_eq_false, Bool.false_eq_true, not_false_eq_true]
  have hstate : (!j.student || (decide (j.st ≠ 0) && decide (j.st ≠ 3))) = false := by
    obtain hst | hst := hst <;> simp [hstudent, hst]
  simp only [specMirRestore, hh, hlevel, hn, hregs, hjob, hl3, hrange', hcount', hgood, hfound, hmatch, hstate, Bool.false_eq_true, ↓reduceIte]

end Regions

theorem specMirSnapshot_run {level : Nat} (hlevel : field p 2 1 = level) (hl3 : l3Bad i.ctx level (field p 4 2) 4 s = none)
    (hrange : level = 2 ∨ level = 3) (hslc : level = 2 → s.slcBad j.ctx s.slcOld (regBytes (s.template h)) = none)
    (hsome : (s.template h).isEmpty = false) (hstudent : j.student = true) (hstarted : j.started = true) (hst : j.st ≠ 4)
    (hidle : s.mirror.snapWait = none) :
    specMirSnapshot.run i p s = .pend (snapGo { s with mirror := { s.mirror with
      snapWait := some (h, level, field p 4 2, i.ctx, i.handle) } }) := by
  have hrange' : (decide (level < 2) || decide (level > 3)) = false := by simp; omega
  have hroom : (if level = 2 then s.slcBad j.ctx s.slcOld (regBytes (s.template h)) else none) = none := by
    split
    · next h2 => exact hslc h2
    · rfl
  have hstate : (!j.student || !j.started || decide (j.st = 4)) = false := by simp [hstudent, hstarted, hst]
  have hidle' : s.mirror.snapWait.isSome = false := by rw [hidle]; rfl
  simp only [specMirSnapshot, hh, hlevel, hjob, hl3, hrange', hroom, hsome, hstate, hidle', Bool.false_eq_true, ↓reduceIte]

theorem specMirLogQuery_run {x : Prot} (hcount : 1 ≤ field p 16 2 ∧ field p 16 2 ≤ 1024) (hprot : s.mirror.prot = some x) (hown : x.job = h) :
    specMirLogQuery.run i p s = .ok ((List.range (field p 16 2)).flatMap fun k =>
      (s.mirror.log.find? fun e => field e 8 8 == field p 8 8 + k).getD (zeros 128)) s := by
  have hcount' : (decide (field p 16 2 < 1) || decide (field p 16 2 > 1024)) = false := by simp; omega
  have hall : s.mirror.prot.all (fun x => x.job != h) = false := by simp [hprot, hown]
  simp only [specMirLogQuery, hh, hjob, hcount', hall, Bool.false_eq_true, ↓reduceIte]

end Run

/-- A copy that is whole, and of the secret that stands or of none. -/
theorem copy_usable_iff {a : Bool} {k m : Option Bytes} : (!a || (k.isSome && k != m)) = false ↔ a = true ∧ (k = none ∨ k = m) := by
  cases k <;> simp

/-- A final event record changes no job. -/
theorem finishOp_job (c handle st d : Nat) (res : Bytes) (s : State) (h : Nat) : (finishOp c handle st d res s).job h = s.job h := by
  unfold finishOp
  split
  · rfl
  · extract_lets t dst
    rw [deliverEvent_tells dst _ t]
    rfl

/-! ### The ends of a checkpoint's stages (R456–R458, R471, R474, R516) -/

section Stages
variable {n : Nat} {s t : State} {k : Ckpt} (hfatal : s.isFatal = false)
include hfatal

theorem execCkptCaptureDone_of_early (hst : (s.ckpt n).st = 1) (ht : ckptRead n (·.early) s = t) (hk : t.ckpt n = k) (hkst : k.st = 1) :
    execCkptCaptureDone n s = .next (deliverEvent k.ctx
      (eventRecord 0x0800 1 0 0 0 ((k.op.map (·.2)).getD 0) t.now (leBytes 8 k.step) 0) (t.setCkpt n { k with st := 2 })) := by
  have hguard : (decide ((s.ckpt n).st ≠ 1) || s.isFatal) = false := by simp [hst, hfatal]
  have hkst' : ¬ k.st ≠ 1 := not_not.mpr hkst
  simp only [execCkptCaptureDone, hguard, ht, hk, if_neg hkst', Bool.false_eq_true, ↓reduceIte]

variable (hst : (s.ckpt n).st = 2) (ht : ckptSpoil n (ckptRead n (fun _ => true) s) = t) (hk : t.ckpt n = k) (hkst : k.st = 2)
include hst ht hk hkst

theorem execCkptManifestWritten_of_failed : execCkptManifestWritten n false s = .next (ckptFail n 0x113 t) := by
  have hguard : (decide ((s.ckpt n).st ≠ 2) || s.isFatal) = false := by simp [hst, hfatal]
  have hkst' : ¬ k.st ≠ 2 := not_not.mpr hkst
  simp only [execCkptManifestWritten, hguard, ht, hk, if_neg hkst', Bool.not_false, Bool.false_eq_true, ↓reduceIte]

/-- A checkpoint that is complete, as it stands before its command hears of it. -/
def ckptComplete (n : Nat) (k : Ckpt) (t : State) : State :=
  let w := bump Config.tMirror 0 0 1 (bump Config.tMirror 0 1 (regBytes k.regs) (ckptShip n t))
  let u := w.setCkpt n { k with st := 3, op := none, mek := if n / 2 = 1 then none else w.jobMek k.job }
  { u with mirror := { u.mirror with
    last := (n / 2, n) :: u.mirror.last.filter fun x => x.1 != n / 2
    kept := if n / 2 = 1 then u.mirror.kept.filter fun d => decide (k.attempt < d.attempt) else u.mirror.kept } }

/-- The command that waited for a complete checkpoint hears of it, that which protects the job having fixed its secret before; and what waited
for the checkpoint goes on. -/
def ckptEnded (k : Ckpt) (v : State) : Host.Outcome State Fault Refusal :=
  let members := match v.job k.job with | some j => (v.jobMembers j).length | none => 0
  let x := if (k.op.bind fun o => v.ops.find? fun x => x.ctx == o.1 && x.handle == o.2).any fun x => x.opcode == 0x0803 then
      { v with mirror := { v.mirror with prot := v.mirror.prot.map fun p => { p with mek := (v.job p.job).bind fun j => v.newMek j.group } } }
    else v
  let w := match k.op with
    | some o => finishOp o.1 o.2 0 0 (if k.snap then leBytes 8 k.step ++ leBytes 2 members
        else if (x.ops.find? fun x => x.ctx == o.1 && x.handle == o.2).any fun x => x.opcode == 0x0803 then []
        else leBytes 8 k.step ++ leBytes 8 (regBytes k.regs)) x
    | none => x
  match w.job k.job with
  | some j => .next (commitGo k.job j (snapGo w))
  | none => .next w

theorem execCkptManifestWritten_of_complete : execCkptManifestWritten n true s = ckptEnded k (ckptComplete n k t) := by
  have hguard : (decide ((s.ckpt n).st ≠ 2) || s.isFatal) = false := by simp [hst, hfatal]
  have hkst' : ¬ k.st ≠ 2 := not_not.mpr hkst
  simp only [execCkptManifestWritten, hguard, ht, hk, if_neg hkst', Bool.not_true, Bool.false_eq_true, ↓reduceIte]
  rfl

end Stages

section Ended
variable {k : Ckpt} {v : State} {j : Job} (hjob : v.job k.job = some j)
include hjob

theorem ckptEnded_of_own (hop : k.op = none) : ckptEnded k v = .next (commitGo k.job j (snapGo v)) := by
  simp only [ckptEnded, hop, hjob, Option.bind_none, Option.any_none, Bool.false_eq_true, ↓reduceIte]

theorem ckptEnded_of_command {o : Nat × Nat} {y : PendingOp} (hop : k.op = some o)
    (hy : (v.ops.find? fun x => x.ctx == o.1 && x.handle == o.2) = some y) {x : State}
    (hx : (if y.opcode == 0x0803 then { v with mirror := { v.mirror with
      prot := v.mirror.prot.map fun p => { p with mek := (v.job p.job).bind fun j => v.newMek j.group } } } else v) = x) :
    ckptEnded k v = .next (commitGo k.job j (snapGo (finishOp o.1 o.2 0 0
      (if k.snap then leBytes 8 k.step ++ leBytes 2 (v.jobMembers j).length
       else if y.opcode == 0x0803 then [] else leBytes 8 k.step ++ leBytes 8 (regBytes k.regs)) x))) := by
  have hxops : x.ops = v.ops := by rw [← hx]; split <;> rfl
  have hxjob : x.job k.job = some j := by rw [← hjob, ← hx]; split <;> rfl
  simp only [ckptEnded, hop, hjob, Option.bind_some, hy, Option.any_some, hx, hxops, finishOp_job, hxjob]

end Ended

/-! #### What Mirror's peers send (R462, R465) -/

theorem execDeltaAck_of_asked {h : Nat} {j : Job} {s : State} (hfatal : s.isFatal = false) (hjob : s.job h = some j) (hasked : s.mirror.asked = true)
    (hacked : s.mirror.acked = false) (hprot : (s.protOf h).isSome = true) :
    execDeltaAck h s = .next (commitGo h j { s with mirror := { s.mirror with acked := true } }) := by
  have hsome : (s.protOf h).isNone = false := Option.isNone_eq_false_iff.mpr hprot
  simp only [execDeltaAck, hjob, hasked, hacked, hsome, hfatal, Bool.not_true, Bool.or_false, Bool.false_eq_true, ↓reduceIte]

theorem execMirrorHeartbeat_of_known {dev : Nat} {s : State} (hfatal : s.isFatal = false)
    (hknown : (s.mirror.resv.any fun r => r.dev == dev) = true ∨ ∃ x, s.mirror.prot = some x ∧ x.buddy = dev) :
    execMirrorHeartbeat dev s = .next { s with mirror := { s.mirror with
      beats := (dev, s.now) :: s.mirror.beats.filter fun b => b.1 != dev } } := by
  refine if_neg ?_
  obtain h | ⟨x, hprot, hx⟩ := hknown
  · simp [h, hfatal]
  · simp [hprot, hx, hfatal]

theorem execHeartbeatLoss_of_silent {dev at_ : Nat} {s : State} (hfatal : s.isFatal = false)
    (hbeat : (s.mirror.beats.find? fun b => b.1 == dev) = some (dev, at_)) {u : State}
    (hu : { atLeast (at_ + 3 * s.setting Config.tMirror 0 2 100 * Config.ms) s with
      mirror := { s.mirror with beats := s.mirror.beats.filter fun x => x.1 != dev } } = u) :
    execHeartbeatLoss dev s = .next (if (s.mirror.resv.any fun r => r.dev == dev) = true
      then deviceLost dev (bump Config.tMirror 0 10 1 (mirErr 6 0xFFFF dev (s.upd 0).attempt u)) else buddyLost dev u) := by
  subst hu
  simp only [execHeartbeatLoss, hbeat, hfatal, Bool.false_eq_true, ↓reduceIte]
  rw [apply_ite Host.Outcome.next]
  rfl

/-- Settles O24: each command by its own rule, the stages of a checkpoint and what peers send by what stands when they come. -/
theorem mirrorCheckpoints : Obligations.MirrorCheckpoints := by
  unfold Obligations.MirrorCheckpoints
  refine ⟨fun q c p ind s => ⟨?ckpt, ?restore, ?snapshot, ?log⟩, fun n s hfatal => ⟨?capture, ?manifest⟩, ?ack, ?beat, ?silent⟩
  case ckpt =>
    intro h level n regs t j hadm hjob hl3 h1 h3 hn hn' hgood
    refine ⟨fun hslc e hfull => ?_, fun hslc hbuddy hstudent hstarted hst hpoint hbusy => ?_⟩
    · exact submit_of_run_fail hadm (specMirCkpt_run_full (i := issOf specMirCkpt.opcode c q s) (s := s.taken specMirCkpt.opcode q) rfl hjob rfl
        rfl rfl hl3 ⟨hn, hn'⟩ hgood hslc hfull)
    · exact submit_of_run hadm (specMirCkpt_run (i := issOf specMirCkpt.opcode c q s) (s := s.taken specMirCkpt.opcode q) rfl hjob rfl rfl rfl hl3
        ⟨hn, hn'⟩ hgood ⟨h1, h3⟩ hslc hbuddy hstudent hstarted hst hpoint hbusy)
  case restore =>
    intro h level n regs j k hadm hjob hl3 h1 h3 hn hn' hgood hfound hsame hstudent hst t
    have hrun := specMirRestore_run (i := issOf specMirRestore.opcode c q s) (s := s.taken specMirRestore.opcode q) rfl hjob rfl rfl rfl hl3
      ⟨hn, hn'⟩ hgood ⟨h1, h3⟩ hfound hsame hstudent hst
    split
    · next hdefer => exact submit_of_run_pend hadm (hrun.trans (if_pos hdefer))
    · next hdefer =>
      split
      · next husable =>
        exact submit_of_run_ok hadm ((hrun.trans (if_neg hdefer)).trans (if_neg (Bool.eq_false_iff.mp (copy_usable_iff.mpr husable))))
      · next husable =>
        exact submit_of_run hadm ((hrun.trans (if_neg hdefer)).trans (if_pos (Bool.not_eq_false _ ▸ mt copy_usable_iff.mp husable)))
  case snapshot =>
    intro h level t j hadm hjob hl3 hrange hslc hsome hstudent hstarted hst hidle
    exact submit_of_run hadm (specMirSnapshot_run (i := issOf specMirSnapshot.opcode c q s) (s := s.taken specMirSnapshot.opcode q) rfl hjob rfl
      hl3 hrange hslc hsome hstudent hstarted hst hidle)
  case log =>
    intro j x hadm hjob hn hn' hprot hown
    exact submit_of_run_ok hadm (specMirLogQuery_run (i := issOf specMirLogQuery.opcode c q s) (s := s.taken specMirLogQuery.opcode q) rfl hjob
      ⟨hn, hn'⟩ hprot hown)
  case capture =>
    intro t k hst hkst
    exact execCkptCaptureDone_of_early hfatal hst rfl rfl hkst
  case manifest =>
    intro t k w u v hst hkst
    have hend : exec (.ckptManifestWritten n true) s = ckptEnded k v := execCkptManifestWritten_of_complete hfatal hst rfl rfl hkst
    refine ⟨execCkptManifestWritten_of_failed hfatal hst rfl rfl hkst, fun j hjob => ⟨fun hop => ?_, fun o y hop hy => ⟨fun hopcode => ?_, ?_⟩⟩⟩
    · exact hend.trans (ckptEnded_of_own hjob hop)
    · have hother : (y.opcode == 0x0803) = false := by simpa using hopcode
      refine hend.trans ((ckptEnded_of_command hjob hop hy (if_neg (Bool.eq_false_iff.mp hother))).trans ?_)
      rw [hother, apply_ite (leBytes 8 k.step ++ ·)]
      rfl
    · intro z hopcode hsnap hprot hown x _
      have hprotects : (y.opcode == 0x0803) = true := beq_iff_eq.mpr hopcode
      have hmek : ((v.job z.job).bind fun j => v.newMek j.group) = v.newMek j.group := by
        rw [hown, hjob]
        rfl
      have hx : { v with mirror := { v.mirror with
          prot := v.mirror.prot.map fun p => { p with mek := (v.job p.job).bind fun j => v.newMek j.group } } } = x := by
        rw [hprot, Option.map_some, hmek]
      refine hend.trans ((ckptEnded_of_command hjob hop hy ((if_pos hprotects).trans hx)).trans ?_)
      rw [hsnap, hprotects]
      rfl
  case ack => exact fun h j s hfatal hjob hasked hacked hprot => execDeltaAck_of_asked hfatal hjob hasked hacked hprot
  case beat => exact fun dev s hfatal hknown => execMirrorHeartbeat_of_known hfatal hknown
  case silent => exact fun dev at_ s hfatal hbeat => execHeartbeatLoss_of_silent hfatal hbeat rfl

end Sys2Proof.Machine
end

section
/-! PROOFS for 03_control_interface.md: of the part's own registers, a signal changes the MSI-X tables alone. -/

namespace Sys2Proof.Machine
open Sys2Proof

/-- Of the part's own registers, messages sent and pending bits alone may differ. -/
def Signalled (s t : State) : Prop := t.sys = { s.sys with msgs := t.sys.msgs, pba := t.sys.pba }

namespace Signalled
variable {s t u : State}

theorem refl (s : State) : Signalled s s := rfl

theorem of_sys (h : t.sys = s.sys) : Signalled s t := by
  unfold Signalled
  rw [h]

theorem trans (h : Signalled s t) (g : Signalled t u) : Signalled s u := by
  unfold Signalled at *
  rw [h] at g
  exact g

theorem foldl {α : Type} {f : State → α → State} (hf : ∀ s x, Signalled s (f s x)) (l : List α) (s : State) : Signalled s (l.foldl f s) := by
  induction l generalizing s with
  | nil => exact .refl s
  | cons x l ih => exact (hf s x).trans (ih _)

end Signalled

theorem setCtx_signalled (c : Nat) (x : Context) (s : State) : Signalled s (s.setCtx c x) := .of_sys rfl

theorem sendMsix_signalled (v : Nat) (s : State) : Signalled s (sendMsix v s) := by
  unfold sendMsix
  split
  · exact .refl s
  · split <;> rfl

theorem hbmPut_sys (a : Nat) (bs : Bytes) (s : State) : (hbmPut a bs s).sys = s.sys := by
  unfold hbmPut
  extract_lets n part t u
  split <;> rfl

theorem snoopOut_sys (a n : Nat) (s : State) : (snoopOut a n s).sys = s.sys := by
  unfold snoopOut
  extract_lets hit
  split <;> rfl

theorem hbmWrite_sys (a : Nat) (bs : Bytes) (s : State) : (hbmWrite a bs s).sys = s.sys :=
  (hbmPut_sys a bs _).trans (snoopOut_sys a bs.length s)

theorem spaceWrite_sys (space a : Nat) (bs : Bytes) (s : State) : (spaceWrite space a bs s).sys = s.sys := by
  unfold spaceWrite
  split
  · exact hbmWrite_sys a bs s
  · rfl

theorem ringPut_signalled (j : Nat) (rec : Bytes) (s : State) : Signalled s (ringPut j rec s) := by
  have hput (b : Bytes) (x : Ring) (t : State) (ht : t.sys = s.sys) :
      Signalled s ((spaceWrite (s.ring j).space ((s.ring j).slotAddr (s.ring j).tail) b t).setRing j x) :=
    .of_sys ((spaceWrite_sys ..).trans ht)
  have hfresh : ∀ n, (freshBytes n s).2.sys = s.sys := fun _ => rfl
  unfold ringPut
  by_cases hfree : ((s.ring j).kind = 1 && bitOf (s.ring j).posted 1) = true
  · simp only [hfree, if_true]
    split
    · exact (hput _ _ _ (hfresh _)).trans (sendMsix_signalled _ _)
    · exact hput _ _ _ (hfresh _)
  · simp only [hfree]
    split
    · exact (hput _ _ s rfl).trans (sendMsix_signalled _ _)
    · exact hput _ _ s rfl

theorem deliverEvent_signalled (c : Nat) (rec : Bytes) (s : State) : Signalled s (deliverEvent c rec s) := by
  unfold deliverEvent
  extract_lets x
  split
  · split
    · exact (setCtx_signalled _ _ _).trans (ringPut_signalled _ _ _)
    · split <;> exact setCtx_signalled _ _ _
  · split <;> exact setCtx_signalled _ _ _

theorem notify_signalled (c kind seq : Nat) (s : State) : Signalled s (notify c kind seq s) := by
  unfold notify
  split
  · exact setCtx_signalled _ _ _
  · refine Signalled.trans (.of_sys ?_) (deliverEvent_signalled _ _ _)
    rfl

theorem logPush_signalled (kind die : Nat) (data : Bytes) (s : State) : Signalled s (logPush kind die data s) := by
  unfold logPush
  extract_lets sev e aon t
  split
  · refine Signalled.trans (.of_sys ?_) (notify_signalled _ _ _ _)
    rfl
  · exact .of_sys rfl

theorem errTo_signalled (c : Nat) (e : Err) (logSeq : Nat) (s : State) : Signalled s (errTo c e logSeq s) := by
  unfold errTo
  extract_lets key
  split
  · exact .of_sys rfl
  · refine Signalled.trans (.of_sys ?_) (deliverEvent_signalled _ _ _)
    rfl

theorem raise_signalled (e : Err) (s : State) : Signalled s (raise e s) := by
  unfold raise
  extract_lets v seq t u
  have hv : Signalled s v := .of_sys (by
    unfold v
    split <;> rfl)
  have hu : Signalled s u := hv.trans ((logPush_signalled _ _ _ v).trans (errTo_signalled _ _ _ _))
  split
  · exact hu
  · exact hu.trans (errTo_signalled _ _ _ _)

end Sys2Proof.Machine
end

section
/-! PROOFS for 21_reset_boot_errors.md: FUNCTION, WARM and COLD resets, PERST_N, the start of firmware, and links between dies. -/

namespace Sys2Proof.Machine
open Sys2Proof

/-! ### FUNCTION and WARM resets begin (R489, R564, R565, R568, R581) -/

section Begin
variable {s : State}

theorem execPcieFlr_of_absorbed (hlarger : ∃ r ∈ s.sys.resets, 2 ≤ r.kind) : execPcieFlr s = .next s := by
  have hany : s.sys.resets.any (fun r => decide (r.kind ≥ 2)) = true :=
    List.any_eq_true.mpr (hlarger.imp fun r h => ⟨h.1, decide_eq_true h.2⟩)
  refine if_pos ?_
  rw [hany, Bool.or_true]

variable (hdies : s.diesOn = true) (hboot : s.sys.booting = false) (hidle : s.sys.resets = [])
include hdies hboot hidle

theorem execPcieFlr_of_idle : execPcieFlr s = .next (bigReset 2 s.tenants { s with
    host := { s.host with flr := true }, sys := { s.sys with msixOn := false, unmasked := [], pba := [] } }) := by
  refine if_neg ?_
  simp [hdies, hboot, hidle]

theorem warmBegin_of_idle : warmBegin s = bigReset 3 (0 :: s.tenants) { s with sys := { s.sys with sysReset := none } } := by
  refine if_neg ?_
  simp [hdies, hboot, hidle]

theorem execPcieHotReset_of_idle :
    execPcieHotReset s = .next (linkReset (bigReset 3 (0 :: s.tenants) { s with sys := { s.sys with sysReset := none } })) := by
  rw [execPcieHotReset, hdies, warmBegin_of_idle hdies hboot hidle]
  rfl

theorem execPerstNAssert_of_idle : execPerstNAssert s = .next
    (linkReset (bigReset 3 (0 :: s.tenants) { s with sys := { s.sys with perst := false, sysReset := none } })) := by
  have hvin : s.sys.vin = true := by
    rw [State.diesOn, Bool.and_eq_true, Bool.and_eq_true] at hdies
    exact hdies.1.2
  have hwarm := warmBegin_of_idle (s := { s with sys := { s.sys with perst := false } }) hdies hboot hidle
  have hguard : (!s.sys.vin || !s.diesOn) = false := by rw [hvin, hdies]; rfl
  simp only [execPerstNAssert, hwarm]
  exact if_neg (Bool.eq_false_iff.mp hguard)

theorem execWarmReset_of_idle (hwarm : s.sys.sysReset = some 0) (hswap : s.loupe.swap = 0) :
    execWarmReset s = .next (bigReset 3 (0 :: s.tenants) { s with now := s.now + Config.ms, sys := { s.sys with sysReset := none } }) := by
  have htime : atLeast (s.now + Config.ms) s = { s with now := s.now + Config.ms } := by
    rw [atLeast, Nat.max_eq_right (Nat.le_add_right ..)]
  have hguard : (decide (s.sys.sysReset ≠ some 0) || (decide (s.loupe.swap ≠ 0) && s.cfgFront.isSome)) = false := by simp [hwarm, hswap]
  rw [execWarmReset, htime, warmBegin_of_idle (s := { s with now := s.now + Config.ms }) hdies hboot hidle]
  exact if_neg (Bool.eq_false_iff.mp hguard)

end Begin

/-! ### RESET_WRITES_SETTLED (R567, R571) -/

section Settled
variable {s : State} {r : ResetRun} (hrun : s.sys.resets = [r])
include hrun

/-- The reset in progress, settled: its contexts, stopped by now, are released. -/
theorem execResetWritesSettled_of_one {t : State}
    (hready : (if r.kind = 1 then r.begun || r.ctxs.all fun c => (s.txn c).isNone else !(r.kind == 3 && s.loupe.dip.isSome)) = true)
    (ht : release4 (r.kind == 1 && !r.destroy) r.ctxs (if r.begun then { s with sys := { s.sys with resets := [] } }
      else resetStop r.ctxs true { s with sys := { s.sys with resets := [] } }) = t) :
    execResetWritesSettled s =
      if r.kind = 1 then .next (resetOps r.ops t)
      else if r.kind = 2 then .next (planKick (cfgStart (resetOps r.ops { t with
        host := { t.host with flr := false }, units := SMap.mapVals UnitRegs.init (fun u => { u with snap := UnitRegs.init.snap }) t.units })))
      else .next (firmwareStop t) := by
  subst ht
  simp only [execResetWritesSettled, hrun, List.find?_cons, hready, List.erase_cons_head]

theorem execResetWritesSettled_of_context (hkind : r.kind = 1)
    (hready : r.begun = true ∨ (r.begun = false ∧ (r.ctxs.all fun c => (s.txn c).isNone) = true)) :
    execResetWritesSettled s = .next (resetOps r.ops (release4 (!r.destroy) r.ctxs (if r.begun then { s with sys := { s.sys with resets := [] } }
      else resetStop r.ctxs true { s with sys := { s.sys with resets := [] } }))) := by
  refine (execResetWritesSettled_of_one hrun ?_ rfl).trans ?_
  · rw [if_pos hkind]
    obtain h | ⟨_, h⟩ := hready
    · rw [h, Bool.true_or]
    · rw [h, Bool.or_true]
  · have hkeep : (r.kind == 1 && !r.destroy) = !r.destroy := by rw [beq_iff_eq.mpr hkind, Bool.true_and]
    rw [if_pos hkind, hkeep]

variable (hbegun : r.begun = true)
include hbegun

theorem execResetWritesSettled_of_function (hkind : r.kind = 2) {t : State} (ht : release4 false r.ctxs { s with sys := { s.sys with resets := [] } } = t) :
    execResetWritesSettled s = .next (planKick (cfgStart (resetOps r.ops { t with
      host := { t.host with flr := false }, units := SMap.mapVals UnitRegs.init (fun u => { u with snap := UnitRegs.init.snap }) t.units }))) := by
  refine (execResetWritesSettled_of_one hrun (t := t) ?_ ?_).trans ?_
  · simp [hkind]
  · rw [if_pos hbegun, hkind]
    exact ht
  · simp only [hkind, Nat.reduceEqDiff, ↓reduceIte]

theorem execResetWritesSettled_of_warm (hkind : r.kind = 3) (hdip : s.loupe.dip = none) :
    execResetWritesSettled s = .next (firmwareStop (release4 false r.ctxs { s with sys := { s.sys with resets := [] } })) := by
  refine (execResetWritesSettled_of_one hrun ?_ rfl).trans ?_
  · simp [hkind, hdip]
  · rw [if_pos hbegun]
    simp only [hkind, Nat.reduceEqDiff, ↓reduceIte]
    rfl

end Settled

/-! ### COLD_RESET (R538, R566, R582) -/

/-- The supply as a cold reset finds it: the logic is off by then. -/
def coldStart (pod mgmt : Nat) (s : State) : State :=
  let t := if s.diesOn then powerOff (programPending (atLeast (s.now + 11 * Config.ms) s)) else s
  { t with sys := { t.sys with vin := true, sysReset := none, strapPod := pod % 64, strapMgmt := mgmt % 4 } }

theorem execColdReset_of_due {pod mgmt bank : Nat} {temps : List (Nat × Int)} {s u : State} (hvaux : s.sys.vaux = true) (htrip : s.loupe.trip = none)
    (hdue : s.sys.valid = false ∨ s.sys.sysReset = some 1) (hu : coldStart pod mgmt s = u) :
    execColdReset pod mgmt bank temps s = .next (
      if u.loupe.tripped = true ∧ ∃ x ∈ temps, x.1 < 8 ∧ 720 ≤ x.2 then
        logPush 0x23 255 [] { u with loupe := { u.loupe with trip := some u.now, thermtrip := true } }
      else coldBoot bank temps u) := by
  have hsupply : (!s.sys.vaux || s.loupe.trip.isSome) = false := by rw [hvaux, htrip]; rfl
  have hdue' : (s.sys.valid && decide (s.sys.sysReset ≠ some 1)) = false := by
    obtain h | h := hdue <;> simp [h]
  have hhot : (u.loupe.tripped && temps.any (fun t => decide (t.1 < 8 ∧ t.2 ≥ 720))) = true
      ↔ u.loupe.tripped = true ∧ ∃ x ∈ temps, x.1 < 8 ∧ 720 ≤ x.2 := by
    simp only [Bool.and_eq_true, List.any_eq_true, decide_eq_true_eq, ge_iff_le]
  subst hu
  simp only [execColdReset, hsupply, hdue', Bool.false_eq_true, ↓reduceIte]
  rw [apply_ite Host.Outcome.next]
  exact if_congr hhot rfl rfl

/-! ### FIRMWARE_START_PUBLISH (R46, R64, R65) -/

/-- What the start of firmware leaves of the state that it publishes. -/
structure BootKept (s t : State) : Prop where
  sys : Signalled s t
  now : t.now = s.now
  jobs : t.jobs = s.jobs
  mbs : t.mbs = s.mbs
  sram : t.mem.sram = s.mem.sram

namespace BootKept
variable {s t u : State}

theorem refl (s : State) : BootKept s s := ⟨.refl s, rfl, rfl, rfl, rfl⟩

theorem trans (h : BootKept s t) (g : BootKept t u) : BootKept s u :=
  ⟨h.sys.trans g.sys, g.now.trans h.now, g.jobs.trans h.jobs, g.mbs.trans h.mbs, g.sram.trans h.sram⟩

theorem of_tells (h : Tells s t) (g : Signalled s t) : BootKept s t :=
  ⟨g, by rw [h]; rfl, by rw [h]; rfl, by rw [h]; rfl, by rw [h]; rfl⟩

theorem foldl {α : Type} {f : State → α → State} (hf : ∀ s x, BootKept s (f s x)) (l : List α) (s : State) : BootKept s (l.foldl f s) := by
  induction l generalizing s with
  | nil => exact .refl s
  | cons x l ih => exact (hf s x).trans (ih _)

theorem setUnit (s : State) (ty inst : Nat) (x : UnitRegs) : BootKept s (s.setUnit ty inst x) := ⟨.of_sys rfl, rfl, rfl, rfl, rfl⟩
theorem updPort (s : State) (p : Nat) (f : Port → Port) : BootKept s (s.updPort p f) := ⟨.of_sys rfl, rfl, rfl, rfl, rfl⟩
theorem setTxn (s : State) (x : Txn) : BootKept s (setTxn x s) := ⟨.of_sys rfl, rfl, rfl, rfl, rfl⟩

end BootKept

theorem reapply_eq (s : State) : reapply s = { s with units := (reapply s).units } :=
  List.foldlRecOn (motive := fun t : State => t = { s with units := t.units }) s.loupe.planned _ rfl fun t ht i _ => by
    rw [ht]
    rfl

theorem portTo_bootKept (p st : Nat) (s : State) : BootKept s (portTo p st s) := by
  unfold portTo
  split
  · exact .refl s
  · exact (BootKept.updPort ..).trans (.of_tells (logPush_tells ..) (logPush_signalled ..))

theorem sealCheck_bootKept (s : State) : BootKept s (sealCheck s) := ⟨.of_sys rfl, rfl, rfl, rfl, rfl⟩

theorem lostRecords_bootKept (s : State) : BootKept s (lostRecords s) := by
  have hraise (b : Bool) (e : Err) (t : State) : BootKept t (if b then raise e t else t) := by
    split
    · exact .of_tells (raise_tells ..) (raise_signalled ..)
    · exact .refl t
  exact ((hraise _ _ s).trans (hraise _ _ _)).trans ⟨.of_sys rfl, rfl, rfl, rfl, rfl⟩

theorem cfgStart_bootKept (s : State) : BootKept s (cfgStart s) := by
  unfold cfgStart
  split
  · exact (BootKept.setTxn ..).trans (.foldl (fun s _ => .setUnit s ..) _ _)
  · exact .refl s

theorem planKick_bootKept (s : State) : BootKept s (planKick s) := by
  unfold planKick
  split
  · split
    · exact .refl s
    · extract_lets id t u first w v
      have hv : BootKept s v := ⟨.of_sys rfl, rfl, rfl, rfl, rfl⟩
      split
      · exact hv.trans (cfgStart_bootKept v)
      · exact hv
  · exact .refl s

/-- The registers of a part whose firmware starts: the table of STAGE 2 is published, and then the fields of IDENT. -/
def startedSys (s : State) : Sys := { s.sys with
  stage := 2, gen := (s.sys.gen + 1) % 2 ^ 32, sciMajor := 1, sciMinor := Config.sciMinorOf s.sec.sciFw % 256, fwStart := s.now, booting := false
  warm := false, pubOos := (reapply s).units.filterMap fun u => if u.2.oos then some u.1 else none }

theorem execFirmwareStartPublish_of_ready {s : State} (hboot : s.sys.booting = true) (hdies : s.diesOn = true) (hstage : s.sys.stage = 1)
    (hidle : s.sys.resets = []) (hperst : s.sys.warm = false ∨ s.sys.perst = true) :
    ∃ t, execFirmwareStartPublish s = .next t ∧ BootKept { s with sys := startedSys s } t := by
  have hguard : (!s.sys.booting || !s.diesOn || decide (s.sys.stage ≠ 1) || !s.sys.resets.isEmpty || (s.sys.warm && !s.sys.perst)) = false := by
    obtain h | h := hperst <;> simp [hboot, hdies, hstage, hidle, h]
  unfold execFirmwareStartPublish
  rw [if_neg (Bool.eq_false_iff.mp hguard)]
  extract_lets a oos w b c
  have heq : b = { s with sys := startedSys s, units := (reapply s).units } := by
    unfold b w oos a
    rw [reapply_eq s]
    rfl
  have hb : BootKept { s with sys := startedSys s } b := by
    rw [heq]
    exact ⟨.of_sys rfl, rfl, rfl, rfl, rfl⟩
  have hc : BootKept b c := by
    refine .foldl (fun t p => ?_) _ b
    split
    · exact portTo_bootKept ..
    · exact .refl t
  exact ⟨_, rfl, hb.trans (hc.trans ((sealCheck_bootKept c).trans ((lostRecords_bootKept _).trans (planKick_bootKept _))))⟩

/-! ### FATAL_ERROR and SPINE_LINK_DOWN (R26, R574, R578) -/

theorem fatalError_of_live {c : Nat} {s : State} (hlive : s.isFatal = false) :
    ∃ e, fatalError c s = { raise e s with sys := { (raise e s).sys with fatal := c } } := by
  unfold fatalError
  rw [if_neg (Bool.eq_false_iff.mp hlive)]
  exact ⟨_, rfl⟩

theorem execFatalError_of_live {c : Nat} {s : State} (hdies : s.diesOn = true) (hlow : 0xF ≤ c) (hhigh : c ≤ 0x11) (hlive : s.isFatal = false) :
    ∃ t, Tells s t ∧ execFatalError c s = .next { t with sys := { t.sys with fatal := c } } := by
  have hguard : (!s.diesOn || decide (c < 0xF) || decide (c > 0x11)) = false := by simp [hdies]; omega
  obtain ⟨e, he⟩ := fatalError_of_live (c := c) hlive
  exact ⟨raise e s, raise_tells e s, (if_neg (Bool.eq_false_iff.mp hguard)).trans (congrArg Host.Outcome.next he)⟩

theorem execSpineLinkDown_of_up {k : Nat} {s u v t : State} {near : List Nat} (hdies : s.diesOn = true) (hk : k < 22)
    (hup : s.sys.linksDown.contains k = false) (hu : { s with sys := { s.sys with linksDown := NSet.ins k s.sys.linksDown } } = u)
    (hv : (if k ≥ 14 then u.updChan (k - 14) fun c => { c with route := u.chanRoute (k - 14) } else u) = v)
    (hnear : ((s.rings.filter fun r => r.2.st != 0 && r.2.unitType != 0 && (let d := Config.dieOf r.2.unitType r.2.unitInst
      let e := (linkEnds[k]?).getD (8, 8)
      d == e.1 || d == e.2)).map fun r => r.2.ctx) = near)
    (ht : raiseUnit { code := 8, status := 0x1FF, flags := 0, ty := Config.tLink, inst := k, ctx := 255, ring := 0xFFFF, index := 0, addr := 0
                      space := 0 } near v = t) :
    execSpineLinkDown k s = .next (if t.isolated then fatalError 0x10 t else t) := by
  have hguard : (!s.diesOn || decide (k ≥ 22) || s.sys.linksDown.contains k) = false := by
    rw [hdies, hup, decide_eq_false (Nat.not_le.mpr hk)]
    rfl
  have hrings : v.rings = s.rings := by
    rw [← hv, ← hu]
    split <;> rfl
  unfold execSpineLinkDown
  rw [if_neg (Bool.eq_false_iff.mp hguard)]
  simp only [hu, hv, hrings, hnear]
  rw [← ht]
  rfl

/-- Settles O43: each event by the branch that its hypotheses take. -/
theorem deviceResets : Obligations.DeviceResets := by
  unfold Obligations.DeviceResets
  intro s
  refine ⟨?flr, ?absorbed, ?hot, ?perst, rfl, ?warm, ?context, ?waited, ?function, ?settled, ?cold, ?publish, ?fatal, ?link⟩
  case flr => exact execPcieFlr_of_idle
  case absorbed => exact fun _ hlarger => execPcieFlr_of_absorbed hlarger
  case hot => exact execPcieHotReset_of_idle
  case perst => exact execPerstNAssert_of_idle
  case warm => exact fun hwarm hswap hdies hboot hidle => execWarmReset_of_idle hdies hboot hidle hwarm hswap
  case context =>
    intro r hrun hbegun hkind
    exact (execResetWritesSettled_of_context hrun hkind (.inl hbegun)).trans (by rw [if_pos hbegun])
  case waited =>
    intro r hrun hwait hkind hnone
    exact (execResetWritesSettled_of_context hrun hkind (.inr ⟨hwait, hnone⟩)).trans (by rw [if_neg (Bool.eq_false_iff.mp hwait)])
  case function => exact fun r hrun hbegun hkind => execResetWritesSettled_of_function hrun hbegun hkind rfl
  case settled => exact fun r hrun hbegun hkind hdip => execResetWritesSettled_of_warm hrun hbegun hkind hdip
  case cold => exact fun pod mgmt bank temps hvaux htrip hdue => execColdReset_of_due hvaux htrip hdue rfl
  case publish =>
    intro hboot hdies hstage hidle hperst
    obtain ⟨t, ht, hsys, hnow, hjobs, hmbs, hsram⟩ := execFirmwareStartPublish_of_ready hboot hdies hstage hidle hperst
    refine ⟨t, ht, ?_, ?_, ?_, ?_, ?_, ?_, hjobs, hmbs, hsram⟩
    case refine_6 =>
      rw [State.running, hsys]
      rfl
    all_goals
      rw [hsys]
      rfl
  case fatal =>
    intro c hdies hlow hhigh hlive
    obtain ⟨t, htells, ht⟩ := execFatalError_of_live hdies hlow hhigh hlive
    have hjobs : t.jobs = s.jobs := by rw [htells]; rfl
    have hmbs : t.mbs = s.mbs := by rw [htells]; rfl
    have hcores : t.cores = s.cores := by rw [htells]; rfl
    refine ⟨_, ht, rfl, ?_, hjobs, hmbs, hcores⟩
    exact bne_iff_ne.mpr (Nat.ne_of_gt (Nat.lt_of_lt_of_le (by decide) hlow))
  case link => exact fun k hdies hk hup => execSpineLinkDown_of_up hdies hk hup rfl rfl rfl rfl

end Sys2Proof.Machine
end

section
/-! PROOFS for 17_host_and_network_ports.md: CXL.mem, snoops, host segments, links, IDE and MSI-X. -/

namespace Sys2Proof.Machine
open Sys2Proof

/-! ### CXL.mem (R483–R485, R517) -/

/-- `t` is `s` but for what the Host Port holds and for the registers of units. -/
def PortWithin (s t : State) : Prop := t = { s with host := t.host, units := t.units }

namespace PortWithin
variable {s t u : State}

theorem refl (s : State) : PortWithin s s := rfl

theorem trans (h : PortWithin s t) (g : PortWithin t u) : PortWithin s u := by
  unfold PortWithin at *
  rw [h] at g
  exact g

variable (h : PortWithin s t)
include h

theorem mem : t.mem = s.mem := by rw [h]
theorem rings : t.rings = s.rings := by rw [h]
theorem hostView (a : Nat) : t.hostView a = s.hostView a := by rw [h]; rfl

end PortWithin

theorem hpCnt_portWithin (n k : Nat) (s : State) : PortWithin s (hpCnt n k s) := by
  unfold hpCnt
  split <;> rfl

theorem hpCnt_host (n k : Nat) (s : State) : (hpCnt n k s).host = s.host := by
  unfold hpCnt
  split <;> rfl

/-- What the filter does with a line: it takes it in, in place of the line inserted first where it is full. -/
theorem snoopTrack_cases (l : Nat) (m : Bool) (s : State) :
    (∃ rest, snoopTrack l m s = { s with host := { s.host with snoop := rest ++ [(l, m)] } })
    ∨ ∃ rest o, snoopTrack l m s = hpCnt 6 1 { s with host := { s.host with
        snoop := rest ++ [(l, m)], bisnp := s.host.bisnp ++ [o], sent := s.host.sent ++ [o] } } := by
  have hroom : ([] : List (Nat × Bool)).length < snoopLines := by decide
  cases hrest : s.host.snoop.filter fun x => x.1 != l with
  | nil => exact .inl ⟨[], by simp only [snoopTrack, hrest, if_pos hroom]⟩
  | cons o rest =>
    by_cases hfree : (o :: rest).length < snoopLines
    · exact .inl ⟨o :: rest, by simp only [snoopTrack, hrest, if_pos hfree]⟩
    · exact .inr ⟨rest, o.1, by simp only [snoopTrack, hrest, if_neg hfree]⟩

theorem snoopTrack_portWithin (l : Nat) (m : Bool) (s : State) : PortWithin s (snoopTrack l m s) := by
  obtain ⟨rest, h⟩ | ⟨rest, o, h⟩ := snoopTrack_cases l m s <;> rw [h]
  · rfl
  · refine PortWithin.trans ?_ (hpCnt_portWithin ..)
    rfl

theorem snoopTrack_rdata (l : Nat) (m : Bool) (s : State) : (snoopTrack l m s).host.rdata = s.host.rdata := by
  obtain ⟨rest, h⟩ | ⟨rest, o, h⟩ := snoopTrack_cases l m s <;> rw [h]
  rw [hpCnt_host]

/-- The filter then tracks the line. -/
theorem mem_snoopTrack (l : Nat) (m : Bool) (s : State) : (l, m) ∈ (snoopTrack l m s).host.snoop := by
  have hlast (rest : List (Nat × Bool)) : (l, m) ∈ rest ++ [(l, m)] := List.mem_append_right _ (List.mem_singleton_self _)
  obtain ⟨rest, h⟩ | ⟨rest, o, h⟩ := snoopTrack_cases l m s <;> rw [h]
  · exact hlast rest
  · rw [hpCnt_host]
    exact hlast rest

theorem length_fitTo (n : Nat) (bs : Bytes) : (fitTo n bs).length = n := by
  induction n generalizing bs with
  | zero => rfl
  | succ n ih => rw [fitTo, List.length_cons, ih]

theorem hbmPut_mem (a : Nat) (bs : Bytes) (s : State) : (hbmPut a bs s).mem = { s.mem with
    hbm := Mem.write s.mem.hbm a bs, hbmPoison := s.mem.hbmPoison.filter fun l => !coversLine a bs.length l } := by
  unfold hbmPut
  extract_lets n part t u
  split <;> rfl

theorem hbmPut_host (a : Nat) (bs : Bytes) (s : State) : (hbmPut a bs s).host = s.host := by
  unfold hbmPut
  extract_lets n part t u
  split <;> rfl

section Line
variable {l : Nat} {s : State}

theorem hostLine_of_hidden (hview : s.hostView (64 * l) = none) (data : Bytes) (enable : Nat) : hostLine l data enable s = s := by
  simp only [hostLine, hview]

/-- A whole line of plain memory is written as it came. -/
theorem hostLine_of_whole (hview : s.hostView (64 * l) = some none) (data : Bytes) :
    hostLine l data (2 ^ 64 - 1) s = hbmPut (64 * l) (fitTo 64 data) s := by
  have hwhole : ((List.range 64).all fun i => bitOf (2 ^ 64 - 1) i) = true := by decide
  simp only [hostLine, hview, hwhole, ↓reduceIte]

/-- The bytes of a whole line that the host wrote, and those around them. -/
theorem hostLine_hbm (hview : s.hostView (64 * l) = some none) (hwf : s.mem.wf = true) (data : Bytes) :
    (hostLine l data (2 ^ 64 - 1) s).hbmRead (64 * l) 64 = fitTo 64 data
    ∧ ∀ x, x < 64 * l ∨ 64 * l + 64 ≤ x → Mem.get (hostLine l data (2 ^ 64 - 1) s).mem.hbm x = Mem.get s.mem.hbm x := by
  have hlen : (fitTo 64 data).length = 64 := length_fitTo ..
  rw [hostLine_of_whole hview, State.hbmRead, hbmPut_mem]
  generalize fitTo 64 data = bs at hlen ⊢
  have hread := Mem.read_write (64 * l) bs ((Mems.wf_iff _).mp hwf).1
  rw [hlen] at hread
  exact ⟨hread, fun x hx => Mem.get_write_other s.mem.hbm bs (hlen ▸ hx)⟩

end Line

section Cxl
variable {a l : Nat} {s : State} (hl : a / 64 = l) (hopen : s.hdmOpen = true) (hfree : l ∉ s.host.bisnp)
include hopen hfree

theorem cxl_served : (!s.hdmOpen || s.host.bisnp.contains l) = false := by
  have hnot : s.host.bisnp.contains l = false := by simpa using hfree
  rw [hopen, hnot]
  rfl

variable (hin : 64 * l + 64 ≤ Config.hbmBytes)
include hl hin

/-- A read of a page that the host does not see answers all ones. -/
theorem execCxlMemRead_of_hidden (hview : s.hostView (64 * l) = none) : ∃ t, execCxlMemRead a none s = .next t ∧ PortWithin s t
    ∧ t.host.rdata = s.host.rdata ++ [(64 * l, false, List.replicate 64 0xFF)] := by
  have hcnt : PortWithin s (hpCnt 4 1 (hpCnt 0 64 s)) := (hpCnt_portWithin ..).trans (hpCnt_portWithin ..)
  have hview' := (hcnt.hostView (64 * l)).trans hview
  subst hl
  simp only [execCxlMemRead, cxl_served hopen hfree, if_neg (Nat.not_lt.mpr hin), hview', Bool.false_eq_true, ↓reduceIte]
  refine ⟨_, rfl, hcnt.trans rfl, ?_⟩
  rw [hpCnt_host, hpCnt_host]

/-- The counts and the reply of a read that brings the line's bytes. -/
def cxlReplied (a : Nat) (s : State) : State :=
  let t := bump Config.tHbm (stackOf a) 0 64 (hpCnt 4 1 (hpCnt 0 64 s))
  { t with host := { s.host with rdata := s.host.rdata ++ [(64 * (a / 64), false, s.hbmRead (64 * (a / 64)) 64)] } }

omit hopen hfree hl hin in
theorem cxlReplied_portWithin : PortWithin s (cxlReplied a s) :=
  ((hpCnt_portWithin 0 64 s).trans (hpCnt_portWithin 4 1 _)).trans rfl

theorem execCxlMemRead_of_plain (hview : s.hostView (64 * l) = some none) (hgood : s.hbmBad (64 * l) 64 = false) (own : Option Bytes) :
    execCxlMemRead a own s = .next (own.elim (snoopTrack l false (cxlReplied a s)) fun d =>
      hostLine l d (2 ^ 64 - 1) (snoopTrack l true (cxlReplied a s))) := by
  have hcnt : PortWithin s (hpCnt 4 1 (hpCnt 0 64 s)) := (hpCnt_portWithin ..).trans (hpCnt_portWithin ..)
  have hview' := (hcnt.hostView (64 * l)).trans hview
  have hgood' : (bump Config.tHbm (stackOf a) 0 64 (hpCnt 4 1 (hpCnt 0 64 s))).hbmBad (64 * l) 64 = false := hgood
  subst hl
  simp only [execCxlMemRead, cxl_served hopen hfree, if_neg (Nat.not_lt.mpr hin), hview', hgood', Bool.false_eq_true, ↓reduceIte]
  cases own <;> rfl

theorem execCxlMemWrite_of_within (data : Bytes) (enable : Nat) : ∃ t, PortWithin s t ∧ (∀ m, (l, m) ∉ t.host.snoop)
    ∧ execCxlMemWrite a data enable s = .next (hostLine l data enable t) := by
  have hcnt : PortWithin s (hpCnt 5 1 (hpCnt 1 64 s)) := (hpCnt_portWithin ..).trans (hpCnt_portWithin ..)
  subst hl
  simp only [execCxlMemWrite, cxl_served hopen hfree, if_neg (Nat.not_lt.mpr hin), Bool.false_eq_true, ↓reduceIte]
  refine ⟨_, hcnt.trans ?_, fun m hm => ?_, rfl⟩
  · rfl
  · exact bne_iff_ne.mp (List.mem_filter.mp hm).2 rfl

end Cxl

/-! ### Back-invalidations (R484) -/

theorem execBisnpResponse_of_sent {l : Nat} {s : State} (h : l ∈ s.host.bisnp) :
    execBisnpResponse l s = .next { s with host := { s.host with bisnp := s.host.bisnp.filter (· ≠ l) } } :=
  if_pos (List.contains_iff_mem.mpr h)

theorem execBisnpResponse_of_modified {l : Nat} {s : State} (h : l ∉ s.host.bisnp) (hheld : (l, true) ∈ s.host.snoop) :
    execBisnpResponse l s = .next (hpCnt 6 1 { s with host := { s.host with
      snoop := s.host.snoop.filter (fun x => x.1 != l), sent := s.host.sent ++ [l] } }) :=
  (if_neg (mt List.contains_iff_mem.mp h)).trans (if_pos (List.contains_iff_mem.mpr hheld))

theorem execBisnpResponse_of_unheld {l : Nat} {s : State} (h : l ∉ s.host.bisnp) (hheld : (l, true) ∉ s.host.snoop) :
    execBisnpResponse l s = .next s :=
  (if_neg (mt List.contains_iff_mem.mp h)).trans (if_neg (mt List.contains_iff_mem.mp hheld))

/-! ### Completions (R171, R487, R488) -/

section Segment
variable {ring seg : Nat} {c : Cur} {g : Seg} {s : State} (hring : ring < Config.rings) (hseg : s.hostSeg ring seg = some (c, g))
include hring

theorem execHostCompletionTimeout_of_segment : execHostCompletionTimeout ring seg s = .next (hostFail ring seg 1 s) := by
  rw [execHostCompletionTimeout, if_neg (Nat.not_le.mpr hring)]

include hseg

theorem execHostReadCompletion_of_refused : execHostReadCompletion ring seg 1 s = .next (hostFail ring seg 2 s) := by
  simp only [execHostReadCompletion, if_neg (Nat.not_le.mpr hring), hseg, ↓reduceIte]

theorem execHostReadCompletion_of_poison : execHostReadCompletion ring seg 2 s = .next (hostFail ring seg 3 s) := by
  simp only [execHostReadCompletion, if_neg (Nat.not_le.mpr hring), hseg, Nat.reduceEqDiff, ↓reduceIte]

/-- The data of a segment come: the device cache holds their lines, and nothing else changes. -/
theorem execHostReadCompletion_of_data : ∃ t, execHostReadCompletion ring seg 0 s = .next t ∧ PortWithin s t := by
  have hcnt (n m : Nat) : PortWithin s (hpCnt 2 n (hpCnt 3 m s)) := (hpCnt_portWithin ..).trans (hpCnt_portWithin ..)
  simp only [execHostReadCompletion, if_neg (Nat.not_le.mpr hring), hseg, Nat.reduceEqDiff, ↓reduceIte]
  split
  · exact ⟨_, rfl, hcnt _ _⟩
  · exact ⟨_, rfl, (hcnt _ _).trans rfl⟩

end Segment

section Image
variable {img w : Nat} {x : ImgWrite} {s : State} (hwrite : ((s.image img).bind fun g => g.writes[w]?) = some x) (hkind : x.kind = 1)
  (hlive : s.isFatal = false)
include hwrite hkind hlive

theorem hostImgFail_of_host (bit : Nat) : hostImgFail img w bit s = imgHostFault img w (hpErr bit x.ctx (x.src + (x.pos - x.from_)) s) := by
  have hhost : (decide (x.kind = 1) && !s.isFatal) = true := by rw [decide_eq_true hkind, hlive]; rfl
  simp only [hostImgFail, hwrite, hhost, ↓reduceIte]

theorem execHostCompletionTimeout_of_image : execHostCompletionTimeout (Config.rings + img) w s
    = .next (imgHostFault img w (hpErr 1 x.ctx (x.src + (x.pos - x.from_)) s)) := by
  rw [execHostCompletionTimeout, if_pos (Nat.le_add_right ..), Nat.add_sub_cancel_left, hostImgFail_of_host hwrite hkind hlive]

theorem execHostReadCompletion_of_image_refused : execHostReadCompletion (Config.rings + img) w 1 s
    = .next (imgHostFault img w (hpErr 2 x.ctx (x.src + (x.pos - x.from_)) s)) := by
  simp only [execHostReadCompletion, if_pos (Nat.le_add_right ..), Nat.add_sub_cancel_left, hostImgFail_of_host hwrite hkind hlive, ↓reduceIte]

theorem execHostReadCompletion_of_image_poison : execHostReadCompletion (Config.rings + img) w 2 s
    = .next (imgHostFault img w (hpErr 3 x.ctx (x.src + (x.pos - x.from_)) s)) := by
  simp only [execHostReadCompletion, if_pos (Nat.le_add_right ..), Nat.add_sub_cancel_left, hostImgFail_of_host hwrite hkind hlive,
    Nat.reduceEqDiff, ↓reduceIte]

end Image

/-! ### Links, MSI-X, IDE (R480, R482, R483, R488, R518) -/

section Link
variable {s : State} (hup : s.host.up = true)
include hup

theorem execHostLinkDown_of_up : execHostLinkDown s = .next (hostWritesEnd (hostTasksEnd (hpErr 5 0 0 { s with host := { s.host with
    up := false, cxl := false, width := 0, rate := 0 } }))) := by
  refine if_neg ?_
  rw [hup]
  exact Bool.false_ne_true

theorem execHostLinkUp_of_up (width rate : Nat) (cxl : Bool) : execHostLinkUp width rate cxl s = .next s := by
  refine if_pos ?_
  rw [hup]
  rfl

theorem execMsixUnmask_of_vector {v : Nat} (hv : v < 2048) {t : State} (ht : { s with sys := { s.sys with
      msixOn := true, unmasked := NSet.ins v s.sys.unmasked, pba := NSet.del v s.sys.pba } } = t) :
    execMsixUnmask v s = .next (if s.sys.pba.contains v then sendMsix v t else t) := by
  subst ht
  refine if_neg ?_
  rw [hup, decide_eq_false (Nat.not_le.mpr hv)]
  exact Bool.false_ne_true

theorem execIdeIntegrityFailure_of_secure (hide : s.sys.ideLink = true ∨ s.sys.ideCxl = true) :
    execIdeIntegrityFailure s = .next (hpErr 4 0 0 { s with sys := { s.sys with ideLink := false, ideCxl := false } }) := by
  refine if_neg ?_
  obtain h | h := hide <;> simp [hup, h]

theorem execIdeKmKeyProgram_of_session (hsession : s.sec.session.contains 0 = true) (link cxl : Bool) :
    execIdeKmKeyProgram link cxl s = .next { s with sys := { s.sys with
      ideLink := s.sys.ideLink || link, ideCxl := s.sys.ideCxl || (cxl && s.host.cxl) } } := by
  refine if_neg ?_
  rw [hup, hsession]
  exact Bool.false_ne_true

theorem execHdmDecoderCommit_of_cxl (hcxl : s.host.cxl = true) (base : Nat) :
    execHdmDecoderCommit base s = .next { s with host := { s.host with hdm := base + 1 } } := by
  refine if_neg ?_
  rw [hup, hcxl]
  exact Bool.false_ne_true

end Link

theorem execHostLinkUp_of_down {s : State} (hdown : s.host.up = false) (hvin : s.sys.vin = true) (hperst : s.sys.perst = true)
    (width rate : Nat) (cxl : Bool) : execHostLinkUp width rate cxl s = .next (completeLate { s with host := { s.host with
      up := true, width := width % 32, rate := rate % 256
      cxl := cxl && decide (rate = 32 ∨ rate = 64) && decide (width = 16 ∨ width = 8) } }) := by
  refine if_neg ?_
  rw [hdown, hvin, hperst]
  exact Bool.false_ne_true

/-- Settles O59: each event of the port by the branch that its hypotheses take. -/
theorem hostPortEvents : Obligations.HostPortEvents := by
  unfold Obligations.HostPortEvents
  intro s
  refine ⟨?cxl, ?bisnp, ?segment, ?image, execHostLinkDown_of_up, ?up, fun hup v hv => execMsixUnmask_of_vector hup hv rfl,
    execIdeIntegrityFailure_of_secure, fun hup hsession link cxl => execIdeKmKeyProgram_of_session hup hsession link cxl,
    fun base hup hcxl => execHdmDecoderCommit_of_cxl hup hcxl base⟩
  case cxl =>
    intro a l hopen hfree hin
    have hreplied : PortWithin s (cxlReplied a s) := cxlReplied_portWithin
    refine ⟨fun hview => ?hidden, fun hview hgood => ?shared, fun data hview hgood hwf => ?owned, fun data en hview hen hwf => ?whole,
      fun data en hview => ?lost⟩
    case hidden =>
      obtain ⟨t, ht, hwithin, hdata⟩ := execCxlMemRead_of_hidden rfl hopen hfree hin hview
      exact ⟨t, ht, hwithin.mem, hdata⟩
    case shared =>
      refine ⟨_, execCxlMemRead_of_plain rfl hopen hfree hin hview hgood none, ?_, ?_, ?_⟩
      · exact (hreplied.trans (snoopTrack_portWithin ..)).mem
      · exact snoopTrack_rdata ..
      · exact mem_snoopTrack ..
    case owned =>
      have hwithin := hreplied.trans (snoopTrack_portWithin l true _)
      have hview' := (hwithin.hostView (64 * l)).trans hview
      obtain ⟨hline, hothers⟩ := hostLine_hbm hview' (hwithin.mem ▸ hwf) data
      refine ⟨_, execCxlMemRead_of_plain rfl hopen hfree hin hview hgood (some data), ?_, ?_, hline, fun x hx => ?_⟩
      · rw [Option.elim_some, hostLine_of_whole hview', hbmPut_host, snoopTrack_rdata]
        rfl
      · rw [Option.elim_some, hostLine_of_whole hview', hbmPut_host]
        exact mem_snoopTrack ..
      · exact (hothers x hx).trans (congrArg (fun m : Mems => Mem.get m.hbm x) hwithin.mem)
    case whole =>
      subst hen
      obtain ⟨t, hwithin, hsnoop, ht⟩ := execCxlMemWrite_of_within rfl hopen hfree hin data (2 ^ 64 - 1)
      have hview' := (hwithin.hostView (64 * l)).trans hview
      obtain ⟨hline, hothers⟩ := hostLine_hbm hview' (hwithin.mem ▸ hwf) data
      refine ⟨_, ht, hline, fun x hx => (hothers x hx).trans (congrArg (fun m : Mems => Mem.get m.hbm x) hwithin.mem), ?_⟩
      rw [hostLine_of_whole hview', hbmPut_host]
      exact hsnoop
    case lost =>
      obtain ⟨t, hwithin, _, ht⟩ := execCxlMemWrite_of_within rfl hopen hfree hin data en
      refine ⟨_, ht, ?_⟩
      rw [hostLine_of_hidden ((hwithin.hostView (64 * l)).trans hview)]
      exact hwithin.mem
  case bisnp =>
    intro l
    refine ⟨execBisnpResponse_of_sent, fun h hheld => ?modified, execBisnpResponse_of_unheld, rfl⟩
    case modified =>
      refine ⟨_, execBisnpResponse_of_modified h hheld, ?_, fun m hm => ?_, (hpCnt_portWithin ..).mem⟩
      · rw [hpCnt_host]
      · rw [hpCnt_host] at hm
        exact bne_iff_ne.mp (List.mem_filter.mp hm).2 rfl
  case segment =>
    intro ring seg c g hring hseg
    obtain ⟨t, ht, hwithin⟩ := execHostReadCompletion_of_data hring hseg
    exact ⟨execHostCompletionTimeout_of_segment hring, execHostReadCompletion_of_refused hring hseg, execHostReadCompletion_of_poison hring hseg,
      t, ht, hwithin.mem, hwithin.rings⟩
  case image =>
    intro img w x hwrite hkind hlive fault
    exact ⟨execHostCompletionTimeout_of_image hwrite hkind hlive, execHostReadCompletion_of_image_refused hwrite hkind hlive,
      execHostReadCompletion_of_image_poison hwrite hkind hlive⟩
  case up =>
    exact fun width rate cxl => ⟨fun hdown hvin hperst => execHostLinkUp_of_down hdown hvin hperst width rate cxl,
      fun hup => execHostLinkUp_of_up hup width rate cxl⟩

end Sys2Proof.Machine
end

section
/-! PROOFS for 19_loupe_power_thermal_ageing.md: the commands of group 0x0A. -/

namespace Sys2Proof.Machine
open Sys2Proof

section Run
variable {i : Iss} {p : Bytes} {s : State}

/-! ### Sensors, log, caps (R533, R546, R551, R552) -/

theorem specLoupeSensors_run_of_die (h : field p 0 1 ≤ 7 ∨ field p 0 1 = 255) : specLoupeSensors.run i p s = .ok (s.sensors (field p 0 1)) s := by
  refine if_neg ?_
  obtain h | h := h <;> simp [h]

theorem specLoupeLogRead_run_of_count (h : 1 ≤ field p 8 4 ∧ field p 8 4 ≤ 16384) :
    specLoupeLogRead.run i p s = .ok ((s.logRange (field p 0 8) (field p 8 4)).flatMap LogEntry.bytes) s := by
  refine if_neg ?_
  simp
  omega

theorem specLoupePowerCap_run_of_caps (hlow : 300 ≤ field p 0 2) (hhigh : field p 0 2 ≤ 700) (hle : field p 0 2 ≤ field p 2 2)
    (hburst : field p 2 2 ≤ 950) : specLoupePowerCap.run i p s = .ok (leBytes 2 s.loupe.capS ++ leBytes 2 s.loupe.capB)
      { s with loupe := { s.loupe with capNext := some (field p 0 2, field p 2 2) } } := by
  refine (if_neg ?_).trans (if_neg ?_)
  · simp
    omega
  · simp
    omega

/-! ### Firmware (R549, R550) -/

theorem specLoupeFwStage_run {sp n : Nat} (hspace : field p 8 1 = sp) (hn : field p 12 4 = n) (hsp : sp ≤ 1) (hpos : 0 < n) (hmax : n ≤ 32 * 2 ^ 20)
    (hstaging : s.loupe.staging = none) (htrial : s.loupe.trial = none) (hreach : s.reach i.ctx sp (field p 0 8) n = true)
    (hgood : s.spaceBad sp (field p 0 8) n = false) :
    specLoupeFwStage.run i p s = .pend { s with loupe := { s.loupe.setSlot (1 - s.sys.slot) { s.loupe.slotOf (1 - s.sys.slot) with cond := 0 } with
      staging := some (i.ctx, i.handle, s.spaceRead sp (field p 0 8) n) } } := by
  have hlen : (decide (n = 0) || decide (n > 32 * 2 ^ 20)) = false := by simp; omega
  have hidle : s.loupe.staging.isSome = false := by rw [hstaging]; rfl
  have hdone : s.loupe.trial.isSome = false := by rw [htrial]; rfl
  simp only [specLoupeFwStage, hspace, hn, if_neg (Nat.not_lt.mpr hsp), hlen, hidle, hdone, hreach, hgood, Bool.not_true, Bool.false_eq_true,
    ↓reduceIte]
  rfl

theorem specLoupeFwActivate_run_activate (hop : field p 0 1 = 0) (hdip : s.loupe.dip = none) (hstudent : s.studentHolds = false ∨ field p 1 1 = 1)
    (hstaged : (s.loupe.slotOf (1 - s.sys.slot)).cond = 1) :
    specLoupeFwActivate.run i p s = .ok [] { s with
      sys := { s.sys with sysReset := some (s.sys.sysReset.getD 0) }, loupe := { s.loupe with swap := 1 } } := by
  have hsteady : s.loupe.dip.isSome = false := by rw [hdip]; rfl
  have hforced : (s.studentHolds && decide (field p 1 1 = 0)) = false := by
    obtain h | h := hstudent <;> simp [h]
  simp only [specLoupeFwActivate, hop, hsteady, hforced, if_neg (not_not.mpr hstaged), Bool.false_eq_true, ↓reduceIte]

theorem specLoupeFwActivate_run_commit (hop : field p 0 1 = 1) (hdip : s.loupe.dip = none) (hburning : s.loupe.burning = none)
    (hnew : s.loupe.trial.isSome = true ∨ s.sys.rollback < s.sys.svn) :
    specLoupeFwActivate.run i p s = .pend { s with loupe := { s.loupe with trial := none, burning := some (i.ctx, i.handle) } } := by
  have hidle : (s.loupe.dip.isSome || s.loupe.burning.isSome) = false := by rw [hdip, hburning]; rfl
  have hnew' : (s.loupe.trial.isNone && decide (s.sys.rollback ≥ s.sys.svn)) = false := by
    obtain h | h := hnew
    · rw [Option.isNone_eq_false_iff.mpr h, Bool.false_and]
    · rw [decide_eq_false (Nat.not_le.mpr h), Bool.and_false]
  simp only [specLoupeFwActivate, hop, hidle, hnew', Nat.reduceEqDiff, Bool.false_eq_true, ↓reduceIte]
  rfl

theorem specLoupeFwActivate_run_revert (hop : field p 0 1 = 2) (hfallback : (s.loupe.slotOf (1 - s.sys.slot)).cond = 2) :
    specLoupeFwActivate.run i p s = .ok [] { s with
      sys := { s.sys with sysReset := some (s.sys.sysReset.getD 0) }, loupe := { s.loupe with swap := 2 } } := by
  simp only [specLoupeFwActivate, hop, if_neg (not_not.mpr hfallback), Nat.reduceEqDiff, ↓reduceIte]

end Run

/-- Settles O37: each command by its own rule. -/
theorem loupeCommands : Obligations.LoupeCommands := by
  unfold Obligations.LoupeCommands
  intro q c p ind s
  refine ⟨?sensors, ?ledger, ?log, ?cap, ?stage, ?activate, ?commit, ?revert⟩
  case sensors =>
    exact fun hadm hdie => submit_of_run_ok hadm (specLoupeSensors_run_of_die (i := issOf specLoupeSensors.opcode c q s)
      (s := s.taken specLoupeSensors.opcode q) hdie)
  case ledger => exact fun hadm => submit_of_run_ok hadm rfl
  case log =>
    exact fun hadm hn hmax => submit_of_run_ok hadm (specLoupeLogRead_run_of_count (i := issOf specLoupeLogRead.opcode c q s)
      (s := s.taken specLoupeLogRead.opcode q) ⟨hn, hmax⟩)
  case cap =>
    exact fun hadm hlow hhigh hle hburst => submit_of_run_ok hadm (specLoupePowerCap_run_of_caps (i := issOf specLoupePowerCap.opcode c q s)
      (s := s.taken specLoupePowerCap.opcode q) hlow hhigh hle hburst)
  case stage =>
    intro t k sp n hadm hsp hpos hmax hstaging htrial hreach hgood
    exact submit_of_run hadm (specLoupeFwStage_run (i := issOf specLoupeFwStage.opcode c q s) (s := s.taken specLoupeFwStage.opcode q) rfl rfl hsp
      hpos hmax hstaging htrial hreach hgood)
  case activate =>
    intro q0 t hadm hop _ hdip hstudent hstaged
    exact submit_of_run_ok hadm (specLoupeFwActivate_run_activate (i := issOf specLoupeFwActivate.opcode c q0 s)
      (s := s.taken specLoupeFwActivate.opcode q0) hop hdip hstudent hstaged)
  case commit =>
    intro q1 t hadm hop _ hdip hburning hnew
    exact submit_of_run hadm (specLoupeFwActivate_run_commit (i := issOf specLoupeFwActivate.opcode c q1 s)
      (s := s.taken specLoupeFwActivate.opcode q1) hop hdip hburning hnew)
  case revert =>
    intro q2 t hadm hop _ hfallback
    exact submit_of_run_ok hadm (specLoupeFwActivate_run_revert (i := issOf specLoupeFwActivate.opcode c q2 s)
      (s := s.taken specLoupeFwActivate.opcode q2) hop hfallback)

end Sys2Proof.Machine
end

section
/-! PROOFS for 19_loupe_power_thermal_ageing.md and 18_security.md: what ends firmware commands, re-plans, and the copy of the log. -/

namespace Sys2Proof.Machine
open Sys2Proof

/-! ### FW_STAGE_VERIFIED (R509, R549) -/

section Staged
variable {c h : Nat} {b : Bytes} {s : State} (hstaging : s.loupe.staging = some (c, h, b))
include hstaging

theorem execFwStageVerified_of_broken (hbundle : Config.bundle b = none) :
    execFwStageVerified s = .next (finishOp c h 0x112 0 [] { s with loupe := { s.loupe with staging := none } }) := by
  simp only [execFwStageVerified, hstaging, hbundle]
  rfl

variable {v : Nat} {lo sc : Bytes} (hbundle : Config.bundle b = some (v, lo, sc))
include hbundle

theorem execFwStageVerified_of_old (hold : v % 64 < s.sys.rollback) : execFwStageVerified s
    = .next (finishOp c h 0x2A00 s.sys.rollback [] { s with loupe := { s.loupe with staging := none } }) := by
  have hold' : v % 64 < (updLoupe (fun l => { l with staging := none }) s).sys.rollback := hold
  simp only [execFwStageVerified, hstaging, hbundle, if_pos hold']
  rfl

theorem execFwStageVerified_of_new (hnew : ¬ v % 64 < s.sys.rollback) {t : State}
    (ht : { s with loupe := { s.loupe with staging := none } } = t) : execFwStageVerified s
    = .next (finishOp c h 0 0 (leBytes 8 b.length ++ leBytes 1 (1 - s.sys.slot) ++ leBytes 1 (v % 64)) (logPush 0x40 255 []
        { t with loupe := t.loupe.setSlot (1 - s.sys.slot) { cond := 1, svn := v % 64, loupe := fitTo 48 lo, sci := fitTo 48 sc } })) := by
  have hnew' : ¬ v % 64 < (updLoupe (fun l => { l with staging := none }) s).sys.rollback := hnew
  subst ht
  simp only [execFwStageVerified, hstaging, hbundle, if_neg hnew']
  rfl

end Staged

/-! ### FUSE_STEP_COMPLETE (R541, R550) -/

section Fuse
variable {c h : Nat} {s t : State} (hburning : s.loupe.burning = some (c, h)) (hless : s.sys.rollback < s.sys.svn)
  (ht : logPush 0x43 255 [] { s with sys := { s.sys with rollback := s.sys.rollback + 1 } } = t)
include ht

theorem fuseStep_sys : t.sys.rollback = s.sys.rollback + 1 ∧ t.sys.svn = s.sys.svn ∧ t.sys.slot = s.sys.slot ∧ t.loupe = s.loupe := by
  have htells : Tells { s with sys := { s.sys with rollback := s.sys.rollback + 1 } } t := ht ▸ logPush_tells ..
  have hsys : Signalled { s with sys := { s.sys with rollback := s.sys.rollback + 1 } } t := ht ▸ logPush_signalled ..
  refine ⟨?_, ?_, ?_, ?_⟩
  · rw [hsys]
  · rw [hsys]
  · rw [hsys]
  · rw [htells]
    rfl

include hburning hless

/-- The counter stands at the running SVN: the command completes. -/
theorem execFuseStepComplete_of_last (hlast : s.sys.rollback + 1 = s.sys.svn) {k : Nat} (hk : 1 - s.sys.slot = k) {x : FwSlot}
    (hx : s.loupe.slotOf k = x) {l : Loupe} (hl : { s.loupe with burning := none } = l) :
    execFuseStepComplete s = .next (finishOp c h 0 0 (leBytes 1 s.sys.svn) { t with
      loupe := if x.cond = 2 ∧ x.svn < s.sys.svn then l.setSlot k { x with cond := 0 } else l }) := by
  obtain ⟨hrollback, hsvn, hslot, hloupe⟩ := fuseStep_sys ht
  have hdone : t.sys.rollback ≥ t.sys.svn := by omega
  have hvalue : t.sys.rollback = s.sys.svn := by omega
  simp only [execFuseStepComplete, hburning, if_pos hless, ht, if_pos hdone, hslot, hk]
  simp only [updLoupe, hloupe, hx, hl, hvalue, Bool.and_eq_true, decide_eq_true_eq]
  rfl

variable (hmore : s.sys.rollback + 1 < s.sys.svn)
include hmore

theorem execFuseStepComplete_of_more : execFuseStepComplete s = .next (if s.loupe.dip.isSome then
    finishOp c h 0x113 0 [] { t with loupe := { s.loupe with burning := none } } else t) := by
  obtain ⟨hrollback, hsvn, hslot, hloupe⟩ := fuseStep_sys ht
  have hnot : ¬ t.sys.rollback ≥ t.sys.svn := by omega
  simp only [execFuseStepComplete, hburning, if_pos hless, ht, if_neg hnot, updLoupe, hloupe]
  rw [apply_ite Host.Outcome.next]
  rfl

end Fuse

/-! ### Trials, re-plans, the log (R544, R546, R550) -/

theorem execFwTrialTimeout_of_booting {t : Nat} {s : State} (htrial : s.loupe.trial = some t) (hboot : s.sys.booting = true)
    (hdies : s.diesOn = true) : execFwTrialTimeout s = .next (otherSlot 0 { s with now := max s.now (t + 30 * Config.sec) }) := by
  have hguard : (!s.sys.booting || !s.diesOn) = false := by rw [hboot, hdies]; rfl
  simp only [execFwTrialTimeout, htrial, hguard, Bool.false_eq_true, ↓reduceIte]
  rfl

theorem execLogCopy_of_on {s : State} (hdies : s.diesOn = true) (hvalid : s.sys.valid = true) : execLogCopy s = .next (logCopy s) := by
  refine if_neg ?_
  rw [hdies, hvalid]
  exact Bool.false_ne_true

theorem cfgStart_loupe (s : State) : (cfgStart s).loupe = s.loupe := by
  unfold cfgStart
  split
  · exact List.foldlRecOn (motive := fun t : State => t.loupe = s.loupe) _ _ rfl fun t ht u _ => ht
  · rfl

theorem planKick_loupe (s : State) : (planKick s).loupe = s.loupe := by
  unfold planKick
  split
  · split
    · rfl
    · extract_lets id t u first w v
      have hv : v.loupe = s.loupe := rfl
      split
      · exact (cfgStart_loupe v).trans hv
      · exact hv
  · rfl

/-- The transactions of a re-plan: one for each unit type of which there is a change. -/
def planTypes (items : List (Nat × Nat × Nat × Nat)) : List (List (Nat × Nat × Nat × Nat)) :=
  ([Config.tHbm, Config.tStore, Config.tPort, Config.tLoupe].map fun ty => items.filter fun i => i.1 == ty).filter fun l => !l.isEmpty

theorem mem_planTypes {items l : List (Nat × Nat × Nat × Nat)} (h : l ∈ planTypes items) : l ≠ [] ∧ ∀ i ∈ l, i ∈ items := by
  obtain ⟨hmem, hne⟩ := List.mem_filter.mp h
  obtain ⟨ty, _, rfl⟩ := List.mem_map.mp hmem
  exact ⟨by simpa using hne, fun i hi => (List.mem_filter.mp hi).1⟩

/-- What a re-plan leaves to do: its transactions, or nothing where nothing changes. -/
theorem planStart_planTodo (items : List (Nat × Nat × Nat × Nat)) {s : State} (hnone : s.loupe.planTodo = []) :
    (planStart items s).loupe.planTodo = planTypes items := by
  by_cases hempty : (planTypes items).isEmpty
  · have hkept (t : State) : (logPush 0x30 255 [] t).loupe = t.loupe := by
      rw [logPush_tells 0x30 255 [] t]
      rfl
    have hstart : planStart items s = logPush 0x30 255 [] (updLoupe (fun l => { l with
      plans := satAdd 32 l.plans 1, planAt := s.now, planLate := false, planDue := s.now + s.loupeSet 4 * 3600 * Config.sec }) s) := if_pos hempty
    rw [hstart, hkept, List.isEmpty_iff.mp hempty]
    exact hnone
  · have hstart : planStart items s = planKick (updLoupe (fun l => { l with planTodo := planTypes items }) s) := if_neg hempty
    rw [hstart, planKick_loupe]
    rfl

section Replan
variable {s : State} (hrunning : s.running = true) (hfatal : s.isFatal = false)
include hrunning hfatal

theorem execReplanRetry_of_due (hretry : s.loupe.planRetry ≠ 0) : execReplanRetry s = .next
    (planKick { s with now := max s.now s.loupe.planRetry, loupe := { s.loupe with planRetry := 0 } }) := by
  refine if_neg ?_
  simp [hretry, hrunning, hfatal]

theorem execReplanLate_of_first (hlate : s.loupe.planLate = false) {t : State} (ht : logPush 0x31 255 []
      { s with now := max s.now (s.loupe.planDue + 24 * 3600 * Config.sec), loupe := { s.loupe with planLate := true } } = t) :
    execReplanLate s = .next (setErr Config.tLoupe 0 5 0x31 (t.log.next - 1) 0 t) := by
  subst ht
  refine if_neg ?_
  simp [hlate, hrunning, hfatal]

variable (htodo : s.loupe.planTodo = [])
include htodo

/-- A re-plan that is due takes up, of what was asked for, the changes that keep or add margin. -/
theorem execReplan_of_due (meas : List (Nat × Nat × Nat × Nat × Nat)) (drift : List (Nat × Nat)) (wants : List (Nat × Nat × Nat × Nat)) {u : State}
    (hu : { s with
      now := max s.now s.loupe.planDue
      loupe := { s.loupe with ledger := meas.map fun m => (m.1, m.2.1, leBytes 1 m.1 ++ [0] ++ leBytes 2 m.2.1 ++ leBytes 4 m.2.2.1
        ++ leBytes 4 m.2.2.2.1 ++ zeros 4 ++ leBytes 4 m.2.2.2.2 ++ leBytes 8 (max s.now s.loupe.planDue) ++ zeros 4) } } = u) :
    execReplan false meas drift wants s = .next (planStart
      (((drift.filter fun d => decide (d.1 < 8)).flatMap (fun d => u.planDie d.1 d.2)
        ++ wants.filter fun i => planSetting i.1 i.2.2.1 && u.enabled i.1 i.2.1 && settingOk i.1 i.2.2.1 i.2.2.2).filter
          fun i => u.valueOf i.1 i.2.1 i.2.2.1 != i.2.2.2 && !u.losesMargin i) u) := by
  subst hu
  refine if_neg ?_
  simp [hrunning, hfatal, htodo]

theorem execReplan_of_nothing {t : State} (ht : { s with now := max s.now s.loupe.planDue, loupe := { s.loupe with ledger := [] } } = t) :
    execReplan false [] [] [] s = .next (logPush 0x30 255 [] { t with loupe := { t.loupe with
      plans := satAdd 32 s.loupe.plans 1, planAt := t.now, planLate := false, planDue := t.now + s.loupeSet 4 * 3600 * Config.sec } }) := by
  refine (execReplan_of_due hrunning hfatal htodo [] [] [] ht).trans ?_
  subst ht
  rfl

end Replan

/-- Settles O38: each event by the branch that its hypotheses take; a re-plan that is due queues what its filter lets through. -/
theorem loupeEvents : Obligations.LoupeEvents := by
  unfold Obligations.LoupeEvents
  refine ⟨fun s => ⟨?staged, ?more, ?last, ?dip, ?trial, ?retry, ?late, ?copy, ?nothing⟩, ?margin⟩
  case staged =>
    intro c h b hstaging t k
    cases hbundle : Config.bundle b with
    | none => exact execFwStageVerified_of_broken hstaging hbundle
    | some x =>
      by_cases hold : x.1 % 64 < s.sys.rollback
      · exact (execFwStageVerified_of_old hstaging hbundle hold).trans (congrArg Host.Outcome.next (if_pos hold).symm)
      · exact (execFwStageVerified_of_new hstaging hbundle hold rfl).trans (congrArg Host.Outcome.next (if_neg hold).symm)
  case more =>
    intro c h hburning hmore hdip
    refine (execFuseStepComplete_of_more hburning (Nat.lt_of_succ_lt hmore) rfl hmore).trans ?_
    rw [hdip]
    rfl
  case last =>
    intro c h hburning hlast t k x l
    exact execFuseStepComplete_of_last hburning (Nat.lt_of_succ_le hlast.le) rfl hlast rfl rfl rfl
  case dip =>
    intro c h hburning hmore hdip t
    refine (execFuseStepComplete_of_more hburning (Nat.lt_of_succ_lt hmore) rfl hmore).trans ?_
    rw [if_pos hdip]
  case trial => exact fun t htrial hboot hdies => execFwTrialTimeout_of_booting htrial hboot hdies
  case retry => exact fun hretry hrunning hfatal => execReplanRetry_of_due hrunning hfatal hretry
  case late => exact fun hlate hrunning hfatal => execReplanLate_of_first hrunning hfatal hlate rfl
  case copy => exact fun hdies hvalid => execLogCopy_of_on hdies hvalid
  case nothing => exact fun hrunning hfatal htodo => execReplan_of_nothing hrunning hfatal htodo rfl
  case margin =>
    intro meas drift wants s hrunning hfatal htodo
    refine ⟨_, execReplan_of_due hrunning hfatal htodo meas drift wants rfl, ?_⟩
    intro l hl
    rw [planStart_planTodo _ (by exact htodo)] at hl
    obtain ⟨hne, hitems⟩ := mem_planTypes hl
    refine ⟨hne, fun i hi => ?_⟩
    obtain ⟨_, hkept⟩ := List.mem_filter.mp (hitems i hi)
    rw [Bool.and_eq_true, Bool.not_eq_true', bne_iff_ne] at hkept
    exact ⟨hkept.2, hkept.1⟩

end Sys2Proof.Machine
end

section
/-! PROOFS for 19_loupe_power_thermal_ageing.md: limits on current and power, and the governor's step. -/

namespace Sys2Proof.Machine
open Sys2Proof

/-! ### What leaves the settings of every unit -/

/-- In a canonical map of units, no setting has changed, and the map is canonical still. -/
structure SetsKept (s t : State) : Prop where
  wf : SMap.wf UnitRegs.init s.units = true → SMap.wf UnitRegs.init t.units = true
  sets : SMap.wf UnitRegs.init s.units = true → ∀ ty inst, (t.unit ty inst).sets = (s.unit ty inst).sets

namespace SetsKept
variable {s t u : State}

theorem refl (s : State) : SetsKept s s := ⟨id, fun _ _ _ => rfl⟩

theorem trans (h : SetsKept s t) (g : SetsKept t u) : SetsKept s u :=
  ⟨g.wf ∘ h.wf, fun hwf ty inst => (g.sets (h.wf hwf) ty inst).trans (h.sets hwf ty inst)⟩

theorem of_units (h : t.units = s.units) : SetsKept s t :=
  ⟨fun hwf => h ▸ hwf, fun _ ty inst => congrArg (fun m => (SMap.get UnitRegs.init m (ukey ty inst)).sets) h⟩

theorem loupeSet (h : SetsKept s t) (hwf : SMap.wf UnitRegs.init s.units = true) (n : Nat) : t.loupeSet n = s.loupeSet n := by
  unfold State.loupeSet State.valueOf State.setting
  rw [h.sets hwf]

end SetsKept

theorem bump_setsKept (ty inst n k : Nat) (s : State) : SetsKept s (bump ty inst n k s) :=
  ⟨SMap.set_wf _ _, fun hwf ty' inst' => by rw [bump_unit hwf]⟩

theorem snoopOut_setsKept (a n : Nat) (s : State) : SetsKept s (snoopOut a n s) := by
  unfold snoopOut
  extract_lets hit
  split
  · exact .refl s
  · refine SetsKept.trans (.of_units ?_) (bump_setsKept ..)
    rfl

theorem hbmPut_setsKept (a : Nat) (bs : Bytes) (s : State) : SetsKept s (hbmPut a bs s) := by
  unfold hbmPut
  extract_lets n part m t u
  have ht : SetsKept s t := .of_units rfl
  have hu : SetsKept s u := ht.trans (bump_setsKept ..)
  split
  · exact hu
  · exact hu.trans (bump_setsKept ..)

theorem spaceWrite_setsKept (space a : Nat) (bs : Bytes) (s : State) : SetsKept s (spaceWrite space a bs s) := by
  unfold spaceWrite
  split
  · exact (snoopOut_setsKept ..).trans (hbmPut_setsKept ..)
  · exact .of_units rfl

theorem sendMsix_setsKept (v : Nat) (s : State) : SetsKept s (sendMsix v s) := by
  unfold sendMsix
  split
  · exact .refl s
  · split
    · refine SetsKept.trans (.of_units ?_) (bump_setsKept ..)
      rfl
    · exact .of_units rfl

theorem setRing_setsKept (j : Nat) (x : Ring) (s : State) : SetsKept s (s.setRing j x) := .of_units rfl
theorem setCtx_setsKept (c : Nat) (x : Context) (s : State) : SetsKept s (s.setCtx c x) := .of_units rfl

theorem ringPut_setsKept (j : Nat) (rec : Bytes) (s : State) : SetsKept s (ringPut j rec s) := by
  have hput (b : Bytes) (x : Ring) (t : State) (ht : SetsKept s t) :
      SetsKept s ((spaceWrite (s.ring j).space ((s.ring j).slotAddr (s.ring j).tail) b t).setRing j x) :=
    (ht.trans (spaceWrite_setsKept ..)).trans (setRing_setsKept ..)
  have hfresh : ∀ n, SetsKept s (freshBytes n s).2 := fun _ => .of_units rfl
  unfold ringPut
  by_cases hfree : ((s.ring j).kind = 1 && bitOf (s.ring j).posted 1) = true
  · simp only [hfree, if_true]
    split
    · exact (hput _ _ _ (hfresh _)).trans (sendMsix_setsKept _ _)
    · exact hput _ _ _ (hfresh _)
  · simp only [hfree]
    split
    · exact (hput _ _ s (.refl s)).trans (sendMsix_setsKept _ _)
    · exact hput _ _ s (.refl s)

theorem deliverEvent_setsKept (c : Nat) (rec : Bytes) (s : State) : SetsKept s (deliverEvent c rec s) := by
  unfold deliverEvent
  extract_lets x
  split
  · split
    · exact (setCtx_setsKept _ _ _).trans (ringPut_setsKept _ _ _)
    · split <;> exact setCtx_setsKept _ _ _
  · split <;> exact setCtx_setsKept _ _ _

theorem notify_setsKept (c kind seq : Nat) (s : State) : SetsKept s (notify c kind seq s) := by
  unfold notify
  split
  · exact setCtx_setsKept _ _ _
  · refine SetsKept.trans (.of_units ?_) (deliverEvent_setsKept _ _ _)
    rfl

theorem logPush_setsKept (kind die : Nat) (data : Bytes) (s : State) : SetsKept s (logPush kind die data s) := by
  unfold logPush
  extract_lets sev e aon t
  split
  · refine SetsKept.trans (.of_units ?_) (notify_setsKept _ _ _ _)
    rfl
  · exact .of_units rfl

/-! ### What the governor leaves (R533, R534) -/

/-- `t` is `s` with its settings, of which the governor may have changed what it steers. -/
structure Steered (s t : State) : Prop where
  sets : SetsKept s t
  now : t.now = s.now
  jobs : t.jobs = s.jobs
  cores : t.cores = s.cores
  mbs : t.mbs = s.mbs
  sram : t.mem.sram = s.mem.sram
  store : t.mem.store = s.mem.store
  pages : t.mem.pages = s.mem.pages
  loupe : t.loupe = { s.loupe with
    freq := t.loupe.freq, hubCap := t.loupe.hubCap, reservoir := t.loupe.reservoir, target := t.loupe.target, busy := t.loupe.busy }

namespace Steered
variable {s t u : State}

theorem refl (s : State) : Steered s s := ⟨.refl s, rfl, rfl, rfl, rfl, rfl, rfl, rfl, rfl⟩

theorem trans (h : Steered s t) (g : Steered t u) : Steered s u where
  sets := h.sets.trans g.sets
  now := g.now.trans h.now
  jobs := g.jobs.trans h.jobs
  cores := g.cores.trans h.cores
  mbs := g.mbs.trans h.mbs
  sram := g.sram.trans h.sram
  store := g.store.trans h.store
  pages := g.pages.trans h.pages
  loupe := by
    have hg := g.loupe
    rw [h.loupe] at hg
    exact hg

theorem bump (s : State) (ty inst n k : Nat) : Steered s (bump ty inst n k s) := ⟨bump_setsKept .., rfl, rfl, rfl, rfl, rfl, rfl, rfl, rfl⟩

theorem logPush (s : State) (kind die : Nat) (data : Bytes) : Steered s (logPush kind die data s) := by
  have htells := logPush_tells kind die data s
  refine ⟨logPush_setsKept .., ?_, ?_, ?_, ?_, ?_, ?_, ?_, ?_⟩ <;> (rw [htells]; rfl)

theorem setLoupe (s : State) (freq busy hubCap : List (Nat × Nat)) (reservoir target : Nat) :
    Steered s { s with loupe := { s.loupe with freq, hubCap, reservoir, target, busy } } := ⟨.of_units rfl, rfl, rfl, rfl, rfl, rfl, rfl, rfl, rfl⟩

variable (h : Steered s t) (hwf : SMap.wf UnitRegs.init s.units = true)
include h hwf

theorem loupeSet (n : Nat) : t.loupeSet n = s.loupeSet n := h.sets.loupeSet hwf n

theorem fmax (d : Nat) : t.fmax d = s.fmax d := h.loupeSet hwf _

end Steered

/-! #### Frequencies -/

theorem clampDie_steered (e : Nat) (s : State) : Steered s (clampDie e s) := by
  unfold clampDie
  extract_lets f m
  split
  · exact .refl s
  · exact (Steered.setLoupe s _ s.loupe.busy s.loupe.hubCap s.loupe.reservoir s.loupe.target).trans (.bump ..)

theorem clampDie_freq_wf {e : Nat} {s : State} (hfreq : SMap.wf 0 s.loupe.freq = true) : SMap.wf 0 (clampDie e s).loupe.freq = true := by
  unfold clampDie
  extract_lets f m
  split
  · exact hfreq
  · exact SMap.set_wf _ _ hfreq

/-- A die that runs above its FMAX comes down to it, and no other die changes. -/
theorem clampDie_freqOf {e : Nat} {s : State} (hfreq : SMap.wf 0 s.loupe.freq = true) (d : Nat) :
    (clampDie e s).loupe.freqOf d = if d = e then min (s.loupe.freqOf e) (s.fmax e) else s.loupe.freqOf d := by
  by_cases hle : s.loupe.freqOf e ≤ s.fmax e
  · rw [clampDie, if_pos hle, Nat.min_eq_left hle]
    split
    · next hd => rw [hd]
    · rfl
  · rw [clampDie, if_neg hle, Nat.min_eq_right (Nat.le_of_not_le hle)]
    split
    · next hd =>
      subst hd
      exact SMap.get_set_self s.loupe.freq _ 0 hfreq
    · next hd => exact SMap.get_set_other s.loupe.freq hd

theorem clampDies_steered (l : List Nat) (s : State) : Steered s (l.foldl (fun s d => clampDie d s) s) := by
  induction l generalizing s with
  | nil => exact .refl s
  | cons e l ih => exact (clampDie_steered e s).trans (ih _)

theorem clampDies_freqOf_le {l : List Nat} {s : State} (hwf : SMap.wf UnitRegs.init s.units = true) (hfreq : SMap.wf 0 s.loupe.freq = true) :
    SMap.wf 0 (l.foldl (fun s d => clampDie d s) s).loupe.freq = true
    ∧ ∀ d, (l.foldl (fun s d => clampDie d s) s).loupe.freqOf d ≤ s.loupe.freqOf d
      ∧ (d ∈ l → (l.foldl (fun s d => clampDie d s) s).loupe.freqOf d ≤ s.fmax d) := by
  induction l generalizing s with
  | nil => exact ⟨hfreq, fun d => ⟨Nat.le_refl _, fun h => absurd h (by simp)⟩⟩
  | cons e l ih =>
    have hstep := clampDie_steered e s
    obtain ⟨hwf', hless⟩ := ih (hstep.sets.wf hwf) (clampDie_freq_wf (e := e) hfreq)
    refine ⟨hwf', fun d => ?_⟩
    obtain ⟨hle, hin⟩ := hless d
    rw [hstep.fmax hwf, clampDie_freqOf hfreq] at *
    refine ⟨hle.trans ?_, fun hd => ?_⟩
    · split
      · next h => exact h ▸ Nat.min_le_left ..
      · exact Nat.le_refl _
    · by_cases hde : d = e
      · rw [if_pos hde] at hle
        exact hle.trans (hde ▸ Nat.min_le_right ..)
      · exact hin ((List.mem_cons.mp hd).resolve_left hde)

theorem clampDie_reservoir (e : Nat) (s : State) : (clampDie e s).loupe.reservoir = s.loupe.reservoir := by
  unfold clampDie
  extract_lets f m
  split <;> rfl

theorem clampDies_reservoir (l : List Nat) (s : State) : (l.foldl (fun s d => clampDie d s) s).loupe.reservoir = s.loupe.reservoir :=
  List.foldlRecOn (motive := fun t : State => t.loupe.reservoir = s.loupe.reservoir) l _ rfl fun t ht d _ => (clampDie_reservoir d t).trans ht

/-- A die that one step of the governor makes faster stays within its FMAX. -/
structure Governed (s t : State) : Prop where
  steered : Steered s t
  reservoir : t.loupe.reservoir = s.loupe.reservoir
  freq : ∀ d, t.loupe.freqOf d ≤ s.loupe.freqOf d ∨ t.loupe.freqOf d ≤ s.fmax d

theorem Governed.refl (s : State) : Governed s s := ⟨.refl s, rfl, fun _ => .inl (Nat.le_refl _)⟩

theorem stepDie_governed {e f : Nat} {s : State} (hfreq : SMap.wf 0 s.loupe.freq = true) (h : f ≤ s.loupe.freqOf e ∨ f ≤ s.fmax e) :
    Governed s (stepDie e f s) := by
  refine ⟨(Steered.setLoupe s _ s.loupe.busy s.loupe.hubCap s.loupe.reservoir s.loupe.target).trans (.bump ..), rfl, fun d => ?_⟩
  by_cases hd : d = e
  · subst hd
    have hset : (stepDie d f s).loupe.freqOf d = f := SMap.get_set_self s.loupe.freq _ 0 hfreq
    rw [hset]
    exact h
  · have hset : (stepDie e f s).loupe.freqOf d = s.loupe.freqOf d := SMap.get_set_other s.loupe.freq hd
    exact .inl hset.le

/-- The busiest die is one of those asked for. -/
theorem State.busiest_ok {s : State} {ok : Nat → Bool} {d : Nat} (h : s.busiest ok = some d) : ok d = true := by
  have hmem : ∀ d, s.busiest ok = some d → d ∈ computeDies.filter ok := by
    unfold State.busiest
    refine List.foldlRecOn (motive := fun b : Option Nat => ∀ d, b = some d → d ∈ computeDies.filter ok) _ _ (fun d h => by cases h) ?_
    intro b hb e he d hd
    cases b with
    | none => exact Option.some.inj hd ▸ he
    | some c =>
      dsimp only at hd
      split at hd
      · exact Option.some.inj hd ▸ he
      · exact hb d hd
  exact (List.mem_filter.mp (hmem d h)).2

/-- With nothing throttled: down by a step where the power is above the target, up by one where it is well below. -/
def governCool (mw : Nat) (s : State) : State :=
  let l := s.loupe
  if mw > l.target then
    match s.busiest fun d => decide (l.freqOf d > 800) with
    | some d => stepDie d (l.freqOf d - 25) s
    | none => s
  else if mw + 10000 < l.target && l.dip.isNone && !l.forced then
    match s.busiest fun d => decide (l.freqOf d + 25 ≤ s.fmax d) && decide ((SMap.get (0, 0) l.temps d).1 ≤ 792) && !l.silent.contains d with
    | some d => stepDie d (l.freqOf d + 25) s
    | none => s
  else s

theorem governCool_governed {mw : Nat} {s : State} (hfreq : SMap.wf 0 s.loupe.freq = true) : Governed s (governCool mw s) := by
  unfold governCool
  extract_lets l
  split
  · split
    · exact stepDie_governed hfreq (.inl (Nat.sub_le ..))
    · exact .refl s
  · split
    · split
      · next d hd =>
        have hok := State.busiest_ok hd
        simp only [Bool.and_eq_true, decide_eq_true_eq] at hok
        exact stepDie_governed hfreq (.inr hok.1.1)
      · exact .refl s
    · exact .refl s

theorem govern_of_cool {mw : Nat} {s : State} (h : s.loupe.hotDie = none) : govern mw s =
    governCool mw (updLoupe (fun l => { l with hubCap := l.hubCap.filterMap fun h => if h.2 ≤ 1 then none else some (h.1, h.2 - 1) }) s) := by
  simp only [govern, h]
  rfl

theorem govern_governed (mw : Nat) {s : State} (hfreq : SMap.wf 0 s.loupe.freq = true) : Governed s (govern mw s) := by
  have hcaps (x : List (Nat × Nat)) : Steered s (updLoupe (fun l => { l with hubCap := x }) s) :=
    .setLoupe s s.loupe.freq s.loupe.busy x s.loupe.reservoir s.loupe.target
  cases h : s.loupe.hotDie with
  | none =>
    rw [govern_of_cool h]
    have hcool := governCool_governed (mw := mw) (s := updLoupe (fun l => { l with
      hubCap := l.hubCap.filterMap fun h => if h.2 ≤ 1 then none else some (h.1, h.2 - 1) }) s) hfreq
    exact ⟨(hcaps _).trans hcool.steered, hcool.reservoir, hcool.freq⟩
  | some d =>
    simp only [govern, h]
    split
    · split
      · exact stepDie_governed hfreq (.inl (Nat.sub_le ..))
      · exact .refl s
    · exact ⟨hcaps _, rfl, fun _ => .inl (Nat.le_refl _)⟩

/-! #### The step -/

theorem reservoirStep_steered (mw : Nat) (s : State) : Steered s (reservoirStep mw s) := by
  unfold reservoirStep
  extract_lets l cap r u
  have hu : Steered s u := .setLoupe s s.loupe.freq s.loupe.busy s.loupe.hubCap r s.loupe.target
  split
  · exact hu.trans (.logPush ..)
  · exact hu

theorem reservoirStep_loupe (mw : Nat) (s : State) : (reservoirStep mw s).loupe = { s.loupe with
    reservoir := min (s.loupeSet 1 * 1000000) (s.loupe.reservoir + s.loupe.capS * 1000 - mw) } := by
  have hmin : s.loupe.reservoir + s.loupe.capS * 1000 - min mw (s.loupe.reservoir + s.loupe.capS * 1000)
      = s.loupe.reservoir + s.loupe.capS * 1000 - mw := by omega
  have hkept (t : State) : (logPush 0x12 255 [] t).loupe = t.loupe := by
    rw [logPush_tells 0x12 255 [] t]
    rfl
  unfold reservoirStep
  simp only [hmin]
  split
  · exact hkept _
  · rfl

/-- The millisecond is taken in: its energy, its mean power, and the caps that were pending. -/
def governTaken (mw : Nat) (s : State) : Loupe :=
  let caps := s.loupe.capNext.getD (s.loupe.capS, s.loupe.capB)
  let now := max s.now (s.loupe.lastStep + Config.ms)
  { s.loupe with
    lastStep := now, busyAt := if s.tenantsRun then now else s.loupe.busyAt, energy := s.loupe.energy + mw, meanMw := mw
    capS := caps.1, capB := caps.2, capNext := none }

/-- What follows: clocks above FMAX come down, the reservoir is spent or filled, and one step is taken towards the target. -/
structure GovernRun (mw : Nat) (s r t u : State) : Prop where
  clamped : computeDies.foldl (fun s d => clampDie d s) s = r
  filled : reservoirStep mw r = t
  stepped : govern mw (updLoupe (fun l => { l with target := t.govTarget }) t) = u

section Run
variable {mw : Nat} {s r t u : State} (h : GovernRun mw s r t u) (hwf : SMap.wf UnitRegs.init s.units = true)
  (hfreq : SMap.wf 0 s.loupe.freq = true)
include h

theorem GovernRun.clamp : Steered s r := h.clamped ▸ clampDies_steered _ s

theorem GovernRun.fill : Steered r t := h.filled ▸ reservoirStep_steered mw r

theorem GovernRun.loupe : t.loupe = { r.loupe with reservoir := min (r.loupeSet 1 * 1000000) (r.loupe.reservoir + r.loupe.capS * 1000 - mw) } :=
  h.filled ▸ reservoirStep_loupe mw r

theorem GovernRun.freq : t.loupe.freq = r.loupe.freq := by rw [h.loupe]

omit h in
theorem target_steered : Steered t (updLoupe (fun l => { l with target := t.govTarget }) t) :=
  .setLoupe t t.loupe.freq t.loupe.busy t.loupe.hubCap t.loupe.reservoir t.govTarget

include hwf hfreq

theorem GovernRun.freq_wf : SMap.wf 0 t.loupe.freq = true := by
  have hr := (clampDies_freqOf_le (l := computeDies) hwf hfreq).1
  rw [h.clamped] at hr
  rw [h.freq]
  exact hr

theorem GovernRun.governed : Governed (updLoupe (fun l => { l with target := t.govTarget }) t) u :=
  h.stepped ▸ govern_governed mw (h.freq_wf hwf hfreq)

theorem GovernRun.steered : Steered s u := ((h.clamp.trans h.fill).trans target_steered).trans (h.governed hwf hfreq).steered

theorem GovernRun.freqOf_le {d : Nat} (hd : d ∈ computeDies) : u.loupe.freqOf d ≤ s.fmax d := by
  have hdie : t.loupe.freqOf d ≤ s.fmax d := by
    have hr := ((clampDies_freqOf_le (l := computeDies) hwf hfreq).2 d).2 hd
    rw [h.clamped] at hr
    rw [Loupe.freqOf, h.freq]
    exact hr
  obtain hle | hle := (h.governed hwf hfreq).freq d
  · exact hle.trans hdie
  · rw [((h.clamp.trans h.fill).trans target_steered).fmax hwf] at hle
    exact hle

theorem GovernRun.reservoir : u.loupe.reservoir = min (s.loupeSet 1 * 1000000) (s.loupe.reservoir + s.loupe.capS * 1000 - mw) := by
  have hcap : r.loupe.capS = s.loupe.capS := by rw [h.clamp.loupe]
  have hstart : r.loupe.reservoir = s.loupe.reservoir := h.clamped ▸ clampDies_reservoir computeDies s
  have hres : t.loupe.reservoir = min (r.loupeSet 1 * 1000000) (r.loupe.reservoir + r.loupe.capS * 1000 - mw) := by rw [h.loupe]
  rw [h.clamp.loupeSet hwf, hcap, hstart] at hres
  exact (h.governed hwf hfreq).reservoir.trans hres

end Run

/-- `t` is `s` but for counters. -/
structure Counted (s t : State) : Prop where
  sets : SetsKept s t
  frame : t = { s with units := t.units }

theorem Counted.trans {s t u : State} (h : Counted s t) (g : Counted t u) : Counted s u := by
  refine ⟨h.sets.trans g.sets, ?_⟩
  have hg := g.frame
  rw [h.frame] at hg
  exact hg

theorem Counted.ite (c : Prop) [Decidable c] {s t u : State} (h : Counted s t) (g : Counted s u) : Counted s (if c then t else u) := by
  split
  · exact h
  · exact g

theorem bump_counted (ty inst n k : Nat) (s : State) : Counted s (bump ty inst n k s) := ⟨bump_setsKept .., rfl⟩

/-- A step of the governor: what the millisecond brought is taken in, and the rest is steering. -/
theorem execGovernorStep_of_on {s : State} (hdies : s.diesOn = true) (mw : Nat) {u : State}
    (hu : { s with now := max s.now (s.loupe.lastStep + Config.ms), loupe := governTaken mw s } = u) :
    ∃ w r t v, execGovernorStep mw s = .next (updLoupe (fun l => { l with busy := computeDies.map fun d => (d, v.dieBusy d) }) v)
      ∧ Counted u w ∧ GovernRun mw w r t v := by
  subst hu
  unfold execGovernorStep
  rw [if_neg (by rw [hdies]; exact Bool.false_ne_true)]
  extract_lets t0 l caps t1 t2 t3 w t4 t5 t6
  have h1 : Counted t0 t1 := bump_counted ..
  have h2 : Counted t0 t2 := h1.trans (.ite _ ⟨.refl t1, rfl⟩ (bump_counted ..))
  have h3 : Counted t0 t3 := h2.trans (.ite _ (bump_counted ..) ⟨.refl t2, rfl⟩)
  have hsets : SetsKept t0 w := h3.sets.trans (.of_units rfl)
  refine ⟨w, _, t4, t6, rfl, ⟨⟨hsets.wf, hsets.sets⟩, ?_⟩, ⟨rfl, rfl, rfl⟩⟩
  unfold w
  rw [h3.frame]
  rfl

/-! ### Current and power (R531, R532, R535, R539, R540) -/

section Current
variable {amps vin : Nat} {s t u : State} {ns lim : Nat} {l : Loupe} (hdies : s.diesOn = true) (ht : atLeast (s.loupe.ilAt + 500) s = t)
  (hns : (if s.loupe.ilDuty < 100 then s.loupe.ilNs + (t.now - s.loupe.ilAt) else s.loupe.ilNs) = ns)
  (hu : bump Config.tLoupe 0 3 (ns / 1000 - s.loupe.ilNs / 1000) t = u)
  (hl : { s.loupe with ilAt := t.now, ilNs := ns, amps, vinMv := vin } = l) (hlim : s.loupeSet 2 * 10 = lim)
include hdies ht hns hu hl hlim

theorem execCurrentLimitSample_of_above (habove : lim < amps) {duty : Nat} (hduty : max 25 (s.loupe.ilDuty - 25) = duty) {v : State}
    (hv : { u with loupe := { l with ilDuty := duty, ilBelow := none } } = v) : execCurrentLimitSample amps vin s
    = .next (if s.loupe.ilDuty = 100 then loupeErr 1 0x10 (logPush 0x10 255 [] v) else v) := by
  subst hv hduty hl hu hns ht hlim
  refine (if_neg (by rw [hdies]; exact Bool.false_ne_true)).trans ?_
  exact if_pos habove

theorem execCurrentLimitSample_of_below (hbelow : amps * 100 < 95 * lim) {b : Nat} (hsince : s.loupe.ilBelow = some b)
    (hlong : b + 10 * Config.us ≤ t.now) : execCurrentLimitSample amps vin s
    = .next { u with loupe := { l with ilDuty := min 100 (s.loupe.ilDuty + 25), ilBelow := some t.now } } := by
  have habove : ¬ amps > lim := by omega
  have hlong' : ¬ t.now < b + 10 * Config.us := Nat.not_lt.mpr hlong
  subst hl hu hns ht hlim
  refine (if_neg (by rw [hdies]; exact Bool.false_ne_true)).trans ((if_neg habove).trans ((if_pos hbelow).trans ?_))
  have hsince' : (atLeast (s.loupe.ilAt + 500) s).loupe.ilBelow = some b := hsince
  dsimp only
  rw [hsince']
  exact if_neg hlong'

theorem execCurrentLimitSample_of_between (hle : amps ≤ lim) (hnear : 95 * lim ≤ amps * 100) :
    execCurrentLimitSample amps vin s = .next { u with loupe := { l with ilBelow := none } } := by
  subst hl hu hns ht hlim
  refine (if_neg (by rw [hdies]; exact Bool.false_ne_true)).trans ((if_neg (Nat.not_lt.mpr hle)).trans ?_)
  exact if_neg (Nat.not_lt.mpr hnear)

end Current

theorem execWindowLimitEval_of_on {mw : Nat} {s t u v : State} {ns : Nat} {on : Bool} (hdies : s.diesOn = true)
    (ht : atLeast (s.loupe.winAt + 100 * Config.us) s = t)
    (hns : (if s.loupe.window then s.loupe.winNs + (t.now - s.loupe.winAt) else s.loupe.winNs) = ns)
    (hu : bump Config.tLoupe 0 4 (ns / 1000 - s.loupe.winNs / 1000) t = u)
    (hon : (if s.loupe.window then decide (s.loupe.capB * 1000 - 20000 < mw) else decide (s.loupe.capB * 1000 ≤ mw)) = on)
    (hv : { u with loupe := { s.loupe with winAt := t.now, winNs := ns, window := on } } = v) :
    execWindowLimitEval mw s = .next (if on && !s.loupe.window then logPush 0x11 255 [] v else v) := by
  subst hv hon hu hns ht
  exact if_neg (by rw [hdies]; exact Bool.false_ne_true)

/-- Settles O39: the limits by where a sample stands to them; the governor's step by what each of its parts may steer. -/
theorem powerLimits : Obligations.PowerLimits := by
  unfold Obligations.PowerLimits
  refine ⟨fun s => ⟨rfl, rfl, ?current, ?window⟩, ?governor⟩
  case current =>
    intro amps vin hdies t ns u l lim
    refine ⟨fun habove hduty => ?_, fun habove hduty => ?_, fun hbelow b hsince hlong => ?_, fun hle hnear => ?_⟩
    · have hstep := execCurrentLimitSample_of_above (vin := vin) hdies rfl rfl rfl rfl rfl habove rfl rfl
      rw [if_neg hduty] at hstep
      exact hstep
    · have hstep := execCurrentLimitSample_of_above (vin := vin) hdies rfl rfl rfl rfl rfl habove (duty := 75) (by rw [hduty]; rfl) rfl
      rw [if_pos hduty] at hstep
      exact hstep
    · exact execCurrentLimitSample_of_below hdies rfl rfl rfl rfl rfl hbelow hsince hlong
    · exact execCurrentLimitSample_of_between hdies rfl rfl rfl rfl rfl hle hnear
  case window =>
    intro mw hdies t ns u on v
    exact execWindowLimitEval_of_on hdies rfl rfl rfl rfl rfl
  case governor =>
    intro mw s hdies hwf hfreq
    have hunits : SMap.wf UnitRegs.init s.units = true := ((State.wf_iff s).mp hwf).2.2.2.2.2.1
    obtain ⟨w, r, t, v, hstep, hcount, hrun⟩ := execGovernorStep_of_on hdies mw rfl
    have hwunits := hcount.sets.wf hunits
    have hwfreq : SMap.wf 0 w.loupe.freq = true := by rw [hcount.frame]; exact hfreq
    have hsteer := hrun.steered hwunits hwfreq
    have hkept : v.loupe = { governTaken mw s with
        freq := v.loupe.freq, hubCap := v.loupe.hubCap, reservoir := v.loupe.reservoir, target := v.loupe.target, busy := v.loupe.busy } := by
      have h := hsteer.loupe
      rw [hcount.frame] at h
      exact h
    have hnow : v.now = max s.now (s.loupe.lastStep + Config.ms) := by
      rw [hsteer.now, hcount.frame]
    have hfmax (d : Nat) : w.fmax d = s.fmax d := hcount.sets.loupeSet hunits _
    have hset : w.loupeSet 1 = s.loupeSet 1 := hcount.sets.loupeSet hunits 1
    have hres := hrun.reservoir hwunits hwfreq
    rw [hset, hcount.frame] at hres
    refine ⟨_, hstep, ?mean, ?energy, ?next, ?caps, fun d hd => ?freq, ?reservoir, ?last, ?now, ?jobs, ?cores, ?mbs, ?hot, ?slots, ?sram, ?store,
      ?pages⟩
    case freq => exact hfmax d ▸ hrun.freqOf_le hwunits hwfreq hd
    case reservoir =>
      have hcap : v.loupe.capS = (governTaken mw s).capS := by rw [hkept]
      refine hres.trans ?_
      rw [updLoupe, hcap]
      rfl
    case now =>
      refine hnow.trans ?_
      rw [updLoupe, hkept]
      rfl
    case jobs => exact hsteer.jobs.trans (by rw [hcount.frame])
    case cores => exact hsteer.cores.trans (by rw [hcount.frame])
    case mbs => exact hsteer.mbs.trans (by rw [hcount.frame])
    case sram => exact hsteer.sram.trans (by rw [hcount.frame])
    case store => exact hsteer.store.trans (by rw [hcount.frame])
    case pages => exact hsteer.pages.trans (by rw [hcount.frame])
    all_goals
      rw [updLoupe, hkept]
      rfl

end Sys2Proof.Machine
end

section
/-! PROOFS for 18_security.md: the commands of group 0x0B, SPDM and MCTP. -/

namespace Sys2Proof.Machine
open Sys2Proof

section Run
variable {i : Iss} {p : Bytes} {s : State}

/-! ### Certificates and measurements (R508, R509, R511) -/

theorem specSecCerts_run_of_slot (hslot : field p 0 1 ≤ 1) (hlen : field p 8 2 ≠ 0) :
    specSecCerts.run i p s = .ok (((Config.certChain (field p 0 1)).drop (field p 4 4)).take (field p 8 2)) s :=
  (if_neg (Nat.not_lt.mpr hslot)).trans (if_neg hlen)

/-- A context may ask about itself, and context 0 about any. -/
theorem not_foreignCtx {c n : Nat} (h : c = 0 ∨ n = c) : (decide (c ≠ 0) && decide (n ≠ c)) = false := by
  obtain h | h := h <;> simp [h]

theorem specSecMeasurements_run_of_ctx (hctx : i.ctx = 0 ∨ field p 0 1 = i.ctx) (hlow : field p 0 1 ≤ 63) :
    specSecMeasurements.run i p s = .ok (measurements (s.ctxIndices (field p 0 1)) ((p.drop 8).take 32) [] true 0 s).1
      { s with keys := s.keys + 1, sec := { s.sec with signs := s.sec.signs + 1 } } :=
  (if_neg (Bool.eq_false_iff.mp (not_foreignCtx hctx))).trans (if_neg (Nat.not_lt.mpr hlow))

/-! ### Key rolls (R514, R516) -/

/-- A context as a key roll of payload `p` leaves it, with the secret that it has then. -/
def rolled (p : Bytes) (x : Context) (cs : Option Bytes) : Context := { x with
  secret := cs.map (fitTo 32), requireIde := x.requireIde || bitOf (field p 0 1) 2, confidential := x.confidential || bitOf (field p 0 1) 3 }

/-- How a roll of context `n` ends once its secret is known: with a new HBM key it waits for the pages, otherwise the epoch counts. -/
def rollEnd (i : Iss) (p : Bytes) (n : Nat) (s : State) (cs : Option Bytes) : Res :=
  if bitOf (field p 0 1) 1 then
    .pend ({ s with keys := s.keys + 1 }.setCtx n { rolled p (s.ctx n) cs with oldKey := (s.ctx n).hbmKey, hbmKey := s.keys + 1 })
  else if i.defer then .pend (s.setCtx n (rolled p (s.ctx n) cs))
  else .ok (leBytes 8 ((s.ctx n).epoch + 1)) (s.setCtx n { rolled p (s.ctx n) cs with epoch := (s.ctx n).epoch + 1 })

/-- The secret that a roll leaves its context with, if the wrapped one opens. -/
def rollSecret (p : Bytes) (n : Nat) (s : State) : Option (Option Bytes) :=
  if bitOf (field p 0 1) 0 then (s.unwrapSecret n p).map some else some (s.ctx n).secret

theorem specSecCtxKeyRoll_run_of_ctx {n : Nat} (hn : field p 1 1 = n) (hctx : i.ctx = 0 ∨ n = i.ctx) (hpos : 1 ≤ n) (hlow : n ≤ 63)
    (hroll : s.rolling n = false) (hst : (s.ctx n).st = 1) (hepoch : field p 8 8 = (s.ctx n).epoch)
    (hsecret : bitOf (field p 0 1) 3 = true → bitOf (field p 0 1) 0 = true ∨ (s.ctx n).secret.isSome = true) :
    specSecCtxKeyRoll.run i p s = (rollSecret p n s).elim (.fail 0x112 0) (rollEnd i p n s) := by
  have hown := not_foreignCtx hctx
  have hin : (decide (n = 0) || decide (n > 63)) = false := by simp; omega
  have hhas : (bitOf (field p 0 1) 3 && !bitOf (field p 0 1) 0 && (s.ctx n).secret.isNone) = false := by
    cases h3 : bitOf (field p 0 1) 3 with
    | false => rfl
    | true => obtain h | h := hsecret h3 <;> simp [h]
  simp only [specSecCtxKeyRoll, hn, hown, hin, hroll, if_neg (not_not.mpr hst), if_neg (not_not.mpr hepoch), hhas, Bool.false_eq_true, ↓reduceIte]
  cases hwrapped : bitOf (field p 0 1) 0 with
  | false => simp only [rollSecret, hwrapped, Bool.false_and, Bool.false_eq_true, ↓reduceIte]; rfl
  | true =>
    cases hopen : s.unwrapSecret n p with
    | none => simp only [rollSecret, hwrapped, hopen, Option.isNone_none, Bool.and_true, ↓reduceIte]; rfl
    | some cs => simp only [rollSecret, hwrapped, hopen, Option.isNone_some, Bool.and_false, Bool.false_eq_true, ↓reduceIte]; rfl

theorem execKeyRollReencryptComplete_of_pending {ctx : Nat} {o : PendingOp}
    (hop : (s.ops.find? fun o => o.opcode == 0x0B02 && field o.payload 1 1 == ctx) = some o) (hlive : s.isFatal = false) :
    execKeyRollReencryptComplete ctx s = .next (finishOp o.ctx o.handle 0 0 (leBytes 8 ((s.ctx ctx).epoch + 1))
      (s.updCtx ctx fun x => { x with epoch := (s.ctx ctx).epoch + 1, oldKey := 0 })) := by
  unfold execKeyRollReencryptComplete
  rw [hop]
  exact if_neg (Bool.eq_false_iff.mp hlive)

/-! ### Debug state (R525) -/

/-- What SEC_DEBUG_STATE answers. -/
def debugAnswer (s : State) : Bytes :=
  leBytes 1 s.sys.debug ++ leBytes 1 (b2n (s.sys.debug == 2)) ++ leBytes 1 (b2n (s.sys.debug == 2)) ++ zeros 5
    ++ leBytes 4 s.sys.svn ++ leBytes 1 s.sys.rollback

theorem specSecDebugState_run_query (hop : field p 0 1 = 0) : specSecDebugState.run i p s = .ok (debugAnswer s) s := by
  simp only [specSecDebugState, hop, ne_eq, not_true_eq_false, decide_false, Bool.false_and, Bool.false_eq_true, gt_iff_lt, Nat.not_lt_zero,
    Nat.zero_ne_one, OfNat.zero_ne_ofNat, ↓reduceIte]
  rfl

theorem specSecDebugState_run_stage {u : State} (hop : field p 0 1 = 1) (hadmin : isAdmin i.mb = true)
    (hu : u = { s with sec := { s.sec with token := true }, sys := { s.sys with debug := max s.sys.debug 1 } }) :
    specSecDebugState.run i p s = if Config.unlockToken (p.drop 1) s.sys.rollback then .ok (debugAnswer u) u else .fail 0x112 0 := by
  subst hu
  simp only [specSecDebugState, hop, hadmin, Bool.not_true, Bool.and_false, Bool.false_eq_true, gt_iff_lt, Nat.not_lt.mpr Nat.one_le_ofNat, ↓reduceIte]
  cases Config.unlockToken (p.drop 1) s.sys.rollback with
  | false => rfl
  | true => rfl

theorem specSecDebugState_run_cancel {u : State} (hop : field p 0 1 = 2) (hadmin : isAdmin i.mb = true)
    (hu : u = { s with sec := { s.sec with token := false }, sys := { s.sys with debug := if s.sys.debug = 1 then 0 else s.sys.debug } }) :
    specSecDebugState.run i p s = .ok (debugAnswer u) u := by
  subst hu
  simp only [specSecDebugState, hop, hadmin, Bool.not_true, Bool.and_false, Bool.false_eq_true, gt_iff_lt, lt_irrefl, OfNat.ofNat_ne_one, ↓reduceIte]
  rfl

end Run

section Spdm
variable {tr : Nat} {s : State}

/-! ### The SPDM responder on a transport that is up (R510) -/

/-- The body of a CHALLENGE_AUTH response, which its signature follows. -/
def challengeBody (slot : Nat) (summary : Bool) (s : State) : Bytes :=
  [0x13, 0x03] ++ leBytes 1 slot ++ [3] ++ fitTo 48 (Config.sha384 (Config.certChain slot)) ++ fitTo 32 (Config.drbg (s.keys + 1) 32)
    ++ (if summary then fitTo 48 (Config.sha384 (allIndices.flatMap s.measureBlock)) else []) ++ zeros 10

theorem challengeBody_head (slot : Nat) (summary : Bool) (s : State) :
    (challengeBody slot summary s).take 4 = [0x13, 0x03] ++ leBytes 1 slot ++ [3] := rfl

theorem challengeBody_hash (slot : Nat) (summary : Bool) (s : State) :
    ((challengeBody slot summary s).drop 4).take 48 = fitTo 48 (Config.sha384 (Config.certChain slot)) := by
  have hdrop : (challengeBody slot summary s).drop 4 = fitTo 48 (Config.sha384 (Config.certChain slot)) ++ (fitTo 32 (Config.drbg (s.keys + 1) 32)
      ++ ((if summary then fitTo 48 (Config.sha384 (allIndices.flatMap s.measureBlock)) else []) ++ zeros 10)) := by
    simp only [challengeBody, List.append_assoc]
    rfl
  rw [hdrop]
  exact List.take_left' (length_fitTo 48 _)

theorem execSpdmChallenge_of_slot {slot : Nat} {nonce : List Byte} {summary : Bool} (hup : s.spdmUp tr = true) (hslot : slot ≤ 1) :
    execSpdmChallenge tr slot nonce summary s = .next (spdmSend tr
      (challengeBody slot summary s ++ fitTo 96 (Config.akSign s.sec.signs (Config.sha384 (nonce ++ challengeBody slot summary s))))
      { s with keys := s.keys + 1, sec := { s.sec with signs := s.sec.signs + 1 } }) := by
  unfold execSpdmChallenge
  rw [hup]
  exact if_neg (Nat.not_lt.mpr hslot)

theorem execSpdmChallenge_of_no_slot {slot : Nat} {nonce : List Byte} {summary : Bool} (hup : s.spdmUp tr = true) (hslot : 1 < slot) :
    execSpdmChallenge tr slot nonce summary s = .next (spdmSend tr (spdmError 1) s) := by
  unfold execSpdmChallenge
  rw [hup]
  exact if_pos hslot

theorem execSpdmGetCertificate_answers (slot off len : Nat) (hup : s.spdmUp tr = true) :
    ∃ bs, execSpdmGetCertificate tr slot off len s = .next (spdmSend tr bs s) := by
  unfold execSpdmGetCertificate
  rw [hup, Bool.not_true, if_neg Bool.false_ne_true]
  split
  · exact ⟨_, rfl⟩
  · exact ⟨_, rfl⟩

theorem execSpdmGetMeasurements_answers (ix : Nat) (nonce : List Byte) (signed : Bool) (hup : s.spdmUp tr = true) :
    ∃ bs k, k ≤ 1 ∧ execSpdmGetMeasurements tr ix nonce signed s = .next (spdmSend tr bs { s with
      keys := s.keys + k, sec := { s.sec with signs := s.sec.signs + (if signed then k else 0) } }) := by
  unfold execSpdmGetMeasurements
  rw [hup, Bool.not_true, if_neg Bool.false_ne_true]
  by_cases hnone : (if ix = 255 then allIndices else allIndices.filter (· == ix)).isEmpty = true
  · exact ⟨spdmError 1, 0, Nat.zero_le 1, (if_pos hnone).trans (by rw [ite_self]; rfl)⟩
  · cases signed with
    | false => exact ⟨_, 1, le_rfl, (if_neg hnone).trans rfl⟩
    | true => exact ⟨_, 1, le_rfl, (if_neg hnone).trans rfl⟩

theorem execSpdmKeyExchange_of_slot {slot : Nat} {msg : List Byte} (hup : s.spdmUp tr = true) (hslot : slot ≤ 1) :
    execSpdmKeyExchange tr slot msg s = .next (spdmSend tr ([0x13, 0x64, 0, 0] ++ Config.keyExchange s.sec.signs msg)
      { s with sec := { s.sec with signs := s.sec.signs + 1, session := NSet.ins tr s.sec.session } }) := by
  unfold execSpdmKeyExchange
  rw [hup]
  exact if_neg (Nat.not_lt.mpr hslot)

/-! ### MCTP (R551) -/

theorem execMctpControlMessage_of_up {kind op : Nat} {q : Request} (hup : s.spdmUp tr = true) (htr : tr ≠ 0) :
    execMctpControlMessage tr kind op q s = if kind = 0 then .next (mctpControl tr op q.payload s)
      else if kind = 1 then .next (mctpRequest tr op q s) else .next s := by
  simp only [State.spdmUp, Bool.and_eq_true, decide_eq_true_eq] at hup
  obtain ⟨⟨⟨hvaux, -⟩, hle⟩, -⟩ := hup
  refine if_neg ?_
  simp only [hvaux, Bool.not_true, Bool.false_or, Bool.or_eq_true, decide_eq_true_eq, not_or]
  omega

end Spdm

/-- Settles O41: each command by its own rule, and each SPDM request by what its answer leaves. -/
theorem securityCommands : Obligations.SecurityCommands := by
  unfold Obligations.SecurityCommands
  refine ⟨fun q c p ind s => ⟨?certs, ?measure, ?roll, ?rolled, ?debug⟩, fun tr s hup => ⟨?cert, ?challenge, ?measurements, ?exchange, ?signed, ?mctp⟩⟩
  case certs =>
    exact fun hadm hslot hlen => submit_of_run_ok hadm (specSecCerts_run_of_slot (i := issOf specSecCerts.opcode c q s)
      (s := s.taken specSecCerts.opcode q) hslot hlen)
  case measure =>
    exact fun hadm hctx hlow => submit_of_run_ok hadm (specSecMeasurements_run_of_ctx (i := issOf specSecMeasurements.opcode c q s)
      (s := s.taken specSecMeasurements.opcode q) hctx hlow)
  case roll =>
    intro n x fl t y hadm _ hctx hpos hlow hroll hst hepoch hsecret
    refine (submit_of_run hadm (specSecCtxKeyRoll_run_of_ctx (i := issOf specSecCtxKeyRoll.opcode c q s)
      (s := s.taken specSecCtxKeyRoll.opcode q) rfl hctx hpos hlow hroll hst hepoch hsecret)).trans ?_
    refine congrArg (fun r => Host.Outcome.next (concluded specSecCtxKeyRoll q c p ind t r)) ?_
    cases h : rollSecret p n t with
    | none =>
      have h' : (if bitOf fl 0 = true then (s.unwrapSecret n p).map some else some x.secret) = none := h
      refine (congrArg (fun o : Option (Option Bytes) => o.elim _ _) h).trans ?_
      rw [h']
      rfl
    | some cs =>
      have h' : (if bitOf fl 0 = true then (s.unwrapSecret n p).map some else some x.secret) = some cs := h
      refine (congrArg (fun o : Option (Option Bytes) => o.elim _ _) h).trans ?_
      rw [h']
      rfl
  case rolled => exact fun ctx o hop hlive => execKeyRollReencryptComplete_of_pending hop hlive
  case debug =>
    intro told
    refine ⟨?query, ?stage, ?cancel⟩
    case query =>
      intro q0 t hadm hop
      exact submit_of_run_ok hadm (specSecDebugState_run_query (i := issOf specSecDebugState.opcode c q0 s)
        (s := s.taken specSecDebugState.opcode q0) hop)
    case stage =>
      intro q1 t u hadm hop hadmin
      rw [← withOp_mailbox 1 q] at hadmin
      exact submit_of_run hadm (specSecDebugState_run_stage (i := issOf specSecDebugState.opcode c q1 s)
        (s := s.taken specSecDebugState.opcode q1) hop hadmin rfl)
    case cancel =>
      intro q2 t u hadm hop hadmin
      rw [← withOp_mailbox 2 q] at hadmin
      exact submit_of_run_ok hadm (specSecDebugState_run_cancel (i := issOf specSecDebugState.opcode c q2 s)
        (s := s.taken specSecDebugState.opcode q2) hop hadmin rfl)
  case cert => exact fun slot off len => execSpdmGetCertificate_answers slot off len hup
  case challenge =>
    intro slot nonce sum
    obtain hslot | hslot := Nat.lt_or_ge 1 slot
    · exact ⟨_, 0, Nat.zero_le 1, execSpdmChallenge_of_no_slot hup hslot⟩
    · exact ⟨_, 1, le_rfl, execSpdmChallenge_of_slot hup hslot⟩
  case measurements => exact fun ix nonce signed => execSpdmGetMeasurements_answers ix nonce signed hup
  case exchange => exact fun slot msg hslot => ⟨_, execSpdmKeyExchange_of_slot hup hslot⟩
  case signed =>
    exact fun slot nonce sum hslot => ⟨challengeBody slot sum s, _, execSpdmChallenge_of_slot hup hslot, rfl, challengeBody_head slot sum s,
      challengeBody_hash slot sum s⟩
  case mctp => exact fun op q htr => ⟨execMctpControlMessage_of_up hup htr, execMctpControlMessage_of_up hup htr⟩

end Sys2Proof.Machine
end

section
/-! PROOFS for 17_host_and_network_ports.md: Network Ports. -/

namespace Sys2Proof.Machine
open Sys2Proof

/-! ### Packets that leave -/

/-- What sending a packet leaves as it was. -/
structure SendKept (s t : State) : Prop where
  mem : t.mem = s.mem
  mbs : t.mbs = s.mbs
  ctxs : t.ctxs = s.ctxs

theorem SendKept.refl (s : State) : SendKept s s := ⟨rfl, rfl, rfl⟩

theorem SendKept.trans {s t u : State} (h : SendKept s t) (g : SendKept t u) : SendKept s u :=
  ⟨g.mem.trans h.mem, g.mbs.trans h.mbs, g.ctxs.trans h.ctxs⟩

theorem npCnt_nports (p n k : Nat) (s : State) : (npCnt p n k s).nports = s.nports := by
  unfold npCnt
  split
  · rfl
  · rfl

theorem npCnt_sendKept (p n k : Nat) (s : State) : SendKept s (npCnt p n k s) := by
  unfold npCnt
  split
  · exact .refl s
  · exact ⟨rfl, rfl, rfl⟩

theorem npSend_sendKept (b psn op va : Nat) (bs : Bytes) (s : State) : SendKept s (npSend b psn op va bs s) := by
  unfold npSend
  extract_lets p
  split
  · exact .refl s
  · have hput (x : NetPort → NetPort) : SendKept s (s.updNport p x) := ⟨rfl, rfl, rfl⟩
    exact (hput _).trans ((npCnt_sendKept ..).trans (npCnt_sendKept ..))

theorem State.nport_setNport_of_link (s : State) (p : Nat) {x : NetPort} (h : x.link ≠ 0) : (s.setNport p x).nport p = x :=
  SMap.get_set_ne (fun hx => h (congrArg NetPort.link hx)) s.nports p

theorem npSend_nport {b : Nat} {s : State} (hlink : (s.nport (b / 256)).link = 2) (psn op va : Nat) (bs : Bytes) :
    (npSend b psn op va bs s).nport (b / 256)
      = { s.nport (b / 256) with sent := (s.nport (b / 256)).sent ++ [(b, psn, op, va, bs)] } := by
  unfold npSend State.nport
  refine (congrArg (fun t : State => SMap.get NetPort.init t.nports (b / 256)) (if_neg (not_not.mpr hlink))).trans ?_
  rw [npCnt_nports, npCnt_nports]
  exact State.nport_setNport_of_link s (b / 256) (by rw [hlink]; exact two_ne_zero)

section Sends
variable (b : Nat) (op va : Nat × Nat × Bytes → Nat) (out : Nat × Nat × Bytes → Bytes)

theorem foldl_npSend_sendKept (ps : List (Nat × Nat × Bytes)) (s : State) :
    SendKept s (ps.foldl (fun s q => npSend b q.1 (op q) (va q) (out q) s) s) := by
  induction ps generalizing s with
  | nil => exact .refl s
  | cons q ps ih => exact (npSend_sendKept ..).trans (ih _)

theorem foldl_npSend_psns {s : State} (hlink : (s.nport (b / 256)).link = 2) (ps : List (Nat × Nat × Bytes)) :
    ((ps.foldl (fun s q => npSend b q.1 (op q) (va q) (out q) s) s).nport (b / 256)).sent.map (fun m => m.2.1)
      = (s.nport (b / 256)).sent.map (fun m => m.2.1) ++ ps.map (·.1) := by
  induction ps generalizing s with
  | nil => exact (List.append_nil _).symm
  | cons q ps ih =>
    have hport := npSend_nport hlink q.1 (op q) (va q) (out q)
    rw [List.foldl_cons, ih (by rw [hport]; exact hlink), hport, List.map_append, List.append_assoc]
    rfl

end Sends

/-! ### Reads of device memory are counted only -/

theorem hbmTaken_sendKept (a n : Nat) (s : State) : SendKept s (hbmTaken a n s) := by
  unfold hbmTaken
  split
  · exact .refl s
  · exact ⟨rfl, rfl, rfl⟩

theorem hbmTaken_nports (a n : Nat) (s : State) : (hbmTaken a n s).nports = s.nports := by
  unfold hbmTaken
  split
  · rfl
  · rfl

theorem satAdd_ne_zero {v k : Nat} (hk : 0 < k) : satAdd 64 v k ≠ 0 := by
  unfold satAdd
  omega

/-- A counter that moves leaves the settings of every unit, in any map: its unit is listed from then on. -/
theorem bump_sets_of_pos {k : Nat} (hk : 0 < k) (ty inst n ty' inst' : Nat) (s : State) :
    ((bump ty inst n k s).unit ty' inst').sets = (s.unit ty' inst').sets := by
  unfold bump State.updUnit State.setUnit State.unit
  by_cases hkey : ukey ty' inst' = ukey ty inst
  · have hlisted : { SMap.get UnitRegs.init s.units (ukey ty inst) with
        cnt := SMap.upd 0 (SMap.get UnitRegs.init s.units (ukey ty inst)).cnt n fun v => satAdd 64 v k } ≠ UnitRegs.init :=
      fun h => SMap.set_ne_nil (satAdd_ne_zero hk) _ _ (congrArg UnitRegs.cnt h)
    rw [hkey, SMap.get_set_ne hlisted]
  · rw [SMap.get_set_other s.units hkey]

theorem hbmTaken_npMtu (a n p : Nat) (b : Bytes) (s : State) : (hbmTaken a n s).npMtu p b = s.npMtu p b := by
  unfold hbmTaken
  split
  · rfl
  case _ hn =>
    unfold State.npMtu State.valueOf State.setting
    rw [bump_sets_of_pos (Nat.pos_of_ne_zero hn)]

theorem hbmTaken_chkOf (a n c : Nat) (s : State) : (hbmTaken a n s).chkOf c = s.chkOf c := by
  have hctx : (hbmTaken a n s).ctx c = s.ctx c := congrArg (SMap.get Context.init · c) (hbmTaken_sendKept a n s).ctxs
  rw [State.chkOf, hctx, State.chkOf]

theorem hbmTaken_hbmRead (a n b m : Nat) (s : State) : (hbmTaken a n s).hbmRead b m = s.hbmRead b m := by
  rw [State.hbmRead, (hbmTaken_sendKept a n s).mem, State.hbmRead]

/-! ### Descriptors of a Network Port (R493, R494, R497) -/

section Descriptors
variable {j ix p : Nat} {d : Bytes} {s : State} {x : NetBind}

section Bind
variable (hhead : s.npHead j 0x10 = some (ix, d, p)) (halign : field d 8 8 % 64 = 0) (hown : s.owns (s.ring j).ctx (field d 8 8) 128 = true)
  (hgood : s.hbmBad (field d 8 8) 128 = false)
include hhead halign hown hgood

theorem execNpBind_of_refused {st : Nat} (hcheck : bindCheck (s.ring j).ctx (s.hbmRead (field d 8 8) 128) s = some st) :
    execNpBind j s = .next (failArg j ix d st s) := by
  simp only [execNpBind, hhead, halign, hown, hgood, hcheck, ne_eq, not_true_eq_false, Bool.not_true, Bool.false_eq_true, ↓reduceIte]

theorem execNpBind_of_no_room (hcheck : bindCheck (s.ring j).ctx (s.hbmRead (field d 8 8) 128) s = none) (hfree : s.freeBind p = none) :
    execNpBind j s = .next (failArg j ix d eNoResource s) := by
  simp only [execNpBind, hhead, halign, hown, hgood, hcheck, hfree, ne_eq, not_true_eq_false, Bool.not_true, Bool.false_eq_true, ↓reduceIte]

theorem execNpBind_of_free {b : Bytes} {q n : Nat} (hb : s.hbmRead (field d 8 8) 128 = b) (hq : (s.nport p).nextQp = q)
    (hcheck : bindCheck (s.ring j).ctx b s = none) (hfree : s.freeBind p = some n) :
    execNpBind j s = .next (finish j 0 0 ([0, 0] ++ leBytes 2 n ++ leBytes 3 (q % 2 ^ 24) ++ [0] ++ leBytes 4 (q % 2 ^ 32) ++ zeros 12)
      (begin j ix d (served j ((s.setNport p { s.nport p with nextQp := q + 1 }).setBind n { NetBind.init with
        ctx := (s.ring j).ctx, kind := field b 0 1, block := b, qpn := q % 2 ^ 24, rkey := q % 2 ^ 32, st := 1, sqPsn := field b 32 3
        rqPsn := field b 35 3 })))) := by
  simp only [execNpBind, hhead, halign, hown, hgood, hb, hq, hcheck, hfree, ne_eq, not_true_eq_false, Bool.not_true, Bool.false_eq_true, ↓reduceIte]

end Bind

theorem execNpUnbind_of_named (hhead : s.npHead j 0x11 = some (ix, d, p)) (hnamed : bindNamed (s.ring j).ctx d s = .inr x) :
    execNpUnbind j s = .next (finish j 0 0 (npDetail 0 1) (unbind (field d 8 2) (begin j ix d (served j s)))) := by
  simp only [execNpUnbind, hhead, hnamed]

theorem execNpUnbind_of_refused {st : Nat} (hhead : s.npHead j 0x11 = some (ix, d, p)) (hnamed : bindNamed (s.ring j).ctx d s = .inl st) :
    execNpUnbind j s = .next (failArg j ix d st s) := by
  simp only [execNpUnbind, hhead, hnamed]

section Transfer
variable (hbind : s.bind (field d 8 2) = some x) (hcheck : npCheck (s.ring j).ctx d s = none) (hpaused : s.npPaused p x = false)
include hbind hcheck hpaused

theorem execNpWrite_of_failed (hhead : s.npHead j 0x12 = some (ix, d, p)) (hgood : s.hbmBad (npLocal d) (npBytes d) = false) (hst : x.st = 2) :
    execNpWrite j s = .next (npEnd j eAborted 2 (begin j ix d (served j s))) := by
  simp only [execNpWrite, hhead, hcheck, hbind, hpaused, hgood, hst, Bool.false_eq_true, ↓reduceIte]

theorem execNpRead_of_failed (hhead : s.npHead j 0x13 = some (ix, d, p)) (hst : x.st = 2) :
    execNpRead j s = .next (npEnd j eAborted 2 (begin j ix d (served j s))) := by
  simp only [execNpRead, hhead, hcheck, hbind, hpaused, hst, Bool.false_eq_true, ↓reduceIte]

theorem execNpRead_of_ready {t : State} (hhead : s.npHead j 0x13 = some (ix, d, p)) (hst : x.st ≠ 2) (ht : begin j ix d (served j s) = t) :
    execNpRead j s = .next (npSend (field d 8 2) x.sqPsn 2 (nbRemote x.block + npOffset d) (leBytes 8 (npBytes d)) (t.setBind (field d 8 2) { x with
      at_ := if x.unacked.isEmpty then t.now else x.at_
      sqPsn := psnAdd x.sqPsn (cdiv (npBytes d) (t.npMtu p x.block))
      unacked := x.unacked ++ [(x.sqPsn, 2, nbRemote x.block + npOffset d, npBytes d, j + 1)] })) := by
  subst ht
  simp only [execNpRead, hhead, hcheck, hbind, hpaused, if_neg hst, Bool.false_eq_true, ↓reduceIte]

theorem execNpWrite_of_ready {t : State} (hhead : s.npHead j 0x12 = some (ix, d, p)) (hgood : s.hbmBad (npLocal d) (npBytes d) = false) (hst : x.st ≠ 2)
    (ht : begin j ix d (served j s) = t) : ∃ (op va : Nat × Nat × Bytes → Nat) (out : Nat × Nat × Bytes → Bytes) (y : NetBind),
    execNpWrite j s = .next ((packets (t.npMtu p x.block) x.sqPsn (npOut (t.chkOf (s.ring j).ctx) (npOffset d) (t.hbmRead (npLocal d) (npBytes d)))).foldl
      (fun s q => npSend (field d 8 2) q.1 (op q) (va q) (out q) s) ((hbmTaken (npLocal d) (npBytes d) t).setBind (field d 8 2) y)) := by
  subst ht
  simp only [execNpWrite, hhead, hcheck, hbind, hpaused, hgood, if_neg hst, Bool.false_eq_true, ↓reduceIte, hbmTaken_npMtu, hbmTaken_chkOf,
    hbmTaken_hbmRead]
  exact ⟨_, _, _, _, rfl⟩

end Transfer
end Descriptors

/-! ### What a Network Port receives (R491, R492, R495–R498, R503, R504) -/

section Receive
variable {p qpn psn b : Nat} {x : NetBind} {s : State}

section Link
variable (hlive : s.isFatal = false) (hp : p < 2) (hlink : (s.nport p).link = 2)
include hlive hp hlink

/-- A port that receives. -/
theorem port_receives : (decide (p ≥ 2) || decide ((s.nport p).link ≠ 2) || s.isFatal) = false := by
  rw [decide_eq_false (Nat.not_le.mpr hp), decide_eq_false (not_not.mpr hlink), hlive]
  rfl

theorem execRoceUnsupported_of_up : execRoceUnsupported p s = .next (npCnt p 13 1 (npRecv p 0 false none s)) :=
  if_neg (Bool.eq_false_iff.mp (port_receives hlive hp hlink))

theorem execFcsDrop_of_up : execFcsDrop p s = .next (npCnt p 6 1 s) :=
  if_neg (Bool.eq_false_iff.mp (port_receives hlive hp hlink))

theorem execPfcPauseFrame_of_prio {prio quanta : Nat} {t : State} (hprio : prio < 8) (ht : npCnt p 7 1 (npRecv p 0 false none s) = t) :
    execPfcPauseFrame p prio quanta s = if bitOf (t.valueOf Config.tNet p 2) prio then .next (t.updNport p fun y => { y with
      paused := (y.paused.filter fun q => q.1 != prio) ++ (if quanta = 0 then [] else [(prio, t.now + cdiv (quanta % 65536 * 64) 100)]) })
      else .next t := by
  subst ht
  refine (if_neg (Bool.eq_false_iff.mp (port_receives hlive hp hlink))).trans ?_
  simp only [hprio, decide_true, Bool.true_and]

theorem execNpLinkDown_of_up {t : State} (ht : npErr p 0 0 0 2 0 (s.updNport p fun x => { x with link := 0, since := s.now, paused := [] }) = t) :
    execNpLinkDown p s = .next (podsLost p ((t.binds.filter fun b => b.1 / 256 == p).foldl (fun s b => qpFail b.1 2 s) t)) := by
  subst ht
  refine if_neg ?_
  rw [decide_eq_false (Nat.not_le.mpr hp), hlink, hlive]
  exact Bool.false_ne_true

end Link

theorem execNpLinkUp_of_up (hlink : (s.nport p).link = 2) : execNpLinkUp p s = .next s := by
  refine if_pos ?_
  rw [hlink]
  simp

theorem execNpLinkUp_of_down (hlive : s.isFatal = false) (hp : p < 2) (hlink : (s.nport p).link ≠ 2) (hvin : s.sys.vin = true) :
    execNpLinkUp p s = .next (s.updNport p fun x => { x with link := 2 }) := by
  refine if_neg ?_
  rw [decide_eq_false (Nat.not_le.mpr hp), decide_eq_false hlink, hlive, hvin]
  exact Bool.false_ne_true

section Bound
variable (hlive : s.isFatal = false) (hlink : (s.nport p).link = 2) (hb : s.bindOf p qpn = some (b, x))
include hlive hlink hb

theorem execRoceCnp_of_bound : execRoceCnp p qpn s = .next (npCnt p 10 1 (npRecv p 0 false none (s.setBind b { x with cnp := x.cnp + 1 }))) := by
  simp only [execRoceCnp, hb, hlink, hlive, ne_eq, not_true_eq_false, decide_false, Bool.or_false, Bool.false_eq_true, ↓reduceIte]

variable (hst : x.st = 1)
include hst

omit hb in
/-- A queue pair that is ready on a link that is up. -/
theorem bind_receives : (decide ((s.nport p).link ≠ 2) || s.isFatal || decide (x.st ≠ 1)) = false := by
  rw [decide_eq_false (not_not.mpr hlink), decide_eq_false (not_not.mpr hst), hlive]
  rfl

theorem execRoceAck_of_ack {t : State} (ht : npRecv p 0 false none s = t) :
    execRoceAck p qpn psn 0 s = .next ((x.unacked.filter fun u => u.2.1 != 2 && psnLe u.1 psn).foldl
      (fun s u => if u.2.2.2.2 = 0 then s else npAcked (u.2.2.2.2 - 1) u.2.2.2.1 s)
      (t.setBind b { x with unacked := x.unacked.filter (fun u => !(u.2.1 != 2 && psnLe u.1 psn)), retries := 0, at_ := t.now })) := by
  subst ht
  have hready := bind_receives hlive hlink hst
  simp only [execRoceAck, hb, hready, Bool.false_eq_true, ↓reduceIte]

theorem execRoceAck_of_sequence_nak : execRoceAck p qpn psn 1 s = .next ((x.unacked.filter fun u => psnLe psn u.1).foldl (fun s u => resend b u.1 s)
    (npCnt p 11 (x.unacked.filter fun u => psnLe psn u.1).length (npRecv p 0 false none s))) := by
  have hready := bind_receives hlive hlink hst
  simp only [execRoceAck, hb, hready, Bool.false_eq_true, one_ne_zero, ↓reduceIte]

theorem execRoceAck_of_remote_nak : execRoceAck p qpn psn 2 s = .next (qpFail b 3 (npRecv p 0 false none s)) := by
  have hready := bind_receives hlive hlink hst
  simp only [execRoceAck, hb, hready, Bool.false_eq_true, OfNat.ofNat_ne_zero, OfNat.ofNat_ne_one, ↓reduceIte]

variable {n : Nat} {ecn : Bool} {k : Nat → NetBind → State → State}

theorem npArrive_of_expected (hpsn : psn = x.rqPsn) : npArrive p qpn psn n ecn k s = .next (k b x (npRecv p n ecn (some b) s)) := by
  have hready := bind_receives hlive hlink hst
  have hseq : seqCheck x psn = 0 := if_pos hpsn
  simp only [npArrive, hb, hready, hseq, Bool.false_eq_true, ↓reduceIte]

theorem npArrive_of_repeated (hseq : seqCheck x psn = 1) : npArrive p qpn psn n ecn k s = .next (npSend b psn 4 0 [] (npRecv p n ecn (some b) s)) := by
  have hready := bind_receives hlive hlink hst
  simp only [npArrive, hb, hready, hseq, Bool.false_eq_true, ↓reduceIte]

theorem npArrive_of_gap (hseq : seqCheck x psn = 2) : npArrive p qpn psn n ecn k s = .next (npSend b x.rqPsn 5 0 [] (npRecv p n ecn (some b) s)) := by
  have hready := bind_receives hlive hlink hst
  simp only [npArrive, hb, hready, hseq, Bool.false_eq_true, ↓reduceIte]

theorem execRoceSend_of_expected {data : Bytes} {t : State} (hpsn : psn = x.rqPsn) (ht : npRecv p data.length ecn (some b) s = t) :
    execRoceSend p qpn psn data ecn s = .next (if data.length > 256 then npCnt p 13 1 t
      else npSend b psn 4 0 [] ((t.setBind b { x with rqPsn := psnAdd psn 1 }).updNport p fun y => { y with recv := y.recv ++ [(b, data)] })) :=
  ht ▸ npArrive_of_expected hlive hlink hb hst hpsn

theorem execRoceRdmaRead_of_repeated {va key len : Nat} (hseq : seqCheck x psn = 1) :
    execRoceRdmaRead p qpn psn va key len ecn s = .next (npSend b psn 4 0 [] (npRecv p 0 ecn (some b) s)) :=
  npArrive_of_repeated hlive hlink hb hst hseq

theorem execRoceRdmaRead_of_gap {va key len : Nat} (hseq : seqCheck x psn = 2) :
    execRoceRdmaRead p qpn psn va key len ecn s = .next (npSend b x.rqPsn 5 0 [] (npRecv p 0 ecn (some b) s)) :=
  npArrive_of_gap hlive hlink hb hst hseq

end Bound

/-! #### WRITE and READ packets (R495, R496) -/

section Packet
variable {va key len : Nat} {data : Bytes} {fin : Nat → Nat → State → State} {t : State}

theorem npRefuse_of_access : npRefuse b psn 2 t = qpFail b 3 (npSend b psn 5 2 [] t) := by
  simp only [npRefuse, Nat.reduceEqDiff, ↓reduceIte]

theorem npWritePacket_of_wrong_key (hkey : key ≠ x.rkey) :
    npWritePacket psn true va key len data fin b x t = qpFail b 3 (npSend b psn 5 2 [] t) := by
  refine (if_pos ?_).trans ?_
  · rw [decide_eq_true hkey]
    rfl
  · rw [decide_eq_false hkey, Bool.and_false]
    exact npRefuse_of_access

theorem npWritePacket_of_ok {y : NetBind} (hkind : x.kind ≠ 2) (hok : writeOk x va len t = true) (hlen : data.length ≤ len)
    (himage : x.kind = 1 → writeOk x va data.length t = true ∧ repeatsOther x va data = false)
    (hy : y = { x with rqPsn := psnAdd psn 1, rx := if len - data.length = 0 then none else some (va + data.length, data.length, len - data.length) }) :
    npWritePacket psn true va x.rkey len data fin b x t = fin b data.length (npSend b psn 4 0 [] (npPlace b y va data (t.setBind b y))) := by
  subst hy
  have hfirst : (true && (decide (x.rkey ≠ x.rkey) || decide (x.kind = 2) || !writeOk x va len t)) = false := by
    rw [decide_eq_false (not_not.mpr rfl), decide_eq_false hkind, hok]
    rfl
  have hfits : (decide (data.length > len) || (x.kind == 1 && !writeOk x va data.length t) || (x.kind == 1 && repeatsOther x va data)) = false := by
    rw [decide_eq_false (Nat.not_lt.mpr hlen)]
    by_cases h1 : x.kind = 1
    · obtain ⟨hwindow, hsame⟩ := himage h1
      rw [hwindow, hsame, Bool.not_true, Bool.and_false, Bool.or_false, Bool.or_false]
    · rw [beq_eq_false_iff_ne.mpr h1]
      rfl
  unfold npWritePacket
  refine (if_neg (Bool.eq_false_iff.mp hfirst)).trans ((if_neg (Bool.eq_false_iff.mp hfits)).trans ?_)
  dsimp only
  rw [Nat.zero_add]

end Packet

section Read
variable {va key len : Nat} {ecn : Bool} {t : State} (hlive : s.isFatal = false) (hlink : (s.nport p).link = 2)
  (hb : s.bindOf p qpn = some (b, x)) (hst : x.st = 1) (hpsn : psn = x.rqPsn) (ht : npRecv p 0 ecn (some b) s = t)
include hlive hlink hb hst hpsn ht

theorem execRoceRdmaRead_of_wrong_key (hkey : key ≠ x.rkey) :
    execRoceRdmaRead p qpn psn va key len ecn s = .next (qpFail b 3 (npSend b psn 5 2 [] t)) := by
  refine (npArrive_of_expected hlive hlink hb hst hpsn).trans (congrArg Host.Outcome.next ?_)
  rw [ht]
  refine (if_pos ?_).trans npRefuse_of_access
  rw [decide_eq_true hkey, Bool.or_true]
  rfl

theorem execRoceRdmaRead_of_region (hkind : x.kind = 0) (hkey : key = x.rkey) (hlen : va + len ≤ nbBytes x.block)
    (hown : len ≠ 0 → t.owns x.ctx (nbBase x.block + va) len = true) (hchk : t.chkOf x.ctx = none) (hopen : (t.ctx x.ctx).confidential = false)
    (hgood : t.hbmBad (nbBase x.block + va) len = false) {ps : List (Nat × Nat × Bytes)}
    (hps : packets (t.npMtu p x.block) psn (t.hbmRead (nbBase x.block + va) len) = ps) :
    execRoceRdmaRead p qpn psn va key len ecn s = .next (ps.foldl (fun s q => npSend b q.1 7 (va + q.2.1) q.2.2 s)
      ((hbmTaken (nbBase x.block + va) len t).setBind b { x with rqPsn := psnAdd psn ps.length })) := by
  refine (npArrive_of_expected hlive hlink hb hst hpsn).trans (congrArg Host.Outcome.next ?_)
  have hown' : (decide (len ≠ 0) && !t.owns x.ctx (nbBase x.block + va) len) = false := by
    by_cases h : len = 0
    · rw [decide_eq_false (not_not.mpr h)]
      rfl
    · rw [hown h, Bool.not_true, Bool.and_false]
  have hreach : (decide (x.kind ≠ 0) || decide (key ≠ x.rkey) || decide (va + len > nbBytes x.block)
      || (decide (len ≠ 0) && !t.owns x.ctx (nbBase x.block + va) len)
      || ((t.ctx x.ctx).confidential && (decide (va % 64 ≠ 0) || decide (len % 64 ≠ 0)))) = false := by
    rw [decide_eq_false (not_not.mpr hkind), decide_eq_false (not_not.mpr hkey), decide_eq_false (Nat.not_lt.mpr hlen), hown', hopen]
    rfl
  rw [ht]
  dsimp only
  rw [if_neg (Bool.eq_false_iff.mp hreach), if_neg (Bool.eq_false_iff.mp hgood), hchk]
  dsimp only
  rw [hps]

end Read

/-! #### Time-outs and read responses (R492, R497) -/

section Timeout
variable (hlive : s.isFatal = false) (hb : s.bind b = some x) (hst : x.st = 1) (hwaits : x.unacked ≠ [])
include hlive hb hst hwaits

omit hb in
/-- A queue pair that waits for an acknowledgement. -/
theorem bind_waits : (decide (x.st ≠ 1) || x.unacked.isEmpty || s.isFatal) = false := by
  rw [decide_eq_false (not_not.mpr hst), hlive, List.isEmpty_eq_false_iff.mpr hwaits]
  rfl

theorem execQpRetryTimeout_of_last (hretries : 7 ≤ x.retries) :
    execQpRetryTimeout b s = .next (qpFail b 2 (atLeast (x.at_ + nbTimeout x.block) s)) := by
  have hready := bind_waits hlive hst hwaits
  simp only [execQpRetryTimeout, hb, hready, if_pos (show x.retries ≥ 7 from hretries), Bool.false_eq_true, ↓reduceIte]

theorem execQpRetryTimeout_of_again {t : State} (hretries : x.retries < 7) (ht : atLeast (x.at_ + nbTimeout x.block) s = t) :
    execQpRetryTimeout b s = .next (x.unacked.foldl (fun s u => resend b u.1 s)
      (npCnt (b / 256) 11 x.unacked.length (t.setBind b { x with retries := x.retries + 1, at_ := t.now }))) := by
  subst ht
  have hready := bind_waits hlive hst hwaits
  simp only [execQpRetryTimeout, hb, hready, if_neg (show ¬ x.retries ≥ 7 from Nat.not_le.mpr hretries), Bool.false_eq_true, ↓reduceIte]

end Timeout

theorem npCnt_now (p n k : Nat) (s : State) : (npCnt p n k s).now = s.now := by
  unfold npCnt
  split
  · rfl
  · rfl

theorem npRecv_now (p n : Nat) (s : State) : (npRecv p n false none s).now = s.now :=
  (npCnt_now p 1 1 _).trans (npCnt_now p 3 n s)

theorem hbmWrite_now (a : Nat) (bs : Bytes) (s : State) : (hbmWrite a bs s).now = s.now := by
  rw [hbmWrite_tells a bs s]
  rfl

theorem execRoceReadResponse_of_next {u : Nat × Nat × Nat × Nat × Nat} {c : Cur} {data : Bytes} {mtu n : Nat} (hlive : s.isFatal = false)
    (hlink : (s.nport p).link = 2) (hb : s.bindOf p qpn = some (b, x)) (hst : x.st = 1) (hu : (x.unacked.find? fun u => u.2.1 == 2) = some u)
    (hring : u.2.2.2.2 ≠ 0) (hcur : (s.ring (u.2.2.2.2 - 1)).cur = some c) (hphase : c.phase = 0) (hmtu : s.npMtu p x.block = mtu)
    (hn : min mtu (npBytes c.desc - c.ackBytes) = n) (hpsn : psn = psnAdd u.1 (c.ackBytes / mtu)) (hlen : data.length = n) (hchk : c.chk = none) :
    execRoceReadResponse p qpn psn data s = .next (npAcked (u.2.2.2.2 - 1) n ((npCnt p 14 n (hbmWrite (npLocal c.desc + c.ackBytes) data
      (npRecv p n false none s))).setBind b { x with
        retries := 0, at_ := s.now, unacked := if c.ackBytes + n = npBytes c.desc then x.unacked.erase u else x.unacked })) := by
  have hready : (decide ((s.nport p).link ≠ 2) || s.isFatal || decide (x.st ≠ 1) || decide (u.2.2.2.2 = 0) || decide (c.phase ≠ 0)
      || decide (psn ≠ psnAdd u.1 (c.ackBytes / mtu)) || decide (data.length ≠ n)) = false := by
    rw [bind_receives hlive hlink hst, decide_eq_false hring, decide_eq_false (not_not.mpr hphase), decide_eq_false (not_not.mpr hpsn),
      decide_eq_false (not_not.mpr hlen)]
    rfl
  have hplain : npIn c.chk (npOffset c.desc + c.ackBytes) data = data := by
    rw [hchk]
    rfl
  have hnow : (npCnt p 14 n (hbmWrite (npLocal c.desc + c.ackBytes) data (npRecv p n false none s))).now = s.now := by
    rw [npCnt_now, hbmWrite_now, npRecv_now]
  simp only [execRoceReadResponse, hb, hu, hcur, hmtu, hn, hready, hplain, hnow, Bool.false_eq_true, ↓reduceIte]

end Receive

/-- Settles O56: each descriptor and each packet by its own rule. -/
theorem networkCommands : Obligations.NetworkCommands := by
  unfold Obligations.NetworkCommands
  refine ⟨fun j ix p d s => ?descriptors, fun p qpn psn b x s hlive hp hlink => ?ports⟩
  case descriptors =>
    intro c
    refine ⟨?bind, ?unbind, ?transfer⟩
    case bind =>
      intro hhead halign hown hgood b q
      exact ⟨fun st hcheck => execNpBind_of_refused hhead halign hown hgood hcheck,
        fun n hcheck hfree => execNpBind_of_free hhead halign hown hgood rfl rfl hcheck hfree,
        fun hcheck hfree => execNpBind_of_no_room hhead halign hown hgood hcheck hfree⟩
    case unbind =>
      exact fun hhead => ⟨fun x hnamed => execNpUnbind_of_named hhead hnamed, fun st hnamed => execNpUnbind_of_refused hhead hnamed⟩
    case transfer =>
      intro x hbind hcheck hpaused t
      refine ⟨fun hst => ⟨fun hhead hgood => execNpWrite_of_failed hbind hcheck hpaused hhead hgood hst,
        fun hhead => execNpRead_of_failed hbind hcheck hpaused hhead hst⟩, ?read, ?write⟩
      case read =>
        intro hst hhead va
        exact execNpRead_of_ready hbind hcheck hpaused hhead hst rfl
      case write =>
        intro hst hhead hgood
        obtain ⟨op, va, out, y, hexec⟩ := execNpWrite_of_ready hbind hcheck hpaused hhead hgood hst rfl
        have hready : SendKept s ((hbmTaken (npLocal d) (npBytes d) t).setBind (field d 8 2) y) :=
          SendKept.trans (t := t) ⟨rfl, rfl, rfl⟩ ((hbmTaken_sendKept ..).trans ⟨rfl, rfl, rfl⟩)
        obtain ⟨hmem, hmbs, hctxs⟩ := hready.trans (foldl_npSend_sendKept (field d 8 2) op va out _ _)
        refine ⟨_, hexec, hmem, hmbs, hctxs, fun hlink hport => ?_⟩
        subst hport
        have hnport : ((hbmTaken (npLocal d) (npBytes d) t).setBind (field d 8 2) y).nport (field d 8 2 / 256) = s.nport (field d 8 2 / 256) :=
          congrArg (SMap.get NetPort.init · (field d 8 2 / 256)) (hbmTaken_nports (npLocal d) (npBytes d) t)
        exact (foldl_npSend_psns (field d 8 2) op va out (by rw [hnport]; exact hlink) _).trans (by rw [hnport])
  case ports =>
    refine ⟨execRoceUnsupported_of_up hlive hp hlink, execFcsDrop_of_up hlive hp hlink, ?pause, execNpLinkDown_of_up hlive hp hlink rfl,
      execNpLinkUp_of_up hlink, ?up, fun hb => ⟨execRoceCnp_of_bound hlive hlink hb, ?ack, ?send, ?read, ?sequence⟩, ?timeout, ?response⟩
    case pause =>
      intro prio quanta t hprio
      exact ⟨fun hbit => (execPfcPauseFrame_of_prio hlive hp hlink hprio rfl).trans (if_neg (Bool.eq_false_iff.mp hbit)),
        fun hbit => (execPfcPauseFrame_of_prio hlive hp hlink hprio rfl).trans (if_pos hbit)⟩
    case up => exact fun hvin => execNpLinkUp_of_down (s := { s with nports := [] }) hlive hp (Nat.zero_ne_add_one 1) hvin
    case ack =>
      intro hst t mine
      exact ⟨execRoceAck_of_ack hlive hlink hb hst rfl, execRoceAck_of_remote_nak hlive hlink hb hst, execRoceAck_of_sequence_nak hlive hlink hb hst⟩
    case send =>
      intro hst hpsn data ecn t
      refine ⟨fun first va key len => ⟨npArrive_of_expected hlive hlink hb hst hpsn, ?_, fun imm => ⟨_, npArrive_of_expected hlive hlink hb hst hpsn, ?_⟩⟩,
        ?place, fun hlen => ?short, fun hlen => ?long⟩
      · rintro rfl hkey
        exact npWritePacket_of_wrong_key hkey
      · rintro rfl hkey
        exact npWritePacket_of_wrong_key hkey
      case place =>
        intro va len hkind hok hlen himage y
        exact npWritePacket_of_ok hkind hok hlen himage rfl
      case short => exact (execRoceSend_of_expected hlive hlink hb hst hpsn rfl).trans (congrArg Host.Outcome.next (if_neg (Nat.not_lt.mpr hlen)))
      case long => exact (execRoceSend_of_expected hlive hlink hb hst hpsn rfl).trans (congrArg Host.Outcome.next (if_pos hlen))
    case read =>
      intro hst hpsn va key len ecn t
      refine ⟨execRoceRdmaRead_of_wrong_key hlive hlink hb hst hpsn rfl, ?_⟩
      intro hkind hkey hlen hown hchk hopen hgood ps
      exact execRoceRdmaRead_of_region hlive hlink hb hst hpsn rfl hkind hkey hlen hown hchk hopen hgood rfl
    case sequence =>
      intro hst va key len ecn t
      exact ⟨execRoceRdmaRead_of_repeated hlive hlink hb hst, execRoceRdmaRead_of_gap hlive hlink hb hst⟩
    case timeout =>
      intro hb hst hwaits t
      exact ⟨execQpRetryTimeout_of_last hlive hb hst hwaits, fun hretries => execQpRetryTimeout_of_again hlive hb hst hwaits hretries rfl⟩
    case response =>
      intro u c data hb hst hu hring hcur hphase mtu n hpsn hlen hchk
      exact execRoceReadResponse_of_next hlive hlink hb hst hu hring hcur hphase rfl rfl hpsn hlen hchk

end Sys2Proof.Machine
end

section
/-! PROOFS for 95_what_each_step_holds.md: what a command leaves as it was, as an equation of states with the parts that it may change blank. -/

namespace Sys2Proof.Machine
open Sys2Proof

/-! ### Parts of the state -/

/-- A set of parts of the state: of its fields, and of those of its memories. -/
structure Parts where
  now : Bool := false
  free : Bool := false
  keys : Bool := false
  sys : Bool := false
  mbs : Bool := false
  ctxs : Bool := false
  ops : Bool := false
  cfg : Bool := false
  rings : Bool := false
  cores : Bool := false
  units : Bool := false
  log : Bool := false
  prings : Bool := false
  chans : Bool := false
  jobs : Bool := false
  step : Bool := false
  upds : Bool := false
  sweeps : Bool := false
  lens : Bool := false
  images : Bool := false
  groups : Bool := false
  beam : Bool := false
  mirror : Bool := false
  binds : Bool := false
  nports : Bool := false
  host : Bool := false
  sec : Bool := false
  agents : Bool := false
  ctls : Bool := false
  srv : Bool := false
  loupe : Bool := false
  hbm : Bool := false
  hostMem : Bool := false
  sram : Bool := false
  store : Bool := false
  storePoison : Bool := false
  pages : Bool := false
  allocs : Bool := false
  failed : Bool := false

def Parts.join (F G : Parts) : Parts where
  now := F.now || G.now
  free := F.free || G.free
  keys := F.keys || G.keys
  sys := F.sys || G.sys
  mbs := F.mbs || G.mbs
  ctxs := F.ctxs || G.ctxs
  ops := F.ops || G.ops
  cfg := F.cfg || G.cfg
  rings := F.rings || G.rings
  cores := F.cores || G.cores
  units := F.units || G.units
  log := F.log || G.log
  prings := F.prings || G.prings
  chans := F.chans || G.chans
  jobs := F.jobs || G.jobs
  step := F.step || G.step
  upds := F.upds || G.upds
  sweeps := F.sweeps || G.sweeps
  lens := F.lens || G.lens
  images := F.images || G.images
  groups := F.groups || G.groups
  beam := F.beam || G.beam
  mirror := F.mirror || G.mirror
  binds := F.binds || G.binds
  nports := F.nports || G.nports
  host := F.host || G.host
  sec := F.sec || G.sec
  agents := F.agents || G.agents
  ctls := F.ctls || G.ctls
  srv := F.srv || G.srv
  loupe := F.loupe || G.loupe
  hbm := F.hbm || G.hbm
  hostMem := F.hostMem || G.hostMem
  sram := F.sram || G.sram
  store := F.store || G.store
  storePoison := F.storePoison || G.storePoison
  pages := F.pages || G.pages
  allocs := F.allocs || G.allocs
  failed := F.failed || G.failed

/-- Every part of `F` is one of `G`. -/
def Parts.le (F G : Parts) : Prop := F.join G = G

theorem Parts.le.refl (F : Parts) : F.le F := by
  simp only [Parts.le, Parts.join, Bool.or_self]

theorem Parts.le.trans {F G H : Parts} (h : F.le G) (g : G.le H) : F.le H := by
  unfold Parts.le at *
  rw [← g, ← h]
  simp only [Parts.join, Bool.or_assoc, Bool.or_self_left]

/-- The state with the parts of `F` blank. -/
def State.rest (s : State) (F : Parts) : State where
  pending := s.pending
  now := bif F.now then 0 else s.now
  free := bif F.free then 0 else s.free
  keys := bif F.keys then 0 else s.keys
  sys := bif F.sys then State.reset.sys else s.sys
  mbs := bif F.mbs then [] else s.mbs
  ctxs := bif F.ctxs then [] else s.ctxs
  ops := bif F.ops then [] else s.ops
  cfg := bif F.cfg then State.reset.cfg else s.cfg
  rings := bif F.rings then [] else s.rings
  cores := bif F.cores then [] else s.cores
  units := bif F.units then [] else s.units
  log := bif F.log then State.reset.log else s.log
  prings := bif F.prings then [] else s.prings
  chans := bif F.chans then [] else s.chans
  jobs := bif F.jobs then [] else s.jobs
  step := bif F.step then State.reset.step else s.step
  upds := bif F.upds then [] else s.upds
  sweeps := bif F.sweeps then [] else s.sweeps
  lens := bif F.lens then [] else s.lens
  images := bif F.images then [] else s.images
  groups := bif F.groups then [] else s.groups
  beam := bif F.beam then State.reset.beam else s.beam
  mirror := bif F.mirror then State.reset.mirror else s.mirror
  binds := bif F.binds then [] else s.binds
  nports := bif F.nports then [] else s.nports
  host := bif F.host then State.reset.host else s.host
  sec := bif F.sec then State.reset.sec else s.sec
  agents := bif F.agents then [] else s.agents
  ctls := bif F.ctls then [] else s.ctls
  srv := bif F.srv then State.reset.srv else s.srv
  loupe := bif F.loupe then State.reset.loupe else s.loupe
  mem :=
    { hbm := bif F.hbm then [] else s.mem.hbm, sram := bif F.sram then [] else s.mem.sram
      host := bif F.hostMem then [] else s.mem.host, store := bif F.store then [] else s.mem.store
      hbmPoison := bif F.hbm then [] else s.mem.hbmPoison, sramPoison := bif F.sram then [] else s.mem.sramPoison
      sramUe := bif F.sram then [] else s.mem.sramUe, storePoison := bif F.storePoison then [] else s.mem.storePoison
      hostPoison := bif F.hostMem then [] else s.mem.hostPoison, pages := bif F.pages then [] else s.mem.pages
      allocs := bif F.allocs then [] else s.mem.allocs, failed := bif F.failed then [] else s.mem.failed }

theorem bif_or {α : Type} (a b : Bool) (d x : α) : (bif a || b then d else x) = bif b then d else bif a then d else x := by
  cases a <;> cases b <;> rfl

theorem State.rest_join (s : State) (F G : Parts) : s.rest (F.join G) = (s.rest F).rest G := by
  simp only [State.rest, Parts.join, bif_or]

/-- `t` is `s` but for the parts of `F`. -/
def Keeps (F : Parts) (s t : State) : Prop := t.rest F = s.rest F

namespace Keeps
variable {F L : Parts} {o s t : State}

theorem refl (F : Parts) (s : State) : Keeps F s s := rfl

theorem trans (h : Keeps F o s) (g : Keeps F s t) : Keeps F o t := Eq.trans g h

theorem mono (h : Keeps L s t) (hF : L.le F) : Keeps F s t := by
  have hjoin : Keeps (L.join F) s t := by
    unfold Keeps at *
    rw [State.rest_join, State.rest_join, h]
  rwa [show L.join F = F from hF] at hjoin

/-- What changes no more parts keeps what has been kept so far. -/
theorem after (g : Keeps L s t) (h : Keeps F o s) (hF : L.le F) : Keeps F o t := h.trans (g.mono hF)

/-- A function keeps what the functions that it calls keep, one after the other. -/
theorem chain (g : ∀ {o}, Keeps F o s → Keeps F o t) : Keeps F s t := g (refl F s)

theorem ite {c : Prop} [Decidable c] (h : Keeps F o s) (g : Keeps F o t) : Keeps F o (if c then s else t) := by
  split
  · exact h
  · exact g

theorem foldl {α : Type} {f : State → α → State} {l : List α} (hf : ∀ s x, Keeps F o s → Keeps F o (f s x)) (h : Keeps F o s) :
    Keeps F o (l.foldl f s) := by
  induction l generalizing s with
  | nil => exact h
  | cons x l ih => exact ih (hf s x h)

/-- Writing fields of `F` keeps the rest. -/
theorem update {now free keys : Nat} {sys : Sys} {mbs : List (Nat × Mailbox)} {ctxs : List (Nat × Context)} {ops : List PendingOp} {cfg : Cfg}
    {rings : List (Nat × Ring)} {cores : List (Nat × Core)} {units : List (Nat × UnitRegs)} {mem : Mems} {log : LogState}
    {prings : List (Nat × PRing)} {chans : List (Nat × Chan)} {jobs : List (Nat × Job)} {step : StepState} {upds : List (Nat × Upd)}
    {sweeps : List Sweep} {lens : List (Nat × LensTask)} {images : List (Nat × Image)} {groups : List (Nat × Group)} {beam : Beam}
    {mirror : Mirror} {binds : List (Nat × NetBind)} {nports : List (Nat × NetPort)} {host : HostPort} {sec : Sec}
    {agents : List (Nat × Agent)} {ctls : List (Nat × Ctl)} {srv : Serving} {loupe : Loupe} (h : Keeps F o s)
    (he : Keeps F s { s with
      now, free, keys, sys, mbs, ctxs, ops, cfg, rings, cores, units, mem, log, prings, chans, jobs, step, upds, sweeps, lens, images
      groups, beam, mirror, binds, nports, host, sec, agents, ctls, srv, loupe }) :
    Keeps F o { s with
      now, free, keys, sys, mbs, ctxs, ops, cfg, rings, cores, units, mem, log, prings, chans, jobs, step, upds, sweeps, lens, images
      groups, beam, mirror, binds, nports, host, sec, agents, ctls, srv, loupe } := h.trans he

theorem snd {α : Type} {p : α × State} {a : α} (e : p = (a, t)) (h : Keeps F o p.2) : Keeps F o t := by
  subst e
  exact h

theorem fst {α : Type} {p : State × α} {a : α} (e : p = (t, a)) (h : Keeps F o p.1) : Keeps F o t := by
  subst e
  exact h

theorem snd_snd {α β : Type} {p : α × β × State} {a : α} {b : β} (e : p = (a, b, t)) (h : Keeps F o p.2.2) : Keeps F o t := by
  subst e
  exact h

end Keeps

/-! ### What is a state only in some cases -/

/-- The outcome is a next state, which keeps all but the parts of `F`. -/
def Ends (F : Parts) (s : State) (x : Host.Outcome State Fault Refusal) : Prop :=
  match x with
  | .next t => Keeps F s t
  | _ => False

/-- Where a command's own rule leaves a state, it keeps all but the parts of `F`. -/
def ResKeeps (F : Parts) (s : State) (x : Res) : Prop :=
  match x with
  | .fail _ _ => True
  | .ok _ t | .failWith _ _ t | .pend t | .hold t => Keeps F s t

/-- Where a vector instruction leaves a state, it keeps all but the parts of `F`. -/
def VResKeeps (F : Parts) (s : State) (x : VRes) : Prop :=
  match x with
  | .ok _ _ t | .stop t => Keeps F s t
  | .stall _ => True

/-- Where a binding of a job's rings leaves a state, it keeps all but the parts of `F`. -/
def BindKeeps (F : Parts) (s : State) (x : (Nat × Nat) ⊕ State) : Prop :=
  match x with
  | .inl _ => True
  | .inr t => Keeps F s t

/-- Where an optional state is one, it keeps all but the parts of `F`. -/
def OptionKeeps (F : Parts) (s : State) (x : Option State) : Prop :=
  match x with
  | none => True
  | some t => Keeps F s t

/-- The rule of a command, and what follows its answer, keep all but the parts of `F`. -/
def SpecKeeps (F : Parts) (k : CmdSpec) : Prop :=
  (∀ {o} i p s, Keeps F o s → ResKeeps F o (k.run i p s)) ∧ ∀ {o} s, Keeps F o s → Keeps F o (k.after s)

namespace Ends
variable {F L : Parts} {o s : State} {x y : Host.Outcome State Fault Refusal}

theorem chain (g : ∀ {o}, Keeps F o s → Ends F o x) : Ends F s x := g (.refl F s)

theorem ite {c : Prop} [Decidable c] (h : Ends F o x) (g : Ends F o y) : Ends F o (if c then x else y) := by
  split
  · exact h
  · exact g

theorem after (g : Ends L s x) (h : Keeps F o s) (hF : L.le F) : Ends F o x := by
  cases x with
  | next t => exact Keeps.after g h hF
  | fault _ => exact g
  | refused _ => exact g

theorem mono (g : Ends L s x) (hF : L.le F) : Ends F s x := g.after (.refl F s) hF

end Ends

namespace ResKeeps
variable {F L : Parts} {o s : State} {x y : Res}

theorem chain (g : ∀ {o}, Keeps F o s → ResKeeps F o x) : ResKeeps F s x := g (.refl F s)

theorem ite {c : Prop} [Decidable c] (h : ResKeeps F o x) (g : ResKeeps F o y) : ResKeeps F o (if c then x else y) := by
  split
  · exact h
  · exact g

theorem after (g : ResKeeps L s x) (h : Keeps F o s) (hF : L.le F) : ResKeeps F o x := by
  cases x with
  | fail _ _ => exact trivial
  | ok _ _ => exact Keeps.after g h hF
  | failWith _ _ _ => exact Keeps.after g h hF
  | pend _ => exact Keeps.after g h hF
  | hold _ => exact Keeps.after g h hF

end ResKeeps

namespace VResKeeps
variable {F L : Parts} {o s : State} {x y : VRes}

theorem chain (g : ∀ {o}, Keeps F o s → VResKeeps F o x) : VResKeeps F s x := g (.refl F s)

theorem ite {c : Prop} [Decidable c] (h : VResKeeps F o x) (g : VResKeeps F o y) : VResKeeps F o (if c then x else y) := by
  split
  · exact h
  · exact g

theorem after (g : VResKeeps L s x) (h : Keeps F o s) (hF : L.le F) : VResKeeps F o x := by
  cases x with
  | ok _ _ _ => exact Keeps.after g h hF
  | stop _ => exact Keeps.after g h hF
  | stall _ => exact trivial

end VResKeeps

namespace BindKeeps
variable {F L : Parts} {o s : State} {x y : (Nat × Nat) ⊕ State}

theorem chain (g : ∀ {o}, Keeps F o s → BindKeeps F o x) : BindKeeps F s x := g (.refl F s)

theorem ite {c : Prop} [Decidable c] (h : BindKeeps F o x) (g : BindKeeps F o y) : BindKeeps F o (if c then x else y) := by
  split
  · exact h
  · exact g

theorem after (g : BindKeeps L s x) (h : Keeps F o s) (hF : L.le F) : BindKeeps F o x := by
  cases x with
  | inl _ => exact trivial
  | inr _ => exact Keeps.after g h hF

theorem of_eq {t : State} (e : x = .inr t) (h : BindKeeps F o x) : Keeps F o t := by
  subst e
  exact h

end BindKeeps

namespace OptionKeeps
variable {F L : Parts} {o s : State} {x y : Option State}

theorem chain (g : ∀ {o}, Keeps F o s → OptionKeeps F o x) : OptionKeeps F s x := g (.refl F s)

theorem ite {c : Prop} [Decidable c] (h : OptionKeeps F o x) (g : OptionKeeps F o y) : OptionKeeps F o (if c then x else y) := by
  split
  · exact h
  · exact g

theorem after (g : OptionKeeps L s x) (h : Keeps F o s) (hF : L.le F) : OptionKeeps F o x := by
  cases x with
  | none => exact trivial
  | some _ => exact Keeps.after g h hF

theorem of_eq {t : State} (e : x = some t) (h : OptionKeeps F o x) : Keeps F o t := by
  subst e
  exact h

theorem getD (g : OptionKeeps F o x) (h : Keeps F o s) : Keeps F o (x.getD s) := by
  cases x with
  | none => exact h
  | some t => exact g

end OptionKeeps

theorem SpecKeeps.mono {F L : Parts} {k : CmdSpec} (h : SpecKeeps L k) (hF : L.le F) : SpecKeeps F k :=
  ⟨fun i p s g => ((h.1 i p s (.refl L s)).after g hF), fun s g => (h.2 s (.refl L s)).after g hF⟩

/-! ### The parts of each scope -/

/-- What a record writes, but for the event log. -/
def Parts.records : Parts :=
  { free := true, sys := true, ctxs := true, rings := true, units := true, host := true, hbm := true, hostMem := true }

/-- What tells the outside: records, error registers, counters, the event log. -/
def Parts.tells : Parts := Parts.records.join { log := true }

/-- What a message to another device writes. -/
def Parts.sends : Parts := { free := true, sys := true, units := true, beam := true, sec := true }

/-- What the end of a job takes along. -/
def Parts.jobEnds : Parts := Parts.tells.join
  { ops := true, cores := true, prings := true, chans := true, jobs := true, upds := true, sweeps := true, lens := true, mirror := true }

/-- The parts of the state that a scope lets a command change. -/
def Scope.parts : Scope → Parts
  | .register => { free := true, units := true }
  | .ringReg => { rings := true }
  | .hostPort => { now := true, sys := true, units := true, host := true, loupe := true }
  | .signal => { Parts.tells with failed := true }
  | .descriptor => { Parts.tells with cores := true, upds := true, lens := true }
  | .head => { Parts.tells with
      ops := true, cores := true, prings := true, chans := true, jobs := true, step := true, upds := true, lens := true
      mirror := true }
  | .mailbox => { Parts.tells with mbs := true, ops := true }
  | .ring => { Parts.tells with mbs := true, ops := true, cores := true, lens := true }
  | .config => { Parts.tells with now := true, mbs := true, ops := true, cfg := true, beam := true, loupe := true }
  | .memory => { Parts.records with mbs := true, cores := true, sram := true }
  | .agent => { Parts.tells with mbs := true, ops := true, agents := true, pages := true, allocs := true }
  | .task => { Parts.tells with cores := true, upds := true, lens := true, sram := true }
  | .student => { Parts.tells with cores := true, prings := true, upds := true, lens := true, beam := true, sec := true, sram := true }
  | .lens => { Parts.tells with cores := true, upds := true, lens := true, sram := true }
  | .sampler => { Parts.tells with lens := true, srv := true, sram := true }
  | .copy => { Parts.tells with
      ops := true, cores := true, upds := true, lens := true, images := true, beam := true, sec := true, sram := true }
  | .prism => { Parts.tells with
      now := true, ops := true, cores := true, prings := true, chans := true, jobs := true, upds := true, lens := true, beam := true
      sec := true, srv := true, sram := true }
  | .update => { Parts.tells with
      ops := true, cores := true, prings := true, chans := true, jobs := true, step := true, upds := true, sweeps := true
      lens := true, beam := true, mirror := true, sec := true }
  | .engine => { Parts.tells with
      ops := true, cores := true, prings := true, chans := true, jobs := true, upds := true, sweeps := true, lens := true
      mirror := true, sram := true }
  | .net => { Parts.tells with
      now := true, ops := true, cores := true, prings := true, chans := true, jobs := true, step := true, upds := true, sweeps := true
      lens := true, groups := true, beam := true, mirror := true, binds := true, nports := true, sec := true }
  | .forward => { Parts.tells with
      ops := true, cores := true, prings := true, chans := true, jobs := true, upds := true, sweeps := true, lens := true
      beam := true, sec := true, sram := true, pages := true }
  | .store => { Parts.tells with now := true, images := true, ctls := true, store := true, storePoison := true }
  | .image => { Parts.tells with
      keys := true, mbs := true, ops := true, images := true, binds := true, store := true, storePoison := true }
  | .job => { Parts.tells with
      now := true, mbs := true, ops := true, cores := true, prings := true, chans := true, jobs := true, step := true, upds := true
      sweeps := true, lens := true, mirror := true }
  | .mirror => { Parts.tells with
      keys := true, mbs := true, ops := true, jobs := true, step := true, upds := true, groups := true, beam := true, mirror := true
      sec := true, pages := true, allocs := true }
  | .pod => { Parts.tells with mbs := true, ops := true, cores := true, upds := true, lens := true, groups := true }
  | .peer => { Parts.tells with
      ops := true, cores := true, prings := true, chans := true, jobs := true, upds := true, sweeps := true, lens := true
      groups := true, beam := true, mirror := true, sec := true, sram := true }
  | .loupe => { Parts.tells with now := true, sec := true, ctls := true, loupe := true }
  | .serving => { Parts.tells with mbs := true, ops := true, prings := true, chans := true, beam := true, sec := true, srv := true }
  | .security => { Parts.tells with keys := true, mbs := true, ops := true, sec := true }
  | .whole => { Parts.tells with
      now := true, keys := true, mbs := true, ops := true, cfg := true, cores := true, prings := true, chans := true, jobs := true
      step := true, upds := true, sweeps := true, lens := true, images := true, groups := true, beam := true, mirror := true
      binds := true, nports := true, sec := true, agents := true, ctls := true, srv := true, loupe := true, sram := true
      store := true, storePoison := true, pages := true, allocs := true, failed := true }

/-- What keeps all but the parts of a scope is within its frame. -/
theorem Keeps.within {k : Scope} {s t : State} (h : Keeps k.parts s t) : t = k.frame s t := by
  have hfill : k.frame s t = k.frame (s.rest k.parts) t := by cases k <;> rfl
  have hsame : k.frame (t.rest k.parts) t = t := by cases k <;> rfl
  rw [hfill, ← h, hsame]

end Sys2Proof.Machine
end

section
/-! PROOFS for 95_what_each_step_holds.md: shared operations. -/

namespace Sys2Proof.Machine
open Sys2Proof

variable {s : State}

/-! ### Named updates, and fields that no named update writes -/

theorem State.setMb_keeps {m : Nat} {x : Mailbox} : Keeps { mbs := true } s (s.setMb m x) := rfl

theorem State.setCtx_keeps {c : Nat} {x : Context} : Keeps { ctxs := true } s (s.setCtx c x) := rfl

theorem State.updCtx_keeps {c : Nat} {f : Context → Context} : Keeps { ctxs := true } s (s.updCtx c f) := rfl

theorem State.setRing_keeps {j : Nat} {x : Ring} : Keeps { rings := true } s (s.setRing j x) := rfl

theorem State.updRing_keeps {j : Nat} {f : Ring → Ring} : Keeps { rings := true } s (s.updRing j f) := rfl

theorem State.setUnit_keeps {ty inst : Nat} {x : UnitRegs} : Keeps { units := true } s (s.setUnit ty inst x) := rfl

theorem State.updUnit_keeps {ty inst : Nat} {f : UnitRegs → UnitRegs} : Keeps { units := true } s (s.updUnit ty inst f) := rfl

theorem State.setCore_keeps {c : Nat} {x : Core} : Keeps { cores := true } s (s.setCore c x) := rfl

theorem State.updCore_keeps {c : Nat} {f : Core → Core} : Keeps { cores := true } s (s.updCore c f) := rfl

/-! A field written as a whole. The value stands as a variable here: where it is known, comparing it may cost the kernel its depth. -/

theorem State.freeTo_keeps {n : Nat} : Keeps { free := true } s { s with free := n } := rfl

theorem State.nowTo_keeps {n : Nat} : Keeps { now := true } s { s with now := n } := rfl

theorem State.hostTo_keeps {x : HostPort} : Keeps { host := true } s { s with host := x } := rfl

theorem State.sweepsTo_keeps {x : List Sweep} : Keeps { sweeps := true } s { s with sweeps := x } := rfl

theorem State.logTo_keeps {x : LogState} : Keeps { log := true } s { s with log := x } := rfl

theorem State.loupeTo_keeps {x : Loupe} : Keeps { loupe := true } s { s with loupe := x } := rfl

theorem bump_keeps {ty inst n k : Nat} : Keeps { units := true } s (bump ty inst n k s) := State.setUnit_keeps

theorem setErr_keeps {ty inst bit ring index reason : Nat} : Keeps { units := true } s (setErr ty inst bit ring index reason s) :=
  State.setUnit_keeps

theorem hpErr_keeps {bit ctx addr : Nat} : Keeps { units := true } s (hpErr bit ctx addr s) := State.setUnit_keeps

theorem hostWrite_keeps {a : Nat} {bs : Bytes} : Keeps { hostMem := true } s (hostWrite a bs s) := rfl

theorem sramWrite_keeps {core off : Nat} {bs : Bytes} : Keeps { sram := true } s (sramWrite core off bs s) := rfl

theorem sramClear_keeps {core : Nat} : Keeps { sram := true } s (sramClear core s) := rfl

theorem State.fresh_keeps : Keeps { free := true } s s.fresh.2 := State.freeTo_keeps

theorem freshBytes_keeps {n : Nat} : Keeps { free := true } s (freshBytes n s).2 := State.freeTo_keeps

theorem poisonRead_keeps {addr : Nat} : Keeps Scope.register.parts s (poisonRead addr s) := .chain fun h =>
  bump_keeps.after (State.updUnit_keeps.after h rfl) rfl

theorem snoopOut_keeps {a n : Nat} : Keeps { units := true, host := true } s (snoopOut a n s) := .chain fun h => by
  unfold snoopOut
  extract_lets hit
  exact .ite h (bump_keeps.after (.update h rfl) rfl)

theorem hbmPut_keeps {a : Nat} {bs : Bytes} : Keeps { units := true, hbm := true } s (hbmPut a bs s) := .chain fun h => by
  unfold hbmPut
  extract_lets n part m t u
  have ht : Keeps _ _ t := .update h rfl
  have hu : Keeps _ _ u := bump_keeps.after ht rfl
  exact .ite hu (bump_keeps.after hu rfl)

theorem hbmWrite_keeps {a : Nat} {bs : Bytes} : Keeps { units := true, host := true, hbm := true } s (hbmWrite a bs s) := .chain fun h =>
  hbmPut_keeps.after (snoopOut_keeps.after h rfl) rfl

theorem spaceWrite_keeps {space a : Nat} {bs : Bytes} :
    Keeps { units := true, host := true, hbm := true, hostMem := true } s (spaceWrite space a bs s) := .chain fun h =>
  .ite (hbmWrite_keeps.after h rfl) (hostWrite_keeps.after h rfl)

theorem sendMsix_keeps {v : Nat} : Keeps { sys := true, units := true } s (sendMsix v s) := .chain fun h =>
  .ite h (.ite (bump_keeps.after (.update h rfl) rfl) (.update h rfl))

theorem ringPut_keeps {j : Nat} {rec : Bytes} : Keeps Parts.records s (ringPut j rec s) := .chain fun {o} h => by
  unfold ringPut
  extract_lets r
  split
  next b t e =>
    extract_lets u w
    have ht : Keeps Parts.records o t := by
      refine .snd e ?_
      split
      · exact freshBytes_keeps.after h rfl
      · exact h
    have hw : Keeps _ _ w := State.setRing_keeps.after (spaceWrite_keeps.after ht rfl) rfl
    exact .ite (sendMsix_keeps.after hw rfl) hw

theorem produce_keeps {j producer : Nat} {rec : Bytes} {v : Nat} : Keeps Parts.records s (produce j producer rec v s) := .chain fun h => by
  unfold produce
  extract_lets r
  split
  · exact State.setRing_keeps.after h rfl
  · exact sendMsix_keeps.after (ringPut_keeps.after h rfl) rfl

theorem drainHeld_keeps {j n : Nat} : Keeps Parts.records s (drainHeld j n s) := .chain fun h => by
  induction n generalizing s with
  | zero => exact h
  | succ n ih =>
    unfold drainHeld
    extract_lets r
    split
    · split
      · exact h
      · exact ih (sendMsix_keeps.after (ringPut_keeps.after (State.setRing_keeps.after h rfl) rfl) rfl)
    · exact h

theorem deliverEvent_keeps {c : Nat} {rec : Bytes} : Keeps Parts.records s (deliverEvent c rec s) := .chain fun h => by
  unfold deliverEvent
  extract_lets x
  split
  · split
    · exact ringPut_keeps.after (State.setCtx_keeps.after h rfl) rfl
    · split <;> exact State.setCtx_keeps.after h rfl
  · split <;> exact State.setCtx_keeps.after h rfl

theorem drainEvents_keeps {c n : Nat} : Keeps Parts.records s (drainEvents c n s) := .chain fun h => by
  induction n generalizing s with
  | zero => exact h
  | succ n ih =>
    unfold drainEvents
    extract_lets x
    split
    · split
      · exact h
      · exact ih (ringPut_keeps.after (State.setCtx_keeps.after h rfl) rfl)
    · exact h

theorem notify_keeps {c kind seq : Nat} : Keeps Parts.tells s (notify c kind seq s) := .chain fun h => by
  unfold notify
  split
  · exact State.setCtx_keeps.after h rfl
  · exact deliverEvent_keeps.after (h) rfl

theorem logPush_keeps {kind die : Nat} {data : Bytes} : Keeps Parts.tells s (logPush kind die data s) := .chain fun h => by
  unfold logPush
  extract_lets sev e aon src t
  have ht : Keeps _ _ t := h
  split
  · exact notify_keeps.after ht rfl
  · exact ht

theorem errTo_keeps {c : Nat} {e : Err} {logSeq : Nat} : Keeps Parts.tells s (errTo c e logSeq s) := .chain fun h => by
  unfold errTo
  extract_lets key
  split
  · exact h
  · exact deliverEvent_keeps.after (h) rfl

theorem raise_keeps {e : Err} : Keeps Parts.tells s (raise e s) := .chain fun h => by
  unfold raise
  extract_lets v seq t u
  have hv : Keeps _ _ v := .ite (poisonRead_keeps.after h rfl) h
  have hu : Keeps _ _ u := errTo_keeps.after (logPush_keeps.after hv rfl) rfl
  exact .ite hu (errTo_keeps.after hu rfl)

theorem finishOp_keeps {c handle status detail : Nat} {result : Bytes} :
    Keeps (Parts.records.join { ops := true }) s (finishOp c handle status detail result s) := .chain fun h => by
  unfold finishOp
  split
  · exact h
  · exact deliverEvent_keeps.after (.update h rfl) rfl

theorem atLeast_keeps {t : Nat} : Keeps { now := true } s (atLeast t s) := State.nowTo_keeps

/-! ### Ops -/

theorem spent_keeps {ty inst : Nat} {l : List Nat} : Keeps Scope.register.parts s (spent ty inst l s) := .chain fun h => by
  induction l generalizing s with
  | nil => exact h
  | cons x l ih =>
    unfold spent
    exact ih (bump_keeps.after (State.fresh_keeps.after h rfl) rfl)

theorem handleWait_keeps {j : Nat} : Keeps Scope.register.parts s (handleWait j s) := .chain fun h =>
  .ite (bump_keeps.after h rfl) h

theorem hbmTaken_keeps {a n : Nat} : Keeps Scope.register.parts s (hbmTaken a n s) := .chain fun h =>
  .ite h (bump_keeps.after h rfl)

theorem sramStore_keeps {core : Nat} {cells : List (Nat × Bytes)} : Keeps Scope.task.parts s (sramStore core cells s) := .chain fun h =>
  .update (.foldl (fun _ _ h1 => sramWrite_keeps.after h1 rfl) h) rfl

theorem mayLand_keeps {core : Nat} {l : List (Nat × Bytes)} : Keeps Scope.task.parts s (mayLand core l s) := .chain fun h => by
  induction l generalizing s with
  | nil => exact h
  | cons x l ih =>
    unfold mayLand
    exact ih (.ite (State.fresh_keeps.after h rfl) (sramWrite_keeps.after (State.fresh_keeps.after h rfl) rfl))

theorem sramMark_keeps {core off n : Nat} : Keeps Scope.task.parts s (sramMark core off n s) := rfl

theorem raiseUnit_keeps {e : Err} {cs : List Nat} : Keeps Parts.tells s (raiseUnit e cs s) := .chain fun h =>
  .foldl (fun _ _ h1 => errTo_keeps.after h1 rfl) (raise_keeps.after h rfl)

/-! ### Wire -/

theorem State.setPort_keeps {p : Nat} {x : Port} : Keeps { beam := true } s (s.setPort p x) := rfl

theorem State.updPort_keeps {p : Nat} {f : Port → Port} : Keeps { beam := true } s (s.updPort p f) := .chain fun h =>
  State.setPort_keeps.after h rfl

theorem portEmit_keeps {p : Nat} {f : Bytes} : Keeps { units := true, beam := true } s (portEmit p f s) := .chain fun h =>
  bump_keeps.after (State.updPort_keeps.after h rfl) rfl

theorem sendNull_keeps {p : Nat} : Keeps { units := true, beam := true } s (sendNull p s) := .chain fun h => by
  unfold sendNull
  extract_lets x
  split
  exact portEmit_keeps.after (State.setPort_keeps.after h rfl) rfl

theorem sendNumbered_keeps {p : Nat} {f : Bytes} : Keeps { units := true, beam := true } s (sendNumbered p f s) := .chain fun h => by
  unfold sendNumbered
  extract_lets x
  split
  extract_lets g s1
  have hs1 : Keeps _ _ s1 := State.setPort_keeps.after h rfl
  exact bump_keeps.after (portEmit_keeps.after hs1 rfl) rfl

theorem portPump_keeps {p n : Nat} : Keeps { units := true, beam := true } s (portPump p n s) := .chain fun h => by
  induction n generalizing s with
  | zero => exact h
  | succ n ih =>
    unfold portPump
    extract_lets x
    refine .ite h ?_
    split
    · exact h
    · extract_lets s1 s2 s3
      have hs1 : Keeps _ _ s1 := State.setPort_keeps.after h rfl
      have hs2 : Keeps _ _ s2 := sendNumbered_keeps.after hs1 rfl
      have hs3 : Keeps _ _ s3 := .ite hs2 (State.updPort_keeps.after hs2 rfl)
      exact ih hs3

theorem portGo_keeps {p : Nat} : Keeps { free := true, units := true, beam := true } s (portGo p s) := .chain fun h =>
  .ite (spent_keeps.after (portPump_keeps.after h rfl) rfl) (portPump_keeps.after h rfl)

theorem sendToward_keeps {inp : Nat} {f : Bytes} : Keeps { free := true, units := true, beam := true } s (sendToward inp f s) := .chain fun h => by
  unfold sendToward
  extract_lets _ held
  have hheld : Keeps _ _ held := h
  refine .ite hheld ?_
  split
  · extract_lets s1
    have hs1 : Keeps _ _ s1 := h
    exact portGo_keeps.after (State.updPort_keeps.after hs1 rfl) rfl
  · exact hheld

theorem sendMsg_keeps {dst cls stream : Nat} {enc : Bool} {m : Bytes} :
    Keeps { free := true, sys := true, units := true, beam := true } s (sendMsg dst cls stream enc m s) := .chain fun h =>
  .ite (.foldl (fun _ _ h1 => sendToward_keeps.after h1 rfl) h) h

/-! ### Access -/

theorem halfUndefined_keeps {core h : Nat} : Keeps { free := true, sram := true } s (halfUndefined core h s).2 := .chain fun hs =>
  State.freeTo_keeps.after (sramWrite_keeps.after hs rfl) rfl

theorem State.setGroup_keeps {g : Nat} {x : Group} : Keeps { groups := true } s (s.setGroup g x) := rfl

theorem State.updGroup_keeps {g : Nat} {f : Group → Group} : Keeps { groups := true } s (s.updGroup g f) := .chain fun h =>
  State.setGroup_keeps.after h rfl

theorem sendOne_keeps {og : Option Nat} {dev cls : Nat} {st : Option Nat} {a : Nat} {bs : Bytes} :
    Keeps Parts.sends s (sendOne og dev cls st a bs s) := .chain fun h => by
  unfold sendOne
  split
  · exact sendMsg_keeps.after h rfl
  · extract_lets n stream
    exact sendMsg_keeps.after h rfl

theorem sendGroup_keeps {og : Option Nat} {dev cls a : Nat} {bs : Bytes} : Keeps Parts.sends s (sendGroup og dev cls a bs s) := .chain fun h =>
  .foldl (fun _ _ h1 => sendOne_keeps.after h1 rfl) h

theorem sendStriped_keeps {og : Option Nat} {dev a : Nat} {bs : Bytes} : Keeps Parts.sends s (sendStriped og dev a bs s) := .chain fun h =>
  .foldl (fun _ _ h1 => .foldl (fun _ _ h2 => sendOne_keeps.after h2 rfl) h1) h

theorem openPeer_keeps {src cls stream : Nat} {msg : Bytes} : Keeps Parts.sends s (openPeer src cls stream msg s).2 := .chain fun h => by
  unfold openPeer
  split
  extract_lets key w
  split
  · exact h
  split
  · exact h
  · split
    · exact h
    · exact h

theorem State.setPring_keeps {ch n : Nat} {x : PRing} : Keeps { prings := true } s (s.setPring ch n x) := rfl

theorem State.updPring_keeps {ch n : Nat} {f : PRing → PRing} : Keeps { prings := true } s (s.updPring ch n f) := .chain fun h =>
  State.setPring_keeps.after h rfl

theorem State.setChan_keeps {ch : Nat} {x : Chan} : Keeps { chans := true } s (s.setChan ch x) := rfl

theorem State.updChan_keeps {ch : Nat} {f : Chan → Chan} : Keeps { chans := true } s (s.updChan ch f) := .chain fun h =>
  State.setChan_keeps.after h rfl

theorem State.setJob_keeps {j : Nat} {x : Job} : Keeps { jobs := true } s (s.setJob j x) := rfl

theorem State.setUpd_keeps {u : Nat} {x : Upd} : Keeps { upds := true } s (s.setUpd u x) := rfl

theorem State.setImage_keeps {h : Nat} {x : Image} : Keeps { images := true } s (s.setImage h x) := rfl

theorem hostPut_keeps {chk : Option Bytes} {a : Nat} {bs : Bytes} : Keeps Parts.records s (hostPut chk a bs s) := .chain fun h => by
  unfold hostPut
  split
  · exact hostWrite_keeps.after h rfl
  · extract_lets l0 cnt old
    exact hostWrite_keeps.after h rfl

theorem State.setBind_keeps {b : Nat} {x : NetBind} : Keeps { binds := true } s (s.setBind b x) := rfl

theorem consumedTo_keeps {b v len img : Nat} : Keeps Scope.image.parts s (consumedTo b v len img s) := .chain fun h => by
  unfold consumedTo
  split
  · extract_lets s'
    have hs' : Keeps _ _ s' := State.setBind_keeps.after h rfl
    exact .ite (.update hs' rfl) hs'
  · exact h

theorem createRing_keeps {j kind slotLog2 slots base space ty inst compl vector c : Nat} :
    Keeps Scope.ringReg.parts s (createRing j kind slotLog2 slots base space ty inst compl vector c s) := .chain fun h =>
  State.setRing_keeps.after h rfl

/-! ### SciCore -/

theorem mbComplete_keeps {m op : Nat} {q : Request} {status detail handle len : Nat} {payload : Bytes} :
    Keeps { sys := true, mbs := true, units := true } s (mbComplete m op q status detail handle len payload s) := .chain fun h =>
  .ite (State.setMb_keeps.after h rfl) (.ite (sendMsix_keeps.after (State.setMb_keeps.after h rfl) rfl) (State.setMb_keeps.after h rfl))

theorem flagRecord_keeps {op : Nat} {q : Request} {c status detail : Nat} {payload : Bytes} :
    Keeps Parts.records s (flagRecord op q c status detail payload s) := .chain fun h =>
  .ite (deliverEvent_keeps.after h rfl) h

theorem answer_keeps {m op c : Nat} {q : Request} {ind : Option Indirect} {status detail : Nat} {payload : Bytes} :
    Keeps (Parts.records.join { mbs := true }) s (answer m op c q ind status detail payload s) := .chain fun h => by
  unfold answer
  split
  · exact .ite (flagRecord_keeps.after (mbComplete_keeps.after (spaceWrite_keeps.after h rfl) rfl) rfl)
      (flagRecord_keeps.after (mbComplete_keeps.after h rfl) rfl)
  · exact flagRecord_keeps.after (mbComplete_keeps.after h rfl) rfl

/-- What a mailbox may change at most, in a command that may change more. -/
theorem Keeps.under {F L : Parts} {o s t : State} (g : Keeps L s t) (hF : Scope.mailbox.parts.le F) (h : Keeps F o s)
    (hL : L.le Scope.mailbox.parts) : Keeps F o t := g.after h (hL.trans hF)

section Mailbox
variable {F : Parts} (hF : Scope.mailbox.parts.le F) {spec : Option CmdSpec} {k : CmdSpec} {q : Request} {m op c : Nat}
include hF

/-- Checks, effect and answer of a command change what its own rule changes, and what every mailbox command may. -/
theorem runBody_keeps {p : Bytes} {ind : Option Indirect} (hk : SpecKeeps F k) : Keeps F s (runBody k q m c p ind s) := .chain fun {o} h => by
  obtain ⟨hrun, hafter⟩ := hk
  unfold runBody
  extract_lets op bad badResp iss needRing
  have hbad {st d : Nat} {t : State} (ht : Keeps F o t) : Keeps F o (bad st d t) := answer_keeps.under hF ht rfl
  refine .ite (hbad h) (.ite (hbad h) ?_)
  have hr := hrun iss p s h
  generalize k.run iss p s = r at hr
  cases r with
  | fail st d => exact hbad h
  | failWith st d t => exact .ite (hbad h) (hbad hr)
  | ok resp t => exact .ite (hbad h) (answer_keeps.under hF hr rfl)
  | hold t => exact .ite (hbad h) hr
  | pend t =>
    have hops {x : List PendingOp} {u : State} : Keeps { ops := true } u { u with ops := x } := rfl
    exact .ite (hbad h) (hafter _ (mbComplete_keeps.under hF (hops.under hF (State.updCtx_keeps.under hF hr rfl) rfl) rfl))

theorem runChecked_keeps (hk : ∀ k ∈ spec, SpecKeeps F k) : Keeps F s (runChecked spec op c q s) := .chain fun h => by
  unfold runChecked
  split
  · exact flagRecord_keeps.under hF (mbComplete_keeps.under hF h rfl) rfl
  · exact raise_keeps.under hF (flagRecord_keeps.under hF (mbComplete_keeps.under hF h rfl) rfl) rfl
  · split
    · exact h
    · exact .ite (State.setMb_keeps.under hF h rfl) (h.trans (runBody_keeps hF (hk _ rfl)))

theorem runAccepted_keeps (hk : ∀ k ∈ spec, SpecKeeps F k) : Keeps F s (runAccepted spec op q s) := .chain fun {o} h => by
  unfold runAccepted
  extract_lets m
  have hend {st d : Nat} : Keeps F o (mbComplete m op q st d 0 0 [] s) := mbComplete_keeps.under hF h rfl
  split
  · exact hend
  · exact .ite hend (.ite hend (.ite hend (h.trans (runChecked_keeps hF hk))))

theorem runWaited_keeps (hk : ∀ k ∈ spec, SpecKeeps F k) : Keeps F s (runWaited spec op q s) := .chain fun h => by
  unfold runWaited
  extract_lets q'
  split
  · exact mbComplete_keeps.under hF h rfl
  · exact .ite (mbComplete_keeps.under hF h rfl) (.ite (mbComplete_keeps.under hF h rfl) (h.trans (runChecked_keeps hF hk)))

theorem goWrite_keeps (hk : ∀ k ∈ spec, SpecKeeps F k) : Keeps F s (goWrite spec op q s) := .chain fun h =>
  .ite h (.ite (State.setMb_keeps.under hF h rfl) (.ite (mbComplete_keeps.under hF (State.setMb_keeps.under hF h rfl) rfl)
    ((State.setMb_keeps.under hF h rfl).trans (runAccepted_keeps hF hk))))

omit hF in
theorem submit_ends (hk : SpecKeeps F k) (hF : Scope.mailbox.parts.le F) : Ends F s (submit k q s) := .chain fun h =>
  Keeps.trans (.ite h (State.setMb_keeps.under hF h rfl)) (goWrite_keeps hF (by rintro _ ⟨⟩; exact hk))

end Mailbox

theorem mctpSend_keeps {t : Nat} {bs : Bytes} : Keeps Parts.sends s (mctpSend t bs s) := rfl

theorem mctpReply_keeps {m : Nat} : Keeps Parts.sends s (mctpReply m s) := .chain fun h =>
  .ite (mctpSend_keeps.after h rfl) h

theorem completeHeld_keeps {m status detail : Nat} {payload : Bytes} :
    Keeps (Parts.records.join { mbs := true }) s (completeHeld m status detail payload s) := .chain fun h => by
  unfold completeHeld
  split
  extract_lets ind
  exact .ite (State.setMb_keeps.after h rfl) (.ite (answer_keeps.after h rfl) h)

theorem completeLate_keeps : Keeps Scope.mailbox.parts s (completeLate s) := .chain fun h => by
  refine .foldl (fun s1 x1 h1 => ?_) h
  split
  · exact completeHeld_keeps.after (State.setMb_keeps.after h1 rfl) rfl
  · exact h1

/-! ### MemCmd -/

theorem takePages_keeps {c p n : Nat} : Keeps { units := true, hbm := true, pages := true, allocs := true } s (takePages c p n s) :=
  .chain fun h => bump_keeps.after (.update h rfl) rfl

theorem freePages_keeps {a : Alloc} : Keeps { pages := true, allocs := true } s (freePages a s) := rfl

theorem specMemAlloc_keeps : SpecKeeps Scope.agent.parts specMemAlloc := by
  refine ⟨fun i p s h => ?_, fun _ h => h⟩
  unfold specMemAlloc
  dsimp -zeta only
  extract_lets bytes side inst al n quota tries
  refine .ite trivial (.ite trivial (.ite trivial (.ite trivial (.ite trivial ?_))))
  split
  · exact trivial
  · exact takePages_keeps.after h rfl

theorem specMemMapHost_keeps : SpecKeeps Parts.tells specMemMapHost :=
  ⟨fun _ _ _ h => .ite trivial (.ite trivial (.ite trivial (.ite trivial (State.setCtx_keeps.after h rfl)))), fun _ h => h⟩

theorem memCopy_keeps {c ss ds src dst n n1 : Nat} : Keeps Parts.records s (memCopy c ss ds src dst n n1 s).2.2 := .chain fun h => by
  induction n generalizing src dst n1 s with
  | zero => exact h
  | succ n ih =>
    unfold memCopy
    split
    · exact h
    extract_lets k bs s1 s2
    have hs1 : Keeps _ _ s1 := .ite (hbmTaken_keeps.after h rfl) h
    have hs2 : Keeps _ _ s2 := .ite (hbmWrite_keeps.after hs1 rfl) (hostPut_keeps.after hs1 rfl)
    split
    · exact h
    split
    rename_i e
    have ht := Keeps.snd_snd e (ih hs2)
    exact ht

theorem memCopyDo_keeps {c : Nat} {p : Bytes} : Keeps Parts.records s (memCopyDo c p s).2.2 := .chain fun h =>
  memCopy_keeps.after h rfl

theorem memCopyErr_keeps {c : Nat} {p : Bytes} {done : Nat} : Keeps Parts.tells s (memCopyErr c p done s) := .chain fun h =>
  raise_keeps.after h rfl

theorem specMemCopy_keeps : SpecKeeps Parts.tells specMemCopy :=
  ⟨fun _ _ _ h => .ite trivial (.ite trivial (.ite trivial (.ite trivial (.ite h (.ite (memCopyDo_keeps.after h rfl)
    (memCopyErr_keeps.after (memCopyDo_keeps.after h rfl) rfl)))))), fun _ h => h⟩

theorem memCopyFinish_keeps {o : PendingOp} : Keeps Scope.mailbox.parts s (memCopyFinish o s) := .chain fun h => by
  unfold memCopyFinish
  split
  next e =>
    have ht := Keeps.snd_snd e (memCopyDo_keeps.after h rfl)
    exact .ite (finishOp_keeps.after ht rfl) (memCopyErr_keeps.after (finishOp_keeps.after ht rfl) rfl)

theorem specMemQuery_keeps : SpecKeeps {} specMemQuery := ⟨fun _ _ _ h => h, fun _ h => h⟩

theorem hbmCorrected_keeps {stack : Nat} : Keeps Parts.tells s (hbmCorrected stack s) := .chain fun h => by
  unfold hbmCorrected
  extract_lets s1 u recent excess s2
  have hs1 : Keeps _ _ s1 := bump_keeps.after h rfl
  have hs2 : Keeps _ _ s2 := State.setUnit_keeps.after hs1 rfl
  exact .ite (raise_keeps.after hs2 rfl) hs2

theorem hbmUncorrectable_keeps {addr : Nat} {scrub : Bool} : Keeps Parts.tells s (hbmUncorrectable addr scrub s) := .chain fun h =>
  raise_keeps.after (State.updUnit_keeps.after (bump_keeps.after h rfl) rfl) rfl

theorem execHbmScrubLine_ends {addr errors : Nat} : Ends Scope.signal.parts s (execHbmScrubLine addr errors s) := .chain fun h => by
  refine .ite h ?_
  extract_lets s1
  have hs1 : Keeps _ _ s1 := bump_keeps.after h rfl
  exact .ite hs1 (.ite (hbmCorrected_keeps.after hs1 rfl) (hbmUncorrectable_keeps.after hs1 rfl))

theorem execHbmStackFail_ends {stack : Nat} : Ends Scope.signal.parts s (execHbmStackFail stack s) := .chain fun h => by
  refine .ite h ?_
  extract_lets _ s1 owners
  have hs1 : Keeps _ _ s1 := h
  exact raiseUnit_keeps.after hs1 rfl

end Sys2Proof.Machine
end

section
/-! PROOFS for 95_what_each_step_holds.md: descriptors, arrays, images, the Lens and the Prism. -/

namespace Sys2Proof.Machine
open Sys2Proof

variable {s : State}

/-! ### Descriptor -/

theorem release_keeps {ty inst : Nat} {d : Bytes} : Keeps Scope.descriptor.parts s (release ty inst d s) := .chain fun h => by
  unfold release
  split
  · exact State.updCore_keeps.after h rfl
  · exact h

theorem putRecord_keeps {j : Nat} {rec : Bytes} {v : Nat} : Keeps Parts.records s (putRecord j rec v s) := .chain fun h =>
  .ite (sendMsix_keeps.after h rfl) (produce_keeps.after h rfl)

theorem noteLast_keeps {ty inst : Nat} {d detail : Bytes} : Keeps Scope.register.parts s (noteLast ty inst d detail s) := .chain fun h =>
  .ite h (.ite (State.updUnit_keeps.after h rfl) (.ite (State.updUnit_keeps.after h rfl) h))

theorem noteApplied_keeps {ty inst : Nat} {d : Bytes} : Keeps Scope.descriptor.parts s (noteApplied ty inst d s) := .chain fun h =>
  .ite (State.setUpd_keeps.after h rfl) h

theorem recordDesc_keeps {j ix : Nat} {d : Bytes} {status lb : Nat} {detail : Bytes} {force : Bool} :
    Keeps Scope.descriptor.parts s (recordDesc j ix d status lb detail force s) := .chain fun h =>
  State.updRing_keeps.after (.ite (putRecord_keeps.after (noteApplied_keeps.after (noteLast_keeps.after h rfl) rfl) rfl)
    (sendMsix_keeps.after (noteApplied_keeps.after (noteLast_keeps.after h rfl) rfl) rfl)) rfl

theorem consume_keeps {j : Nat} : Keeps Scope.ringReg.parts s (consume j s) := .chain fun h =>
  State.updRing_keeps.after h rfl

theorem dropHeld_keeps {j : Nat} : Keeps { cores := true, lens := true } s (dropHeld j s) := .chain fun h =>
  .ite (State.updCore_keeps.after h rfl) (.ite h h)

theorem stopRing_keeps {j ix code : Nat} : Keeps Scope.descriptor.parts s (stopRing j ix code s) := .chain fun h =>
  setErr_keeps.after (State.updRing_keeps.after (dropHeld_keeps.after h rfl) rfl) rfl

theorem refuse_keeps {j ix : Nat} {d : Bytes} {code : Nat} : Keeps Scope.descriptor.parts s (refuse j ix d code s) := .chain fun h =>
  stopRing_keeps.after (recordDesc_keeps.after (consume_keeps.after h rfl) rfl) rfl

theorem fenceArg_keeps {j ix : Nat} {d : Bytes} {status : Nat} : Keeps Scope.descriptor.parts s (fenceArg j ix d status s) := .chain fun {o} h => by
  unfold fenceArg
  extract_lets r s1 s2
  have hs1 : Keeps _ _ s1 := recordDesc_keeps.after (dropHeld_keeps.after (consume_keeps.after h rfl) rfl) rfl
  have hs2 : Keeps Scope.descriptor.parts o s2 := by
    unfold s2
    split
    · exact setErr_keeps.after hs1 rfl
    · exact hs1
  exact State.updRing_keeps.after hs2 rfl

theorem settle_keeps {j n : Nat} : Keeps Scope.descriptor.parts s (settle j n s) := .chain fun h => by
  induction n generalizing s with
  | zero => exact h
  | succ n ih =>
    unfold settle
    extract_lets r s1
    have hs1 : Keeps _ _ s1 := consume_keeps.after h rfl
    refine .ite h ?_
    split
    · refine .ite h ?_
      extract_lets s2 s3
      have hs2 : Keeps _ _ s2 := putRecord_keeps.after hs1 rfl
      have hs3 : Keeps _ _ s3 := stopRing_keeps.after hs2 rfl
      exact raise_keeps.after hs3 rfl
    · split
      · exact .ite (refuse_keeps.after h rfl) h
      · refine .ite h (.ite (ih (fenceArg_keeps.after h rfl)) (.ite ?_ h))
        extract_lets s2 s3
        have hs2 : Keeps _ _ s2 := release_keeps.after (consume_keeps.after h rfl) rfl
        have hs3 : Keeps _ _ s3 := recordDesc_keeps.after hs2 rfl
        exact ih (State.updRing_keeps.after hs3 rfl)
    · exact h

theorem settleAll_keeps {j : Nat} : Keeps Scope.descriptor.parts s (settleAll j s) := .chain fun h =>
  settle_keeps.after h rfl

theorem failCheck_keeps {j ix : Nat} {d : Bytes} {status : Nat} {detail : Bytes} {force : Bool} :
    Keeps Scope.descriptor.parts s (failCheck j ix d status detail force s) := .chain fun {o} h => by
  unfold failCheck
  extract_lets r s1 s2 s3
  have hs1 : Keeps _ _ s1 := dropHeld_keeps.after (release_keeps.after (consume_keeps.after h rfl) rfl) rfl
  have hs2 : Keeps Scope.descriptor.parts o s2 := by
    unfold s2
    split
    · exact setErr_keeps.after hs1 rfl
    · exact hs1
  have hs3 : Keeps _ _ s3 := recordDesc_keeps.after hs2 rfl
  exact settleAll_keeps.after (State.updRing_keeps.after hs3 rfl) rfl

theorem failArg_keeps {j ix : Nat} {d : Bytes} {status : Nat} : Keeps Scope.descriptor.parts s (failArg j ix d status s) := .chain fun h =>
  failCheck_keeps.after h rfl

theorem begin_keeps {j ix : Nat} {d : Bytes} : Keeps Scope.ringReg.parts s (begin j ix d s) := .chain fun h =>
  State.updRing_keeps.after (consume_keeps.after h rfl) rfl

theorem finish_keeps {j status lb : Nat} {detail : Bytes} : Keeps Scope.ringReg.parts s (finish j status lb detail s) := .chain fun h => by
  unfold finish
  extract_lets r
  split
  · exact State.setRing_keeps.after h rfl
  · exact h

theorem completeCur_keeps {j : Nat} : Keeps Scope.descriptor.parts s (completeCur j s) := .chain fun h => by
  unfold completeCur
  extract_lets r
  split
  · extract_lets s1 s2 s3
    have hs1 : Keeps _ _ s1 := release_keeps.after (.ite h (dropHeld_keeps.after h rfl)) rfl
    have hs2 : Keeps _ _ s2 := recordDesc_keeps.after hs1 rfl
    have hs3 : Keeps _ _ s3 := spent_keeps.after hs2 rfl
    exact settleAll_keeps.after (State.updRing_keeps.after hs3 rfl) rfl
  · exact h

theorem served_keeps {j : Nat} : Keeps Scope.register.parts s (served j s) := .chain fun h =>
  State.updUnit_keeps.after h rfl

theorem fetchMore_keeps {j n : Nat} : Keeps Parts.records s (fetchMore j n s) := .chain fun h => by
  induction n generalizing s with
  | zero => exact h
  | succ n ih =>
    unfold fetchMore
    extract_lets r ix a d s1
    have hs1 : Keeps _ _ s1 := .ite (hbmTaken_keeps.after h rfl) h
    exact .ite h (ih (State.setRing_keeps.after hs1 rfl))

theorem fenceWait_keeps {j k : Nat} : Keeps Scope.ringReg.parts s (fenceWait j k s) := .chain fun h =>
  State.updRing_keeps.after h rfl

theorem fenceEnd_keeps {j ix : Nat} {d : Bytes} {status reason : Nat} :
    Keeps Scope.descriptor.parts s (fenceEnd j ix d status reason s) := .chain fun h =>
  settleAll_keeps.after (recordDesc_keeps.after (spent_keeps.after
    (consume_keeps.after (State.updRing_keeps.after (handleWait_keeps.after h rfl) rfl) rfl) rfl) rfl) rfl

theorem fencePost_keeps {j ix : Nat} {d : Bytes} : Keeps Scope.descriptor.parts s (fencePost j ix d s) := .chain fun h =>
  .ite (.ite (fenceWait_keeps.after h rfl) (fenceEnd_keeps.after (ringPut_keeps.after h rfl) rfl)) (fenceEnd_keeps.after h rfl)

theorem fenceTake_keeps {j ix : Nat} {d : Bytes} : Keeps Scope.descriptor.parts s (fenceTake j ix d s) := .chain fun h => by
  unfold fenceTake
  extract_lets r hb t h1 a bad seq s1
  have hs1 : Keeps _ _ s1 := State.setRing_keeps.after h rfl
  exact .ite (.ite (fenceWait_keeps.after h rfl) (.ite (raise_keeps.after (fenceEnd_keeps.after hs1 rfl) rfl)
    (.ite (fenceEnd_keeps.after hs1 rfl) (fencePost_keeps.after hs1 rfl)))) (fencePost_keeps.after h rfl)

theorem execFence_ends {j : Nat} : Ends Scope.descriptor.parts s (execFence j s) := .chain fun h => by
  unfold execFence
  split
  · exact h
  · refine .ite h ?_
    split
    · exact settleAll_keeps.after (fenceArg_keeps.after h rfl) rfl
    · exact fenceTake_keeps.after h rfl

theorem execFenceResume_ends {j : Nat} : Ends Scope.descriptor.parts s (execFenceResume j s) := .chain fun h => by
  unfold execFenceResume
  split
  · exact h
  · split
    · exact h
    · exact fenceTake_keeps.after h rfl
    · exact fencePost_keeps.after h rfl

/-! ### Array -/

theorem coreAbort_keeps {j ix : Nat} {d : Bytes} {status reason bit : Nat} {code : Option Nat} {addr : Nat} :
    Keeps Parts.tells s (coreAbort j ix d status reason bit code addr s) := .chain fun h => by
  unfold coreAbort
  extract_lets r s1 s2
  have hs1 : Keeps _ _ s1 := setErr_keeps.after (begin_keeps.after h rfl) rfl
  have hs2 : Keeps _ _ s2 := finish_keeps.after hs1 rfl
  split
  · exact raise_keeps.after hs2 rfl
  · exact hs2

theorem execDescriptorNop_ends {j : Nat} : Ends Scope.descriptor.parts s (execDescriptorNop j s) := .chain fun h => by
  unfold execDescriptorNop
  split
  · exact h
  · extract_lets r held s1
    have hs1 : Keeps _ _ s1 := recordDesc_keeps.after (consume_keeps.after h rfl) rfl
    exact .ite (coreAbort_keeps.after h rfl) (settleAll_keeps.after (State.updRing_keeps.after hs1 rfl) rfl)

theorem markedAbort_keeps {j ix core : Nat} {d : Bytes} {m : Nat × Nat} : Keeps Parts.tells s (markedAbort j ix core d m s) := .chain fun h =>
  .ite (coreAbort_keeps.after h rfl) (coreAbort_keeps.after h rfl)

theorem runPass_keeps {j ix core : Nat} {d : Bytes} {pl : Plan} {hold : Bool} :
    Keeps Scope.descriptor.parts s (runPass j ix core d pl hold s) := .chain fun {o} h => by
  unfold runPass
  split
  next cyc t e =>
    have ht : Keeps Scope.descriptor.parts o t := by
      split at e
      · cases e; exact h
      · exact Keeps.snd e (State.fresh_keeps.after h rfl)
    have ht1 : Keeps _ _ (served j (begin j ix d t)) := served_keeps.after (begin_keeps.after ht rfl) rfl
    exact .ite (finish_keeps.after (.foldl (fun _ _ h => bump_keeps.after h rfl) (State.updCore_keeps.after ht1 rfl)) rfl)
      (State.updCore_keeps.after ht1 rfl)

theorem execArrayPassDrainComplete_ends {ring : Nat} : Ends Scope.task.parts s (execArrayPassDrainComplete ring s) := .chain fun h => by
  unfold execArrayPassDrainComplete
  extract_lets r te
  split
  · split
    · refine .ite h ?_
      extract_lets s1 s2 s3 s4 stop lb
      have hs1 : Keeps Scope.task.parts _ s1 := .foldl (fun _ _ h1 => sramWrite_keeps.after h1 rfl) (State.updCore_keeps.after h rfl)
      have hs2 : Keeps Scope.task.parts _ s2 := .foldl (fun _ _ h1 => bump_keeps.after h1 rfl) hs1
      have hs3 : Keeps _ _ s3 := bump_keeps.after hs2 rfl
      have hs4 : Keeps _ _ s4 := .ite hs3 (setErr_keeps.after hs3 rfl)
      exact finish_keeps.after hs4 rfl
    · exact h
  · exact h

/-! ### StoreGeom -/

theorem State.setCtl_keeps {c : Nat} {x : Ctl} : Keeps { ctls := true } s (s.setCtl c x) := rfl

theorem State.updCtl_keeps {c : Nat} {f : Ctl → Ctl} : Keeps { ctls := true } s (s.updCtl c f) := .chain fun h =>
  State.setCtl_keeps.after h rfl

/-! ### Image -/

theorem specImgOpen_keeps : SpecKeeps Scope.image.parts specImgOpen := by
  refine ⟨fun i p s h => .ite trivial (.ite trivial (.ite trivial (.ite trivial ?_))), fun _ h => h⟩
  split
  · exact trivial
  · exact State.setImage_keeps.after (Keeps.update h rfl) rfl

theorem specImgWrite_keeps : SpecKeeps Scope.image.parts specImgWrite := by
  refine ⟨fun i p s h => ?_, fun _ h => h⟩
  unfold specImgWrite
  dsimp -zeta only
  extract_lets h1 kind off src len
  split
  · exact trivial
  · exact .ite trivial (.ite trivial (.ite trivial (.ite trivial (.ite trivial (.ite trivial (.ite trivial (State.setImage_keeps.after h rfl)))))))

theorem writeEnd_keeps {h : Nat} {w : ImgWrite} {status detail : Nat} :
    Keeps (Parts.records.join { ops := true, images := true }) s (writeEnd h w status detail s) := .chain fun {o} hw => by
  unfold writeEnd
  extract_lets s1
  have hs1 : Keeps (Parts.records.join { ops := true, images := true }) o s1 := by
    unfold s1
    split
    · exact State.setImage_keeps.after hw rfl
    · exact hw
  exact finishOp_keeps.after hs1 rfl

theorem imgFault_keeps {x : ImgWrite} : Keeps Parts.tells s (imgFault x s) := .chain fun h =>
  raise_keeps.after h rfl

theorem imgHostFault_keeps {img w : Nat} : Keeps Scope.copy.parts s (imgHostFault img w s) := .chain fun h => by
  unfold imgHostFault
  split
  · exact h
  · split
    · exact .ite (imgFault_keeps.after (writeEnd_keeps.after h rfl) rfl) h
    · exact h

theorem execImgChunkProgrammed_ends {img w : Nat} : Ends Scope.image.parts s (execImgChunkProgrammed img w s) := .chain fun h => by
  unfold execImgChunkProgrammed
  split
  · exact h
  · split
    · exact h
    · extract_lets i n s0 _ x'
      refine .ite h (.ite (writeEnd_keeps.after h rfl) (.ite (imgFault_keeps.after (writeEnd_keeps.after h rfl) rfl) ?_))
      split
      · exact h
      · split
        · exact writeEnd_keeps.after h rfl
        · extract_lets s1 s2 s3 s4
          have hs1 : Keeps _ _ s1 := .update h rfl
          have hs2 : Keeps _ _ s2 := .ite (hbmTaken_keeps.after hs1 rfl) hs1
          have hs3 : Keeps _ _ s3 := State.setImage_keeps.after hs2 rfl
          have hs4 : Keeps _ _ s4 := .ite (consumedTo_keeps.after hs3 rfl) hs3
          exact .ite (writeEnd_keeps.after hs4 rfl) hs4

theorem specImgClose_keeps : SpecKeeps Scope.image.parts specImgClose := by
  refine ⟨fun i p s h => ?_, fun _ h => h⟩
  unfold specImgClose
  dsimp -zeta only
  extract_lets h1
  split
  · exact trivial
  · exact .ite trivial (.ite trivial (State.setImage_keeps.after h rfl))

theorem execImgVerifyComplete_ends {img : Nat} : Ends Scope.image.parts s (execImgVerifyComplete img s) := .chain fun h => by
  unfold execImgVerifyComplete
  split
  · exact h
  · refine .ite h ?_
    extract_lets owner
    split
    · exact finishOp_keeps.after (State.setImage_keeps.after h rfl) rfl
    · extract_lets s1
      have hs1 : Keeps _ _ s1 := finishOp_keeps.after (State.setImage_keeps.after h rfl) rfl
      exact .ite (raise_keeps.after hs1 rfl) hs1

theorem specImgActivate_keeps : SpecKeeps Scope.image.parts specImgActivate := by
  refine ⟨fun i p s h => ?_, fun _ h => h⟩
  unfold specImgActivate
  dsimp -zeta only
  extract_lets h1 on
  split
  · exact trivial
  · refine .ite trivial (.ite (.ite trivial (.ite trivial ?_)) (.ite trivial (.ite trivial (State.setImage_keeps.after h rfl))))
    split
    · exact trivial
    · exact State.setImage_keeps.after h rfl

theorem specImgDelete_keeps : SpecKeeps Scope.image.parts specImgDelete := by
  refine ⟨fun i p s h => ?_, fun _ h => h⟩
  unfold specImgDelete
  dsimp -zeta only
  extract_lets h1
  split
  · exact trivial
  · exact .ite trivial (.ite trivial (.ite trivial (State.setImage_keeps.after h rfl)))

theorem execImgDeleteComplete_ends {img : Nat} : Ends Scope.image.parts s (execImgDeleteComplete img s) := .chain fun h => by
  unfold execImgDeleteComplete
  split
  · exact h
  · exact .ite h (finishOp_keeps.after (Keeps.update (Keeps.update h rfl) rfl) rfl)

theorem specImgQuery_keeps : SpecKeeps {} specImgQuery := by
  refine ⟨fun i p s h => ?_, fun _ h => h⟩
  unfold specImgQuery
  dsimp -zeta only
  extract_lets h1
  split
  · exact trivial
  · exact h

/-! ### Lens -/

theorem State.setLensTask_keeps {j : Nat} {x : LensTask} : Keeps { lens := true } s (s.setLensTask j x) := rfl

theorem lensWrite_keeps {lens space core addr : Nat} {bs : Bytes} :
    Keeps { units := true, host := true, hbm := true, sram := true } s (lensWrite lens space core addr bs s) := .chain fun h => by
  refine .ite (hbmWrite_keeps.after h rfl) ?_
  split
  · exact sramWrite_keeps.after h rfl
  · exact h

theorem lensEnd_keeps {j status reason : Nat} :
    Keeps { free := true, rings := true, lens := true } s (lensEnd j status reason s) := .chain fun h => by
  unfold lensEnd
  extract_lets r t
  split
  · split
    rename_i e
    have ht := Keeps.snd e (State.fresh_keeps.after h rfl)
    extract_lets s1
    have hs1 : Keeps _ _ s1 := State.setLensTask_keeps.after ht rfl
    exact finish_keeps.after hs1 rfl
  · exact h

theorem lensNote_keeps {lens ctx ring index : Nat} {g : LRange} : Keeps Parts.tells s (lensNote lens ctx ring index g s) := .chain fun h =>
  raise_keeps.after (setErr_keeps.after h rfl) rfl

theorem lensMarked_keeps {j : Nat} {g : LRange} : Keeps Scope.descriptor.parts s (lensMarked j g s) := .chain fun h =>
  lensEnd_keeps.after (lensNote_keeps.after h rfl) rfl

theorem lensLast_keeps {lens valid flags : Nat} : Keeps Scope.register.parts s (lensLast lens valid flags s) := .chain fun h =>
  State.updUnit_keeps.after h rfl

theorem lensCounts_keeps {lens : Nat} {cs : List (Nat × Nat)} : Keeps Scope.register.parts s (lensCounts lens cs s) := .chain fun h =>
  .foldl (fun _ _ h1 => .ite h1 (bump_keeps.after h1 rfl)) h

theorem lensRowDone_keeps {j : Nat} {w : LRow} {bytes : Nat} : Keeps Scope.descriptor.parts s (lensRowDone j w bytes s) := .chain fun h => by
  unfold lensRowDone
  extract_lets r t
  split
  · extract_lets d k s1 s2
    have hs1 : Keeps _ _ s1 := State.setLensTask_keeps.after h rfl
    have hs2 : Keeps _ _ s2 := State.setRing_keeps.after hs1 rfl
    exact lensCounts_keeps.after (lensLast_keeps.after hs2 rfl) rfl
  · exact h

theorem lensStep_keeps {j : Nat} : Keeps Scope.task.parts s (lensStep j s) := .chain fun {o} h => by
  unfold lensStep
  extract_lets r lens
  split
  · extract_lets d segs s1 xs w _ s2 s3
    have hs1 : Keeps Scope.task.parts _ s1 := .foldl (fun _ _ h1 => .ite (hbmTaken_keeps.after h1 rfl) h1) h
    have hs2 : Keeps _ _ s2 := lensWrite_keeps.after hs1 rfl
    have hs3 : Keeps Scope.task.parts o s3 := by
      unfold s3
      refine .ite ?_ hs2
      split
      rename_i e
      have ht := Keeps.snd e (freshBytes_keeps.after hs2 rfl)
      exact lensWrite_keeps.after ht rfl
    split
    · exact lensMarked_keeps.after h rfl
    · exact .ite (lensMarked_keeps.after hs1 rfl) (.ite (State.setLensTask_keeps.after hs1 rfl) (lensRowDone_keeps.after hs3 rfl))
  · exact h

theorem lensRun_keeps {j n : Nat} : Keeps Scope.task.parts s (lensRun j n s) := .chain fun h => by
  induction n generalizing s with
  | zero => exact h
  | succ n ih =>
    unfold lensRun
    split
    · refine .ite h (.ite (ih (State.setLensTask_keeps.after h rfl)) ?_)
      extract_lets s1
      have hs1 : Keeps _ _ s1 := lensStep_keeps.after h rfl
      split
      · exact .ite (lensEnd_keeps.after hs1 rfl) (ih hs1)
      · exact hs1
    · exact h

theorem lensSuspend_keeps {lens cls : Nat} : Keeps { units := true, lens := true } s (lensSuspend lens cls s) := .chain fun h =>
  .foldl (fun _ _ h1 => .ite (bump_keeps.after (State.setLensTask_keeps.after h1 rfl) rfl) h1) h

theorem lensServed_keeps {j cls : Nat} : Keeps Scope.register.parts s (lensServed j cls s) := .chain fun h =>
  State.updUnit_keeps.after h rfl

theorem lensTake_keeps {j op n : Nat} : Keeps Scope.task.parts s (lensTake j op n s) := .chain fun h => by
  unfold lensTake
  split
  · exact h
  · extract_lets r s1 s2
    have hs1 : Keeps _ _ s1 := lensServed_keeps.after (begin_keeps.after (lensSuspend_keeps.after h rfl) rfl) rfl
    have hs2 : Keeps _ _ s2 := State.setLensTask_keeps.after hs1 rfl
    refine .ite h ?_
    split
    · exact failArg_keeps.after h rfl
    · exact .ite (lensMarked_keeps.after hs2 rfl) (lensRun_keeps.after hs2 rfl)

/-! ### Target -/

theorem prismSend_keeps {ch n kind v : Nat} {bs : Bytes} : Keeps Parts.sends s (prismSend ch n kind v bs s) := .chain fun h =>
  sendGroup_keeps.after h rfl

theorem crdSend_keeps {key : Nat} : Keeps Scope.student.parts s (crdSend key s) := .chain fun h => by
  unfold crdSend
  extract_lets p s1
  have hs1 : Keeps _ _ s1 := bump_keeps.after (bump_keeps.after h rfl) rfl
  exact .ite h (.ite (State.setPring_keeps.after hs1 rfl) (prismSend_keeps.after (State.setPring_keeps.after hs1 rfl) rfl))

theorem releaseHead_keeps {key : Nat} : Keeps Scope.student.parts s (releaseHead key s) := .chain fun h => by
  unfold releaseHead
  extract_lets ch p p' s1 s2
  have hs1 : Keeps _ _ s1 := State.setPring_keeps.after h rfl
  have hs2 : Keeps _ _ s2 := State.setPring_keeps.after h rfl
  exact .ite (.ite hs1 (prismSend_keeps.after hs1 rfl)) (.ite (crdSend_keeps.after hs2 rfl) hs2)

theorem setTaken_keeps {inst port : Nat} {on : Bool} : Keeps { cores := true } s (setTaken inst port on s) := .chain fun h =>
  State.updCore_keeps.after h rfl

theorem popPort_keeps {inst port key : Nat} : Keeps Scope.student.parts s (popPort inst port key s) := .chain fun h =>
  bump_keeps.after (setTaken_keeps.after (releaseHead_keeps.after h rfl) rfl) rfl

/-! ### Prism -/

theorem prismEnd_keeps {j status reason rows start lb : Nat} :
    Keeps Scope.ringReg.parts s (prismEnd j status reason rows start lb s) := .chain fun h => by
  unfold prismEnd
  split
  · exact finish_keeps.after h rfl
  · exact h

theorem rowsGo_keeps {j n : Nat} : Keeps { rings := true, prings := true, chans := true } s (rowsGo j n s) := .chain fun h => by
  induction n generalizing s with
  | zero => exact h
  | succ n ih =>
    unfold rowsGo
    extract_lets r ch
    split
    · exact h
    · extract_lets d l p
      exact .ite (prismEnd_keeps.after (State.updChan_keeps.after h rfl) rfl)
        (.ite (ih (State.setRing_keeps.after h rfl)) (.ite h (ih (State.setRing_keeps.after (State.setPring_keeps.after h rfl) rfl))))

theorem prismFail_keeps {j ix : Nat} {d : Bytes} {status n : Nat} : Keeps Scope.descriptor.parts s (prismFail j ix d status n s) := .chain fun h =>
  .ite (failCheck_keeps.after (setErr_keeps.after h rfl) rfl) (failArg_keeps.after (setErr_keeps.after h rfl) rfl)

theorem prismMarked_keeps {j ix : Nat} {d : Bytes} {space addr : Nat} : Keeps Parts.tells s (prismMarked j ix d space addr s) := .chain fun h =>
  raise_keeps.after (prismEnd_keeps.after (begin_keeps.after h rfl) rfl) rfl

theorem execPrismRows_ends {ring : Nat} : Ends Scope.prism.parts s (execPrismRows ring s) := .chain fun h => by
  unfold execPrismRows
  split
  · exact h
  · split
    · exact prismFail_keeps.after h rfl
    · exact .ite (prismMarked_keeps.after h rfl) (rowsGo_keeps.after
        (hbmTaken_keeps.after (served_keeps.after (begin_keeps.after h rfl) rfl) rfl) rfl)

theorem fly_keeps {ch ring seq pos : Nat} {bs : Bytes} : Keeps { units := true, chans := true } s (fly ch ring seq pos bs s) := .chain fun h =>
  bump_keeps.after (State.updChan_keeps.after h rfl) rfl

theorem tapGo_keeps {j n : Nat} : Keeps { rings := true, units := true, prings := true, chans := true } s (tapGo j n s) := .chain fun h => by
  induction n generalizing s with
  | zero => exact h
  | succ n ih =>
    unfold tapGo
    extract_lets r ch
    split
    · exact h
    · extract_lets d p t flags bs s1 s2
      have hs1 : Keeps _ _ s1 := .ite (State.setPring_keeps.after h rfl) h
      have hs2 : Keeps _ _ s2 := bump_keeps.after (fly_keeps.after hs1 rfl) rfl
      exact .ite (prismEnd_keeps.after h rfl) (.ite h (ih (State.setRing_keeps.after hs2 rfl)))

theorem execPrismTap_ends {ring : Nat} : Ends Scope.prism.parts s (execPrismTap ring s) := .chain fun h => by
  unfold execPrismTap
  split
  · exact h
  · split
    · exact prismFail_keeps.after h rfl
    · extract_lets p
      refine .ite (prismMarked_keeps.after h rfl) ?_
      split
      · exact prismMarked_keeps.after h rfl
      · exact tapGo_keeps.after (served_keeps.after (begin_keeps.after h rfl) rfl) rfl

theorem prismGo_keeps {ch : Nat} : Keeps { rings := true, units := true, prings := true, chans := true } s (prismGo ch s) := .chain fun h => by
  refine .foldl (fun s1 x1 h1 => ?_) h
  split
  · exact .ite h1 (.ite (rowsGo_keeps.after h1 rfl) (.ite (tapGo_keeps.after h1 rfl) h1))
  · exact h1

theorem openAsk_keeps {ch : Nat} {o : BlkOpen} : Keeps (Parts.sends.join { chans := true }) s (openAsk ch o s) := .chain fun h =>
  .ite (State.updChan_keeps.after h rfl) (prismSend_keeps.after (State.updChan_keeps.after h rfl) rfl)

theorem openDone_keeps {ch : Nat} {o : BlkOpen} {start : Nat} :
    Keeps (Parts.sends.join { rings := true }) s (openDone ch o start s) := .chain fun h =>
  .ite h (.ite (prismEnd_keeps.after h rfl) (prismSend_keeps.after h rfl))

theorem execPrismBlockOpen_ends {ring : Nat} : Ends Scope.prism.parts s (execPrismBlockOpen ring s) := .chain fun {o} h => by
  unfold execPrismBlockOpen
  split
  · exact h
  · extract_lets n p fail
    have hfail : ∀ st1, Keeps Scope.prism.parts o (fail st1) := fun _ => prismFail_keeps.after h rfl
    exact .ite h (.ite (hfail _) (.ite (hfail _) (.ite (hfail _)
      (.ite (hfail _) (openAsk_keeps.after (served_keeps.after (begin_keeps.after h rfl) rfl) rfl)))))

theorem execBlockGrant_ends {chan ring : Nat} : Ends Scope.serving.parts s (execBlockGrant chan ring s) := .chain fun h => by
  unfold execBlockGrant
  split
  · exact h
  · refine .ite h ?_
    extract_lets s1 s2
    have hs1 : Keeps _ _ s1 := State.setPring_keeps.after h rfl
    have hs2 : Keeps _ _ s2 := State.updChan_keeps.after hs1 rfl
    exact openDone_keeps.after hs2 rfl

theorem placeRecord_keeps {ch n i : Nat} {bs : Bytes} : Keeps Scope.student.parts s (placeRecord ch n i bs s) := .chain fun h =>
  State.updPring_keeps.after (sramWrite_keeps.after h rfl) rfl

theorem endBlock_keeps {ch n seq : Nat} : Keeps Scope.student.parts s (endBlock ch n seq s) := .chain fun {o} h => by
  unfold endBlock
  extract_lets p gone
  have hgone : ∀ s1, Keeps Scope.student.parts o s1 → Keeps Scope.student.parts o (gone s1) := fun _ h1 => State.updPring_keeps.after h1 rfl
  refine .ite (prismSend_keeps.after (hgone _ h) rfl) ?_
  split
  · exact h
  · extract_lets todo s1
    have hs1 : Keeps Scope.student.parts _ s1 := .foldl (fun _ _ h1 => placeRecord_keeps.after h1 rfl) h
    exact hgone _ (.ite hs1 (bump_keeps.after hs1 rfl))

theorem execPrismBlockEnd_ends {ring : Nat} : Ends Scope.prism.parts s (execPrismBlockEnd ring s) := .chain fun h => by
  unfold execPrismBlockEnd
  split
  · exact h
  · extract_lets n here s1
    have hs1 : Keeps _ _ s1 := endBlock_keeps.after (served_keeps.after (begin_keeps.after h rfl) rfl) rfl
    exact .ite h (.ite (prismFail_keeps.after h rfl) (Keeps.ite (prismEnd_keeps.after hs1 rfl) hs1))

theorem unreserve_keeps {ch addr i n : Nat} : Keeps { prings := true } s (unreserve ch addr i n s) := .chain fun h =>
  .foldl (fun _ _ h1 => State.updPring_keeps.after h1 rfl) h

theorem pringReset_keeps {ch n reason : Nat} :
    Keeps { free := true, rings := true, cores := true, units := true, prings := true, chans := true, lens := true } s (pringReset ch n reason s) :=
      .chain fun {o} h => by
  unfold pringReset
  extract_lets p gone s1 s2 s3 dropped s4 s5 s6
  have hs1 : Keeps ({ free := true, rings := true, cores := true, units := true, prings := true, chans := true, lens := true } : Parts) o s1 := by
    unfold s1
    refine .foldl (fun s7 x1 h1 => ?_) h
    split
    · exact .ite (lensEnd_keeps.after (setErr_keeps.after h1 rfl) rfl) h1
    · exact h1
  have hs2 : Keeps ({ free := true, rings := true, cores := true, units := true, prings := true, chans := true, lens := true } : Parts) _ s2 :=
    .foldl (fun _ _ h1 => bump_keeps.after (.ite (unreserve_keeps.after h1 rfl) h1) rfl) hs1
  have hs3 : Keeps ({ free := true, rings := true, cores := true, units := true, prings := true, chans := true, lens := true } : Parts) o s3 := by
    unfold s3
    refine .foldl (fun s7 x1 h1 => ?_) hs2
    split
    · refine .ite ?_ h1
      extract_lets a
      have ha : Keeps _ _ a := .ite (unreserve_keeps.after h1 rfl) h1
      exact prismEnd_keeps.after ha rfl
    · exact h1
  have hs4 : Keeps _ _ s4 := .ite hs3 (bump_keeps.after hs3 rfl)
  have hs5 : Keeps _ _ s5 := State.updChan_keeps.after hs4 rfl
  have hs6 : Keeps _ _ s6 := .ite (setTaken_keeps.after hs5 rfl) hs5
  exact .ite h (setErr_keeps.after (State.updPring_keeps.after hs6 rfl) rfl)

theorem pringNotice_keeps {c : Nat} : Keeps Parts.tells s (pringNotice c s) := .chain fun h => by
  unfold pringNotice
  split
  rename_i e
  have ht := Keeps.snd e (State.fresh_keeps.after h rfl)
  exact notify_keeps.after ht rfl

theorem arriveRecord_keeps {ch : Nat} {f : Flight} : Keeps Scope.student.parts s (arriveRecord ch f s) := .chain fun {o} h => by
  unfold arriveRecord
  extract_lets p stray land
  have hstray : ∀ s1, Keeps Scope.student.parts o s1 → Keeps Scope.student.parts o (stray s1) := fun _ h1 =>
    setErr_keeps.after (bump_keeps.after h1 rfl) rfl
  have hland : ∀ i1 s1, Keeps Scope.student.parts o s1 → Keeps Scope.student.parts o (land i1 s1) := fun _ _ h1 =>
    bump_keeps.after (placeRecord_keeps.after h1 rfl) rfl
  refine .ite (bump_keeps.after h rfl) (.ite (State.updPring_keeps.after (hland _ _ h) rfl) ?_)
  split
  · exact hstray _ h
  · extract_lets i
    exact .ite (hstray _ h) (hland _ _ h)

theorem sendRecord_keeps {ch : Nat} {f : Flight} : Keeps Parts.sends s (sendRecord ch f s) := .chain fun h =>
  .foldl (fun _ _ h1 => prismSend_keeps.after h1 rfl) h

theorem execPrismRecordLand_ends {chan : Nat} : Ends Scope.prism.parts s (execPrismRecordLand chan s) := .chain fun h => by
  unfold execPrismRecordLand
  extract_lets hs
  split
  · exact h
  · split
    · exact h
    · refine .ite h ?_
      extract_lets s1
      have hs1 : Keeps _ _ s1 := State.updChan_keeps.after h rfl
      exact .ite (arriveRecord_keeps.after hs1 rfl) (sendRecord_keeps.after hs1 rfl)

theorem creditBack_keeps {key n : Nat} :
    Keeps { rings := true, units := true, prings := true, chans := true } s (creditBack key n s) := .chain fun h =>
  .ite h (prismGo_keeps.after (State.setPring_keeps.after h rfl) rfl)

theorem landChunk_keeps {ch n : Nat} {bs : Bytes} :
    Keeps { units := true, prings := true, host := true, hbm := true } s (landChunk ch n bs s) := .chain fun h =>
  State.setPring_keeps.after (hbmWrite_keeps.after h rfl) rfl

theorem prismPeer_keeps {src w : Nat} {b : Bytes} : Keeps Scope.peer.parts s (prismPeer src w b s) := .chain fun h => by
  refine .ite h ?_
  split
  · exact .ite h (.ite (State.setPring_keeps.after h rfl) (arriveRecord_keeps.after (State.setPring_keeps.after h rfl) rfl))
  · exact .ite h (landChunk_keeps.after h rfl)
  · exact creditBack_keeps.after h rfl
  · exact .ite h (State.updChan_keeps.after h rfl)
  · split
    · exact endBlock_keeps.after h rfl
    · exact openDone_keeps.after (State.setPring_keeps.after (State.updChan_keeps.after h rfl) rfl) rfl
  · exact prismSend_keeps.after (endBlock_keeps.after h rfl) rfl
  · split
    · exact prismEnd_keeps.after h rfl
    · exact h
  · exact h

/-! ### Job -/

end Sys2Proof.Machine
end

section
/-! PROOFS for 95_what_each_step_holds.md: jobs, checkpoints, updates. -/

namespace Sys2Proof.Machine
open Sys2Proof

variable {s : State}

/-! ### Job -/

theorem State.updUpd_keeps {u : Nat} {f : Upd → Upd} : Keeps { upds := true } s (s.updUpd u f) := .chain fun h =>
  State.setUpd_keeps.after h rfl

theorem loadStep_keeps {b : Bytes} : Keeps { step := true, upds := true } s (loadStep b s) := .chain fun h =>
  State.setUpd_keeps.after (State.setUpd_keeps.after h rfl) rfl

theorem ledgerOpen_keeps {j : Job} {attempt : Nat} :
    Keeps { units := true, step := true, host := true, hbm := true } s (ledgerOpen j attempt s) := .chain fun h =>
  .ite h (hbmWrite_keeps.after h rfl)

theorem ledgerPut_keeps {j : Job} {attempt off : Nat} {bs : Bytes} :
    Keeps { units := true, step := true, host := true, hbm := true } s (ledgerPut j attempt off bs s) := .chain fun h =>
  .ite h (hbmWrite_keeps.after (ledgerOpen_keeps.after h rfl) rfl)

theorem updCut_keeps {reason : Nat} : Keeps Scope.descriptor.parts s (updCut reason s) := .chain fun h => by
  refine .foldl (fun s1 x1 h1 => ?_) h
  split
  · exact .ite (State.updUpd_keeps.after (finish_keeps.after h1 rfl) rfl) h1
  · exact h1

theorem resetJobRings_keeps {h reason : Nat} :
    Keeps (Parts.tells.join { cores := true, prings := true, chans := true, lens := true }) s (resetJobRings h reason s) := .chain fun hw => by
  unfold resetJobRings
  split
  · exact hw
  · exact .ite (pringNotice_keeps.after (.foldl (fun _ _ h1 => pringReset_keeps.after h1 rfl) hw) rfl) hw

theorem State.setCkpt_keeps {n : Nat} {x : Ckpt} : Keeps { mirror := true } s (s.setCkpt n x) := rfl

theorem mirErr_keeps {bit job dev attempt : Nat} : Keeps { units := true, mirror := true } s (mirErr bit job dev attempt s) := .chain fun h =>
  State.updUnit_keeps.after (.ite h h) rfl

theorem ckptFail_keeps {n status : Nat} : Keeps (Parts.records.join { ops := true, mirror := true }) s (ckptFail n status s) := .chain fun h => by
  unfold ckptFail
  extract_lets k s1
  have hs1 : Keeps _ _ s1 := mirErr_keeps.after (State.setCkpt_keeps.after h rfl) rfl
  refine .ite ?_ h
  split
  · exact finishOp_keeps.after hs1 rfl
  · exact hs1

theorem ckptsFail_keeps {h : Nat} : Keeps Parts.jobEnds s (ckptsFail h s) := .chain fun hw =>
  .foldl (fun _ _ h1 => ckptFail_keeps.after h1 rfl) hw

theorem jobAbort_keeps {h : Nat} : Keeps Parts.jobEnds s (jobAbort h s) := .chain fun hw => by
  unfold jobAbort
  split
  · exact hw
  · extract_lets s1 s2 s3
    have hs1 : Keeps _ _ s1 := State.setJob_keeps.after hw rfl
    have hs2 : Keeps _ _ s2 := .update hs1 rfl
    have hs3 : Keeps _ _ s3 := .ite (updCut_keeps.after (State.updUpd_keeps.after (State.updUpd_keeps.after hs2 rfl) rfl) rfl) hs2
    exact ckptsFail_keeps.after (resetJobRings_keeps.after hs3 rfl) rfl

theorem jobStopEnd_keeps {h : Nat} : Keeps (Parts.records.join { ops := true, jobs := true }) s (jobStopEnd h s) := .chain fun hw => by
  unfold jobStopEnd
  split
  · exact hw
  · refine .ite ?_ hw
    extract_lets step status s1
    have hs1 : Keeps _ _ s1 := .ite hw (State.setJob_keeps.after hw rfl)
    split
    · exact finishOp_keeps.after hs1 rfl
    · exact hs1

theorem jobStopGo_keeps {h : Nat} :
    Keeps (Parts.tells.join { ops := true, cores := true, prings := true, chans := true, jobs := true, upds := true, lens := true }) s
      (jobStopGo h s) := .chain fun hw => by
  unfold jobStopGo
  split
  · exact hw
  · exact .ite (jobStopEnd_keeps.after (resetJobRings_keeps.after (.ite (updCut_keeps.after hw rfl) hw) rfl) rfl) hw

theorem inconsistent_keeps {u c ring ix : Nat} : Keeps Parts.tells s (inconsistent u c ring ix s) := .chain fun h =>
  raise_keeps.after h rfl

theorem specJobCreate_keeps : SpecKeeps Scope.mirror.parts specJobCreate := by
  refine ⟨fun i p s h => .ite trivial (.ite trivial ?_), fun _ h => h⟩
  split
  · exact trivial
  · split
    · exact trivial
    · split
      · exact trivial
      · extract_lets a resume
        refine .ite (raise_keeps.after h rfl) ?_
        split
        · exact trivial
        · split
          · exact trivial
          · exact State.setJob_keeps.after h rfl

theorem bindOne_keeps {h : Nat} {j : Job} {b : Bytes} {at_ : Nat} : BindKeeps Scope.head.parts s (bindOne h j b at_ s) := .chain fun hw => by
  unfold bindOne
  split
  · exact trivial
  · exact .ite trivial <| .ite trivial <| .ite trivial <| .ite trivial <| .ite trivial <| .ite trivial <| .ite trivial <| .ite trivial <|
      .ite trivial <| .ite trivial <| .ite trivial <| .ite trivial (State.setPring_keeps.after hw rfl)

theorem bindAll_keeps {h : Nat} {j : Job} {l : List Bytes} {n : Nat} : BindKeeps Scope.head.parts s (bindAll h j l n s) := .chain fun hw => by
  induction l generalizing n s with
  | nil => exact hw
  | cons b l ih =>
    unfold bindAll
    split
    · exact trivial
    · next e => exact ih (BindKeeps.of_eq e (bindOne_keeps.after hw rfl))

theorem freshStep_keeps {j : Job} : Keeps Scope.head.parts s (freshStep j s) := .chain fun h =>
  State.setUpd_keeps.after (State.setUpd_keeps.after h rfl) rfl

theorem specJobStart_keeps : SpecKeeps Scope.job.parts specJobStart := by
  refine ⟨fun i p s h => ?_, fun _ h => h⟩
  unfold specJobStart
  dsimp -zeta only
  extract_lets hd
  split
  · exact trivial
  · refine .ite trivial ?_
    split
    · exact trivial
    · next e =>
      have ht := BindKeeps.of_eq e (bindAll_keeps.after h rfl)
      extract_lets first blk t t'
      refine .ite (raise_keeps.after h rfl) ?_
      split
      · exact trivial
      · have ht1 : Keeps _ _ t := Keeps.ite ht (Keeps.ite (loadStep_keeps.after ht rfl) (freshStep_keeps.after ht rfl))
        have ht2 : Keeps _ _ t' := State.setJob_keeps.after ht1 rfl
        exact Keeps.ite (Keeps.update ht2 rfl) ht2

theorem specJobStop_keeps : SpecKeeps Scope.head.parts specJobStop := by
  refine ⟨fun i p s h => ?_, fun s h => Keeps.foldl (fun _ _ h => Keeps.ite (jobStopGo_keeps.after h rfl) h) h⟩
  unfold specJobStop
  dsimp -zeta only
  extract_lets hd del
  split
  · exact trivial
  · exact .ite (State.setJob_keeps.after h rfl) (.ite trivial (.ite h (State.setJob_keeps.after h rfl)))

theorem execJobStopWindowTimeout_ends {job : Nat} : Ends Scope.job.parts s (execJobStopWindowTimeout job s) := .chain fun h => by
  unfold execJobStopWindowTimeout
  split
  · exact h
  · refine .ite h ?_
    extract_lets s1 att step s2 s3
    have hs1 : Keeps _ _ s1 := atLeast_keeps.after h rfl
    have hs2 : Keeps _ _ s2 := inconsistent_keeps.after (inconsistent_keeps.after (setErr_keeps.after (setErr_keeps.after hs1 rfl) rfl) rfl) rfl
    have hs3 : Keeps _ _ s3 := jobAbort_keeps.after (State.setJob_keeps.after hs2 rfl) rfl
    split
    · exact finishOp_keeps.after hs3 rfl
    · exact hs3

theorem specJobQuery_keeps : SpecKeeps {} specJobQuery := by
  refine ⟨fun i p s h => ?_, fun _ h => h⟩
  unfold specJobQuery
  dsimp -zeta only
  split
  · exact trivial
  · exact h

theorem specJobLedgerRead_keeps : SpecKeeps Parts.tells specJobLedgerRead := by
  refine ⟨fun i p s h => ?_, fun _ h => h⟩
  unfold specJobLedgerRead
  dsimp -zeta only
  split
  · exact trivial
  · refine .ite trivial (.ite trivial ?_)
    extract_lets at_
    split
    · exact raise_keeps.after h rfl
    · exact h

/-! ### Ckpt -/

theorem ckptStart_keeps {h level : Nat} {regs : List Region} {bind : Nat} {op : Option (Nat × Nat)} {snap : Bool} :
    Keeps { mirror := true } s (ckptStart h level regs bind op snap s) := .chain fun hw => by
  unfold ckptStart
  split
  · exact hw
  · exact State.setCkpt_keeps.after hw rfl

theorem readRegions_keeps {test : Region → Bool} {l : List (Region × Bytes × Option Bytes)} :
    Keeps Scope.register.parts s (readRegions test l s).2.2 := .chain fun h => by
  induction l generalizing s with
  | nil => exact h
  | cons x l ih =>
    unfold readRegions
    split
    · exact ih h
    · extract_lets now_
      split
      next t e =>
        refine ih (hbmTaken_keeps.after ?_ rfl)
        split at e
        · cases e; exact h
        · exact Keeps.snd e (freshBytes_keeps.after h rfl)

theorem ckptRead_keeps {n : Nat} {test : Region → Bool} :
    Keeps (Parts.tells.join { ops := true, mirror := true }) s (ckptRead n test s) := .chain fun h => by
  unfold ckptRead
  extract_lets k want
  split
  · exact raise_keeps.after (ckptFail_keeps.after h rfl) rfl
  · split
    rename_i e
    have ht := Keeps.snd_snd e (readRegions_keeps.after h rfl)
    exact State.setCkpt_keeps.after ht rfl

theorem ckptSpoil_keeps {n : Nat} : Keeps Scope.mirror.parts s (ckptSpoil n s) := .chain fun h => by
  unfold ckptSpoil
  refine .ite h ?_
  split
  rename_i e
  have ht := Keeps.snd e (freshBytes_keeps.after h rfl)
  extract_lets parts
  exact State.setCkpt_keeps.after ht rfl

theorem ckptBefore_keeps {runs : List (Nat × Nat)} : Keeps Scope.head.parts s (ckptBefore runs s) := .chain fun h =>
  .foldl (fun _ _ h1 => ckptRead_keeps.after h1 rfl) (.ite (spent_keeps.after h rfl) h)

theorem autoL1_keeps {h : Nat} : Keeps { units := true, mirror := true } s (autoL1 h s) := .chain fun hw => by
  unfold autoL1
  split
  · exact .ite (bump_keeps.after (ckptStart_keeps.after hw rfl) rfl) hw
  · exact hw

theorem snapGo_keeps : Keeps { mirror := true } s (snapGo s) := .chain fun h => by
  unfold snapGo
  split
  · exact .ite (ckptStart_keeps.after h rfl) h
  · exact h

/-! ### Update -/

theorem updEnd_keeps {j status reason op nf elements lb : Nat} :
    Keeps Parts.records s (updEnd j status reason op nf elements lb s) := .chain fun h => by
  refine .ite (finish_keeps.after h rfl) ?_
  split
  rename_i e
  have ht := Keeps.snd e (State.fresh_keeps.after h rfl)
  exact finish_keeps.after ht rfl

theorem updUnreadable_keeps {j u : Nat} {run : Nat × Nat} : Keeps Parts.tells s (updUnreadable j u run s) := .chain fun h =>
  raise_keeps.after (setErr_keeps.after h rfl) rfl

theorem updMarked_keeps {j u op : Nat} {run : Nat × Nat} : Keeps Parts.tells s (updMarked j u op run s) := .chain fun h =>
  updEnd_keeps.after (updUnreadable_keeps.after h rfl) rfl

theorem exchangeLost_keeps {j u status reason : Nat} : Keeps Scope.descriptor.parts s (exchangeLost j u status reason s) := .chain fun h =>
  updEnd_keeps.after (State.updUpd_keeps.after h rfl) rfl

theorem updInconsistent_keeps {j u h reason op : Nat} : Keeps Parts.jobEnds s (updInconsistent j u h reason op s) := .chain fun hw =>
  inconsistent_keeps.after (jobAbort_keeps.after (setErr_keeps.after (updEnd_keeps.after hw rfl) rfl) rfl) rfl

theorem replayBad_keeps {j ix : Nat} {d : Bytes} {h : Nat} : Keeps Parts.jobEnds s (replayBad j ix d h s) := .chain fun hw =>
  jobAbort_keeps.after (mirErr_keeps.after (failCheck_keeps.after hw rfl) rfl) rfl

theorem closeWindow_keeps {u h : Nat} {job : Job} : Keeps Scope.head.parts s (closeWindow u h job s) := .chain fun hw => by
  unfold closeWindow
  extract_lets att _ s1 _ s2 s3 _ s4
  have hs1 : Keeps _ _ s1 := ledgerPut_keeps.after (State.setUpd_keeps.after hw rfl) rfl
  have hs2 : Keeps _ _ s2 := .update hs1 rfl
  have hs3 : Keeps _ _ s3 := .ite (hbmWrite_keeps.after hs2 rfl) hs2
  have hs4 : Keeps _ _ s4 := .update hs3 rfl
  exact .ite hs1 (jobStopGo_keeps.after (autoL1_keeps.after (snapGo_keeps.after hs4 rfl) rfl) rfl)

theorem windowGo_keeps : Keeps Scope.head.parts s (windowGo s) := .chain fun h => by
  unfold windowGo
  split
  · exact h
  · exact .foldl (fun _ _ h1 => .ite (closeWindow_keeps.after h1 rfl) h1) h

theorem windowAfter_keeps {ty : Nat} : Keeps Scope.head.parts s (windowAfter ty s) := .chain fun h =>
  .ite (windowGo_keeps.after h rfl) h

theorem noteScale_keeps {u : Nat} {d : Bytes} : Keeps Scope.descriptor.parts s (noteScale u d s) := .chain fun h =>
  State.updUpd_keeps.after h rfl

theorem scanLocal_keeps {u : Nat} {d : Bytes} {xs : List Nat} : Keeps Scope.descriptor.parts s (scanLocal u d xs s) := .chain fun h =>
  State.updUpd_keeps.after (.ite (bump_keeps.after h rfl) (bump_keeps.after (bump_keeps.after h rfl) rfl)) rfl

theorem scanReduced_keeps {u : Nat} {d : Bytes} {job : Job} {first : Nat} {xs : List Nat} :
    Keeps Scope.descriptor.parts s (scanReduced u d job first xs s) := .chain fun h =>
  State.updUpd_keeps.after (.ite (.ite h (bump_keeps.after h rfl)) (bump_keeps.after (.ite h (bump_keeps.after h rfl)) rfl)) rfl

theorem deltaOver_keeps {h : Nat} {p : Prot} : Keeps { units := true, mirror := true } s (deltaOver h p s) := .chain fun hw =>
  mirErr_keeps.after hw rfl

theorem toBuddy_keeps {kind h : Nat} {p : Prot} {bs : Bytes} : Keeps Parts.sends s (toBuddy kind h p bs s) := .chain fun hw =>
  .ite (sendStriped_keeps.after hw rfl) (sendGroup_keeps.after hw rfl)

theorem deltaAdd_keeps {h : Nat} {e : DeltaEnt} : Keeps Scope.update.parts s (deltaAdd h e s) := .chain fun hw => by
  unfold deltaAdd
  split
  · exact hw
  · refine .ite hw ?_
    extract_lets _ x _ s1
    have hs1 : Keeps _ _ s1 := bump_keeps.after hw rfl
    exact .ite (deltaOver_keeps.after hw rfl) (toBuddy_keeps.after hs1 rfl)

theorem exchangeEnd_keeps {j u h : Nat} {job : Job} {others : List Bytes} :
    Keeps Scope.update.parts s (exchangeEnd j u h job others s) := .chain fun hw => by
  unfold exchangeEnd
  split
  · exact hw
  · extract_lets d n red ms r local_ all out
    split
    extract_lets own bs s1 s2 s3 s4
    have hs1 : Keeps _ _ s1 := .ite hw (hbmWrite_keeps.after hw rfl)
    have hs2 : Keeps _ _ s2 := scanReduced_keeps.after hs1 rfl
    have hs3 : Keeps _ _ s3 := deltaAdd_keeps.after hs2 rfl
    have hs4 : Keeps _ _ s4 := State.updUpd_keeps.after hs3 rfl
    exact updEnd_keeps.after hs4 rfl

theorem exchangeGo_keeps {j u h : Nat} {job : Job} {others : Option (List Bytes)} :
    Keeps Scope.update.parts s (exchangeGo j u h job others s) := .chain fun hw => by
  refine .ite (exchangeLost_keeps.after hw rfl) (.ite (exchangeEnd_keeps.after hw rfl) (.ite hw ?_))
  split
  · exact .ite (exchangeEnd_keeps.after hw rfl) (exchangeLost_keeps.after hw rfl)
  · exact hw

theorem exchangeReplay_keeps {j ix h : Nat} {d : Bytes} {w : Replay} : Keeps Parts.jobEnds s (exchangeReplay j ix h d w s) := .chain fun hw => by
  unfold exchangeReplay
  split
  · split
    · exact updEnd_keeps.after (hbmWrite_keeps.after (served_keeps.after (begin_keeps.after hw rfl) rfl) rfl) rfl
    · exact replayBad_keeps.after hw rfl
  · exact replayBad_keeps.after hw rfl

theorem execUpdExchange_ends {ring : Nat} {others : Option (List (List Byte))} :
    Ends Scope.update.parts s (execUpdExchange ring others s) := .chain fun h => by
  unfold execUpdExchange
  split
  · exact .ite (exchangeGo_keeps.after h rfl) h
  · split
    · exact h
    · split
      · exact windowGo_keeps.after (failArg_keeps.after h rfl) rfl
      · split
        · exact exchangeReplay_keeps.after h rfl
        · extract_lets n s1
          have hs1 : Keeps _ _ s1 := hbmTaken_keeps.after (noteScale_keeps.after (served_keeps.after (begin_keeps.after h rfl) rfl) rfl) rfl
          exact .ite (updMarked_keeps.after (State.updUpd_keeps.after hs1 rfl) rfl) (exchangeGo_keeps.after (scanLocal_keeps.after hs1 rfl) rfl)

theorem commitSend_keeps {job : Job} :
    Keeps { units := true, step := true, upds := true, host := true, hbm := true } s (commitSend job s) := .chain fun h =>
  ledgerPut_keeps.after (State.updUpd_keeps.after (State.updUpd_keeps.after h rfl) rfl) rfl

theorem logSlot_keeps {p : Prot} {job : Job} :
    Keeps { units := true, mirror := true, host := true, hbm := true } s (logSlot p job s) := .chain fun h => by
  unfold logSlot
  extract_lets att a old bad slot s1 log
  have hs1 : Keeps _ _ s1 := hbmWrite_keeps.after h rfl
  exact bump_keeps.after (.update hs1 rfl) rfl

theorem deltaSend_keeps {h : Nat} {p : Prot} : Keeps (Parts.sends.join { mirror := true }) s (deltaSend h p s) := .chain fun hw => by
  unfold deltaSend
  extract_lets _ x s1 s2
  have hs1 : Keeps _ _ s1 := bump_keeps.after (bump_keeps.after hw rfl) rfl
  have hs2 : Keeps _ _ s2 := toBuddy_keeps.after (toBuddy_keeps.after hs1 rfl) rfl
  exact .ite (deltaOver_keeps.after hw rfl) (.update hs2 rfl)

theorem retainDone_keeps : Keeps { units := true, mirror := true } s (retainDone s) := .chain fun h => by
  unfold retainDone
  split
  · exact bump_keeps.after h rfl
  · exact h

theorem commitGo_keeps {h : Nat} {job : Job} :
    Keeps (Parts.sends.join { step := true, upds := true, mirror := true, host := true, hbm := true }) s (commitGo h job s) := .chain fun hw => by
  refine .ite hw ?_
  split
  · exact commitSend_keeps.after hw rfl
  · refine .ite (commitSend_keeps.after (logSlot_keeps.after hw rfl) rfl)
      (.ite (.ite (commitSend_keeps.after hw rfl) hw) (.ite (autoL1_keeps.after hw rfl) ?_))
    extract_lets s1
    have hs1 : Keeps _ _ s1 := deltaSend_keeps.after (logSlot_keeps.after (retainDone_keeps.after hw rfl) rfl) rfl
    exact .ite hs1 (commitSend_keeps.after hs1 rfl)

theorem logWord_keeps {h : Nat} {w : CommitWord} {att : Nat} : Keeps Scope.update.parts s (logWord h w att s) := .chain fun hw => by
  unfold logWord
  split
  · exact hw
  · refine .ite hw ?_
    extract_lets kept fill log s1 s2 s3
    have hs1 : Keeps _ _ s1 := hbmWrite_keeps.after hw rfl
    have hs2 : Keeps _ _ s2 := hbmWrite_keeps.after hs1 rfl
    have hs3 : Keeps _ _ s3 := .ite hs2 (toBuddy_keeps.after hs2 rfl)
    exact .update hs3 rfl

theorem takeWord_keeps {h : Nat} {job : Job} {w : CommitWord} : Keeps Scope.update.parts s (takeWord h job w s) := .chain fun {o} hw => by
  unfold takeWord
  extract_lets att x _ s1 s2 s3 s4 n s5
  have hs1 : Keeps _ _ s1 := hw
  have hs2 : Keeps _ _ s2 := hbmWrite_keeps.after hs1 rfl
  have hs3 : Keeps _ _ s3 := ledgerPut_keeps.after (ledgerPut_keeps.after hs2 rfl) rfl
  have hs4 : Keeps _ _ s4 := logWord_keeps.after hs3 rfl
  have hs5 : Keeps Scope.update.parts o s5 := by
    unfold s5
    refine .foldl (fun s6 x1 h1 => ?_) hs4
    extract_lets a a1
    have ha : Keeps _ _ a := bump_keeps.after h1 rfl
    have ha1 : Keeps Scope.update.parts o a1 := by
      unfold a1
      split
      · exact finish_keeps.after ha rfl
      · exact ha
    exact State.updUpd_keeps.after ha1 rfl
  exact .ite (jobAbort_keeps.after (deliverEvent_keeps.after hs5 rfl) rfl) (windowGo_keeps.after hs5 rfl)

theorem execUpdCommit_ends {ring : Nat} : Ends Scope.update.parts s (execUpdCommit ring s) := .chain fun {o} h => by
  unfold execUpdCommit
  split
  · exact h
  · refine .ite (windowGo_keeps.after (failArg_keeps.after h rfl) rfl) ?_
    extract_lets go s1
    have hgo : ∀ s2, Keeps Scope.update.parts o s2 → Keeps Scope.update.parts o (go s2) := fun _ h1 =>
      State.updUpd_keeps.after (served_keeps.after (begin_keeps.after h1 rfl) rfl) rfl
    have hs1 : Keeps _ _ s1 := hgo _ h
    split
    · split
      · refine .ite (replayBad_keeps.after h rfl) ?_
        split
        · exact .ite (takeWord_keeps.after hs1 rfl) hs1
        · exact hs1
      · exact replayBad_keeps.after h rfl
    · split
      · exact .ite (takeWord_keeps.after hs1 rfl) hs1
      · exact .ite (State.updUpd_keeps.after (updEnd_keeps.after hs1 rfl) rfl) (commitGo_keeps.after hs1 rfl)

theorem execDeltaAck_ends {job : Nat} : Ends Scope.update.parts s (execDeltaAck job s) := .chain fun h => by
  unfold execDeltaAck
  split
  · exact h
  · exact .ite h (commitGo_keeps.after h rfl)

theorem execCommitWordArrival_ends {job : Nat} {others : List Contribution} :
    Ends Scope.update.parts s (execCommitWordArrival job others s) := .chain fun h => by
  unfold execCommitWordArrival
  split
  · exact h
  · refine .ite h ?_
    extract_lets cs
    exact takeWord_keeps.after h rfl

theorem applyGo_keeps {k : ApplyConst} {n hi lo st gr m i : Nat} : Keeps Parts.records s (applyGo k n hi lo st gr m i s).1 := .chain fun h => by
  induction m generalizing i s with
  | zero => exact h
  | succ m ih =>
    unfold applyGo
    extract_lets w x v
    split
    · exact ih h
    · exact ih h
    · exact ih (.ite (hbmWrite_keeps.after (hbmWrite_keeps.after (hbmWrite_keeps.after (hbmWrite_keeps.after h rfl) rfl) rfl) rfl)
        (hbmWrite_keeps.after (hbmWrite_keeps.after (hbmWrite_keeps.after h rfl) rfl) rfl))

theorem updSkip_keeps {j u op : Nat} : Keeps Parts.records s (updSkip j u op s) := .chain fun h =>
  bump_keeps.after (updEnd_keeps.after h rfl) rfl

theorem execUpdApply_ends {ring : Nat} : Ends Scope.update.parts s (execUpdApply ring s) := .chain fun h => by
  unfold execUpdApply
  split
  · exact h
  · split
    · exact windowGo_keeps.after (failArg_keeps.after h rfl) rfl
    · extract_lets runs s1 n k s2
      have hs1 : Keeps _ _ s1 := served_keeps.after (begin_keeps.after (ckptBefore_keeps.after h rfl) rfl) rfl
      have hs2 : Keeps Scope.update.parts _ s2 := .foldl (fun _ _ h1 => hbmTaken_keeps.after h1 rfl) hs1
      refine .ite (updSkip_keeps.after (served_keeps.after (begin_keeps.after h rfl) rfl) rfl) (.ite (spent_keeps.after h rfl) ?_)
      split
      · exact updInconsistent_keeps.after (updUnreadable_keeps.after hs1 rfl) rfl
      · split
        rename_i e
        have ht := Keeps.fst e (applyGo_keeps.after hs2 rfl)
        extract_lets s3 s4
        have hs3 : Keeps Scope.update.parts _ s3 := .foldl (fun _ _ h1 => .ite h1 (bump_keeps.after h1 rfl)) ht
        have hs4 : Keeps _ _ s4 := .ite hs3 (setErr_keeps.after hs3 rfl)
        exact updEnd_keeps.after hs4 rfl

theorem gatherWrite_keeps {hi n : Nat} {ms : List Nat} {own : Nat} {others : List Bytes} :
    Keeps Parts.records s (gatherWrite hi n ms own others s).1 := .chain fun h => by
  refine List.foldlRecOn (motive := fun a : State × Nat => Keeps _ _ a.1) _ _ h fun a ha p _ => ?_
  split
  split
  · exact ha
  · exact hbmWrite_keeps.after ha rfl

theorem gatherGo_keeps {j u h : Nat} {job : Job} {others : Option (List Bytes)} :
    Keeps Parts.jobEnds s (gatherGo j u h job others s) := .chain fun {o} hw => by
  unfold gatherGo
  split
  · exact hw
  · extract_lets ms n own size fin
    have hfin : ∀ l1, Keeps Parts.jobEnds o (fin l1) := by
      intro l1
      unfold fin
      split
      rename_i e
      have ht := Keeps.fst e (gatherWrite_keeps.after hw rfl)
      exact updEnd_keeps.after ht rfl
    refine .ite (updInconsistent_keeps.after hw rfl) (.ite (hfin _) (.ite hw ?_))
    split
    · exact .ite (hfin _) (updEnd_keeps.after hw rfl)
    · exact hw

theorem execUpdGather_ends {ring : Nat} {others : Option (List (List Byte))} :
    Ends Scope.update.parts s (execUpdGather ring others s) := .chain fun h => by
  unfold execUpdGather
  split
  · exact .ite (gatherGo_keeps.after h rfl) h
  · split
    · exact h
    · split
      · exact windowGo_keeps.after (failArg_keeps.after h rfl) rfl
      · extract_lets run ms own mine s1
        have hs1 : Keeps _ _ s1 := served_keeps.after (begin_keeps.after (ckptBefore_keeps.after h rfl) rfl) rfl
        exact .ite (updSkip_keeps.after (served_keeps.after (begin_keeps.after h rfl) rfl) rfl)
          (.ite (spent_keeps.after h rfl) (.ite (updInconsistent_keeps.after (updUnreadable_keeps.after hs1 rfl) rfl)
          (gatherGo_keeps.after (hbmTaken_keeps.after hs1 rfl) rfl)))

theorem markPut_keeps {job : Job} {att phase : Nat} {exit : Bool} : Keeps Scope.head.parts s (markPut job att phase exit s) := .chain fun h => by
  unfold markPut
  extract_lets s1 a seen multi opn b was
  have hs1 : Keeps _ _ s1 := ledgerOpen_keeps.after h rfl
  split
  extract_lets s2
  have hs2 : Keeps _ _ s2 := hbmWrite_keeps.after hs1 rfl
  exact .ite (hbmWrite_keeps.after hs2 rfl) (.ite hs2 (hbmWrite_keeps.after hs2 rfl))

theorem execUpdMark_ends {ring : Nat} : Ends Scope.update.parts s (execUpdMark ring s) := .chain fun h => by
  unfold execUpdMark
  split
  · exact h
  · refine .ite (windowGo_keeps.after (failArg_keeps.after h rfl) rfl) ?_
    extract_lets s1 x att
    have hs1 : Keeps _ _ s1 := served_keeps.after (begin_keeps.after h rfl) rfl
    clear_value att
    split
    · exact .ite (updEnd_keeps.after (bump_keeps.after hs1 rfl) rfl) (updEnd_keeps.after (markPut_keeps.after hs1 rfl) rfl)
    · exact updEnd_keeps.after (bump_keeps.after hs1 rfl) rfl

/-! ### Mirror -/

end Sys2Proof.Machine
end

section
/-! PROOFS for 95_what_each_step_holds.md: Mirror, rings, contexts, the Stream Unit, the host port. -/

namespace Sys2Proof.Machine
open Sys2Proof

variable {s : State}

/-! ### Mirror -/

theorem setTemplate_keeps {h : Nat} {l : List Region} : Keeps Scope.mirror.parts s (setTemplate h l s) := rfl

theorem specMirCkpt_keeps : SpecKeeps Scope.mirror.parts specMirCkpt := by
  refine ⟨fun i p s h => ?_, fun _ h => h⟩
  unfold specMirCkpt
  dsimp -zeta only
  extract_lets h1 level n regs s1
  have hs1 : Keeps _ _ s1 := Keeps.ite (setTemplate_keeps.after h rfl) h
  split
  · exact trivial
  · split
    · exact trivial
    · refine .ite trivial (.ite trivial ?_)
      split
      · exact trivial
      · split
        · exact trivial
        · exact .ite trivial (.ite trivial (.ite trivial (ckptStart_keeps.after hs1 rfl)))

theorem execCkptCaptureDone_ends {ckpt : Nat} : Ends Scope.update.parts s (execCkptCaptureDone ckpt s) := .chain fun h => by
  refine .ite h ?_
  extract_lets s1 k h1
  have hs1 : Keeps _ _ s1 := ckptRead_keeps.after h rfl
  exact .ite hs1 (deliverEvent_keeps.after (State.setCkpt_keeps.after hs1 rfl) rfl)

theorem ckptShip_keeps {n : Nat} : Keeps Scope.mirror.parts s (ckptShip n s) := .chain fun h => by
  unfold ckptShip
  split
  · split
    · exact toBuddy_keeps.after h rfl
    · exact h
  refine .ite ?_ h
  split
  · extract_lets out
    exact h
  · exact h

theorem execCkptManifestWritten_ends {ckpt : Nat} {ok : Bool} :
    Ends Scope.mirror.parts s (execCkptManifestWritten ckpt ok s) := .chain fun {o} h => by
  refine .ite h ?_
  extract_lets s1 k bytes s2 s3 level _ s4 members _ s5 s6
  have hs1 : Keeps _ _ s1 := ckptSpoil_keeps.after (ckptRead_keeps.after h rfl) rfl
  have hs2 : Keeps _ _ s2 := bump_keeps.after (bump_keeps.after (ckptShip_keeps.after hs1 rfl) rfl) rfl
  have hs3 : Keeps _ _ s3 := State.setCkpt_keeps.after hs2 rfl
  have hs4 : Keeps _ _ s4 := .update hs3 rfl
  have hs5 : Keeps _ _ s5 := .ite (.update hs4 rfl) hs4
  have hs6 : Keeps Scope.mirror.parts o s6 := by
    unfold s6
    split
    · extract_lets r
      exact finishOp_keeps.after hs5 rfl
    · exact hs5
  refine .ite hs1 (.ite (ckptFail_keeps.after hs1 rfl) ?_)
  split
  · exact commitGo_keeps.after (snapGo_keeps.after hs6 rfl) rfl
  · exact hs6

theorem restoreRegs_keeps {regs : List Region} {data : List Bytes} : Keeps Parts.records s (restoreRegs regs data s) := .chain fun h =>
  .foldl (fun _ _ h1 => hbmWrite_keeps.after h1 rfl) h

theorem restoreUndefined_keeps {regs : List Region} : Keeps Parts.records s (restoreUndefined regs s) := .chain fun h =>
  .foldl (fun _ _ h1 => hbmWrite_keeps.after (freshBytes_keeps.after h1 rfl) rfl) h

theorem specMirRestore_keeps : SpecKeeps Scope.mirror.parts specMirRestore := by
  refine ⟨fun i p s h => ?_, fun _ h => h⟩
  unfold specMirRestore
  dsimp -zeta only
  extract_lets h1 level n regs
  split
  · exact trivial
  · split
    · exact trivial
    · refine .ite trivial (.ite trivial ?_)
      split
      · exact trivial
      · split
        · exact trivial
        · split
          · exact trivial
          · refine .ite trivial (.ite h (.ite (mirErr_keeps.after (restoreUndefined_keeps.after h rfl) rfl) ?_))
            extract_lets s1
            have hs1 : Keeps _ _ s1 := loadStep_keeps.after (restoreRegs_keeps.after h rfl) rfl
            exact bump_keeps.after (State.setJob_keeps.after hs1 rfl) rfl

theorem specMirSnapshot_keeps : SpecKeeps Scope.mirror.parts specMirSnapshot := by
  refine ⟨fun i p s h => ?_, fun _ h => h⟩
  unfold specMirSnapshot
  dsimp -zeta only
  extract_lets h1 level bytes
  split
  · exact trivial
  · split
    · exact trivial
    · refine .ite trivial ?_
      split
      · exact trivial
      · exact .ite trivial (.ite trivial (.ite trivial (snapGo_keeps.after h rfl)))

theorem spareProtect_keeps {i : Iss} {p : Bytes} : ResKeeps Scope.mirror.parts s (spareProtect i p s) := .chain fun h => by
  unfold spareProtect
  extract_lets h1 n regs b _ s1
  have hs1 : Keeps _ _ s1 := h
  split
  · exact trivial
  · refine .ite trivial (.ite trivial (.ite trivial (.ite trivial ?_)))
    split
    · exact trivial
    · split
      · exact trivial
      · exact .ite trivial (.ite trivial (.ite trivial (ckptStart_keeps.after (setTemplate_keeps.after hs1 rfl) rfl)))

theorem spareTell_keeps {g : Nat} {on : Bool} {auto : Nat} : Keeps Parts.sends s (spareTell g on auto s) := .chain fun h =>
  .foldl (fun _ _ h1 => sendMsg_keeps.after h1 rfl) h

theorem spareDesignate_keeps {i : Iss} {p : Bytes} : ResKeeps Scope.mirror.parts s (spareDesignate i p s) := .chain fun h => by
  refine .ite trivial (.ite trivial ?_)
  split
  · exact trivial
  · exact .ite trivial (.ite trivial (spareTell_keeps.after h rfl))

theorem spareReserve_keeps {i : Iss} {p : Bytes} : ResKeeps Scope.mirror.parts s (spareReserve i p s) := .chain fun h => by
  refine .ite trivial (.ite trivial (.ite trivial ?_))
  split
  · exact trivial
  · refine .ite trivial ?_
    extract_lets s1
    have hs1 : Keeps _ _ s1 := takePages_keeps.after h rfl
    exact Keeps.update hs1 rfl

theorem spareRelease_keeps {i : Iss} {p : Bytes} : ResKeeps Scope.mirror.parts s (spareRelease i p s) := .chain fun {o} h => by
  unfold spareRelease
  extract_lets x _ m
  split
  · split
    · exact trivial
    · refine .ite trivial ?_
      split
      · exact commitGo_keeps.after (s := { s with mirror := m }) (.update h rfl) rfl
      · exact Keeps.update h rfl
    · exact trivial
  · split
    · exact .ite trivial (.ite trivial (spareTell_keeps.after h rfl))
    · exact trivial
  · split
    · refine .ite trivial (.ite trivial ?_)
      extract_lets s1
      have hs1 : Keeps Scope.mirror.parts o s1 := by
        unfold s1
        split
        · exact freePages_keeps.after h rfl
        · exact h
      exact Keeps.update hs1 rfl
    · exact trivial
  · exact trivial

theorem specMirSpare_keeps : SpecKeeps Scope.mirror.parts specMirSpare := by
  refine ⟨fun i p s h => ?_, fun _ h => h⟩
  unfold specMirSpare
  dsimp -zeta only
  split
  · exact spareProtect_keeps.after h rfl
  · exact spareDesignate_keeps.after h rfl
  · exact spareReserve_keeps.after h rfl
  · exact spareRelease_keeps.after h rfl
  · exact trivial

theorem tellMembers_keeps {g w : Nat} {bs : Bytes} :
    Keeps { free := true, sys := true, units := true, beam := true } s (tellMembers g w bs s) := .chain fun h =>
  .foldl (fun _ _ h1 => sendMsg_keeps.after h1 rfl) h

theorem takeoverGo_keeps {g rank h : Nat} {j : Job} {op : Option (Nat × Nat)} :
    Keeps { free := true, sys := true, units := true, jobs := true, groups := true, beam := true, mirror := true } s (takeoverGo g rank h j op s) :=
      .chain fun hw => by
  unfold takeoverGo
  extract_lets s1 s2 s3
  have hs1 : Keeps _ _ s1 := State.updGroup_keeps.after hw rfl
  have hs2 : Keeps _ _ s2 := tellMembers_keeps.after hs1 rfl
  have hs3 : Keeps _ _ s3 := State.setJob_keeps.after hs2 rfl
  exact .update hs3 rfl

theorem takeoverAuto_keeps {key rank : Nat} : Keeps Scope.peer.parts s (takeoverAuto key rank s) := .chain fun h => by
  unfold takeoverAuto
  split
  · exact h
  · split
    · exact h
    · extract_lets g
      exact .ite h (takeoverGo_keeps.after h rfl)

theorem takeoverBegin_keeps {i : Iss} {p : Bytes} : ResKeeps Scope.mirror.parts s (takeoverBegin i p s) := .chain fun h => by
  refine .ite trivial (.ite trivial ?_)
  split
  · exact trivial
  · exact .ite trivial (.ite trivial (.ite trivial (.ite trivial (takeoverGo_keeps.after h rfl))))

theorem execTakeoverRestoreComplete_ends {job : Nat} {data : List (List Byte)} {block : List Byte} {deltas : List Delta} :
    Ends Scope.mirror.parts s (execTakeoverRestoreComplete job data block deltas s) := .chain fun {o} h => by
  unfold execTakeoverRestoreComplete
  split
  · refine .ite h ?_
    extract_lets regs done st s1 _ s2 s3 first last _ s4
    have hdone : ∀ st1 d1 res1 s5, Keeps Scope.mirror.parts o s5 → Keeps Scope.mirror.parts o (done st1 d1 res1 s5) := by
      intro st1 d1 res1 s5 hs5
      unfold done
      split
      · exact finishOp_keeps.after hs5 rfl
      · exact deliverEvent_keeps.after hs5 rfl
    have hs1 : Keeps _ _ s1 := State.updGroup_keeps.after (State.setJob_keeps.after h rfl) rfl
    have hs2 : Keeps _ _ s2 := bump_keeps.after (loadStep_keeps.after (restoreRegs_keeps.after h rfl) rfl) rfl
    have hs3 : Keeps Scope.mirror.parts o s3 := by
      unfold s3
      split
      · exact restoreRegs_keeps.after hs2 rfl
      · exact hs2
    have hs4 : Keeps _ _ s4 := .update hs3 rfl
    exact .ite (hdone _ _ _ _ (Keeps.update hs1 rfl)) (hdone _ _ _ _ hs4)
  · exact h

theorem takeoverEnd_keeps {i : Iss} {p : Bytes} : ResKeeps Scope.mirror.parts s (takeoverEnd i p s) := .chain fun h => by
  unfold takeoverEnd
  extract_lets g h1 att s1
  have hs1 : Keeps _ _ s1 := bump_keeps.after (State.updGroup_keeps.after (tellMembers_keeps.after h rfl) rfl) rfl
  refine .ite trivial (.ite trivial ?_)
  split
  · exact trivial
  · split
    · exact trivial
    · exact .ite trivial (.ite trivial (.ite h (.ite (mirErr_keeps.after h rfl) (Keeps.update hs1 rfl))))

theorem specMirTakeover_keeps : SpecKeeps Scope.mirror.parts specMirTakeover := by
  refine ⟨fun i p s h => ?_, fun _ h => h⟩
  unfold specMirTakeover
  dsimp -zeta only
  split
  · exact takeoverBegin_keeps.after h rfl
  · exact takeoverEnd_keeps.after h rfl
  · exact trivial

theorem specMirLogQuery_keeps : SpecKeeps {} specMirLogQuery := by
  refine ⟨fun i p s h => ?_, fun _ h => h⟩
  unfold specMirLogQuery
  dsimp -zeta only
  split
  · exact trivial
  · exact .ite trivial (.ite trivial h)

/-! ### RingCmd -/

theorem specRingCreate_keeps : SpecKeeps Scope.ringReg.parts specRingCreate := by
  refine ⟨fun i p s h => ?_, fun _ h => h⟩
  unfold specRingCreate
  dsimp -zeta only
  split
  · exact trivial
  · split
    · exact trivial
    · extract_lets j
      exact createRing_keeps.after h rfl

theorem beginClear_keeps {core : Nat} {waiter : Option Nat} : Keeps Scope.ring.parts s (beginClear core waiter s) := .chain fun h =>
  State.updCore_keeps.after h rfl

theorem specRingDestroy_keeps : SpecKeeps Scope.ring.parts specRingDestroy := by
  refine ⟨fun i p s h => ?_, fun _ h => h⟩
  unfold specRingDestroy
  dsimp -zeta only
  extract_lets j r s'
  have hs' : Keeps _ _ s' := State.setRing_keeps.after h rfl
  split
  · exact trivial
  · refine .ite trivial ?_
    split
    · exact .ite (beginClear_keeps.after hs' rfl) hs'
    · exact hs'

theorem execCoreClearComplete_ends {ty inst : Nat} : Ends Scope.memory.parts s (execCoreClearComplete ty inst s) := .chain fun h => by
  unfold execCoreClearComplete
  split
  · exact h
  · extract_lets x s1
    have hs1 : Keeps _ _ s1 := State.setCore_keeps.after (sramClear_keeps.after h rfl) rfl
    refine .ite h ?_
    split
    · exact completeHeld_keeps.after hs1 rfl
    · exact hs1

theorem drained_keeps {j : Nat} : Keeps Scope.ring.parts s (drained j s) := .chain fun h =>
  State.updRing_keeps.after (.ite (putRecord_keeps.after (dropHeld_keeps.after h rfl) rfl) h) rfl

theorem specRingDrain_keeps : SpecKeeps Scope.ring.parts specRingDrain := by
  refine ⟨fun i p s h => ?_, fun _ h => h⟩
  unfold specRingDrain
  dsimp -zeta only
  extract_lets j r s'
  have hs' : Keeps _ _ s' := State.setRing_keeps.after (handleWait_keeps.after h rfl) rfl
  split
  · exact trivial
  · exact .ite trivial (.ite (drained_keeps.after hs' rfl) hs')

theorem execRingDrainComplete_ends {ring : Nat} : Ends Scope.ring.parts s (execRingDrainComplete ring s) := .chain fun h => by
  refine .ite ?_ h
  split
  · exact finishOp_keeps.after (drained_keeps.after h rfl) rfl
  · exact drained_keeps.after h rfl

theorem specRingQuery_keeps : SpecKeeps {} specRingQuery := by
  refine ⟨fun i p s h => ?_, fun _ h => h⟩
  unfold specRingQuery
  dsimp -zeta only
  extract_lets j r
  split
  · exact trivial
  · exact h

theorem slotsUndefined_keeps {j x n : Nat} : Keeps Parts.records s (slotsUndefined j x n s) := .chain fun h => by
  induction n generalizing x s with
  | zero => exact h
  | succ n ih =>
    unfold slotsUndefined
    extract_lets r
    split
    rename_i e
    have ht := Keeps.snd e (freshBytes_keeps.after h rfl)
    exact ih (spaceWrite_keeps.after ht rfl)

theorem execRingTailWrite_ends {ring value : Nat} : Ends Scope.signal.parts s (execRingTailWrite ring value s) := .chain fun h => by
  unfold execRingTailWrite
  extract_lets r v s1
  have hs1 : Keeps _ _ s1 := State.setRing_keeps.after h rfl
  exact .ite h (.ite (.ite (State.setRing_keeps.after h rfl) (Keeps.ite (slotsUndefined_keeps.after hs1 rfl) hs1)) (State.setRing_keeps.after h rfl))

theorem execRingCtrlRestart_ends {ring : Nat} : Ends Scope.ringReg.parts s (execRingCtrlRestart ring s) := .chain fun h =>
  .ite (State.setRing_keeps.after h rfl) h

theorem execRingCtrlArm_ends {ring : Nat} : Ends Scope.ringReg.parts s (execRingCtrlArm ring s) := .chain fun h =>
  .ite h (State.setRing_keeps.after h rfl)

/-! ### Ctx -/

theorem State.setAgent_keeps {n : Nat} {x : Agent} : Keeps Scope.agent.parts s (s.setAgent n x) := rfl

theorem specCtxCreate_keeps : SpecKeeps Scope.security.parts specCtxCreate := by
  refine ⟨fun i p s h => .ite trivial ?_, fun _ h => h⟩
  split
  · exact trivial
  · split
    · exact trivial
    · refine .ite trivial ?_
      extract_lets x
      exact State.setCtx_keeps.after h rfl

theorem specCtxSetQuota_keeps : SpecKeeps Parts.records specCtxSetQuota := by
  refine ⟨fun i p s h => .ite trivial ?_, fun _ h => h⟩
  split
  · exact trivial
  · exact .ite trivial (State.updCtx_keeps.after h rfl)

theorem specCtxQuery_keeps : SpecKeeps {} specCtxQuery := ⟨fun _ _ _ h => .ite trivial (.ite trivial h), fun _ h => h⟩

theorem specCtxAssignMailbox_keeps :
    SpecKeeps Scope.mailbox.parts specCtxAssignMailbox :=
      ⟨fun _ _ _ h => .ite trivial (.ite trivial (.ite trivial (.ite trivial (.ite trivial (State.setMb_keeps.after h rfl))))), fun _ h => h⟩

theorem specCtxReleaseMailbox_keeps :
    SpecKeeps Scope.mailbox.parts specCtxReleaseMailbox :=
      ⟨fun _ _ _ h => .ite trivial (.ite trivial (.ite trivial (State.setMb_keeps.after h rfl))), fun _ h => h⟩

theorem specCtxAgentLoad_keeps : SpecKeeps Scope.agent.parts specCtxAgentLoad := by
  refine ⟨fun i p s h => ?_, fun _ h => h⟩
  unfold specCtxAgentLoad
  dsimp -zeta only
  extract_lets a n w pages img m
  refine .ite trivial (.ite trivial (.ite trivial (.ite trivial (.ite trivial ?_))))
  split
  · refine .ite h (.ite (raise_keeps.after h rfl) ?_)
    extract_lets s1 s2
    have hs1 : Keeps _ _ s1 := takePages_keeps.after (hbmTaken_keeps.after h rfl) rfl
    have hs2 : Keeps _ _ s2 := State.setAgent_keeps.after hs1 rfl
    exact State.setMb_keeps.after hs2 rfl
  · exact trivial

theorem specCtxAgentStart_keeps : SpecKeeps Scope.agent.parts specCtxAgentStart := by
  refine ⟨fun i p s h => ?_, fun _ h => h⟩
  unfold specCtxAgentStart
  dsimp -zeta only
  extract_lets n
  split
  · exact trivial
  · exact .ite trivial (State.setAgent_keeps.after h rfl)

theorem specCtxAgentStop_keeps : SpecKeeps Scope.agent.parts specCtxAgentStop := by
  refine ⟨fun i p s h => ?_, fun _ h => h⟩
  unfold specCtxAgentStop
  dsimp -zeta only
  extract_lets n
  split
  · exact trivial
  · exact .ite trivial (State.setAgent_keeps.after h rfl)

theorem agentUnload_keeps {n : Nat} : Keeps Scope.agent.parts s (agentUnload n s) := .chain fun {o} h => by
  unfold agentUnload
  extract_lets a s1
  have hs1 : Keeps Scope.agent.parts o s1 := by
    unfold s1
    split
    · exact freePages_keeps.after h rfl
    · exact h
  exact State.setMb_keeps.after (State.setAgent_keeps.after hs1 rfl) rfl

theorem specCtxAgentUnload_keeps : SpecKeeps Scope.agent.parts specCtxAgentUnload := by
  refine ⟨fun i p s h => ?_, fun _ h => h⟩
  unfold specCtxAgentUnload
  dsimp -zeta only
  extract_lets n
  split
  · exact trivial
  · exact .ite trivial (agentUnload_keeps.after h rfl)

/-! ### Stream -/

theorem suFault_keeps {j reason status addr : Nat} : Keeps Scope.ringReg.parts s (suFault j reason status addr s) := .chain fun h =>
  State.updRing_keeps.after h rfl

theorem suLost_keeps {j reason src addr space : Nat} : Keeps Parts.tells s (suLost j reason src addr space s) := .chain fun h => by
  unfold suLost
  extract_lets r s'
  have hs' : Keeps _ _ s' := suFault_keeps.after h rfl
  split
  · exact .ite hs' (raise_keeps.after hs' rfl)
  · exact h

theorem suSettle_keeps {j : Nat} : Keeps Parts.records s (suSettle j s) := .chain fun h => by
  unfold suSettle
  extract_lets r
  split
  · refine .ite h ?_
    extract_lets status detail s1 s2 bit
    have hs1 : Keeps _ _ s1 := finish_keeps.after h rfl
    have hs2 : Keeps _ _ s2 := .ite (bump_keeps.after hs1 rfl) hs1
    clear_value bit
    split
    · exact setErr_keeps.after hs2 rfl
    · exact hs2
  · exact h

theorem suAsk_keeps {c : Nat} {d : Bytes} {g : Seg} : Keeps Parts.sends s (suAsk c d g s) := .chain fun h =>
  .ite (sendGroup_keeps.after h rfl) h

theorem suIssue_keeps {inst n : Nat} : Keeps Scope.copy.parts s (suIssue inst n s) := .chain fun h => by
  induction n generalizing s with
  | zero => exact h
  | succ n ih =>
    unfold suIssue
    refine .ite h ?_
    split
    · exact h
    · split
      · split
        · extract_lets listSpace wr bad s1 start
          have hs1 : Keeps _ _ s1 := State.updUnit_keeps.after h rfl
          exact .ite (ih (suSettle_keeps.after (suFault_keeps.after h rfl) rfl)) (ih (suAsk_keeps.after (State.setRing_keeps.after hs1 rfl) rfl))
        · exact h
      · exact h

theorem suBegin_keeps {j ix : Nat} {d : Bytes} {segs : List Seg} : Keeps Scope.copy.parts s (suBegin j ix d segs s) := .chain fun h =>
  suIssue_keeps.after (State.updRing_keeps.after (begin_keeps.after h rfl) rfl) rfl

theorem suStart_keeps {j op : Nat} {check : Nat → Nat → Bytes → State → Option Nat} {segs : Nat → Bytes → State → List Seg} :
    Keeps Scope.copy.parts s (suStart j op check segs s) := .chain fun h => by
  unfold suStart
  split
  · exact h
  · extract_lets r
    refine .ite h ?_
    split
    · exact failArg_keeps.after h rfl
    · exact suBegin_keeps.after h rfl

theorem execSuGather_ends {ring : Nat} : Ends Scope.copy.parts s (execSuGather ring s) := .chain fun h => by
  unfold execSuGather
  split
  · exact h
  · extract_lets r s1
    have hs1 : Keeps _ _ s1 := bump_keeps.after (begin_keeps.after h rfl) rfl
    refine .ite h ?_
    split
    · exact failArg_keeps.after h rfl
    · exact .ite (suSettle_keeps.after (suLost_keeps.after hs1 rfl) rfl) (suBegin_keeps.after (hbmTaken_keeps.after h rfl) rfl)

theorem suWrite_keeps {inst c : Nat} {d : Bytes} {chk : Option Bytes} {space a : Nat} {bs : Bytes} :
    Keeps Scope.copy.parts s (suWrite inst c d chk space a bs s) := .chain fun h =>
  .ite (hbmWrite_keeps.after h rfl) (.ite (hostPut_keeps.after h rfl)
    (.ite (.ite (sramWrite_keeps.after h rfl) (bump_keeps.after (sramWrite_keeps.after h rfl) rfl)) (sendGroup_keeps.after h rfl)))

theorem execStreamSegmentAck_ends {ring seg outcome : Nat} {data : Bytes} :
    Ends Scope.copy.parts s (execStreamSegmentAck ring seg outcome data s) := .chain fun {o} h => by
  unfold execStreamSegmentAck
  extract_lets r inst ended
  have hended : ∀ s1, Keeps Scope.copy.parts o s1 → Keeps Scope.copy.parts o (ended s1) := fun _ h1 =>
    suIssue_keeps.after (suSettle_keeps.after h1 rfl) rfl
  split
  · exact h
  · split
    · exact h
    · refine .ite h ?_
      extract_lets d ss ds writes at_ hostAt s1 s2 s21 s22 s23 s24 s25 s26 s27 s28
      have hs1 : Keeps _ _ s1 := State.setRing_keeps.after h rfl
      have hs2 : Keeps Scope.copy.parts _ s2 := .foldl (fun _ _ h1 => suWrite_keeps.after h1 rfl) hs1
      have hs21 : Keeps _ _ s21 := State.updRing_keeps.after hs2 rfl
      have hs22 : Keeps _ _ s22 := bump_keeps.after (bump_keeps.after hs21 rfl) rfl
      have hs23 : Keeps _ _ s23 := .ite hs22 (bump_keeps.after hs22 rfl)
      have hs24 : Keeps _ _ s24 := .ite (hbmTaken_keeps.after hs23 rfl) hs23
      have hs25 : Keeps _ _ s25 := .ite (bump_keeps.after hs24 rfl) hs24
      have hs26 : Keeps _ _ s26 := .ite (bump_keeps.after hs25 rfl) hs25
      have hs27 : Keeps _ _ s27 := .ite (bump_keeps.after hs26 rfl) hs26
      have hs28 : Keeps _ _ s28 := .ite (bump_keeps.after hs27 rfl) hs27
      exact .ite (.ite (hended _ (suLost_keeps.after (hpErr_keeps.after hs1 rfl) rfl)) (hended _ (suLost_keeps.after (bump_keeps.after hs1 rfl) rfl)))
        (.ite (hended _ (suLost_keeps.after (bump_keeps.after hs1 rfl) rfl))
        (.ite (hended _ (suLost_keeps.after (Keeps.ite (hpErr_keeps.after hs1 rfl) hs1) rfl))
          (.ite (hended _ (suFault_keeps.after hs1 rfl)) (hended _ hs28))))

/-! ### Fill -/

theorem execSuStageFill_ends {ring : Nat} : Ends Scope.descriptor.parts s (execSuStageFill ring s) := .chain fun h => by
  unfold execSuStageFill
  split
  · exact h
  · extract_lets r
    refine .ite h ?_
    split
    · extract_lets s1
      have hs1 : Keeps _ _ s1 := finish_keeps.after (begin_keeps.after h rfl) rfl
      exact raise_keeps.after hs1 rfl
    · exact failCheck_keeps.after h rfl
    · exact begin_keeps.after h rfl

theorem execStageFillWriteStart_ends {ring : Nat} : Ends Scope.task.parts s (execStageFillWriteStart ring s) := .chain fun {o} h => by
  unfold execStageFillWriteStart
  split
  · exact h
  · extract_lets d hf k x st sealed s1 st' s2 todo
    have hs1 : Keeps _ _ s1 := .ite (sramWrite_keeps.after h rfl) h
    have hs2 : Keeps Scope.task.parts o s2 := State.setCore_keeps.after hs1 rfl
    exact .ite h (State.updRing_keeps.after hs2 rfl)

theorem execStageFillComplete_ends {ring : Nat} : Ends Scope.task.parts s (execStageFillComplete ring s) := .chain fun h => by
  unfold execStageFillComplete
  split
  · exact h
  · refine .ite h ?_
    split
    · exact h
    · extract_lets d h1 k inst runs bad n s1 s11 s12 s13 s14 u s15
      have hs1 : Keeps Scope.task.parts _ s1 := .foldl (fun _ _ h2 => sramWrite_keeps.after h2 rfl) h
      have hs11 : Keeps Scope.task.parts _ s11 := .foldl (fun _ _ h2 => sramMark_keeps.after h2 rfl) hs1
      have hs12 : Keeps _ _ s12 := State.updCore_keeps.after hs11 rfl
      have hs13 : Keeps _ _ s13 := bump_keeps.after (bump_keeps.after (bump_keeps.after hs12 rfl) rfl) rfl
      have hs14 : Keeps _ _ s14 := .ite hs13 (setErr_keeps.after (bump_keeps.after hs13 rfl) rfl)
      have hs15 : Keeps _ _ s15 := .ite (State.updCore_keeps.after (halfUndefined_keeps.after hs14 rfl) rfl) hs14
      exact finish_keeps.after hs15 rfl

theorem fillAbort_keeps {ring : Nat} {c : Cur} : Keeps Scope.task.parts s (fillAbort ring c s) := .chain fun h =>
  finish_keeps.after (.ite h (halfUndefined_keeps.after h rfl)) rfl

theorem fillMix_keeps {core : Nat} : Keeps Scope.task.parts s (fillMix core s) := .chain fun h => by
  refine .foldl (fun s1 x1 h1 => ?_) h
  split
  · split
    · exact .ite h1 (mayLand_keeps.after h1 rfl)
    · exact h1
  · exact h1

/-! ### HostPort -/

theorem hpCnt_keeps {n k : Nat} : Keeps { units := true } s (hpCnt n k s) := .chain fun h =>
  .ite h (bump_keeps.after h rfl)

theorem snoopTrack_keeps {l : Nat} {m : Bool} : Keeps Parts.records s (snoopTrack l m s) := .chain fun h => by
  unfold snoopTrack
  extract_lets rest
  refine .ite h ?_
  clear_value rest
  split
  · exact hpCnt_keeps.after h rfl
  · exact h

theorem hostLine_keeps {l : Nat} {data : Bytes} {enable : Nat} : Keeps Parts.records s (hostLine l data enable s) := .chain fun h => by
  unfold hostLine
  split
  · exact h
  · split
    · exact .ite (hbmPut_keeps.after h rfl) h
    · exact .ite (hbmPut_keeps.after h rfl) (.foldl (fun _ _ h1 => hbmPut_keeps.after h1 rfl) h)

theorem execCxlMemRead_ends {addr : Nat} {own : Option (List Byte)} : Ends Scope.signal.parts s (execCxlMemRead addr own s) := .chain fun {o} h => by
  unfold execCxlMemRead
  extract_lets l s1 ones reply s2 bs
  have hs1 : Keeps _ _ s1 := hpCnt_keeps.after (hpCnt_keeps.after h rfl) rfl
  have hreply : ∀ bad1 bs1 s3, Keeps Scope.signal.parts o s3 → Keeps Scope.signal.parts o (reply bad1 bs1 s3) := fun _ _ _ h1 => h1
  have hs2 : Keeps _ _ s2 := bump_keeps.after hs1 rfl
  refine .ite h (.ite (hpCnt_keeps.after (hreply _ _ _ hs1) rfl) ?_)
  split
  · exact hreply _ _ _ hs1
  · refine .ite (hreply _ _ _ (poisonRead_keeps.after hs2 rfl)) ?_
    extract_lets bs1 s3
    have hs3 : Keeps _ _ s3 := snoopTrack_keeps.after (hreply _ _ _ hs2) rfl
    split
    · exact hostLine_keeps.after hs3 rfl
    · exact hs3

theorem execCxlMemWrite_ends {addr : Nat} {data : Bytes} {enable : Nat} :
    Ends Scope.signal.parts s (execCxlMemWrite addr data enable s) := .chain fun h => by
  unfold execCxlMemWrite
  extract_lets l s1
  have hs1 : Keeps _ _ s1 := hpCnt_keeps.after (hpCnt_keeps.after h rfl) rfl
  exact .ite h (.ite (hpCnt_keeps.after hs1 rfl) (hostLine_keeps.after (Keeps.update hs1 rfl) rfl))

theorem hostFail_keeps {ring seg bit : Nat} : Keeps Scope.copy.parts s (hostFail ring seg bit s) := .chain fun h => by
  unfold hostFail
  split
  · exact h
  · extract_lets r s1
    have hs1 : Keeps _ _ s1 := State.setRing_keeps.after h rfl
    split
    exact suIssue_keeps.after (suSettle_keeps.after (suLost_keeps.after (hpErr_keeps.after hs1 rfl) rfl) rfl) rfl

theorem hostImgFail_keeps {img w bit : Nat} : Keeps Scope.copy.parts s (hostImgFail img w bit s) := .chain fun h => by
  unfold hostImgFail
  split
  · exact h
  · exact .ite (imgHostFault_keeps.after (hpErr_keeps.after h rfl) rfl) h

theorem execHostReadCompletion_ends {ring seg status : Nat} : Ends Scope.copy.parts s (execHostReadCompletion ring seg status s) := .chain fun h => by
  refine .ite (Keeps.ite (hostImgFail_keeps.after h rfl) (Keeps.ite (hostImgFail_keeps.after h rfl) h)) ?_
  split
  · exact h
  · refine .ite (hostFail_keeps.after h rfl) (.ite (hostFail_keeps.after h rfl) ?_)
    extract_lets ls hits s1 cache
    have hs1 : Keeps _ _ s1 := hpCnt_keeps.after (hpCnt_keeps.after h rfl) rfl
    exact .ite hs1 (State.hostTo_keeps.after hs1 rfl)

theorem hostWritesEnd_keeps : Keeps Scope.copy.parts s (hostWritesEnd s) := .chain fun h =>
  .foldl (fun _ _ h1 => .foldl (fun _ _ h2 => imgFault_keeps.after (writeEnd_keeps.after h2 rfl) rfl) h1) h

theorem hostTasksEnd_keeps : Keeps Scope.copy.parts s (hostTasksEnd s) := .chain fun h => by
  refine .foldl (fun s1 x1 h1 => ?_) h
  extract_lets r
  split
  · exact h1
  · split
    · exact h1
    · refine .ite h1 ?_
      split
      extract_lets s2
      have hs2 : Keeps _ _ s2 := State.setRing_keeps.after h1 rfl
      exact suIssue_keeps.after (suSettle_keeps.after (suLost_keeps.after hs2 rfl) rfl) rfl

theorem execHostLinkUp_ends {width rate : Nat} {cxl : Bool} : Ends Scope.mailbox.parts s (execHostLinkUp width rate cxl s) := .chain fun h => by
  refine .ite h ?_
  extract_lets c
  exact completeLate_keeps.after h rfl

theorem execMsixUnmask_ends {v : Nat} : Ends Scope.hostPort.parts s (execMsixUnmask v s) := .chain fun h => by
  refine .ite h ?_
  extract_lets _ s1
  have hs1 : Keeps _ _ s1 := h
  exact Keeps.ite (sendMsix_keeps.after hs1 rfl) hs1

/-! ### Teacher -/

end Sys2Proof.Machine
end

section
/-! PROOFS for 95_what_each_step_holds.md: vector programs, the Student, ports, configuration, the Store, power. -/

namespace Sys2Proof.Machine
open Sys2Proof

variable {s : State}

/-! ### Teacher -/

theorem tePass_keeps {j op : Nat} {plan : Nat → Bytes → List (List (List Nat)) → State → Plan} :
    Keeps Scope.task.parts s (tePass j op plan s) := .chain fun h => by
  unfold tePass
  split
  · exact h
  · extract_lets r k s1 pl start hold
    have hs1 : Keeps _ _ s1 := fillMix_keeps.after h rfl
    refine .ite h (.ite (refuse_keeps.after h rfl) ?_)
    split
    · extract_lets s2
      have hs2 : Keeps _ _ s2 := .ite (setErr_keeps.after hs1 rfl) hs1
      exact failCheck_keeps.after hs2 rfl
    · refine .ite (coreAbort_keeps.after hs1 rfl) ?_
      split
      · exact markedAbort_keeps.after hs1 rfl
      · exact runPass_keeps.after hs1 rfl

/-! ### VecCore -/

theorem vecEnd_keeps {core status reason : Nat} {bit code : Option Nat} {addr : Nat} :
    Keeps Scope.descriptor.parts s (vecEnd core status reason bit code addr s) := .chain fun {o} h => by
  unfold vecEnd
  split
  · exact h
  · split
    extract_lets r ix
    split
    next e =>
      extract_lets s1 s2 s3
      have hs1 : Keeps _ _ s1 := State.updCore_keeps.after (Keeps.snd e (State.fresh_keeps.after h rfl)) rfl
      have hs2 : Keeps Scope.descriptor.parts o s2 := by
        unfold s2
        split
        · exact setErr_keeps.after hs1 rfl
        · exact hs1
      have hs3 : Keeps _ _ s3 := finish_keeps.after hs2 rfl
      split
      · exact raise_keeps.after hs3 rfl
      · exact hs3

theorem vecIllegal_keeps {core : Nat} : Keeps Scope.descriptor.parts s (vecIllegal core s) := .chain fun h =>
  .ite (vecEnd_keeps.after h rfl) (vecEnd_keeps.after h rfl)

theorem vecAddress_keeps {core : Nat} : Keeps Scope.descriptor.parts s (vecAddress core s) := .chain fun h =>
  vecEnd_keeps.after h rfl

theorem vecMarked_keeps {core addr n : Nat} : Keeps Scope.descriptor.parts s (vecMarked core addr n s) := .chain fun h =>
  .ite (vecEnd_keeps.after h rfl) (vecEnd_keeps.after h rfl)

theorem vecSealed_keeps {core : Nat} : Keeps Scope.descriptor.parts s (vecSealed core s) := .chain fun h =>
  vecEnd_keeps.after h rfl

theorem vecTarget_keeps {core : Nat} : Keeps Scope.descriptor.parts s (vecTarget core s) := .chain fun h =>
  vecEnd_keeps.after h rfl

theorem vecSettle_keeps {core : Nat} : Keeps Scope.descriptor.parts s (vecSettle core s) := .chain fun h => by
  unfold vecSettle
  split
  · exact h
  · exact .ite (vecEnd_keeps.after h rfl) (.ite (vecMarked_keeps.after h rfl) (.ite (vecIllegal_keeps.after h rfl) h))

theorem vecNext_keeps {core : Nat} {v : VecState} {jump : Int} : Keeps Scope.descriptor.parts s (vecNext core v jump s) := .chain fun h =>
  .ite (vecEnd_keeps.after (State.updCore_keeps.after h rfl) rfl) (vecSettle_keeps.after (State.updCore_keeps.after h rfl) rfl)

/-- An instruction changes what its own body changes, and what every issue does. -/
theorem vecIssue_keeps {F : Parts} {core op : Nat} {f : VecFields} {body : VecState → State → VRes} (hF : Scope.descriptor.parts.le F)
    (hb : ∀ v t, VResKeeps F t (body v t)) : Keeps F s (vecIssue core op f body s) := .chain fun h => by
  have hcore : Parts.le { cores := true } F := Parts.le.trans (G := Scope.descriptor.parts) rfl hF
  unfold vecIssue
  split
  · exact h
  · refine .ite h (.ite (vecMarked_keeps.after h hF) (.ite (vecIllegal_keeps.after h hF) ?_))
    extract_lets v' s'
    have hs' : Keeps _ _ s' := State.updCore_keeps.after h hcore
    have hr := (hb v' s').after hs' (Parts.le.refl F)
    generalize body v' s' = r at hr
    cases r with
    | ok w jump t => exact vecNext_keeps.after hr hF
    | stop t => exact hr
    | stall w => exact State.updCore_keeps.after hs' hcore

theorem vecBranch_keeps {core op : Nat} {f : VecFields} {taken : VecState → Bool} :
    Keeps Scope.descriptor.parts s (vecBranch core op f taken s) :=
  vecIssue_keeps rfl fun _ t => .ite (.ite (.refl _ t) vecIllegal_keeps) (.refl _ t)

theorem vecPure_keeps {core op : Nat} {f : VecFields} {g : VecState → VecState} : Keeps Scope.descriptor.parts s (vecPure core op f g s) :=
  vecIssue_keeps rfl fun _ t => .refl _ t

theorem vecLanes_keeps {core op : Nat} {f : VecFields} {g : VecState → Nat → Nat} :
    Keeps Scope.descriptor.parts s (vecLanes core op f g s) := vecPure_keeps

theorem vecSfu_keeps {core op n : Nat} {f : VecFields} : Keeps Scope.descriptor.parts s (vecSfu core op f n s) :=
  vecIssue_keeps rfl fun _ t => Keeps.ite (.refl _ t) (bump_keeps.mono (L := { units := true }) rfl)

theorem vecLoad_keeps {core e : Nat} {addrs : List Nat} {v : VecState} {k : List Nat → VRes}
    (hk : ∀ xs, VResKeeps Scope.descriptor.parts s (k xs)) : VResKeeps Scope.descriptor.parts s (vecLoad core e addrs v s k) := by
  refine .ite vecIllegal_keeps (.ite vecAddress_keeps (.ite vecSealed_keeps ?_))
  split
  · exact vecMarked_keeps
  · exact hk _

theorem vecStore_keeps {core e : Nat} {cells : List (Nat × Nat)} {v : VecState} :
    VResKeeps Scope.task.parts s (vecStore core e cells v s) := .chain fun h =>
  .ite (vecIllegal_keeps.after h rfl) (.ite (vecAddress_keeps.after h rfl) (sramStore_keeps.after h rfl))

theorem vecLoadLanes_keeps {core : Nat} {f : VecFields} {at_ : VecState → Nat → Nat → Nat} {v : VecState} :
    VResKeeps Scope.descriptor.parts s (vecLoadLanes core f at_ v s) := by
  unfold vecLoadLanes
  exact vecLoad_keeps fun _ => Keeps.refl _ s

theorem vecStoreLanes_keeps {core : Nat} {f : VecFields} {at_ : VecState → Nat → Nat → Nat} {v : VecState} :
    VResKeeps Scope.task.parts s (vecStoreLanes core f at_ v s) := vecStore_keeps

theorem vecTask_keeps {ty j : Nat} {lowest : Bool} : Keeps Scope.descriptor.parts s (vecTask ty j lowest s) := .chain fun h => by
  unfold vecTask
  split
  · exact h
  · refine .ite h (.ite (failArg_keeps.after h rfl) (.ite (failArg_keeps.after h rfl) (.ite (coreAbort_keeps.after h rfl) ?_)))
    exact vecSettle_keeps.after (State.updCore_keeps.after (served_keeps.after (begin_keeps.after h rfl) rfl) rfl) rfl

/-! ### VecScalar -/

theorem execVuTwait_ends {core : Nat} {f : VecFields} : Ends Scope.task.parts s (execVuTwait core f s) := by
  refine vecIssue_keeps rfl fun v t => ?_
  extract_lets port
  split
  · exact vecTarget_keeps.mono rfl
  · exact .ite trivial (setTaken_keeps.mono (L := { cores := true }) rfl)

theorem execVuTpop_ends {core : Nat} {f : VecFields} : Ends Scope.student.parts s (execVuTpop core f s) := by
  refine vecIssue_keeps rfl fun v t => ?_
  split
  · exact vecTarget_keeps.mono rfl
  · exact .ite (vecTarget_keeps.mono (L := Scope.descriptor.parts) rfl) (popPort_keeps.after (Keeps.refl _ t) rfl)

theorem execVuTcount_ends {core : Nat} {f : VecFields} : Ends Scope.task.parts s (execVuTcount core f s) := by
  refine vecIssue_keeps rfl fun v t => ?_
  extract_lets n
  exact .refl _ t

/-! ### Student -/

theorem sePassTake_keeps {j op : Nat} {plan : Nat → Bytes → List (List (List Nat)) → State → Plan} :
    Keeps Scope.descriptor.parts s (sePassTake j op plan s) := .chain fun h => by
  unfold sePassTake
  split
  · exact h
  · extract_lets r k pl
    refine .ite h (.ite (refuse_keeps.after h rfl) ?_)
    split
    · exact failArg_keeps.after h rfl
    · refine .ite (coreAbort_keeps.after h rfl) ?_
      split
      · exact markedAbort_keeps.after h rfl
      · exact runPass_keeps.after h rfl

/-! ### KdLoss -/

theorem kdEnd_keeps {core status reason : Nat} {bit code : Option Nat} {addr : Nat} :
    Keeps Scope.descriptor.parts s (kdEnd core status reason bit code addr s) := .chain fun {o} h => by
  unfold kdEnd
  split
  · exact h
  · split
    extract_lets r ix
    split
    rename_i e
    have ht := Keeps.snd e (State.fresh_keeps.after h rfl)
    extract_lets s1 s2 s3
    have hs1 : Keeps _ _ s1 := State.updCore_keeps.after ht rfl
    have hs2 : Keeps Scope.descriptor.parts o s2 := by
      unfold s2
      split
      · exact setErr_keeps.after hs1 rfl
      · exact hs1
    have hs3 : Keeps _ _ s3 := finish_keeps.after hs2 rfl
    split
    · exact raise_keeps.after hs3 rfl
    · exact hs3

theorem kdStep_keeps {core key : Nat} {d : Bytes} {v : KdState} : Keeps Scope.student.parts s (kdStep core key d v s) := .chain fun h => by
  unfold kdStep
  extract_lets p at_ logits rd z hard t g s1 s2 s3 s4 nf
  have hs1 : Keeps _ _ s1 := sramWrite_keeps.after h rfl
  have hs2 : Keeps _ _ s2 := sramWrite_keeps.after hs1 rfl
  have hs3 : Keeps _ _ s3 := popPort_keeps.after (spent_keeps.after hs2 rfl) rfl
  have hs4 : Keeps _ _ s4 := .ite (bump_keeps.after hs3 rfl) hs3
  split
  · exact .ite (kdEnd_keeps.after h rfl) (kdEnd_keeps.after h rfl)
  · exact State.updCore_keeps.after hs4 rfl

theorem kdRun_keeps {core n : Nat} : Keeps Scope.student.parts s (kdRun core n s) := by
  induction n generalizing s with
  | zero => exact .refl _ s
  | succ n ih =>
    refine .chain fun h => ?_
    unfold kdRun
    split
    · exact h
    · split
      · exact h
      · extract_lets d
        refine .ite (kdEnd_keeps.after h rfl) ?_
        split
        · exact kdEnd_keeps.after h rfl
        · exact .ite h (ih.after (kdStep_keeps.after h rfl) rfl)

theorem execSeKdLoss_ends {ring : Nat} : Ends Scope.student.parts s (execSeKdLoss ring s) := .chain fun h => by
  unfold execSeKdLoss
  split
  · exact h
  · extract_lets r k s1
    have hs1 : Keeps _ _ s1 := served_keeps.after (begin_keeps.after h rfl) rfl
    refine .ite h ?_
    split
    · exact failArg_keeps.after h rfl
    · refine .ite (coreAbort_keeps.after h rfl) ?_
      split
      · exact markedAbort_keeps.after h rfl
      · exact kdRun_keeps.after (State.updCore_keeps.after hs1 rfl) rfl

theorem execTwaitWake_ends {core : Nat} : Ends Scope.student.parts s (execTwaitWake core s) := .chain fun h => by
  refine .ite h ?_
  split
  · split
    · exact h
    · split
      · exact vecTarget_keeps.after h rfl
      · exact .ite h (vecNext_keeps.after (spent_keeps.after (setTaken_keeps.after h rfl) rfl) rfl)
  · split
    · exact kdRun_keeps.after (spent_keeps.after h rfl) rfl
    · exact h
  · exact h

/-! ### Port -/

theorem portTo_keeps {p st : Nat} : Keeps (Parts.tells.join { beam := true }) s (portTo p st s) := .chain fun h =>
  .ite h (logPush_keeps.after (State.updPort_keeps.after h rfl) rfl)

theorem portErr_keeps {p bit : Nat} : Keeps Scope.register.parts s (portErr p bit s) := .chain fun h =>
  State.updUnit_keeps.after h rfl

theorem resendAll_keeps {p : Nat} : Keeps { units := true, beam := true } s (resendAll p s) := .chain fun h =>
  State.updPort_keeps.after (.foldl (fun _ _ h1 => portEmit_keeps.after h1 rfl) h) rfl

theorem portHold_keeps {p : Nat} : Keeps { beam := true } s (portHold p s) := .chain fun h => by
  unfold portHold
  extract_lets x s1
  have hs1 : Keeps _ _ s1 := State.setPort_keeps.after h rfl
  exact .update hs1 rfl

theorem portDown_keeps {p : Nat} : Keeps (Parts.tells.join { beam := true }) s (portDown p s) := .chain fun h =>
  bump_keeps.after (portErr_keeps.after (portTo_keeps.after (portHold_keeps.after h rfl) rfl) rfl) rfl

theorem portReplay_keeps {p : Nat} : Keeps (Parts.tells.join { beam := true }) s (portReplay p s) := .chain fun h =>
  .ite (resendAll_keeps.after (State.setPort_keeps.after (bump_keeps.after h rfl) rfl) rfl)
    (.ite (portDown_keeps.after (State.setPort_keeps.after (bump_keeps.after h rfl) rfl) rfl)
    (bump_keeps.after (portErr_keeps.after (portTo_keeps.after (State.setPort_keeps.after (bump_keeps.after h rfl) rfl) rfl) rfl) rfl))

theorem execPortLightDetect_ends {port : Nat} : Ends Scope.config.parts s (execPortLightDetect port s) := .chain fun h => by
  unfold execPortLightDetect
  extract_lets x s1
  have hs1 : Keeps _ _ s1 := State.setPort_keeps.after h rfl
  exact .ite h (.ite (portTo_keeps.after hs1 rfl) hs1)

theorem portUp_keeps {p : Nat} : Keeps Scope.config.parts s (portUp p s) := .chain fun h =>
  portTo_keeps.after (State.updPort_keeps.after h rfl) rfl

theorem execTrainingComplete_ends {port peer pport waves : Nat} {twin : Bool} :
    Ends Scope.config.parts s (execTrainingComplete port peer pport waves twin s) := .chain fun h => by
  refine .ite h ?_
  extract_lets s1
  have hs1 : Keeps _ _ s1 := State.updPort_keeps.after h rfl
  exact .ite (portDown_keeps.after hs1 rfl) (.ite (portErr_keeps.after (portTo_keeps.after hs1 rfl) rfl) (portUp_keeps.after hs1 rfl))

theorem execLossOfLight_ends {port : Nat} : Ends Scope.config.parts s (execLossOfLight port s) := .chain fun h => by
  unfold execLossOfLight
  extract_lets x s1
  have hs1 : Keeps _ _ s1 := State.setPort_keeps.after h rfl
  exact .ite h (.ite (portErr_keeps.after (portTo_keeps.after (portHold_keeps.after hs1 rfl) rfl) rfl)
    (.ite (portTo_keeps.after hs1 rfl) (.ite (portTo_keeps.after hs1 rfl) hs1)))

theorem execLaserInputLow_ends {port : Nat} : Ends Scope.config.parts s (execLaserInputLow port s) := .chain fun h => by
  unfold execLaserInputLow
  extract_lets x s1
  have hs1 : Keeps _ _ s1 := portErr_keeps.after (State.setPort_keeps.after h rfl) rfl
  exact .ite h (.ite (portErr_keeps.after (portTo_keeps.after (portHold_keeps.after hs1 rfl) rfl) rfl) (.ite (portTo_keeps.after hs1 rfl) hs1))

/-! ### Cfg -/

theorem setTxn_keeps {t : Txn} : Keeps Scope.config.parts s (setTxn t s) := rfl

theorem dropTxn_keeps {c : Nat} : Keeps Scope.config.parts s (dropTxn c s) := rfl

theorem setHolds_keeps {items : List CfgItem} {v : Bool} : Keeps Scope.register.parts s (setHolds items v s) := .chain fun h =>
  .foldl (fun _ _ h1 => State.updUnit_keeps.after h1 rfl) h

theorem cfgStart_keeps : Keeps Scope.config.parts s (cfgStart s) := .chain fun h => by
  unfold cfgStart
  split
  · exact setHolds_keeps.after (setTxn_keeps.after h rfl) rfl
  · exact h

theorem planKick_keeps : Keeps Scope.config.parts s (planKick s) := .chain fun h => by
  unfold planKick
  split
  · refine .ite h ?_
    extract_lets id t s1 first _ s2
    have hs1 : Keeps _ _ s1 := setTxn_keeps.after (State.updCtx_keeps.after h rfl) rfl
    have hs2 : Keeps _ _ s2 := .update hs1 rfl
    exact .ite (cfgStart_keeps.after hs2 rfl) hs2
  · exact h

theorem applyItem_keeps {i : CfgItem} : Keeps Scope.config.parts s (applyItem i s) := .chain fun h =>
  .ite (.ite (.ite (State.updUnit_keeps.after h rfl) (portTo_keeps.after (.ite (portHold_keeps.after (State.updUnit_keeps.after h rfl) rfl)
    (State.updUnit_keeps.after h rfl)) rfl)) (.ite (portTo_keeps.after (State.updUnit_keeps.after h rfl) rfl) (State.updUnit_keeps.after h rfl)))
    (State.updUnit_keeps.after h rfl)

theorem planEnd_keeps {status : Nat} : Keeps Scope.config.parts s (planEnd status s) := .chain fun h => by
  refine .ite ?_ h
  extract_lets rest _ s1
  have hs1 : Keeps _ _ s1 := bump_keeps.after h rfl
  exact .ite (logPush_keeps.after (.update hs1 rfl) rfl) hs1

theorem cfgClose_keeps {status : Nat} : Keeps Scope.config.parts s (cfgClose status s).2 := .chain fun h => by
  unfold cfgClose
  split
  · exact h
  · extract_lets s1 s2 s3
    have hs1 : Keeps Scope.config.parts _ s1 := .ite (.foldl (fun _ _ h1 => applyItem_keeps.after h1 rfl) h) h
    have hs2 : Keeps _ _ s2 := dropTxn_keeps.after (setHolds_keeps.after hs1 rfl) rfl
    have hs3 : Keeps Scope.config.parts _ s3 := .foldl (fun _ _ h1 => .ite (portGo_keeps.after h1 rfl) h1) hs2
    exact .update hs3 rfl

theorem cfgEnd_keeps {status detail : Nat} : Keeps Scope.config.parts s (cfgEnd status detail s) := .chain fun {o} h => by
  unfold cfgEnd
  split
  · exact h
  · split
    rename_i e
    have ht := Keeps.snd e (cfgClose_keeps.after h rfl)
    extract_lets r s1
    have hs1 : Keeps Scope.config.parts o s1 := by
      unfold s1
      split
      · exact finishOp_keeps.after ht rfl
      · exact .ite (planEnd_keeps.after ht rfl) (completeHeld_keeps.after ht rfl)
    exact planKick_keeps.after (cfgStart_keeps.after hs1 rfl) rfl

theorem specCfgBegin_keeps : SpecKeeps Scope.config.parts specCfgBegin := by
  refine ⟨fun i p s h => ?_, fun _ h => h⟩
  unfold specCfgBegin
  dsimp -zeta only
  split
  · exact trivial
  · extract_lets id
    exact setTxn_keeps.after (State.updCtx_keeps.after h rfl) rfl

theorem specCfgSet_keeps : SpecKeeps Scope.config.parts specCfgSet := by
  refine ⟨fun i p s h => ?_, fun _ h => h⟩
  unfold specCfgSet
  dsimp -zeta only
  extract_lets n items all
  split
  · exact trivial
  · split
    · exact trivial
    · split
      · exact trivial
      · refine .ite trivial ?_
        split
        · exact trivial
        · extract_lets staged
          exact .ite trivial (.ite trivial (setTxn_keeps.after h rfl))

theorem specCfgCommit_keeps : SpecKeeps Scope.config.parts specCfgCommit := by
  refine ⟨fun i p s h => ?_, fun _ h => h⟩
  unfold specCfgCommit
  dsimp -zeta only
  split
  · exact trivial
  · split
    · exact trivial
    · refine .ite trivial ?_
      extract_lets first t _ s1 s2
      have hs1 : Keeps _ _ s1 := setTxn_keeps.after h rfl
      have hs2 : Keeps _ _ s2 := Keeps.ite (cfgStart_keeps.after hs1 rfl) hs1
      refine .ite hs2 (.ite hs2 ?_)
      split
      · exact planKick_keeps.after (cfgStart_keeps.after (cfgClose_keeps.after hs2 rfl) rfl) rfl
      · exact hs2
      · exact planKick_keeps.after (cfgStart_keeps.after (cfgClose_keeps.after hs2 rfl) rfl) rfl

theorem specCfgRollback_keeps : SpecKeeps Scope.config.parts specCfgRollback := by
  refine ⟨fun i p s h => ?_, fun _ h => h⟩
  unfold specCfgRollback
  dsimp -zeta only
  split
  · exact trivial
  · split
    · exact trivial
    · exact .ite trivial (planKick_keeps.after (dropTxn_keeps.after h rfl) rfl)

theorem specCfgQuery_keeps : SpecKeeps {} specCfgQuery := by
  refine ⟨fun i p s h => .ite trivial ?_, fun _ h => h⟩
  split
  · exact trivial
  · exact h

theorem execCfgCommitAllHold_ends : Ends Scope.config.parts s (execCfgCommitAllHold s) := .chain fun h => by
  unfold execCfgCommitAllHold
  split
  · exact .ite h (cfgEnd_keeps.after h rfl)
  · exact h

theorem execCfgCommitReject_ends {ty inst : Nat} : Ends Scope.config.parts s (execCfgCommitReject ty inst s) := .chain fun h => by
  unfold execCfgCommitReject
  split
  · exact .ite h (cfgEnd_keeps.after h rfl)
  · exact h

theorem execCfgQuiesceTimeout_ends : Ends Scope.config.parts s (execCfgQuiesceTimeout s) := .chain fun h => by
  unfold execCfgQuiesceTimeout
  split
  · refine .ite h ?_
    split
    · exact cfgEnd_keeps.after (atLeast_keeps.after h rfl) rfl
    · exact h
  · exact h

theorem execCfgTxnTimeout_ends {ctx : Nat} : Ends Scope.config.parts s (execCfgTxnTimeout ctx s) := .chain fun h => by
  unfold execCfgTxnTimeout
  split
  · refine .ite h ?_
    extract_lets s1
    have hs1 : Keeps _ _ s1 := dropTxn_keeps.after (atLeast_keeps.after h rfl) rfl
    exact planKick_keeps.after (Keeps.update hs1 rfl) rfl
  · exact h

/-! ### Store -/

theorem storeCnt_keeps {c n k : Nat} : Keeps Scope.register.parts s (storeCnt c n k s) := .chain fun h =>
  .ite h (bump_keeps.after h rfl)

theorem storeErr_keeps {c bit : Nat} : Keeps Scope.register.parts s (storeErr c bit s) := .chain fun h =>
  State.updUnit_keeps.after h rfl

theorem countRead_keeps {c k n : Nat} : Keeps Scope.store.parts s (countRead c k n s) := .chain fun h =>
  .ite (storeErr_keeps.after (storeCnt_keeps.after (State.updCtl_keeps.after h rfl) rfl) rfl)
    (storeCnt_keeps.after (State.updCtl_keeps.after h rfl) rfl)

theorem charge_keeps {c cls t : Nat} : Keeps Scope.store.parts s (charge c cls t s) := .chain fun h =>
  State.updCtl_keeps.after h rfl

theorem readServed_keeps {c : Nat} {pl : Nat × Nat} {ring : Option Nat} {a : Nat} :
    Keeps Scope.store.parts s (readServed c pl ring a s) := .chain fun {o} h => by
  unfold readServed
  extract_lets t s1 s2
  have hs1 : Keeps Scope.store.parts o s1 := by
    unfold s1
    clear_value t
    split
    · exact State.updCtl_keeps.after h rfl
    · exact h
  have hs2 : Keeps Scope.store.parts o s2 := by
    unfold s2
    split
    · exact State.updRing_keeps.after hs1 rfl
    · exact hs1
  exact charge_keeps.after hs2 rfl

theorem damage_keeps {h : Nat} : Keeps Scope.store.parts s (damage h s) := .chain fun hw => by
  unfold damage
  split
  · exact .ite (State.setImage_keeps.after hw rfl) hw
  · exact hw

theorem poisonCodeword_keeps {c a : Nat} : Keeps Scope.store.parts s (poisonCodeword c a s) := .chain fun h => by
  refine .ite h ?_
  extract_lets img _ s1 s2 s3 owner s4
  have hs1 : Keeps _ _ s1 := h
  have hs2 : Keeps _ _ s2 := storeCnt_keeps.after hs1 rfl
  have hs3 : Keeps _ _ s3 := State.updUnit_keeps.after hs2 rfl
  have hs4 : Keeps _ _ s4 := raise_keeps.after hs3 rfl
  clear_value img
  split
  · exact damage_keeps.after hs4 rfl
  · exact hs4

theorem readCodeword.go_keeps {p : PagePos} {k i : Nat} {scrub : Bool} {d : Decode} {c : Nat} {x : Ctl} {dead : Bool} {lost : List Nat} {step : Nat}
    {addr : Option Nat} : Keeps Scope.store.parts s (readCodeword.go p k i scrub d c x dead lost step addr s) := .chain fun {o} h => by
  unfold readCodeword.go
  extract_lets max_ retries s1 s2 s3 s4 s5 s6 weak s7 s8 s9
  have hs1 : Keeps _ _ s1 := .ite (storeCnt_keeps.after h rfl) h
  have hs2 : Keeps _ _ s2 := storeCnt_keeps.after hs1 rfl
  have hs3 : Keeps _ _ s3 := .ite (storeCnt_keeps.after hs2 rfl) hs2
  have hs4 : Keeps Scope.store.parts o s4 := by
    unfold s4
    refine .ite ?_ hs3
    refine .foldl (fun s10 x1 h1 => ?_) hs3
    extract_lets km
    exact .ite h1 (countRead_keeps.after h1 rfl)
  have hs5 : Keeps _ _ s5 := .ite (storeErr_keeps.after (storeCnt_keeps.after hs4 rfl) rfl) hs4
  have hs6 : Keeps _ _ s6 := .ite (raise_keeps.after hs5 rfl) hs5
  have hs7 : Keeps _ _ s7 := .ite (State.updCtl_keeps.after hs6 rfl) hs6
  have hs8 : Keeps _ _ s8 := .ite (State.updCtl_keeps.after hs7 rfl) hs7
  have hs9 : Keeps Scope.store.parts o s9 := by
    unfold s9
    split
    · exact storeCnt_keeps.after (poisonCodeword_keeps.after hs8 rfl) rfl
    · exact hs8
  refine .ite ?_ hs8
  refine .foldl (fun s10 x1 h1 => ?_) hs9
  split
  · exact poisonCodeword_keeps.after h1 rfl
  · exact h1

theorem readCodeword_keeps {p : PagePos} {k i : Nat} {scrub : Bool} {d : Decode} :
    Keeps Scope.store.parts s (readCodeword p k i scrub d s) := .chain fun h => by
  unfold readCodeword
  extract_lets c x dead lost lost1 step addr
  clear_value addr
  split
  · exact .ite (storeCnt_keeps.after h rfl) (readCodeword.go_keeps.after h rfl)
  · exact readCodeword.go_keeps.after h rfl

theorem secondHit_keeps {c k : Nat} {old : List Nat} : Keeps Scope.store.parts s (secondHit c k old s) := .chain fun h =>
  State.updCtl_keeps.after h rfl

theorem readPage_keeps {c k row : Nat} {scrub : Bool} {ds : List Decode} :
    Keeps Scope.store.parts s (readPage c k row scrub ds s) := .chain fun h => by
  unfold readPage
  split
  · exact h
  · extract_lets p known s1 old
    have hs1 : Keeps _ _ s1 := .ite h (countRead_keeps.after h rfl)
    exact secondHit_keeps.after (.foldl (fun _ _ h1 => readCodeword_keeps.after h1 rfl) hs1) rfl

theorem execStorePageReadComplete_ends {c die block row : Nat} {susp : Bool} {ds : List Decode} :
    Ends Scope.store.parts s (execStorePageReadComplete c die block row susp ds s) := .chain fun h => by
  refine .ite h ?_
  split
  · exact h
  · extract_lets s1 s2
    have hs1 : Keeps _ _ s1 := readServed_keeps.after h rfl
    have hs2 : Keeps _ _ s2 := storeCnt_keeps.after (readPage_keeps.after hs1 rfl) rfl
    exact Keeps.ite (storeCnt_keeps.after hs2 rfl) hs2

theorem drawSlc_keeps {c : Nat} : Keeps Scope.store.parts s (drawSlc c s) := .chain fun h => by
  unfold drawSlc
  refine .ite h ?_
  split
  · exact State.setCtl_keeps.after h rfl
  · exact h

theorem spareLow_keeps {c before : Nat} : Keeps Scope.register.parts s (spareLow c before s) := .chain fun h =>
  .ite (storeErr_keeps.after h rfl) h

theorem execStoreProgramComplete_ends {c die block : Nat} {ok : Bool} {susp : Nat} :
    Ends Scope.store.parts s (execStoreProgramComplete c die block ok susp s) := .chain fun {o} h => by
  unfold execStoreProgramComplete
  extract_lets k x b s1 n pages s2 s3 gone low s4 s5
  have hs1 : Keeps _ _ s1 := charge_keeps.after (storeCnt_keeps.after h rfl) rfl
  have hs2 : Keeps _ _ s2 := storeCnt_keeps.after hs1 rfl
  have hs3 : Keeps _ _ s3 := State.updCtl_keeps.after hs2 rfl
  have hs4 : Keeps _ _ s4 := storeErr_keeps.after (State.updCtl_keeps.after hs1 rfl) rfl
  have hs5 : Keeps Scope.store.parts o s5 := by
    unfold s5
    split
    · exact hs4
    · extract_lets s6
      have hs6 : Keeps Scope.store.parts o s6 := by
        unfold s6
        split
        · exact State.updCtl_keeps.after hs4 rfl
        · exact hs4
      split
      · exact Keeps.ite (State.updCtl_keeps.after hs6 rfl) hs6
      · exact hs6
  refine .ite h (.ite ?_ (spareLow_keeps.after (drawSlc_keeps.after hs5 rfl) rfl))
  clear_value gone
  split
  · exact State.updCtl_keeps.after hs3 rfl
  · exact hs3

theorem slcFreed_keeps {c k : Nat} : Keeps Scope.store.parts s (slcFreed c k s) := .chain fun h => by
  unfold slcFreed
  split
  · exact .ite h h
  · exact h

theorem execStoreEraseComplete_ends {c die block : Nat} {ok : Bool} {susp : Nat} :
    Ends Scope.store.parts s (execStoreEraseComplete c die block ok susp s) := .chain fun h => by
  unfold execStoreEraseComplete
  extract_lets k x b del s1 s2 _ low
  have hs1 : Keeps _ _ s1 := charge_keeps.after (storeCnt_keeps.after h rfl) rfl
  have hs2 : Keeps _ _ s2 := .ite (slcFreed_keeps.after hs1 rfl) hs1
  exact .ite h (.ite (storeCnt_keeps.after (State.updCtl_keeps.after hs2 rfl) rfl)
    (spareLow_keeps.after (drawSlc_keeps.after (storeErr_keeps.after (State.updCtl_keeps.after hs2 rfl) rfl) rfl) rfl))

theorem execRelocationStart_ends {c : Nat} : Ends Scope.store.parts s (execRelocationStart c s) := .chain fun h => by
  refine .ite h ?_
  split
  · exact h
  · split
    · extract_lets y y1
      exact spareLow_keeps.after (drawSlc_keeps.after (State.setCtl_keeps.after h rfl) rfl) rfl
    · exact h

theorem execRelocationSwitch_ends {c : Nat} : Ends Scope.store.parts s (execRelocationSwitch c s) := .chain fun h => by
  refine .ite h ?_
  split
  · exact h
  · extract_lets b old _ s1 s2 s3 s4
    have hs1 : Keeps _ _ s1 := charge_keeps.after h rfl
    have hs2 : Keeps _ _ s2 := .ite hs1 (countRead_keeps.after hs1 rfl)
    have hs3 : Keeps _ _ s3 := State.updCtl_keeps.after hs2 rfl
    have hs4 : Keeps _ _ s4 := State.updCtl_keeps.after hs3 rfl
    exact .ite h (.ite (State.setCtl_keeps.after h rfl) (storeCnt_keeps.after (storeCnt_keeps.after hs4 rfl) rfl))

theorem execStoreDieTimeout_ends {c die : Nat} : Ends Scope.store.parts s (execStoreDieTimeout c die s) := .chain fun {o} h => by
  unfold execStoreDieTimeout
  extract_lets x failed second s1 e owners s2 lost cws s3 s4
  have hs2 : Keeps _ _ s2 := raiseUnit_keeps.after (storeErr_keeps.after (State.setCtl_keeps.after h rfl) rfl) rfl
  have hs3 : Keeps _ _ s3 := storeCnt_keeps.after hs2 rfl
  have hs4 : Keeps Scope.store.parts o s4 := by
    unfold s4
    clear_value lost
    cases lost with
    | nil => exact hs3
    | cons st l => exact State.updUnit_keeps.after hs3 rfl
  clear_value s2 s4
  exact .ite h (.ite (raiseUnit_keeps.after (Keeps.foldl (fun _ _ h => damage_keeps.after h rfl) hs4) rfl) hs2)

theorem meter_keeps {c n : Nat} {exempt : Bool} : Keeps Scope.store.parts s (meter c n exempt s) := .chain fun h => by
  unfold meter
  extract_lets x
  split
  extract_lets r done dt excess held slow
  split
  extract_lets s1
  have hs1 : Keeps _ _ s1 := State.setCtl_keeps.after h rfl
  exact storeCnt_keeps.after (atLeast_keeps.after hs1 rfl) rfl

theorem execMeteredSlcWrite_ends {addr : Nat} {data : Bytes} : Ends Scope.store.parts s (execMeteredSlcWrite addr data s) := .chain fun h => by
  unfold execMeteredSlcWrite
  extract_lets n
  split
  · exact h
  · extract_lets c x room s1 _ s2
    have hs1 : Keeps _ _ s1 := meter_keeps.after h rfl
    have hs2 : Keeps _ _ s2 := .update hs1 rfl
    exact .ite h (Keeps.ite hs2 (State.updCtl_keeps.after hs2 rfl))

theorem replayDump_keeps {c : Nat} {ok : Bool} : Keeps Scope.store.parts s (replayDump c ok s) := .chain fun h => by
  unfold replayDump
  extract_lets x s1 s2 s3
  have hs1 : Keeps _ _ s1 := State.setCtl_keeps.after h rfl
  have hs2 : Keeps _ _ s2 := State.updCtl_keeps.after hs1 rfl
  have hs3 : Keeps _ _ s3 := storeCnt_keeps.after hs2 rfl
  split
  · exact State.updCtl_keeps.after hs1 rfl
  · refine .ite ?_ (.foldl (fun _ _ h1 => .foldl (fun _ _ h2 => poisonCodeword_keeps.after h2 rfl) h1) hs3)
    extract_lets n
    exact storeErr_keeps.after (storeCnt_keeps.after (meter_keeps.after hs3 rfl) rfl) rfl

theorem execStoreScrubStageComplete_ends {c : Nat} {ok : Bool} :
    Ends Scope.store.parts s (execStoreScrubStageComplete c ok s) := .chain fun {o} h => by
  unfold execStoreScrubStageComplete
  extract_lets x s1
  have hs1 : Keeps Scope.store.parts o s1 := by
    unfold s1
    refine Keeps.ite (State.setCtl_keeps.after h rfl) ?_
    split
    · exact h
    · extract_lets s2
      have hs2 : Keeps _ _ s2 := State.setCtl_keeps.after h rfl
      refine Keeps.ite ?_ hs2
      split
      · exact State.setImage_keeps.after hs2 rfl
      · exact hs2
  exact .ite h (.ite (replayDump_keeps.after h rfl) (.ite (State.updCtl_keeps.after hs1 rfl) hs1))

/-! ### Power -/

theorem updLoupe_keeps {f : Loupe → Loupe} : Keeps { loupe := true } s (updLoupe f s) := rfl

theorem loupeErr_keeps {bit kind : Nat} : Keeps Scope.register.parts s (loupeErr bit kind s) := .chain fun h =>
  setErr_keeps.after h rfl

theorem notifyTenants_keeps {kind seq : Nat} : Keeps Parts.tells s (notifyTenants kind seq s) := .chain fun h =>
  .foldl (fun _ _ h1 => notify_keeps.after h1 rfl) h

theorem execCurrentLimitSample_ends {amps vin : Nat} : Ends Scope.config.parts s (execCurrentLimitSample amps vin s) := .chain fun h => by
  refine .ite h ?_
  extract_lets s1 l lim ns s2 l1 s3
  have hs1 : Keeps _ _ s1 := atLeast_keeps.after h rfl
  have hs2 : Keeps _ _ s2 := bump_keeps.after hs1 rfl
  have hs3 : Keeps _ _ s3 := .update hs2 rfl
  refine .ite (Keeps.ite (loupeErr_keeps.after (logPush_keeps.after hs3 rfl) rfl) hs3) (.ite ?_ (Keeps.update hs2 rfl))
  split
  · exact Keeps.update hs2 rfl
  · exact .ite (Keeps.update hs2 rfl) (Keeps.update hs2 rfl)

theorem execWindowLimitEval_ends {mw : Nat} : Ends Scope.config.parts s (execWindowLimitEval mw s) := .chain fun h => by
  refine .ite h ?_
  extract_lets s1 l ns s2 on s3
  have hs1 : Keeps _ _ s1 := atLeast_keeps.after h rfl
  have hs2 : Keeps _ _ s2 := bump_keeps.after hs1 rfl
  have hs3 : Keeps _ _ s3 := .update hs2 rfl
  exact Keeps.ite (logPush_keeps.after hs3 rfl) hs3

theorem stepDie_keeps {die f : Nat} : Keeps Scope.hostPort.parts s (stepDie die f s) := .chain fun h =>
  bump_keeps.after (updLoupe_keeps.after h rfl) rfl

theorem clampDie_keeps {die : Nat} : Keeps Scope.hostPort.parts s (clampDie die s) := .chain fun h =>
  .ite h (bump_keeps.after (updLoupe_keeps.after h rfl) rfl)

theorem reservoirStep_keeps {mw : Nat} : Keeps Scope.config.parts s (reservoirStep mw s) := .chain fun h => by
  unfold reservoirStep
  extract_lets l cap r s1
  have hs1 : Keeps _ _ s1 := State.loupeTo_keeps.after h rfl
  clear_value s1
  exact .ite (logPush_keeps.after hs1 rfl) hs1

theorem govern_keeps {mw : Nat} : Keeps Scope.hostPort.parts s (govern mw s) := .chain fun h => by
  unfold govern
  extract_lets l fast s1
  have hs1 : Keeps _ _ s1 := updLoupe_keeps.after h rfl
  split
  · exact .ite (.ite (stepDie_keeps.after h rfl) h) (updLoupe_keeps.after h rfl)
  · split
    · split
      · exact stepDie_keeps.after hs1 rfl
      · exact hs1
    refine .ite ?_ hs1
    split
    · exact stepDie_keeps.after hs1 rfl
    · exact hs1

theorem execGovernorStep_ends {mw : Nat} : Ends Scope.config.parts s (execGovernorStep mw s) := .chain fun h => by
  refine .ite h ?_
  extract_lets s1 l caps s2 s3 s4 s5 s6 s7 s8
  have hs1 : Keeps _ _ s1 := atLeast_keeps.after h rfl
  have hs2 : Keeps _ _ s2 := bump_keeps.after hs1 rfl
  have hs3 : Keeps _ _ s3 := .ite hs2 (bump_keeps.after hs2 rfl)
  have hs4 : Keeps _ _ s4 := .ite (bump_keeps.after hs3 rfl) hs3
  have hs5 : Keeps _ _ s5 := .update hs4 rfl
  have hs6 : Keeps Scope.config.parts _ s6 := reservoirStep_keeps.after (.foldl (fun _ _ h1 => clampDie_keeps.after h1 rfl) hs5) rfl
  have hs7 : Keeps _ _ s7 := updLoupe_keeps.after hs6 rfl
  have hs8 : Keeps _ _ s8 := govern_keeps.after hs7 rfl
  exact updLoupe_keeps.after hs8 rfl

theorem throttleOn_keeps {die : Nat} : Keeps (Parts.tells.join { loupe := true }) s (throttleOn die s) := .chain fun h =>
  .ite h (.ite (updLoupe_keeps.after (loupeErr_keeps.after (logPush_keeps.after h rfl) rfl) rfl)
    (logPush_keeps.after (updLoupe_keeps.after (loupeErr_keeps.after (logPush_keeps.after h rfl) rfl) rfl) rfl))

theorem throttleOff_keeps {die : Nat} : Keeps Scope.loupe.parts s (throttleOff die s) := .chain fun h =>
  .ite h (notifyTenants_keeps.after (logPush_keeps.after (updLoupe_keeps.after h rfl) rfl) rfl)

theorem junction_keeps {die sensor : Nat} {t : Int} : Keeps Scope.loupe.parts s (junction die sensor t s) := .chain fun h => by
  unfold junction
  extract_lets l s1 s2
  have hs1 : Keeps _ _ s1 := updLoupe_keeps.after h rfl
  have hs2 : Keeps _ _ s2 := .ite (loupeErr_keeps.after (bump_keeps.after (logPush_keeps.after (updLoupe_keeps.after hs1 rfl) rfl) rfl) rfl)
    (.ite (updLoupe_keeps.after hs1 rfl) hs1)
  exact .ite (throttleOn_keeps.after hs2 rfl) (throttleOff_keeps.after hs2 rfl)

theorem storeHeat_keeps {stack : Nat} {t : Int} : Keeps Scope.loupe.parts s (storeHeat stack t s) := .chain fun h =>
  .foldl (fun _ _ h1 => State.updCtl_keeps.after h1 rfl) (updLoupe_keeps.after h rfl)

theorem execThermalSample_ends {cls inst sensor : Nat} {temp : Int} :
    Ends Scope.loupe.parts s (execThermalSample cls inst sensor temp s) := .chain fun h => by
  refine .ite h (.ite (.ite (junction_keeps.after h rfl) h) ?_)
  split
  · refine .ite h ?_
    extract_lets die s1
    have hs1 : Keeps _ _ s1 := updLoupe_keeps.after h rfl
    exact Keeps.ite (throttleOn_keeps.after hs1 rfl) (throttleOff_keeps.after hs1 rfl)
  refine .ite (.ite (storeHeat_keeps.after h rfl) h) (.ite ?_ h)
  extract_lets s1
  have hs1 : Keeps _ _ s1 := updLoupe_keeps.after h rfl
  exact Keeps.ite (logPush_keeps.after hs1 rfl) hs1

theorem execSensorAgentTimeout_ends {die : Nat} : Ends Scope.config.parts s (execSensorAgentTimeout die s) := .chain fun h => by
  refine .ite h ?_
  extract_lets s1 s2
  have hs1 : Keeps _ _ s1 := setErr_keeps.after h rfl
  have hs2 : Keeps _ _ s2 := updLoupe_keeps.after hs1 rfl
  exact throttleOn_keeps.after hs2 rfl

theorem programHold_keeps {v : Bool} : Keeps Scope.loupe.parts s (programHold v s) := .chain fun h =>
  .foldl (fun _ _ h1 => State.updCtl_keeps.after h1 rfl) h

theorem execDipLong_ends : Ends Scope.config.parts s (execDipLong s) := .chain fun h => by
  unfold execDipLong
  split
  · exact h
  · exact logPush_keeps.after (updLoupe_keeps.after (atLeast_keeps.after h rfl) rfl) rfl

theorem execVinDipEnd_ends {us mv : Nat} : Ends Scope.loupe.parts s (execVinDipEnd us mv s) := .chain fun h => by
  unfold execVinDipEnd
  split
  · exact h
  · extract_lets s1 s2 seq
    have hs1 : Keeps _ _ s1 := atLeast_keeps.after h rfl
    have hs2 : Keeps _ _ s2 := programHold_keeps.after (bump_keeps.after (updLoupe_keeps.after hs1 rfl) rfl) rfl
    exact notifyTenants_keeps.after (loupeErr_keeps.after (logPush_keeps.after hs2 rfl) rfl) rfl

theorem flushStore_keeps : Keeps Scope.loupe.parts s (flushStore s) := .chain fun h =>
  .foldl (fun _ _ h1 => .ite (bump_keeps.after (State.setCtl_keeps.after h1 rfl) rfl) (State.setCtl_keeps.after h1 rfl)) h

theorem powerOff_keeps : Keeps Scope.whole.parts s (powerOff s) := rfl

theorem State.supplyTo_keeps {x : Sys} {l : Loupe} : Keeps Scope.hostPort.parts s { s with sys := x, loupe := l } := rfl

theorem State.aonTo_keeps {x : Sys} {g : LogState} {y : Sec} {l : Loupe} :
    Keeps Scope.whole.parts s { s with mbs := [], sys := x, log := g, sec := y, loupe := l } := rfl

theorem execPowerLossFlush_ends : Ends Scope.whole.parts s (execPowerLossFlush s) := .chain fun {o} h => by
  refine .ite h ?_
  extract_lets s1 on _ _ s2
  have hs1 : Keeps _ _ s1 := .ite (flushStore_keeps.after h rfl) h
  have hs2 : Keeps Scope.whole.parts o s2 := State.supplyTo_keeps.after hs1 rfl
  exact powerOff_keeps.after hs2 rfl

theorem execThermalTrip_ends : Ends Scope.whole.parts s (execThermalTrip s) := .chain fun h => by
  refine .ite h ?_
  extract_lets die seq s1 s2
  have hs1 : Keeps _ _ s1 := notifyTenants_keeps.after (logPush_keeps.after (bump_keeps.after h rfl) rfl) rfl
  have hs2 : Keeps _ _ s2 := flushStore_keeps.after hs1 rfl
  exact powerOff_keeps.after (State.loupeTo_keeps.after hs2 rfl) rfl

theorem execTripRelease_ends {substrate : List Int} : Ends Scope.hostPort.parts s (execTripRelease substrate s) := .chain fun h => by
  unfold execTripRelease
  split
  · exact h
  · exact .ite h (updLoupe_keeps.after (atLeast_keeps.after h rfl) rfl)

theorem logCopy_keeps : Keeps Parts.tells s (logCopy s) := .chain fun h =>
  bump_keeps.after (State.logTo_keeps.after h rfl) rfl

theorem execVauxLost_ends : Ends Scope.whole.parts s (execVauxLost s) := .chain fun h => by
  refine .ite h ?_
  have hs1 : Keeps _ _ (if s.diesOn then logCopy (flushStore s) else s) := .ite (logCopy_keeps.after (flushStore_keeps.after h rfl) rfl) h
  exact State.aonTo_keeps.after (powerOff_keeps.after (State.loupeTo_keeps.after hs1 rfl) rfl) rfl

/-! ### Security -/

end Sys2Proof.Machine
end

section
/-! PROOFS for 95_what_each_step_holds.md: security, the Loupe, links, the network, serving. -/

namespace Sys2Proof.Machine
open Sys2Proof

variable {s : State}

/-! ### Security -/

theorem specSecCerts_keeps : SpecKeeps {} specSecCerts := ⟨fun _ _ _ h => .ite trivial (.ite trivial h), fun _ h => h⟩

theorem measurements_keeps {ixs : List Nat} {nonce reqCtx : Bytes} {sign : Bool} {slot : Nat} :
    Keeps Scope.security.parts s (measurements ixs nonce reqCtx sign slot s).2 := .chain fun h => by
  unfold measurements
  extract_lets rec_ body s1
  have hs1 : Keeps _ _ s1 := h
  split
  · exact .update hs1 rfl
  exact hs1

theorem specSecMeasurements_keeps : SpecKeeps Scope.security.parts specSecMeasurements := by
  refine ⟨fun i p s h => ?_, fun _ h => h⟩
  unfold specSecMeasurements
  dsimp -zeta only
  extract_lets c
  exact .ite trivial (.ite trivial (measurements_keeps.after h rfl))

theorem specSecCtxKeyRoll_keeps :
    SpecKeeps Scope.security.parts specSecCtxKeyRoll :=
      ⟨fun _ _ _ h => .ite trivial (.ite trivial (.ite trivial (.ite trivial (.ite trivial (.ite trivial (.ite
    trivial (.ite (State.setCtx_keeps.after h rfl) (.ite (State.setCtx_keeps.after h rfl) (State.setCtx_keeps.after h rfl))))))))), fun _ h => h⟩

theorem execKeyRollReencryptComplete_ends {ctx : Nat} : Ends Scope.mailbox.parts s (execKeyRollReencryptComplete ctx s) := .chain fun h => by
  unfold execKeyRollReencryptComplete
  split
  · exact h
  · refine .ite h ?_
    extract_lets e
    exact finishOp_keeps.after (State.updCtx_keeps.after h rfl) rfl

theorem specSecDebugState_keeps : SpecKeeps Scope.security.parts specSecDebugState := by
  refine ⟨fun {o} i p s h => ?_, fun _ h => h⟩
  unfold specSecDebugState
  dsimp -zeta only
  extract_lets op answer
  have hanswer : ∀ s1, Keeps Scope.security.parts o s1 → ResKeeps Scope.security.parts o (answer s1) := by
    intro s1 hs1
    unfold answer
    extract_lets o
    exact hs1
  refine .ite trivial (.ite trivial ?_)
  split
  · exact .ite trivial h
  split
  · exact h
  exact h

theorem spdmSend_keeps {t : Nat} {bs : Bytes} : Keeps Scope.security.parts s (spdmSend t bs s) := rfl

theorem execSpdmGetCertificate_ends {transport slot off len : Nat} :
    Ends Scope.security.parts s (execSpdmGetCertificate transport slot off len s) := .chain fun h => by
  refine .ite h (.ite (spdmSend_keeps.after h rfl) ?_)
  extract_lets rest part
  exact spdmSend_keeps.after h rfl

theorem execSpdmChallenge_ends {transport slot : Nat} {nonce : List Byte} {summary : Bool} :
    Ends Scope.security.parts s (execSpdmChallenge transport slot nonce summary s) := .chain fun h => by
  refine .ite h (.ite (spdmSend_keeps.after h rfl) ?_)
  extract_lets body
  exact spdmSend_keeps.after h rfl

theorem execSpdmGetMeasurements_ends {transport index : Nat} {nonce : List Byte} {signed : Bool} :
    Ends Scope.security.parts s (execSpdmGetMeasurements transport index nonce signed s) := .chain fun h => by
  refine .ite h ?_
  extract_lets ixs
  refine .ite (spdmSend_keeps.after h rfl) ?_
  split
  rename_i e
  have ht := Keeps.snd e (measurements_keeps.after h rfl)
  exact spdmSend_keeps.after ht rfl

/-! ### Loupe -/

theorem specLoupeSensors_keeps : SpecKeeps {} specLoupeSensors := ⟨fun _ _ _ h => .ite trivial h, fun _ h => h⟩

theorem specLoupeLedger_keeps : SpecKeeps {} specLoupeLedger := ⟨fun _ _ _ h => h, fun _ h => h⟩

theorem specLoupeLogRead_keeps : SpecKeeps {} specLoupeLogRead := ⟨fun _ _ _ h => .ite trivial h, fun _ h => h⟩

theorem specLoupePowerCap_keeps :
    SpecKeeps Scope.hostPort.parts specLoupePowerCap := ⟨fun _ _ _ h => .ite trivial (.ite trivial (updLoupe_keeps.after h rfl)), fun _ h => h⟩

theorem specLoupeFwStage_keeps :
    SpecKeeps Scope.config.parts specLoupeFwStage := ⟨fun _ _ _ h => .ite trivial
      (.ite trivial (.ite trivial (.ite trivial (.ite trivial (.ite (raise_keeps.after h rfl)
    (updLoupe_keeps.after h rfl)))))), fun _ h => h⟩

theorem execFwStageVerified_ends : Ends Scope.config.parts s (execFwStageVerified s) := .chain fun h => by
  unfold execFwStageVerified
  split
  · exact h
  · extract_lets k s1
    have hs1 : Keeps _ _ s1 := updLoupe_keeps.after h rfl
    split
    · exact finishOp_keeps.after hs1 rfl
    · refine .ite (finishOp_keeps.after hs1 rfl) ?_
      extract_lets s2
      have hs2 : Keeps _ _ s2 := updLoupe_keeps.after hs1 rfl
      exact finishOp_keeps.after (logPush_keeps.after hs2 rfl) rfl

theorem specLoupeFwActivate_keeps : SpecKeeps Scope.hostPort.parts specLoupeFwActivate := by
  refine ⟨fun {o} i p s h => ?_, fun _ h => h⟩
  unfold specLoupeFwActivate
  dsimp -zeta only
  extract_lets op l noSlot
  have hno : ResKeeps Scope.hostPort.parts o noSlot := trivial
  exact .ite (.ite trivial (.ite trivial (.ite hno (Keeps.update h rfl))))
    (.ite (.ite trivial (.ite hno (updLoupe_keeps.after h rfl))) (.ite (.ite hno (Keeps.update h rfl)) trivial))

theorem execFuseStepComplete_ends : Ends Scope.config.parts s (execFuseStepComplete s) := .chain fun h => by
  unfold execFuseStepComplete
  split
  · exact h
  · extract_lets _ s1 k s2
    have hs1 : Keeps _ _ s1 := .ite (logPush_keeps.after h rfl) h
    have hs2 : Keeps _ _ s2 := updLoupe_keeps.after hs1 rfl
    exact .ite (finishOp_keeps.after hs2 rfl) (.ite (finishOp_keeps.after (updLoupe_keeps.after hs1 rfl) rfl) hs1)

theorem planStart_keeps {items : List (Nat × Nat × Nat × Nat)} : Keeps Scope.config.parts s (planStart items s) := .chain fun h =>
  .ite (logPush_keeps.after (updLoupe_keeps.after h rfl) rfl) (planKick_keeps.after (updLoupe_keeps.after h rfl) rfl)

theorem execReplan_ends {idle : Bool} {meas : List (Nat × Nat × Nat × Nat × Nat)} {drift : List (Nat × Nat)}
    {wants : List (Nat × Nat × Nat × Nat)} : Ends Scope.config.parts s (execReplan idle meas drift wants s) := .chain fun h => by
  refine .ite h ?_
  extract_lets s1 s2 items
  have hs1 : Keeps _ _ s1 := .ite (atLeast_keeps.after h rfl) (atLeast_keeps.after h rfl)
  have hs2 : Keeps _ _ s2 := updLoupe_keeps.after hs1 rfl
  exact planStart_keeps.after hs2 rfl

theorem execReplanLate_ends : Ends Scope.config.parts s (execReplanLate s) := .chain fun h => by
  refine .ite h ?_
  extract_lets s1
  have hs1 : Keeps _ _ s1 := atLeast_keeps.after h rfl
  exact loupeErr_keeps.after (logPush_keeps.after (updLoupe_keeps.after hs1 rfl) rfl) rfl

/-! ### Beam -/

theorem collEnd_keeps {j status reason lost lb : Nat} : Keeps Parts.records s (collEnd j status reason lost lb s) := .chain fun h => by
  unfold collEnd
  split
  · extract_lets e s1 s2
    have hs1 : Keeps _ _ s1 := bump_keeps.after h rfl
    have hs2 : Keeps _ _ s2 := .ite hs1 (setErr_keeps.after hs1 rfl)
    exact finish_keeps.after hs2 rfl
  · exact h

theorem collGo_keeps {j : Nat} {others : Option (List Bytes)} : Keeps Parts.records s (collGo j others s) := .chain fun h => by
  unfold collGo
  split
  · exact h
  · extract_lets d g p r src s1
    have hs1 : Keeps _ _ s1 := hbmTaken_keeps.after h rfl
    refine .ite (collEnd_keeps.after h rfl) (.ite (collEnd_keeps.after h rfl) (.ite h ?_))
    split
    · exact h
    · refine .ite (collEnd_keeps.after h rfl) ?_
      extract_lets bs s2 s3 s4
      have hs2 : Keeps _ _ s2 := .ite hs1 (hbmWrite_keeps.after hs1 rfl)
      have hs3 : Keeps _ _ s3 := .ite (bump_keeps.after hs2 rfl) hs2
      have hs4 : Keeps _ _ s4 := .ite (spent_keeps.after hs3 rfl) hs3
      exact collEnd_keeps.after hs4 rfl

theorem execBeamColl_ends {ring : Nat} {others : Option (List (List Byte))} :
    Ends Scope.pod.parts s (execBeamColl ring others s) := .chain fun h => by
  unfold execBeamColl
  extract_lets r
  split
  · exact .ite (collGo_keeps.after h rfl) h
  · split
    · exact h
    · refine .ite h ?_
      split
      · exact .ite (bump_keeps.after (failCheck_keeps.after (setErr_keeps.after h rfl) rfl) rfl) (failArg_keeps.after h rfl)
      · extract_lets gh g n s1 s2 len
        have hs1 : Keeps _ _ s1 := State.setGroup_keeps.after h rfl
        have hs2 : Keeps _ _ s2 := State.updRing_keeps.after (served_keeps.after (begin_keeps.after hs1 rfl) rfl) rfl
        exact .ite (raise_keeps.after (collEnd_keeps.after hs2 rfl) rfl) (collGo_keeps.after hs2 rfl)

theorem groupAbort_keeps {g status reason lost : Nat} : Keeps Parts.records s (groupAbort g status reason lost s) := .chain fun h => by
  refine .foldl (fun s1 x1 h1 => ?_) h
  split
  · exact .ite (collEnd_keeps.after h1 rfl) h1
  · exact h1

theorem groupUpd_keeps {g status : Nat} : Keeps Parts.jobEnds s (groupUpd g status s) := .chain fun h => by
  unfold groupUpd
  split
  · exact h
  · refine .ite h ?_
    refine .foldl (fun s1 x1 h1 => ?_) h
    split
    · exact .ite h1 (.ite (exchangeLost_keeps.after h1 rfl)
        (.ite (updInconsistent_keeps.after h1 rfl) (.ite (State.updUpd_keeps.after (updEnd_keeps.after h1 rfl) rfl) h1)))
    · exact h1

theorem buddyLost_keeps {dev : Nat} : Keeps Scope.update.parts s (buddyLost dev s) := .chain fun h => by
  unfold buddyLost
  split
  · refine .ite ?_ h
    extract_lets _ s1
    have hs1 : Keeps _ _ s1 := mirErr_keeps.after h rfl
    split
    · exact .ite (commitGo_keeps.after (.update hs1 rfl) rfl) (commitGo_keeps.after hs1 rfl)
    · exact hs1
  · exact h

theorem groupBreakAt_keeps {g r : Nat} : Keeps (Parts.jobEnds.join { groups := true }) s (groupBreakAt g r s) := .chain fun h =>
  groupUpd_keeps.after (groupAbort_keeps.after (.ite (.update (State.updGroup_keeps.after h rfl) rfl) (State.updGroup_keeps.after h rfl)) rfl) rfl

theorem groupBreak_keeps {g dev : Nat} : Keeps (Parts.jobEnds.join { groups := true }) s (groupBreak g dev s) := .chain fun h => by
  unfold groupBreak
  extract_lets x
  split
  · exact h
  · exact .ite h (groupBreakAt_keeps.after h rfl)

theorem autoTakeover_keeps {dev : Nat} : Keeps Parts.sends s (autoTakeover dev s) := .chain fun h => by
  refine .ite h ?_
  extract_lets l
  split
  · exact sendMsg_keeps.after h rfl
  · exact h

theorem execGroupBroken_ends {group member : Nat} : Ends Scope.net.parts s (execGroupBroken group member s) := .chain fun h => by
  unfold execGroupBroken
  split
  · exact h
  · exact .ite h (buddyLost_keeps.after (groupBreak_keeps.after h rfl) rfl)

theorem deviceLost_keeps {dev : Nat} : Keeps Scope.net.parts s (deviceLost dev s) := .chain fun h =>
  .ite (buddyLost_keeps.after (.foldl (fun _ _ h1 => groupBreak_keeps.after h1 rfl) h) rfl)
    (autoTakeover_keeps.after (buddyLost_keeps.after (.foldl (fun _ _ h1 => groupBreak_keeps.after h1 rfl) h) rfl) rfl)

theorem execHeartbeatLoss_ends {dev : Nat} : Ends Scope.whole.parts s (execHeartbeatLoss dev s) := .chain fun h => by
  unfold execHeartbeatLoss
  split
  · exact h
  · refine .ite h ?_
    extract_lets s1 _ s2
    have hs1 : Keeps _ _ s1 := atLeast_keeps.after h rfl
    have hs2 : Keeps _ _ s2 := .update hs1 rfl
    exact .ite (deviceLost_keeps.after (bump_keeps.after (mirErr_keeps.after hs2 rfl) rfl) rfl) (buddyLost_keeps.after hs2 rfl)

theorem execResolutionComplete_ends {group : Nat} {held : Option CommitWord} {survivors : Nat} :
    Ends Scope.update.parts s (execResolutionComplete group held survivors s) := .chain fun h => by
  unfold execResolutionComplete
  split
  · exact h
  · extract_lets g att w _ s1 s2 s3 s4
    have hs1 : Keeps _ _ s1 := h
    have hs2 : Keeps _ _ s2 := mirErr_keeps.after (setErr_keeps.after (setErr_keeps.after hs1 rfl) rfl) rfl
    have hs3 : Keeps _ _ s3 := inconsistent_keeps.after (inconsistent_keeps.after hs2 rfl) rfl
    have hs4 : Keeps _ _ s4 := autoTakeover_keeps.after (bump_keeps.after hs1 rfl) rfl
    exact .ite h (.ite (jobAbort_keeps.after (deliverEvent_keeps.after hs3 rfl) rfl)
      (.ite hs4 (.ite (takeWord_keeps.after hs4 rfl) (Keeps.update hs4 rfl))))

theorem specPodJoin_keeps : SpecKeeps Scope.config.parts specPodJoin := by
  refine ⟨fun i p s h => .ite trivial (.ite trivial (.ite trivial ?_)), fun _ h => h⟩
  extract_lets _ _ s1
  have hs1 : Keeps _ _ s1 := h
  exact .ite (Keeps.update hs1 rfl) (Keeps.update hs1 rfl)

theorem joinEnd_keeps : Keeps Scope.config.parts s (joinEnd s) := .chain fun h => by
  unfold joinEnd
  split
  · exact h
  · extract_lets _ _ s1
    have hs1 : Keeps _ _ s1 := h
    exact finishOp_keeps.after hs1 rfl

theorem execPodJoinTimeout_ends : Ends Scope.config.parts s (execPodJoinTimeout s) := .chain fun h => by
  unfold execPodJoinTimeout
  split
  · exact h
  · exact .ite h (joinEnd_keeps.after (Keeps.ite h (atLeast_keeps.after h rfl)) rfl)

theorem specPodGroupCreate_keeps : SpecKeeps Scope.pod.parts specPodGroupCreate := by
  refine ⟨fun i p s h => .ite trivial ?_, fun _ h => h⟩
  split
  · exact trivial
  · split
    · exact trivial
    · refine .ite trivial ?_
      split
      · exact trivial
      · exact State.setGroup_keeps.after h rfl

theorem specPodBarrier_keeps : SpecKeeps {} specPodBarrier := by
  refine ⟨fun i p s h => ?_, fun _ h => h⟩
  unfold specPodBarrier
  dsimp -zeta only
  extract_lets g
  split
  · exact trivial
  · exact .ite trivial (.ite trivial (.ite trivial (.ite h h)))

theorem groupReset_keeps {g : Nat} : Keeps Scope.peer.parts s (groupReset g s) := .chain fun h =>
  State.updGroup_keeps.after (.ite (.update (groupUpd_keeps.after (groupAbort_keeps.after h rfl) rfl) rfl)
    (groupUpd_keeps.after (groupAbort_keeps.after h rfl) rfl)) rfl

theorem groupResetAll_keeps {g : Nat} : Keeps Scope.peer.parts s (groupResetAll g s) := .chain fun h =>
  groupReset_keeps.after (tellMembers_keeps.after h rfl) rfl

theorem specPodReset_keeps : SpecKeeps Scope.peer.parts specPodReset := by
  refine ⟨fun i p s h => ?_, fun _ h => h⟩
  unfold specPodReset
  dsimp -zeta only
  split
  · split
    · exact trivial
    · exact .ite h (groupResetAll_keeps.after h rfl)
  · exact .ite h (Keeps.foldl (fun _ _ h1 => groupResetAll_keeps.after h1 rfl) h)
  · extract_lets map_ s1
    have hs1 : Keeps Scope.peer.parts _ s1 := Keeps.foldl (fun _ _ h1 => sendMsg_keeps.after h1 rfl) h
    split
    · exact trivial
    · exact Keeps.ite (Keeps.update hs1 rfl) hs1
  · exact trivial

theorem specBeamRouteQuery_keeps : SpecKeeps {} specBeamRouteQuery := by
  refine ⟨fun i p s h => .ite trivial (.ite h (.ite h ?_)), fun _ h => h⟩
  split
  · exact h
  · exact h

theorem specBeamPortQuery_keeps : SpecKeeps {} specBeamPortQuery := ⟨fun _ _ _ h => .ite trivial h, fun _ h => h⟩

theorem unreachable_keeps {dev : Nat} : Keeps Scope.net.parts s (unreachable dev s) := .chain fun {o} h => by
  unfold unreachable
  extract_lets s1 s2
  have hs1 : Keeps Scope.net.parts o s1 := by
    unfold s1
    refine .foldl (fun s3 x1 h1 => ?_) h
    split
    · exact .ite (suSettle_keeps.after (State.updRing_keeps.after (suFault_keeps.after h1 rfl) rfl) rfl) h1
    · exact h1
  have hs2 : Keeps Scope.net.parts _ s2 := .foldl (fun _ _ h1 =>
    pringNotice_keeps.after (pringReset_keeps.after (setErr_keeps.after h1 rfl) rfl) rfl) hs1
  exact deviceLost_keeps.after hs2 rfl

theorem execRouteTableInstall_ends {port : Nat} {table : List (Nat × Nat × Nat)} :
    Ends Scope.whole.parts s (execRouteTableInstall port table s) := .chain fun h => by
  refine .ite h ?_
  extract_lets tab before changed _ s1 lost s2 s3 s31 dest s4
  have hs1 : Keeps _ _ s1 := bump_keeps.after (bump_keeps.after h rfl) rfl
  have hs2 : Keeps Scope.whole.parts _ s2 := .foldl (fun _ _ h1 => .ite (sendToward_keeps.after h1 rfl) h1) hs1
  have hs3 : Keeps Scope.whole.parts _ s3 := .foldl (fun _ _ h1 => unreachable_keeps.after h1 rfl) hs2
  have hs31 : Keeps _ _ s31 := .ite (bump_keeps.after (bump_keeps.after hs3 rfl) rfl) hs3
  have hs4 : Keeps Scope.whole.parts _ s4 := .ite hs31 (.foldl (fun _ _ h1 => deliverEvent_keeps.after h1 rfl) hs31)
  split
  · exact .ite (joinEnd_keeps.after hs4 rfl) hs4
  · exact hs4

theorem execTimebaseSync_ends {t : Nat} : Ends Scope.config.parts s (execTimebaseSync t s) := .chain fun h => by
  refine .ite h ?_
  extract_lets s1 off sync _ _ s11
  have hs1 : Keeps _ _ s1 := .ite h h
  have hs11 : Keeps _ _ s11 := .update hs1 rfl
  exact .ite (bump_keeps.after (bump_keeps.after hs11 rfl) rfl) hs11

/-! ### Net -/

theorem State.setNport_keeps {p : Nat} {x : NetPort} : Keeps Scope.net.parts s (s.setNport p x) := rfl

theorem State.updNport_keeps {p : Nat} {f : NetPort → NetPort} : Keeps Scope.net.parts s (s.updNport p f) := .chain fun h =>
  State.setNport_keeps.after h rfl

theorem npCnt_keeps {p n k : Nat} : Keeps Scope.register.parts s (npCnt p n k s) := .chain fun h =>
  .ite h (bump_keeps.after h rfl)

theorem npErr_keeps {p bit ring index reason bind : Nat} : Keeps Scope.register.parts s (npErr p bit ring index reason bind s) := .chain fun h =>
  State.updUnit_keeps.after h rfl

theorem npSend_keeps {b psn op va : Nat} {bs : Bytes} : Keeps Scope.net.parts s (npSend b psn op va bs s) := .chain fun h =>
  .ite h (npCnt_keeps.after (npCnt_keeps.after (State.updNport_keeps.after h rfl) rfl) rfl)

theorem npEnd_keeps {j status reason : Nat} : Keeps Scope.ringReg.parts s (npEnd j status reason s) := .chain fun h => by
  unfold npEnd
  split
  · exact .ite (finish_keeps.after h rfl) h
  · exact h

theorem qpFail_keeps {b reason : Nat} : Keeps Scope.net.parts s (qpFail b reason s) := .chain fun h => by
  unfold qpFail
  split
  · exact h
  · refine .ite h ?_
    extract_lets p rings s1 s2
    have hs1 : Keeps _ _ s1 := State.setBind_keeps.after h rfl
    have hs2 : Keeps Scope.net.parts _ s2 := .foldl (fun _ _ h1 => .ite h1 (npEnd_keeps.after h1 rfl)) hs1
    exact npErr_keeps.after (npCnt_keeps.after hs2 rfl) rfl

theorem execNpBind_ends {j : Nat} : Ends Scope.net.parts s (execNpBind j s) := .chain fun h => by
  unfold execNpBind
  split
  · exact h
  · extract_lets c a b x qpn key s1
    have hs1 : Keeps _ _ s1 := State.setNport_keeps.after h rfl
    refine .ite (failArg_keeps.after h rfl) (.ite (failArg_keeps.after h rfl)
      (.ite (raise_keeps.after (npErr_keeps.after (npEnd_keeps.after (begin_keeps.after (served_keeps.after h rfl) rfl) rfl) rfl) rfl) ?_))
    split
    · exact failArg_keeps.after h rfl
    · split
      · exact failArg_keeps.after h rfl
      · extract_lets s2 s3
        have hs2 : Keeps _ _ s2 := State.setBind_keeps.after hs1 rfl
        have hs3 : Keeps _ _ s3 := begin_keeps.after (served_keeps.after hs2 rfl) rfl
        exact finish_keeps.after hs3 rfl

theorem unbind_keeps {b : Nat} : Keeps Scope.net.parts s (unbind b s) := .chain fun h =>
  .update (qpFail_keeps.after h rfl) rfl

theorem execNpUnbind_ends {j : Nat} : Ends Scope.net.parts s (execNpUnbind j s) := .chain fun h => by
  unfold execNpUnbind
  split
  · exact h
  · split
    · exact failArg_keeps.after h rfl
    · exact finish_keeps.after (unbind_keeps.after (begin_keeps.after (served_keeps.after h rfl) rfl) rfl) rfl

theorem execNpWrite_ends {j : Nat} : Ends Scope.net.parts s (execNpWrite j s) := .chain fun h => by
  unfold execNpWrite
  split
  · exact h
  · extract_lets c b s1 bs
    have hs1 : Keeps _ _ s1 := hbmTaken_keeps.after (begin_keeps.after (served_keeps.after h rfl) rfl) rfl
    split
    · exact failArg_keeps.after h rfl
    · exact h
    · refine .ite h (.ite (raise_keeps.after (npErr_keeps.after (npEnd_keeps.after (begin_keeps.after (served_keeps.after h rfl) rfl) rfl) rfl) rfl)
        (.ite (npEnd_keeps.after (begin_keeps.after (served_keeps.after h rfl) rfl) rfl) ?_))
      extract_lets ps s2
      have hs2 : Keeps _ _ s2 := State.setBind_keeps.after hs1 rfl
      exact Keeps.foldl (fun _ _ h1 => npSend_keeps.after h1 rfl) hs2

theorem execNpRead_ends {j : Nat} : Ends Scope.net.parts s (execNpRead j s) := .chain fun h => by
  unfold execNpRead
  split
  · exact h
  · extract_lets c b s1
    have hs1 : Keeps _ _ s1 := begin_keeps.after (served_keeps.after h rfl) rfl
    split
    · exact failArg_keeps.after h rfl
    · exact h
    · refine .ite h (.ite (npEnd_keeps.after (begin_keeps.after (served_keeps.after h rfl) rfl) rfl) ?_)
      extract_lets va s2
      have hs2 : Keeps _ _ s2 := State.setBind_keeps.after hs1 rfl
      exact npSend_keeps.after hs2 rfl

theorem npRecv_keeps {p n : Nat} {ecn : Bool} {b : Option Nat} : Keeps Scope.net.parts s (npRecv p n ecn b s) := .chain fun h => by
  unfold npRecv
  extract_lets s1 s2
  have hs1 : Keeps _ _ s1 := npCnt_keeps.after (npCnt_keeps.after h rfl) rfl
  have hs2 : Keeps _ _ s2 := npCnt_keeps.after hs1 rfl
  refine .ite ?_ hs1
  split
  · exact .ite (npCnt_keeps.after (npSend_keeps.after hs2 rfl) rfl) hs2
  · exact hs2

theorem npAcked_keeps {j n : Nat} : Keeps Scope.ringReg.parts s (npAcked j n s) := .chain fun h => by
  unfold npAcked
  split
  · refine .ite h ?_
    extract_lets s1
    have hs1 : Keeps _ _ s1 := State.updRing_keeps.after h rfl
    exact .ite (npEnd_keeps.after hs1 rfl) hs1
  · exact h

theorem resend_keeps {b psn : Nat} : Keeps Scope.net.parts s (resend b psn s) := .chain fun h => by
  unfold resend
  split
  · exact npSend_keeps.after h rfl
  · exact h

theorem execRoceAck_ends {p qpn psn kind : Nat} : Ends Scope.net.parts s (execRoceAck p qpn psn kind s) := .chain fun h => by
  unfold execRoceAck
  split
  · exact h
  · refine .ite h ?_
    extract_lets s1 done s2 again
    have hs1 : Keeps _ _ s1 := npRecv_keeps.after h rfl
    have hs2 : Keeps _ _ s2 := State.setBind_keeps.after hs1 rfl
    exact .ite (Keeps.foldl (fun _ _ h1 => Keeps.ite h1 (npAcked_keeps.after h1 rfl)) hs2)
      (.ite (Keeps.foldl (fun _ _ h1 => resend_keeps.after h1 rfl) (npCnt_keeps.after hs1 rfl)) (qpFail_keeps.after hs1 rfl))

theorem execRoceReadResponse_ends {p qpn psn : Nat} {data : Bytes} :
    Ends Scope.net.parts s (execRoceReadResponse p qpn psn data s) := .chain fun h => by
  unfold execRoceReadResponse
  split
  · exact h
  · split
    · exact h
    · split
      · exact h
      · extract_lets mtu got n s1 s2 s3 s4
        have hs1 : Keeps _ _ s1 := npRecv_keeps.after h rfl
        have hs2 : Keeps _ _ s2 := hbmWrite_keeps.after hs1 rfl
        have hs3 : Keeps _ _ s3 := npCnt_keeps.after hs2 rfl
        have hs4 : Keeps _ _ s4 := State.setBind_keeps.after hs3 rfl
        exact .ite h (npAcked_keeps.after hs4 rfl)

theorem execQpRetryTimeout_ends {b : Nat} : Ends Scope.net.parts s (execQpRetryTimeout b s) := .chain fun h => by
  unfold execQpRetryTimeout
  split
  · exact h
  · refine .ite h (.ite (qpFail_keeps.after (atLeast_keeps.after h rfl) rfl) ?_)
    extract_lets s1 s2
    have hs1 : Keeps _ _ s1 := atLeast_keeps.after h rfl
    have hs2 : Keeps _ _ s2 := State.setBind_keeps.after hs1 rfl
    exact Keeps.foldl (fun _ _ h1 => resend_keeps.after h1 rfl) (npCnt_keeps.after hs2 rfl)

theorem execRoceCnp_ends {p qpn : Nat} : Ends Scope.net.parts s (execRoceCnp p qpn s) := .chain fun h => by
  unfold execRoceCnp
  split
  · exact h
  · exact .ite h (npCnt_keeps.after (npRecv_keeps.after (State.setBind_keeps.after h rfl) rfl) rfl)

theorem npArrive_keeps {p qpn psn n : Nat} {ecn : Bool} {k : Nat → NetBind → State → State}
    (hk : ∀ b x t, Keeps Scope.net.parts t (k b x t)) : Ends Scope.net.parts s (npArrive p qpn psn n ecn k s) := .chain fun h => by
  unfold npArrive
  split
  · exact h
  · refine .ite h ?_
    extract_lets s1
    have hs1 : Keeps _ _ s1 := npRecv_keeps.after h rfl
    split
    · exact (hk _ _ _).after hs1 rfl
    · exact npSend_keeps.after hs1 rfl
    · exact npSend_keeps.after hs1 rfl

theorem npRefuse_keeps {b psn bit : Nat} : Keeps Scope.net.parts s (npRefuse b psn bit s) := .chain fun h =>
  qpFail_keeps.after (.ite (npErr_keeps.after (npSend_keeps.after h rfl) rfl) (npSend_keeps.after h rfl)) rfl

theorem npPlace_keeps {b : Nat} {x : NetBind} {va : Nat} {bs : Bytes} : Keeps Scope.net.parts s (npPlace b x va bs s) := .chain fun h =>
  .ite (hbmWrite_keeps.after (npCnt_keeps.after h rfl) rfl) (State.setBind_keeps.after (npCnt_keeps.after h rfl) rfl)

theorem npWritePacket_keeps {psn : Nat} {first : Bool} {va key len : Nat} {bs : Bytes} {fin : Nat → Nat → State → State} {b : Nat} {x : NetBind}
    (hf : ∀ b n t, Keeps Scope.net.parts t (fin b n t)) :
    Keeps Scope.net.parts s (npWritePacket psn first va key len bs fin b x s) := .chain fun h => by
  unfold npWritePacket
  extract_lets start
  clear_value start
  split
  · exact npRefuse_keeps.after h rfl
  · refine .ite (npRefuse_keeps.after h rfl) (.ite (npRefuse_keeps.after h rfl) ((hf _ _ _).after ?_ rfl))
    exact npSend_keeps.after (npPlace_keeps.after (State.setBind_keeps.after h rfl) rfl) rfl

theorem execRoceWriteImmediate_ends {p qpn psn : Nat} {first : Bool} {va key len : Nat} {data : Bytes} {imm : Nat} {ecn : Bool} :
    Ends Scope.net.parts s (execRoceWriteImmediate p qpn psn first va key len data imm ecn s) := by
  refine npArrive_keeps fun b x t => npWritePacket_keeps fun b n t => ?_
  split
  · exact .ite (produce_keeps.mono rfl) (.refl _ t)
  · exact .refl _ t

theorem execRoceRdmaRead_ends {p qpn psn va key len : Nat} {ecn : Bool} :
    Ends Scope.net.parts s (execRoceRdmaRead p qpn psn va key len ecn s) := by
  refine npArrive_keeps fun b x t => .chain fun h => ?_
  extract_lets a bs bs' ps s1
  have hs1 : Keeps _ _ s1 := State.setBind_keeps.after (hbmTaken_keeps.after h rfl) rfl
  exact .ite (npRefuse_keeps.after h rfl) (.ite (npRefuse_keeps.after (npErr_keeps.after h rfl) rfl)
    (.foldl (fun _ _ h => npSend_keeps.after h rfl) hs1))

theorem execPfcPauseFrame_ends {p prio quanta : Nat} : Ends Scope.net.parts s (execPfcPauseFrame p prio quanta s) := .chain fun h => by
  refine .ite h ?_
  extract_lets s1
  have hs1 : Keeps _ _ s1 := npCnt_keeps.after (npRecv_keeps.after h rfl) rfl
  exact .ite (State.updNport_keeps.after hs1 rfl) hs1

theorem podsLost_keeps {p : Nat} : Keeps Scope.net.parts s (podsLost p s) := .chain fun h =>
  .foldl (fun _ _ h1 => deviceLost_keeps.after h1 rfl) (State.updNport_keeps.after h rfl)

theorem execNpLinkDown_ends {p : Nat} : Ends Scope.net.parts s (execNpLinkDown p s) := .chain fun h => by
  refine .ite h ?_
  extract_lets s1 s2
  have hs1 : Keeps _ _ s1 := npErr_keeps.after (State.updNport_keeps.after h rfl) rfl
  have hs2 : Keeps Scope.net.parts _ s2 := .foldl (fun _ _ h1 => qpFail_keeps.after h1 rfl) hs1
  exact podsLost_keeps.after hs2 rfl

/-! ### MemFree -/

theorem specMemFree_keeps : SpecKeeps Scope.agent.parts specMemFree := by
  refine ⟨fun i p s h => ?_, fun _ h => h⟩
  unfold specMemFree
  dsimp -zeta only
  split
  · exact trivial
  · exact .ite trivial (freePages_keeps.after h rfl)

theorem specMemUnmapHost_keeps : SpecKeeps Parts.records specMemUnmapHost := by
  refine ⟨fun i p s h => ?_, fun _ h => h⟩
  unfold specMemUnmapHost
  dsimp -zeta only
  split
  · exact trivial
  · exact .ite trivial (State.updCtx_keeps.after h rfl)

/-! ### Serving -/

theorem State.setSrvModel_keeps {m : Nat} {x : SrvModel} : Keeps { srv := true } s (s.setSrvModel m x) := rfl

theorem State.updSrvModel_keeps {m : Nat} {f : SrvModel → SrvModel} : Keeps { srv := true } s (s.updSrvModel m f) := .chain fun h =>
  State.setSrvModel_keeps.after h rfl

theorem State.setSrvQueue_keeps {q : Nat} {x : SrvQueue} : Keeps { srv := true } s (s.setSrvQueue q x) := rfl

theorem State.setSrvEntry_keeps {i : Nat} {x : SrvEntry} : Keeps { srv := true } s (s.setSrvEntry i x) := rfl

theorem State.updSrvEntry_keeps {i : Nat} {f : SrvEntry → SrvEntry} : Keeps { srv := true } s (s.updSrvEntry i f) := .chain fun h =>
  State.setSrvEntry_keeps.after h rfl

theorem srvCnt_keeps {m : SrvModel} {n k : Nat} : Keeps Scope.register.parts s (srvCnt m n k s) := .chain fun h =>
  .ite h (bump_keeps.after h rfl)

theorem srvErr_keeps {m bit index : Nat} : Keeps Scope.register.parts s (srvErr m bit index s) := .chain fun h =>
  State.updUnit_keeps.after h rfl

theorem srvPrismEnd_keeps {e : SrvEntry} : Keeps Scope.prism.parts s (srvPrismEnd e s) := .chain fun h =>
  .ite (endBlock_keeps.after (State.updChan_keeps.after h rfl) rfl) h

theorem srvSweepModel_keeps {m : Nat} : Keeps { srv := true } s (srvSweepModel m s) := .chain fun h =>
  .ite h h

theorem srvSweepQueue_keeps {q : Nat} : Keeps { srv := true } s (srvSweepQueue q s) := .chain fun h =>
  .ite (srvSweepModel_keeps.after (State.setSrvQueue_keeps.after h rfl) rfl) h

theorem srvRelease_keeps {i : Nat} : Keeps Scope.prism.parts s (srvRelease i s) := .chain fun h =>
  srvSweepQueue_keeps.after (srvCnt_keeps.after (State.setSrvEntry_keeps.after
    (State.updSrvModel_keeps.after (srvPrismEnd_keeps.after h rfl) rfl) rfl) rfl) rfl

theorem srvDropOps_keeps {i status : Nat} :
    Keeps (Parts.records.join { ops := true, srv := true }) s (srvDropOps i status s) := .chain fun {o} h => by
  unfold srvDropOps
  extract_lets e s1 s2
  have hs1 : Keeps (Parts.records.join { ops := true, srv := true }) o s1 := by
    unfold s1
    split
    · exact finishOp_keeps.after h rfl
    · exact h
  have hs2 : Keeps (Parts.records.join { ops := true, srv := true }) o s2 := by
    unfold s2
    split
    · exact finishOp_keeps.after hs1 rfl
    · exact hs1
  exact State.updSrvEntry_keeps.after hs2 rfl

theorem srvDrop_keeps {c : Nat} : Keeps Scope.whole.parts s (srvDrop c s) := .chain fun h => by
  unfold srvDrop
  extract_lets s1 mine
  have hs1 : Keeps Scope.whole.parts _ s1 := .foldl (fun _ _ h1 => srvPrismEnd_keeps.after (srvDropOps_keeps.after h1 rfl) rfl) h
  exact .update hs1 rfl

theorem specSrvQueueCreate_keeps : SpecKeeps Scope.serving.parts specSrvQueueCreate := by
  refine ⟨fun {o} i p s h => ?_, fun _ h => h⟩
  unfold specSrvQueueCreate
  dsimp -zeta only
  extract_lets m w b queues room newQueue side
  have hroom : ∀ k, (∀ q, ResKeeps Scope.serving.parts o (k q)) → ResKeeps Scope.serving.parts o (room k) := by
    intro k hk
    unfold room
    refine .ite trivial ?_
    split
    · exact hk _
    · exact trivial
  clear_value room
  refine .ite (.ite trivial (.ite trivial (.ite trivial (hroom _ fun _ => State.setSrvQueue_keeps.after h rfl)))) (.ite trivial ?_)
  split
  · exact trivial
  · split
    · exact trivial
    · refine .ite trivial (.ite trivial (.ite trivial (hroom _ fun q => ?_)))
      split
      · exact trivial
      · exact State.setSrvQueue_keeps.after (State.setSrvModel_keeps.after h rfl) rfl

theorem specSrvQueueWeight_keeps : SpecKeeps Scope.serving.parts specSrvQueueWeight := by
  refine ⟨fun i p s h => ?_, fun _ h => h⟩
  unfold specSrvQueueWeight
  dsimp -zeta only
  extract_lets q w x
  split
  · exact trivial
  · exact Keeps.ite (srvSweepQueue_keeps.after (State.setSrvQueue_keeps.after h rfl) rfl) (State.setSrvQueue_keeps.after h rfl)

theorem specSrvSubmit_keeps : SpecKeeps Scope.serving.parts specSrvSubmit := by
  refine ⟨fun i p s h => ?_, fun _ h => h⟩
  unfold specSrvSubmit
  dsimp -zeta only
  extract_lets q prio maxLen plen ph x m pf n need pages _ e
  split
  · exact trivial
  · refine .ite trivial (.ite trivial (.ite trivial (.ite trivial (.ite trivial (.ite trivial ?_)))))
    split
    · exact trivial
    · refine .ite trivial (.ite trivial ?_)
      split
      · exact trivial
      · exact .ite trivial (.ite trivial (.ite trivial (State.setSrvEntry_keeps.after (State.updSrvModel_keeps.after h rfl) rfl)))

theorem specSrvCancel_keeps : SpecKeeps Scope.serving.parts specSrvCancel := by
  refine ⟨fun i p s h => ?_, fun _ h => h⟩
  unfold specSrvCancel
  dsimp -zeta only
  extract_lets k e
  split
  · exact trivial
  · exact .ite trivial (srvCnt_keeps.after (State.updSrvEntry_keeps.after (srvDropOps_keeps.after h rfl) rfl) rfl)

theorem specSrvPause_keeps : SpecKeeps Scope.serving.parts specSrvPause := by
  refine ⟨fun i p s h => ?_, fun _ h => h⟩
  unfold specSrvPause
  dsimp -zeta only
  extract_lets k cap e m
  split
  · exact trivial
  · exact .ite trivial (.ite trivial (.ite trivial (.ite trivial (.ite trivial (.ite trivial (State.setSrvEntry_keeps.after h rfl))))))

theorem ctxWrite_keeps {c space a : Nat} {bs : Bytes} : Keeps Parts.records s (ctxWrite c space a bs s) := .chain fun h =>
  .ite (hbmWrite_keeps.after h rfl) (hostPut_keeps.after h rfl)

theorem execSummaryWriteLanded_ends {k : Nat} {ok : Bool} : Ends Scope.serving.parts s (execSummaryWriteLanded k ok s) := .chain fun h => by
  unfold execSummaryWriteLanded
  extract_lets e m n
  split
  · exact h
  · refine .ite h ?_
    extract_lets space s1 s2 s3
    have hs1 : Keeps _ _ s1 := ctxWrite_keeps.after h rfl
    have hs2 : Keeps _ _ s2 := State.updSrvModel_keeps.after hs1 rfl
    have hs3 : Keeps _ _ s3 := State.setSrvEntry_keeps.after hs2 rfl
    exact .ite (srvErr_keeps.after (finishOp_keeps.after (State.setSrvEntry_keeps.after h rfl) rfl) rfl)
      (srvCnt_keeps.after (finishOp_keeps.after hs3 rfl) rfl)

theorem specSrvResume_keeps : SpecKeeps Scope.serving.parts specSrvResume := by
  refine ⟨fun i p s h => ?_, fun _ h => h⟩
  unfold specSrvResume
  dsimp -zeta only
  extract_lets k space e m n
  split
  · exact trivial
  · exact .ite trivial (.ite trivial (.ite trivial (.ite trivial
      (.ite trivial (.ite (srvErr_keeps.after h rfl) (.ite (srvErr_keeps.after h rfl) (State.setSrvEntry_keeps.after h rfl)))))))

theorem execSummaryRestoreComplete_ends {k : Nat} {ok : Bool} : Ends Scope.serving.parts s (execSummaryRestoreComplete k ok s) := .chain fun h => by
  unfold execSummaryRestoreComplete
  extract_lets e b n s1 s2
  have hs1 : Keeps _ _ s1 := State.updSrvModel_keeps.after h rfl
  have hs2 : Keeps _ _ s2 := State.setSrvEntry_keeps.after hs1 rfl
  split
  · exact h
  · refine .ite h (.ite (srvErr_keeps.after (finishOp_keeps.after hs2 rfl) rfl) ?_)
    extract_lets bs s3 s4
    have hs3 : Keeps Scope.serving.parts _ s3 := .foldl (fun _ _ h1 => hbmWrite_keeps.after h1 rfl) h
    have hs4 : Keeps _ _ s4 := hbmWrite_keeps.after hs3 rfl
    exact State.setSrvEntry_keeps.after hs4 rfl

theorem specSrvPrefixCreate_keeps : SpecKeeps Scope.serving.parts specSrvPrefixCreate := by
  refine ⟨fun i p s h => ?_, fun _ h => h⟩
  unfold specSrvPrefixCreate
  dsimp -zeta only
  extract_lets h1 k n e pages s1
  have hs1 : Keeps _ _ s1 := State.updSrvModel_keeps.after h rfl
  split
  · exact trivial
  · exact .ite trivial (.ite trivial (.ite trivial (.ite trivial (.ite trivial (Keeps.update hs1 rfl)))))

theorem specSrvPrefixRelease_keeps : SpecKeeps Scope.serving.parts specSrvPrefixRelease := by
  refine ⟨fun i p s h => ?_, fun _ h => h⟩
  unfold specSrvPrefixRelease
  dsimp -zeta only
  split
  · exact trivial
  · extract_lets s1
    have hs1 : Keeps _ _ s1 := State.updSrvModel_keeps.after h rfl
    exact Keeps.update hs1 rfl

theorem specSrvSamplerSet_keeps : SpecKeeps Scope.serving.parts specSrvSamplerSet := by
  refine ⟨fun i p s h => ?_, fun _ h => h⟩
  unfold specSrvSamplerSet
  dsimp -zeta only
  extract_lets b
  split
  · exact trivial
  · exact h

/-! ### ServeStep -/

end Sys2Proof.Machine
end

section
/-! PROOFS for 95_what_each_step_holds.md: served steps, resets, boot, the forward block. -/

namespace Sys2Proof.Machine
open Sys2Proof

variable {s : State}

/-! ### ServeStep -/

theorem countTok_keeps {a tok : Nat} : Keeps { units := true, host := true, hbm := true } s (countTok a tok s).1 := .chain fun h => by
  unfold countTok
  extract_lets l
  split
  · exact hbmWrite_keeps.after h rfl
  · split
    · exact hbmWrite_keeps.after h rfl
    exact h

theorem entryCount_keeps {k tok : Nat} : Keeps { units := true, host := true, srv := true, hbm := true } s (entryCount k tok s) := .chain fun h => by
  unfold entryCount
  extract_lets e
  split
  rename_i e1
  have ht := Keeps.fst e1 (countTok_keeps.after h rfl)
  exact .ite (State.updSrvEntry_keeps.after ht rfl) ht

theorem addBent_keeps {m : Nat} {r : RecEnt} : Keeps Scope.sampler.parts s (addBent m r s) := .chain fun h =>
  State.updSrvModel_keeps.after h rfl

theorem boundaryEntry_keeps {m k : Nat} : Keeps Scope.prism.parts s (boundaryEntry m k s) := .chain fun h => by
  unfold boundaryEntry
  extract_lets e x s1
  have hs1 : Keeps _ _ s1 := State.setSrvEntry_keeps.after h rfl
  refine .ite (.ite h (srvRelease_keeps.after h rfl)) (.ite (srvRelease_keeps.after (addBent_keeps.after h rfl) rfl)
    (.ite (srvRelease_keeps.after (addBent_keeps.after (srvDropOps_keeps.after h rfl) rfl) rfl) ?_))
  split
  · exact .ite h (.ite (finishOp_keeps.after (State.setSrvEntry_keeps.after h rfl) rfl) (State.setSrvEntry_keeps.after h rfl))
  · split
    · exact .ite (srvCnt_keeps.after (finishOp_keeps.after (addBent_keeps.after hs1 rfl) rfl) rfl) h
    · exact h

theorem boundaryPass_keeps {m : Nat} {sts : List Nat} : Keeps Scope.prism.parts s (boundaryPass m sts s) := .chain fun h =>
  .foldl (fun _ _ h1 => boundaryEntry_keeps.after h1 rfl) h

theorem fillDeficits_keeps {m : Nat} : Keeps Scope.sampler.parts s (fillDeficits m s) := .chain fun h =>
  .foldl (fun _ _ h1 => State.setSrvQueue_keeps.after h1 rfl) h

theorem askBlocks_keeps {m : Nat} : Keeps Scope.serving.parts s (askBlocks m s) := .chain fun h =>
  .ite (.foldl (fun _ _ h1 => .ite (openAsk_keeps.after (State.setSrvEntry_keeps.after h1 rfl) rfl) h1) h) h

theorem takeIn_keeps {k : Nat} : Keeps Scope.sampler.parts s (takeIn k s) := .chain fun h => by
  unfold takeIn
  extract_lets e m spare slot prompt _ s1 e1 s2 set s3
  have hs1 : Keeps _ _ s1 := State.setSrvModel_keeps.after h rfl
  have hs2 : Keeps _ _ s2 := hbmWrite_keeps.after (State.setSrvEntry_keeps.after hs1 rfl) rfl
  have hs3 : Keeps Scope.sampler.parts _ s3 := .ite (.foldl (fun _ _ h1 => entryCount_keeps.after h1 rfl) hs2) hs2
  exact srvCnt_keeps.after hs3 rfl

theorem nextPage_keeps {k : Nat} : Keeps Scope.sampler.parts s (nextPage k s).2 := .chain fun h => by
  unfold nextPage
  extract_lets e p
  split
  · exact State.setSrvEntry_keeps.after h rfl
  · exact State.updSrvModel_keeps.after h rfl

theorem placePages_keeps {k count : Nat} : Keeps Scope.sampler.parts s (placePages k count s).1 := .chain fun {o} h => by
  unfold placePages
  extract_lets e m b cow i old s1 s2 e1
  have hs1 : Keeps Scope.sampler.parts o s1 := by
    unfold s1
    refine .ite ?_ h
    split
    rename_i e2
    have ht := Keeps.snd e2 (nextPage_keeps.after h rfl)
    extract_lets s3 s4
    have hs3 : Keeps _ _ s3 := hbmWrite_keeps.after ht rfl
    have hs4 : Keeps _ _ s4 := State.updSrvModel_keeps.after hs3 rfl
    exact srvCnt_keeps.after (State.updSrvEntry_keeps.after hs4 rfl) rfl
  have hs2 : Keeps Scope.sampler.parts o s2 := by
    unfold s2
    refine .foldl (fun s3 x1 h1 => ?_) hs1
    split
    rename_i e2
    have ht := Keeps.snd e2 (nextPage_keeps.after h1 rfl)
    exact State.updSrvEntry_keeps.after ht rfl
  exact hbmWrite_keeps.after hs2 rfl

theorem takeCand_keeps {m k : Nat} : Keeps Scope.sampler.parts s (takeCand m k s) := .chain fun h => by
  unfold takeCand
  extract_lets cost s1
  have hs1 : Keeps _ _ s1 := .ite (takeIn_keeps.after h rfl) h
  split
  rename_i e
  have ht := Keeps.fst e (placePages_keeps.after hs1 rfl)
  extract_lets e1 tokens s2 q
  have hs2 : Keeps _ _ s2 := State.updSrvModel_keeps.after ht rfl
  exact State.setSrvQueue_keeps.after hs2 rfl

theorem batchPass_keeps {m : Nat} {first : Bool} {l : List (Nat × SrvEntry)} :
    Keeps Scope.sampler.parts s (batchPass m first l s) := .chain fun h => by
  induction l generalizing s with
  | nil => exact h
  | cons x l ih =>
    unfold batchPass
    extract_lets x1 e toks traffic cost
    exact .ite (ih h) (ih (takeCand_keeps.after h rfl))

theorem startRestores_keeps {m : Nat} : Keeps Scope.sampler.parts s (startRestores m s) := .chain fun h =>
  .foldl (fun _ _ h1 => .ite (hbmWrite_keeps.after (State.setSrvEntry_keeps.after (State.setSrvModel_keeps.after h1 rfl) rfl) rfl) h1) h

theorem handOver_keeps {m : Nat} : Keeps Scope.whole.parts s (handOver m s) := .chain fun h => by
  unfold handOver
  extract_lets x b step toks head s1 s2 s3
  have hs1 : Keeps _ _ s1 := hbmWrite_keeps.after h rfl
  have hs2 : Keeps _ _ s2 := hbmWrite_keeps.after hs1 rfl
  have hs3 : Keeps _ _ s3 := State.setSrvModel_keeps.after hs2 rfl
  exact .ite (ringPut_keeps.after hs3 rfl) (State.sweepsTo_keeps.after hs3 rfl)

theorem execServingBoundary_ends {m : Nat} : Ends Scope.whole.parts s (execServingBoundary m s) := .chain fun h => by
  refine .ite h ?_
  extract_lets s1 s2 s3 x s4 full s5 s6
  have hs3 : Keeps _ _ s3 := boundaryPass_keeps.after (boundaryPass_keeps.after
    (boundaryPass_keeps.after (boundaryPass_keeps.after h rfl) rfl) rfl) rfl
  have hs4 : Keeps _ _ s4 := State.setSrvModel_keeps.after hs3 rfl
  have hs5 : Keeps _ _ s5 := startRestores_keeps.after (askBlocks_keeps.after (fillDeficits_keeps.after hs4 rfl) rfl) rfl
  have hs6 : Keeps _ _ s6 := .ite hs4 (batchPass_keeps.after (batchPass_keeps.after hs5 rfl) rfl)
  clear_value s6 s5 s4 s3
  exact .ite hs3 (.ite (handOver_keeps.after hs6 rfl) (.ite (State.updSrvModel_keeps.after hs6 rfl) hs6))

theorem stepFail_keeps {m : Nat} {bits_ : List Nat} : Keeps (Parts.tells.join { srv := true }) s (stepFail m bits_ s) := .chain fun h => by
  unfold stepFail
  extract_lets x ix s1 s2
  have hs1 : Keeps (Parts.tells.join { srv := true }) _ s1 := .foldl (fun _ _ h1 => srvErr_keeps.after h1 rfl) h
  have hs2 : Keeps _ _ s2 := State.setSrvModel_keeps.after hs1 rfl
  exact raise_keeps.after (.update hs2 rfl) rfl

theorem execExecutorDone_ends {m : Nat} {handle : Bytes} : Ends Scope.serving.parts s (execExecutorDone m handle s) := .chain fun {o} h => by
  unfold execExecutorDone
  extract_lets x n go j r a bad h1 s1
  have hgo : ∀ h2 s2, Keeps Scope.serving.parts o s2 → Keeps Scope.serving.parts o (go h2 s2) :=
    fun _ _ h3 => Keeps.ite (stepFail_keeps.after h3 rfl) (Keeps.ite (State.updSrvModel_keeps.after h3 rfl)
      (Keeps.ite (stepFail_keeps.after h3 rfl) (Keeps.ite (stepFail_keeps.after h3 rfl)
    (State.updSrvModel_keeps.after h3 rfl))))
  have hs1 : Keeps _ _ s1 := State.setRing_keeps.after h rfl
  exact .ite h (.ite (.ite h (Keeps.ite (stepFail_keeps.after hs1 rfl) (hgo _ _ hs1))) (.ite h (hgo _ _ h)))

theorem samplerRun_keeps {m row lens : Nat} : Keeps Scope.sampler.parts s (samplerRun m row lens s) := .chain fun h => by
  unfold samplerRun
  extract_lets x b inst sz
  split
  · extract_lets e r slot set temp bs s1 k xs q s2 s3
    have hs1 : Keeps _ _ s1 := lensWrite_keeps.after (lensSuspend_keeps.after h rfl) rfl
    have hs2 : Keeps _ _ s2 := lensCounts_keeps.after (spent_keeps.after (spent_keeps.after (lensLast_keeps.after hs1 rfl) rfl) rfl) rfl
    have hs3 : Keeps _ _ s3 := State.updUnit_keeps.after hs2 rfl
    exact .ite (stepFail_keeps.after h rfl) (.ite (stepFail_keeps.after (lensNote_keeps.after h rfl) rfl)
      (.ite (stepFail_keeps.after h rfl) (bump_keeps.after (.update hs3 rfl) rfl)))
  · exact h

theorem samplerServe_keeps {lens : Nat} : Keeps Scope.sampler.parts s (samplerServe lens s) := .chain fun h =>
  .foldl (fun _ _ h1 => .ite (samplerRun_keeps.after h1 rfl) h1) h

theorem execSamplerRequest_ends {m row lens : Nat} : Ends Scope.sampler.parts s (execSamplerRequest m row lens s) := .chain fun h => by
  unfold execSamplerRequest
  extract_lets x b inst _ s1
  have hs1 : Keeps _ _ s1 := h
  exact .ite h (Keeps.ite hs1 (samplerServe_keeps.after hs1 rfl))

theorem execPrismRowAccept_ends {lens : Nat} : Ends Scope.prism.parts s (execPrismRowAccept lens s) := .chain fun h => by
  unfold execPrismRowAccept
  split
  · exact h
  · extract_lets ch w
    split
    · exact h
    · extract_lets tag p s1 s2 s3
      have hs1 : Keeps _ _ s1 := .ite (State.setPring_keeps.after h rfl) h
      have hs2 : Keeps _ _ s2 := State.updChan_keeps.after hs1 rfl
      have hs3 : Keeps _ _ s3 := .ite hs2 (spent_keeps.after hs2 rfl)
      refine .ite h ?_
      split
      · exact raise_keeps.after (pringNotice_keeps.after (pringReset_keeps.after (setErr_keeps.after h rfl) rfl) rfl) rfl
      · split
        extract_lets s4 s5 s6
        have hs4 : Keeps _ _ s4 := fly_keeps.after hs3 rfl
        have hs5 : Keeps Scope.prism.parts _ s5 := .foldl (fun _ _ h1 => .ite h1 (bump_keeps.after h1 rfl)) hs4
        have hs6 : Keeps _ _ s6 := spent_keeps.after (lensRowDone_keeps.after hs5 rfl) rfl
        split
        · exact .ite (samplerServe_keeps.after (lensEnd_keeps.after hs6 rfl) rfl) (lensRun_keeps.after (samplerServe_keeps.after hs6 rfl) rfl)
        · exact hs6

theorem execRowSample_ends {m row : Nat} : Ends Scope.serving.parts s (execRowSample m row s) := .chain fun {o} h => by
  unfold execRowSample
  extract_lets x _ s1
  have hs1 : Keeps _ _ s1 := h
  split
  · refine .ite h ?_
    extract_lets e ents y
    split
    extract_lets s2 missed s3 drawn
    have hs2 : Keeps Scope.serving.parts o s2 := by
      unfold s2
      split
      · exact Keeps.ite hs1 (entryCount_keeps.after hs1 rfl)
      · exact hs1
    have hs3 : Keeps _ _ s3 := .ite (bump_keeps.after hs2 rfl) hs2
    exact State.updSrvModel_keeps.after hs3 rfl
  · exact h

theorem endEntry_keeps {m : Nat} {p : PlanEnt} {row : Nat} : Keeps Scope.serving.parts s (endEntry m p row s).1 := .chain fun h => by
  unfold endEntry
  extract_lets x e r none_ done set len
  split
  · exact h
  split
  · exact State.updSrvEntry_keeps.after (srvDropOps_keeps.after h rfl) rfl
  split
  · exact State.setSrvEntry_keeps.after h rfl
  split
  · extract_lets stop fin status s1 s2
    have hs1 : Keeps _ _ s1 := .ite (srvDropOps_keeps.after h rfl) h
    have hs2 : Keeps _ _ s2 := State.updSrvEntry_keeps.after hs1 rfl
    exact hs2
  · exact srvErr_keeps.after (State.updSrvEntry_keeps.after (srvDropOps_keeps.after h rfl) rfl) rfl

theorem endEntries_keeps {m : Nat} {l : List PlanEnt} {n : Nat} : Keeps Scope.serving.parts s (endEntries m l n s).1 := .chain fun h => by
  induction l generalizing n s with
  | nil => exact h
  | cons x l ih =>
    unfold endEntries
    split
    rename_i e
    have ht := Keeps.fst e (endEntry_keeps.after h rfl)
    split
    rename_i e1
    have ht1 := Keeps.fst e1 (ih ht)
    exact ht1

theorem putSlots_keeps {j : Nat} {rec : Bytes} {n : Nat} : Keeps Parts.records s (putSlots j rec n s) := .chain fun h =>
  .ite (sendMsix_keeps.after (State.setRing_keeps.after (.foldl (fun _ _ h1 => spaceWrite_keeps.after h1 rfl) h) rfl) rfl)
    (State.setRing_keeps.after (.foldl (fun _ _ h1 => spaceWrite_keeps.after h1 rfl) h) rfl)

theorem execStepRecordWrite_ends {m : Nat} : Ends Scope.serving.parts s (execStepRecordWrite m s) := .chain fun {o} h => by
  unfold execStepRecordWrite
  extract_lets x b j r step bs late toks dec
  have he : Keeps Scope.serving.parts o (if step then endEntries m x.plan 0 s else (s, [])).1 := by
    split
    · exact endEntries_keeps.after h rfl
    · exact h
  refine .ite h ?_
  split
  next e =>
    have ht := Keeps.fst e he
    extract_lets ents size n head s1 s2 s3 s4
    have hs2 : Keeps _ _ s2 := State.updSrvModel_keeps.after (putSlots_keeps.after ht rfl) rfl
    have hs3 : Keeps _ _ s3 := .ite (srvCnt_keeps.after (srvCnt_keeps.after (srvCnt_keeps.after hs2 rfl) rfl) rfl) hs2
    exact .ite (State.updSrvModel_keeps.after h rfl) (srvSweepModel_keeps.after (srvCnt_keeps.after (srvCnt_keeps.after hs3 rfl) rfl) rfl)

theorem execTokenChunkSend_ends {k n : Nat} : Ends Scope.serving.parts s (execTokenChunkSend k n s) := .chain fun h => by
  unfold execTokenChunkSend
  extract_lets e m ch n1 last bs
  split
  · exact h
  · extract_lets p s1 s2
    have hs1 : Keeps _ _ s1 := State.setPring_keeps.after h rfl
    have hs2 : Keeps _ _ s2 := .ite (State.updChan_keeps.after hs1 rfl) (prismSend_keeps.after hs1 rfl)
    exact .ite h (bump_keeps.after (State.setSrvEntry_keeps.after hs2 rfl) rfl)

theorem execTokenChunkLand_ends {ring : Nat} : Ends Scope.serving.parts s (execTokenChunkLand ring s) := .chain fun h => by
  unfold execTokenChunkLand
  extract_lets ch n p
  split
  · exact h
  · exact .ite h (landChunk_keeps.after (State.updChan_keeps.after h rfl) rfl)

/-! ### System -/

theorem specSysNop_keeps : SpecKeeps {} specSysNop := ⟨fun _ _ _ h => h, fun _ h => h⟩

theorem specSysEcho_keeps : SpecKeeps {} specSysEcho := ⟨fun _ _ _ h => h, fun _ h => h⟩

theorem specSysInfo_keeps : SpecKeeps {} specSysInfo := ⟨fun _ _ _ h => h, fun _ h => h⟩

theorem specSysTime_keeps : SpecKeeps {} specSysTime := ⟨fun _ _ _ h => h, fun _ h => h⟩

theorem specSysEventRing_keeps :
    SpecKeeps Parts.records specSysEventRing := ⟨fun _ _ _ h => .ite (State.updCtx_keeps.after h rfl)
      (.ite trivial (.ite trivial (.ite trivial (drainEvents_keeps.after (State.updCtx_keeps.after h rfl) rfl)))), fun _ h => h⟩

theorem specSysReset_keeps : SpecKeeps Parts.records specSysReset := ⟨fun _ _ _ h => .ite trivial (.ite trivial h), fun _ h => h⟩

theorem execSnapTake_ends {ty inst : Nat} : Ends Scope.register.parts s (execSnapTake ty inst s) := .chain fun h => by
  refine .ite h ?_
  extract_lets u
  exact .ite (State.setUnit_keeps.after h rfl) (State.setUnit_keeps.after h rfl)

theorem execSnapCaptureComplete_ends {ty inst : Nat} : Ends Scope.register.parts s (execSnapCaptureComplete ty inst s) := .chain fun h => by
  unfold execSnapCaptureComplete
  extract_lets u _ v
  exact .ite h (State.setUnit_keeps.after h rfl)

/-! ### Reset -/

theorem suCut_keeps {d : Bytes} {core : Nat} {segs : List Seg} : Keeps Scope.task.parts s (suCut d core segs s) := .chain fun h => by
  refine .foldl (fun s1 x1 h1 => ?_) h
  split
  rename_i e
  have ht := Keeps.snd e (freshBytes_keeps.after h1 rfl)
  split
  · exact hbmWrite_keeps.after ht rfl
  · exact hostWrite_keeps.after ht rfl
  · exact sramWrite_keeps.after ht rfl
  · exact ht

theorem taskAbort_keeps {j : Nat} : Keeps Scope.task.parts s (taskAbort j s) := .chain fun h => by
  unfold taskAbort
  extract_lets r ty k
  split
  · exact h
  · refine .ite h (.ite (fillAbort_keeps.after h rfl) (.ite (suSettle_keeps.after
      (suCut_keeps.after (State.updRing_keeps.after (suFault_keeps.after h rfl) rfl) rfl) rfl)
      (.ite (lensEnd_keeps.after h rfl) (.ite (prismEnd_keeps.after h rfl)
      (.ite (finish_keeps.after (bump_keeps.after h rfl) rfl) (.ite (npEnd_keeps.after h rfl) (.ite (kdEnd_keeps.after h rfl) ?_)))))))
    split
    · exact vecEnd_keeps.after h rfl
    · exact .ite (State.updUpd_keeps.after (finish_keeps.after h rfl) rfl) (finish_keeps.after h rfl)

theorem coreDrop_keeps {j : Nat} : Keeps Scope.task.parts s (coreDrop j s) := .chain fun h => by
  unfold coreDrop
  extract_lets r
  split
  · exact h
  · next k _ =>
    exact State.updCore_keeps.after (mayLand_keeps.after h rfl) rfl

theorem ringEnd_keeps {j : Nat} {write : Bool} : Keeps Scope.task.parts s (ringEnd j write s) := .chain fun {o} h => by
  unfold ringEnd
  extract_lets r s1 s2
  have hs1 : Keeps _ _ s1 := taskAbort_keeps.after (handleWait_keeps.after h rfl) rfl
  have hs2 : Keeps Scope.task.parts o s2 := by
    unfold s2
    split
    · split
      · exact release_keeps.after (dropHeld_keeps.after hs1 rfl) rfl
      · exact dropHeld_keeps.after hs1 rfl
    split
    · exact completeCur_keeps.after (State.updRing_keeps.after hs1 rfl) rfl
    · exact .ite (recordDesc_keeps.after (consume_keeps.after hs1 rfl) rfl)
        (.ite (recordDesc_keeps.after (consume_keeps.after (dropHeld_keeps.after hs1 rfl) rfl) rfl) hs1)
    · exact .ite (putRecord_keeps.after (dropHeld_keeps.after hs1 rfl) rfl) hs1
  exact State.updRing_keeps.after (coreDrop_keeps.after hs2 rfl) rfl

theorem lensQueued_keeps {j : Nat} : Keeps Scope.task.parts s (lensQueued j s) := .chain fun h => by
  refine .ite (ringEnd_keeps.after h rfl) ?_
  refine .foldl (fun s1 x1 h1 => ?_) (ringEnd_keeps.after h rfl)
  split
  · exact .ite h1 (recordDesc_keeps.after h1 rfl)
  · exact h1

theorem opAbort_keeps {o : PendingOp} : Keeps Scope.mailbox.parts s (opAbort o s) := .chain fun h => by
  refine .ite ?_ (finishOp_keeps.after h rfl)
  split
  rename_i e
  have ht := Keeps.snd e (freshBytes_keeps.after h rfl)
  exact finishOp_keeps.after (spaceWrite_keeps.after ht rfl) rfl

theorem opsAbort_keeps {cs : List Nat} : Keeps Scope.image.parts s (opsAbort cs s) := .chain fun h => by
  refine .foldl (fun _ _ h1 => opAbort_keeps.after h1 rfl) ?_
  exact .foldl (fun _ _ h1 => .foldl (fun _ _ h2 => .ite (writeEnd_keeps.after h2 rfl) h2) h1) h

theorem atAcceptance_keeps : ∀ k ∈ atAcceptance, SpecKeeps Scope.whole.parts k := by
  simp only [atAcceptance, List.cons_append, List.nil_append, List.forall_mem_cons]
  exact ⟨specSysNop_keeps.mono rfl, specSysEcho_keeps.mono rfl, specSysInfo_keeps.mono rfl, specSysTime_keeps.mono rfl,
    specSysEventRing_keeps.mono rfl, specSysReset_keeps.mono rfl, specCfgBegin_keeps.mono rfl, specCfgSet_keeps.mono rfl,
    specCfgRollback_keeps.mono rfl, specCfgQuery_keeps.mono rfl, specCtxCreate_keeps.mono rfl, specCtxSetQuota_keeps.mono rfl,
    specCtxQuery_keeps.mono rfl, specCtxAssignMailbox_keeps.mono rfl, specCtxReleaseMailbox_keeps.mono rfl, specCtxAgentStart_keeps.mono rfl,
    specCtxAgentStop_keeps.mono rfl, specCtxAgentUnload_keeps.mono rfl, specMemAlloc_keeps.mono rfl, specMemFree_keeps.mono rfl,
    specMemMapHost_keeps.mono rfl, specMemUnmapHost_keeps.mono rfl, specMemQuery_keeps.mono rfl, specRingCreate_keeps.mono rfl,
    specRingDestroy_keeps.mono rfl, specRingQuery_keeps.mono rfl, by simp⟩

theorem waitedEnd_keeps {cs : List Nat} : Keeps Scope.whole.parts s (waitedEnd cs s) := .chain fun h => by
  refine .foldl (fun s m h => ?_) h
  split
  · refine .ite ?_ h
    extract_lets t
    refine mctpReply_keeps.after ?_ rfl
    split
    · next k hk =>
      refine (runWaited_keeps (F := Scope.whole.parts) rfl ?_).after (State.setMb_keeps.after h rfl) rfl
      rintro _ ⟨⟩
      exact atAcceptance_keeps k (List.mem_of_find?_eq_some hk)
    · exact answer_keeps.after (State.setMb_keeps.after h rfl) rfl
  · exact h

theorem jobReset_keeps {h : Nat} {notice : Bool} : Keeps Parts.jobEnds s (jobReset h notice s) := .chain fun hw => by
  unfold jobReset
  split
  · exact hw
  · extract_lets s1 live s2
    have hs1 : Keeps Parts.jobEnds _ s1 := .ite (.foldl (fun _ _ h1 => .ite (inconsistent_keeps.after (setErr_keeps.after h1 rfl) rfl) h1) hw) hw
    have hs2 : Keeps Parts.jobEnds _ s2 := .foldl (fun _ _ h1 => pringReset_keeps.after h1 rfl) hs1
    exact jobAbort_keeps.after (.ite (pringNotice_keeps.after hs2 rfl) hs2) rfl

theorem resetStop_keeps {cs : List Nat} {write : Bool} : Keeps Scope.whole.parts s (resetStop cs write s) := .chain fun {o} h => by
  unfold resetStop
  extract_lets s1 s2 s3 js s4 hs s5
  have hs1 : Keeps _ _ s1 := waitedEnd_keeps.after (opsAbort_keeps.after h rfl) rfl
  have hs2 : Keeps Scope.whole.parts _ s2 := .foldl (fun _ _ h1 => State.updCtx_keeps.after h1 rfl) hs1
  have hs3 : Keeps Scope.whole.parts o s3 := by
    unfold s3
    refine .foldl (fun s6 x1 h1 => ?_) hs2
    split
    · exact .ite (dropTxn_keeps.after h1 rfl) h1
    · exact h1
  have hs4 : Keeps Scope.whole.parts _ s4 := .foldl (fun _ _ h1 => .ite (lensQueued_keeps.after h1 rfl) (ringEnd_keeps.after h1 rfl)) hs3
  have hs5 : Keeps Scope.whole.parts _ s5 := .foldl (fun _ _ h1 => jobReset_keeps.after h1 rfl) hs4
  exact .foldl (fun _ _ h1 => srvDrop_keeps.after h1 rfl) hs5

theorem coreClear_keeps {k : Nat} : Keeps Scope.memory.parts s (coreClear k s) := .chain fun h => by
  unfold coreClear
  extract_lets x s1
  have hs1 : Keeps _ _ s1 := State.setCore_keeps.after (sramClear_keeps.after h rfl) rfl
  split
  · exact completeHeld_keeps.after hs1 rfl
  · exact hs1

theorem clearCores_keeps {cs : List Nat} : Keeps Scope.memory.parts s (clearCores cs s) := .chain fun h =>
  .foldl (fun _ _ h1 => .ite (coreClear_keeps.after h1 rfl) h1) h

theorem leaveGroups_keeps {cs : List Nat} : Keeps Scope.mirror.parts s (leaveGroups cs s) := .chain fun h =>
  .foldl (fun _ _ h1 => sendMsg_keeps.after h1 rfl) h

theorem leaveMirror_keeps {hs gs : List Nat} : Keeps Scope.head.parts s (leaveMirror hs gs s) := .chain fun h => by
  unfold leaveMirror
  extract_lets m m1
  split
  · exact .ite h h
  · exact h

theorem ctxAfter_keeps {keep : Bool} {c : Nat} : Keeps Scope.security.parts s (ctxAfter keep c s) := .chain fun h =>
  .ite (State.setCtx_keeps.after h rfl) (.ite (State.setCtx_keeps.after h rfl) (State.setCtx_keeps.after h rfl))

theorem State.releaseTo_keeps {rings : List (Nat × Ring)} {prings : List (Nat × PRing)} {lens : List (Nat × LensTask)}
    {jobs : List (Nat × Job)} {upds : List (Nat × Upd)} {step : StepState} {host : HostPort} {log : LogState} :
    Keeps Scope.job.parts s { s with rings, prings, lens, jobs, upds, step, host, log } := rfl

theorem release4_keeps {keep : Bool} {cs : List Nat} : Keeps Scope.whole.parts s (release4 keep cs s) := .chain fun {o} h => by
  unfold release4
  extract_lets s1 hs gs student s2 s3 s4 s5 _ _ s6 s7
  have hs2 : Keeps Scope.whole.parts _ s2 := .foldl (fun _ _ h => unbind_keeps.after h rfl) (clearCores_keeps.after h rfl)
  have hs4 : Keeps Scope.whole.parts _ s4 := .foldl (fun _ _ h => .ite (agentUnload_keeps.after h rfl) h)
    (leaveMirror_keeps.after (leaveGroups_keeps.after hs2 rfl) rfl)
  have hs5 : Keeps Scope.whole.parts _ s5 := .foldl (fun _ _ h => freePages_keeps.after h rfl) hs4
  clear_value s5
  have hs6 : Keeps Scope.whole.parts o s6 := State.releaseTo_keeps.after hs5 rfl
  clear_value s6
  have hs7 : Keeps _ _ s7 := .ite hs6 (.update hs6 rfl)
  exact .foldl (fun _ _ h => ctxAfter_keeps.after h rfl) hs7

theorem State.sysTo_keeps {x : Sys} : Keeps { sys := true } s { s with sys := x } := rfl

theorem ctxBegin_keeps {c : Nat} {destroy : Bool} {op : Nat × Nat} : Keeps Scope.whole.parts s (ctxBegin c destroy op s) := .chain fun h =>
  .ite (State.updCtx_keeps.after (State.sysTo_keeps.after h rfl) rfl) (resetStop_keeps.after (State.sysTo_keeps.after h rfl) rfl)

theorem specCtxDestroy_keeps :
    SpecKeeps Scope.whole.parts specCtxDestroy := ⟨fun _ _ _ h => .ite trivial (.ite trivial (ctxBegin_keeps.after h rfl)), fun _ h => h⟩

theorem specCtxReset_keeps :
    SpecKeeps Scope.whole.parts specCtxReset := ⟨fun _ _ _ h => .ite trivial (.ite trivial (.ite trivial (ctxBegin_keeps.after h rfl))), fun _ h => h⟩

theorem cfgDecide_keeps : Keeps Scope.config.parts s (cfgDecide s) := .chain fun h => by
  unfold cfgDecide
  split
  · exact h
  · split
    split
    rename_i e
    have ht := Keeps.snd e (cfgClose_keeps.after h rfl)
    extract_lets r
    split
    · exact finishOp_keeps.after ht rfl
    · exact .ite (planEnd_keeps.after ht rfl) (completeHeld_keeps.after ht rfl)

theorem cfgPurge_keeps {cs : List Nat} : Keeps Scope.config.parts s (cfgPurge cs s) := .chain fun {o} h => by
  unfold cfgPurge
  extract_lets gone s1
  have hs1 : Keeps Scope.config.parts o s1 := by
    unfold s1
    refine .foldl (fun s2 x1 h1 => ?_) h
    refine .ite h1 ?_
    split
    · exact finishOp_keeps.after h1 rfl
    · exact .ite h1 (completeHeld_keeps.after h1 rfl)
  exact .update hs1 rfl

theorem bigReset_keeps {kind : Nat} {cs : List Nat} : Keeps Scope.whole.parts s (bigReset kind cs s) := .chain fun h =>
  resetStop_keeps.after (cfgPurge_keeps.after (cfgDecide_keeps.after h rfl) rfl) rfl

theorem execPcieFlr_ends : Ends Scope.whole.parts s (execPcieFlr s) := .chain fun h => by
  refine .ite h ?_
  extract_lets _ _ s1
  have hs1 : Keeps _ _ s1 := h
  exact bigReset_keeps.after hs1 rfl

theorem warmBegin_keeps : Keeps Scope.whole.parts s (warmBegin s) := .chain fun h =>
  .ite h (bigReset_keeps.after h rfl)

theorem linkReset_keeps : Keeps Scope.hostPort.parts s (linkReset s) := rfl

theorem execPerstNAssert_ends : Ends Scope.whole.parts s (execPerstNAssert s) := .chain fun h => by
  unfold execPerstNAssert
  extract_lets _ s1
  have hs1 : Keeps _ _ s1 := h
  exact .ite hs1 (linkReset_keeps.after (warmBegin_keeps.after hs1 rfl) rfl)

theorem resetOps_keeps {ops : List (Nat × Nat)} : Keeps Scope.mailbox.parts s (resetOps ops s) := .chain fun h =>
  .foldl (fun _ _ h1 => finishOp_keeps.after h1 rfl) h

theorem programPending_keeps : Keeps Scope.loupe.parts s (programPending s) := .chain fun h =>
  .foldl (fun _ _ h1 => storeCnt_keeps.after (State.updCtl_keeps.after h1 rfl) rfl) h

theorem swapSlot_keeps : Keeps Scope.loupe.parts s (swapSlot s) := .chain fun h => by
  unfold swapSlot
  extract_lets a b l _ _ l1 l2 x
  exact .ite h (logPush_keeps.after h rfl)

theorem firmwareStop_keeps : Keeps Scope.whole.parts s (firmwareStop s) := .chain fun {o} h => by
  unfold firmwareStop
  extract_lets s1 resv s2 oos _ _ _ _ s3 s4
  have hs2 : Keeps Scope.whole.parts o s2 := by
    refine .foldl (fun s r h => ?_) (programPending_keeps.after h rfl)
    split
    · exact freePages_keeps.after h rfl
    · exact h
  clear_value s2
  have hs3 : Keeps _ _ s3 := .update (.update hs2 rfl) rfl
  have hs4 : Keeps Scope.whole.parts _ s4 := .foldl (fun _ _ h => .ite (portTo_keeps.after (portHold_keeps.after h rfl) rfl) h) hs3
  exact swapSlot_keeps.after hs4 rfl

theorem execResetWritesSettled_ends : Ends Scope.whole.parts s (execResetWritesSettled s) := .chain fun h => by
  unfold execResetWritesSettled
  extract_lets ready
  split
  · exact h
  · extract_lets s1 s2 s3 _ s4
    have hs1 : Keeps _ _ s1 := .update h rfl
    have hs3 : Keeps _ _ s3 := release4_keeps.after (.ite hs1 (resetStop_keeps.after hs1 rfl)) rfl
    clear_value s3
    have hs4 : Keeps _ _ s4 := .update hs3 rfl
    exact .ite (resetOps_keeps.after hs3 rfl) (.ite (planKick_keeps.after (cfgStart_keeps.after (resetOps_keeps.after hs4 rfl) rfl) rfl)
      (firmwareStop_keeps.after hs3 rfl))

theorem engineRing_keeps {j : Nat} : Keeps Scope.task.parts s (engineRing j s) := .chain fun h =>
  State.updRing_keeps.after (ringEnd_keeps.after h rfl) rfl

theorem engineStop_keeps {ty inst : Nat} : Keeps Scope.engine.parts s (engineStop ty inst s) := .chain fun h => by
  unfold engineStop
  extract_lets s1 s2 ns
  have hs1 : Keeps Scope.engine.parts _ s1 := .foldl (fun _ _ h1 => engineRing_keeps.after h1 rfl) h
  have hs2 : Keeps _ _ s2 := State.updUnit_keeps.after hs1 rfl
  refine .ite (.foldl (fun _ _ h1 => pringNotice_keeps.after (pringReset_keeps.after h1 rfl) rfl) hs2) (.ite ?_ hs2)
  split
  · exact jobAbort_keeps.after (inconsistent_keeps.after (setErr_keeps.after hs2 rfl) rfl) rfl
  · exact hs2

theorem execEngineReset_ends {ty inst : Nat} : Ends Scope.engine.parts s (execEngineReset ty inst s) := .chain fun h => by
  refine .ite h ?_
  extract_lets us cs s1 day out s2 s3 e
  have hs1 : Keeps Scope.engine.parts _ s1 := .foldl (fun _ _ h1 => engineStop_keeps.after h1 rfl) h
  have hs2 : Keeps _ _ s2 := State.updUnit_keeps.after hs1 rfl
  have hs3 : Keeps Scope.engine.parts _ s3 := .ite (.foldl (fun _ _ h1 => State.updUnit_keeps.after h1 rfl) hs2) hs2
  exact raiseUnit_keeps.after hs3 rfl

/-! ### Boot -/

theorem runSlot_keeps {k : Nat} : Keeps Scope.loupe.parts s (runSlot k s) := rfl

theorem otherSlot_keeps {cond : Nat} : Keeps Scope.loupe.parts s (otherSlot cond s) := .chain fun h => by
  unfold otherSlot
  extract_lets a s1 s2
  have hs1 : Keeps _ _ s1 := updLoupe_keeps.after h rfl
  have hs2 : Keeps _ _ s2 := loupeErr_keeps.after (logPush_keeps.after hs1 rfl) rfl
  exact .ite (runSlot_keeps.after hs2 rfl) (.update hs2 rfl)

theorem bootSlot_keeps : Keeps Scope.loupe.parts s (bootSlot s) := .chain fun h =>
  .ite (runSlot_keeps.after (logPush_keeps.after (updLoupe_keeps.after h rfl) rfl) rfl)
    (.ite (runSlot_keeps.after h rfl) (otherSlot_keeps.after h rfl))

theorem bootDebug_keeps : Keeps Scope.copy.parts s (bootDebug s) := .chain fun h =>
  .ite h h

theorem bootCtl_keeps {bank : Nat} {c : Nat} : Keeps Scope.loupe.parts s (bootCtl bank s c) := .chain fun h =>
  .ite (storeErr_keeps.after (State.updCtl_keeps.after h rfl) rfl) (State.updCtl_keeps.after h rfl)

theorem coldBoot_keeps {bank : Nat} {temps : List (Nat × Int)} : Keeps Scope.whole.parts s (coldBoot bank temps s) := .chain fun h => by
  unfold coldBoot
  extract_lets trip _ _ _ s1 s2 s3 s4
  have hs1 : Keeps _ _ s1 := h
  have hs2 : Keeps _ _ s2 := State.updCtx_keeps.after hs1 rfl
  have hs3 : Keeps _ _ s3 := bootDebug_keeps.after (bootSlot_keeps.after hs2 rfl) rfl
  have hs4 : Keeps _ _ s4 := .ite (setErr_keeps.after hs3 rfl) hs3
  exact .foldl (fun _ _ h1 => bootCtl_keeps.after h1 rfl) hs4

theorem execColdReset_ends {pod mgmt bank : Nat} {temps : List (Nat × Int)} :
    Ends Scope.whole.parts s (execColdReset pod mgmt bank temps s) := .chain fun h => by
  refine .ite h (.ite h ?_)
  extract_lets s1 _ s2
  have hs1 : Keeps _ _ s1 := .ite (powerOff_keeps.after (programPending_keeps.after (atLeast_keeps.after h rfl) rfl) rfl) h
  have hs2 : Keeps _ _ s2 := .update hs1 rfl
  exact .ite (logPush_keeps.after (updLoupe_keeps.after hs2 rfl) rfl) (coldBoot_keeps.after hs2 rfl)

theorem execFwTrialTimeout_ends : Ends Scope.loupe.parts s (execFwTrialTimeout s) := .chain fun h => by
  unfold execFwTrialTimeout
  split
  · exact h
  · exact .ite h (otherSlot_keeps.after (atLeast_keeps.after h rfl) rfl)

theorem reapply_keeps : Keeps Scope.register.parts s (reapply s) := .chain fun h =>
  .foldl (fun _ _ h1 => State.updUnit_keeps.after h1 rfl) h

theorem sealCheck_keeps : Keeps Scope.store.parts s (sealCheck s) := rfl

theorem lostRecords_keeps : Keeps Scope.loupe.parts s (lostRecords s) := .chain fun h =>
  updLoupe_keeps.after (.ite (raise_keeps.after (.ite (raise_keeps.after h rfl) h) rfl) (.ite (raise_keeps.after h rfl) h)) rfl

theorem execFirmwareStartPublish_ends : Ends Scope.whole.parts s (execFirmwareStartPublish s) := .chain fun h => by
  refine .ite h ?_
  extract_lets s1 oos _ s2 s3
  have hs1 : Keeps _ _ s1 := reapply_keeps.after h rfl
  have hs2 : Keeps _ _ s2 := .update hs1 rfl
  have hs3 : Keeps Scope.whole.parts _ s3 := .foldl (fun _ _ h1 => .ite (portTo_keeps.after h1 rfl) h1) hs2
  exact planKick_keeps.after (lostRecords_keeps.after (sealCheck_keeps.after hs3 rfl) rfl) rfl

theorem fatalError_keeps {code : Nat} : Keeps Parts.tells s (fatalError code s) := .chain fun h => by
  refine .ite h ?_
  extract_lets s1
  have hs1 : Keeps _ _ s1 := raise_keeps.after h rfl
  exact .update hs1 rfl

theorem execSpineLinkDown_ends {link : Nat} : Ends Scope.serving.parts s (execSpineLinkDown link s) := .chain fun h => by
  refine .ite h ?_
  extract_lets _ s1 s2 ends near s3
  have hs1 : Keeps _ _ s1 := h
  have hs2 : Keeps _ _ s2 := .ite (State.updChan_keeps.after hs1 rfl) hs1
  have hs3 : Keeps _ _ s3 := raiseUnit_keeps.after hs2 rfl
  exact Keeps.ite (fatalError_keeps.after hs3 rfl) hs3

/-! ### Aperture -/

theorem execRcFieldRead_ends {blk : Block} {off size : Nat} : Ends Scope.task.parts s (execRcFieldRead blk off size s) := .chain fun h => by
  refine .ite h ?_
  extract_lets v _ k f
  exact .ite h (.ite h h)

/-! ### Forward -/

theorem updSweep_keeps {id : Nat} {f : Sweep → Sweep} : Keeps Scope.forward.parts s (updSweep id f s) := rfl

theorem nextStep_keeps {id : Nat} : Keeps Scope.forward.parts s (nextStep id s) := .chain fun h =>
  updSweep_keeps.after h rfl

theorem fwRing_keeps {ty : Nat} {x : FwIssue} : OptionKeeps Scope.forward.parts s (fwRing ty x s) := .chain fun h =>
  .ite trivial (.ite (.ite (createRing_keeps.after (Keeps.update h rfl) rfl) trivial) (.ite h trivial))

theorem fwPost_keeps {ty : Nat} {x : FwIssue} : OptionKeeps Scope.forward.parts s (fwPost ty x s) := .chain fun h => by
  unfold fwPost
  split
  · exact trivial
  · next e => exact .ite trivial (State.updRing_keeps.after (spaceWrite_keeps.after (OptionKeeps.of_eq e (fwRing_keeps.after h rfl)) rfl) rfl)

theorem fwPostAll_keeps {ty : Nat} {l : List FwIssue} : OptionKeeps Scope.forward.parts s (fwPostAll ty l s) := .chain fun h => by
  induction l generalizing s with
  | nil => exact h
  | cons x l ih =>
    unfold fwPostAll
    split
    · exact trivial
    · next e => exact ih (OptionKeeps.of_eq e (fwPost_keeps.after h rfl))

theorem execFwdFill_ends {sweep : Nat} {x : FwIssue} : Ends Scope.forward.parts s (execFwdFill sweep x s) := .chain fun h => by
  unfold execFwdFill
  split
  · exact h
  · extract_lets t
    refine .ite h ?_
    split
    · exact h
    · rename_i e
      have ht := OptionKeeps.of_eq e (fwPost_keeps.after h rfl)
      exact nextStep_keeps.after ht rfl

theorem execFwdPass_ends {sweep : Nat} {x : FwIssue} : Ends Scope.forward.parts s (execFwdPass sweep x s) := .chain fun h => by
  unfold execFwdPass
  split
  · exact h
  · extract_lets t
    refine .ite h ?_
    split
    · exact h
    · rename_i e
      have ht := OptionKeeps.of_eq e (fwPost_keeps.after h rfl)
      exact nextStep_keeps.after ht rfl

theorem execFwdRoute_ends {sweep layer scores rows lists order : Nat} :
    Ends Scope.forward.parts s (execFwdRoute sweep layer scores rows lists order s) := .chain fun h => by
  unfold execFwdRoute
  split
  · exact h
  · extract_lets l n pick used of ord starts s1
    have hs1 : Keeps _ _ s1 := hbmWrite_keeps.after h rfl
    exact .ite h (nextStep_keeps.after (hbmWrite_keeps.after hs1 rfl) rfl)

theorem execFwdExchange_ends {sweep : Nat} {xs : List FwIssue} : Ends Scope.forward.parts s (execFwdExchange sweep xs s) := .chain fun h => by
  unfold execFwdExchange
  split
  · exact h
  · extract_lets ok
    refine .ite h ?_
    split
    · exact h
    · rename_i e
      have ht := OptionKeeps.of_eq e (fwPostAll_keeps.after h rfl)
      exact nextStep_keeps.after ht rfl

theorem softRows_keeps {w : Sweep} {first : Nat} {tags : Bytes} {x : FwIssue} :
    OptionKeeps Scope.forward.parts s (softRows w first tags x s) := .chain fun h => by
  unfold softRows
  extract_lets n a off cand use ix
  refine .ite trivial ?_
  have hp : OptionKeeps _ _ (fwPost Config.tPrism x (hbmWrite a use.flatten s)) := fwPost_keeps.after (hbmWrite_keeps.after h rfl) rfl
  generalize fwPost Config.tPrism x (hbmWrite a use.flatten s) = o at hp
  cases o with
  | none => exact trivial
  | some t => exact updSweep_keeps.after hp rfl

theorem softAll_keeps {w : Sweep} {l : List (Nat × Bytes × FwIssue)} : OptionKeeps Scope.forward.parts s (softAll w l s) := .chain fun h => by
  induction l generalizing s with
  | nil => exact h
  | cons x l ih =>
    unfold softAll
    split
    · exact trivial
    · next e => exact ih (OptionKeeps.of_eq e (softRows_keeps.after h rfl))

theorem execFwdSoftTarget_ends {sweep : Nat} {rows : List (Nat × List Byte × FwIssue)} {lens : List FwIssue} :
    Ends Scope.forward.parts s (execFwdSoftTarget sweep rows lens s) := .chain fun h => by
  unfold execFwdSoftTarget
  split
  · exact h
  · refine .ite (.ite h (.ite (nextStep_keeps.after h rfl) ((softAll_keeps.after h rfl).getD h))) ?_
    refine .ite h ?_
    split
    · exact h
    · next e => exact nextStep_keeps.after (updSweep_keeps.after (OptionKeeps.of_eq e (fwPostAll_keeps.after h rfl)) rfl) rfl

theorem execFwdTap_ends {sweep : Nat} {xs : List FwIssue} : Ends Scope.forward.parts s (execFwdTap sweep xs s) := .chain fun h => by
  unfold execFwdTap
  split
  · exact h
  · refine .ite h ?_
    split
    · exact h
    · rename_i e
      have ht := OptionKeeps.of_eq e (fwPostAll_keeps.after h rfl)
      exact nextStep_keeps.after ht rfl

theorem execFwdRepeat_ends {sweep : Nat} {thin : Bool} : Ends Scope.forward.parts s (execFwdRepeat sweep thin s) := .chain fun h => by
  unfold execFwdRepeat
  split
  · exact h
  · split
    · exact updSweep_keeps.after h rfl
    · exact .ite h (updSweep_keeps.after h rfl)

theorem chunkDone_keeps {ring : Nat} : Keeps Scope.student.parts s (chunkDone ring s) := .chain fun h => by
  unfold chunkDone
  extract_lets ch n p b s1 s2
  have hs1 : Keeps _ _ s1 := State.setPring_keeps.after h rfl
  have hs2 : Keeps _ _ s2 := .ite hs1 (prismSend_keeps.after hs1 rfl)
  exact .ite h (.ite (endBlock_keeps.after hs2 rfl) hs2)

theorem execFwdEnd_ends {sweep : Nat} {token : Option Nat} : Ends Scope.forward.parts s (execFwdEnd sweep token s) := .chain fun {o} h => by
  unfold execFwdEnd
  split
  · exact h
  · split
    · exact updSweep_keeps.after h rfl
    · refine .ite h ?_
      extract_lets s1
      have hs1 : Keeps Scope.forward.parts o s1 := by
        unfold s1
        split
        · exact chunkDone_keeps.after h rfl
        · exact h
      split
      · exact Keeps.update hs1 rfl
      · split
        · exact Keeps.update hs1 rfl
        · exact .ite (updSweep_keeps.after hs1 rfl) (jobStopGo_keeps.after (State.setJob_keeps.after (Keeps.update hs1 rfl) rfl) rfl)

/-! ### Tasks -/

end Sys2Proof.Machine
end

section
/-! PROOFS for 95_what_each_step_holds.md: tasks, mailboxes, peers, the Scaler. -/

namespace Sys2Proof.Machine
open Sys2Proof

variable {s : State}

/-! ### Tasks -/

theorem execTaskComplete_ends {j : Nat} : Ends Scope.head.parts s (execTaskComplete j s) := .chain fun h => by
  unfold execTaskComplete
  split
  · exact .ite (windowAfter_keeps.after (completeCur_keeps.after h rfl) rfl) h
  · exact h

theorem refill_keeps {j : Nat} : Keeps Parts.records s (refill j s) := .chain fun h =>
  .ite (.ite (drainEvents_keeps.after h rfl) h) (drainHeld_keeps.after h rfl)

theorem settleNamed_keeps {j : Nat} : Keeps Scope.head.parts s (settleNamed j s) := .chain fun h =>
  .foldl (fun _ _ h1 => windowAfter_keeps.after (settleAll_keeps.after h1 rfl) rfl) h

theorem execRingHeadWrite_ends {ring value : Nat} : Ends Scope.head.parts s (execRingHeadWrite ring value s) := .chain fun h =>
  .ite h (.ite (settleNamed_keeps.after (refill_keeps.after (State.setRing_keeps.after h rfl) rfl) rfl) (State.setRing_keeps.after h rfl))

/-! ### Mailbox -/

theorem commands_keeps : ∀ k ∈ commands, SpecKeeps Scope.whole.parts k := by
  simp only [commands, List.cons_append, List.nil_append, List.forall_mem_cons]
  exact ⟨specSysNop_keeps.mono rfl, specSysEcho_keeps.mono rfl, specSysInfo_keeps.mono rfl, specSysTime_keeps.mono rfl,
    specSysEventRing_keeps.mono rfl, specSysReset_keeps.mono rfl, specCfgBegin_keeps.mono rfl, specCfgSet_keeps.mono rfl,
    specCfgCommit_keeps.mono rfl, specCfgRollback_keeps.mono rfl, specCfgQuery_keeps.mono rfl, specCtxCreate_keeps.mono rfl,
    specCtxDestroy_keeps.mono rfl, specCtxSetQuota_keeps.mono rfl, specCtxQuery_keeps.mono rfl, specCtxAssignMailbox_keeps.mono rfl,
    specCtxReleaseMailbox_keeps.mono rfl, specCtxReset_keeps.mono rfl, specCtxAgentLoad_keeps.mono rfl, specCtxAgentStart_keeps.mono rfl,
    specCtxAgentStop_keeps.mono rfl, specCtxAgentUnload_keeps.mono rfl, specMemAlloc_keeps.mono rfl, specMemFree_keeps.mono rfl,
    specMemMapHost_keeps.mono rfl, specMemUnmapHost_keeps.mono rfl, specMemCopy_keeps.mono rfl, specMemQuery_keeps.mono rfl,
    specRingCreate_keeps.mono rfl, specRingDestroy_keeps.mono rfl, specRingDrain_keeps.mono rfl, specRingQuery_keeps.mono rfl,
    specImgOpen_keeps.mono rfl, specImgWrite_keeps.mono rfl, specImgClose_keeps.mono rfl, specImgActivate_keeps.mono rfl,
    specImgDelete_keeps.mono rfl, specImgQuery_keeps.mono rfl, specJobCreate_keeps.mono rfl, specJobStart_keeps.mono rfl, specJobStop_keeps.mono rfl,
    specJobQuery_keeps.mono rfl, specJobLedgerRead_keeps.mono rfl, specSrvQueueCreate_keeps.mono rfl, specSrvQueueWeight_keeps.mono rfl,
    specSrvSubmit_keeps.mono rfl, specSrvCancel_keeps.mono rfl, specSrvPause_keeps.mono rfl, specSrvResume_keeps.mono rfl,
    specSrvPrefixCreate_keeps.mono rfl, specSrvPrefixRelease_keeps.mono rfl, specSrvSamplerSet_keeps.mono rfl, specMirCkpt_keeps.mono rfl,
    specMirRestore_keeps.mono rfl, specMirSnapshot_keeps.mono rfl, specMirSpare_keeps.mono rfl, specMirTakeover_keeps.mono rfl,
    specMirLogQuery_keeps.mono rfl, specPodJoin_keeps.mono rfl, specPodGroupCreate_keeps.mono rfl, specPodBarrier_keeps.mono rfl,
    specPodReset_keeps.mono rfl, specBeamRouteQuery_keeps.mono rfl, specBeamPortQuery_keeps.mono rfl, specLoupeSensors_keeps.mono rfl,
    specLoupeLedger_keeps.mono rfl, specLoupeLogRead_keeps.mono rfl, specLoupePowerCap_keeps.mono rfl, specLoupeFwStage_keeps.mono rfl,
    specLoupeFwActivate_keeps.mono rfl, specSecCerts_keeps.mono rfl, specSecMeasurements_keeps.mono rfl, specSecCtxKeyRoll_keeps.mono rfl,
    specSecDebugState_keeps.mono rfl, by
    simp⟩

theorem specOf_keeps {op : Nat} : ∀ k ∈ specOf op, SpecKeeps Scope.whole.parts k := fun k hk =>
  commands_keeps k (List.mem_of_find?_eq_some hk)

theorem nextOf_keeps {F L : Parts} {o : State} {x : Host.Outcome State Fault Refusal} (hx : Ends L s x) (h : Keeps F o s)
    (hF : L.le F) : Keeps F o (nextOf x s) := by
  cases x with
  | next t => exact Keeps.after hx h hF
  | fault => exact h
  | refused => exact h

theorem writeGo_keeps {m : Nat} : Keeps Scope.whole.parts s (writeGo m s) := by
  unfold writeGo
  split
  exact goWrite_keeps (F := Scope.whole.parts) rfl specOf_keeps

theorem writeMb_keeps {m off size value : Nat} : Keeps Scope.whole.parts s (writeMb m off size value s) := .chain fun h => by
  unfold writeMb
  split
  refine .ite (.ite h (State.setMb_keeps.after h rfl)) ?_
  split
  · exact .ite (writeGo_keeps.after h rfl) h
  · exact State.setMb_keeps.after h rfl
  · exact .ite (State.setMb_keeps.after h rfl) h
  · exact h

theorem writeRing_keeps {j off size value : Nat} : Keeps Scope.whole.parts s (writeRing j off size value s) := .chain fun {o} h => by
  unfold writeRing
  split
  refine .ite h ?_
  split
  · exact nextOf_keeps execRingTailWrite_ends h rfl
  · exact nextOf_keeps execRingHeadWrite_ends h rfl
  · exact .ite (State.setRing_keeps.after h rfl) h
  · extract_lets s1
    have hs1 : Keeps Scope.whole.parts o s1 := .ite (nextOf_keeps execRingCtrlRestart_ends h rfl) h
    exact .ite (nextOf_keeps execRingCtrlArm_ends hs1 rfl) hs1
  · exact h

theorem clearErr_keeps {ty inst v : Nat} : Keeps Scope.head.parts s (clearErr ty inst v s) := .chain fun h => by
  unfold clearErr
  extract_lets u e gone u1 s1
  have hs1 : Keeps _ _ s1 := State.setUnit_keeps.after h rfl
  exact .ite (.update hs1 rfl) hs1

theorem writeUnit_keeps {ty inst off size value : Nat} : Keeps Scope.head.parts s (writeUnit ty inst off size value s) := .chain fun h => by
  unfold writeUnit
  split
  extract_lets r
  exact .ite (clearErr_keeps.after h rfl) (.ite (nextOf_keeps execSnapTake_ends h rfl) h)

theorem execRegisterWrite_ends {blk : Block} {off size value : Nat} :
    Ends Scope.whole.parts s (execRegisterWrite blk off size value s) := .chain fun h => by
  refine .ite h ?_
  split
  · exact .ite (writeMb_keeps.after h rfl) h
  · exact .ite h (writeRing_keeps.after h rfl)
  · exact .ite h (writeUnit_keeps.after h rfl)
  · exact h
  · exact h

theorem agentDo_keeps {g : Nat} {act : AgentAct} : Keeps Scope.whole.parts s (agentDo g act s) := .chain fun h => by
  unfold agentDo
  split
  · exact h
  · exact State.setAgent_keeps.after h rfl
  · exact hbmWrite_keeps.after h rfl
  · exact writeRing_keeps.after h rfl
  · exact writeMb_keeps.after h rfl
  · exact h

theorem execCommandEventRecord_ends {ctx handle : Nat} : Ends Scope.whole.parts s (execCommandEventRecord ctx handle s) := .chain fun h => by
  unfold execCommandEventRecord
  split
  · exact h
  · refine .ite h (.ite (memCopyFinish_keeps.after h rfl) (.ite h ?_))
    split
    · exact h
    · next o _ _ k hk =>
      extract_lets i
      have hr : ResKeeps _ _ (k.run i o.payload s) := (specOf_keeps k hk).1 _ _ _ h
      generalize k.run i o.payload s = r at hr
      cases r with
      | ok resp t => exact finishOp_keeps.after hr rfl
      | fail st d => exact finishOp_keeps.after h rfl
      | failWith st d t => exact finishOp_keeps.after hr rfl
      | pend t => exact h
      | hold t => exact h

theorem execErrorRecordInterval_ends {ctx : Nat} : Ends Scope.store.parts s (execErrorRecordInterval ctx s) := .chain fun h => by
  unfold execErrorRecordInterval
  extract_lets mine s1 slots _ s2
  have hs1 : Keeps _ _ s1 := atLeast_keeps.after h rfl
  have hs2 : Keeps _ _ s2 := .update hs1 rfl
  exact .ite h (Keeps.foldl (fun _ _ h1 => deliverEvent_keeps.after h1 rfl) hs2)

theorem mctpControl_keeps {t op : Nat} {p : Bytes} : Keeps Parts.sends s (mctpControl t op p s) := .chain fun {o} h => by
  unfold mctpControl
  extract_lets answer e
  have hanswer : ∀ cc1 bs1 s1, Keeps Parts.sends o s1 → Keeps Parts.sends o (answer cc1 bs1 s1) := fun _ _ _ h1 => mctpSend_keeps.after h1 rfl
  split
  · exact .ite (hanswer _ _ _ h) (hanswer _ _ _ h)
  · exact hanswer _ _ _ h
  · exact hanswer _ _ _ h
  · exact hanswer _ _ _ h
  · exact hanswer _ _ _ h

theorem mctpRequest_keeps {t op : Nat} {q : Request} : Keeps Scope.whole.parts s (mctpRequest t op q s) := .chain fun {o} h => by
  unfold mctpRequest
  extract_lets m b q1 s1 s2
  have hs1 : Keeps Scope.whole.parts o s1 := State.setMb_keeps.after h rfl
  have hs2 : Keeps Scope.whole.parts o s2 := by
    refine .ite (mbComplete_keeps.after (State.setMb_keeps.after h rfl) rfl) (.ite (mbComplete_keeps.after hs1 rfl) ?_)
    refine .ite (mbComplete_keeps.after hs1 rfl) (.ite (mbComplete_keeps.after hs1 rfl) (.ite (mbComplete_keeps.after hs1 rfl) ?_))
    exact (runAccepted_keeps (F := Scope.whole.parts) rfl specOf_keeps).after hs1 rfl
  exact .ite h (.ite (mctpSend_keeps.after hs2 rfl) hs2)

/-! ### Peer -/

theorem peerRequest_keeps {src w : Nat} {b : Bytes} : Keeps Scope.student.parts s (peerRequest src w b s) := .chain fun h =>
  .ite (sendMsg_keeps.after h rfl) (.ite (sendMsg_keeps.after (hbmTaken_keeps.after h rfl) rfl)
    (sendMsg_keeps.after (hbmWrite_keeps.after h rfl) rfl))

theorem peerManage_keeps {src w : Nat} {b : Bytes} : Keeps Scope.peer.parts s (peerManage src w b s) := .chain fun h =>
  .ite (.foldl (fun _ _ h1 => groupBreak_keeps.after h1 rfl) h)
    (.ite h (.ite (.foldl (fun _ _ h1 => .ite (groupReset_keeps.after h1 rfl) h1) h)
    (.ite h (.ite (takeoverAuto_keeps.after h rfl) (.ite (.foldl (fun _ _ h1 => .ite (State.updGroup_keeps.after h1 rfl) h1) h) h)))))

theorem deliver_keeps {cls src : Nat} {m : Bytes} : Keeps Scope.peer.parts s (deliver cls src m s) := .chain fun h =>
  .ite (peerManage_keeps.after h rfl) (.ite (prismPeer_keeps.after h rfl) (.ite (peerRequest_keeps.after h rfl) (.ite h h)))

theorem rejected_keeps {p cls src : Nat} {msg : Bytes} : Keeps Scope.student.parts s (rejected p cls src msg s) := .chain fun h =>
  .ite (sendMsg_keeps.after (logPush_keeps.after h rfl) rfl)
    (.ite (groupAbort_keeps.after (logPush_keeps.after h rfl) rfl) (logPush_keeps.after h rfl))

theorem flitAccept_keeps {p : Nat} {f : Bytes} : Keeps Scope.peer.parts s (flitAccept p f s) := .chain fun {o} h => by
  unfold flitAccept
  extract_lets len s1 s2 freed k msg _ _ s3
  have hs1 : Keeps _ _ s1 := bump_keeps.after h rfl
  have hs2 : Keeps _ _ s2 := .ite (State.updPort_keeps.after hs1 rfl) hs1
  have hfreed : ∀ s4, Keeps Scope.peer.parts o s4 → Keeps Scope.peer.parts o (freed s4) := fun _ h1 => State.updPort_keeps.after h1 rfl
  have hs3 : Keeps _ _ s3 := .update (hfreed _ hs2) rfl
  refine .ite (.ite (portReplay_keeps.after h rfl) h) (.ite (.ite hs3 (.ite (deliver_keeps.after hs3 rfl) ?_))
    (.ite (hfreed _ hs2) (sendToward_keeps.after hs2 rfl)))
  split
  · rename_i e
    have ht := Keeps.snd e (openPeer_keeps.after hs3 rfl)
    exact deliver_keeps.after ht rfl
  · rename_i e
    have ht := Keeps.snd e (openPeer_keeps.after hs3 rfl)
    exact rejected_keeps.after ht rfl

theorem tellAck_keeps {p : Nat} : Keeps Parts.sends s (tellAck p s) := .chain fun h =>
  .ite (sendNull_keeps.after h rfl) h

theorem execBeamFlitReceive_ends {port : Nat} {flit : List Byte} : Ends Scope.peer.parts s (execBeamFlitReceive port flit s) := .chain fun h => by
  refine .ite h (.ite (portErr_keeps.after (bump_keeps.after h rfl) rfl) ?_)
  extract_lets s1 seq
  have hs1 : Keeps _ _ s1 := bump_keeps.after h rfl
  split
  · exact portDown_keeps.after (portErr_keeps.after hs1 rfl) rfl
  · extract_lets s2 x s3
    have hs2 : Keeps _ _ s2 := portGo_keeps.after (State.setPort_keeps.after hs1 rfl) rfl
    have hs3 : Keeps _ _ s3 := bump_keeps.after hs2 rfl
    exact .ite hs2 (.ite (tellAck_keeps.after (flitAccept_keeps.after (State.setPort_keeps.after hs2 rfl) rfl) rfl)
      (.ite (bump_keeps.after hs2 rfl) (.ite hs3 (sendNumbered_keeps.after (State.setPort_keeps.after hs3 rfl) rfl))))

/-! ### Scaler -/

theorem qWrite_keeps {core : Nat} {d : Bytes} {p : QPass} : Keeps Scope.task.parts s (qWrite core d p s) := .chain fun h =>
  .foldl (fun _ _ h1 => .foldl (fun _ _ h2 => sramWrite_keeps.after h2 rfl) h1) (.foldl (fun _ _ h1 => sramWrite_keeps.after h1 rfl) h)

theorem sclMarked_keeps {j ix : Nat} {d : Bytes} {m : Nat × Nat} {next : Nat} : Keeps Parts.tells s (sclMarked j ix d m next s) := .chain fun h =>
  raise_keeps.after (finish_keeps.after (setErr_keeps.after (begin_keeps.after h rfl) rfl) rfl) rfl

theorem quantRun_keeps {j ix core : Nat} {d b : Bytes} : Keeps Scope.task.parts s (quantRun j ix core d b s) := .chain fun h => by
  unfold quantRun
  extract_lets r ty inst sl x flat amax nf nonzero p1 exceeds live ovf uf act p used s1 sl' s2 reads both s3 outcome reason s4
  have hs1 : Keeps _ _ s1 := qWrite_keeps.after (served_keeps.after (begin_keeps.after h rfl) rfl) rfl
  have hs2 : Keeps _ _ s2 := .ite hs1 (sramWrite_keeps.after hs1 rfl)
  have hs3 : Keeps Scope.task.parts _ s3 := .foldl (fun _ _ h1 => .ite h1 (bump_keeps.after h1 rfl)) hs2
  have hs4 : Keeps _ _ s4 := .ite (setErr_keeps.after hs3 rfl) hs3
  exact finish_keeps.after hs4 rfl

theorem amaxRun_keeps {j ix core : Nat} {d b : Bytes} : Keeps Scope.task.parts s (amaxRun j ix core d b s) := .chain fun h => by
  unfold amaxRun
  extract_lets r sl x flat amax nf nonzero rows push s1 s2 sl' s3 s4
  have hs1 : Keeps _ _ s1 := served_keeps.after (begin_keeps.after h rfl) rfl
  have hs2 : Keeps Scope.task.parts _ s2 := .ite (.foldl (fun _ _ h1 => sramWrite_keeps.after h1 rfl) hs1) hs1
  have hs3 : Keeps _ _ s3 := .ite (sramWrite_keeps.after hs2 rfl) hs2
  have hs4 : Keeps Scope.task.parts _ s4 := .foldl (fun _ _ h1 => .ite h1 (bump_keeps.after h1 rfl)) hs3
  exact finish_keeps.after hs4 rfl

theorem sclTask_keeps {j op : Nat} {run : Nat → Nat → Nat → Bytes → Bytes → State → State}
    (hr : ∀ ix core d b t, Keeps Scope.task.parts t (run j ix core d b t)) : Keeps Scope.task.parts s (sclTask j op run s) := .chain fun h => by
  unfold sclTask
  split
  · exact h
  · refine .ite h ?_
    split
    · exact failArg_keeps.after h rfl
    · split
      · exact sclMarked_keeps.after h rfl
      · refine .ite (failCheck_keeps.after (setErr_keeps.after h rfl) rfl) ?_
        split
        · exact sclMarked_keeps.after h rfl
        · exact (hr _ _ _ _ _).after h rfl

end Sys2Proof.Machine
end

section
/-! PROOFS for 95_what_each_step_holds.md: every command of the table ends, and changes no part outside its scope. -/

namespace Sys2Proof.Machine
open Sys2Proof

theorem execVuHalt_ends {core : Nat} {f : VecFields} {s : State} : Ends Scope.task.parts s (execVuHalt core f s) :=
  Keeps.mono (vecIssue_keeps (F := Scope.descriptor.parts) rfl fun _ _ => vecEnd_keeps) rfl

theorem execVuSetvl_ends {core : Nat} {f : VecFields} {s : State} : Ends Scope.task.parts s (execVuSetvl core f s) :=
  Keeps.mono (vecIssue_keeps (F := Scope.descriptor.parts) rfl fun _ t => .ite (Keeps.refl _ t) vecIllegal_keeps) rfl

theorem execVuSld_ends {core : Nat} {f : VecFields} {s : State} : Ends Scope.task.parts s (execVuSld core f s) :=
  Keeps.mono (vecIssue_keeps (F := Scope.descriptor.parts) rfl fun _ t => vecLoad_keeps fun _ => Keeps.refl _ t) rfl

theorem Ends.at {i : Instr} {s : State} {x : Host.Outcome State Fault Refusal} (k : Scope) (h : Ends k.parts s x)
    (hk : scopeOf i = k) : Ends (scopeOf i).parts s x := by
  rw [hk]
  exact h

/-- Every command of the table answers a next state, which keeps what is outside the command's scope. -/
theorem exec_ends {i : Instr} {s : State} : Ends (scopeOf i).parts s (exec i s) := by
  cases i with
  | sysNop => exact .at .mailbox (submit_ends (specSysNop_keeps.mono rfl) rfl) rfl
  | sysEcho => exact .at .mailbox (submit_ends (specSysEcho_keeps.mono rfl) rfl) rfl
  | sysInfo => exact .at .mailbox (submit_ends (specSysInfo_keeps.mono rfl) rfl) rfl
  | sysTime => exact .at .mailbox (submit_ends (specSysTime_keeps.mono rfl) rfl) rfl
  | sysEventRing => exact .at .mailbox (submit_ends (specSysEventRing_keeps.mono rfl) rfl) rfl
  | sysReset => exact .at .mailbox (submit_ends (specSysReset_keeps.mono rfl) rfl) rfl
  | cfgBegin => exact .at .config (submit_ends specCfgBegin_keeps rfl) rfl
  | cfgSet => exact .at .config (submit_ends specCfgSet_keeps rfl) rfl
  | cfgCommit => exact .at .config (submit_ends specCfgCommit_keeps rfl) rfl
  | cfgRollback => exact .at .config (submit_ends specCfgRollback_keeps rfl) rfl
  | cfgQuery => exact .at .mailbox (submit_ends (specCfgQuery_keeps.mono rfl) rfl) rfl
  | cfgCommitAllHold => exact .at .config execCfgCommitAllHold_ends rfl
  | cfgCommitReject => exact .at .config execCfgCommitReject_ends rfl
  | cfgQuiesceTimeout => exact .at .config execCfgQuiesceTimeout_ends rfl
  | cfgTxnTimeout => exact .at .config execCfgTxnTimeout_ends rfl
  | ctxCreate => exact .at .security (submit_ends specCtxCreate_keeps rfl) rfl
  | ctxDestroy => exact .at .whole (submit_ends specCtxDestroy_keeps rfl) rfl
  | ctxSetQuota => exact .at .mailbox (submit_ends (specCtxSetQuota_keeps.mono rfl) rfl) rfl
  | ctxQuery => exact .at .mailbox (submit_ends (specCtxQuery_keeps.mono rfl) rfl) rfl
  | ctxAssignMailbox => exact .at .mailbox (submit_ends specCtxAssignMailbox_keeps rfl) rfl
  | ctxReleaseMailbox => exact .at .mailbox (submit_ends specCtxReleaseMailbox_keeps rfl) rfl
  | ctxReset => exact .at .whole (submit_ends specCtxReset_keeps rfl) rfl
  | ctxAgentLoad => exact .at .agent (submit_ends specCtxAgentLoad_keeps rfl) rfl
  | ctxAgentStart => exact .at .agent (submit_ends specCtxAgentStart_keeps rfl) rfl
  | ctxAgentStop => exact .at .agent (submit_ends specCtxAgentStop_keeps rfl) rfl
  | ctxAgentUnload => exact .at .agent (submit_ends specCtxAgentUnload_keeps rfl) rfl
  | agentFault => exact .at .whole (.chain fun h => .ite h
    (.ite (agentDo_keeps.after h rfl) (deliverEvent_keeps.after (State.setAgent_keeps.after h rfl) rfl))) rfl
  | memAlloc => exact .at .agent (submit_ends specMemAlloc_keeps rfl) rfl
  | memFree => exact .at .agent (submit_ends specMemFree_keeps rfl) rfl
  | memMapHost => exact .at .mailbox (submit_ends (specMemMapHost_keeps.mono rfl) rfl) rfl
  | memUnmapHost => exact .at .mailbox (submit_ends (specMemUnmapHost_keeps.mono rfl) rfl) rfl
  | memCopy => exact .at .mailbox (submit_ends (specMemCopy_keeps.mono rfl) rfl) rfl
  | memQuery => exact .at .mailbox (submit_ends (specMemQuery_keeps.mono rfl) rfl) rfl
  | ringCreate => exact .at .mailbox (submit_ends (specRingCreate_keeps.mono rfl) rfl) rfl
  | ringDestroy => exact .at .ring (submit_ends specRingDestroy_keeps rfl) rfl
  | ringDrain => exact .at .ring (submit_ends specRingDrain_keeps rfl) rfl
  | ringQuery => exact .at .mailbox (submit_ends (specRingQuery_keeps.mono rfl) rfl) rfl
  | ringDrainComplete => exact .at .ring execRingDrainComplete_ends rfl
  | imgOpen => exact .at .image (submit_ends specImgOpen_keeps rfl) rfl
  | imgWrite => exact .at .image (submit_ends specImgWrite_keeps rfl) rfl
  | imgChunkProgrammed => exact .at .image execImgChunkProgrammed_ends rfl
  | imgClose => exact .at .image (submit_ends specImgClose_keeps rfl) rfl
  | imgVerifyComplete => exact .at .image execImgVerifyComplete_ends rfl
  | imgActivate => exact .at .image (submit_ends specImgActivate_keeps rfl) rfl
  | imgDelete => exact .at .image (submit_ends specImgDelete_keeps rfl) rfl
  | imgDeleteComplete => exact .at .image execImgDeleteComplete_ends rfl
  | imgQuery => exact .at .mailbox (submit_ends (specImgQuery_keeps.mono rfl) rfl) rfl
  | jobCreate => exact .at .mirror (submit_ends specJobCreate_keeps rfl) rfl
  | jobStart => exact .at .job (submit_ends specJobStart_keeps rfl) rfl
  | jobStop => exact .at .job (submit_ends (specJobStop_keeps.mono rfl) rfl) rfl
  | jobStopWindowTimeout => exact .at .job execJobStopWindowTimeout_ends rfl
  | jobQuery => exact .at .mailbox (submit_ends (specJobQuery_keeps.mono rfl) rfl) rfl
  | jobLedgerRead => exact .at .mailbox (submit_ends (specJobLedgerRead_keeps.mono rfl) rfl) rfl
  | srvQueueCreate => exact .at .serving (submit_ends specSrvQueueCreate_keeps rfl) rfl
  | srvQueueWeight => exact .at .serving (submit_ends specSrvQueueWeight_keeps rfl) rfl
  | srvSubmit => exact .at .serving (submit_ends specSrvSubmit_keeps rfl) rfl
  | srvCancel => exact .at .serving (submit_ends specSrvCancel_keeps rfl) rfl
  | srvPause => exact .at .serving (submit_ends specSrvPause_keeps rfl) rfl
  | summaryWriteLanded => exact .at .serving execSummaryWriteLanded_ends rfl
  | srvResume => exact .at .serving (submit_ends specSrvResume_keeps rfl) rfl
  | summaryRestoreComplete => exact .at .serving execSummaryRestoreComplete_ends rfl
  | srvPrefixCreate => exact .at .serving (submit_ends specSrvPrefixCreate_keeps rfl) rfl
  | srvPrefixRelease => exact .at .serving (submit_ends specSrvPrefixRelease_keeps rfl) rfl
  | srvSamplerSet => exact .at .serving (submit_ends specSrvSamplerSet_keeps rfl) rfl
  | mirCkpt => exact .at .mirror (submit_ends specMirCkpt_keeps rfl) rfl
  | ckptCaptureDone => exact .at .update execCkptCaptureDone_ends rfl
  | ckptManifestWritten => exact .at .mirror execCkptManifestWritten_ends rfl
  | mirRestore => exact .at .mirror (submit_ends specMirRestore_keeps rfl) rfl
  | mirSnapshot => exact .at .mirror (submit_ends specMirSnapshot_keeps rfl) rfl
  | mirSpareProtect | mirSpareDesignate | mirSpareReserve | mirSpareRelease => exact .at .mirror (submit_ends specMirSpare_keeps rfl) rfl
  | mirTakeoverBegin | mirTakeoverEnd => exact .at .mirror (submit_ends specMirTakeover_keeps rfl) rfl
  | takeoverRestoreComplete => exact .at .mirror execTakeoverRestoreComplete_ends rfl
  | mirLogQuery => exact .at .mailbox (submit_ends (specMirLogQuery_keeps.mono rfl) rfl) rfl
  | podJoin => exact .at .config (submit_ends specPodJoin_keeps rfl) rfl
  | podJoinTimeout => exact .at .config execPodJoinTimeout_ends rfl
  | podGroupCreate => exact .at .pod (submit_ends specPodGroupCreate_keeps rfl) rfl
  | groupFormed => exact .at .peer (.chain fun h => .ite h
    (.ite (State.setGroup_keeps.after h rfl) (groupUpd_keeps.after
    (groupAbort_keeps.after (setErr_keeps.after (setErr_keeps.after (State.setGroup_keeps.after h rfl) rfl) rfl) rfl) rfl))) rfl
  | podBarrier => exact .at .mailbox (submit_ends (specPodBarrier_keeps.mono rfl) rfl) rfl
  | podReset => exact .at .whole (submit_ends (specPodReset_keeps.mono rfl) rfl) rfl
  | beamRouteQuery => exact .at .mailbox (submit_ends (specBeamRouteQuery_keeps.mono rfl) rfl) rfl
  | beamPortQuery => exact .at .mailbox (submit_ends (specBeamPortQuery_keeps.mono rfl) rfl) rfl
  | loupeSensors => exact .at .mailbox (submit_ends (specLoupeSensors_keeps.mono rfl) rfl) rfl
  | loupeLedger => exact .at .mailbox (submit_ends (specLoupeLedger_keeps.mono rfl) rfl) rfl
  | loupeLogRead => exact .at .mailbox (submit_ends (specLoupeLogRead_keeps.mono rfl) rfl) rfl
  | loupePowerCap => exact .at .config (submit_ends (specLoupePowerCap_keeps.mono rfl) rfl) rfl
  | loupeFwStage => exact .at .config (submit_ends specLoupeFwStage_keeps rfl) rfl
  | fwStageVerified => exact .at .config execFwStageVerified_ends rfl
  | loupeFwActivate | loupeFwCommit | loupeFwRevert => exact .at .config (submit_ends (specLoupeFwActivate_keeps.mono rfl) rfl) rfl
  | fuseStepComplete => exact .at .config execFuseStepComplete_ends rfl
  | fwTrialTimeout => exact .at .loupe execFwTrialTimeout_ends rfl
  | secCerts => exact .at .mailbox (submit_ends (specSecCerts_keeps.mono rfl) rfl) rfl
  | secMeasurements => exact .at .security (submit_ends specSecMeasurements_keeps rfl) rfl
  | secCtxKeyRoll => exact .at .security (submit_ends specSecCtxKeyRoll_keeps rfl) rfl
  | keyRollReencryptComplete => exact .at .mailbox execKeyRollReencryptComplete_ends rfl
  | secDebugQuery | secDebugStageUnlock | secDebugCancel => exact .at .security (submit_ends specSecDebugState_keeps rfl) rfl
  | commandEventRecord => exact .at .whole execCommandEventRecord_ends rfl
  | mailboxOverrun => exact .at .mailbox (.chain fun h => .ite (State.setMb_keeps.after h rfl) h) rfl
  | ringTailWrite => exact .at .signal execRingTailWrite_ends rfl
  | ringHeadWrite => exact .at .head execRingHeadWrite_ends rfl
  | ringCtrlRestart => exact .at .ringReg execRingCtrlRestart_ends rfl
  | ringCtrlArm => exact .at .ringReg execRingCtrlArm_ends rfl
  | snapTake => exact .at .register execSnapTake_ends rfl
  | snapCaptureComplete => exact .at .register execSnapCaptureComplete_ends rfl
  | rcFieldRead => exact .at .task execRcFieldRead_ends rfl
  | registerWrite => exact .at .whole execRegisterWrite_ends rfl
  | apertureUnsupportedAccess | vauxApplied | ideKmKeyProgram | hdmDecoderCommit => exact .at .hostPort (.chain fun h => .ite h h) rfl
  | mirrorHeartbeat => exact .at .mirror (.chain fun h => .ite h h) rfl
  | descriptorFetch => exact .at .head (.chain fun h => .ite h
    (windowAfter_keeps.after (settleAll_keeps.after (fetchMore_keeps.after h rfl) rfl) rfl)) rfl
  | descriptorNop => exact .at .descriptor execDescriptorNop_ends rfl
  | fence => exact .at .descriptor execFence_ends rfl
  | fenceResume => exact .at .descriptor execFenceResume_ends rfl
  | taskComplete => exact .at .head execTaskComplete_ends rfl
  | teLutPass | teDirectPass | tePanePass | teThinPass => exact .at .task tePass_keeps rfl
  | teVector | seVector => exact .at .task (vecTask_keeps.mono rfl) rfl
  | arrayPassDrainComplete => exact .at .task execArrayPassDrainComplete_ends rfl
  | coreClearComplete => exact .at .memory execCoreClearComplete_ends rfl
  | seMatmul | sePanePass => exact .at .task (sePassTake_keeps.mono rfl) rfl
  | seKdLoss => exact .at .student execSeKdLoss_ends rfl
  | vuNop => exact .at .task (vecPure_keeps.mono rfl) rfl
  | vuHalt => exact .at .task execVuHalt_ends rfl
  | vuSetvl => exact .at .task execVuSetvl_ends rfl
  | vuSli | vuSadd | vuSmul | vuSshr | vuSlane | vuVredsum | vuVredmax | vuVargmax => exact .at .task (vecPure_keeps.mono rfl) rfl
  | vuBlt | vuBne | vuJmp => exact .at .task (vecBranch_keeps.mono rfl) rfl
  | vuVld | vuVgather => exact .at .task (Keeps.mono (vecIssue_keeps (F := Scope.descriptor.parts) rfl fun _ _ => vecLoadLanes_keeps) rfl) rfl
  | vuVst | vuVscatter => exact .at .task (vecIssue_keeps rfl fun _ _ => vecStoreLanes_keeps) rfl
  | vuSld => exact .at .task execVuSld_ends rfl
  | vuSst => exact .at .task (vecIssue_keeps rfl fun _ _ => vecStore_keeps) rfl
  | vuVadd | vuVsub | vuVmul | vuVfma | vuVmax | vuVmin | vuVabs | vuVneg | vuVadds | vuVmuls | vuVbcast | vuVidx | vuViadd | vuVand | vuVcvt |
    vuVsel => exact .at .task (vecLanes_keeps.mono rfl) rfl
  | vuVcmp | vuMand | vuMnot => exact .at .task (vecPure_keeps.mono rfl) rfl
  | vuVrcp | vuVsqrt | vuVrsqrt | vuVexp2 | vuVlog2 | vuVtanh | vuVsigm => exact .at .task (vecSfu_keeps.mono rfl) rfl
  | vuTwait => exact .at .task execVuTwait_ends rfl
  | twaitWake => exact .at .student execTwaitWake_ends rfl
  | vuTpop => exact .at .student execVuTpop_ends rfl
  | vuTcount => exact .at .task execVuTcount_ends rfl
  | sclQuant => exact .at .task (sclTask_keeps fun _ _ _ _ _ => quantRun_keeps) rfl
  | sclAmax => exact .at .task (sclTask_keeps fun _ _ _ _ _ => amaxRun_keeps) rfl
  | lensTopk | lensCompact | lensSort => exact .at .lens (lensTake_keeps.mono rfl) rfl
  | lensTaskResume => exact .at .lens (.chain fun h => .ite h (lensRun_keeps.after (State.setLensTask_keeps.after h rfl) rfl)) rfl
  | samplerRequest => exact .at .sampler execSamplerRequest_ends rfl
  | prismRows => exact .at .prism execPrismRows_ends rfl
  | prismTap => exact .at .prism execPrismTap_ends rfl
  | prismBlockOpen => exact .at .prism execPrismBlockOpen_ends rfl
  | prismBlockEnd => exact .at .prism execPrismBlockEnd_ends rfl
  | blockGrant => exact .at .serving execBlockGrant_ends rfl
  | prismRowAccept => exact .at .prism execPrismRowAccept_ends rfl
  | prismRecordLand => exact .at .prism execPrismRecordLand_ends rfl
  | prismCreditFlush => exact .at .prism (.chain fun h => .ite h (crdSend_keeps.after (atLeast_keeps.after h rfl) rfl)) rfl
  | prismCreditReturn => exact .at .serving (.chain fun h => .ite h (creditBack_keeps.after h rfl)) rfl
  | tokenChunkSend => exact .at .serving execTokenChunkSend_ends rfl
  | tokenChunkLand => exact .at .serving execTokenChunkLand_ends rfl
  | prismRingReset => exact .at .prism (.chain fun h => .ite h
    (.ite (raise_keeps.after (pringNotice_keeps.after (pringReset_keeps.after (setErr_keeps.after h rfl) rfl) rfl) rfl)
    (.ite h (pringNotice_keeps.after (pringReset_keeps.after (setErr_keeps.after h rfl) rfl) rfl)))) rfl
  | prismRingResetComplete => exact .at .prism (.chain fun h => .ite h (jobStopEnd_keeps.after (State.setPring_keeps.after h rfl) rfl)) rfl
  | updExchange => exact .at .update execUpdExchange_ends rfl
  | updCommit => exact .at .update execUpdCommit_ends rfl
  | commitWordArrival => exact .at .update execCommitWordArrival_ends rfl
  | updApply => exact .at .update execUpdApply_ends rfl
  | updGather => exact .at .update execUpdGather_ends rfl
  | updMark => exact .at .update execUpdMark_ends rfl
  | deltaAck => exact .at .update execDeltaAck_ends rfl
  | suCopy | suFill | suTranspose => exact .at .copy suStart_keeps rfl
  | suGather => exact .at .copy execSuGather_ends rfl
  | suStageFill => exact .at .descriptor execSuStageFill_ends rfl
  | stageFillWriteStart => exact .at .task execStageFillWriteStart_ends rfl
  | stageFillComplete => exact .at .task execStageFillComplete_ends rfl
  | streamSegmentAck => exact .at .copy execStreamSegmentAck_ends rfl
  | beamColl => exact .at .pod execBeamColl_ends rfl
  | groupBroken => exact .at .net execGroupBroken_ends rfl
  | resolutionComplete => exact .at .update execResolutionComplete_ends rfl
  | heartbeatLoss => exact .at .whole execHeartbeatLoss_ends rfl
  | npBind => exact .at .net execNpBind_ends rfl
  | npUnbind => exact .at .net execNpUnbind_ends rfl
  | npWrite => exact .at .net execNpWrite_ends rfl
  | npRead => exact .at .net execNpRead_ends rfl
  | fwdFill => exact .at .forward execFwdFill_ends rfl
  | fwdPass => exact .at .forward execFwdPass_ends rfl
  | fwdRoute => exact .at .forward execFwdRoute_ends rfl
  | fwdExchange => exact .at .forward execFwdExchange_ends rfl
  | fwdSoftTarget => exact .at .forward execFwdSoftTarget_ends rfl
  | fwdTap => exact .at .forward execFwdTap_ends rfl
  | fwdRepeat => exact .at .forward execFwdRepeat_ends rfl
  | fwdEnd => exact .at .forward execFwdEnd_ends rfl
  | servingBoundary => exact .at .whole execServingBoundary_ends rfl
  | executorDone => exact .at .serving execExecutorDone_ends rfl
  | rowSample => exact .at .serving execRowSample_ends rfl
  | stepRecordWrite => exact .at .serving execStepRecordWrite_ends rfl
  | portLightDetect => exact .at .config execPortLightDetect_ends rfl
  | trainingComplete => exact .at .config execTrainingComplete_ends rfl
  | trainingTimeout => exact .at .config (.chain fun h => .ite h (portErr_keeps.after (portTo_keeps.after (atLeast_keeps.after h rfl) rfl) rfl)) rfl
  | laserInputLow => exact .at .config execLaserInputLow_ends rfl
  | lossOfLight => exact .at .config execLossOfLight_ends rfl
  | beamFlitReceive => exact .at .peer execBeamFlitReceive_ends rfl
  | replayReq => exact .at .config (.chain fun h => .ite h (portReplay_keeps.after h rfl)) rfl
  | retransmitTimerExpiry => exact .at .config (.chain fun h => .ite h
    (portReplay_keeps.after (bump_keeps.after (atLeast_keeps.after h rfl) rfl) rfl)) rfl
  | nullFlitTimer => exact .at .config (.chain fun h => .ite h (sendNull_keeps.after (atLeast_keeps.after h rfl) rfl)) rfl
  | retrainComplete => exact .at .config (.chain fun h => .ite h
    (.ite (portGo_keeps.after (resendAll_keeps.after (portTo_keeps.after (State.updPort_keeps.after h rfl) rfl) rfl) rfl)
      (portDown_keeps.after h rfl))) rfl
  | downRetryTimer => exact .at .config (.chain fun h => .ite h (portTo_keeps.after (atLeast_keeps.after h rfl) rfl)) rfl
  | routeTableInstall => exact .at .whole execRouteTableInstall_ends rfl
  | timebaseSync => exact .at .config execTimebaseSync_ends rfl
  | storePageReadComplete => exact .at .store execStorePageReadComplete_ends rfl
  | storeProgramComplete => exact .at .store execStoreProgramComplete_ends rfl
  | storeEraseComplete => exact .at .store execStoreEraseComplete_ends rfl
  | relocationStart => exact .at .store execRelocationStart_ends rfl
  | relocationSwitch => exact .at .store execRelocationSwitch_ends rfl
  | storeScrubTimer => exact .at .store (.chain fun h => .ite h (storeCnt_keeps.after (readPage_keeps.after (charge_keeps.after h rfl) rfl) rfl)) rfl
  | storeDieTimeout => exact .at .store execStoreDieTimeout_ends rfl
  | meteredSlcWrite => exact .at .store execMeteredSlcWrite_ends rfl
  | storeScrubStageComplete => exact .at .store execStoreScrubStageComplete_ends rfl
  | hbmRefreshTimer => exact .at .register (.chain fun h => .ite (spent_keeps.after (bump_keeps.after h rfl) rfl) h) rfl
  | hbmScrubLine => exact .at .signal execHbmScrubLine_ends rfl
  | governorStep => exact .at .config execGovernorStep_ends rfl
  | currentLimitSample => exact .at .config execCurrentLimitSample_ends rfl
  | windowLimitEval => exact .at .config execWindowLimitEval_ends rfl
  | thermalSample => exact .at .loupe execThermalSample_ends rfl
  | thermalTrip => exact .at .whole execThermalTrip_ends rfl
  | tripRelease => exact .at .hostPort execTripRelease_ends rfl
  | sensorAgentTimeout => exact .at .config execSensorAgentTimeout_ends rfl
  | vinDipBegin => exact .at .loupe (.chain fun h => .ite h (programHold_keeps.after (bump_keeps.after (updLoupe_keeps.after h rfl) rfl) rfl)) rfl
  | vinDipEnd => exact .at .loupe execVinDipEnd_ends rfl
  | dipLong => exact .at .config execDipLong_ends rfl
  | powerLossFlush => exact .at .whole execPowerLossFlush_ends rfl
  | forceThrottleAssert | forceThrottleRelease => exact .at .hostPort (updLoupe_keeps.mono rfl) rfl
  | vauxLost => exact .at .whole execVauxLost_ends rfl
  | replan => exact .at .config execReplan_ends rfl
  | replanRetry => exact .at .config (.chain fun h => .ite h (planKick_keeps.after (updLoupe_keeps.after (atLeast_keeps.after h rfl) rfl) rfl)) rfl
  | replanLate => exact .at .config execReplanLate_ends rfl
  | logCopy => exact .at .signal (.chain fun h => .ite h (logCopy_keeps.after h rfl)) rfl
  | errorRecordInterval => exact .at .store execErrorRecordInterval_ends rfl
  | engineReset => exact .at .engine execEngineReset_ends rfl
  | resetWritesSettled => exact .at .whole execResetWritesSettled_ends rfl
  | pcieFlr => exact .at .whole execPcieFlr_ends rfl
  | pcieHotReset => exact .at .whole (.chain fun h => .ite h (linkReset_keeps.after (warmBegin_keeps.after h rfl) rfl)) rfl
  | perstNAssert => exact .at .whole execPerstNAssert_ends rfl
  | warmReset => exact .at .whole (.chain fun h => .ite h (warmBegin_keeps.after (atLeast_keeps.after h rfl) rfl)) rfl
  | coldReset => exact .at .whole execColdReset_ends rfl
  | firmwareStartPublish => exact .at .whole execFirmwareStartPublish_ends rfl
  | spineLinkDown => exact .at .serving execSpineLinkDown_ends rfl
  | fatalError => exact .at .signal (.chain fun h => .ite h (fatalError_keeps.after h rfl)) rfl
  | cxlMemRead => exact .at .signal execCxlMemRead_ends rfl
  | cxlMemWrite => exact .at .signal execCxlMemWrite_ends rfl
  | bisnpResponse => exact .at .hostPort (.chain fun h => .ite h (.ite (hpCnt_keeps.after h rfl) h)) rfl
  | hostSnoop | perstNDeassert => exact .at .hostPort (Keeps.refl _ s) rfl
  | hostReadCompletion => exact .at .copy execHostReadCompletion_ends rfl
  | hostCompletionTimeout => exact .at .copy (.chain fun h => Keeps.ite (hostImgFail_keeps.after h rfl) (hostFail_keeps.after h rfl)) rfl
  | hostLinkDown => exact .at .copy (.chain fun h => .ite h
    (hostWritesEnd_keeps.after (hostTasksEnd_keeps.after (hpErr_keeps.after h rfl) rfl) rfl)) rfl
  | ideIntegrityFailure => exact .at .hostPort (.chain fun h => .ite h (hpErr_keeps.after h rfl)) rfl
  | msixUnmask => exact .at .hostPort execMsixUnmask_ends rfl
  | spdmGetCertificate => exact .at .security execSpdmGetCertificate_ends rfl
  | spdmChallenge => exact .at .security execSpdmChallenge_ends rfl
  | spdmGetMeasurements => exact .at .security execSpdmGetMeasurements_ends rfl
  | spdmKeyExchange => exact .at .security (.chain fun h => .ite h (.ite (spdmSend_keeps.after h rfl) (spdmSend_keeps.after h rfl))) rfl
  | mctpControlMessage => exact .at .whole (.chain fun h => .ite h
    (.ite (mctpControl_keeps.after h rfl) (.ite (mctpRequest_keeps.after h rfl) h))) rfl
  | roceRdmaWrite => exact .at .net (npArrive_keeps fun _ _ _ => npWritePacket_keeps fun _ _ t => .refl _ t) rfl
  | roceWriteImmediate => exact .at .net execRoceWriteImmediate_ends rfl
  | roceRdmaRead => exact .at .net execRoceRdmaRead_ends rfl
  | roceSend => exact .at .net (npArrive_keeps fun _ _ _ => .chain fun h1 => .ite (npCnt_keeps.after h1 rfl)
    (npSend_keeps.after (State.updNport_keeps.after (State.setBind_keeps.after h1 rfl) rfl) rfl)) rfl
  | roceAck => exact .at .net execRoceAck_ends rfl
  | roceCnp => exact .at .net execRoceCnp_ends rfl
  | roceUnsupported => exact .at .net (.chain fun h => .ite h (npCnt_keeps.after (npRecv_keeps.after h rfl) rfl)) rfl
  | qpRetryTimeout => exact .at .net execQpRetryTimeout_ends rfl
  | pfcPauseFrame => exact .at .net execPfcPauseFrame_ends rfl
  | npLinkDown => exact .at .net execNpLinkDown_ends rfl
  | hostLinkUp => exact .at .mailbox execHostLinkUp_ends rfl
  | hbmStackFail => exact .at .signal execHbmStackFail_ends rfl
  | roceReadResponse => exact .at .net execRoceReadResponse_ends rfl
  | npLinkUp => exact .at .net (.chain fun h => .ite h (State.updNport_keeps.after h rfl)) rfl
  | fcsDrop => exact .at .register (.chain fun h => .ite h (npCnt_keeps.after h rfl)) rfl

/-- Settles O60: each command is a composition of the operations whose lemmas stand above, and the parts that those may change are
within its scope. -/
theorem commandsKeepTheRest : Obligations.CommandsKeepTheRest := by
  intro i s t ht
  have hends : Ends (scopeOf i).parts s (exec i s) := exec_ends
  rw [ht] at hends
  exact Keeps.within hends

/-- Settles O4: an outcome that keeps anything is a next state. -/
theorem everyCommandCompletes : Obligations.EveryCommandCompletes := by
  intro i s
  have hends : Ends (scopeOf i).parts s (exec i s) := exec_ends
  cases hx : exec i s with
  | next t => exact ⟨t, rfl⟩
  | fault _ => rw [hx] at hends; exact hends.elim
  | refused _ => rw [hx] at hends; exact hends.elim

end Sys2Proof.Machine
end
